-- ==== Sys2Proof/Word.lean ====
section
/-! DEFINITION. The words of the Valja device (R2, R3, R5): bytes, 64-bit words, the 14-bit twig word,
and the numbers that name boughs, groves, queues, plots, slices and ports (R4: all count from 0). -/

namespace Sys2Proof

abbrev Byte := BitVec 8
abbrev Word := BitVec 64
/-- A twig program word (R200). -/
abbrev Word14 := BitVec 14
/-- A word address in a program region or in crown RAM (R215, R231). -/
abbrev WordAddr := BitVec 20

abbrev BoughId := Fin 256
abbrev GroveId := Fin 16
abbrev QueueId := Fin 1024
abbrev PlotId := Fin 64
abbrev SliceId := Fin 64
abbrev StackId := Fin 8
abbrev PortId := Fin 4
abbrev VfId := Fin 64
abbrev CoreId := Fin 4
abbrev GReg := Fin 16
abbrev PReg := Fin 4

end Sys2Proof
end

