-- ==== Sys2Proof/Syntax.lean ====
section
/-! DEFINITION. The commands of the block: one constructor of `Instr` per row of spec/opcode_table.json.
A twig row is the decoded instruction that the twig's fetch delivers (chapter 08, chapter 04), with every field
of its words, the ones the spec requires to be 0 among them. An event row names where the event happens and the
values that come from outside the device. -/

namespace Sys2Proof

/-- A twig: a bough's sequencer, or a crown core (R236, R258). -/
inductive TwigId where
  | bough (b : BoughId)
  | crown (k : CoreId)
  deriving DecidableEq, Repr

/-- A canopy master that a reset can put into absorb state (R305). -/
inductive Master where
  | bough (b : BoughId)
  | host (n : PortId)
  | graft (n : PortId)
  | crown (k : CoreId)
  | vf (v : VfId)
  deriving DecidableEq, Repr

/-- A target with a commit filter (R149). -/
inductive Target where
  | slice (k : SliceId)
  | scratch (b : BoughId)
  deriving DecidableEq, Repr

/-- A host function: the physical function of a port, or a virtual function (R460). -/
inductive HostFn where
  | pf (n : PortId)
  | vf (v : VfId)
  deriving DecidableEq, Repr

/-- Who performs a register access (R538, R543, R545). -/
inductive RegWho where
  | crown (k : CoreId)
  | pf (n : PortId)
  | vf (v : VfId)
  deriving DecidableEq, Repr

/-- The operand fields of a three-word vector instruction (R86, R88): bit 0 of the operation code (U), the second
word's DST, SRCA, MASK and reserved bits, and the third word's SRCB, SRCC, TYPE and RTZ. -/
structure VFields where
  u : Bool
  dst : BitVec 5
  srca : BitVec 5
  mask : BitVec 2
  rsv : BitVec 2
  srcb : BitVec 5
  srcc : BitVec 5
  ty : BitVec 3
  rtz : Bool
  deriving DecidableEq, Repr

/-- How an access at a bank target ends (R261, R263, R274): which of the slice's accesses it is, how often it met a parity error, and which of
its words the checks on the way to the reader find uncorrectable. -/
structure AccessEnd where
  n : Nat
  parity : Fin 3
  bad : BitVec 8
  deriving DecidableEq, Repr

/-- A burst at the check of a slice's staging buffer (R271, R274): the slice, and which of its words the check finds uncorrectable. -/
structure StageCheck where
  slice : SliceId
  bad : BitVec 32
  deriving DecidableEq, Repr

/-- A memory transaction of a host function through BAR0 or BAR2 (R461, R462): a write carries its bytes. `damaged`: a word arrives
uncorrectable, or a beat is missing (R306, R309). -/
structure Tlp where
  fn : HostFn
  bar2 : Bool
  off : Nat
  data : List Byte
  poisoned : Bool
  damaged : Bool
  relaxed : Bool
  deriving DecidableEq, Repr

/-- What a configuration request of a host asks (R464): the parts of PCIe configuration state that the spec's rules
read. `other` is any further request; it completes and changes nothing that the spec names. -/
inductive CfgOp where
  | other
  | vfEnable (on : Bool)
  | msixEnable (on : Bool)
  | functionMask (on : Bool)
  | resizeBar2 (log2 : Nat)
  | aspmL1 (on : Bool)
  deriving DecidableEq, Repr

/-- The values a NEGOTIATE_ALGORITHMS request offers (R446): `true` where the supported value is among them. -/
structure AlgOffer where
  asym : Bool
  hash : Bool
  measSpec : Bool
  dhe : Bool
  aead : Bool
  keySchedule : Bool
  deriving DecidableEq, Repr

/-- One entry of an ADMIT flit (R472): TAG and ROLE. -/
structure AdmitEntry where
  tag : BitVec 32
  role : BitVec 2
  deriving DecidableEq, Repr

/-- The commands. -/
inductive Instr where
  -- SYS group (R207)
  | nop (t : TwigId) (gu : PReg)
  | isync (t : TwigId) (gu : PReg)
  | ret (t : TwigId) (gu : PReg)
  | resume (t : TwigId) (gu : PReg)
  | wfi (t : TwigId) (gu : PReg)
  | halt (t : TwigId) (gu : PReg)
  | neg (t : TwigId) (gu : PReg) (gd : GReg)
  | not (t : TwigId) (gu : PReg) (gd : GReg)
  | abs (t : TwigId) (gu : PReg) (gd : GReg)
  | jmpr (t : TwigId) (gu : PReg) (gs : GReg)
  | callr (t : TwigId) (gu : PReg) (gs : GReg)
  | sdadv (t : TwigId) (gu : PReg) (n : Fin 16)
  | pnot (t : TwigId) (gu : PReg) (pd ps : PReg)
  | pmov (t : TwigId) (gu : PReg) (pd ps : PReg)
  -- one-word arithmetic (R206)
  | mov (t : TwigId) (gu : PReg) (gd gs : GReg)
  | add (t : TwigId) (gu : PReg) (gd gs : GReg)
  | sub (t : TwigId) (gu : PReg) (gd gs : GReg)
  | movi (t : TwigId) (gu : PReg) (gd : GReg) (imm : BitVec 4)
  | addi (t : TwigId) (gu : PReg) (gd : GReg) (imm : BitVec 4)
  | pfx (t : TwigId) (payload : BitVec 10)
  -- ALU2 (R208): z is the field [7:4] that register forms require to be 0
  | and (t : TwigId) (gu : PReg) (gd gs : GReg) (z : BitVec 4) (gt : GReg)
  | or (t : TwigId) (gu : PReg) (gd gs : GReg) (z : BitVec 4) (gt : GReg)
  | xor (t : TwigId) (gu : PReg) (gd gs : GReg) (z : BitVec 4) (gt : GReg)
  | andn (t : TwigId) (gu : PReg) (gd gs : GReg) (z : BitVec 4) (gt : GReg)
  | add3 (t : TwigId) (gu : PReg) (gd gs : GReg) (z : BitVec 4) (gt : GReg)
  | sub3 (t : TwigId) (gu : PReg) (gd gs : GReg) (z : BitVec 4) (gt : GReg)
  | shl (t : TwigId) (gu : PReg) (gd gs : GReg) (z : BitVec 4) (gt : GReg)
  | shr (t : TwigId) (gu : PReg) (gd gs : GReg) (z : BitVec 4) (gt : GReg)
  | sra (t : TwigId) (gu : PReg) (gd gs : GReg) (z : BitVec 4) (gt : GReg)
  | rot (t : TwigId) (gu : PReg) (gd gs : GReg) (z : BitVec 4) (gt : GReg)
  | shli (t : TwigId) (gu : PReg) (gd gs : GReg) (z : BitVec 1) (amt : BitVec 7)
  | shri (t : TwigId) (gu : PReg) (gd gs : GReg) (z : BitVec 1) (amt : BitVec 7)
  | srai (t : TwigId) (gu : PReg) (gd gs : GReg) (z : BitVec 1) (amt : BitVec 7)
  | roti (t : TwigId) (gu : PReg) (gd gs : GReg) (z : BitVec 1) (amt : BitVec 7)
  | andi (t : TwigId) (gu : PReg) (gd gs : GReg) (imm : BitVec 8)
  | ori (t : TwigId) (gu : PReg) (gd gs : GReg) (imm : BitVec 8)
  | xori (t : TwigId) (gu : PReg) (gd gs : GReg) (imm : BitVec 8)
  | popc (t : TwigId) (gu : PReg) (gd gs : GReg) (z : BitVec 8)
  | clz (t : TwigId) (gu : PReg) (gd gs : GReg) (z : BitVec 8)
  | mfc (t : TwigId) (gu : PReg) (gd : GReg) (zh z : BitVec 4) (n : Fin 16)
  | mtc (t : TwigId) (gu : PReg) (zh : BitVec 4) (gs : GReg) (z : BitVec 4) (n : Fin 16)
  | pmr (t : TwigId) (gu : PReg) (gd gs : GReg) (z : BitVec 8)
  | pmw (t : TwigId) (gu : PReg) (zh : BitVec 4) (gs : GReg) (z : BitVec 4) (gt : GReg)
  | qopen (t : TwigId) (gu : PReg) (gd gs : GReg) (z : BitVec 4) (gt : GReg)
  | qput (t : TwigId) (gu : PReg) (gd gs : GReg) (z : BitVec 4) (gt : GReg)
  | qclose (t : TwigId) (gu : PReg) (gd gs : GReg) (z : BitVec 4) (gt : GReg)
  | qtake (t : TwigId) (gu : PReg) (gd gs : GReg) (z : BitVec 4) (gt : GReg)
  | qget (t : TwigId) (gu : PReg) (gd gs : GReg) (z : BitVec 4) (gt : GReg)
  | qdone (t : TwigId) (gu : PReg) (gd gs : GReg) (z : BitVec 4) (gt : GReg)
  | qstat (t : TwigId) (gu : PReg) (gd gs : GReg) (z : BitVec 4) (gt : GReg)
  -- CMP (R209)
  | cmp (t : TwigId) (gu : PReg) (gs gt : GReg) (cc : BitVec 3) (pd : PReg) (md : BitVec 2) (im : Bool) (imm : BitVec 6)
  -- loads and stores (R206, R210)
  | ld (t : TwigId) (gu : PReg) (gd gb : GReg)
  | st (t : TwigId) (gu : PReg) (gs gb : GReg)
  | ld8u (t : TwigId) (gu : PReg) (gd gb : GReg) (off : BitVec 10)
  | ld8s (t : TwigId) (gu : PReg) (gd gb : GReg) (off : BitVec 10)
  | ld16u (t : TwigId) (gu : PReg) (gd gb : GReg) (off : BitVec 10)
  | ld16s (t : TwigId) (gu : PReg) (gd gb : GReg) (off : BitVec 10)
  | ld32u (t : TwigId) (gu : PReg) (gd gb : GReg) (off : BitVec 10)
  | ld32s (t : TwigId) (gu : PReg) (gd gb : GReg) (off : BitVec 10)
  | ld64 (t : TwigId) (gu : PReg) (gd gb : GReg) (off : BitVec 10)
  | st8 (t : TwigId) (gu : PReg) (gs gb : GReg) (off : BitVec 10)
  | st16 (t : TwigId) (gu : PReg) (gs gb : GReg) (off : BitVec 10)
  | st32 (t : TwigId) (gu : PReg) (gs gb : GReg) (off : BitVec 10)
  | st64 (t : TwigId) (gu : PReg) (gs gb : GReg) (off : BitVec 10)
  | sdld (t : TwigId) (gu : PReg) (n : Fin 16) (gb : GReg) (off : BitVec 10)
  | sdst (t : TwigId) (gu : PReg) (n : Fin 16) (gb : GReg) (off : BitVec 10)
  | sdbase (t : TwigId) (gu : PReg) (n : Fin 16) (gb : GReg) (off : BitVec 10)
  -- transfers, loops and REP (R206, R211)
  | br (t : TwigId) (gu : PReg) (off : BitVec 8)
  | call (t : TwigId) (gu : PReg) (off : BitVec 8)
  | loop (t : TwigId) (gu : PReg) (z : BitVec 1) (n : Fin 2) (gc : GReg) (fin : BitVec 14)
  | loopi (t : TwigId) (gu : PReg) (z : BitVec 1) (n : Fin 2) (count : BitVec 4) (fin : BitVec 14)
  | rep (t : TwigId) (gu : PReg) (z : BitVec 2) (gc : GReg)
  | repi (t : TwigId) (gu : PReg) (z : BitVec 2) (count : BitVec 4)
  -- twig completions and releases
  | twigLoadReturn (t : TwigId)
  | storePerformed (t : TwigId)
  | twigWaitRelease (t : TwigId)
  | issueStallRelease (t : TwigId)
  | qopenCreditsReady (t : TwigId)
  | qtakePacketReady (t : TwigId)
  -- vector instructions (R92, R93)
  | vadd (t : TwigId) (gu : PReg) (f : VFields)
  | vsub (t : TwigId) (gu : PReg) (f : VFields)
  | vmin (t : TwigId) (gu : PReg) (f : VFields)
  | vmax (t : TwigId) (gu : PReg) (f : VFields)
  | vabs (t : TwigId) (gu : PReg) (f : VFields)
  | vneg (t : TwigId) (gu : PReg) (f : VFields)
  | vcmpEq (t : TwigId) (gu : PReg) (f : VFields)
  | vcmpNe (t : TwigId) (gu : PReg) (f : VFields)
  | vcmpLt (t : TwigId) (gu : PReg) (f : VFields)
  | vcmpLe (t : TwigId) (gu : PReg) (f : VFields)
  | vcmpGt (t : TwigId) (gu : PReg) (f : VFields)
  | vcmpGe (t : TwigId) (gu : PReg) (f : VFields)
  | vcmpUn (t : TwigId) (gu : PReg) (f : VFields)
  | vmul (t : TwigId) (gu : PReg) (f : VFields)
  | vfma (t : TwigId) (gu : PReg) (f : VFields)
  | vfms (t : TwigId) (gu : PReg) (f : VFields)
  | vdot4 (t : TwigId) (gu : PReg) (f : VFields)
  /-- VCVT: the field `u` of `f` is OP[4] and `src` is OP[3:0] (R102). -/
  | vcvt (t : TwigId) (gu : PReg) (src : BitVec 4) (f : VFields)
  | vand (t : TwigId) (gu : PReg) (f : VFields)
  | vor (t : TwigId) (gu : PReg) (f : VFields)
  | vxor (t : TwigId) (gu : PReg) (f : VFields)
  | vnot (t : TwigId) (gu : PReg) (f : VFields)
  | vshl (t : TwigId) (gu : PReg) (f : VFields)
  | vshr (t : TwigId) (gu : PReg) (f : VFields)
  | vsra (t : TwigId) (gu : PReg) (f : VFields)
  | vrot (t : TwigId) (gu : PReg) (f : VFields)
  | vpopc (t : TwigId) (gu : PReg) (f : VFields)
  | vclz (t : TwigId) (gu : PReg) (f : VFields)
  | vsel (t : TwigId) (gu : PReg) (f : VFields)
  | vcopy (t : TwigId) (gu : PReg) (f : VFields)
  | vfill (t : TwigId) (gu : PReg) (f : VFields)
  | vgatherf (t : TwigId) (gu : PReg) (f : VFields)
  | vdiv (t : TwigId) (gu : PReg) (f : VFields)
  | vrem (t : TwigId) (gu : PReg) (f : VFields)
  | vsqrt (t : TwigId) (gu : PReg) (f : VFields)
  | vsum (t : TwigId) (gu : PReg) (f : VFields)
  | vminr (t : TwigId) (gu : PReg) (f : VFields)
  | vmaxr (t : TwigId) (gu : PReg) (f : VFields)
  | vscan (t : TwigId) (gu : PReg) (f : VFields)
  | vsegsum (t : TwigId) (gu : PReg) (f : VFields)
  | vcompress (t : TwigId) (gu : PReg) (f : VFields)
  | vexpand (t : TwigId) (gu : PReg) (f : VFields)
  | vmerge (t : TwigId) (gu : PReg) (f : VFields)
  | vhashCrc (t : TwigId) (gu : PReg) (f : VFields)
  | vhashMix (t : TwigId) (gu : PReg) (f : VFields)
  | vbucket (t : TwigId) (gu : PReg) (f : VFields)
  | chain (t : TwigId) (gu : PReg) (n : BitVec 4)
  | fence (t : TwigId) (gu : PReg)
  | vwait (t : TwigId) (gu : PReg)
  | setvl (t : TwigId) (gu : PReg) (z : BitVec 2) (gd gs : GReg) (ty : BitVec 4)
  -- streams, journal and commit (chapters 02, 06, 11)
  | vectorDispatch (b : BoughId)
  | streamRequest (b : BoughId) (h : Fin 2) (slot : Nat)
  | ownershipLookupReturn (b : BoughId)
  | readResponseArrival (b : BoughId) (tag : Nat)
  | commitPoint (b : BoughId) (h : Fin 2)
  | vectorFaultTaken (b : BoughId) (h : Fin 2)
  | armRequestAccept (n : Nat)
  | filterInstall (tgt : Target)
  | commitInstant (b : BoughId)
  | filterHitDemand (tgt : Target) (n : Nat)
  | demandAnswer (tgt : Target) (n : Nat)
  | drainWriteAccept (b : BoughId) (h : Fin 2)
  | entryRelease (tgt : Target) (n : Nat)
  -- chain links (chapter 07)
  | chainTransferSend (l : Nat)
  | chainTransferArrive (l : Nat) (ep : BitVec 8) (off : Nat) (ws : List (Word × Bool))
  | chainEnd (l : Nat) (ep : BitVec 8) (len : Nat)
  | chainCommit (l : Nat) (ep : BitVec 8)
  | chainAbort (l : Nat) (ep : BitVec 8)
  | chainTaken (l : Nat) (ep : BitVec 8)
  | chainReplay (l : Nat) (ep : BitVec 8)
  | chainCreditReturn (l : Nat) (n : Nat)
  | linkBreak (l : Nat) (code : BitVec 4)
  | rearm (g : GroveId) (bits : BitVec 32)
  -- twig traps, bough control, program stores (chapters 02, 09)
  | trapEntry (t : TwigId)
  | timerLatch
  | boughReset (b : BoughId)
  | boughResetComplete (b : BoughId)
  | freeze (b : BoughId) (on : Bool)
  | portClean (m : Master)
  | programStoreFill (t : TwigId) (line : Nat)
  -- root memory (chapter 10)
  | sliceAcceptRequest (k : SliceId)
  | targetAccessComplete (k : SliceId) (e : AccessEnd)
  | writeBurstStage (b : StageCheck)
  | perBankRefresh (k : SliceId) (p : Fin 4) (bank : Fin 16) (waited : Nat)
  | patrolScrub (k : SliceId) (granule : Nat)
  | stackTempRead (s : StackId) (temp : BitVec 8)
  | linearMapSwitch
  | injectArm (s : StackId) (kind : BitVec 2) (word : BitVec 34)
  -- host transactions (chapter 11)
  | hostWriteTlp (n : PortId) (p : Tlp)
  | staged (id : Nat) (k : SliceId)
  | commit (id : Nat) (k : SliceId)
  | discard (id : Nat) (k : SliceId)
  | committed (id : Nat) (k : SliceId)
  | hostScratchpadWrite (id : Nat)
  | hostReadRequest (n : PortId) (tag : Nat) (fn : HostFn) (bar2 : Bool) (off len : Nat)
  | hostReadCompletion (n : PortId) (tag : Nat)
  | registerWrite (who : RegWho) (off : Nat) (wide : Bool) (v : Word)
  -- scratchpads (chapter 12)
  | sweepRegionStart (b : BoughId)
  | sweepRestore (b : BoughId) (failed : BitVec 4)
  -- sap queues (chapter 13)
  | flush (q : QueueId)
  | queueFlush (q : QueueId)
  | qwOpen (fn : HostFn) (q : QueueId) (v : Word)
  | qwClose (fn : HostFn) (q : QueueId) (v : Word)
  | qwTake (fn : HostFn) (q : QueueId) (v : Word)
  | qwDone (fn : HostFn) (q : QueueId) (v : Word)
  | qwDataWrite (fn : HostFn) (q : QueueId) (i : Nat) (v : Word)
  | qwDataRead (fn : HostFn) (q : QueueId) (i : Nat)
  | msixUnmask (fn : HostFn) (entry : Nat)
  -- plots (chapter 14)
  | plotReset (p : PlotId)
  | plotResetComplete (p : PlotId)
  | park (p : PlotId) (on : Bool)
  | parkHold (p : PlotId)
  | preempt (p : PlotId)
  | preemptGraceExpiry (p : PlotId)
  | plotBoughReset (p : PlotId) (b : BoughId)
  | capEvaluation
  | crownMessageSend (b : BoughId)
  -- Grain image (chapter 15)
  | grainStaged
  | activationDrain
  | activationWrite
  | switchTick
  | plotStart
  | regrain
  | regrainSwitchTick
  -- ring ledger (chapter 16)
  | ringTick (energyNJ : Nat)
  | minuteBoundary
  | hourlySeal
  | energyApportion
  | ringCalSync (v : Word)
  | ledgerItemPost
  | journalSlotCommit
  | thermalCycleSample
  | pwrFailAssert
  | pwrFailDeassert
  | signatureComplete
  -- heartwood (chapter 17); tr names the transport: 0-3 DOE of port n, 4 SMBus, 5-8 MCTP VDM of port n
  | getVersion (tr : Fin 9)
  | getCapabilities (tr : Fin 9)
  | negotiateAlgorithms (tr : Fin 9) (offer : AlgOffer)
  | getDigests (tr : Fin 9)
  | getCertificate (tr : Fin 9) (slot : BitVec 4) (off len : Nat)
  | challenge (tr : Fin 9) (slot : BitVec 4) (nonce : BitVec 256)
  | getMeasurements (tr : Fin 9) (slot : BitVec 4) (index : BitVec 8) (sig : Bool) (nonce : BitVec 256)
  | keyExchange (tr : Fin 9) (slot : BitVec 4) (heartbeat : Nat)
  | finish (tr : Fin 9) (sid : Nat)
  | heartbeat (tr : Fin 9) (sid : Nat)
  | keyUpdate (tr : Fin 9) (sid : Nat)
  | endSession (tr : Fin 9) (sid : Nat)
  | respondIfReady (tr : Fin 9)
  | spdmUnsupportedRequest (tr : Fin 9) (code : BitVec 8)
  | sessionHeartbeatTimeout (sid : Nat)
  | keyProg (tr : Fin 9) (sid : Nat) (n : PortId) (kset : Fin 2) (sub : Fin 3) (key : BitVec 256)
  | kSetGo (tr : Fin 9) (sid : Nat) (n : PortId) (kset : Fin 2) (sub : Fin 3)
  | kSetStop (tr : Fin 9) (sid : Nat) (n : PortId) (kset : Fin 2) (sub : Fin 3)
  | query (tr : Fin 9) (sid : Nat) (n : PortId)
  -- host links (chapter 18)
  | perstAssert (n : PortId) (hot : Bool)
  | perstDeassert (n : PortId)
  | hostLinkDown (n : PortId)
  | hostLinkRetrain (n : PortId) (speed : BitVec 4) (width : BitVec 5) (flit : Bool)
  | vfFlr (v : VfId)
  | pfFlr (n : PortId)
  | configRequest (n : PortId) (fn : HostFn) (op : CfgOp)
  -- graft links (chapter 18)
  | graftBeaconTx (n : PortId)
  | graftBeaconRx (n : PortId)
  | graftTrainLock (n : PortId)
  | graftTrainTimeout (n : PortId)
  | graftHelloTx (n : PortId)
  | hello (n : PortId) (protocol : BitVec 16) (peerPort rank : BitVec 2) (serial image bootId : Word)
  | graftHelloTimeout (n : PortId)
  | auth (n : PortId) (part : BitVec 4) (off : BitVec 16) (bytes : List Byte)
  | graftAuthTimeout (n : PortId)
  | admitList (n : PortId) (last : Bool) (es : List AdmitEntry)
  | graftRefusedTimeout (n : PortId)
  | leave (n : PortId)
  | queueData (n : PortId) (tag : BitVec 32) (pseq : BitVec 16) (off : Nat) (ws : List (Word × Bool))
  | closed (n : PortId) (tag : BitVec 32) (pseq : BitVec 16)
  | queueAbort (n : PortId) (tag : BitVec 32) (pseq : BitVec 16)
  | credit (n : PortId) (tag : BitVec 32) (isQueue : Bool) (words : BitVec 17)
  | graftBadFlit (n : PortId)
  | graftNak (n : PortId) (ack : BitVec 10)
  | graftIdle (n : PortId) (ack : BitVec 10)
  | graftLaneLockLoss (n : PortId) (lane : Fin 8)
  | graftAckTimeout (n : PortId)
  | graftKeepaliveMiss (n : PortId)
  | hold (n : PortId) (on : Bool)
  -- clocks, levels, Dormant (chapter 19)
  | pwrPlReq (level : Fin 4)
  | voltageSettled (mv : Nat)
  | voltageTimeout
  | frameEdgeSwitch
  | droop
  | hwThrottle
  | hwThrottleRelease
  | thermalTrip
  | sensorSample (temps : List Nat)
  | levelEvaluation
  | refclkLoss
  | refclkRestore
  | pwrAlarm (v : Word)
  | alarmReached
  | dormantEnter
  | dormantStepComplete
  | wakeSource (code : BitVec 4)
  | wakeStepDelayEnd (ready : Bool)
  | wakeStepReady (us : Nat)
  | wakeStepTimeout
  -- modes, resets, boot, mailbox (chapter 20)
  | powerOn
  | resetNAssert
  | resetNDeassert
  | bootStepPass (cause : BitVec 8) (us : Nat)
  | bootStepTimeout
  | modeDrainComplete
  | kick
  | watchdogExpiry
  | restart (k : CoreId)
  | getInfo (ch : Fin 5)
  | reset (ch : Fin 5)
  | enterService (ch : Fin 5)
  | fwWrite (ch : Fin 5)
  | slotWrite (ch : Fin 5)
  | activate (ch : Fin 5)
  | enrollOwner (ch : Fin 5)
  | transferOwner (ch : Fin 5)
  | calSync (ch : Fin 5)
  | ledgerRead (ch : Fin 5)
  | ledgerFree (ch : Fin 5)
  | unknownOp (ch : Fin 5)
  | coreResetComplete
  | refclkStopInDormant (lostUs : Nat)
  | railOutOfTolerance (rail : Nat)
  | hostLinkTrained (n : PortId) (speed : BitVec 4) (width : BitVec 5) (flit : Bool)
  deriving DecidableEq, Repr

end Sys2Proof
end

