-- ==== Sys2Proof/Decode.lean ====
section
/-! DEFINITION. The words of the command table. spec/opcode_table.json gives no row any bits (its `fields` lists are empty), so no word
spells a command. -/

namespace Sys2Proof

/-- The command that a word spells by the table's bits: none, because the table gives none. -/
def decodeTableWord (_nbits _w : Nat) : Option Instr := none

end Sys2Proof
end

