-- ==== Sys2Proof/Machine/BoughState.lean ====
section
/-! DEFINITION. The state of one bough and of one twig (chapters 02, 03, 06, 08, 09): plain data only. -/

namespace Sys2Proof.Machine

/-- Element types (R57); `code` order is the TYPE code 0x0-0xB. -/
inductive ETy where
  | u8 | u16 | u32 | u64 | i8 | i16 | i32 | i64 | fp16 | bf16 | fp32 | fp64
  deriving DecidableEq, Repr

/-- The operation of a three-word vector instruction (R92). -/
inductive VOp where
  | add | sub | min | max | abs | neg | cmpEq | cmpNe | cmpLt | cmpLe | cmpGt | cmpGe | cmpUn
  | mul | fma | fms | dot4 | cvt | and | or | xor | not | shl | shr | sra | rot | popc | clz
  | sel | copy | fill | gatherf | div | rem | sqrt | sum | minr | maxr | scan | segsum
  | compress | expand | merge | hashCrc | hashMix | bucket
  deriving DecidableEq, Repr

/-- Trap causes (R240), the interrupts among them. -/
inductive Cause where
  | illegal | illegalRep | privilege | access | unmapped | poison | stack | cfi | shadowFull
  | length | fpInvalid | fpDivZero | fpOverflow | fpUnderflow | fpInexact | chainBreak
  | crownMsg | timer | queue
  deriving DecidableEq, Repr

/-- A stream descriptor: four 64-bit words (R59-R61). -/
structure Desc where
  w0 : Word
  w1 : Word
  w2 : Word
  w3 : Word
  deriving DecidableEq, Repr

/-- An operand as a queue entry captures it (R26, R55). -/
inductive Opnd where
  | none
  | stream (d : Desc) (ix : Option Desc)
  | vreg (n : Fin 8)
  | bcast (v : Word)
  deriving DecidableEq, Repr

/-- An issue-queue entry (R26), with the control fields of R248. -/
structure QEntry where
  op : VOp
  ty : ETy
  /-- Source type of a VCVT; the instruction type otherwise. -/
  srcTy : ETy
  rtz : Bool
  dst : Opnd
  /-- Mask destination of a VCMP (R101). -/
  dstMask : Fin 4
  a : Opnd
  b : Opnd
  c : Opnd
  /-- Scalar return register (R98). -/
  ret : Option GReg
  mask : Fin 4
  vl : Nat
  rm : BitVec 2
  ftz : Bool
  daz : Bool
  /-- NV_EN, DZ_EN, OF_EN, UF_EN, NX_EN in bits 0-4. -/
  en : BitVec 5
  head : WordAddr
  pos : Nat
  inBlock : Bool
  blockLen : Nat
  /-- The entry has run before: its next run asks its senders to replay (R181). -/
  again : Bool
  deriving DecidableEq, Repr

/-- Which operand of which member of a run a stream supplies: source A, B or C (0-2) or the destination (3),
and whether it is the operand's index stream. -/
structure SlotKey where
  mem : Nat
  opnd : Nat
  index : Bool
  deriving DecidableEq, Repr

/-- A stream address generator (R30): the stream it serves, how many elements it covers and the next element. -/
structure Slot where
  key : SlotKey
  desc : Desc
  count : Nat
  next : Nat
  /-- The granule requested last: a strided stream asks for each granule once (R33). -/
  last : Option Nat
  deriving DecidableEq, Repr

/-- Data that a read response brought: the bytes from `base`, a poison flag for each 64-bit word, or a fault. -/
structure Chunk where
  key : SlotKey
  base : Nat
  data : List Byte
  poison : List Bool
  fault : Option Cause
  deriving DecidableEq, Repr

/-- The states of a journal half (R145). -/
inductive HalfSt where
  | free | filling | arming | draining
  deriving DecidableEq, Repr

/-- What a run's results do at its commit instant (R145, R148). -/
structure RunResult where
  /-- Bytes written, one list per memory destination stream: the final destination, then taps (R154). -/
  writes : List (List (Nat × Byte))
  vregs : List (Fin 8 × Nat × Nat × Nat)
  masks : List (Fin 4 × Nat × Nat)
  scalar : Option (GReg × Word)
  newVl : Option Nat
  qreads : List (QueueId × Nat)
  qapps : List (QueueId × List Word)
  flags : BitVec 5
  chains : List (Nat × Nat × List Word)
  deriving DecidableEq, Repr

/-- A chain-out stream of a run: link, epoch, words sent, END sent, TAKEN back (R173, R174, R178). -/
structure SendSt where
  link : Nat
  epoch : BitVec 16
  sent : Nat
  ended : Bool
  taken : Bool
  deriving DecidableEq, Repr

/-- A chain-in stream of a run (R177): link, epoch, the words that the run's VL reads, the words taken from the chain buffer (with
poison), END length, COMMIT seen. -/
structure RecvSt where
  link : Nat
  epoch : BitVec 16
  need : Nat
  words : List (Word × Bool)
  endLen : Option Nat
  committed : Bool
  /-- The link broke when the run held the whole committed epoch: the run commits and tells no one (R184, R190). -/
  cut : Bool
  deriving DecidableEq, Repr

/-- A reorder tag (R33): the stream it serves; a read of the bough's own scratchpad holds none. `come`: its data waits in the reorder
buffer for the data of earlier elements. -/
structure ReTag where
  tag : Nat
  key : SlotKey
  own : Bool
  come : Bool
  deriving DecidableEq, Repr

/-- A journal half (R145) and the run that fills it. -/
structure Half where
  st : HalfSt
  run : List QEntry
  ord : Nat
  slots : List Slot
  chunks : List Chunk
  /-- Requests whose data has not left the reorder buffer, in the order of issue (R33). -/
  tags : List ReTag
  result : Option RunResult
  ranges : List (Nat × Nat)
  drain : List Nat
  sends : List SendSt
  recvs : List RecvSt
  /-- A link of the run has broken while an earlier instruction was uncommitted: element index and fault address of the CHAIN_BREAK
  that waits for that commit (R158, R188, R189). -/
  broke : Option (Nat × Word)
  deriving DecidableEq, Repr

/-- A vector fault that the bough has signalled to its twig (R158, R159, R189). -/
structure VFault where
  cause : Cause
  elem : Nat
  addr : Word
  /-- TSBP.VALID has been 0 while the fault waited (R247, R256). -/
  held : Bool
  deriving DecidableEq, Repr

/-- The saved queue with the TSB base in force when it was made (R251, R567). -/
structure SavedQ where
  base : Word
  entries : List QEntry
  deriving DecidableEq, Repr

/-- A twig load in progress (R229). -/
structure LoadOp where
  /-- Words of the load, its PFX words left out. -/
  words : Nat
  gd : GReg
  size : Nat
  signed : Bool
  addr : Nat
  /-- Read tags still owed by root slices. -/
  owed : List Nat
  got : List Chunk
  deriving DecidableEq, Repr

/-- An entry of the twig store buffer (R229). -/
structure StoreOp where
  id : Nat
  addr : Nat
  bytes : List Byte
  /-- It has left the twig for its target; a port that absorbs holds it (R158). -/
  sent : Bool
  /-- The write has become visible at its target. -/
  visible : Bool
  deriving DecidableEq, Repr

/-- REP state (R224-R226): the words of the REP and its PFX words; RC as it stood before the REP latched its count, while the target has
not been decoded (an ILLEGAL_REP leaves RC unchanged, R225); and whether a false guard on the REP skips the target. -/
structure RepSt where
  len : Nat
  old : Option Word
  skip : Bool
  deriving DecidableEq, Repr

/-- A CHAIN block being decoded (R80): n, the members decoded so far, as commands, the broadcast registers that they name (R29), and
whether one of them has a guard other than 0b00 (R91). -/
structure BlockSt where
  n : Nat
  members : List Instr
  reads : List GReg
  bad : Bool
  deriving DecidableEq, Repr

/-- A line of the twig's instruction cache (R234): line number, its 16 words as the fill read them, staleness, and whether it was
uncorrectable. -/
structure CLine where
  line : Nat
  words : List Word14
  stale : Bool
  bad : Bool
  deriving DecidableEq, Repr

/-- What a waiting instruction waits for: `plain`, its own condition, at a boundary; `all`, every earlier vector instruction, at a boundary
(R29); `load`, its data, at no boundary (R229). -/
inductive WaitKind where
  | plain | all | load
  deriving DecidableEq, Repr

/-- Whether a twig executes. `held` is parking, Dormant or activation (R375); `halted` a double fault or HALT. -/
inductive TwigRun where
  | stopped | running | held | halted
  deriving DecidableEq, Repr

/-- A twig (chapters 08 and 09). -/
structure Twig where
  g : Vector Word 16
  /-- P3-P0; bit 0 is always read as 1 (R201). -/
  pred : BitVec 4
  pc : WordAddr
  /-- PC stands at the word past word 2^20 - 1 (R232): its 20 bits are then 0. -/
  past : Bool
  vcsr : Word
  tsbp : Word
  rc : Word
  lc0 : Word
  ls0 : WordAddr
  le0 : WordAddr
  lc1 : Word
  ls1 : WordAddr
  le1 : WordAddr
  /-- VL, 0 to 32,768 (R70). -/
  vl : Nat
  /-- The shadow stack, top first, at most 1,024 entries (R220). -/
  shadow : List WordAddr
  /-- PFX payloads collected before the instruction they prefix (R204). -/
  pfx : List (BitVec 10)
  rep : Option RepSt
  /-- Repeat state ACTIVE restored by RESUME (R226). -/
  repActive : Bool
  block : Option BlockSt
  /-- The command at whose boundary the twig waits (R27, R29, R157, R345). -/
  waiting : Option Instr
  wait : WaitKind
  /-- The twig owes the wait that VCSR.SYNC puts after a vector instruction (R29). -/
  sync : Bool
  load : Option LoadOp
  stores : List StoreOp
  /-- A split store of which a slice found a word uncorrectable: the first byte of the lower faulting half (R228, R272). -/
  badStore : Option Nat
  timerLatch : Bool
  icache : List CLine
  lineBuf : Option CLine
  run : TwigRun
  deriving DecidableEq, Repr

/-- A bough (chapter 02). -/
structure Bough where
  twig : Twig
  sd : Vector Desc 16
  v : Vector (BitVec 8192) 8
  /-- M1-M3; M0 is all ones and not stored (R75). -/
  m : Vector (BitVec 16384) 3
  iq : List QEntry
  saved : Option SavedQ
  halves : Vector Half 2
  vfault : Option VFault
  /-- Ownership cache, most recently used first, at most 32 regions (R304). -/
  ocache : List (Nat × Option PlotId)
  lookup : Option Nat
  /-- The generators whose next request the lookup holds: half and slot (R302, R304). -/
  lookHeld : List (Fin 2 × Nat)
  /-- Read responses on their way to the port: tag and data. -/
  resps : List (Nat × Chunk)
  /-- Tags whose responses the port absorbs (R305). -/
  absorbTags : List Nat
  freeze : Bool
  resetting : Bool
  absorbing : Bool
  nextOrd : Nat
  deriving DecidableEq, Repr

def Desc.zero : Desc := ⟨0, 0, 0, 0⟩

def Half.free : Half :=
  { st := .free, run := [], ord := 0, slots := [], chunks := [], tags := [], result := none, ranges := [],
    drain := [], sends := [], recvs := [], broke := none }

/-- The twig after any reset that clears it: registers 0, PRED 0 with P0 reading 1, PC at word 0x000 (R241). DEDUCED: log entry 138. -/
def Twig.start (run : TwigRun) : Twig :=
  { g := Vector.replicate 16 0, pred := 1, pc := 0, past := false, vcsr := 0, tsbp := 0, rc := 0, lc0 := 0, ls0 := 0, le0 := 0,
    lc1 := 0, ls1 := 0, le1 := 0, vl := 0, shadow := [], pfx := [], rep := none, repActive := false, block := none,
    waiting := none, wait := .plain, sync := false, load := none, stores := [], badStore := none, timerLatch := false, icache := [], lineBuf := none, run := run }

/-- A cleared bough (R41, R61, R145): twig stopped, descriptors, V and M registers 0, halves FREE. -/
def Bough.start : Bough :=
  { twig := Twig.start .stopped, sd := Vector.replicate 16 Desc.zero, v := Vector.replicate 8 0,
    m := Vector.replicate 3 0, iq := [], saved := none, halves := Vector.replicate 2 Half.free, vfault := none,
    ocache := [], lookup := none, lookHeld := [], resps := [], absorbTags := [], freeze := false,
    resetting := false, absorbing := false, nextOrd := 0 }

end Sys2Proof.Machine
end

