-- ==== Sys2Proof/Machine/Arith.lean ====
section
/-! DEFINITION. Element types and the results of arithmetic (chapter 05, R57, R100-R119): every value is the bit
pattern of an element as a natural number, every flag set is NV, DZ, OF, UF, NX in bits 0-4. -/

namespace Sys2Proof.Machine

/-- The type with code `c` (R57); codes 0xC-0xF are reserved. -/
def ETy.ofCode (c : Nat) : Option ETy :=
  match c with
  | 0 => some .u8 | 1 => some .u16 | 2 => some .u32 | 3 => some .u64
  | 4 => some .i8 | 5 => some .i16 | 6 => some .i32 | 7 => some .i64
  | 8 => some .fp16 | 9 => some .bf16 | 10 => some .fp32 | 11 => some .fp64
  | _ => none

def ETy.code : ETy → Nat
  | .u8 => 0 | .u16 => 1 | .u32 => 2 | .u64 => 3 | .i8 => 4 | .i16 => 5 | .i32 => 6 | .i64 => 7
  | .fp16 => 8 | .bf16 => 9 | .fp32 => 10 | .fp64 => 11

/-- Element size in bytes (R57). -/
def ETy.size : ETy → Nat
  | .u8 | .i8 => 1
  | .u16 | .i16 | .fp16 | .bf16 => 2
  | .u32 | .i32 | .fp32 => 4
  | .u64 | .i64 | .fp64 => 8

def ETy.width (t : ETy) : Nat := 8 * t.size

/-- VLMAX (R57). -/
def ETy.vlmax (t : ETy) : Nat := 32768 / t.size

/-- Elements that one vector register holds (R57). -/
def ETy.perReg (t : ETy) : Nat := 1024 / t.size

def ETy.isFp : ETy → Bool
  | .fp16 | .bf16 | .fp32 | .fp64 => true
  | _ => false

def ETy.isSigned : ETy → Bool
  | .i8 | .i16 | .i32 | .i64 => true
  | _ => false

def ETy.isUnsigned : ETy → Bool
  | .u8 | .u16 | .u32 | .u64 => true
  | _ => false

/-- The U type of the same width (R105). -/
def ETy.toU : ETy → ETy
  | .u8 | .i8 => .u8
  | .u16 | .i16 | .fp16 | .bf16 => .u16
  | .u32 | .i32 | .fp32 => .u32
  | .u64 | .i64 | .fp64 => .u64

/-- The instruction type of TYPE and U (R89); `none` is the ILLEGAL cells of the table. -/
def instrType (ty : BitVec 3) (u : Bool) : Option ETy :=
  match ty.toNat, u with
  | 0, false => some .i8 | 0, true => some .u8
  | 1, false => some .i16 | 1, true => some .u16
  | 2, false => some .i32 | 2, true => some .u32
  | 3, false => some .i64 | 3, true => some .u64
  | 4, false => some .fp16 | 5, false => some .bf16
  | 6, false => some .fp32 | 7, false => some .fp64
  | _, _ => none

/-- Rounding modes (R124). -/
inductive RMode where
  | rne | rtz | rup | rdn
  deriving DecidableEq, Repr

def RMode.ofBits (b : BitVec 2) : RMode :=
  match b.toNat with
  | 0 => .rne | 1 => .rtz | 2 => .rup | _ => .rdn

def flNone : BitVec 5 := 0
def flNV : BitVec 5 := 1
def flDZ : BitVec 5 := 2
def flOF : BitVec 5 := 4
def flUF : BitVec 5 := 8
def flNX : BitVec 5 := 16

/-- A floating-point format (R121): precision, exponent bits, bias. -/
structure Fmt where
  p : Nat
  eb : Nat
  bias : Nat
  deriving DecidableEq, Repr

def ETy.fmt : ETy → Fmt
  | .fp16 => ⟨11, 5, 15⟩
  | .bf16 => ⟨8, 8, 127⟩
  | .fp32 => ⟨24, 8, 127⟩
  | _ => ⟨53, 11, 1023⟩

/-- Exponent of the least significant bit of a subnormal. -/
def Fmt.emin (f : Fmt) : Int := 2 - f.bias - f.p

def Fmt.signBit (f : Fmt) : Nat := 2 ^ (f.eb + f.p - 1)
def Fmt.infBits (f : Fmt) : Nat := (2 ^ f.eb - 1) * 2 ^ (f.p - 1)
/-- The canonical NaN (R128). -/
def Fmt.nanBits (f : Fmt) : Nat := f.infBits + 2 ^ (f.p - 2)
def Fmt.maxBits (f : Fmt) : Nat := f.infBits - 1

def Fmt.withSign (f : Fmt) (s : Bool) (x : Nat) : Nat := if s then f.signBit + x else x

/-- A floating-point datum: `fin s m e` is (-1)^s x m x 2^e, a zero when m is 0. -/
inductive FVal where
  | nan (signalling : Bool)
  | inf (s : Bool)
  | fin (s : Bool) (m : Nat) (e : Int)
  deriving DecidableEq, Repr

/-- Reads an encoding; under DAZ a subnormal is the zero of its sign (R129). -/
def Fmt.decode (f : Fmt) (daz : Bool) (x : Nat) : FVal :=
  let frac := x % 2 ^ (f.p - 1)
  let ex := x / 2 ^ (f.p - 1) % 2 ^ f.eb
  let s := decide (x / f.signBit % 2 = 1)
  if ex = 2 ^ f.eb - 1 then
    if frac = 0 then .inf s else .nan (decide (frac < 2 ^ (f.p - 2)))
  else if ex = 0 then
    if daz then .fin s 0 0 else .fin s frac f.emin
  else .fin s (2 ^ (f.p - 1) + frac) (f.emin + ex - 1)

/-- Whether the remainder `rem` of a shift by `sh` bits rounds the magnitude up. -/
def roundsUp (rm : RMode) (s : Bool) (n rem sh : Nat) : Bool :=
  match rm with
  | .rne => decide (2 * rem > 2 ^ sh) || (decide (2 * rem = 2 ^ sh) && decide (n % 2 = 1))
  | .rtz => false
  | .rup => !s && decide (rem ≠ 0)
  | .rdn => s && decide (rem ≠ 0)

/-- m x 2^e rounded to a multiple of 2^q: the multiple, and whether it is inexact. -/
def roundTo (rm : RMode) (s : Bool) (m : Nat) (e q : Int) : Nat × Bool :=
  if q ≤ e then (m * 2 ^ (e - q).toNat, false)
  else
    let sh := (q - e).toNat
    let n := m / 2 ^ sh
    let rem := m % 2 ^ sh
    (if roundsUp rm s n rem sh then n + 1 else n, decide (rem ≠ 0))

/-- The overflow result of R131. -/
def Fmt.overflow (f : Fmt) (rm : RMode) (s : Bool) : Nat :=
  let toInf := match rm with
    | .rne => true
    | .rtz => false
    | .rup => !s
    | .rdn => s
  f.withSign s (if toInf then f.infBits else f.maxBits)

/-- Rounds the exact nonzero value (-1)^s x (m + sticky) x 2^e once to the format (R130, R131), FTZ as R129 gives. -/
def Fmt.round (f : Fmt) (rm : RMode) (ftz : Bool) (s : Bool) (m0 : Nat) (e0 : Int) (sticky : Bool) :
    Nat × BitVec 5 :=
  let m := 2 * m0 + (if sticky then 1 else 0)
  let e := e0 - 1
  let qu : Int := e + (Nat.log2 m + 1 : Nat) - f.p
  let u := roundTo rm s m e qu
  let tiny := decide ((if u.1 = 2 ^ f.p then qu + 1 else qu) < f.emin)
  let q := max qu f.emin
  let r := roundTo rm s m e q
  let n := if r.1 = 2 ^ f.p then 2 ^ (f.p - 1) else r.1
  let q' := if r.1 = 2 ^ f.p then q + 1 else q
  let nx := if r.2 then flNX else flNone
  if decide ((f.bias : Int) - (f.p - 1 : Nat) < q') && decide (2 ^ (f.p - 1) ≤ n) then
    (f.overflow rm s, flOF ||| flNX)
  else if n < 2 ^ (f.p - 1) then
    if ftz then (f.withSign s 0, flUF ||| flNX)
    else (f.withSign s n, nx ||| (if tiny && r.2 then flUF else flNone))
  else
    let ex := (q' - f.emin + 1).toNat
    (f.withSign s (ex * 2 ^ (f.p - 1) + (n - 2 ^ (f.p - 1))), nx ||| (if tiny && r.2 then flUF else flNone))

def FVal.isSnan : FVal → Bool
  | .nan s => s
  | _ => false

def FVal.isNan : FVal → Bool
  | .nan _ => true
  | _ => false

def snanFlag (vs : List FVal) : BitVec 5 := if vs.any FVal.isSnan then flNV else flNone

/-- The sign of an exact zero sum (R132). -/
def zeroSumSign (rm : RMode) (s1 s2 : Bool) : Bool := if s1 = s2 then s1 else decide (rm = .rdn)

def signedM (s : Bool) (m : Nat) : Int := if s then -(m : Int) else m

/-- Sum of two finite values, rounded once (R132). -/
def Fmt.addFin (f : Fmt) (rm : RMode) (ftz : Bool) (s1 : Bool) (m1 : Nat) (e1 : Int) (s2 : Bool) (m2 : Nat)
    (e2 : Int) : Nat × BitVec 5 :=
  let e := min e1 e2
  let v := signedM s1 (m1 * 2 ^ (e1 - e).toNat) + signedM s2 (m2 * 2 ^ (e2 - e).toNat)
  if v = 0 then
    (f.withSign (if m1 = 0 ∧ m2 = 0 then zeroSumSign rm s1 s2 else decide (rm = .rdn)) 0, flNone)
  else f.round rm ftz (decide (v < 0)) v.natAbs e false

def FVal.flip (neg : Bool) : FVal → FVal
  | .nan s => .nan s
  | .inf s => .inf (s ^^ neg)
  | .fin s m e => .fin (s ^^ neg) m e

/-- VADD and VSUB (R133). -/
def Fmt.add (f : Fmt) (rm : RMode) (ftz : Bool) (a b : FVal) : Nat × BitVec 5 :=
  match a, b with
  | .nan _, _ | _, .nan _ => (f.nanBits, snanFlag [a, b])
  | .inf s1, .inf s2 => if s1 = s2 then (f.withSign s1 f.infBits, flNone) else (f.nanBits, flNV)
  | .inf s, .fin _ _ _ | .fin _ _ _, .inf s => (f.withSign s f.infBits, flNone)
  | .fin s1 m1 e1, .fin s2 m2 e2 => f.addFin rm ftz s1 m1 e1 s2 m2 e2

/-- VMUL (R134). -/
def Fmt.mul (f : Fmt) (rm : RMode) (ftz : Bool) (a b : FVal) : Nat × BitVec 5 :=
  match a, b with
  | .nan _, _ | _, .nan _ => (f.nanBits, snanFlag [a, b])
  | .inf s1, .inf s2 => (f.withSign (s1 ^^ s2) f.infBits, flNone)
  | .inf s1, .fin s2 m _ | .fin s2 m _, .inf s1 =>
    if m = 0 then (f.nanBits, flNV) else (f.withSign (s1 ^^ s2) f.infBits, flNone)
  | .fin s1 m1 e1, .fin s2 m2 e2 =>
    if m1 * m2 = 0 then (f.withSign (s1 ^^ s2) 0, flNone)
    else f.round rm ftz (s1 ^^ s2) (m1 * m2) (e1 + e2) false

/-- Whether a x b is 0 x infinity. -/
def zeroTimesInf (a b : FVal) : Bool :=
  match a, b with
  | .inf _, .fin _ m _ | .fin _ m _, .inf _ => decide (m = 0)
  | _, _ => false

/-- VFMA, and VFMS with C negated (R134): one rounding. -/
def Fmt.fma (f : Fmt) (rm : RMode) (ftz : Bool) (a b c : FVal) : Nat × BitVec 5 :=
  if zeroTimesInf a b then (f.nanBits, flNV)
  else
    match a, b, c with
    | .nan _, _, _ | _, .nan _, _ | _, _, .nan _ => (f.nanBits, snanFlag [a, b, c])
    | .fin s1 m1 e1, .fin s2 m2 e2, .fin s3 m3 e3 => f.addFin rm ftz (s1 ^^ s2) (m1 * m2) (e1 + e2) s3 m3 e3
    | .fin _ _ _, .fin _ _ _, .inf s3 => (f.withSign s3 f.infBits, flNone)
    | .inf s1, .inf s2, c | .inf s1, .fin s2 _ _, c | .fin s1 _ _, .inf s2, c =>
      match c with
      | .inf s3 => if (s1 ^^ s2) = s3 then (f.withSign s3 f.infBits, flNone) else (f.nanBits, flNV)
      | _ => (f.withSign (s1 ^^ s2) f.infBits, flNone)

/-- VDIV (R135). -/
def Fmt.div (f : Fmt) (rm : RMode) (ftz : Bool) (a b : FVal) : Nat × BitVec 5 :=
  match a, b with
  | .nan _, _ | _, .nan _ => (f.nanBits, snanFlag [a, b])
  | .inf _, .inf _ => (f.nanBits, flNV)
  | .inf s1, .fin s2 _ _ => (f.withSign (s1 ^^ s2) f.infBits, flNone)
  | .fin s1 _ _, .inf s2 => (f.withSign (s1 ^^ s2) 0, flNone)
  | .fin s1 m1 e1, .fin s2 m2 e2 =>
    if m2 = 0 then
      if m1 = 0 then (f.nanBits, flNV) else (f.withSign (s1 ^^ s2) f.infBits, flDZ)
    else if m1 = 0 then (f.withSign (s1 ^^ s2) 0, flNone)
    else
      let k := f.p + 3 + Nat.log2 m2
      let n := m1 * 2 ^ k
      f.round rm ftz (s1 ^^ s2) (n / m2) (e1 - e2 - k) (decide (n % m2 ≠ 0))

/-- The integer square root below 2^(i), bit by bit. -/
def isqrtBits (n : Nat) : Nat → Nat → Nat
  | 0, r => r
  | i + 1, r => if (r + 2 ^ i) * (r + 2 ^ i) ≤ n then isqrtBits n i (r + 2 ^ i) else isqrtBits n i r

def isqrt (n : Nat) : Nat := isqrtBits n (Nat.log2 n / 2 + 1) 0

/-- VSQRT (R135). -/
def Fmt.sqrt (f : Fmt) (rm : RMode) (a : FVal) : Nat × BitVec 5 :=
  match a with
  | .nan s => (f.nanBits, if s then flNV else flNone)
  | .inf s => if s then (f.nanBits, flNV) else (f.infBits, flNone)
  | .fin s m e =>
    if m = 0 then (f.withSign s 0, flNone)
    else if s then (f.nanBits, flNV)
    else
      let k := 2 * (f.p + 2) + (if e % 2 = 0 then 0 else 1)
      let n := m * 2 ^ k
      let r := isqrt n
      f.round rm false false r ((e - k) / 2) (decide (r * r ≠ n))

/-- Order of two values that are not NaN: is a below b? Zeros are equal. -/
def FVal.lt (a b : FVal) : Bool :=
  match a, b with
  | .inf s1, .inf s2 => s1 && !s2
  | .inf s1, _ => s1
  | _, .inf s2 => !s2
  | .fin s1 m1 e1, .fin s2 m2 e2 =>
    let e := min e1 e2
    decide (signedM s1 (m1 * 2 ^ (e1 - e).toNat) < signedM s2 (m2 * 2 ^ (e2 - e).toNat))
  | _, _ => false

def FVal.neg? : FVal → Bool
  | .inf s => s
  | .fin s _ _ => s
  | .nan _ => false

/-- The encoding after DAZ: a subnormal becomes the zero of its sign (R136). -/
def Fmt.dazBits (f : Fmt) (daz : Bool) (x : Nat) : Nat :=
  if daz && decide (x / 2 ^ (f.p - 1) % 2 ^ f.eb = 0) then f.withSign (decide (x / f.signBit % 2 = 1)) 0 else x

/-- VMIN and VMAX (R136): minimumNumber and maximumNumber; -0 is below +0. -/
def Fmt.minMax (f : Fmt) (isMax daz : Bool) (xa xb : Nat) : Nat × BitVec 5 :=
  let a := f.decode daz xa
  let b := f.decode daz xb
  let fl := snanFlag [a, b]
  if a.isNan && b.isNan then (f.nanBits, fl)
  else if a.isNan then (f.dazBits daz xb, fl)
  else if b.isNan then (f.dazBits daz xa, fl)
  else
    let below := a.lt b || (!b.lt a && a.neg? && !b.neg?)
    (f.dazBits daz (if below ^^ isMax then xa else xb), fl)

/-- The conditions of VCMP (R101): result and invalid flag. -/
def Fmt.compare (f : Fmt) (op : VOp) (daz : Bool) (xa xb : Nat) : Bool × BitVec 5 :=
  let a := f.decode daz xa
  let b := f.decode daz xb
  let nan := a.isNan || b.isNan
  let quiet := snanFlag [a, b]
  let loud := if nan then flNV else flNone
  match op with
  | .cmpEq => (!nan && !a.lt b && !b.lt a, quiet)
  | .cmpNe => (nan || a.lt b || b.lt a, quiet)
  | .cmpLt => (!nan && a.lt b, loud)
  | .cmpLe => (!nan && !b.lt a, loud)
  | .cmpGt => (!nan && b.lt a, loud)
  | .cmpGe => (!nan && !a.lt b, loud)
  | _ => (nan, quiet)

/-- VABS and VNEG on floating point (R135). -/
def Fmt.absNeg (f : Fmt) (isAbs daz : Bool) (x : Nat) : Nat × BitVec 5 :=
  match f.decode daz x with
  | .nan s => (f.nanBits, if s then flNV else flNone)
  | v => (f.withSign (!isAbs && !v.neg?) (f.dazBits daz x % f.signBit), flNone)

/-- The entry step of a reduction (R110). -/
def Fmt.enter (f : Fmt) (daz : Bool) (x : Nat) : Nat × BitVec 5 :=
  match f.decode daz x with
  | .nan s => (f.nanBits, if s then flNV else flNone)
  | _ => (f.dazBits daz x, flNone)

/-- Two's-complement reading of the low w bits. -/
def toSigned (w x : Nat) : Int :=
  if x % 2 ^ w < 2 ^ (w - 1) then (x % 2 ^ w : Nat) else (x % 2 ^ w : Nat) - (2 ^ w : Nat)

/-- The low w bits of an integer. -/
def ofInt (w : Nat) (v : Int) : Nat := (v % (2 ^ w : Nat)).toNat

/-- An integer element as its mathematical value. -/
def ETy.value (t : ETy) (x : Nat) : Int := if t.isSigned then toSigned t.width x else (x : Int)

def ETy.minVal (t : ETy) : Int := if t.isSigned then -(2 ^ (t.width - 1) : Nat) else 0
def ETy.maxVal (t : ETy) : Int := if t.isSigned then (2 ^ (t.width - 1) : Nat) - 1 else (2 ^ t.width : Nat) - 1

/-- Floating point to integer (R138). -/
def fpToInt (f : Fmt) (d : ETy) (rm : RMode) (daz : Bool) (x : Nat) : Nat × BitVec 5 :=
  match f.decode daz x with
  | .nan _ => (0, flNV)
  | .inf s => (ofInt d.width (if s then d.minVal else d.maxVal), flNV)
  | .fin s m e =>
    let r := roundTo rm s m e 0
    let v := signedM s r.1
    if v < d.minVal then (ofInt d.width d.minVal, flNV)
    else if d.maxVal < v then (ofInt d.width d.maxVal, flNV)
    else (ofInt d.width v, if r.2 then flNX else flNone)

/-- Integer to floating point (R139). -/
def intToFp (f : Fmt) (rm : RMode) (ftz : Bool) (v : Int) : Nat × BitVec 5 :=
  if v = 0 then (0, flNone) else f.round rm ftz (decide (v < 0)) v.natAbs 0 false

/-- Whether a floating-point conversion is widening (R137). -/
def widening (s d : ETy) : Bool :=
  match s, d with
  | .fp16, .fp32 | .fp16, .fp64 | .bf16, .fp32 | .bf16, .fp64 | .fp32, .fp64 => true
  | _, _ => false

/-- Floating point to floating point (R137). -/
def fpToFp (s d : ETy) (rm : RMode) (ftz daz : Bool) (x : Nat) : Nat × BitVec 5 :=
  match s.fmt.decode daz x with
  | .nan sig => (d.fmt.nanBits, if sig then flNV else flNone)
  | .inf sg => (d.fmt.withSign sg d.fmt.infBits, flNone)
  | .fin sg m e =>
    if m = 0 then (d.fmt.withSign sg 0, flNone)
    else d.fmt.round rm (ftz && !widening s d) sg m e false

/-- VCVT (R102, R137-R140). -/
def convert (s d : ETy) (rm : RMode) (ftz daz : Bool) (x : Nat) : Nat × BitVec 5 :=
  match s.isFp, d.isFp with
  | true, true => fpToFp s d rm ftz daz x
  | true, false => fpToInt s.fmt d rm daz x
  | false, true => intToFp d.fmt rm ftz (s.value x)
  | false, false => (ofInt d.width (s.value x), flNone)

/-- Integer division truncated toward zero, with the edge results of R143. -/
def intDiv (t : ETy) (a b : Nat) : Nat :=
  let va := t.value a
  let vb := t.value b
  if vb = 0 then 2 ^ t.width - 1 else ofInt t.width (Int.tdiv va vb)

def intRem (t : ETy) (a b : Nat) : Nat :=
  let va := t.value a
  let vb := t.value b
  if vb = 0 then a else ofInt t.width (Int.tmod va vb)

def popCount (w x : Nat) : Nat := ((List.range w).filter (fun i => x.testBit i)).length

def leadZeros (w x : Nat) : Nat := if x % 2 ^ w = 0 then w else w - 1 - Nat.log2 (x % 2 ^ w)

/-- Shifts and rotates of a w-bit value by an amount of 0-127 (R105, R213). -/
def shiftL (w x n : Nat) : Nat := if w ≤ n then 0 else x * 2 ^ n % 2 ^ w
def shiftR (w x n : Nat) : Nat := if w ≤ n then 0 else x / 2 ^ n
def shiftA (w x n : Nat) : Nat := ofInt w (Int.fdiv (toSigned w x) (2 ^ min n w : Nat))
def rotL (w x n : Nat) : Nat := (x * 2 ^ (n % w) % 2 ^ w) ||| (x / 2 ^ (w - n % w))

/-- One step of CRC-32C over a bit (R117). -/
def crcBits : Nat → Nat → Nat
  | 0, c => c
  | i + 1, c => crcBits i (if c % 2 = 1 then (c / 2) ^^^ 0x82f63b78 else c / 2)

def crcByte (c : Nat) (b : Nat) : Nat := crcBits 8 (c ^^^ b)

/-- CRC-32C of bytes with a seed (R117). -/
def crc32c (seed : Nat) (bs : List Nat) : Nat := (bs.foldl crcByte (seed ^^^ 0xffffffff)) ^^^ 0xffffffff

def bytesOf (n x : Nat) : List Nat := (List.range n).map fun i => x / 2 ^ (8 * i) % 256

/-- VHASH.MIX (R118). -/
def hashMix (a b : Nat) : Nat :=
  let x := a ^^^ b
  let x := x ^^^ (x / 2 ^ 32)
  let x := x * 0xc3a51d974e2b86f5 % 2 ^ 64
  let x := x ^^^ (x / 2 ^ 29)
  let x := x * 0x8b716e39d2f4a0c7 % 2 ^ 64
  x ^^^ (x / 2 ^ 32)

/-- The arithmetic controls an entry captured (R26, R127). -/
structure ACtl where
  rm : RMode
  ftz : Bool
  daz : Bool
  deriving DecidableEq, Repr

/-- Integer VMIN and VMAX by the signedness of the type (R143). -/
def intMinMax (t : ETy) (isMax : Bool) (a b : Nat) : Nat :=
  if decide (t.value a ≤ t.value b) ^^ isMax then a else b

/-- Integer comparison (R101). -/
def intCompare (t : ETy) (op : VOp) (a b : Nat) : Bool :=
  let x := t.value a
  let y := t.value b
  match op with
  | .cmpEq => decide (x = y)
  | .cmpNe => decide (x ≠ y)
  | .cmpLt => decide (x < y)
  | .cmpLe => decide (x ≤ y)
  | .cmpGt => decide (y < x)
  | .cmpGe => decide (y ≤ x)
  | _ => false

/-- Whether element a cc b holds, with the flags it raises (R101). -/
def compareElem (t : ETy) (op : VOp) (daz : Bool) (a b : Nat) : Bool × BitVec 5 :=
  if t.isFp then t.fmt.compare op daz a b else (intCompare t op a b, flNone)

/-- Floating-point arithmetic of the elementwise operations (R133-R136). -/
def fpElem (op : VOp) (t : ETy) (k : ACtl) (a b c : Nat) : Nat × BitVec 5 :=
  let f := t.fmt
  let d := f.decode k.daz
  match op with
  | .add => f.add k.rm k.ftz (d a) (d b)
  | .sub => f.add k.rm k.ftz (d a) ((d b).flip true)
  | .min => f.minMax false k.daz a b
  | .max => f.minMax true k.daz a b
  | .abs => f.absNeg true k.daz a
  | .neg => f.absNeg false k.daz a
  | .mul => f.mul k.rm k.ftz (d a) (d b)
  | .fma => f.fma k.rm k.ftz (d a) (d b) (d c)
  | .fms => f.fma k.rm k.ftz (d a) (d b) ((d c).flip true)
  | .div => f.div k.rm k.ftz (d a) (d b)
  | .sqrt => f.sqrt k.rm (d a)
  | _ => (a, flNone)

/-- Integer arithmetic of the elementwise operations (R143). -/
def intElem (op : VOp) (t : ETy) (a b c : Nat) : Nat :=
  let w := t.width
  match op with
  | .add => (a + b) % 2 ^ w
  | .sub => ofInt w ((a : Int) - b)
  | .min => intMinMax t false a b
  | .max => intMinMax t true a b
  | .abs => ofInt w (t.value a).natAbs
  | .neg => ofInt w (-(a : Int))
  | .mul => a * b % 2 ^ w
  | .fma => (a * b + c) % 2 ^ w
  | .fms => ofInt w ((a : Int) * b - c)
  | .div => intDiv t a b
  | .rem => intRem t a b
  | _ => a

/-- The result of one active element of an operation that works element by element, with its flags (R100-R106,
R117-R119). `st` is the source type of a VCVT and of source A of the hashes. -/
def elemOp (op : VOp) (t st : ETy) (k : ACtl) (a b c : Nat) : Nat × BitVec 5 :=
  match op with
  | .add | .sub | .min | .max | .abs | .neg | .mul | .fma | .fms | .div | .rem | .sqrt =>
    if t.isFp then fpElem op t k a b c else (intElem op t a b c, flNone)
  | .cvt => convert st t k.rm k.ftz k.daz a
  | .and => (a &&& b, flNone)
  | .or => (a ||| b, flNone)
  | .xor => (a ^^^ b, flNone)
  | .not => (2 ^ t.width - 1 - a, flNone)
  | .shl => (shiftL t.width a (b % 128), flNone)
  | .shr => (shiftR t.width a (b % 128), flNone)
  | .sra => (shiftA t.width a (b % 128), flNone)
  | .rot => (rotL t.width a (b % 128), flNone)
  | .popc => (popCount t.width a, flNone)
  | .clz => (leadZeros t.width a, flNone)
  | .sel => (if c = 0 then b else a, flNone)
  | .hashCrc => (crc32c b (bytesOf st.size a), flNone)
  | .hashMix => (hashMix a b, flNone)
  | .bucket => (a * b / 2 ^ 64, flNone)
  | _ => (a, flNone)

/-- The operations that reductions and scans repeat (R110). -/
def redOp (op : VOp) (t : ETy) (k : ACtl) (x y : Nat) : Nat × BitVec 5 :=
  match op with
  | .minr => if t.isFp then t.fmt.minMax false k.daz x y else (intMinMax t false x y, flNone)
  | .maxr => if t.isFp then t.fmt.minMax true k.daz x y else (intMinMax t true x y, flNone)
  | _ => if t.isFp then fpElem .add t k x y 0 else (intElem .add t x y 0, flNone)

/-- The entry step: the identity for integer types (R110). -/
def enterOp (t : ETy) (k : ACtl) (x : Nat) : Nat × BitVec 5 :=
  if t.isFp then t.fmt.enter k.daz x else (x, flNone)

/-- The identity of a reduction (R111). -/
def identityOf (op : VOp) (t : ETy) : Nat :=
  match op with
  | .minr => if t.isFp then t.fmt.infBits else ofInt t.width t.maxVal
  | .maxr => if t.isFp then t.fmt.withSign true t.fmt.infBits else ofInt t.width t.minVal
  | _ => 0

/-- A result extended to 64 bits for the scalar return register (R98). -/
def extendScalar (t : ETy) (x : Nat) : Word :=
  if t.isSigned then BitVec.ofInt 64 (toSigned t.width x) else BitVec.ofNat 64 x

end Sys2Proof.Machine
end

