-- ==== Sys2Proof/Config.lean ====
section
/-! DEFINITION. What the spec leaves open, as constants without a body: contents of storage that nothing has written,
answers of the cryptographic units, and values that the spec states no value for. Nothing can prove a value of them. -/

namespace Sys2Proof

/-- The byte at a DPA whose contents are not defined (R566); the first argument counts the losses of contents. DESIGN CHOICE: log entry 4. -/
opaque Config.freeByte : Nat → Nat → Byte

/-- What the check of a 64-bit word of root memory that nothing has written since power was lost finds (R566): 0 clean,
1 a single-bit error, 2 uncorrectable. DESIGN CHOICE: log entry 4. -/
opaque Config.freeCheck : Nat → Nat → Fin 3

/-- A value the spec leaves open, drawn with the state's counter. -/
opaque Config.freeWord : Nat → Word

/-- A choice the spec leaves open, drawn with the state's counter. -/
opaque Config.freeBool : Nat → Bool

/-- What a chain link of a block carries at an element index that is not below VL, by VL and index: R82 states the elements
below VL alone. DEDUCED: log entry 23. -/
opaque Config.linkBeyond : Nat → Nat → Nat

/-- SHA-384 of a byte string, as six 64-bit words (R442). -/
opaque Config.sha384 : List Byte → List Word

/-- Whether an ECDSA P-384 signature verifies: public key, message, signature. DEDUCED: log entry 56. -/
opaque Config.ecdsaVerify : List Byte → List Byte → List Byte → Bool

/-- The device's signature over a message (R442): key number, message, as bytes. DEDUCED: log entry 56. -/
opaque Config.sign : Nat → List Byte → List Byte

/-- A message authentication code of an SPDM session (R448). -/
opaque Config.sessionMac : Nat → List Byte → List Byte

/-- The device certificate chain as fused at manufacture (R443). -/
opaque Config.certChain : List Byte

/-- Whether a peer's certificate chain names a Harezan device: the chain's bytes (R453). -/
opaque Config.chainVerifies : List Byte → Bool

/-- The public key that a certificate chain carries (R453). -/
opaque Config.chainKey : List Byte → List Byte

/-- The serial number that a certificate chain carries (R453). -/
opaque Config.chainSerial : List Byte → Word

/-- The device serial number fused at test (R13). -/
opaque Config.serial : Word

/-- Whether a crown firmware copy's signature verifies under the Harezan firmware key (R518). -/
opaque Config.fwVerifies : List Word → Bool

/-- The firmware serial that a copy carries (R518). -/
opaque Config.fwSerial : List Word → BitVec 32

/-- What BOOT loads into crown RAM from a copy, from its word 0x000 (R518). -/
opaque Config.fwImage : List Word → List Byte

/-- Whether 96 bytes are a P-384 public key (R404). -/
opaque Config.keyValid : List Byte → Bool

/-- Whether a transfer record is signed by the owner key (R405): key, record. -/
opaque Config.transferVerifies : List Byte → List Byte → Bool

/-- The new owner key that a transfer record names (R405). -/
opaque Config.transferKey : List Byte → List Byte

/-- The maker code that a stack reports at training (R284). -/
opaque Config.maker : Nat → BitVec 16

/-- The spares of a scratchpad bank, bit j for spare j, that factory repair uses, as the fuses hold them (R48, R336), or that the self-test of
the n-th power-on found unusable (R325): power-on, bough, bank. DESIGN CHOICE: log entry 6. -/
opaque Config.bootSpares : Nat → Nat → Nat → BitVec 8

/-- The banks of a scratchpad that the fuses hold as failed (R336). DESIGN CHOICE: log entry 6. -/
opaque Config.fuseFailed : Nat → BitVec 32

/-- The row in the poison-row slot of a scratchpad bank as the fuses hold it, if there is one (R336): bough, bank. DESIGN CHOICE: log entry 6. -/
opaque Config.fusePoisonRow : Nat → Nat → Option (BitVec 8)

/-- What HWD_MEAS shows for a measurement index and word that R449 does not give. -/
opaque Config.freeMeas : Nat → Nat → Word

/-- The digest of the boot ROM (R449). -/
opaque Config.romDigest : List Word

/-- The digest of the fuse state, the secret left out (R449). -/
opaque Config.fuseDigest : List Word

end Sys2Proof
end

