-- ==== Sys2Proof/Machine/MemState.lean ====
section
/-! DEFINITION. The state of memory, root slices, stacks, scratchpad banks and the commit filters
(chapters 06, 10, 11, 12, 21): plain data only. -/

namespace Sys2Proof.Machine

/-- What the check bits of a stored 64-bit word say (R274, R275): a word with no mark is clean. -/
inductive Mark where
  | single | fresh | stored
  deriving DecidableEq, Repr

/-- All addressed storage: root memory, scratchpads, program stores and crown RAM, by DPA (R537).
`cells` is in canonical form; `zeroed` names the zones whose unlisted bytes are 0; a byte that is not listed in
another zone has no defined contents (R566) and reads as a free value of `epoch` in root memory and of `coreEpoch` elsewhere,
which change when those contents are lost. -/
structure Memory where
  cells : List Host.Cell
  zeroed : List Nat
  marks : List (Nat × Mark)
  /-- Granules of failed scratchpad rows: every read is poisoned and writes are discarded (R326). -/
  dead : List Nat
  epoch : Nat
  coreEpoch : Nat
  deriving DecidableEq, Repr

/-- Who waits for a read (R270). -/
inductive Requester where
  | stream (b : BoughId) (h : Fin 2) (key : SlotKey)
  | twig (t : TwigId)
  | host (n : PortId) (hostTag : Nat) (part : Nat)
  deriving DecidableEq, Repr

/-- A read request of a granule or half granule (R270). -/
structure ReadReq where
  tag : Nat
  who : Requester
  addr : Nat
  len : Nat
  deriving DecidableEq, Repr

/-- The master of a staged write (R271, R272). -/
inductive Writer where
  | twig (t : TwigId) (store : Nat)
  | host (n : PortId)
  | journal (b : BoughId)
  | ledger
  deriving DecidableEq, Repr

/-- A write burst of at most 4 granules of one 256-byte block, with the bytes it carries (R271). -/
structure Burst where
  txn : Nat
  who : Writer
  /-- The plot that the write is metered to (R421). -/
  plot : Option Nat
  slice : SliceId
  bytes : List (Nat × Byte)
  /-- The words that arrived uncorrectable (R272, R274). -/
  bad : List Nat
  /-- It carries a commit mark (R272). -/
  mark : Bool
  deriving DecidableEq, Repr

/-- A bound read in a slice's queue: the request, and its data (R269). -/
structure QRead where
  req : ReadReq
  data : List Byte
  poison : List Bool
  deriving DecidableEq, Repr

/-- A message in the trunk input of a slice (R262). -/
inductive SliceMsg where
  | read (r : ReadReq)
  | beat (b : Burst)
  deriving DecidableEq, Repr

/-- A root slice (R262, R271, R293). -/
structure Slice where
  inbox : List SliceMsg
  queue : List QRead
  /-- Bursts staged and not yet committed. -/
  staging : List Burst
  /-- Committed bursts not yet written to their targets. -/
  writing : List Burst
  rd : BitVec 48
  wr : BitVec 48
  wait : BitVec 48
  deriving DecidableEq, Repr

/-- A write transaction that several slices apply at one instant (R272, R306): a host write TLP, or a store that
splits over two slices. -/
structure WTxn where
  id : Nat
  who : Writer
  fn : Option HostFn
  slices : List SliceId
  okFrom : List SliceId
  failFrom : List SliceId
  committed : List SliceId
  /-- COMMIT sent (`some true`) or DISCARD sent (`some false`). -/
  decision : Option Bool
  /-- Slices to which the COMMIT or DISCARD is still on its way. -/
  ctl : List SliceId
  relaxed : Bool
  addr : Nat
  len : Nat
  /-- A TLP to a scratchpad: its bytes wait in the port's stage (R308). -/
  scratch : Option BoughId
  bytes : List (Nat × Byte)
  deriving DecidableEq, Repr

/-- The owner of a commit filter entry. -/
inductive FOwner where
  | half (b : BoughId) (h : Fin 2)
  | txn (id : Nat)
  deriving DecidableEq, Repr

/-- A range entry at one target: granule addresses lo to hi inclusive (R147). -/
structure FEntry where
  owner : FOwner
  tgt : Target
  lo : Nat
  hi : Nat
  ord : Nat
  installed : Bool
  released : Bool
  /-- Of a transaction that is done: whose it was, until the entry retires (R305). -/
  left : Option (Writer × Option HostFn)
  deriving DecidableEq, Repr

/-- An arm request that waits for the trunk commit sequencer (R148). -/
structure ArmReq where
  owner : FOwner
  ranges : List (Nat × Nat)
  deriving DecidableEq, Repr

/-- A read held by a filter entry (R151), with its place in the order of arrival (R269). -/
structure HeldRead where
  tgt : Target
  req : ReadReq
  ord : Nat
  deriving DecidableEq, Repr

/-- A write held by a filter entry until it retires (R152), with its place in the order of arrival (R269). -/
structure HeldWrite where
  tgt : Target
  burst : Burst
  ord : Nat
  deriving DecidableEq, Repr

/-- A stack's registers (R284-R292). -/
structure Stack where
  state : BitVec 3
  maker : BitVec 16
  hot : Bool
  hotSeen : Bool
  trainFail : Bool
  temp : BitVec 8
  tempMax : BitVec 8
  ecc : BitVec 32
  ueFresh : BitVec 32
  ueStored : BitVec 32
  log : Word
  ceSeen : Bool
  ueSeen : Bool
  logValid : Bool
  scrubW : BitVec 19
  /-- The target of local slice 0, of the 64 at scrubW, that its scrub reaches next. -/
  scrubNext : BitVec 6
  scrubPasses : BitVec 16
  injArm : Bool
  injKind : BitVec 2
  injWord : BitVec 34
  postponedMax : BitVec 8
  refreshes : BitVec 48
  trainUs : BitVec 16
  trainKind : BitVec 2
  repChannels : BitVec 16
  repLanes : BitVec 8
  repExhausted : Bool
  deriving DecidableEq, Repr

/-- A scratchpad's per-bough registers and sweep state (R323-R337). -/
structure Scratch where
  inbox : List ReadReq
  status : BitVec 7
  ce : BitVec 32
  ue : BitVec 32
  log : Word
  /-- Spares of bank n in use or unusable, bit j for spare j (R325, R336). -/
  spares : Vector (BitVec 8) 32
  /-- Rows that runtime repair has mapped: bank, row and spare (R325). -/
  rowMap : List (Nat × Nat × Nat)
  poisonRow : BitVec 32
  failed : BitVec 32
  /-- The row in each bank's poison-row slot (R326). -/
  poisonRows : List (Nat × Nat)
  lost : BitVec 32
  /-- Banks that the check of the wake under way found lost, until their plot is told (R330, R513). -/
  lostNow : BitVec 32
  checks : BitVec 16
  sweepPos : BitVec 11
  sweepOpen : Bool
  /-- The tick at which the latest region opened (R323). -/
  sweepAt : Option Word
  passes : BitVec 32
  /-- CRC-32C of each bank kept across Dormant (R329). -/
  crcs : List (BitVec 32)
  deriving DecidableEq, Repr

/-- Canopy registers and counters (R312-R315). -/
structure Cnp where
  isoSeen : Bool
  isoValid : Bool
  isoCount : BitVec 32
  isoLog : Word
  isoAddr : BitVec 48
  ownMiss : BitVec 48
  holdMax : BitVec 16
  /-- Whole host ports, and physical functions' shares of them, in absorb state (R305, R467). -/
  hostAbsorb : BitVec 4
  pfAbsorb : BitVec 4
  vfAbsorb : BitVec 64
  graftAbsorb : BitVec 4
  crownAbsorb : BitVec 4
  deriving DecidableEq, Repr

def Memory.init : Memory := ⟨[], [], [], [], 0, 0⟩

def Slice.start : Slice :=
  { inbox := [], queue := [], staging := [], writing := [], rd := 0, wr := 0, wait := 0 }

/-- A stack at power-on: off, registers at their Reset column (R285-R292). -/
def Stack.start : Stack :=
  { state := 0, maker := 0, hot := false, hotSeen := false, trainFail := false, temp := 0,
    tempMax := 0, ecc := 0, ueFresh := 0, ueStored := 0, log := 0, ceSeen := false, ueSeen := false,
    logValid := false, scrubW := 0, scrubNext := 0, scrubPasses := 0, injArm := false, injKind := 0, injWord := 0,
    postponedMax := 0, refreshes := 0, trainUs := 0, trainKind := 0, repChannels := 0, repLanes := 0,
    repExhausted := false }

def Scratch.start : Scratch :=
  { inbox := [], status := 0, ce := 0, ue := 0, log := 0, spares := Vector.replicate 32 0, rowMap := [], poisonRow := 0,
    failed := 0, poisonRows := [], lost := 0, lostNow := 0, checks := 0, sweepPos := 0, sweepOpen := false, sweepAt := none, passes := 0,
    crcs := [] }

def Cnp.start : Cnp :=
  { isoSeen := false, isoValid := false, isoCount := 0, isoLog := 0, isoAddr := 0, ownMiss := 0, holdMax := 0,
    hostAbsorb := 0, pfAbsorb := 0, vfAbsorb := 0, graftAbsorb := 0, crownAbsorb := 0 }

end Sys2Proof.Machine
end

