-- ==== Sys2Proof/Machine/QueueState.lean ====
section
/-! DEFINITION. The state of the sap queues, chain links, groves and plots, and the Grain image as the loader
parses it (chapters 02, 07, 13, 14, 15, 16): plain data only. -/

namespace Sys2Proof.Machine

/-- A queue-store word: 64 data bits, a parity bit and a poison bit (R338). -/
structure QWord where
  w : Word
  parity : Bool
  poison : Bool
  deriving DecidableEq, Repr

/-- A closed packet (R341): TYPE, TAG, the payload, and the ring slot of its length word, which may have arrived poisoned (R352). -/
structure Packet where
  typ : BitVec 8
  tag : BitVec 32
  words : List QWord
  slot : Nat
  lenBad : Bool := false
  deriving DecidableEq, Repr

/-- A packet open for producing: its capacity and the words so far (R342). -/
structure OpenProd where
  cap : Nat
  words : List QWord
  slot : Nat
  deriving DecidableEq, Repr

/-- A packet open for consuming and its read position (R345). -/
structure OpenCons where
  pkt : Packet
  pos : Nat
  deriving DecidableEq, Repr

/-- A sap queue (chapter 13). -/
structure Queue where
  credits : Nat
  prod : Option OpenProd
  cons : Option OpenCons
  pending : List Packet
  prodVoid : Bool
  consVoid : Bool
  /-- ERR of the producing and the consuming host window (R347). -/
  errProd : BitVec 4
  errCons : BitVec 4
  flushing : Bool
  /-- Ring slot at which the next packet opens. -/
  tail : Nat
  /-- Graft side (R480, R481): next PSEQ to send, last PSEQ closed as a receiver, the peer's grant to us, the words we
  granted the peer, and the PSEQ being received. -/
  txPseq : BitVec 16
  rxClosed : Option (BitVec 16)
  txGrant : Nat
  rxPseq : Option (BitVec 16)
  txBusy : Bool
  deriving DecidableEq, Repr

/-- A message on the chain plane of a link (R174, R179, R181). -/
inductive ChainMsg where
  | data (ep : BitVec 16) (off : Nat) (ws : List (Word × Bool))
  | fin (ep : BitVec 16) (len : Nat)
  | commit (ep : BitVec 16)
  | abort (ep : BitVec 16)
  | taken (ep : BitVec 16)
  | replay (ep : BitVec 16)
  deriving DecidableEq, Repr

/-- An epoch that a receiving hub or relay holds (R177, R186). -/
structure RxEpoch where
  ep : BitVec 16
  /-- Words held, in order, with poison flags; `base` words before them have left. -/
  base : Nat
  words : List (Word × Bool)
  endLen : Option Nat
  committed : Bool
  custody : Bool
  /-- Words past what the receiver's VL reads that have been discarded (R177). -/
  cut : Nat
  /-- Words that a relay has passed on to the chain buffer behind it (R185). -/
  fwd : Nat
  deriving DecidableEq, Repr

/-- An epoch that a sending bough or a relay may still have to resend (R178, R181). -/
structure TxEpoch where
  ep : BitVec 16
  /-- The words produced so far, with poison flags. -/
  words : List (Word × Bool)
  /-- Length in bytes; a relay knows it once END has arrived. -/
  len : Option Nat
  sent : Nat
  ended : Bool
  committed : Bool
  commitSent : Bool
  deriving DecidableEq, Repr

/-- A chain link: its record (R169), its break state (R187), and both ends. -/
structure Link where
  w0 : Word
  w1 : Word
  /-- Chain buffer of the receiving grove (R171). -/
  buf : Option Nat
  broken : Bool
  /-- The latest break; kept when the link rearms (R197). -/
  code : BitVec 4
  /-- The causes of the break in force: bit c for the code c (R187). -/
  causes : BitVec 7
  credits : Nat
  owed : Nat
  nextEp : BitVec 16
  wire : List ChainMsg
  back : List ChainMsg
  /-- What the chain buffer holds (R175). -/
  eps : List RxEpoch
  /-- What the relay share of an entering link holds (R185, R186). -/
  relay : List RxEpoch
  arriving : BitVec 16
  /-- The oldest epoch that the receiver has not taken and its sender has not aborted (R177). -/
  expect : BitVec 16
  lastTaken : BitVec 16
  /-- Epochs after `expect` that their sender has aborted (R180). -/
  dead : List (BitVec 16)
  sink : Bool
  tx : List TxEpoch
  xfer : BitVec 48
  stall : BitVec 48
  deriving DecidableEq, Repr

/-- A grove's registers (R51, R52, R193, R195, R359, R360). -/
structure Grove where
  ceCount : BitVec 16
  psUe : Bool
  ueLine : BitVec 16
  uplink : Vector (BitVec 48) 4
  qsel : BitVec 6
  perrSeen : Bool
  perrValid : Bool
  perrCount : BitVec 32
  plog : BitVec 27
  brk : BitVec 32
  chainSel : BitVec 5
  deriving DecidableEq, Repr

/-- PLOT_MAP of one plot (R395). -/
structure PlotMap where
  plot : Nat
  vf : Option Nat
  evq : Option Nat
  timer : Nat
  progBase : Nat
  progUnits : Nat
  progRo : Bool
  boughs : BitVec 256
  regions : BitVec 512
  keep : BitVec 512
  deriving DecidableEq, Repr

/-- An image that has passed the loader's checks (chapter 15). -/
structure Grain where
  serial : Word
  plots : List PlotMap
  boughEn : BitVec 256
  uplinks : BitVec 16
  downlinks : BitVec 16
  rank : Nat
  links : List (Word × Word)
  queues : List (Word × Word)
  hashEn : BitVec 16
  graftEn : BitVec 4
  split : Nat
  maxLevel : Nat
  dormantEn : Bool
  idleMs : Nat
  deviceW : Nat
  caps : List Nat
  progs : List (Nat × List (BitVec 16))
  raw : List Word
  deriving DecidableEq, Repr

/-- PLOT_STATE.STATE (R387). -/
inductive PlotSt where
  | undefined | running | parking | parked | resetting | regraining
  deriving DecidableEq, Repr

/-- A plot event (R370). -/
structure PEvent where
  code : BitVec 8
  bough : BitVec 8
  unit : BitVec 8
  tick : Word
  detail : Word
  deriving DecidableEq, Repr

/-- One copy of a plot's metering counters (R421, R424). -/
structure Counters where
  startTick : Word
  boughUs : Nat
  rootRd : Nat
  rootWr : Nat
  scr : Nat
  host : Nat
  queue : Nat
  graft : Nat
  /-- Apportioned energy in nJ, the carried remainder included (R422). -/
  energyNJ : Nat
  traps : Nat
  isolation : Nat
  poison : Nat
  resets : Nat
  parkedMs : Nat
  throttled : Nat
  /-- Bits [8]-[14] and [19:16] of record word 0. -/
  flags : Word
  deriving DecidableEq, Repr

/-- A plot's registers, crown-side sequences and metering (chapters 14 and 16). -/
structure Plot where
  st : PlotSt
  park : Bool
  preempt : Bool
  preemptEnd : Word
  graceOn : Bool
  grace : BitVec 16
  resetBusy : Bool
  resetWaits : Bool
  events : BitVec 8
  evLost : BitVec 32
  limitMw : BitVec 20
  lastMw : BitVec 20
  peakMw : BitVec 20
  duty : Nat
  throttledMs : BitVec 32
  heldEvents : List PEvent
  parkedAt : Word
  /-- Crown messages raised and not yet posted: bough, TYPE, payload word 0 (R373). -/
  msgs : List (BoughId × BitVec 8 × Word)
  cnt : Counters
  /-- Activity energy of the millisecond under way, in units of 0.00001 pJ (R422). -/
  activity : Nat
  shareNJ : Nat
  /-- Hash of the plot number's previous minute record (R424). -/
  prevHash : List Word
  deriving DecidableEq, Repr

def Queue.start (credits : Nat) : Queue :=
  { credits := credits, prod := none, cons := none, pending := [], prodVoid := false, consVoid := false,
    errProd := 0, errCons := 0, flushing := false, tail := 0, txPseq := 0, rxClosed := none, txGrant := 0,
    rxPseq := none, txBusy := false }

def Grove.start : Grove :=
  { ceCount := 0, psUe := false, ueLine := 0, uplink := Vector.replicate 4 0, qsel := 0, perrSeen := false,
    perrValid := false, perrCount := 0, plog := 0, brk := 0, chainSel := 0 }

def Counters.start (t : Word) : Counters :=
  { startTick := t, boughUs := 0, rootRd := 0, rootWr := 0, scr := 0, host := 0, queue := 0, graft := 0, energyNJ := 0,
    traps := 0, isolation := 0, poison := 0, resets := 0, parkedMs := 0, throttled := 0, flags := 0 }

def Plot.start : Plot :=
  { st := .undefined, park := false, preempt := false, preemptEnd := 0, graceOn := false, grace := 1000, resetBusy := false,
    resetWaits := false, events := 0, evLost := 0, limitMw := 0, lastMw := 0, peakMw := 0, duty := 64,
    throttledMs := 0, heldEvents := [], parkedAt := 0, msgs := [], cnt := Counters.start 0, activity := 0,
    shareNJ := 0, prevHash := [] }

/-- A link as it is armed: epochs 0, empty buffers, full credits (R190). -/
def Link.armed (w0 w1 : Word) (buf : Option Nat) (credits : Nat) : Link :=
  { w0 := w0, w1 := w1, buf := buf, broken := false, code := 0, causes := 0, credits := credits, owed := 0, nextEp := 0,
    wire := [], back := [], eps := [], relay := [], arriving := 0, expect := 0, lastTaken := 0, dead := [], sink := false, tx := [], xfer := 0, stall := 0 }

end Sys2Proof.Machine
end

