-- ==== Sys2Proof/Machine/DeviceState.lean ====
section
/-! DEFINITION. The state of the device services: Grain loader, ring ledger, heartwood, host ports, graft ports,
clocks and power, modes, and the crown (chapters 15 to 20): plain data only. -/

namespace Sys2Proof.Machine

/-- The eight modes (R24), numbered as SYS_MODE.MODE gives them. -/
inductive Mode where
  | reset | boot | load | run | drain | dormant | service | quarantine
  deriving DecidableEq, Repr

/-- Why the device is in DRAIN (R515). -/
inductive DrainFor where
  | dormant | activation | service | reset (ch : Fin 5)
  deriving DecidableEq, Repr

/-- A request to load an image (R411, R414): slot, plot of a regrain, earliest tick, and the mailbox channel. -/
structure ActReq where
  slot : Fin 2
  plot : Option PlotId
  early : Word
  ch : Option (Fin 5)
  deriving DecidableEq, Repr

/-- GRN_STATUS.STATE (R417). -/
inductive GrnSt where
  | idle | checking | staged | draining | writing | regraining
  deriving DecidableEq, Repr

/-- The loader, the flash slots and the owner (chapter 15). -/
structure Grn where
  st : GrnSt
  active : Option Grain
  slot : Fin 2
  rejected : Bool
  splitPending : Bool
  reason : BitVec 8
  plot : PlotId
  offset : BitVec 32
  epoch : Word
  floor : Word
  req : Option ActReq
  staged : Option Grain
  /-- Requests that wait for the one in progress (R415). -/
  waiting : List ActReq
  /-- The image tried first at BOOT was rejected; the other slot is being tried (R406). -/
  triedOther : Bool
  /-- Flash contents of the two slots; a slot reads as erased beyond its list (R406). -/
  slots : Vector (List Word) 2
  prefSlot : Fin 2
  /-- The enrolled owner's 96-byte public key (R404). -/
  owner : Option (List Byte)
  splitNext : Nat
  split : Nat
  /-- Region owners that MRAM recorded at the last switch, for BOOT (R410). -/
  prevOwners : List (Nat × Nat)
  /-- The image that was active when a device reset began: its plots' open records go on (R420). -/
  last : Option Grain
  zeroing : BitVec 512
  deriving DecidableEq, Repr

/-- A ledger item (R423): TYPE, SEQ, its covered words, and its signature words once signed. -/
structure Item where
  typ : BitVec 8
  seq : Word
  covered : List Word
  sig : List Word
  plot : Option PlotId
  deriving DecidableEq, Repr

/-- A journal slot of MRAM (R438): its item, and whether it is posted to the ledger queue. -/
structure JSlot where
  item : Item
  posted : Bool
  deriving DecidableEq, Repr

/-- A plot's part of the flush area (R437): open copies and closing copies as record words. -/
structure FlushRec where
  plot : PlotId
  cnt : Counters
  deriving DecidableEq, Repr

structure FlushArea where
  tick : Word
  offset : Word
  lostItems : Nat
  /-- Minute records that had closed and were not yet in a committed slot. -/
  closing : List Item
  recs : List FlushRec
  deriving DecidableEq, Repr

/-- The ring ledger (chapter 16). -/
structure Ring where
  tick : Word
  offset : Word
  uncertain : Bool
  gapOpen : Bool
  backlogHit : Bool
  merging : Bool
  torn : Bool
  restored : Bool
  backlogSlots : BitVec 13
  seq : Word
  peak : BitVec 13
  lost : BitVec 16
  gap : Word
  lifeSel : BitVec 5
  rings : Vector Word 32
  /-- Items in ledger RAM that wait for their signature, then signed ones that wait for a slot. -/
  unsigned : List Item
  signed : List Item
  journal : List JSlot
  sealHash : List Word
  sealItems : List (Word × List Word)
  sealStart : Word
  repairLog : List Word
  flush : Option FlushArea
  /-- Tick and offset in the header copy in MRAM (R438). -/
  savedTick : Word
  savedOffset : Word
  /-- Energy of the millisecond under way, of the device account, and fractions of a J, in nJ. -/
  msNJ : Nat
  devNJ : Nat
  jouleNJ : Nat
  /-- Ticks counted towards the next second of each seconds ring. -/
  subSec : Nat
  /-- Lowest sample since the last counted thermal cycle, 1000 while there is none; highest since the rise (R431). -/
  thermLow : Nat
  thermHigh : Nat
  deriving DecidableEq, Repr

/-- The capabilities that the responder has (R446). -/
inductive SpdmCap where
  | cert | chal | measSig | measFresh | keyEx | encrypt | mac | hbeat | keyUpd
  deriving DecidableEq, Repr

/-- The values that the responder negotiates (R446). -/
inductive SpdmAlg where
  | ecdsaP384 | baseSha384 | measSha384 | dmtf | secp384r1 | aes256Gcm | spdmSchedule
  deriving DecidableEq, Repr

/-- An SPDM answer (R446 to R448): a version is its major and minor number. -/
inductive SpdmResp where
  | version (major minor : Nat)
  | capabilities (ctExponent : Nat) (caps : List SpdmCap)
  | algorithms (values : List SpdmAlg)
  | digests (d : List Word)
  | certificate (bytes : List Byte) (remaining : Nat)
  | challengeAuth (digest nonce sig : List Word)
  | measurements (blocks : List (BitVec 8 × List Word)) (nonce sig : List Word)
  | keyExchangeRsp (sid : Nat) (sig : List Word)
  | finishRsp | heartbeatAck | keyUpdateAck | endSessionAck
  | keyMgmt (status : BitVec 8)
  | error (code : BitVec 8) (data : BitVec 8)
  /-- ResponseNotReady with RDTExponent and RDTM (R448). -/
  | notReady (rdtExponent rdtm : Nat)
  deriving DecidableEq, Repr

/-- The connection state of one SPDM transport (R445). -/
structure Transport where
  version : Bool
  caps : Bool
  algs : Bool
  /-- The answer being prepared, or ready for RESPOND_IF_READY (R448). -/
  pending : Option SpdmResp
  ready : Bool
  /-- The answer leaves by itself when its signature is done: the engine was free. -/
  direct : Bool
  /-- The signature in progress is for a request that a later one replaced. -/
  stale : Bool
  deriving DecidableEq, Repr

structure Session where
  sid : Nat
  tr : Fin 9
  heartbeat : Nat
  established : Bool
  keyGen : Nat
  deriving DecidableEq, Repr

/-- Who asked the signing engine for a signature (R444). -/
inductive SigReq where
  | graft (n : PortId)
  | spdm (tr : Fin 9)
  | ledger
  deriving DecidableEq, Repr

/-- Link IDE of one host port (R451): keys by (set, sub-stream), and the sets that are going. -/
structure Ide where
  keys : List (Fin 2 × Fin 3 × BitVec 256)
  going : List (Fin 2 × Fin 3)
  secure : Bool
  deriving DecidableEq, Repr

/-- Heartwood (chapter 17). -/
structure Hwd where
  keyOk : Bool
  chainOk : Bool
  locked : Bool
  authFail : Bool
  measIndex : BitVec 3
  measWord : BitVec 3
  authLog : Word
  graftAuth : BitVec 4
  transports : Vector Transport 9
  sessions : List Session
  nextSid : Nat
  ide : Vector Ide 4
  /-- The signature in progress and the requests that wait. -/
  engine : Option SigReq
  sigQueue : List SigReq
  deriving DecidableEq, Repr

/-- One part of a host read: its address, length, and data once it is back (R310). -/
structure HPart where
  addr : Nat
  len : Nat
  data : Option Chunk
  deriving DecidableEq, Repr

/-- A host read request in progress. -/
structure HRead where
  tag : Nat
  fn : HostFn
  addr : Nat
  len : Nat
  parts : List HPart
  /-- The granule tags that the read holds (R301). -/
  tags : Nat
  /-- What a register, MSI-X or queue-window read has read, and its EP bit. -/
  answer : Option (List Byte × Bool)
  fault : Option Cause
  absorb : Bool
  deriving DecidableEq, Repr

/-- The PCIe state of a function that the spec's rules read (R463, R469, R485). -/
structure Func where
  enabled : Bool
  msixEn : Bool
  funcMask : Bool
  /-- MSI-X table dwords that differ from their reset value: index 4 x entry + dword. -/
  msixTab : List (Nat × BitVec 32)
  flrBusy : Bool
  deriving DecidableEq, Repr

/-- A TLP that waits at its host port, and the writes that came before it: those with a lower number (R302). -/
structure HeldTlp where
  tlp : Instr
  ord : Nat
  deriving DecidableEq, Repr

/-- A host port (chapter 18). -/
structure HostPort where
  speed : BitVec 4
  width : BitVec 5
  flit : Bool
  linkUp : Bool
  perst : Bool
  l1 : Bool
  aspm : Bool
  event : BitVec 5
  winEn : Bool
  sizeLog2 : BitVec 6
  winBase : BitVec 18
  vfBar2 : Nat
  downs : BitVec 16
  retrains : BitVec 16
  rx : BitVec 48
  tx : BitVec 48
  pf : Func
  reads : List HRead
  /-- TLPs that wait at the port (R302, R305, R466). -/
  held : List HeldTlp
  broughtUp : Bool
  /-- PERSTn_N was deasserted before BOOT began: the port trains after step 5 (R564). -/
  trainLate : Bool
  deriving DecidableEq, Repr

/-- A flit a graft port has sent and not yet had acknowledged (R473). -/
structure Flit where
  seq : BitVec 10
  kind : BitVec 4
  words : List Word
  naks : Nat
  deriving DecidableEq, Repr

/-- A flit that waits for its turn on a graft port (R475): its class, 2 to 4 as R475 numbers them, the flow whose order it keeps (R174),
and its contents. -/
structure WFlit where
  cls : Nat
  flow : Nat
  kind : Nat
  words : List Word
  deriving DecidableEq, Repr

/-- GRFT_STATUS.STATE (R477). -/
inductive GraftSt where
  | off | listen | train | hello | auth | admitting | up | refused
  deriving DecidableEq, Repr

/-- A graft port (chapter 18). -/
structure GraftPort where
  st : GraftSt
  peerPort : BitVec 2
  peerRank : BitVec 2
  peerImage : Word
  helloSerial : Word
  helloBoot : Word
  helloSeen : Bool
  helloAcked : Bool
  locked : BitVec 8
  event : BitVec 5
  hold : Bool
  peerSerial : Word
  peerBoot : Word
  /-- The pair of BOOT_IDs last admitted: ours, the peer's (R481). -/
  lastBoots : Option (Word × Word)
  fecCorr : BitVec 32
  fecUncorr : BitVec 32
  replays : BitVec 32
  admitted : BitVec 16
  refused : BitVec 16
  lastTag : BitVec 32
  txFlits : BitVec 48
  rxFlits : BitVec 48
  symErr : Vector (BitVec 32) 8
  /-- Polarity and the physical lane of each logical lane, found at training (R486). -/
  inverted : BitVec 8
  rxLane : Vector (BitVec 3) 8
  txSeq : BitVec 10
  rxSeq : BitVec 10
  nakDue : Bool
  unacked : List Flit
  waiting : List WFlit
  /-- The flow that sent a data flit last (R475). -/
  served : Nat
  rxChain : List Byte
  rxNonce : List Byte
  rxSig : List Byte
  ownNonce : List Word
  authSent : Bool
  peerAdmit : List AdmitEntry
  admitLast : Bool
  admitSent : Bool
  /-- Items admitted: tag and role (R472, R478). -/
  tags : List (BitVec 32 × Nat)
  deriving DecidableEq, Repr

/-- The stages of a performance-level change (R493, R494). -/
inductive LvlSt where
  | idle
  | settling (old new : Fin 4)
  | edge1 (old new : Fin 4)
  | edge2 (old new : Fin 4)
  deriving DecidableEq, Repr

/-- Taproot, the power sequencer, and Dormant (chapter 19). -/
structure Pwr where
  locked : Bool
  refclkOk : Bool
  frozen : Bool
  switches : BitVec 32
  req : Fin 4
  level : Fin 4
  lvl : LvlSt
  keptReq : Option (Fin 4)
  droopHold : Bool
  voltMv : BitVec 12
  targetMv : Nat
  event : BitVec 7
  thermLive : Bool
  powerLive : Bool
  hwLive : Bool
  hotC : BitVec 8
  powerW : BitVec 10
  jmax : BitVec 8
  sensor : BitVec 5
  jpeak : BitVec 8
  /-- Highest reading since the last level evaluation (R499). -/
  jms : Nat
  lastMw : BitVec 20
  peakMw : BitVec 20
  uj : Word
  ujRem : Nat
  alarm : Word
  alarmPend : Bool
  dormEnter : Bool
  abandoned : Bool
  dormStep : Nat
  latched : Option (BitVec 4)
  wakeCause : BitVec 4
  wakeStep : Nat
  chained : Bool
  lateStep : BitVec 3
  late : Bool
  totalUs : BitVec 16
  stepUs : Vector (BitVec 16) 4
  retLost : BitVec 18
  sinceSlow : Nat
  /-- REFCLK stopped while Dormant: the backup oscillator's estimate so far (R435). -/
  stoppedUs : Option Nat
  /-- Parity signatures of the 18 retention domains (R508). -/
  sigs : List (BitVec 32)
  deriving DecidableEq, Repr

/-- A crown firmware copy in flash (R518). -/
structure FwCopy where
  serial : BitVec 32
  words : List Word
  deriving DecidableEq, Repr

/-- Modes, resets and boot (chapter 20), and the pins that start them. -/
structure Sys where
  mode : Mode
  toService : Bool
  qcause : BitVec 8
  /-- QUARANTINE notes that wait for a boot whose ledger restore passes (R525). -/
  qnotes : List (BitVec 8)
  kind : BitVec 3
  channel : BitVec 3
  count : BitVec 16
  bootStep : Nat
  bootUs : BitVec 16
  loadUs : BitVec 16
  bootStart : Word
  fwCopy : Bool
  fwFallback : Bool
  fw : Vector FwCopy 2
  fwPref : Fin 2
  fwFloor : BitVec 32
  fwRan : Bool
  drainFor : Option DrainFor
  /-- RESET was begun inside the device; it ends by CORE_RESET_COMPLETE (R521). -/
  internalReset : Bool
  resetN : Bool
  trip : Bool
  pwrFail : Bool
  aonGood : Bool
  /-- BOOT has yet to restore the ledger from MRAM: after power was off (`some true`) or REFCLK was lost (`some false`) (R439, R523). -/
  restoreDue : Option Bool
  bootId : Word
  /-- Device-wide plot events owed to every plot that the next image defines: code, unit, detail (R435, R509). -/
  postDue : List (Nat × Nat × Word)
  deriving DecidableEq, Repr

/-- A mailbox channel (R530, R536). -/
structure Chan where
  op : BitVec 8
  go : Bool
  bulk : Bool
  code : BitVec 8
  detail : BitVec 8
  words : BitVec 6
  args : Vector Word 4
  data : Vector Word 32
  /-- A command that takes time has begun (ACTIVATE, RESET, ENTER_SERVICE). -/
  busy : Bool
  deriving DecidableEq, Repr

/-- The crown's registers, cores and mailbox (chapter 20). -/
structure Crn where
  cores : Vector Twig 4
  /-- Core k stopped by HALT, not by a double fault. -/
  haltBits : BitVec 4
  restartBits : BitVec 4
  period : BitVec 16
  armed : Bool
  remain : BitVec 16
  subMs : Nat
  chans : Vector Chan 5
  deriving DecidableEq, Repr

/-- Events and notices raised to the crown (R193, R257, R278, R516 and others). -/
inductive CrownEvt where
  | notice (reg : String)
  | stall (b : BoughId) (cause : Nat) (pc : WordAddr)
  | modeChange (m : Mode)
  | chainBreak (g : GroveId) (buf : Nat)
  | queue (q : QueueId)
  deriving DecidableEq, Repr

/-- What leaves the device: messages, flits and answers, oldest first. The MODEL's own record. -/
inductive Output where
  | msix (fn : HostFn) (entry : Nat)
  | completion (n : PortId) (tag : Nat) (ok : Bool) (ep : Bool) (data : List Byte)
  /-- A payload word that a host reads through a queue window; the flag is the EP bit. -/
  | window (fn : HostFn) (q : QueueId) (i : Nat) (w : Word) (ep : Bool)
  | cfgCompletion (n : PortId) (retry : Bool)
  | aer (n : PortId) (uncorrectable : Bool)
  /-- A graft flit: header bits [31:0] (R471; the CRC in [63:32] follows from the rest) and its payload words. -/
  | flit (n : PortId) (hdr : BitVec 32) (words : List Word)
  | beacon (n : PortId)
  | spdm (tr : Fin 9) (r : SpdmResp)
  | avs (mv : Nat)
  | selfReset
  deriving DecidableEq, Repr

/-- DESIGN CHOICE: log entry 7. -/
def Grn.start : Grn :=
  { st := .idle, active := none, slot := 0, rejected := false, splitPending := false, reason := 0, plot := 0,
    offset := 0, epoch := 0, floor := 0, req := none, staged := none, waiting := [], triedOther := false,
    slots := Vector.replicate 2 [], prefSlot := 0, owner := none, splitNext := 0, split := 0, prevOwners := [], last := none,
    zeroing := 0 }

def Ring.start : Ring :=
  { tick := 0, offset := 0, uncertain := false, gapOpen := false, backlogHit := false, merging := false,
    torn := false, restored := false, backlogSlots := 3840, seq := 0, peak := 0, lost := 0, gap := 0, lifeSel := 0,
    rings := Vector.replicate 32 0, unsigned := [], signed := [], journal := [], sealHash := [], sealItems := [],
    sealStart := 0, repairLog := [], flush := none, savedTick := 0, savedOffset := 0, msNJ := 0, devNJ := 0, jouleNJ := 0, subSec := 0,
    thermLow := 1000, thermHigh := 0 }

def Transport.start : Transport := ⟨false, false, false, none, false, false, false⟩

def Hwd.start : Hwd :=
  { keyOk := false, chainOk := false, locked := false, authFail := false, measIndex := 1, measWord := 0, authLog := 0,
    graftAuth := 0, transports := Vector.replicate 9 Transport.start, sessions := [], nextSid := 0,
    ide := Vector.replicate 4 ⟨[], [], false⟩, engine := none, sigQueue := [] }

/-- PRESUMED: log entry 8. -/
def Func.start : Func := ⟨false, false, false, [], false⟩

def HostPort.start : HostPort :=
  { speed := 0, width := 0, flit := false, linkUp := false, perst := false, l1 := false, aspm := false, event := 0,
    winEn := true, sizeLog2 := 30, winBase := 0, vfBar2 := 29, downs := 0, retrains := 0, rx := 0, tx := 0,
    pf := Func.start, reads := [], held := [], broughtUp := false, trainLate := false }

def GraftPort.start : GraftPort :=
  { st := .off, peerPort := 0, peerRank := 0, peerImage := 0, helloSerial := 0, helloBoot := 0, helloSeen := false,
    helloAcked := false, locked := 0, event := 0, hold := false, peerSerial := 0, peerBoot := 0, lastBoots := none,
    fecCorr := 0, fecUncorr := 0, replays := 0, admitted := 0, refused := 0, lastTag := 0, txFlits := 0, rxFlits := 0,
    symErr := Vector.replicate 8 0, inverted := 0, rxLane := Vector.replicate 8 0, txSeq := 0, rxSeq := 0,
    nakDue := false, unacked := [], waiting := [], served := 0, rxChain := [], rxNonce := [], rxSig := [], ownNonce := [], authSent := false,
    peerAdmit := [], admitLast := false, admitSent := false, tags := [] }

def Pwr.start : Pwr :=
  { locked := false, refclkOk := false, frozen := false, switches := 0, req := 3, level := 3, lvl := .idle,
    keptReq := none, droopHold := false, voltMv := 0, targetMv := 600, event := 0, thermLive := false,
    powerLive := false, hwLive := false, hotC := 95, powerW := 250, jmax := 0, sensor := 0, jpeak := 0, jms := 0,
    lastMw := 0, peakMw := 0, uj := 0, ujRem := 0, alarm := 0, alarmPend := false, dormEnter := false,
    abandoned := false, dormStep := 0, latched := none, wakeCause := 0, wakeStep := 0, chained := false,
    lateStep := 0, late := false, totalUs := 0, stepUs := Vector.replicate 4 0, retLost := 0,
    sinceSlow := 100, stoppedUs := none, sigs := [] }

/-- The always-on domain right after VDD_AON rises: mode RESET, RESET_N still asserted by the board. DESIGN CHOICE: log entry 9. -/
def Sys.start : Sys :=
  { mode := .reset, toService := false, qcause := 0, qnotes := [], kind := 0, channel := 0, count := 0,
    bootStep := 0, bootUs := 0, loadUs := 0, bootStart := 0, fwCopy := false, fwFallback := false,
    fw := Vector.replicate 2 ⟨0, []⟩, fwPref := 0, fwFloor := 0, fwRan := false, drainFor := none,
    internalReset := false, resetN := true, trip := false, pwrFail := false, aonGood := true,
    restoreDue := some true, bootId := 0, postDue := [] }

def Chan.start : Chan :=
  { op := 0, go := false, bulk := false, code := 0, detail := 0, words := 0, args := Vector.replicate 4 0,
    data := Vector.replicate 32 0, busy := false }

def Crn.start : Crn :=
  { cores := Vector.replicate 4 (Twig.start .stopped), haltBits := 0, restartBits := 0, period := 1000,
    armed := false, remain := 0, subMs := 0, chans := Vector.replicate 5 Chan.start }

end Sys2Proof.Machine
end

