-- ==== Sys2Proof/Machine/State.lean ====
section
/-! DEFINITION. The state of the Valja block: every part the spec gives it, and the queue of waiting commands. -/

namespace Sys2Proof.Machine

structure State where
  /-- Commands that wait, first in, first out. -/
  pending : List Instr
  mem : Memory
  boughs : Vector Bough 256
  groves : Vector Grove 16
  queues : Vector Queue 1024
  links : List Link
  plots : Vector Plot 64
  slices : Vector Slice 64
  hbm : Vector Stack 8
  scr : Vector Scratch 256
  cnp : Cnp
  /-- Filter entries delivered to targets, in delivery order; `installed` once the target has them (R149). -/
  filters : List FEntry
  /-- Arm requests waiting for the trunk commit sequencer, in arrival order (R148, R299). -/
  seqQ : List ArmReq
  heldReads : List HeldRead
  heldWrites : List HeldWrite
  txns : List WTxn
  grn : Grn
  ring : Ring
  hwd : Hwd
  ports : Vector HostPort 4
  vfs : Vector Func 64
  grafts : Vector GraftPort 4
  pwr : Pwr
  sys : Sys
  crn : Crn
  /-- ROOT_CFG (R282) and the map in force (R268). -/
  rootLinear : Bool
  refresh2x : Bool
  scrubHours : BitVec 8
  linearInForce : Bool
  /-- SCR_CFG and SCR_SEL (R332, R333). -/
  sweepEn : Bool
  repairEn : Bool
  paceUs : BitVec 14
  scrSel : BitVec 8
  /-- The MODEL's own fields: crown events raised, outputs, and counters that number requests and free values. -/
  crownEvts : List CrownEvt
  outbox : List Output
  nextId : Nat
  fresh : Nat
  /-- The twig whose turn it is to fetch when no command waits: 0-255 the boughs' twigs, 256-259 the crown cores. -/
  turn : Nat
  deriving DecidableEq, Repr

/-- Reasons to stop with a fault. The spec gives every command of this block an effect, so there is none: the type is
empty (safe: nothing can be proved from a fault that does not exist). -/
inductive Fault where
  deriving DecidableEq, Repr

/-- Reasons for which a command is refused. -/
inductive Refusal where
  /-- A command whose meaning this model has not reached. Raised by `exec` alone. Safe. -/
  | notModelled (mnemonic : String)
  deriving DecidableEq, Repr

/-- The machine after power-on reset: mode RESET, every register at its Reset column, no image active, no memory
contents defined (R9, R520, R522); what no rule states is in log entries 5 to 10. DESIGN CHOICE: log entries 7, 9. -/
def State.reset : State :=
  { pending := [], mem := Memory.init, boughs := Vector.replicate 256 Bough.start,
    groves := Vector.replicate 16 Grove.start, queues := Vector.replicate 1024 (Queue.start 0), links := [],
    plots := Vector.replicate 64 Plot.start, slices := Vector.replicate 64 Slice.start,
    hbm := Vector.replicate 8 Stack.start, scr := Vector.replicate 256 Scratch.start, cnp := Cnp.start,
    filters := [], seqQ := [], heldReads := [], heldWrites := [], txns := [], grn := Grn.start, ring := Ring.start,
    hwd := Hwd.start, ports := Vector.replicate 4 HostPort.start, vfs := Vector.replicate 64 Func.start,
    grafts := Vector.replicate 4 GraftPort.start, pwr := Pwr.start, sys := Sys.start, crn := Crn.start,
    rootLinear := false, refresh2x := false, scrubHours := 24, linearInForce := false, sweepEn := true,
    repairEn := true, paceUs := 100, scrSel := 0, crownEvts := [], outbox := [], nextId := 0, fresh := 0, turn := 0 }

end Sys2Proof.Machine
end

