-- ==== Sys2Proof/Machine/Ops.lean ====
section
/-! DEFINITION. The named operations over memory, registers and the parts of `State` that every family of commands
shares: bit fields, the address map (R537), the byte store with its word marks, ownership (R303, R304), and the
updates of one bough, twig, queue, plot or port. -/

namespace Sys2Proof.Machine

/-- The outcome type of a meaning. -/
abbrev Out := Host.Outcome State Fault Refusal

/-! ### Bit fields -/

/-- The field of `n` bits that starts at bit `lo`. -/
def fieldAt (w : Word) (lo n : Nat) : Nat := w.toNat / 2 ^ lo % 2 ^ n

/-- A word whose field of `n` bits at bit `lo` is `v`, one entry per field. -/
def packWord (fs : List (Nat × Nat × Nat)) : Word :=
  BitVec.ofNat 64 ((fs.map fun f => f.2.2 % 2 ^ f.2.1 * 2 ^ f.1).sum)

def b2n (b : Bool) : Nat := if b then 1 else 0

/-- `w` with the bits of `mask` taken from `v`. -/
def blend (w v mask : Word) : Word := (w &&& ~~~mask) ||| (v &&& mask)

/-- A mask of `n` bits that starts at bit `lo`. -/
def maskAt (lo n : Nat) : Word := BitVec.ofNat 64 ((2 ^ n - 1) * 2 ^ lo)

/-- Sign extension of the low `n` bits of `v` to 64 bits (R204). -/
def signExt (n v : Nat) : Word := BitVec.ofInt 64 (if v % 2 ^ n < 2 ^ (n - 1) then (v % 2 ^ n : Nat) else (v % 2 ^ n : Nat) - (2 ^ n : Nat))

/-- Addition that stops at the largest value of the width. -/
def satAdd (n : Nat) (x : BitVec n) (k : Nat) : BitVec n :=
  if x.toNat + k < 2 ^ n then BitVec.ofNat n (x.toNat + k) else BitVec.ofNat n (2 ^ n - 1)

/-- Little-endian bytes of a word, lowest address first. -/
def wordBytes (n : Nat) (w : Nat) : List Byte := (List.range n).map fun i => BitVec.ofNat 8 (w / 2 ^ (8 * i))

/-- The number that little-endian bytes spell. -/
def bytesNat : List Byte → Nat
  | [] => 0
  | b :: bs => b.toNat + 256 * bytesNat bs

/-- Bytes laid out from address `a`. -/
def atAddr (a : Nat) : List Byte → List (Nat × Byte)
  | [] => []
  | b :: bs => (a, b) :: atAddr (a + 1) bs

/-- Words as little-endian bytes. -/
def wordsBytes (ws : List Word) : List Byte := ws.flatMap fun w => wordBytes 8 w.toNat

/-- The words that bytes spell, the last one padded with zero bytes. -/
def bytesWords (bs : List Byte) : List Word :=
  (List.range ((bs.length + 7) / 8)).map fun i => BitVec.ofNat 64 (bytesNat ((bs.drop (8 * i)).take 8))

/-! ### Vectors indexed by a bounded number -/

def vmod {α : Type} {n : Nat} (v : Vector α n) (i : Fin n) (f : α → α) : Vector α n := v.set i.val (f v[i]) i.isLt

def vset {α : Type} {n : Nat} (v : Vector α n) (i : Fin n) (x : α) : Vector α n := v.set i.val x i.isLt

/-- The bounded number that a Nat names, if it is in range. -/
def finOf? (n k : Nat) : Option (Fin n) := if h : k < n then some ⟨k, h⟩ else none

/-- Applies `f` to the k-th entry of a list. -/
def lmod {α : Type} : List α → Nat → (α → α) → List α
  | [], _, _ => []
  | x :: xs, 0, f => f x :: xs
  | x :: xs, k + 1, f => x :: lmod xs k f

/-! ### Selecting and changing one part of the state -/

def State.bough (s : State) (b : BoughId) : Bough := s.boughs[b]
def State.setBough (s : State) (b : BoughId) (x : Bough) : State := { s with boughs := vset s.boughs b x }
def State.modBough (s : State) (b : BoughId) (f : Bough → Bough) : State := s.setBough b (f (s.bough b))

def State.twig (s : State) : TwigId → Twig
  | .bough b => (s.bough b).twig
  | .crown k => s.crn.cores[k]

def State.setTwig (s : State) (t : TwigId) (x : Twig) : State :=
  match t with
  | .bough b => s.modBough b fun y => { y with twig := x }
  | .crown k => { s with crn := { s.crn with cores := vset s.crn.cores k x } }

def State.modTwig (s : State) (t : TwigId) (f : Twig → Twig) : State := s.setTwig t (f (s.twig t))

def State.half (s : State) (b : BoughId) (h : Fin 2) : Half := (s.bough b).halves[h]
def State.setHalf (s : State) (b : BoughId) (h : Fin 2) (x : Half) : State :=
  s.modBough b fun y => { y with halves := vset y.halves h x }
def State.modHalf (s : State) (b : BoughId) (h : Fin 2) (f : Half → Half) : State := s.setHalf b h (f (s.half b h))

def State.modGrove (s : State) (g : GroveId) (f : Grove → Grove) : State := { s with groves := vmod s.groves g f }
def State.modQueue (s : State) (q : QueueId) (f : Queue → Queue) : State := { s with queues := vmod s.queues q f }
def State.modPlot (s : State) (p : PlotId) (f : Plot → Plot) : State := { s with plots := vmod s.plots p f }
def State.modSlice (s : State) (k : SliceId) (f : Slice → Slice) : State := { s with slices := vmod s.slices k f }
def State.modStack (s : State) (k : StackId) (f : Stack → Stack) : State := { s with hbm := vmod s.hbm k f }
def State.modScr (s : State) (b : BoughId) (f : Scratch → Scratch) : State := { s with scr := vmod s.scr b f }
def State.modPort (s : State) (n : PortId) (f : HostPort → HostPort) : State := { s with ports := vmod s.ports n f }
def State.modGraft (s : State) (n : PortId) (f : GraftPort → GraftPort) : State := { s with grafts := vmod s.grafts n f }
def State.modVf (s : State) (v : VfId) (f : Func → Func) : State := { s with vfs := vmod s.vfs v f }
def State.modLink (s : State) (l : Nat) (f : Link → Link) : State := { s with links := lmod s.links l f }
def State.modChan (s : State) (c : Fin 5) (f : Chan → Chan) : State :=
  { s with crn := { s.crn with chans := vmod s.crn.chans c f } }

def State.func (s : State) : HostFn → Func
  | .pf n => s.ports[n].pf
  | .vf v => s.vfs[v]

def State.modFunc (s : State) (fn : HostFn) (f : Func → Func) : State :=
  match fn with
  | .pf n => s.modPort n fun p => { p with pf := f p.pf }
  | .vf v => s.modVf v f

/-- Raises an event or notice to the crown (MODEL's record). DESIGN CHOICE: log entry 10. -/
def State.raise (s : State) (e : CrownEvt) : State := { s with crownEvts := s.crownEvts ++ [e] }
/-- Sends something out of the device (MODEL's record). DESIGN CHOICE: log entry 10. -/
def State.emit (s : State) (o : Output) : State := { s with outbox := s.outbox ++ [o] }

/-- Sets a notice bit: the notice is raised only when the bit was clear (R12, R193, R278, R313 and others). -/
def State.notice (s : State) (was : Bool) (reg : String) : State := if was then s else s.raise (.notice reg)

/-- A free value and the state after it is drawn. DESIGN CHOICE: log entry 5. -/
def State.draw (s : State) : Word × State := (Config.freeWord s.fresh, { s with fresh := s.fresh + 1 })
/-- DESIGN CHOICE: log entry 5. -/
def State.drawBool (s : State) : Bool × State := (Config.freeBool s.fresh, { s with fresh := s.fresh + 1 })

/-- Adds to ring i of the ledger, which saturates (R430). -/
def State.ringAdd (s : State) (i k : Nat) : State :=
  match finOf? 32 i with
  | some i => { s with ring := { s.ring with rings := vmod s.ring.rings i fun x => satAdd 64 x k } }
  | none => s

/-- A new request number. -/
def State.newId (s : State) : Nat × State := (s.nextId, { s with nextId := s.nextId + 1 })

/-! ### The address map (R537) -/

inductive Place where
  | root (r : Nat)
  | scratch (b : Nat) (off : Nat)
  | regs (off : Nat)
  | pstore (g : Nat) (off : Nat)
  | crownRam (off : Nat)
  | hole
  deriving DecidableEq, Repr

def rootSize : Nat := 0x2000000000
def scratchBase : Nat := 0x10000000000
def regBase : Nat := 0x20000000000
def pstoreBase : Nat := 0x30000000000
def crownBase : Nat := 0x40000000000

def placeOf (a : Nat) : Place :=
  if a < rootSize then .root (a / 0x10000000)
  else if scratchBase ≤ a ∧ a < scratchBase + 0x10000000 then
    (if (a - scratchBase) % 0x100000 < 0x80000 then
      .scratch ((a - scratchBase) / 0x100000) ((a - scratchBase) % 0x100000) else .hole)
  else if regBase ≤ a ∧ a < regBase + 0x4000000 then .regs (a - regBase)
  else if pstoreBase ≤ a ∧ a < pstoreBase + 0x2000000 then
    .pstore ((a - pstoreBase) / 0x200000) ((a - pstoreBase) % 0x200000)
  else if crownBase ≤ a ∧ a < crownBase + 0x200000 then .crownRam (a - crownBase)
  else .hole

/-- Base of bough b's scratchpad window (R316). -/
def scratchAddr (b : BoughId) : Nat := scratchBase + b.val * 0x100000

/-- The zone of an address: the unit whose contents are defined or lost together. Root regions 0-511, scratchpads
512-767, program-store units of 4 Ki words 1024-5119 by grove and unit, crown RAM 5120. -/
def zoneOf (a : Nat) : Nat :=
  match placeOf a with
  | .root r => r
  | .scratch b _ => 512 + b
  | .pstore g off => 1024 + 256 * g + off / 0x2000
  | .crownRam _ => 5120
  | _ => 5121

def scratchZone (b : Nat) : Nat := 512 + b
def pstoreZone (g u : Nat) : Nat := 1024 + 256 * g + u
def crownZone : Nat := 5120

/-! ### The byte store -/

def insertCell (a : Nat) (b : Byte) : List Host.Cell → List Host.Cell
  | [] => [(a, b)]
  | c :: cs => if a < c.1 then (a, b) :: c :: cs else if a = c.1 then (a, b) :: cs else c :: insertCell a b cs

def eraseCell (a : Nat) (cs : List Host.Cell) : List Host.Cell := cs.filter fun c => c.1 ≠ a

def insertNat (z : Nat) : List Nat → List Nat
  | [] => [z]
  | x :: xs => if z < x then z :: x :: xs else if z = x then x :: xs else x :: insertNat z xs

def insertMark (w : Nat) (m : Mark) : List (Nat × Mark) → List (Nat × Mark)
  | [] => [(w, m)]
  | c :: cs => if w < c.1 then (w, m) :: c :: cs else if w = c.1 then (w, m) :: cs else c :: insertMark w m cs

/-- Whether the contents of a zone are defined where no cell lists them: they are then 0. -/
def Memory.isZeroed (m : Memory) (z : Nat) : Bool := m.zeroed.contains z

def Memory.listed (m : Memory) (a : Nat) : Option Byte := (m.cells.find? fun c => c.1 = a).map (·.2)

/-- What an address that no cell lists reads as: 0 in a zeroed zone, a free value otherwise (R566). -/
def Memory.unlisted (m : Memory) (a : Nat) : Byte := if m.isZeroed (zoneOf a) then 0 else Config.freeByte (if a < rootSize then m.epoch else m.coreEpoch) a

/-- Reads one byte. -/
def Memory.read (m : Memory) (a : Nat) : Byte := (m.listed a).getD (m.unlisted a)

def Memory.readN (m : Memory) (a n : Nat) : List Byte := (List.range n).map fun i => m.read (a + i)

/-- Writes one byte and keeps the canonical form. DESIGN CHOICE: log entry 3. -/
def Memory.put (m : Memory) (a : Nat) (b : Byte) : Memory :=
  if m.isZeroed (zoneOf a) && b == 0 then { m with cells := eraseCell a m.cells }
  else { m with cells := insertCell a b m.cells }

def Memory.putAll (m : Memory) (bs : List (Nat × Byte)) : Memory := bs.foldl (fun m c => m.put c.1 c.2) m

/-- The mark of 64-bit word `w`; a word of root memory that nothing has written may read as uncorrectable (R566). -/
def Memory.markOf (m : Memory) (w : Nat) : Option Mark :=
  match m.marks.find? fun c => c.1 = w with
  | some c => some c.2
  | none =>
    if m.isZeroed (zoneOf (8 * w)) then none
    else if (m.listed (8 * w)).isSome then none
    else if w < rootSize / 8 then
      match Config.freeCheck m.epoch w with
      | 0 => none
      | 1 => some .single
      | _ => some .fresh
    else none

def Memory.setMark (m : Memory) (w : Nat) (k : Option Mark) : Memory :=
  match k with
  | some k => { m with marks := insertMark w k m.marks }
  | none => { m with marks := m.marks.filter fun c => c.1 ≠ w }

/-- Whether a read of word `w` finds it uncorrectable (R274, R275). -/
def Memory.badWord (m : Memory) (w : Nat) : Bool :=
  m.dead.contains (w / 8) ||
    match m.markOf w with
    | some .fresh | some .stored => true
    | _ => false

def Memory.badByte (m : Memory) (a : Nat) : Bool := m.badWord (a / 8)

/-- Lists the eight bytes of a word of a zone that is not zeroed. -/
def Memory.materialise (m : Memory) (w : Nat) : Memory :=
  if m.isZeroed (zoneOf (8 * w)) then m
  else m.putAll ((List.range 8).map fun i => (8 * w + i, m.read (8 * w + i)))

/-- Writes bytes of one 64-bit word: a write of the whole word stores fresh check bits; a write of a part merges, and
stores poison when the merge read finds the word uncorrectable (R273, R275, R319). -/
def Memory.writeWord (m : Memory) (w : Nat) (bs : List (Nat × Byte)) : Memory :=
  if (List.range 8).all fun i => bs.any fun c => c.1 = 8 * w + i then (m.putAll bs).setMark w none
  else ((m.materialise w).putAll bs).setMark w (if m.badWord w then some .stored else none)

/-- The words that a list of bytes touches, each once. -/
def wordsOf : List (Nat × Byte) → List Nat
  | [] => []
  | c :: cs => if (wordsOf cs).contains (c.1 / 8) then wordsOf cs else c.1 / 8 :: wordsOf cs

/-- Writes bytes, each 64-bit word as `writeWord` does; a write to a dead row is discarded (R326). -/
def Memory.write (m : Memory) (bs : List (Nat × Byte)) : Memory :=
  (wordsOf bs).foldl (fun m w => if m.dead.contains (w / 8) then m else m.writeWord w (bs.filter fun c => c.1 / 8 = w)) m

/-- Makes every byte of a zone 0 with fresh check bits. -/
def Memory.zeroZone (m : Memory) (z : Nat) : Memory :=
  { m with cells := m.cells.filter fun c => zoneOf c.1 ≠ z, zeroed := insertNat z m.zeroed,
           marks := m.marks.filter fun c => zoneOf (8 * c.1) ≠ z }

/-- Loses the contents of the zones that satisfy `p` (R566): they are free values again. -/
def Memory.lose (m : Memory) (p : Nat → Bool) : Memory :=
  { m with cells := m.cells.filter fun c => !p (zoneOf c.1), zeroed := m.zeroed.filter fun z => !p z,
           marks := m.marks.filter fun c => !p (zoneOf (8 * c.1)),
           epoch := if (List.range 512).any p then m.epoch + 1 else m.epoch, coreEpoch := m.coreEpoch + 1 }

/-- Whether a list of numbers rises strictly. -/
def rising : List Nat → Bool
  | a :: b :: l => decide (a < b) && rising (b :: l)
  | _ => true

/-- The canonical form of memory: addresses, zones and marks rise strictly and no cell of a zone that holds zeros where
nothing is listed holds 0. DESIGN CHOICE: log entry 3. -/
def Memory.wf (m : Memory) : Bool :=
  rising (m.cells.map (·.1)) && m.cells.all (fun c => !(m.isZeroed (zoneOf c.1) && c.2 == 0)) && rising m.zeroed &&
    rising (m.marks.map (·.1)) && rising m.dead

/-- DESIGN CHOICE: log entry 1. -/
def State.modMem (s : State) (f : Memory → Memory) : State := { s with mem := f s.mem }

/-- The 64-bit word at an address. -/
def Memory.readWord (m : Memory) (a : Nat) : Word := BitVec.ofNat 64 (bytesNat (m.readN a 8))

/-! ### Program words (R43, R45, R231) -/

/-- The address of word `w` of grove g's program store. -/
def pstoreAddr (g w : Nat) : Nat := pstoreBase + g * 0x200000 + 2 * w
def crownWordAddr (w : Nat) : Nat := crownBase + 2 * w

/-- The 14-bit program word at an address. -/
def Memory.readProg (m : Memory) (a : Nat) : Nat := bytesNat (m.readN a 2) % 2 ^ 14

/-- Whether the 16-word line that holds an address is uncorrectable. -/
def Memory.badLine (m : Memory) (a : Nat) : Bool := (List.range 4).any fun i => m.badWord (a / 32 * 4 + i)

/-- Whether the line holds a single-bit error. -/
def Memory.singleLine (m : Memory) (a : Nat) : Bool := (List.range 4).any fun i => m.markOf (a / 32 * 4 + i) == some .single

/-- A write of part of a 16-word line, or of all of it (R45): a partial write of an uncorrectable line leaves the whole
line poisoned. `bs` lies in the line of `a`; bits [15:14] of a program word are not stored (R43). -/
def Memory.writeLine (m : Memory) (a : Nat) (bs : List (Nat × Byte)) : Memory :=
  let l := a / 32 * 32
  let bs := bs.map fun c => if c.1 % 2 = 1 then (c.1, c.2 &&& 0x3f) else c
  let whole := (List.range 32).all fun i => bs.any fun c => c.1 = l + i
  let bad := !whole && m.badLine a
  let m1 := if whole then m else (List.range 4).foldl (fun m i => m.materialise (l / 8 + i)) m
  let m2 := m1.putAll bs
  (List.range 4).foldl (fun m i => m.setMark (l / 8 + i) (if bad then some .stored else none)) m2

/-! ### The active image: ownership of boughs, regions, queues -/

/-- The image whose assignments are live. -/
def State.image (s : State) : Option Grain := s.grn.active

def State.plotMaps (s : State) : List PlotMap :=
  match s.grn.active with
  | some g => g.plots
  | none => []

def State.plotMap (s : State) (p : Nat) : Option PlotMap := s.plotMaps.find? fun m => m.plot = p

/-- The plot that owns a bough (R54). -/
def State.boughPlot (s : State) (b : Nat) : Option PlotMap := s.plotMaps.find? fun m => m.boughs.getLsbD b

/-- The plot that owns a region (R304). -/
def State.regionPlot (s : State) (r : Nat) : Option PlotMap := s.plotMaps.find? fun m => m.regions.getLsbD r

/-- The plot whose VF is v. -/
def State.vfPlot (s : State) (v : Nat) : Option PlotMap := s.plotMaps.find? fun m => m.vf = some v

/-- The owner of the storage at an address: `none` when it is no root memory and no scratchpad. -/
def State.ownerAt (s : State) (a : Nat) : Option (Option PlotMap) :=
  match placeOf a with
  | .root r => some (s.regionPlot r)
  | .scratch b _ => some (s.boughPlot b)
  | _ => none

/-- The ownership check of R64 and R303 for plot p at one address. -/
def State.checkOwner (s : State) (p : Nat) (a : Nat) : Option Cause :=
  match s.ownerAt a with
  | none => some .access
  | some none => some .unmapped
  | some (some m) => if m.plot = p then none else some .access

def plotId (p : Nat) : PlotId := if h : p < 64 then ⟨p, h⟩ else 0
def boughId (b : Nat) : BoughId := if h : b < 256 then ⟨b, h⟩ else 0
def groveOf (b : BoughId) : GroveId := ⟨b.val / 16, by omega⟩
def queueGrove (q : QueueId) : GroveId := ⟨q.val / 64, by omega⟩

/-- The boughs of a plot, ascending. -/
def PlotMap.boughList (m : PlotMap) : List BoughId := (List.finRange 256).filter fun b => m.boughs.getLsbD b.val

def PlotMap.regionList (m : PlotMap) : List Nat := (List.range 512).filter fun r => m.regions.getLsbD r

/-- The layout record of a queue (R339). -/
def State.queueRec (s : State) (q : Nat) : Option (Word × Word) :=
  match s.grn.active with
  | some g => g.queues.find? fun r => fieldAt r.1 0 10 = q
  | none => none

/-- A role that a layout record names (R339). -/
inductive QRole where
  | bough (b : Nat)
  | host (id : Nat)
  | graft (n : Nat)
  | crown
  | device
  deriving DecidableEq, Repr

def roleOf (kind id : Nat) : QRole :=
  match kind with
  | 0 => .bough id
  | 1 => .host id
  | 2 => .graft id
  | 3 => .crown
  | _ => .device

def recProd (r : Word × Word) : QRole := roleOf (fieldAt r.1 40 3) (fieldAt r.1 48 8)
def recCons (r : Word × Word) : QRole := roleOf (fieldAt r.2 0 3) (fieldAt r.2 8 8)
def recSize (r : Word × Word) : Nat := 64 * fieldAt r.1 28 11
def recPlot (r : Word × Word) : Nat := fieldAt r.1 10 6
def recMsix (r : Word × Word) : Nat := fieldAt r.2 16 11
def recTag (r : Word × Word) : BitVec 32 := BitVec.ofNat 32 (fieldAt r.2 32 32)

def State.prodOf (s : State) (q : Nat) : Option QRole := (s.queueRec q).map recProd
def State.consOf (s : State) (q : Nat) : Option QRole := (s.queueRec q).map recCons

/-- The host function that an identifier of R339 names. -/
def hostFnOf (id : Nat) : Option HostFn :=
  if h : id < 64 then some (.vf ⟨id, h⟩)
  else if h : 0xf0 ≤ id ∧ id < 0xf4 then some (.pf ⟨id - 0xf0, by omega⟩)
  else none

def hostFnId : HostFn → Nat
  | .vf v => v.val
  | .pf n => 0xf0 + n.val

/-- The crown queue of a bough (R373). -/
def State.crownQueue (s : State) (b : Nat) : Option QueueId :=
  (List.finRange 1024).find? fun q => match s.queueRec q.val with
    | some r => recProd r == .crown && recCons r == .bough b
    | none => false

/-- The port that a virtual function belongs to under the split in force (R460): 0 for 1x16, v / 32 for 2x8, v / 16
for 4x4. -/
def vfPort (split : Nat) (v : VfId) : PortId :=
  match split with
  | 0 => 0
  | 1 => ⟨v.val / 32, by omega⟩
  | _ => ⟨v.val / 16, by omega⟩

def fnPort (s : State) : HostFn → PortId
  | .pf n => n
  | .vf v => vfPort s.grn.split v

/-- Adds to the metering counters of the plot that owns bough b (R421). DESIGN CHOICE: log entry 19. -/
def State.meter (s : State) (p : Option Nat) (f : Counters → Counters) : State :=
  match p with
  | some p => s.modPlot (plotId p) fun x => { x with cnt := f x.cnt }
  | none => s

def State.meterBough (s : State) (b : BoughId) (f : Counters → Counters) : State :=
  s.meter ((s.boughPlot b.val).map (·.plot)) f

/-- Records a failed ownership check (R313, R314). -/
def State.isoFail (s : State) (master vf plot : Nat) (a : Nat) (write : Bool) : State :=
  let own := match s.ownerAt a with
    | some (some m) => some m.plot
    | _ => none
  let c := s.cnp
  let log := if c.isoValid then c else
    { c with isoValid := true, isoAddr := BitVec.ofNat 48 a,
             isoLog := packWord [(0, 9, master), (10, 6, vf), (16, 6, plot), (24, 6, own.getD 0),
                                 (30, 1, b2n own.isNone), (31, 1, b2n write)] }
  ({ s with cnp := { log with isoSeen := true, isoCount := satAdd 32 log.isoCount 1 } }).notice c.isoSeen "CNP_ISO_STATUS"

end Sys2Proof.Machine
end

