-- ==== Sys2Proof/Machine/GraftOps.lean ====
section
/-! DEFINITION. Sending flits on a graft port (R471 to R475): what waits, and which flit goes next. -/

namespace Sys2Proof.Machine

/-- Flit kinds (R472). -/
def fkIdle : Nat := 0
def fkHello : Nat := 1
def fkAuth : Nat := 2
def fkAdmit : Nat := 3
def fkLeave : Nat := 4
def fkChainData : Nat := 5
def fkChainToken : Nat := 6
def fkQueueData : Nat := 7
def fkQueueCtrl : Nat := 8
def fkCredit : Nat := 9

/-- Header bits [31:0] of the flit that port n sends with sequence number `seq` (R471). -/
def flitHdr (p : GraftPort) (kind : Nat) (seq : BitVec 10) (len : Nat) : BitVec 32 :=
  BitVec.ofNat 32 (kind + len * 2 ^ 4 + seq.toNat * 2 ^ 9 + p.rxSeq.toNat * 2 ^ 19 + b2n p.nakDue * 2 ^ 29)

/-- Sends one flit that carries a number, and keeps it until it is acknowledged (R473). DESIGN CHOICE: log entry 53. -/
def State.sendFlit (s : State) (n : PortId) (kind : Nat) (ws : List Word) : State :=
  let p := s.grafts[n]
  let f : Flit := { seq := p.txSeq, kind := BitVec.ofNat 4 kind, words := ws, naks := 0 }
  (s.modGraft n fun p => { p with txSeq := p.txSeq + 1, nakDue := false, unacked := (p.unacked ++ [f]).drop (p.unacked.length + 1 - 512), txFlits := p.txFlits + 1 }).emit
    (.flit n (flitHdr p kind p.txSeq ws.length) ws)

/-- Flows of a port: what a link or a queue sends downstream, and what it sends upstream, each in its own order (R174, R475). -/
def flowOf (k : Nat) (tag : BitVec 32) : Nat := k * 2 ^ 32 + tag.toNat

/-- A flit of class `cls` waits for its turn (R475). -/
def State.waitFlit (s : State) (n : PortId) (cls flow kind : Nat) (ws : List Word) : State :=
  s.modGraft n fun p => { p with waiting := p.waiting ++ [{ cls := cls, flow := flow, kind := kind, words := ws }] }

/-- The flits that may go next: the oldest of each flow (R174). -/
def flowHeads : List Nat → List WFlit → List WFlit
  | _, [] => []
  | seen, f :: fs => if seen.contains f.flow then flowHeads seen fs else f :: flowHeads (f.flow :: seen) fs

/-- The flow with the lowest number that satisfies `p`. -/
def lowestFlow (p : Nat → Bool) : List WFlit → Option WFlit
  | [] => none
  | f :: fs =>
    match lowestFlow p fs with
    | some g => if p f.flow && decide (f.flow ≤ g.flow) then some f else some g
    | none => if p f.flow then some f else none

/-- The flit that a port sends next (R475): tokens, controls and credits first, oldest first; then data, round-robin over the flows; then
HELLO. -/
def GraftPort.choose (p : GraftPort) : Option WFlit :=
  let hs := flowHeads [] p.waiting
  match hs.find? fun f => f.cls == 2 with
  | some f => some f
  | none =>
    let ds := hs.filter fun f => f.cls == 3
    match lowestFlow (fun x => decide (p.served < x)) ds with
    | some f => some f
    | none => (lowestFlow (fun _ => true) ds).or hs.head?

/-- The port sends the flit that R475 chooses. -/
def State.portTurn (s : State) (n : PortId) : State :=
  match s.grafts[n].choose with
  | none => s
  | some f =>
    (s.modGraft n fun p => { p with waiting := p.waiting.erase f, served := if f.cls = 3 then f.flow else p.served }).sendFlit n f.kind f.words

/-- Each graft port sends one flit, if one waits. DESIGN CHOICE: log entry 160. -/
def State.portsTurn (s : State) : State := (List.finRange 4).foldl (fun s n => s.portTurn n) s

/-- Everything that waits goes, before a LEAVE (R482, R483). -/
def State.portsDrain (s : State) (n : PortId) : State := (List.range s.grafts[n].waiting.length).foldl (fun s _ => s.portTurn n) s

/-- Sends IDLE: it carries the next unused number and is not counted (R471). -/
def State.sendIdle (s : State) (n : PortId) : State :=
  (s.modGraft n fun p => { p with nakDue := false }).emit (.flit n (flitHdr s.grafts[n] fkIdle s.grafts[n].txSeq 0) [])

/-- A good flit other than IDLE has arrived (R473, R486). DESIGN CHOICE: log entry 53. -/
def State.rxFlit (s : State) (n : PortId) : State := s.modGraft n fun p => { p with rxSeq := p.rxSeq + 1, rxFlits := p.rxFlits + 1 }

/-- A data word of CHAIN_DATA or QUEUE_DATA with its poison flag. -/
def poisonMask (ws : List (Word × Bool)) : Nat :=
  ((List.range ws.length).map fun i => match ws[i]? with | some w => b2n w.2 * 2 ^ i | none => 0).sum

/-- CHAIN_DATA (R473). -/
def State.sendChainData (s : State) (n : PortId) (tag : BitVec 32) (ep : BitVec 16) (off : Nat) (ws : List (Word × Bool)) : State :=
  s.waitFlit n 3 (flowOf 0 tag) fkChainData
    (packWord [(0, 32, tag.toNat), (32, 8, ep.toNat), (40, 12, off), (52, 5, ws.length)] ::
      packWord [(0, 29, poisonMask ws)] :: ws.map (·.1))

/-- CHAIN_TOKEN with one entry (R474): END 0, COMMIT 1, ABORT 2 go downstream, TAKEN 3 and REPLAY 4 upstream. -/
def State.sendChainToken (s : State) (n : PortId) (tag : BitVec 32) (ep : BitVec 16) (token len : Nat) : State :=
  s.waitFlit n 2 (flowOf (if token < 3 then 0 else 1) tag) fkChainToken [packWord [(0, 32, tag.toNat), (32, 8, ep.toNat), (40, 3, token), (43, 16, len)]]

/-- QUEUE_CTRL with one entry (R474): CLOSED 0 goes upstream, ABORT 1 downstream. -/
def State.sendQueueCtrl (s : State) (n : PortId) (tag : BitVec 32) (op : Nat) (pseq : BitVec 16) : State :=
  s.waitFlit n 2 (flowOf (if op = 0 then 3 else 2) tag) fkQueueCtrl [packWord [(0, 32, tag.toNat), (32, 3, op), (35, 16, pseq.toNat)]]

/-- CREDIT with one entry (R474). -/
def State.sendCredit (s : State) (n : PortId) (tag : BitVec 32) (isQueue : Bool) (words : Nat) : State :=
  s.waitFlit n 2 (flowOf (if isQueue then 5 else 4) tag) fkCredit [packWord [(0, 32, tag.toNat), (32, 1, b2n isQueue), (33, 17, words)]]

/-- The QUEUE_DATA flits of one packet, at most 29 words each, from word `off` on (R473, R480). -/
def State.sendQueueWords (s : State) (n : PortId) (tag : BitVec 32) (pseq : BitVec 16) : Nat → Nat → List (Word × Bool) → State
  | 0, _, _ => s
  | fuel + 1, off, ws =>
    match ws with
    | [] => s
    | _ =>
      let c := ws.take 29
      (s.waitFlit n 3 (flowOf 2 tag) fkQueueData
        (packWord [(0, 32, tag.toNat), (32, 16, pseq.toNat)] ::
          packWord [(0, 13, off), (13, 5, c.length), (18, 29, poisonMask c)] :: c.map (·.1))).sendQueueWords
        n tag pseq fuel (off + c.length) (ws.drop 29)

end Sys2Proof.Machine
end

