-- ==== Sys2Proof/Machine/QueueOps.lean ====
section
/-! DEFINITION. The sap queue operations that twigs, host windows, graft ports, the crown and the device sources
share (chapter 13), with the notices of a close (R350), plot events (R370) and crown messages (R373). -/

namespace Sys2Proof.Machine

/-- Status codes (R346). -/
def qOk : Nat := 0
def qVoid : Nat := 1
def qFull : Nat := 2
def qNotOpen : Nat := 3
def qAlreadyOpen : Nat := 4
def qTooBig : Nat := 5
def qNoCredit : Nat := 6
def qBadType : Nat := 7

/-- Words of queue q's ring. -/
def State.ringWords (s : State) (q : QueueId) : Nat :=
  match s.queueRec q.val with
  | some r => recSize r
  | none => 0

/-- The length word of a closed packet (R341). -/
def Packet.lengthWord (p : Packet) : Word :=
  packWord [(0, 16, p.words.length), (16, 8, p.typ.toNat), (24, 1, b2n (p.lenBad || p.words.any (·.poison))), (32, 32, p.tag.toNat)]

/-- A word as it enters the store: with its parity bit (R338, R351). -/
def parityOf (w : Word) : Bool := decide (popCountW 64 w.toNat % 2 = 1)
where popCountW : Nat → Nat → Nat
  | 0, _ => 0
  | k + 1, x => x % 2 + popCountW k (x / 2)

def qword (w : Word) (poison : Bool) : QWord := ⟨w, parityOf w, poison⟩

/-- Whether a stored word is delivered with a poison tag (R351). -/
def QWord.bad (w : QWord) : Bool := w.poison || (w.parity != parityOf w.w)

/-- Opens a packet of capacity c for producing: takes c + 1 credits (R343, R345). -/
def State.qOpen (s : State) (q : QueueId) (c : Nat) : State :=
  s.modQueue q fun x => { x with credits := x.credits - (c + 1), prod := some { cap := c, words := [], slot := x.tail }, prodVoid := false }

/-- The MSI-X message of a close (R350, R463, R469): sent when the function's MSI-X is enabled and the entry is not
masked; otherwise the pending state stands in the queue's PENDING count. -/
def Func.entryMasked (f : Func) (entry : Nat) : Bool :=
  f.funcMask || match f.msixTab.find? fun e => e.1 = 4 * entry + 3 with
    | some e => e.2.getLsbD 0
    | none => true

/-- Whether a function's port can send messages now: its link is up. -/
def State.fnUp (s : State) (fn : HostFn) : Bool := s.ports[fnPort s fn].linkUp

def State.sendMsix (s : State) (fn : HostFn) (entry : Nat) : State :=
  let f := s.func fn
  if f.msixEn && s.fnUp fn && !f.entryMasked entry then s.emit (.msix fn entry) else s

/-- The words of a closed packet as a graft port sends them: the length word, then the payload (R473). -/
def Packet.wire (p : Packet) : List (Word × Bool) := (p.lengthWord, false) :: p.words.map fun w => (w.w, w.bad)

/-- Port n is UP, and has admitted the item of this tag and role (R472, R478). -/
def State.itemUp (s : State) (n : PortId) (tag : BitVec 32) (role : Nat) : Bool :=
  s.grafts[n].st == .up && s.grafts[n].tags.any fun t => t.1 == tag && t.2 == role

/-- The graft port sends the oldest pending packet once its grant covers it (R480). -/
def State.graftTrySend (s : State) (q : QueueId) : State :=
  match s.queueRec q.val with
  | none => s
  | some r =>
    match recCons r, s.queues[q].pending with
    | .graft n, p :: _ =>
      match finOf? 4 n with
      | none => s
      | some n =>
        let x := s.queues[q]
        if s.itemUp n (recTag r) 2 && !x.txBusy &&
            decide (p.words.length + 1 ≤ x.txGrant) then
          ((s.modQueue q fun x => { x with txBusy := true, txGrant := x.txGrant - (p.words.length + 1) }).meter (some (recPlot r))
            (fun c => { c with graft := c.graft + 8 * (p.words.length + 1) })).sendQueueWords n (recTag r) x.txPseq 200 0 p.wire
        else s
    | _, _ => s

/-- The one notice of a close (R350). -/
def State.queueNotice (s : State) (q : QueueId) : State :=
  match s.queueRec q.val with
  | none => s
  | some r =>
    match recCons r with
    | .host id =>
      match hostFnOf id with
      | some fn => s.sendMsix fn (recMsix r)
      | none => s
    | .crown => s.raise (.queue q)
    | .graft _ => s.graftTrySend q
    | _ => s

/-- A layout record of the ledger queue (R427). -/
def isLedgerRec (r : Word × Word) : Bool :=
  recProd r == .device && match recCons r with
    | .host id => decide (0xf0 ≤ id) && decide (id < 0xf4)
    | .crown => true
    | _ => false

/-- Queue q is the ledger queue. -/
def State.isLedger (s : State) (q : QueueId) : Bool := ((s.queueRec q.val).map isLedgerRec).getD false

/-- The plot that a queue's words are metered to (R361, R427). -/
def State.queuePlot (s : State) (q : QueueId) : Option Nat := if s.isLedger q then none else (s.queueRec q.val).map recPlot

/-- The consumer of the ledger queue frees a packet: its journal slot, the oldest posted one, is free (R428). -/
def State.freeSlot (s : State) (q : QueueId) : State :=
  if s.isLedger q then
    { s with ring := { s.ring with journal := match s.ring.journal with
        | x :: xs => if x.posted then xs else x :: xs
        | [] => [] } }
  else s

/-- A flush of the ledger queue: the items of its packets are posted again (R428). DEDUCED: log entry 79. -/
def State.unpost (s : State) (q : QueueId) : State :=
  if s.isLedger q then { s with ring := { s.ring with journal := s.ring.journal.map fun x => { x with posted := false } } } else s

/-- Closes the produced packet (R342, R343): it joins the pending packets, unused words return, one notice is raised. A length word that came
poisoned is delivered with TYPE and TAG 0 and POISONED 1 (R352). -/
def State.qClose (s : State) (q : QueueId) (typ : BitVec 8) (tag : BitVec 32) (lenBad : Bool := false) : State :=
  match s.queues[q].prod with
  | none => s
  | some o =>
    let p : Packet := { typ := if lenBad then 0 else typ, tag := if lenBad then 0 else tag, words := o.words, slot := o.slot, lenBad := lenBad }
    ((s.modQueue q fun x =>
      { x with prod := none, pending := x.pending ++ [p], credits := x.credits + (o.cap - o.words.length),
               tail := if s.ringWords q = 0 then 0 else (o.slot + 1 + o.words.length) % s.ringWords q }).meter
      (s.queuePlot q) (fun c => { c with queue := c.queue + o.words.length + 1 })).queueNotice q

/-- Opens the oldest pending packet for consuming (R345). -/
def State.qTake (s : State) (q : QueueId) : State :=
  s.modQueue q fun x =>
    match x.pending with
    | p :: ps => { x with cons := some { pkt := p, pos := 0 }, pending := ps, consVoid := false }
    | [] => x

/-- Frees the consumed packet and returns its credits (R343), granting them to a graft producer (R479). -/
def State.qDone (s : State) (q : QueueId) : State :=
  match s.queues[q].cons with
  | none => s
  | some o =>
    let k := o.pkt.words.length + 1
    let s := (s.modQueue q fun x => { x with cons := none, credits := x.credits + k }).freeSlot q
    match s.queueRec q.val with
    | none => s
    | some r =>
      match recProd r with
      | .graft n =>
        match finOf? 4 n with
        | some n => if s.itemUp n (recTag r) 3 then s.sendCredit n (recTag r) true k else s
        | none => s
      | _ => s

/-- The queue state word (R347). -/
def Queue.statusWord (x : Queue) (isProd isCons : Bool) (err : BitVec 4) : Word :=
  packWord [(0, 17, x.credits), (17, 1, b2n (isProd && x.prod.isSome)), (18, 1, b2n (isCons && x.cons.isSome)),
            (24, 4, err.toNat), (32, 17, x.pending.length)]

/-- A packet from the crown or a device source, whole (R342): `none` when credits are short. -/
def State.postPacket (s : State) (q : QueueId) (typ : Nat) (ws : List Word) : Option State :=
  let x := s.queues[q]
  if x.prod.isSome || x.credits < ws.length + 1 then none
  else
    let s := s.qOpen q ws.length
    let s := s.modQueue q fun x => { x with prod := x.prod.map fun o => { o with words := ws.map fun w => qword w false } }
    some (s.qClose q (BitVec.ofNat 8 typ) 0)

/-- The payload of a plot event (R370). -/
def PEvent.payload (e : PEvent) : List Word :=
  [packWord [(0, 8, e.code.toNat), (8, 8, e.bough.toNat), (16, 8, e.unit.toNat)], e.tick, e.detail]

/-- Posts a plot event, or counts it as lost (R372). -/
def State.sendEvent (s : State) (p : PlotId) (e : PEvent) : State :=
  match (s.plotMap p.val).bind (·.evq) with
  | none => s
  | some q =>
    match finOf? 1024 q with
    | none => s
    | some q =>
      match s.postPacket q 0x90 e.payload with
      | some s => s
      | none => s.modPlot p fun x => { x with evLost := satAdd 32 x.evLost 1 }

/-- A plot event arises: its sticky bit is set and it is posted, or held during a plot reset or a regrain of the plot (R370, R372, R414). Bit
`code` - 1 of PLOT_EVENT is the event's (R388). -/
def State.plotEvent (s : State) (p : PlotId) (code bough unit : Nat) (detail : Word) : State :=
  if (s.plotMap p.val).isNone then s
  else
    let e : PEvent := { code := BitVec.ofNat 8 code, bough := BitVec.ofNat 8 bough, unit := BitVec.ofNat 8 unit,
                        tick := s.ring.tick, detail := detail }
    let s := s.modPlot p fun x => { x with events := x.events ||| BitVec.ofNat 8 (2 ^ (code - 1)) }
    if s.plots[p].resetBusy || s.plots[p].st == .regraining then s.modPlot p fun x => { x with heldEvents := x.heldEvents ++ [e] }
    else s.sendEvent p e

/-- The bough that receives the plot's crown messages: the lowest with a crown queue that is not halted (R373). -/
def State.messageBough (s : State) (m : PlotMap) : Option BoughId :=
  m.boughList.find? fun b => (s.crownQueue b.val).isSome && (s.bough b).twig.run != .halted

/-- Posts the messages that wait for a bough, in order, as far as credits reach (R373). -/
def postMsgs : Nat → State → PlotId → List (BoughId × BitVec 8 × Word) → List BoughId → State × List (BoughId × BitVec 8 × Word)
  | 0, s, _, ms, _ => (s, ms)
  | _, s, _, [], _ => (s, [])
  | fuel + 1, s, p, m :: ms, blocked =>
    if blocked.contains m.1 then
      let r := postMsgs fuel s p ms blocked
      (r.1, m :: r.2)
    else
      match s.crownQueue m.1.val with
      | none => postMsgs fuel s p ms blocked
      | some q =>
        match s.postPacket q m.2.1.toNat [m.2.2] with
        | some s => postMsgs fuel s p ms blocked
        | none =>
          let r := postMsgs fuel s p ms (m.1 :: blocked)
          (r.1, m :: r.2)

def State.postHeldMsgs (s : State) (p : PlotId) : State :=
  let r := postMsgs (s.plots[p].msgs.length + 1) s p s.plots[p].msgs []
  r.1.modPlot p fun x => { x with msgs := r.2 }

/-- The crown raises a message to a plot (R373). -/
def State.crownMessage (s : State) (p : PlotId) (typ : Nat) (w : Word) : State :=
  match s.plotMap p.val with
  | none => s
  | some m =>
    match s.messageBough m with
    | none => s
    | some b => (s.modPlot p fun x => { x with msgs := x.msgs ++ [(b, BitVec.ofNat 8 typ, w)] }).postHeldMsgs p

/-- A parity failure of the store (R351, R360). -/
def State.parityFail (s : State) (q : QueueId) (slot : Nat) (len : Bool) : State :=
  let g := s.groves[queueGrove q]
  (s.modGrove (queueGrove q) fun x =>
    { x with perrSeen := true, perrCount := satAdd 32 x.perrCount 1, perrValid := true,
             plog := if x.perrValid then x.plog else BitVec.ofNat 27 (q.val % 1024 + slot % 65536 * 2 ^ 10 + b2n len * 2 ^ 26) }).notice
    g.perrSeen "SAPQ_PERR"

/-- The store word of the i-th payload word of the consumed packet. -/
def State.storeSlot (s : State) (q : QueueId) (o : OpenCons) (i : Nat) : Nat :=
  match s.queueRec q.val with
  | some r => 64 * fieldAt r.1 16 10 + (if recSize r = 0 then 0 else (o.pkt.slot + 1 + i) % recSize r)
  | none => 0

/-- Discards everything in a queue at the flush instant (R353) and tells a graft peer (R354). -/
def State.flushNow (s : State) (q : QueueId) : State :=
  let x := s.queues[q]
  let s := match s.queueRec q.val with
    | some r =>
      match recCons r with
      | .graft n =>
        match finOf? 4 n with
        | some n => if x.txBusy then s.sendQueueCtrl n (recTag r) 1 x.txPseq else s
        | none => s
      | _ => s
    | none => s
  (s.unpost q).modQueue q fun x =>
    { x with pending := [], prod := none, cons := none, credits := s.ringWords q, flushing := false, txBusy := false,
             prodVoid := x.prodVoid || x.prod.isSome, consVoid := x.consVoid || x.cons.isSome, rxPseq := none }

end Sys2Proof.Machine
end

