-- ==== Sys2Proof/Machine/ChainOps.lean ====
section
/-! DEFINITION. Chain links (chapter 07): the fields of a link record, messages along a link, the words and tokens that
a sender still owes, delivery to a receiving run, and arming. A link is named by its position in `State.links`. -/

namespace Sys2Proof.Machine

/-! Record fields (R169) -/

def Link.fromGraft (l : Link) : Bool := l.w0.getLsbD 12
def Link.toGraft (l : Link) : Bool := l.w0.getLsbD 28
def Link.srcBough (l : Link) : Nat := fieldAt l.w0 0 8
def Link.srcEp (l : Link) : Nat := fieldAt l.w0 8 4
def Link.inPort (l : Link) : PortId := ⟨fieldAt l.w0 13 2, Nat.mod_lt _ (by decide)⟩
def Link.dstBough (l : Link) : Nat := fieldAt l.w0 16 8
def Link.dstEp (l : Link) : Nat := fieldAt l.w0 24 4
def Link.outPort (l : Link) : PortId := ⟨fieldAt l.w0 29 2, Nat.mod_lt _ (by decide)⟩
def Link.plot (l : Link) : Nat := fieldAt l.w0 32 6
def Link.tag (l : Link) : BitVec 32 := BitVec.ofNat 32 (fieldAt l.w1 0 32)
/-- Words of the relay share of an entering link (R185). -/
def Link.shareWords (l : Link) : Nat := 1024 * fieldAt l.w1 32 7

/-- The link on which endpoint `ep` of bough b sends (R66). -/
def State.linkOut (s : State) (b ep : Nat) : Option Nat :=
  s.links.findIdx? fun l => !l.fromGraft && l.srcBough == b && l.srcEp == ep

/-- The link on which endpoint `ep` of bough b receives. -/
def State.linkIn (s : State) (b ep : Nat) : Option Nat :=
  s.links.findIdx? fun l => !l.toGraft && l.dstBough == b && l.dstEp == ep

/-- The grove whose chain buffer a link uses (R171). -/
def Link.bufGrove (l : Link) : GroveId := groveOf (boughId l.dstBough)

/-- Sends a message downstream: onto the link, or as a flit on its graft port of exit (R174, R474). -/
def State.sendDown (s : State) (i : Nat) (m : ChainMsg) : State :=
  match s.links[i]? with
  | none => s
  | some l =>
    if l.toGraft then
      match m with
      | .data ep off ws =>
        (s.meter (if l.fromGraft then none else some l.plot) fun c => { c with graft := c.graft + 8 * ws.length }).sendChainData
          l.outPort l.tag ep off ws
      | .fin ep len => s.sendChainToken l.outPort l.tag ep 0 len
      | .commit ep => s.sendChainToken l.outPort l.tag ep 1 0
      | .abort ep => s.sendChainToken l.outPort l.tag ep 2 0
      | _ => s
    else s.modLink i fun l => { l with wire := l.wire ++ [m] }

/-- Sends a token upstream (R179, R181). -/
def State.sendUp (s : State) (i : Nat) (m : ChainMsg) : State :=
  match s.links[i]? with
  | none => s
  | some l =>
    if l.fromGraft then
      match m with
      | .taken ep => s.sendChainToken l.inPort l.tag ep 3 0
      | .replay ep => s.sendChainToken l.inPort l.tag ep 4 0
      | _ => s
    else s.modLink i fun l => { l with back := l.back ++ [m] }

/-- Words of an epoch of `len` bytes (R173). -/
def epochWords (len : Nat) : Nat := (len + 7) / 8

/-- The tokens that an epoch now owes: END after its last word, then COMMIT (R174). -/
def TxEpoch.tokens (t : TxEpoch) : TxEpoch × List ChainMsg :=
  match t.len with
  | none => (t, [])
  | some n =>
    let doEnd := !t.ended && decide (epochWords n ≤ t.sent)
    let ended := t.ended || doEnd
    let doCommit := t.committed && !t.commitSent && ended
    ({ t with ended := ended, commitSent := t.commitSent || doCommit },
      (if doEnd then [.fin t.ep n] else []) ++ (if doCommit then [.commit t.ep] else []))

/-- Sends every token that the epochs of link i owe, oldest epoch first. -/
def State.pumpTokens (s : State) (i : Nat) : State :=
  match s.links[i]? with
  | none => s
  | some l =>
    let r := l.tx.map TxEpoch.tokens
    (r.flatMap (·.2)).foldl (fun s m => s.sendDown i m) (s.modLink i fun l => { l with tx := r.map (·.1) })

/-- Gives `k` words of credit back to the sender of link i: it returns along the link (R175), or as a CREDIT flit (R185). -/
def State.giveCredit (s : State) (i k : Nat) : State :=
  match s.links[i]? with
  | none => s
  | some l =>
    if k = 0 then s
    else if l.fromGraft then s.sendCredit l.inPort l.tag false k
    else s.modLink i fun l => { l with owed := l.owed + k }

/-- Words that the chain buffer of a link holds (R197). DEDUCED: log entry 92. -/
def Link.heldWords (l : Link) : Nat := (l.eps.map fun e => e.words.length).sum

/-- Words that the relay share of an entering link holds (R185). -/
def Link.relayWords (l : Link) : Nat := (l.relay.map fun e => e.words.length).sum

def RxEpoch.start (ep : BitVec 16) : RxEpoch :=
  { ep := ep, base := 0, words := [], endLen := none, committed := false, custody := false, cut := 0, fwd := 0 }

/-- Changes the record of an epoch, opened when its first message arrives. -/
def modRx (ep : BitVec 16) (f : RxEpoch → RxEpoch) (es : List RxEpoch) : List RxEpoch :=
  if es.any fun e => e.ep = ep then es.map fun e => if e.ep = ep then f e else e else es ++ [f (RxEpoch.start ep)]

def findRx (ep : BitVec 16) (es : List RxEpoch) : Option RxEpoch := es.find? fun e => e.ep = ep

/-- Drops every word of a list of epochs: they have left the buffer. -/
def sinkRx (es : List RxEpoch) : List RxEpoch := es.map fun e => { e with base := e.base + e.words.length, words := [] }

/-! ### From the relay to the chain buffer behind it (R185) -/

/-- The relay passes on words of one epoch as far as the buffer has room, then its END and COMMIT; the answer says whether all of it has
passed. In sink state the buffer drops what it receives (R182). -/
def Link.passEpoch (l : Link) (e : RxEpoch) : Link × Bool :=
  let rest := e.words.drop e.fwd
  let ws := if l.sink then rest else rest.take (256 - l.heldWords)
  let fwd := e.fwd + ws.length
  let whole := match e.endLen with | some n => decide (epochWords n ≤ fwd) | none => false
  let into (b : RxEpoch) : RxEpoch :=
    let b := if l.sink then { b with base := b.base + ws.length } else { b with words := b.words ++ ws }
    if whole then { b with endLen := e.endLen, committed := e.committed } else b
  ({ l with eps := modRx e.ep into l.eps, relay := modRx e.ep (fun e => { e with fwd := fwd }) l.relay }, whole)

def Link.passEpochs : Link → List RxEpoch → Link
  | l, [] => l
  | l, e :: es =>
    let r := l.passEpoch e
    if r.2 then r.1.passEpochs es else r.1

/-- What an entering link's relay can pass to its chain buffer goes there at once. DESIGN CHOICE: log entry 159. -/
def Link.toBuffer (l : Link) : Link := if l.fromGraft && !l.toGraft then l.passEpochs l.relay else l

/-! ### From the chain buffer to the receiving run (R175-R177) -/

/-- The halves of the receiving bough that still receive. -/
def State.modRecvs (s : State) (i : Nat) (f : RecvSt → RecvSt) : State :=
  match s.links[i]? with
  | none => s
  | some l =>
    if l.toGraft then s
    else
      let g (x : Half) : Half := if x.st == .filling then { x with recvs := x.recvs.map fun r => if r.link = i then f r else r } else x
      s.modBough (boughId l.dstBough) fun y => { y with halves := vmod (vmod y.halves 0 g) 1 g }

/-- Words that leave a chain buffer: their credits return on a link inside the device (R175); a relay has room for more. -/
def State.leaveBuffer (s : State) (i k : Nat) : State :=
  match s.links[i]? with
  | none => s
  | some l => if l.fromGraft then s.modLink i Link.toBuffer else s.giveCredit i k

/-- The words that the receiving run needs of an epoch, where one receives it. -/
def State.recvOf (s : State) (i : Nat) (ep : BitVec 16) : Option RecvSt :=
  match s.links[i]? with
  | none => none
  | some l =>
    let y := s.bough (boughId l.dstBough)
    ([y.halves[0], y.halves[1]].flatMap fun x => if x.st == .filling then x.recvs else []).find? fun r => r.link = i && r.epoch = ep

/-- The words of a whole epoch beyond what the receiver's VL reads leave the buffer when END arrives (R177). -/
def State.trimEpoch (s : State) (i : Nat) (ep : BitVec 16) : State :=
  match s.links[i]? with
  | none => s
  | some l =>
    match findRx ep l.eps, s.recvOf i ep with
    | some e, some r =>
      let keep := e.words.take (r.need - e.base)
      if e.endLen.isSome && decide (keep.length < e.words.length) then
        (s.modLink i fun l => { l with eps := modRx ep (fun e => { e with words := keep, cut := e.cut + (e.words.length - keep.length) }) l.eps }).leaveBuffer i (e.words.length - keep.length)
      else s
    | _, _ => s

/-- END and COMMIT of the epochs in the buffer are known to the runs that receive them (R146, R177). -/
def State.tellRuns (s : State) (i : Nat) : State :=
  match s.links[i]? with
  | none => s
  | some l => s.modRecvs i fun r => match findRx r.epoch l.eps with
    | some e => { r with endLen := e.endLen, committed := e.committed }
    | none => r

/-- The state of a link's receiving side is brought up to date: relay to buffer, surplus words, tokens. -/
def State.settleRx (s : State) (i : Nat) : State :=
  match s.links[i]? with
  | none => s
  | some l =>
    if l.toGraft then s
    else
      let s := s.modLink i Link.toBuffer
      let s := (l.eps.map (·.ep) ++ l.relay.map (·.ep)).foldl (fun s ep => s.trimEpoch i ep) s
      s.tellRuns i

/-- One transfer of at most 8 words from the chain buffer to a receiving run (R176); words that the run has already, sent again after a
REPLAY, leave the buffer undelivered (R181). -/
def State.pullChain (s : State) (b : BoughId) (h : Fin 2) (i : Nat) : State :=
  match s.links[i]?, (s.half b h).recvs.find? fun r => r.link = i with
  | some l, some r =>
    match findRx r.epoch l.eps with
    | some e =>
      let dup := min (r.words.length - e.base) e.words.length
      let ws := if e.base + dup = r.words.length then (e.words.drop dup).take (min 8 (r.need - r.words.length)) else []
      let s := s.modHalf b h fun x => { x with recvs := x.recvs.map fun r => if r.link = i then { r with words := r.words ++ ws } else r }
      let s := s.modLink i fun l =>
        { l with eps := modRx r.epoch (fun e => { e with base := e.base + dup + ws.length, words := e.words.drop (dup + ws.length) }) l.eps,
                 xfer := l.xfer + BitVec.ofNat 48 ws.length }
      (s.leaveBuffer i (dup + ws.length)).settleRx i
    | none => s
  | _, _ => s

/-- A chain buffer in sink state drops every word that it holds (R182). -/
def State.sinkDrop (s : State) (i : Nat) : State :=
  match s.links[i]? with
  | none => s
  | some l => if l.sink then (s.modLink i fun l => { l with eps := sinkRx l.eps }).leaveBuffer i l.heldWords else s

/-! ### Arming, taking, replay -/

/-- Arms a link: epochs at 0, empty buffers, full credits (R190). A link that leaves on a graft port receives its credits from the peer as
CREDIT flits (R185). The latest break code stays (R197), and so do the two counters; sink state ends, since what it waited for, the restarted
run's REPLAY, would name an epoch of before the break. DESIGN CHOICE: log entry 163. -/
def Link.rearm (l : Link) : Link :=
  { Link.armed l.w0 l.w1 l.buf (if l.toGraft then 0 else 256) with xfer := l.xfer, stall := l.stall, code := l.code }

def State.rearmLink (s : State) (i : Nat) : State :=
  match s.links[i]? with
  | none => s
  | some l => (s.modLink i Link.rearm).giveCredit i (if l.fromGraft then l.shareWords else 0)

/-- The n-th epoch from `ep` on that its sender has not aborted. -/
def epochFrom (dead : List (BitVec 16)) : Nat → BitVec 16 → Nat → BitVec 16
  | 0, ep, _ => ep
  | fuel + 1, ep, n => if dead.contains ep then epochFrom dead fuel (ep + 1) n else if n = 0 then ep else epochFrom dead fuel (ep + 1) (n - 1)

/-- The n-th epoch that the receiver has not taken and its sender has not aborted (R177). -/
def Link.epochAt (l : Link) (n : Nat) : BitVec 16 := epochFrom l.dead (n + l.dead.length + 1) l.expect n

/-- The receiver moves past epoch `ep`. -/
def Link.pass (l : Link) (ep : BitVec 16) : Link :=
  let e := epochFrom l.dead (l.dead.length + 1) (ep + 1) 0
  { l with expect := e, dead := l.dead.filter fun d => decide ((d - e).toNat < 0x8000) }

/-- Words of epoch `ep` that a link holds: in the relay share of an entering link, else in the chain buffer. -/
def Link.wordsOf (l : Link) (ep : BitVec 16) : Nat :=
  match findRx ep (if l.fromGraft then l.relay else l.eps) with
  | some e => e.words.length
  | none => 0

/-- The record of epoch `ep` ends on the receiving side, and its words free their room. -/
def State.dropEpoch (s : State) (i : Nat) (ep : BitVec 16) : State :=
  match s.links[i]? with
  | none => s
  | some l =>
    (s.modLink i fun l => { l with eps := l.eps.filter (fun e => e.ep ≠ ep), relay := l.relay.filter fun e => e.ep ≠ ep }).giveCredit i (l.wordsOf ep)

/-- The upstream end of link i, or a relay, is told that epoch `ep` is taken (R179): the receiving side's record of it
ends here. DEDUCED: log entry 22. -/
def State.takeEpoch (s : State) (i : Nat) (ep : BitVec 16) : State :=
  match s.links[i]? with
  | none => s
  | some l =>
    let custody := ((findRx ep l.relay).map (·.custody)).getD false
    let s := (s.dropEpoch i ep).modLink i fun l => { l.pass ep with lastTaken := ep }
    let s := s.settleRx i
    if l.fromGraft && custody then s else s.sendUp i (.taken ep)

/-- A run names the oldest epoch it has not taken on link i, and asks for it again (R181): the relay of an entering link is its holder. -/
def State.replayLink (s : State) (i : Nat) (ep : BitVec 16) : State :=
  match s.links[i]? with
  | none => s
  | some l =>
    if l.broken then s
    else
      let s := s.modLink i fun l => { l with sink := false, eps := [] }
      if l.fromGraft then (s.modLink i fun l => { l with relay := l.relay.map fun e => { e with fwd := 0 } }).settleRx i
      else (s.giveCredit i l.heldWords).sendUp i (.replay ep)

end Sys2Proof.Machine
end

