-- ==== Sys2Proof/Machine/BoughOps.lean ====
section
/-! DEFINITION. What vector instructions a bough still owes, the waits that follow from it (R29, R109, R156, R157,
R349), the taking of a vector fault (R158), link breaks (R188) and bough resets (R41). -/

namespace Sys2Proof.Machine

/-! ### Descriptor fields (R59-R61) -/

def Desc.base (d : Desc) : Nat := fieldAt d.w0 0 48
def Desc.tyCode (d : Desc) : Nat := fieldAt d.w0 48 4
def Desc.ty (d : Desc) : Option ETy := ETy.ofCode d.tyCode
def Desc.mode (d : Desc) : Nat := fieldAt d.w0 52 3
def Desc.isd (d : Desc) : Fin 16 := ⟨fieldAt d.w0 56 4, Nat.mod_lt _ (by decide)⟩
def Desc.stride (d : Desc) : Int := toSigned 32 (fieldAt d.w1 0 32)
def Desc.queue (d : Desc) : QueueId := ⟨fieldAt d.w1 32 10, Nat.mod_lt _ (by decide)⟩
def Desc.link (d : Desc) : Nat := fieldAt d.w1 48 4
def Desc.lo (d : Desc) : Nat := fieldAt d.w2 0 48
def Desc.hi (d : Desc) : Nat := fieldAt d.w3 0 48

def Desc.isStride (d : Desc) : Bool := d.mode == 0
def Desc.isIndex (d : Desc) : Bool := d.mode == 1
def Desc.isChainIn (d : Desc) : Bool := d.mode == 2
def Desc.isChainOut (d : Desc) : Bool := d.mode == 3
def Desc.isQueue (d : Desc) : Bool := d.mode == 4
/-- Stride and index mode: the stream lies in memory. -/
def Desc.inMem (d : Desc) : Bool := d.isStride || d.isIndex

/-- Whether the bytes [a, a + n) meet the bounds of a memory stream. -/
def Desc.meets (d : Desc) (a n : Nat) : Bool := d.inMem && decide (a < d.hi) && decide (d.lo < a + n)

def Opnd.descs : Opnd → List Desc
  | .stream d ix => d :: ix.toList
  | _ => []

def Opnd.desc? : Opnd → Option Desc
  | .stream d _ => Option.some d
  | _ => Option.none

def QEntry.sources (e : QEntry) : List Opnd := [e.a, e.b, e.c]

/-- The queues that an entry reads or appends to. -/
def QEntry.usesQueue (e : QEntry) (q : QueueId) : Bool :=
  (e.dst :: e.sources).any fun o => match o.desc? with
    | some d => d.isQueue && d.queue == q
    | none => false

/-! ### What is issued and not yet committed -/

def HalfSt.uncommitted : HalfSt → Bool
  | .filling | .arming => true
  | _ => false

/-- Uncommitted runs, oldest first. -/
def Bough.runs (b : Bough) : List Half :=
  let h0 := b.halves[0]
  let h1 := b.halves[1]
  (if h0.ord ≤ h1.ord then [h0, h1] else [h1, h0]).filter fun h => h.st.uncommitted

/-- Every vector instruction that has entered the queue and has not committed or faulted; a saved queue is left out
(R251). -/
def Bough.issued (b : Bough) : List QEntry := b.runs.flatMap (·.run) ++ b.iq

/-- VL is pending (R109). -/
def Bough.vlPending (b : Bough) : Bool := b.issued.any fun e => e.op == .gatherf

/-- An issued instruction writes register g (R29). -/
def Bough.writesG (b : Bough) (g : GReg) : Bool := b.issued.any fun e => e.ret == some g

/-- An issued instruction writes a G register or VL (R253). -/
def Bough.writesScalar (b : Bough) : Bool := b.issued.any fun e => e.ret.isSome || e.op == .gatherf

/-- A load of these bytes waits (R157). -/
def Bough.loadWaits (b : Bough) (a n : Nat) : Bool :=
  b.issued.any fun e => match e.dst.desc? with
    | some d => d.meets a n
    | none => false

/-- A store of these bytes waits (R157). -/
def Bough.storeWaits (b : Bough) (a n : Nat) : Bool :=
  b.issued.any fun e => (e.dst :: e.sources).any fun o => o.descs.any fun d => d.meets a n

/-- A queue command on q waits (R349). -/
def Bough.queueWaits (b : Bough) (q : QueueId) : Bool := b.issued.any fun e => e.usesQueue q

/-- The same bough with its saved entries counted as issued: what a held fault stands in front of (R256). -/
def Bough.withSaved (b : Bough) : Bough :=
  match b.saved with
  | some q => { b with iq := b.iq ++ q.entries }
  | none => b

/-- The entries that a saved queue holds: they occupy the issue queue (R251). -/
def Bough.savedEntries (b : Bough) : List QEntry := (b.saved.map (·.entries)).getD []

/-- An entry frees a place in the issue queue when it is dispatched (R27); saved entries keep theirs (R251). -/
def Bough.queued (y : Bough) : Nat := y.iq.length + y.savedEntries.length

/-- A vector fault that waits while TSBP.VALID is 0 is held (R247, R256). -/
def Bough.markHeld (b : Bough) : Bough :=
  { b with vfault := b.vfault.map fun v => { v with held := v.held || !b.twig.tsbp.getLsbD 0 } }

/-! ### Discarding runs -/

/-- Puts the outstanding tags of a run into absorb (R33, R158): their responses are dropped when they arrive. DEDUCED: log entry 18. -/
def absorbTagsOf (b : Bough) (h : Half) : Bough := { b with absorbTags := b.absorbTags ++ (h.tags.filter fun t => !t.come).map (·.tag) }

/-- Position of a source operand in an entry that names a chain-in endpoint, and of its destination where it names a chain-out one (R66). -/
def QEntry.endpoints (e : QEntry) (inward : Bool) : List (Nat × Nat) :=
  (if inward then [(0, e.a), (1, e.b), (2, e.c)] else [(3, e.dst)]).filterMap fun x => match x.2.desc? with
    | some d => if (if inward then d.isChainIn else d.isChainOut) then some (x.1, d.link) else none
    | none => none

/-- Links that an operand of a run names: position, endpoint, and whether it sends. -/
def State.runLinks (s : State) (b : BoughId) (run : List QEntry) : List (Nat × Nat × Bool) :=
  run.flatMap fun e =>
    ((e.endpoints true).filterMap fun x => (s.linkIn b.val x.2).map fun l => (l, x.2, false)) ++
      (e.endpoints false).filterMap fun x => (s.linkOut b.val x.2).map fun l => (l, x.2, true)

/-- The run in half h is the oldest that has not committed. -/
def Bough.isOldest (y : Bough) (h : Fin 2) : Bool :=
  match y.runs with
  | x :: _ => x.ord == y.halves[h].ord && y.halves[h].st.uncommitted
  | [] => false

/-- Sends ABORT for every epoch that a run has begun (R180, R183). -/
def abortSends : List SendSt → State → State
  | [], s => s
  | x :: xs, s =>
    abortSends xs <|
      match s.links[x.link]? with
      | none => s
      | some l =>
        if l.broken then s
        else (s.modLink x.link fun l => { l with tx := l.tx.filter fun t => t.ep ≠ x.epoch }).sendDown x.link (.abort x.epoch)

/-- Returns a FILLING half to FREE and discards what it holds (R158). -/
def State.discardHalf (s : State) (b : BoughId) (h : Fin 2) : State :=
  let x := s.half b h
  if x.st == .filling then
    (abortSends x.sends s).modBough b fun y =>
      absorbTagsOf { y with halves := vset y.halves h Half.free, lookHeld := y.lookHeld.filter fun q => q.1 ≠ h } x
  else s

/-- Discards both halves that are FILLING and not older than `ord`. -/
def State.discardFrom (s : State) (b : BoughId) (ord : Nat) : State :=
  let f (s : State) (h : Fin 2) : State :=
    if (s.half b h).st == .filling && decide (ord ≤ (s.half b h).ord) then s.discardHalf b h else s
  f (f s 0) 1

/-- The entries of the FILLING runs from `ord` on, oldest first. -/
def Bough.fillingFrom (b : Bough) (ord : Nat) : List QEntry :=
  (b.runs.filter fun h => h.st == .filling && decide (ord ≤ h.ord)).flatMap (·.run)

/-- The runs of a bough that are FILLING, oldest first. -/
def Bough.fillingRuns (y : Bough) : List Half := y.runs.filter fun h => h.st == .filling

/-- The chain-in links of a run. -/
def Half.inLinks (h : Half) : List Nat := h.recvs.map (·.link)

/-- The buffers of a faulted receiver enter sink state (R182). -/
def State.sinkLinks (s : State) (ls : List Nat) : State :=
  ls.foldl (fun s i => (s.modLink i fun l => if l.broken then l else { l with sink := true }).sinkDrop i) s

/-- The chain-in links that a run names. -/
def State.runIns (s : State) (b : BoughId) (run : List QEntry) : List Nat :=
  ((s.runLinks b run).filterMap fun x => if x.2.2 then none else some x.1).eraseDups

/-- The bough takes a vector fault of the run in half h (R158): generators stop, halves are discarded, the port absorbs
what is outstanding, the entries move to the saved queue and the twig is signalled. -/
def State.takeVFault (s : State) (b : BoughId) (h : Fin 2) (cause : Cause) (elem : Nat) (addr : Word) : State :=
  let x := s.half b h
  let bo := s.bough b
  let entries := ((bo.fillingFrom x.ord).map fun e => { e with again := true }) ++ bo.iq
  let s := (s.discardFrom b x.ord).sinkLinks x.inLinks
  let held := !(s.bough b).twig.tsbp.getLsbD 0
  s.modBough b fun y =>
    { y with iq := [], absorbing := true, saved := some { base := 0, entries := entries },
             vfault := some { cause := cause, elem := elem, addr := addr, held := held } }

/-- The first n entries of the queue fault at dispatch, at element 0 (R67, R188): they have run, so that they ask for a replay when they
restart, and their chain buffers sink until then (R181, R182). -/
def State.dispatchFault (s : State) (b : BoughId) (n : Nat) (cause : Cause) (addr : Word) : State :=
  (s.sinkLinks (s.runIns b ((s.bough b).iq.take n))).modBough b fun y =>
    { y with iq := [], absorbing := true,
             saved := some { base := 0, entries := ((y.iq.take n).map fun e => { e with again := true }) ++ y.iq.drop n },
             vfault := some { cause := cause, elem := 0, addr := addr, held := !y.twig.tsbp.getLsbD 0 } }

/-- The half becomes FREE when its drain is complete, by writes and by custody, and the releases go out (R154, R178). -/
def State.tryFree (s : State) (b : BoughId) (h : Fin 2) : State :=
  let x := s.half b h
  if x.st == .draining && x.drain.isEmpty && x.sends.all (·.taken) then
    { (s.setHalf b h Half.free) with
      filters := s.filters.map fun e => if e.owner = .half b h then { e with released := true } else e }
  else s

/-- Marks an epoch taken in the halves that sent it, and frees a half whose drain that completes (R178). -/
def State.custody (s : State) (b : BoughId) (i : Nat) (p : SendSt → Bool) : State :=
  let f (s : State) (h : Fin 2) : State :=
    (s.modHalf b h fun x => { x with sends := x.sends.map fun y => if y.link = i && p y then { y with taken := true } else y }).tryFree b h
  f (f s 0) 1

/-! ### Link breaks (R187-R189) -/

/-- Element size of the stream of a run that uses endpoint `ep` in the given direction. -/
def runElemSize (run : List QEntry) (out : Bool) (ep : Nat) : Nat :=
  let ds := run.flatMap fun e => (if out then [e.dst] else e.sources).filterMap Opnd.desc?
  match ds.find? fun d => (if out then d.isChainOut else d.isChainIn) && d.link == ep with
  | some d => (d.ty.map ETy.size).getD 1
  | none => 1

/-- The fault address word of CHAIN_BREAK (R189). -/
def breakAddr (ep : Nat) (code : BitVec 4) (sending : Bool) : Word := packWord [(0, 4, ep), (4, 4, code.toNat), (8, 1, b2n sending)]

/-- Whether a receiver holds every word that it reads, and COMMIT (R184). -/
def RecvSt.whole (r : RecvSt) : Bool :=
  r.committed && match r.endLen with
    | some n => decide (min r.need (epochWords n) ≤ r.words.length)
    | none => false

/-- The CHAIN_BREAK of the run in half h at element `elem` (R188, R189): taken at once where no earlier instruction is uncommitted, else
kept until those have committed (R158); of several the lowest element stays. DEDUCED: log entry 162. -/
def State.signalBreak (s : State) (b : BoughId) (h : Fin 2) (elem : Nat) (addr : Word) : State :=
  if (s.bough b).isOldest h then s.takeVFault b h .chainBreak elem addr
  else s.modHalf b h fun x => { x with broke := match x.broke with
    | some y => if y.1 ≤ elem then some y else some (elem, addr)
    | none => some (elem, addr) }

/-- The effect of a break on the run in half h: the sender or the receiver that has not committed faults (R188). A run of VL 0 accesses
nothing and has no fault (R73). -/
def State.breakHalf (s : State) (i : Nat) (l : Link) (code : BitVec 4) (b : BoughId) (h : Fin 2) : State :=
  let x := s.half b h
  if x.st == .filling && x.run.any fun e => e.vl != 0 then
    match x.sends.find? fun y => y.link = i, x.recvs.find? fun r => r.link = i with
    | some y, _ => s.signalBreak b h (y.sent * 8 / runElemSize x.run true l.srcEp) (breakAddr l.srcEp code true)
    | none, some r =>
      if r.whole then s
      else s.signalBreak b h (r.words.length * 8 / runElemSize x.run false l.dstEp) (breakAddr l.dstEp code false)
    | none, none => s
  else s

/-- Both halves of a bough, the older first, so that a fault of the older discards the younger (R158). -/
def State.breakBough (s : State) (i : Nat) (l : Link) (code : BitVec 4) (b : BoughId) : State :=
  if (s.half b 0).ord ≤ (s.half b 1).ord then (s.breakHalf i l code b 0).breakHalf i l code b 1
  else (s.breakHalf i l code b 1).breakHalf i l code b 0

/-- What the chain buffer holds of epochs that are whole goes to the runs that receive them before the buffer is emptied (R184), and no run
tells the sender any more (R190). -/
def State.keepWhole (s : State) (i : Nat) : State :=
  match s.links[i]? with
  | none => s
  | some l =>
    (l.eps.foldl (fun s e => match s.recvOf i e.ep with
      | some r =>
        let r' := { r with words := r.words ++ e.words.take (r.need - r.words.length) }
        if r'.whole && e.base == r.words.length then
          (s.modRecvs i fun x => if x.epoch = e.ep then r' else x).modLink i fun l =>
            { l with xfer := l.xfer + BitVec.ofNat 48 (r'.words.length - r.words.length) }
        else s
      | none => s) s).modRecvs i fun r => { r with cut := true }

/-- The break is recorded (R187, R193, R197): its code, its cause, and the bit of the chain buffer, which raises one crown event. -/
def State.recordBreak (s : State) (i : Nat) (code : BitVec 4) : State :=
  let s := s.modLink i fun l => { l with broken := true, code := code, causes := l.causes ||| BitVec.ofNat 7 (2 ^ code.toNat) }
  match s.links[i]? with
  | none => s
  | some l =>
    match l.buf with
    | none => s
    | some n =>
      let g := l.bufGrove
      let was := s.groves[g].brk.getLsbD n
      let s := s.modGrove g fun x => { x with brk := x.brk ||| BitVec.ofNat 32 (2 ^ n) }
      if was then s else s.raise (.chainBreak g n)

/-- A link breaks (R188): buffers and relay shares empty, the uncommitted ends abort, custody completes. A further cause of a broken link is
recorded, and the link stays broken until every cause is gone (R187). -/
def State.breakLink (s : State) (i : Nat) (code : BitVec 4) : State :=
  match s.links[i]? with
  | none => s
  | some l =>
    if l.broken then s.recordBreak i code
    else
      let s := (s.keepWhole i).recordBreak i code
      let s := s.modLink i fun l => { l with eps := [], relay := [], wire := [], back := [], tx := [], owed := 0, sink := false }
      let s := if l.fromGraft then s
        else (s.breakBough i l code (boughId l.srcBough)).custody (boughId l.srcBough) i fun _ => true
      if l.toGraft then s else s.breakBough i l code (boughId l.dstBough)

/-- Breaks every link that satisfies `p`. -/
def State.breakLinks (s : State) (p : Link → Bool) (code : BitVec 4) : State :=
  (List.range s.links.length).foldl (fun s i => match s.links[i]? with
    | some l => if p l then s.breakLink i code else s
    | none => s) s

/-! ### Bough reset (R41, R305) -/

/-- Begins a bough reset: queued entries and uncommitted runs are discarded, a half past its commit point drains on, the
port absorbs, and the links of the bough break (R187). DEDUCED: log entry 143. -/
def State.beginBoughReset (s : State) (b : BoughId) : State :=
  let s := (s.breakLinks (fun l => !l.fromGraft && l.srcBough == b.val) 1).breakLinks (fun l => !l.toGraft && l.dstBough == b.val) 2
  let s := (s.discardHalf b 0).discardHalf b 1
  s.modBough b fun y =>
    { y with iq := [], saved := none, vfault := none, resetting := true, absorbing := true,
             absorbTags := y.absorbTags ++ (match y.twig.load with | some l => l.owed | none => []),
             twig := { y.twig with run := if y.twig.run = .halted then .halted else .stopped, load := none, waiting := none, wait := .plain, pfx := [], rep := none, block := none } }

/-- The bough's port holds no outstanding request or return (R54, R305). -/
def State.boughClean (s : State) (b : BoughId) : Bool :=
  let y := s.bough b
  let own := s.scr[b].inbox
  y.lookup.isNone && (y.halves.toList.all fun h => h.tags.all fun t => t.come || t.own) &&
    (y.absorbTags.all fun t => own.any fun r => r.tag = t) &&
    (y.halves.toList.all fun h => h.st == .free || h.st == .filling) && (if y.resetting then y.twig.stores.isEmpty else y.twig.stores.all fun x => !x.sent) &&
    (match y.twig.load with
     | some l => decide (scratchAddr b ≤ l.addr) && decide (l.addr < scratchAddr b + 0x80000)
     | none => true) &&
    s.filters.all fun e => match e.owner with | .half b' _ => b' != b | _ => true

/-- The cleared bough (R41): descriptors, V and M registers and twig state at their reset values; the twig starts at word
0x000 when `run` says so (R241). -/
def Bough.cleared (y : Bough) (run : TwigRun) : Bough :=
  { Bough.start with twig := Twig.start run, freeze := y.freeze, nextOrd := y.nextOrd, ocache := y.ocache }

end Sys2Proof.Machine
end

