-- ==== Sys2Proof/Machine/Traps.lean ====
section
/-! DEFINITION. Taking a trap and returning from one (chapter 09): the task-state block, trap entry, double faults,
interrupts and their order. -/

namespace Sys2Proof.Machine

/-- Cause numbers (R240). -/
def Cause.num : Cause → Nat
  | .illegal => 1 | .illegalRep => 2 | .privilege => 3 | .access => 4 | .unmapped => 5 | .poison => 6 | .stack => 7
  | .cfi => 8 | .shadowFull => 9 | .length => 10 | .fpInvalid => 11 | .fpDivZero => 12 | .fpOverflow => 13
  | .fpUnderflow => 14 | .fpInexact => 15 | .chainBreak => 16 | .crownMsg => 24 | .timer => 25 | .queue => 26

/-- The memory a twig calls its own: base and size. A bough's twig has its scratchpad; a crown core has crown RAM. -/
def ownBase : TwigId → Nat
  | .bough b => scratchAddr b
  | .crown _ => crownBase

def ownSize : TwigId → Nat
  | .bough _ => 0x80000
  | .crown _ => 0x200000

/-- TSBP fields (R242). -/
def tsbValid (w : Word) : Bool := w.getLsbD 0
def tsbQie (w : Word) : Bool := w.getLsbD 1
def tsbTie (w : Word) : Bool := w.getLsbD 2
def tsbBase (w : Word) : Nat := fieldAt w 9 39 * 512

/-- The address part of the check of R243. -/
def tsbInOwn (t : TwigId) (w : Word) : Bool :=
  decide (ownBase t ≤ tsbBase w) && decide (tsbBase w + 512 ≤ ownBase t + ownSize t)

/-- The TSB is usable (R243). -/
def tsbUsable (t : TwigId) (w : Word) : Bool := tsbValid w && tsbInOwn t w

/-- What trap entry records about a trap. -/
structure TrapInfo where
  cause : Cause
  intr : Bool
  vector : Bool
  held : Bool
  elem : Nat
  addr : Word
  pc : WordAddr
  active : Bool
  /-- The fault of a buffered store (R272). -/
  late : Bool := false
  deriving DecidableEq, Repr

/-- The cause word (R247). -/
def TrapInfo.causeWord (k : TrapInfo) : Word :=
  packWord [(0, 5, k.cause.num), (5, 1, b2n k.intr), (6, 1, b2n k.vector), (7, 1, b2n k.held)]

/-- A saved-queue entry word (R248). DEDUCED: log entry 130. -/
def QEntry.savedWord (e : QEntry) : Word :=
  packWord [(0, 20, e.head.toNat), (20, 2, e.pos), (22, 1, b2n e.inBlock), (24, 2, e.rm.toNat), (26, 1, b2n e.ftz),
            (27, 1, b2n e.daz), (28, 5, e.en.toNat), (48, 16, e.vl)]

/-- The words 33-40 of the TSB for the entries moved into the saved queue. -/
def savedWords (es : List QEntry) : List Word := (List.range 8).map fun i => match es[i]? with
  | some e => e.savedWord
  | none => 0

/-- TSB words 0-40 (R246). COUNT goes up to 8 (R248); where two dispatched blocks and a full queue make more entries, those after the
eighth have no entry word and keep their controls. DESIGN CHOICE: log entry 148. `moved` are the entries that this entry moves into the saved queue (R567). -/
def tsbWords (w : Twig) (k : TrapInfo) (tick : Word) (moved : List QEntry) : List Word :=
  [k.pc.zeroExtend 64, k.causeWord, BitVec.ofNat 64 (k.elem % 65536), k.addr, (w.pred ||| 1).zeroExtend 64,
   BitVec.ofNat 64 w.vl, w.vcsr, w.rc, w.lc0, w.ls0.zeroExtend 64, w.le0.zeroExtend 64, w.lc1, w.ls1.zeroExtend 64,
   w.le1.zeroExtend 64, BitVec.ofNat 64 (b2n k.active), tick] ++ w.g.toList ++
  [packWord [(0, 4, min 8 moved.length)]] ++ savedWords moved

/-- The twig as trap entry leaves it (R244): VALID clear, PC at the vector word. The wait that VCSR.SYNC put after a vector instruction is
not taken into the handler (R29). DESIGN CHOICE: log entry 147. -/
def Twig.entered (w : Twig) (c : Cause) : Twig :=
  { w with tsbp := w.tsbp &&& ~~~1, pc := BitVec.ofNat 20 (4 * c.num), past := false, pfx := [], rep := none, repActive := false, block := none,
           waiting := none, wait := .plain, sync := false, timerLatch := if c = .timer then false else w.timerLatch }

/-- The number of the plot that owns a twig's bough. -/
def State.twigPlot (s : State) : TwigId → Option Nat
  | .bough b => (s.boughPlot b.val).map (·.plot)
  | .crown _ => none

/-- Six accesses of a twig's own scratchpad, as trap entry and RESUME make them for words 0 to 40 (R421). -/
def State.meterTsb (s : State) (t : TwigId) : State :=
  match t with
  | .bough b => s.meterBough b fun c => { c with scr := c.scr + 64 * 6 }
  | .crown _ => s

/-- Trap entry into a usable TSB (R244). A vector fault moves the saved queue, which records the TSB's base (R567); one that still waits
is held from now on (R247). DEDUCED: log entry 126. -/
def State.enterTrap (s : State) (t : TwigId) (k : TrapInfo) : State :=
  let w := s.twig t
  let moved := match t with
    | .bough b => if k.vector then ((s.bough b).saved.map (·.entries)).getD [] else []
    | .crown _ => []
  let s := s.modMem fun m => m.write (atAddr (tsbBase w.tsbp) (wordsBytes (tsbWords w k s.ring.tick moved)))
  let s := (s.modTwig t fun w => { w.entered k.cause with badStore := if k.late then none else w.badStore }).meterTsb t
  let s := s.meter (if k.intr then none else s.twigPlot t) fun c => { c with traps := c.traps + 1 }
  match t with
  | .bough b =>
    if k.vector then
      s.modBough b fun y => { y with vfault := none, saved := y.saved.map fun q => { q with base := BitVec.ofNat 64 (tsbBase w.tsbp) } }
    else s.modBough b Bough.markHeld
  | .crown _ => s

/-- A double fault (R257, R258, R378): the twig halts at the failing instruction with its registers as they stand. -/
def State.doubleFault (s : State) (t : TwigId) (c : Cause) : State :=
  let pc := (s.twig t).pc
  let s := (s.modTwig t fun w => { w with run := .halted, waiting := none, wait := .plain, load := none }).ringAdd 22 1
  match t with
  | .crown k => { s with crn := { s.crn with haltBits := s.crn.haltBits &&& ~~~(BitVec.ofNat 4 (2 ^ k.val)) } }
  | .bough b =>
    let ins := ((s.bough b).fillingRuns.flatMap (·.inLinks))
    let s := (((s.discardHalf b 0).discardHalf b 1).sinkLinks ins).raise (.stall b c.num pc)
    match s.boughPlot b.val with
    | none => s
    | some m => s.crownMessage (plotId m.plot) 0x82 (packWord [(0, 8, b.val), (8, 5, c.num), (32, 20, pc.toNat)])

/-- Takes a trap, or a double fault when the TSB is not usable (R244). DEDUCED: log entry 126. -/
def State.takeTrap (s : State) (t : TwigId) (k : TrapInfo) : State :=
  if tsbUsable t (s.twig t).tsbp then s.enterTrap t k else s.doubleFault t k.cause

/-- The repetitions of a REP at PC are under way, or RESUME has restored them and the REP has not run again (R226, R246). -/
def Twig.repeating (w : Twig) : Bool :=
  match w.rep with
  | some r => !r.skip
  | none => w.repActive

/-- A twig fault at the instruction under way (R240): repetitions under way are marked active (R226). -/
def State.twigFault (s : State) (t : TwigId) (c : Cause) (addr : Word) : State :=
  let w := s.twig t
  s.takeTrap t { cause := c, intr := false, vector := false, held := false, elem := 0, addr := addr, pc := w.pc,
                 active := w.repeating && c != .illegalRep }

/-! ### Interrupts (R252-R254) -/

/-- A queue bound to bough b, other than its crown queue, has a pending packet. -/
def State.queueLevel (s : State) (b : BoughId) : Bool :=
  match s.grn.active with
  | none => false
  | some g => g.queues.any fun r => recCons r == .bough b.val && recProd r != .crown &&
      match finOf? 1024 (fieldAt r.1 0 10) with
      | some q => !s.queues[q].pending.isEmpty
      | none => false

/-- The crown queue of bough b has a pending packet (R373). -/
def State.crownLevel (s : State) (b : BoughId) : Bool :=
  match s.crownQueue b.val with
  | some q => !s.queues[q].pending.isEmpty
  | none => false

/-- The sources that are pending and enabled, in the order of R254. -/
def State.sources (s : State) (t : TwigId) : List Cause :=
  match t with
  | .crown _ => []
  | .bough b =>
    let w := (s.bough b).twig
    (if s.crownLevel b then [.crownMsg] else []) ++ (if w.timerLatch && tsbTie w.tsbp then [.timer] else []) ++
      (if s.queueLevel b && tsbQie w.tsbp then [.queue] else [])

/-- The twig stands at a boundary at which a trap may be taken (R226, R253). Within a PFX chain PC is still at the first PFX word, and the
trap is taken before it (R205, R239). -/
def Twig.atBoundary (w : Twig) : Bool :=
  w.block.isNone && w.load.isNone && (match w.rep with | some r => r.old.isNone && !r.skip | none => true)

/-- A WFI: its wait ends by completing, and the trap is taken at the boundary after it (R255). -/
def isWfi : Instr → Bool
  | .wfi _ _ => true
  | _ => false

/-- The boundary of a waiting instruction: the wait stands before it, its PFX words and its block (R27, R81). A wait for the data of a load is
none (R229). -/
def Twig.canTrap (w : Twig) : Bool :=
  w.load.isNone && match w.waiting with
    | some i => !isWfi i && w.wait != .load
    | none => w.atBoundary

/-- The trap that is to be taken now, if any (R253, R254, R256): a vector fault, the fault of a split store that a slice refused (R272), an
interrupt. DESIGN CHOICE: log entry 13. DEDUCED: log entry 168. -/
def State.trapDue (s : State) (t : TwigId) : Option TrapInfo :=
  let w := s.twig t
  let active := w.repeating
  let store : Option TrapInfo := w.badStore.map fun a =>
    { cause := .poison, intr := false, vector := false, held := false, elem := 0, addr := BitVec.ofNat 64 a, pc := w.pc, active := active, late := true }
  if !(tsbValid w.tsbp && w.canTrap) then none
  else
    match t with
    | .crown _ => store
    | .bough b =>
      match (s.bough b).vfault with
      | some v => some { cause := v.cause, intr := false, vector := true, held := v.held, elem := v.elem, addr := v.addr, pc := w.pc, active := active }
      | none =>
        if store.isSome then store
        else if (s.bough b).vlPending || (s.bough b).writesScalar then none
        else
          match s.sources t with
          | c :: _ => some { cause := c, intr := true, vector := false, held := false, elem := 0, addr := 0, pc := w.pc, active := active }
          | [] => none

end Sys2Proof.Machine
end

