-- ==== Sys2Proof/Machine/RootOps.lean ====
section
/-! DEFINITION. Where root memory lives (R264, R268), what a read finds, and the sending of reads and write bursts to
the slices (R270-R272). -/

namespace Sys2Proof.Machine

/-- Bits [lo+n-1:lo] of a number. -/
def nbits (x lo n : Nat) : Nat := x / 2 ^ lo % 2 ^ n

/-- The bank target of a granule: slice, pseudo-channel, bank slot and address within the target. -/
structure BankAddr where
  s : Nat
  p : Nat
  b : Nat
  w : Nat
  deriving DecidableEq, Repr

/-- The skew fold (R264). -/
def skewFold (g : Nat) : BankAddr :=
  { b := nbits g 0 4 ^^^ nbits g 12 4, p := nbits g 4 2 ^^^ nbits g 16 2,
    s := nbits g 6 6 ^^^ nbits g 18 6 ^^^ nbits g 24 6 ^^^ nbits g 30 1, w := nbits g 12 19 }

/-- The granule at a bank target under the skew fold: the fold run backwards. -/
def skewUnfold (x : BankAddr) : Nat :=
  let g := x.w * 2 ^ 12
  g + (x.b ^^^ nbits g 12 4) + (x.p ^^^ nbits g 16 2) * 2 ^ 4 + (x.s ^^^ nbits g 18 6 ^^^ nbits g 24 6 ^^^ nbits g 30 1) * 2 ^ 6

/-- The linear map (R268). -/
def linearMap (g : Nat) : BankAddr := { b := nbits g 8 4, p := nbits g 6 2, s := nbits g 0 6, w := nbits g 12 19 }

def linearUnmap (x : BankAddr) : Nat := x.w * 2 ^ 12 + x.s + x.p * 2 ^ 6 + x.b * 2 ^ 8

/-- The bank target of a root-memory address under the map in force. -/
def State.bankOf (s : State) (a : Nat) : BankAddr := if s.linearInForce then linearMap (a / 64) else skewFold (a / 64)

def State.sliceOf (s : State) (a : Nat) : SliceId := ⟨(s.bankOf a).s % 64, Nat.mod_lt _ (by decide)⟩

/-- The 64-bit words that the bytes [a, a + n) touch. -/
def wordSpan (a n : Nat) : List Nat := if n = 0 then [] else (List.range ((a + n - 1) / 8 - a / 8 + 1)).map fun i => a / 8 + i

/-- Poison flags of the words that [a, a + n) touches (R274). -/
def Memory.poisonOf (m : Memory) (a n : Nat) : List Bool := (wordSpan a n).map m.badWord

/-- What a read of [a, a + n) returns. -/
def Memory.chunk (m : Memory) (a n : Nat) : Chunk :=
  { key := ⟨0, 0, false⟩, base := a, data := m.readN a n, poison := m.poisonOf a n, fault := none }

/-- The lowest byte of a chunk that lies in a poisoned word. -/
def Chunk.badAt (c : Chunk) : Option Nat :=
  (List.range c.data.length).findSome? fun i =>
    if (c.poison[(c.base + i) / 8 - c.base / 8]?).getD false then some (c.base + i) else none

def Chunk.byteAt (c : Chunk) (a : Nat) : Option Byte := if c.base ≤ a then c.data[a - c.base]? else none

/-! ### Check results (R274, R275, R287-R289, R319, R334, R335) -/

/-- Whether an event is recorded in an error log: the log is free, or holds a corrected event and this is none (R288). -/
def logTakes (valid ue new : Bool) : Bool := !valid || (!ue && new)

/-- The syndrome of an event: 0xFF for stored poison, and for any other event a free value that is neither 0, which no error has, nor
0xFF (R275). DESIGN CHOICE: log entry 167. -/
def syndromeOf (k : Mark) (free : Word) : Nat := if k = .stored then 0xff else free.toNat % 254 + 1

/-- A corrected or uncorrectable word of root memory is counted and logged (R287, R288); `count` is false for a word of stored poison of which
the read has counted another: STORED counts reads. -/
def State.eccRoot (s : State) (w : Nat) (k : Mark) (scrub count : Bool) : State :=
  let d := s.draw
  let syn := syndromeOf k d.1
  let s := d.2
  let i : StackId := ⟨(s.sliceOf (8 * w)).val / 8, by omega⟩
  let x := s.hbm[i]
  let ue := k != .single
  let log := packWord [(0, 37, 8 * w), (40, 1, b2n ue), (41, 1, b2n (k == .stored)), (42, 1, b2n scrub), (48, 8, syn)]
  let y := { x with ecc := if k = .single then satAdd 32 x.ecc 1 else x.ecc,
                    ueFresh := if k = .fresh then satAdd 32 x.ueFresh 1 else x.ueFresh,
                    ueStored := if k = .stored && count then satAdd 32 x.ueStored 1 else x.ueStored,
                    ceSeen := x.ceSeen || !ue, ueSeen := x.ueSeen || ue, logValid := true,
                    log := if logTakes x.logValid (x.log.getLsbD 40) ue then log else x.log }
  ((s.modStack i fun _ => y).ringAdd 20 (b2n (k == .fresh))).notice (if ue then x.ueSeen else x.ceSeen) "ROOT_ECC_STATUS"

/-- The same for a word of a scratchpad. -/
def State.eccScratch (s : State) (b : BoughId) (w : Nat) (k : Mark) (sweep : Bool) : State :=
  let d := s.draw
  let syn := syndromeOf k d.1
  let s := d.2
  let x := s.scr[b]
  let ue := k != .single
  let log := packWord [(0, 19, 8 * w % 0x80000), (24, 1, b2n ue), (25, 1, b2n (k == .stored)), (26, 1, b2n sweep), (32, 8, syn)]
  let y := { x with ce := if ue then x.ce else satAdd 32 x.ce 1, ue := if ue then satAdd 32 x.ue 1 else x.ue,
                    status := x.status ||| (if ue then 0b110 else 0b101),
                    log := if logTakes (x.status.getLsbD 2) (x.log.getLsbD 24) ue then log else x.log }
  ((s.modScr b fun _ => y).ringAdd 21 (b2n (k == .fresh))).notice (x.status.getLsbD (if ue then 1 else 0)) "SCR_STATUS"

/-- What the check of word w finds: a dead row reads as stored poison (R326). -/
def Memory.check (m : Memory) (w : Nat) : Option Mark := if m.dead.contains (w / 8) then some .stored else m.markOf w

/-- A read checks the words of [a, a + n) where they are stored: events are counted and logged. -/
def State.observe (s : State) (a n : Nat) (bg : Bool) : State :=
  let first := (wordSpan a n).find? fun w => s.mem.check w == some .stored
  (wordSpan a n).foldl (fun s w => match s.mem.check w with
    | none => s
    | some k =>
      match placeOf (8 * w) with
      | .root _ => s.eccRoot w k bg (first == some w)
      | .scratch b _ => s.eccScratch (boughId b) w k bg
      | _ => s) s

/-! ### Metering (R421, R422) -/

/-- Adds activity energy to a plot, in units of 0.00001 pJ. -/
def State.spend (s : State) (p : Option Nat) (units : Nat) : State :=
  match p with
  | some p => s.modPlot (plotId p) fun x => { x with activity := x.activity + units }
  | none => s

/-- A coefficient that scales with the square of VDD_CORE over 0.80 V. -/
def State.atVolt (s : State) (units : Nat) : Nat := units * (s.pwr.voltMv.toNat * s.pwr.voltMv.toNat) / 640000

def eGranule : Nat := 102400000
def eHalf : Nat := 51200000
def eScratch : Nat := 2560000
def ePipe : Nat := 1000000
def eTrunk : Nat := 20000000
def eHub : Nat := 3000000

/-- HOST_BYTES of a virtual function (R421). -/
def State.meterHost (s : State) (fn : HostFn) (n : Nat) : State :=
  match fn with
  | .pf _ => s
  | .vf v => s.meter ((s.vfPlot v.val).map (·.plot)) fun c => { c with host := c.host + n }

/-- A read of n bytes performed in root memory for a plot. -/
def State.meterRead (s : State) (p : Option Nat) (n : Nat) : State :=
  let half := decide (n ≤ 32)
  let s := s.meter p fun c => { c with rootRd := c.rootRd + (if half then 32 else 64) }
  s.spend p ((if half then eHalf else eGranule) + s.atVolt eTrunk)

/-- k write beats of a plot committed to root memory. -/
def State.meterWrite (s : State) (p : Option Nat) (k : Nat) : State :=
  let s := s.meter p fun c => { c with rootWr := c.rootWr + 64 * k }
  s.spend p (k * (eGranule + s.atVolt eTrunk))

/-- k accesses of bough b, or of its twig, to the scratchpad of bough d: local accesses count, and canopy accesses to
scratchpads of the plot itself. -/
def State.meterScratch (s : State) (b d : BoughId) (k : Nat) : State :=
  let p := (s.boughPlot b.val).map (·.plot)
  let own := p == (s.boughPlot d.val).map (·.plot)
  let s := if own then s.meter p fun c => { c with scr := c.scr + 64 * k } else s
  s.spend p (k * s.atVolt (eScratch + if b = d then 0 else if groveOf b = groveOf d then eHub else eTrunk))

/-- Sends a read to its slice. -/
def State.sendRead (s : State) (r : ReadReq) : State := s.modSlice (s.sliceOf r.addr) fun x => { x with inbox := x.inbox ++ [.read r] }

/-- Sends a write burst to its slice. -/
def State.sendBurst (s : State) (b : Burst) : State := s.modSlice b.slice fun x => { x with inbox := x.inbox ++ [.beat b] }

/-- A write transaction over the slices that its bytes touch. -/
def State.slicesOf (s : State) (bs : List (Nat × Byte)) : List SliceId := ((bs.map fun c => s.sliceOf c.1).eraseDups)

/-- Granule range of a list of bytes, as (lowest, highest) granule. -/
def granRange (bs : List (Nat × Byte)) : Option (Nat × Nat) :=
  match bs with
  | [] => none
  | c :: cs => some (cs.foldl (fun r d => (min r.1 (d.1 / 64), max r.2 (d.1 / 64))) (c.1 / 64, c.1 / 64))

/-- The targets that the granules lo to hi lie in (R148). Under the skew fold 64 granules of one aligned 4 KiB block share a slice, and any
127 blocks in a row hold 64 that start at a multiple of 64 and reach every slice; under the linear map 64 granules in a row do (R264, R268). -/
def State.targetsOf (s : State) (lo hi : Nat) : List Target :=
  match placeOf (64 * lo) with
  | .scratch b _ => [.scratch (boughId b)]
  | .root _ =>
    if s.linearInForce then ((List.range (min (hi - lo + 1) 64)).map fun i => Target.slice (s.sliceOf (64 * (lo + i)))).eraseDups
    else ((List.range (min (hi / 64 - lo / 64 + 1) 127)).map fun i => Target.slice (s.sliceOf (4096 * (lo / 64 + i)))).eraseDups
  | _ => []

/-- The parts of an access of n bytes at a: one for each granule (R228). -/
def accessParts (a n : Nat) : List (Nat × Nat) :=
  if n = 0 then [] else
    if a / 64 = (a + n - 1) / 64 then [(a, n)]
    else [(a, 64 * (a / 64 + 1) - a), (64 * (a / 64 + 1), a + n - 64 * (a / 64 + 1))]

/-- Whether an uncommitted entry that the target has installed covers the granule of an address (R151). -/
def State.entryHolds (s : State) (tgt : Target) (a : Nat) : Bool :=
  s.filters.any fun e => e.tgt == tgt && e.installed && decide (e.lo ≤ a / 64) && decide (a / 64 ≤ e.hi) &&
    match e.owner with
    | .half b h => (s.half b h).st == .arming
    | .txn _ => true

/-- Whether an installed entry covers the granule of an address (R152). DEDUCED: log entry 25. -/
def State.entryCovers (s : State) (tgt : Target) (a : Nat) : Bool :=
  s.filters.any fun e => e.tgt == tgt && e.installed && decide (e.lo ≤ a / 64) && decide (a / 64 ≤ e.hi)

/-- Bytes that a committed owner still has to drain. -/
def State.ownerBytes (s : State) (o : FOwner) : List Nat :=
  match o with
  | .half b h =>
    let x := s.half b h
    if x.st == .draining then ((x.result.map (·.writes)).getD []).flatten.map (·.1) else []
  | .txn id => match s.txns.find? fun t => t.id = id && t.scratch.isSome with
    | some t => t.bytes.map (·.1)
    | none => []

/-- Owners of entries that were installed after those of `o` at a common target and overlap them (R150). -/
def youngerOwners (o : FOwner) (fs : List FEntry) : List FOwner :=
  (List.range fs.length).filterMap fun j => match fs[j]? with
    | none => none
    | some y =>
      if y.owner != o && y.installed && (fs.take j).any (fun e => e.owner == o && e.tgt == y.tgt && decide (e.lo ≤ y.hi) && decide (y.lo ≤ e.hi)) then
        some y.owner
      else none

/-- An older entry of another owner at the same target still covers granule g (R150). -/
def olderBlocks (o : FOwner) (tgt : Target) (g : Nat) : List FEntry → Bool
  | [] => false
  | e :: es =>
    if e.tgt == tgt && e.owner == o then false
    else if e.tgt == tgt && e.installed && decide (e.lo ≤ g) && decide (g ≤ e.hi) then true
    else olderBlocks o tgt g es

/-- Region r is in a bough port's ownership cache (R304). -/
def Bough.knowsRegion (y : Bough) (r : Nat) : Bool := y.ocache.any fun e => e.1 = r

/-- A hit moves region r to the front of a bough port's ownership cache (R304). -/
def State.touchOwn (s : State) (b : BoughId) (r : Nat) : State :=
  s.modBough b fun y => { y with ocache := (y.ocache.filter fun e => e.1 = r) ++ y.ocache.filter fun e => e.1 ≠ r }

/-- Region r enters a bough port's ownership cache with its owner, as the last of at most 32 (R304). -/
def State.learnOwn (s : State) (b : BoughId) (r : Nat) : State :=
  let e := (r, (s.regionPlot r).map fun m => plotId m.plot)
  s.modBough b fun y => { y with ocache := (e :: y.ocache.filter fun e => e.1 ≠ r).take 32 }

/-! ### Writes (R269, R271-R273, R291) -/

/-- Words of which a write covers only a part: they are read for the merge (R273, R319). -/
def mergeWords (bs : List (Nat × Byte)) : List Nat :=
  (wordsOf bs).filter fun w => !((List.range 8).all fun i => bs.any fun c => c.1 = 8 * w + i)

/-- Two different bits of a word, which ones being free (R291). DESIGN CHOICE: log entry 167. -/
def twoBits (free : Word) : Word :=
  let i := free.toNat % 64
  BitVec.ofNat 64 (2 ^ i) ||| BitVec.ofNat 64 (2 ^ ((i + 1 + free.toNat / 64 % 63) % 64))

/-- Two data bits of word w are flipped (R291). -/
def State.flipTwo (s : State) (w : Nat) : State :=
  let d := s.draw
  d.2.modMem fun m => m.write (atAddr (8 * w) (wordBytes 8 ((m.readWord (8 * w) ^^^ twoBits d.1).toNat)))

/-- An armed injection acts on a write that covers its word in whole, in SERVICE (R291). A KIND of 3 is reserved. -/
def State.injectInto (s : State) (bs : List (Nat × Byte)) : State :=
  if s.sys.mode != .service then s
  else
    (List.finRange 8).foldl (fun s i =>
      let x := s.hbm[i]
      let w := x.injWord.toNat
      if x.injArm && (wordsOf bs).contains w && !((mergeWords bs).contains w) && decide (8 * w < rootSize) && (s.sliceOf (8 * w)).val / 8 == i.val then
        let k : Option Mark := match x.injKind.toNat with
          | 0 => some .single
          | 1 => some .fresh
          | 2 => some .stored
          | _ => none
        ((if k = some .fresh then s.flipTwo w else s).modMem fun m => m.setMark w k).modStack i fun x => { x with injArm := false }
      else s) s

/-- Bytes become visible in root memory or a scratchpad: the merge reads are checked, then the words are written. -/
def State.storeBytes (s : State) (bs : List (Nat × Byte)) : State :=
  let s := (mergeWords bs).foldl (fun s w => s.observe (8 * w) 8 false) s
  (s.modMem fun m => m.write bs).injectInto bs

/-- Granules that a list of bytes touches, ascending and each once. -/
def granulesOf (bs : List (Nat × Byte)) : List Nat := bs.foldl (fun l c => insertNat (c.1 / 64) l) []

/-- A buffered store of a twig has become visible. -/
def State.storeVisible (s : State) (who : Writer) : State :=
  match who with
  | .twig t id => s.modTwig t fun w => { w with stores := w.stores.map fun x => if x.id = id then { x with visible := true } else x }
  | _ => s

/-- A slice commits a burst (R271, R272): its bytes, but for those that `younger` has written since, are visible, and wait in the stage
until the targets are written. A word that arrived uncorrectable is stored as poison and logged (R275). -/
def State.commitBurst (s : State) (younger : List Nat) (b : Burst) : State :=
  let s := s.storeBytes (b.bytes.filter fun c => !younger.contains c.1)
  let s := b.bad.foldl (fun s w => (s.modMem fun m => m.setMark w (some .stored)).eccRoot w .fresh false false) s
  (s.modSlice b.slice fun x => { x with writing := x.writing ++ [b], wr := x.wr + 1 }).meterWrite b.plot (granulesOf b.bytes).length

/-- Requests of slice k that wait for bank slot b of pseudo-channel p: reads, and committed bursts (R262). -/
def State.waitingFor (s : State) (k : SliceId) (p b : Nat) : Nat :=
  let here (a : Nat) : Bool := (s.bankOf a).p == p && (s.bankOf a).b == b
  (s.slices[k].queue.filter fun q => here q.req.addr).length +
    (s.slices[k].writing.filter fun x => (granulesOf x.bytes).any fun g => here (64 * g)).length

/-- Requests of slice k that wait for the bank target of an address (R262). -/
def State.waitingAt (s : State) (k : SliceId) (a : Nat) : Nat := s.waitingFor k (s.bankOf a).p (s.bankOf a).b

/-- Requests that slice k has queued (R262, R293). -/
def State.queuedAt (s : State) (k : SliceId) : Nat := s.slices[k].queue.length + s.slices[k].writing.length

/-- Places of a target's hold store (R302). -/
def targetPlaces : Target → Nat
  | .slice _ => 64
  | .scratch _ => 16

/-- A slice has no room for a burst to address a: its stage is full, or the target has 16 waiting (R262, R271). -/
def State.stageFull (s : State) (k : SliceId) (a : Nat) : Bool :=
  decide (32 ≤ s.slices[k].staging.length + s.slices[k].writing.length) || decide (16 ≤ s.waitingAt k a) || decide (256 ≤ s.queuedAt k)

/-- A write to the granule of an address is held at a target (R269). -/
def State.writeHeldAt (s : State) (tgt : Target) (a before : Nat) : Bool :=
  s.heldWrites.any fun h => h.tgt == tgt && decide (h.ord < before) && (granulesOf h.burst.bytes).contains (a / 64)

/-- A slice stages a whole burst; one with a commit mark commits (R272). -/
def State.stageBurst (s : State) (b : Burst) : State :=
  if b.mark then (s.commitBurst [] b).storeVisible b.who
  else s.modSlice b.slice fun x => { x with staging := x.staging ++ [b] }

/-! ### Order of the canopy (R300) -/

/-- The port that a request comes through: a bough's, a host port or a crown core's share. -/
def Requester.master : Requester → Nat
  | .stream b _ _ => b.val
  | .twig (.bough b) => b.val
  | .twig (.crown k) => 264 + k.val
  | .host n _ _ => 256 + n.val

/-- A request at scratchpad d whose master has sent an earlier one there waits for it (R300). A bough reaches its own scratchpad by its
local ports, of which each takes its own requests (R31). -/
def State.scratchInOrder (s : State) (d : BoughId) (r : ReadReq) : Bool :=
  r.who.master == d.val || (s.scr[d].inbox.find? fun q => q.who.master == r.who.master) == some r

/-! ### Read responses -/

/-- A response reaches the master that asked (R270); a bough or twig that was reset absorbs it (R305). -/
def State.respond (s : State) (r : ReadReq) (c : Chunk) : State :=
  match r.who with
  | .stream b _ key => s.modBough b fun y => { y with resps := y.resps ++ [(r.tag, { c with key := key })] }
  | .twig t =>
    let s := s.modTwig t fun w =>
      { w with load := w.load.map fun l => if l.owed.contains r.tag then { l with owed := l.owed.filter (· ≠ r.tag), got := l.got ++ [c] } else l }
    match t with
    | .bough b => s.modBough b fun y => { y with absorbTags := y.absorbTags.filter (· ≠ r.tag) }
    | .crown _ => s
  | .host n tag part =>
    s.modPort n fun p => { p with reads := p.reads.map fun q =>
      if q.tag = tag then { q with parts := lmod q.parts part fun x => { x with data := some c } } else q }

/-- The plot that a read is metered to. -/
def State.readPlot (s : State) (r : ReadReq) : Option Nat :=
  match r.who with
  | .stream b _ _ | .twig (.bough b) => (s.boughPlot b.val).map (·.plot)
  | .twig (.crown _) => none
  | .host n tag _ => match s.ports[n].reads.find? fun q => q.tag = tag with
    | some q => match q.fn with
      | .vf v => (s.vfPlot v.val).map (·.plot)
      | .pf _ => none
    | none => none

/-- A read of root memory or of a scratchpad is performed: its words are checked and metered, and it gives its data. -/
def State.performRead (s : State) (r : ReadReq) : State × Chunk :=
  let c := s.mem.chunk r.addr r.len
  let s := s.observe r.addr r.len false
  match placeOf r.addr, r.who with
  | .root _, _ => (s.meterRead (s.readPlot r) r.len, c)
  | .scratch d _, .stream b _ _ | .scratch d _, .twig (.bough b) => (s.meterScratch b (boughId d) 1, c)
  | .scratch d _, .host _ _ _ =>
    let p := s.readPlot r
    ((if p.isSome && p == (s.boughPlot d).map (·.plot) then s.meter p fun x => { x with scr := x.scr + 64 } else s).spend p
      (s.atVolt (eScratch + eTrunk)), c)
  | _, _ => (s, c)

/-! ### Uplinks and the ownership caches (R52, R295, R304) -/

/-- n 64-byte transfers on the uplink of grove g that serves slice or grove number k: uplink k mod 4. -/
def State.countUplink (s : State) (g : GroveId) (k n : Nat) : State :=
  s.modGrove g fun x => { x with uplink := vmod x.uplink (⟨k % 4, Nat.mod_lt _ (by decide)⟩ : Fin 4) fun c => c + BitVec.ofNat 48 n }

/-- A granule-sized request of grove g to the unit at an address, and its answer, make one 64-byte transfer on the uplink that leads there
(R52, R295); a unit of the grove itself is reached inside the hub. A read carries its data one way, a write the other: one transfer each.
DESIGN CHOICE: log entry 149. -/
def State.countLeave (s : State) (g : GroveId) (a : Nat) : State :=
  match placeOf a with
  | .root _ => s.countUplink g (s.sliceOf a).val 1
  | .scratch d _ => if groveOf (boughId d) = g then s else s.countUplink g (groveOf (boughId d)).val 1
  | _ => s

/-- Words of queue q's store that a bough of grove g reads or writes: one transfer for every 64 bytes begun, on the uplink of q's grove. -/
def State.countQueue (s : State) (g : GroveId) (q : QueueId) (words : Nat) : State :=
  if queueGrove q = g then s else s.countUplink g (queueGrove q).val ((words + 7) / 8)

/-- A bough port looks region r up in the trunk table (R304): the miss is counted, and the lookup takes a slot on the uplink that serves the
region's first granule. -/
def State.lookUp (s : State) (b : BoughId) (r : Nat) : State :=
  ({ s with cnp := { s.cnp with ownMiss := s.cnp.ownMiss + 1 } }.modBough b fun y => { y with lookup := some r }).countLeave (groveOf b) (r * 0x10000000)

/-- The twig's canopy port holds new requests: it absorbs what a vector fault left outstanding (R158). -/
def State.portHolds (s : State) : TwigId → Bool
  | .bough b => (s.bough b).absorbing && !(s.bough b).resetting
  | .crown _ => false

/-- Sends the buffered store at the head of the buffer to its target (R165, R229, R272). -/
def State.issueStore (s : State) (t : TwigId) : State :=
  match (s.twig t).stores with
  | [] => s
  | x :: rest =>
    if x.sent || s.portHolds t then s
    else
      let s := s.modTwig t fun w => { w with stores := { x with sent := true } :: rest }
      match placeOf x.addr with
      | .root _ =>
        let bs := atAddr x.addr x.bytes
        match s.slicesOf bs with
        | [k] => s.sendBurst { txn := x.id, who := .twig t x.id, plot := s.twigPlot t, slice := k, bytes := bs, bad := [], mark := true }
        | ks =>
          let tx : WTxn := { id := x.id, who := .twig t x.id, fn := none, slices := ks, okFrom := [], failFrom := [], committed := [],
                             decision := none, ctl := [], relaxed := false, addr := x.addr, len := x.bytes.length, scratch := none, bytes := bs }
          let s := { s with txns := s.txns ++ [tx], seqQ := s.seqQ ++ [{ owner := .txn x.id, ranges := ((granRange bs).toList) }] }
          ks.foldl (fun s k => s.sendBurst { txn := x.id, who := .twig t x.id, plot := s.twigPlot t, slice := k, bytes := bs.filter (fun c => s.sliceOf c.1 == k), bad := [], mark := false }) s
      | _ => s

end Sys2Proof.Machine
end

