-- ==== Sys2Proof/Machine/TwigOps.lean ====
section
/-! DEFINITION. How a twig executes one instruction (chapter 08): the boundary gate, fetch checks, guards, prefixes, REP,
loop ends, waits and faults, once for every instruction. -/

namespace Sys2Proof.Machine

/-! ### The register map's holes (R539, R540) -/

def inSlots (off start slots : Nat) : Bool := decide (start ≤ off) && decide (off < start + 8 * slots)
def inBlocks (off start count stride span : Nat) : Bool :=
  decide (start ≤ off) && decide (off < start + count * stride) && decide ((off - start) % stride < span)

/-- PF MSI-X entries of each port under the split in force (R460). -/
def pfMsix (split : Nat) : Nat := 512 / 2 ^ min split 2
/-- Ports present under a split (R460). -/
def portsPresent (split : Nat) : Nat := 2 ^ min split 2

/-- Whether a register-space offset holds a register (R539, R540). -/
def State.regExists (s : State) (off : Nat) : Bool :=
  inSlots off 0x0000 64 || inSlots off 0x0400 128 || inSlots off 0x0800 96 || inSlots off 0x0C00 96 || inSlots off 0x1000 128 ||
  inSlots off 0x1400 76 || inSlots off 0x2000 512 || inSlots off 0x4000 320 || inBlocks off 0x10000 16 0x1000 0x200 ||
  inBlocks off 0x20000 8 0x1000 0x180 || inBlocks off 0x28000 4 0x1000 0x300 || inBlocks off 0x2C000 4 0x1000 0x280 ||
  inBlocks off 0x30000 64 0x1000 0x140 ||
  (inBlocks off 0x1000000 (portsPresent s.grn.split) 0x4000 0x4000 &&
    (decide ((off - 0x1000000) % 0x4000 < 16 * pfMsix s.grn.split) ||
      inSlots ((off - 0x1000000) % 0x4000) 0x2000 ((pfMsix s.grn.split + 63) / 64)))

/-! ### Registers of a twig -/

def Twig.reg (w : Twig) (g : GReg) : Word := w.g[g]
def Twig.setReg (w : Twig) (g : GReg) (v : Word) : Twig := { w with g := vset w.g g v }
def State.setG (s : State) (t : TwigId) (g : GReg) (v : Word) : State := s.modTwig t fun w => w.setReg g v

/-- A predicate: P0 always reads 1 (R201). -/
def Twig.predBit (w : Twig) (p : PReg) : Bool := p == 0 || w.pred.getLsbD p.val
/-- A write to P0 is discarded (R201). -/
def Twig.setPred (w : Twig) (p : PReg) (v : Bool) : Twig :=
  if p = 0 then w
  else { w with pred := (w.pred &&& ~~~(BitVec.ofNat 4 (2 ^ p.val))) ||| (if v then BitVec.ofNat 4 (2 ^ p.val) else 0) }

/-! ### Immediates (R204) -/

def pfxAcc (ps : List (BitVec 10)) : Nat := ps.foldl (fun a p => a * 1024 + p.toNat) 0

/-- The immediate of an instruction whose own field has k bits. -/
def Twig.imm (w : Twig) (signed : Bool) (k own : Nat) : Word :=
  let v := pfxAcc w.pfx * 2 ^ k + own
  let n := 10 * w.pfx.length + k
  if signed && decide (n < 64) then signExt n v else BitVec.ofNat 64 v

/-! ### The program region (R231, R232) -/

/-- Words of the region that a twig may fetch from. -/
def State.regionLen (s : State) : TwigId → Nat
  | .bough b => match s.boughPlot b.val with
    | some m => 4096 * m.progUnits
    | none => 0
  | .crown _ => 2 ^ 20

/-- Where word x of the region stands: an address in the program store or in crown RAM. -/
def State.progAddr (s : State) (t : TwigId) (x : Nat) : Nat :=
  match t with
  | .bough b => pstoreAddr (groveOf b).val (4096 * ((s.boughPlot b.val).map (·.progBase)).getD 0 + x)
  | .crown _ => crownWordAddr x

/-- The line number of a word in its store. -/
def State.progLine (s : State) (t : TwigId) (x : Nat) : Nat :=
  match t with
  | .bough b => (4096 * ((s.boughPlot b.val).map (·.progBase)).getD 0 + x) / 16
  | .crown _ => x / 16

/-- Counts and records a read of a program-store line (R45, R51). -/
def State.countLine (s : State) (g : GroveId) (a : Nat) : State :=
  if s.mem.badLine a then
    s.modGrove g fun x => { x with psUe := true, ueLine := BitVec.ofNat 16 ((a - pstoreBase) % 0x200000 / 32) }
  else if s.mem.singleLine a then s.modGrove g fun x => { x with ceCount := satAdd 16 x.ceCount 1 }
  else s

/-- The grove store that a twig reads; a crown core reads crown RAM. -/
def State.countProg (s : State) (t : TwigId) (a : Nat) : State :=
  match t with
  | .bough b => s.countLine (groveOf b) a
  | .crown _ => s

/-- Words between PC and the word that is fetched next: those of a REP, of the prefixes and of a block under way. -/
def Twig.ahead (w : Twig) : Nat :=
  (match w.rep with | some r => r.len | none => 0) + w.pfx.length +
    (match w.block with | some k => 1 + 3 * k.members.length | none => 0)

/-- The region word that is fetched next. -/
def Twig.fetchAt (w : Twig) : Nat := (if w.past then 2 ^ 20 else w.pc.toNat) + w.ahead

/-- The cached copy of a line: the line buffer's before the cache's (R234). -/
def Twig.cached (w : Twig) (line : Nat) : Option CLine := (w.lineBuf.toList ++ w.icache).find? fun c => c.line == line

/-- A line fill into a cache of 64 sets of 4 ways, least recently filled first out. DESIGN CHOICE: log entry 146. -/
def Twig.fill (w : Twig) (c : CLine) : Twig :=
  let others := w.icache.filter fun x => x.line ≠ c.line
  let set := (others.filter fun x => x.line % 64 = c.line % 64).take 3
  { w with lineBuf := some c, icache := c :: others.filter fun x => x.line % 64 ≠ c.line % 64 || set.contains x }

/-- The address of a line in the store of a twig. -/
def lineAddr (t : TwigId) (line : Nat) : Nat :=
  match t with
  | .bough b => pstoreAddr (groveOf b).val (16 * line)
  | .crown _ => crownWordAddr (16 * line)

/-- A line fill (R45): the line is checked, counted and recorded, and enters the twig's cache and line buffer. -/
def State.fillLine (s : State) (t : TwigId) (line : Nat) : State :=
  let a := lineAddr t line
  (s.countProg t a).modTwig t fun w =>
    w.fill { line := line, words := (List.range 16).map fun i => BitVec.ofNat 14 (s.mem.readProg (a + 2 * i)), stale := false, bad := s.mem.badLine a }

/-- Fetch of the region words [x, x + n): a line that the twig does not hold is filled (R45, R237). -/
def State.fetchFrom (s : State) (t : TwigId) (x n : Nat) : State :=
  (List.range n).foldl (fun s i =>
    if decide (x + i < s.regionLen t) && ((s.twig t).cached (s.progLine t (x + i))).isNone then s.fillLine t (s.progLine t (x + i)) else s) s

/-- Fetch of n words of the instruction under way. -/
def State.fetchWords (s : State) (t : TwigId) (n : Nat) : State := s.fetchFrom t (s.twig t).fetchAt n

/-- What fetch finds wrong with n words of the instruction under way (R45, R232): past the end of the region, or an uncorrectable
line. -/
def State.fetchFault (s : State) (t : TwigId) (n : Nat) : Option (Cause × Word) :=
  let x := (s.twig t).fetchAt
  let len := s.regionLen t
  if len < x + n then some (.access, BitVec.ofNat 64 (max x len))
  else
    match (List.range n).find? fun i => match (s.twig t).cached (s.progLine t (x + i)) with
      | some c => c.bad
      | none => false with
    | some i => some (.poison, BitVec.ofNat 64 (x + i))
    | none => none

/-! ### Completing an instruction (R222, R224) -/

/-- Fall-through to the word address `next`, which may be the word past the largest one (R232). -/
def Twig.fallTo (w : Twig) (next : Nat) : Twig := { w with pc := BitVec.ofNat 20 next, past := decide (2 ^ 20 ≤ next) }

/-- Loop-back to a loop's start word. -/
def Twig.loopTo (w : Twig) (pc : WordAddr) : Twig := { w with pc := pc, past := false }

/-- The end of loop 0 is evaluated at the fall-through address `next` (R222). -/
def Twig.loopEnd0 (w : Twig) (next : Nat) (w0 : Bool) : Twig :=
  if w.lc0 != 0 && next == w.le0.toNat && !w0 then
    if w.lc0 != 1 then { w with lc0 := w.lc0 - 1 }.loopTo w.ls0 else { w with lc0 := 0 }.fallTo next
  else w.fallTo next

/-- The loop-end evaluation at the fall-through address `next`, loop 1 first; `w0` and `w1` say that the instruction wrote loop 0 or
loop 1 (R222). -/
def Twig.loopEnd (w : Twig) (next : Nat) (w0 w1 : Bool) : Twig :=
  if w.lc1 != 0 && next == w.le1.toNat && !w1 then
    if w.lc1 != 1 then { w with lc1 := w.lc1 - 1 }.loopTo w.ls1 else { w with lc1 := 0 }.loopEnd0 next w0
  else w.loopEnd0 next w0

/-- An instruction of n words falls through: one repetition ends (R224), or PC moves past all of its words. -/
def Twig.finish (w : Twig) (n : Nat) (w0 w1 : Bool) : Twig :=
  match w.rep with
  | none => { w with pfx := [] }.loopEnd (w.pc.toNat + w.pfx.length + n) w0 w1
  | some r =>
    if w.rc.toNat ≤ 1 || r.skip then
      { w with pfx := [], rep := none, rc := if r.skip then w.rc else 0 }.loopEnd (w.pc.toNat + r.len + w.pfx.length + n) w0 w1
    else { w with pfx := [], rc := w.rc - 1 }

/-- A taken transfer: no loop-end evaluation (R222). -/
def Twig.jumpTo (w : Twig) (pc : WordAddr) : Twig := { w with pfx := [], pc := pc, past := false }

/-- What an instruction whose guard holds and whose encoding is legal does. -/
inductive Act where
  /-- Completes by falling through; the flags say that it wrote loop 0 or loop 1. -/
  | done (s : State) (w0 w1 : Bool)
  /-- A taken transfer. -/
  | jump (s : State) (pc : WordAddr)
  /-- A twig fault. -/
  | fault (c : Cause) (addr : Word)
  /-- A twig fault that also leaves a record in the state. -/
  | faultIn (s : State) (c : Cause) (addr : Word)
  /-- Waits before the instruction. -/
  | stall (k : WaitKind)
  /-- The same, with a record left in the state. -/
  | stallIn (s : State) (k : WaitKind)
  /-- The instruction is under way and completes later. -/
  | hold (s : State)
  /-- A double fault (R256). -/
  | double (c : Cause)

/-- The form of an instruction: its words, whether PFX and REP accept it, the G registers it reads, whether its encoding is illegal, and
the words that a false guard skips: a CHAIN's reach over its block (R91). -/
structure TwigForm where
  words : Nat
  pfx : Bool
  rep : Bool
  reads : List GReg
  bad : Bool
  skip : Nat := words

/-- Waits while `cond` holds of the bough's issued instructions. A wait behind a held fault is a double fault (R29, R256); a fault that
can be taken is taken first. -/
def State.waitWhile (s : State) (t : TwigId) (wk : WaitKind) (cond : Bough → Bool) (k : Act) : Act :=
  match t with
  | .crown _ => k
  | .bough b =>
    let y := s.bough b
    if cond y then .stall wk
    else
      match y.vfault with
      | some v => if cond y.withSaved then (if tsbValid y.twig.tsbp then .stall .plain else .double v.cause) else k
      | none => k

/-- A wait for the condition itself. -/
def State.waitFor (s : State) (t : TwigId) (cond : Bough → Bool) (k : Act) : Act := s.waitWhile t .plain cond k

/-- The wait of R29 at an instruction that reads registers which issued instructions write: it lasts until every earlier vector
instruction has committed or faulted. -/
def State.waitReads (s : State) (t : TwigId) (reads : List GReg) (k : Act) : Act := s.waitWhile t .all (fun y => reads.any y.writesG) k

/-- Code runs in the mode (R24, R508): plot code in RUN alone; crown code except in RESET and DORMANT. DEDUCED: log entry 110. -/
def State.codeRuns (s : State) : TwigId → Bool
  | .bough _ => s.sys.mode == .run
  | .crown _ => s.sys.mode != .reset && s.sys.mode != .dormant

/-- The twig executes the command now: it runs, no load or wait is under way, and no trap is due first (R254). DESIGN CHOICE: log entry 12. -/
def State.twigReady (s : State) (t : TwigId) : Bool :=
  let w := s.twig t
  s.codeRuns t && w.run == .running && w.load.isNone && w.waiting.isNone && (s.trapDue t).isNone

/-- The twig waits at an instruction. -/
def State.waitAt (s : State) (t : TwigId) (i : Instr) (k : WaitKind) : State := s.modTwig t fun w => { w with waiting := some i, wait := k }

/-- An installed filter entry covers a word that trap entry would write: the entry waits for its port (R152, R244, R259). -/
def State.tsbHeld (s : State) (t : TwigId) : Bool :=
  match t with
  | .crown _ => false
  | .bough b =>
    let base := tsbBase (s.twig t).tsbp
    tsbUsable t (s.twig t).tsbp && (List.range 6).any fun i => s.entryCovers (.scratch b) (base + 64 * i)

/-- Instruction i raises a twig fault: `s'` is the state with what the fault leaves on record. Where the TSB is held, the instruction
waits and raises its fault again. -/
def State.faultAt (s : State) (t : TwigId) (i : Instr) (s' : State) (c : Cause) (a : Word) : State :=
  if s.tsbHeld t then s.waitAt t i .plain else s'.twigFault t c a

/-- Carries out what an instruction does. -/
def State.act (s : State) (t : TwigId) (i : Instr) (n : Nat) : Act → State
  | .done s w0 w1 => s.modTwig t fun w => w.finish n w0 w1
  | .jump s pc => s.modTwig t fun w => w.jumpTo pc
  | .fault c a => s.faultAt t i s c a
  | .faultIn s' c a => s.faultAt t i s' c a
  | .stall k => s.waitAt t i k
  | .stallIn s k => s.waitAt t i k
  | .hold s => s
  | .double c => s.doubleFault t c

/-- The first decode of a REP target: its REP has latched its count for good (R224, R225). A repeat state that RESUME restored ends at an
instruction that is no REP. -/
def Twig.latched (w0 : Twig) : Twig :=
  let w := { w0 with repActive := false }
  match w.rep with
  | some r => { w with rep := some { r with old := none } }
  | none => w

/-- RC as it was before a REP whose target proves illegal (R225). -/
def Twig.unlatched (w : Twig) : Twig :=
  match w.rep with
  | some r => { w with rc := r.old.getD w.rc }
  | none => w

/-- Whether the REP under way skips its target: its guard was false or its count is 0 (R224). DEDUCED: log entry 139. -/
def Twig.skips (w : Twig) : Bool :=
  match w.rep with
  | some r => r.skip || w.rc == 0
  | none => false

/-- A REP with a false guard is under way: its target is skipped. -/
def Twig.repSkips (w : Twig) : Bool := match w.rep with | some r => r.skip | none => false

/-- The twig owes the wait that VCSR.SYNC puts after a vector instruction, and waits (R29). -/
def State.syncWaits (s : State) : TwigId → Bool
  | .bough b => (s.bough b).twig.sync && !(s.bough b).issued.isEmpty
  | .crown _ => false

/-- The fault behind which a twig owes the wait of VCSR.SYNC and which is held (R256). -/
def State.syncFault (s : State) : TwigId → Option Cause
  | .bough b => if (s.bough b).twig.sync && !(s.bough b).withSaved.issued.isEmpty then (s.bough b).vfault.map (·.cause) else none
  | .crown _ => none

/-- Every instruction begins so: the twig is ready, the wait after a vector instruction is over (R29), and its first word is fetched and
sound (R203, R232). `k` is the rest. DESIGN CHOICE: log entry 12. -/
def twigBegin (i : Instr) (t : TwigId) (s : State) (k : State → State) : State :=
  if !s.twigReady t then s
  else if s.syncWaits t then s.waitAt t i .all
  else
    match s.syncFault t with
    | some c => s.doubleFault t c
    | none =>
      let s := (s.modTwig t fun w => { w with sync := false }).fetchWords t 1
      match s.fetchFault t 1 with
      | some (c, a) => s.faultAt t i s c a
      | none => k s

/-- An instruction that is no vector instruction of three words stands in a block: ILLEGAL at the CHAIN word, after the waits of the
members (R27, R80). -/
def State.blockBroken (s : State) (t : TwigId) (i : Instr) (blk : BlockSt) : State := s.act t i 1 (s.waitReads t blk.reads (.fault .illegal 0))

/-- Runs one twig instruction (R200-R205, R222, R224-R226): its first word, the guard, its further words, its encoding, its wait for the
registers it reads (R29), and its effect. DEDUCED: log entry 139. -/
def runTwig (i : Instr) (t : TwigId) (gu : PReg) (f : TwigForm) (eff : State → Act) (s : State) : State :=
  twigBegin i t s fun s =>
    let w := s.twig t
    match w.block with
    | some blk => s.blockBroken t i blk
    | none =>
      if w.repSkips then s.modTwig t fun w => w.finish f.skip false false
      else if w.rep.isSome && !f.rep then s.faultAt t i (s.modTwig t Twig.unlatched) .illegalRep 0
      else
        let s := s.modTwig t Twig.latched
        if w.skips || !w.predBit gu then s.modTwig t fun w => w.finish f.skip false false
        else
          let s := s.fetchWords t f.words
          match s.fetchFault t f.words with
          | some (c, a) => s.faultAt t i s c a
          | none =>
            if f.bad || (!f.pfx && !w.pfx.isEmpty) then s.faultAt t i s .illegal 0
            else s.act t i f.words (s.waitReads t f.reads (eff s))

end Sys2Proof.Machine
end

