-- ==== Sys2Proof/Machine/TwigMem.lean ====
section
/-! DEFINITION. The twig's loads, stores and descriptor instructions (R68, R69, R210, R227-R230). -/

namespace Sys2Proof.Machine

/-! ### Reach and checks -/

/-- The access check of a crown core at one part of an access (R236, R547): holes and misshaped register accesses. DEDUCED: log entry 15. -/
def State.crownCheck (s : State) (a n : Nat) : Bool :=
  match placeOf a with
  | .hole => false
  | .regs off => (n == 4 || n == 8) && a % n == 0 && s.regExists (off / 8 * 8)
  | _ => true

/-- The fault of one part [a, a + n) of an access, poison left out (R227, R64). -/
def State.partCheck (s : State) (t : TwigId) (a n : Nat) : Option Cause :=
  match t with
  | .crown _ => if s.crownCheck a n then none else some .access
  | .bough b =>
    match s.boughPlot b.val with
    | some m => s.checkOwner m.plot a
    | none => some .access

/-- Whether an address belongs to the storage that the twig itself reaches at once: its own scratchpad or crown RAM. -/
def ownPlace (t : TwigId) (a : Nat) : Bool := decide (ownBase t ≤ a) && decide (a < ownBase t + ownSize t)

/-- The target with a commit filter at an address. -/
def State.filterTarget (s : State) (a : Nat) : Option Target :=
  match placeOf a with
  | .root _ => some (.slice (s.sliceOf a))
  | .scratch b _ => some (.scratch (boughId b))
  | _ => none

/-- What the check of a whole access says: the cause and the fault address (R228). A part above a part that fails is not
looked at; `peek` looks for poison in the parts below a part that fails. -/
def State.accessFault (s : State) (t : TwigId) (peek : Bool) : List (Nat × Nat) → Option (Cause × Nat)
  | [] => none
  | [p] => (s.partCheck t p.1 p.2).map fun c => (c, p.1)
  | p :: ps =>
    match s.partCheck t p.1 p.2 with
    | some c => some (c, p.1)
    | none =>
      match s.accessFault t peek ps with
      | none => none
      | some r => if peek && (s.mem.poisonOf p.1 p.2).any id then some (.poison, p.1) else some r

/-- The root region of an address, of those that an ownership cache answers for. -/
def rootRegion (a : Nat) : Option Nat :=
  match placeOf a with
  | .root r => some r
  | _ => none

/-- The canopy port of a twig is not ready to check an access of these parts (R158, R303, R304): it absorbs, a lookup holds it, or it does
not know a region. Own storage needs no port. -/
def State.twigPortWaits (s : State) (t : TwigId) (ps : List (Nat × Nat)) : Bool :=
  match t with
  | .crown _ => false
  | .bough b =>
    let y := s.bough b
    (ps.any fun p => !ownPlace t p.1) &&
      (y.lookup.isSome || ps.any fun p => match rootRegion p.1 with | some r => !y.knowsRegion r | none => false)

/-- The lookup that a miss of an access starts, unless one is under way (R304). -/
def State.startLookup (s : State) (t : TwigId) (ps : List (Nat × Nat)) : State :=
  match t with
  | .crown _ => s
  | .bough b =>
    if (s.bough b).lookup.isSome then s
    else
      match ps.findSome? fun p => (rootRegion p.1).bind fun r => if (s.bough b).knowsRegion r then none else some r with
      | some r => s.lookUp b r
      | none => s

/-- The halves of an access are checked one by one (R304): the cache sees each root half, and each half that fails is recorded (R313,
R314). -/
def State.countChecks (s : State) (t : TwigId) (write : Bool) (ps : List (Nat × Nat)) : State :=
  match t with
  | .crown _ => s
  | .bough b =>
    ps.foldl (fun s p =>
      let s := match rootRegion p.1 with
        | some r => s.touchOwn b r
        | none => s
      if (s.partCheck t p.1 p.2).isSome then s.isoFail b.val 0 (((s.boughPlot b.val).map (·.plot)).getD 0) p.1 write else s) s

/-- A twig's access leaves its grove (R52, R295). -/
def State.countTwigUplink (s : State) (t : TwigId) (a : Nat) : State :=
  match t with
  | .bough b => s.countLeave (groveOf b) a
  | .crown _ => s

/-! ### Loads (R227-R229) -/

/-- Whether the bytes [a, a + n) overlap a buffered store (R229). -/
def Twig.overlapsStore (w : Twig) (a n : Nat) : Bool :=
  w.stores.any fun x => decide (a < x.addr + x.bytes.length) && decide (x.addr < a + n)

/-- The request for one part of a load: the aligned half granule that holds it, or the granule (R270). -/
def loadRequest (a n : Nat) : Nat × Nat := if a / 32 = (a + n - 1) / 32 then (a / 32 * 32, 32) else (a / 64 * 64, 64)

/-- Sends the reads of a load to root slices and gives the tags it is owed. -/
def State.requestParts (s : State) (t : TwigId) : List (Nat × Nat) → State × List Nat
  | [] => (s, [])
  | p :: ps =>
    let s := s.countTwigUplink t p.1
    match placeOf p.1 with
    | .root _ =>
      let r := s.newId
      let q := loadRequest p.1 p.2
      let s := r.2.sendRead { tag := r.1, who := .twig t, addr := q.1, len := q.2 }
      let q := s.requestParts t ps
      (q.1, r.1 :: q.2)
    | _ => s.requestParts t ps

/-- The value of a load: the bytes, zero- or sign-extended. -/
def extendLoad (size : Nat) (signed : Bool) (v : Nat) : Word := if signed then signExt (8 * size) v else BitVec.ofNat 64 v

/-- A load of `size` bytes at `addr` into Gd: its checks, then the blocking read (R227-R229). DEDUCED: log entry 150. -/
def loadAct (t : TwigId) (words : Nat) (gd : GReg) (size : Nat) (signed : Bool) (addr : Word) (s : State) : Act :=
  let a := addr.toNat
  let ps := accessParts a size
  if s.twigPortWaits t ps then .stallIn (s.startLookup t ps) .load
  else
    let f := s.accessFault t true ps
    let s := s.countChecks t false ps
    match f with
    | some (c, x) => .faultIn s c (BitVec.ofNat 64 x)
    | none =>
      if (s.twig t).overlapsStore a size || (s.portHolds t && ps.any fun p => !ownPlace t p.1) then .stall .load
      else
        s.waitFor t (fun y => y.loadWaits a size) <|
          let r := s.requestParts t ps
          .hold (r.1.modTwig t fun w =>
            { w with load := some { words := words, gd := gd, size := size, signed := signed, addr := a, owed := r.2, got := [] } })

/-- A read of the twig's own storage, as RET, SDLD and RESUME make it: it waits for a buffered store of its bytes, and while a filter entry
holds it (R151, R229). -/
def State.ownReadWaits (s : State) (t : TwigId) (a n : Nat) : Bool :=
  (s.twig t).overlapsStore a n ||
    match s.filterTarget a with
    | some tgt => (granulesOf (atAddr a (List.replicate n 0))).any fun g => s.entryHolds tgt (64 * g)
    | none => false

/-- What a read of own storage leaves on record: its words are checked, and its accesses metered (R334, R421). -/
def State.ownRead (s : State) (t : TwigId) (a n : Nat) : State :=
  let s := s.observe a n false
  match t with
  | .bough b => s.meterScratch b b (granulesOf (atAddr a (List.replicate n 0))).length
  | .crown _ => s

def runLoad (i : Instr) (t : TwigId) (gu : PReg) (words k : Nat) (gd gb : GReg) (size : Nat) (signed : Bool) (off : Nat) (s : State) : State :=
  runTwig i t gu { words := words, pfx := true, rep := true, reads := [gb], bad := false }
    (fun s => loadAct t words gd size signed ((s.twig t).reg gb + (s.twig t).imm true k off) s) s

/-! ### Stores (R227-R229) -/

/-- The write of a store to the twig's own storage. -/
def State.storeOwn (s : State) (t : TwigId) (a : Nat) (bs : List Byte) : State :=
  let s := s.storeBytes (atAddr a bs)
  match t with
  | .bough b => s.meterScratch b b (accessParts a bs.length).length
  | .crown _ => s

/-- Entries of a twig's store buffer: four, and sixteen writes of a crown core (R229, R301). -/
def storeCap : TwigId → Nat
  | .bough _ => 4
  | .crown _ => 16

/-- A checked store of the twig's own storage is performed at once; behind buffered stores it joins them, because a twig's stores are
performed in program order (R165). Other stores enter the buffer. `none`: it must wait. DEDUCED: log entry 151. -/
def State.putStore (s : State) (t : TwigId) (a : Nat) (bs : List Byte) : Option State :=
  let held := match s.filterTarget a with
    | some tgt => (accessParts a bs.length).any fun p => s.entryCovers tgt p.1
    | none => false
  if ownPlace t a && (s.twig t).stores.isEmpty then (if held then none else some (s.storeOwn t a bs))
  else if (s.twig t).stores.length ≥ storeCap t then none
  else
    let r := s.newId
    let s := r.2.modTwig t fun w => { w with stores := w.stores ++ [{ id := r.1, addr := a, bytes := bs, sent := false, visible := false }] }
    some (((accessParts a bs.length).foldl (fun s p => s.countTwigUplink t p.1) s).issueStore t)

/-- A store of bytes at `addr` (R227-R229): its checks, the wait of R157, and its place among the twig's stores. -/
def storeAct (t : TwigId) (addr : Word) (bs : List Byte) (s : State) : Act :=
  let a := addr.toNat
  let ps := accessParts a bs.length
  if s.twigPortWaits t ps then .stallIn (s.startLookup t ps) .load
  else
    let f := s.accessFault t false ps
    let s := s.countChecks t true ps
    match f with
    | some (c, x) => .faultIn s c (BitVec.ofNat 64 x)
    | none =>
      s.waitFor t (fun y => y.storeWaits a bs.length) <|
        match s.putStore t a bs with
        | some s => .done s false false
        | none => .stall .plain

def runStore (i : Instr) (t : TwigId) (gu : PReg) (words k : Nat) (gs gb : GReg) (size : Nat) (off : Nat) (s : State) : State :=
  runTwig i t gu { words := words, pfx := true, rep := true, reads := [gs, gb], bad := false }
    (fun s =>
      let w := s.twig t
      storeAct t (w.reg gb + w.imm true k off) (wordBytes size (w.reg gs).toNat) s) s

/-- LD (R206, R227). -/
def execLd (t : TwigId) (gu : PReg) (gd gb : GReg) (s : State) : Out :=
  .next (runLoad (.ld t gu gd gb) t gu 1 0 gd gb 8 false 0 s)

/-- ST (R206, R227). -/
def execSt (t : TwigId) (gu : PReg) (gs gb : GReg) (s : State) : Out :=
  .next (runStore (.st t gu gs gb) t gu 1 0 gs gb 8 0 s)

/-- LD8U (R210). -/
def execLd8u (t : TwigId) (gu : PReg) (gd gb : GReg) (off : BitVec 10) (s : State) : Out :=
  .next (runLoad (.ld8u t gu gd gb off) t gu 2 10 gd gb 1 false off.toNat s)

/-- LD8S (R210). -/
def execLd8s (t : TwigId) (gu : PReg) (gd gb : GReg) (off : BitVec 10) (s : State) : Out :=
  .next (runLoad (.ld8s t gu gd gb off) t gu 2 10 gd gb 1 true off.toNat s)

/-- LD16U (R210). -/
def execLd16u (t : TwigId) (gu : PReg) (gd gb : GReg) (off : BitVec 10) (s : State) : Out :=
  .next (runLoad (.ld16u t gu gd gb off) t gu 2 10 gd gb 2 false off.toNat s)

/-- LD16S (R210). -/
def execLd16s (t : TwigId) (gu : PReg) (gd gb : GReg) (off : BitVec 10) (s : State) : Out :=
  .next (runLoad (.ld16s t gu gd gb off) t gu 2 10 gd gb 2 true off.toNat s)

/-- LD32U (R210). -/
def execLd32u (t : TwigId) (gu : PReg) (gd gb : GReg) (off : BitVec 10) (s : State) : Out :=
  .next (runLoad (.ld32u t gu gd gb off) t gu 2 10 gd gb 4 false off.toNat s)

/-- LD32S (R210). -/
def execLd32s (t : TwigId) (gu : PReg) (gd gb : GReg) (off : BitVec 10) (s : State) : Out :=
  .next (runLoad (.ld32s t gu gd gb off) t gu 2 10 gd gb 4 true off.toNat s)

/-- LD64 (R210). -/
def execLd64 (t : TwigId) (gu : PReg) (gd gb : GReg) (off : BitVec 10) (s : State) : Out :=
  .next (runLoad (.ld64 t gu gd gb off) t gu 2 10 gd gb 8 false off.toNat s)

/-- ST8 (R210). -/
def execSt8 (t : TwigId) (gu : PReg) (gs gb : GReg) (off : BitVec 10) (s : State) : Out :=
  .next (runStore (.st8 t gu gs gb off) t gu 2 10 gs gb 1 off.toNat s)

/-- ST16 (R210). -/
def execSt16 (t : TwigId) (gu : PReg) (gs gb : GReg) (off : BitVec 10) (s : State) : Out :=
  .next (runStore (.st16 t gu gs gb off) t gu 2 10 gs gb 2 off.toNat s)

/-- ST32 (R210). -/
def execSt32 (t : TwigId) (gu : PReg) (gs gb : GReg) (off : BitVec 10) (s : State) : Out :=
  .next (runStore (.st32 t gu gs gb off) t gu 2 10 gs gb 4 off.toNat s)

/-- ST64 (R210). -/
def execSt64 (t : TwigId) (gu : PReg) (gs gb : GReg) (off : BitVec 10) (s : State) : Out :=
  .next (runStore (.st64 t gu gs gb off) t gu 2 10 gs gb 8 off.toNat s)

/-! ### Descriptor instructions (R68, R69) -/

/-- The bits of a descriptor that hold state (R59-R61). -/
def Desc.masked (d : Desc) : Desc :=
  { w0 := d.w0 &&& BitVec.ofNat 64 (2 ^ 55 - 1 + 15 * 2 ^ 56), w1 := d.w1 &&& BitVec.ofNat 64 (2 ^ 42 - 1 + 15 * 2 ^ 48),
    w2 := d.w2 &&& BitVec.ofNat 64 (2 ^ 48 - 1), w3 := d.w3 &&& BitVec.ofNat 64 (2 ^ 48 - 1) }

/-- The range LO to HI - 1 lies in root memory, or in the populated half of one scratchpad window (R69). -/
def rangeOk (lo hi : Nat) : Bool :=
  decide (hi ≤ rootSize) ||
    (match placeOf lo, placeOf (hi - 1) with
     | .scratch b _, .scratch b' _ => b == b'
     | _, _ => false)

/-- The rules of R69. -/
def Desc.legal (d : Desc) : Bool :=
  match d.ty with
  | none => false
  | some ty =>
    decide (d.mode ≤ 4) &&
      (!d.inMem || (d.base % ty.size == 0 && decide (d.lo < d.hi) && rangeOk d.lo d.hi))

/-- A descriptor instruction: ILLEGAL on a crown core, which has no bough (R212). -/
def descForm (t : TwigId) (words : Nat) (pfx : Bool) (reads : List GReg) : TwigForm :=
  { words := words, pfx := pfx, rep := true, reads := reads, bad := match t with | .crown _ => true | .bough _ => false }

def descRun (i : Instr) (t : TwigId) (gu : PReg) (f : TwigForm) (eff : BoughId → State → Act) (s : State) : State :=
  runTwig i t gu f (fun s => match t with
    | .bough b => eff b s
    | .crown _ => .fault .illegal 0) s

/-- SDADV (R68, R69, R109). -/
def execSdadv (t : TwigId) (gu : PReg) (n : Fin 16) (s : State) : Out :=
  .next (descRun (.sdadv t gu n) t gu (descForm t 1 false [])
    (fun b s => s.waitFor t (fun y => y.vlPending) <|
      .done (s.modBough b fun y =>
        let d := y.sd[n]
        if d.isStride then
          let base : Int := (d.base : Int) + (y.twig.vl : Int) * d.stride * (((d.ty.map ETy.size).getD 1 : Nat) : Int)
          { y with sd := vset y.sd n { d with w0 := blend d.w0 (BitVec.ofInt 64 base) (maskAt 0 48) } }
        else y) false false) s)

/-- The address checks of SDLD and SDST (R68, R230). -/
def sdAddrOk (b : BoughId) (a : Nat) : Bool := a % 32 == 0 && ownPlace (.bough b) a

/-- SDLD (R68, R69, R230). -/
def execSdld (t : TwigId) (gu : PReg) (n : Fin 16) (gb : GReg) (off : BitVec 10) (s : State) : Out :=
  .next (descRun (.sdld t gu n gb off) t gu (descForm t 2 true [gb])
    (fun b s =>
      let w := s.twig t
      let addr := w.reg gb + w.imm true 10 off.toNat
      let a := addr.toNat
      if !sdAddrOk b a then .fault .access addr
      else
        s.waitFor t (fun y => y.loadWaits a 32) <|
          if s.ownReadWaits t a 32 then .stall .load
          else
            match (s.mem.chunk a 32).badAt with
            | some x => .faultIn (s.ownRead t a 32) .poison (BitVec.ofNat 64 x)
            | none =>
              let d := (Desc.mk (s.mem.readWord a) (s.mem.readWord (a + 8)) (s.mem.readWord (a + 16)) (s.mem.readWord (a + 24))).masked
              let s := s.ownRead t a 32
              if !d.legal then .faultIn s .illegal 0
              else .done (s.modBough b fun y => { y with sd := vset y.sd n d }) false false) s)

/-- SDST (R68, R230). -/
def execSdst (t : TwigId) (gu : PReg) (n : Fin 16) (gb : GReg) (off : BitVec 10) (s : State) : Out :=
  .next (descRun (.sdst t gu n gb off) t gu (descForm t 2 true [gb])
    (fun b s =>
      let w := s.twig t
      let addr := w.reg gb + w.imm true 10 off.toNat
      let a := addr.toNat
      let d := (s.bough b).sd[n]
      if !sdAddrOk b a then .fault .access addr
      else
        s.waitFor t (fun y => y.storeWaits a 32) <|
          match s.putStore t a (wordsBytes [d.w0, d.w1, d.w2, d.w3]) with
          | some s => .done s false false
          | none => .stall .plain) s)

/-- SDBASE (R68, R69, R210): the offset must be 0. -/
def execSdbase (t : TwigId) (gu : PReg) (n : Fin 16) (gb : GReg) (off : BitVec 10) (s : State) : Out :=
  .next (descRun (.sdbase t gu n gb off) t gu (descForm t 2 true [gb])
    (fun b s =>
      let w := s.twig t
      let d := (s.bough b).sd[n]
      let d' := { d with w0 := blend d.w0 (w.reg gb) (maskAt 0 48) }
      if w.imm true 10 off.toNat != 0 || !d'.legal then .fault .illegal 0
      else .done (s.modBough b fun y => { y with sd := vset y.sd n d' }) false false) s)

end Sys2Proof.Machine
end

