-- ==== Sys2Proof/Machine/Flags.lean ====
section
/-! DEFINITION. VCSR fields (R124), the flags and enables as five-bit sets, and the causes of enabled floating-point
traps (R95, R141). -/

namespace Sys2Proof.Machine

def vcsrRm (w : Word) : BitVec 2 := w.truncate 2
def vcsrFtz (w : Word) : Bool := w.getLsbD 2
def vcsrDaz (w : Word) : Bool := w.getLsbD 3
def vcsrSync (w : Word) : Bool := w.getLsbD 4
/-- NV, DZ, OF, UF, NX. -/
def vcsrFlags (w : Word) : BitVec 5 := BitVec.ofNat 5 (fieldAt w 8 5)
def vcsrEn (w : Word) : BitVec 5 := BitVec.ofNat 5 (fieldAt w 16 5)

/-- A commit ORs its flags into VCSR (R96, R125). -/
def vcsrMerge (w : Word) (fl : BitVec 5) : Word := w ||| packWord [(8, 5, fl.toNat)]

/-- The arithmetic controls of an entry: RTZ takes the place of RM (R127). -/
def QEntry.ctl (e : QEntry) : ACtl := { rm := if e.rtz then .rtz else RMode.ofBits e.rm, ftz := e.ftz, daz := e.daz }

/-- The first enabled trap among raised flags: its cause and its place in the order of R95. -/
def enabledTrap (en fl : BitVec 5) : Option (Cause × Nat) :=
  let x := en &&& fl
  if x.getLsbD 0 then some (.fpInvalid, 0)
  else if x.getLsbD 1 then some (.fpDivZero, 1)
  else if x.getLsbD 2 then some (.fpOverflow, 2)
  else if x.getLsbD 3 then some (.fpUnderflow, 3)
  else if x.getLsbD 4 then some (.fpInexact, 4)
  else none

end Sys2Proof.Machine
end

