-- ==== Sys2Proof/Machine/Operands.lean ====
section
/-! DEFINITION. The operand forms of vector instructions (chapters 03 and 04): which fields an operation uses, the type
of each operand, the decode checks (R72, R79, R90), what an entry captures (R26), and where an element lies (R62-R67). -/

namespace Sys2Proof.Machine

/-- The pipes (R34). -/
inductive Pipe where
  | add | mul | logic | div | reduce | permute | hash
  deriving DecidableEq, Repr

def VOp.pipe : VOp → Pipe
  | .add | .sub | .min | .max | .abs | .neg | .cmpEq | .cmpNe | .cmpLt | .cmpLe | .cmpGt | .cmpGe | .cmpUn | .cvt => .add
  | .mul | .fma | .fms | .dot4 => .mul
  | .and | .or | .xor | .not | .shl | .shr | .sra | .rot | .popc | .clz | .sel | .copy | .fill | .gatherf => .logic
  | .div | .rem | .sqrt => .div
  | .sum | .minr | .maxr | .scan | .segsum => .reduce
  | .compress | .expand | .merge => .permute
  | .hashCrc | .hashMix | .bucket => .hash

def VOp.isCmp : VOp → Bool
  | .cmpEq | .cmpNe | .cmpLt | .cmpLe | .cmpGt | .cmpGe | .cmpUn => true
  | _ => false

/-- Reductions: one destination element (R110). -/
def VOp.isReduce : VOp → Bool
  | .sum | .minr | .maxr => true
  | _ => false

/-- Uses source B (R92). -/
def VOp.usesB : VOp → Bool
  | .abs | .neg | .cvt | .not | .popc | .clz | .copy | .fill | .gatherf | .sqrt | .sum | .minr | .maxr | .scan | .compress |
    .expand => false
  | _ => true

/-- Uses source C (R92). -/
def VOp.usesC : VOp → Bool
  | .fma | .fms | .dot4 | .sel | .merge => true
  | _ => false

/-- SRCC is the scalar return field (R98). -/
def VOp.hasRet : VOp → Bool
  | .gatherf | .sum | .minr | .maxr | .segsum | .compress => true
  | _ => false

/-- Whether the opcode table allows the instruction type for the operation (R92). -/
def VOp.allows (op : VOp) (ty : ETy) : Bool :=
  match op with
  | .abs | .neg => !ty.isUnsigned
  | .cmpUn | .sqrt => ty.isFp
  | .dot4 => ty == .i8 || ty == .u8
  | .shl | .shr | .rot | .popc | .clz | .rem => !ty.isFp
  | .sra => ty.isSigned
  | .bucket => ty == .u64
  | _ => true

/-- RTZ is accepted (R90). `st` is the source type of a VCVT. -/
def VOp.acceptsRtz (op : VOp) (ty st : ETy) : Bool :=
  match op with
  | .add | .sub | .mul | .fma | .fms | .div | .sqrt | .sum | .scan | .segsum => ty.isFp
  | .cvt => ty.isFp || st.isFp
  | _ => false

/-- A decoded vector instruction: operation, instruction type, source type of a VCVT. -/
structure VDec where
  op : VOp
  ty : ETy
  st : ETy
  f : VFields
  deriving DecidableEq, Repr

/-- Type of source A, B, C (operand 0-2) or of the destination (3) (R58, R101-R106, R113, R116-R119). -/
def opndTy (op : VOp) (ty st : ETy) (k : Nat) : ETy :=
  match op, k with
  | .cvt, 0 => st
  | .dot4, 2 | .dot4, 3 => if ty = .u8 then .u32 else .i32
  | .sel, 2 | .merge, 2 | .segsum, 1 => .u8
  | .popc, 3 | .clz, 3 => ty.toU
  | .hashCrc, 1 | .hashCrc, 3 | .bucket, 1 | .bucket, 3 => .u32
  | .hashMix, 1 | .hashMix, 3 => .u64
  | _, _ => ty

/-- Elements that an operand covers (R72). -/
def opndCover (op : VOp) (vl k : Nat) : Nat :=
  match op, k with
  | .fill, 0 => 1
  | .dot4, 0 | .dot4, 1 => 4 * vl
  | .sum, 3 | .minr, 3 | .maxr, 3 => 1
  | _, _ => vl

/-- The operands an operation uses, by number; a VCMP has no destination operand. -/
def VOp.operands (op : VOp) : List Nat :=
  0 :: ((if op.usesB then [1] else []) ++ (if op.usesC then [2] else []) ++ (if op.isCmp then [] else [3]))

def VDec.sel (d : VDec) (k : Nat) : Nat :=
  match k with
  | 0 => d.f.srca.toNat
  | 1 => d.f.srcb.toNat
  | 2 => d.f.srcc.toNat
  | _ => d.f.dst.toNat

/-- The G registers that the instruction names as broadcasts (R29, R55). -/
def VDec.bcasts (d : VDec) : List GReg :=
  ((d.op.operands.filter fun k => k != 3).filter fun k => 24 ≤ d.sel k).map fun k => ⟨(d.sel k - 16) % 16, Nat.mod_lt _ (by decide)⟩

/-- Decodes operation, type and fields; `none` is a reserved code or type (R87, R89, R102). -/
def vdec (op : VOp) (src : Nat) (f : VFields) : Option VDec :=
  match instrType f.ty f.u with
  | none => none
  | some ty =>
    if op = .cvt then (ETy.ofCode src).map fun st => { op := op, ty := ty, st := st, f := f }
    else some { op := op, ty := ty, st := ty, f := f }

/-- The checks of R90, R98 and R101, and of the operation's U bit (R92). -/
def VDec.fieldsBad (d : VDec) : Bool :=
  d.f.rsv != 0 || (!d.op.usesB && d.f.srcb != 0) || (!d.op.usesC && !d.op.hasRet && d.f.srcc != 0) ||
    (d.op.hasRet && d.f.srcc != 0 && decide (d.f.srcc.toNat < 24)) || (d.f.rtz && !d.op.acceptsRtz d.ty d.st) ||
    !d.op.allows d.ty || (d.op.isCmp && decide (3 < d.f.dst.toNat)) || (d.op == .dot4 && d.f.ty != 0) ||
    (d.op == .bucket && !d.f.u)

/-- The descriptor that a selector names. -/
def Bough.desc (b : Bough) (sel : Nat) : Desc := b.sd[(⟨sel % 16, Nat.mod_lt _ (by decide)⟩ : Fin 16)]

/-- The rules of R65 for an index-mode descriptor. -/
def Bough.indexOk (b : Bough) (sel : Nat) : Bool :=
  let d := b.desc sel
  let x := b.desc d.isd.val
  d.isd.val != sel && x.isStride && (match x.ty with | some t => !t.isFp | none => false)

/-- The decode checks of R79 on one stream operand, ILLEGAL when one fails. -/
def State.opndBad (s : State) (b : BoughId) (op : VOp) (ty : ETy) (k sel : Nat) : Bool :=
  let y := s.bough b
  if sel ≥ 24 then k == 3
  else if sel ≥ 16 then false
  else
    let d := y.desc sel
    (k == 3 && d.isChainIn) || (k != 3 && d.isChainOut) || (d.isIndex && !y.indexOk sel) || d.ty != some ty ||
      (d.isChainIn && (s.linkIn b.val d.link).isNone) || (d.isChainOut && (s.linkOut b.val d.link).isNone) ||
      (op == .gatherf && k == 0 && !d.isIndex)

/-- A broadcast source of a VGATHERF is not in index mode (R79). -/
def VDec.gatherBad (d : VDec) : Bool := d.op == .gatherf && decide (16 ≤ d.f.srca.toNat)

/-- Every ILLEGAL check of one instruction (R37, R79, R90). -/
def State.vecIllegal (s : State) (b : BoughId) (d : VDec) : Bool :=
  d.fieldsBad || d.gatherBad ||
    (d.op.pipe == .hash && !((s.grn.active.map fun g => g.hashEn.getLsbD (groveOf b).val).getD false)) ||
    d.op.operands.any fun k => s.opndBad b d.op (opndTy d.op d.ty d.st k) k (d.sel k)

/-- The LENGTH checks of R72; `isLink` says which vector registers are chain links at operand k. -/
def vecLength (vl : Nat) (d : VDec) (isLink : Nat → Bool) : Bool :=
  d.op.operands.any (fun k =>
      let ty := opndTy d.op d.ty d.st k
      decide (ty.vlmax < vl) ||
        (decide (16 ≤ d.sel k) && decide (d.sel k < 24) && !isLink k && decide (ty.perReg < opndCover d.op vl k))) ||
    (decide (16384 < vl) && (d.f.mask != 0 || (d.op.isCmp && d.f.dst != 0)))

/-- What an operand captures (R26). -/
def Bough.capture (b : Bough) (sel : Nat) : Opnd :=
  if sel ≥ 24 then .bcast b.twig.g[(⟨(sel - 16) % 16, Nat.mod_lt _ (by decide)⟩ : Fin 16)]
  else if sel ≥ 16 then .vreg ⟨(sel - 16) % 8, Nat.mod_lt _ (by decide)⟩
  else
    let d := b.desc sel
    .stream d (if d.isIndex then some (b.desc d.isd.val) else none)

/-- The queue entry of an instruction (R26, R248). -/
def Bough.entry (b : Bough) (d : VDec) (head : WordAddr) (pos blockLen : Nat) : QEntry :=
  let has (k : Nat) := d.op.operands.contains k
  { op := d.op, ty := d.ty, srcTy := d.st, rtz := d.f.rtz
    dst := if d.op.isCmp then .none else b.capture d.f.dst.toNat
    dstMask := ⟨d.f.dst.toNat % 4, Nat.mod_lt _ (by decide)⟩
    a := b.capture d.f.srca.toNat
    b := if has 1 then b.capture d.f.srcb.toNat else .none
    c := if has 2 then b.capture d.f.srcc.toNat else .none
    ret := if d.op.hasRet && d.f.srcc != 0 then some ⟨(d.f.srcc.toNat - 16) % 16, Nat.mod_lt _ (by decide)⟩ else none
    mask := ⟨d.f.mask.toNat % 4, Nat.mod_lt _ (by decide)⟩
    vl := b.twig.vl, rm := vcsrRm b.twig.vcsr, ftz := vcsrFtz b.twig.vcsr, daz := vcsrDaz b.twig.vcsr, en := vcsrEn b.twig.vcsr
    head := head, pos := pos, inBlock := decide (0 < blockLen), blockLen := if blockLen = 0 then 1 else blockLen, again := false }

/-! ### Where elements lie (R62, R63) -/

def QEntry.opnd (e : QEntry) (k : Nat) : Opnd :=
  match k with
  | 0 => e.a
  | 1 => e.b
  | 2 => e.c
  | _ => e.dst

def QEntry.opndTy (e : QEntry) (k : Nat) : ETy := Machine.opndTy e.op e.ty e.srcTy k
def QEntry.cover (e : QEntry) (k : Nat) : Nat := opndCover e.op e.vl k

/-- Address of element i of a stride-mode stream, exact (R62). -/
def Desc.addrAt (d : Desc) (i : Nat) : Int := (d.base : Int) + (i : Int) * d.stride * (((d.ty.map ETy.size).getD 1 : Nat) : Int)

/-- Address of an element of an index-mode stream with index value `idx` (R62). -/
def Desc.addrIx (d : Desc) (idx : Int) : Int := (d.base : Int) + idx * (((d.ty.map ETy.size).getD 1 : Nat) : Int)

/-- The bounds check of R63. -/
def Desc.inBounds (d : Desc) (a : Int) : Bool :=
  decide ((d.lo : Int) ≤ a) && decide (a + (((d.ty.map ETy.size).getD 1 : Nat) : Int) ≤ (d.hi : Int))

/-- The recorded address of a bounds failure (R63). -/
def addr48 (a : Int) : Word := BitVec.ofNat 64 (a % (2 ^ 48 : Nat)).toNat

/-- An index value as R62 reads it. -/
def Desc.indexVal (ix : Desc) (x : Nat) : Int :=
  match ix.ty with
  | some t => t.value x
  | none => x

end Sys2Proof.Machine
end

