-- ==== Sys2Proof/Machine/VectorEval.lean ====
section
/-! DEFINITION. What a vector run computes (chapters 03 to 05): the elements that its streams, registers, links and
queues supply, the results of each member in element order, and the fault at the lowest recorded index (R94, R95). -/

namespace Sys2Proof.Machine

/-- One element as a run finds it. `pending`: not there yet; `void`: its producer in the block has none; the rank is the
place in the order of R95, 0-5 for the sources, 6 and 7 for the destination, 8-12 for the traps. -/
inductive Elem where
  | fault (rank : Nat) (c : Cause) (addr : Word)
  | pending (rank : Nat)
  | void
  deriving DecidableEq, Repr

/-- A value, or why there is none. -/
abbrev Got (α : Type) := Except Elem α

def Elem.rank : Elem → Nat
  | .fault r _ _ => r
  | .pending r => r
  | .void => 31

/-- A place where evaluation of a member stops: recorded index and reason. -/
abbrev Stop := Nat × Elem

/-- The order of recorded faults within a member: index, then R95. -/
def Stop.key (x : Stop) : Nat := 32 * x.1 + x.2.rank

/-- DEDUCED: log entry 20. -/
def minStop : List Stop → Option Stop
  | [] => none
  | x :: xs =>
    match minStop xs with
    | none => some x
    | some y => if Stop.key y < Stop.key x then some y else some x

/-- What one member of a run has computed: its destination elements in order (`none` is not written), the union of its
flags, the reason why it is not complete, and its count or scalar. -/
structure MRes where
  outs : List (Option Nat)
  flags : BitVec 5
  stop : Option Stop
  scalar : Option Nat
  count : Nat
  deriving DecidableEq, Repr

/-! ### Elements of the operands -/

/-- Whether member j's operand-k vector register is a link, and its producer (R82). -/
def runProducer (run : List QEntry) (j : Nat) (r : Fin 8) : Option Nat :=
  (List.range j).find? fun m => match run[m]? with
    | some e => e.dst == .vreg r
    | none => false

/-- Member j's destination register is read by a later member: a link (R82). -/
def runIsLink (run : List QEntry) (j : Nat) : Bool :=
  match run[j]? with
  | some e => match e.dst with
    | .vreg r => (run.drop (j + 1)).any fun x => x.sources.any fun o => o == .vreg r
    | _ => false
  | none => false

/-- A run writes vector register r. -/
def runWritesV (run : List QEntry) (r : Fin 8) : Bool :=
  (List.range run.length).any fun j => match run[j]? with
    | some e => e.dst == .vreg r && !runIsLink run j
    | none => false

/-- A run writes mask register k. -/
def runWritesM (run : List QEntry) (k : Fin 4) : Bool := run.any fun e => e.op.isCmp && e.dstMask == k && k != 0

/-- 64-bit words that operand k of an entry moves a queue by (R67). -/
def QEntry.queueNeed (e : QEntry) (k : Nat) : Nat := if e.vl = 0 then 0 else (e.cover k * (e.opndTy k).size + 7) / 8

/-- Words that operand k of an entry takes from queue q (k at most 2) or appends to it (3). -/
def QEntry.queueWords (e : QEntry) (q : QueueId) (k : Nat) : Nat :=
  match (e.opnd k).desc? with
  | some d => if d.isQueue && d.queue == q then e.queueNeed k else 0
  | none => 0

/-- Words that a run reads from queue q, or appends to it. -/
def runReads (run : List QEntry) (q : QueueId) : Nat := (run.map fun e => e.queueWords q 0 + e.queueWords q 1 + e.queueWords q 2).sum
def runAppends (run : List QEntry) (q : QueueId) : Nat := (run.map fun e => e.queueWords q 3).sum

/-- Words before those of member m's operand k: the operands of a run take their words in turn. -/
def runReadsBefore (run : List QEntry) (m k : Nat) (q : QueueId) : Nat :=
  runReads (run.take m) q + match run[m]? with
    | some e => ((List.range k).map fun j => e.queueWords q j).sum
    | none => 0

/-- What evaluation looks at: the state, the bough, the half, and the older uncommitted runs of the bough (R156). -/
structure Env where
  s : State
  b : BoughId
  h : Half
  older : List (List QEntry)

/-- Bytes of a chunk as a number. -/
def Chunk.elem (c : Chunk) (a n rank : Nat) : Got Nat :=
  match c.fault with
  | some f => .error (.fault rank f (BitVec.ofNat 64 a))
  | none =>
    if (c.poison[a / 8 - c.base / 8]?).getD false then .error (.fault rank .poison (BitVec.ofNat 64 a))
    else .ok (bytesNat ((c.data.drop (a - c.base)).take n))

/-- Whether a chunk holds an element of n bytes at a; a failed check answers for the granule. -/
def Chunk.covers (c : Chunk) (key : SlotKey) (a n : Nat) : Bool :=
  c.key == key && (if c.fault.isSome then c.base / 64 == a / 64 else decide (c.base ≤ a) && decide (a + n ≤ c.base + c.data.length))

/-- An element that the reorder buffer holds (R33). -/
def Half.memElem (h : Half) (key : SlotKey) (a n rank : Nat) : Got Nat :=
  match h.chunks.find? fun c => c.covers key a n with
  | some c => c.elem a n rank
  | none => .error (.pending rank)

/-- An element of a memory stream at an exact address, with its bounds check (R63). -/
def Half.boundedElem (h : Half) (key : SlotKey) (d : Desc) (a : Int) (n rank : Nat) : Got Nat :=
  if d.inBounds a then h.memElem key a.toNat n rank else .error (.fault rank .access (addr48 a))

/-- Size of a descriptor's elements. -/
def Desc.size (d : Desc) : Nat := (d.ty.map ETy.size).getD 1

/-- Address of element i of operand k of member m when it lies in memory (R62, R65). -/
def Half.elemAddr (h : Half) (m k : Nat) (d : Desc) (ix : Option Desc) (i : Nat) : Got Int :=
  match ix with
  | some x => do
    let v ← h.boundedElem ⟨m, k, true⟩ x (x.addrAt i) x.size (2 * k)
    return d.addrIx (x.indexVal v)
  | none => .ok (d.addrAt i)

/-- The i-th element of n bytes of a word stream: `none` where the words do not reach. -/
def wordsElem (ws : List (Word × Bool)) (n i : Nat) : Option (Nat × Bool) :=
  (ws[i * n / 8]?).map fun w => (w.1.toNat / 2 ^ (8 * (i * n % 8)) % 2 ^ (8 * n), w.2)

/-- Element i of n bytes of a chain-in stream (R177). -/
def RecvSt.elem (r : RecvSt) (n i rank : Nat) : Got Nat :=
  if (match r.endLen with | some l => decide (l ≤ i * n) | none => false) then .ok 0
  else
    match wordsElem r.words n i with
    | some (v, bad) => if bad then .error (.fault rank .poison 0) else .ok v
    | none => .error (.pending rank)

/-- The fault address of a poisoned queue word (R352). -/
def queuePoisonAddr (q : QueueId) (ix : Nat) : Word := BitVec.ofNat 64 (0x8000000000000000 + q.val + ix * 0x400)

/-- Element i of n bytes of a queue source, of which the reorder buffer holds the words by their place in the stream (R67); its words start
at payload index `off`. -/
def Half.queueElem (h : Half) (key : SlotKey) (q : QueueId) (off n i rank : Nat) : Got Nat :=
  match h.memElem key (i * n) n rank with
  | .error (.fault r .poison _) => .error (.fault r .poison (queuePoisonAddr q (off + i * n / 8)))
  | x => x

/-- Element i of a vector register read as elements of w bits (R74). -/
def vregElem (v : BitVec 8192) (w i : Nat) : Nat := v.toNat / 2 ^ (w * i) % 2 ^ w

/-- Element i of a chain link of a block (R82). DEDUCED: log entry 23. -/
def MRes.linkElem (r : MRes) (vl i : Nat) : Got Nat :=
  match r.outs[i]? with
  | some (some v) => .ok v
  | some none => .ok 0
  | none => if i < vl then (if r.stop.isSome then .error .void else .ok 0) else .ok (Config.linkBeyond vl i)

/-- The payload index at which the words of a queue source begin: after those that earlier uncommitted runs, and earlier operands of this
one, take (R67, R348). -/
def Env.queueOff (v : Env) (m k : Nat) (q : QueueId) : Nat :=
  ((v.s.queues[q].cons.map (·.pos)).getD 0) + (v.older.map fun run => runReads run q).sum + runReadsBefore v.h.run m k q

/-- The index element that the data of element i of source operand k needs, where the operand has an index stream (R95). -/
def Env.readIndex (v : Env) (m : Nat) (e : QEntry) (k i : Nat) : Got Unit :=
  match e.opnd k with
  | .stream d ix => if d.inMem then (v.h.elemAddr m k d ix i).map fun _ => () else .ok ()
  | _ => .ok ()

/-- Element i of source operand k of member m; `prev` are the results of the earlier members. -/
def Env.read (v : Env) (prev : List MRes) (m : Nat) (e : QEntry) (k i : Nat) : Got Nat :=
  let n := (e.opndTy k).size
  let rank := 2 * k + 1
  match e.opnd k with
  | .none => .ok 0
  | .bcast w => .ok (w.toNat % 2 ^ (8 * n))
  | .vreg r =>
    match runProducer v.h.run m r with
    | some j =>
      match prev[j]? with
      | some p => (p.linkElem e.vl i).map fun x => x % 2 ^ (8 * n)
      | none => .error .void
    | none =>
      if v.older.any fun run => runWritesV run r then .error (.pending rank)
      else .ok (vregElem (v.s.bough v.b).v[r] (8 * n) i)
  | .stream d ix =>
    if d.inMem then do
      let a ← v.h.elemAddr m k d ix i
      v.h.boundedElem ⟨m, k, false⟩ d a n rank
    else if d.isChainIn then
      match (v.s.linkIn v.b.val d.link).bind fun l => v.h.recvs.find? fun r => r.link = l with
      | some r => r.elem n i rank
      | none => .error (.pending rank)
    else v.h.queueElem ⟨m, k, false⟩ d.queue (v.queueOff m k d.queue) n i rank

/-- Whether the generator of a memory destination has had the check of the element at address a made (R303): each element of an indexed
stream, each granule of a strided one. -/
def Half.checkedDest (h : Half) (m i a : Nat) : Bool :=
  match h.slots.find? fun sl => sl.key == ⟨m, 3, false⟩ with
  | some sl => decide (i < sl.next) || (sl.desc.isStride && sl.last == some (a / 64))
  | none => false

/-- The checks on destination element i of member m, and its address when it lies in memory (R63, R64, R303). -/
def Env.dest (v : Env) (m : Nat) (e : QEntry) (i : Nat) : Got Nat :=
  match e.dst with
  | .stream d ix =>
    if d.inMem then do
      let a ← v.h.elemAddr m 3 d ix i
      if !d.inBounds a then .error (.fault 7 .access (addr48 a))
      else if !v.h.checkedDest m i a.toNat then .error (.pending 7)
      else
        match v.h.chunks.find? fun c => c.covers ⟨m, 3, false⟩ a.toNat d.size with
        | some c => match c.fault with
          | some f => .error (.fault 7 f (BitVec.ofNat 64 a.toNat))
          | none => .ok a.toNat
        | none => .ok a.toNat
    else .ok 0
  | _ => .ok 0

/-- The mask bits 0 to VL - 1 of a member (R75, R76). -/
def Env.maskBits (v : Env) (e : QEntry) : Got (List Bool) :=
  match e.mask with
  | 0 => .ok (List.replicate e.vl true)
  | ⟨k + 1, hk⟩ =>
    if v.older.any fun run => runWritesM run e.mask then .error (.pending 0)
    else .ok ((List.range e.vl).map fun i => ((v.s.bough v.b).m[(⟨k, by omega⟩ : Fin 3)]).getLsbD i)

/-! ### Results in element order -/

/-- The indices whose bit is set. -/
def activeIx (bits : List Bool) : List Nat := (List.range bits.length).filter fun i => bits[i]? == some true

/-- An enabled trap on the flags of one operation (R141). -/
def trapOf (e : QEntry) (fl : BitVec 5) : Option Elem := (enabledTrap e.en fl).map fun t => .fault (8 + t.2) t.1 0

/-- Checks the destination, then the traps (R95), of a value computed. -/
def settle (e : QEntry) (dest : Nat → Got Nat) (j : Nat) (r : Nat × BitVec 5) : Got (Nat × BitVec 5) := do
  let _ ← dest j
  match trapOf e r.2 with
  | some t => .error t
  | none => .ok r

/-- Walks the elements in order and stops at the first that has no result: `step x y i` answers the value, the flags and
the two counters that follow. -/
def walk (step : Nat → Nat → Nat → Got ((Nat × BitVec 5) × Nat × Nat)) :
    List Bool → Nat → Nat → Nat → BitVec 5 → List (Option Nat) → MRes
  | [], _, x, _, fl, acc => { outs := acc.reverse, flags := fl, stop := none, scalar := none, count := x }
  | false :: bs, i, x, y, fl, acc => walk step bs (i + 1) x y fl (none :: acc)
  | true :: bs, i, x, y, fl, acc =>
    match step x y i with
    | .ok (r, x', y') => walk step bs (i + 1) x' y' (fl ||| r.2) (some r.1 :: acc)
    | .error t => { outs := acc.reverse, flags := fl, stop := some (i, t), scalar := none, count := x }

/-- The four elements of a VDOT4 source that element i multiplies: every index element before the data (R95), and of several faults of one
stream at this recorded index that of the lowest source element. DESIGN CHOICE: log entry 164. -/
def quad (ix : Nat → Got Unit) (rd : Nat → Got Nat) (i : Nat) : Got (Nat × Nat × Nat × Nat) := do
  ix (4 * i)
  ix (4 * i + 1)
  ix (4 * i + 2)
  ix (4 * i + 3)
  let x0 ← rd (4 * i)
  let x1 ← rd (4 * i + 1)
  let x2 ← rd (4 * i + 2)
  let x3 ← rd (4 * i + 3)
  return (x0, x1, x2, x3)

/-- Where a producer of the block has no element to give, a fault of another source of the same element still comes first (R94, R95).
DESIGN CHOICE: log entry 164. -/
def orElse {α β : Type} (x : Got α) (y : Got β) : Got α :=
  match x, y with
  | .error .void, .error t => .error t
  | x, _ => x

/-- The value and flags of element i of an elementwise operation (R100-R106, R117-R119); `ix` reads an index element alone. -/
def elemStep (e : QEntry) (ix : Nat → Nat → Got Unit) (rd : Nat → Nat → Got Nat) (i : Nat) : Got (Nat × BitVec 5) :=
  if e.op = .dot4 then do
    let t := e.opndTy 0
    let a ← orElse (orElse (quad (ix 0) (rd 0) i) (quad (ix 1) (rd 1) i)) (rd 2 i)
    let b ← orElse (quad (ix 1) (rd 1) i) (rd 2 i)
    let c ← rd 2 i
    let p (x y : Nat) : Int := t.value x * t.value y
    return (ofInt 32 ((c : Int) + p a.1 b.1 + p a.2.1 b.2.1 + p a.2.2.1 b.2.2.1 + p a.2.2.2 b.2.2.2), flNone)
  else do
    let rb : Got Nat := if e.op.usesB then rd 1 i else .ok 0
    let rc : Got Nat := if e.op.usesC then rd 2 i else .ok 0
    let a ← orElse (orElse (rd 0 i) rb) rc
    let b ← orElse rb rc
    let c ← rc
    if e.op.isCmp then
      let r := compareElem e.ty e.op e.daz a b
      return (b2n r.1, r.2)
    else return elemOp e.op e.ty e.srcTy e.ctl a b c

/-- Elementwise operations, VCOPY and VCMP. -/
def evalElementwise (e : QEntry) (ix : Nat → Nat → Got Unit) (rd : Nat → Nat → Got Nat) (dest : Nat → Got Nat) (bits : List Bool) : MRes :=
  walk (fun x y i => do
    let r ← elemStep e ix rd i
    let r ← settle e dest i r
    return (r, x, y)) bits 0 0 0 flNone []

/-- VFILL (R107). -/
def evalFill (rd : Nat → Nat → Got Nat) (dest : Nat → Got Nat) (bits : List Bool) : MRes :=
  if bits.any id then
    match rd 0 0 with
    | .error t => { outs := [], flags := flNone, stop := some (0, t), scalar := none, count := 0 }
    | .ok v => walk (fun x y i => do
        let _ ← dest i
        return ((v, flNone), x, y)) bits 0 0 0 flNone []
  else walk (fun x y _ => .ok ((0, flNone), x, y)) bits 0 0 0 flNone []

/-- VGATHERF (R108): a source fault ends the copy and lowers VL. -/
def evalGatherf (rd : Nat → Nat → Got Nat) (dest : Nat → Got Nat) (bits : List Bool) (vl : Nat) : MRes :=
  let r := walk (fun x y i => do
    let a ← rd 0 i
    let _ ← dest i
    return ((a, flNone), x, y)) bits 0 0 0 flNone []
  match r.stop with
  | some (f, .fault rank _ _) => if rank ≤ 1 then { r with stop := none, scalar := some f, count := f } else r
  | some _ => r
  | none => { r with scalar := some vl, count := vl }

/-- VCOMPRESS (R114): destination element `x` takes the next active element. -/
def evalCompress (rd : Nat → Nat → Got Nat) (dest : Nat → Got Nat) (bits : List Bool) : MRes :=
  let r := walk (fun x y i => do
    let a ← rd 0 i
    let _ ← dest x
    return ((a, flNone), x + 1, y)) bits 0 0 0 flNone []
  { r with outs := r.outs.filter Option.isSome, scalar := if r.stop.isSome then none else some r.count }

/-- VEXPAND (R115). -/
def evalExpand (rd : Nat → Nat → Got Nat) (dest : Nat → Got Nat) (bits : List Bool) : MRes :=
  walk (fun x y i => do
    let a ← rd 0 x
    let _ ← dest i
    return ((a, flNone), x + 1, y)) bits 0 0 0 flNone []

/-- VMERGE (R116). The selecting element C is read first: it says which of A and B is read. DEDUCED: log entry 20. -/
def evalMerge (rd : Nat → Nat → Got Nat) (dest : Nat → Got Nat) (bits : List Bool) : MRes :=
  walk (fun x y i => do
    let c ← rd 2 i
    let a ← if c ≠ 0 then rd 0 x else rd 1 y
    let _ ← dest i
    return ((a, flNone), if c ≠ 0 then x + 1 else x, if c ≠ 0 then y else y + 1)) bits 0 0 0 flNone []

/-! ### Reductions and scans (R110-R113) -/

/-- A value inside a reduction: absent, known with the highest element that contributes (R97), or not known yet. -/
inductive RV where
  | absent
  | known (v hi : Nat)
  | unknown
  deriving DecidableEq, Repr

/-- A value with the flags raised and the traps recorded on the way. -/
structure RAcc where
  v : RV
  flags : BitVec 5
  stops : List Stop
  deriving DecidableEq, Repr

def trapStops (e : QEntry) (i : Nat) (fl : BitVec 5) : List Stop := ((trapOf e fl).map fun t => (i, t)).toList

/-- x op y (R110): absent is the identity; the trap is recorded at the highest element of the operands. -/
def RAcc.op (e : QEntry) (x y : RAcc) : RAcc :=
  let fl := x.flags ||| y.flags
  let st := x.stops ++ y.stops
  match x.v, y.v with
  | .absent, v => ⟨v, fl, st⟩
  | v, .absent => ⟨v, fl, st⟩
  | .known a i, .known b j =>
    let r := redOp e.op e.ty e.ctl a b
    ⟨.known r.1 (max i j), fl ||| r.2, st ++ trapStops e (max i j) r.2⟩
  | _, _ => ⟨.unknown, fl, st⟩

def RAcc.absent : RAcc := ⟨.absent, flNone, []⟩
/-- DEDUCED: log entry 140. -/
def RAcc.unknown : RAcc := ⟨.unknown, flNone, []⟩

/-- An entered element (R110). -/
def enterElem (e : QEntry) (i x : Nat) : RAcc :=
  let r := enterOp e.ty e.ctl x
  ⟨.known r.1 i, r.2, trapStops e i r.2⟩

/-- The value alone: what was raised on the way to it has been counted. -/
def RAcc.bare (x : RAcc) : RAcc := ⟨x.v, flNone, []⟩

/-- Adds elements, as (position, element), to the eight lanes; at the first that has no value or that traps, the lanes that
still expect elements are unknown. -/
def laneLoop (e : QEntry) (rd : Nat → Got Nat) : List (Nat × Nat) → Vector RAcc 8 → List Stop → Vector RAcc 8 × List Stop
  | [], lanes, st => (lanes, st)
  | (p, i) :: xs, lanes, st =>
    let l : Fin 8 := ⟨p % 8, Nat.mod_lt _ (by decide)⟩
    let close (rest : List (Nat × Nat)) (lanes : Vector RAcc 8) : Vector RAcc 8 :=
      rest.foldl (fun ls x => vset ls ⟨x.1 % 8, Nat.mod_lt _ (by decide)⟩ RAcc.unknown) lanes
    match rd i with
    | .error t => (close ((p, i) :: xs) lanes, st ++ [(i, t)])
    | .ok v =>
      let y := lanes[l].op e (enterElem e i v)
      let lanes := vset lanes l ⟨y.v, y.flags, []⟩
      if y.stops.isEmpty then laneLoop e rd xs lanes st else (close xs lanes, st ++ y.stops)

/-- The tree over the lanes (R110). -/
def laneTree (e : QEntry) (l : Vector RAcc 8) : RAcc :=
  ((l[0].op e l[1]).op e (l[2].op e l[3])).op e ((l[4].op e l[5]).op e (l[6].op e l[7]))

/-- The reduction of elements with their positions (R110); `whole` says that no further element can join. -/
def reduce (e : QEntry) (rd : Nat → Got Nat) (xs : List (Nat × Nat)) (whole : Bool) : RAcc :=
  let r := laneLoop e rd xs (Vector.replicate 8 RAcc.absent) []
  if whole then
    let t := laneTree e r.1
    ⟨t.v, t.flags, r.2 ++ t.stops⟩
  else ⟨.unknown, flNone, r.2⟩

/-- The stop of a destination check, recorded at element i. -/
def destStop (dest : Nat → Got Nat) (j i : Nat) : List Stop :=
  match dest j with
  | .ok _ => []
  | .error t => [(i, t)]

/-- VSUM, VMINR, VMAXR (R110, R111). -/
def evalReduce (e : QEntry) (rd : Nat → Nat → Got Nat) (dest : Nat → Got Nat) (bits : List Bool) : MRes :=
  let xs := activeIx bits
  let r := reduce e (rd 0) (xs.map fun i => (i, i)) true
  let v := match r.v with
    | .known v _ => v
    | _ => identityOf e.op e.ty
  let ds := if e.vl = 0 then [] else destStop dest 0 (xs.getLastD 0)
  match minStop (r.stops ++ ds) with
  | some t => { outs := [], flags := r.flags, stop := some t, scalar := none, count := 0 }
  | none => { outs := if e.vl = 0 then [] else [some v], flags := r.flags, stop := none, scalar := some v, count := 1 }

/-- One step of the scan inside a beat: each position takes the value d below it (R112). -/
def scanStep (e : QEntry) (d : Nat) (y : List RAcc) : List RAcc :=
  (List.range y.length).map fun j =>
    match y[j]? with
    | none => RAcc.absent
    | some v => if j < d then v.bare else match y[j - d]? with
      | some u => u.bare.op e v.bare
      | none => v.bare

/-- Flags of a list of partial results, and their stops. -/
def accFlags (l : List RAcc) : BitVec 5 := l.foldl (fun f x => f ||| x.flags) 0
def accStops (l : List RAcc) : List Stop := l.flatMap (·.stops)

/-- Reads the entered elements of one beat; after the first that is not there, the active positions are unknown. -/
def beatRead (e : QEntry) (rd : Nat → Got Nat) : List Bool → Nat → Bool → List RAcc
  | [], _, _ => []
  | false :: bs, i, gone => RAcc.absent :: beatRead e rd bs (i + 1) gone
  | true :: bs, i, true => RAcc.unknown :: beatRead e rd bs (i + 1) true
  | true :: bs, i, false =>
    match rd i with
    | .ok v => enterElem e i v :: beatRead e rd bs (i + 1) false
    | .error t => ⟨.unknown, flNone, [(i, t)]⟩ :: beatRead e rd bs (i + 1) true

/-- Results of one beat, in order, up to the first that is not known or cannot be written. -/
def beatOuts (dest : Nat → Got Nat) : List Bool → List RAcc → Nat → List (Option Nat) × List Stop
  | true :: bs, x :: xs, i =>
    match x.v, dest i with
    | .known v _, .ok _ =>
      let r := beatOuts dest bs xs (i + 1)
      (some v :: r.1, r.2)
    | .known _ _, .error t => ([], [(i, t)])
    | _, _ => ([], [])
  | false :: bs, _ :: xs, i =>
    let r := beatOuts dest bs xs (i + 1)
    (none :: r.1, r.2)
  | _, _, _ => ([], [])

/-- VSCAN (R112), beat by beat; a beat has eight positions, of which those at or above VL are absent. -/
def scanLoop (e : QEntry) (rd dest : Nat → Got Nat) : Nat → List Bool → Nat → RAcc → BitVec 5 → List (Option Nat) → MRes
  | 0, _, _, _, fl, acc => { outs := acc, flags := fl, stop := none, scalar := none, count := 0 }
  | n + 1, bits, i, carry, fl, acc =>
    let bs := bits.take 8
    let y0 := beatRead e rd (bs ++ List.replicate (8 - bs.length) false) i false
    let y1 := scanStep e 1 y0
    let y2 := scanStep e 2 y1
    let y3 := scanStep e 4 y2
    let ds := (List.range bs.length).map fun j => if bs[j]? == some true then carry.op e ((y3.getD j RAcc.absent).bare) else RAcc.absent
    let next := carry.op e ((y3.getD 7 RAcc.absent).bare)
    let all := y0 ++ y1 ++ y2 ++ y3 ++ ds ++ [next]
    let outs := beatOuts dest bs ds i
    let fl := fl ||| accFlags all
    match minStop (accStops all ++ outs.2) with
    | some t => { outs := acc ++ outs.1, flags := fl, stop := some t, scalar := none, count := 0 }
    | none => scanLoop e rd dest n (bits.drop 8) (i + 8) next.bare fl (acc ++ outs.1)

def evalScan (e : QEntry) (rd : Nat → Nat → Got Nat) (dest : Nat → Got Nat) (bits : List Bool) : MRes :=
  scanLoop e (rd 0) dest ((bits.length + 7) / 8) bits 0 RAcc.absent flNone []

/-- The segments that source B marks among the active elements, as lists of elements, each list reversed and the last
segment first; and the stop where B is not there (R113). DEDUCED: log entry 28. -/
def segments (rdB : Nat → Got Nat) : List Nat → List (List Nat) → List (List Nat) × Option Stop
  | [], acc => (acc, none)
  | i :: is, acc =>
    match rdB i with
    | .error t => (acc, some (i, t))
    | .ok b =>
      match acc with
      | [] => segments rdB is [[i]]
      | seg :: rest => if b ≠ 0 then segments rdB is ([i] :: seg :: rest) else segments rdB is ((i :: seg) :: rest)

/-- Sums the segments in order; an element's position is its distance from the segment's start (R113). DEDUCED: log entry 28. -/
def segLoop (e : QEntry) (rd dest : Nat → Got Nat) (openLast : Bool) : List (List Nat) → Nat → BitVec 5 → List (Option Nat) → List Stop → MRes
  | [], s, fl, acc, st => { outs := acc, flags := fl, stop := minStop st, scalar := some s, count := s }
  | seg :: rest, s, fl, acc, st =>
    let start := seg.headD 0
    let r := reduce e rd (seg.map fun i => (i - start, i)) (!(openLast && rest.isEmpty))
    let ds := match r.v with
      | .known _ _ => destStop dest s (seg.getLastD 0)
      | _ => []
    match r.v, r.stops ++ ds with
    | .known v _, [] => segLoop e rd dest openLast rest (s + 1) (fl ||| r.flags) (acc ++ [some v]) st
    | _, ts => { outs := acc, flags := fl ||| r.flags, stop := minStop (st ++ ts), scalar := none, count := s }

/-- VSEGSUM (R113). DEDUCED: log entry 140. -/
def evalSegsum (e : QEntry) (rd : Nat → Nat → Got Nat) (dest : Nat → Got Nat) (bits : List Bool) : MRes :=
  let r := segments (rd 1) (activeIx bits) []
  let st := match r.2 with
    | none => []
    | some (i, t) => match rd 0 i with
      | .error u => [(i, u)]
      | .ok _ => [(i, t)]
  segLoop e (rd 0) dest r.2.isSome ((r.1.map List.reverse).reverse) 0 flNone [] st

/-- The result of one member. -/
def Env.member (v : Env) (prev : List MRes) (m : Nat) (e : QEntry) : MRes :=
  match v.maskBits e with
  | .error t => { outs := [], flags := flNone, stop := some (0, t), scalar := none, count := 0 }
  | .ok bits =>
    let rd := v.read prev m e
    let dest := v.dest m e
    match e.op with
    | .fill => evalFill rd dest bits
    | .gatherf => evalGatherf rd dest bits e.vl
    | .compress => evalCompress rd dest bits
    | .expand => evalExpand rd dest bits
    | .merge => evalMerge rd dest bits
    | .sum | .minr | .maxr => evalReduce e rd dest bits
    | .scan => evalScan e rd dest bits
    | .segsum => evalSegsum e rd dest bits
    | _ => evalElementwise e (v.readIndex m e) rd dest bits

/-- The results of the members, in order. DEDUCED: log entry 21. -/
def Env.members (v : Env) : List QEntry → Nat → List MRes → List MRes
  | [], _, acc => acc
  | e :: es, m, acc => v.members es (m + 1) (acc ++ [v.member acc m e])

/-- The older uncommitted runs of a half. -/
def Bough.olderRuns (y : Bough) (h : Half) : List (List QEntry) :=
  ((y.runs.filter fun x => decide (x.ord < h.ord)).map (·.run))

def State.env (s : State) (b : BoughId) (h : Half) : Env := ⟨s, b, h, (s.bough b).olderRuns h⟩

/-- Evaluates the run of a half as far as its data has come. -/
def State.evalRun (s : State) (b : BoughId) (h : Fin 2) : List MRes :=
  let x := s.half b h
  (s.env b x).members x.run 0 []

/-- The stop of a member that is its own: where a producer of the block has stopped, the producer's stop stands for both (R94). -/
def MRes.ownStop (r : MRes) : Option Stop := r.stop.filter fun x => x.2 != .void

/-- Of two stops of different members, the one with the lower index, the earlier member first (R94, R95). DEDUCED: log entry 21. -/
def firstStop : List MRes → Option Stop
  | [] => none
  | r :: rs =>
    match r.ownStop, firstStop rs with
    | some x, some y => if y.1 < x.1 then some y else some x
    | some x, none => some x
    | none, y => y

/-! ### What a complete run does -/

/-- Destination elements of a member, padded to the elements its operand covers (R67, R173). -/
def MRes.image (r : MRes) (n : Nat) : List Nat :=
  (r.outs.map fun o => o.getD 0) ++ List.replicate (n - r.outs.length) 0

/-- Elements packed little-endian into words, the last one padded with 0. -/
def packElems (size : Nat) (xs : List Nat) : List Word := bytesWords (xs.flatMap fun x => wordBytes size x)

/-- The bytes that a member writes to memory, in element order (R78). -/
def Env.writes (v : Env) (m : Nat) (e : QEntry) (r : MRes) : List (Nat × Byte) :=
  match e.dst with
  | .stream d _ =>
    if d.inMem then
      (List.range r.outs.length).flatMap fun j =>
        match r.outs[j]? with
        | some (some x) => match v.dest m e j with
          | .ok a => atAddr a (wordBytes (e.opndTy 3).size x)
          | .error _ => []
        | _ => []
    else []
  | _ => []

/-- A member's results other than memory bytes are put together with those of the run. -/
def RunResult.empty : RunResult :=
  { writes := [], vregs := [], masks := [], scalar := none, newVl := none, qreads := [], qapps := [], flags := 0, chains := [] }

/-- Mask bits as a number, bit 0 first. -/
def bitsNat : List Bool → Nat
  | [] => 0
  | b :: bs => b2n b + 2 * bitsNat bs

def Env.addMember (v : Env) (m : Nat) (e : QEntry) (r : MRes) (x : RunResult) : RunResult :=
  let t := e.opndTy 3
  let w := v.writes m e r
  { writes := if w.isEmpty then x.writes else if m + 1 = v.h.run.length then w :: x.writes else x.writes ++ [w]
    vregs := x.vregs ++ match e.dst with
      | .vreg k => if runIsLink v.h.run m then [] else
          (List.range r.outs.length).filterMap fun j => match r.outs[j]? with
            | some (some y) => some (k, t.width, j, y)
            | _ => none
      | _ => []
    masks := x.masks ++ if e.op.isCmp && e.dstMask != 0 && e.vl != 0 then
      [(e.dstMask, e.vl, bitsNat (r.outs.map fun o => o == some 1))] else []
    scalar := match e.ret, r.scalar with
      | some g, some y =>
        some (g, if e.op.isReduce then extendScalar e.ty y else BitVec.ofNat 64 y)
      | _, _ => x.scalar
    newVl := if e.op = .gatherf && r.count < e.vl then some r.count else x.newVl
    qreads := x.qreads ++ [0, 1, 2].filterMap fun k => match (e.opnd k).desc? with
      | some d => if d.isQueue then some (d.queue, e.queueNeed k) else none
      | none => none
    qapps := x.qapps ++ match e.dst.desc? with
      | some d => if d.isQueue && e.vl != 0 then [(d.queue, packElems t.size (r.image (e.cover 3)))] else []
      | none => []
    flags := x.flags ||| r.flags
    chains := x.chains ++ match e.dst.desc? with
      | some d => if d.isChainOut then [(d.link, e.vl * t.size, packElems t.size (r.image e.vl))] else []
      | none => [] }

def Env.result (v : Env) : List QEntry → List MRes → Nat → RunResult → RunResult
  | e :: es, r :: rs, m, x => v.result es rs (m + 1) (v.addMember m e r x)
  | _, _, _, x => x

/-- The staged results of the run of half h, every member complete (R145). -/
def State.runResult (s : State) (b : BoughId) (h : Fin 2) (rs : List MRes) : RunResult :=
  let x := s.half b h
  (s.env b x).result x.run rs 0 RunResult.empty

/-- No element of the run is active (R146). DEDUCED: log entry 22. -/
def State.runIdle (s : State) (b : BoughId) (h : Fin 2) : Bool :=
  let x := s.half b h
  x.run.all fun e => e.vl == 0 || (match (s.env b x).maskBits e with | .ok bits => !bits.any id | .error _ => false)

/-- The words of a chain-out member that are complete: those whose every byte is known (R174). -/
def knownWords (e : QEntry) (r : MRes) : List Word :=
  let n := (e.opndTy 3).size
  if r.stop.isNone then packElems n (r.image e.vl)
  else if e.op.isReduce then []
  else (packElems n (r.outs.map fun o => o.getD 0)).take (r.outs.length * n / 8)

end Sys2Proof.Machine
end

