-- ==== Sys2Proof/Machine/Streams.lean ====
section
/-! DEFINITION. Dispatch of vector instructions and their streams (R28-R33, R67, R156, R177, R188, R303, R304, R348). -/

namespace Sys2Proof.Machine

/-! ### Dispatch -/

/-- The address generators that a run claims (R30): the data generator of every stream operand, and the index generator of an indexed one. -/
def slotsOf (run : List QEntry) : List Slot :=
  (List.range run.length).flatMap fun m =>
    match run[m]? with
    | none => []
    | some e => [0, 1, 2, 3].flatMap fun k =>
      match e.opnd k with
      | .stream d ix =>
        let n := if e.vl = 0 then 0 else e.cover k
        (match ix with
          | some x => if d.isIndex then [{ key := ⟨m, k, true⟩, desc := x, count := n, next := 0, last := none }] else []
          | none => []) ++
        [{ key := ⟨m, k, false⟩, desc := d, count := n, next := 0, last := none }]
      | _ => []

/-- A broken link that the run names: CHAIN_BREAK at element 0 (R188, R189). A run of VL 0 accesses nothing and has no fault (R73). -/
def State.brokenLink (s : State) (b : BoughId) (run : List QEntry) : Option Word :=
  (s.runLinks b (run.filter fun e => e.vl != 0)).findSome? fun x => match s.links[x.1]? with
    | some l => if l.broken then some (breakAddr x.2.1 l.code x.2.2) else none
    | none => none

/-- Queues that a run names. DEDUCED: log entry 17. -/
def runQueues (run : List QEntry) : List QueueId :=
  (run.flatMap fun e => [0, 1, 2, 3].filterMap fun k => match (e.opnd k).desc? with
    | some d => if d.isQueue && e.vl != 0 then some d.queue else none
    | none => none).eraseDups

/-- The LENGTH checks of dispatch (R67, R348): the words that earlier uncommitted runs take and append are counted. DEDUCED: log entry 17. -/
def State.queueShort (s : State) (b : BoughId) (older : List (List QEntry)) (run : List QEntry) : Bool :=
  (runQueues run).any fun q =>
    let x := s.queues[q]
    let rd := runReads run q
    let ap := runAppends run q
    let role (r : Option QRole) := r == some (.bough b.val)
    (run.any (fun e => e.vl != 0 && [0, 1, 2].any fun k => match (e.opnd k).desc? with
        | some d => d.isQueue && d.queue == q
        | none => false) &&
      (match x.cons with
        | some o => !role (s.consOf q.val) || decide (o.pkt.words.length < o.pos + (older.map fun r => runReads r q).sum + rd)
        | none => true)) ||
    (run.any (fun e => e.vl != 0 && match e.dst.desc? with
        | some d => d.isQueue && d.queue == q
        | none => false) &&
      (match x.prod with
        | some o => !role (s.prodOf q.val) || decide (min o.cap 4096 < o.words.length + (older.map fun r => runAppends r q).sum + ap)
        | none => true))

/-- The next element that a slot still has to request: `none` when that is not known yet, `some none` when it is done.
`needs` answers whether element i is needed. -/
def nextNeeded (needs : Nat → Option Bool) : Nat → Nat → Option (Option Nat)
  | 0, _ => some none
  | fuel + 1, i =>
    match needs i with
    | none => none
    | some true => some (some i)
    | some false => nextNeeded needs fuel (i + 1)

/-- How many elements of A and of B a VMERGE reads, as far as C is there, and whether all of C is (R116). -/
def mergeCounts (rd : Nat → Got Nat) : List Nat → Nat → Nat → Nat × Nat × Bool
  | [], a, b => (a, b, true)
  | i :: is, a, b =>
    match rd i with
    | .ok c => if c ≠ 0 then mergeCounts rd is (a + 1) b else mergeCounts rd is a (b + 1)
    | .error _ => (a, b, false)

/-- Whether the instruction writes destination element i, as far as that is known (R76, R108, R110-R115). -/
def Env.writesElem (v : Env) (m : Nat) (e : QEntry) (bits : List Bool) (i : Nat) : Option Bool :=
  let act := activeIx bits
  match e.op with
  | .sum | .minr | .maxr => some (i == 0)
  | .compress => some (decide (i < act.length))
  | .segsum =>
    let r := segments (v.read [] m e 1) act []
    if i < r.1.length then some true else if r.2.isNone then some false else none
  | .gatherf =>
    if bits[i]? == some true then
      match v.read [] m e 0 i with
      | .ok _ => some true
      | .error (.pending _) => none
      | .error _ => some false
    else some false
  | _ => some (bits[i]? == some true)

/-- Whether a stream needs element i (R76, R103, R107, R115, R116). -/
def Env.needs (v : Env) (key : SlotKey) (e : QEntry) (i : Nat) : Option Bool :=
  if key.index then some true
  else
    match v.maskBits e with
    | .error _ => none
    | .ok bits =>
      if key.opnd = 3 then v.writesElem key.mem e bits i
      else match e.op with
      | .fill => some (bits.any id)
      | .dot4 => some (bits[if key.opnd < 2 then i / 4 else i]? == some true)
      | .expand => some (decide (i < (activeIx bits).length))
      | .merge =>
        if key.opnd = 2 then some (bits[i]? == some true)
        else
          let r := mergeCounts (v.read [] key.mem e 2) (activeIx bits) 0 0
          let n := if key.opnd = 0 then r.1 else r.2.1
          if i < n then some true else if r.2.2 then some false else none
      | _ => some (bits[i]? == some true)

/-- The address that element i of a slot asks for: `none` when its index is not there yet, `some none` when no request
leaves for it (R33, R63). -/
def Env.slotAddr (v : Env) (sl : Slot) (i : Nat) : Option (Option Nat) :=
  let e := v.h.run[sl.key.mem]?
  if sl.desc.isQueue then
    let a := i * sl.desc.size
    if sl.last == some (a / 64) then some none else some (some a)
  else
  let a := match e.map fun e => e.opnd sl.key.opnd with
    | some (.stream d ix) => if sl.key.index then (Except.ok (sl.desc.addrAt i) : Got Int) else v.h.elemAddr sl.key.mem sl.key.opnd d ix i
    | _ => Except.error .void
  match a with
  | .error (.pending _) => none
  | .error _ => some none
  | .ok a =>
    if !sl.desc.inBounds a then some none
    else if sl.desc.isStride && sl.last == some (a.toNat / 64) then some none
    else some (some a.toNat)

/-- The next request of a slot: the element and its address. -/
def Env.nextReq (v : Env) (sl : Slot) : Nat → Nat → Option (Option (Nat × Nat))
  | 0, _ => some none
  | fuel + 1, i =>
    match v.h.run[sl.key.mem]? with
    | none => some none
    | some e =>
      match nextNeeded (v.needs sl.key e) (sl.count - i) i with
      | none => none
      | some none => some none
      | some (some j) =>
        match v.slotAddr sl j with
        | none => none
        | some none => v.nextReq sl fuel (j + 1)
        | some (some a) => some (some (j, a))

/-- The chain-in stream of an endpoint (R177). -/
def Env.recvFor (v : Env) (d : Desc) : Option RecvSt := (v.s.linkIn v.b.val d.link).bind fun l => v.h.recvs.find? fun r => r.link = l

/-- A chain-in generator has a transfer to take when the chain buffer holds words of its epoch; it is done with the last word that VL reads,
or with the epoch (R176, R177). -/
def Env.chainNext (v : Env) (sl : Slot) : Option (Option (Nat × Nat)) :=
  match v.recvFor sl.desc with
  | none => some none
  | some r =>
    if r.need ≤ r.words.length || (match r.endLen with | some n => decide (epochWords n ≤ r.words.length) | none => false) then some none
    else
      match (v.s.links[r.link]?).bind fun l => findRx r.epoch l.eps with
      | some e => if e.words.isEmpty then none else some (some (0, 0))
      | none => none

/-- The next request of a generator: `none` while it is not known, `some none` after the last. A chain-out stream is sent by
CHAIN_TRANSFER_SEND, and a queue destination is appended at the commit (R67, R174): their generators ask for nothing. -/
def Env.slotNext (v : Env) (sl : Slot) : Option (Option (Nat × Nat)) :=
  if sl.desc.isChainIn && sl.key.opnd != 3 && sl.count != 0 then v.chainNext sl
  else if sl.desc.inMem || (sl.desc.isQueue && sl.key.opnd != 3) then v.nextReq sl (sl.count + 1 - sl.next) sl.next
  else some none

/-- The generators of a run have issued their last request (R28). -/
def State.generatorsDone (s : State) (b : BoughId) (h : Half) : Bool := h.slots.all fun sl => (s.env b h).slotNext sl == some none

/-- A free half, if there is one. -/
def Bough.freeHalf (y : Bough) : Option (Fin 2) := [0, 1].find? fun h => y.halves[h].st == .free

/-- Words that a run reads from the link of endpoint ep: the most that one of its operands covers (R72, R177). -/
def runNeed (run : List QEntry) (ep : Nat) : Nat :=
  run.foldl (fun n e => (e.endpoints true).foldl (fun n x => if x.2 = ep then max n (e.queueNeed x.1) else n) n) 0

/-- The chain-in streams of a run, one for each link (R177). -/
def State.recvsOf (s : State) (b : BoughId) (run : List QEntry) : List RecvSt :=
  (s.runIns b run).filterMap fun i => (s.links[i]?).map fun l =>
    { link := i, epoch := l.epochAt ((s.bough b).fillingRuns.filter fun h => h.recvs.any fun r => r.link = i).length,
      need := runNeed run l.dstEp, words := [], endLen := none, committed := false, cut := l.broken }

/-- Opens an epoch for each chain-out destination of a run (R173). -/
def openSends (b : BoughId) : List QEntry → State → State × List SendSt
  | [], s => (s, [])
  | e :: es, s =>
    match e.dst.desc? with
    | some d =>
      match if d.isChainOut then s.linkOut b.val d.link else none with
      | some i =>
        match s.links[i]? with
        | some l =>
          if l.broken then
            let r := openSends b es s
            (r.1, { link := i, epoch := l.nextEp, sent := 0, ended := true, taken := true } :: r.2)
          else
          let t : TxEpoch := { ep := l.nextEp, words := [], len := some (e.vl * (e.opndTy 3).size), sent := 0, ended := false, committed := false, commitSent := false }
          let r := openSends b es (s.modLink i fun l => { l with nextEp := l.nextEp + 1, tx := l.tx ++ [t] })
          (r.1, { link := i, epoch := l.nextEp, sent := 0, ended := false, taken := false } :: r.2)
        | none => openSends b es s
      | none => openSends b es s
    | none => openSends b es s

/-- Claims a half for a run, opens its streams and epochs, and asks its senders to replay when it has run before (R28,
R173, R177, R181). -/
def State.claimHalf (s : State) (b : BoughId) (h : Fin 2) (run : List QEntry) : State :=
  let y := s.bough b
  let recvs := s.recvsOf b run
  let again := run.any (·.again)
  let x : Half := { Half.free with st := .filling, run := run, ord := y.nextOrd, slots := slotsOf run, recvs := recvs }
  let s := s.modBough b fun y => { y with halves := vset y.halves h x, iq := y.iq.drop run.length, nextOrd := y.nextOrd + 1 }
  let o := openSends b run s
  let s := o.1.modHalf b h fun x => { x with sends := o.2 }
  let s := if again then recvs.foldl (fun s r => match s.links[r.link]? with
    | some l => s.replayLink r.link l.expect
    | none => s) s else s
  recvs.foldl (fun s r => s.settleRx r.link) s

/-- VECTOR_DISPATCH (R24, R28, R42, R67, R188, R348): in RUN, the head entry, or block, claims a half. A fault of dispatch waits until
every earlier instruction has committed (R158). -/
def execVectorDispatch (b : BoughId) (s : State) : Out :=
  let y := s.bough b
  match y.iq with
  | [] => .next s
  | e :: _ =>
    let run := y.iq.take e.blockLen
    if s.sys.mode != .run || y.freeze || y.resetting || y.saved.isSome || y.vfault.isSome || y.twig.run == .halted ||
        !(y.fillingRuns.all (s.generatorsDone b)) then .next s
    else
      match y.freeHalf with
      | none => .next s
      | some h =>
        let fault := match s.brokenLink b run with
          | some a => some (Cause.chainBreak, a)
          | none => if s.queueShort b (y.runs.map (·.run)) run then some (.length, 0) else none
        match fault with
        | some (c, a) => if y.runs.isEmpty then .next (s.dispatchFault b e.blockLen c a) else .next s
        | none => .next (s.claimHalf b h run)

/-! ### Stream requests (R31, R33, R156, R303, R304) -/

/-- Reorder tags held at the canopy port (R33). -/
def State.canopyTags (s : State) (b : BoughId) : Nat :=
  let y := s.bough b
  ((y.halves[0].tags ++ y.halves[1].tags).filter fun t => !t.own).length + (y.absorbTags.filter fun t => !(s.scr[b].inbox.any fun r => r.tag = t)).length

/-- The tags whose data leaves the reorder buffer: it has come, and so has that of every earlier request of the stream (R33). -/
def releaseTags : List SlotKey → List ReTag → List ReTag
  | _, [] => []
  | late, t :: ts =>
    if t.come && !late.contains t.key then releaseTags late ts
    else t :: releaseTags (if t.come then late else t.key :: late) ts

/-- The data of a tag comes to the half that waits for it. DEDUCED: log entry 18. -/
def Half.fill (x : Half) (tag : Nat) (c : Chunk) : Half :=
  if x.tags.any fun t => t.tag = tag && !t.come then
    { x with tags := releaseTags [] (x.tags.map fun t => if t.tag = tag then { t with come := true } else t), chunks := x.chunks ++ [c] }
  else x

/-- Hands data to the half that waits for a tag; what a discarded run asked for is dropped. -/
def State.fillTag (s : State) (b : BoughId) (tag : Nat) (c : Chunk) : State :=
  let f (x : Half) : Half := x.fill tag c
  s.modBough b fun y =>
    { y with halves := (vmod (vmod y.halves 0 f) 1 f), absorbTags := y.absorbTags.filter (· ≠ tag) }

/-- A read of n bytes at a to the unit that holds them, its check passed. -/
def State.sendStream (s : State) (b : BoughId) (h : Fin 2) (tag : Nat) (key : SlotKey) (a n : Nat) : State :=
  let r : ReadReq := { tag := tag, who := .stream b h key, addr := a, len := n }
  match placeOf a with
  | .root _ => (s.sendRead r).countLeave (groveOf b) a
  | .scratch d _ => (s.modScr (boughId d) fun x => { x with inbox := x.inbox ++ [r] }).countLeave (groveOf b) a
  | _ => s

/-- The plot that a bough's requests are checked against (R303). -/
def State.reqPlot (s : State) (b : BoughId) : Nat := ((s.boughPlot b.val).map (·.plot)).getD 64

/-- The failed check of a request for address a is recorded (R303, R313, R314). -/
def State.checkFailed (s : State) (b : BoughId) (a : Nat) (write : Bool) : State := s.isoFail b.val 0 (s.reqPlot b % 64) a write

/-- The half's generator k has made its request for element i at address a. -/
def State.slotPast (s : State) (b : BoughId) (h : Fin 2) (k i a : Nat) : State :=
  s.modHalf b h fun x => { x with slots := lmod x.slots k fun sl => { sl with next := i + 1, last := some (a / 64) } }

/-- A data stream of a memory source asks for n bytes at `base`: it takes a tag, and a failed check answers with a fault response
(R33, R303). -/
def State.readStream (s : State) (b : BoughId) (h : Fin 2) (key : SlotKey) (base n : Nat) : State :=
  let id := s.newId
  let s := id.2.modHalf b h fun x => { x with tags := x.tags ++ [{ tag := id.1, key := key, own := ownPlace (.bough b) base, come := false }] }
  match s.checkOwner (s.reqPlot b) base with
  | none => s.sendStream b h id.1 key base n
  | some c =>
    (s.checkFailed b base false).modBough b fun y =>
      { y with resps := y.resps ++ [(id.1, { key := key, base := base, data := [], poison := [], fault := some c })] }

/-- A memory destination has the address of an element checked (R303): a failure waits in the reorder buffer for the element. -/
def State.checkDest (s : State) (b : BoughId) (h : Fin 2) (key : SlotKey) (a : Nat) : State :=
  match s.checkOwner (s.reqPlot b) a with
  | none => s
  | some c => (s.checkFailed b a true).modHalf b h fun x =>
      { x with chunks := x.chunks ++ [{ key := key, base := a, data := [], poison := [], fault := some c }] }

/-- A queue source asks for the 64 bytes at offset `base` of its stream (R31, R67): the words come from the open packet. -/
def State.readQueue (s : State) (b : BoughId) (h : Fin 2) (key : SlotKey) (q : QueueId) (base : Nat) : State :=
  let off := (s.env b (s.half b h)).queueOff key.mem key.opnd q
  let ws := ((((s.queues[q].cons.map (·.pkt.words)).getD []).drop (off + base / 8)).take 8)
  let id := s.newId
  let s := id.2.modBough b fun y =>
    { y with halves := vmod y.halves h fun x => { x with tags := x.tags ++ [{ tag := id.1, key := key, own := false, come := false }] },
             resps := y.resps ++ [(id.1, { key := key, base := base, data := wordsBytes (ws.map (·.w)), poison := ws.map (·.bad), fault := none })] }
  s.countQueue (groveOf b) q ws.length

/-- Issues one request of slot k: a strided stream asks for the granule, an indexed one for the half granule (R33, R270). -/
def State.issueStream (s : State) (b : BoughId) (h : Fin 2) (k : Nat) (sl : Slot) (i a : Nat) : State :=
  if sl.desc.isChainIn then
    match s.linkIn b.val sl.desc.link with
    | some l => s.pullChain b h l
    | none => s
  else
    let s := s.slotPast b h k i a
    if sl.desc.isQueue then s.readQueue b h sl.key sl.desc.queue (a / 64 * 64)
    else if sl.key.opnd = 3 && !sl.key.index then s.checkDest b h sl.key a
    else if sl.desc.isStride then s.readStream b h sl.key (a / 64 * 64) 64
    else s.readStream b h sl.key (a / 32 * 32) 32

/-- Whether something of R156, R157 or R302 holds a request for n bytes at a: an earlier run's uncommitted destination, for a source; a
buffered store of the twig, which precedes the instruction. -/
def Env.requestHeld (v : Env) (sl : Slot) (a n : Nat) : Bool :=
  sl.desc.inMem &&
    ((!(sl.key.opnd == 3 && !sl.key.index) && v.older.any fun run => run.any fun e => match e.dst.desc? with
        | some d => d.meets (a / n * n) n
        | none => false) ||
      (v.s.bough v.b).twig.stores.any fun x => !x.visible && decide (x.addr < a / n * n + n) && decide (a / n * n < x.addr + x.bytes.length))

/-- STREAM_REQUEST (R30-R33, R63, R156, R157, R176, R303, R304): the generator of slot k sends its next request, unless something of R302
holds it. Every stream but one in the bough's own scratchpad goes through the canopy port, which holds it while it absorbs. A region that the
port's ownership cache does not hold is looked up first. -/
def State.streamRequest (s : State) (b : BoughId) (h : Fin 2) (slot : Nat) : State :=
  let y := s.bough b
  let x := y.halves[h]
  match x.slots[slot]? with
  | none => s
  | some sl =>
    let v := s.env b x
    match if x.st == .filling then v.slotNext sl else none with
    | some (some (i, a)) =>
      let n := if sl.desc.isIndex then 32 else 64
      let own := sl.desc.inMem && ownPlace (.bough b) a
      if v.requestHeld sl a n || (!own && (y.absorbing || (!sl.desc.isChainIn && (y.lookup.isSome || decide (256 ≤ s.canopyTags b))))) then s
      else
        match if sl.desc.inMem then placeOf a else .hole with
        | .root r =>
          if y.knowsRegion r then (s.touchOwn b r).issueStream b h slot sl i a
          else (s.lookUp b r).modBough b fun y => { y with lookHeld := y.lookHeld ++ [(h, slot)] }
        | _ => s.issueStream b h slot sl i a
    | _ => s

def execStreamRequest (b : BoughId) (h : Fin 2) (slot : Nat) (s : State) : Out := .next (s.streamRequest b h slot)

/-- OWNERSHIP_LOOKUP_RETURN (R303, R304): the region enters the cache and the requests held behind it go on. -/
def execOwnershipLookupReturn (b : BoughId) (s : State) : Out :=
  let y := s.bough b
  match y.lookup with
  | none => .next s
  | some r =>
    let s := (s.learnOwn b r).modBough b fun y => { y with lookup := none, lookHeld := [] }
    .next (y.lookHeld.foldl (fun s q => s.streamRequest b q.1 q.2) s)

/-- The scratchpad whose inbox holds a stream read of bough b with this tag. -/
def State.scratchRead (s : State) (b : BoughId) (tag : Nat) : Option (BoughId × ReadReq) :=
  (List.finRange 256).findSome? fun d =>
    (s.scr[d].inbox.find? fun r => r.tag = tag && (match r.who with | .stream b' _ _ => b' == b | _ => false)).map fun r => (d, r)

def reqKey : Requester → SlotKey
  | .stream _ _ k => k
  | _ => ⟨0, 0, false⟩

/-- READ_RESPONSE_ARRIVAL (R33, R149, R151, R300, R305, R319): a response fills its tag, or is absorbed. A scratchpad read is
performed here, unless a filter entry holds it or an earlier one of the same port is there. -/
def execReadResponseArrival (b : BoughId) (tag : Nat) (s : State) : Out :=
  match (s.bough b).resps.find? fun r => r.1 = tag with
  | some r => .next ((s.modBough b fun y => { y with resps := y.resps.filter fun r => r.1 ≠ tag }).fillTag b tag r.2)
  | none =>
    match s.scratchRead b tag with
    | none => .next s
    | some (d, r) =>
      if s.entryCovers (.scratch d) r.addr || !s.scratchInOrder d r then .next s
      else
        let c := { s.mem.chunk r.addr r.len with key := reqKey r.who }
        let s := ((s.observe r.addr r.len false).meterScratch b d 1).modScr d fun x =>
          { x with inbox := x.inbox.filter fun q => q != r }
        .next (s.fillTag b tag c)

end Sys2Proof.Machine
end

