-- ==== Sys2Proof/Machine/Sapwood.lean ====
section
/-! DEFINITION. Sapwood (chapter 06): commit points, range entries, the commit instant, drain and retire, demands, and
the taking of vector faults. -/

namespace Sys2Proof.Machine

/-! ### Commit point (R146, R147, R179) -/

/-- The other half of a bough. -/
def otherHalf (h : Fin 2) : Fin 2 := if h = 0 then 1 else 0

/-- Pipe energy of a run (R422). DESIGN CHOICE: log entry 19. -/
def State.pipeUnits (s : State) (b : BoughId) (x : Half) : Nat :=
  (x.run.map fun e =>
    let n := match (s.env b x).maskBits e with
      | .ok bits => (activeIx bits).length
      | .error _ => 0
    n * (if e.op = .dot4 then 4 else 1) * e.ty.size * (s.atVolt ePipe / 8)).sum

/-- The ranges of the memory destinations, in granules (R147). -/
def RunResult.ranges (r : RunResult) : List (Nat × Nat) := r.writes.filterMap granRange

/-- Entries of one owner for its ranges, at every target that they touch (R148). -/
def State.entriesFor (s : State) (o : FOwner) (rs : List (Nat × Nat)) : List FEntry :=
  rs.flatMap fun r => (s.targetsOf r.1 r.2).map fun tgt =>
    { owner := o, tgt := tgt, lo := r.1, hi := r.2, ord := 0, installed := false, released := false, left := none }

/-- The one scratchpad that all ranges lie in, if they do (R148). -/
def oneScratch (rs : List (Nat × Nat)) : Option Nat :=
  match rs.map (fun r => match placeOf (64 * r.1) with | .scratch b _ => some b | _ => none) with
  | some b :: l => if l.all (· == some b) then some b else none
  | _ => none

/-- Arms the ranges of a run: straight to one scratchpad's filter, else through the commit sequencer (R148). -/
def State.arm (s : State) (o : FOwner) (rs : List (Nat × Nat)) : State :=
  if rs.isEmpty then s
  else if (oneScratch rs).isSome then { s with filters := s.filters ++ s.entriesFor o rs }
  else { s with seqQ := s.seqQ ++ [{ owner := o, ranges := rs }] }

/-- COMMIT_POINT (R145-R148, R177, R179): every element has been released and checked, every result is in the half, the
other half does not drain, and the senders have committed. TAKEN goes upstream. -/
def execCommitPoint (b : BoughId) (h : Fin 2) (s : State) : Out :=
  let y := s.bough b
  let x := y.halves[h]
  let rs := s.evalRun b h
  if x.st == .filling && y.isOldest h && y.halves[otherHalf h].st != .draining && (firstStop rs).isNone &&
      x.broke.isNone && (s.runIdle b h || x.recvs.all (·.committed)) then
    let res := s.runResult b h rs
    let s := s.spend ((s.boughPlot b.val).map (·.plot)) (s.pipeUnits b x)
    let s := s.modBough b fun y => absorbTagsOf { y with halves := vset y.halves h { x with st := .arming, result := some res, ranges := res.ranges, tags := [], chunks := [] } } x
    let s := x.recvs.foldl (fun s r => if r.cut then s else s.takeEpoch r.link r.epoch) s
    .next (s.arm (.half b h) res.ranges)
  else .next s

/-! ### Arming (R148, R149) -/

/-- ARM_REQUEST_ACCEPT (R148, R299): the commit sequencer accepts the n-th waiting request and delivers its entries. DESIGN CHOICE: log entry 27. -/
def execArmRequestAccept (n : Nat) (s : State) : Out :=
  match s.seqQ[n]? with
  | none => .next s
  | some q => .next { s with seqQ := s.seqQ.eraseIdx n, filters := s.filters ++ s.entriesFor q.owner q.ranges }

/-- Installs the first entry at a target that is not installed. -/
def installFirst (tgt : Target) : List FEntry → List FEntry
  | [] => []
  | e :: es => if e.tgt == tgt && !e.installed then { e with installed := true } :: es else e :: installFirst tgt es

/-- Entries that a target's filter holds. -/
def State.filterCount (s : State) (tgt : Target) : Nat := (s.filters.filter fun e => e.tgt == tgt && e.installed).length

/-- FILTER_INSTALL (R148, R149, R308): the oldest entry delivered to the target is installed; a scratchpad filter holds 16.
A host write to a scratchpad becomes visible at this instant. DEDUCED: log entry 25. -/
def execFilterInstall (tgt : Target) (s : State) : Out :=
  match s.filters.find? fun e => e.tgt == tgt && !e.installed with
  | none => .next s
  | some e =>
    if (match tgt with | .scratch _ => decide (16 ≤ s.filterCount tgt) | .slice _ => false) then .next s
    else
      let s := { s with filters := installFirst tgt s.filters }
      match e.owner with
      | .half _ _ => .next s
      | .txn id =>
        match s.txns.find? fun t => t.id = id && t.scratch.isSome with
        | some t => .next (s.storeBytes t.bytes)
        | none => .next s

/-! ### The commit instant (R148, R150, R163) -/

/-- Writes of one element into a vector register (R74). -/
def setElem (v : BitVec 8192) (w i x : Nat) : BitVec 8192 :=
  (v &&& ~~~(BitVec.ofNat 8192 ((2 ^ w - 1) * 2 ^ (w * i)))) ||| BitVec.ofNat 8192 (x % 2 ^ w * 2 ^ (w * i))

/-- Writes bits 0 to vl - 1 of a mask register (R75). -/
def setMask (m : BitVec 16384) (vl bits : Nat) : BitVec 16384 := BitVec.ofNat 16384 (m.toNat / 2 ^ vl * 2 ^ vl + bits % 2 ^ vl)

/-- Registers, masks, the scalar, VL and the flags take effect (R145, R148). -/
def Bough.applyResult (y : Bough) (r : RunResult) : Bough :=
  let v := r.vregs.foldl (fun v x => vmod v x.1 fun old => setElem old x.2.1 x.2.2.1 x.2.2.2) y.v
  let m := r.masks.foldl (fun m x => match finOf? 3 (x.1.val - 1) with
    | some k => vmod m k fun old => setMask old x.2.1 x.2.2
    | none => m) y.m
  let w := match r.scalar with
    | some (g, x) => y.twig.setReg g x
    | none => y.twig
  { y with v := v, m := m, twig := { w with vcsr := vcsrMerge w.vcsr r.flags, vl := r.newVl.getD w.vl } }

/-- Queue positions take effect (R67); appended words of another grove's queue cross the uplink (R52). -/
def State.applyQueues (s : State) (b : BoughId) (r : RunResult) : State :=
  let s := r.qapps.foldl (fun s x => s.countQueue (groveOf b) x.1 x.2.length) s
  let s := r.qreads.foldl (fun s x => s.modQueue x.1 fun q => { q with cons := q.cons.map fun o => { o with pos := o.pos + x.2 } }) s
  r.qapps.foldl (fun s x => s.modQueue x.1 fun q =>
    { q with prod := q.prod.map fun o => { o with words := o.words ++ x.2.map fun w => qword w false } }) s

/-- The epochs of the run are whole and committed: END and COMMIT follow the words (R174). -/
def State.commitSends (s : State) (xs : List (SendSt × (Nat × Nat × List Word))) : State :=
  xs.foldl (fun s x =>
    (s.modLink x.1.link fun l => { l with tx := l.tx.map fun t => if t.ep = x.1.epoch then
      { t with words := x.2.2.2.map fun w => (w, false), len := some x.2.2.1, committed := true } else t }).pumpTokens x.1.link) s

/-- Demanded granules go ahead of the rest of the drain order (R151, R154). -/
def demandFirst (gs drain : List Nat) : List Nat := (drain.filter fun g => gs.contains g) ++ drain.filter fun g => !gs.contains g

/-- The granules that a half drains: the final destination, then the taps, each ascending (R154). -/
def RunResult.granules (r : RunResult) : List Nat := r.writes.flatMap granulesOf

/-- COMMIT_INSTANT (R145, R147, R148, R150, R163): every write and every staged result of the armed run takes effect. Bytes
that a younger committed entry has written stay as that entry left them. -/
def execCommitInstant (b : BoughId) (s : State) : Out :=
  match [0, 1].find? fun h => (s.half b h).st == .arming with
  | none => .next s
  | some h =>
    let x := s.half b h
    match x.result with
    | none => .next s
    | some r =>
      let o := FOwner.half b h
      if s.seqQ.any (fun q => q.owner == o) || s.filters.any (fun e => e.owner == o && !e.installed) then .next s
      else
        let later := ((youngerOwners o s.filters).flatMap s.ownerBytes)
        let s := r.writes.foldl (fun s w => s.storeBytes (w.filter fun c => !later.contains c.1)) s
        let s := r.granules.foldl (fun s g => match placeOf (64 * g) with
          | .scratch d _ => s.meterScratch b (boughId d) 1
          | _ => s.meterWrite ((s.boughPlot b.val).map (·.plot)) 1) s
        let wanted := (s.heldReads.filter fun q => s.filters.any fun e => e.owner == o && e.tgt == q.tgt).map fun q => q.req.addr / 64
        let s := s.modBough b fun y => { y with halves := vset y.halves h { x with st := .draining, drain := demandFirst wanted r.granules } }
        let s := (s.modBough b fun y => y.applyResult r).applyQueues b r
        .next ((s.commitSends (x.sends.zip r.chains)).tryFree b h)

/-! ### Drain and retire (R150, R154) -/

/-- The first drain write that its target accepts, with what stays. A write that an older entry holds waits at the target, in one of its hold
places, and those behind it go on (R150, R302). DESIGN CHOICE: log entry 165. -/
def State.nextDrain (s : State) (o : FOwner) : List Nat → List Nat → Option (Nat × Target × List Nat)
  | _, [] => none
  | held, g :: gs =>
    match s.filterTarget (64 * g) with
    | none => none
    | some tgt =>
      if olderBlocks o tgt g s.filters then (if (held.filter fun h => s.filterTarget (64 * h) == some tgt).length < targetPlaces tgt then s.nextDrain o (held ++ [g]) gs else none)
      else if match tgt with | .slice k => s.stageFull k (64 * g) | .scratch _ => false then none
      else some (g, tgt, held ++ gs)

/-- DRAIN_WRITE_ACCEPT (R52, R150, R154, R271, R272): the next drain write of a half is accepted, in a slice as a burst with a commit mark
that holds a place of the stage until its target is written; after the last one the half is FREE. -/
def execDrainWriteAccept (b : BoughId) (h : Fin 2) (s : State) : Out :=
  let x := s.half b h
  match if x.st == .draining then s.nextDrain (.half b h) [] x.drain else none with
  | none => .next s
  | some (g, tgt, rest) =>
    let s : State := match tgt with
      | .slice k =>
        let bytes : List (Nat × Byte) := (((x.result.map RunResult.writes).getD []).flatten).filter fun c => c.1 / 64 = g
        (s.modSlice k fun q =>
          { q with wr := q.wr + 1, writing := q.writing ++ [{ txn := 0, who := .journal b, plot := none, slice := k, bytes := bytes, bad := [], mark := true }] }).countLeave
            (groveOf b) (64 * g)
      | .scratch _ => s.countLeave (groveOf b) (64 * g)
    .next ((s.setHalf b h { x with drain := rest }).tryFree b h)

/-- Removes the n-th released entry at a target. -/
def retireNth (tgt : Target) : Nat → List FEntry → List FEntry
  | _, [] => []
  | n, e :: es =>
    if e.tgt == tgt && e.released then (match n with | 0 => es | n + 1 => e :: retireNth tgt n es) else e :: retireNth tgt n es

/-- ENTRY_RELEASE (R154): a release reaches the target, and the entry retires. -/
def execEntryRelease (tgt : Target) (n : Nat) (s : State) : Out := .next { s with filters := retireNth tgt n s.filters }

/-! ### Reads that meet an entry (R151, R302) -/

/-- Reads that a target holds. -/
def State.heldAt (s : State) (tgt : Target) : List HeldRead := s.heldReads.filter fun x => x.tgt == tgt

/-- The owners of the entries that cover a granule are asked for it: it goes ahead in the drain of a half that is DRAINING; one that is ARMING
answers after its commit instant (R151). -/
def State.demand (s : State) (tgt : Target) (g : Nat) : State :=
  s.filters.foldl (fun s e =>
    if e.tgt == tgt && e.installed && decide (e.lo ≤ g) && decide (g ≤ e.hi) then
      match e.owner with
      | .half b h => s.modHalf b h fun x => if x.st == .draining then { x with drain := demandFirst [g] x.drain } else x
      | .txn _ => s
    else s) s

/-- A read goes to the hold store of its target, behind what came before it. -/
def State.holdRead (s : State) (tgt : Target) (r : ReadReq) : State :=
  let d := s.newId
  State.demand { d.2 with heldReads := s.heldReads ++ [{ tgt := tgt, req := r, ord := d.1 }] } tgt (r.addr / 64)

/-- FILTER_HIT_DEMAND (R151, R269, R302): the read at the head of a slice's input, or the n-th read at a scratchpad, hits an entry, or comes
behind a held write to its granule: it is held, and the owner is asked for the granule. -/
def execFilterHitDemand (tgt : Target) (n : Nat) (s : State) : Out :=
  match tgt with
  | .slice k =>
    match s.slices[k].inbox with
    | .read r :: rest =>
      if (s.entryCovers tgt r.addr || s.writeHeldAt tgt r.addr s.nextId) && decide ((s.heldAt tgt).length < 64) then
        .next ((s.modSlice k fun x => { x with inbox := rest }).holdRead tgt r)
      else .next s
    | _ => .next s
  | .scratch d =>
    match s.scr[d].inbox[n]? with
    | some r =>
      if s.entryCovers tgt r.addr && s.scratchInOrder d r && decide ((s.heldAt tgt).length < 16) then
        .next ((s.modScr d fun x => { x with inbox := x.inbox.eraseIdx n }).holdRead tgt r)
      else .next s
    | none => .next s

/-- Every entry that covers a granule belongs to a bough whose half drains: the read is served with its bytes (R151). -/
def State.entriesServe (s : State) (tgt : Target) (a : Nat) : Bool :=
  s.filters.all fun e => !(e.tgt == tgt && e.installed && decide (e.lo ≤ a / 64) && decide (a / 64 ≤ e.hi)) ||
    match e.owner with
    | .half b h => (s.half b h).st == .draining || e.released
    | .txn _ => false

/-- Removes the n-th read held at a target. -/
def dropHeld (tgt : Target) : Nat → List HeldRead → List HeldRead
  | _, [] => []
  | n, x :: xs => if x.tgt == tgt then (match n with | 0 => xs | n + 1 => x :: dropHeld tgt n xs) else x :: dropHeld tgt n xs

/-- DEMAND_ANSWER (R151): the owner has sent the granule, or it has drained: the n-th read held at the target is served. -/
def execDemandAnswer (tgt : Target) (n : Nat) (s : State) : Out :=
  match (s.heldAt tgt)[n]? with
  | none => .next s
  | some x =>
    if s.entriesServe tgt x.req.addr && !s.writeHeldAt tgt x.req.addr x.ord then
      let s := { s with heldReads := dropHeld tgt n s.heldReads }
      let s := match tgt with
        | .slice k => s.modSlice k fun q => { q with rd := q.rd + 1 }
        | .scratch _ => s
      let p := s.performRead x.req
      .next (p.1.respond x.req p.2)
    else .next s

/-! ### Vector faults (R94, R95, R158, R159) -/

/-- A parity failure of the queue word that a fault names (R351, R352). DEDUCED: log entry 24. -/
def State.queueFaultParity (s : State) (addr : Word) : State :=
  if !addr.getLsbD 63 then s
  else
    let q : QueueId := ⟨fieldAt addr 0 10, Nat.mod_lt _ (by decide)⟩
    match s.queues[q].cons with
    | none => s
    | some o =>
      let i := fieldAt addr 10 40
      match o.pkt.words[i]? with
      | some w => if w.parity != parityOf w.w then s.parityFail q (s.storeSlot q o i) false else s
      | none => s

/-- VECTOR_FAULT_TAKEN (R94, R95, R158): the fault at the lowest recorded index, once every element below it has passed
and every earlier instruction has committed; a link break that waited for that commit is one of them. DEDUCED: log entries 24, 162. -/
def execVectorFaultTaken (b : BoughId) (h : Fin 2) (s : State) : Out :=
  let y := s.bough b
  let x := y.halves[h]
  if x.st == .filling && y.isOldest h then
    match firstStop (s.evalRun b h), x.broke with
    | some (i, .fault _ c addr), none => .next ((s.queueFaultParity addr).takeVFault b h c i addr)
    | some (i, .fault _ c addr), some (j, w) =>
      .next (if i < j then (s.queueFaultParity addr).takeVFault b h c i addr else s.takeVFault b h .chainBreak j w)
    | _, some (j, w) => .next (s.takeVFault b h .chainBreak j w)
    | _, none => .next s
  else .next s

end Sys2Proof.Machine
end

