-- ==== Sys2Proof/Machine/Chain.lean ====
section
/-! DEFINITION. Chain links (chapter 07): transfers and tokens, credits, custody, abort and replay, breaks and rearming.
On a link inside the device a command takes the oldest message on the link; on a graft segment it brings the message that
a flit carries. -/

namespace Sys2Proof.Machine

/-! ### Sending -/

/-- The chain-out members of a run on link i, in member order. -/
def State.outMembers (s : State) (b : BoughId) (run : List QEntry) (i : Nat) : List Nat :=
  (List.range run.length).filter fun m => match (run[m]?).bind fun e => e.dst.desc? with
    | some d => d.isChainOut && s.linkOut b.val d.link == some i
    | none => false

/-- The words that the run of half h has complete for its epochs on link i (R174). -/
def State.readyWords (s : State) (b : BoughId) (h : Fin 2) (i : Nat) : List (BitVec 16 × List Word) :=
  let x := s.half b h
  if x.st == .filling then
    let rs := s.evalRun b h
    ((x.sends.filter fun y => y.link = i).zip (s.outMembers b x.run i)).filterMap fun p =>
      match x.run[p.2]?, rs[p.2]? with
      | some e, some r => some (p.1.epoch, knownWords e r)
      | _, _ => none
  else []

/-- Brings the words that can be sent up to date: from the journal halves of the sending bough, or from what a pass-through
relay holds. -/
def State.refreshTx (s : State) (i : Nat) : State :=
  match s.links[i]? with
  | none => s
  | some l =>
    if l.fromGraft then
      let f (e : RxEpoch) : TxEpoch :=
        match l.tx.find? (fun t => t.ep = e.ep) with
        | some t => { t with words := e.words, len := e.endLen, committed := e.committed }
        | none => { ep := e.ep, words := e.words, len := e.endLen, sent := 0, ended := false, committed := e.committed, commitSent := false }
      s.modLink i fun l => { l with tx := l.relay.map f }
    else
      let b := boughId l.srcBough
      let ws := s.readyWords b 0 i ++ s.readyWords b 1 i
      let f (t : TxEpoch) : TxEpoch :=
        match ws.find? (fun w => w.1 = t.ep) with
        | some w => { t with words := w.2.map fun x => (x, false) }
        | none => t
      s.modLink i fun l => { l with tx := l.tx.map f }

/-- Records how much of an epoch a half has sent. -/
def State.countSent (s : State) (i : Nat) (ep : BitVec 16) (sent : Nat) (ended : Bool) : State :=
  match s.links[i]? with
  | none => s
  | some l =>
    if l.fromGraft then s
    else
      let f (x : Half) : Half :=
        { x with sends := x.sends.map fun y => if y.link = i && y.epoch == ep then { y with sent := sent, ended := ended } else y }
      s.modBough (boughId l.srcBough) fun y => { y with halves := vmod (vmod y.halves 0 f) 1 f }

/-- The canopy port of the sending bough holds new transfers while it absorbs (R31, R158, R176). -/
def State.sendHeld (s : State) (l : Link) : Bool := !l.fromGraft && (s.bough (boughId l.srcBough)).absorbing

/-- CHAIN_TRANSFER_SEND (R174-R176, R185, R186): the next transfer of up to 8 words leaves when it is ready and covered by
credits; END and COMMIT follow the last word. -/
def execChainTransferSend (l : Nat) (s : State) : Out :=
  let s1 := s.refreshTx l
  match s1.links[l]? with
  | none => .next s
  | some x =>
    if x.broken || s.sendHeld x || (x.fromGraft && !x.toGraft) then .next s
    else
      match x.tx.find? fun t => !t.ended with
      | none => .next s
      | some t =>
        let ws := (t.words.drop t.sent).take 8
        if ws.isEmpty then .next (s1.pumpTokens l)
        else if x.credits < ws.length then .next s
        else
          let sent := t.sent + ws.length
          let s := s1.modLink l fun x =>
            { x with credits := x.credits - ws.length, tx := x.tx.map fun u => if u.ep = t.ep then { u with sent := sent } else u }
          let ended := match t.len with
            | some n => decide (epochWords n ≤ sent)
            | none => false
          .next (((s.sendDown l (.data t.ep t.sent ws)).countSent l t.ep sent ended).pumpTokens l)

/-! ### Receiving -/

/-- The full number of an epoch whose low 8 bits a transfer carries (R174), nearest to `ref`. -/
def fullEpoch (ref : BitVec 16) (lo : BitVec 8) : BitVec 16 :=
  let d := (lo - ref.truncate 8).toNat
  if d < 128 then ref + BitVec.ofNat 16 d else ref + BitVec.ofNat 16 d - 256

/-- Epoch `ep` has been taken or aborted: its words and tokens are dropped. -/
def Link.past (l : Link) (ep : BitVec 16) : Bool := decide (0x8000 ≤ (ep - l.expect).toNat) || l.dead.contains ep

/-- A link's receiving side: the relay of an entering link, the chain buffer of any other. -/
def Link.rx (l : Link) : List RxEpoch := if l.fromGraft then l.relay else l.eps

/-- Changes what the receiving side has of epoch `ep`; an epoch that is past is dropped. -/
def Link.modEp (l : Link) (ep : BitVec 16) (f : RxEpoch → RxEpoch) : Link :=
  if l.past ep then { l with arriving := ep }
  else if l.fromGraft then { l with arriving := ep, relay := modRx ep f l.relay }
  else { l with arriving := ep, eps := modRx ep f l.eps }

/-- A relay takes custody of an epoch that it holds whole (R186). -/
def State.takeCustody (s : State) (i : Nat) (ep : BitVec 16) : State :=
  match s.links[i]? with
  | none => s
  | some l =>
    match findRx ep l.relay with
    | some e =>
      if !e.custody && e.committed && (match e.endLen with | some n => decide (epochWords n ≤ e.words.length) | none => false) then
        (s.modLink i fun l => { l with relay := modRx ep (fun e => { e with custody := true }) l.relay }).sendUp i (.taken ep)
      else s
    | none => s

/-- After an arrival: custody at a relay; tokens that a pass-through relay can forward (R186); words and tokens to the chain buffer and the
receiving runs. -/
def State.afterArrival (s : State) (i : Nat) (ep : BitVec 16) : State :=
  let s := (s.takeCustody i ep).settleRx i
  match s.links[i]? with
  | some l => if l.fromGraft && l.toGraft then (s.refreshTx i).pumpTokens i else s
  | none => s

/-- Words arrive (R174, R175, R177, R182): they join their epoch in order; in sink state, and for an epoch that is past, they
are discarded and their credits return. -/
def State.arriveData (s : State) (i : Nat) (ep : BitVec 16) (off : Nat) (ws : List (Word × Bool)) : State :=
  match s.links[i]? with
  | none => s
  | some l =>
    let s := s.modLink i fun l => l.modEp ep id
    let s := if l.fromGraft && !l.toGraft then s.meter (some l.plot) fun c => { c with graft := c.graft + 8 * ws.length } else s
    let e := (findRx ep l.rx).getD (RxEpoch.start ep)
    if l.past ep || (l.sink && !l.fromGraft) || off != e.base + e.words.length + e.cut then s.giveCredit i ws.length
    else (s.modLink i fun l => l.modEp ep fun e => { e with words := e.words ++ ws }).afterArrival i ep

def State.arriveEnd (s : State) (i : Nat) (ep : BitVec 16) (len : Nat) : State :=
  (s.modLink i fun l => l.modEp ep fun e => { e with endLen := some len }).afterArrival i ep

def State.arriveCommit (s : State) (i : Nat) (ep : BitVec 16) : State :=
  (s.modLink i fun l => l.modEp ep fun e => { e with committed := true }).afterArrival i ep

/-- A receiving run whose sender aborts goes back to the issue queue with every later run, and asks its other senders to
replay (R180, R181). DEDUCED: log entry 26. -/
def State.restartRun (s : State) (i : Nat) (b : BoughId) (h : Fin 2) (ep : BitVec 16) : State :=
  let x := s.half b h
  if x.st == .filling && x.recvs.any (fun r => r.link = i && r.epoch == ep) then
    let laters := (s.bough b).fillingRuns.filter fun y => decide (x.ord < y.ord)
    let later := laters.flatMap (·.run)
    let others := (((x.recvs.filter fun r => r.link ≠ i).map (·.link)) ++ laters.flatMap (·.inLinks)).eraseDups
    let s := s.discardFrom b x.ord
    let s := s.modBough b fun y =>
      { y with iq := x.run.map (fun e => { e with again := false }) ++ later.map (fun e => { e with again := true }) ++ y.iq }
    others.foldl (fun s i => match s.links[i]? with
      | some l => s.replayLink i l.expect
      | none => s) s
  else s

/-- ABORT arrives (R180, R183, R186): the epoch is dropped and its credits return; a relay forwards it. -/
def State.arriveAbort (s : State) (i : Nat) (ep : BitVec 16) : State :=
  match s.links[i]? with
  | none => s
  | some l =>
    if l.past ep then s
    else
      let s := (s.dropEpoch i ep).modLink i fun l =>
        let l := { l with tx := if l.fromGraft then l.tx.filter fun t => t.ep ≠ ep else l.tx }
        if ep = l.expect then l.pass ep else { l with dead := ep :: l.dead }
      let s := s.settleRx i
      if l.toGraft then s.sendDown i (.abort ep)
      else
        let b := boughId l.dstBough
        if (s.half b 0).ord ≤ (s.half b 1).ord then (s.restartRun i b 0 ep).restartRun i b 1 ep
        else (s.restartRun i b 1 ep).restartRun i b 0 ep

/-- The oldest message on a link inside the device. DEDUCED: log entry 124. -/
def State.popWire (s : State) (i : Nat) : Option (ChainMsg × State) :=
  match s.links[i]? with
  | none => none
  | some l => match l.wire with
    | m :: ms => some (m, s.modLink i fun l => { l with wire := ms })
    | [] => none

/-- What an arrival command brings: the oldest message of an inner link, if it is of the kind that `pick` accepts, or the
message that a flit carries on an entering link. DEDUCED: log entry 124. -/
def State.arrival (s : State) (i : Nat) (ep : BitVec 8) (flit : BitVec 16 → ChainMsg) (pick : ChainMsg → Bool) : Option (ChainMsg × State) :=
  match s.links[i]? with
  | none => none
  | some l =>
    if l.broken then none
    else if l.fromGraft then some (flit (fullEpoch l.expect ep), s.rxFlit l.inPort)
    else match s.popWire i with
      | some (m, s') => if pick m then some (m, s') else none
      | none => none

/-- Words of an inner transfer with the poison that the arrival found (R184). -/
def poisonedBy (ws arrived : List (Word × Bool)) : List (Word × Bool) :=
  (List.range ws.length).filterMap fun j => (ws[j]?).map fun w => (w.1, w.2 || ((arrived[j]?).map (·.2)).getD false)

/-- CHAIN_TRANSFER_ARRIVE (R174, R175, R177, R182, R184): on a link inside the device the words are those of the oldest transfer; the command
says which of them the check found uncorrectable. -/
def execChainTransferArrive (l : Nat) (ep : BitVec 8) (off : Nat) (ws : List (Word × Bool)) (s : State) : Out :=
  match s.arrival l ep (fun e => .data e off ws) (fun m => match m with | .data _ _ _ => true | _ => false) with
  | some (.data e o w, s') =>
    .next (s'.arriveData l e o (if (s.links[l]?.map Link.fromGraft).getD false then w else poisonedBy w ws))
  | _ => .next s

/-- CHAIN_END (R174, R177). -/
def execChainEnd (l : Nat) (ep : BitVec 8) (len : Nat) (s : State) : Out :=
  match s.arrival l ep (fun e => .fin e len) (fun m => match m with | .fin _ _ => true | _ => false) with
  | some (.fin e n, s) => .next (s.arriveEnd l e n)
  | _ => .next s

/-- CHAIN_COMMIT (R146, R174, R186). -/
def execChainCommit (l : Nat) (ep : BitVec 8) (s : State) : Out :=
  match s.arrival l ep (fun e => .commit e) (fun m => match m with | .commit _ => true | _ => false) with
  | some (.commit e, s) => .next (s.arriveCommit l e)
  | _ => .next s

/-- CHAIN_ABORT (R180, R183, R186). -/
def execChainAbort (l : Nat) (ep : BitVec 8) (s : State) : Out :=
  match s.arrival l ep (fun e => .abort e) (fun m => match m with | .abort _ => true | _ => false) with
  | some (.abort e, s) => .next (s.arriveAbort l e)
  | _ => .next s

/-! ### Tokens that come upstream -/

/-- What an upstream token names: the oldest one on an inner link, or the one that a flit carries on a leaving link. -/
def State.backToken (s : State) (i : Nat) (ep : BitVec 8) (replay : Bool) : Option (BitVec 16 × State) :=
  match s.links[i]? with
  | none => none
  | some l =>
    if l.broken then none
    else if l.toGraft then
      let ref := match l.tx with
        | t :: _ => t.ep
        | [] => l.nextEp
      some (fullEpoch ref ep, s.rxFlit l.outPort)
    else
      match l.back with
      | .taken e :: ms => if replay then none else some (e, s.modLink i fun l => { l with back := ms })
      | .replay e :: ms => if replay then some (e, s.modLink i fun l => { l with back := ms }) else none
      | _ => none

/-- CHAIN_TAKEN (R178, R179, R186): custody of the epoch has passed downstream: the sender's half drains no longer, and a
relay lets the epoch go. -/
def execChainTaken (l : Nat) (ep : BitVec 8) (s : State) : Out :=
  match s.backToken l ep false with
  | none => .next s
  | some (e, s) =>
    match s.links[l]? with
    | none => .next s
    | some x =>
      let s := s.modLink l fun x => { x with tx := x.tx.filter fun t => t.ep ≠ e }
      if x.fromGraft then .next (s.takeEpoch l e)
      else .next (s.custody (boughId x.srcBough) l fun y => y.epoch == e)

/-- CHAIN_REPLAY (R181, R186): the holder sends the named epoch again from byte 0, and every later one. -/
def execChainReplay (l : Nat) (ep : BitVec 8) (s : State) : Out :=
  match s.backToken l ep true with
  | none => .next s
  | some (e, s) =>
    let again (x : BitVec 16) : Bool := decide ((x - e).toNat < 0x8000)
    let s1 := s.modLink l fun x =>
      { x with tx := x.tx.map fun t => if again t.ep then { t with sent := 0, ended := false, commitSent := false } else t }
    match s1.links[l]? with
    | none => .next s
    | some x => .next (x.tx.foldl (fun s t => if again t.ep then s.countSent l t.ep 0 false else s) s1)

/-- CHAIN_CREDIT_RETURN (R175): credits of words that have left the buffer reach the sender. -/
def execChainCreditReturn (l : Nat) (n : Nat) (s : State) : Out :=
  match s.links[l]? with
  | none => .next s
  | some x =>
    if x.fromGraft || x.toGraft then .next s
    else
      let k := min n x.owed
      .next (s.modLink l fun x => { x with owed := x.owed - k, credits := x.credits + k })

/-! ### Breaks and rearming (R187-R190, R194) -/

/-- The item of a link at a graft port that it crosses is admitted (R172, R478). -/
def State.tagUp (s : State) (n : PortId) (tag : BitVec 32) (role : Nat) : Bool := s.itemUp n tag role

/-- Both graft segments of a link, where it has them, are admitted. -/
def State.segmentsUp (s : State) (l : Link) : Bool :=
  (!l.fromGraft || s.tagUp l.inPort l.tag 1) && (!l.toGraft || s.tagUp l.outPort l.tag 0)

/-- A cause of a break still persists (R187); a LINK_ERROR ends with the write to GRV_CHAIN_REARM. A regrain of the peer's plot ends with the
new admission of the tag. -/
def State.breakPersists (s : State) (l : Link) : Bool :=
  (l.causes.getLsbD 1 && !l.fromGraft && (s.bough (boughId l.srcBough)).resetting) ||
    (l.causes.getLsbD 2 && !l.toGraft && (s.bough (boughId l.dstBough)).resetting) ||
    ((l.causes.getLsbD 3 || l.causes.getLsbD 4) && !s.segmentsUp l) ||
    (l.causes.getLsbD 6 && (!(l.fromGraft || l.toGraft) || !s.segmentsUp l))

/-- A broken link that rearms without a register write: no cause persists, and none is a LINK_ERROR (R187). -/
def State.rearms (s : State) (l : Link) : Bool := l.broken && !l.causes.getLsbD 5 && !s.breakPersists l

/-- The segments of a link that a regrain of the peer replaced are admitted no more (R187, R483). -/
def State.dropSegments (s : State) (l : Link) : State :=
  let drop (n : PortId) (role : Nat) (s : State) : State :=
    s.modGraft n fun p => { p with tags := p.tags.filter fun t => !(t.1 == l.tag && t.2 == role) }
  let s := if l.fromGraft then drop l.inPort 1 s else s
  if l.toGraft then drop l.outPort 0 s else s

/-- LINK_BREAK (R187, R188): the link breaks for the cause of a code of the table. -/
def execLinkBreak (l : Nat) (code : BitVec 4) (s : State) : Out :=
  .next (if 1 ≤ code.toNat ∧ code.toNat ≤ 6 then
      match s.links[l]? with
      | some x => (if code = 6 then s.dropSegments x else s).breakLink l code
      | none => s
    else s)

/-- REARM (R190, R194): each bit rearms the broken link of a chain buffer whose cause is gone. -/
def execRearm (g : GroveId) (bits : BitVec 32) (s : State) : Out :=
  .next ((List.range s.links.length).foldl (fun s i => match s.links[i]? with
    | some l => match l.buf with
      | some n => if l.bufGrove = g && bits.getLsbD n && l.broken && !s.breakPersists l then s.rearmLink i else s
      | none => s
    | none => s) s)

end Sys2Proof.Machine
end

