-- ==== Sys2Proof/Machine/BoughEvents.lean ====
section
/-! DEFINITION. Trap entry and the timer latch (chapter 09), bough reset and freeze (R41, R42), PORT_CLEAN (R305) and
program-store fills (R45, R234). -/

namespace Sys2Proof.Machine

/-- TRAP_ENTRY (R244, R253, R254, R256): the trap that is due at the twig's boundary is taken, once its port can write
the TSB. DESIGN CHOICE: log entry 13. -/
def execTrapEntry (t : TwigId) (s : State) : Out :=
  match if s.codeRuns t && (s.twig t).run == .running && !s.tsbHeld t then s.trapDue t else none with
  | some k => .next (s.takeTrap t k)
  | none => .next s

/-- The timer period of a bough's plot in the active image; 0 never latches. -/
def State.timerPeriod (s : State) (b : Nat) : Nat := ((s.boughPlot b).map (·.timer)).getD 0

/-- TIMER_LATCH (R252): at a ring tick that is a multiple of the plot's timer period the latch is set; it holds one period. -/
def execTimerLatch (s : State) : Out :=
  .next { s with boughs := s.boughs.mapFinIdx fun i y _ =>
    let n := s.timerPeriod i
    if n ≠ 0 ∧ s.ring.tick.toNat % n = 0 then { y with twig := { y.twig with timerLatch := true } } else y }

/-! ### Bough reset and freeze (R41, R42, R241) -/

/-- BOUGH_RESET (R41, R53): a write of BGH_CTRL.RESET. -/
def execBoughReset (b : BoughId) (s : State) : Out :=
  if (s.bough b).resetting then .next s else .next (s.beginBoughReset b)

/-- How the twig of a bough goes on after its reset: with its plot, and not before a plot reset or a change of the image is
complete (R241, R375, R383). -/
def State.runAfterReset (s : State) (b : BoughId) : TwigRun :=
  match s.boughPlot b.val with
  | none => .stopped
  | some m => match s.plots[plotId m.plot].st with
    | .running | .parking => .running
    | .parked => .held
    | _ => .stopped

/-- Rearms the links of bough b whose break has no cause left (R187, R190). -/
def State.rearmAfterReset (s : State) (b : BoughId) : State :=
  (List.range s.links.length).foldl (fun s i => match s.links[i]? with
    | some l =>
      if ((!l.fromGraft && l.srcBough == b.val) || (!l.toGraft && l.dstBough == b.val)) && s.rearms l then s.rearmLink i else s
    | none => s) s

/-- A bough's reset ends: cleared state, absorb state left, links rearmed unless its plot is under reset (R41, R383). DEDUCED: log entry 143. -/
def State.endBoughReset (s : State) (b : BoughId) : State :=
  let run := s.runAfterReset b
  let s := s.modBough b fun y => y.cleared run
  match (s.boughPlot b.val).map fun m => s.plots[plotId m.plot].st with
  | some .resetting | some .regraining => s
  | _ => s.rearmAfterReset b

/-- BOUGH_RESET_COMPLETE (R41, R54, R305): the last drain write and the last outstanding return are in. -/
def execBoughResetComplete (b : BoughId) (s : State) : Out :=
  if (s.bough b).resetting && s.boughClean b then .next (s.endBoughReset b) else .next s

/-- FREEZE (R42, R53): a crown write of BGH_CTRL.FREEZE. -/
def execFreeze (b : BoughId) (on : Bool) (s : State) : Out := .next (s.modBough b fun y => { y with freeze := on })

/-! ### PORT_CLEAN (R305) -/

/-- A read of a requester that satisfies `p` is outstanding. -/
def State.readsOut (s : State) (p : Requester → Bool) : Bool :=
  (s.slices.toList.any fun k => (k.queue.any fun q => p q.req.who) || k.inbox.any fun m => match m with
    | .read r => p r.who
    | .beat _ => false) ||
    (s.scr.toList.any fun x => x.inbox.any fun r => p r.who) || s.heldReads.any fun h => p h.req.who

/-- A write of a master that satisfies `p` is on its way, staged or held. -/
def State.writesOut (s : State) (p : Writer → Bool) : Bool :=
  (s.slices.toList.any fun k => (k.staging.any fun b => p b.who) || k.inbox.any fun m => match m with
    | .beat b => p b.who
    | .read _ => false) ||
    (s.heldWrites.any fun h => p h.burst.who) || s.txns.any fun t => p t.who

/-- The reads of host port n, of one virtual function or of all functions. -/
def State.hostReadsOut (s : State) (n : PortId) (p : HostFn → Bool) : Bool :=
  s.readsOut fun w => match w with
    | .host m tag _ => m == n && s.ports[n].reads.any fun r => r.tag = tag && p r.fn
    | _ => false

/-- A write transaction that satisfies `p` is not done, or an entry of one is still installed (R305). -/
def State.txnsOut (s : State) (p : Writer → Option HostFn → Bool) : Bool :=
  (s.txns.any fun t => p t.who t.fn) || s.filters.any fun e => e.left.any fun w => p w.1 w.2

/-- A master's port holds no outstanding read, no staged or armed write and no installed entry. -/
def State.masterClean (s : State) : Master → Bool
  | .bough b => s.boughClean b
  | .host n =>
    if s.cnp.pfAbsorb.getLsbD n.val && !s.cnp.hostAbsorb.getLsbD n.val then
      !s.hostReadsOut n (· == HostFn.pf n) && !s.txnsOut fun _ fn => fn == some (HostFn.pf n)
    else !s.hostReadsOut n (fun _ => true) && !s.writesOut (· == .host n) && !s.txnsOut fun w _ => w == .host n
  | .vf v => !s.hostReadsOut (vfPort s.grn.split v) (· == HostFn.vf v) && !s.txnsOut fun _ fn => fn == some (HostFn.vf v)
  | .graft _ => true
  | .crown k =>
    let its : Writer → Bool := fun w => match w with
      | .twig t _ => t == .crown k
      | _ => false
    !s.readsOut (· == .twig (.crown k)) && !s.writesOut its && !s.txnsOut fun w _ => its w

/-- Clears bit n. -/
def dropBit {w : Nat} (x : BitVec w) (n : Nat) : BitVec w := x &&& ~~~(BitVec.ofNat w (2 ^ n))
/-- Sets bit n. -/
def withBit {w : Nat} (x : BitVec w) (n : Nat) : BitVec w := x ||| BitVec.ofNat w (2 ^ n)

/-- A restarted crown core begins at word 0x000 (R527). -/
def State.startCore (s : State) (k : CoreId) : State :=
  { s with cnp := { s.cnp with crownAbsorb := dropBit s.cnp.crownAbsorb k.val },
           crn := { s.crn with cores := vset s.crn.cores k (Twig.start .running), haltBits := dropBit s.crn.haltBits k.val,
                               restartBits := dropBit s.crn.restartBits k.val } }

/-- Leaves absorb state. The reads that were absorbed are forgotten. -/
def State.leaveAbsorb (s : State) : Master → State
  | .bough b => (s.modBough b fun y => { y with absorbing := y.resetting }).issueStore (.bough b)
  | .host n => { s with cnp := { s.cnp with hostAbsorb := dropBit s.cnp.hostAbsorb n.val, pfAbsorb := dropBit s.cnp.pfAbsorb n.val } }.modPort n fun p =>
      { p with reads := p.reads.filter fun r => !r.absorb }
  | .vf v => { s with cnp := { s.cnp with vfAbsorb := dropBit s.cnp.vfAbsorb v.val } }.modPort (vfPort s.grn.split v) fun p =>
      { p with reads := p.reads.filter fun r => !(r.absorb && r.fn == HostFn.vf v) }
  | .graft n => { s with cnp := { s.cnp with graftAbsorb := dropBit s.cnp.graftAbsorb n.val } }
  | .crown k =>
    if s.crn.restartBits.getLsbD k.val then s.startCore k else { s with cnp := { s.cnp with crownAbsorb := dropBit s.cnp.crownAbsorb k.val } }

/-- PORT_CLEAN (R158, R305): a port in absorb state with nothing outstanding takes its master's new requests. DESIGN CHOICE: log entry 16. -/
def State.portCleanAt (s : State) (m : Master) : State := if s.masterClean m then s.leaveAbsorb m else s

/-! ### Program-store fills (R45, R231, R234) -/

/-- The first and the last line of the words that a twig may fetch. -/
def State.lineInRegion (s : State) (t : TwigId) (line : Nat) : Bool :=
  decide (0 < s.regionLen t) && decide (s.progLine t 0 ≤ line) && decide (line < s.progLine t 0 + s.regionLen t / 16)

/-- PROGRAM_STORE_FILL (R45): the line is checked, counted and recorded, and enters the twig's cache and line buffer. -/
def execProgramStoreFill (t : TwigId) (line : Nat) (s : State) : Out := .next (if s.lineInRegion t line then s.fillLine t line else s)

end Sys2Proof.Machine
end

