-- ==== Sys2Proof/Machine/Root.lean ====
section
/-! DEFINITION. Root memory (chapter 10): accepting reads and bursts, target accesses, refresh, scrub, the linear map and
test errors; and the two phases of a write that several bursts make up (R272, R306, R307). -/

namespace Sys2Proof.Machine

/-! ### Accepting requests (R262, R269, R271) -/

/-- SLICE_ACCEPT_REQUEST (R151, R262, R269): the read at the head of the trunk input is accepted and its value bound, unless
an entry holds it, or a held write to its granule that came before it. A request whose target has 16 waiting stays and is counted. -/
def execSliceAcceptRequest (k : SliceId) (s : State) : Out :=
  match s.slices[k].inbox with
  | .read r :: rest =>
    if s.entryCovers (.slice k) r.addr || s.writeHeldAt (.slice k) r.addr s.nextId || decide (256 ≤ s.queuedAt k) then .next s
    else if 16 ≤ s.waitingAt k r.addr then .next (s.modSlice k fun x => { x with wait := x.wait + 1 })
    else
      let p := s.performRead r
      .next (p.1.modSlice k fun x =>
        { x with inbox := rest, rd := x.rd + 1, queue := x.queue ++ [{ req := r, data := p.2.data, poison := p.2.poison }] })
  | _ => .next s

/-- An older installed entry covers a granule of a burst (R150, R152): every one of another owner, for a burst whose transaction has no entry
here. -/
def State.burstHeld (s : State) (b : Burst) : Bool :=
  (granulesOf b.bytes).any fun g => olderBlocks (.txn b.txn) (.slice b.slice) g s.filters

/-- Writes that slice k holds. -/
def State.heldOf (s : State) (k : SliceId) : List HeldWrite := s.heldWrites.filter fun h => h.tgt == .slice k

/-- The burst shares a granule with a read or a write that the slice holds and that came before it (R269). -/
def State.behindHeld (s : State) (b : Burst) (before : Nat) : Bool :=
  (granulesOf b.bytes).any fun g =>
    s.writeHeldAt (.slice b.slice) (64 * g) before ||
      s.heldReads.any fun h => h.tgt == .slice b.slice && decide (h.ord < before) && h.req.addr / 64 == g

/-- Removes the oldest write held by slice k. -/
def dropFirstHeld (k : SliceId) : List HeldWrite → List HeldWrite
  | [] => []
  | h :: hs => if h.tgt == .slice k then hs else h :: dropFirstHeld k hs

/-- The burst as the slice has checked it (R272, R274): bit j says that its j-th word was found uncorrectable. -/
def Burst.checked (b : Burst) (bad : BitVec 32) : Burst :=
  let ws := wordsOf b.bytes
  { b with bad := (b.bad ++ (List.range ws.length).filterMap fun j => if bad.getLsbD j then ws[j]? else none).eraseDups }

/-- A burst finds no room in the stage, or at its targets (R262, R271). -/
def State.noRoom (s : State) (b : Burst) : Bool := (granulesOf b.bytes).any fun g => s.stageFull b.slice (64 * g)

/-- WRITE_BURST_STAGE (R152, R262, R269, R271, R272): the oldest write that the slice holds and nothing before it holds any more, or else the
burst at the head of the trunk input, is staged and checked; a burst that meets an entry is held. -/
def execWriteBurstStage (c : StageCheck) (s : State) : Out :=
  let k := c.slice
  let x := s.slices[k]
  let fromInput : State := match x.inbox with
    | .beat b :: rest =>
      if s.burstHeld b || s.behindHeld b s.nextId then
        (if (s.heldOf k).length < 64 then
          let d := s.newId
          { d.2.modSlice k fun x => { x with inbox := rest } with heldWrites := s.heldWrites ++ [{ tgt := .slice k, burst := b, ord := d.1 }] }
        else s)
      else if s.noRoom b then s
      else (s.modSlice k fun x => { x with inbox := rest }).stageBurst (b.checked c.bad)
    | _ => s
  match s.heldOf k with
  | h :: _ =>
    if s.burstHeld h.burst || s.behindHeld h.burst h.ord then .next fromInput
    else if s.noRoom h.burst then .next s
    else .next ({ s with heldWrites := dropFirstHeld k s.heldWrites }.stageBurst (h.burst.checked c.bad))
  | [] => .next fromInput

/-- Every word of an access is a fresh uncorrectable error (R275). -/
def State.freshAll (s : State) (ws : List Nat) : State := ws.foldl (fun s w => s.eccRoot w .fresh false false) s

/-- The words that a check on the way to the reader finds uncorrectable are tagged (R274). -/
def tagWords (poison : List Bool) (bad : BitVec 8) : List Bool :=
  (List.range poison.length).map fun j => (poison[j]?).getD false || bad.getLsbD j

/-- TARGET_ACCESS_COMPLETE (R261, R263, R269, R270, R274, R275): the n-th queued read of the slice, the oldest to its granule, returns; numbers
above the queue name the committed bursts that wait for their targets. `parity` is how often the access had a parity error: it is retried
once, and a second one makes every word of it a fresh uncorrectable error. `bad` names the words found uncorrectable on the way to the reader.
DEDUCED: log entry 131. DESIGN CHOICE: log entry 166. -/
def execTargetAccessComplete (k : SliceId) (e : AccessEnd) (s : State) : Out :=
  let x := s.slices[k]
  match x.queue[e.n]? with
  | some q =>
    if (x.queue.take e.n).any fun p => p.req.addr / 64 = q.req.addr / 64 then .next s
    else
      let s := if e.parity = 2 then s.freshAll (wordSpan q.req.addr q.req.len) else s
      let poison := if e.parity = 2 then q.poison.map fun _ => true else tagWords q.poison e.bad
      .next ((s.modSlice k fun x => { x with queue := x.queue.eraseIdx e.n }).respond q.req
        { key := ⟨0, 0, false⟩, base := q.req.addr, data := q.data, poison := poison, fault := none })
  | none =>
    let i := e.n - x.queue.length
    let s := match x.writing[i]? with
      | some b =>
        if e.parity = 2 then (s.modMem fun m => (wordsOf b.bytes).foldl (fun m w => m.setMark w (some .fresh)) m).freshAll (wordsOf b.bytes) else s
      | none => s
    .next (s.modSlice k fun x => { x with writing := x.writing.eraseIdx i })

/-! ### Refresh, temperature, scrub (R276-R278) -/

def sliceStack (k : SliceId) : StackId := ⟨k.val / 8, by omega⟩

/-- PER_BANK_REFRESH (R263, R277, R292): in RUN and DRAIN, one refresh of a bank of a stack that is ready; `waited` intervals, at most 8, have
passed. It waits while requests wait for its target, until 8 intervals have passed. DEDUCED: log entry 127. -/
def execPerBankRefresh (k : SliceId) (p : Fin 4) (bank : Fin 16) (waited : Nat) (s : State) : Out :=
  if s.hbm[sliceStack k].state = 2 ∧ waited ≤ 8 ∧ (s.sys.mode = .run ∨ s.sys.mode = .drain) ∧
      (s.waitingFor k p.val bank.val = 0 ∨ waited = 8) then
    .next (s.modStack (sliceStack k) fun x =>
      { x with refreshes := x.refreshes + 1, postponedMax := if x.postponedMax.toNat < waited then BitVec.ofNat 8 waited else x.postponedMax })
  else .next s

/-- A granule that the scrub skips: an installed entry or a staged burst covers it (R276). -/
def State.scrubSkips (s : State) (k : SliceId) (g : Nat) : Bool :=
  s.entryCovers (.slice k) (64 * g) || (s.slices[k].staging ++ s.slices[k].writing).any fun b => (granulesOf b.bytes).contains g

/-- The scrub rewrites a word: a single-bit error corrected, a fresh uncorrectable word as stored poison (R276). -/
def Memory.scrubWord (m : Memory) (w : Nat) : Memory :=
  match m.markOf w with
  | some .single => (m.materialise w).setMark w none
  | some .fresh => (m.materialise w).setMark w (some .stored)
  | _ => m

/-- Whether the scrub of slice k comes to a target address now (R276, R290): local slice 0 goes through its 64 targets at each address in turn,
and the other slices keep within one row, 16 addresses, of it. DEDUCED: log entry 30. -/
def Stack.scrubAt (x : Stack) (k : SliceId) (t : BankAddr) : Bool :=
  if k.val % 8 = 0 then t.w == x.scrubW.toNat && 16 * t.p + t.b == x.scrubNext.toNat
  else decide (t.w / 16 ≤ x.scrubW.toNat / 16 + 1) && decide (x.scrubW.toNat / 16 ≤ t.w / 16 + 1)

/-- The scrub position of a stack after local slice 0 has passed a granule (R290). DEDUCED: log entry 30. -/
def Stack.scrubPast (x : Stack) : Stack :=
  if x.scrubNext = 63 then
    { x with scrubNext := 0, scrubW := x.scrubW + 1, scrubPasses := if x.scrubW = BitVec.ofNat 19 (2 ^ 19 - 1) then x.scrubPasses + 1 else x.scrubPasses }
  else { x with scrubNext := x.scrubNext + 1 }

/-- PATROL_SCRUB (R276, R287, R290): the next granule of slice k is read, counted and rewritten, when no request waits for its target.
DEDUCED: log entry 30. -/
def execPatrolScrub (k : SliceId) (granule : Nat) (s : State) : Out :=
  let a := 64 * granule
  if a < rootSize && s.sliceOf a == k && s.hbm[sliceStack k].state == 2 && s.scrubHours != 0 && s.hbm[sliceStack k].scrubAt k (s.bankOf a) &&
      s.waitingAt k a == 0 then
    let s1 := if s.scrubSkips k granule then s
      else (s.observe a 64 true).modMem fun m => (List.range 8).foldl (fun m i => m.scrubWord (8 * granule + i)) m
    .next (if k.val % 8 = 0 then s1.modStack (sliceStack k) Stack.scrubPast else s1)
  else .next s

/-- The 1.95 µs refresh interval is in force (R277, R285): above 85 °C, or with REFRESH_2X. -/
def State.refreshFast (s : State) (i : StackId) : Bool := s.hbm[i].state != 0 && (decide (85 < s.hbm[i].temp.toNat) || s.refresh2x)

/-- STACK_TEMP_READ (R278, R285, R286): the temperature, its peak, and HOT with its one notice. -/
def execStackTempRead (i : StackId) (temp : BitVec 8) (s : State) : Out :=
  let x := s.hbm[i]
  if x.state = 0 then .next s
  else
    let hot := decide (95 ≤ temp.toNat)
    let rise := hot && !x.hot
    let s := s.modStack i fun x =>
      { x with temp := temp, tempMax := if x.tempMax.toNat < temp.toNat then temp else x.tempMax, hot := hot,
               hotSeen := x.hotSeen || rise }
    .next (if rise then s.notice x.hotSeen "ROOT_STACK_STATUS" else s)

/-! ### The linear map (R268) -/

/-- Every slice is idle: no queued request, staged burst, held access or installed entry. -/
def State.slicesIdle (s : State) : Bool :=
  (s.slices.toList.all fun x => x.queue.isEmpty && x.staging.isEmpty && x.writing.isEmpty) &&
    (s.heldReads.all fun h => match h.tgt with | .slice _ => false | .scratch _ => true) &&
    (s.heldWrites.all fun h => match h.tgt with | .slice _ => false | .scratch _ => true) &&
    s.filters.all fun e => match e.tgt with | .slice _ => !e.installed | .scratch _ => true

/-- The DPA at which a byte of root memory appears after the map changes: the stored bits stay where they are. DEDUCED: log entry 128. -/
def moveAddr (lin : Bool) (a : Nat) : Nat :=
  if a < rootSize then (if lin then linearUnmap (skewFold (a / 64)) else skewUnfold (linearMap (a / 64))) * 64 + a % 64 else a

/-- The contents of memory under the other map. What no cell lists in a region that is not zeroed is free again. DEDUCED: log entry 128. -/
def Memory.remap (m : Memory) (lin : Bool) : Memory :=
  let base : Memory := { m with cells := [], marks := [], epoch := m.epoch + 1 }
  let m1 := m.cells.foldl (fun (acc : Memory) c => acc.put (moveAddr lin c.1) c.2) base
  m.marks.foldl (fun (acc : Memory) c => acc.setMark (moveAddr lin (8 * c.1) / 8) (some c.2)) m1

def State.setMap (s : State) (lin : Bool) : State :=
  if s.linearInForce == lin then s else { s.modMem fun m => m.remap lin with linearInForce := lin }

/-- LINEAR_MAP_SWITCH (R268): SERVICE, ROOT_CFG.LINEAR and idle slices hold together. -/
def execLinearMapSwitch (s : State) : Out :=
  if s.sys.mode == .service && s.slicesIdle then .next (s.setMap s.rootLinear) else .next s

/-- INJECT_ARM (R291): ARM is set with KIND and WORD. -/
def State.injectArm (s : State) (i : StackId) (kind : BitVec 2) (word : BitVec 34) : State :=
  s.modStack i fun x => { x with injArm := true, injKind := kind, injWord := word }

def execInjectArm (i : StackId) (kind : BitVec 2) (word : BitVec 34) (s : State) : Out := .next (s.injectArm i kind word)

/-! ### Transactions over slices (R272, R306, R307) -/

def State.modTxn (s : State) (id : Nat) (f : WTxn → WTxn) : State :=
  { s with txns := s.txns.map fun t => if t.id = id then f t else t }

def State.txn? (s : State) (id : Nat) : Option WTxn := s.txns.find? fun t => t.id = id

def State.dropTxn (s : State) (id : Nat) : State :=
  let whose := (s.txn? id).map fun t => (t.who, t.fn)
  { s with txns := s.txns.filter fun t => t.id ≠ id, seqQ := s.seqQ.filter fun q => q.owner != .txn id,
           filters := s.filters.filterMap fun e => if e.owner = .txn id then (if e.installed then some { e with released := true, left := whose } else none) else some e }

/-- Sets a bit of HOST_EVENT; the first setting raises one crown notice (R485). PRESUMED: log entry 38. DEDUCED: log entry 125. -/
def State.hostEvent (s : State) (n : PortId) (bit : Nat) : State :=
  let was := s.ports[n].event.getLsbD bit
  (s.modPort n fun p => { p with event := p.event ||| BitVec.ofNat 5 (2 ^ bit) }).notice was "HOST_EVENT"

/-- An AER record: an internal error, a poisoned TLP egress or an unsupported request, uncorrectable errors of PCIe (R465). PRESUMED: log entry 38. DEDUCED: log entry 125. -/
def State.aer (s : State) (n : PortId) : State := (s.emit (.aer n true)).hostEvent n 2

/-- The plot event and the AER record of a discarded host write (R309). DEDUCED: log entry 104. -/
def State.hostFault (s : State) (n : PortId) (fn : HostFn) (c : Cause) (a : Nat) : State :=
  let s := (s.aer n).hostEvent n 4
  match fn with
  | .pf _ => s
  | .vf v => match s.vfPlot v.val with
    | none => s
    | some m =>
      let poison := c == .poison
      (if poison then s.meter (some m.plot) fun x => { x with poison := x.poison + 1 }
       else s.meter (some m.plot) fun x => { x with isolation := x.isolation + 1 }).plotEvent
        (plotId m.plot) (if poison then 7 else 6) 0xff n.val (BitVec.ofNat 64 a)

/-- Every burst of transaction `id` that slice k is to stage is in its staging buffer. -/
def State.allStaged (s : State) (id : Nat) (k : SliceId) : Bool :=
  (s.slices[k].inbox.all fun m => match m with | .beat b => b.txn ≠ id | .read _ => true) &&
    (s.heldWrites.all fun h => !(h.tgt == .slice k && h.burst.txn == id)) && s.slices[k].staging.any fun b => b.txn = id

/-- A split store of which a slice answered FAIL is discarded, and its twig takes the fault of R228 at its next boundary: the address is the
first byte of the lower half that failed. DEDUCED: log entry 168. -/
def State.storeFails (s : State) (t : TwigId) (id : Nat) (x : WTxn) : State :=
  let a := ((x.bytes.map (·.1)).find? fun a => x.failFrom.contains (s.sliceOf a)).getD x.addr
  (s.modTwig t fun w => { w with stores := w.stores.filter fun y => y.id ≠ id, badStore := w.badStore.or (some a) }).issueStore t

/-- STAGED (R306, R309): the answer of slice k. After the last one, a FAIL makes the port send DISCARD. -/
def execStaged (id : Nat) (k : SliceId) (s : State) : Out :=
  match s.txn? id with
  | none => .next s
  | some t =>
    if t.slices.contains k && !(t.okFrom ++ t.failFrom).contains k && t.decision.isNone && s.allStaged id k then
      let bad := s.slices[k].staging.any fun b => b.txn = id && !b.bad.isEmpty
      let t' := if bad then { t with failFrom := t.failFrom ++ [k] } else { t with okFrom := t.okFrom ++ [k] }
      let fin := !t'.failFrom.isEmpty && t'.slices.all fun k => (t'.okFrom ++ t'.failFrom).contains k
      let s := s.modTxn id fun _ => if fin then { t' with decision := some false, ctl := t'.slices } else t'
      if !fin then .next s
      else match t.fn, t.who with
        | some fn, _ => .next (s.hostFault (fnPort s fn) fn .poison t.addr)
        | none, .twig tw sid => .next (s.storeFails tw sid t')
        | none, _ => .next s
    else .next s

/-- PCIe order between the commits of one host port (R307): a TLP goes behind the COMMIT of every earlier one to its slice; one without Relaxed
Ordering also waits for the COMMITTED of every earlier TLP to another slice. -/
def State.orderAllows (s : State) (t : WTxn) : Bool :=
  (s.txns.takeWhile fun u => u.id ≠ t.id).all fun u =>
    !(u.who == t.who && u.fn.isSome) ||
      (if u.scratch.isNone && u.slices == t.slices && t.slices.length == 1 then u.decision.isSome
       else t.relaxed && (u.decision.isSome || !(u.slices.any fun k => t.slices.contains k)))

/-- The storing port can send COMMIT: every slice has staged its bursts, a store over several slices has its entries installed
everywhere, and PCIe order allows it (R272, R306, R307). -/
def State.commitReady (s : State) (t : WTxn) : Bool :=
  (t.slices.all fun k => t.okFrom.contains k) &&
    (t.slices.length == 1 || (!(s.seqQ.any fun q => q.owner == .txn t.id) && s.filters.all fun e => e.owner != .txn t.id || e.installed)) &&
    (t.fn.isNone || s.orderAllows t)

/-- COMMIT (R272, R306): slice k commits every burst of the transaction. -/
def execCommit (id : Nat) (k : SliceId) (s : State) : Out :=
  match s.txn? id with
  | none => .next s
  | some t =>
    let ctl := if t.decision.isNone then t.slices else t.ctl
    if t.decision == some false || !ctl.contains k || (t.decision.isNone && !s.commitReady t) then .next s
    else
      let bs := s.slices[k].staging.filter fun b => b.txn = id
      let s := s.modSlice k fun x => { x with staging := x.staging.filter fun b => b.txn ≠ id }
      let younger := (youngerOwners (.txn id) s.filters).flatMap s.ownerBytes
      let s := bs.foldl (fun s b => s.commitBurst younger b) s
      let left := ctl.filter (· ≠ k)
      let s := s.modTxn id fun t => { t with decision := some true, ctl := left }
      .next (if left.isEmpty then (match t.fn with | some fn => s.meterHost fn t.len | none => s).storeVisible t.who else s)

/-- Drops every burst of a transaction at slice k. -/
def State.dropBursts (s : State) (id : Nat) (k : SliceId) : State :=
  { s.modSlice k fun x => { x with staging := x.staging.filter fun b => b.txn ≠ id, inbox := x.inbox.filter fun m => match m with | .beat b => b.txn ≠ id | .read _ => true } with
    heldWrites := s.heldWrites.filter fun h => !(h.tgt == .slice k && h.burst.txn == id) }

/-- DISCARD (R271, R306): slice k drops every burst of the transaction. -/
def State.discardAt (s : State) (id : Nat) (k : SliceId) : State :=
  match s.txn? id with
  | none => s
  | some t =>
    if t.decision == some false && t.ctl.contains k then
      let s := (s.dropBursts id k).modTxn id fun t => { t with ctl := t.ctl.filter (· ≠ k) }
      (if (t.ctl.filter (· ≠ k)).isEmpty then s.dropTxn id else s)
    else s

/-- COMMITTED (R306): after the last one the stage entry of the port is free and its entries are released. -/
def State.committedAt (s : State) (id : Nat) (k : SliceId) : State :=
  match s.txn? id with
  | none => s
  | some t =>
    if t.decision == some true && t.slices.contains k && !t.ctl.contains k && !t.committed.contains k then
      let ks := t.committed ++ [k]
      (if t.slices.all (fun j => ks.contains j) then s.dropTxn id else s.modTxn id fun t => { t with committed := ks })
    else s

/-- The entry of a host write to a scratchpad is installed: the write is visible. -/
def State.scratchVisible (s : State) (id : Nat) : Bool := s.filters.any fun e => e.owner == .txn id && e.installed

/-- The AER record of a host write TLP that a reset discards (R309). -/
def State.discardLogged (s : State) (t : WTxn) : State :=
  match t.fn, t.who with
  | some _, .host n => (s.aer n).hostEvent n 4
  | _, _ => s

/-- The writes of a master that are staged and have had no COMMIT are discarded with DISCARD (R305, R309). -/
def State.discardWrites (s : State) (p : WTxn → Bool) : State :=
  (s.txns.filter fun t => p t && t.decision.isNone).foldl (fun s t =>
    if t.scratch.isSome then (if s.scratchVisible t.id then s else (s.dropTxn t.id).discardLogged t)
    else (s.modTxn t.id fun t => { t with decision := some false, ctl := t.slices }).discardLogged t) s

end Sys2Proof.Machine
end

