-- ==== Sys2Proof/Machine/RingOps.lean ====
section
/-! DEFINITION. The ring ledger's shared operations (chapter 16): rings, the emission of items, notes, minute records, and
requests to the signing engine (R444). -/

namespace Sys2Proof.Machine

/-! ### Signing requests (R444) -/

/-- A request to the signing engine; while PWR_FAIL_N is asserted the engine starts none, and only ledger items wait. -/
def State.requestSig (s : State) (r : SigReq) : State :=
  if s.sys.pwrFail && r != .ledger then s
  else if s.hwd.engine.isNone && !s.sys.pwrFail then { s with hwd := { s.hwd with engine := some r } }
  else { s with hwd := { s.hwd with sigQueue := s.hwd.sigQueue ++ [r] } }

def SigReq.rank : SigReq → Nat
  | .graft _ => 0
  | .spdm _ => 1
  | .ledger => 2

/-- The first request of the lowest rank. -/
def nextSig (l : List SigReq) : Option SigReq :=
  (l.find? fun r => r.rank == 0).or ((l.find? fun r => r.rank == 1).or l.head?)

/-- The engine takes the next waiting request. -/
def State.startSig (s : State) : State :=
  if s.sys.pwrFail || s.hwd.engine.isSome then s
  else match nextSig s.hwd.sigQueue with
    | none => s
    | some r => { s with hwd := { s.hwd with engine := some r, sigQueue := s.hwd.sigQueue.erase r } }

/-! ### Items (R423, R426, R428) -/

def tyMinute : BitVec 8 := 0xa0
def tySeal : BitVec 8 := 0xa1
def tySync : BitVec 8 := 0xa2
def tyNote : BitVec 8 := 0xa3

/-- Items other than minute records in ledger RAM. -/
def Ring.others (r : Ring) : Nat := ((r.unsigned ++ r.signed).filter fun i => i.typ != tyMinute).length

/-- An item enters ledger RAM and asks for its signature. SEQ, word 1, is given with the signature. With no journal slot free,
at most 16 items other than minute records wait; one more is lost. A device in
QUARANTINE whose boot did not restore the ledger emits nothing (R526). -/
def State.emitItem (s : State) (typ : BitVec 8) (covered : List Word) (plot : Option PlotId) : State :=
  if s.sys.mode == .quarantine && decide (s.sys.bootStep < 4) then s
  else if typ != tyMinute && decide (7680 ≤ s.ring.journal.length) && decide (16 ≤ s.ring.others) then
    { s with ring := { s.ring with lost := satAdd 16 s.ring.lost 1 } }
  else
    let i : Item := { typ := typ, seq := 0, covered := covered, sig := [], plot := plot }
    State.requestSig { s with ring := { s.ring with unsigned := s.ring.unsigned ++ [i] } } .ledger

/-- A note (R426). -/
def State.note (s : State) (kind : Nat) (d0 d1 : Word) : State :=
  s.emitItem tyNote [BitVec.ofNat 64 kind, 0, s.ring.tick, d0, d1] none

/-! ### Minute records (R419, R424) -/

/-- Sets a flag of word 0 in a plot's open copy. -/
def State.recFlag (s : State) (p : PlotId) (bit : Nat) : State :=
  s.modPlot p fun x => { x with cnt := { x.cnt with flags := withBit x.cnt.flags bit } }

/-- The same for every defined plot. -/
def State.recFlagAll (s : State) (bit : Nat) : State := s.plotMaps.foldl (fun s m => s.recFlag (plotId m.plot) bit) s

def sat16 (n : Nat) : Nat := min n 65535
def sat32 (n : Nat) : Nat := min n 0xffffffff

/-- Words 0 to 21 of a plot's record that ends at `fin`; SEQ and PREV_HASH are given with the signature. -/
def State.recordWords (s : State) (p : PlotId) (c : Counters) (fin : Word) (flags : Word) (offset : Word) : List Word :=
  [BitVec.ofNat 64 p.val ||| flags ||| c.flags, 0, c.startTick, fin, offset, BitVec.ofNat 64 c.boughUs, BitVec.ofNat 64 c.rootRd,
   BitVec.ofNat 64 c.rootWr, BitVec.ofNat 64 c.scr, BitVec.ofNat 64 c.host, BitVec.ofNat 64 c.queue, BitVec.ofNat 64 c.graft,
   BitVec.ofNat 64 (c.energyNJ / 1000),
   packWord [(0, 16, sat16 c.traps), (16, 16, sat16 c.isolation), (32, 16, sat16 c.poison), (48, 16, sat16 c.resets)],
   packWord [(0, 32, sat32 c.parkedMs), (32, 32, sat32 c.throttled)],
   (s.grn.active.map (·.serial)).getD 0] ++ List.replicate 6 0

/-- The counters of a record that opens at `t`: the level in force is noted, the remainder of energy carries (R422, R424). -/
def State.openCounters (s : State) (c : Counters) (t : Word) : Counters :=
  { Counters.start t with energyNJ := c.energyNJ % 1000, flags := BitVec.ofNat 64 (2 ^ (16 + s.pwr.level.val)) }

/-- TIME_UNCERTAIN of a record that closes now (R424, R435). -/
def Ring.uncertainFlag (r : Ring) : Word := if r.uncertain then 0x100 else 0

/-- Closes the open copy of a plot at tick `fin` and opens a zeroed one there. -/
def State.closeRecord (s : State) (p : PlotId) (fin : Word) (flags : Word) : State :=
  let c := s.plots[p].cnt
  let s1 := s.emitItem tyMinute (s.recordWords p c fin (flags ||| s.ring.uncertainFlag) s.ring.offset) (some p)
  s1.modPlot p fun x => { x with cnt := s1.openCounters c fin }

/-- Whether minute records may close: more than 64 slots are free (R428). -/
def Ring.roomy (r : Ring) : Bool := decide (r.journal.length + 64 < 7680)

/-! ### What other chapters record -/

/-- A runtime spare-row repair (R325, R426, R438). -/
def State.recordRepair (s : State) (b bank row spare : Nat) : State :=
  let d := packWord [(0, 8, b), (8, 5, bank), (13, 8, row), (21, 3, spare)]
  let s := { s with ring := { s.ring with repairLog := if s.ring.repairLog.length < 49152 then s.ring.repairLog ++ [d] else s.ring.repairLog } }
  (s.ringAdd 18 1).note 1 d 0

end Sys2Proof.Machine
end

