-- ==== Sys2Proof/Machine/Scratch.lean ====
section
/-! DEFINITION. Scratchpads (chapter 12): the bank map, the inspection sweep, repair and failed banks, zeroing, and the
retention check. The sweep buffer is the region's own storage while the region is open: every access sees the buffer
(R324), so no second copy is kept. -/

namespace Sys2Proof.Machine

/-! ### The bank map (R316) -/

/-- The bank of granule q of a scratchpad. -/
def scrBank (q : Nat) : Nat := nbits q 0 5 ^^^ nbits q 5 5 ^^^ nbits q 10 3
/-- The row of granule q. -/
def scrRow (q : Nat) : Nat := nbits q 5 8
/-- The granule at a bank and row: the map run backwards. -/
def scrGranule (bank row : Nat) : Nat := row * 32 + (bank ^^^ nbits row 0 5 ^^^ nbits row 5 3)

/-- The DPA granule number of granule q of bough b's scratchpad. -/
def scrDpaGranule (b : BoughId) (q : Nat) : Nat := scratchAddr b / 64 + q

/-- Sets a bit of SCR_STATUS; the first setting raises one notice (R334). -/
def State.scrFlag (s : State) (b : BoughId) (bit : Nat) : State :=
  let was := s.scr[b].status.getLsbD bit
  (s.modScr b fun x => { x with status := withBit x.status bit }).notice was "SCR_STATUS"

/-- Granules whose reads are all poisoned and whose writes are discarded: rows in a poison-row slot and failed banks (R326). -/
def Scratch.isDead (x : Scratch) (q : Nat) : Bool :=
  x.failed.getLsbD (scrBank q) || x.poisonRows.contains (scrBank q, scrRow q)

def Memory.kill (m : Memory) (g : Nat) : Memory := { m with dead := insertNat g m.dead }
def Memory.revive (m : Memory) (g : Nat) : Memory := { m with dead := m.dead.filter (· ≠ g) }

/-! ### Sweep (R323-R326) -/

/-- A region may open: the scratchpads are powered and zeroed, and Dormant entry has not begun (R327, R328). -/
def State.scrPowered (s : State) : Bool :=
  match s.sys.mode with
  | .reset | .dormant => false
  | .drain => s.sys.drainFor != some .dormant
  | _ => decide (3 ≤ s.sys.bootStep)

/-- The µs between region starts: a value below 10 acts as 10, and one above 10,000 as 10,000 (R332). -/
def State.pace (s : State) : Nat := max 10 (min 10000 s.paceUs.toNat)

/-- The time of the next region start has come: PACE_US µs, ring ticks, after the latest (R323, R332). DESIGN CHOICE: log entry 172. -/
def State.paceDue (s : State) (b : BoughId) : Bool := s.scr[b].sweepAt.all fun t => decide (t.toNat + s.pace ≤ s.ring.tick.toNat)

/-- The save of a granule: its words are checked, corrected into the buffer, or saved as poisoned. -/
def State.saveGranule (s : State) (b : BoughId) (q : Nat) : State :=
  let g := scrDpaGranule b q
  let s1 := s.observe (64 * g) 64 true
  s1.modMem fun m =>
    if m.dead.contains g then (List.range 8).foldl (fun m i => m.setMark (8 * g + i) (some .stored)) (m.revive g)
    else (List.range 8).foldl (fun m i => m.scrubWord (8 * g + i)) m

/-- SWEEP_REGION_START (R323, R324, R332, R337): the next region is saved and opens. DEDUCED: log entry 29. -/
def execSweepRegionStart (b : BoughId) (s : State) : Out :=
  let x := s.scr[b]
  if s.sweepEn && !x.sweepOpen && s.scrPowered && s.paceDue b then
    let n := x.sweepPos.toNat
    let s := (List.range 4).foldl (fun s i => s.saveGranule b (4 * n + i)) s
    .next (s.modScr b fun x => { x with sweepOpen := true, sweepAt := some s.ring.tick, sweepPos := x.sweepPos + 1 })
  else .next s

/-- The plot event POISON of a failed bank (R379). -/
def State.bankPoison (s : State) (b : BoughId) (bank : Nat) : State :=
  match s.boughPlot b.val with
  | none => s
  | some m => s.plotEvent (plotId m.plot) 7 b.val bank 0

/-- The lowest spare of a bank that is neither in use nor unusable (R325). -/
def lowestSpare (m : BitVec 8) : Option (Fin 8) := (List.finRange 8).find? fun j => !m.getLsbD j.val

/-- Spares of a bank in use or unusable, as SCR_REPAIR0 and SCR_REPAIR1 show them (R336). -/
def spareCount (m : BitVec 8) : Nat := ((List.finRange 8).filter fun j => m.getLsbD j.val).length

/-- Spare j of bank k serves a row, which leaves the poison-row slot if it stood there. DESIGN CHOICE: log entry 171. -/
def Scratch.takeSpare (x : Scratch) (k : Fin 32) (row : Nat) (j : Fin 8) : Scratch :=
  { x with spares := vmod x.spares k fun m => withBit m j.val,
           rowMap := (x.rowMap.filter fun r => !(r.1 == k.val && r.2.1 == row)) ++ [(k.val, row, j.val)],
           poisonRow := if x.poisonRows.contains (k.val, row) then dropBit x.poisonRow k.val else x.poisonRow,
           poisonRows := x.poisonRows.filter fun r => r != (k.val, row) }

/-- No usable spare is left: the row enters its bank's poison-row slot, or the bank fails (R326). -/
def State.giveRowUp (s : State) (b : BoughId) (bank row : Nat) : State :=
  let x := s.scr[b]
  if x.poisonRows.contains (bank, row) then s
  else if !x.poisonRow.getLsbD bank then
    (s.modScr b fun x => { x with poisonRow := withBit x.poisonRow bank, poisonRows := x.poisonRows ++ [(bank, row)] }).scrFlag b 4
  else ((s.modScr b fun x => { x with failed := withBit x.failed bank }).scrFlag b 5).bankPoison b bank

/-- With REPAIR_EN at 0 a failing row is logged, as an event of the sweep at the row's first word (R325). DESIGN CHOICE: log entry 171. -/
def State.logRow (s : State) (b : BoughId) (q : Nat) : State :=
  let d := s.draw
  let log := packWord [(0, 19, 64 * q), (26, 1, 1), (32, 8, syndromeOf .single d.1)]
  d.2.modScr b fun x => if x.status.getLsbD 2 then x else { x with status := withBit x.status 2, log := log }

/-- A row failed its March test (R325, R326): the bank's lowest free spare serves it, or it is given up. -/
def State.rowFailed (s : State) (b : BoughId) (q : Nat) : State :=
  let x := s.scr[b]
  let bank := scrBank q
  let row := scrRow q
  match finOf? 32 bank with
  | none => s
  | some k =>
    if x.failed.getLsbD bank then s
    else if s.repairEn then
      match lowestSpare x.spares[k] with
      | some j => ((s.modScr b fun x => x.takeSpare k row j).scrFlag b 3).recordRepair b.val bank row j.val
      | none => s.giveRowUp b bank row
    else (s.logRow b q).giveRowUp b bank row

/-- Every dead granule of a scratchpad answers as R326 gives, the granules of an open region left out. -/
def State.applyDead (s : State) (b : BoughId) : State :=
  let x := s.scr[b]
  s.modMem fun m => (List.range 8192).foldl (fun m q => if x.isDead q then m.kill (scrDpaGranule b q) else m) m

/-- The open region is restored: rows that failed are repaired or given up, the buffer is written back and the region closes (R323, R325,
R326). DEDUCED: log entry 29. -/
def State.restoreRegion (s : State) (b : BoughId) (failed : BitVec 4) : State :=
  let x := s.scr[b]
  let n := (x.sweepPos - 1).toNat
  let s := (List.range 4).foldl (fun s i => if failed.getLsbD i then s.rowFailed b (4 * n + i) else s) s
  (s.modScr b fun x => { x with sweepOpen := false, passes := if x.sweepPos = 0 then x.passes + 1 else x.passes }).applyDead b

/-- SWEEP_RESTORE (R323, R325, R326). -/
def execSweepRestore (b : BoughId) (failed : BitVec 4) (s : State) : Out :=
  if s.scr[b].sweepOpen then .next (s.restoreRegion b failed) else .next s

/-- A device reset lets every open region complete its restore; which of its rows failed is free (R327). DESIGN CHOICE: log entry 172. -/
def State.closeRegions (s : State) : State :=
  (List.finRange 256).foldl (fun (s : State) b =>
    if s.scr[b].sweepOpen then
      let d := s.draw
      d.2.restoreRegion b (d.1.setWidth 4)
    else s) s

/-! ### Zeroing (R328) -/

/-- Zeroes a scratchpad: an open region's buffer is discarded; spare map and poison-row slots stay. -/
def State.zeroScratch (s : State) (b : BoughId) : State :=
  ((s.modMem fun m => m.zeroZone (scratchZone b.val)).modScr b fun x => { x with sweepOpen := false }).applyDead b

/-- Every scratchpad is zeroed, at BOOT (R328). DEDUCED: log entry 37. -/
def State.zeroAllScratch (s : State) : State := (List.finRange 256).foldl (fun s b => s.zeroScratch b) s

/-! ### Retention (R329, R330) -/

/-- The bytes that the CRC of a bank covers: eight data bytes of each word, then its poison byte. -/
def Memory.bankBytes (m : Memory) (b : BoughId) (bank : Nat) : List Nat :=
  (List.range 256).flatMap fun row =>
    let g := scrDpaGranule b (scrGranule bank row)
    (List.range 8).flatMap fun i => (m.readN (64 * g + 8 * i) 8).map (·.toNat) ++ [b2n (m.badWord (8 * g + i))]

/-- Each bank's CRC-32C, kept in the always-on domain before the arrays move to VDD_RET (R329). -/
def State.bankCrcs (s : State) (b : BoughId) : State :=
  s.modScr b fun x => { x with crcs := (List.range 32).map fun n => BitVec.ofNat 32 (crc32c 0 (s.mem.bankBytes b n)) }

/-- A bank that lost its contents: every word is stored poison, and the loss is reported (R330). -/
def State.bankLost (s : State) (b : BoughId) (bank : Nat) : State :=
  let s := s.modMem fun m => (List.range 256).foldl (fun m row =>
    let g := scrDpaGranule b (scrGranule bank row)
    (List.range 8).foldl (fun m i => m.setMark (8 * g + i) (some .stored)) m) m
  (s.modScr b fun x => { x with lost := withBit x.lost bank }).scrFlag b 6

/-- The check reads every word of a bank, and corrects what it can (R330). -/
def State.readBank (s : State) (b : BoughId) (bank : Nat) : State :=
  (List.range 256).foldl (fun s row => s.observe (64 * scrDpaGranule b (scrGranule bank row)) 64 false) s

/-- The banks of a bough whose check fails at wake. Whether a bank kept its contents is outside the device's control: a free
value. DESIGN CHOICE: log entry 115. -/
def State.checkBanks (s : State) (b : BoughId) : List Nat → State × List Nat
  | [] => (s, [])
  | n :: ns =>
    let d := (s.readBank b n).drawBool
    let crc := BitVec.ofNat 32 (crc32c 0 (s.mem.bankBytes b n))
    let bad := d.1 || s.scr[b].crcs[n]? != some crc
    let r := d.2.checkBanks b ns
    (r.1, if bad then n :: r.2 else r.2)

/-- The wake check of a scratchpad (R330). DEDUCED: log entry 116. -/
def State.retentionCheck (s : State) (b : BoughId) : State :=
  let r := s.checkBanks b (List.range 32)
  let mask := BitVec.ofNat 32 (r.2.map fun n => 2 ^ n).sum
  let s := r.1.modScr b fun x => { x with checks := x.checks + 1, lostNow := mask }
  let s := r.2.foldl (fun s n => s.bankLost b n) s
  if mask = 0 then s else (s.ringAdd 26 r.2.length).note 2 (BitVec.ofNat 64 b.val) (mask.setWidth 64)

/-- RETENTION_LOST goes to the plot of a bough, once for each bank that the wake found lost (R330, R371, R513). -/
def State.tellLost (s : State) (b : BoughId) : State :=
  let ns := (List.range 32).filter fun n => s.scr[b].lostNow.getLsbD n
  let s := s.modScr b fun x => { x with lostNow := 0 }
  match ns, s.boughPlot b.val with
  | _ :: _, some m => ns.foldl (fun s n => s.plotEvent (plotId m.plot) 1 b.val n (BitVec.ofNat 64 (2 ^ n))) (s.recFlag (plotId m.plot) 14)
  | _, _ => s

end Sys2Proof.Machine
end

