-- ==== Sys2Proof/Machine/Queues.lean ====
section
/-! DEFINITION. Sap queues seen from outside a twig (chapter 13): flush, host windows, and MSI-X (R463, R469). -/

namespace Sys2Proof.Machine

/-! ### Flush (R353, R354) -/

/-- A flush is requested: FLUSH reads 1 until it completes. DEDUCED: log entry 35. -/
def State.requestFlush (s : State) (q : QueueId) : State := s.modQueue q fun x => { x with flushing := true }

/-- FLUSH (R353, R360): a write of SAPQ_CTRL.FLUSH. -/
def execFlush (q : QueueId) (s : State) : Out := .next (s.requestFlush q)

/-- The halves whose run names queue q, by bough. -/
def State.halvesOn (s : State) (q : QueueId) : List (BoughId × Fin 2) :=
  (List.finRange 256).flatMap fun b => ([0, 1] : List (Fin 2)).filterMap fun h =>
    if (s.half b h).st != .free && (s.half b h).run.any (fun e => e.usesQueue q) then some (b, h) else none

/-- A run is the oldest uncommitted one of its bough (R158). -/
def State.oldestHere (s : State) (b : BoughId) (h : Fin 2) : Bool :=
  match (s.bough b).runs with
  | x :: _ => x.ord == (s.half b h).ord
  | [] => false

/-- QUEUE_FLUSH (R353): no instruction on the queue is arming or draining; those that fill fault LENGTH at element 0, and the
queue is emptied. DEDUCED: log entry 35. -/
def execQueueFlush (q : QueueId) (s : State) : Out :=
  let hs := s.halvesOn q
  if s.queues[q].flushing && hs.all fun x => (s.half x.1 x.2).st == .filling && s.oldestHere x.1 x.2 then
    .next ((hs.foldl (fun s x => if (s.half x.1 x.2).st == .filling then s.takeVFault x.1 x.2 .length 0 0 else s) s).flushNow q)
  else .next s

/-! ### Host windows (R355-R357) -/

def State.hostProd (s : State) (fn : HostFn) (q : QueueId) : Bool := s.prodOf q.val == some (.host (hostFnId fn))
def State.hostCons (s : State) (fn : HostFn) (q : QueueId) : Bool := s.consOf q.val == some (.host (hostFnId fn))

/-- ERR of a window: a function in both roles has one window. DEDUCED: log entry 109. -/
def State.errProd (s : State) (q : QueueId) (k : Nat) : State :=
  let both := s.prodOf q.val == s.consOf q.val
  s.modQueue q fun x => { x with errProd := BitVec.ofNat 4 k, errCons := if both then BitVec.ofNat 4 k else x.errCons }
/-- DEDUCED: log entry 109. -/
def State.errCons (s : State) (q : QueueId) (k : Nat) : State :=
  let both := s.prodOf q.val == s.consOf q.val
  s.modQueue q fun x => { x with errCons := BitVec.ofNat 4 k, errProd := if both then BitVec.ofNat 4 k else x.errProd }

/-- What a write meets when no packet is open in its role: voided, or never opened (R346, R357). DEDUCED: log entry 31. -/
def voidOr (void : Bool) : Nat := if void then qVoid else qNotOpen

/-- QW_OPEN (R356, R357): as QOPEN, without waiting. Payload words that the host does not write read as 0 (R342). -/
def State.qwOpen (s : State) (fn : HostFn) (q : QueueId) (v : Word) : State :=
  let c := fieldAt v 0 13
  let x := s.queues[q]
  if !s.hostProd fn q then s
  else if x.prod.isSome then s.errProd q qAlreadyOpen
  else if decide (4096 < c) || decide (s.ringWords q < c + 1) then s.errProd q qTooBig
  else if x.credits < c + 1 then s.errProd q qNoCredit
  else ((s.qOpen q c).errProd q qOk).modQueue q fun x =>
    { x with prod := x.prod.map fun o => { o with words := List.replicate c (qword 0 false) } }

/-- QW_CLOSE (R356, R357). DEDUCED: log entry 31. -/
def State.qwClose (s : State) (fn : HostFn) (q : QueueId) (v : Word) : State :=
  let n := fieldAt v 0 16
  let x := s.queues[q]
  if !s.hostProd fn q then s
  else
    match x.prod with
    | none => s.errProd q (voidOr x.prodVoid)
    | some o =>
      if o.cap < n then s.errProd q qFull
      else if 0x80 ≤ fieldAt v 16 8 then s.errProd q qBadType
      else
        (s.modQueue q fun x => { x with prod := some { o with words := o.words.take n } }).qClose q (BitVec.ofNat 8 (fieldAt v 16 8))
          (BitVec.ofNat 32 (fieldAt v 32 32))

/-- QW_TAKE (R356). DEDUCED: log entry 32. -/
def State.qwTake (s : State) (fn : HostFn) (q : QueueId) (v : Word) : State :=
  if !s.hostCons fn q || v != 1 then s
  else if s.queues[q].cons.isSome then s.errCons q qAlreadyOpen
  else s.qTake q

/-- QW_DONE (R356). DEDUCED: log entry 32. -/
def State.qwDone (s : State) (fn : HostFn) (q : QueueId) (v : Word) : State :=
  if !s.hostCons fn q || v != 1 then s
  else if s.queues[q].cons.isSome then s.qDone q
  else s.errCons q (voidOr s.queues[q].consVoid)

/-- A write of QW_DATA (R342, R356, R357). DEDUCED: log entry 102. -/
def State.qwPut (s : State) (fn : HostFn) (q : QueueId) (i : Nat) (v : Word) : State :=
  let x := s.queues[q]
  if !s.hostProd fn q then s
  else
    match x.prod with
    | none => s.errProd q (voidOr x.prodVoid)
    | some o =>
      if o.cap ≤ i then s.errProd q qFull
      else s.modQueue q fun x => { x with prod := some { o with words := lmod o.words i fun _ => qword v false } }

/-- A read of QW_DATA (R351, R352, R356): the word, its EP bit, and the state with a parity failure logged. -/
def State.qwGet (s : State) (fn : HostFn) (q : QueueId) (i : Nat) : State × Word × Bool :=
  if !s.hostCons fn q then (s, 0, false)
  else
    match s.queues[q].cons with
    | none => (s, 0, false)
    | some o =>
      match o.pkt.words[i]? with
      | none => (s, 0, false)
      | some w => (if w.parity != parityOf w.w then s.parityFail q (s.storeSlot q o i) false else s, w.w, w.bad)

/-- A read through a window that carries the EP bit is logged, and a virtual function's plot gets POISON (R310, R465). -/
def State.readPoison (s : State) (fn : HostFn) (a : Nat) : State :=
  let n := fnPort s fn
  let s := s.aer n
  match fn with
  | .pf _ => s
  | .vf v => match s.vfPlot v.val with
    | none => s
    | some m => (s.meter (some m.plot) fun x => { x with poison := x.poison + 1 }).plotEvent (plotId m.plot) 7 0xff n.val (BitVec.ofNat 64 a)

/-- Every earlier write TLP of a function without Relaxed Ordering has been committed (R307, R356). -/
def State.writesDone (s : State) (fn : HostFn) : Bool := s.txns.all fun t => t.fn != some fn || t.relaxed

/-- A function whose port is up reaches its windows. DEDUCED: log entry 99. -/
def State.fnReaches (s : State) (fn : HostFn) : Bool := s.fnUp fn && s.sys.mode != .reset

/-- TLPs wait in Dormant and during Dormant entry (R466, R503). -/
def State.holdsTlps (s : State) : Bool := s.sys.mode == .dormant || (s.sys.mode == .drain && s.sys.drainFor == some .dormant)

/-- A TLP waits at its port; `ord` tells the writes that came before it. DESIGN CHOICE: log entry 98. -/
def State.holdTlp (s : State) (n : PortId) (i : Instr) (ord : Nat) : State := s.modPort n fun p => { p with held := p.held ++ [⟨i, ord⟩] }

/-- A TLP that is a posted write. -/
def tlpPosted : Instr → Bool
  | .hostWriteTlp .. | .registerWrite .. | .qwOpen .. | .qwClose .. | .qwTake .. | .qwDone .. | .qwDataWrite .. => true
  | _ => false

/-- The function whose TLP it is. -/
def tlpFn : Instr → Option HostFn
  | .hostWriteTlp _ p => some p.fn
  | .hostReadRequest _ _ fn .. | .configRequest _ fn _ | .qwOpen fn .. | .qwClose fn .. | .qwTake fn .. | .qwDone fn .. | .qwDataWrite fn .. |
    .qwDataRead fn .. => some fn
  | .registerWrite (.pf n) .. => some (.pf n)
  | .registerWrite (.vf v) .. => some (.vf v)
  | _ => none

/-- Requests of a function whose share absorbs wait at the port (R302, R305). -/
def State.fnAbsorbs (s : State) (fn : HostFn) : Bool :=
  s.cnp.hostAbsorb.getLsbD (fnPort s fn).val || match fn with
    | .pf n => s.cnp.pfAbsorb.getLsbD n.val
    | .vf v => s.cnp.vfAbsorb.getLsbD v.val

/-- TLP i stays behind TLP h of its port, which waits: a read that waits holds no write, and a function that absorbs holds no other
function (R302, R305). DESIGN CHOICE: log entry 98. -/
def State.tlpBehind (s : State) (h : HeldTlp) (i : Instr) : Bool :=
  (tlpPosted h.tlp || !tlpPosted i) && (tlpFn h.tlp == tlpFn i || !(tlpFn h.tlp).any s.fnAbsorbs)

/-- A TLP waits at port n: Dormant holds it, or an earlier one that it may not pass waits. -/
def State.portWaits (s : State) (n : PortId) (i : Instr) : Bool := s.holdsTlps || s.ports[n].held.any fun h => s.tlpBehind h i

def State.tlpWaits (s : State) (fn : HostFn) (i : Instr) : Bool := s.portWaits (fnPort s fn) i || s.fnAbsorbs fn

/-- Payload bytes received or sent by a port (R485), and HOST_BYTES of the function (R421). DEDUCED: log entry 108. -/
def State.rxBytes (s : State) (n : PortId) (k : Nat) : State := s.modPort n fun p => { p with rx := p.rx + BitVec.ofNat 48 k }
/-- DEDUCED: log entry 108. -/
def State.txBytes (s : State) (n : PortId) (k : Nat) : State := s.modPort n fun p => { p with tx := p.tx + BitVec.ofNat 48 k }

/-- A window access of a function: lost when its port is down, waiting when it must, and otherwise done now. -/
def State.window (s : State) (fn : HostFn) (i : Instr) (wait write : Bool) (f : State → State) : State :=
  let n := fnPort s fn
  if !s.fnReaches fn then s
  else if s.tlpWaits fn i || wait then s.holdTlp n i s.nextId
  else f ((if write then s.rxBytes n 8 else s.txBytes n 8).meterHost fn 8)

/-- QW_OPEN (R356, R357). -/
def execQwOpen (fn : HostFn) (q : QueueId) (v : Word) (s : State) : Out := .next (s.window fn (.qwOpen fn q v) false true fun s => s.qwOpen fn q v)

/-- QW_CLOSE (R307, R356, R357): not before the function's earlier writes have been committed. -/
def execQwClose (fn : HostFn) (q : QueueId) (v : Word) (s : State) : Out :=
  .next (s.window fn (.qwClose fn q v) (!s.writesDone fn) true fun s => s.qwClose fn q v)

/-- QW_TAKE (R356). -/
def execQwTake (fn : HostFn) (q : QueueId) (v : Word) (s : State) : Out := .next (s.window fn (.qwTake fn q v) false true fun s => s.qwTake fn q v)

/-- QW_DONE (R343, R356). -/
def execQwDone (fn : HostFn) (q : QueueId) (v : Word) (s : State) : Out := .next (s.window fn (.qwDone fn q v) false true fun s => s.qwDone fn q v)

/-- QW_DATA written (R356, R357). DEDUCED: log entry 102. -/
def execQwDataWrite (fn : HostFn) (q : QueueId) (i : Nat) (v : Word) (s : State) : Out :=
  .next (s.window fn (.qwDataWrite fn q i v) false true fun s => s.qwPut fn q i v)

/-- QW_DATA is read (R352, R356): the word, and whether it carries EP. -/
def State.qwRead (s : State) (fn : HostFn) (q : QueueId) (i : Nat) : State × Word × Bool :=
  let r := s.qwGet fn q i
  (if r.2.2 then r.1.readPoison fn (0x8000000000000000 + q.val + i * 0x400) else r.1, r.2)

/-- QW_DATA read (R352, R356): the word leaves the device. -/
def execQwDataRead (fn : HostFn) (q : QueueId) (i : Nat) (s : State) : Out :=
  .next (s.window fn (.qwDataRead fn q i) false false fun s => let r := s.qwRead fn q i; r.1.emit (.window fn q i r.2.1 r.2.2))

/-! ### MSI-X (R350, R463, R469) -/

/-- MSI-X entries of a function. -/
def State.msixCount (s : State) : HostFn → Nat
  | .vf _ => 24
  | .pf _ => pfMsix s.grn.split

/-- A dword of the MSI-X table; the mask bit of each entry is 1 after reset. -/
def Func.msixDword (f : Func) (i : Nat) : BitVec 32 :=
  match f.msixTab.find? fun e => e.1 = i with
  | some e => e.2
  | none => if i % 4 = 3 then 1 else 0

/-- A queue bound to the entry holds pending packets. -/
def State.entryPending (s : State) (fn : HostFn) (entry : Nat) : Bool :=
  match s.grn.active with
  | none => false
  | some g => g.queues.any fun r => recCons r == .host (hostFnId fn) && recMsix r == entry &&
      match finOf? 1024 (fieldAt r.1 0 10) with
      | some q => !s.queues[q].pending.isEmpty
      | none => false

/-- One message for the pending closes of an entry (R469). -/
def State.sendEntry (s : State) (fn : HostFn) (entry : Nat) : State := if s.entryPending fn entry then s.sendMsix fn entry else s

/-- Messages for every unmasked entry with pending closes, when MSI-X of a function becomes enabled. -/
def State.sendEntries (s : State) (fn : HostFn) : State := (List.range (s.msixCount fn)).foldl (fun s e => s.sendEntry fn e) s

/-- A write of one dword of the MSI-X table; unmasking an entry sends one message for its pending closes (R469). -/
def State.msixWrite (s : State) (fn : HostFn) (i : Nat) (v : BitVec 32) : State :=
  if s.msixCount fn ≤ i / 4 then s
  else
    let was := (s.func fn).entryMasked (i / 4)
    let v := if i % 4 = 3 then v &&& 1 else if i % 4 = 0 then v &&& 0xfffffffc else v
    let s := s.modFunc fn fun f => { f with msixTab := (i, v) :: f.msixTab.filter fun e => e.1 ≠ i }
    if was && !(s.func fn).entryMasked (i / 4) then s.sendEntry fn (i / 4) else s

/-- A word of the PBA: bit k is pending while the entry or the function is masked (R469). -/
def State.pbaWord (s : State) (fn : HostFn) (w : Nat) : Word :=
  let f := s.func fn
  BitVec.ofNat 64 ((List.range 64).map fun k =>
    if 64 * w + k < s.msixCount fn && f.msixEn && f.entryMasked (64 * w + k) && s.entryPending fn (64 * w + k) then 2 ^ k else 0).sum

/-- MSIX_UNMASK (R350, R463, R469): the entry's mask bit is cleared; one message goes out when MSI-X is enabled and closes are
pending. -/
def execMsixUnmask (fn : HostFn) (entry : Nat) (s : State) : Out := .next (s.msixWrite fn (4 * entry + 3) 0)

end Sys2Proof.Machine
end

