-- ==== Sys2Proof/Machine/Plots.lean ====
section
/-! DEFINITION. Plots (chapter 14): idleness, parking, preemption, power caps, plot reset and crown messages. -/

namespace Sys2Proof.Machine

/-! ### Idle and streaming (R54, R374) -/

/-- A bough is idle (R374). -/
def State.boughIdle (s : State) (b : BoughId) : Bool :=
  let y := s.bough b
  y.twig.run != .halted && (match y.twig.waiting with | some i => isWfi i | none => false) && (s.sources (.bough b)).isEmpty &&
    y.vfault.isNone && y.queued == 0 && y.halves.toList.all fun h => h.st == .free

/-- A plot is idle: each bough is idle or halted. -/
def State.plotIdle (s : State) (m : PlotMap) : Bool :=
  m.boughList.all fun b => (s.bough b).twig.run == .halted || s.boughIdle b

/-- An instruction is dispatched and not yet complete (R54). -/
def Bough.streaming (y : Bough) : Bool := y.halves.toList.any fun h => h.st.uncommitted

/-! ### Parking (R375, R376) -/

/-- Sets FREEZE on every bough of a plot. -/
def State.freezePlot (s : State) (m : PlotMap) (on : Bool) : State :=
  m.boughList.foldl (fun s b => s.modBough b fun y => { y with freeze := on }) s

/-- Changes whether the twigs of a plot execute; a halted twig stays halted, and a twig under reset goes on as its plot does (R241). -/
def State.runPlot (s : State) (m : PlotMap) (run : TwigRun) : State :=
  m.boughList.foldl (fun s b => s.modTwig (.bough b) fun w => if w.run = .halted || (s.bough b).resetting then w else { w with run := run }) s

/-- The plot begins to park; a plot that no image defines keeps the bit for its first image (R10, R388, R414). -/
def State.startPark (s : State) (p : PlotId) : State :=
  match s.plotMap p.val with
  | none => s.modPlot p fun x => { x with park := true }
  | some m =>
    let s := s.modPlot p fun x => { x with park := true }
    if s.plots[p].st = .running then (s.freezePlot m true).modPlot p fun x => { x with st := .parking } else s

/-- PARK is cleared: a parking plot goes on, a parked plot is released and told (R375, R385). Where PREEMPT began the parking, its request ends
with it. DEDUCED: log entry 36. -/
def State.unpark (s : State) (p : PlotId) : State :=
  match s.plotMap p.val with
  | none => s.modPlot p fun x => { x with park := false }
  | some m =>
    let s := s.modPlot p fun x => { x with park := false }
    match s.plots[p].st with
    | .parking => ((s.freezePlot m false).runPlot m .running).modPlot p fun x => { x with st := .running, preempt := x.graceOn }
    | .parked =>
      let w := s.ring.tick - s.plots[p].parkedAt
      (((s.freezePlot m false).runPlot m .running).modPlot p fun x => { x with st := .running }).crownMessage p 0x81 w
    | _ => s

/-- DEDUCED: log entry 93. -/
def State.writePark (s : State) (p : PlotId) (on : Bool) : State := if on then s.startPark p else s.unpark p

/-- PARK (R375, R388): a write of PLOT_CTRL.PARK. -/
def execPark (p : PlotId) (on : Bool) (s : State) : Out := .next (s.writePark p on)

/-- The twig stands at a boundary at which it can be held. -/
def Twig.canHold (w : Twig) : Bool := w.run == .halted || w.waiting.isSome || w.atBoundary

/-- PARK_HOLD (R375, R376): no bough of the plot streams: its twigs are held and the plot is parked. -/
def execParkHold (p : PlotId) (s : State) : Out :=
  match s.plotMap p.val with
  | none => .next s
  | some m =>
    if s.plots[p].st = .parking ∧ (m.boughList.all fun b => !(s.bough b).streaming && (s.bough b).twig.canHold) = true then
      .next ((s.runPlot m .held).modPlot p fun x => { x with st := .parked, preempt := false, graceOn := false, parkedAt := s.ring.tick })
    else .next s

/-- PLOT_CTRL.PREEMPT is written (R376): the message goes out and the grace period starts. DEDUCED: log entries 36, 93. -/
def State.preempt (s : State) (p : PlotId) : State :=
  let x := s.plots[p]
  if (s.plotMap p.val).isSome && x.st == .running && !x.preempt then
    (s.modPlot p fun x => { x with preempt := true, graceOn := true, preemptEnd := s.ring.tick + x.grace.zeroExtend 64 }).crownMessage p 0x80 (x.grace.zeroExtend 64)
  else s

/-- PREEMPT (R376, R388). DEDUCED: log entry 36. -/
def execPreempt (p : PlotId) (s : State) : Out := .next (s.preempt p)

/-- PREEMPT_GRACE_EXPIRY (R376, R385): the grace period is over, or the plot is idle: it begins to park, with PARK set. Where the plot is parking
already, only the grace period ends. DEDUCED: log entry 36. -/
def execPreemptGraceExpiry (p : PlotId) (s : State) : Out :=
  match s.plotMap p.val with
  | none => .next s
  | some m =>
    let x := s.plots[p]
    if x.graceOn && (decide (x.preemptEnd.toNat ≤ s.ring.tick.toNat) || s.plotIdle m) then
      let s := s.modPlot p fun x => { x with graceOn := false }
      .next (if x.st = .running then s.startPark p else s)
    else .next s

/-! ### Plot reset (R383, R384) -/

/-- Queues whose producer or consumer is a bough or the virtual function of a plot (R383). -/
def State.plotQueues (s : State) (m : PlotMap) : List QueueId :=
  let mine : QRole → Bool
    | .bough b => m.boughs.getLsbD b
    | .host id => decide (id < 64) && m.vf == some id
    | _ => false
  match s.grn.active with
  | none => []
  | some g => g.queues.filterMap fun r => if mine (recProd r) || mine (recCons r) then finOf? 1024 (fieldAt r.1 0 10) else none

/-- The share of a function at its host port enters absorb state (R305). -/
def State.absorbFn (s : State) (fn : HostFn) : State :=
  let n := fnPort s fn
  let s := s.discardWrites fun t => t.fn == some fn
  let s := s.modPort n fun p => { p with reads := p.reads.map fun r => if r.fn = fn then { r with absorb := true } else r }
  match fn with
  | .vf v => { s with cnp := { s.cnp with vfAbsorb := withBit s.cnp.vfAbsorb v.val } }
  | .pf n => { s with cnp := { s.cnp with pfAbsorb := withBit s.cnp.pfAbsorb n.val } }

/-- A plot reset starts (R383): during a regrain of the plot it is held (R415). A plot that no image defines has nothing to reset and its
RESET bit reads 0. DESIGN CHOICE: log entry 161. -/
def State.beginPlotReset (s : State) (p : PlotId) : State :=
  match s.plotMap p.val with
  | none => s
  | some m =>
    if s.plots[p].resetBusy then s
    else if s.plots[p].st = .regraining then s.modPlot p fun x => { x with resetWaits := true }
    else
      let s := s.modPlot p fun x => { x with st := .resetting, resetBusy := true, resetWaits := false, preempt := false, graceOn := false,
                                              cnt := { x.cnt with resets := x.cnt.resets + 1 } }
      let s := s.recFlag p 12
      let s := match (m.vf.bind (finOf? 64) : Option VfId) with
        | some v => s.absorbFn (.vf v)
        | none => s
      let s := m.boughList.foldl (fun s b => if (s.bough b).resetting then s else s.beginBoughReset b) s
      (s.plotQueues m).foldl (fun s q => s.requestFlush q) s

/-- PLOT_RESET (R383, R388): PLOT_CTRL.RESET or a function level reset of the plot's VF. -/
def execPlotReset (p : PlotId) (s : State) : Out := .next (s.beginPlotReset p)

/-- Every affected port is clean and every flush is done. -/
def State.plotClean (s : State) (m : PlotMap) : Bool :=
  (m.boughList.all fun b => !(s.bough b).resetting) && ((s.plotQueues m).all fun q => !s.queues[q].flushing) &&
    match (m.vf.bind (finOf? 64) : Option VfId) with
    | some v => !s.cnp.vfAbsorb.getLsbD v.val
    | none => true

/-- Posts the events that arose during a plot reset (R372). -/
def State.postHeldEvents (s : State) (p : PlotId) : State :=
  s.plots[p].heldEvents.foldl (fun s e => s.sendEvent p e) (s.modPlot p fun x => { x with heldEvents := [] })

/-- Zeroes the plot's scratchpads, sets DUTY to 64, rearms its links and starts or parks its twigs (R383 steps 4 to 6). -/
def State.restartPlot (s : State) (p : PlotId) (m : PlotMap) : State :=
  let park := s.plots[p].park
  let s := m.boughList.foldl (fun s b => s.zeroScratch b) s
  let s := m.boughList.foldl (fun s b => s.rearmAfterReset b) s
  let s := m.boughList.foldl (fun s b => s.modBough b fun y =>
    { y with freeze := park, twig := { y.twig with run := if park then .held else .running } }) s
  s.modPlot p fun x => { x with duty := 64, st := if park then .parked else .running, resetBusy := false,
                                parkedAt := if park then s.ring.tick else x.parkedAt }

/-- The function level reset that started a plot reset ends with it (R467, R485). -/
def State.endFlr (s : State) (m : PlotMap) : State :=
  match (m.vf.bind (finOf? 64) : Option VfId) with
  | some v => s.modVf v fun f => { f with flrBusy := false }
  | none => s

/-- PLOT_RESET_COMPLETE (R372, R383). DEDUCED: log entry 37. -/
def execPlotResetComplete (p : PlotId) (s : State) : Out :=
  match s.plotMap p.val with
  | none => .next s
  | some m =>
    if s.plots[p].resetBusy && s.plotClean m then .next (((s.restartPlot p m).endFlr m).postHeldEvents p) else .next s

/-- PLOT_BOUGH_RESET is written (R390): another plot's bough is ignored. -/
def State.plotBoughReset (s : State) (p : PlotId) (b : BoughId) : State :=
  match s.plotMap p.val with
  | none => s
  | some m => if m.boughs.getLsbD b.val && !(s.bough b).resetting then s.beginBoughReset b else s

/-- PLOT_BOUGH_RESET (R385, R390). -/
def execPlotBoughReset (p : PlotId) (b : BoughId) (s : State) : Out := .next (s.plotBoughReset p b)

/-! ### Power caps (R380-R382) -/

/-- IMAGE_MW of a plot. -/
def State.imageCap (s : State) (p : Nat) : Nat := ((s.grn.active.bind fun g => g.caps[p]?)).getD 0

/-- The effective cap: the lower of the two figures that are not 0; 0 for none. -/
def State.effCap (s : State) (p : PlotId) : Nat :=
  let a := s.imageCap p.val
  let b := s.plots[p].limitMw.toNat
  if a = 0 then b else if b = 0 then a else min a b

/-- DUTY after an evaluation with power p under cap c. -/
def nextDuty (duty c p : Nat) : Nat :=
  if 0 < c ∧ c < p then max 1 (duty * c / p) else if c = 0 ∨ 10 * p < 9 * c then min 64 (duty + 4) else duty

/-- One plot's evaluation. -/
def State.evalCap (s : State) (p : PlotId) : State :=
  let x := s.plots[p]
  let mw := min (x.shareNJ / 1000) 0xfffff
  let d := nextDuty x.duty (s.effCap p) mw
  let low := decide (d < 64)
  let hit := low && decide (x.duty = 64)
  let s := s.modPlot p fun x =>
    { x with lastMw := BitVec.ofNat 20 mw, peakMw := if x.peakMw.toNat < mw then BitVec.ofNat 20 mw else x.peakMw, duty := d,
             throttledMs := if low then x.throttledMs + 1 else x.throttledMs,
             cnt := if low then { x.cnt with throttled := x.cnt.throttled + 1 } else x.cnt,
             events := if hit then withBit x.events 7 else x.events }
  if hit then s.notice (x.events.getLsbD 7) "PLOT_EVENT" else s

/-- CAP_EVALUATION (R380, R382): at each multiple of 1,000 ticks, for every defined plot. -/
def execCapEvaluation (s : State) : Out :=
  if s.ring.tick.toNat % 1000 = 0 then .next (s.plotMaps.foldl (fun s m => s.evalCap (plotId m.plot)) s) else .next s

/-- LIMIT_MW is written: the crown sends CAP_CHANGED with the new effective cap (R373, R380). DEDUCED: log entry 133. -/
def State.setLimit (s : State) (p : PlotId) (mw : BitVec 20) : State :=
  if s.plots[p].limitMw = mw then s
  else
    let s := s.modPlot p fun x => { x with limitMw := mw }
    s.crownMessage p 0x83 (BitVec.ofNat 64 (s.effCap p))

/-! ### Crown messages (R373) -/

/-- CROWN_MESSAGE_SEND (R373): messages held for bough b are posted, in order, as far as credits reach. -/
def execCrownMessageSend (b : BoughId) (s : State) : Out :=
  match s.boughPlot b.val with
  | none => .next s
  | some m =>
    let p := plotId m.plot
    let ms := s.plots[p].msgs.filter fun x => x.1 == b
    let r := postMsgs (ms.length + 1) s p ms []
    .next (r.1.modPlot p fun x => { x with msgs := (x.msgs.filter fun x => x.1 != b) ++ r.2 })

end Sys2Proof.Machine
end

