-- ==== Sys2Proof/Machine/GrainImage.lean ====
section
/-! DEFINITION. The Grain image (chapter 15): its parts and the loader's checks in their order (R391 to R409, R413). A check
that fails gives its code and the byte offset of the section that failed. -/

namespace Sys2Proof.Machine

/-- The result of a check: a rejection is a code of R407 and a byte offset. -/
abbrev Chk (α : Type) := Except (Nat × Nat) α

def need (c : Bool) (code off : Nat) : Chk Unit := if c then .ok () else .error (code, off)

/-- A word of a flash slot; what was not written reads as erased flash, all ones (R407). PRESUMED: log entry 34. -/
def slotWord (slot : List Word) (i : Nat) : Word := (slot[i]?).getD (BitVec.allOnes 64)

/-- A section: the byte offset of its header, its TYPE and its body. -/
structure Section where
  off : Nat
  typ : Nat
  body : List Word
  deriving DecidableEq, Repr

/-! ### Framing (R391-R394) -/

def bitsZero (w : Word) (lo n : Nat) : Bool := fieldAt w lo n == 0

/-- Step 1: the header. DEDUCED: log entry 33. -/
def checkHeader (w : Nat → Word) : Chk Unit :=
  need (fieldAt (w 0) 0 32 == 0x47524e31 && fieldAt (w 0) 32 16 == 1 && bitsZero (w 0) 48 16 && fieldAt (w 3) 0 32 == 0x54560256 &&
    bitsZero (w 3) 32 32 && fieldAt (w 1) 0 32 % 8 == 0 && decide (184 ≤ fieldAt (w 1) 0 32) && decide (fieldAt (w 1) 0 32 ≤ 0x400000)) 1 0

/-- Cuts the words from `i` to `n` into sections. DEDUCED: log entry 33. -/
def cutSections (raw : List Word) : Nat → Nat → Chk (List Section)
  | 0, i => .error (5, 8 * i)
  | fuel + 1, i =>
    if i = raw.length then .ok []
    else
      match raw[i]? with
      | none => .error (5, 8 * i)
      | some h =>
        let n := fieldAt h 16 32
        if bitsZero h 48 16 && n % 8 == 0 && decide (i + 1 + n / 8 ≤ raw.length) then do
          let rest ← cutSections raw fuel (i + 1 + n / 8)
          .ok ({ off := 8 * i, typ := fieldAt h 0 16, body := (raw.drop (i + 1)).take (n / 8) } :: rest)
        else .error (5, 8 * i)

def isNote (t : Nat) : Bool := decide (0x8000 ≤ t) && decide (t ≤ 0xfffe)

/-- The body length of a section type in words. -/
def bodyOk (x : Section) : Bool :=
  let n := x.body.length
  match x.typ with
  | 1 => n == 22
  | 2 => n == 4
  | 3 => n == 1
  | 4 => n % 2 == 1 && decide (n ≤ 4097)
  | 5 => n % 2 == 0 && decide (n ≤ 2048)
  | 6 => n == 1
  | 7 => n == 65
  | 8 => decide (1 ≤ n)
  | 0xffff => n == 18
  | t => isNote t

/-- The order of two neighbouring sections, notes left out: types ascend, and plots ascend within a type. -/
def orderOk (a b : Section) : Bool :=
  decide (a.typ < b.typ) ||
    (a.typ == b.typ && (a.typ == 1 || a.typ == 8) && decide (fieldAt (a.body.headD 0) 0 6 < fieldAt (b.body.headD 0) 0 6))

/-- The first section that is out of order. -/
def outOfOrder : List Section → Option Nat
  | a :: b :: l => if orderOk a b then outOfOrder (b :: l) else some b.off
  | _ => none

def ofType (xs : List Section) (t : Nat) : List Section := xs.filter fun x => x.typ == t

/-- Step 5: framing, order and counts. -/
def checkFraming (raw : List Word) : Chk (List Section) := do
  let xs ← cutSections raw (raw.length + 1) 4
  match xs.find? fun x => !bodyOk x with
  | some x => .error (5, x.off)
  | none =>
    match outOfOrder (xs.filter fun x => !isNote x.typ) with
    | some off => .error (5, off)
    | none => do
      need ((ofType xs 2).length == 1 && (ofType xs 3).length == 1 && (ofType xs 6).length == 1 && (ofType xs 7).length == 1 &&
        (ofType xs 0xffff).length == 1 && (match xs.getLast? with | some x => x.typ == 0xffff | none => false) &&
        decide ((ofType xs 4).length ≤ 1) && decide ((ofType xs 5).length ≤ 1)) 5 32
      need (fieldAt ((raw[1]?).getD 0) 32 32 == xs.length) 5 12
      .ok xs

/-! ### Sections (R395-R402) -/

/-- A bit map held in words, bit n of word j being item 64j + n. -/
def mapNat (ws : List Word) : Nat := (List.range ws.length).foldl (fun a i => a + ((ws[i]?).getD 0).toNat * 2 ^ (64 * i)) 0

def plotMapOf (ws : List Word) : PlotMap :=
  let w0 := ws.headD 0
  let w1 := (ws[1]?).getD 0
  { plot := fieldAt w0 0 6, vf := if w0.getLsbD 6 then some (fieldAt w0 8 6) else none,
    evq := if w0.getLsbD 26 then some (fieldAt w0 16 10) else none, timer := fieldAt w0 32 32, progBase := fieldAt w1 0 8,
    progUnits := fieldAt w1 8 9, progRo := w1.getLsbD 17, boughs := BitVec.ofNat 256 (mapNat ((ws.drop 2).take 4)),
    regions := BitVec.ofNat 512 (mapNat ((ws.drop 6).take 8)), keep := BitVec.ofNat 512 (mapNat ((ws.drop 14).take 8)) }

/-- Records of two words each. -/
def pairs : List Word → List (Word × Word)
  | a :: b :: l => (a, b) :: pairs l
  | _ => []

/-- The halfwords of a list of words. -/
def halfwords (ws : List Word) : List (BitVec 16) :=
  ws.flatMap fun w => (List.range 4).map fun i => BitVec.ofNat 16 (w.toNat / 2 ^ (16 * i))

def firstBody (xs : List Section) (t : Nat) : List Word := ((ofType xs t).head?.map (·.body)).getD []
def firstOff (xs : List Section) (t : Nat) : Nat := ((ofType xs t).head?.map (·.off)).getD 0

/-- The image as the sections give it. -/
def grainOf (raw : List Word) (xs : List Section) : Grain :=
  let path := (firstBody xs 3).headD 0
  let chain := firstBody xs 4
  let opt := (firstBody xs 6).headD 0
  let pow := firstBody xs 7
  { serial := (raw[2]?).getD 0, plots := (ofType xs 1).map fun x => plotMapOf x.body,
    boughEn := BitVec.ofNat 256 (mapNat (firstBody xs 2)), uplinks := BitVec.ofNat 16 (fieldAt path 0 16),
    downlinks := BitVec.ofNat 16 (fieldAt path 16 16), rank := fieldAt (chain.headD 0) 0 2, links := pairs (chain.drop 1),
    queues := pairs (firstBody xs 5), hashEn := BitVec.ofNat 16 (fieldAt opt 0 16), graftEn := BitVec.ofNat 4 (fieldAt opt 16 4),
    split := fieldAt opt 20 2, maxLevel := fieldAt (pow.headD 0) 0 2, dormantEn := (pow.headD 0).getLsbD 2,
    idleMs := fieldAt (pow.headD 0) 16 16, deviceW := fieldAt (pow.headD 0) 32 16, caps := (pow.drop 1).map fun w => fieldAt w 0 20,
    progs := (ofType xs 8).map fun x => (fieldAt (x.body.headD 0) 0 6, (halfwords (x.body.drop 1)).take (fieldAt (x.body.headD 0) 32 32)),
    raw := raw }

def Grain.queueRec (g : Grain) (q : Nat) : Option (Word × Word) := g.queues.find? fun r => fieldAt r.1 0 10 == q

/-- No two entries of a list satisfy `p`. -/
def noPair {α : Type} (p : α → α → Bool) : List α → Bool
  | [] => true
  | x :: xs => xs.all (fun y => !p x y) && noPair p xs

/-- Groves that hold a bough of a map. -/
def grovesOf (b : BitVec 256) : List Nat := (List.range 16).filter fun g => b.toNat / 2 ^ (16 * g) % 65536 != 0

/-! ### Step 6: plots (R361, R370, R408) -/

def plotBitsOk (ws : List Word) : Bool :=
  let w0 := ws.headD 0
  let w1 := (ws[1]?).getD 0
  bitsZero w0 7 1 && bitsZero w0 14 2 && bitsZero w0 27 5 && bitsZero w1 18 46 && (w0.getLsbD 6 || bitsZero w0 8 6) &&
    (w0.getLsbD 26 || bitsZero w0 16 10)

/-- An event queue of a plot (R370). -/
def evqOk (g : Grain) (m : PlotMap) : Bool :=
  match m.evq with
  | none => true
  | some q => match g.queueRec q with
    | none => false
    | some r => recPlot r == m.plot && recProd r == .device && match recCons r with
      | .bough b => m.boughs.getLsbD b
      | .host id => decide (id < 64) && m.vf == some id
      | _ => false

def plotOk (g : Grain) (m : PlotMap) : Bool :=
  m.boughs != 0 && m.boughs &&& ~~~g.boughEn == 0 && decide (1 ≤ m.progUnits) && decide (m.progBase + m.progUnits ≤ 256) && evqOk g m

/-- Two plots that clash: a bough, region, virtual function or program words in both. -/
def plotsClash (a b : PlotMap) : Bool :=
  a.boughs &&& b.boughs != 0 || a.regions &&& b.regions != 0 || (a.vf.isSome && a.vf == b.vf) ||
    ((grovesOf a.boughs).any (fun g => (grovesOf b.boughs).contains g) && decide (a.progBase < b.progBase + b.progUnits) &&
      decide (b.progBase < a.progBase + a.progUnits))

def checkPlots (g : Grain) (xs : List Section) : Chk Unit := do
  match (ofType xs 1).find? fun x => !(plotBitsOk x.body && plotOk g (plotMapOf x.body)) with
  | some x => .error (6, x.off)
  | none => need (noPair plotsClash g.plots) 6 (firstOff xs 1)

/-! ### Step 7: canopy paths (R397) -/

def checkPaths (g : Grain) (xs : List Section) : Chk Unit :=
  let w := (firstBody xs 3).headD 0
  let needsDown (k : Nat) : Bool := g.queues.any (fun r => fieldAt r.1 0 10 / 64 == k) ||
    g.links.any fun r => !r.1.getLsbD 28 && fieldAt r.1 16 8 / 16 == k
  need (bitsZero w 32 32 && (List.range 16).all fun k =>
    ((!(grovesOf g.boughEn).contains k) || (g.uplinks.getLsbD k && g.downlinks.getLsbD k)) && (!needsDown k || g.downlinks.getLsbD k)) 7 (firstOff xs 3)

/-! ### Step 8: chain topology (R169-R171, R398) -/

def lkFrom (r : Word × Word) : Bool := r.1.getLsbD 12
def lkTo (r : Word × Word) : Bool := r.1.getLsbD 28
def lkSrc (r : Word × Word) : Nat := fieldAt r.1 0 8
def lkDst (r : Word × Word) : Nat := fieldAt r.1 16 8
def lkIn (r : Word × Word) : Nat := fieldAt r.1 13 2
def lkOut (r : Word × Word) : Nat := fieldAt r.1 29 2
def lkPlot (r : Word × Word) : Nat := fieldAt r.1 32 6
def lkTag (r : Word × Word) : Nat := fieldAt r.2 0 32
def lkUnits (r : Word × Word) : Nat := fieldAt r.2 32 7

def linkBitsOk (r : Word × Word) : Bool :=
  bitsZero r.1 15 1 && bitsZero r.1 31 1 && bitsZero r.1 38 26 && bitsZero r.2 39 25 &&
    (if lkFrom r then decide (4 ≤ lkUnits r) && decide (lkUnits r ≤ 64) else lkUnits r == 0)

def Grain.ownsBough (g : Grain) (p b : Nat) : Bool := g.plots.any fun m => m.plot == p && m.boughs.getLsbD b

/-- Rules 1, 2 and 6 for one link. -/
def linkOk (g : Grain) (r : Word × Word) : Bool :=
  linkBitsOk r && (lkFrom r || g.ownsBough (lkPlot r) (lkSrc r)) && (lkTo r || g.ownsBough (lkPlot r) (lkDst r)) &&
    (lkFrom r || lkTo r || lkSrc r != lkDst r) && (!lkFrom r || g.graftEn.getLsbD (lkIn r)) && (!lkTo r || g.graftEn.getLsbD (lkOut r)) &&
    (!(lkFrom r && lkTo r) || lkIn r != lkOut r)

/-- The endpoints that a link uses, as bough and number: an endpoint sends or receives on one link (R168). -/
def linkEnds (r : Word × Word) : List (Nat × Nat) :=
  (if lkFrom r then [] else [(lkSrc r, fieldAt r.1 8 4)]) ++ (if lkTo r then [] else [(lkDst r, fieldAt r.1 24 4)])

/-- A link belongs to plot p; a pass-through link belongs to none. -/
def lkOf (p : Nat) (r : Word × Word) : Bool := !(lkFrom r && lkTo r) && lkPlot r == p

/-- Two links that share an endpoint, or a tag at a graft port (rules 1 and 7). -/
def linksClash (a b : Word × Word) : Bool :=
  ((linkEnds a).any fun e => (linkEnds b).contains e) || (lkFrom a && lkFrom b && lkIn a == lkIn b && lkTag a == lkTag b) ||
    (lkTo a && lkTo b && lkOut a == lkOut b && lkTag a == lkTag b)

/-- Links between two boughs of this device, as edges (rule 3). -/
def localEdges (g : Grain) : List (Nat × Nat) := g.links.filterMap fun r => if lkFrom r || lkTo r then none else some (lkSrc r, lkDst r)

/-- Removes the edges that start at no edge's end, again and again; what is left lies on or behind a cycle. -/
def peel : Nat → List (Nat × Nat) → List (Nat × Nat)
  | 0, es => es
  | n + 1, es =>
    let es' := es.filter fun e => es.any fun d => d.2 == e.1
    if es'.length == es.length then es else peel n es'

/-- The boughs connected with those of `bs` (rule 4). -/
def spread : Nat → List (Nat × Nat) → List Nat → List Nat
  | 0, _, bs => bs
  | n + 1, es, bs =>
    let more := es.flatMap fun e => if bs.contains e.1 then [e.2] else if bs.contains e.2 then [e.1] else []
    let bs' := more.foldl (fun l b => insertNat b l) bs
    if bs'.length == bs.length then bs else spread n es bs'

def checkChain (g : Grain) (xs : List Section) : Chk Unit :=
  let off := firstOff xs 4
  let es := localEdges g
  do
    need (bitsZero ((firstBody xs 4).headD 0) 2 62) 8 off
    match (List.range g.links.length).find? fun i => match g.links[i]? with | some r => !linkOk g r | none => false with
    | some i => .error (8, off + 16 + 16 * i)
    | none => do
      need (noPair linksClash g.links) 8 off
      need ((peel (es.length + 1) es).isEmpty) 8 off
      need (es.all fun e => decide ((spread 256 es [e.1]).length ≤ 16)) 8 off
      need ((List.range 16).all fun k => decide ((g.links.filter fun r => !lkTo r && lkDst r / 16 == k).length ≤ 32)) 8 off
      need ((List.range 4).all fun n => decide (((g.links.filter fun r => lkFrom r && lkIn r == n).map lkUnits).sum ≤ 64)) 8 off

/-! ### Step 9: queue layout (R339, R340, R370, R373, R427, R544, R545) -/

/-- A role's identifier is legal for the image: boughs enabled, functions present under its split, graft ports on. -/
def roleOk (g : Grain) (kind id : Nat) : Bool :=
  match kind with
  | 0 => g.boughEn.getLsbD id
  | 1 => g.split == 3 || decide (id < 64) || (decide (0xf0 ≤ id) && decide (id - 0xf0 < portsPresent g.split))
  | 2 => decide (id < 4) && g.graftEn.getLsbD id
  | _ => id == 0

def recKinds (r : Word × Word) : (Nat × Nat) × (Nat × Nat) := ((fieldAt r.1 40 3, fieldAt r.1 48 8), (fieldAt r.2 0 3, fieldAt r.2 8 8))

def queueOk (g : Grain) (r : Word × Word) : Bool :=
  let k := recKinds r
  let base := fieldAt r.1 16 10
  let size := fieldAt r.1 28 11
  bitsZero r.1 26 2 && bitsZero r.1 39 1 && bitsZero r.1 43 5 && bitsZero r.1 56 8 && bitsZero r.2 3 5 && bitsZero r.2 27 5 &&
    decide (1 ≤ size) && decide (base + size ≤ 1024) && decide (k.1.1 ≤ 4) && decide (k.2.1 ≤ 3) && roleOk g k.1.1 k.1.2 && roleOk g k.2.1 k.2.2 &&
    (!(k.2.1 == 1 && decide (k.2.2 < 64)) || decide (recMsix r < 24)) && (k.1.1 == 2 || k.2.1 == 2 || recTag r == 0)

def graftPorts (r : Word × Word) : List Nat :=
  (if (recKinds r).1.1 == 2 then [(recKinds r).1.2] else []) ++ (if (recKinds r).2.1 == 2 then [(recKinds r).2.2] else [])

/-- Two records that clash: one number, overlapping rings of one store, one tag at a port, two crown queues of a bough, or two
ledger queues. -/
def queuesClash (a b : Word × Word) : Bool :=
  let qa := fieldAt a.1 0 10
  let qb := fieldAt b.1 0 10
  qa == qb ||
    (qa / 64 == qb / 64 && decide (fieldAt a.1 16 10 < fieldAt b.1 16 10 + fieldAt b.1 28 11) &&
      decide (fieldAt b.1 16 10 < fieldAt a.1 16 10 + fieldAt a.1 28 11)) ||
    ((graftPorts a).any (fun n => (graftPorts b).contains n) && recTag a == recTag b) ||
    (recProd a == .crown && recProd b == .crown && recCons a == recCons b && (recKinds a).2.1 == 0) || (isLedgerRec a && isLedgerRec b)

/-- Queues that name a host function. -/
def Grain.fnQueues (g : Grain) (id : Nat) : Nat := (g.queues.filter fun r => recProd r == .host id || recCons r == .host id).length

def checkQueues (g : Grain) (xs : List Section) : Chk Unit :=
  let off := firstOff xs 5
  match (List.range g.queues.length).find? fun i => match g.queues[i]? with | some r => !queueOk g r | none => false with
  | some i => .error (9, off + 8 + 16 * i)
  | none => do
    need (noPair queuesClash g.queues && rising (g.queues.map fun r => fieldAt r.1 0 10)) 9 off
    need ((List.range 64).all (fun v => decide (g.fnQueues v ≤ 15)) && (List.range 4).all fun n => decide (g.fnQueues (0xf0 + n) ≤ 512)) 9 off

/-! ### Steps 10 to 12 (R400-R402) -/

/-- Step 10 but for the comparison with the split in force. Every virtual function exists under each split. -/
def checkUnits (g : Grain) (xs : List Section) : Chk Unit :=
  need (bitsZero ((firstBody xs 6).headD 0) 22 42 && g.split != 3) 10 (firstOff xs 6)

def checkPower (g : Grain) (xs : List Section) : Chk Unit :=
  let ws := firstBody xs 7
  let w := ws.headD 0
  need (bitsZero w 3 13 && bitsZero w 48 16 && decide (g.deviceW ≤ 250) && (ws.drop 1).all (fun w => bitsZero w 20 44) &&
    (List.range 64).all fun p => (g.plots.any fun m => m.plot == p) || (g.caps[p]?).getD 0 == 0) 11 (firstOff xs 7)

def progOk (g : Grain) (x : Section) : Bool :=
  let w := x.body.headD 0
  let n := fieldAt w 32 32
  let hs := halfwords (x.body.drop 1)
  bitsZero w 6 26 && (match g.plots.find? fun m => m.plot == fieldAt w 0 6 with | some m => decide (n ≤ 4096 * m.progUnits) | none => false) &&
    x.body.length == 1 + (n + 3) / 4 && hs.all (fun h => decide (h.toNat < 0x4000)) && (hs.drop n).all (· == 0)

def checkPrograms (g : Grain) (xs : List Section) : Chk Unit :=
  match (ofType xs 8).find? fun x => !progOk g x with
  | some x => .error (12, x.off)
  | none => need (g.plots.all fun m => g.progs.any fun q => q.1 == m.plot) 12 (firstOff xs 8)

/-! ### Step 13: the scope of a regrain (R413) -/

/-- The chain buffer of the k-th record (R171). -/
def bufOf (ls : List (Word × Word)) (k : Nat) : Option Nat :=
  match ls[k]? with
  | none => none
  | some r => if lkTo r then none else some ((ls.take k).filter fun x => !lkTo x && lkDst x / 16 == lkDst r / 16).length

/-- Link records with their chain buffers. -/
def linksWithBuf (ls : List (Word × Word)) : List ((Word × Word) × Option Nat) := (List.range ls.length).filterMap fun k => (ls[k]?).map fun r => (r, bufOf ls k)

def othersMap (g : Grain) (p : Nat) : List PlotMap := g.plots.filter fun m => m.plot != p

/-- Boughs of plots other than p. -/
def othersBoughs (g : Grain) (p : Nat) : BitVec 256 := (othersMap g p).foldl (fun b m => b ||| m.boughs) 0

/-- A grove that holds a bough, queue or chain buffer of a plot other than p. -/
def groveOthers (g : Grain) (p k : Nat) : Bool :=
  (grovesOf (othersBoughs g p)).contains k || g.queues.any (fun r => recPlot r != p && fieldAt r.1 0 10 / 64 == k) ||
    g.links.any fun r => !lkOf p r && !lkTo r && lkDst r / 16 == k

def scopeOk (old new : Grain) (p : Nat) : Bool :=
  othersMap old p == othersMap new p && (old.progs.filter fun x => x.1 != p) == (new.progs.filter fun x => x.1 != p) &&
    old.hashEn == new.hashEn && old.graftEn == new.graftEn && old.split == new.split && old.maxLevel == new.maxLevel &&
    old.dormantEn == new.dormantEn && old.idleMs == new.idleMs && old.deviceW == new.deviceW && old.rank == new.rank &&
    (List.range 64).all (fun q => q == p || old.caps[q]? == new.caps[q]?) &&
    ((old.boughEn ^^^ new.boughEn) &&& (othersBoughs old p ||| othersBoughs new p)) == 0 &&
    (List.range 16).all (fun k => (old.uplinks.getLsbD k == new.uplinks.getLsbD k && old.downlinks.getLsbD k == new.downlinks.getLsbD k) ||
      !(groveOthers old p k || groveOthers new p k)) &&
    ((linksWithBuf old.links).filter fun x => !lkOf p x.1) == ((linksWithBuf new.links).filter fun x => !lkOf p x.1) &&
    (old.queues.filter fun r => recPlot r != p) == new.queues.filter fun r => recPlot r != p

/-! ### The whole check (R407, R409, R460) -/

/-- The bytes of the image before its signature section, and the signature's r and s. -/
def signedBytes (raw : List Word) : List Byte := wordsBytes (raw.take (raw.length - 19))
def sigBytes (raw : List Word) : List Byte := wordsBytes (raw.drop (raw.length - 12))

/-- Steps 1 to 5 (R407, R409): at BOOT the active image's SERIAL is not compared, since there is none. DESIGN CHOICE: log entry 97. -/
def State.checkOuter (s : State) (slot : List Word) : Chk (List Word × List Section) := do
  checkHeader (slotWord slot)
  let n := fieldAt (slotWord slot 1) 0 32 / 8
  let raw := (List.range n).map (slotWord slot)
  match s.grn.owner with
  | none => .error (2, 0)
  | some key => do
    let sig := (raw[n - 19]?).getD 0
    need (sig == packWord [(0, 16, 0xffff), (16, 32, 144)] && (raw.drop (n - 18)).take 6 == Config.sha384 key &&
      Config.ecdsaVerify key (signedBytes raw) (sigBytes raw)) 3 (8 * (n - 19))
    need (decide (s.grn.floor.toNat ≤ ((raw[2]?).getD 0).toNat) &&
      (match s.grn.active with | some g => decide (g.serial.toNat < ((raw[2]?).getD 0).toNat) | none => true)) 4 16
    let xs ← checkFraming raw
    .ok (raw, xs)

/-- Steps 6 to 13. The flag says that the image fails only for its HOST_SPLIT (R460). DEDUCED: log entries 136, 137. -/
def State.checkInner (s : State) (raw : List Word) (xs : List Section) (p : Option PlotId) : Chk (Grain × Bool) := do
  let g := grainOf raw xs
  checkPlots g xs
  checkPaths g xs
  checkChain g xs
  checkQueues g xs
  checkUnits g xs
  checkPower g xs
  checkPrograms g xs
  match p, s.grn.active with
  | some p, some old => need (g.split != s.grn.split || scopeOk old g p.val) 13 0
  | some _, none => .error (13, 0)
  | none, _ => .ok ()
  .ok (g, g.split != s.grn.split)

/-- The loader's checks of a slot. DEDUCED: log entry 137. -/
def State.checkImage (s : State) (slot : Fin 2) (p : Option PlotId) : Chk (Grain × Bool) := do
  let r ← s.checkOuter s.grn.slots[slot]
  s.checkInner r.1 r.2 p

end Sys2Proof.Machine
end

