-- ==== Sys2Proof/Machine/Device.lean ====
section
/-! DEFINITION. What the whole device does at once: modes (R515, R516), the loss of a host port (R468) and of a graft partner
(R482), drains (R24), the ledger flush (R437), QUARANTINE (R525, R526) and device reset (R520 to R523). -/

namespace Sys2Proof.Machine

/-! ### Modes (R515, R516) -/

/-- The mode changes; the crown sees one event. Outside SERVICE the slices use the skew fold (R268). -/
def State.setMode (s : State) (m : Mode) : State :=
  let s := if m == .service then s else s.setMap false
  { s with sys := { s.sys with mode := m } }.raise (.modeChange m)

/-- The level's CCLK divider and VDD_CORE in mV (R18). -/
def lvlDiv (l : Nat) : Nat := match l with | 0 => 4 | 1 => 5 | 2 => 6 | _ => 8
def lvlMv (l : Nat) : Nat := match l with | 0 => 800 | 1 => 720 | 2 => 660 | _ => 600

/-- FAULT_N is asserted (R561). -/
def State.faultN (s : State) : Bool := !s.pwr.refclkOk || s.sys.mode == .quarantine || s.sys.trip

/-! ### Mailbox completion (R532, R534) -/

/-- A mailbox command completes: its code, detail and the count of data words; GO reads 0. -/
def State.finishChan (s : State) (ch : Fin 5) (code detail words : Nat) : State :=
  s.modChan ch fun c => { c with go := false, busy := false, code := BitVec.ofNat 8 code, detail := BitVec.ofNat 8 detail, words := BitVec.ofNat 6 words }

def State.finishOpt (s : State) (ch : Option (Fin 5)) (code detail : Nat) : State :=
  match ch with
  | some c => s.finishChan c code detail 0
  | none => s

/-! ### Host ports (R452, R464, R468, R469) -/

/-- Virtual functions that port n serves under the split in force (R460). -/
def State.portVfs (s : State) (n : PortId) : List VfId :=
  (List.finRange 64).filter fun v => decide (n.val < portsPresent s.grn.split) && vfPort s.grn.split v == n

/-- A function's configuration state, MSI-X table and PBA take their PCIe reset values. -/
def State.resetFn (s : State) (fn : HostFn) : State := s.modFunc fn fun _ => Func.start

/-- The functions of port n. -/
def State.portFns (s : State) (n : PortId) : List HostFn := HostFn.pf n :: (s.portVfs n).map HostFn.vf

/-- The transport of port n's DOE. -/
def doeOf (n : PortId) : Fin 9 := ⟨n.val, by omega⟩

/-- IDE keys of port n are erased and the sessions opened on its DOE end (R452). -/
def State.eraseIde (s : State) (n : PortId) : State :=
  { s with hwd := { s.hwd with ide := vset s.hwd.ide n ⟨[], [], false⟩, sessions := s.hwd.sessions.filter fun x => x.tr ≠ doeOf n,
                               transports := vset s.hwd.transports (doeOf n) Transport.start } }

/-- A packet that a lost function holds open for producing is discarded and its credits return (R468). -/
def State.dropProd (s : State) (q : QueueId) : State :=
  s.modQueue q fun x => match x.prod with
    | some o => { x with prod := none, prodVoid := true, credits := x.credits + o.cap + 1 }
    | none => x

/-- Port n is lost (R468). -/
def State.loseHost (s : State) (n : PortId) (surprise : Bool) : State :=
  let fns := s.portFns n
  let s := s.discardWrites fun t => t.who == .host n
  let s := { s with cnp := { s.cnp with hostAbsorb := withBit s.cnp.hostAbsorb n.val } }
  let s := s.eraseIde n
  let s := (List.finRange 1024).foldl (fun s q => match s.prodOf q.val with
    | some (.host id) => if fns.any fun f => hostFnId f == id then s.dropProd q else s
    | _ => s) s
  let s := (s.portVfs n).foldl (fun s v => match s.vfPlot v.val with
    | some m => s.plotEvent (plotId m.plot) 3 0xff n.val 0
    | none => s) s
  let s := fns.foldl (fun s f => s.resetFn f) s
  let s := s.modPort n fun p =>
    { p with linkUp := false, speed := 0, width := 0, flit := false, l1 := false, aspm := false, held := [], downs := satAdd 16 p.downs 1,
             reads := p.reads.map fun r => { r with absorb := true } }
  let s := s.hostEvent n 0
  if surprise then s.hostEvent n 1 else s

/-! ### Graft partners (R477, R482) -/

/-- An item that an image declares on a graft port: tag, role (R472) and the plot that it belongs to. -/
structure GraftItem where
  tag : BitVec 32
  role : Nat
  plot : Option Nat
  deriving DecidableEq, Repr

/-- The items of an image on port n: leaving links, entering links, queues produced into, queues consumed. -/
def Grain.graftItems (g : Grain) (n : PortId) : List GraftItem :=
  (g.links.flatMap fun r =>
    (if lkTo r && lkOut r == n.val then [⟨BitVec.ofNat 32 (lkTag r), 0, if lkFrom r then none else some (lkPlot r)⟩] else []) ++
      (if lkFrom r && lkIn r == n.val then [⟨BitVec.ofNat 32 (lkTag r), 1, if lkTo r then none else some (lkPlot r)⟩] else [])) ++
    g.queues.flatMap fun r =>
      (if recCons r == .graft n.val then [⟨recTag r, 2, some (recPlot r)⟩] else []) ++
        (if recProd r == .graft n.val then [⟨recTag r, 3, some (recPlot r)⟩] else [])

def State.graftItems (s : State) (n : PortId) : List GraftItem :=
  match s.grn.active with
  | some g => g.graftItems n
  | none => []

/-- Sets a bit of GRFT_EVENT; bits 0, 1 and 4 raise one crown notice (R486). -/
def State.graftEvent (s : State) (n : PortId) (bit : Nat) : State :=
  let was := s.grafts[n].event.getLsbD bit
  let s := s.modGraft n fun p => { p with event := p.event ||| BitVec.ofNat 5 (2 ^ bit) }
  if bit == 0 || bit == 1 || bit == 4 then s.notice was "GRFT_EVENT" else s

/-- A graft port leaves its link: everything that belongs to one training is forgotten. -/
def GraftPort.fresh (p : GraftPort) (st : GraftSt) : GraftPort :=
  { p with st := st, locked := 0, helloSeen := false, helloAcked := false, txSeq := 0, rxSeq := 0, nakDue := false, unacked := [], waiting := [], served := 0,
           rxChain := [], rxNonce := [], rxSig := [], authSent := false, peerAdmit := [], admitLast := false, admitSent := false, tags := [] }

def State.setGraft (s : State) (n : PortId) (st : GraftSt) : State := s.modGraft n fun p => p.fresh st

/-- The state that a port takes when it leaves its link: OFF while HOLD is 1 or GRAFT_EN clears it, LISTEN otherwise. -/
def State.graftRest (s : State) (n : PortId) : GraftSt :=
  if s.grafts[n].hold || !(s.grn.active.map (·.graftEn.getLsbD n.val)).getD false then .off else .listen

/-- A packet that arrives from the peer is discarded; packets being sent stay pending (R482). DEDUCED: log entry 142. -/
def State.graftQueuesDown (s : State) (n : PortId) : State :=
  (List.finRange 1024).foldl (fun s q => match s.queueRec q.val with
    | none => s
    | some r =>
      if recProd r == .graft n.val then
        s.modQueue q fun x => match x.prod with
          | some o => { x with prod := none, credits := x.credits + o.cap + 1, rxPseq := none }
          | none => { x with rxPseq := none }
      else if recCons r == .graft n.val then s.modQueue q fun x => { x with txBusy := false, txGrant := 0 }
      else s) s

/-- GRAFT_LOST to every plot that has a link or queue on the port, with the tag of its first item (R371, R482). DEDUCED: log entry 142. -/
def State.graftLost (s : State) (n : PortId) : State :=
  let items := s.graftItems n
  s.plotMaps.foldl (fun s m => match items.find? fun i => i.plot == some m.plot with
    | some i => s.plotEvent (plotId m.plot) 2 0xff n.val (i.tag.zeroExtend 64)
    | none => s) s

def Link.crosses (l : Link) (n : PortId) : Bool := (l.fromGraft && l.inPort == n) || (l.toGraft && l.outPort == n)

/-- A port in UP loses its partner (R482); `leave` says that it sends LEAVE first. -/
def State.partnerLost (s : State) (n : PortId) (leave : Bool) : State :=
  let s := if leave then s.portsDrain n |>.sendFlit n fkLeave [] else s
  let s := { s with cnp := { s.cnp with graftAbsorb := withBit s.cnp.graftAbsorb n.val } }
  let s := s.breakLinks (fun l => l.crosses n) 3
  let s := (s.graftQueuesDown n).graftLost n
  let s := { s.graftEvent n 0 with hwd := { s.hwd with graftAuth := dropBit s.hwd.graftAuth n.val } }
  s.setGraft n (s.graftRest n)

/-- A port in any state goes down: from UP as a partner loss with LEAVE. -/
def State.graftDown (s : State) (n : PortId) : State :=
  if s.grafts[n].st == .up then s.partnerLost n true
  else { s with hwd := { s.hwd with graftAuth := dropBit s.hwd.graftAuth n.val } }.setGraft n (s.graftRest n)

/-! ### Drains (R24) -/

/-- FREEZE on every bough. -/
def State.freezeAll (s : State) (on : Bool) : State := { s with boughs := s.boughs.map fun y => { y with freeze := on } }

/-- FREEZE clears, except on boughs of plots that park or are parked (R375, R512). -/
def State.unfreezeAll (s : State) : State :=
  { s with boughs := s.boughs.mapFinIdx fun i y _ =>
    { y with freeze := match s.boughPlot i with
        | some m => s.plots[plotId m.plot].st == .parking || s.plots[plotId m.plot].st == .parked
        | none => false } }

def State.beginDrain (s : State) (d : DrainFor) : State :=
  { s with sys := { s.sys with drainFor := some d } }.freezeAll true |>.setMode .drain

/-- Every journal half is FREE and every canopy port is clean. -/
def State.drained (s : State) : Bool :=
  (List.finRange 256).all (fun b => (s.bough b).halves.toList.all (fun h => h.st == .free) && s.boughClean b) &&
    (List.finRange 4).all fun n => s.masterClean (.host n) && s.masterClean (.crown n)

/-! ### The ledger flush (R437) -/

/-- The flush area as the ledger writes it now: open copies of the defined plots, or of those that a
device reset under way found defined, and minute records that have closed. -/
def State.flushArea (s : State) : FlushArea :=
  { tick := s.ring.tick, offset := s.ring.offset, lostItems := s.ring.others,
    closing := (s.ring.unsigned ++ s.ring.signed).filter fun i => i.typ == tyMinute,
    recs := (((s.grn.active.or s.grn.last).map (·.plots)).getD []).map fun m => ⟨plotId m.plot, s.plots[plotId m.plot].cnt⟩ }

/-- The ledger writes the flush area; before BOOT has restored the ledger there is nothing to flush. DEDUCED: log entry 120. -/
def State.writeFlush (s : State) : State := if s.sys.restoreDue.isSome then s else { s with ring := { s.ring with flush := some s.flushArea } }

/-- Only the header is written (R437). DEDUCED: log entry 120. -/
def State.writeFlushHeader (s : State) : State :=
  if s.sys.restoreDue.isSome then s
  else { s with ring := { s.ring with flush := some { (s.ring.flush.getD ⟨0, 0, 0, [], []⟩) with tick := s.ring.tick, offset := s.ring.offset } } }

/-! ### Leaving the image -/

/-- A plot's record closes at the tick in force, unless it would be empty (R419, R440). DESIGN CHOICE: log entry 41. -/
def State.closeAt (s : State) (p : PlotId) (flags : Word) : State :=
  if s.plots[p].cnt.startTick = s.ring.tick then s else s.closeRecord p s.ring.tick flags

/-- No image is active: graft ports go OFF, records close, plots are undefined, their twigs stop, queues and links are gone. -/
def State.undefine (s : State) : State :=
  let s := (List.finRange 4).foldl (fun s n => if s.grafts[n].st == .up then s.partnerLost n true else s) s
  let s := (List.finRange 4).foldl (fun (s : State) n => s.setGraft n .off) s
  let s := s.plotMaps.foldl (fun s m => s.closeAt (plotId m.plot) 0) s
  { s with grn := { s.grn with active := none, last := none, req := none, staged := none, waiting := [], st := .idle, zeroing := 0 },
           boughs := s.boughs.map fun y => { Bough.start with nextOrd := y.nextOrd },
           plots := s.plots.map fun x => { x with st := .undefined, park := false, preempt := false, graceOn := false, resetBusy := false, resetWaits := false,
                                                  heldEvents := [], msgs := [] },
           links := [], queues := Vector.replicate 1024 (Queue.start 0),
           ring := { s.ring with journal := s.ring.journal.map fun x => { x with posted := false } } }

/-! ### QUARANTINE (R525, R526) -/

/-- A port's functions are brought up when the port is present (R464, R517). -/
def HostPort.bringUp (p : HostPort) (present : Bool) : HostPort := { p with broughtUp := p.broughtUp || present, trainLate := false }

/-- The device enters QUARANTINE: its host-port functions are up, and no plot is defined. DEDUCED: log entry 96. -/
def State.quarantine (s : State) (cause : Nat) : State :=
  let s := s.undefine.setMode .quarantine
  let s := { s with sys := { s.sys with qcause := BitVec.ofNat 8 cause, toService := false, drainFor := none },
                    ports := s.ports.mapFinIdx fun i p _ => p.bringUp (decide (i < portsPresent s.grn.split)) }
  let s := s.ringAdd 24 1
  if 4 ≤ s.sys.bootStep then s.note 7 (BitVec.ofNat 64 cause) 0
  else { s with sys := { s.sys with qnotes := s.sys.qnotes ++ [BitVec.ofNat 8 cause] } }

/-! ### Device reset (R520-R523) -/

/-- The slices complete what the canopy has decided (R280): bursts with a commit mark, those that were held first, and transactions that have
had COMMIT. -/
def State.settleSlices (s : State) : State :=
  let marked := (s.heldWrites.filter fun h => h.burst.mark).map (·.burst) ++ s.slices.toList.flatMap (fun k => k.inbox.filterMap fun m => match m with
    | .beat b => if b.mark then some b else none
    | .read _ => none)
  let decided (b : Burst) : Bool := s.txns.any fun t => t.id = b.txn && t.decision == some true
  let staged := s.slices.toList.flatMap fun k => k.staging.filter decided
  let s := { s with heldWrites := s.heldWrites.filter fun h => !h.burst.mark,
                    slices := s.slices.map fun k => { k with staging := k.staging.filter fun b => !decided b, inbox := k.inbox.filter fun m => match m with
                      | .beat b => !b.mark
                      | .read _ => true } }
  (staged ++ marked).foldl (fun s b => s.commitBurst [] b) s

/-- The slices complete their queued reads (R280). -/
def State.finishReads (s : State) : State :=
  let rs := s.slices.toList.flatMap (·.queue)
  rs.foldl (fun s q => s.respond q.req { key := ⟨0, 0, false⟩, base := q.req.addr, data := q.data, poison := q.poison, fault := none })
    { s with slices := s.slices.map fun k => { k with queue := [] } }

/-- A stack across a core reset: in self-refresh, or off once its clock was lost or when it had failed. -/
def Stack.afterReset (x : Stack) (lost : Bool) : Stack :=
  { Stack.start with state := if lost || x.state == 0 || x.state == 4 then 0 else 3, maker := x.maker }

/-- Core reset (R522): everything but the always-on domain, MRAM, flash and root memory takes its reset value; `lost` says that root
memory lost its contents (R523). DESIGN CHOICE: log entry 48. DEDUCED: log entry 49. -/
def State.coreReset (s : State) (lost : Bool) : State :=
  { State.reset with
    pending := s.pending
    mem := { s.mem.lose (fun z => lost || decide (512 ≤ z)) with dead := [] }
    plots := s.plots.map fun x => { Plot.start with cnt := x.cnt, prevHash := x.prevHash }
    hbm := s.hbm.map fun x => x.afterReset lost
    ring := { s.ring with journal := s.ring.journal.map (fun x => { x with posted := false }), backlogHit := false, torn := false, restored := false, backlogSlots := 3840, peak := 0, lost := 0, lifeSel := 0 }
    grn := { Grn.start with floor := s.grn.floor, slots := s.grn.slots, prefSlot := s.grn.prefSlot, owner := s.grn.owner,
                            splitNext := s.grn.splitNext, split := s.grn.split, prevOwners := if lost then [] else s.grn.prevOwners,
                            last := if lost then none else s.grn.active.or s.grn.last }
    hwd := { Hwd.start with nextSid := s.hwd.nextSid }
    ports := s.ports.map fun p => { HostPort.start with perst := p.perst }
    pwr := { Pwr.start with refclkOk := s.pwr.refclkOk, voltMv := s.pwr.voltMv, uj := s.pwr.uj, ujRem := s.pwr.ujRem, alarm := s.pwr.alarm,
                            stoppedUs := s.pwr.stoppedUs }
    sys := { s.sys with mode := .reset, qcause := 0, drainFor := none }
    crownEvts := s.crownEvts, outbox := s.outbox, nextId := s.nextId, fresh := s.fresh }

/-- The cause of a reset is recorded (R536). -/
def State.resetCause (s : State) (kind ch : Nat) (inside : Bool) : State :=
  { s with sys := { s.sys with kind := BitVec.ofNat 3 kind, channel := BitVec.ofNat 3 ch, count := satAdd 16 s.sys.count 1, internalReset := inside } }

/-- A device reset counts as a plot reset of every plot that it finds defined (R531). -/
def State.countReset (s : State) : State :=
  s.plotMaps.foldl (fun s m => (s.recFlag (plotId m.plot) 12).modPlot (plotId m.plot) fun x => { x with cnt := { x.cnt with resets := x.cnt.resets + 1 } }) s

/-- A device reset by RESET_N, the watchdog, the mailbox or a domain failure (R521, R531): drains end, the flush runs, graft ports send
LEAVE, host links go down, and the core is reset. DESIGN CHOICE: log entry 48. -/
def State.deviceReset (s : State) (kind ch : Nat) (inside : Bool) : State :=
  let s := s.setMap false
  let s := s.settleSlices.closeRegions.countReset.writeFlush
  let s := (List.finRange 4).foldl (fun s n => if s.grafts[n].st == .up then s.partnerLost n true else s) s
  let s := (List.finRange 4).foldl (fun s n => if s.ports[n].linkUp then s.loseHost n true else s) s
  ((s.coreReset false).resetCause kind ch inside).raise (.modeChange .reset)

/-- A device reset by REFCLK loss (R523): work stops where it stands, the flush runs on the backup oscillator, and root memory is
lost. DEDUCED: log entry 72. -/
def State.refclkReset (s : State) : State :=
  let s := ((s.setMap false).countReset.writeFlush.coreReset true).resetCause 4 0 false
  State.raise { s with sys := { s.sys with restoreDue := s.sys.restoreDue.or (some false) } } (.modeChange .reset)

/-- The device enters BOOT (R515): what RESET_N, REFCLK, VDD_AON and TRIP_N must be. -/
def State.bootAllowed (s : State) : Bool :=
  s.sys.mode == .reset && !s.sys.resetN && s.pwr.refclkOk && s.sys.aonGood && !s.sys.trip

def State.enterBoot (s : State) : State :=
  { s with sys := { s.sys with bootStep := 0, bootStart := 0, fwFallback := false, internalReset := false },
           ports := s.ports.map fun (p : HostPort) => { p with trainLate := !p.perst },
           pwr := { s.pwr with req := 3, level := 3, lvl := .idle } }.setMode .boot

end Sys2Proof.Machine
end

