-- ==== Sys2Proof/Machine/Power.lean ====
section
/-! DEFINITION. Performance levels, droop, throttle, sensors and the power thresholds (chapter 19, R491 to R501). -/

namespace Sys2Proof.Machine

def State.modPwr (s : State) (f : Pwr → Pwr) : State := { s with pwr := f s.pwr }

/-- Sets a bit of PWR_EVENT; the first setting raises one crown notice (R514). -/
def State.pwrEvent (s : State) (bit : Nat) : State :=
  let was := s.pwr.event.getLsbD bit
  (s.modPwr fun p => { p with event := withBit p.event bit }).notice was "PWR_EVENT"

/-- A write to VDD_CORE over AVSBus. -/
def State.avs (s : State) (mv : Nat) : State := (s.modPwr fun p => { p with targetMv := mv }).emit (.avs mv)

/-- MAX_LEVEL of the active power plan (R401). -/
def State.maxLevel (s : State) : Nat := (s.grn.active.map (·.maxLevel)).getD 0

def lvlOf (n : Nat) : Fin 4 := ⟨min n 3, by omega⟩

/-- The level that a request asks for now: not faster than MAX_LEVEL, and PL3 while the hardware throttle holds it (R492, R500). -/
def State.wanted (s : State) (l : Fin 4) : Fin 4 := if s.pwr.hwLive then 3 else lvlOf (max l.val s.maxLevel)

/-- A level change is in progress. -/
def State.lvlBusy (s : State) : Bool := s.pwr.lvl != .idle

/-- Level changes wait during Dormant entry, DORMANT and the wake (R513). -/
def State.lvlWaits (s : State) : Bool := s.sys.mode == .dormant || (s.sys.mode == .drain && s.sys.drainFor == some .dormant)

/-- The sequencer carries a request out (R493 to R496): a faster level raises the voltage first, a slower one switches first. A request
during a change is kept and replaces an earlier one; after a droop a faster request is ignored. -/
def State.changeLevel (s : State) (l : Fin 4) : State :=
  let t := s.wanted l
  if s.lvlBusy || s.lvlWaits then s.modPwr fun p => { p with keptReq := some l }
  else if s.pwr.droopHold && decide (t.val < 3) then s
  else if t.val < s.pwr.level.val then (s.modPwr fun p => { p with lvl := .settling p.level t }).avs (lvlMv t.val)
  else if s.pwr.level.val < t.val then s.modPwr fun p => { p with lvl := .edge1 p.level t }
  else s

/-- The kept request is carried out when a change completes (R495). -/
def State.carryKept (s : State) : State :=
  match s.pwr.keptReq with
  | some l => (s.modPwr fun p => { p with keptReq := none }).changeLevel l
  | none => s

/-- PWR_PL.REQ is set (R492); a write by the crown ends the hold after a droop (R496). -/
def State.setReq (s : State) (l : Fin 4) (crown : Bool) : State :=
  (s.modPwr fun p => { p with req := l, droopHold := p.droopHold && !crown }).changeLevel l

/-- PWR_PL_REQ (R492): a crown write of PWR_PL.REQ. -/
def execPwrPlReq (level : Fin 4) (s : State) : Out := .next (s.setReq level true)

/-- Within 15 mV of the target. DEDUCED: log entry 89. -/
def State.settled (s : State) (mv : Nat) : Bool := decide (mv ≤ s.pwr.targetMv + 15) && decide (s.pwr.targetMv ≤ mv + 15)

/-- VOLTAGE_SETTLED (R493): the monitor has read within 15 mV of the target for 2 µs. DEDUCED: log entry 89. -/
def execVoltageSettled (mv : Nat) (s : State) : Out :=
  if s.settled mv then
    .next (s.modPwr fun p =>
      { p with voltMv := BitVec.ofNat 12 mv, lvl := match p.lvl with | .settling o n => .edge1 o n | x => x })
  else .next s

/-- VOLTAGE_TIMEOUT (R493): the old voltage is written back, the level stays, VOLT_FAIL is set. -/
def execVoltageTimeout (s : State) : Out :=
  match s.pwr.lvl with
  | .settling o _ => .next ((((s.modPwr fun p => { p with lvl := .idle }).avs (lvlMv o.val)).pwrEvent 3).carryKept)
  | _ => .next s

/-- The dividers switch: the level is in force, and a slower level lowers the voltage behind it (R491, R493, R494, R499). -/
def State.switchLevel (s : State) (o n : Fin 4) : State :=
  let s := s.modPwr fun p => { p with lvl := .idle, frozen := false, level := n, switches := p.switches + 1,
                                      sinceSlow := if o.val < n.val then 0 else p.sinceSlow }
  let s := s.recFlagAll (16 + n.val)
  (if o.val < n.val then s.avs (lvlMv n.val) else s).carryKept

/-- FRAME_EDGE_SWITCH (R489, R493, R494): at the first edge the crossings stop, at the next the dividers switch, while the monitor reads
at least the new level's voltage less 15 mV (R491). -/
def execFrameEdgeSwitch (s : State) : Out :=
  match s.pwr.lvl with
  | .edge1 o n => .next (s.modPwr fun p => { p with lvl := .edge2 o n, frozen := true })
  | .edge2 o n => if lvlMv n.val ≤ s.pwr.voltMv.toNat + 15 || decide (o.val < n.val) then .next (s.switchLevel o n) else .next s
  | _ => .next s

/-- PL3 at the next frame edge, whatever change was pending (R496, R500). -/
def State.forceSlow (s : State) : State :=
  if s.pwr.level = 3 ∧ s.pwr.lvl = .idle then s.modPwr fun p => { p with keptReq := none }
  else s.modPwr fun p => { p with keptReq := none, frozen := true, lvl := .edge2 p.level 3 }

/-- DROOP (R496). -/
def execDroop (s : State) : Out := .next (((s.modPwr fun p => { p with droopHold := true }).pwrEvent 2).forceSlow)

/-- HW_THROTTLE (R500, R501). -/
def execHwThrottle (s : State) : Out :=
  if s.pwr.hwLive then .next s
  else .next (((s.modPwr fun p => { p with hwLive := true }).pwrEvent 4).forceSlow)

/-- HW_THROTTLE_RELEASE (R500): every sensor reads below 100 °C. -/
def execHwThrottleRelease (s : State) : Out := .next (s.modPwr fun p => { p with hwLive := false })

/-- THERMAL_TRIP (R500, R515): TRIP_N is asserted until power-on reset, the VCO stops, VDD_CORE is written to 0 mV and the device is in
RESET. The powered-down core and the memory that it no longer refreshes lose their contents. DEDUCED: log entry 49. -/
def execThermalTrip (s : State) : Out :=
  if s.sys.trip then .next s
  else
    let s := (s.setMap false).coreReset true
    .next (((s.modPwr fun p => { p with locked := false }).avs 0).raise (.modeChange .reset) |> fun s =>
      { s with sys := { s.sys with trip := true, internalReset := false } })

/-- The hottest reading and its first sensor. -/
def hottest (temps : List Nat) : Nat × Nat :=
  (List.range temps.length).foldl (fun m i => if m.1 < (temps[i]?).getD 0 then ((temps[i]?).getD 0, i) else m) (0, 0)

/-- SENSOR_SAMPLE (R498, R499, R501): twenty readings in °C. -/
def execSensorSample (temps : List Nat) (s : State) : Out :=
  if temps.length ≠ 20 then .next s
  else
    let m := hottest temps
    let live := decide (s.pwr.hotC.toNat ≤ m.1)
    let rise := live && !s.pwr.thermLive
    let s := s.modPwr fun p =>
      { p with jmax := BitVec.ofNat 8 m.1, sensor := BitVec.ofNat 5 m.2, jpeak := if p.jpeak.toNat < m.1 then BitVec.ofNat 8 m.1 else p.jpeak,
               jms := max p.jms m.1, thermLive := live }
    .next (if rise then s.pwrEvent 0 else s)

/-- DEVICE_W of the power plan in mW: 0 means 250 W (R401). -/
def State.deviceMw (s : State) : Nat := match (s.grn.active.map (·.deviceW)).getD 0 with | 0 => 250000 | w => 1000 * w

/-- The crown's choice of the next level, if it moves (R499). DEDUCED: log entry 66. -/
def State.evalLevel (s : State) : Option (Fin 4) :=
  let p := s.pwr.lastMw.toNat
  let l := s.pwr.level.val
  let hot := s.hbm.toList.any (·.hot)
  let w := s.deviceMw
  if w < p || s.pwr.hotC.toNat ≤ s.pwr.jms || hot then some (lvlOf (l + 1))
  else if s.maxLevel < l && decide (s.pwr.jms + 10 ≤ s.pwr.hotC.toNat) && !hot && decide (100 ≤ s.pwr.sinceSlow) &&
      decide (10 * p * (lvlDiv l * (lvlMv (l - 1) * lvlMv (l - 1))) ≤ 9 * w * (lvlDiv (l - 1) * (lvlMv l * lvlMv l))) then some (lvlOf (l - 1))
  else none

/-- LEVEL_EVALUATION (R499): at each multiple of 1,000 ticks in RUN. DEDUCED: log entry 66. -/
def execLevelEvaluation (s : State) : Out :=
  if s.ring.tick.toNat % 1000 = 0 ∧ s.sys.mode = .run then
    let r := s.evalLevel
    let s := s.modPwr fun p => { p with jms := p.jmax.toNat, sinceSlow := p.sinceSlow + 1 }
    match r with
    | some l => .next (s.setReq l true)
    | none => .next s
  else .next s

/-- PWR_ALARM (R506, R513): the alarm is set and ALARM_PEND clears; a tick already passed latches at once. -/
def State.setAlarm (s : State) (v : Word) : State :=
  s.modPwr fun p => { p with alarm := v, alarmPend := v != 0 && decide (v.toNat ≤ s.ring.tick.toNat) }

def execPwrAlarm (v : Word) (s : State) : Out := .next (s.setAlarm v)

/-- ALARM_REACHED (R506). -/
def execAlarmReached (s : State) : Out :=
  if s.pwr.alarm ≠ 0 ∧ s.pwr.alarm.toNat ≤ s.ring.tick.toNat then .next (s.modPwr fun p => { p with alarmPend := true }) else .next s

end Sys2Proof.Machine
end

