-- ==== Sys2Proof/Machine/Grain.lean ====
section
/-! DEFINITION. The Grain loader (chapter 15): loading and rejecting an image, whole-device activation, per-plot regrain. -/

namespace Sys2Proof.Machine

def State.modGrn (s : State) (f : Grn → Grn) : State := { s with grn := f s.grn }

/-! ### Requests (R406, R411, R415) -/

/-- A request to load an image starts, or waits for the one in progress. -/
def State.requestLoad (s : State) (r : ActReq) : State :=
  match s.grn.req with
  | none => s.modGrn fun g => { g with req := some r, st := .checking }
  | some _ => s.modGrn fun g => { g with waiting := g.waiting ++ [r] }

/-- The load in progress ends; the next request that waits starts. DEDUCED: log entry 86. -/
def State.endLoad (s : State) : State :=
  let s := s.modGrn fun g => { g with req := none, staged := none, st := .idle, triedOther := false, zeroing := 0 }
  match s.grn.waiting with
  | [] => s
  | r :: rs => (s.modGrn fun g => { g with waiting := rs }).requestLoad r

/-- LOAD begins at BOOT, with the preferred slot (R406, R519). DESIGN CHOICE: log entry 97. -/
def State.bootLoad (s : State) : State :=
  ({ s with sys := { s.sys with bootStart := s.ring.tick } }.setMode .load).requestLoad { slot := s.grn.prefSlot, plot := none, early := 0, ch := none }

/-! ### GRAIN_STAGED (R406, R407, R411, R460) -/

/-- An image is rejected: GRN_STATUS holds the code and the offset, one notice is raised. -/
def State.rejected (s : State) (code off : Nat) : State :=
  let was := s.grn.rejected
  (s.modGrn fun g => { g with rejected := true, reason := BitVec.ofNat 8 code, offset := BitVec.ofNat 32 off }).notice was "GRN_STATUS"

/-- The load that BOOT started. -/
def ActReq.atBoot (r : ActReq) : Bool := r.ch.isNone

/-- What follows a rejection: BOOT tries the other slot and keeps the preferred slot's rejection; otherwise the load ends, a mailbox
command completes, and LOAD leads to SERVICE (R515). -/
def State.afterReject (s : State) (r : ActReq) (code off : Nat) : State :=
  if r.atBoot && !s.grn.triedOther then
    (s.rejected code off).modGrn fun g => { g with triedOther := true, req := some { r with slot := 1 - r.slot }, st := .checking }
  else
    let s := if r.atBoot then s else s.rejected code off
    let s := (s.finishOpt r.ch 3 code).endLoad
    if s.sys.mode == .load then s.setMode .service else s

/-- A check ends: rejected, rejected only for its split, or staged. -/
def State.stageResult (s : State) (r : ActReq) : Chk (Grain × Bool) → State
  | .error (code, off) => s.afterReject r code off
  | .ok (g, split) =>
    if split then
      (s.modGrn fun x => { x with splitNext := g.split, splitPending := true }).afterReject r 10 (firstOff ((checkFraming g.raw).toOption.getD []) 6)
    else s.modGrn fun x => { x with staged := some g, st := .staged }

/-- GRAIN_STAGED (R407, R411): the loader ends its checks. Whether a flash read is uncorrectable, and at which offset, is free. -/
def execGrainStaged (s : State) : Out :=
  match s.grn.req with
  | none => .next s
  | some r =>
    if s.grn.st = .checking then
      let d := s.drawBool
      let w := d.2.draw
      if d.1 then .next (w.2.afterReject r 14 (fieldAt w.1 0 22)) else .next (d.2.stageResult r (d.2.checkImage r.slot r.plot))
    else .next s

/-- ACTIVATION_DRAIN (R411): in RUN, at tick E or later, the device goes to DRAIN. -/
def execActivationDrain (s : State) : Out :=
  match s.grn.req with
  | none => .next s
  | some r =>
    if s.grn.st = .staged ∧ r.plot = none ∧ s.sys.mode = .run ∧ r.early.toNat ≤ s.ring.tick.toNat then
      .next ((s.modGrn fun g => { g with st := .draining }).beginDrain .activation)
    else .next s

/-! ### Writing an image: programs, regions, scratchpads, queues (R402, R410, R411, R414) -/

def Grain.owner (g : Grain) (r : Nat) : Option PlotMap := g.plots.find? fun m => m.regions.getLsbD r
def Grain.plotOf (g : Grain) (b : Nat) : Option PlotMap := g.plots.find? fun m => m.boughs.getLsbD b
def Grain.map? (g : Grain) (p : Nat) : Option PlotMap := g.plots.find? fun m => m.plot == p

/-- A region's previous owner (R410). DEDUCED: log entry 135. -/
def State.prevOwner (s : State) (r : Nat) : Option Nat :=
  match s.grn.active with
  | some g => (g.owner r).map (·.plot)
  | none => (s.grn.prevOwners.find? fun x => x.1 = r).map (·.2)

/-- The regions that the loader zeroes before the switch (R410). DEDUCED: log entry 135. -/
def State.regionsToZero (s : State) (g : Grain) : List Nat :=
  (List.range 512).filter fun r =>
    let new := g.owner r
    s.prevOwner r != new.map (·.plot) && ((s.prevOwner r).isSome || match new with
      | some m => !m.keep.getLsbD r
      | none => false)

def State.zeroRegions (s : State) (g : Grain) : State :=
  let rs := s.regionsToZero g
  let s := rs.foldl (fun s r => s.modMem fun m => m.zeroZone r) s
  s.modGrn fun x => { x with zeroing := rs.foldl (fun z r => z ||| BitVec.ofNat 512 (2 ^ r)) 0 }

/-- Writes one program region of a grove's store: the words, then 0 (R402). -/
def Memory.writeRegion (m : Memory) (g base units : Nat) (ws : List (BitVec 16)) : Memory :=
  let m := (List.range units).foldl (fun m i => m.zeroZone (pstoreZone g (base + i))) m
  m.putAll (atAddr (pstoreAddr g (4096 * base)) (ws.flatMap fun w => wordBytes 2 w.toNat))

/-- Writes a plot's program to every grove that holds one of its boughs. -/
def State.writeProgram (s : State) (g : Grain) (m : PlotMap) : State :=
  let ws := ((g.progs.find? fun x => x.1 == m.plot).map (·.2)).getD []
  (grovesOf m.boughs).foldl (fun s k => s.modMem fun x => x.writeRegion k m.progBase m.progUnits ws) s

/-- Boughs whose plot changes (R328). DESIGN CHOICE: log entry 45. -/
def State.boughsMoved (s : State) (g : Grain) : List BoughId :=
  (List.finRange 256).filter fun b => (s.boughPlot b.val).map (·.plot) != (g.plotOf b.val).map (·.plot)

/-- Queues whose record changes, is added or is removed. DESIGN CHOICE: log entry 46. -/
def State.queuesChanged (s : State) (g : Grain) : List QueueId := (List.finRange 1024).filter fun q => s.queueRec q.val != g.queueRec q.val

/-- The bough reset of a drained bough ends at once (R41). -/
def State.resetNow (s : State) (b : BoughId) : State :=
  let s := s.beginBoughReset b
  if s.boughClean b then s.endBoughReset b else s

/-- ACTIVATION_WRITE (R411 step 3): with no plot running, programs are written, every bough is reset, regions and scratchpads are zeroed
and the changed queues are flushed. -/
def execActivationWrite (s : State) : Out :=
  match s.grn.staged with
  | none => .next s
  | some g =>
    if s.sys.mode = .load ∧ (s.grn.st = .staged ∨ s.grn.st = .draining) then
      let s := g.plots.foldl (fun s m => s.writeProgram g m) s
      let moved := s.boughsMoved g
      let s := (List.finRange 256).foldl (fun s b => s.resetNow b) s
      let s := moved.foldl (fun s b => s.zeroScratch b) s
      let s := (s.queuesChanged g).foldl (fun s q => s.flushNow q) s
      .next ((s.zeroRegions g).modGrn fun x => { x with st := .writing })
    else .next s

/-! ### The switch (R190, R304, R411, R412, R419) -/

/-- The plot's image parts that decide whether an activation changes it (R419). -/
def Grain.plotParts (g : Grain) (p : Nat) : Option (PlotMap × Option (List (BitVec 16))) :=
  (g.map? p).map fun m => (m, (g.progs.find? fun x => x.1 == p).map (·.2))

/-- Closes the records of the plots that the new image changes or removes; `old` is the image whose records are open. DEDUCED: log entry 40. -/
def State.closeForSwitch (s : State) (old : Option Grain) (g : Grain) : State :=
  match old with
  | none => s
  | some o =>
    let act := s.grn.active
    let s := s.modGrn fun x => { x with active := some o }
    let s := o.plots.foldl (fun s m => if o.plotParts m.plot == g.plotParts m.plot then s else s.closeAt (plotId m.plot) 0x2000) s
    s.modGrn fun x => { x with active := act }

/-- Opens a record at the switch for a plot, with REGRAIN set. DEDUCED: log entry 40. -/
def State.openForSwitch (s : State) (p : PlotId) : State :=
  (s.modPlot p fun x => { x with cnt := s.openCounters x.cnt s.ring.tick }).recFlag p 13

def State.openAll (s : State) (old : Option Grain) (g : Grain) : State :=
  g.plots.foldl (fun s m => if (old.bind fun o => o.plotParts m.plot) == g.plotParts m.plot then s else s.openForSwitch (plotId m.plot)) s

/-- A link that crosses a graft port is broken until that port is admitted with its tag (R187): a port that was never up is down for it, code 3.
DESIGN CHOICE: log entry 163. -/
def State.breakUnadmitted (s : State) : State := s.breakLinks (fun l => !s.segmentsUp l) 3

/-- The links of an image, armed (R171, R190); `keep` gives the present link of a record that stays. A new link counts its words from 0 (R198).
DESIGN CHOICE: log entry 163. -/
def linksFor (g : Grain) (keep : Word × Word → Option Nat → Option Link) : List Link :=
  (linksWithBuf g.links).map fun x => match keep x.1 x.2 with
    | some l => l
    | none => Link.armed x.1.1 x.1.2 x.2 (if lkTo x.1 then 0 else 256)

/-- Queues of the new image: a changed record starts empty with all its credits (R343, R411). DESIGN CHOICE: log entry 46. -/
def State.switchQueues (s : State) (old g : Option Grain) (qs : List QueueId) : State :=
  let size (q : QueueId) : Nat := ((g.bind fun g => g.queueRec q.val).map recSize).getD 0
  qs.foldl (fun s q => if old.bind (fun o => o.queueRec q.val) == g.bind (fun g => g.queueRec q.val) then s
    else s.modQueue q fun _ => Queue.start (size q)) s

/-- A bough of no plot that is enabled idles with its twig held at word 0 (R396). -/
def idleRun (g : Grain) (b : Nat) : TwigRun := if g.boughEn.getLsbD b then .held else .stopped

/-- Graft ports at the switch: OFF where GRAFT_EN is clear; LISTEN where it is newly set; a port in UP whose rank or items change goes
down with LEAVE (R477, R483). -/
def State.graftsBefore (s : State) (g : Grain) : State :=
  (List.finRange 4).foldl (fun s n =>
    let items := s.graftItems n
    let rank := (s.grn.active.map (·.rank)).getD 0
    if s.grafts[n].st == .up && (!g.graftEn.getLsbD n.val || g.rank != rank || g.graftItems n != items) then s.partnerLost n true else s) s

def State.graftsAfter (s : State) (g : Grain) : State :=
  (List.finRange 4).foldl (fun s n =>
    if !g.graftEn.getLsbD n.val then (if s.grafts[n].st = .off then s else s.setGraft n .off)
    else if s.grafts[n].st = .off && !s.grafts[n].hold then s.setGraft n .listen
    else s) s

/-- PLOT_CTRL takes its reset values and DUTY returns to 64 (R411). DEDUCED: log entry 39. -/
def Plot.cleared (x : Plot) (st : PlotSt) : Plot :=
  { x with st := st, park := false, preempt := false, graceOn := false, grace := 1000, resetBusy := false, resetWaits := false, duty := 64,
           heldEvents := if st = .undefined then [] else x.heldEvents }

/-- Every bough has ended its reset. DESIGN CHOICE: log entry 45. -/
def State.boughsReady (s : State) : Bool := s.boughs.toList.all fun y => !y.resetting

/-- SWITCH_TICK (R411 step 4): every live table takes its shadow copy at one tick. DEDUCED: log entry 42. -/
def execSwitchTick (s : State) : Out :=
  match s.grn.staged, s.grn.req with
  | some g, some r =>
    if s.sys.mode = .load ∧ s.grn.st = .writing ∧ s.boughsReady = true then
      let old := s.grn.active
      let rec? := old.or s.grn.last
      let t := s.ring.tick
      let s := (s.graftsBefore g).closeForSwitch rec? g
      let s := s.modGrn fun x => { x with active := some g, last := none, staged := none, epoch := t, slot := r.slot, zeroing := 0 }
      let s := s.switchQueues old (some g) (List.finRange 1024)
      let s := { s with links := linksFor g fun _ _ => none,
                        boughs := s.boughs.mapFinIdx fun i y _ => { y with ocache := [], freeze := false, twig := Twig.start (idleRun g i) },
                        plots := s.plots.mapFinIdx fun i x _ => x.cleared (if (g.map? i).isSome then .running else .undefined) }
      let s := (s.graftsAfter g).breakUnadmitted
      let s := (List.range s.links.length).foldl (fun s i => match s.links[i]? with
        | some l => if l.broken then s else s.giveCredit i (if l.fromGraft then l.shareWords else 0)
        | none => s) s
      let s := (s.openAll rec? g).note 5 g.serial 0xff
      .next (s.finishOpt r.ch 0 0)
    else .next s
  | _, _ => .next s

/-- The owners that MRAM records at a switch (R410). DEDUCED: log entry 47. -/
def Grain.owners (g : Grain) : List (Nat × Nat) := (List.range 512).filterMap fun r => (g.owner r).map fun m => (r, m.plot)

/-- MRAM records the active image: preferred slot, serial floor and region owners (R406, R409, R410). DEDUCED: log entry 47. -/
def State.recordImage (s : State) (g : Grain) : State :=
  s.modGrn fun x => { x with prefSlot := x.slot, floor := g.serial, prevOwners := g.owners }

/-- Events of the whole device that waited for plots to be defined. DEDUCED: log entry 79. DESIGN CHOICE: log entry 118. -/
def State.postOwed (s : State) : State :=
  let s1 := s.sys.postDue.foldl (fun s e => s.plotMaps.foldl (fun (s : State) m =>
    (if e.1 = 1 then s.recFlag (plotId m.plot) 14 else s).plotEvent (plotId m.plot) e.1 0xff e.2.1 e.2.2) s) s
  { s1 with sys := { s1.sys with postDue := [] } }

/-- The firmware floor rises the first time that a copy reaches RUN (R518). -/
def State.fwReachesRun (s : State) : State :=
  if s.sys.fwRan then s
  else
    let k : Fin 2 := if s.sys.fwCopy then 1 else 0
    { s with sys := { s.sys with fwRan := true, fwFloor := if s.sys.fwFloor.toNat < s.sys.fw[k].serial.toNat then s.sys.fw[k].serial else s.sys.fwFloor } }

/-- PLOT_START (R372, R411 step 5): after T every twig of every defined plot starts at word 0 and the device is in RUN. DEDUCED: log entry 42. -/
def execPlotStart (s : State) : Out :=
  match s.grn.active with
  | none => .next s
  | some g =>
    if s.sys.mode = .load ∧ s.grn.st = .writing ∧ s.grn.staged = none ∧ s.grn.epoch.toNat < s.ring.tick.toNat then
      let s := { s with boughs := s.boughs.mapFinIdx fun i y _ => if (g.plotOf i).isSome then { y with twig := Twig.start .running } else y }
      let us := (s.ring.tick - s.sys.bootStart).toNat
      let s := { s with sys := { s.sys with loadUs := BitVec.ofNat 16 (min (us / 10) 65535) } }
      let s := (((s.recordImage g).endLoad).setMode .run).fwReachesRun.postOwed
      .next (s.plotMaps.foldl (fun (s : State) m => s.postHeldEvents (plotId m.plot)) s)
    else .next s

/-! ### Per-plot regrain (R413-R415) -/

/-- Every link of plot p breaks with code REGRAIN (R187, R414). -/
def State.breakPlotLinks (s : State) (p : Nat) : State := s.breakLinks (fun l => !(l.fromGraft && l.toGraft) && l.plot == p) 6

/-- REGRAIN (R414 steps 2 and 3). -/
def execRegrain (s : State) : Out :=
  match s.grn.staged, s.grn.req.bind (·.plot) with
  | some g, some p =>
    if s.sys.mode = .run ∧ s.grn.st = .staged ∧ s.plots[p].resetBusy = false then
      let old := s.plotMap p.val
      let s := (s.modGrn fun x => { x with st := .regraining, plot := p }).modPlot p fun x => { x with st := .regraining, preempt := false, graceOn := false }
      let s := s.breakPlotLinks p.val
      let s := match old with
        | none => s
        | some m =>
          let s := match (m.vf.bind (finOf? 64) : Option VfId) with
            | some v => s.absorbFn (.vf v)
            | none => s
          let s := m.boughList.foldl (fun (s : State) b => if (s.bough b).resetting then s else s.beginBoughReset b) s
          (s.plotQueues m).foldl (fun (s : State) q => s.requestFlush q) s
      let s := (s.queuesChanged g).foldl (fun (s : State) q => if (s.queueRec q.val).isSome then s.requestFlush q else s) s
      let s := match g.map? p.val with
        | some m => s.writeProgram g m
        | none => s
      .next (s.zeroRegions g)
    else .next s
  | _, _ => .next s

/-- What a regrain waits for before its switch: the plot's resets, its flushes and its function's port share. -/
def State.regrainReady (s : State) (g : Grain) (p : PlotId) : Bool :=
  (match s.plotMap p.val with
    | some m => s.plotClean m
    | none => true) &&
  (match g.map? p.val with
    | some m => m.boughList.all fun b => !(s.bough b).resetting
    | none => true) && (s.queuesChanged g).all fun q => !s.queues[q].flushing

/-- Graft ports in UP exchange the tags of a regrained plot: its segments break with REGRAIN, whether their record changes or not
(R187, R414, R483). -/
def State.admitChanged (s : State) (old g : Grain) (p : PlotId) : State :=
  (List.finRange 4).foldl (fun s n =>
    let gone := (old.graftItems n).filter fun i => (decide (i.role < 2) && i.plot == some p.val) || !(g.graftItems n).contains i
    let new := (g.graftItems n).filter fun i => (decide (i.role < 2) && i.plot == some p.val) || !(old.graftItems n).contains i
    if s.grafts[n].st == .up && !(gone ++ new).isEmpty then
      (s.modGraft n fun p => { p with tags := p.tags.filter fun t => !gone.any fun i => i.tag == t.1 && i.role == t.2, peerAdmit := [], admitLast := false, admitSent := true }).sendFlit
        n fkAdmit (packWord [(0, 5, new.length), (5, 1, 1)] :: new.map fun i => packWord [(0, 32, i.tag.toNat), (32, 2, i.role)])
    else s) s

/-- The regions of a plot in an image. -/
def Grain.plotRegions (g : Grain) (p : Nat) : BitVec 512 := ((g.map? p).map (·.regions)).getD 0

/-- At the switch of a regrain the tables take the new image: every link and queue whose record stays keeps its state (R413, R414). -/
def State.regrainTables (s : State) (old g : Grain) (p : PlotId) (slot : Fin 2) : State :=
  let rs := old.plotRegions p.val ||| g.plotRegions p.val
  let links := s.links
  let stays (w : Word × Word) (b : Option Nat) : Option Link :=
    if lkOf p.val w then none else links.find? fun l => l.w0 == w.1 && l.w1 == w.2 && l.buf == b
  let forget (y : Bough) : Bough := { y with ocache := y.ocache.filter fun e => !rs.getLsbD e.1 }
  let s := s.modGrn fun x => { x with active := some g, epoch := s.ring.tick, slot := slot }
  let s := s.switchQueues (some old) (some g) (List.finRange 1024)
  { s with links := linksFor g stays, boughs := s.boughs.map forget }

/-- The links of plot p rearm, but for those whose graft segment is not admitted (R190, R414). -/
def State.armPlotLinks (s : State) (p : PlotId) : State :=
  let s := s.breakLinks (fun l => lkOf p.val (l.w0, l.w1) && !s.segmentsUp l) 3
  (List.range s.links.length).foldl (fun s i => match s.links[i]? with
    | some l => if lkOf p.val (l.w0, l.w1) && !l.broken then s.giveCredit i (if l.fromGraft then l.shareWords else 0) else s
    | none => s) s

/-- A bough as a regrain of plot p leaves it: plot p's twigs start at word 0 or are held, a bough of no plot idles (R396, R414). -/
def Bough.regrained (y : Bough) (g : Grain) (p : PlotId) (park : Bool) (i : Nat) : Bough :=
  match g.plotOf i with
  | some m => if m.plot = p.val then { y with freeze := park, twig := Twig.start (if park then .held else .running) } else y
  | none => { y with freeze := false, twig := Twig.start (idleRun g i) }

/-- DEDUCED: log entry 44. -/
def State.regrainStart (s : State) (g : Grain) (p : PlotId) : State :=
  let park := s.plots[p].park
  let st : PlotSt := if (g.map? p.val).isNone then .undefined else if park then .parked else .running
  let s1 : State := { s with boughs := s.boughs.mapFinIdx fun i y _ => y.regrained g p park i }
  s1.modPlot p fun x => { x with st := st, parkedAt := if park then s.ring.tick else x.parkedAt }

/-- REGRAIN_SWITCH_TICK (R414): the zeroing of step 3 ends with the plot reset of step 2; the shadow entries of plot p take effect, and its twigs start unless PARK is 1. DEDUCED: log entry 44. -/
def execRegrainSwitchTick (s : State) : Out :=
  match s.grn.staged, s.grn.active, s.grn.req with
  | some g, some old, some r =>
    match r.plot with
    | none => .next s
    | some p =>
      if s.grn.st = .regraining ∧ s.sys.mode = .run ∧ s.regrainReady g p = true then
        let was := ((s.plotMap p.val).map (·.boughList)).getD []
        let s1 := (was ++ s.boughsMoved g).foldl (fun (s : State) b => s.zeroScratch b) ((s.zeroRegions g).closeForSwitch (some old) g)
        let s2 := ((s1.regrainTables old g p r.slot).admitChanged old g p).armPlotLinks p
        let s3 := ((s2.regrainStart g p).openAll (some old) g).note 5 g.serial (BitVec.ofNat 64 p.val)
        let s4 := ((s3.finishOpt r.ch 0 0).recordImage g).endLoad
        .next (if s4.plots[p].resetWaits then s4.beginPlotReset p else s4.postHeldEvents p)
      else .next s
  | _, _, _ => .next s

end Sys2Proof.Machine
end

