-- ==== Sys2Proof/Machine/Ring.lean ====
section
/-! DEFINITION. The ring ledger's events (chapter 16): the ring tick, minute records, seals, energy, the calendar, and the way of an
item from its signature to the ledger queue. -/

namespace Sys2Proof.Machine

def State.modRing (s : State) (f : Ring → Ring) : State := { s with ring := f s.ring }

/-! ### The ring tick (R487, R421, R430, R528) -/

/-- A bough accrues BOUGH_US: it is not halted, its plot is not parked and it is not idle (R421). -/
def State.boughBusy (s : State) (b : BoughId) : Bool := (s.bough b).twig.run != .halted && !s.boughIdle b

/-- Bough-microseconds of one tick, in every defined plot. -/
def State.meterTick (s : State) : State :=
  s.plotMaps.foldl (fun s m =>
    if s.plots[plotId m.plot].st = .parked then s
    else
      let k := (m.boughList.filter fun b => s.boughBusy b).length
      s.modPlot (plotId m.plot) fun x => { x with cnt := { x.cnt with boughUs := x.cnt.boughUs + k } }) s

/-- The seconds rings: a second counts for the mode in force at its end. DEDUCED: log entry 60. -/
def State.meterSecond (s : State) : State :=
  if s.ring.subSec + 1 < 1000000 then s.modRing fun r => { r with subSec := r.subSec + 1 }
  else
    let s := (s.modRing fun r => { r with subSec := 0 }).ringAdd 0 1
    match s.sys.mode with
    | .run => s.ringAdd 1 1
    | .dormant => s.ringAdd 2 1
    | _ => s

/-- The watchdog's millisecond (R528): Dormant pauses the count. -/
def State.wdogTick (s : State) : State :=
  if !s.crn.armed || s.sys.mode == .dormant then s
  else if s.crn.subMs + 1 < 1000 then { s with crn := { s.crn with subMs := s.crn.subMs + 1 } }
  else { s with crn := { s.crn with subMs := 0, remain := s.crn.remain - (if s.crn.remain = 0 then 0 else 1) } }

/-- Energy of one tick: the device counter, the millisecond under way and the ENERGY_J ring (R430, R498). -/
def State.meterEnergy (s : State) (nj : Nat) : State :=
  let u := s.pwr.ujRem + nj
  let j := s.ring.jouleNJ + nj
  let s := s.modPwr fun p => { p with uj := p.uj + BitVec.ofNat 64 (u / 1000), ujRem := u % 1000 }
  (s.modRing fun r => { r with msNJ := r.msNJ + nj, jouleNJ := j % 1000000000 }).ringAdd 17 (j / 1000000000)

/-- The tick counter runs while REFCLK does (R435, R488). -/
def State.ticking (s : State) : Bool := s.pwr.refclkOk && s.sys.aonGood

/-- RING_TICK (R487): the counter advances, and everything that is measured by ticks with it. What falls due at a multiple of ticks is a command
of its own. DESIGN CHOICE: log entry 173. -/
def execRingTick (energyNJ : Nat) (s : State) : Out :=
  if s.ticking then
    .next (((((s.modRing fun r => { r with tick := r.tick + 1 }).meterEnergy energyNJ).meterTick).meterSecond).wdogTick)
  else .next s

/-! ### Minute records and seals (R419, R420, R425, R428) -/

/-- Modes in which a minute boundary closes nothing (R420). -/
def State.nothingAccrues (s : State) : Bool :=
  match s.sys.mode with
  | .reset | .boot | .dormant => true
  | _ => false

/-- The header copy in MRAM takes the tick and the offset (R438). DESIGN CHOICE: log entry 74. -/
def State.saveHeader (s : State) : State := s.modRing fun r => { r with savedTick := r.tick, savedOffset := r.offset }

/-- MINUTE_BOUNDARY (R419, R420, R428, R438). -/
def execMinuteBoundary (s : State) : Out :=
  if s.ring.tick.toNat % 60000000 = 0 ∧ s.ticking = true then
    let s := s.saveHeader
    if s.nothingAccrues || s.plotMaps.isEmpty then .next s
    else if s.ring.roomy then
      let flags : Word := if s.ring.merging then 0x800 else 0
      .next ((s.plotMaps.foldl (fun s m => s.closeAt (plotId m.plot) flags) s).modRing fun r => { r with merging := false })
    else .next (s.modRing fun r => { r with merging := true })
  else .next s

/-- Words 0 to 50 of a seal; the words that name and hash the items before it are given with the signature. DEDUCED: log entry 64. -/
def State.sealWords (s : State) : List Word :=
  [BitVec.ofNat 64 (b2n s.ring.uncertain), 0, s.ring.sealStart, s.ring.tick, s.ring.offset] ++ List.replicate 14 0 ++ s.ring.rings.toList

/-- HOURLY_SEAL (R425): one for each hour that ends. DEDUCED: log entry 61. -/
def execHourlySeal (s : State) : Out :=
  if s.ring.tick.toNat % 3600000000 = 0 ∧ s.ticking = true ∧ s.nothingAccrues = false ∧ s.ring.sealStart ≠ s.ring.tick then
    .next ((s.emitItem tySeal s.sealWords none).modRing fun r => { r with sealStart := r.tick })
  else .next s

/-! ### Energy (R422) -/

/-- Units of 0.00001 pJ in a nJ. DEDUCED: log entry 62. -/
def unitsPerNJ : Nat := 100000000

/-- Each plot's share of e nJ, by plot, and what is left for the device account. DEDUCED: log entry 62. -/
def State.shares (s : State) (e : Nat) : List (PlotId × Nat) :=
  let acts := s.plotMaps.map fun m => (m, s.plots[plotId m.plot].activity / unitsPerNJ)
  let sum := (acts.map (·.2)).sum
  acts.map fun x =>
    if e < sum then (plotId x.1.plot, x.2 * e / sum) else (plotId x.1.plot, x.2 + (e - sum) * x.1.boughList.length / 256)

/-- LAST_MW, PEAK_MW and the power threshold (R499, R501). -/
def State.notePower (s : State) (e : Nat) : State :=
  let mw := min (e / 1000) 0xfffff
  let live := decide (1000 * s.pwr.powerW.toNat < mw)
  let rise := live && !s.pwr.powerLive
  let s := s.modPwr fun p =>
    { p with lastMw := BitVec.ofNat 20 mw, peakMw := if p.peakMw.toNat < mw then BitVec.ofNat 20 mw else p.peakMw, powerLive := live }
  if rise then s.pwrEvent 1 else s

/-- ENERGY_APPORTION (R421, R422): the energy of the 1,000 ticks just ended is divided; in DORMANT, RESET and BOOT all of it goes to the
device account. -/
def execEnergyApportion (s : State) : Out :=
  if s.ring.tick.toNat % 1000 = 0 ∧ s.ticking = true then
    let e := s.ring.msNJ
    let sh := if s.nothingAccrues then [] else s.shares e
    let s := sh.foldl (fun (s : State) x => s.modPlot x.1 fun y =>
      { y with shareNJ := x.2, activity := 0,
               cnt := { y.cnt with energyNJ := y.cnt.energyNJ + x.2, parkedMs := y.cnt.parkedMs + b2n (y.st == .parked) } }) s
    let s := s.modRing fun r => { r with msNJ := 0, devNJ := r.devNJ + (e - (sh.map (·.2)).sum) }
    .next (s.notePower e)
  else .next s

/-! ### Calendar (R432, R433) -/

/-- The calendar is synced: the offset changes, a sync item is emitted, and an open gap closes. A record that is open stays uncertain. DEDUCED: log entry 63. -/
def State.calSync (s : State) (v : Word) : State :=
  let old := s.ring.offset
  let new := v - s.ring.tick
  let closes := s.ring.gapOpen
  let gap := if closes then new - old else 0
  let s := if closes then s.recFlagAll 8 else s
  let s := s.modRing fun r =>
    { r with offset := new, gapOpen := false, uncertain := false, gap := if closes then gap else r.gap }
  s.emitItem tySync [BitVec.ofNat 64 (b2n closes), 0, s.ring.tick, old, new, gap] none

/-- Modes in which a register or mailbox sync reaches the ledger. -/
def State.awake (s : State) : Bool :=
  match s.sys.mode with
  | .reset | .dormant => false
  | _ => true

/-- RING_CAL_SYNC (R433). DEDUCED: log entry 63. -/
def execRingCalSync (v : Word) (s : State) : Out := .next (if s.awake then s.calSync v else s)

/-- A gap opens (R435, R436): the ledger marks time uncertain, and every plot is told, or will be once plots are defined. -/
def State.openGap (s : State) (gap : Word) : State :=
  let s := (s.modRing fun r => { r with uncertain := true, gapOpen := true, gap := gap }).ringAdd 27 1
  match s.grn.active with
  | some _ => s.plotMaps.foldl (fun s m => s.plotEvent (plotId m.plot) 5 0xff 0 gap) s
  | none => { s with sys := { s.sys with postDue := s.sys.postDue ++ [(5, 0, gap)] } }

/-! ### Signing, the journal and the ledger queue (R423-R429, R438) -/

/-- The hash of an item: the digest of all of its words (R423). -/
def Item.hash (i : Item) : List Word := Config.sha384 (wordsBytes (i.covered ++ i.sig))

/-- Replaces the words from `k` on. -/
def setWords (ws : List Word) (k : Nat) (new : List Word) : List Word := ws.take k ++ new ++ ws.drop (k + new.length)

/-- Signed items that the journal does not hold yet, with what is committed: the hash that the next minute record of a plot names. DEDUCED: log entry 43. -/
def State.prevRecord (s : State) (p : PlotId) : List Word :=
  match (s.ring.signed.filter fun i => i.typ == tyMinute && i.plot == some p).getLast? with
  | some i => i.hash
  | none => s.plots[p].prevHash

/-- Six words of a hash, 0 for none (R424). -/
def six (h : List Word) : List Word := (List.range 6).map fun i => (h[i]?).getD 0

/-- The items since the previous seal, and that seal's hash. DEDUCED: log entries 43, 64. -/
def Ring.sinceSeal (r : Ring) : List (Word × List Word) × List Word :=
  r.signed.foldl (fun a i => if i.typ == tySeal then ([], i.hash) else (a.1 ++ [(i.seq, i.hash)], a.2)) (r.sealItems, r.sealHash)

/-- The covered words of an item with its SEQ and what chains it to earlier items (R423 to R425). -/
def State.chainItem (s : State) (i : Item) : List Word :=
  let ws := setWords i.covered 1 [s.ring.seq]
  if i.typ == tyMinute then
    match i.plot with
    | some p => setWords ws 16 (six (s.prevRecord p))
    | none => ws
  else if i.typ == tySeal then
    let r := s.ring.sinceSeal
    setWords ws 5 ([(r.1.head?.map (·.1)).getD 0, (r.1.getLast?.map (·.1)).getD 0] ++ six (Config.sha384 (wordsBytes (r.1.flatMap (·.2)))) ++ six r.2)
  else ws

/-- The engine has signed the oldest item: it takes the next SEQ. -/
def State.signItem (s : State) : State :=
  match s.ring.unsigned with
  | [] => s
  | i :: is =>
    let ws := s.chainItem i
    let sig := bytesWords ((Config.sign 0 (wordsBytes ws)).take 96)
    let i := { i with seq := s.ring.seq, covered := ws, sig := (List.range 12).map fun k => (sig[k]?).getD 0 }
    s.modRing fun r => { r with unsigned := is, signed := r.signed ++ [i], seq := r.seq + 1 }

/-- The ledger's memory is in use and signing goes on (R437, R439). DEDUCED: log entries 61, 96. -/
def State.ledgerUp (s : State) : Bool := s.awake && !s.sys.pwrFail && !((s.sys.mode == .boot || s.sys.mode == .quarantine) && decide (s.sys.bootStep < 4))

/-- The chain heads take a committed item (R438). -/
def State.chainHeads (s : State) (i : Item) : State :=
  let s := match i.plot with
    | some p => if i.typ == tyMinute then s.modPlot p fun x => { x with prevHash := i.hash } else s
    | none => s
  s.modRing fun r =>
    if i.typ == tySeal then { r with sealHash := i.hash, sealItems := [] } else { r with sealItems := r.sealItems ++ [(i.seq, i.hash)] }

/-- USED has changed: PEAK follows, and the threshold's upward crossing raises its notice (R429, R441). -/
def State.usedChanged (s : State) (was : Nat) : State :=
  let n := s.ring.journal.length
  let cross := decide (was < s.ring.backlogSlots.toNat) && decide (s.ring.backlogSlots.toNat ≤ n)
  let hit := s.ring.backlogHit
  let s := s.modRing fun r => { r with peak := if r.peak.toNat < n then BitVec.ofNat 13 n else r.peak, backlogHit := r.backlogHit || cross }
  if cross then s.notice hit "RING_STATUS" else s

/-- JOURNAL_SLOT_COMMIT (R428, R438): the oldest signed item takes a free slot of the journal. -/
def execJournalSlotCommit (s : State) : Out :=
  match s.ring.signed with
  | i :: is =>
    if s.ledgerUp && decide (s.ring.journal.length < 7680) then
      let was := s.ring.journal.length
      .next (((s.modRing fun r => { r with signed := is, journal := r.journal ++ [⟨i, false⟩] }).chainHeads i).usedChanged was)
    else .next s
  | [] => .next s

/-- The ledger queue (R427). -/
def State.ledgerQueue (s : State) : Option QueueId := (List.finRange 1024).find? fun q => s.isLedger q

/-- LEDGER_ITEM_POST (R423, R428): the oldest committed item that is not posted goes to the ledger queue, when credits allow. -/
def execLedgerItemPost (s : State) : Out :=
  match s.ledgerQueue, s.ring.journal.findIdx? fun x => !x.posted with
  | some q, some k =>
    match s.ring.journal[k]? with
    | none => .next s
    | some x =>
      if s.ledgerUp then
        match s.postPacket q x.item.typ.toNat (x.item.covered ++ x.item.sig) with
        | some s => .next (s.modRing fun r => { r with journal := lmod r.journal k fun y => { y with posted := true } })
        | none => .next s
      else .next s
  | _, _ => .next s

/-! ### Wear (R430, R431) -/

/-- THERMAL_CYCLE_SAMPLE (R430, R431): the hottest junction's bin, and the cycle count. -/
def execThermalCycleSample (s : State) : Out :=
  if s.ticking && s.ring.tick.toNat % 1000000 == 0 then
    let t := s.pwr.jmax.toNat
    let s := s.ringAdd (5 + (if t < 100 then t / 10 else if t ≤ 105 then 10 else 11)) 1
    let low := min s.ring.thermLow t
    let high := if low + 30 ≤ t || s.ring.thermHigh ≠ 0 then max s.ring.thermHigh t else 0
    if high ≠ 0 ∧ t + 30 ≤ high then .next ((s.modRing fun r => { r with thermLow := t, thermHigh := 0 }).ringAdd 4 1)
    else .next (s.modRing fun r => { r with thermLow := low, thermHigh := high })
  else .next s

end Sys2Proof.Machine
end

