-- ==== Sys2Proof/Machine/Hosts.lean ====
section
/-! DEFINITION. Host links and configuration (chapter 18, R458 to R469): PERST, link loss and training, function level resets and
configuration requests. -/

namespace Sys2Proof.Machine

/-- The port exists under the split in force (R460). -/
def State.portPresent (s : State) (n : PortId) : Bool := decide (n.val < portsPresent s.grn.split)

/-- Lanes of a port (R460). -/
def State.portLanes (s : State) : Nat := 16 / portsPresent s.grn.split

/-- A function belongs to port n. -/
def State.fnOnPort (s : State) (n : PortId) (fn : HostFn) : Bool := s.portPresent n && fnPort s fn == n

/-- The port's block takes its reset values, HOST_LINK_CNT and HOST_EVENT left out (R522). -/
def HostPort.perstReset (p : HostPort) : HostPort :=
  { HostPort.start with perst := p.perst, event := p.event, downs := p.downs, retrains := p.retrains, reads := p.reads, broughtUp := p.broughtUp, trainLate := p.trainLate }

/-- PERST_ASSERT (R452, R468, R522, R524): PERSTn_N is asserted, or the port gets a hot reset. The pin of an absent port is ignored. -/
def execPerstAssert (n : PortId) (hot : Bool) (s : State) : Out :=
  if s.portPresent n then
    let s := if hot then s else s.modPort n fun p => { p with perst := true }
    let s := if s.ports[n].linkUp then s.loseHost n false else s.eraseIde n
    let s := (s.portFns n).foldl (fun s f => s.resetFn f) s
    .next ((s.modPort n HostPort.perstReset).setReq 3 false)
  else .next (if hot then s else s.modPort n fun p => { p with perst := true })

/-- PERST_DEASSERT (R464): the port may train. -/
def execPerstDeassert (n : PortId) (s : State) : Out := .next (s.modPort n fun p => { p with perst := false })

/-- HOST_LINK_DOWN (R468): surprise removal or link failure. -/
def execHostLinkDown (n : PortId) (s : State) : Out := .next (if s.ports[n].linkUp then s.loseHost n true else s)

/-- A link trains at a rate and width that the port has (R458, R460). DEDUCED: log entry 68. -/
def State.canTrain (s : State) (n : PortId) (speed : BitVec 4) (width : BitVec 5) : Bool :=
  s.portPresent n && s.sys.mode != .reset && !s.ports[n].trainLate && !s.ports[n].perst && decide (1 ≤ speed.toNat) && decide (speed.toNat ≤ 6) &&
    decide (1 ≤ width.toNat) && decide (width.toNat ≤ s.portLanes)

def State.linkTo (s : State) (n : PortId) (speed : BitVec 4) (width : BitVec 5) (flit : Bool) : State :=
  s.modPort n fun p => { p with linkUp := true, speed := speed, width := width, flit := flit, l1 := false }

/-- HOST_LINK_RETRAIN (R468, R485): a link that is up retrains without loss and is counted; a link that was lost without PERST comes up
again by itself. -/
def execHostLinkRetrain (n : PortId) (speed : BitVec 4) (width : BitVec 5) (flit : Bool) (s : State) : Out :=
  if s.canTrain n speed width then
    let up := s.ports[n].linkUp
    .next ((s.linkTo n speed width flit).modPort n fun p => if up then { p with retrains := satAdd 16 p.retrains 1 } else p)
  else .next s

/-- HOST_LINK_TRAINED (R464): training completes after PERSTn_N is deasserted, and not before BOOT step 5 when PERSTn_N was deasserted before RESET_N (R564). DEDUCED: log entry 68. -/
def execHostLinkTrained (n : PortId) (speed : BitVec 4) (width : BitVec 5) (flit : Bool) (s : State) : Out :=
  if s.canTrain n speed width && !s.ports[n].linkUp then .next (s.linkTo n speed width flit) else .next s

/-! ### Function level reset (R467) -/

/-- VF_FLR (R383, R467): the VF's configuration state is reset, and its plot is. -/
def execVfFlr (v : VfId) (s : State) : Out :=
  let n := vfPort s.grn.split v
  if s.portPresent n && s.ports[n].linkUp then
    let s := s.resetFn (.vf v)
    match s.vfPlot v.val with
    | some m => .next ((s.modVf v fun f => { f with flrBusy := true }).beginPlotReset (plotId m.plot))
    | none => .next s
  else .next s

/-- Queues whose producer or consumer is a function. -/
def State.fnQueues (s : State) (fn : HostFn) : List QueueId :=
  (List.finRange 1024).filter fun q => s.hostProd fn q || s.hostCons fn q

/-- PF_FLR (R305, R467): the function's port share absorbs, its queues are flushed, its configuration state is reset. DEDUCED: log entry 134. -/
def execPfFlr (n : PortId) (s : State) : Out :=
  if s.portPresent n && s.ports[n].linkUp then
    let s := s.absorbFn (.pf n)
    let s := (s.fnQueues (.pf n)).foldl (fun (s : State) q => s.requestFlush q) s
    .next ((s.resetFn (.pf n)).modPort n fun p => { p with sizeLog2 := 30, vfBar2 := 29, aspm := false })
  else .next s

/-! ### Configuration requests (R464) -/

/-- What a configuration write changes: VF Enable and VF Memory Space Enable of a port, MSI-X and BAR2 of a function, ASPM of the link. DEDUCED: log entry 65. -/
def State.configWrite (s : State) (n : PortId) (fn : HostFn) : CfgOp → State
  | .other => s
  | .vfEnable on => match fn with
    | .pf _ => (s.portVfs n).foldl (fun (s : State) v => s.modVf v fun f => { f with enabled := on }) s
    | .vf _ => s
  | .msixEnable on =>
    let was := (s.func fn).msixEn
    let s := s.modFunc fn fun f => { f with msixEn := on }
    if on && !was then s.sendEntries fn else s
  | .functionMask on =>
    let was := (s.func fn).funcMask
    let s := s.modFunc fn fun f => { f with funcMask := on }
    if was && !on then s.sendEntries fn else s
  | .resizeBar2 k => match fn with
    | .pf _ => if 30 ≤ k ∧ k ≤ 37 then s.modPort n fun p => { p with sizeLog2 := BitVec.ofNat 6 k } else s
    | .vf _ => if 29 ≤ k ∧ k ≤ 38 then s.modPort n fun p => { p with vfBar2 := k } else s
  | .aspmL1 on => s.modPort n fun p => { p with aspm := on }

/-- A configuration request is served: Request Retry Status until the port's functions are brought up. -/
def State.configServe (s : State) (n : PortId) (fn : HostFn) (op : CfgOp) : State :=
  if !s.ports[n].broughtUp then s.emit (.cfgCompletion n true)
  else (if s.fnOnPort n fn then s.configWrite n fn op else s).emit (.cfgCompletion n false)

/-- CONFIG_REQUEST (R464, R466). -/
def execConfigRequest (n : PortId) (fn : HostFn) (op : CfgOp) (s : State) : Out :=
  if !s.ports[n].linkUp then .next s
  else if s.portWaits n (.configRequest n fn op) then .next (s.holdTlp n (.configRequest n fn op) s.nextId)
  else .next (s.configServe n fn op)

end Sys2Proof.Machine
end

