-- ==== Sys2Proof/Machine/Grafts.lean ====
section
/-! DEFINITION. Graft links (chapter 18, R470 to R486; R453, R454): training, hello, authentication, admission, queue packets, link-level
replay and partner loss. An entry of a flit is one command; the model counts it as one flit. -/

namespace Sys2Proof.Machine

/-! ### Beacons, training, hello (R476, R477) -/

/-- GRAFT_BEACON_TX (R476): a port that is not up, and not OFF, sends a beacon. DEDUCED: log entry 50. -/
def execGraftBeaconTx (n : PortId) (s : State) : Out :=
  let st := s.grafts[n].st
  .next (if st != .up && st != .off && s.sys.mode != .dormant then s.emit (.beacon n) else s)

/-- GRAFT_TRAIN_LOCK (R470, R477, R486): all lanes lock; polarity and lane order are what training found, free values. -/
def execGraftTrainLock (n : PortId) (s : State) : Out :=
  if s.grafts[n].st = .train then
    let d := s.draw
    let r := d.2.drawBool
    .next (r.2.modGraft n fun p =>
      { p.fresh .hello with locked := 0xff, inverted := d.1.truncate 8,
                            rxLane := Vector.ofFn fun i : Fin 8 => BitVec.ofNat 3 (if r.1 then 7 - i.val else i.val) })
  else .next s

/-- GRAFT_TRAIN_TIMEOUT (R477). -/
def execGraftTrainTimeout (n : PortId) (s : State) : Out := .next (if s.grafts[n].st = .train then s.setGraft n .listen else s)

def State.rank (s : State) : Nat := (s.grn.active.map (·.rank)).getD 0
def State.imageSerial (s : State) : Word := (s.grn.active.map (·.serial)).getD 0

/-- This device's HELLO payload (R476). -/
def State.ownHello (s : State) (n : PortId) : List Word :=
  [packWord [(0, 16, 1), (16, 2, n.val), (18, 2, s.rank)], Config.serial, s.imageSerial, s.sys.bootId]

/-- The peer's HELLO payload, as received. -/
def GraftPort.peerHello (p : GraftPort) : List Word :=
  [packWord [(0, 16, 1), (16, 2, p.peerPort.toNat), (18, 2, p.peerRank.toNat)], p.helloSerial, p.peerImage, p.helloBoot]

/-- GRAFT_HELLO_TX (R475, R477): HELLO goes out in HELLO and, as keepalive, in UP; it is due behind everything that waits. -/
def execGraftHelloTx (n : PortId) (s : State) : Out :=
  .next (if s.grafts[n].st == .hello || s.grafts[n].st == .up then
      (if s.grafts[n].waiting.isEmpty then s.sendFlit n fkHello (s.ownHello n) else s.waitFlit n 4 (flowOf 6 0) fkHello (s.ownHello n))
    else s)

/-- GRAFT_HELLO_TIMEOUT (R477). -/
def execGraftHelloTimeout (n : PortId) (s : State) : Out := .next (if s.grafts[n].st = .hello then s.setGraft n .listen else s)

/-! ### Authentication (R453, R454) -/

/-- Sends one part of the authentication in flits of at most 240 bytes (R472). DEDUCED: log entry 54. -/
def State.sendAuth (s : State) (n : PortId) (part : Nat) : Nat → Nat → List Byte → State
  | 0, _, _ => s
  | fuel + 1, off, bs =>
    match bs with
    | [] => s
    | _ =>
      let c := bs.take 240
      (s.sendFlit n fkAuth (packWord [(0, 4, part), (8, 16, off), (24, 8, c.length)] :: bytesWords c)).sendAuth n part fuel (off + c.length) (bs.drop 240)

/-- The digest of the enrolled owner's key, 48 bytes; none without an owner. -/
def State.ownerDigest (s : State) : Option (List Byte) := s.grn.owner.map fun k => wordsBytes (six (Config.sha384 k))

def draws : Nat → State → List Word × State
  | 0, s => ([], s)
  | k + 1, s => (s.draw.1 :: (draws k s.draw.2).1, (draws k s.draw.2).2)

/-- AUTH begins: the chain, then a fresh nonce with the owner digest. -/
def State.enterAuth (s : State) (n : PortId) : State :=
  let d := draws 6 s
  let s := d.2.modGraft n fun p => { p with st := .auth, ownNonce := d.1 }
  let s := s.sendAuth n 0 (Config.certChain.length + 1) 0 Config.certChain
  s.sendAuth n 1 2 0 (wordsBytes d.1 ++ (s.ownerDigest.getD (List.replicate 48 0)))

/-- The message that a side signs: the digest over both hellos, nonces, chain digests and owner digests, its own first (R453). -/
def authMsg (ownHello peerHello ownNonce peerNonce ownChain peerChain ownOwner peerOwner : List Byte) : List Byte :=
  wordsBytes (six (Config.sha384 (ownHello ++ peerHello ++ ownNonce ++ peerNonce ++ wordsBytes (six (Config.sha384 ownChain)) ++
    wordsBytes (six (Config.sha384 peerChain)) ++ ownOwner ++ peerOwner)))

def State.ownMsg (s : State) (n : PortId) : List Byte :=
  let p := s.grafts[n]
  authMsg (wordsBytes (s.ownHello n)) (wordsBytes p.peerHello) (wordsBytes p.ownNonce) (p.rxNonce.take 48) Config.certChain p.rxChain
    (s.ownerDigest.getD []) (p.rxNonce.drop 48)

def State.peerMsg (s : State) (n : PortId) : List Byte :=
  let p := s.grafts[n]
  authMsg (wordsBytes p.peerHello) (wordsBytes (s.ownHello n)) (p.rxNonce.take 48) (wordsBytes p.ownNonce) p.rxChain Config.certChain
    (p.rxNonce.drop 48) (s.ownerDigest.getD [])

/-- The peer is refused (R454, R457, R477). -/
def State.refuse (s : State) (n : PortId) (reason : Nat) : State :=
  let p := s.grafts[n]
  let was := s.hwd.authFail
  let log := packWord [(0, 2, n.val), (4, 4, reason), (32, 32, if Config.chainVerifies p.rxChain then p.helloSerial.toNat else 0)]
  let s := { s with hwd := { s.hwd with authFail := true, authLog := log, sigQueue := s.hwd.sigQueue.filter fun r => r != SigReq.graft n } }.notice was "HWD_STATUS"
  ((s.modGraft n fun p => { p with st := .refused }).graftEvent n 1)

/-- The chain, the nonce and the owner digest of the peer are in: they are checked, and a signature is requested. -/
def State.checkPeer (s : State) (n : PortId) : State :=
  let p := s.grafts[n]
  if !Config.chainVerifies p.rxChain then s.refuse n 1
  else if s.ownerDigest != some (p.rxNonce.drop 48) then s.refuse n 3
  else s.requestSig (.graft n)

/-- ADMIT flits for a list of items, at most 30 entries each; the last one carries LAST (R472). -/
def State.sendAdmit (s : State) (n : PortId) : Nat → List GraftItem → State
  | 0, _ => s
  | fuel + 1, is =>
    let c := is.take 30
    let last := decide (is.length ≤ 30)
    let s := s.sendFlit n fkAdmit (packWord [(0, 5, c.length), (5, 1, b2n last)] :: c.map fun i => packWord [(0, 32, i.tag.toNat), (32, 2, i.role)])
    if last then s else s.sendAdmit n fuel (is.drop 30)

/-- Matches an item with what the peer lists (R478). -/
def GraftPort.matchesItem (p : GraftPort) (rank : Nat) (i : GraftItem) : Bool :=
  p.peerAdmit.any (fun e => e.tag == i.tag && e.role.toNat == (if i.role % 2 = 0 then i.role + 1 else i.role - 1)) &&
    (match i.role with
      | 0 => decide (rank < p.peerRank.toNat)
      | 1 => decide (p.peerRank.toNat < rank)
      | _ => true)

/-- An item that is not admitted: its link breaks with PEER_REFUSED, or its queue is not served and its plot is told. -/
def State.refuseItem (s : State) (n : PortId) (i : GraftItem) : State :=
  if i.role = 0 then s.breakLinks (fun l => l.toGraft && l.outPort == n && l.tag == i.tag) 4
  else if i.role = 1 then s.breakLinks (fun l => l.fromGraft && l.inPort == n && l.tag == i.tag) 4
  else match i.plot with
    | some p => s.plotEvent (plotId p) 2 0xff n.val (i.tag.zeroExtend 64)
    | none => s

/-- An admitted queue's free credits are granted at once by the receiving port (R479). DEDUCED: log entry 52. -/
def State.grantQueue (s : State) (n : PortId) (i : GraftItem) : State :=
  if i.role = 3 then
    (List.finRange 1024).foldl (fun s q => match s.queueRec q.val with
      | some r => if recProd r == .graft n.val && recTag r == i.tag then s.sendCredit n i.tag true s.queues[q].credits else s
      | none => s) s
  else s

/-- Broken links on the port rearm when their causes are gone, their segments admitted among them (R187, R479). -/
def State.rearmAdmitted (s : State) (n : PortId) : State :=
  (List.range s.links.length).foldl (fun s i => match s.links[i]? with
    | some l => if l.crosses n && s.rearms l then s.rearmLink i else s
    | none => s) s

/-- PSEQ counts restart where either BOOT_ID differs from the pair last admitted (R481). -/
def State.freshPseq (s : State) (n : PortId) : State :=
  let pair := some (s.sys.bootId, s.grafts[n].helloBoot)
  if s.grafts[n].lastBoots = pair then s
  else
    let s := (List.finRange 1024).foldl (fun s q => match s.queueRec q.val with
      | some r => if recProd r == .graft n.val || recCons r == .graft n.val then s.modQueue q fun x => { x with txPseq := 0, rxClosed := none } else s
      | none => s) s
    s.modGraft n fun p => { p with lastBoots := pair }

/-- Items are matched: those of `is` that match are admitted, the others refused (R478). -/
def State.admitItems (s : State) (n : PortId) (is : List GraftItem) : State :=
  let p := s.grafts[n]
  let good := is.filter (p.matchesItem s.rank)
  let bad := is.filter fun i => !p.matchesItem s.rank i
  let s := s.modGraft n fun p =>
    { p with tags := p.tags ++ good.map (fun i => (i.tag, i.role)), admitted := BitVec.ofNat 16 good.length,
             refused := BitVec.ofNat 16 bad.length, lastTag := (bad.getLast?.map (·.tag)).getD p.lastTag }
  let s := bad.foldl (fun (s : State) i => s.refuseItem n i) s
  good.foldl (fun (s : State) i => s.grantQueue n i) (s.rearmAdmitted n)

/-- Both ADMIT lists have ended: the port is UP (R477, R479). -/
def State.tryUp (s : State) (n : PortId) : State :=
  let p := s.grafts[n]
  if p.st == .admitting && p.admitSent && p.admitLast then
    let s := (s.freshPseq n).modGraft n fun p => { p with st := .up, tags := [], admitSent := false }
    s.admitItems n (s.graftItems n)
  else s

/-- Own signature sent and the peer's verified: the port sends its ADMIT list (R457, R477, R478). -/
def State.tryAdmit (s : State) (n : PortId) : State :=
  let p := s.grafts[n]
  if p.st == .auth && p.authSent && p.rxSig.length == 96 then
    let s := { s with hwd := { s.hwd with graftAuth := withBit s.hwd.graftAuth n.val } }
    let s := s.modGraft n fun p => { p with st := .admitting, peerSerial := p.helloSerial, peerBoot := p.helloBoot, admitSent := true }
    let is := s.graftItems n
    (s.sendAdmit n (is.length + 1) is).tryUp n
  else s

/-- This device's signature is ready (R444, R453). -/
def State.graftSigned (s : State) (n : PortId) : State :=
  if s.grafts[n].st == .auth then
    ((s.sendAuth n 2 2 0 ((Config.sign 0 (s.ownMsg n)).take 96)).modGraft n fun p => { p with authSent := true }).tryAdmit n
  else s

/-- AUTH (R453, R454, R472): bytes of the peer's chain (part 0), nonce and owner digest (1), or signature (2), in order. DEDUCED: log entry 54. -/
def execAuth (n : PortId) (part : BitVec 4) (off : BitVec 16) (bytes : List Byte) (s : State) : Out :=
  let p := s.grafts[n]
  if p.st != .auth then .next s
  else
    let s := s.rxFlit n
    match part.toNat with
    | 0 => .next (if off.toNat = p.rxChain.length then s.modGraft n fun p => { p with rxChain := p.rxChain ++ bytes } else s)
    | 1 =>
      if off.toNat = p.rxNonce.length ∧ p.rxNonce.length + bytes.length ≤ 96 then
        let s := s.modGraft n fun p => { p with rxNonce := p.rxNonce ++ bytes }
        .next (if p.rxNonce.length + bytes.length = 96 then s.checkPeer n else s)
      else .next s
    | 2 =>
      if off.toNat = p.rxSig.length ∧ p.rxSig.length + bytes.length ≤ 96 ∧ p.rxNonce.length = 96 then
        let s := s.modGraft n fun p => { p with rxSig := p.rxSig ++ bytes }
        if p.rxSig.length + bytes.length = 96 then
          .next (if Config.ecdsaVerify (Config.chainKey p.rxChain) (s.peerMsg n) s.grafts[n].rxSig then s.tryAdmit n else s.refuse n 2)
        else .next s
      else .next s
    | _ => .next s

/-- GRAFT_AUTH_TIMEOUT (R454). -/
def execGraftAuthTimeout (n : PortId) (s : State) : Out := .next (if s.grafts[n].st = .auth then s.refuse n 4 else s)

/-- GRAFT_REFUSED_TIMEOUT (R477). -/
def execGraftRefusedTimeout (n : PortId) (s : State) : Out := .next (if s.grafts[n].st = .refused then s.setGraft n .listen else s)

/-- Items of this device that are not admitted and that the peer's latest list names, and the answer to it when this device has not
just sent its own (R483). -/
def State.admitAgain (s : State) (n : PortId) : State :=
  let p := s.grafts[n]
  let is := (s.graftItems n).filter fun i => p.peerAdmit.any (fun e => e.tag == i.tag) && !p.tags.any fun t => t.1 == i.tag && t.2 == i.role
  let s := if p.admitSent then s else s.sendAdmit n (is.length + 1) is
  (s.admitItems n is).modGraft n fun p => { p with admitSent := false, peerAdmit := [], admitLast := false }

/-- ADMIT (R472, R478, R483). -/
def execAdmit (n : PortId) (last : Bool) (es : List AdmitEntry) (s : State) : Out :=
  let p := s.grafts[n]
  if p.st == .auth || p.st == .admitting || p.st == .up then
    let s := (s.rxFlit n).modGraft n fun p => { p with peerAdmit := p.peerAdmit ++ es, admitLast := last }
    .next (if p.st == .up then (if last then s.admitAgain n else s) else s.tryUp n)
  else .next s

/-! ### HELLO (R476, R477, R482) -/

/-- HELLO seen and acknowledged in both directions: authentication begins. -/
def State.tryAuth (s : State) (n : PortId) : State :=
  let p := s.grafts[n]
  if p.st == .hello && p.helloSeen && p.helloAcked then s.enterAuth n else s

/-- HELLO (R476, R477, R482): in HELLO the peer is noted and acknowledged; in UP another BOOT_ID loses the partner. -/
def execHello (n : PortId) (protocol : BitVec 16) (peerPort rank : BitVec 2) (serial image bootId : Word) (s : State) : Out :=
  let p := s.grafts[n]
  if p.st = .hello ∧ protocol = 1 then
    let s := (s.rxFlit n).modGraft n fun p =>
      { p with helloSeen := true, peerPort := peerPort, peerRank := rank, helloSerial := serial, peerImage := image, helloBoot := bootId }
    .next ((s.sendIdle n).tryAuth n)
  else if p.st = .up then
    let s := s.rxFlit n
    if bootId ≠ p.peerBoot then .next ((s.graftEvent n 2).partnerLost n false) else .next s
  else .next s

/-! ### Queue packets (R480, R481, R354) -/

/-- The queue that port n receives with a tag, and the one that it sends. DEDUCED: log entry 51. -/
def State.rxQueue (s : State) (n : PortId) (tag : BitVec 32) : Option QueueId :=
  (List.finRange 1024).find? fun q => match s.queueRec q.val with
    | some r => recProd r == .graft n.val && recTag r == tag
    | none => false

def State.txQueue (s : State) (n : PortId) (tag : BitVec 32) : Option QueueId :=
  (List.finRange 1024).find? fun q => match s.queueRec q.val with
    | some r => recCons r == .graft n.val && recTag r == tag
    | none => false

/-- A packet number that this end has closed already (R481). -/
def Queue.wasClosed (x : Queue) (pseq : BitVec 16) : Bool :=
  match x.rxClosed with
  | some c => decide ((c - pseq).toNat < 0x8000)
  | none => false

/-- The packet that is being received, its length word first, is whole: it closes and CLOSED goes back. -/
def State.finishRx (s : State) (n : PortId) (tag : BitVec 32) (q : QueueId) (pseq : BitVec 16) : State :=
  match s.queues[q].prod with
  | none => s
  | some o =>
    if o.words.length < o.cap + 1 then s
    else
      let h := o.words.head?.getD (qword 0 false)
      let w := h.w
      let s := s.modQueue q fun x => { x with prod := some { o with words := o.words.drop 1 }, rxClosed := some pseq, rxPseq := none }
      let s := s.meter (s.queuePlot q) fun c => { c with graft := c.graft + 8 * (o.cap + 1) }
      (s.qClose q (BitVec.ofNat 8 (fieldAt w 16 8)) (BitVec.ofNat 32 (fieldAt w 32 32)) h.poison).sendQueueCtrl n tag 0 pseq

/-- A packet for a queue that the layout of the active image does not have fails the check of the receiving hub (R303, R313, R314): it is
counted and logged with its port as the master, goes no further, and has no response to return. DESIGN CHOICE: log entry 170. -/
def State.graftIso (s : State) (n : PortId) : State :=
  let d := s.draw
  let t := d.2.isoFail (260 + n.val) 0 0 (2 ^ 47) true
  if s.cnp.isoValid then t else { t with cnp := { t.cnp with isoAddr := d.1.setWidth 48 } }

/-- QUEUE_DATA (R480, R481): words of a packet, its length word at offset 0. A packet that was closed is discarded and CLOSED is
returned again. DEDUCED: log entry 51. -/
def execQueueData (n : PortId) (tag : BitVec 32) (pseq : BitVec 16) (off : Nat) (ws : List (Word × Bool)) (s : State) : Out :=
  if !s.itemUp n tag 3 then .next (if s.grafts[n].st == .up && (s.rxQueue n tag).isNone then (s.rxFlit n).graftIso n else s)
  else
    match s.rxQueue n tag with
    | none => .next s
    | some q =>
      let s := s.rxFlit n
      let x := s.queues[q]
      if x.wasClosed pseq then .next (if off = 0 then s.sendQueueCtrl n tag 0 pseq else s)
      else
        let qs := ws.map fun w => qword w.1 w.2
        match off, ws with
        | 0, w :: _ =>
          let c := fieldAt w.1 0 16
          if x.prod.isNone && decide (c + 1 ≤ x.credits) && decide (qs.length ≤ c + 1) then
            let s := (s.qOpen q c).modQueue q fun x => { x with prod := x.prod.map fun o => { o with words := qs }, rxPseq := some pseq }
            .next (s.finishRx n tag q pseq)
          else .next s
        | _, _ =>
          match x.prod with
          | some o =>
            if x.rxPseq = some pseq ∧ off = o.words.length ∧ off + qs.length ≤ o.cap + 1 then
              .next ((s.modQueue q fun x => { x with prod := some { o with words := o.words ++ qs } }).finishRx n tag q pseq)
            else .next s
          | none => .next s

/-- CLOSED (R350, R480): the port acts as QTAKE and QDONE on the packet that it sent, and sends the next one. -/
def execClosed (n : PortId) (tag : BitVec 32) (pseq : BitVec 16) (s : State) : Out :=
  if !s.itemUp n tag 2 then .next s
  else
    match s.txQueue n tag with
    | none => .next s
    | some q =>
      let s := s.rxFlit n
      let x := s.queues[q]
      if x.txBusy && x.txPseq == pseq then
        .next ((((s.qTake q).qDone q).modQueue q fun x => { x with txBusy := false, txPseq := x.txPseq + 1 }).graftTrySend q)
      else .next s

/-- QUEUE_ABORT (R354): the partial packet is discarded; its words are granted to the peer again. DEDUCED: log entry 52. -/
def execQueueAbort (n : PortId) (tag : BitVec 32) (pseq : BitVec 16) (s : State) : Out :=
  if !s.itemUp n tag 3 then .next s
  else
    match s.rxQueue n tag with
    | none => .next s
    | some q =>
      let s := s.rxFlit n
      let x := s.queues[q]
      match x.prod with
      | some o =>
        if x.rxPseq = some pseq then
          .next ((s.modQueue q fun x => { x with prod := none, rxPseq := none, credits := x.credits + o.cap + 1 }).sendCredit n tag true (o.cap + 1))
        else .next s
      | none => .next s

/-- CREDIT (R185, R474, R479): words for a queue that this port sends, or for a chain link that leaves on it. -/
def execCredit (n : PortId) (tag : BitVec 32) (isQueue : Bool) (words : BitVec 17) (s : State) : Out :=
  if s.grafts[n].st != .up then .next s
  else
    let s := s.rxFlit n
    if isQueue then
      match s.txQueue n tag with
      | some q => .next ((s.modQueue q fun x => { x with txGrant := x.txGrant + words.toNat }).graftTrySend q)
      | none => .next s
    else
      match s.links.findIdx? fun l => l.toGraft && l.outPort == n && l.tag == tag && !l.broken with
      | some i => .next (s.modLink i fun l => { l with credits := l.credits + words.toNat })
      | none => .next s

/-! ### Replay (R471, R473) -/

/-- Flits with SEQ below `ack`, modulo 1,024, are acknowledged. -/
def GraftPort.ackTo (p : GraftPort) (ack : BitVec 10) : GraftPort := { p with unacked := p.unacked.filter fun f => decide (512 ≤ (ack - f.seq - 1).toNat) }

/-- Every flit that was sent, a HELLO among them, is acknowledged. -/
def State.afterAck (s : State) (n : PortId) : State :=
  (s.modGraft n fun p => { p with helloAcked := p.helloAcked || (p.st == .hello && p.txSeq != 0 && p.unacked.isEmpty) }).tryAuth n

def GraftPort.linked (p : GraftPort) : Bool :=
  match p.st with
  | .hello | .auth | .admitting | .up => true
  | _ => false

/-- GRAFT_BAD_FLIT (R473): the flit is discarded; the next one sent carries NAK. -/
def execGraftBadFlit (n : PortId) (s : State) : Out :=
  .next (if s.grafts[n].linked then s.modGraft n fun p => { p with nakDue := true } else s)

/-- GRAFT_NAK (R473, R482): the port replays from the flit numbered ACK; the fourth NAK of one flit loses the partner. -/
def execGraftNak (n : PortId) (ack : BitVec 10) (s : State) : Out :=
  if !s.grafts[n].linked then .next s
  else
    let s := s.modGraft n fun p => { p.ackTo ack with replays := satAdd 32 p.replays 1 }
    match s.grafts[n].unacked with
    | [] => .next (s.afterAck n)
    | f :: fs =>
      let s := s.modGraft n fun p => { p with unacked := { f with naks := f.naks + 1 } :: fs }
      if 4 ≤ f.naks + 1 && s.grafts[n].st == .up then .next ((s.graftEvent n 4).partnerLost n false)
      else .next ((f :: fs).foldl (fun s g => s.emit (.flit n (flitHdr s.grafts[n] g.kind.toNat g.seq g.words.length) g.words)) s)

/-- GRAFT_IDLE (R471): progress of ACK only. -/
def execGraftIdle (n : PortId) (ack : BitVec 10) (s : State) : Out :=
  .next (if s.grafts[n].linked then (s.modGraft n fun p => p.ackTo ack).afterAck n else s)

/-! ### Partner loss (R477, R482) -/

def State.loseIfUp (s : State) (n : PortId) : State := if s.grafts[n].st = .up then s.partnerLost n false else s

/-- LEAVE (R482). -/
def execLeave (n : PortId) (s : State) : Out := .next (s.loseIfUp n)

/-- GRAFT_LANE_LOCK_LOSS (R482, R486). -/
def execGraftLaneLockLoss (n : PortId) (lane : Fin 8) (s : State) : Out :=
  .next ((s.modGraft n fun p => { p with locked := dropBit p.locked lane.val }).loseIfUp n)

/-- GRAFT_ACK_TIMEOUT (R482). -/
def execGraftAckTimeout (n : PortId) (s : State) : Out := .next (if s.grafts[n].unacked.isEmpty then s else s.loseIfUp n)

/-- GRAFT_KEEPALIVE_MISS (R482). -/
def execGraftKeepaliveMiss (n : PortId) (s : State) : Out := .next (s.loseIfUp n)

/-- GRFT_CTRL.HOLD is written (R477, R482). -/
def State.writeHold (s : State) (n : PortId) (on : Bool) : State :=
  let s := s.modGraft n fun p => { p with hold := on }
  if on then (if s.grafts[n].st = .off then s else s.graftDown n)
  else if s.grafts[n].st = .off then s.setGraft n (s.graftRest n)
  else s

/-- HOLD (R477, R482, R486). -/
def execHold (n : PortId) (on : Bool) (s : State) : Out := .next (s.writeHold n on)

end Sys2Proof.Machine
end

