-- ==== Sys2Proof/Machine/Heartwood.lean ====
section
/-! DEFINITION. Heartwood (chapter 17): SPDM requests and answers, measurements, link IDE keys and the signing engine. The numbers of
SPDM error codes, and what SPDM answers to a request out of its order, are PRESUMED from SPDM 1.2; the spec names the codes alone. -/

namespace Sys2Proof.Machine

/-- Error codes of SPDM 1.2. PRESUMED: log entry 55. -/
def errInvalid : BitVec 8 := 0x01
/-- PRESUMED: log entry 55. -/
def errSession : BitVec 8 := 0x02
def errUnexpected : BitVec 8 := 0x04
def errUnsupported : BitVec 8 := 0x07
def errLimit : BitVec 8 := 0x0a

def State.modHwd (s : State) (f : Hwd → Hwd) : State := { s with hwd := f s.hwd }
def State.modTr (s : State) (tr : Fin 9) (f : Transport → Transport) : State := s.modHwd fun h => { h with transports := vmod h.transports tr f }
def State.answer (s : State) (tr : Fin 9) (r : SpdmResp) : State := s.emit (.spdm tr r)
def State.spdmError (s : State) (tr : Fin 9) (code : BitVec 8) : State := s.answer tr (.error code 0)

/-- The host port that a transport crosses; SMBus crosses none (R445). -/
def trPort (tr : Fin 9) : Option PortId := if tr.val < 4 then finOf? 4 tr.val else if tr.val = 4 then none else finOf? 4 (tr.val - 5)

/-- The responder runs: the identity key is derived and the device is awake. -/
def State.responderUp (s : State) : Bool := s.awake && s.hwd.keyOk

def State.trUp (s : State) (tr : Fin 9) : Bool :=
  match trPort tr with
  | some n => s.ports[n].linkUp && s.ports[n].broughtUp
  | none => true

/-- A new request on a transport replaces the pending answer (R448). -/
def State.dropPending (s : State) (tr : Fin 9) : State :=
  let busy := s.hwd.engine == some (.spdm tr)
  (s.modTr tr fun t => { t with pending := none, ready := false, direct := false, stale := t.stale || busy }).modHwd fun h =>
    { h with sigQueue := h.sigQueue.filter fun r => r != SigReq.spdm tr }

/-- An SPDM request arrives: a host port may hold it (R466); otherwise the responder answers it. -/
def State.spdm (s : State) (tr : Fin 9) (i : Instr) (f : State → State) : State :=
  match trPort tr with
  | some n =>
    if s.ports[n].linkUp && s.portWaits n i then s.holdTlp n i s.nextId
    else if s.responderUp && s.trUp tr then f s else s
  | none => if s.responderUp then f s else s

/-- A request that needs a signature (R448): the answer leaves when it is signed; with the engine busy the requester is told to come
back. -/
def State.signedAnswer (s : State) (tr : Fin 9) (r : SpdmResp) : State :=
  let busy := s.hwd.engine.isSome
  let s := (s.modTr tr fun t => { t with pending := some r, ready := false, direct := !busy }).requestSig (.spdm tr)
  if busy then s.answer tr (.notReady 13 8) else s

/-- The algorithms of a transport are negotiated. -/
def State.negotiated (s : State) (tr : Fin 9) (k : State → State) : State :=
  if s.hwd.transports[tr].algs then k (s.dropPending tr) else s.spdmError tr errUnexpected

/-! ### Measurements (R449, R450) -/

/-- A measurement's digest. DEDUCED: log entry 91. -/
def State.measurement (s : State) (i : Nat) : List Word :=
  match i with
  | 1 => six Config.romDigest
  | 2 => six (Config.sha384 (wordsBytes s.sys.fw[if s.sys.fwCopy then (1 : Fin 2) else 0].words))
  | 3 => match s.grn.active with
    | some g => six (Config.sha384 (wordsBytes g.raw))
    | none => List.replicate 6 0
  | _ => six Config.fuseDigest

/-- The blocks that an index names. -/
def State.blocks (s : State) (index : Nat) : Option (List (BitVec 8 × List Word)) :=
  if index = 0xff then some ([1, 2, 3, 4].map fun i => (BitVec.ofNat 8 i, s.measurement i))
  else if 1 ≤ index ∧ index ≤ 4 then some [(BitVec.ofNat 8 index, s.measurement index)]
  else none

/-- The digest of the certificate chain (R447). -/
def chainDigest : List Word := six (Config.sha384 Config.certChain)

/-! ### Requests (R445-R448) -/

/-- GET_VERSION (R445): version 1.2; the connection starts anew. -/
def State.doGetVersion (s : State) (tr : Fin 9) : State :=
  ((s.dropPending tr).modTr tr fun t => { t with version := true, caps := false, algs := false }).answer tr (.version 1 2)

def execGetVersion (tr : Fin 9) (s : State) : Out := .next (s.spdm tr (.getVersion tr) fun s => s.doGetVersion tr)

/-- Everything that R446 lists under capabilities. -/
def spdmCaps : List SpdmCap := [.cert, .chal, .measSig, .measFresh, .keyEx, .encrypt, .mac, .hbeat, .keyUpd]

/-- One value for each field that R446 negotiates. -/
def spdmAlgs : List SpdmAlg := [.ecdsaP384, .baseSha384, .measSha384, .dmtf, .secp384r1, .aes256Gcm, .spdmSchedule]

/-- GET_CAPABILITIES (R446). -/
def State.doGetCapabilities (s : State) (tr : Fin 9) : State :=
  if s.hwd.transports[tr].version then ((s.dropPending tr).modTr tr fun t => { t with caps := true }).answer tr (.capabilities 16 spdmCaps)
  else s.spdmError tr errUnexpected

def execGetCapabilities (tr : Fin 9) (s : State) : Out := .next (s.spdm tr (.getCapabilities tr) fun s => s.doGetCapabilities tr)

/-- NEGOTIATE_ALGORITHMS (R446): a requester that offers none of the supported values for a field gets UnsupportedRequest. -/
def State.doNegotiate (s : State) (tr : Fin 9) (o : AlgOffer) : State :=
  if s.hwd.transports[tr].caps then
    let s := s.dropPending tr
    if o.asym && o.hash && o.measSpec && o.dhe && o.aead && o.keySchedule then (s.modTr tr fun t => { t with algs := true }).answer tr (.algorithms spdmAlgs)
    else s.spdmError tr errUnsupported
  else s.spdmError tr errUnexpected

def execNegotiateAlgorithms (tr : Fin 9) (offer : AlgOffer) (s : State) : Out :=
  .next (s.spdm tr (.negotiateAlgorithms tr offer) fun s => s.doNegotiate tr offer)

/-- GET_DIGESTS (R447). -/
def execGetDigests (tr : Fin 9) (s : State) : Out :=
  .next (s.spdm tr (.getDigests tr) fun s => s.negotiated tr fun s => s.answer tr (.digests chainDigest))

/-- GET_CERTIFICATE (R447): slot 0 alone is provisioned. -/
def State.doGetCertificate (s : State) (tr : Fin 9) (slot : BitVec 4) (off len : Nat) : State :=
  if slot ≠ 0 ∨ Config.certChain.length ≤ off then s.spdmError tr errInvalid
  else
    let bs := (Config.certChain.drop off).take len
    s.answer tr (.certificate bs (Config.certChain.length - off - bs.length))

def execGetCertificate (tr : Fin 9) (slot : BitVec 4) (off len : Nat) (s : State) : Out :=
  .next (s.spdm tr (.getCertificate tr slot off len) fun s => s.negotiated tr fun s => s.doGetCertificate tr slot off len)

/-- CHALLENGE (R447, R448): the answer's own nonce and its signature are free values. -/
def State.doChallenge (s : State) (tr : Fin 9) (slot : BitVec 4) : State :=
  if slot ≠ 0 then s.spdmError tr errInvalid
  else
    let d := draws 4 s
    d.2.signedAnswer tr (.challengeAuth chainDigest d.1 [])

def execChallenge (tr : Fin 9) (slot : BitVec 4) (nonce : BitVec 256) (s : State) : Out :=
  .next (s.spdm tr (.challenge tr slot nonce) fun s => s.negotiated tr fun s => s.doChallenge tr slot)

/-- GET_MEASUREMENTS (R449, R450): every block as it stands at one tick. -/
def State.doMeasure (s : State) (tr : Fin 9) (slot : BitVec 4) (index : BitVec 8) (sig : Bool) : State :=
  match s.blocks index.toNat with
  | none => s.spdmError tr errInvalid
  | some bs =>
    if slot ≠ 0 then s.spdmError tr errInvalid
    else
      let d := draws 4 s
      if sig then d.2.signedAnswer tr (.measurements bs d.1 []) else d.2.answer tr (.measurements bs d.1 [])

def execGetMeasurements (tr : Fin 9) (slot : BitVec 4) (index : BitVec 8) (sig : Bool) (nonce : BitVec 256) (s : State) : Out :=
  .next (s.spdm tr (.getMeasurements tr slot index sig nonce) fun s => s.negotiated tr fun s => s.doMeasure tr slot index sig)

/-- KEY_EXCHANGE (R448): at most 8 sessions over all transports. -/
def State.doKeyExchange (s : State) (tr : Fin 9) (slot : BitVec 4) (heartbeat : Nat) : State :=
  if slot ≠ 0 then s.spdmError tr errInvalid
  else if 8 ≤ s.hwd.sessions.length then s.spdmError tr errLimit
  else
    let sid := s.hwd.nextSid
    (s.modHwd fun h => { h with nextSid := sid + 1, sessions := h.sessions ++ [⟨sid, tr, heartbeat, false, 0⟩] }).signedAnswer tr (.keyExchangeRsp sid [])

/-- PRESUMED: log entry 59. -/
def execKeyExchange (tr : Fin 9) (slot : BitVec 4) (heartbeat : Nat) (s : State) : Out :=
  .next (s.spdm tr (.keyExchange tr slot heartbeat) fun s => s.negotiated tr fun s => s.doKeyExchange tr slot heartbeat)

/-- A message of a session: it must be open on this transport. -/
def State.inSession (s : State) (tr : Fin 9) (sid : Nat) (established : Bool) (k : State → State) : State :=
  if s.hwd.sessions.any fun x => x.sid = sid && x.tr == tr && x.established == established then k (s.dropPending tr) else s.spdmError tr errSession

def State.modSession (s : State) (sid : Nat) (f : Session → Session) : State :=
  s.modHwd fun h => { h with sessions := h.sessions.map fun x => if x.sid = sid then f x else x }

def State.endSession (s : State) (sid : Nat) : State := s.modHwd fun h => { h with sessions := h.sessions.filter fun x => x.sid ≠ sid }

/-- FINISH (R447). -/
def execFinish (tr : Fin 9) (sid : Nat) (s : State) : Out :=
  .next (s.spdm tr (.finish tr sid) fun s => s.inSession tr sid false fun s =>
    (s.modSession sid fun x => { x with established := true }).answer tr .finishRsp)

/-- HEARTBEAT (R448). -/
def execHeartbeat (tr : Fin 9) (sid : Nat) (s : State) : Out :=
  .next (s.spdm tr (.heartbeat tr sid) fun s => s.inSession tr sid true fun s => s.answer tr .heartbeatAck)

/-- KEY_UPDATE (R447). -/
def execKeyUpdate (tr : Fin 9) (sid : Nat) (s : State) : Out :=
  .next (s.spdm tr (.keyUpdate tr sid) fun s => s.inSession tr sid true fun s =>
    (s.modSession sid fun x => { x with keyGen := x.keyGen + 1 }).answer tr .keyUpdateAck)

/-- END_SESSION (R448, R452): an IDE stream keeps its keys. -/
def execEndSession (tr : Fin 9) (sid : Nat) (s : State) : Out :=
  .next (s.spdm tr (.endSession tr sid) fun s => s.inSession tr sid true fun s => (s.endSession sid).answer tr .endSessionAck)

/-- RESPOND_IF_READY (R448). -/
def State.doRespond (s : State) (tr : Fin 9) : State :=
  let t := s.hwd.transports[tr]
  match t.pending with
  | some r => if t.ready then (s.modTr tr fun t => { t with pending := none, ready := false }).answer tr r else s.answer tr (.notReady 13 8)
  | none => s.spdmError tr errUnexpected

def execRespondIfReady (tr : Fin 9) (s : State) : Out := .next (s.spdm tr (.respondIfReady tr) fun s => s.doRespond tr)

/-- Every other request (R447). -/
def execSpdmUnsupportedRequest (tr : Fin 9) (code : BitVec 8) (s : State) : Out :=
  .next (s.spdm tr (.spdmUnsupportedRequest tr code) fun s => (s.dropPending tr).answer tr (.error errUnsupported code))

/-- SESSION_HEARTBEAT_TIMEOUT (R448): the period has passed without a message; a session without a heartbeat has no period. PRESUMED: log entry 59. -/
def execSessionHeartbeatTimeout (sid : Nat) (s : State) : Out :=
  .next (if s.hwd.sessions.any fun x => x.sid = sid && x.heartbeat != 0 then s.endSession sid else s)

/-! ### Link IDE (R451) -/

/-- A key-management message is in an established session that was opened on port n's DOE. -/
def State.ideSession (s : State) (tr : Fin 9) (sid : Nat) (n : PortId) : Bool :=
  tr == doeOf n && s.hwd.sessions.any fun x => x.sid = sid && x.tr == tr && x.established

/-- The stream is secure while all three sub-streams of one key set go. -/
def Ide.refresh (x : Ide) : Ide :=
  { x with secure := ([0, 1] : List (Fin 2)).any fun k => ([0, 1, 2] : List (Fin 3)).all fun j => x.going.contains (k, j) }

def State.modIde (s : State) (n : PortId) (f : Ide → Ide) : State := s.modHwd fun h => { h with ide := vmod h.ide n fun x => (f x).refresh }

/-- A key-management message that is accepted changes the stream; any other is refused with status 0x01. DEDUCED: log entry 57. -/
def State.ideMsg (s : State) (tr : Fin 9) (sid : Nat) (n : PortId) (f : Ide → Ide) : State :=
  let s := s.dropPending tr
  if s.ideSession tr sid n then (s.modIde n f).answer tr (.keyMgmt 0) else s.answer tr (.keyMgmt 1)

/-- KEY_PROG (R451). -/
def execKeyProg (tr : Fin 9) (sid : Nat) (n : PortId) (kset : Fin 2) (sub : Fin 3) (key : BitVec 256) (s : State) : Out :=
  .next (s.spdm tr (.keyProg tr sid n kset sub key) fun s => s.ideMsg tr sid n fun x =>
    { x with keys := (kset, sub, key) :: x.keys.filter fun k => !(k.1 == kset && k.2.1 == sub) })

/-- K_SET_GO (R451): a programmed key goes into use. DEDUCED: log entries 57, 58. -/
def execKSetGo (tr : Fin 9) (sid : Nat) (n : PortId) (kset : Fin 2) (sub : Fin 3) (s : State) : Out :=
  .next (s.spdm tr (.kSetGo tr sid n kset sub) fun s => s.ideMsg tr sid n fun x =>
    if x.keys.any (fun k => k.1 == kset && k.2.1 == sub) && !x.going.contains (kset, sub) then { x with going := (kset, sub) :: x.going } else x)

/-- K_SET_STOP (R451). DEDUCED: log entry 58. -/
def execKSetStop (tr : Fin 9) (sid : Nat) (n : PortId) (kset : Fin 2) (sub : Fin 3) (s : State) : Out :=
  .next (s.spdm tr (.kSetStop tr sid n kset sub) fun s => s.ideMsg tr sid n fun x => { x with going := x.going.filter fun g => g != (kset, sub) })

/-- QUERY (R451). -/
def execQuery (tr : Fin 9) (sid : Nat) (n : PortId) (s : State) : Out :=
  .next (s.spdm tr (.query tr sid n) fun s => s.ideMsg tr sid n fun x => x)

/-! ### The signing engine (R444) -/

/-- An answer with its signature, twelve free words: the transcript that it covers is SPDM's, and the model keeps no transcript. -/
def SpdmResp.signed : SpdmResp → List Word → SpdmResp
  | .challengeAuth d n _, w => .challengeAuth d n w
  | .measurements b n _, w => .measurements b n w
  | .keyExchangeRsp i _, w => .keyExchangeRsp i w
  | r, _ => r

def State.spdmSigned (s : State) (tr : Fin 9) : State :=
  let t := s.hwd.transports[tr]
  if t.stale then s.modTr tr fun t => { t with stale := false }
  else
    match t.pending with
    | none => s
    | some r =>
      let d := draws 12 s
      let r := r.signed d.1
      if t.direct then (d.2.modTr tr fun t => { t with pending := none, direct := false }).answer tr r
      else d.2.modTr tr fun t => { t with pending := some r, ready := true }

/-- SIGNATURE_COMPLETE (R444): the engine ends one signature and takes the next request. -/
def execSignatureComplete (s : State) : Out :=
  if s.sys.pwrFail || !s.awake then .next s
  else
    match s.hwd.engine with
    | none => .next s
    | some r =>
      let s := s.modHwd fun h => { h with engine := none }
      .next ((match r with
        | .ledger => s.signItem
        | .graft n => s.graftSigned n
        | .spdm tr => s.spdmSigned tr).startSig)

end Sys2Proof.Machine
end

