-- ==== Sys2Proof/Machine/Modes.lean ====
section
/-! DEFINITION. Modes, resets and boot (chapter 20): supply and reset pins, BOOT and its steps, drains, the crown cores and the
watchdog. -/

namespace Sys2Proof.Machine

def State.modSys (s : State) (f : Sys → Sys) : State := { s with sys := f s.sys }

/-! ### Power (R520, R522, R562-R564) -/

/-- What is left of the ledger when power is lost: MRAM (R438). Numbers given to items that no slot holds are given again. -/
def Ring.unpowered (r : Ring) : Ring :=
  { (State.reset).ring with rings := r.rings, journal := r.journal.map (fun x => { x with posted := false }), sealHash := r.sealHash,
                            sealItems := r.sealItems, sealStart := r.sealStart, repairLog := r.repairLog, flush := r.flush,
                            savedTick := r.savedTick, savedOffset := r.savedOffset, seq := r.seq - BitVec.ofNat 64 r.signed.length }

/-- Power is lost: MRAM, flash and fuses keep what they hold (R522, R566). DESIGN CHOICE: log entries 70, 77. -/
def State.powerLost (s : State) : State :=
  { State.reset with
    pending := s.pending
    mem := { s.mem.lose (fun _ => true) with dead := [] }
    plots := s.plots.map fun x => { Plot.start with prevHash := x.prevHash }
    ring := s.ring.unpowered
    grn := { Grn.start with floor := s.grn.floor, slots := s.grn.slots, prefSlot := s.grn.prefSlot, owner := s.grn.owner, splitNext := s.grn.splitNext }
    sys := { Sys.start with qnotes := s.sys.qnotes, fw := s.sys.fw, fwPref := s.sys.fwPref, fwFloor := s.sys.fwFloor, aonGood := false }
    crownEvts := s.crownEvts, outbox := s.outbox, nextId := s.nextId, fresh := s.fresh }

/-- POWER_ON (R520): VDD_AON rises past 0.70 V; RESET_N is held asserted (R562). -/
def execPowerOn (s : State) : Out :=
  let s := s.powerLost.modSys fun x => { x with aonGood := true }
  .next ((s.ringAdd 3 1).raise (.modeChange .reset))

/-- RAIL_OUT_OF_TOLERANCE (R557, R564): the device loses power, until the next POWER_ON. A flush is there only if one was written. DESIGN CHOICE: log entry 70. -/
def execRailOutOfTolerance (_rail : Nat) (s : State) : Out := .next s.powerLost

/-! ### Reset pins and REFCLK (R488, R515, R521, R523) -/

/-- BOOT begins when RESET_N, REFCLK, VDD_AON and TRIP_N allow it, and a reset that began inside has had its 10 µs. -/
def State.tryBoot (s : State) : State := if s.bootAllowed && !s.sys.internalReset then s.enterBoot else s

/-- RESET_N_ASSERT (R515, R521): a device reset in every mode but RESET, which it prolongs. DEDUCED: log entry 71. -/
def execResetNAssert (s : State) : Out :=
  let s1 := s.modSys fun x => { x with resetN := true }
  if s.sys.mode = .reset then .next s1 else .next (s1.deviceReset 1 0 false)

/-- RESET_N_DEASSERT (R515). -/
def execResetNDeassert (s : State) : Out := .next ((s.modSys fun x => { x with resetN := false }).tryBoot)

/-- CORE_RESET_COMPLETE (R521): a reset that began inside the device ends. -/
def execCoreResetComplete (s : State) : Out :=
  if s.sys.mode = .reset ∧ s.sys.internalReset = true then .next ((s.modSys fun x => { x with internalReset := false }).tryBoot) else .next s

/-- REFCLK_LOSS (R488, R523): outside Dormant, REFCLK stops. DEDUCED: log entry 72. -/
def execRefclkLoss (s : State) : Out :=
  if s.pwr.refclkOk = true ∧ s.sys.mode ≠ .dormant then .next ((s.modPwr fun p => { p with refclkOk := false, locked := false }).refclkReset.pwrEvent 6) else .next s

/-- REFCLK_RESTORE (R488): REFCLK has run for 1 ms. -/
def execRefclkRestore (s : State) : Out :=
  if s.sys.aonGood then .next ((s.modPwr fun p => { p with refclkOk := true }).tryBoot) else .next s

/-! ### BOOT (R517, R518) -/

/-- The time in µs that the step after `n` may take (R517). DEDUCED: log entry 69. -/
def stepLimit (n : Nat) : Nat :=
  match n with
  | 0 => 1100
  | 1 => 45000
  | 2 => 12000
  | 3 => 20000
  | _ => 1000

/-- A cause that the step after `n` can fail with (R525). -/
def stepCause (n cause : Nat) : Bool :=
  match n with
  | 1 => cause == 1 || cause == 2 || cause == 6
  | 2 => cause == 3 || cause == 4
  | 3 => cause == 5
  | _ => false

/-- BOOT_US holds the duration of the BOOT that ends. -/
def State.endBoot (s : State) : State := s.modSys fun x => { x with bootUs := BitVec.ofNat 16 (min (x.bootStart.toNat / 10) 65535) }

/-- Step 1: VDD_CORE is written to 0.60 V, the PLL locks, PL3 is in force. -/
def State.coreUp (s : State) : State := ((s.modPwr fun p => { p with locked := true }).avs 600).modSys fun x => { x with bootStep := 1 }

/-- A firmware copy that the boot ROM accepts (R518). -/
def State.fwGood (s : State) (k : Fin 2) : Bool := Config.fwVerifies s.sys.fw[k].words && decide (s.sys.fwFloor.toNat ≤ s.sys.fw[k].serial.toNat)

/-- The copy that boots: the preferred one, or else the other. DEDUCED: log entry 80. -/
def State.fwChoice (s : State) : Option (Fin 2) :=
  if s.fwGood s.sys.fwPref then some s.sys.fwPref else if s.fwGood (1 - s.sys.fwPref) then some (1 - s.sys.fwPref) else none

/-- The identity key and its certificate chain (R442, R443). -/
def State.deriveKey (s : State) (chain : Bool) : State := s.modHwd fun h => { h with keyOk := true, locked := true, chainOk := chain }

/-- The watchdog's period, at least 10 ms. -/
def Crn.periodMs (c : Crn) : BitVec 16 := if c.period.toNat < 10 then 10 else c.period

/-- Crown firmware starts: crown RAM holds the copy, every core begins at word 0x000, the watchdog is armed (R518, R528). -/
def State.startCrown (s : State) (k : Fin 2) : State :=
  let s := s.modMem fun m => m.putAll (atAddr crownBase ((Config.fwImage s.sys.fw[k].words).take 0x200000))
  let s : State := { s with crn := { s.crn with cores := Vector.replicate 4 (Twig.start .running), armed := true, remain := s.crn.periodMs, subMs := 0 } }
  s.modSys fun x => { x with bootStep := 2, fwCopy := k == 1, fwFallback := k != x.fwPref, fwPref := k, fwRan := false }

/-- Step 2: the key, the chain and the firmware. DESIGN CHOICE: log entry 74. -/
def State.bootRom (s : State) : State :=
  let s := s.deriveKey true
  match s.fwChoice with
  | some k => s.startCrown k
  | none => s.endBoot.quarantine 1

/-- A stack trains, in full with lane repair when it was off, or quickly (R279, R280). Which lanes need repair, and the time within its limit, are
free; a channel that is repaired uses at least one lane. A quick training keeps the repairs (R280, R292). DESIGN CHOICE: log entry 78. -/
def State.trainStack (s : State) (full : Bool) (k : StackId) : State :=
  let a := s.draw
  let b := a.2.draw
  let ch := fieldAt a.1 0 16
  let used := ((List.range 16).filter fun i => ch.testBit i).length
  b.2.modStack k fun x =>
    { x with state := 2, maker := Config.maker k.val, trainUs := BitVec.ofNat 16 (b.1.toNat % (if full then 2001 else 41)), trainKind := if full then 1 else 2,
             repChannels := if full then BitVec.ofNat 16 ch else x.repChannels,
             repLanes := if full then BitVec.ofNat 8 (if ch = 0 then 0 else used + fieldAt a.1 16 5) else x.repLanes }

def State.trainStacks (s : State) : State :=
  (List.finRange 8).foldl (fun (s : State) k => s.trainStack (s.hbm[k].state == 0) k) s

/-- The poison-row slots that the fuses of a bough hold, as (bank, row). -/
def fuseRows (b : Nat) : List (Nat × Nat) :=
  (List.range 32).filterMap fun k => (Config.fusePoisonRow b k).map fun r => (k, r.toNat)

/-- SCR_REPAIR0, SCR_REPAIR1 and SCR_BANK_STATE are loaded from the fuses and from what the self-test of the latest power-on found (R325, R336).
DESIGN CHOICE: log entry 6. -/
def State.loadSpares (s : State) : State :=
  let n := s.ring.rings[(3 : Fin 32)].toNat
  { s with scr := s.scr.mapFinIdx fun b x _ =>
      { x with
        spares := Vector.ofFn fun k : Fin 32 => Config.bootSpares n b k.val
        failed := Config.fuseFailed b
        poisonRow := (fuseRows b).foldl (fun m r => withBit m r.1) 0
        poisonRows := fuseRows b } }

/-- Step 3: spare rows, training, zeroed scratchpads. -/
def State.selfTest (s : State) : State := (s.loadSpares.trainStacks.zeroAllScratch).modSys fun x => { x with bootStep := 3 }

/-- A stack fails to train; which one is free (R279). DESIGN CHOICE: log entry 78. -/
def State.stackFails (s : State) : State :=
  let d := s.trainStacks.draw
  let k : StackId := ⟨d.1.toNat % 8, by omega⟩
  d.2.modStack k fun x => { x with state := 4, trainFail := true, repExhausted := true }

/-! ### Step 4: the ledger (R436, R439, R523, R531) -/

/-- The tick that an item of the journal bears: END of a record or a seal, TICK of a sync or note (R436). -/
def Item.lastTick (i : Item) : Nat := ((i.covered[if i.typ == tyMinute || i.typ == tySeal then 3 else 2]?).getD 0).toNat

/-- The flush, when it is newer than the header (R439). DEDUCED: log entry 75. -/
def Ring.freshFlush (r : Ring) : Option FlushArea := match r.flush with
  | some f => if r.savedTick.toNat < f.tick.toNat then some f else none
  | none => none

/-- The tick after power was off: one more than the latest that MRAM records (R436). DEDUCED: log entry 75. -/
def Ring.bootTick (r : Ring) : Word :=
  let f := (r.flush.map (·.tick.toNat)).getD 0
  BitVec.ofNat 64 ((r.journal.foldl (fun m x => max m x.item.lastTick) (max r.savedTick.toNat f)) + 1)

/-- Marks a minute record TIME_UNCERTAIN. -/
def Item.uncertain (i : Item) : Item := if i.typ == tyMinute then { i with covered := setWords i.covered 0 [i.covered.headD 0 ||| 0x100] } else i

/-- A plot's open copy from the flush area closes at F with POWER_LOSS; the image's serial is the one that MRAM holds (R409). DEDUCED: log entry 76. -/
def State.closeFlushed (s : State) (f : FlushArea) (r : FlushRec) : State :=
  s.emitItem tyMinute (setWords (s.recordWords r.plot r.cnt f.tick 0x500 f.offset) 15 [s.grn.floor]) (some r.plot)

/-- What the flush area gives back: closing copies, unless ledger RAM still holds them, and open copies. -/
def State.restoreFlush (s : State) (f : FlushArea) (ramKept : Bool) : State :=
  let s := if ramKept then s else f.closing.foldl (fun s i => s.emitItem tyMinute i.uncertain.covered i.plot) s
  f.recs.foldl (fun s r => s.closeFlushed f r) s

/-- Every item of ledger RAM that is not signed asks for its signature again. -/
def State.askSigs (s : State) : State := s.ring.unsigned.foldl (fun s _ => s.requestSig .ledger) s

/-- A repair that the ledger recorded takes its spare again, or the lowest free one; with none left the row is given up (R325, R326, R336).
DESIGN CHOICE: log entry 171. -/
def State.replayRepair (s : State) (d : Word) : State :=
  let b := boughId (fieldAt d 0 8)
  let bank : Fin 32 := ⟨fieldAt d 8 5, by unfold fieldAt; omega⟩
  let row := fieldAt d 13 8
  let j : Fin 8 := ⟨fieldAt d 21 3, by unfold fieldAt; omega⟩
  let m := s.scr[b].spares[bank]
  match if m.getLsbD j.val then lowestSpare m else some j with
  | some j => s.modScr b fun x => x.takeSpare bank row j
  | none => (s.giveRowUp b bank.val row).applyDead b

/-- Repairs that the ledger recorded are made again (R325). -/
def State.replayRepairs (s : State) : State := s.ring.repairLog.foldl State.replayRepair s

/-- Notes and ring counts that waited for the restore: QUARANTINE causes, lanes that training repaired (R279, R525). DEDUCED: log entry 117. -/
def State.lateNotes (s : State) : State :=
  let s := (s.sys.qnotes.foldl (fun s c => s.note 7 (c.zeroExtend 64) 0) s).modSys fun x => { x with qnotes := [] }
  (List.finRange 8).foldl (fun (s : State) k =>
    let x := s.hbm[k]
    ((List.range 16).foldl (fun s c => if x.repChannels.getLsbD c then s.note 8 (BitVec.ofNat 64 k.val) (BitVec.ofNat 64 c) else s) s).ringAdd 19 x.repLanes.toNat) s

/-- The restore from MRAM after power-on or a REFCLK loss (R436, R439, R523). -/
def State.restoreCold (s : State) (off : Bool) : State :=
  let f := s.ring.freshFlush
  let d := s.drawBool
  let e := d.2.draw
  let s := if off then d.2 else e.2
  let s := s.modRing fun r =>
    { r with tick := if off then r.bootTick else r.tick,
             offset := if off then (f.map (·.offset)).getD r.savedOffset else r.offset,
             unsigned := r.unsigned.map Item.uncertain, restored := f.isSome, torn := off && d.1 }
  let s := s.openGap (if off then BitVec.allOnes 64 else e.1)
  let s := match f with
    | some f => s.restoreFlush f (!off)
    | none => s
  s.note 6 (BitVec.ofNat 64 (b2n f.isSome)) (if off then BitVec.ofNat 64 ((f.map (·.lostItems)).getD 0) else 0)

/-- Step 4: the ledger is restored, from MRAM or from ledger RAM (R531); the header is then newer than the flush. DEDUCED: log entries 73, 76. DESIGN CHOICE: log entry 77. -/
def State.restoreLedger (s : State) : State :=
  let s := (s.modSys fun x => { x with bootStep := 4 }).askSigs
  let s := match s.sys.restoreDue with
    | some off => (s.modSys fun x => { x with restoreDue := none }).restoreCold off
    | none => s.modRing fun r => { r with restored := true }
  s.replayRepairs.lateNotes.saveHeader

/-- Step 5: host functions come up under the split in force, BOOT_ID is drawn (R460, R464, R479). -/
def State.bringUpHosts (s : State) : State :=
  let d := s.draw
  let s := d.2.modGrn fun g => { g with split := g.splitNext }
  { s with sys := { s.sys with bootStep := 5, bootId := d.1 }, ports := s.ports.mapFinIdx fun i (p : HostPort) _ => p.bringUp (decide (i < portsPresent s.grn.split)) }

/-- A Grain slot is empty: its first 8 bytes read as erased (R406). PRESUMED: log entry 34. -/
def State.slotEmpty (s : State) (k : Fin 2) : Bool := slotWord s.grn.slots[k] 0 == BitVec.allOnes 64

/-- BOOT ends in LOAD or SERVICE (R515). -/
def State.leaveBoot (s : State) : State :=
  let load := s.grn.owner.isSome && !s.sys.toService && !(s.slotEmpty 0 && s.slotEmpty 1)
  let s := s.endBoot.modSys fun x => { x with toService := false }
  if load then s.bootLoad else s.setMode .service

/-- The step after the last one passes. DEDUCED: log entry 141. -/
def State.passStep (s : State) : State :=
  match s.sys.bootStep with
  | 0 => s.coreUp
  | 1 => s.bootRom
  | 2 => s.selfTest
  | 3 => s.restoreLedger
  | _ => s.bringUpHosts.leaveBoot

/-- What a failed step leaves before QUARANTINE: with cause 2 the key is there and the chain is not, with cause 1 both; with cause 4
the other stacks have trained. DEDUCED: log entry 141. -/
def State.failStep (s : State) (cause : Nat) : State :=
  match cause with
  | 1 => s.deriveKey true
  | 2 => s.deriveKey false
  | 4 => s.stackFails
  | _ => s

/-- BOOT_STEP_PASS (R517, R525): the step under way ends after `us` µs, passed when the cause is 0. -/
def execBootStepPass (cause : BitVec 8) (us : Nat) (s : State) : Out :=
  if s.sys.mode = .boot then
    let n := s.sys.bootStep
    let t := s.modSys fun x => { x with bootStart := x.bootStart + BitVec.ofNat 64 us }
    if stepLimit n < us then .next (t.endBoot.quarantine 8)
    else if cause = 0 then .next t.passStep
    else if stepCause n cause.toNat then .next ((t.failStep cause.toNat).endBoot.quarantine cause.toNat)
    else .next s
  else .next s

/-- BOOT_STEP_TIMEOUT (R517, R525). DEDUCED: log entry 69. -/
def execBootStepTimeout (s : State) : Out := if s.sys.mode = .boot then .next (s.endBoot.quarantine 8) else .next s

/-! ### Drains (R515, R521) -/

/-- Every channel whose command of code `op` runs completes. -/
def State.finishOps (s : State) (op : Nat) (code : Nat) : State :=
  (List.finRange 5).foldl (fun (s : State) c =>
    if s.crn.chans[c].busy && s.crn.chans[c].op.toNat == op then s.finishChan c code 0 0 else s) s

/-- SERVICE is reached by ENTER_SERVICE: no image is active, loads that ran end with ABORTED. DESIGN CHOICE: log entry 41. -/
def State.toServiceMode (s : State) : State :=
  ((s.finishOps 6 8).undefine.modSys fun x => { x with drainFor := none }).setMode .service |>.finishOps 3 0

/-- MODE_DRAIN_COMPLETE (R515): the drain of an activation, of ENTER_SERVICE or of a mailbox RESET is complete. -/
def execModeDrainComplete (s : State) : Out :=
  if s.sys.mode = .drain ∧ s.drained = true then
    match s.sys.drainFor with
    | some .activation => .next ((s.modSys fun x => { x with drainFor := none, bootStart := s.ring.tick }).setMode .load)
    | some .service => .next s.toServiceMode
    | some (.reset ch) => .next ((s.finishChan ch 0 0 0).deviceReset 3 ch.val true)
    | _ => .next s
  else .next s

/-! ### The crown cores and the watchdog (R527-R529) -/

/-- The count is reloaded (R528). -/
def State.kick (s : State) : State := { s with crn := { s.crn with remain := s.crn.periodMs, subMs := 0 } }

/-- KICK (R528). -/
def execKick (s : State) : Out := if s.awake then .next s.kick else .next s

/-- A crown core stopped by a double fault. DEDUCED: log entry 15. -/
def State.coreFaulted (s : State) (k : CoreId) : Bool := s.crn.cores[k].run == .halted && !s.crn.haltBits.getLsbD k.val

/-- What starts a watchdog reset (R529). -/
def State.wdogDue (s : State) : Bool :=
  s.sys.mode != .reset &&
    ((s.crn.armed && s.crn.remain == 0) || (List.finRange 4).any s.coreFaulted || (List.finRange 4).all fun k => s.crn.cores[k].run == .halted)

/-- WATCHDOG_EXPIRY (R529). -/
def execWatchdogExpiry (s : State) : Out := if s.wdogDue then .next ((s.deviceReset 2 0 true).ringAdd 23 1) else .next s

/-- A core that HALT stopped restarts once its port share is clean (R305, R527). DEDUCED: log entry 88. RESTART of a core that HALT has not
stopped is ignored, and the bit reads 0. DESIGN CHOICE: log entry 161. -/
def State.restartCore (s : State) (k : CoreId) : State :=
  if s.crn.haltBits.getLsbD k.val then
    let s : State := { s with cnp := { s.cnp with crownAbsorb := withBit s.cnp.crownAbsorb k.val },
                              crn := { s.crn with restartBits := withBit s.crn.restartBits k.val } }
    if s.masterClean (.crown k) then s.startCore k else s
  else s

/-- RESTART (R527). DEDUCED: log entry 88. -/
def execRestart (k : CoreId) (s : State) : Out := if s.awake then .next (s.restartCore k) else .next s

end Sys2Proof.Machine
end

