-- ==== Sys2Proof/Machine/Mailbox.lean ====
section
/-! DEFINITION. The crown mailbox (chapter 20, R530 to R535): the commands that the crown serves, their buffers and their status. -/

namespace Sys2Proof.Machine

/-- SYS_MODE.MODE (R536). -/
def Mode.num : Mode → Nat
  | .reset => 0 | .boot => 1 | .load => 2 | .run => 3 | .drain => 4 | .dormant => 5 | .service => 6 | .quarantine => 7

/-- SYS_MODE (R536). -/
def State.sysModeWord (s : State) : Word := packWord [(0, 3, s.sys.mode.num), (3, 1, b2n s.sys.toService), (8, 8, s.sys.qcause.toNat)]

/-! ### Serving a channel (R530, R532, R533) -/

/-- The crown serves channel `ch`: its command is `op`, is pending and has not begun; in RESET and DORMANT it waits. -/
def State.serves (s : State) (ch : Fin 5) (op : Nat) : Bool :=
  let c := s.crn.chans[ch]
  s.awake && c.go && !c.busy && c.op.toNat == op

/-- A command that modes do not accept completes with BAD_MODE; otherwise it runs. DESIGN CHOICE: log entry 87. -/
def State.mbox (s : State) (ch : Fin 5) (op : Nat) (accept : Mode → Bool) (f : Chan → State) : Out :=
  if s.serves ch op then (if accept s.sys.mode then .next (f s.crn.chans[ch]) else .next (s.finishChan ch 1 0 0)) else .next s

def anyMode : Mode → Bool := fun m => m != .reset
def onlyService : Mode → Bool := fun m => m == .service

/-- Results in the data words from DATA0 on; the command completes with OK. -/
def State.finishData (s : State) (ch : Fin 5) (ws : List Word) : State :=
  (s.modChan ch fun c => { c with data := c.data.mapFinIdx fun i w _ => (ws[i]?).getD w }).finishChan ch 0 0 ws.length

/-- A command that takes time has begun. DEDUCED: log entry 83. DESIGN CHOICE: log entry 87. -/
def State.begin (s : State) (ch : Fin 5) : State := s.modChan ch fun c => { c with busy := true }

/-! ### Buffers (R532) -/

/-- Length of a command's buffer or piece. DEDUCED: log entry 82. -/
def Chan.len (c : Chan) : Nat := c.args[3].toNat

/-- A buffer in root-memory regions that no plot owns, which only host channels name; or a piece of at most 256 bytes in the data
words. DEDUCED: log entry 83. -/
def State.bufferOk (s : State) (ch : Fin 5) (c : Chan) : Bool :=
  if c.bulk then
    let a := c.args[2].toNat
    decide (ch.val < 4) && decide (0 < c.len) && decide (a + c.len ≤ rootSize) &&
      (List.range 512).all fun r => !(decide (r * 0x10000000 < a + c.len) && decide (a < (r + 1) * 0x10000000)) || (s.regionPlot r).isNone
  else decide (c.len ≤ 256)

/-- The bytes of a buffer or piece. -/
def State.bufferBytes (s : State) (c : Chan) : List Byte :=
  if c.bulk then s.mem.readN c.args[2].toNat c.len else (wordsBytes c.data.toList).take c.len

/-- Where in the copy or slot a piece goes; a buffer is the whole. DEDUCED: log entry 82. -/
def Chan.offset (c : Chan) : Nat := if c.bulk then 0 else c.args[2].toNat

/-- Flash contents after a write: a write at offset 0 erases first (R533), and what is not written reads as erased, all ones. DESIGN CHOICE: log entry 81. -/
def flashPut (old : List Word) (off : Nat) (bs : List Byte) : List Word :=
  let base := if off = 0 then [] else wordsBytes old
  let all := (base ++ List.replicate (off - base.length) 0xff).take off ++ bs ++ base.drop (off + bs.length)
  bytesWords (all ++ List.replicate ((8 - all.length % 8) % 8) 0xff)

/-- A flash write, which may fail: whether, on how many pages, and what the flash then holds, is free (R534). DESIGN CHOICE: log entry 81. -/
def State.flashWrite (s : State) (ws : List Word) : Option Nat × List Word × State :=
  let d := s.drawBool
  if d.1 then
    let p := d.2.draw
    (some (fieldAt p.1 0 8), (List.range ws.length).map (fun i => Config.freeWord (p.2.fresh + i)), { p.2 with fresh := p.2.fresh + ws.length })
  else (none, ws, d.2)

/-! ### Commands (R533) -/

/-- GET_INFO (R533). -/
def execGetInfo (ch : Fin 5) (s : State) : Out :=
  s.mbox ch 1 anyMode fun _ =>
    let k : Fin 2 := if s.sys.fwCopy then 1 else 0
    s.finishData ch [s.sysModeWord, Config.serial, packWord [(0, 1, k.val), (32, 32, s.sys.fw[k].serial.toNat)],
      (s.grn.active.map (·.serial)).getD 0, s.ring.seq]

/-- RESET (R515, R521, R533): from RUN through DRAIN, from any other mode at once. -/
def execReset (ch : Fin 5) (s : State) : Out :=
  s.mbox ch 2 anyMode fun c =>
    let s := (s.begin ch).modSys fun x => { x with toService := c.args[0].getLsbD 0 }
    if s.sys.mode == .run then s.beginDrain (.reset ch) else (s.finishChan ch 0 0 0).deviceReset 3 ch.val true

/-- ENTER_SERVICE (R515, R533). DEDUCED: log entry 86. -/
def execEnterService (ch : Fin 5) (s : State) : Out :=
  s.mbox ch 3 (fun m => m == .run || m == .load) fun _ =>
    let s := s.begin ch
    if s.sys.mode == .run then s.beginDrain .service else s.toServiceMode

/-- FW_WRITE (R518, R533): the copy that did not boot is written and judged. DEDUCED: log entry 80. -/
def State.fwWritten (s : State) (ch : Fin 5) (c : Chan) : State :=
  let k : Fin 2 := if s.sys.fwCopy then 0 else 1
  let r := s.flashWrite (flashPut s.sys.fw[k].words c.offset (s.bufferBytes c))
  let n := Config.fwSerial r.2.1
  let s := r.2.2.modSys fun x => { x with fw := vset x.fw k ⟨n, r.2.1⟩, fwPref := 1 - k }
  match r.1 with
  | some pages => s.finishChan ch 5 pages 0
  | none =>
    if !Config.fwVerifies r.2.1 then s.finishChan ch 4 0 0
    else if n.toNat < s.sys.fwFloor.toNat then s.finishChan ch 10 0 0
    else (s.modSys fun x => { x with fwPref := k }).finishChan ch 0 0 0

def execFwWrite (ch : Fin 5) (s : State) : Out :=
  s.mbox ch 4 onlyService fun c => if s.bufferOk ch c then s.fwWritten ch c else s.finishChan ch 2 0 0

/-- The slot holds the active image, or a load under way reads it (R406). DEDUCED: log entry 85. -/
def State.slotBusy (s : State) (k : Fin 2) : Bool :=
  (s.grn.active.isSome && s.grn.slot == k) || match s.grn.req with
    | some r => r.slot == k
    | none => false

/-- Grain slots are 4 MiB each (R406). -/
def slotSize : Nat := 0x400000

/-- The slot that ARG0 names. -/
def Chan.slot (c : Chan) : Fin 2 := if c.args[0].getLsbD 0 then 1 else 0

/-- SLOT_WRITE (R406, R533). -/
def State.slotWritten (s : State) (ch : Fin 5) (c : Chan) : State :=
  let r := s.flashWrite (flashPut s.grn.slots[c.slot] c.offset (s.bufferBytes c))
  let s := r.2.2.modGrn fun g => { g with slots := vset g.slots c.slot r.2.1 }
  match r.1 with
  | some pages => s.finishChan ch 5 pages 0
  | none => s.finishChan ch 0 0 0

/-- DEDUCED: log entry 85. -/
def execSlotWrite (ch : Fin 5) (s : State) : Out :=
  s.mbox ch 5 (fun m => m == .service || m == .run) fun c =>
    if !(s.bufferOk ch c && decide (c.offset + c.len ≤ slotSize)) then s.finishChan ch 2 0 0
    else if s.slotBusy c.slot then s.finishChan ch 7 0 0
    else s.slotWritten ch c

/-- ACTIVATE (R411, R414, R415, R515, R533): a whole-device activation, or a regrain of one plot. -/
def State.activated (s : State) (ch : Fin 5) (c : Chan) : State :=
  let a := c.args[0]
  let r : ActReq := { slot := c.slot, plot := if a.getLsbD 8 then some (plotId (fieldAt a 16 6)) else none, early := c.args[1], ch := some ch }
  let s := s.begin ch
  let s := if s.sys.mode == .service then (s.modSys fun x => { x with bootStart := s.ring.tick }).setMode .load else s
  s.requestLoad r

def execActivate (ch : Fin 5) (s : State) : Out :=
  s.mbox ch 6 (fun m => m == .run || (m == .service && !s.crn.chans[ch].args[0].getLsbD 8)) fun c => s.activated ch c

/-- Bytes 0 to 7 of a key's digest. -/
def keyDigest0 (key : List Byte) : Word := (Config.sha384 key).headD 0

/-- ENROLL_OWNER (R404). -/
def State.enrolled (s : State) (ch : Fin 5) (c : Chan) : State :=
  let key := s.bufferBytes c
  if s.grn.owner.isSome then s.finishChan ch 6 0 0
  else if !(s.bufferOk ch c && decide (c.len = 96)) then s.finishChan ch 2 0 0
  else if !Config.keyValid key then s.finishChan ch 4 0 0
  else ((s.modGrn fun g => { g with owner := some key }).note 3 (keyDigest0 key) 0).finishChan ch 0 0 0

def execEnrollOwner (ch : Fin 5) (s : State) : Out := s.mbox ch 7 onlyService fun c => s.enrolled ch c

/-- TRANSFER_OWNER (R405). -/
def State.transferred (s : State) (ch : Fin 5) (c : Chan) : State :=
  if !s.bufferOk ch c then s.finishChan ch 2 0 0
  else
    let rec? := s.bufferBytes c
    match s.grn.owner with
    | none => s.finishChan ch 4 0 0
    | some old =>
      if !Config.transferVerifies old rec? then s.finishChan ch 4 0 0
      else
        let new := Config.transferKey rec?
        ((s.modGrn fun g => { g with owner := some new, slots := Vector.replicate 2 [] }).note 4 (keyDigest0 new) (keyDigest0 old)).finishChan ch 0 0 0

def execTransferOwner (ch : Fin 5) (s : State) : Out := s.mbox ch 8 onlyService fun c => s.transferred ch c

/-- CAL_SYNC (R433, R533). -/
def execCalSync (ch : Fin 5) (s : State) : Out := s.mbox ch 9 anyMode fun c => (s.calSync c.args[0]).finishChan ch 0 0 0

/-- An item in its journal slot form (R438): its words, zeros up to word 62, and the commit word. -/
def Item.slotWords (i : Item) : List Word :=
  let ws := i.covered ++ i.sig
  let body := (ws ++ List.replicate (63 - ws.length) 0).take 63
  body ++ [packWord [(0, 32, crc32c 0 ((wordsBytes body).map (·.toNat))), (32, 16, 0x5a17), (48, 8, i.typ.toNat), (56, 8, ws.length)]]

/-- Committed items from a SEQ on, at most `n`. -/
def Ring.itemsFrom (r : Ring) (seq n : Nat) : List Item := ((r.journal.map (·.item)).filter fun i => decide (seq ≤ i.seq.toNat)).take n

/-- LEDGER_READ (R533): into a buffer as many whole items as it holds; through the data words, after the count in DATA0, the bytes of
the items from offset ARG2 on. DEDUCED: log entry 84. -/
def State.ledgerRead (s : State) (ch : Fin 5) (c : Chan) : State :=
  if !s.bufferOk ch c then s.finishChan ch 2 0 0
  else if c.bulk then
    let is := s.ring.itemsFrom c.args[0].toNat (min c.args[1].toNat (c.len / 512))
    (s.storeBytes (atAddr c.args[2].toNat (wordsBytes (is.flatMap Item.slotWords)))).finishData ch [BitVec.ofNat 64 is.length]
  else
    let is := s.ring.itemsFrom c.args[0].toNat c.args[1].toNat
    let bs := ((wordsBytes (is.flatMap Item.slotWords)).drop c.args[2].toNat).take 248
    s.finishData ch (BitVec.ofNat 64 is.length :: bytesWords bs)

/-- DEDUCED: log entry 84. -/
def execLedgerRead (ch : Fin 5) (s : State) : Out := s.mbox ch 10 anyMode fun c => s.ledgerRead ch c

/-- LEDGER_FREE (R427, R533): slots up to a SEQ, but for items that the ledger queue holds. -/
def execLedgerFree (ch : Fin 5) (s : State) : Out :=
  s.mbox ch 11 (fun m => m != .reset && m != .boot) fun c =>
    (s.modRing fun r => { r with journal := r.journal.filter fun x => x.posted || decide (c.args[0].toNat < x.item.seq.toNat) }).finishChan ch 0 0 0

/-- UNKNOWN_OP (R534): a reserved OP. -/
def execUnknownOp (ch : Fin 5) (s : State) : Out :=
  let op := s.crn.chans[ch].op.toNat
  if 1 ≤ op ∧ op ≤ 11 then .next s else s.mbox ch op anyMode fun _ => s.finishChan ch 9 0 0

end Sys2Proof.Machine
end

