-- ==== Sys2Proof/Machine/RegRead.lean ====
section
/-! DEFINITION. The register space (chapter 21): which register an offset names (R539, R540), and what every register reads (R49 to
R54, R191 to R199, R282 to R293, R312 to R315, R332 to R337, R358 to R360, R386 to R390, R417, R441, R457, R484 to R486, R514, R536,
R541). -/

namespace Sys2Proof.Machine

/-! ### The map (R539, R540) -/

/-- A register slot, by its block: `glob` covers the small global sub-blocks, by offset. -/
inductive Reg where
  | glob (o : Nat)
  | region (r : Nat)
  | mbox (c : Fin 5) (o : Nat)
  | grove (g : GroveId) (o : Nat)
  | stack (k : StackId) (o : Nat)
  | host (n : PortId) (o : Nat)
  | graft (n : PortId) (o : Nat)
  | plot (p : PlotId) (o : Nat)
  | msix (n : PortId) (o : Nat)
  deriving DecidableEq, Repr

/-- A block of the global sub-block table: first offset and slots. -/
def globalBlocks : List (Nat × Nat) := [(0x0, 64), (0x400, 128), (0x800, 96), (0xc00, 96), (0x1000, 128), (0x1400, 76)]

/-- An instance and an offset within it, of a block of `n` instances of a stride with a span. -/
def instOf (n stride span o : Nat) : Option (Fin n × Nat) :=
  if o % stride < span then (finOf? n (o / stride)).map fun i => (i, o % stride) else none

/-- The register at an 8-byte-aligned offset of the register space; none is a hole. -/
def State.regOf (s : State) (o : Nat) : Option Reg :=
  if globalBlocks.any fun b => decide (b.1 ≤ o) && decide (o < b.1 + 8 * b.2) then some (.glob o)
  else if 0x2000 ≤ o ∧ o < 0x3000 then some (.region ((o - 0x2000) / 8))
  else if 0x4000 ≤ o ∧ o < 0x4a00 then (instOf 5 0x200 0x200 (o - 0x4000)).map fun x => .mbox x.1 x.2
  else if 0x10000 ≤ o ∧ o < 0x20000 then (instOf 16 0x1000 0x200 (o - 0x10000)).map fun x => .grove x.1 x.2
  else if 0x20000 ≤ o ∧ o < 0x28000 then (instOf 8 0x1000 0x180 (o - 0x20000)).map fun x => .stack x.1 x.2
  else if 0x28000 ≤ o ∧ o < 0x2c000 then (instOf 4 0x1000 0x300 (o - 0x28000)).map fun x => .host x.1 x.2
  else if 0x2c000 ≤ o ∧ o < 0x30000 then (instOf 4 0x1000 0x280 (o - 0x2c000)).map fun x => .graft x.1 x.2
  else if 0x30000 ≤ o ∧ o < 0x70000 then (instOf 64 0x1000 0x140 (o - 0x30000)).map fun x => .plot x.1 x.2
  else if 0x1000000 ≤ o ∧ o < 0x1010000 then
    (instOf 4 0x4000 0x4000 (o - 0x1000000)).bind fun x =>
      let k := s.msixCount (.pf x.1)
      if decide (s.portPresent x.1) && (decide (x.2 < 16 * k) || (decide (0x2000 ≤ x.2) && decide (x.2 < 0x2000 + 8 * ((k + 63) / 64)))) then some (.msix x.1 x.2)
      else none
  else none

/-! ### Global registers -/

def GrnSt.num : GrnSt → Nat
  | .idle => 0 | .checking => 1 | .staged => 2 | .draining => 3 | .writing => 4 | .regraining => 5

/-- CNP_PORT_STATUS.HOST_CLEAN of a port: no part of it is in absorb state. DESIGN CHOICE: log entry 16. -/
def State.hostCleanBit (s : State) (n : PortId) : Bool :=
  !s.cnp.hostAbsorb.getLsbD n.val && !s.cnp.pfAbsorb.getLsbD n.val && (s.portVfs n).all fun v => !s.cnp.vfAbsorb.getLsbD v.val

/-- SYS, CLK and PWR registers (R514, R536). -/
def State.readPower (s : State) (o : Nat) : Word :=
  let p := s.pwr
  match o with
  | 0x400 => packWord [(0, 1, b2n p.locked), (1, 1, b2n p.refclkOk), (2, 1, b2n p.frozen), (32, 32, p.switches.toNat)]
  | 0x408 => packWord [(0, 2, p.req.val), (2, 2, p.level.val), (4, 2, s.maxLevel), (6, 1, b2n s.lvlBusy), (16, 12, p.voltMv.toNat)]
  | 0x410 => packWord [(0, 7, p.event.toNat), (16, 1, b2n p.thermLive), (17, 1, b2n p.powerLive), (18, 1, b2n p.hwLive)]
  | 0x418 => packWord [(0, 8, p.hotC.toNat), (8, 10, p.powerW.toNat)]
  | 0x420 => packWord [(0, 8, p.jmax.toNat), (8, 5, p.sensor.toNat), (16, 8, p.jpeak.toNat)]
  | 0x428 => packWord [(0, 20, p.lastMw.toNat), (20, 20, p.peakMw.toNat)]
  | 0x430 => p.uj
  | 0x438 => p.alarm
  | 0x440 => packWord [(0, 1, b2n p.dormEnter), (1, 1, b2n p.abandoned)]
  | 0x448 => packWord [(0, 4, p.wakeCause.toNat), (4, 1, b2n p.alarmPend), (5, 1, b2n p.late), (6, 3, p.lateStep.toNat), (16, 16, p.totalUs.toNat)]
  | 0x450 => packWord [(0, 16, p.stepUs[0].toNat), (16, 16, p.stepUs[1].toNat), (32, 16, p.stepUs[2].toNat), (48, 16, p.stepUs[3].toNat)]
  | 0x458 => packWord [(0, 18, p.retLost.toNat)]
  | _ => 0

def State.readSys (s : State) (o : Nat) : Word :=
  match o with
  | 0x0 => s.sysModeWord
  | 0x8 => packWord [(0, 3, s.sys.kind.toNat), (3, 3, s.sys.channel.toNat), (16, 16, s.sys.count.toNat)]
  | 0x10 => packWord [(0, 3, s.sys.bootStep), (3, 1, b2n s.sys.fwCopy), (4, 1, b2n s.sys.fwFallback), (16, 16, s.sys.bootUs.toNat), (32, 16, s.sys.loadUs.toNat)]
  | _ => 0

/-- ROOT_CFG and CNP registers (R282, R312 to R315). -/
def State.readCanopy (s : State) (o : Nat) : Word :=
  let c := s.cnp
  match o with
  | 0x800 => packWord [(0, 1, b2n s.rootLinear), (1, 1, b2n s.refresh2x), (8, 8, s.scrubHours.toNat)]
  | 0x808 => packWord ((List.finRange 4).map (fun n => (n.val, 1, b2n (s.hostCleanBit n))) ++ (List.finRange 4).map (fun (n : PortId) => (4 + n.val, 1, b2n (!c.graftAbsorb.getLsbD n.val))) ++
      [(8, 1, b2n (c.crownAbsorb == 0)), (9, 1, 1)])
  | 0x810 => packWord [(0, 1, b2n c.isoSeen), (1, 1, b2n c.isoValid), (16, 32, c.isoCount.toNat)]
  | 0x818 => c.isoLog
  | 0x820 => c.isoAddr.zeroExtend 64
  | 0x828 => c.ownMiss.zeroExtend 64
  | 0x830 => c.holdMax.zeroExtend 64
  | _ => 0

/-- Four bits of each of 16 banks from `k` on. -/
def Scratch.sparesWord (x : Scratch) (k : Nat) : Word := packWord ((List.range 16).map fun i => (4 * i, 4, ((x.spares.toList[k + i]?).map spareCount).getD 0))

/-- SCR registers (R332 to R337). -/
def State.readScr (s : State) (o : Nat) : Word :=
  let x := s.scr[s.scrSel.toNat]'s.scrSel.isLt
  match o with
  | 0xc00 => packWord [(0, 1, b2n s.sweepEn), (1, 1, b2n s.repairEn), (16, 14, s.paceUs.toNat)]
  | 0xc08 => s.scrSel.zeroExtend 64
  | 0xc30 => x.status.zeroExtend 64
  | 0xc38 => packWord [(0, 32, x.ce.toNat), (32, 32, x.ue.toNat)]
  | 0xc40 => x.log
  | 0xc48 => x.sparesWord 0
  | 0xc50 => x.sparesWord 16
  | 0xc58 => packWord [(0, 32, x.poisonRow.toNat), (32, 32, x.failed.toNat)]
  | 0xc60 => packWord [(0, 32, x.lost.toNat), (32, 16, x.checks.toNat)]
  | 0xc68 => packWord [(0, 11, x.sweepPos.toNat), (11, 1, b2n x.sweepOpen), (32, 32, x.passes.toNat)]
  | _ =>
    if 0xc10 ≤ o ∧ o < 0xc30 then
      packWord ((List.range 64).map fun i => (i, 1, b2n (((s.scr.toList[(o - 0xc10) * 8 + i]?).map fun y => y.status != 0).getD false)))
    else 0

/-- The ledger has read MRAM since the last reset (BOOT step 4, R439): until then RING_SEQ, RING_BACKLOG.USED and the live bits of
RING_STATUS show their Reset values (R9, R522). DEDUCED: log entry 169. -/
def State.ledgerShown (s : State) : Bool := s.sys.mode != .reset && decide (4 ≤ s.sys.bootStep)

/-- GRN and RING registers (R417, R441). -/
def State.readRing (s : State) (o : Nat) : Word :=
  let g := s.grn
  let r := s.ring
  let up := s.ledgerShown
  match o with
  | 0x1000 => packWord [(0, 3, g.st.num), (3, 1, b2n g.active.isSome), (4, 1, g.slot.val), (5, 1, b2n g.rejected), (6, 1, b2n g.splitPending),
      (8, 8, g.reason.toNat), (16, 6, g.plot.val), (32, 32, g.offset.toNat)]
  | 0x1008 => g.epoch
  | 0x1010 => (g.active.map (·.serial)).getD 0
  | 0x1018 => g.floor
  | 0x1020 => r.tick
  | 0x1028 => r.tick + r.offset
  | 0x1030 => r.offset
  | 0x1040 => packWord [(0, 1, b2n (up && r.gapOpen)), (1, 1, b2n (up && decide (r.backlogSlots.toNat ≤ r.journal.length))), (2, 1, b2n r.backlogHit),
      (3, 1, b2n (up && r.merging)), (4, 1, b2n r.torn), (5, 1, b2n r.restored), (6, 1, b2n (up && s.ledgerQueue.isNone))]
  | 0x1048 => r.backlogSlots.zeroExtend 64
  | 0x1050 => if up then r.seq else 0
  | 0x1058 => packWord [(0, 13, if up then r.journal.length else 0), (16, 13, r.peak.toNat), (32, 16, r.lost.toNat)]
  | 0x1060 => packWord [(0, 10, (s.ledgerQueue.map (·.val)).getD 0), (10, 1, b2n s.ledgerQueue.isSome)]
  | 0x1068 => r.gap
  | 0x1070 => r.lifeSel.zeroExtend 64
  | 0x1078 => r.rings[r.lifeSel.toNat]'r.lifeSel.isLt
  | _ => 0

/-- What HWD_MEAS shows: a word of the selected measurement; the spec states none for a selection outside R449. Before BOOT
step 2 has measured anything it shows its Reset value (R9). DEDUCED: log entries 91, 169. -/
def State.readMeas (s : State) : Word :=
  let i := s.hwd.measIndex.toNat
  let w := s.hwd.measWord.toNat
  if s.sys.mode = .reset ∨ s.sys.bootStep < 2 then 0
  else if 1 ≤ i ∧ i ≤ 4 ∧ w ≤ 5 then ((s.measurement i)[w]?).getD 0 else Config.freeMeas i w

/-- HWD and CRN registers (R457, R536). DEDUCED: log entry 90. -/
def State.readHeart (s : State) (o : Nat) : Word :=
  let h := s.hwd
  let c := s.crn
  match o with
  | 0x1400 => Config.serial
  | 0x1408 => packWord ([(0, 1, b2n h.keyOk), (1, 1, b2n h.chainOk), (2, 1, b2n h.locked), (8, 4, (h.sessions.filter (·.established)).length)] ++
      (List.finRange 4).map (fun n => (12 + n.val, 1, b2n h.ide[n].secure)) ++ [(16, 4, h.graftAuth.toNat), (20, 1, b2n h.authFail)])
  | 0x1410 => packWord [(0, 3, h.measIndex.toNat), (3, 3, h.measWord.toNat)]
  | 0x1418 => s.readMeas
  | 0x1420 => h.authLog
  | 0x1428 => packWord [(0, 16, c.period.toNat), (17, 1, b2n c.armed), (32, 16, c.remain.toNat)]
  | 0x1430 => packWord ((List.finRange 4).map (fun k => (k.val, 1, b2n (c.cores[k].run == .running))) ++ [(4, 4, c.haltBits.toNat), (8, 4, c.restartBits.toNat)])
  | _ => 0

def State.readGlobal (s : State) (o : Nat) : Word :=
  if o < 0x400 then s.readSys o else if o < 0x800 then s.readPower o else if o < 0xc00 then s.readCanopy o
  else if o < 0x1000 then s.readScr o else if o < 0x1400 then s.readRing o else s.readHeart o

/-- CNP_REGIONr (R541). -/
def State.readRegion (s : State) (r : Nat) : Word :=
  let own := s.regionPlot r
  packWord [(0, 6, (own.map (·.plot)).getD 0), (6, 1, b2n own.isSome), (7, 1, b2n (s.grn.zeroing.getLsbD r))]

/-- A mailbox channel (R536). -/
def State.readChan (s : State) (ch : Fin 5) (o : Nat) : Word :=
  let c := s.crn.chans[ch]
  if o = 0 then packWord [(0, 8, c.op.toNat), (8, 1, b2n c.go), (9, 1, b2n c.bulk)]
  else if o = 8 then packWord [(0, 8, c.code.toNat), (8, 8, c.detail.toNat), (16, 6, c.words.toNat)]
  else if 0x10 ≤ o ∧ o < 0x30 then (c.args.toList[(o - 0x10) / 8]?).getD 0
  else if 0x100 ≤ o then (c.data.toList[(o - 0x100) / 8]?).getD 0
  else 0

/-! ### Grove blocks (R49 to R54, R191 to R199, R358 to R360) -/

/-- Bough k of grove g. -/
def boughIn (g : GroveId) (k : Nat) : BoughId := boughId (16 * g.val + k % 16)

/-- BGH_CTRL and BGH_STATUS (R53, R54). -/
def State.readBough (s : State) (b : BoughId) (status : Bool) : Word :=
  let y := s.bough b
  if status then
    packWord [(0, 4, min y.queued 8), (4, 1, b2n y.streaming), (5, 1, b2n (y.halves.toList.any fun h => h.st == .draining)), (6, 1, b2n (y.twig.run == .halted)),
      (7, 1, b2n (y.freeze && !y.streaming)), (8, 1, b2n (s.boughClean b)), (16, 8, ((s.boughPlot b.val).map (·.plot)).getD 0xff)]
  else packWord [(0, 1, b2n y.resetting), (1, 1, b2n y.freeze)]

/-- Layout records of a grove's queues. -/
def State.groveQueues (s : State) (g : GroveId) : List (Word × Word) :=
  ((s.grn.active.map (·.queues)).getD []).filter fun r => fieldAt r.1 0 10 / 64 == g.val

/-- The queue that SAPQ_SEL shows (R358). -/
def State.selQueue (s : State) (g : GroveId) : QueueId := ⟨64 * g.val + s.groves[g].qsel.toNat, by have := s.groves[g].qsel.isLt; omega⟩

/-- Queue-store registers (R359, R360). -/
def State.readSapq (s : State) (g : GroveId) (o : Nat) : Word :=
  let y := s.groves[g]
  let q := s.selQueue g
  let x := s.queues[q]
  match o with
  | 0x80 => packWord [(0, 7, (s.groveQueues g).length), (8, 11, ((s.groveQueues g).map fun r => recSize r / 64).sum)]
  | 0x88 => y.qsel.zeroExtend 64
  | 0x90 => ((s.queueRec q.val).map (·.1)).getD 0
  | 0x98 => ((s.queueRec q.val).map (·.2)).getD 0
  | 0xa0 => packWord [(0, 17, x.credits), (17, 1, b2n x.prod.isSome), (18, 1, b2n x.cons.isSome), (19, 1, b2n x.flushing), (32, 17, x.pending.length)]
  | 0xa8 => packWord [(0, 1, b2n x.flushing)]
  | 0xb0 => packWord [(0, 1, b2n y.perrSeen), (1, 1, b2n y.perrValid), (16, 32, y.perrCount.toNat)]
  | _ => y.plog.zeroExtend 64

/-- Links with a chain buffer in grove g. -/
def State.groveLinks (s : State) (g : GroveId) : List Link := s.links.filter fun l => l.buf.isSome && l.bufGrove == g

/-- The link that holds buffer n of grove g. -/
def State.bufLink (s : State) (g : GroveId) (n : Nat) : Option Link := (s.groveLinks g).find? fun l => l.buf == some n

/-- The oldest epoch is whole and waits for COMMIT (R197). -/
def Link.waitsToken (l : Link) : Bool := match l.eps.find? fun e => e.ep == l.expect with
  | some e => !e.committed && match e.endLen with
    | some n => decide (epochWords n ≤ e.base + e.words.length + e.cut)
    | none => false
  | none => false

/-- GRV_CHAIN_LINK and the registers after it, of one link (R196 to R199). -/
def Link.read (l : Link) (o : Nat) : Word :=
  match o with
  | 0xe0 => packWord [(0, 32, l.tag.toNat), (32, 8, if l.fromGraft then 0xff else l.srcBough), (40, 4, l.srcEp), (44, 1, b2n l.fromGraft),
      (45, 2, l.inPort.val), (48, 8, l.dstBough), (56, 4, l.dstEp)]
  | 0xe8 => packWord [(0, 16, l.arriving.toNat), (16, 16, l.lastTaken.toNat), (32, 9, min l.heldWords 256), (41, 1, b2n l.waitsToken), (42, 1, b2n l.sink),
      (43, 1, b2n l.broken), (48, 4, l.code.toNat)]
  | 0xf0 => l.xfer.zeroExtend 64
  | _ => l.stall.zeroExtend 64

/-- Chain-buffer registers (R192 to R199). DESIGN CHOICE: log entry 2. DEDUCED: log entry 92. -/
def State.readChainRegs (s : State) (g : GroveId) (o : Nat) : Word :=
  match o with
  | 0xc0 => packWord ((s.groveLinks g).flatMap fun l => [((l.buf.getD 0), 1, 1), (32 + l.buf.getD 0, 1, b2n l.broken)])
  | 0xc8 => s.groves[g].brk.zeroExtend 64
  | 0xd0 => 0
  | 0xd8 => s.groves[g].chainSel.zeroExtend 64
  | _ => match s.bufLink g s.groves[g].chainSel.toNat with
    | some l => l.read o
    | none => 0

def State.readGrove (s : State) (g : GroveId) (o : Nat) : Word :=
  let y := s.groves[g]
  if 0x100 ≤ o then s.readBough (boughIn g ((o - 0x100) / 16)) (o % 16 == 8)
  else if 0xc0 ≤ o then s.readChainRegs g o
  else if 0x80 ≤ o then s.readSapq g o
  else if o = 0 then packWord [(0, 4, g.val), (4, 5, 16), (9, 1, b2n ((s.grn.active.map (·.hashEn.getLsbD g.val)).getD false))]
  else if o = 8 then packWord [(0, 16, y.ceCount.toNat), (16, 1, b2n y.psUe), (32, 16, y.ueLine.toNat)]
  else if o < 0x30 then ((y.uplink.toList[(o - 0x10) / 8]?).map fun c => c.zeroExtend 64).getD 0
  else 0

/-! ### Stack blocks (R283 to R293) -/

def State.readSlice (s : State) (k : SliceId) (o : Nat) : Word :=
  let x := s.slices[k]
  match o with
  | 0 => x.rd.zeroExtend 64
  | 8 => x.wr.zeroExtend 64
  | 16 => x.wait.zeroExtend 64
  | _ => packWord [(0, 9, min (s.queuedAt k) 256), (16, 6, min (x.staging.length + x.writing.length) 32), (32, 11, (s.filters.filter fun e => e.tgt == .slice k && e.installed).length)]

def State.readStack (s : State) (k : StackId) (o : Nat) : Word :=
  let x := s.hbm[k]
  match o with
  | 0x00 => packWord [(0, 3, k.val), (8, 8, 8 * k.val), (16, 8, 16), (24, 8, 16), (32, 16, x.maker.toNat)]
  | 0x08 => packWord [(0, 3, x.state.toNat), (3, 1, b2n (s.refreshFast k)), (4, 1, b2n x.hot), (5, 1, b2n x.hotSeen), (6, 1, b2n x.trainFail)]
  | 0x10 => packWord [(0, 8, x.temp.toNat), (8, 8, x.tempMax.toNat)]
  | 0x18 => x.ecc.zeroExtend 64
  | 0x20 => packWord [(0, 32, x.ueFresh.toNat), (32, 32, x.ueStored.toNat)]
  | 0x28 => x.log
  | 0x30 => packWord [(0, 1, b2n x.ceSeen), (1, 1, b2n x.ueSeen), (2, 1, b2n x.logValid)]
  | 0x38 => packWord [(0, 19, x.scrubW.toNat), (32, 16, x.scrubPasses.toNat)]
  | 0x40 => packWord [(0, 1, b2n x.injArm), (1, 2, x.injKind.toNat), (3, 34, x.injWord.toNat)]
  | 0x48 => packWord [(0, 8, x.postponedMax.toNat), (16, 48, x.refreshes.toNat)]
  | 0x50 => packWord [(0, 16, x.trainUs.toNat), (16, 2, x.trainKind.toNat)]
  | 0x58 => packWord [(0, 16, x.repChannels.toNat), (16, 8, x.repLanes.toNat), (24, 1, b2n x.repExhausted)]
  | _ => if 0x80 ≤ o then s.readSlice ⟨(8 * k.val + (o - 0x80) / 32) % 64, Nat.mod_lt _ (by decide)⟩ (o % 32) else 0

/-! ### Host, graft and plot blocks (R386 to R390, R484 to R486) -/

/-- HOST_VF_STATEv as port n shows it (R485). -/
def State.readVfState (s : State) (n : PortId) (v : VfId) : Word :=
  let m := s.vfPlot v.val
  let f := s.vfs[v]
  packWord [(0, 6, (m.map (·.plot)).getD 0), (6, 1, b2n m.isSome), (7, 1, b2n ((s.portVfs n).contains v)), (8, 1, b2n f.enabled), (9, 1, b2n f.flrBusy), (10, 1, b2n f.msixEn)]

def State.readHost (s : State) (n : PortId) (o : Nat) : Word :=
  let p := s.ports[n]
  let here := s.portPresent n
  let k := s.portVfs n
  match o with
  | 0x00 => packWord [(0, 2, n.val), (2, 2, s.grn.split), (4, 1, b2n here), (8, 7, (k.head?.map (·.val)).getD 0), (15, 7, k.length),
      (32, 10, if here then s.msixCount (.pf n) else 0)]
  | 0x08 => packWord [(0, 4, p.speed.toNat), (4, 5, p.width.toNat), (9, 1, b2n p.flit), (10, 1, b2n p.linkUp), (11, 1, b2n p.perst), (12, 1, b2n (s.cnp.hostAbsorb.getLsbD n.val)),
      (13, 1, b2n p.l1)]
  | 0x10 => p.event.zeroExtend 64
  | 0x18 => packWord [(0, 1, b2n p.winEn), (1, 6, p.sizeLog2.toNat), (30, 18, p.winBase.toNat)]
  | 0x20 => packWord [(0, 16, p.downs.toNat), (16, 16, p.retrains.toNat)]
  | 0x28 => p.rx.zeroExtend 64
  | 0x30 => p.tx.zeroExtend 64
  | _ => if 0x80 ≤ o ∧ o < 0x280 then ((finOf? 64 ((o - 0x80) / 8)).map fun v => s.readVfState n v).getD 0 else 0

def GraftSt.num : GraftSt → Nat
  | .off => 0 | .listen => 1 | .train => 2 | .hello => 3 | .auth => 4 | .admitting => 5 | .up => 6 | .refused => 7

/-- Links that enter on graft port n, whose relay shares lie there (R185). -/
def State.relayLinks (s : State) (n : PortId) : List Link := s.links.filter fun l => l.fromGraft && l.inPort == n

def GraftPort.readLane (p : GraftPort) (i : Fin 8) : Word :=
  packWord [(0, 1, b2n (p.locked.getLsbD i.val)), (1, 1, b2n (p.inverted.getLsbD i.val)), (2, 3, p.rxLane[i].toNat), (8, 32, p.symErr[i].toNat)]

def State.readGraft (s : State) (n : PortId) (o : Nat) : Word :=
  let p := s.grafts[n]
  match o with
  | 0x00 => packWord [(0, 2, n.val), (2, 1, b2n ((s.grn.active.map (·.graftEn.getLsbD n.val)).getD false)), (4, 2, s.rank)]
  | 0x08 => packWord [(0, 3, p.st.num), (3, 1, b2n (s.cnp.graftAbsorb.getLsbD n.val)), (4, 2, p.peerPort.toNat), (6, 2, p.peerRank.toNat), (8, 8, p.locked.toNat)]
  | 0x10 => p.event.zeroExtend 64
  | 0x18 => packWord [(0, 1, b2n p.hold)]
  | 0x20 => p.peerSerial
  | 0x28 => p.peerBoot
  | 0x30 => packWord [(0, 32, p.fecCorr.toNat), (32, 32, p.fecUncorr.toNat)]
  | 0x38 => p.replays.zeroExtend 64
  | 0x40 => packWord [(0, 16, p.admitted.toNat), (16, 16, p.refused.toNat), (32, 32, p.lastTag.toNat)]
  | 0x48 => p.txFlits.zeroExtend 64
  | 0x50 => p.rxFlits.zeroExtend 64
  | 0x58 => packWord [(0, 7, ((s.relayLinks n).map fun l => l.shareWords / 1024).sum), (16, 17, ((s.relayLinks n).map Link.relayWords).sum)]
  | _ => if 0x80 ≤ o ∧ o < 0xc0 then ((finOf? 8 ((o - 0x80) / 8)).map p.readLane).getD 0 else 0

def PlotSt.num : PlotSt → Nat
  | .undefined => 0 | .running => 1 | .parking => 2 | .parked => 3 | .resetting => 4 | .regraining => 5

/-- Boughs of a plot that are halted (R378). -/
def State.haltedBoughs (s : State) (m : PlotMap) : List BoughId := m.boughList.filter fun b => (s.bough b).twig.run == .halted

/-- 64 bits of a set of numbers, from 64j on. -/
def bitsFrom (p : Nat → Bool) (j : Nat) : Word := packWord ((List.range 64).map fun i => (i, 1, b2n (p (64 * j + i))))

/-- PLOT_INFO (R387). -/
def State.readPlotInfo (s : State) (p : PlotId) : Word :=
  match s.plotMap p.val with
  | none => packWord [(0, 6, p.val)]
  | some m => packWord [(0, 6, p.val), (6, 1, 1), (8, 9, m.boughList.length), (17, 10, m.regionList.length),
      (27, 11, (((s.grn.active.map (·.queues)).getD []).filter fun r => recPlot r == p.val).length), (38, 6, m.vf.getD 0), (44, 1, b2n m.vf.isSome)]

def State.readPlotReg (s : State) (p : PlotId) (o : Nat) : Word :=
  let x := s.plots[p]
  let m := s.plotMap p.val
  let halted := (m.map s.haltedBoughs).getD []
  match o with
  | 0x00 => s.readPlotInfo p
  | 0x08 => packWord [(0, 3, x.st.num), (3, 1, b2n ((m.map s.plotIdle).getD false)), (4, 1, b2n x.graceOn), (16, 9, halted.length)]
  | 0x10 => packWord [(0, 1, b2n (x.resetBusy || x.resetWaits)), (1, 1, b2n x.park), (2, 1, b2n x.preempt), (16, 16, x.grace.toNat)]
  | 0x18 => packWord [(0, 8, x.events.toNat), (8, 1, b2n (decide (x.duty < 64)))]
  | 0x20 => packWord [(0, 10, (m.bind (·.evq)).getD 0), (10, 1, b2n (m.bind (·.evq)).isSome), (16, 32, x.evLost.toNat)]
  | 0x28 => packWord [(0, 20, s.imageCap p.val), (20, 20, x.limitMw.toNat)]
  | 0x30 => packWord [(0, 20, x.lastMw.toNat), (20, 20, x.peakMw.toNat)]
  | 0x38 => packWord [(0, 7, x.duty), (16, 32, x.throttledMs.toNat)]
  | 0xc0 => 0
  | _ =>
    if 0x40 ≤ o ∧ o < 0x60 then bitsFrom (fun i => (m.map (·.boughs.getLsbD i)).getD false) ((o - 0x40) / 8)
    else if 0x60 ≤ o ∧ o < 0xa0 then bitsFrom (fun i => (m.map (·.regions.getLsbD i)).getD false) ((o - 0x60) / 8)
    else if 0xa0 ≤ o ∧ o < 0xc0 then bitsFrom (fun i => halted.any (·.val == i)) ((o - 0xa0) / 8)
    else 0

/-! ### One read (R10, R546) -/

/-- A word of a function's MSI-X table or PBA (R463, R545). -/
def State.msixWord (s : State) (fn : HostFn) (o pba : Nat) : Word :=
  if o < pba then packWord [(0, 32, ((s.func fn).msixDword (o / 4)).toNat), (32, 32, ((s.func fn).msixDword (o / 4 + 1)).toNat)]
  else s.pbaWord fn ((o - pba) / 8)

/-- What a register reads. -/
def State.readOf (s : State) : Reg → Word
  | .glob o => s.readGlobal o
  | .region r => s.readRegion r
  | .mbox c o => s.readChan c o
  | .grove g o => s.readGrove g o
  | .stack k o => s.readStack k o
  | .host n o => s.readHost n o
  | .graft n o => s.readGraft n o
  | .plot p o => s.readPlotReg p o
  | .msix n o => s.msixWord (.pf n) o 0x2000

/-- The register at an offset; none at a hole. -/
def State.readReg (s : State) (o : Nat) : Option Word := (s.regOf o).map s.readOf

end Sys2Proof.Machine
end

