-- ==== Sys2Proof/Machine/RegWrite.lean ====
section
/-! DEFINITION. Register writes (chapter 21): the access codes (R10, R11, R546), what each register does when it is written, and the
views of the register space that a crown core, a physical function and a virtual function have (R538, R543, R545). -/

namespace Sys2Proof.Machine

/-- A register write: the word, the bits that the access covers, and the word that fields of code RW store. -/
structure RegWr where
  v : Word
  mask : Word
  new : Word
  crown : Bool
  deriving DecidableEq, Repr

/-- Bits that act when written 1. -/
def RegWr.ones (w : RegWr) : Word := w.v &&& w.mask
def RegWr.one (w : RegWr) (i : Nat) : Bool := w.ones.getLsbD i
/-- A field of code RW. -/
def RegWr.rw (w : RegWr) (lo n : Nat) : Nat := fieldAt w.new lo n
/-- The access covers bit i. -/
def RegWr.covers (w : RegWr) (i : Nat) : Bool := w.mask.getLsbD i
/-- A W1C flag after the write. -/
def RegWr.w1c (w : RegWr) (i : Nat) (old : Bool) : Bool := old && !w.one i
/-- A W1C field of n bits at bit lo after the write. -/
def RegWr.w1cBits {n : Nat} (w : RegWr) (lo : Nat) (old : BitVec n) : BitVec n := old &&& ~~~(BitVec.ofNat n (fieldAt w.ones lo n))

/-! ### Global registers -/

/-- Dormant entry starts (R377, R502): only when the power plan allows it, no load is staged or runs, no level change is in progress and
every defined plot is idle or parked. -/
def State.startDormant (s : State) : State :=
  let ok := s.sys.mode == .run && (s.grn.active.map (·.dormantEn)).getD false && s.grn.req.isNone && !s.lvlBusy && !s.pwr.dormEnter &&
    s.plotMaps.all fun m => s.plots[plotId m.plot].st == .parked || s.plotIdle m
  if ok then (s.modPwr fun p => { p with dormEnter := true, dormStep := 1, latched := none }).beginDrain .dormant else s

/-- CLK and PWR registers (R514): REQ, DORMANT and ALARM are the crown's; ALARM acts only on an 8-byte write (R546). -/
def State.writePower (s : State) (o : Nat) (w : RegWr) : State :=
  match o with
  | 0x408 => if w.crown && w.covers 0 then s.setReq (lvlOf (w.rw 0 2)) true else s
  | 0x410 => s.modPwr fun p => { p with event := w.w1cBits 0 p.event }
  | 0x418 => s.modPwr fun p => { p with hotC := BitVec.ofNat 8 (w.rw 0 8), powerW := BitVec.ofNat 10 (w.rw 8 10) }
  | 0x420 => s.modPwr fun p => { p with jpeak := BitVec.ofNat 8 (w.rw 16 8) }
  | 0x428 => s.modPwr fun p => { p with peakMw := BitVec.ofNat 20 (w.rw 20 20) }
  | 0x438 => if w.crown && w.covers 0 && w.covers 32 then s.setAlarm w.v else s
  | 0x440 =>
    if w.crown then
      let s := s.modPwr fun p => { p with abandoned := w.w1c 1 p.abandoned }
      if w.one 0 then s.startDormant else s
    else s
  | 0x458 => s.modPwr fun p => { p with retLost := w.w1cBits 0 p.retLost }
  | _ => s

/-- ROOT_CFG and CNP registers (R10, R282, R312 to R315). -/
def State.writeCanopy (s : State) (o : Nat) (w : RegWr) : State :=
  match o with
  | 0x800 =>
    { s with rootLinear := if s.grn.active.isSome then s.rootLinear else w.new.getLsbD 0, refresh2x := w.new.getLsbD 1, scrubHours := BitVec.ofNat 8 (w.rw 8 8) }
  | 0x810 => { s with cnp := { s.cnp with isoSeen := w.w1c 0 s.cnp.isoSeen, isoValid := w.w1c 1 s.cnp.isoValid, isoCount := BitVec.ofNat 32 (w.rw 16 32) } }
  | 0x830 => { s with cnp := { s.cnp with holdMax := BitVec.ofNat 16 (w.rw 0 16) } }
  | _ => s

/-- SCR registers (R332 to R337). -/
def State.writeScr (s : State) (o : Nat) (w : RegWr) : State :=
  let b : BoughId := ⟨s.scrSel.toNat, s.scrSel.isLt⟩
  match o with
  | 0xc00 => { s with sweepEn := w.new.getLsbD 0, repairEn := w.new.getLsbD 1, paceUs := BitVec.ofNat 14 (w.rw 16 14) }
  | 0xc08 => { s with scrSel := BitVec.ofNat 8 (w.rw 0 8) }
  | 0xc30 => s.modScr b fun x => { x with status := w.w1cBits 0 x.status }
  | 0xc38 => s.modScr b fun x => { x with ce := BitVec.ofNat 32 (w.rw 0 32), ue := BitVec.ofNat 32 (w.rw 32 32) }
  | 0xc60 => s.modScr b fun x => { x with lost := w.w1cBits 0 x.lost }
  | _ => s

/-- GRN and RING registers (R417, R441): RING_CAL_SYNC acts only on an 8-byte write (R546). -/
def State.writeRing (s : State) (o : Nat) (w : RegWr) : State :=
  match o with
  | 0x1000 => s.modGrn fun g => { g with rejected := w.w1c 5 g.rejected, splitPending := w.w1c 6 g.splitPending }
  | 0x1038 => if w.covers 0 && w.covers 32 then s.calSync w.v else s
  | 0x1040 => s.modRing fun r => { r with backlogHit := w.w1c 2 r.backlogHit, torn := w.w1c 4 r.torn }
  | 0x1048 => s.modRing fun r => { r with backlogSlots := BitVec.ofNat 13 (w.rw 0 13) }
  | 0x1058 => s.modRing fun r => { r with peak := BitVec.ofNat 13 (w.rw 16 13), lost := BitVec.ofNat 16 (w.rw 32 16) }
  | 0x1070 => s.modRing fun r => { r with lifeSel := BitVec.ofNat 5 (w.rw 0 5) }
  | _ => s

/-- HWD and CRN registers (R457, R528, R536): CRN_WDOG and CRN_CORE are the crown's. -/
def State.writeHeart (s : State) (o : Nat) (w : RegWr) : State :=
  match o with
  | 0x1408 => s.modHwd fun h => { h with authFail := w.w1c 20 h.authFail }
  | 0x1410 => s.modHwd fun h => { h with measIndex := BitVec.ofNat 3 (w.rw 0 3), measWord := BitVec.ofNat 3 (w.rw 3 3) }
  | 0x1428 =>
    if w.crown then
      let s : State := { s with crn := { s.crn with period := BitVec.ofNat 16 (w.rw 0 16) } }
      if w.one 16 then s.kick else s
    else s
  | 0x1430 => if w.crown then (List.finRange 4).foldl (fun s k => if w.one (8 + k.val) then s.restartCore k else s) s else s
  | _ => s

def State.writeGlobal (s : State) (o : Nat) (w : RegWr) : State :=
  if o < 0x400 then s else if o < 0x800 then s.writePower o w else if o < 0xc00 then s.writeCanopy o w
  else if o < 0x1000 then s.writeScr o w else if o < 0x1400 then s.writeRing o w else s.writeHeart o w

/-- A mailbox channel (R532, R536): GO issues the command; a write with GO while GO reads 1 is ignored. -/
def State.writeChan (s : State) (ch : Fin 5) (o : Nat) (w : RegWr) : State :=
  if o = 0 then
    s.modChan ch fun c =>
      if c.go && w.one 8 then c
      else { c with op := BitVec.ofNat 8 (w.rw 0 8), bulk := w.new.getLsbD 9, go := c.go || w.one 8, busy := c.busy && c.go }
  else if 0x10 ≤ o ∧ o < 0x30 then s.modChan ch fun c => { c with args := c.args.mapFinIdx fun i x _ => if i = (o - 0x10) / 8 then w.new else x }
  else if 0x100 ≤ o then s.modChan ch fun c => { c with data := c.data.mapFinIdx fun i x _ => if i = (o - 0x100) / 8 then w.new else x }
  else s

/-! ### Grove blocks -/

/-- A bough reset is requested, unless one is in progress (R41, R53). -/
def State.askBoughReset (s : State) (b : BoughId) : State := if (s.bough b).resetting then s else s.beginBoughReset b

/-- REARM bits of a grove (R194). -/
def State.rearmBits (s : State) (g : GroveId) (bits : BitVec 32) : State :=
  (List.range s.links.length).foldl (fun s i => match s.links[i]? with
    | some l => match l.buf with
      | some n => if l.bufGrove = g && bits.getLsbD n && l.broken && !s.breakPersists l then s.rearmLink i else s
      | none => s
    | none => s) s

/-- BGH_CTRL (R53): FREEZE is the crown's. -/
def State.writeBough (s : State) (b : BoughId) (w : RegWr) : State :=
  let s := if w.crown && w.covers 1 then s.modBough b fun y => { y with freeze := w.new.getLsbD 1 } else s
  if w.one 0 then s.askBoughReset b else s

def State.writeGrove (s : State) (g : GroveId) (o : Nat) (w : RegWr) : State :=
  if 0x100 ≤ o then (if o % 16 = 0 then s.writeBough (boughIn g ((o - 0x100) / 16)) w else s)
  else
    match o with
    | 0x08 => s.modGrove g fun y => { y with ceCount := BitVec.ofNat 16 (w.rw 0 16), psUe := w.w1c 16 y.psUe }
    | 0x88 => s.modGrove g fun y => { y with qsel := BitVec.ofNat 6 (w.rw 0 6) }
    | 0xa8 => if w.one 0 then s.requestFlush (s.selQueue g) else s
    | 0xb0 => s.modGrove g fun y => { y with perrSeen := w.w1c 0 y.perrSeen, perrValid := w.w1c 1 y.perrValid, perrCount := BitVec.ofNat 32 (w.rw 16 32) }
    | 0xc8 => s.modGrove g fun y => { y with brk := w.w1cBits 0 y.brk }
    | 0xd0 => s.rearmBits g (BitVec.ofNat 32 (fieldAt w.ones 0 32))
    | 0xd8 => s.modGrove g fun y => { y with chainSel := BitVec.ofNat 5 (w.rw 0 5) }
    | _ => s

/-! ### Stack, host, graft and plot blocks -/

def State.writeStack (s : State) (k : StackId) (o : Nat) (w : RegWr) : State :=
  match o with
  | 0x08 => s.modStack k fun x => { x with hotSeen := w.w1c 5 x.hotSeen, trainFail := w.w1c 6 x.trainFail }
  | 0x10 => s.modStack k fun x => { x with tempMax := BitVec.ofNat 8 (w.rw 8 8) }
  | 0x18 => s.modStack k fun x => { x with ecc := BitVec.ofNat 32 (w.rw 0 32) }
  | 0x20 => s.modStack k fun x => { x with ueFresh := BitVec.ofNat 32 (w.rw 0 32), ueStored := BitVec.ofNat 32 (w.rw 32 32) }
  | 0x30 => s.modStack k fun x => { x with ceSeen := w.w1c 0 x.ceSeen, ueSeen := w.w1c 1 x.ueSeen, logValid := w.w1c 2 x.logValid }
  | 0x40 => s.modStack k fun x => { x with injArm := x.injArm || w.one 0, injKind := BitVec.ofNat 2 (w.rw 1 2), injWord := BitVec.ofNat 34 (w.rw 3 34) }
  | 0x48 => s.modStack k fun x => { x with postponedMax := BitVec.ofNat 8 (w.rw 0 8) }
  | _ => s

def State.writeHost (s : State) (n : PortId) (o : Nat) (w : RegWr) : State :=
  match o with
  | 0x10 => s.modPort n fun p => { p with event := w.w1cBits 0 p.event }
  | 0x18 => s.modPort n fun p => { p with winEn := w.new.getLsbD 0, winBase := BitVec.ofNat 18 (w.rw 30 18) }
  | 0x20 => s.modPort n fun p => { p with downs := BitVec.ofNat 16 (w.rw 0 16), retrains := BitVec.ofNat 16 (w.rw 16 16) }
  | _ => s

def State.writeGraft (s : State) (n : PortId) (o : Nat) (w : RegWr) : State :=
  match o with
  | 0x10 => s.modGraft n fun p => { p with event := w.w1cBits 0 p.event }
  | 0x18 => if w.covers 0 then s.writeHold n (w.new.getLsbD 0) else s
  | 0x30 => s.modGraft n fun p => { p with fecCorr := BitVec.ofNat 32 (w.rw 0 32), fecUncorr := BitVec.ofNat 32 (w.rw 32 32) }
  | 0x38 => s.modGraft n fun p => { p with replays := BitVec.ofNat 32 (w.rw 0 32) }
  | _ =>
    if 0x80 ≤ o ∧ o < 0xc0 then
      s.modGraft n fun p => { p with symErr := p.symErr.mapFinIdx fun i x _ => if i = (o - 0x80) / 8 then BitVec.ofNat 32 (w.rw 8 32) else x }
    else s

/-- PLOT_CTRL (R388): the grace period is stored before PREEMPT acts. -/
def State.writePlotCtrl (s : State) (p : PlotId) (w : RegWr) : State :=
  let s := s.modPlot p fun x => { x with grace := BitVec.ofNat 16 (w.rw 16 16) }
  let s := if w.covers 1 && w.new.getLsbD 1 != s.plots[p].park then s.writePark p (w.new.getLsbD 1) else s
  let s := if w.one 2 then s.preempt p else s
  if w.one 0 then s.beginPlotReset p else s

def State.writePlot (s : State) (p : PlotId) (o : Nat) (w : RegWr) : State :=
  match o with
  | 0x10 => s.writePlotCtrl p w
  | 0x18 => s.modPlot p fun x => { x with events := w.w1cBits 0 x.events }
  | 0x20 => s.modPlot p fun x => { x with evLost := BitVec.ofNat 32 (w.rw 16 32) }
  | 0x28 => s.setLimit p (BitVec.ofNat 20 (w.rw 20 20))
  | 0x30 => s.modPlot p fun x => { x with peakMw := BitVec.ofNat 20 (w.rw 20 20) }
  | 0xc0 => if w.covers 0 then s.plotBoughReset p (boughId (fieldAt w.v 0 8)) else s
  | _ => s

/-! ### One write (R10, R546) -/

/-- A write of a function's MSI-X table, dword by dword; the PBA is read-only. -/
def State.writeMsix (s : State) (fn : HostFn) (o pba : Nat) (w : RegWr) : State :=
  if pba ≤ o then s
  else
    let s := if w.covers 0 then s.msixWrite fn (o / 4) (BitVec.ofNat 32 (fieldAt w.v 0 32)) else s
    if w.covers 32 then s.msixWrite fn (o / 4 + 1) (BitVec.ofNat 32 (fieldAt w.v 32 32)) else s

/-- A register is written. -/
def State.writeOf (s : State) (r : Reg) (crown : Bool) (v mask : Word) : State :=
  let w : RegWr := { v := v, mask := mask, new := blend (s.readOf r) v mask, crown := crown }
  match r with
  | .glob o => s.writeGlobal o w
  | .region _ => s
  | .mbox c o => s.writeChan c o w
  | .grove g o => s.writeGrove g o w
  | .stack k o => s.writeStack k o w
  | .host n o => s.writeHost n o w
  | .graft n o => s.writeGraft n o w
  | .plot p o => s.writePlot p o w
  | .msix n o => s.writeMsix (.pf n) o 0x2000 w

/-- The bits that an access of `len` bytes at offset `o` covers, and its value there; none when the size or the alignment is not
allowed (R546, R547). -/
def regAccess (o len : Nat) (v : Word) : Option (Word × Word) :=
  if len = 8 ∧ o % 8 = 0 then some (v, BitVec.allOnes 64)
  else if len = 4 ∧ o % 8 = 0 then some (v, maskAt 0 32)
  else if len = 4 ∧ o % 8 = 4 then some (v <<< 32, maskAt 32 32)
  else none

/-- A write at an offset of the register space; none when it fails. -/
def State.writeReg (s : State) (crown : Bool) (o len : Nat) (v : Word) : Option State :=
  match s.regOf (o / 8 * 8), regAccess o len v with
  | some r, some (v, mask) => some (s.writeOf r crown v mask)
  | _, _ => none

/-! ### Host views (R543, R545) -/

/-- What a function sees at an 8-byte-aligned offset of its BAR0, queue windows left out. -/
inductive BarReg where
  | reg (r : Reg)
  /-- A register of a VF's own plot window; `none` while the VF has no plot. -/
  | plotWin (p : Option PlotId) (o : Nat)
  /-- The VF's MSI-X table and PBA, by offset in its BAR0. -/
  | vfMsix (v : VfId) (o : Nat)
  deriving DecidableEq, Repr

def State.barReg (s : State) (fn : HostFn) (o : Nat) : Option BarReg :=
  match fn with
  | .pf n =>
    if 0x2000000 ≤ o then none
    else match s.regOf o with
      | some (.mbox c k) => if c.val = n.val then some (.reg (.mbox c k)) else none
      | some (.msix m k) => if m = n then some (.reg (.msix m k)) else none
      | some r => some (.reg r)
      | none => none
  | .vf v =>
    if o < 0x140 then some (.plotWin ((s.vfPlot v.val).map fun m => plotId m.plot) o)
    else if (0x2000 ≤ o ∧ o < 0x2180) ∨ o = 0x3000 then some (.vfMsix v o)
    else none

def State.readBar (s : State) : BarReg → Word
  | .reg r => s.readOf r
  | .plotWin (some p) o => s.readPlotReg p o
  | .plotWin none _ => 0
  | .vfMsix v o => s.msixWord (.vf v) (o - 0x2000) 0x1000

/-- A host write of a register. From a VF, only PLOT_EVENT, PLOT_BOUGH_RESET and MSI-X take writes (R386). -/
def State.writeBar (s : State) (r : BarReg) (v mask : Word) : State :=
  match r with
  | .reg r => s.writeOf r false v mask
  | .plotWin (some p) o => if o = 0x18 ∨ o = 0xc0 then s.writeOf (.plot p o) false v mask else s
  | .plotWin none _ => s
  | .vfMsix x o => s.writeMsix (.vf x) (o - 0x2000) 0x1000 { v := v, mask := mask, new := v, crown := false }

/-- A host write to BAR0: an error of size, alignment or place is dropped and logged (R547). -/
def State.hostRegWrite (s : State) (n : PortId) (fn : HostFn) (o len : Nat) (v : Word) : State :=
  match s.barReg fn (o / 8 * 8), regAccess o len v with
  | some r, some (v, mask) => (s.meterHost fn len).writeBar r v mask
  | _, _ => s.aer n

/-! ### REGISTER_WRITE (R546) -/

/-- A host port takes a TLP of a function now: the link is up and the device is out of RESET. -/
def State.takesTlp (s : State) (fn : HostFn) : Bool := s.fnReaches fn && s.fnOnPort (fnPort s fn) fn && s.sys.mode != .reset

/-- A register write of a host function, held through Dormant (R466). -/
def State.hostWriteReg (s : State) (fn : HostFn) (o : Nat) (wide : Bool) (v : Word) : State :=
  let i : Instr := .registerWrite (match fn with | .pf n => .pf n | .vf v => .vf v) o wide v
  if s.tlpWaits fn i then s.holdTlp (fnPort s fn) i s.nextId
  else (s.rxBytes (fnPort s fn) (if wide then 8 else 4)).hostRegWrite (fnPort s fn) fn o (if wide then 8 else 4) v

/-- REGISTER_WRITE (R543, R545, R546): a write of a register by a crown core, or by a function at an offset of its BAR0. -/
def execRegisterWrite (who : RegWho) (off : Nat) (wide : Bool) (v : Word) (s : State) : Out :=
  match who with
  | .crown _ => if s.awake then .next ((s.writeReg true off (if wide then 8 else 4) v).getD s) else .next s
  | .pf n => if s.takesTlp (.pf n) then .next (s.hostWriteReg (.pf n) off wide v) else .next s
  | .vf x => if s.takesTlp (.vf x) then .next (s.hostWriteReg (.vf x) off wide v) else .next s

end Sys2Proof.Machine
end

