-- ==== Sys2Proof/Machine/HostTxn.lean ====
section
/-! DEFINITION. Host memory transactions (R306 to R310, R461, R462, R545): writes and reads through BAR0 and BAR2, and the TLPs that a
port holds. -/

namespace Sys2Proof.Machine

/-! ### Where a BAR2 offset leads (R461, R462) -/

/-- DEDUCED: log entries 65, 101. -/
inductive Bar2 where
  | mem (a : Nat)
  | ur
  /-- No unit of the plot: the DPA where the offset has one. -/
  | unmapped (a : Option Nat)
  deriving DecidableEq, Repr

/-- A physical function's window (R461, R485, R537): root memory and scratchpads. DEDUCED: log entry 101. -/
def HostPort.pfWindow (p : HostPort) (o : Nat) : Bar2 :=
  let k := p.sizeLog2.toNat
  let a := p.winBase.toNat * 2 ^ 30 / 2 ^ k * 2 ^ k + o
  if !p.winEn || decide (2 ^ k ≤ o) then .ur
  else match placeOf a with
    | .root _ | .scratch _ _ => .mem a
    | _ => .ur

/-- A virtual function's window onto its plot (R462). -/
def PlotMap.window (m : PlotMap) (o : Nat) : Bar2 :=
  if o < 0x10000000 then
    match m.boughList[o / 0x100000]? with
    | some b => if o % 0x100000 < 0x80000 then .mem (scratchAddr b + o % 0x100000) else .unmapped (some (scratchAddr b + o % 0x100000))
    | none => .unmapped none
  else
    match m.regionList[o / 0x10000000 - 1]? with
    | some r => .mem (r * 0x10000000 + o % 0x10000000)
    | none => .unmapped none

def State.bar2 (s : State) (fn : HostFn) (o : Nat) : Bar2 :=
  match fn with
  | .pf n => s.ports[n].pfWindow o
  | .vf v => if 2 ^ s.ports[vfPort s.grn.split v].vfBar2 ≤ o then .ur else
    match s.vfPlot v.val with
    | some m => m.window o
    | none => .ur

/-- The plot of a function. -/
def State.fnPlot (s : State) : HostFn → Option Nat
  | .pf _ => none
  | .vf v => (s.vfPlot v.val).map (·.plot)

/-- The address that a failure without a DPA reports is free. DEDUCED: log entry 103. -/
def State.faultAddr (s : State) (a : Option Nat) : State × Nat :=
  match a with
  | some a => (s, a)
  | none => let d := s.draw; (d.2, d.1.toNat % 2 ^ 48)

/-- A failed check of a virtual function is counted and logged as unassigned (R313, R314). DEDUCED: log entry 103. -/
def State.hostIso (s : State) (n : PortId) (fn : HostFn) (a : Nat) (write : Bool) : State :=
  let valid := s.cnp.isoValid
  let vf := match fn with | .vf v => v.val | .pf _ => 0
  let s := s.isoFail (256 + n.val) vf ((s.fnPlot fn).getD 0) (2 ^ 47) write
  if valid then s else { s with cnp := { s.cnp with isoAddr := BitVec.ofNat 48 a } }

/-! ### Queue windows (R355, R356, R544, R545) -/

/-- The queue whose window holds a BAR0 offset, and the offset in it. -/
def State.winAt (s : State) (fn : HostFn) (o : Nat) : Option (QueueId × Nat) :=
  let base := match fn with | .pf _ => 0x2000000 | .vf _ => 0x10000
  if o < base then none else ((s.fnQueues fn)[(o - base) / 0x10000]?).map fun q => (q, o % 0x10000)

/-- An access of a window: one word, or words of QW_DATA. -/
def winAccess (o len : Nat) : Bool :=
  decide (o % 8 = 0) && (decide (len = 8) || (decide (0x8000 ≤ o) && decide (len % 8 = 0) && decide (0 < len) && decide (o + len ≤ 0x10000)))

/-- A word written at an offset of a window. -/
def State.winWrite (s : State) (fn : HostFn) (q : QueueId) (o : Nat) (v : Word) : State :=
  match o with
  | 0x08 => s.qwOpen fn q v
  | 0x10 => s.qwClose fn q v
  | 0x18 => s.qwTake fn q v
  | 0x28 => s.qwDone fn q v
  | _ => if 0x8000 ≤ o then s.qwPut fn q ((o - 0x8000) / 8) v else s

/-- A word read at an offset of a window, and its EP bit. -/
def State.winRead (s : State) (fn : HostFn) (q : QueueId) (o : Nat) : State × Word × Bool :=
  let x := s.queues[q]
  match o with
  | 0x00 => (s, x.statusWord (s.hostProd fn q) (s.hostCons fn q) (if s.hostProd fn q then x.errProd else x.errCons), false)
  | 0x20 => (s, if s.hostCons fn q then ((x.cons.map fun o => o.pkt.lengthWord).getD 0) else 0, false)
  | _ => if 0x8000 ≤ o then s.qwRead fn q ((o - 0x8000) / 8) else (s, 0, false)

/-- Words written to a window in turn. -/
def State.winWrites (s : State) (fn : HostFn) (q : QueueId) (o : Nat) : List Word → State
  | [] => s
  | v :: vs => (s.winWrite fn q o v).winWrites fn q (o + 8) vs

/-- Words read from a window in turn. -/
def State.winReads (s : State) (fn : HostFn) (q : QueueId) (o : Nat) : Nat → State × List Word × Bool
  | 0 => (s, [], false)
  | k + 1 =>
    let r := s.winRead fn q o
    let t := r.1.winReads fn q (o + 8) k
    (t.1, r.2.1 :: t.2.1, r.2.2 || t.2.2)

/-! ### Writes (R306 to R309) -/

/-- A request stays inside a 4 KiB block and has at most `most` bytes (R306, R458). PRESUMED: log entry 100. -/
def tlpFits (o len most : Nat) : Bool := decide (0 < len) && decide (len ≤ most) && decide (o / 4096 = (o + len - 1) / 4096)

/-- Bursts of one TLP: for each 256-byte block, the bytes of each slice (R271). -/
def State.burstsOf (s : State) (id : Nat) (n : PortId) (plot : Option Nat) (damaged : Bool) (bs : List (Nat × Byte)) : List Burst :=
  ((bs.map fun c => (c.1 / 256, s.sliceOf c.1)).eraseDups).map fun k =>
    let xs := bs.filter fun c => c.1 / 256 = k.1 && s.sliceOf c.1 == k.2
    { txn := id, who := .host n, plot := plot, slice := k.2, bytes := xs, bad := if damaged then wordsOf xs else [], mark := false }

/-- A write to root memory: its bursts go to the slices; over several slices it is armed as well (R306). -/
def State.stageRoot (s : State) (n : PortId) (p : Tlp) (a : Nat) : State :=
  let d := s.newId
  let s := d.2
  let bs := atAddr a p.data
  let ks := s.slicesOf bs
  let tx : WTxn := { id := d.1, who := .host n, fn := some p.fn, slices := ks, okFrom := [], failFrom := [], committed := [], decision := none,
                     ctl := [], relaxed := p.relaxed, addr := a, len := p.data.length, scratch := none, bytes := bs }
  let s := { s with txns := s.txns ++ [tx], seqQ := if 1 < ks.length then s.seqQ ++ [(ArmReq.mk (.txn d.1) (granRange bs).toList)] else s.seqQ }
  (s.burstsOf d.1 n (s.fnPlot p.fn) p.damaged bs).foldl (fun s b => s.sendBurst b) s

/-- A write to a scratchpad: staged in the port, one entry armed at the scratchpad's filter (R308). -/
def State.stageScratch (s : State) (n : PortId) (p : Tlp) (a : Nat) (b : BoughId) : State :=
  let d := s.newId
  let s := d.2
  let bs := atAddr a p.data
  let tx : WTxn := { id := d.1, who := .host n, fn := some p.fn, slices := [], okFrom := [], failFrom := [], committed := [], decision := none,
                     ctl := [], relaxed := p.relaxed, addr := a, len := p.data.length, scratch := some b, bytes := bs }
  { s with txns := s.txns ++ [tx] }.arm (.txn d.1) (granRange bs).toList

/-- A write through BAR2. -/
def State.bar2Write (s : State) (n : PortId) (p : Tlp) : State :=
  match s.bar2 p.fn p.off with
  | .ur => s.aer n
  | .unmapped a =>
    let d := s.faultAddr a
    (d.1.hostIso n p.fn d.2 true).hostFault n p.fn .unmapped d.2
  | .mem a =>
    if p.poisoned then s.hostFault n p.fn .poison a
    else match placeOf a with
      | .scratch b _ => if p.damaged then s.hostFault n p.fn .poison a else s.stageScratch n p a (boughId b)
      | _ => s.stageRoot n p a

/-- A write through BAR0: a queue window or registers. DEDUCED: log entry 104. -/
def State.bar0Write (s : State) (n : PortId) (p : Tlp) : State :=
  let len := p.data.length
  if p.poisoned || p.damaged then
    let d := s.draw
    d.2.hostFault n p.fn .poison (d.1.toNat % 2 ^ 48)
  else match s.winAt p.fn p.off with
    | some (q, o) => if winAccess o len then (s.meterHost p.fn len).winWrites p.fn q o (bytesWords p.data) else s.aer n
    | none => s.hostRegWrite n p.fn p.off len (BitVec.ofNat 64 (bytesNat p.data))

/-- A write TLP is taken. -/
def State.hostWrite (s : State) (n : PortId) (p : Tlp) : State :=
  let s := s.rxBytes n p.data.length
  if !tlpFits p.off p.data.length 512 then s.aer n else if p.bar2 then s.bar2Write n p else s.bar0Write n p

/-- A write to QW_CLOSE. -/
def State.closesQueue (s : State) (p : Tlp) : Bool :=
  !p.bar2 && match s.winAt p.fn p.off with
    | some (_, o) => o == 0x10
    | none => false

/-- A write TLP waits: the write stage is full, or it closes a packet before earlier writes are committed (R307, R356). -/
def State.writeWaits (s : State) (n : PortId) (p : Tlp) : Bool :=
  decide (32 ≤ (s.txns.filter fun t => t.who == .host n).length) || (s.closesQueue p && !s.writesDone p.fn)

def State.takeWrite (s : State) (n : PortId) (p : Tlp) : State :=
  if s.takesTlp p.fn && fnPort s p.fn == n then
    (if s.tlpWaits p.fn (.hostWriteTlp n p) || s.writeWaits n p then s.holdTlp n (.hostWriteTlp n p) s.nextId else s.hostWrite n p)
  else s

/-- HOST_WRITE_TLP (R306 to R309): the TLP is checked and staged, or waits at its port. DESIGN CHOICE: log entry 107. -/
def execHostWriteTlp (n : PortId) (p : Tlp) (s : State) : Out := .next (s.takeWrite n p)

/-! ### Reads (R302, R307, R310) -/

/-- The write is visible to every observer. -/
def State.txnDone (s : State) (t : WTxn) : Bool :=
  if t.scratch.isSome then s.scratchVisible t.id else t.decision == some true && t.ctl.isEmpty

/-- The granules that a read request touches, each of which holds a tag (R301). -/
def readTags (off len : Nat) : Nat := (off + len - 1) / 64 - off / 64 + 1

/-- A read waits: the writes that came before it, its tag in use, or too few granule tags (R301, R302, R307). -/
def State.readWaits (s : State) (n : PortId) (tag off len ord : Nat) : Bool :=
  (s.txns.any fun t => t.who == .host n && t.fn.isSome && !t.relaxed && decide (t.id < ord) && !s.txnDone t) ||
    (s.ports[n].reads.any fun r => r.tag == tag) || decide (1024 < (s.ports[n].reads.map fun r => r.tags).sum + readTags off len)

/-- The parts of a read: a granule, or a half granule when the bytes lie in one (R270, R310). DEDUCED: log entry 105. -/
def readParts (a len : Nat) : List HPart :=
  (List.range ((a + len - 1) / 64 - a / 64 + 1)).map fun i =>
    let g := a / 64 + i
    let lo := max a (64 * g)
    let hi := min (a + len) (64 * g + 64) - 1
    if lo / 32 = hi / 32 then { addr := lo / 32 * 32, len := 32, data := none } else { addr := 64 * g, len := 64, data := none }

/-- Sends the parts of a read to their slices or to the scratchpad. -/
def State.sendParts (s : State) (n : PortId) (tag : Nat) : Nat → List HPart → State
  | _, [] => s
  | i, p :: ps =>
    let d := s.newId
    let r : ReadReq := { tag := d.1, who := .host n tag i, addr := p.addr, len := p.len }
    (match placeOf p.addr with
      | .scratch b _ => d.2.modScr (boughId b) fun x => { x with inbox := x.inbox ++ [r] }
      | _ => d.2.sendRead r).sendParts n tag (i + 1) ps

def State.addRead (s : State) (n : PortId) (r : HRead) : State := s.modPort n fun p => { p with reads := p.reads ++ [r] }

/-- Unsupported Request. PRESUMED: log entry 100. -/
def State.readUr (s : State) (n : PortId) (tag : Nat) : State := s.emit (.completion n tag false false [])

/-- What a register or queue-window read returns, and its EP bit: it acts when the port takes it, before every later TLP (R300, R356). -/
def State.hostReadReg (s : State) (fn : HostFn) (o len : Nat) : State × List Byte × Bool :=
  match s.winAt fn o with
  | some (q, k) =>
    let w := s.winReads fn q k (len / 8)
    (w.1, (wordsBytes w.2.1).take len, w.2.2)
  | none =>
    let v := ((s.barReg fn (o / 8 * 8)).map s.readBar).getD 0
    (s, wordBytes len (v.toNat / 2 ^ (8 * (o % 8))), false)

/-- A read request is taken. -/
def State.hostRead (s : State) (n : PortId) (tag : Nat) (fn : HostFn) (bar2 : Bool) (off len : Nat) : State :=
  let r : HRead := { tag := tag, fn := fn, addr := off, len := len, parts := [], tags := readTags off len, answer := none, fault := none, absorb := false }
  if !tlpFits off len 4096 then s.readUr n tag
  else if bar2 then
    match s.bar2 fn off with
    | .ur => s.readUr n tag
    | .unmapped a =>
      let d := s.faultAddr a
      (d.1.hostIso n fn d.2 false).addRead n { r with addr := d.2, fault := some .unmapped }
    | .mem a =>
      let ps := readParts a len
      (s.addRead n { r with addr := a, parts := ps }).sendParts n tag 0 ps
  else
    let ok := match s.winAt fn off with
      | some (_, o) => winAccess o len
      | none => (s.barReg fn (off / 8 * 8)).isSome && (regAccess off len 0).isSome
    if ok then
      let a := s.hostReadReg fn off len
      a.1.addRead n { r with answer := some a.2 }
    else s.readUr n tag

/-- A read request arrives, or one that waited is looked at again; `ord` tells the writes that came before it. -/
def State.takeRead (s : State) (ord : Nat) (n : PortId) (tag : Nat) (fn : HostFn) (bar2 : Bool) (off len : Nat) : State :=
  let i : Instr := .hostReadRequest n tag fn bar2 off len
  if s.takesTlp fn && fnPort s fn == n then
    (if s.tlpWaits fn i || s.readWaits n tag off len ord then s.holdTlp n i ord else s.hostRead n tag fn bar2 off len)
  else s

/-- HOST_READ_REQUEST (R302, R310): the request is split into its parts, or waits at its port. DESIGN CHOICE: log entry 107. -/
def execHostReadRequest (n : PortId) (tag : Nat) (fn : HostFn) (bar2 : Bool) (off len : Nat) (s : State) : Out :=
  .next (s.takeRead s.nextId n tag fn bar2 off len)

/-- A host read of a scratchpad that no entry holds is performed. -/
def State.scratchPart (s : State) (n : PortId) (tag : Nat) (p : HPart) : State :=
  match placeOf p.addr with
  | .scratch d _ =>
    let b := boughId d
    if s.entryCovers (.scratch b) p.addr then s
    else match s.scr[b].inbox.find? fun r => r.addr = p.addr && (match r.who with | .host m t _ => m == n && t == tag | _ => false) with
      | some r =>
        if !s.scratchInOrder b r then s else
        let q := s.performRead r
        (q.1.modScr b fun x => { x with inbox := x.inbox.filter fun y => y != r }).respond r q.2
      | none => s
  | _ => s

/-- The bytes of a read, cut out of its parts. -/
def HRead.bytes (r : HRead) : List Byte :=
  (List.range r.len).map fun i => (r.parts.findSome? fun p => p.data.bind fun c => c.byteAt (r.addr + i)).getD 0

/-- The bytes of a read whose answer is a fault are free. DESIGN CHOICE: log entry 106. -/
def freeBytes (seed len : Nat) : List Byte := (List.range len).map fun i => BitVec.ofNat 8 ((Config.freeWord (seed + i / 8)).toNat / 2 ^ (8 * (i % 8)))

/-- A read that meets no unit of its plot: AER, and ISOLATION_FAULT for the plot (R310, R462). -/
def State.readIsolation (s : State) (n : PortId) (fn : HostFn) (a : Nat) : State :=
  let s := s.aer n
  match s.fnPlot fn with
  | some p => (s.meter (some p) fun x => { x with isolation := x.isolation + 1 }).plotEvent (plotId p) 6 0xff n.val (BitVec.ofNat 64 a)
  | none => s

/-- What a read that is complete returns: the state, the bytes and EP. DEDUCED: log entry 105. -/
def State.readAnswer (s : State) (n : PortId) (r : HRead) : State × List Byte × Bool :=
  match r.answer, r.fault with
  | some a, _ => (s, a)
  | none, some _ => ({ s with fresh := s.fresh + (r.len + 7) / 8 }.readIsolation n r.fn r.addr, freeBytes s.fresh r.len, true)
  | none, none =>
    let bad := r.parts.any fun p => match p.data with | some c => c.poison.any (fun b => b) | none => false
    (if bad then s.readPoison r.fn r.addr else s, r.bytes, bad)

def State.dropRead (s : State) (n : PortId) (tag : Nat) : State := s.modPort n fun p => { p with reads := p.reads.filter fun r => r.tag ≠ tag }

/-- Every part has returned: the completions go out; an absorbed read is dropped (R305). DESIGN CHOICE: log entry 106. -/
def State.finishRead (s : State) (n : PortId) (r : HRead) : State :=
  let s := s.dropRead n r.tag
  if r.absorb then s
  else
    let a := s.readAnswer n r
    ((a.1.txBytes n r.len).meterHost r.fn r.len).emit (.completion n r.tag true a.2.2 a.2.1)

def State.completeRead (s : State) (n : PortId) (tag : Nat) : State :=
  match s.ports[n].reads.find? fun r => r.tag = tag with
  | none => s
  | some r =>
    let s := r.parts.foldl (fun s p => s.scratchPart n tag p) s
    match s.ports[n].reads.find? fun r => r.tag = tag with
    | some r => if r.parts.all fun p => p.data.isSome then s.finishRead n r else s
    | none => s

/-! ### TLPs that wait (R302, R305, R466) -/

/-- Serves a TLP that waited at its port. -/
def State.serveTlp (s : State) (ord : Nat) (i : Instr) : State :=
  match (match i with
    | .hostWriteTlp n p => execHostWriteTlp n p s
    | .hostReadRequest n tag fn bar2 off len => .next (s.takeRead ord n tag fn bar2 off len)
    | .registerWrite who off wide v => execRegisterWrite who off wide v s
    | .configRequest n fn op => execConfigRequest n fn op s
    | .qwOpen fn q v => execQwOpen fn q v s
    | .qwClose fn q v => execQwClose fn q v s
    | .qwTake fn q v => execQwTake fn q v s
    | .qwDone fn q v => execQwDone fn q v s
    | .qwDataWrite fn q i v => execQwDataWrite fn q i v s
    | .qwDataRead fn q i => execQwDataRead fn q i s
    | .getVersion tr => execGetVersion tr s
    | .getCapabilities tr => execGetCapabilities tr s
    | .negotiateAlgorithms tr offer => execNegotiateAlgorithms tr offer s
    | .getDigests tr => execGetDigests tr s
    | .getCertificate tr slot off len => execGetCertificate tr slot off len s
    | .challenge tr slot nonce => execChallenge tr slot nonce s
    | .getMeasurements tr slot index sig nonce => execGetMeasurements tr slot index sig nonce s
    | .keyExchange tr slot hb => execKeyExchange tr slot hb s
    | .finish tr sid => execFinish tr sid s
    | .heartbeat tr sid => execHeartbeat tr sid s
    | .keyUpdate tr sid => execKeyUpdate tr sid s
    | .endSession tr sid => execEndSession tr sid s
    | .respondIfReady tr => execRespondIfReady tr s
    | .spdmUnsupportedRequest tr code => execSpdmUnsupportedRequest tr code s
    | .keyProg tr sid n kset sub key => execKeyProg tr sid n kset sub key s
    | .kSetGo tr sid n kset sub => execKSetGo tr sid n kset sub s
    | .kSetStop tr sid n kset sub => execKSetStop tr sid n kset sub s
    | .query tr sid n => execQuery tr sid n s
    | _ => .next s) with
  | .next t => t
  | _ => s

/-- Serves the TLPs of a port in the order of arrival; those that still have to wait stay. After a write that waited, every write taken by
then came before. -/
def State.serveSome (s : State) (n : PortId) (past : Bool) : List HeldTlp → State
  | [] => s
  | e :: rest => (s.serveTlp (if past then s.nextId else e.ord) e.tlp).serveSome n (past || tlpPosted e.tlp) rest

/-- DESIGN CHOICE: log entry 98. -/
def State.serveHeld (s : State) (n : PortId) : State := if s.holdsTlps then s else (s.modPort n fun p => { p with held := [] }).serveSome n false s.ports[n].held

def State.serveAll (s : State) : State := (List.finRange 4).foldl (fun s n => s.serveHeld n) s

/-- HOST_READ_COMPLETION (R310). -/
def execHostReadCompletion (n : PortId) (tag : Nat) (s : State) : Out := .next ((s.completeRead n tag).serveHeld n)

/-- DISCARD (R271, R306): slice k drops every burst of the transaction. -/
def execDiscard (id : Nat) (k : SliceId) (s : State) : Out := .next ((s.discardAt id k).serveAll)

/-- COMMITTED (R306): after the last one the stage entry of the port is free and its entries are released. -/
def execCommitted (id : Nat) (k : SliceId) (s : State) : Out := .next ((s.committedAt id k).serveAll)

/-- PORT_CLEAN (R158, R305): a port in absorb state with nothing outstanding takes its master's new requests. -/
def execPortClean (m : Master) (s : State) : Out := .next ((s.portCleanAt m).serveAll)

/-- The port has written the granules of a scratchpad write and releases its entry (R308). -/
def State.scratchWritten (s : State) (t : WTxn) (b : BoughId) : State :=
  let k := (granulesOf t.bytes).length
  let s := match t.fn with
    | some fn =>
      let p := s.fnPlot fn
      let own := p.isSome && (p == ((s.boughPlot b.val).map fun (m : PlotMap) => m.plot))
      ((if own then s.meter p fun c => { c with scr := c.scr + 64 * k } else s).spend p (k * s.atVolt (eScratch + eTrunk))).meterHost fn t.len
    | none => s
  s.dropTxn t.id

/-- HOST_SCRATCHPAD_WRITE (R150, R308): the entry is installed and no older entry covers a granule of the write. -/
def execHostScratchpadWrite (id : Nat) (s : State) : Out :=
  match s.txn? id with
  | some t => match t.scratch with
    | some b =>
      if s.scratchVisible id && (granulesOf t.bytes).all fun g => !olderBlocks (.txn id) (.scratch b) g s.filters then .next (s.scratchWritten t b).serveAll
      else .next s
    | none => .next s
  | none => .next s

end Sys2Proof.Machine
end

