-- ==== Sys2Proof/Machine/Dormant.lean ====
section
/-! DEFINITION. Dormant (chapter 19, R502 to R513): entry, wake and what a wake checks; graft beacons; PWR_FAIL_N (R437). -/

namespace Sys2Proof.Machine

/-! ### Entry (R502-R505) -/

/-- DORMANT_ENTER (R502): a crown write of PWR_DORMANT.ENTER. DESIGN CHOICE: log entry 94. -/
def execDormantEnter (s : State) : Out := .next s.startDormant

/-- Dormant entry is under way. -/
def State.entering (s : State) : Bool := s.sys.mode == .drain && s.sys.drainFor == some .dormant

/-- The device is in RUN again (R504, R512): FREEZE clears, host links leave L1, held TLPs are served, a kept level request is carried
out. -/
def State.backToRun (s : State) : State :=
  let s := (s.modSys fun x => { x with drainFor := none }).modPwr fun p => { p with dormEnter := false, dormStep := 0, latched := none }
  let s := (s.unfreezeAll.setMode .run).carryKept
  State.serveAll { s with ports := s.ports.map fun (p : HostPort) => { p with l1 := false } }

/-- Entry is abandoned (R504). DEDUCED: log entry 95. -/
def State.abandonEntry (s : State) : State := (s.modPwr fun p => { p with abandoned := true }).backToRun

/-- The slices complete every queued request and every staged burst as the canopy signals, and the stacks enter self-refresh (R280). -/
def State.selfRefresh (s : State) : State :=
  let s := s.finishReads.settleSlices
  { s with slices := s.slices.map (fun (x : Slice) => { x with writing := [], staging := [] }),
           hbm := s.hbm.map fun (x : Stack) => if x.state = 2 then { x with state := 3 } else x }

/-- Graft ports go down with LEAVE; host links enter L1 where ASPM allows it (R503). -/
def State.linksDown (s : State) : State :=
  let s := (List.finRange 4).foldl (fun (s : State) n => if s.grafts[n].st == .off then s else s.graftDown n) s
  { s with ports := s.ports.map fun (p : HostPort) => { p with l1 := p.l1 || (p.linkUp && p.aspm) } }

/-- The parity signature of a domain: its scan order, and with it the value, is free (R508). DESIGN CHOICE: log entry 115. -/
def State.domainSigs (s : State) : Nat → List (BitVec 32) × State
  | 0 => ([], s)
  | k + 1 =>
    let d := s.draw
    let r := d.2.domainSigs k
    (d.1.truncate 32 :: r.1, r.2)

/-- Bank CRCs and domain signatures go to the always-on domain (R329, R508). -/
def State.capture (s : State) : State :=
  let s := (List.finRange 256).foldl (fun s b => s.bankCrcs b) s
  let d := s.domainSigs 18
  d.2.modPwr fun p => { p with sigs := d.1 }

/-- A wake begins: VDD_CORE goes to the voltage of the entry level (R510). -/
def State.startWake (s : State) (code : BitVec 4) : State :=
  (s.modPwr fun p => { p with wakeCause := code, wakeStep := 1, chained := false, late := false, lateStep := 0, totalUs := 0,
                              stepUs := Vector.replicate 4 0, latched := none }).avs (lvlMv s.pwr.level.val)

/-- The detector is armed and the device is in DORMANT; a source latched during entry starts the wake at once (R503, R504). -/
def State.armDetector (s : State) : State :=
  let c := s.pwr.latched
  let s := (s.avs 0).modPwr fun p => { p with dormEnter := false, dormStep := 0, latched := none }
  let s := ((((s.modSys fun x => { x with drainFor := none }).setMode .dormant).ringAdd 29 1)).recFlagAll 9
  match c with
  | some c => s.startWake c
  | none => s

def State.toStep (s : State) (k : Nat) : State := s.modPwr fun p => { p with dormStep := k }

/-- The entry step under way ends, when it can (R503). DEDUCED: log entry 111. -/
def State.entryStep (s : State) : State :=
  match s.pwr.dormStep with
  | 1 => if s.drained && s.boughs.toList.all (fun y => y.twig.canHold) then s.toStep 2 else s
  | 2 => if s.scr.toList.all fun x => !x.sweepOpen then s.selfRefresh.writeFlush.toStep 3 else s
  | 3 => s.linksDown.toStep 4
  | 4 => s.capture.toStep 5
  | 5 => (s.modPwr fun p => { p with locked := false }).toStep 6
  | 6 => s.toStep 7
  | _ => s.armDetector

/-- DORMANT_STEP_COMPLETE (R503). DEDUCED: log entry 111. -/
def execDormantStepComplete (s : State) : Out := if s.entering then .next s.entryStep else .next s

/-! ### Wake sources (R504-R506, R510) -/

/-- What a wake source needs to be there. DESIGN CHOICE: log entry 113. -/
def State.sourceThere (s : State) (code : BitVec 4) : Bool :=
  match code.toNat with
  | 1 | 6 => true
  | 2 => s.ports.toList.any fun p => p.linkUp
  | 3 => s.crn.chans.toList.any fun c => c.go && !c.busy
  | 4 => s.pwr.alarmPend
  | 5 => s.grafts.toList.any fun p => p.st != .off
  | _ => false

/-- A source is latched as a level. DEDUCED: log entry 112. -/
def State.latch (s : State) (code : BitVec 4) : State := s.modPwr fun p => { p with latched := p.latched.or (some code) }

/-- A wake source is sampled or detected. -/
def State.wakeSeen (s : State) (code : BitVec 4) : State :=
  if !s.sourceThere code then s
  else if s.entering then
    (if s.pwr.dormStep ≤ 2 then s.abandonEntry
     else if s.pwr.dormStep = 6 ∧ 5 ≤ code.toNat then s
     else s.latch code)
  else if s.sys.mode == .dormant && s.pwr.wakeStep == 0 then s.startWake code
  else s

/-- WAKE_SOURCE (R504 to R506, R510). DEDUCED: log entry 112. -/
def execWakeSource (code : BitVec 4) (s : State) : Out := .next (s.wakeSeen code)

/-- GRAFT_BEACON_RX (R476, R477, R505): LISTEN goes to TRAIN; a Dormant device, or one in Dormant entry, takes the beacon as a wake
source. DEDUCED: log entry 114. -/
def execGraftBeaconRx (n : PortId) (s : State) : Out :=
  if s.grafts[n].st == .off then .next s
  else
    let s1 := if s.entering || s.sys.mode == .dormant then s.wakeSeen 5 else s
    if s1.grafts[n].st == .listen && !s1.entering && s1.sys.mode != .dormant then .next (s1.setGraft n .train) else .next s1

/-- REFCLK_STOP_IN_DORMANT (R435): the tick freezes; the backup oscillator estimates the stopped time, in µs. -/
def execRefclkStopInDormant (lostUs : Nat) (s : State) : Out :=
  if s.sys.mode == .dormant then
    .next ((s.modPwr fun p => { p with refclkOk := false, stoppedUs := some (p.stoppedUs.getD 0 + lostUs) }).pwrEvent 6)
  else .next s

/-! ### What a wake checks (R509, R330) -/

/-- A plot has a bough, queue or link end in a grove. -/
def State.plotInGrove (s : State) (m : PlotMap) (g : GroveId) : Bool :=
  (m.boughList.any fun b => groveOf b == g) ||
    ((List.finRange 1024).any fun q => queueGrove q == g && (s.queueRec q.val).any fun r => recPlot r == m.plot) ||
    s.links.any fun l => l.plot == m.plot && ((!l.fromGraft && groveOf (boughId l.srcBough) == g) || (!l.toGraft && groveOf (boughId l.dstBough) == g))

/-- The crown writes the grove's program regions again from the active image. -/
def State.rewriteGrove (s : State) (k : GroveId) : State :=
  match s.grn.active with
  | none => s
  | some g => g.plots.foldl (fun (s : State) m =>
      if (grovesOf m.boughs).contains k.val then
        s.modMem fun x => x.writeRegion k.val m.progBase m.progUnits (((g.progs.find? fun x => x.1 == m.plot).map (·.2)).getD [])
      else s) s

/-- A lost domain is counted and noted, and PWR_RET shows it. DESIGN CHOICE: log entry 118. -/
def State.domainNoted (s : State) (d : Nat) : State :=
  ((s.modPwr fun p => { p with retLost := withBit p.retLost d }).ringAdd 26 1).note 2 0xff (BitVec.ofNat 64 d)

/-- Domain g, a grove, is lost. -/
def State.groveLost (s : State) (g : GroveId) : State :=
  let s := s.domainNoted g.val
  let s := (List.finRange 256).foldl (fun s b => if groveOf b = g then s.resetNow b else s) s
  let s := (List.finRange 1024).foldl (fun s q => if queueGrove q = g then s.flushNow q else s) s
  let s := s.rewriteGrove g
  s.plotMaps.foldl (fun (s : State) m =>
    if s.plotInGrove m g then (s.recFlag (plotId m.plot) 14).plotEvent (plotId m.plot) 1 0xff 0xff (BitVec.ofNat 64 g.val) else s) s

/-- Domains whose signature differs. -/
def lostDomains (old new : List (BitVec 32)) : List Nat := (List.range 18).filter fun d => old[d]? != new[d]?

/-- The level in force goes on, caches are empty. -/
def Twig.cold (w : Twig) : Twig := { w with icache := [], lineBuf := none }

/-- Caches do not survive Dormant (R508). -/
def State.dropCaches (s : State) : State :=
  { s with boughs := s.boughs.map (fun (y : Bough) => { y with ocache := [], twig := y.twig.cold }),
           crn := { s.crn with cores := s.crn.cores.map Twig.cold } }

/-- Events of the wake that concern the whole device: now, or after the reload that a lost trunk or crown domain brings. DEDUCED: log entry 117. -/
def State.postWakeLate (s : State) (later : Bool) : State :=
  if !s.pwr.late then s
  else
    let k := s.pwr.lateStep.toNat
    let us : Word := match finOf? 4 (k - 1) with
      | some i => s.pwr.stepUs[i].zeroExtend 64
      | none => 0
    if later then s.modSys fun x => { x with postDue := x.postDue ++ [(4, k, us)] }
    else s.plotMaps.foldl (fun s m => s.plotEvent (plotId m.plot) 4 0xff k us) s

/-- Step 4 of the wake has ended: what the checks found is told, then RUN or a device reset (R509, R510, R512,
R513). -/
def State.endWake (s : State) : State :=
  let s := s.modPwr fun p => { p with wakeStep := 0, totalUs := BitVec.ofNat 16 (sat16 ((p.stepUs.toList.map fun x => x.toNat).sum)) }
  let s := match s.pwr.stoppedUs with
    | some us => (s.openGap (BitVec.ofNat 64 us)).modPwr fun p => { p with stoppedUs := none }
    | none => s
  let d := s.domainSigs 18
  let lost := lostDomains d.2.pwr.sigs d.1
  let dead := lost.filter fun k => decide (16 ≤ k)
  let s := (List.finRange 256).foldl (fun s b => s.tellLost b) (d.2.postWakeLate (!dead.isEmpty))
  let s := (List.finRange 16).foldl (fun s g => if lost.contains g.val then s.groveLost g else s) s
  let s := dead.foldl (fun s k => s.domainNoted k) s
  if dead.isEmpty then s.dropCaches.backToRun
  else (s.modSys fun x => { x with postDue := x.postDue ++ dead.map fun k => (1, 0xff, BitVec.ofNat 64 k) }).deviceReset 5 0 true

/-! ### The wake (R510, R511) -/

/-- The fixed delay of a wake step, in µs. -/
def wakeDelay (k : Nat) : Nat :=
  match k with
  | 1 => 150
  | 2 => 60
  | 3 => 120
  | _ => 70

/-- What a wake step leaves: the PLL locked; the stacks trained again and the scratchpads checked (R330, R510). -/
def State.wakeEffect (s : State) (k : Nat) : State :=
  match k with
  | 2 => s.modPwr fun p => { p with locked := true }
  | 3 =>
    let s := (List.finRange 8).foldl (fun (s : State) i => if s.hbm[i].state == 3 then s.trainStack false i else s) s
    (List.finRange 256).foldl (fun s b => s.retentionCheck b) s
  | _ => s

/-- A wake step ends after `us` µs. DEDUCED: log entry 116. -/
def State.wakeStepDone (s : State) (us : Nat) : State :=
  let k := s.pwr.wakeStep
  let s := s.modPwr fun p =>
    { p with wakeStep := k + 1, stepUs := p.stepUs.mapFinIdx fun i x _ => if i + 1 = k then BitVec.ofNat 16 (sat16 us) else x }
  let s := s.wakeEffect k
  if 4 ≤ k then s.endWake else s

/-- The wake falls back to ready-chained order (R511). -/
def State.wakeLate (s : State) : State :=
  ((s.modPwr fun p => { p with chained := true, late := true, lateStep := BitVec.ofNat 3 p.wakeStep }).pwrEvent 5).ringAdd 25 1

/-- A wake step is under way. -/
def State.waking (s : State) : Bool := s.sys.mode == .dormant && s.pwr.wakeStep != 0

/-- WAKE_STEP_DELAY_END (R510, R511): the fixed delay of the step ends; without REFCLK no ready asserts (R513). -/
def execWakeStepDelayEnd (ready : Bool) (s : State) : Out :=
  if s.waking && !s.pwr.chained then
    .next (if ready && s.pwr.refclkOk then s.wakeStepDone (wakeDelay s.pwr.wakeStep) else s.wakeLate)
  else .next s

/-- WAKE_STEP_READY (R511): in ready-chained order the step's ready asserts `us` µs after its start. DEDUCED: log entry 119. -/
def execWakeStepReady (us : Nat) (s : State) : Out :=
  if s.waking && s.pwr.chained && s.pwr.refclkOk && decide (us ≤ 10000) &&
      (s.pwr.lateStep.toNat != s.pwr.wakeStep || decide (wakeDelay s.pwr.wakeStep ≤ us)) then .next (s.wakeStepDone us)
  else .next s

/-- WAKE_STEP_TIMEOUT (R511, R525): no ready within 10 ms. -/
def execWakeStepTimeout (s : State) : Out :=
  if s.waking && s.pwr.chained then
    .next (State.serveAll ((s.modPwr fun p => { p with wakeStep := 0 }).quarantine 7))
  else .next s

/-! ### PWR_FAIL_N (R415, R437, R444, R513) -/

/-- The signature in progress is abandoned: a ledger item asks again, an SPDM answer is lost. DEDUCED: log entry 121. -/
def State.abandonSig (s : State) : State :=
  match s.hwd.engine with
  | none => s
  | some r =>
    let s := s.modHwd fun h => { h with engine := none }
    match r with
    | .ledger => s.modHwd fun h => { h with sigQueue := .ledger :: h.sigQueue }
    | .spdm tr => s.modTr tr fun t => { t with pending := none, ready := false, direct := false, stale := false }
    | .graft _ => s

/-- A staged image is discarded before its switch tick: in RUN the load ends, in LOAD the slot is checked again. A regrain whose plot has
stopped stages its image again. DESIGN CHOICE: log entry 67. -/
def State.discardStaged (s : State) : State :=
  match s.grn.req, s.grn.staged with
  | some r, some _ =>
    match s.sys.mode with
    | .run => if s.grn.st = .regraining then s else (s.finishOpt r.ch 8 0).endLoad
    | .drain =>
      if s.sys.drainFor = some .activation then ((s.modSys fun x => { x with drainFor := none }).unfreezeAll.setMode .run |>.finishOpt r.ch 8 0).endLoad
      else s
    | .load => s.modGrn fun g => { g with staged := none, st := .checking }
    | _ => s
  | _, _ => s

/-- PWR_FAIL_ASSERT (R437): signing stops and the flush area is written; in RESET, DORMANT and a wake only its header. DESIGN CHOICE: log entry 67. -/
def execPwrFailAssert (s : State) : Out :=
  if s.sys.pwrFail || !s.sys.aonGood then .next s
  else
    let s := ((s.modSys fun x => { x with pwrFail := true }).abandonSig).ringAdd 28 1
    if s.sys.mode == .dormant || s.sys.mode == .reset then .next s.writeFlushHeader
    else
      let s := if s.entering && decide (s.pwr.dormStep ≤ 2) then s.abandonEntry else s
      .next s.writeFlush.discardStaged

/-- PWR_FAIL_DEASSERT (R437): the device continues. -/
def execPwrFailDeassert (s : State) : Out :=
  if s.sys.pwrFail then .next ((s.modSys fun x => { x with pwrFail := false }).startSig) else .next s

end Sys2Proof.Machine
end

