-- ==== Sys2Proof/Machine/TwigAlu.lean ====
section
/-! DEFINITION. The twig's integer, predicate and comparison instructions (R206-R209, R213, R214). -/

namespace Sys2Proof.Machine

/-- An instruction that writes Gd and falls through. -/
def aluRun (i : Instr) (t : TwigId) (gu : PReg) (f : TwigForm) (gd : GReg) (v : Twig → Word) (s : State) : State :=
  runTwig i t gu f (fun s => .done (s.setG t gd (v (s.twig t))) false false) s

/-- One word, no prefix, a legal REP target. -/
def form1 (reads : List GReg) : TwigForm := { words := 1, pfx := false, rep := true, reads := reads, bad := false }
/-- Two words in ALU2: the field that must be 0 decides the legality (R208, R212). -/
def form2 (reads : List GReg) (bad : Bool) : TwigForm := { words := 2, pfx := false, rep := true, reads := reads, bad := bad }

def neg64 (x : Word) : Word := 0 - x
def abs64 (x : Word) : Word := if x.msb then 0 - x else x
/-- Shifts by bits [6:0] of the amount (R213). -/
def amt7 (x : Word) : Nat := x.toNat % 128
def shl64 (x : Word) (n : Nat) : Word := BitVec.ofNat 64 (shiftL 64 x.toNat n)
def shr64 (x : Word) (n : Nat) : Word := BitVec.ofNat 64 (shiftR 64 x.toNat n)
def sra64 (x : Word) (n : Nat) : Word := BitVec.ofNat 64 (shiftA 64 x.toNat n)
def rot64 (x : Word) (n : Nat) : Word := BitVec.ofNat 64 (rotL 64 x.toNat n)

/-- NEG (R207, R213). -/
def execNeg (t : TwigId) (gu : PReg) (gd : GReg) (s : State) : Out :=
  .next (aluRun (.neg t gu gd) t gu (form1 [gd]) gd (fun w => neg64 (w.reg gd)) s)

/-- NOT (R207). -/
def execNot (t : TwigId) (gu : PReg) (gd : GReg) (s : State) : Out :=
  .next (aluRun (.not t gu gd) t gu (form1 [gd]) gd (fun w => ~~~ w.reg gd) s)

/-- ABS (R207, R213). -/
def execAbs (t : TwigId) (gu : PReg) (gd : GReg) (s : State) : Out :=
  .next (aluRun (.abs t gu gd) t gu (form1 [gd]) gd (fun w => abs64 (w.reg gd)) s)

/-- MOV (R206). -/
def execMov (t : TwigId) (gu : PReg) (gd : GReg) (gs : GReg) (s : State) : Out :=
  .next (aluRun (.mov t gu gd gs) t gu (form1 [gs]) gd (fun w => w.reg gs) s)

/-- ADD (R206, R213). -/
def execAdd (t : TwigId) (gu : PReg) (gd : GReg) (gs : GReg) (s : State) : Out :=
  .next (aluRun (.add t gu gd gs) t gu (form1 [gd, gs]) gd (fun w => w.reg gd + w.reg gs) s)

/-- SUB (R206, R213). -/
def execSub (t : TwigId) (gu : PReg) (gd : GReg) (gs : GReg) (s : State) : Out :=
  .next (aluRun (.sub t gu gd gs) t gu (form1 [gd, gs]) gd (fun w => w.reg gd - w.reg gs) s)

/-- MOVI (R204, R206). -/
def execMovi (t : TwigId) (gu : PReg) (gd : GReg) (imm : BitVec 4) (s : State) : Out :=
  .next (aluRun (.movi t gu gd imm) t gu { form1 [] with pfx := true } gd (fun w => w.imm true 4 imm.toNat) s)

/-- ADDI (R204, R206). -/
def execAddi (t : TwigId) (gu : PReg) (gd : GReg) (imm : BitVec 4) (s : State) : Out :=
  .next (aluRun (.addi t gu gd imm) t gu { form1 [gd] with pfx := true } gd (fun w => w.reg gd + w.imm true 4 imm.toNat) s)

/-- AND (R208, R213). -/
def execAnd (t : TwigId) (gu : PReg) (gd gs : GReg) (z : BitVec 4) (gt : GReg) (s : State) : Out :=
  .next (aluRun (.and t gu gd gs z gt) t gu (form2 [gs, gt] (z != 0)) gd (fun w => w.reg gs &&& w.reg gt) s)

/-- OR (R208, R213). -/
def execOr (t : TwigId) (gu : PReg) (gd gs : GReg) (z : BitVec 4) (gt : GReg) (s : State) : Out :=
  .next (aluRun (.or t gu gd gs z gt) t gu (form2 [gs, gt] (z != 0)) gd (fun w => w.reg gs ||| w.reg gt) s)

/-- XOR (R208, R213). -/
def execXor (t : TwigId) (gu : PReg) (gd gs : GReg) (z : BitVec 4) (gt : GReg) (s : State) : Out :=
  .next (aluRun (.xor t gu gd gs z gt) t gu (form2 [gs, gt] (z != 0)) gd (fun w => w.reg gs ^^^ w.reg gt) s)

/-- ANDN (R208, R213). -/
def execAndn (t : TwigId) (gu : PReg) (gd gs : GReg) (z : BitVec 4) (gt : GReg) (s : State) : Out :=
  .next (aluRun (.andn t gu gd gs z gt) t gu (form2 [gs, gt] (z != 0)) gd (fun w => w.reg gs &&& ~~~ w.reg gt) s)

/-- ADD3 (R208, R213). -/
def execAdd3 (t : TwigId) (gu : PReg) (gd gs : GReg) (z : BitVec 4) (gt : GReg) (s : State) : Out :=
  .next (aluRun (.add3 t gu gd gs z gt) t gu (form2 [gs, gt] (z != 0)) gd (fun w => w.reg gs + w.reg gt) s)

/-- SUB3 (R208, R213). -/
def execSub3 (t : TwigId) (gu : PReg) (gd gs : GReg) (z : BitVec 4) (gt : GReg) (s : State) : Out :=
  .next (aluRun (.sub3 t gu gd gs z gt) t gu (form2 [gs, gt] (z != 0)) gd (fun w => w.reg gs - w.reg gt) s)

/-- SHL (R208, R213). -/
def execShl (t : TwigId) (gu : PReg) (gd gs : GReg) (z : BitVec 4) (gt : GReg) (s : State) : Out :=
  .next (aluRun (.shl t gu gd gs z gt) t gu (form2 [gs, gt] (z != 0)) gd (fun w => shl64 (w.reg gs) (amt7 (w.reg gt))) s)

/-- SHR (R208, R213). -/
def execShr (t : TwigId) (gu : PReg) (gd gs : GReg) (z : BitVec 4) (gt : GReg) (s : State) : Out :=
  .next (aluRun (.shr t gu gd gs z gt) t gu (form2 [gs, gt] (z != 0)) gd (fun w => shr64 (w.reg gs) (amt7 (w.reg gt))) s)

/-- SRA (R208, R213). -/
def execSra (t : TwigId) (gu : PReg) (gd gs : GReg) (z : BitVec 4) (gt : GReg) (s : State) : Out :=
  .next (aluRun (.sra t gu gd gs z gt) t gu (form2 [gs, gt] (z != 0)) gd (fun w => sra64 (w.reg gs) (amt7 (w.reg gt))) s)

/-- ROT (R208, R213). -/
def execRot (t : TwigId) (gu : PReg) (gd gs : GReg) (z : BitVec 4) (gt : GReg) (s : State) : Out :=
  .next (aluRun (.rot t gu gd gs z gt) t gu (form2 [gs, gt] (z != 0)) gd (fun w => rot64 (w.reg gs) (amt7 (w.reg gt))) s)

/-- SHLI (R208, R213). -/
def execShli (t : TwigId) (gu : PReg) (gd gs : GReg) (z : BitVec 1) (amt : BitVec 7) (s : State) : Out :=
  .next (aluRun (.shli t gu gd gs z amt) t gu (form2 [gs] (z != 0)) gd (fun w => shl64 (w.reg gs) amt.toNat) s)

/-- SHRI (R208, R213). -/
def execShri (t : TwigId) (gu : PReg) (gd gs : GReg) (z : BitVec 1) (amt : BitVec 7) (s : State) : Out :=
  .next (aluRun (.shri t gu gd gs z amt) t gu (form2 [gs] (z != 0)) gd (fun w => shr64 (w.reg gs) amt.toNat) s)

/-- SRAI (R208, R213). -/
def execSrai (t : TwigId) (gu : PReg) (gd gs : GReg) (z : BitVec 1) (amt : BitVec 7) (s : State) : Out :=
  .next (aluRun (.srai t gu gd gs z amt) t gu (form2 [gs] (z != 0)) gd (fun w => sra64 (w.reg gs) amt.toNat) s)

/-- ROTI (R208, R213). -/
def execRoti (t : TwigId) (gu : PReg) (gd gs : GReg) (z : BitVec 1) (amt : BitVec 7) (s : State) : Out :=
  .next (aluRun (.roti t gu gd gs z amt) t gu (form2 [gs] (z != 0)) gd (fun w => rot64 (w.reg gs) amt.toNat) s)

/-- ANDI (R204, R208). -/
def execAndi (t : TwigId) (gu : PReg) (gd gs : GReg) (imm : BitVec 8) (s : State) : Out :=
  .next (aluRun (.andi t gu gd gs imm) t gu { form2 [gs] false with pfx := true } gd (fun w => w.reg gs &&& w.imm true 8 imm.toNat) s)

/-- ORI (R204, R208). -/
def execOri (t : TwigId) (gu : PReg) (gd gs : GReg) (imm : BitVec 8) (s : State) : Out :=
  .next (aluRun (.ori t gu gd gs imm) t gu { form2 [gs] false with pfx := true } gd (fun w => w.reg gs ||| w.imm true 8 imm.toNat) s)

/-- XORI (R204, R208). -/
def execXori (t : TwigId) (gu : PReg) (gd gs : GReg) (imm : BitVec 8) (s : State) : Out :=
  .next (aluRun (.xori t gu gd gs imm) t gu { form2 [gs] false with pfx := true } gd (fun w => w.reg gs ^^^ w.imm true 8 imm.toNat) s)

/-- POPC (R208, R213). -/
def execPopc (t : TwigId) (gu : PReg) (gd gs : GReg) (z : BitVec 8) (s : State) : Out :=
  .next (aluRun (.popc t gu gd gs z) t gu (form2 [gs] (z != 0)) gd (fun w => BitVec.ofNat 64 (popCount 64 (w.reg gs).toNat)) s)

/-- CLZ (R208, R213). -/
def execClz (t : TwigId) (gu : PReg) (gd gs : GReg) (z : BitVec 8) (s : State) : Out :=
  .next (aluRun (.clz t gu gd gs z) t gu (form2 [gs] (z != 0)) gd (fun w => BitVec.ofNat 64 (leadZeros 64 (w.reg gs).toNat)) s)

/-- PNOT (R207). -/
def execPnot (t : TwigId) (gu : PReg) (pd ps : PReg) (s : State) : Out :=
  .next (runTwig (.pnot t gu pd ps) t gu (form1 []) (fun s => .done (s.modTwig t fun w => w.setPred pd (!w.predBit ps)) false false) s)

/-- PMOV (R207). -/
def execPmov (t : TwigId) (gu : PReg) (pd ps : PReg) (s : State) : Out :=
  .next (runTwig (.pmov t gu pd ps) t gu (form1 []) (fun s => .done (s.modTwig t fun w => w.setPred pd (w.predBit ps)) false false) s)

/-- NOP (R207): falls through with no other effect. -/
def execNop (t : TwigId) (gu : PReg) (s : State) : Out :=
  .next (runTwig (.nop t gu) t gu { form1 [] with rep := false } (fun s => .done s false false) s)

/-- The condition of a CMP (R209, R214). -/
def cmpCond (cc : BitVec 3) (x y : Word) : Bool :=
  match cc.toNat with
  | 0 => x == y
  | 1 => x != y
  | 2 => x.slt y
  | 3 => !x.slt y
  | 4 => x.ult y
  | 5 => !x.ult y
  | 6 => x &&& y != 0
  | _ => x &&& y == 0

/-- What a CMP writes to Pd under MODE (R209). -/
def cmpMode (md : BitVec 2) (old c : Bool) : Bool :=
  match md.toNat with
  | 0 => c
  | 1 => old && c
  | _ => old || c

/-- CMP (R209, R212, R214). In the immediate form the head's Gt field and otherwise IMM6 must be 0. -/
def execCmp (t : TwigId) (gu : PReg) (gs gt : GReg) (cc : BitVec 3) (pd : PReg) (md : BitVec 2) (im : Bool) (imm : BitVec 6)
    (s : State) : Out :=
  .next (runTwig (.cmp t gu gs gt cc pd md im imm) t gu
    { words := 2, pfx := im, rep := true, reads := if im then [gs] else [gs, gt],
      bad := md == 3 || (if im then gt != 0 else imm != 0) }
    (fun s =>
      let w := s.twig t
      let y := if im then w.imm true 6 imm.toNat else w.reg gt
      .done (s.modTwig t fun w => w.setPred pd (cmpMode md (w.predBit pd) (cmpCond cc (w.reg gs) y))) false false) s)

/-- PFX (R204, R205): its payload joins the prefixes of the next instruction; a seventh raises ILLEGAL. The guard that governs it is known
only with the instruction that it prefixes: the seventh raises ILLEGAL whatever that guard holds, unless a REP with a false guard skips it.
DESIGN CHOICE: log entry 153. -/
def execPfx (t : TwigId) (payload : BitVec 10) (s : State) : Out :=
  .next (twigBegin (.pfx t payload) t s fun s =>
    let w := s.twig t
    match w.block with
    | some blk => s.blockBroken t (.pfx t payload) blk
    | none =>
      if decide (6 ≤ w.pfx.length) && !w.repSkips then s.faultAt t (.pfx t payload) s .illegal 0
      else s.modTwig t fun w => { w with pfx := w.pfx ++ [payload] })

/-! ### Control registers (R215, R216) -/

/-- The bits of VCSR that hold state (R124). -/
def vcsrMask : Word := 0x1f1f1f
/-- The bits of TSBP that hold state (R242). -/
def tsbpMask : Word := BitVec.ofNat 64 (0xfffffffffe00 + 7)

/-- SELF (R215). -/
def State.selfWord (s : State) : TwigId → Word
  | .bough b => packWord [(0, 8, b.val), (8, 6, ((s.boughPlot b.val).map (·.plot)).getD 0)]
  | .crown k => packWord [(0, 8, k.val), (14, 1, 1)]

/-- The value that MFC reads. -/
def State.readCtl (s : State) (t : TwigId) (n : Fin 16) : Word :=
  let w := s.twig t
  match n.val with
  | 0 => w.vcsr
  | 1 => w.tsbp
  | 2 => w.rc
  | 3 => w.lc0
  | 4 => w.ls0.zeroExtend 64
  | 5 => w.le0.zeroExtend 64
  | 6 => w.lc1
  | 7 => w.ls1.zeroExtend 64
  | 8 => w.le1.zeroExtend 64
  | 9 => BitVec.ofNat 64 w.vl
  | 10 => (w.pred ||| 1).zeroExtend 64
  | 11 => s.ring.tick
  | 12 => BitVec.ofNat 64 w.shadow.length
  | _ => s.selfWord t

/-- MFC (R215): VCSR waits for every earlier vector instruction (R29), VL while it is pending (R109). -/
def execMfc (t : TwigId) (gu : PReg) (gd : GReg) (zh z : BitVec 4) (n : Fin 16) (s : State) : Out :=
  .next (runTwig (.mfc t gu gd zh z n) t gu (form2 [] (zh != 0 || z != 0 || decide (14 ≤ n.val)))
    (fun s => s.waitFor t (fun y => if n = 0 then !y.issued.isEmpty else n == 9 && y.vlPending)
      (.done (s.setG t gd (s.readCtl t n)) false false)) s)

/-- The twig after MTC writes control register n (R215, R216). -/
def Twig.writeCtl (w : Twig) (n : Fin 16) (v : Word) : Twig :=
  match n.val with
  | 0 => { w with vcsr := v &&& vcsrMask }
  | 1 => { w with tsbp := v &&& tsbpMask }
  | 2 => { w with rc := v }
  | 3 => { w with lc0 := v }
  | 4 => { w with ls0 := v.truncate 20 }
  | 5 => { w with le0 := v.truncate 20 }
  | 6 => { w with lc1 := v }
  | 7 => { w with ls1 := v.truncate 20 }
  | 8 => { w with le1 := v.truncate 20 }
  | 10 => { w with pred := v.truncate 4 ||| 1 }
  | _ => w

/-- A write of TSBP that leaves VALID 0 holds a vector fault that waits (R256). -/
def State.markHeld (s : State) : TwigId → State
  | .bough b => s.modBough b Bough.markHeld
  | .crown _ => s

/-- MTC (R216): VCSR waits first (R125); RC is no REP target (R225). -/
def execMtc (t : TwigId) (gu : PReg) (zh : BitVec 4) (gs : GReg) (z : BitVec 4) (n : Fin 16) (s : State) : Out :=
  .next (runTwig (.mtc t gu zh gs z n) t gu
    { words := 2, pfx := false, rep := n != 2, reads := [gs],
      bad := zh != 0 || z != 0 || n == 9 || decide (11 ≤ n.val) }
    (fun s => s.waitFor t (fun y => n == 0 && !y.issued.isEmpty)
      (.done ((s.modTwig t fun w => w.writeCtl n (w.reg gs)).markHeld t) (decide (3 ≤ n.val) && decide (n.val ≤ 5))
        (decide (6 ≤ n.val) && decide (n.val ≤ 8)))) s)

end Sys2Proof.Machine
end

