-- ==== Sys2Proof/Machine/TwigFlow.lean ====
section
/-! DEFINITION. The twig's transfers, hardware loops, REP, program-store access and control instructions (R217-R226,
R233, R234, R236, R249-R251, R255). -/

namespace Sys2Proof.Machine

/-- Whether a transfer target, as computed in 64 bits, lies in the region (R217). -/
def State.inRegion (s : State) (t : TwigId) (x : Word) : Bool := decide (x.toNat < s.regionLen t)

/-- A transfer to a computed target (R217). -/
def State.transfer (s : State) (t : TwigId) (x : Word) : Act :=
  if s.inRegion t x then .jump s (x.truncate 20) else .fault .access x

/-- The word address of the head word of the instruction under way. DEDUCED: log entry 130. -/
def Twig.head (w : Twig) : WordAddr := w.pc + BitVec.ofNat 20 w.pfx.length

def flow1 (reads : List GReg) (pfx : Bool) : TwigForm := { words := 1, pfx := pfx, rep := false, reads := reads, bad := false }

/-- JMPR (R207, R217). -/
def execJmpr (t : TwigId) (gu : PReg) (gs : GReg) (s : State) : Out :=
  .next (runTwig (.jmpr t gu gs) t gu (flow1 [gs] false) (fun s => s.transfer t ((s.twig t).reg gs)) s)

/-- BR (R217). -/
def execBr (t : TwigId) (gu : PReg) (off : BitVec 8) (s : State) : Out :=
  .next (runTwig (.br t gu off) t gu (flow1 [] true)
    (fun s =>
      let w := s.twig t
      s.transfer t (w.head.zeroExtend 64 + w.imm true 8 off.toNat)) s)

/-- The data stack is valid for a push (R218). A crown core has no scratchpad window: its bounds are those of crown RAM, where crown firmware
keeps its data (R231). DEDUCED: log entry 152. -/
def pushOk (t : TwigId) (sp : Word) : Bool :=
  sp.toNat % 8 == 0 && decide (ownBase t + 8 ≤ sp.toNat) && decide (sp.toNat ≤ ownBase t + ownSize t)

/-- The data stack is valid for a pop (R219). -/
def popOk (t : TwigId) (sp : Word) : Bool :=
  sp.toNat % 8 == 0 && decide (ownBase t ≤ sp.toNat) && decide (sp.toNat + 8 ≤ ownBase t + ownSize t)

/-- CALL and CALLR once the target is known (R218): the checks in order, then the push, a twig store, and the transfer. -/
def State.callTo (s : State) (t : TwigId) (target : Word) : Act :=
  let w := s.twig t
  let ra : WordAddr := w.head + 1
  let sp := w.reg 15
  if !pushOk t sp then .fault .stack sp
  else if w.shadow.length ≥ 1024 then .fault .shadowFull (ra.zeroExtend 64)
  else if !s.inRegion t target then .fault .access target
  else
    s.waitFor t (fun y => y.storeWaits (sp - 8).toNat 8) <|
      match s.putStore t (sp - 8).toNat (wordBytes 8 ra.toNat) with
      | some s => .jump (s.modTwig t fun w => { w.setReg 15 (sp - 8) with shadow := ra :: w.shadow }) (target.truncate 20)
      | none => .stall .plain

/-- CALL (R217, R218). -/
def execCall (t : TwigId) (gu : PReg) (off : BitVec 8) (s : State) : Out :=
  .next (runTwig (.call t gu off) t gu (flow1 [15] true)
    (fun s =>
      let w := s.twig t
      s.callTo t (w.head.zeroExtend 64 + w.imm true 8 off.toNat)) s)

/-- CALLR (R207, R218). -/
def execCallr (t : TwigId) (gu : PReg) (gs : GReg) (s : State) : Out :=
  .next (runTwig (.callr t gu gs) t gu (flow1 [15, gs] false) (fun s => s.callTo t ((s.twig t).reg gs)) s)

/-- RET (R219): the word at G15 is loaded as a twig load is. -/
def execRet (t : TwigId) (gu : PReg) (s : State) : Out :=
  .next (runTwig (.ret t gu) t gu (flow1 [15] false)
    (fun s =>
      let w := s.twig t
      let sp := w.reg 15
      if !popOk t sp then .fault .stack sp
      else
        s.waitFor t (fun y => y.loadWaits sp.toNat 8) <|
          if s.ownReadWaits t sp.toNat 8 then .stall .load
          else if s.mem.badByte sp.toNat then .faultIn (s.ownRead t sp.toNat 8) .poison sp
          else
            let ra := s.mem.readWord sp.toNat
            let s := s.ownRead t sp.toNat 8
            match w.shadow with
            | top :: rest =>
              if ra = top.zeroExtend 64 then
                .jump (s.modTwig t fun w => { w.setReg 15 (sp + 8) with shadow := rest }) top
              else .faultIn s .cfi ra
            | [] => .faultIn s .cfi ra) s)

/-! ### Hardware loops (R221) -/

/-- Sets up loop n: `done` falls into the body, a count of 0 transfers to the loop end. -/
def State.setLoop (s : State) (t : TwigId) (n : Fin 2) (count : Word) (fin : BitVec 14) : Act :=
  let ls : WordAddr := (s.twig t).head + 2
  let le : WordAddr := ls + fin.zeroExtend 20
  let s := s.modTwig t fun w =>
    if n = 0 then { w with lc0 := count, ls0 := ls, le0 := le } else { w with lc1 := count, ls1 := ls, le1 := le }
  if count = 0 then .jump s le else .done s (n == 0) (n == 1)

/-- LOOP (R211, R212, R221). -/
def execLoop (t : TwigId) (gu : PReg) (z : BitVec 1) (n : Fin 2) (gc : GReg) (fin : BitVec 14) (s : State) : Out :=
  .next (runTwig (.loop t gu z n gc fin) t gu
    { words := 2, pfx := false, rep := false, reads := [gc], bad := z != 0 || fin == 0 }
    (fun s => s.setLoop t n ((s.twig t).reg gc) fin) s)

/-- LOOPI (R204, R211, R212, R221). -/
def execLoopi (t : TwigId) (gu : PReg) (z : BitVec 1) (n : Fin 2) (count : BitVec 4) (fin : BitVec 14) (s : State) : Out :=
  .next (runTwig (.loopi t gu z n count fin) t gu
    { words := 2, pfx := true, rep := false, reads := [], bad := z != 0 || fin == 0 }
    (fun s => s.setLoop t n ((s.twig t).imm false 4 count.toNat) fin) s)

/-! ### REP (R224-R226) -/

/-- REP and REPI: the count is latched into RC, and PC stays at the REP word. A false guard skips the REP and its target. With the repeat
state active, the REP has been decoded before and the count in RC continues (R226). DEDUCED: log entry 129. -/
def runRep (i : Instr) (t : TwigId) (gu : PReg) (pfx : Bool) (bad : Bool) (reads : List GReg) (count : Twig → Word) (s : State) : State :=
  twigBegin i t s fun s =>
    let w := s.twig t
    match w.block with
    | some blk => s.blockBroken t i blk
    | none =>
      let len := w.pfx.length + 1
      if w.repSkips then s.modTwig t fun w => w.finish 1 false false
      else if w.rep.isSome then s.faultAt t i (s.modTwig t Twig.unlatched) .illegalRep 0
      else if w.repActive then s.modTwig t fun w => { w with pfx := [], repActive := false, rep := some { len := len, old := none, skip := false } }
      else if !w.predBit gu then
        s.modTwig t fun w => { w with pfx := [], rep := some { len := len, old := none, skip := true } }
      else if bad || (!pfx && !w.pfx.isEmpty) then s.faultAt t i s .illegal 0
      else
        s.act t i 1 <|
          s.waitReads t reads <|
            .hold (s.modTwig t fun w => { w with pfx := [], rc := count w, rep := some { len := len, old := some w.rc, skip := false } })

/-- REP (R211, R224). DEDUCED: log entry 129. -/
def execRep (t : TwigId) (gu : PReg) (z : BitVec 2) (gc : GReg) (s : State) : Out :=
  .next (runRep (.rep t gu z gc) t gu false (z != 0) [gc] (fun w => w.reg gc) s)

/-- REPI (R204, R211, R224). -/
def execRepi (t : TwigId) (gu : PReg) (z : BitVec 2) (count : BitVec 4) (s : State) : Out :=
  .next (runRep (.repi t gu z count) t gu true (z != 0) [] (fun w => w.imm false 4 count.toNat) s)

/-! ### ISYNC, WFI, HALT -/

/-- ISYNC (R234): the line buffer and every stale line go. -/
def execIsync (t : TwigId) (gu : PReg) (s : State) : Out :=
  .next (runTwig (.isync t gu) t gu (flow1 [] false)
    (fun s => .done (s.modTwig t fun w => { w with lineBuf := none, icache := w.icache.filter fun c => !c.stale }) false false) s)

/-- WFI (R207, R255): completes when a source is pending and enabled or a vector fault waits. DESIGN CHOICE: log entry 14. -/
def execWfi (t : TwigId) (gu : PReg) (s : State) : Out :=
  .next (runTwig (.wfi t gu) t gu (flow1 [] false)
    (fun s =>
      let fault := match t with
        | .bough b => (s.bough b).vfault.isSome
        | .crown _ => false
      if fault || !(s.sources t).isEmpty then .done s false false else .stall .plain) s)

/-- HALT (R236): PRIVILEGE on a bough's twig; a crown core stops until it is restarted. -/
def execHalt (t : TwigId) (gu : PReg) (s : State) : Out :=
  .next (runTwig (.halt t gu) t gu (flow1 [] false)
    (fun s => match t with
      | .bough _ => .fault .privilege 0
      | .crown k =>
        .done { (s.modTwig t fun w => { w with run := .halted }) with
          crn := { (s.modTwig t fun w => { w with run := .halted }).crn with haltBits := s.crn.haltBits ||| BitVec.ofNat 4 (2 ^ k.val) } }
          false false) s)

/-! ### Program store access (R233, R234) -/

/-- PMR (R233): its line is checked, counted and recorded as a fetch's is (R45). -/
def execPmr (t : TwigId) (gu : PReg) (gd gs : GReg) (z : BitVec 8) (s : State) : Out :=
  .next (runTwig (.pmr t gu gd gs z) t gu { words := 2, pfx := false, rep := true, reads := [gs], bad := z != 0 }
    (fun s =>
      let x := (s.twig t).reg gs
      if !s.inRegion t x then .fault .access x
      else
        let a := s.progAddr t x.toNat
        let s := s.countProg t a
        if s.mem.badLine a then .faultIn s .poison x
        else .done (s.setG t gd (BitVec.ofNat 64 (s.mem.readProg a))) false false) s)

/-- Marks stale every cached copy of a line in the twigs that fetch from the same store (R234). -/
def Twig.markStale (w : Twig) (line : Nat) : Twig :=
  let f (c : CLine) : CLine := if c.line = line then { c with stale := true } else c
  { w with icache := w.icache.map f, lineBuf := w.lineBuf.map f }

def State.markStale (s : State) (t : TwigId) (line : Nat) : State :=
  match t with
  | .bough b =>
    { s with boughs := s.boughs.mapFinIdx fun i y _ => if i / 16 = b.val / 16 then { y with twig := y.twig.markStale line } else y }
  | .crown _ => { s with crn := { s.crn with cores := s.crn.cores.map fun w => w.markStale line } }

/-- Whether the active image marks the twig's program region read-only. -/
def State.regionRo (s : State) : TwigId → Bool
  | .bough b => ((s.boughPlot b.val).map (·.progRo)).getD true
  | .crown _ => false

/-- PMW (R233, R234, R45). The word after its second word is fetched before the write, so that it executes its old contents. -/
def execPmw (t : TwigId) (gu : PReg) (zh : BitVec 4) (gs : GReg) (z : BitVec 4) (gt : GReg) (s : State) : Out :=
  .next (runTwig (.pmw t gu zh gs z gt) t gu { words := 2, pfx := false, rep := false, reads := [gs, gt], bad := zh != 0 || z != 0 }
    (fun s =>
      let w := s.twig t
      let x := w.reg gs
      if !s.inRegion t x || s.regionRo t then .fault .access x
      else
        let a := s.progAddr t x.toNat
        let s := (s.fetchWords t 3).countProg t a
        .done ((s.modMem fun m => m.writeLine a (atAddr a (wordBytes 2 ((w.reg gt).toNat % 2 ^ 14)))).markStale t (s.progLine t x.toNat))
          false false) s)

/-! ### RESUME (R249-R251, R567) -/

/-- The words of the TSB that RESUME reads: the restored ones, and the header and the entries below the held count when
it acts on the saved queue. -/
def resumeReads (acts : Bool) (n : Nat) : List Nat :=
  [0, 4, 5, 6, 7, 8, 9, 10, 11, 12, 13, 14] ++ (List.range 16).map (· + 16) ++
    (if acts then 32 :: (List.range (min 8 n)).map (· + 33) else [])

/-- An entry with the control fields of its entry word (R248). -/
def QEntry.withControls (e : QEntry) (w : Word) : QEntry :=
  { e with rm := BitVec.ofNat 2 (fieldAt w 24 2), ftz := w.getLsbD 26, daz := w.getLsbD 27, en := BitVec.ofNat 5 (fieldAt w 28 5) }

/-- The saved entries with the controls of their words: a block takes them from its member at BLOCK_POS 0 (R249). Entries after the eighth
have no word and keep theirs. DESIGN CHOICE: log entry 148. -/
def returnEntries (es : List QEntry) (ws : Nat → Word) : List QEntry :=
  (List.range es.length).filterMap fun i => match es[i]? with
    | some e =>
      let j := if e.inBlock then i - e.pos else i
      some (if j < 8 then e.withControls (ws j) else e)
    | none => none

/-- Whether a RESUME with this TSBP acts on the saved queue (R567). -/
def State.resumeActs (s : State) (t : TwigId) : Bool :=
  match t with
  | .bough b => match (s.bough b).saved with
    | some q => (s.bough b).vfault.isNone && q.base == BitVec.ofNat 64 (tsbBase (s.twig t).tsbp)
    | none => false
  | .crown _ => false

/-- The twig that RESUME restores from the TSB words (R246, R249). -/
def Twig.resumed (w : Twig) (ws : Nat → Word) : Twig :=
  { w with
    g := Vector.ofFn fun i : Fin 16 => ws (16 + i.val)
    pred := (ws 4).truncate 4 ||| 1
    vl := (ws 5).toNat
    vcsr := (ws 6 &&& 0x1f001f) ||| ((w.vcsr ||| ws 6) &&& 0x1f00)
    rc := ws 7
    lc0 := ws 8, ls0 := (ws 9).truncate 20, le0 := (ws 10).truncate 20
    lc1 := ws 11, ls1 := (ws 12).truncate 20, le1 := (ws 13).truncate 20
    repActive := (ws 14).getLsbD 0
    past := false
    tsbp := w.tsbp ||| 1 }

/-- RESUME (R249, R250, R567). Its reads of the TSB are reads of the twig's own storage: they wait as those do (R151), and are checked. -/
def execResume (t : TwigId) (gu : PReg) (s : State) : Out :=
  .next (runTwig (.resume t gu) t gu (flow1 [] false)
    (fun s =>
      let w := s.twig t
      let base := tsbBase w.tsbp
      let acts := s.resumeActs t
      let held := match t with
        | .bough b => (s.bough b).savedEntries
        | .crown _ => []
      let ws (i : Nat) : Word := s.mem.readWord (base + 8 * i)
      let reads := resumeReads acts held.length
      if !tsbInOwn t w.tsbp then .fault .illegal 0
      else if s.ownReadWaits t base 328 then .stall .load
      else
        let r := (reads.foldl (fun s i => s.observe (base + 8 * i) 8 false) s).meterTsb t
        if !s.mem.badByte (base + 40) && decide ((ws 5).toNat > 32768) then .faultIn r .illegal 0
        else
          match reads.find? fun i => s.mem.badByte (base + 8 * i) with
          | some i => .faultIn r .poison (BitVec.ofNat 64 (base + 8 * i))
          | none =>
            let s := r.modTwig t fun w => w.resumed ws
            let s := match t with
              | .bough b =>
                if acts then s.modBough b fun y =>
                  { y with saved := none, iq := (if (ws 32).getLsbD 8 then [] else returnEntries held fun i => ws (33 + i)) ++ y.iq }
                else s
              | .crown _ => s
            .jump s ((ws 0).truncate 20)) s)

end Sys2Proof.Machine
end

