-- ==== Sys2Proof/Machine/TwigQueue.lean ====
section
/-! DEFINITION. The twig's queue commands (R235, R344-R349, R352). -/

namespace Sys2Proof.Machine

/-- The fault address of a queue command (R344, R352). -/
def queueAddr (q idx : Nat) : Word := BitVec.ofNat 64 (0x8000000000000000 + q + idx * 0x400)

/-- Whether a twig holds a role: its bough, or the crown for a crown core. -/
def twigRole (t : TwigId) (r : Option QRole) : Bool :=
  match t with
  | .bough b => r == some (.bough b.val)
  | .crown _ => r == some .crown

/-- Which role a command needs (R344). -/
inductive Need where
  | prod | cons | either
  deriving DecidableEq, Repr

def State.hasRole (s : State) (t : TwigId) (q : Nat) : Need → Bool
  | .prod => twigRole t (s.prodOf q)
  | .cons => twigRole t (s.consOf q)
  | .either => twigRole t (s.prodOf q) || twigRole t (s.consOf q)

/-- A queue command: role check first (R344), then its action on queue q. No REP target (R225). -/
def queueRun (i : Instr) (t : TwigId) (gu : PReg) (gs : GReg) (z : BitVec 4) (gt : GReg) (need : Need)
    (eff : QueueId → State → Act) (s : State) : State :=
  runTwig i t gu { words := 2, pfx := false, rep := false, reads := [gs, gt], bad := z != 0 }
    (fun s =>
      let x := (s.twig t).reg gs
      let q : QueueId := ⟨x.toNat % 1024, Nat.mod_lt _ (by decide)⟩
      if decide (1024 ≤ x.toNat) || !s.hasRole t q.val need then .fault .access (queueAddr q.val 0)
      else eff q s) s

/-- Writes a status to Gd. -/
def stat (t : TwigId) (gd : GReg) (k : Nat) (s : State) : Act := .done (s.setG t gd (BitVec.ofNat 64 k)) false false

/-- Waits while a vector instruction uses the queue (R349). -/
def queueWait (t : TwigId) (q : QueueId) (s : State) (k : Act) : Act := s.waitFor t (fun y => y.queueWaits q) k

/-- QOPEN (R345, R346): waits for C + 1 credits. -/
def execQopen (t : TwigId) (gu : PReg) (gd gs : GReg) (z : BitVec 4) (gt : GReg) (s : State) : Out :=
  .next (queueRun (.qopen t gu gd gs z gt) t gu gs z gt .prod
    (fun q s =>
      let c := fieldAt ((s.twig t).reg gt) 0 13
      let x := s.queues[q]
      if x.prod.isSome then stat t gd qAlreadyOpen s
      else if decide (4096 < c) || decide (s.ringWords q < c + 1) then stat t gd qTooBig s
      else if x.credits < c + 1 then .stall .plain
      else stat t gd qOk (s.qOpen q c)) s)

/-- The next state of the queue after a word is appended (R345). -/
def Queue.append (x : Queue) (w : QWord) : Queue := { x with prod := x.prod.map fun o => { o with words := o.words ++ [w] } }

/-- QPUT (R345, R346). -/
def execQput (t : TwigId) (gu : PReg) (gd gs : GReg) (z : BitVec 4) (gt : GReg) (s : State) : Out :=
  .next (queueRun (.qput t gu gd gs z gt) t gu gs z gt .prod
    (fun q s => queueWait t q s <|
      let x := s.queues[q]
      match x.prod with
      | none => stat t gd (if x.prodVoid then qVoid else qNotOpen) s
      | some o =>
        if o.cap ≤ o.words.length then stat t gd qFull s
        else stat t gd qOk (s.modQueue q fun x => x.append (qword ((s.twig t).reg gt) false))) s)

/-- Whether a twig's closes may not use TYPE 0x80 and above (R341). -/
def typeBarred (t : TwigId) (typ : Nat) : Bool :=
  match t with
  | .bough _ => decide (0x80 ≤ typ)
  | .crown _ => false

/-- QCLOSE (R167, R345, R346): a release, so it waits as a FENCE does. -/
def execQclose (t : TwigId) (gu : PReg) (gd gs : GReg) (z : BitVec 4) (gt : GReg) (s : State) : Out :=
  .next (queueRun (.qclose t gu gd gs z gt) t gu gs z gt .prod
    (fun q s =>
      s.waitFor t (fun y => !y.issued.isEmpty) <|
        if !(s.twig t).stores.isEmpty then .stall .plain
        else
          let x := s.queues[q]
          let w := (s.twig t).reg gt
          match x.prod with
          | none => stat t gd (if x.prodVoid then qVoid else qNotOpen) s
          | some _ =>
            if typeBarred t (fieldAt w 16 8) then stat t gd qBadType s
            else stat t gd qOk (s.qClose q (BitVec.ofNat 8 (fieldAt w 16 8)) (BitVec.ofNat 32 (fieldAt w 32 32)))) s)

/-- QTAKE (R167, R345): waits for a packet; with one already open it returns that one's length word. -/
def execQtake (t : TwigId) (gu : PReg) (gd gs : GReg) (z : BitVec 4) (gt : GReg) (s : State) : Out :=
  .next (queueRun (.qtake t gu gd gs z gt) t gu gs z gt .cons
    (fun q s => queueWait t q s <|
      let x := s.queues[q]
      match x.cons, x.pending with
      | some o, _ => .done (s.setG t gd o.pkt.lengthWord) false false
      | none, p :: _ => .done ((s.qTake q).setG t gd p.lengthWord) false false
      | none, [] => .stall .plain) s)

/-- QGET (R345, R352). -/
def execQget (t : TwigId) (gu : PReg) (gd gs : GReg) (z : BitVec 4) (gt : GReg) (s : State) : Out :=
  .next (queueRun (.qget t gu gd gs z gt) t gu gs z gt .cons
    (fun q s => queueWait t q s <|
      match s.queues[q].cons with
      | none => stat t gd 0 s
      | some o =>
        match o.pkt.words[o.pos]? with
        | none => stat t gd 0 s
        | some w =>
          let s := if w.parity != parityOf w.w then s.parityFail q (s.storeSlot q o o.pos) false else s
          if w.bad then .faultIn s .poison (queueAddr q.val o.pos)
          else .done ((s.modQueue q fun x => { x with cons := x.cons.map fun o => { o with pos := o.pos + 1 } }).setG t gd w.w) false false) s)

/-- QDONE (R343, R345, R346): it keeps program order with the twig's stores. -/
def execQdone (t : TwigId) (gu : PReg) (gd gs : GReg) (z : BitVec 4) (gt : GReg) (s : State) : Out :=
  .next (queueRun (.qdone t gu gd gs z gt) t gu gs z gt .cons
    (fun q s => queueWait t q s <|
      if !(s.twig t).stores.isEmpty then .stall .plain
      else
        let x := s.queues[q]
        match x.cons with
        | none => stat t gd (if x.consVoid then qVoid else qNotOpen) s
        | some _ => stat t gd qOk (s.qDone q)) s)

/-- QSTAT (R345, R347). -/
def execQstat (t : TwigId) (gu : PReg) (gd gs : GReg) (z : BitVec 4) (gt : GReg) (s : State) : Out :=
  .next (queueRun (.qstat t gu gd gs z gt) t gu gs z gt .either
    (fun q s =>
      .done (s.setG t gd (s.queues[q].statusWord (s.hasRole t q.val .prod) (s.hasRole t q.val .cons) 0)) false false) s)

end Sys2Proof.Machine
end

