-- ==== Sys2Proof/Machine/Vector.lean ====
section
/-! DEFINITION. Vector instructions at the twig (R25-R29, R79-R91, R109, R120): decode checks, entry into the issue
queue, CHAIN blocks, and the control forms SETVL, VWAIT and FENCE. What an instruction computes is in VectorEval. -/

namespace Sys2Proof.Machine

/-- The operation, the source type code and the fields of a three-word vector instruction, and its guard. -/
def vecOf : Instr → Option (VOp × Nat × VFields × PReg)
  | .vadd _ gu f => some (.add, 0, f, gu)
  | .vsub _ gu f => some (.sub, 0, f, gu)
  | .vmin _ gu f => some (.min, 0, f, gu)
  | .vmax _ gu f => some (.max, 0, f, gu)
  | .vabs _ gu f => some (.abs, 0, f, gu)
  | .vneg _ gu f => some (.neg, 0, f, gu)
  | .vcmpEq _ gu f => some (.cmpEq, 0, f, gu)
  | .vcmpNe _ gu f => some (.cmpNe, 0, f, gu)
  | .vcmpLt _ gu f => some (.cmpLt, 0, f, gu)
  | .vcmpLe _ gu f => some (.cmpLe, 0, f, gu)
  | .vcmpGt _ gu f => some (.cmpGt, 0, f, gu)
  | .vcmpGe _ gu f => some (.cmpGe, 0, f, gu)
  | .vcmpUn _ gu f => some (.cmpUn, 0, f, gu)
  | .vmul _ gu f => some (.mul, 0, f, gu)
  | .vfma _ gu f => some (.fma, 0, f, gu)
  | .vfms _ gu f => some (.fms, 0, f, gu)
  | .vdot4 _ gu f => some (.dot4, 0, f, gu)
  | .vcvt _ gu src f => some (.cvt, src.toNat, f, gu)
  | .vand _ gu f => some (.and, 0, f, gu)
  | .vor _ gu f => some (.or, 0, f, gu)
  | .vxor _ gu f => some (.xor, 0, f, gu)
  | .vnot _ gu f => some (.not, 0, f, gu)
  | .vshl _ gu f => some (.shl, 0, f, gu)
  | .vshr _ gu f => some (.shr, 0, f, gu)
  | .vsra _ gu f => some (.sra, 0, f, gu)
  | .vrot _ gu f => some (.rot, 0, f, gu)
  | .vpopc _ gu f => some (.popc, 0, f, gu)
  | .vclz _ gu f => some (.clz, 0, f, gu)
  | .vsel _ gu f => some (.sel, 0, f, gu)
  | .vcopy _ gu f => some (.copy, 0, f, gu)
  | .vfill _ gu f => some (.fill, 0, f, gu)
  | .vgatherf _ gu f => some (.gatherf, 0, f, gu)
  | .vdiv _ gu f => some (.div, 0, f, gu)
  | .vrem _ gu f => some (.rem, 0, f, gu)
  | .vsqrt _ gu f => some (.sqrt, 0, f, gu)
  | .vsum _ gu f => some (.sum, 0, f, gu)
  | .vminr _ gu f => some (.minr, 0, f, gu)
  | .vmaxr _ gu f => some (.maxr, 0, f, gu)
  | .vscan _ gu f => some (.scan, 0, f, gu)
  | .vsegsum _ gu f => some (.segsum, 0, f, gu)
  | .vcompress _ gu f => some (.compress, 0, f, gu)
  | .vexpand _ gu f => some (.expand, 0, f, gu)
  | .vmerge _ gu f => some (.merge, 0, f, gu)
  | .vhashCrc _ gu f => some (.hashCrc, 0, f, gu)
  | .vhashMix _ gu f => some (.hashMix, 0, f, gu)
  | .vbucket _ gu f => some (.bucket, 0, f, gu)
  | _ => none

/-- The vector register that an operand selector names, if it does. -/
def vregOf (sel : Nat) : Option Nat := if 16 ≤ sel ∧ sel < 24 then some (sel - 16) else none

/-- Member m of a block writes this vector register. -/
def VDec.writesV (d : VDec) : Option Nat := if d.op.isCmp then none else vregOf (d.sel 3)
def VDec.readsV (d : VDec) : List Nat := (d.op.operands.filter fun k => k != 3).filterMap fun k => vregOf (d.sel k)

/-- Operand k of member j reads a register that an earlier member writes: a chain link, and the producer (R82). -/
def linkProducer (ds : List VDec) (j k : Nat) : Option Nat :=
  match ds[j]? with
  | none => none
  | some d =>
    if k = 3 then none
    else
      match vregOf (d.sel k) with
      | none => none
      | some r => (List.range j).find? fun m => match ds[m]? with
        | some e => e.writesV == some r
        | none => false

/-- Member j's destination register is a link: a later member reads it (R82). -/
def isLinkDest (ds : List VDec) (j : Nat) : Bool :=
  match ds[j]? with
  | none => false
  | some d => match d.writesV with
    | none => false
    | some r => (ds.drop (j + 1)).any fun e => e.readsV.contains r

/-- The ILLEGAL rules of a block as a whole (R36, R82-R84, R91, R108). The register that no member may read before a later one writes it is
a vector register, of which R82 speaks throughout; a mask or a scalar return register is none. DEDUCED: log entry 156. -/
def blockIllegal (ds : List VDec) : Bool :=
  let js := List.range ds.length
  let pipes := ds.map fun d => d.op.pipe
  let writes := ds.filterMap VDec.writesV
  (pipes.eraseDups.length != pipes.length) || ds.any (fun d => d.op == .gatherf) || (writes.eraseDups.length != writes.length) ||
    (match ds with
     | d :: rest => rest.any fun e => e.f.mask != d.f.mask
     | [] => false) ||
    js.any (fun j => match ds[j]? with
      | none => false
      | some d =>
        ((ds.drop (j + 1)).any fun e => match e.writesV with | some r => d.readsV.contains r | none => false) ||
        ((d.op.pipe == .reduce || d.op.pipe == .permute) && j + 1 != ds.length) ||
        [0, 1, 2].any fun k => d.op.operands.contains k && (match linkProducer ds j k with
          | some m => match ds[m]? with
            | some e => opndTy e.op e.ty e.st 3 != opndTy d.op d.ty d.st k
            | none => false
          | none => false))

/-- Data address generators that a block needs (R84): one for each stream source, tap and final stream. -/
def blockGenerators (ds : List VDec) : Nat := (ds.map fun d => (d.op.operands.filter fun k => d.sel k < 16).length).sum

/-- Bytes that one element index adds to the journal half (R85). -/
def blockBytes (ds : List VDec) : Nat :=
  (ds.map fun d => if !d.op.isCmp && decide (d.sel 3 < 16) then (opndTy d.op d.ty d.st 3).size else 0).sum

/-- The LENGTH checks of a block or a single instruction (R72, R85). -/
def blockLength (vl : Nat) (ds : List VDec) : Bool :=
  (List.range ds.length).any (fun j => match ds[j]? with
    | none => false
    | some d => vecLength vl d fun k => if k = 3 then isLinkDest ds j else (linkProducer ds j k).isSome) ||
    (decide (1 < ds.length) && decide (32768 < vl * blockBytes ds))

/-- Decodes the members; `none` when one holds a reserved code or type. -/
def decodeAll : List (VOp × Nat × VFields) → Option (List VDec)
  | [] => some []
  | x :: xs => match vdec x.1 x.2.1 x.2.2, decodeAll xs with
    | some d, some ds => some (d :: ds)
    | _, _ => none

/-- The G registers that an instruction's fields name as broadcasts, whatever its type (R29, R55). -/
def bcastsOf (x : VOp × Nat × VFields) : List GReg := (VDec.mk x.1 .u8 .u8 x.2.2).bcasts

/-- Entry of n instructions at head word `head` (R27): the waits of R29 and R109, the decode checks, the wait for free entries, the capture.
`guarded`: a member of the block has a guard (R91). A bough that holds a saved queue raises ILLEGAL (R251); behind a held fault it is a
double fault, and a fault that can be taken is taken at the head word (R81, R256). -/
def vecEnter (b : BoughId) (head : WordAddr) (block guarded : Bool) (xs : List (VOp × Nat × VFields)) (s : State) : Act :=
  let y := s.bough b
  match y.vfault with
  | some v => if tsbValid y.twig.tsbp then .stall .plain else .double v.cause
  | none =>
    s.waitFor (.bough b) Bough.vlPending <|
      s.waitReads (.bough b) (xs.flatMap bcastsOf) <|
        match decodeAll xs with
        | none => .fault .illegal 0
        | some ds =>
          if guarded || y.saved.isSome || ds.any (s.vecIllegal b) || (block && (blockIllegal ds || decide (4 < blockGenerators ds))) then .fault .illegal 0
          else if blockLength y.twig.vl ds then .fault .length 0
          else if 8 < y.queued + ds.length then .stall .plain
          else
            let es := (List.range ds.length).filterMap fun j => (ds[j]?).map fun d => y.entry d head j (if block then ds.length else 0)
            .done (s.modBough b fun y => { y with iq := y.iq ++ es, twig := { y.twig with sync := vcsrSync y.twig.vcsr } }) false false

/-- A three-word vector instruction on its own. -/
def vecForm (t : TwigId) : TwigForm :=
  { words := 3, pfx := false, rep := false, reads := [], bad := match t with | .crown _ => true | .bough _ => false }

/-- A vector instruction of one or two words. -/
def ctlForm (t : TwigId) (words : Nat) (reads : List GReg) : TwigForm :=
  { words := words, pfx := false, rep := false, reads := reads, bad := match t with | .crown _ => true | .bough _ => false }

def vecSingle (i : Instr) (t : TwigId) (gu : PReg) (op : VOp) (src : Nat) (f : VFields) (s : State) : State :=
  runTwig i t gu (vecForm t)
    (fun s => match t with
      | .crown _ => .fault .illegal 0
      | .bough b => vecEnter b (s.twig t).pc false false [(op, src, f)] s) s

/-- The n members of a block are decoded: the block enters as one unit, or waits at the CHAIN word (R81). -/
def blockEnter (i : Instr) (t : TwigId) (b : BoughId) (blk : BlockSt) (s : State) : State :=
  let xs := blk.members.filterMap fun j => (vecOf j).map fun x => (x.1, x.2.1, x.2.2.1)
  match vecEnter b (s.twig t).pc true blk.bad xs s with
  | .done s _ _ => (s.modTwig t fun w => { w with block := none }.finish (1 + 3 * blk.n) false false)
  | k => s.act t i (1 + 3 * blk.n) k

/-- A member of the block under way (R80, R91): its guard must be 0b00, and is checked with the block (R27). -/
def vecMember (i : Instr) (t : TwigId) (gu : PReg) (x : VOp × Nat × VFields) (blk : BlockSt) (s : State) : State :=
  match t with
  | .crown _ => s
  | .bough b =>
    if !s.twigReady t then s
    else
      let s := s.fetchWords t 3
      match s.fetchFault t 3 with
      | some (c, a) => s.faultAt t i s c a
      | none =>
        let k : BlockSt := { blk with members := blk.members ++ [i], reads := blk.reads ++ bcastsOf x, bad := blk.bad || gu != 0 }
        if k.members.length < blk.n then s.modTwig t fun w => { w with block := some k }
        else blockEnter i t b k s

/-- A three-word vector instruction (R25-R29, R91). -/
def runVec (i : Instr) (t : TwigId) (gu : PReg) (op : VOp) (src : Nat) (f : VFields) (s : State) : State :=
  match (s.twig t).block with
  | some blk => vecMember i t gu (op, src, f) blk s
  | none => vecSingle i t gu op src f s

/-- VADD enters the issue queue (R26, R27; its result: R100). -/
def execVadd (t : TwigId) (gu : PReg) (f : VFields) (s : State) : Out := .next (runVec (.vadd t gu f) t gu .add 0 f s)

/-- VSUB enters the issue queue (R26, R27; its result: R100). -/
def execVsub (t : TwigId) (gu : PReg) (f : VFields) (s : State) : Out := .next (runVec (.vsub t gu f) t gu .sub 0 f s)

/-- VMIN enters the issue queue (R26, R27; its result: R100). -/
def execVmin (t : TwigId) (gu : PReg) (f : VFields) (s : State) : Out := .next (runVec (.vmin t gu f) t gu .min 0 f s)

/-- VMAX enters the issue queue (R26, R27; its result: R100). -/
def execVmax (t : TwigId) (gu : PReg) (f : VFields) (s : State) : Out := .next (runVec (.vmax t gu f) t gu .max 0 f s)

/-- VABS enters the issue queue (R26, R27; its result: R100). -/
def execVabs (t : TwigId) (gu : PReg) (f : VFields) (s : State) : Out := .next (runVec (.vabs t gu f) t gu .abs 0 f s)

/-- VNEG enters the issue queue (R26, R27; its result: R100). -/
def execVneg (t : TwigId) (gu : PReg) (f : VFields) (s : State) : Out := .next (runVec (.vneg t gu f) t gu .neg 0 f s)

/-- VCMPEQ enters the issue queue (R26, R27; its result: R101). -/
def execVcmpEq (t : TwigId) (gu : PReg) (f : VFields) (s : State) : Out := .next (runVec (.vcmpEq t gu f) t gu .cmpEq 0 f s)

/-- VCMPNE enters the issue queue (R26, R27; its result: R101). -/
def execVcmpNe (t : TwigId) (gu : PReg) (f : VFields) (s : State) : Out := .next (runVec (.vcmpNe t gu f) t gu .cmpNe 0 f s)

/-- VCMPLT enters the issue queue (R26, R27; its result: R101). -/
def execVcmpLt (t : TwigId) (gu : PReg) (f : VFields) (s : State) : Out := .next (runVec (.vcmpLt t gu f) t gu .cmpLt 0 f s)

/-- VCMPLE enters the issue queue (R26, R27; its result: R101). -/
def execVcmpLe (t : TwigId) (gu : PReg) (f : VFields) (s : State) : Out := .next (runVec (.vcmpLe t gu f) t gu .cmpLe 0 f s)

/-- VCMPGT enters the issue queue (R26, R27; its result: R101). -/
def execVcmpGt (t : TwigId) (gu : PReg) (f : VFields) (s : State) : Out := .next (runVec (.vcmpGt t gu f) t gu .cmpGt 0 f s)

/-- VCMPGE enters the issue queue (R26, R27; its result: R101). -/
def execVcmpGe (t : TwigId) (gu : PReg) (f : VFields) (s : State) : Out := .next (runVec (.vcmpGe t gu f) t gu .cmpGe 0 f s)

/-- VCMPUN enters the issue queue (R26, R27; its result: R101). -/
def execVcmpUn (t : TwigId) (gu : PReg) (f : VFields) (s : State) : Out := .next (runVec (.vcmpUn t gu f) t gu .cmpUn 0 f s)

/-- VMUL enters the issue queue (R26, R27; its result: R100). -/
def execVmul (t : TwigId) (gu : PReg) (f : VFields) (s : State) : Out := .next (runVec (.vmul t gu f) t gu .mul 0 f s)

/-- VFMA enters the issue queue (R26, R27; its result: R100). -/
def execVfma (t : TwigId) (gu : PReg) (f : VFields) (s : State) : Out := .next (runVec (.vfma t gu f) t gu .fma 0 f s)

/-- VFMS enters the issue queue (R26, R27; its result: R100). -/
def execVfms (t : TwigId) (gu : PReg) (f : VFields) (s : State) : Out := .next (runVec (.vfms t gu f) t gu .fms 0 f s)

/-- VDOT4 enters the issue queue (R26, R27; its result: R103). -/
def execVdot4 (t : TwigId) (gu : PReg) (f : VFields) (s : State) : Out := .next (runVec (.vdot4 t gu f) t gu .dot4 0 f s)

/-- VCVT enters the issue queue (R26, R27; its result: R102). -/
def execVcvt (t : TwigId) (gu : PReg) (src : BitVec 4) (f : VFields) (s : State) : Out :=
  .next (runVec (.vcvt t gu src f) t gu .cvt src.toNat f s)

/-- VAND enters the issue queue (R26, R27; its result: R104). -/
def execVand (t : TwigId) (gu : PReg) (f : VFields) (s : State) : Out := .next (runVec (.vand t gu f) t gu .and 0 f s)

/-- VOR enters the issue queue (R26, R27; its result: R104). -/
def execVor (t : TwigId) (gu : PReg) (f : VFields) (s : State) : Out := .next (runVec (.vor t gu f) t gu .or 0 f s)

/-- VXOR enters the issue queue (R26, R27; its result: R104). -/
def execVxor (t : TwigId) (gu : PReg) (f : VFields) (s : State) : Out := .next (runVec (.vxor t gu f) t gu .xor 0 f s)

/-- VNOT enters the issue queue (R26, R27; its result: R104). -/
def execVnot (t : TwigId) (gu : PReg) (f : VFields) (s : State) : Out := .next (runVec (.vnot t gu f) t gu .not 0 f s)

/-- VSHL enters the issue queue (R26, R27; its result: R105). -/
def execVshl (t : TwigId) (gu : PReg) (f : VFields) (s : State) : Out := .next (runVec (.vshl t gu f) t gu .shl 0 f s)

/-- VSHR enters the issue queue (R26, R27; its result: R105). -/
def execVshr (t : TwigId) (gu : PReg) (f : VFields) (s : State) : Out := .next (runVec (.vshr t gu f) t gu .shr 0 f s)

/-- VSRA enters the issue queue (R26, R27; its result: R105). -/
def execVsra (t : TwigId) (gu : PReg) (f : VFields) (s : State) : Out := .next (runVec (.vsra t gu f) t gu .sra 0 f s)

/-- VROT enters the issue queue (R26, R27; its result: R105). -/
def execVrot (t : TwigId) (gu : PReg) (f : VFields) (s : State) : Out := .next (runVec (.vrot t gu f) t gu .rot 0 f s)

/-- VPOPC enters the issue queue (R26, R27; its result: R104). -/
def execVpopc (t : TwigId) (gu : PReg) (f : VFields) (s : State) : Out := .next (runVec (.vpopc t gu f) t gu .popc 0 f s)

/-- VCLZ enters the issue queue (R26, R27; its result: R104). -/
def execVclz (t : TwigId) (gu : PReg) (f : VFields) (s : State) : Out := .next (runVec (.vclz t gu f) t gu .clz 0 f s)

/-- VSEL enters the issue queue (R26, R27; its result: R106). -/
def execVsel (t : TwigId) (gu : PReg) (f : VFields) (s : State) : Out := .next (runVec (.vsel t gu f) t gu .sel 0 f s)

/-- VCOPY enters the issue queue (R26, R27; its result: R104). -/
def execVcopy (t : TwigId) (gu : PReg) (f : VFields) (s : State) : Out := .next (runVec (.vcopy t gu f) t gu .copy 0 f s)

/-- VFILL enters the issue queue (R26, R27; its result: R107). -/
def execVfill (t : TwigId) (gu : PReg) (f : VFields) (s : State) : Out := .next (runVec (.vfill t gu f) t gu .fill 0 f s)

/-- VGATHERF enters the issue queue (R26, R27; its result: R108). -/
def execVgatherf (t : TwigId) (gu : PReg) (f : VFields) (s : State) : Out := .next (runVec (.vgatherf t gu f) t gu .gatherf 0 f s)

/-- VDIV enters the issue queue (R26, R27; its result: R100). -/
def execVdiv (t : TwigId) (gu : PReg) (f : VFields) (s : State) : Out := .next (runVec (.vdiv t gu f) t gu .div 0 f s)

/-- VREM enters the issue queue (R26, R27; its result: R100). -/
def execVrem (t : TwigId) (gu : PReg) (f : VFields) (s : State) : Out := .next (runVec (.vrem t gu f) t gu .rem 0 f s)

/-- VSQRT enters the issue queue (R26, R27; its result: R100). -/
def execVsqrt (t : TwigId) (gu : PReg) (f : VFields) (s : State) : Out := .next (runVec (.vsqrt t gu f) t gu .sqrt 0 f s)

/-- VSUM enters the issue queue (R26, R27; its result: R110). -/
def execVsum (t : TwigId) (gu : PReg) (f : VFields) (s : State) : Out := .next (runVec (.vsum t gu f) t gu .sum 0 f s)

/-- VMINR enters the issue queue (R26, R27; its result: R110). -/
def execVminr (t : TwigId) (gu : PReg) (f : VFields) (s : State) : Out := .next (runVec (.vminr t gu f) t gu .minr 0 f s)

/-- VMAXR enters the issue queue (R26, R27; its result: R110). -/
def execVmaxr (t : TwigId) (gu : PReg) (f : VFields) (s : State) : Out := .next (runVec (.vmaxr t gu f) t gu .maxr 0 f s)

/-- VSCAN enters the issue queue (R26, R27; its result: R112). -/
def execVscan (t : TwigId) (gu : PReg) (f : VFields) (s : State) : Out := .next (runVec (.vscan t gu f) t gu .scan 0 f s)

/-- VSEGSUM enters the issue queue (R26, R27; its result: R113). -/
def execVsegsum (t : TwigId) (gu : PReg) (f : VFields) (s : State) : Out := .next (runVec (.vsegsum t gu f) t gu .segsum 0 f s)

/-- VCOMPRESS enters the issue queue (R26, R27; its result: R114). -/
def execVcompress (t : TwigId) (gu : PReg) (f : VFields) (s : State) : Out := .next (runVec (.vcompress t gu f) t gu .compress 0 f s)

/-- VEXPAND enters the issue queue (R26, R27; its result: R115). -/
def execVexpand (t : TwigId) (gu : PReg) (f : VFields) (s : State) : Out := .next (runVec (.vexpand t gu f) t gu .expand 0 f s)

/-- VMERGE enters the issue queue (R26, R27; its result: R116). -/
def execVmerge (t : TwigId) (gu : PReg) (f : VFields) (s : State) : Out := .next (runVec (.vmerge t gu f) t gu .merge 0 f s)

/-- VHASHCRC enters the issue queue (R26, R27; its result: R117). -/
def execVhashCrc (t : TwigId) (gu : PReg) (f : VFields) (s : State) : Out := .next (runVec (.vhashCrc t gu f) t gu .hashCrc 0 f s)

/-- VHASHMIX enters the issue queue (R26, R27; its result: R118). -/
def execVhashMix (t : TwigId) (gu : PReg) (f : VFields) (s : State) : Out := .next (runVec (.vhashMix t gu f) t gu .hashMix 0 f s)

/-- VBUCKET enters the issue queue (R26, R27; its result: R119). -/
def execVbucket (t : TwigId) (gu : PReg) (f : VFields) (s : State) : Out := .next (runVec (.vbucket t gu f) t gu .bucket 0 f s)

/-- CHAIN n (R80, R81, R91, R93): the next n vector instructions are one block. A false guard skips the CHAIN word and 3 x n words. Its
checks come after the wait of R109 (R27). DEDUCED: log entry 154. -/
def execChain (t : TwigId) (gu : PReg) (n : BitVec 4) (s : State) : Out :=
  .next (runTwig (.chain t gu n) t gu { ctlForm t 1 [] with skip := 1 + 3 * n.toNat }
    (fun s => match t with
      | .crown _ => .fault .illegal 0
      | .bough b =>
        s.waitFor t Bough.vlPending <|
          if decide (n.toNat < 2) || decide (4 < n.toNat) || ((s.bough b).vfault.isNone && (s.bough b).saved.isSome) then .fault .illegal 0
          else .hold (s.modTwig t fun w => { w with block := some { n := n.toNat, members := [], reads := [], bad := false } })) s)

/-- VWAIT (R120): waits until every earlier vector instruction has committed or faulted. -/
def execVwait (t : TwigId) (gu : PReg) (s : State) : Out :=
  .next (runTwig (.vwait t gu) t gu (ctlForm t 1 [])
    (fun s => s.waitFor t (fun y => !y.issued.isEmpty) (.done s false false)) s)

/-- FENCE (R120, R166): waits as VWAIT does, and until every earlier store is visible. Loads block, so every earlier
read is performed. R166 lets the crown's twigs obey the same rule; R212 makes every word of major opcode 0xE ILLEGAL on a crown core, so that
a crown core has no FENCE to execute. DESIGN CHOICE: log entry 155. -/
def execFence (t : TwigId) (gu : PReg) (s : State) : Out :=
  .next (runTwig (.fence t gu) t gu (ctlForm t 1 [])
    (fun s => s.waitFor t (fun y => !y.issued.isEmpty)
      (if (s.twig t).stores.isEmpty then .done s false false else .stall .plain)) s)

/-- SETVL (R71, R93, R109): its encoding is checked after its waits, as that of every vector instruction (R27). DEDUCED: log entry 154. -/
def execSetvl (t : TwigId) (gu : PReg) (z : BitVec 2) (gd gs : GReg) (ty : BitVec 4) (s : State) : Out :=
  .next (runTwig (.setvl t gu z gd gs ty) t gu (ctlForm t 2 [gs])
    (fun s => s.waitFor t (fun y => y.vlPending)
      (match if z = 0 then ETy.ofCode ty.toNat else none with
        | none => .fault .illegal 0
        | some ty =>
          let vl := min ((s.twig t).reg gs).toNat ty.vlmax
          .done (s.modTwig t fun w => { w.setReg gd (BitVec.ofNat 64 vl) with vl := vl }) false false)) s)

end Sys2Proof.Machine
end

