-- ==== Sys2Proof/Machine/TwigEvents.lean ====
section
/-! DEFINITION. What completes or releases a twig instruction: load returns and store completions (R228, R229), and the ends of waits (R27,
R29, R81, R157, R255, R343, R345). -/

namespace Sys2Proof.Machine

/-! ### Loads (R228, R229) -/

/-- A register value as the bytes of an access. -/
def regChunk (base a n : Nat) (v : Word) : Chunk :=
  { key := ⟨0, 0, false⟩, base := base, data := wordBytes n (v.toNat / 2 ^ (8 * (a % 8))), poison := [false, false], fault := none }

/-- The bytes [a, a + n) of a chunk that covers them. -/
def Chunk.part (c : Chunk) (a n : Nat) : Chunk :=
  { c with base := a, data := (c.data.drop (a - c.base)).take n, poison := (c.poison.drop (a / 8 - c.base / 8)).take ((a + n - 1) / 8 - a / 8 + 1) }

/-- The bytes [a, a + n) of a program store, as the DPA shows them: bits [15:14] of a word read 0 (R43), and an uncorrectable line is
uncorrectable as a whole (R45). -/
def Memory.progChunk (m : Memory) (a n : Nat) : Chunk :=
  { key := ⟨0, 0, false⟩, base := a,
    data := (List.range n).map fun i => if (a + i) % 2 = 1 then m.read (a + i) &&& 0x3f else m.read (a + i),
    poison := (wordSpan a n).map fun w => m.badLine (8 * w), fault := none }

/-- One part of a load: root slices have answered, everything else is read now. -/
def State.readPart (s : State) (t : TwigId) (l : LoadOp) (p : Nat × Nat) : State × Chunk :=
  match placeOf p.1 with
  | .root _ =>
    let q := loadRequest p.1 p.2
    (s, ((l.got.find? fun c => c.base == q.1).getD (s.mem.chunk q.1 q.2)).part p.1 p.2)
  | .regs off => (s, regChunk p.1 off p.2 ((s.readReg (off / 8 * 8)).getD 0))
  | .pstore g _ => (s.countLine ⟨g % 16, Nat.mod_lt _ (by decide)⟩ p.1, s.mem.progChunk p.1 p.2)
  | _ => s.performRead { tag := 0, who := .twig t, addr := p.1, len := p.2 }

def State.readAll (s : State) (t : TwigId) (l : LoadOp) : List (Nat × Nat) → State × List Chunk
  | [] => (s, [])
  | p :: ps =>
    let a := s.readPart t l p
    let b := a.1.readAll t l ps
    (b.1, a.2 :: b.2)

/-- The part lies at a target whose entries hold its read (R151). -/
def State.partHeld (s : State) (a : Nat) : Bool :=
  match placeOf a with
  | .scratch b _ => s.entryHolds (.scratch (boughId b)) a
  | _ => false

/-- An earlier store of the twig to the scratchpad that the part reads is still on its way there (R300). -/
def State.storeAhead (s : State) (t : TwigId) (a : Nat) : Bool :=
  match placeOf a with
  | .scratch d _ => t != .bough (boughId d) && (s.twig t).stores.any fun x => x.sent && match placeOf x.addr with
      | .scratch e _ => e == d
      | _ => false
  | _ => false

/-- The address of the poison that a load meets: its lowest byte, or the first byte of the lower bad half of a split load (R227, R228). DEDUCED: log entry 123. -/
def loadPoison (cs : List Chunk) : Option Nat :=
  match cs with
  | [c] => c.badAt
  | _ => cs.findSome? fun c => c.badAt.map fun _ => c.base

/-- The bytes of a load as a number. -/
def loadValue (cs : List Chunk) : Nat := bytesNat (cs.flatMap fun c => c.data)

/-- The load completes: Gd takes its value, or POISON is raised. While the TSB is held, the load that raises it does not end (R152, R244). -/
def State.finishLoad (s0 s : State) (t : TwigId) (l : LoadOp) (cs : List Chunk) : State :=
  let s := s.modTwig t fun w => { w with load := none }
  match loadPoison cs with
  | some a => if s.tsbHeld t then s0 else s.twigFault t .poison (BitVec.ofNat 64 a)
  | none => s.modTwig t fun w => (w.setReg l.gd (extendLoad l.size l.signed (loadValue cs))).finish l.words false false

/-- TWIG_LOAD_RETURN (R228, R229): every part of the load is there. -/
def execTwigLoadReturn (t : TwigId) (s : State) : Out :=
  match (s.twig t).load with
  | none => .next s
  | some l =>
    let ps := accessParts l.addr l.size
    if !l.owed.isEmpty || ps.any fun p => s.partHeld p.1 || s.storeAhead t p.1 then .next s
    else
      let r := s.readAll t l ps
      .next (s.finishLoad r.1 t l r.2)

/-! ### Stores (R165, R229) -/

/-- A write to the program store, line by line: a line that is written in part is read for the merge, and that read is counted and recorded
as every read of a line is (R45). DEDUCED: log entry 122. -/
def State.writeLines (s : State) (g : GroveId) (bs : List (Nat × Byte)) : State :=
  ((bs.map fun c => c.1 / 32).eraseDups).foldl (fun s l =>
    let own := bs.filter fun c => c.1 / 32 = l
    (if own.length < 32 then s.countLine g (32 * l) else s).modMem fun m => m.writeLine (32 * l) own) s

/-- A buffered store reaches its target; none while it has not. DEDUCED: log entry 122. DESIGN CHOICE: log entry 165. -/
def State.landStore (s : State) (t : TwigId) (x : StoreOp) : Option State :=
  let n := x.bytes.length
  if !x.sent then none
  else
    match placeOf x.addr with
    | .root _ => if x.visible then some s else none
    | .scratch d _ =>
      if (accessParts x.addr n).any fun p => s.entryCovers (.scratch (boughId d)) p.1 then none
      else
        let s := s.storeBytes (atAddr x.addr x.bytes)
        some (match t with
          | .bough b => s.meterScratch b (boughId d) (accessParts x.addr n).length
          | .crown _ => s)
    | .regs off => some ((s.writeReg true off n (BitVec.ofNat 64 (bytesNat x.bytes))).getD s)
    | .pstore g _ => some (s.writeLines ⟨g % 16, Nat.mod_lt _ (by decide)⟩ (atAddr x.addr x.bytes))
    | _ => some (s.storeBytes (atAddr x.addr x.bytes))

/-- STORE_PERFORMED (R165, R229): the oldest buffered store is performed and its entry is free; the next one goes out. DEDUCED: log entry 131. -/
def execStorePerformed (t : TwigId) (s : State) : Out :=
  match (s.twig t).stores with
  | [] => .next s
  | x :: rest =>
    match (s.modTwig t fun w => { w with stores := rest }).landStore t x with
    | some s => .next (s.issueStore t)
    | none => .next s

/-! ### Ends of waits -/

/-- Carries a waiting instruction of twig t out. A vector instruction enters the issue queue by one operation, whatever it computes. -/
def resumeInstr (t : TwigId) (i : Instr) (s : State) : Out :=
  match vecOf i with
  | some (op, src, f, gu) => .next (runVec i t gu op src f s)
  | none =>
  match i with
  | .nop t gu => execNop t gu s
  | .isync t gu => execIsync t gu s
  | .ret t gu => execRet t gu s
  | .resume t gu => execResume t gu s
  | .wfi t gu => execWfi t gu s
  | .halt t gu => execHalt t gu s
  | .neg t gu gd => execNeg t gu gd s
  | .not t gu gd => execNot t gu gd s
  | .abs t gu gd => execAbs t gu gd s
  | .jmpr t gu gs => execJmpr t gu gs s
  | .callr t gu gs => execCallr t gu gs s
  | .sdadv t gu n => execSdadv t gu n s
  | .pnot t gu pd ps => execPnot t gu pd ps s
  | .pmov t gu pd ps => execPmov t gu pd ps s
  | .mov t gu gd gs => execMov t gu gd gs s
  | .add t gu gd gs => execAdd t gu gd gs s
  | .sub t gu gd gs => execSub t gu gd gs s
  | .movi t gu gd imm => execMovi t gu gd imm s
  | .addi t gu gd imm => execAddi t gu gd imm s
  | .pfx t payload => execPfx t payload s
  | .and t gu gd gs z gt => execAnd t gu gd gs z gt s
  | .or t gu gd gs z gt => execOr t gu gd gs z gt s
  | .xor t gu gd gs z gt => execXor t gu gd gs z gt s
  | .andn t gu gd gs z gt => execAndn t gu gd gs z gt s
  | .add3 t gu gd gs z gt => execAdd3 t gu gd gs z gt s
  | .sub3 t gu gd gs z gt => execSub3 t gu gd gs z gt s
  | .shl t gu gd gs z gt => execShl t gu gd gs z gt s
  | .shr t gu gd gs z gt => execShr t gu gd gs z gt s
  | .sra t gu gd gs z gt => execSra t gu gd gs z gt s
  | .rot t gu gd gs z gt => execRot t gu gd gs z gt s
  | .shli t gu gd gs z amt => execShli t gu gd gs z amt s
  | .shri t gu gd gs z amt => execShri t gu gd gs z amt s
  | .srai t gu gd gs z amt => execSrai t gu gd gs z amt s
  | .roti t gu gd gs z amt => execRoti t gu gd gs z amt s
  | .andi t gu gd gs imm => execAndi t gu gd gs imm s
  | .ori t gu gd gs imm => execOri t gu gd gs imm s
  | .xori t gu gd gs imm => execXori t gu gd gs imm s
  | .popc t gu gd gs z => execPopc t gu gd gs z s
  | .clz t gu gd gs z => execClz t gu gd gs z s
  | .mfc t gu gd zh z n => execMfc t gu gd zh z n s
  | .mtc t gu zh gs z n => execMtc t gu zh gs z n s
  | .pmr t gu gd gs z => execPmr t gu gd gs z s
  | .pmw t gu zh gs z gt => execPmw t gu zh gs z gt s
  | .qopen t gu gd gs z gt => execQopen t gu gd gs z gt s
  | .qput t gu gd gs z gt => execQput t gu gd gs z gt s
  | .qclose t gu gd gs z gt => execQclose t gu gd gs z gt s
  | .qtake t gu gd gs z gt => execQtake t gu gd gs z gt s
  | .qget t gu gd gs z gt => execQget t gu gd gs z gt s
  | .qdone t gu gd gs z gt => execQdone t gu gd gs z gt s
  | .qstat t gu gd gs z gt => execQstat t gu gd gs z gt s
  | .cmp t gu gs gt cc pd md im imm => execCmp t gu gs gt cc pd md im imm s
  | .ld t gu gd gb => execLd t gu gd gb s
  | .st t gu gs gb => execSt t gu gs gb s
  | .ld8u t gu gd gb off => execLd8u t gu gd gb off s
  | .ld8s t gu gd gb off => execLd8s t gu gd gb off s
  | .ld16u t gu gd gb off => execLd16u t gu gd gb off s
  | .ld16s t gu gd gb off => execLd16s t gu gd gb off s
  | .ld32u t gu gd gb off => execLd32u t gu gd gb off s
  | .ld32s t gu gd gb off => execLd32s t gu gd gb off s
  | .ld64 t gu gd gb off => execLd64 t gu gd gb off s
  | .st8 t gu gs gb off => execSt8 t gu gs gb off s
  | .st16 t gu gs gb off => execSt16 t gu gs gb off s
  | .st32 t gu gs gb off => execSt32 t gu gs gb off s
  | .st64 t gu gs gb off => execSt64 t gu gs gb off s
  | .sdld t gu n gb off => execSdld t gu n gb off s
  | .sdst t gu n gb off => execSdst t gu n gb off s
  | .sdbase t gu n gb off => execSdbase t gu n gb off s
  | .br t gu off => execBr t gu off s
  | .call t gu off => execCall t gu off s
  | .loop t gu z n gc fin => execLoop t gu z n gc fin s
  | .loopi t gu z n count fin => execLoopi t gu z n count fin s
  | .rep t gu z gc => execRep t gu z gc s
  | .repi t gu z count => execRepi t gu z count s
  | .chain t gu n => execChain t gu n s
  | .fence t gu => execFence t gu s
  | .vwait t gu => execVwait t gu s
  | .setvl t gu z gd gs ty => execSetvl t gu z gd gs ty s
  | _ => .next s

/-- The wait of an instruction may be over: one of R29 ends when every earlier vector instruction has committed or faulted. -/
def State.waitOver (s : State) (t : TwigId) : Bool :=
  match t with
  | .bough b => (s.bough b).twig.wait != .all || (s.bough b).issued.isEmpty
  | .crown _ => true

/-- Nothing waits any more. -/
def Twig.unwait (w : Twig) : Twig := { w with waiting := none, wait := .plain }

/-- The instruction that waits goes on, and waits again if it must: only a trap that is due comes first (R254). -/
def State.release (s : State) (t : TwigId) (p : Instr → Bool) : Out :=
  let w := s.twig t
  match w.waiting with
  | none => .next s
  | some i =>
    if p i && s.waitOver t && s.codeRuns t && w.run == .running && (s.trapDue t).isNone then resumeInstr t i (s.modTwig t Twig.unwait)
    else .next s

def isQopen : Instr → Bool
  | .qopen _ _ _ _ _ _ => true
  | _ => false

def isQtake : Instr → Bool
  | .qtake _ _ _ _ _ _ => true
  | _ => false

/-- WFI ends when a source is pending and enabled or a vector fault waits (R255). DESIGN CHOICE: log entry 14. -/
def State.wfiEnds (s : State) (t : TwigId) : Bool :=
  !(s.sources t).isEmpty || match t with
    | .bough b => (s.bough b).vfault.isSome
    | .crown _ => false

/-- TWIG_WAIT_RELEASE (R29, R109, R157, R229, R255): a wait behind vector instructions or stores, or a WFI, is over. -/
def execTwigWaitRelease (t : TwigId) (s : State) : Out :=
  match (s.twig t).waiting with
  | some i =>
    if isWfi i then
      if s.wfiEnds t && s.codeRuns t && (s.twig t).run == .running then .next (s.modTwig t fun w => w.unwait.finish 1 false false)
      else .next s
    else s.release t fun i => !isQopen i && !isQtake i
  | none => .next s

/-- ISSUE_STALL_RELEASE (R27, R81): the issue queue has room for the vector instruction or block that waits. -/
def execIssueStallRelease (t : TwigId) (s : State) : Out := s.release t fun i => (vecOf i).isSome

/-- QOPEN_CREDITS_READY (R343, R345). -/
def execQopenCreditsReady (t : TwigId) (s : State) : Out := s.release t isQopen

/-- QTAKE_PACKET_READY (R345). -/
def execQtakePacketReady (t : TwigId) (s : State) : Out := s.release t isQtake

end Sys2Proof.Machine
end

