-- ==== Sys2Proof/Machine/Dispatch.lean ====
section
/-! DEFINITION. One arm for each command: the meaning that it has. -/

namespace Sys2Proof.Machine

def exec (i : Instr) (s : State) : Host.Outcome State Fault Refusal :=
  match i with
  | .nop t gu => Sys2Proof.Machine.execNop t gu s
  | .isync t gu => Sys2Proof.Machine.execIsync t gu s
  | .ret t gu => Sys2Proof.Machine.execRet t gu s
  | .resume t gu => Sys2Proof.Machine.execResume t gu s
  | .wfi t gu => Sys2Proof.Machine.execWfi t gu s
  | .halt t gu => Sys2Proof.Machine.execHalt t gu s
  | .neg t gu gd => Sys2Proof.Machine.execNeg t gu gd s
  | .not t gu gd => Sys2Proof.Machine.execNot t gu gd s
  | .abs t gu gd => Sys2Proof.Machine.execAbs t gu gd s
  | .jmpr t gu gs => Sys2Proof.Machine.execJmpr t gu gs s
  | .callr t gu gs => Sys2Proof.Machine.execCallr t gu gs s
  | .sdadv t gu n => Sys2Proof.Machine.execSdadv t gu n s
  | .pnot t gu pd ps => Sys2Proof.Machine.execPnot t gu pd ps s
  | .pmov t gu pd ps => Sys2Proof.Machine.execPmov t gu pd ps s
  | .mov t gu gd gs => Sys2Proof.Machine.execMov t gu gd gs s
  | .add t gu gd gs => Sys2Proof.Machine.execAdd t gu gd gs s
  | .sub t gu gd gs => Sys2Proof.Machine.execSub t gu gd gs s
  | .movi t gu gd imm => Sys2Proof.Machine.execMovi t gu gd imm s
  | .addi t gu gd imm => Sys2Proof.Machine.execAddi t gu gd imm s
  | .pfx t payload => Sys2Proof.Machine.execPfx t payload s
  | .and t gu gd gs z gt => Sys2Proof.Machine.execAnd t gu gd gs z gt s
  | .or t gu gd gs z gt => Sys2Proof.Machine.execOr t gu gd gs z gt s
  | .xor t gu gd gs z gt => Sys2Proof.Machine.execXor t gu gd gs z gt s
  | .andn t gu gd gs z gt => Sys2Proof.Machine.execAndn t gu gd gs z gt s
  | .add3 t gu gd gs z gt => Sys2Proof.Machine.execAdd3 t gu gd gs z gt s
  | .sub3 t gu gd gs z gt => Sys2Proof.Machine.execSub3 t gu gd gs z gt s
  | .shl t gu gd gs z gt => Sys2Proof.Machine.execShl t gu gd gs z gt s
  | .shr t gu gd gs z gt => Sys2Proof.Machine.execShr t gu gd gs z gt s
  | .sra t gu gd gs z gt => Sys2Proof.Machine.execSra t gu gd gs z gt s
  | .rot t gu gd gs z gt => Sys2Proof.Machine.execRot t gu gd gs z gt s
  | .shli t gu gd gs z amt => Sys2Proof.Machine.execShli t gu gd gs z amt s
  | .shri t gu gd gs z amt => Sys2Proof.Machine.execShri t gu gd gs z amt s
  | .srai t gu gd gs z amt => Sys2Proof.Machine.execSrai t gu gd gs z amt s
  | .roti t gu gd gs z amt => Sys2Proof.Machine.execRoti t gu gd gs z amt s
  | .andi t gu gd gs imm => Sys2Proof.Machine.execAndi t gu gd gs imm s
  | .ori t gu gd gs imm => Sys2Proof.Machine.execOri t gu gd gs imm s
  | .xori t gu gd gs imm => Sys2Proof.Machine.execXori t gu gd gs imm s
  | .popc t gu gd gs z => Sys2Proof.Machine.execPopc t gu gd gs z s
  | .clz t gu gd gs z => Sys2Proof.Machine.execClz t gu gd gs z s
  | .mfc t gu gd zh z n => Sys2Proof.Machine.execMfc t gu gd zh z n s
  | .mtc t gu zh gs z n => Sys2Proof.Machine.execMtc t gu zh gs z n s
  | .pmr t gu gd gs z => Sys2Proof.Machine.execPmr t gu gd gs z s
  | .pmw t gu zh gs z gt => Sys2Proof.Machine.execPmw t gu zh gs z gt s
  | .qopen t gu gd gs z gt => Sys2Proof.Machine.execQopen t gu gd gs z gt s
  | .qput t gu gd gs z gt => Sys2Proof.Machine.execQput t gu gd gs z gt s
  | .qclose t gu gd gs z gt => Sys2Proof.Machine.execQclose t gu gd gs z gt s
  | .qtake t gu gd gs z gt => Sys2Proof.Machine.execQtake t gu gd gs z gt s
  | .qget t gu gd gs z gt => Sys2Proof.Machine.execQget t gu gd gs z gt s
  | .qdone t gu gd gs z gt => Sys2Proof.Machine.execQdone t gu gd gs z gt s
  | .qstat t gu gd gs z gt => Sys2Proof.Machine.execQstat t gu gd gs z gt s
  | .cmp t gu gs gt cc pd md im imm => Sys2Proof.Machine.execCmp t gu gs gt cc pd md im imm s
  | .ld t gu gd gb => Sys2Proof.Machine.execLd t gu gd gb s
  | .st t gu gs gb => Sys2Proof.Machine.execSt t gu gs gb s
  | .ld8u t gu gd gb off => Sys2Proof.Machine.execLd8u t gu gd gb off s
  | .ld8s t gu gd gb off => Sys2Proof.Machine.execLd8s t gu gd gb off s
  | .ld16u t gu gd gb off => Sys2Proof.Machine.execLd16u t gu gd gb off s
  | .ld16s t gu gd gb off => Sys2Proof.Machine.execLd16s t gu gd gb off s
  | .ld32u t gu gd gb off => Sys2Proof.Machine.execLd32u t gu gd gb off s
  | .ld32s t gu gd gb off => Sys2Proof.Machine.execLd32s t gu gd gb off s
  | .ld64 t gu gd gb off => Sys2Proof.Machine.execLd64 t gu gd gb off s
  | .st8 t gu gs gb off => Sys2Proof.Machine.execSt8 t gu gs gb off s
  | .st16 t gu gs gb off => Sys2Proof.Machine.execSt16 t gu gs gb off s
  | .st32 t gu gs gb off => Sys2Proof.Machine.execSt32 t gu gs gb off s
  | .st64 t gu gs gb off => Sys2Proof.Machine.execSt64 t gu gs gb off s
  | .sdld t gu n gb off => Sys2Proof.Machine.execSdld t gu n gb off s
  | .sdst t gu n gb off => Sys2Proof.Machine.execSdst t gu n gb off s
  | .sdbase t gu n gb off => Sys2Proof.Machine.execSdbase t gu n gb off s
  | .br t gu off => Sys2Proof.Machine.execBr t gu off s
  | .call t gu off => Sys2Proof.Machine.execCall t gu off s
  | .loop t gu z n gc fin => Sys2Proof.Machine.execLoop t gu z n gc fin s
  | .loopi t gu z n count fin => Sys2Proof.Machine.execLoopi t gu z n count fin s
  | .rep t gu z gc => Sys2Proof.Machine.execRep t gu z gc s
  | .repi t gu z count => Sys2Proof.Machine.execRepi t gu z count s
  | .twigLoadReturn t => Sys2Proof.Machine.execTwigLoadReturn t s
  | .storePerformed t => Sys2Proof.Machine.execStorePerformed t s
  | .twigWaitRelease t => Sys2Proof.Machine.execTwigWaitRelease t s
  | .issueStallRelease t => Sys2Proof.Machine.execIssueStallRelease t s
  | .qopenCreditsReady t => Sys2Proof.Machine.execQopenCreditsReady t s
  | .qtakePacketReady t => Sys2Proof.Machine.execQtakePacketReady t s
  | .vadd t gu f => Sys2Proof.Machine.execVadd t gu f s
  | .vsub t gu f => Sys2Proof.Machine.execVsub t gu f s
  | .vmin t gu f => Sys2Proof.Machine.execVmin t gu f s
  | .vmax t gu f => Sys2Proof.Machine.execVmax t gu f s
  | .vabs t gu f => Sys2Proof.Machine.execVabs t gu f s
  | .vneg t gu f => Sys2Proof.Machine.execVneg t gu f s
  | .vcmpEq t gu f => Sys2Proof.Machine.execVcmpEq t gu f s
  | .vcmpNe t gu f => Sys2Proof.Machine.execVcmpNe t gu f s
  | .vcmpLt t gu f => Sys2Proof.Machine.execVcmpLt t gu f s
  | .vcmpLe t gu f => Sys2Proof.Machine.execVcmpLe t gu f s
  | .vcmpGt t gu f => Sys2Proof.Machine.execVcmpGt t gu f s
  | .vcmpGe t gu f => Sys2Proof.Machine.execVcmpGe t gu f s
  | .vcmpUn t gu f => Sys2Proof.Machine.execVcmpUn t gu f s
  | .vmul t gu f => Sys2Proof.Machine.execVmul t gu f s
  | .vfma t gu f => Sys2Proof.Machine.execVfma t gu f s
  | .vfms t gu f => Sys2Proof.Machine.execVfms t gu f s
  | .vdot4 t gu f => Sys2Proof.Machine.execVdot4 t gu f s
  | .vcvt t gu src f => Sys2Proof.Machine.execVcvt t gu src f s
  | .vand t gu f => Sys2Proof.Machine.execVand t gu f s
  | .vor t gu f => Sys2Proof.Machine.execVor t gu f s
  | .vxor t gu f => Sys2Proof.Machine.execVxor t gu f s
  | .vnot t gu f => Sys2Proof.Machine.execVnot t gu f s
  | .vshl t gu f => Sys2Proof.Machine.execVshl t gu f s
  | .vshr t gu f => Sys2Proof.Machine.execVshr t gu f s
  | .vsra t gu f => Sys2Proof.Machine.execVsra t gu f s
  | .vrot t gu f => Sys2Proof.Machine.execVrot t gu f s
  | .vpopc t gu f => Sys2Proof.Machine.execVpopc t gu f s
  | .vclz t gu f => Sys2Proof.Machine.execVclz t gu f s
  | .vsel t gu f => Sys2Proof.Machine.execVsel t gu f s
  | .vcopy t gu f => Sys2Proof.Machine.execVcopy t gu f s
  | .vfill t gu f => Sys2Proof.Machine.execVfill t gu f s
  | .vgatherf t gu f => Sys2Proof.Machine.execVgatherf t gu f s
  | .vdiv t gu f => Sys2Proof.Machine.execVdiv t gu f s
  | .vrem t gu f => Sys2Proof.Machine.execVrem t gu f s
  | .vsqrt t gu f => Sys2Proof.Machine.execVsqrt t gu f s
  | .vsum t gu f => Sys2Proof.Machine.execVsum t gu f s
  | .vminr t gu f => Sys2Proof.Machine.execVminr t gu f s
  | .vmaxr t gu f => Sys2Proof.Machine.execVmaxr t gu f s
  | .vscan t gu f => Sys2Proof.Machine.execVscan t gu f s
  | .vsegsum t gu f => Sys2Proof.Machine.execVsegsum t gu f s
  | .vcompress t gu f => Sys2Proof.Machine.execVcompress t gu f s
  | .vexpand t gu f => Sys2Proof.Machine.execVexpand t gu f s
  | .vmerge t gu f => Sys2Proof.Machine.execVmerge t gu f s
  | .vhashCrc t gu f => Sys2Proof.Machine.execVhashCrc t gu f s
  | .vhashMix t gu f => Sys2Proof.Machine.execVhashMix t gu f s
  | .vbucket t gu f => Sys2Proof.Machine.execVbucket t gu f s
  | .chain t gu n => Sys2Proof.Machine.execChain t gu n s
  | .fence t gu => Sys2Proof.Machine.execFence t gu s
  | .vwait t gu => Sys2Proof.Machine.execVwait t gu s
  | .setvl t gu z gd gs ty => Sys2Proof.Machine.execSetvl t gu z gd gs ty s
  | .vectorDispatch b => Sys2Proof.Machine.execVectorDispatch b s
  | .streamRequest b h slot => Sys2Proof.Machine.execStreamRequest b h slot s
  | .ownershipLookupReturn b => Sys2Proof.Machine.execOwnershipLookupReturn b s
  | .readResponseArrival b tag => Sys2Proof.Machine.execReadResponseArrival b tag s
  | .commitPoint b h => Sys2Proof.Machine.execCommitPoint b h s
  | .vectorFaultTaken b h => Sys2Proof.Machine.execVectorFaultTaken b h s
  | .armRequestAccept n => Sys2Proof.Machine.execArmRequestAccept n s
  | .filterInstall tgt => Sys2Proof.Machine.execFilterInstall tgt s
  | .commitInstant b => Sys2Proof.Machine.execCommitInstant b s
  | .filterHitDemand tgt n => Sys2Proof.Machine.execFilterHitDemand tgt n s
  | .demandAnswer tgt n => Sys2Proof.Machine.execDemandAnswer tgt n s
  | .drainWriteAccept b h => Sys2Proof.Machine.execDrainWriteAccept b h s
  | .entryRelease tgt n => Sys2Proof.Machine.execEntryRelease tgt n s
  | .chainTransferSend l => Sys2Proof.Machine.execChainTransferSend l s
  | .chainTransferArrive l ep off ws => Sys2Proof.Machine.execChainTransferArrive l ep off ws s
  | .chainEnd l ep len => Sys2Proof.Machine.execChainEnd l ep len s
  | .chainCommit l ep => Sys2Proof.Machine.execChainCommit l ep s
  | .chainAbort l ep => Sys2Proof.Machine.execChainAbort l ep s
  | .chainTaken l ep => Sys2Proof.Machine.execChainTaken l ep s
  | .chainReplay l ep => Sys2Proof.Machine.execChainReplay l ep s
  | .chainCreditReturn l n => Sys2Proof.Machine.execChainCreditReturn l n s
  | .linkBreak l code => Sys2Proof.Machine.execLinkBreak l code s
  | .rearm g bits => Sys2Proof.Machine.execRearm g bits s
  | .trapEntry t => Sys2Proof.Machine.execTrapEntry t s
  | .timerLatch => Sys2Proof.Machine.execTimerLatch s
  | .boughReset b => Sys2Proof.Machine.execBoughReset b s
  | .boughResetComplete b => Sys2Proof.Machine.execBoughResetComplete b s
  | .freeze b on => Sys2Proof.Machine.execFreeze b on s
  | .portClean m => Sys2Proof.Machine.execPortClean m s
  | .programStoreFill t line => Sys2Proof.Machine.execProgramStoreFill t line s
  | .sliceAcceptRequest k => Sys2Proof.Machine.execSliceAcceptRequest k s
  | .targetAccessComplete k e => Sys2Proof.Machine.execTargetAccessComplete k e s
  | .writeBurstStage b => Sys2Proof.Machine.execWriteBurstStage b s
  | .perBankRefresh k p bank waited => Sys2Proof.Machine.execPerBankRefresh k p bank waited s
  | .patrolScrub k granule => Sys2Proof.Machine.execPatrolScrub k granule s
  | .stackTempRead k0 temp => Sys2Proof.Machine.execStackTempRead k0 temp s
  | .linearMapSwitch => Sys2Proof.Machine.execLinearMapSwitch s
  | .injectArm k0 kind word => Sys2Proof.Machine.execInjectArm k0 kind word s
  | .hostWriteTlp n p => Sys2Proof.Machine.execHostWriteTlp n p s
  | .staged id k => Sys2Proof.Machine.execStaged id k s
  | .commit id k => Sys2Proof.Machine.execCommit id k s
  | .discard id k => Sys2Proof.Machine.execDiscard id k s
  | .committed id k => Sys2Proof.Machine.execCommitted id k s
  | .hostScratchpadWrite id => Sys2Proof.Machine.execHostScratchpadWrite id s
  | .hostReadRequest n tag fn bar2 off len => Sys2Proof.Machine.execHostReadRequest n tag fn bar2 off len s
  | .hostReadCompletion n tag => Sys2Proof.Machine.execHostReadCompletion n tag s
  | .registerWrite who off wide v => Sys2Proof.Machine.execRegisterWrite who off wide v s
  | .sweepRegionStart b => Sys2Proof.Machine.execSweepRegionStart b s
  | .sweepRestore b failed => Sys2Proof.Machine.execSweepRestore b failed s
  | .flush q => Sys2Proof.Machine.execFlush q s
  | .queueFlush q => Sys2Proof.Machine.execQueueFlush q s
  | .qwOpen fn q v => Sys2Proof.Machine.execQwOpen fn q v s
  | .qwClose fn q v => Sys2Proof.Machine.execQwClose fn q v s
  | .qwTake fn q v => Sys2Proof.Machine.execQwTake fn q v s
  | .qwDone fn q v => Sys2Proof.Machine.execQwDone fn q v s
  | .qwDataWrite fn q k v => Sys2Proof.Machine.execQwDataWrite fn q k v s
  | .qwDataRead fn q k => Sys2Proof.Machine.execQwDataRead fn q k s
  | .msixUnmask fn entry => Sys2Proof.Machine.execMsixUnmask fn entry s
  | .plotReset p => Sys2Proof.Machine.execPlotReset p s
  | .plotResetComplete p => Sys2Proof.Machine.execPlotResetComplete p s
  | .park p on => Sys2Proof.Machine.execPark p on s
  | .parkHold p => Sys2Proof.Machine.execParkHold p s
  | .preempt p => Sys2Proof.Machine.execPreempt p s
  | .preemptGraceExpiry p => Sys2Proof.Machine.execPreemptGraceExpiry p s
  | .plotBoughReset p b => Sys2Proof.Machine.execPlotBoughReset p b s
  | .capEvaluation => Sys2Proof.Machine.execCapEvaluation s
  | .crownMessageSend b => Sys2Proof.Machine.execCrownMessageSend b s
  | .grainStaged => Sys2Proof.Machine.execGrainStaged s
  | .activationDrain => Sys2Proof.Machine.execActivationDrain s
  | .activationWrite => Sys2Proof.Machine.execActivationWrite s
  | .switchTick => Sys2Proof.Machine.execSwitchTick s
  | .plotStart => Sys2Proof.Machine.execPlotStart s
  | .regrain => Sys2Proof.Machine.execRegrain s
  | .regrainSwitchTick => Sys2Proof.Machine.execRegrainSwitchTick s
  | .ringTick energyNJ => Sys2Proof.Machine.execRingTick energyNJ s
  | .minuteBoundary => Sys2Proof.Machine.execMinuteBoundary s
  | .hourlySeal => Sys2Proof.Machine.execHourlySeal s
  | .energyApportion => Sys2Proof.Machine.execEnergyApportion s
  | .ringCalSync v => Sys2Proof.Machine.execRingCalSync v s
  | .ledgerItemPost => Sys2Proof.Machine.execLedgerItemPost s
  | .journalSlotCommit => Sys2Proof.Machine.execJournalSlotCommit s
  | .thermalCycleSample => Sys2Proof.Machine.execThermalCycleSample s
  | .pwrFailAssert => Sys2Proof.Machine.execPwrFailAssert s
  | .pwrFailDeassert => Sys2Proof.Machine.execPwrFailDeassert s
  | .signatureComplete => Sys2Proof.Machine.execSignatureComplete s
  | .getVersion tr => Sys2Proof.Machine.execGetVersion tr s
  | .getCapabilities tr => Sys2Proof.Machine.execGetCapabilities tr s
  | .negotiateAlgorithms tr offer => Sys2Proof.Machine.execNegotiateAlgorithms tr offer s
  | .getDigests tr => Sys2Proof.Machine.execGetDigests tr s
  | .getCertificate tr slot off len => Sys2Proof.Machine.execGetCertificate tr slot off len s
  | .challenge tr slot nonce => Sys2Proof.Machine.execChallenge tr slot nonce s
  | .getMeasurements tr slot index sig nonce => Sys2Proof.Machine.execGetMeasurements tr slot index sig nonce s
  | .keyExchange tr slot heartbeat => Sys2Proof.Machine.execKeyExchange tr slot heartbeat s
  | .finish tr sid => Sys2Proof.Machine.execFinish tr sid s
  | .heartbeat tr sid => Sys2Proof.Machine.execHeartbeat tr sid s
  | .keyUpdate tr sid => Sys2Proof.Machine.execKeyUpdate tr sid s
  | .endSession tr sid => Sys2Proof.Machine.execEndSession tr sid s
  | .respondIfReady tr => Sys2Proof.Machine.execRespondIfReady tr s
  | .spdmUnsupportedRequest tr code => Sys2Proof.Machine.execSpdmUnsupportedRequest tr code s
  | .sessionHeartbeatTimeout sid => Sys2Proof.Machine.execSessionHeartbeatTimeout sid s
  | .keyProg tr sid n kset sub key => Sys2Proof.Machine.execKeyProg tr sid n kset sub key s
  | .kSetGo tr sid n kset sub => Sys2Proof.Machine.execKSetGo tr sid n kset sub s
  | .kSetStop tr sid n kset sub => Sys2Proof.Machine.execKSetStop tr sid n kset sub s
  | .query tr sid n => Sys2Proof.Machine.execQuery tr sid n s
  | .perstAssert n hot => Sys2Proof.Machine.execPerstAssert n hot s
  | .perstDeassert n => Sys2Proof.Machine.execPerstDeassert n s
  | .hostLinkDown n => Sys2Proof.Machine.execHostLinkDown n s
  | .hostLinkRetrain n speed width flit => Sys2Proof.Machine.execHostLinkRetrain n speed width flit s
  | .vfFlr v => Sys2Proof.Machine.execVfFlr v s
  | .pfFlr n => Sys2Proof.Machine.execPfFlr n s
  | .configRequest n fn op => Sys2Proof.Machine.execConfigRequest n fn op s
  | .graftBeaconTx n => Sys2Proof.Machine.execGraftBeaconTx n s
  | .graftBeaconRx n => Sys2Proof.Machine.execGraftBeaconRx n s
  | .graftTrainLock n => Sys2Proof.Machine.execGraftTrainLock n s
  | .graftTrainTimeout n => Sys2Proof.Machine.execGraftTrainTimeout n s
  | .graftHelloTx n => Sys2Proof.Machine.execGraftHelloTx n s
  | .hello n protocol peerPort rank serial image bootId => Sys2Proof.Machine.execHello n protocol peerPort rank serial image bootId s
  | .graftHelloTimeout n => Sys2Proof.Machine.execGraftHelloTimeout n s
  | .auth n part off bytes => Sys2Proof.Machine.execAuth n part off bytes s
  | .graftAuthTimeout n => Sys2Proof.Machine.execGraftAuthTimeout n s
  | .admitList n last es => Sys2Proof.Machine.execAdmit n last es s
  | .graftRefusedTimeout n => Sys2Proof.Machine.execGraftRefusedTimeout n s
  | .leave n => Sys2Proof.Machine.execLeave n s
  | .queueData n tag pseq off ws => Sys2Proof.Machine.execQueueData n tag pseq off ws s
  | .closed n tag pseq => Sys2Proof.Machine.execClosed n tag pseq s
  | .queueAbort n tag pseq => Sys2Proof.Machine.execQueueAbort n tag pseq s
  | .credit n tag isQueue words => Sys2Proof.Machine.execCredit n tag isQueue words s
  | .graftBadFlit n => Sys2Proof.Machine.execGraftBadFlit n s
  | .graftNak n ack => Sys2Proof.Machine.execGraftNak n ack s
  | .graftIdle n ack => Sys2Proof.Machine.execGraftIdle n ack s
  | .graftLaneLockLoss n lane => Sys2Proof.Machine.execGraftLaneLockLoss n lane s
  | .graftAckTimeout n => Sys2Proof.Machine.execGraftAckTimeout n s
  | .graftKeepaliveMiss n => Sys2Proof.Machine.execGraftKeepaliveMiss n s
  | .hold n on => Sys2Proof.Machine.execHold n on s
  | .pwrPlReq level => Sys2Proof.Machine.execPwrPlReq level s
  | .voltageSettled mv => Sys2Proof.Machine.execVoltageSettled mv s
  | .voltageTimeout => Sys2Proof.Machine.execVoltageTimeout s
  | .frameEdgeSwitch => Sys2Proof.Machine.execFrameEdgeSwitch s
  | .droop => Sys2Proof.Machine.execDroop s
  | .hwThrottle => Sys2Proof.Machine.execHwThrottle s
  | .hwThrottleRelease => Sys2Proof.Machine.execHwThrottleRelease s
  | .thermalTrip => Sys2Proof.Machine.execThermalTrip s
  | .sensorSample temps => Sys2Proof.Machine.execSensorSample temps s
  | .levelEvaluation => Sys2Proof.Machine.execLevelEvaluation s
  | .refclkLoss => Sys2Proof.Machine.execRefclkLoss s
  | .refclkRestore => Sys2Proof.Machine.execRefclkRestore s
  | .pwrAlarm v => Sys2Proof.Machine.execPwrAlarm v s
  | .alarmReached => Sys2Proof.Machine.execAlarmReached s
  | .dormantEnter => Sys2Proof.Machine.execDormantEnter s
  | .dormantStepComplete => Sys2Proof.Machine.execDormantStepComplete s
  | .wakeSource code => Sys2Proof.Machine.execWakeSource code s
  | .wakeStepDelayEnd ready => Sys2Proof.Machine.execWakeStepDelayEnd ready s
  | .wakeStepReady us => Sys2Proof.Machine.execWakeStepReady us s
  | .wakeStepTimeout => Sys2Proof.Machine.execWakeStepTimeout s
  | .powerOn => Sys2Proof.Machine.execPowerOn s
  | .resetNAssert => Sys2Proof.Machine.execResetNAssert s
  | .resetNDeassert => Sys2Proof.Machine.execResetNDeassert s
  | .bootStepPass cause us => Sys2Proof.Machine.execBootStepPass cause us s
  | .bootStepTimeout => Sys2Proof.Machine.execBootStepTimeout s
  | .modeDrainComplete => Sys2Proof.Machine.execModeDrainComplete s
  | .kick => Sys2Proof.Machine.execKick s
  | .watchdogExpiry => Sys2Proof.Machine.execWatchdogExpiry s
  | .restart k => Sys2Proof.Machine.execRestart k s
  | .getInfo ch => Sys2Proof.Machine.execGetInfo ch s
  | .reset ch => Sys2Proof.Machine.execReset ch s
  | .enterService ch => Sys2Proof.Machine.execEnterService ch s
  | .fwWrite ch => Sys2Proof.Machine.execFwWrite ch s
  | .slotWrite ch => Sys2Proof.Machine.execSlotWrite ch s
  | .activate ch => Sys2Proof.Machine.execActivate ch s
  | .enrollOwner ch => Sys2Proof.Machine.execEnrollOwner ch s
  | .transferOwner ch => Sys2Proof.Machine.execTransferOwner ch s
  | .calSync ch => Sys2Proof.Machine.execCalSync ch s
  | .ledgerRead ch => Sys2Proof.Machine.execLedgerRead ch s
  | .ledgerFree ch => Sys2Proof.Machine.execLedgerFree ch s
  | .unknownOp ch => Sys2Proof.Machine.execUnknownOp ch s
  | .coreResetComplete => Sys2Proof.Machine.execCoreResetComplete s
  | .refclkStopInDormant lostUs => Sys2Proof.Machine.execRefclkStopInDormant lostUs s
  | .railOutOfTolerance rail => Sys2Proof.Machine.execRailOutOfTolerance rail s
  | .hostLinkTrained n speed width flit => Sys2Proof.Machine.execHostLinkTrained n speed width flit s

end Sys2Proof.Machine
end

