-- ==== Sys2Proof/Machine/TwigDecode.lean ====
section
/-! DEFINITION. The words of twig programs (R86-R89, R92, R93, R200, R202, R204, R206-R212): which instruction the words at the fetch
address spell, what a reserved code does, and the turn in which a twig fetches and executes. -/

namespace Sys2Proof.Machine

/-- Bits [lo+n-1:lo] of a twig word. -/
def Word14.bits (w : Word14) (lo n : Nat) : Nat := w.toNat / 2 ^ lo % 2 ^ n

def Word14.field (w : Word14) (lo n : Nat) : BitVec n := BitVec.ofNat n (Word14.bits w lo n)

def Word14.fin4 (w : Word14) (lo : Nat) : Fin 4 := ⟨Word14.bits w lo 2, Nat.mod_lt _ (by decide)⟩

def Word14.fin16 (w : Word14) (lo : Nat) : Fin 16 := ⟨Word14.bits w lo 4, Nat.mod_lt _ (by decide)⟩

/-- The guard field of a head word (R200). -/
def guardOf (w : Word14) : PReg := Word14.fin4 w 12

/-- The major opcode of a head word (R200). -/
def majorOf (w : Word14) : Nat := Word14.bits w 8 4

/-- The words of the instruction that a head word begins (R87, R202, R206, R211). An operation code above 0xF2 has no length of its own:
ILLEGAL consumes no further word. DESIGN CHOICE: log entry 157. -/
def wordsOfHead (w : Word14) : Nat :=
  match majorOf w with
  | 0x6 | 0x7 | 0xA => 2
  | 0xD => if Word14.bits w 6 2 < 2 then 2 else 1
  | 0xE => if Word14.bits w 0 8 < 0xE0 then 3 else if Word14.bits w 0 8 = 0xF2 then 2 else 1
  | _ => 1

/-- SYS group (R207). -/
def decodeSys (t : TwigId) (w : Word14) : Option Instr :=
  let gu := guardOf w
  let r := Word14.fin16 w 0
  match Word14.bits w 4 4 with
  | 0x0 =>
    match Word14.bits w 0 4 with
    | 0x0 => some (.nop t gu)
    | 0x1 => some (.isync t gu)
    | 0x2 => some (.ret t gu)
    | 0x3 => some (.resume t gu)
    | 0x4 => some (.wfi t gu)
    | 0x5 => some (.halt t gu)
    | _ => none
  | 0x1 => some (.neg t gu r)
  | 0x2 => some (.not t gu r)
  | 0x3 => some (.abs t gu r)
  | 0x4 => some (.jmpr t gu r)
  | 0x5 => some (.callr t gu r)
  | 0x6 => some (.sdadv t gu r)
  | 0x7 => some (.pnot t gu (Word14.fin4 w 2) (Word14.fin4 w 0))
  | 0x8 => some (.pmov t gu (Word14.fin4 w 2) (Word14.fin4 w 0))
  | _ => none

/-- ALU2 (R208): the second word holds OP in [13:8] and the operand field in [7:0]. -/
def decodeAlu2 (t : TwigId) (w x : Word14) : Option Instr :=
  let gu := guardOf w
  let gd := Word14.fin16 w 4
  let gs := Word14.fin16 w 0
  let hi := Word14.field x 4 4
  let gt := Word14.fin16 x 0
  let z1 := Word14.field x 7 1
  let amt := Word14.field x 0 7
  let imm := Word14.field x 0 8
  match Word14.bits x 8 6 with
  | 0x00 => some (.and t gu gd gs hi gt)
  | 0x01 => some (.or t gu gd gs hi gt)
  | 0x02 => some (.xor t gu gd gs hi gt)
  | 0x03 => some (.andn t gu gd gs hi gt)
  | 0x04 => some (.add3 t gu gd gs hi gt)
  | 0x05 => some (.sub3 t gu gd gs hi gt)
  | 0x08 => some (.shl t gu gd gs hi gt)
  | 0x09 => some (.shr t gu gd gs hi gt)
  | 0x0A => some (.sra t gu gd gs hi gt)
  | 0x0B => some (.rot t gu gd gs hi gt)
  | 0x0C => some (.shli t gu gd gs z1 amt)
  | 0x0D => some (.shri t gu gd gs z1 amt)
  | 0x0E => some (.srai t gu gd gs z1 amt)
  | 0x0F => some (.roti t gu gd gs z1 amt)
  | 0x10 => some (.andi t gu gd gs imm)
  | 0x11 => some (.ori t gu gd gs imm)
  | 0x12 => some (.xori t gu gd gs imm)
  | 0x14 => some (.popc t gu gd gs imm)
  | 0x15 => some (.clz t gu gd gs imm)
  | 0x18 => some (.mfc t gu gd (Word14.field w 0 4) hi gt)
  | 0x19 => some (.mtc t gu (Word14.field w 4 4) gs hi gt)
  | 0x1A => some (.pmr t gu gd gs imm)
  | 0x1B => some (.pmw t gu (Word14.field w 4 4) gs hi gt)
  | 0x20 => some (.qopen t gu gd gs hi gt)
  | 0x21 => some (.qput t gu gd gs hi gt)
  | 0x22 => some (.qclose t gu gd gs hi gt)
  | 0x23 => some (.qtake t gu gd gs hi gt)
  | 0x24 => some (.qget t gu gd gs hi gt)
  | 0x25 => some (.qdone t gu gd gs hi gt)
  | 0x26 => some (.qstat t gu gd gs hi gt)
  | _ => none

/-- CMP (R209). -/
def decodeCmp (t : TwigId) (w x : Word14) : Instr :=
  .cmp t (guardOf w) (Word14.fin16 w 4) (Word14.fin16 w 0) (Word14.field x 11 3) (Word14.fin4 x 9) (Word14.field x 7 2) (x.getLsbD 6)
    (Word14.field x 0 6)

/-- MEM2 (R210): the second word holds KIND in [13:10] and the offset in [9:0]. -/
def decodeMem2 (t : TwigId) (w x : Word14) : Option Instr :=
  let gu := guardOf w
  let r := Word14.fin16 w 4
  let gb := Word14.fin16 w 0
  let off := Word14.field x 0 10
  match Word14.bits x 10 4 with
  | 0x0 => some (.ld8u t gu r gb off)
  | 0x1 => some (.ld8s t gu r gb off)
  | 0x2 => some (.ld16u t gu r gb off)
  | 0x3 => some (.ld16s t gu r gb off)
  | 0x4 => some (.ld32u t gu r gb off)
  | 0x5 => some (.ld32s t gu r gb off)
  | 0x6 => some (.ld64 t gu r gb off)
  | 0x8 => some (.st8 t gu r gb off)
  | 0x9 => some (.st16 t gu r gb off)
  | 0xA => some (.st32 t gu r gb off)
  | 0xB => some (.st64 t gu r gb off)
  | 0xC => some (.sdld t gu r gb off)
  | 0xD => some (.sdst t gu r gb off)
  | 0xE => some (.sdbase t gu r gb off)
  | _ => none

/-- LOOP and REP (R211): bits [7:6] choose the form. -/
def decodeLoop (t : TwigId) (w x : Word14) : Instr :=
  let gu := guardOf w
  let n : Fin 2 := ⟨Word14.bits w 4 1, Nat.mod_lt _ (by decide)⟩
  match Word14.bits w 6 2 with
  | 0 => .loop t gu (Word14.field w 5 1) n (Word14.fin16 w 0) x
  | 1 => .loopi t gu (Word14.field w 5 1) n (Word14.field w 0 4) x
  | 2 => .rep t gu (Word14.field w 4 2) (Word14.fin16 w 0)
  | _ => .repi t gu (Word14.field w 4 2) (Word14.field w 0 4)

/-- The operand fields of the second and third word of a vector instruction (R88), with U of the operation code (R89, R102). -/
def vfieldsOf (u : Bool) (x y : Word14) : VFields :=
  { u := u, dst := Word14.field x 9 5, srca := Word14.field x 4 5, mask := Word14.field x 2 2, rsv := Word14.field x 0 2,
    srcb := Word14.field y 9 5, srcc := Word14.field y 4 5, ty := Word14.field y 1 3, rtz := y.getLsbD 0 }

/-- The pairs of operation codes 2 x n (U = 0) and 2 x n + 1 (U = 1) of the table (R92). -/
def vecPair (n : Nat) : Option (TwigId → PReg → VFields → Instr) :=
  match n with
  | 0x00 => some .vadd
  | 0x01 => some .vsub
  | 0x02 => some .vmin
  | 0x03 => some .vmax
  | 0x08 => some .vcmpEq
  | 0x09 => some .vcmpNe
  | 0x0A => some .vcmpLt
  | 0x0B => some .vcmpLe
  | 0x0C => some .vcmpGt
  | 0x0D => some .vcmpGe
  | 0x10 => some .vmul
  | 0x11 => some .vfma
  | 0x12 => some .vfms
  | 0x13 => some .vdot4
  | 0x30 => some .vand
  | 0x31 => some .vor
  | 0x32 => some .vxor
  | 0x33 => some .vnot
  | 0x34 => some .vshl
  | 0x35 => some .vshr
  | 0x37 => some .vrot
  | 0x38 => some .vpopc
  | 0x39 => some .vclz
  | 0x3A => some .vsel
  | 0x3B => some .vcopy
  | 0x3C => some .vfill
  | 0x3D => some .vgatherf
  | 0x40 => some .vdiv
  | 0x41 => some .vrem
  | 0x50 => some .vsum
  | 0x51 => some .vminr
  | 0x52 => some .vmaxr
  | 0x53 => some .vscan
  | 0x54 => some .vsegsum
  | 0x60 => some .vcompress
  | 0x61 => some .vexpand
  | 0x62 => some .vmerge
  | 0x68 => some .vhashCrc
  | 0x69 => some .vhashMix
  | _ => none

/-- The operation codes of which only one form exists (R92). -/
def vecAlone (op : Nat) : Option (TwigId → PReg → VFields → Instr) :=
  match op with
  | 0x08 => some .vabs
  | 0x0A => some .vneg
  | 0x1C => some .vcmpUn
  | 0x6C => some .vsra
  | 0x84 => some .vsqrt
  | 0xD5 => some .vbucket
  | _ => none

/-- Vector instructions (R86-R88, R92, R93). -/
def decodeVec (t : TwigId) (w x y : Word14) : Option Instr :=
  let gu := guardOf w
  let op := Word14.bits w 0 8
  if op < 0xE0 then
    if 0x40 ≤ op ∧ op < 0x60 then
      (if op % 16 < 12 then some (.vcvt t gu (Word14.field w 0 4) (vfieldsOf (w.getLsbD 4) x y)) else none)
    else
      ((vecAlone op).or (vecPair (op / 2))).map fun k => k t gu (vfieldsOf (w.getLsbD 0) x y)
  else if op < 0xF0 then some (.chain t gu (Word14.field w 0 4))
  else
    match op with
    | 0xF0 => some (.fence t gu)
    | 0xF1 => some (.vwait t gu)
    | 0xF2 => some (.setvl t gu (Word14.field x 12 2) (Word14.fin16 x 8) (Word14.fin16 x 4) (Word14.field x 0 4))
    | _ => none

/-- The instruction that a head word and the two words after it spell; `none` for a reserved code (R87, R206-R212). -/
def decodeTwig (t : TwigId) (w x y : Word14) : Option Instr :=
  let gu := guardOf w
  let a := Word14.fin16 w 4
  let b := Word14.fin16 w 0
  match majorOf w with
  | 0x0 => decodeSys t w
  | 0x1 => some (.mov t gu a b)
  | 0x2 => some (.add t gu a b)
  | 0x3 => some (.sub t gu a b)
  | 0x4 => some (.movi t gu a (Word14.field w 0 4))
  | 0x5 => some (.addi t gu a (Word14.field w 0 4))
  | 0x6 => decodeAlu2 t w x
  | 0x7 => some (decodeCmp t w x)
  | 0x8 => some (.ld t gu a b)
  | 0x9 => some (.st t gu a b)
  | 0xA => decodeMem2 t w x
  | 0xB => some (.br t gu (Word14.field w 0 8))
  | 0xC => some (.call t gu (Word14.field w 0 8))
  | 0xD => some (decodeLoop t w x)
  | 0xE => decodeVec t w x y
  | _ => some (.pfx t (Word14.field w 12 2 ++ Word14.field w 0 8))

/-! ### Fetch and execution -/

/-- Words of an instruction that hold its operation code: a reserved vector code raises ILLEGAL and consumes no further word (R87). -/
def codeWords (w : Word14) : Nat := if majorOf w = 0xE then 1 else wordsOfHead w

/-- A reserved code (R87, R212): ILLEGAL at the first word of the instruction; a false guard skips it (R203). -/
def runReserved (t : TwigId) (w : Word14) (s : State) : State :=
  if s.syncWaits t || s.tsbHeld t then s
  else
    runTwig (.nop t (guardOf w)) t (guardOf w)
      { words := codeWords w, pfx := false, rep := false, reads := [], bad := true, skip := wordsOfHead w } (fun s => .hold s) s

/-- Word x of the region as the twig has fetched it (R234); 0 where it has not. -/
def State.fetchedWord (s : State) (t : TwigId) (x : Nat) : Word14 :=
  match (s.twig t).cached (s.progLine t x) with
  | some c => c.words.getD ((match t with
      | .bough b => 4096 * ((s.boughPlot b.val).map (·.progBase)).getD 0 + x
      | .crown _ => x) % 16) 0
  | none => 0

/-- A twig fetches the words of its next instruction and executes what they spell. A false guard needs the head word alone (R203), but a REP
decodes its whole target (R224, R225). -/
def State.fetchRun (s : State) (t : TwigId) : Out :=
  let s := s.fetchWords t 1
  let x := (s.twig t).fetchAt
  let w := s.fetchedWord t x
  if (s.fetchFault t 1).isSome then .next (runReserved t 0 s)
  else
    let s := if (s.twig t).predBit (guardOf w) || (s.twig t).rep.isSome then s.fetchWords t (codeWords w) else s
    let s := if ((s.twig t).predBit (guardOf w) || (s.twig t).rep.isSome) && (decodeTwig t w (s.fetchedWord t (x + 1)) 0).isSome
      then s.fetchWords t (wordsOfHead w) else s
    match decodeTwig t w (s.fetchedWord t (x + 1)) (s.fetchedWord t (x + 2)) with
    | some i => resumeInstr t i s
    | none => .next (runReserved t w s)

/-- The twigs, in the order of their turns: the boughs' twigs, then the crown cores. -/
def twigOfTurn (n : Nat) : TwigId :=
  if h : n < 256 then .bough ⟨n, h⟩ else .crown ⟨n % 4, Nat.mod_lt _ (by decide)⟩

/-- A twig's turn: the trap that is due is taken, or the next instruction is fetched and executed. A twig that waits, or that does not run,
lets it pass. -/
def State.twigTurn (s : State) (t : TwigId) : Out :=
  let w := s.twig t
  if !s.codeRuns t || w.run != .running || w.load.isSome then .next s
  else
    match s.trapDue t with
    | some k => .next (if s.tsbHeld t then s else s.takeTrap t k)
    | none => if w.waiting.isSome then .next s else s.fetchRun t

/-- The turn of the next twig (R200, R239): where no command waits, the twigs fetch and execute, one instruction at a time in turn.
DESIGN CHOICE: log entry 158. -/
def State.fetchTurn (s : State) : Out := { s.portsTurn with turn := (s.turn + 1) % 260 }.twigTurn (twigOfTurn s.turn)

end Sys2Proof.Machine
end

