-- ==== Sys2Proof/Machine/Step.lean ====
section
/-! DEFINITION. One step: the command at the front of the queue. -/

namespace Sys2Proof.Machine

/-- Takes the front command off the queue and runs it; with an empty queue the next twig in turn fetches and executes. DESIGN CHOICE: log
entries 2, 144, 158. -/
def step (s : State) : Host.Outcome State Fault Refusal :=
  match s.pending with
  | [] => s.fetchTurn
  | c :: cs => exec c { s with pending := cs }

/-- The command that a word spells, at the front of the queue. DESIGN CHOICE: log entry 11. -/
def State.withFetchWord (s : State) (nbits w : Nat) : State :=
  match decodeTableWord nbits w with
  | some c => { s with pending := c :: s.pending }
  | none => s

end Sys2Proof.Machine
end

