-- ==== Sys2Proof/WellFormed.lean ====
section
/-! DEFINITION. The shape that a command has when it reaches the block: bounds that the spec puts on operands whose Lean type is wider. -/

namespace Sys2Proof

/-- The bytes [o, o + len) lie in one 4 KiB block (R306). -/
def inBlock (o len : Nat) : Bool := decide (0 < len) && decide (o / 4096 = (o + len - 1) / 4096)

/-- A host write TLP carries 1 to 512 bytes (R458). -/
def Tlp.wellFormed (p : Tlp) : Bool := decide (p.data.length ≤ 512) && inBlock p.off p.data.length

/-- A BAR2 size that the BAR can take (R461). -/
def CfgOp.wellFormed : CfgOp → Bool
  | .resizeBar2 k => decide (29 ≤ k) && decide (k ≤ 38)
  | _ => true

/-- Words of a chain transfer (R174) or of a CHAIN_DATA or QUEUE_DATA flit (R473). -/
def flitWords (n : Nat) : Bool := decide (0 < n) && decide (n ≤ 29)

/-- The checks, row by row. -/
def Instr.wellFormed : Instr → Bool
  | .hostWriteTlp _ p => p.wellFormed
  | .hostReadRequest _ _ _ _ off len => decide (len ≤ 4096) && inBlock off len
  | .registerWrite _ off wide _ => if wide then off % 8 == 0 else off % 4 == 0
  | .configRequest _ _ op => op.wellFormed
  | .qwDataWrite _ _ i _ | .qwDataRead _ _ i => decide (i < 4096)
  | .msixUnmask _ e => decide (e < 512)
  | .chainTransferArrive _ _ _ ws => flitWords ws.length
  | .queueData _ _ _ off ws => flitWords ws.length && decide (off < 8192)
  | .auth _ part _ bytes => decide (part.toNat ≤ 2) && decide (0 < bytes.length) && decide (bytes.length ≤ 240)
  | .admitList _ _ es => decide (es.length ≤ 30)
  | .perBankRefresh _ _ _ waited => decide (waited ≤ 8)
  | .patrolScrub _ granule => decide (granule < 2 ^ 31)
  | .sensorSample temps => temps.length == 20
  | .hostLinkTrained _ speed width _ | .hostLinkRetrain _ speed width _ =>
    decide (1 ≤ speed.toNat) && decide (speed.toNat ≤ 6) && decide (1 ≤ width.toNat) && decide (width.toNat ≤ 16)
  | .wakeSource code => decide (1 ≤ code.toNat) && decide (code.toNat ≤ 6)
  | .wakeStepReady us => decide (us ≤ 10000)
  | _ => true

end Sys2Proof
end

