-- ==== Sys2Proof/Safety.lean ====
section
/-! DEFINITION. The terms in which statements are made: that a command completes, what a command leaves alone, when a twig goes ahead,
and the tables of values that the spec gives for whole families. -/

namespace Sys2Proof.Safety

open Sys2Proof.Machine

/-! ### Completion and frames -/

/-- The command completes: `exec` answers a next state, and Q holds of it. -/
def RunsTo (c : Instr) (s : State) (Q : State → Prop) : Prop := ∃ s', exec c s = .next s' ∧ Q s'

/-- A frame is said by putting back what changed: with twig t as it was, the whole state is as it was. -/
def OnlyTwig (t : TwigId) (s s' : State) : Prop := s'.setTwig t (s.twig t) = s

/-- With bough b as it was, the whole state is as it was. -/
def OnlyBough (b : BoughId) (s s' : State) : Prop := s'.setBough b (s.bough b) = s

/-- Every bough but the one of twig t, and every core but twig t, is as it was. -/
def OtherTwigs (t : TwigId) (s s' : State) : Prop :=
  (∀ b : BoughId, t ≠ .bough b → s'.bough b = s.bough b) ∧ (∀ k : CoreId, t ≠ .crown k → s'.crn.cores[k] = s.crn.cores[k]) ∧
    { s'.crn with cores := s.crn.cores } = s.crn

/-- What lies in a bough beside its twig and its ownership cache is as it was. -/
def BoughKept (t : TwigId) (s s' : State) : Prop :=
  match t with
  | .bough b => { s'.bough b with twig := (s.bough b).twig, ocache := (s.bough b).ocache } = s.bough b
  | .crown _ => True

/-- What moving past an instruction may change in a twig: PC, the collected prefixes and the loop counts (R222), and during a
repetition RC and the repeat state (R224). -/
def Moved (w w' : Twig) : Prop :=
  { w' with pc := w.pc, past := w.past, pfx := w.pfx, lc0 := w.lc0, lc1 := w.lc1, rc := w.rc, rep := w.rep, repActive := w.repActive } = w ∧
    (w.rep = none → w'.rc = w.rc ∧ w'.rep = none) ∧ (w.lc0 = 0 → w'.lc0 = 0) ∧ (w.lc1 = 0 → w'.lc1 = 0)

/-! ### When a twig goes ahead with an instruction -/

/-- The state in which n words of the instruction under way are fetched. -/
def fetched (s : State) (t : TwigId) (n : Nat) : State := (s.modTwig t fun w => { w with sync := false }).fetchWords t n

/-- The next n words that twig t fetches are in its cache and sound (R45, R232, R234). -/
def WordsReady (s : State) (t : TwigId) (n : Nat) : Prop :=
  (∀ i, i < n → ((s.twig t).cached (s.progLine t ((s.twig t).fetchAt + i))).isSome = true) ∧ s.fetchFault t n = none

/-- Twig t stands before an instruction of which n words are in its cache and sound: the twig runs and no trap is due, no block is under
way, and it owes no wait to VCSR.SYNC (R29, R234). -/
structure TwigAt (s : State) (t : TwigId) (n : Nat) : Prop where
  ready : s.twigReady t = true
  noBlock : (s.twig t).block = none
  noSync : (s.twig t).sync = false
  words : WordsReady s t n

/-- Twig t executes an instruction of n words with guard gu that reads the G registers `reads`: it stands before it, no skipped repetition
is under way, its guard holds, and it has nothing to wait for (R29, R109). -/
structure TwigGo (s : State) (t : TwigId) (gu : PReg) (n : Nat) (reads : List GReg) : Prop extends TwigAt s t n where
  noSkip : (s.twig t).skips = false
  guard : (s.twig t).predBit gu = true
  waits : ∀ b, t = .bough b → (s.bough b).vfault = none ∧ ∀ r ∈ reads, (s.bough b).writesG r = false

/-- No repetition is under way, and no prefix precedes the instruction. -/
def Plain (s : State) (t : TwigId) : Prop := (s.twig t).rep = none ∧ (s.twig t).pfx = []

/-- Twig t's instruction i raises a twig fault with this cause and fault address: the fault leaves no more on record than what a read of the
twig's own storage does. -/
def FaultsAt (i : Instr) (s : State) (t : TwigId) (c : Cause) (a : Word) : Prop :=
  ∃ s0 : State, exec i s = .next (s0.twigFault t c a) ∧ s0.twig t = { s.twig t with repActive := false } ∧
    OnlyTwig t s { s0 with scr := s.scr, plots := s.plots, ring := s.ring, crownEvts := s.crownEvts, groves := s.groves, fresh := s.fresh }

/-- The buffer once its head has gone out (R165). -/
def headSent : List StoreOp → List StoreOp
  | [] => []
  | x :: xs => { x with sent := true } :: xs

/-- No vector instruction of the twig's bough is issued and uncommitted. -/
def Idle (s : State) (t : TwigId) : Prop := ∀ b, t = .bough b → (s.bough b).issued = []

/-! ### The loop-end evaluation of R222 -/

/-- The evaluation after an instruction that falls through to `next` and wrote no loop register: loop 1 first, and loop 0 where loop 1
does not loop back. Where neither does, PC is `next`, which may lie past the largest word address (R222, R232). -/
def afterFallThrough (w : Twig) (next : Nat) : Twig :=
  if w.lc1 ≠ 0 ∧ next = w.le1.toNat ∧ w.lc1 ≠ 1 then { w with lc1 := w.lc1 - 1, pc := w.ls1, past := false }
  else
    let w1 := if w.lc1 ≠ 0 ∧ next = w.le1.toNat then { w with lc1 := 0 } else w
    if w.lc0 ≠ 0 ∧ next = w.le0.toNat ∧ w.lc0 ≠ 1 then { w1 with lc0 := w.lc0 - 1, pc := w.ls0, past := false }
    else { w1 with lc0 := if next = w.le0.toNat then 0 else w.lc0, pc := BitVec.ofNat 20 next, past := decide (2 ^ 20 ≤ next) }

/-! ### Integer results (R206-R208, R213) -/

/-- An instruction that writes one G register: its words, whether it takes prefixes, whether its encoding is legal, the registers it
reads, its destination and the value it writes. -/
structure AluRow where
  t : TwigId
  gu : PReg
  words : Nat
  pfx : Bool
  legal : Prop
  reads : List GReg
  gd : GReg
  value : Twig → Word

/-- The shift amount: bits [6:0]. -/
def amount (x : Word) : Nat := (x.truncate 7).toNat

def aluRow : Instr → Option AluRow
  | .neg t gu gd => some ⟨t, gu, 1, false, True, [gd], gd, fun w => -(w.reg gd)⟩
  | .not t gu gd => some ⟨t, gu, 1, false, True, [gd], gd, fun w => ~~~(w.reg gd)⟩
  | .abs t gu gd => some ⟨t, gu, 1, false, True, [gd], gd, fun w => if (w.reg gd).toInt < 0 then -(w.reg gd) else w.reg gd⟩
  | .mov t gu gd gs => some ⟨t, gu, 1, false, True, [gs], gd, fun w => w.reg gs⟩
  | .add t gu gd gs => some ⟨t, gu, 1, false, True, [gd, gs], gd, fun w => w.reg gd + w.reg gs⟩
  | .sub t gu gd gs => some ⟨t, gu, 1, false, True, [gd, gs], gd, fun w => w.reg gd - w.reg gs⟩
  | .movi t gu gd imm => some ⟨t, gu, 1, true, True, [], gd, fun w => w.imm true 4 imm.toNat⟩
  | .addi t gu gd imm => some ⟨t, gu, 1, true, True, [gd], gd, fun w => w.reg gd + w.imm true 4 imm.toNat⟩
  | .and t gu gd gs z gt => some ⟨t, gu, 2, false, z = 0, [gs, gt], gd, fun w => w.reg gs &&& w.reg gt⟩
  | .or t gu gd gs z gt => some ⟨t, gu, 2, false, z = 0, [gs, gt], gd, fun w => w.reg gs ||| w.reg gt⟩
  | .xor t gu gd gs z gt => some ⟨t, gu, 2, false, z = 0, [gs, gt], gd, fun w => w.reg gs ^^^ w.reg gt⟩
  | .andn t gu gd gs z gt => some ⟨t, gu, 2, false, z = 0, [gs, gt], gd, fun w => w.reg gs &&& ~~~(w.reg gt)⟩
  | .add3 t gu gd gs z gt => some ⟨t, gu, 2, false, z = 0, [gs, gt], gd, fun w => w.reg gs + w.reg gt⟩
  | .sub3 t gu gd gs z gt => some ⟨t, gu, 2, false, z = 0, [gs, gt], gd, fun w => w.reg gs - w.reg gt⟩
  | .shl t gu gd gs z gt => some ⟨t, gu, 2, false, z = 0, [gs, gt], gd, fun w => w.reg gs <<< amount (w.reg gt)⟩
  | .shr t gu gd gs z gt => some ⟨t, gu, 2, false, z = 0, [gs, gt], gd, fun w => w.reg gs >>> amount (w.reg gt)⟩
  | .sra t gu gd gs z gt => some ⟨t, gu, 2, false, z = 0, [gs, gt], gd, fun w => (w.reg gs).sshiftRight (amount (w.reg gt))⟩
  | .rot t gu gd gs z gt => some ⟨t, gu, 2, false, z = 0, [gs, gt], gd, fun w => (w.reg gs).rotateLeft (amount (w.reg gt))⟩
  | .shli t gu gd gs z amt => some ⟨t, gu, 2, false, z = 0, [gs], gd, fun w => w.reg gs <<< amt.toNat⟩
  | .shri t gu gd gs z amt => some ⟨t, gu, 2, false, z = 0, [gs], gd, fun w => w.reg gs >>> amt.toNat⟩
  | .srai t gu gd gs z amt => some ⟨t, gu, 2, false, z = 0, [gs], gd, fun w => (w.reg gs).sshiftRight amt.toNat⟩
  | .roti t gu gd gs z amt => some ⟨t, gu, 2, false, z = 0, [gs], gd, fun w => (w.reg gs).rotateLeft amt.toNat⟩
  | .andi t gu gd gs imm => some ⟨t, gu, 2, true, True, [gs], gd, fun w => w.reg gs &&& w.imm true 8 imm.toNat⟩
  | .ori t gu gd gs imm => some ⟨t, gu, 2, true, True, [gs], gd, fun w => w.reg gs ||| w.imm true 8 imm.toNat⟩
  | .xori t gu gd gs imm => some ⟨t, gu, 2, true, True, [gs], gd, fun w => w.reg gs ^^^ w.imm true 8 imm.toNat⟩
  | .popc t gu gd gs z => some ⟨t, gu, 2, false, z = 0, [gs], gd, fun w => BitVec.ofNat 64 ((List.range 64).countP fun i => (w.reg gs).getLsbD i)⟩
  | .clz t gu gd gs z => some ⟨t, gu, 2, false, z = 0, [gs], gd, fun w => (w.reg gs).clz⟩
  | _ => none

/-! ### Predicates (R207, R209, R214) -/

/-- The comparison conditions of R209. -/
def cmpHolds (cc : BitVec 3) (x y : Word) : Prop :=
  match cc.toNat with
  | 0 => x = y
  | 1 => x ≠ y
  | 2 => x.toInt < y.toInt
  | 3 => y.toInt ≤ x.toInt
  | 4 => x.toNat < y.toNat
  | 5 => y.toNat ≤ x.toNat
  | 6 => x &&& y ≠ 0
  | _ => x &&& y = 0

/-! ### Guards (R203) -/

/-- The twig, guard and length of a guarded instruction other than REP, REPI and CHAIN, whose false guard skips more than themselves. -/
def guardRow (i : Instr) : Option (TwigId × PReg × Nat) :=
  match aluRow i with
  | some d => some (d.t, d.gu, d.words)
  | none =>
    match i with
    | .nop t gu | .isync t gu | .ret t gu | .resume t gu | .wfi t gu | .halt t gu | .fence t gu | .vwait t gu => some (t, gu, 1)
    | .jmpr t gu _ | .callr t gu _ | .sdadv t gu _ | .ld t gu _ _ | .st t gu _ _ | .br t gu _ | .call t gu _ => some (t, gu, 1)
    | .pnot t gu _ _ | .pmov t gu _ _ => some (t, gu, 1)
    | .mfc t gu _ _ _ _ | .mtc t gu _ _ _ _ | .pmr t gu _ _ _ | .pmw t gu _ _ _ _ => some (t, gu, 2)
    | .qopen t gu _ _ _ _ | .qput t gu _ _ _ _ | .qclose t gu _ _ _ _ | .qtake t gu _ _ _ _ | .qget t gu _ _ _ _
    | .qdone t gu _ _ _ _ | .qstat t gu _ _ _ _ => some (t, gu, 2)
    | .cmp t gu _ _ _ _ _ _ _ => some (t, gu, 2)
    | .ld8u t gu _ _ _ | .ld8s t gu _ _ _ | .ld16u t gu _ _ _ | .ld16s t gu _ _ _ | .ld32u t gu _ _ _ | .ld32s t gu _ _ _
    | .ld64 t gu _ _ _ | .st8 t gu _ _ _ | .st16 t gu _ _ _ | .st32 t gu _ _ _ | .st64 t gu _ _ _ => some (t, gu, 2)
    | .sdld t gu _ _ _ | .sdst t gu _ _ _ | .sdbase t gu _ _ _ => some (t, gu, 2)
    | .loop t gu _ _ _ _ | .loopi t gu _ _ _ _ | .setvl t gu _ _ _ _ => some (t, gu, 2)
    | .vadd t gu _ | .vsub t gu _ | .vmin t gu _ | .vmax t gu _ | .vabs t gu _ | .vneg t gu _ | .vcmpEq t gu _ | .vcmpNe t gu _
    | .vcmpLt t gu _ | .vcmpLe t gu _ | .vcmpGt t gu _ | .vcmpGe t gu _ | .vcmpUn t gu _ | .vmul t gu _ | .vfma t gu _ | .vfms t gu _
    | .vdot4 t gu _ | .vcvt t gu _ _ | .vand t gu _ | .vor t gu _ | .vxor t gu _ | .vnot t gu _ | .vshl t gu _ | .vshr t gu _
    | .vsra t gu _ | .vrot t gu _ | .vpopc t gu _ | .vclz t gu _ | .vsel t gu _ | .vcopy t gu _ | .vfill t gu _ | .vgatherf t gu _
    | .vdiv t gu _ | .vrem t gu _ | .vsqrt t gu _ | .vsum t gu _ | .vminr t gu _ | .vmaxr t gu _ | .vscan t gu _ | .vsegsum t gu _
    | .vcompress t gu _ | .vexpand t gu _ | .vmerge t gu _ | .vhashCrc t gu _ | .vhashMix t gu _ | .vbucket t gu _ => some (t, gu, 3)
    | _ => none

/-- The twig, guard and length of every guarded instruction whose words are fetched as its own, REP, REPI, CHAIN and PFX included. -/
def twigRow (i : Instr) : Option (TwigId × PReg × Nat) :=
  match guardRow i with
  | some r => some r
  | none =>
    match i with
    | .rep t gu _ _ | .repi t gu _ _ | .chain t gu _ => some (t, gu, 1)
    | .pfx t _ => some (t, 0, 1)
    | _ => none

/-! ### Control registers (R215) -/

/-- What MFC reads, by number; numbers 14 and 15 are reserved. -/
def ctlValue (s : State) (t : TwigId) (n : Nat) : Option Word :=
  let w := s.twig t
  match n with
  | 0 => some w.vcsr
  | 1 => some w.tsbp
  | 2 => some w.rc
  | 3 => some w.lc0
  | 4 => some (w.ls0.setWidth 64)
  | 5 => some (w.le0.setWidth 64)
  | 6 => some w.lc1
  | 7 => some (w.ls1.setWidth 64)
  | 8 => some (w.le1.setWidth 64)
  | 9 => some (BitVec.ofNat 64 w.vl)
  | 10 => some ((w.pred ||| 1).setWidth 64)
  | 11 => some s.ring.tick
  | 12 => some (BitVec.ofNat 64 w.shadow.length)
  | 13 =>
    match t with
    | .bough b => some (BitVec.ofNat 64 (b.val + 256 * (((s.boughPlot b.val).map fun m => m.plot).getD 0 % 64)))
    | .crown k => some (BitVec.ofNat 64 (k.val + 2 ^ 14))
  | _ => none

/-- The registers that MTC may write, and the twig with register n holding v, each register keeping the bits that it has (R124, R215,
R242). -/
def ctlWritten (w : Twig) (n : Nat) (v : Word) : Option Twig :=
  match n with
  | 0 => some { w with vcsr := v &&& 0x1f1f1f }
  | 1 => some { w with tsbp := v &&& 0xfffffffffe07 }
  | 2 => some { w with rc := v }
  | 3 => some { w with lc0 := v }
  | 4 => some { w with ls0 := v.setWidth 20 }
  | 5 => some { w with le0 := v.setWidth 20 }
  | 6 => some { w with lc1 := v }
  | 7 => some { w with ls1 := v.setWidth 20 }
  | 8 => some { w with le1 := v.setWidth 20 }
  | 10 => some { w with pred := v.setWidth 4 ||| 1 }
  | _ => none

/-! ### Loads and stores (R206, R210, R227-R229) -/

/-- A load: its twig, guard, words, destination, base register, width in bytes, signedness and the bits of its own offset. -/
structure MemRow where
  t : TwigId
  gu : PReg
  words : Nat
  g : GReg
  gb : GReg
  size : Nat
  signed : Bool
  k : Nat
  off : Nat

def loadRow : Instr → Option MemRow
  | .ld t gu gd gb => some ⟨t, gu, 1, gd, gb, 8, false, 0, 0⟩
  | .ld8u t gu gd gb off => some ⟨t, gu, 2, gd, gb, 1, false, 10, off.toNat⟩
  | .ld8s t gu gd gb off => some ⟨t, gu, 2, gd, gb, 1, true, 10, off.toNat⟩
  | .ld16u t gu gd gb off => some ⟨t, gu, 2, gd, gb, 2, false, 10, off.toNat⟩
  | .ld16s t gu gd gb off => some ⟨t, gu, 2, gd, gb, 2, true, 10, off.toNat⟩
  | .ld32u t gu gd gb off => some ⟨t, gu, 2, gd, gb, 4, false, 10, off.toNat⟩
  | .ld32s t gu gd gb off => some ⟨t, gu, 2, gd, gb, 4, true, 10, off.toNat⟩
  | .ld64 t gu gd gb off => some ⟨t, gu, 2, gd, gb, 8, false, 10, off.toNat⟩
  | _ => none

def storeRow : Instr → Option MemRow
  | .st t gu gs gb => some ⟨t, gu, 1, gs, gb, 8, false, 0, 0⟩
  | .st8 t gu gs gb off => some ⟨t, gu, 2, gs, gb, 1, false, 10, off.toNat⟩
  | .st16 t gu gs gb off => some ⟨t, gu, 2, gs, gb, 2, false, 10, off.toNat⟩
  | .st32 t gu gs gb off => some ⟨t, gu, 2, gs, gb, 4, false, 10, off.toNat⟩
  | .st64 t gu gs gb off => some ⟨t, gu, 2, gs, gb, 8, false, 10, off.toNat⟩
  | _ => none

/-- The address that an access computes: base register plus offset, modulo 2^64. -/
def MemRow.addr (d : MemRow) (w : Twig) : Word := w.reg d.gb + w.imm true d.k d.off

/-- Byte i of a register value. -/
def byteOf (v : Word) (i : Nat) : Byte := (v >>> (8 * i)).setWidth 8

/-- The value that n little-endian bytes spell, extended to 64 bits. -/
def extended (n : Nat) (signed : Bool) (bs : List Byte) : Word :=
  if signed then BitVec.ofInt 64 ((BitVec.ofNat (8 * n) (bytesNat bs)).toInt) else BitVec.ofNat 64 (bytesNat bs)

/-- The granules of the bytes [a, a + n) can be written: none of them is a dead row (R326). -/
def Alive (m : Memory) (a n : Nat) : Prop := ∀ i, i < n → (a + i) / 64 ∉ m.dead

/-- After a write of the bytes `bs` at `a`, those bytes read back and every other byte reads as before. -/
def Stored (m m' : Memory) (a : Nat) (bs : List Byte) : Prop :=
  ∀ x, m'.read x = if a ≤ x ∧ x < a + bs.length then bs.getD (x - a) 0 else m.read x

/-- Every byte of memory reads as before. -/
def SameBytes (m m' : Memory) : Prop := ∀ x, m'.read x = m.read x

/-! ### Traps (R243-R247) -/

/-- Twig t has entered the handler of a twig fault with this cause and fault address: the TSB holds PC, cause word and fault address,
PC is the vector, VALID is clear, and the G registers are as they were. -/
structure Entered (t : TwigId) (c : Cause) (addr : Word) (s s' : State) : Prop where
  pc : (s'.twig t).pc = BitVec.ofNat 20 (4 * c.num)
  valid : (s'.twig t).tsbp = (s.twig t).tsbp &&& ~~~1
  regs : (s'.twig t).g = (s.twig t).g
  savedPc : s'.mem.readWord (tsbBase (s.twig t).tsbp) = (s.twig t).pc.setWidth 64
  savedCause : s'.mem.readWord (tsbBase (s.twig t).tsbp + 8) = BitVec.ofNat 64 c.num
  savedAddr : s'.mem.readWord (tsbBase (s.twig t).tsbp + 24) = addr

/-- The TSB of twig t is usable (R243), and its storage takes writes. -/
def TsbReady (s : State) (t : TwigId) : Prop :=
  (s.twig t).tsbp.getLsbD 0 = true ∧ ownBase t ≤ tsbBase (s.twig t).tsbp ∧ tsbBase (s.twig t).tsbp + 512 ≤ ownBase t + ownSize t ∧
    Alive s.mem (tsbBase (s.twig t).tsbp) 328

/-- The stack checks of R218 pass for twig t with G15 = sp. -/
def PushValid (t : TwigId) (sp : Word) : Prop :=
  sp.toNat % 8 = 0 ∧ ownBase t + 8 ≤ sp.toNat ∧ sp.toNat ≤ ownBase t + ownSize t

/-! ### Queue commands (R235, R344-R347) -/

/-- Twig t executes a queue command on queue q, which Gs names, in a role that it holds. -/
structure QueueGo (s : State) (t : TwigId) (gu : PReg) (gs gt : GReg) (need : Need) (q : QueueId) : Prop where
  go : TwigGo s t gu 2 [gs, gt]
  plain : Plain s t
  idle : Idle s t
  names : (s.twig t).reg gs = BitVec.ofNat 64 q.val
  role : s.hasRole t q.val need = true

/-- What a queue command may change beside its own queue: the twig's Gd and what moving past changes. -/
def QueueTwig (t : TwigId) (gd : GReg) (v : Word) (s s' : State) : Prop :=
  (∀ r, (s'.twig t).reg r = if r = gd then v else (s.twig t).reg r) ∧ Moved (s.twig t) { s'.twig t with g := (s.twig t).g }

/-- With queue q as it was, the queues are as they were. -/
def OnlyQueue (q : QueueId) (s s' : State) : Prop := s'.queues.set q.val s.queues[q] q.isLt = s.queues

/-- The twig waits at instruction i and nothing but that wait keeps it: it runs, and no trap is due first. -/
def WaitsAt (s : State) (t : TwigId) (i : Instr) : Prop :=
  (s.twig t).waiting = some i ∧ s.waitOver t = true ∧ s.codeRuns t = true ∧ (s.twig t).run = .running ∧ s.trapDue t = none

/-! ### Chain links (chapter 07) -/

/-- A link inside the device that is not broken; it has no relay. -/
def Inner (l : Link) : Prop := l.fromGraft = false ∧ l.toGraft = false ∧ l.broken = false ∧ l.relay = []

/-- No run of the receiving bough of link l is filling, so what arrives stays in the chain buffer. -/
def NoReceiver (s : State) (l : Link) : Prop := ∀ h, (s.half (boughId l.dstBough) h).st ≠ .filling

/-- What the receiving buffer holds of an epoch; an epoch of which nothing has arrived is empty. -/
def epochRec (l : Link) (ep : BitVec 16) : RxEpoch :=
  (l.eps.find? fun e => e.ep = ep).getD { ep := ep, base := 0, words := [], endLen := none, committed := false, custody := false, cut := 0, fwd := 0 }

/-- Only link i changes. -/
def OnlyLink (i : Nat) (s s' : State) : Prop := (∀ j, j ≠ i → s'.links[j]? = s.links[j]?) ∧ { s' with links := s.links } = s

/-! ### Host access (chapter 11) -/

/-- A host function's window or register access goes through at once (R302, R305, R466). -/
def Reaches (s : State) (fn : HostFn) (i : Instr) : Prop := s.fnReaches fn = true ∧ s.tlpWaits fn i = false

/-- With port n as it was, the ports are as they were. -/
def OnlyPort (n : PortId) (s s' : State) : Prop := s'.ports.set n.val s.ports[n] n.isLt = s.ports

/-! ### Device services (chapters 16 to 20) -/

/-- The ledger takes a new item: the device is in RUN and the journal has a free slot (R428). -/
def LedgerTakes (s : State) : Prop := s.sys.mode = .run ∧ s.ring.journal.length < 7680

/-- An SPDM request on transport tr is answered now: the responder runs, and a port's transport is up and holds nothing (R445, R466). -/
def Heard (s : State) (tr : Fin 9) (i : Instr) : Prop :=
  s.responderUp = true ∧ s.trUp tr = true ∧ ∀ n, trPort tr = some n → s.portWaits n i = false

/-- Transport tr sends r, and nothing but the heartwood's state changes; the other transports and the IDE keys are as they were. -/
def Answers (tr : Fin 9) (r : SpdmResp) (s s' : State) : Prop :=
  s'.outbox = s.outbox ++ [.spdm tr r] ∧ (∀ k, k ≠ tr → s'.hwd.transports[k] = s.hwd.transports[k]) ∧ s'.hwd.ide = s.hwd.ide ∧
    { s' with hwd := s.hwd, outbox := s.outbox, fresh := s.fresh } = s

end Sys2Proof.Safety
end

