-- ==== Sys2Proof/Certificates/Slice0/Obligations.lean ====
section
/-! DEFINITION. The statements for the provers, one definition each. -/

open Sys2Proof Sys2Proof.Machine Sys2Proof.Safety

/-! ### The block as a whole -/

/-- A step takes the front command and runs `exec` on the state with the rest of the queue. With no command waiting, the next twig has its turn (the
model's choice, log entries 2 and 158): the trap that is due is taken, or the instruction that its fetched words spell runs as the command of that
instruction does; a twig that does not run or that waits lets the turn pass. -/
def Obligations.StepRunsFront : Prop :=
  (∀ c cs s, s.pending = c :: cs → step s = exec c { s with pending := cs }) ∧
  ∀ s : State, s.pending = [] →
    let t := twigOfTurn s.turn
    let s1 : State := { s.portsTurn with turn := (s.turn + 1) % 260 }
    let x := (s1.twig t).fetchAt
    let w := s1.fetchedWord t x
    ((∀ n : PortId, s.grafts[n].waiting = []) → s.portsTurn = s) ∧
    (s1.codeRuns t = false ∨ (s1.twig t).run ≠ .running ∨ (s1.twig t).load ≠ none → step s = .next s1) ∧
    (s1.codeRuns t = true → (s1.twig t).run = .running → (s1.twig t).load = none →
      (∀ k, s1.trapDue t = some k → s1.tsbHeld t = false → step s = .next (s1.takeTrap t k)) ∧
      (s1.trapDue t = none → (s1.twig t).waiting ≠ none → step s = .next s1)) ∧
    (∀ i, s1.twigReady t = true → WordsReady s1 t (wordsOfHead w) → decodeTwig t w (s1.fetchedWord t (x + 1)) (s1.fetchedWord t (x + 2)) = some i →
      step s = exec i s1)

/-! ### Twig instructions (chapter 08) -/

/-- The arithmetic, logic, shift and move instructions write Gd with their result and change nothing else but what moving past an instruction
changes: NEG, NOT, ABS, MOV, ADD, SUB, MOVI, ADDI, AND, OR, XOR, ANDN, ADD3, SUB3, SHL, SHR, SRA, ROT, SHLI, SHRI, SRAI, ROTI, ANDI, ORI, XORI,
POPC, CLZ (R206-R208, R213). -/
def Obligations.TwigAluResult : Prop :=
  ∀ i (s : State) d, aluRow i = some d → d.legal → TwigGo s d.t d.gu d.words d.reads → (d.pfx = true ∨ (s.twig d.t).pfx = []) →
    RunsTo i s fun s' =>
      (∀ r, (s'.twig d.t).reg r = if r = d.gd then d.value (s.twig d.t) else (s.twig d.t).reg r) ∧
        Moved (s.twig d.t) { s'.twig d.t with g := (s.twig d.t).g } ∧ OnlyTwig d.t s s'

/-- PNOT, PMOV and CMP write their predicate alone; a write to P0 is discarded (R201, R207, R209, R214). -/
def Obligations.TwigPredicates : Prop :=
  (∀ (s : State) t gu pd ps, TwigGo s t gu 1 [] → (s.twig t).pfx = [] →
    RunsTo (.pnot t gu pd ps) s fun s' =>
      (∀ p, (s'.twig t).predBit p = if p = pd ∧ p ≠ 0 then !(s.twig t).predBit ps else (s.twig t).predBit p) ∧
        Moved (s.twig t) { s'.twig t with pred := (s.twig t).pred } ∧ OnlyTwig t s s') ∧
  (∀ (s : State) t gu pd ps, TwigGo s t gu 1 [] → (s.twig t).pfx = [] →
    RunsTo (.pmov t gu pd ps) s fun s' =>
      (∀ p, (s'.twig t).predBit p = if p = pd ∧ p ≠ 0 then (s.twig t).predBit ps else (s.twig t).predBit p) ∧
        Moved (s.twig t) { s'.twig t with pred := (s.twig t).pred } ∧ OnlyTwig t s s') ∧
  (∀ (s : State) t gu gs gt cc pd md im imm, TwigGo s t gu 2 (if im then [gs] else [gs, gt]) → (im = true ∨ (s.twig t).pfx = []) →
    md ≠ 3 → (im = true → gt = 0) → (im = false → imm = 0) →
    RunsTo (.cmp t gu gs gt cc pd md im imm) s fun s' =>
      let w := s.twig t
      let y := if im then w.imm true 6 imm.toNat else w.reg gt
      (∀ p, (s'.twig t).predBit p = true ↔
        if p = pd ∧ p ≠ 0 then
          (if md = 0 then cmpHolds cc (w.reg gs) y else if md = 1 then w.predBit p = true ∧ cmpHolds cc (w.reg gs) y
           else w.predBit p = true ∨ cmpHolds cc (w.reg gs) y)
        else w.predBit p = true) ∧
        Moved w { s'.twig t with pred := w.pred } ∧ OnlyTwig t s s')

/-- A PFX word joins the payloads before it, a seventh raises ILLEGAL, and payloads in program order extend the immediate of the instruction that
they prefix (R204, R205). NOP and ISYNC fall through with the loop-end evaluation of R222; ISYNC also drops the line buffer and every stale line
(R207, R222, R234). With a false guard an instruction has no effect and PC moves past all of its words, and CHAIN's past the block; for every guarded
twig instruction but REP and REPI (R91, R203). An instruction whose words the cache does not hold runs as it does after the fill of their lines: the
fill changes the cache, the line buffer and the grove's error record alone (R45, R234). -/
def Obligations.ImmediatesGuardsAndFallThrough : Prop :=
  ((∀ (s : State) t p, TwigAt s t 1 → (s.twig t).pfx.length < 6 ∨ (s.twig t).repSkips = true →
     RunsTo (.pfx t p) s fun s' => s'.twig t = { s.twig t with pfx := (s.twig t).pfx ++ [p] } ∧ OnlyTwig t s s') ∧
   (∀ (s : State) t p, TwigAt s t 1 → 6 ≤ (s.twig t).pfx.length → (s.twig t).repSkips = false → s.tsbHeld t = false →
     exec (.pfx t p) s = .next (s.twigFault t .illegal 0)) ∧
   (∀ (w : Twig) (p q : BitVec 10) (x : BitVec 4), w.pfx = [p, q] → w.imm true 4 x.toNat = (p ++ q ++ x).signExtend 64 ∧
     w.imm false 4 x.toNat = (p ++ q ++ x).setWidth 64) ∧
   (∀ (w : Twig) (p : BitVec 10) (x : BitVec 8), w.pfx = [p] → w.imm true 8 x.toNat = (p ++ x).signExtend 64) ∧
   ∀ (w : Twig) (p1 p2 p3 p4 p5 p6 : BitVec 10) (x : BitVec 4), w.pfx = [p1, p2, p3, p4, p5, p6] →
     w.imm true 4 x.toNat = p1 ++ p2 ++ p3 ++ p4 ++ p5 ++ p6 ++ x) ∧
  ((∀ (s : State) t gu, TwigGo s t gu 1 [] → Plain s t →
     RunsTo (.nop t gu) s fun s' =>
       s'.twig t = afterFallThrough { s.twig t with repActive := false } ((s.twig t).pc.toNat + 1) ∧ OnlyTwig t s s') ∧
   (∀ (s : State) t gu, TwigGo s t gu 1 [] → Plain s t →
     RunsTo (.isync t gu) s fun s' =>
       s'.twig t = afterFallThrough { s.twig t with repActive := false, lineBuf := none, icache := (s.twig t).icache.filter fun c => !c.stale }
         ((s.twig t).pc.toNat + 1) ∧ OnlyTwig t s s')) ∧
  ((∀ i (s : State) t gu n, guardRow i = some (t, gu, n) ∨ (∃ k : BitVec 4, i = .chain t gu k ∧ n = 1 + 3 * k.toNat) → TwigAt s t 1 →
     (s.twig t).rep = none → (s.twig t).predBit gu = false →
     RunsTo i s fun s' =>
       s'.twig t = afterFallThrough { s.twig t with repActive := false, pfx := [] } ((s.twig t).pc.toNat + (s.twig t).pfx.length + n) ∧
         OnlyTwig t s s') ∧
   (∀ i (s : State) t gu n, twigRow i = some (t, gu, n) → s.twigReady t = true → (s.twig t).block = none → s.syncWaits t = false →
     s.syncFault t = none →
     let line := s.progLine t (s.twig t).fetchAt
     let s1 := fetched s t 1
     exec i s = exec i s1 ∧ { s1.twig t with sync := (s.twig t).sync, icache := (s.twig t).icache, lineBuf := (s.twig t).lineBuf } = s.twig t ∧
       OnlyTwig t s { s1 with groves := s.groves } ∧
       ((s.twig t).cached line = none → (s.twig t).fetchAt < s.regionLen t → ∃ c, (s1.twig t).lineBuf = some c ∧ (s1.twig t).cached line = some c ∧
         c.line = line ∧ c.stale = false ∧ c.bad = s.mem.badLine (lineAddr t line) ∧
         ∀ k, k < 16 → c.words[k]? = some (BitVec.ofNat 14 (bytesNat (s.mem.readN (lineAddr t line + 2 * k) 2))))) ∧
   ∀ i (s : State) t gu n, twigRow i = some (t, gu, n) → TwigAt s t 1 → (s.twig t).rep = none → (s.twig t).predBit gu = true →
     (s.twig t).cached (s.progLine t (s.twig t).fetchAt) = ((s.twig t).icache.find? fun c => c.line == s.progLine t (s.twig t).fetchAt) →
     exec i s = exec i (s.fetchWords t n))

/-- MFC reads and MTC writes the control registers of R215 and nothing else (R29, R109, R215, R216). -/
def Obligations.ControlRegisters : Prop :=
  (∀ (s : State) t gu gd (n : Fin 16) v, TwigGo s t gu 2 [] → (s.twig t).pfx = [] → Idle s t → (s.twig t).rep = none → ctlValue s t n.val = some v →
    RunsTo (.mfc t gu gd 0 0 n) s fun s' =>
      (∀ r, (s'.twig t).reg r = if r = gd then v else (s.twig t).reg r) ∧
        Moved (s.twig t) { s'.twig t with g := (s.twig t).g } ∧ OnlyTwig t s s') ∧
  ∀ (s : State) t gu gs (n : Fin 16) w', TwigGo s t gu 2 [gs] → (s.twig t).pfx = [] → Idle s t → (s.twig t).rep = none →
    ctlWritten (s.twig t) n.val ((s.twig t).reg gs) = some w' →
    RunsTo (.mtc t gu 0 gs 0 n) s fun s' =>
      Moved w' (s'.twig t) ∧ (n = 3 → (s'.twig t).lc0 = w'.lc0) ∧ (n = 6 → (s'.twig t).lc1 = w'.lc1) ∧ OnlyTwig t s s'

/-- A BR or JMPR whose target lies in the program region transfers to it and changes nothing else; one whose target lies outside raises ACCESS with
the target as fault address (R217, R222). CALL and CALLR push the address that follows the CALL onto the data stack and the shadow stack and
transfer; an invalid stack raises STACK, and a full shadow stack SHADOW_FULL, before the target is checked (R217, R218); behind buffered stores the
push joins them (the model's choice, log entry 151). RET pops an address that the data stack and the shadow stack agree on and transfers to it; an
invalid stack raises STACK, a word in error POISON, and an empty shadow stack or a difference CFI (R219). -/
def Obligations.ControlTransfer : Prop :=
  ((∀ (s : State) t gu off, TwigGo s t gu 1 [] → (s.twig t).rep = none →
     let w := s.twig t
     let x : Word := (w.pc + BitVec.ofNat 20 w.pfx.length).setWidth 64 + w.imm true 8 off.toNat
     (x.toNat < s.regionLen t →
       RunsTo (.br t gu off) s fun s' => s'.twig t = { w with pc := x.setWidth 20, past := false, pfx := [], repActive := false } ∧ OnlyTwig t s s') ∧
     (s.regionLen t ≤ x.toNat → s.tsbHeld t = false → FaultsAt (.br t gu off) s t .access x)) ∧
   ∀ (s : State) t gu gs, TwigGo s t gu 1 [gs] → Plain s t →
     let w := s.twig t
     (((w.reg gs).toNat < s.regionLen t) →
       RunsTo (.jmpr t gu gs) s fun s' =>
         s'.twig t = { w with pc := (w.reg gs).setWidth 20, past := false, repActive := false } ∧ OnlyTwig t s s') ∧
     (s.regionLen t ≤ (w.reg gs).toNat → s.tsbHeld t = false → FaultsAt (.jmpr t gu gs) s t .access (w.reg gs))) ∧
  (∀ i (s : State) t gu (x : Word) reads,
     ((∃ off, i = .call t gu off ∧ x = ((s.twig t).pc + BitVec.ofNat 20 (s.twig t).pfx.length).setWidth 64 + (s.twig t).imm true 8 off.toNat ∧
         reads = [15]) ∨
       ∃ gs, i = .callr t gu gs ∧ (s.twig t).pfx = [] ∧ x = (s.twig t).reg gs ∧ reads = [15, gs]) →
     TwigGo s t gu 1 reads → (s.twig t).rep = none → Idle s t → s.tsbHeld t = false →
     let w := s.twig t
     let sp := w.reg 15
     let ra : WordAddr := w.pc + BitVec.ofNat 20 w.pfx.length + 1
     let gone : Twig := { w with g := vset w.g 15 (sp - 8), shadow := ra :: w.shadow, pc := x.setWidth 20, past := false, pfx := [], repActive := false }
     (¬ PushValid t sp → FaultsAt i s t .stack sp) ∧
     (PushValid t sp → 1024 ≤ w.shadow.length → FaultsAt i s t .shadowFull (ra.setWidth 64)) ∧
     (PushValid t sp → w.shadow.length < 1024 → s.regionLen t ≤ x.toNat → FaultsAt i s t .access x) ∧
     (PushValid t sp → w.shadow.length < 1024 → x.toNat < s.regionLen t → w.stores = [] → (∀ tgt, s.entryCovers tgt (sp - 8).toNat = false) →
       Alive s.mem (sp - 8).toNat 8 →
       RunsTo i s fun s' =>
         s'.twig t = gone ∧ Stored s.mem s'.mem (sp - 8).toNat (wordBytes 8 ra.toNat) ∧ OnlyTwig t s { s' with mem := s.mem, plots := s.plots }) ∧
     (PushValid t sp → w.shadow.length < 1024 → x.toNat < s.regionLen t → w.stores.length < storeCap t →
       (∃ y, w.stores.head? = some y ∧ y.sent = true) →
       RunsTo i s fun s' =>
         s'.twig t = { gone with stores := w.stores ++ [{ id := s.nextId, addr := (sp - 8).toNat, bytes := wordBytes 8 ra.toNat, sent := false, visible := false }] } ∧
           OnlyTwig t s { s' with nextId := s.nextId })) ∧
  (∀ (s : State) t gu, TwigGo s t gu 1 [15] → Plain s t → Idle s t → s.tsbHeld t = false →
     let w := s.twig t
     let sp := w.reg 15
     let valid := sp.toNat % 8 = 0 ∧ ownBase t ≤ sp.toNat ∧ sp.toNat + 8 ≤ ownBase t + ownSize t
     (¬ valid → FaultsAt (.ret t gu) s t .stack sp) ∧
     (valid → s.ownReadWaits t sp.toNat 8 = true → RunsTo (.ret t gu) s fun s' =>
       s'.twig t = { w with waiting := some (.ret t gu), wait := .load, repActive := false } ∧ OnlyTwig t s s') ∧
     (valid → s.ownReadWaits t sp.toNat 8 = false → s.mem.badByte sp.toNat = true → FaultsAt (.ret t gu) s t .poison sp) ∧
     (valid → s.ownReadWaits t sp.toNat 8 = false → s.mem.badByte sp.toNat = false →
       (∀ ra, w.shadow.head? = some ra → s.mem.readWord sp.toNat ≠ ra.setWidth 64) →
       FaultsAt (.ret t gu) s t .cfi (s.mem.readWord sp.toNat)) ∧
     ∀ ra rest, valid → s.ownReadWaits t sp.toNat 8 = false → s.mem.badByte sp.toNat = false → w.shadow = ra :: rest →
       s.mem.readWord sp.toNat = ra.setWidth 64 →
       RunsTo (.ret t gu) s fun s' =>
         s'.twig t = { w with g := vset w.g 15 (sp + 8), shadow := rest, pc := ra, past := false, repActive := false } ∧
           OnlyTwig t s { s' with scr := s.scr, plots := s.plots, ring := s.ring, crownEvts := s.crownEvts, fresh := s.fresh })

/-- LOOP and LOOPI set LSn, LEn and LCn; a count of 0 transfers to LEn, any other falls into the body (R221). REP and REPI latch their count into RC;
the target then runs with RC counting the repetitions still to run, that one included, and the last one falls through past the target; a count of 0
and a REP with a false guard skip the target, and a target that may not be repeated raises ILLEGAL_REP with RC as it was before the REP (R224, R225).
A REP whose repetitions RESUME restored goes on with the RC in force (R226). The target here is ADD, and NOP one that may not be repeated. -/
def Obligations.LoopsAndRepeats : Prop :=
  (∀ i (s : State) t gu (n : Fin 2) (count : Word) (fin : BitVec 14) reads,
     ((∃ gc, i = .loop t gu 0 n gc fin ∧ (s.twig t).pfx = [] ∧ count = (s.twig t).reg gc ∧ reads = [gc]) ∨
       ∃ c, i = .loopi t gu 0 n c fin ∧ count = (s.twig t).imm false 4 c.toNat ∧ reads = []) →
     fin ≠ 0 → TwigGo s t gu 2 reads → (s.twig t).rep = none →
     RunsTo i s fun s' =>
       let w := s.twig t
       let w' := s'.twig t
       let ls : WordAddr := w.pc + BitVec.ofNat 20 w.pfx.length + 2
       let le : WordAddr := ls + fin.setWidth 20
       (if n = 0 then w'.lc0 = count ∧ w'.ls0 = ls ∧ w'.le0 = le ∧ w'.ls1 = w.ls1 ∧ w'.le1 = w.le1
        else w'.lc1 = count ∧ w'.ls1 = ls ∧ w'.le1 = le ∧ w'.ls0 = w.ls0 ∧ w'.le0 = w.le0) ∧
         (count = 0 → w'.pc = le) ∧ (count ≠ 0 → (n = 0 → w.lc1 = 0 → w'.pc = ls) ∧ (n = 1 → w.lc0 = 0 → w'.pc = ls)) ∧
         Moved w { w' with lc0 := w.lc0, ls0 := w.ls0, le0 := w.le0, lc1 := w.lc1, ls1 := w.ls1, le1 := w.le1 } ∧ OnlyTwig t s s') ∧
  ((∀ i (s : State) t gu (count : Word) reads,
     ((∃ gc, i = .rep t gu 0 gc ∧ (s.twig t).pfx = [] ∧ count = (s.twig t).reg gc ∧ reads = [gc]) ∨
       ∃ c, i = .repi t gu 0 c ∧ count = (s.twig t).imm false 4 c.toNat ∧ reads = []) →
     (s.twig t).rep = none →
     let w := s.twig t
     let at_ (rc : Word) (old : Option Word) (skip : Bool) (s' : State) : Prop :=
       s'.twig t = { w with pfx := [], rc := rc, repActive := false, rep := some { len := w.pfx.length + 1, old := old, skip := skip } } ∧ OnlyTwig t s s'
     (TwigGo s t gu 1 reads → w.repActive = false → RunsTo i s (at_ count (some w.rc) false)) ∧
     (TwigAt s t 1 → w.repActive = true → RunsTo i s (at_ w.rc none false)) ∧
     (TwigAt s t 1 → w.repActive = false → w.predBit gu = false → RunsTo i s (at_ w.rc none true))) ∧
   (∀ (s : State) t gd gs r, (s.twig t).rep = some r → TwigGo s t 0 1 [gd, gs] → (s.twig t).pfx = [] →
     RunsTo (.add t 0 gd gs) s fun s' =>
       (s'.twig t).reg gd = (s.twig t).reg gd + (s.twig t).reg gs ∧
         ((s.twig t).rc ≠ 1 → (s'.twig t).rc = (s.twig t).rc - 1 ∧ (s'.twig t).rep = some { r with old := none } ∧ (s'.twig t).pc = (s.twig t).pc) ∧
         ((s.twig t).rc = 1 → (s'.twig t).rc = 0 ∧ (s'.twig t).rep = none ∧
           ((s.twig t).lc0 = 0 → (s.twig t).lc1 = 0 → (s'.twig t).pc = (s.twig t).pc + BitVec.ofNat 20 (r.len + 1)))) ∧
   (∀ (s : State) t gd gs r, (s.twig t).rep = some r → r.skip = true ∨ (s.twig t).rc = 0 → TwigAt s t 1 → (s.twig t).pfx = [] →
     (s.twig t).lc0 = 0 → (s.twig t).lc1 = 0 →
     RunsTo (.add t 0 gd gs) s fun s' =>
       (s'.twig t).g = (s.twig t).g ∧ (s'.twig t).rc = (s.twig t).rc ∧ (s'.twig t).rep = none ∧
         (s'.twig t).pc = (s.twig t).pc + BitVec.ofNat 20 (r.len + 1) ∧ OnlyTwig t s s') ∧
   ∀ (s : State) t gu r, (s.twig t).rep = some r → r.skip = false → TwigAt s t 1 → s.tsbHeld t = false →
     ∃ s0 : State, exec (.nop t gu) s = .next (s0.twigFault t .illegalRep 0) ∧ s0.twig t = { s.twig t with rc := r.old.getD (s.twig t).rc } ∧
       OnlyTwig t s s0)

/-- A load whose checks pass waits for its data and has changed no register and no byte of memory; LD, LD8U, LD8S, LD16U, LD16S, LD32U, LD32S, LD64
(R206, R210, R227, R229). A load or store that needs a region that the ownership cache does not hold starts its lookup and waits at the port (R304);
one that fails its check raises the fault with the address of the failing part; memory and the destination are unchanged when the trap is taken (R64,
R227, R228). TWIG_LOAD_RETURN completes a load: Gd takes the little-endian bytes, zero- or sign-extended, from memory, from a program store, whose
words read with bits [15:14] 0 (R43), from the responses of the root slices or from the register space; nothing else of the machine changes but what
a read counts (R210, R228, R229). -/
def Obligations.Loads : Prop :=
  (∀ i (s : State) d, loadRow i = some d → TwigGo s d.t d.gu d.words [d.gb] → Idle s d.t →
     let w := s.twig d.t
     let a := (d.addr w).toNat
     s.twigPortWaits d.t (accessParts a d.size) = false → s.portHolds d.t = false →
     s.accessFault d.t true (accessParts a d.size) = none → w.overlapsStore a d.size = false →
     RunsTo i s fun s' =>
       (∃ l, (s'.twig d.t).load = some l ∧ l.gd = d.g ∧ l.addr = a ∧ l.size = d.size ∧ l.signed = d.signed ∧ l.words = d.words ∧ l.got = [] ∧
         l.owed.length = ((accessParts a d.size).filter fun p => decide (p.1 < rootSize)).length) ∧
         Moved w { s'.twig d.t with load := w.load } ∧ (s'.twig d.t).pc = w.pc ∧ OtherTwigs d.t s s' ∧ BoughKept d.t s s' ∧
         { s' with boughs := s.boughs, crn := s.crn, groves := s.groves, slices := s.slices, nextId := s.nextId } = s) ∧
  ((∀ i (s : State) d, (loadRow i = some d ∧ TwigGo s d.t d.gu d.words [d.gb] ∨ storeRow i = some d ∧ TwigGo s d.t d.gu d.words [d.g, d.gb]) →
     let a := (d.addr (s.twig d.t)).toNat
     s.twigPortWaits d.t (accessParts a d.size) = true →
     RunsTo i s fun s' =>
       (s'.twig d.t).waiting = some i ∧ (s'.twig d.t).wait = .load ∧ (s'.twig d.t).g = (s.twig d.t).g ∧ (s'.twig d.t).stores = (s.twig d.t).stores ∧
         (s'.twig d.t).load = (s.twig d.t).load ∧ s'.mem = s.mem ∧ s'.slices = s.slices ∧
         ∀ b r, d.t = .bough b → (s.bough b).lookup = none → accessParts a d.size = [(a, d.size)] → placeOf a = .root r →
           (s'.bough b).lookup = some r ∧ s'.cnp = { s.cnp with ownMiss := s.cnp.ownMiss + 1 }) ∧
   (∀ i (s : State) d c x, loadRow i = some d → TwigGo s d.t d.gu d.words [d.gb] → s.tsbHeld d.t = false →
     s.twigPortWaits d.t (accessParts (d.addr (s.twig d.t)).toNat d.size) = false →
     s.accessFault d.t true (accessParts (d.addr (s.twig d.t)).toNat d.size) = some (c, x) →
     ∃ s0 : State, exec i s = .next (s0.twigFault d.t c (BitVec.ofNat 64 x)) ∧ s0.mem = s.mem ∧ (s0.twig d.t).g = (s.twig d.t).g ∧ (s0.twig d.t).pc = (s.twig d.t).pc) ∧
   (∀ i (s : State) d c x, storeRow i = some d → TwigGo s d.t d.gu d.words [d.g, d.gb] → s.tsbHeld d.t = false →
     s.twigPortWaits d.t (accessParts (d.addr (s.twig d.t)).toNat d.size) = false →
     s.accessFault d.t false (accessParts (d.addr (s.twig d.t)).toNat d.size) = some (c, x) →
     ∃ s0 : State, exec i s = .next (s0.twigFault d.t c (BitVec.ofNat 64 x)) ∧ s0.mem = s.mem ∧ (s0.twig d.t).g = (s.twig d.t).g ∧ (s0.twig d.t).pc = (s.twig d.t).pc) ∧
   (∀ (s : State) (b : BoughId) m a n peek, s.boughPlot b.val = some m → s.accessFault (.bough b) peek [(a, n)] =
     match s.ownerAt a with
     | none => some (.access, a)
     | some none => some (.unmapped, a)
     | some (some o) => if o.plot = m.plot then none else some (.access, a)) ∧
   ∀ (s : State) a, s.ownerAt a = none ↔ ¬ (a < rootSize ∨ (scratchBase ≤ a ∧ a < scratchBase + 0x10000000 ∧ a % 0x100000 < 0x80000))) ∧
  (∀ (s : State) t l, (s.twig t).load = some l → l.owed = [] → l.size = 1 ∨ l.size = 2 ∨ l.size = 4 ∨ l.size = 8 → (l.signed = true → l.size < 8) →
     (∀ p ∈ accessParts l.addr l.size, s.partHeld p.1 = false ∧ s.storeAhead t p.1 = false) →
     let after (bs : List Byte) (s' : State) : Prop :=
       (∀ r, (s'.twig t).reg r = if r = l.gd then extended l.size l.signed bs else (s.twig t).reg r) ∧ (s'.twig t).load = none ∧
         Moved (s.twig t) { s'.twig t with g := (s.twig t).g, load := (s.twig t).load } ∧ OtherTwigs t s s' ∧ BoughKept t s s' ∧
         { s' with boughs := s.boughs, crn := s.crn, scr := s.scr, groves := s.groves, plots := s.plots, ring := s.ring,
                   crownEvts := s.crownEvts, fresh := s.fresh } = s
     ((∀ p ∈ accessParts l.addr l.size, rootSize ≤ p.1 ∧ (∀ off, placeOf p.1 ≠ .regs off) ∧ ∀ g off, placeOf p.1 ≠ .pstore g off) →
       (∀ x, l.addr ≤ x → x < l.addr + l.size → s.mem.badByte x = false) →
       RunsTo (.twigLoadReturn t) s (after (s.mem.readN l.addr l.size))) ∧
     (∀ g off, accessParts l.addr l.size = [(l.addr, l.size)] → placeOf l.addr = .pstore g off →
       (∀ x, l.addr ≤ x → x < l.addr + l.size → s.mem.badLine (x / 8 * 8) = false) →
       RunsTo (.twigLoadReturn t) s
         (after ((List.range l.size).map fun i => if (l.addr + i) % 2 = 1 then s.mem.read (l.addr + i) &&& 0x3f else s.mem.read (l.addr + i)))) ∧
     (∀ c, accessParts l.addr l.size = [(l.addr, l.size)] → l.addr < rootSize → l.got = [c] → c.base = (loadRequest l.addr l.size).1 →
       (c.part l.addr l.size).badAt = none →
       RunsTo (.twigLoadReturn t) s (after ((c.data.drop (l.addr - c.base)).take l.size))) ∧
     (∀ off v, accessParts l.addr l.size = [(l.addr, l.size)] → placeOf l.addr = .regs off → l.size = 4 ∨ l.size = 8 → off % l.size = 0 →
       s.readReg (off / 8 * 8) = some v →
       RunsTo (.twigLoadReturn t) s (after ((List.range l.size).map fun i => byteOf v (off % 8 + i)))))

/-- A store to the twig's own scratchpad, or by a core to crown RAM, with no buffered store before it, writes its bytes at once, low byte first, and
no other byte; any other store enters the buffer, of four entries or a crown core's sixteen, and writes nothing yet, and waits while the buffer is
full; ST, ST8, ST16, ST32, ST64 (R165, R206, R210, R227, R229; that an own store joins the buffer behind buffered stores is the model's choice, log
entry 151). STORE_PERFORMED frees the oldest entry of the store buffer: a store to another scratchpad writes its bytes then, a store to root memory
has been written by its slice, and the next store goes out (R165, R229). -/
def Obligations.Stores : Prop :=
  (∀ i (s : State) d, storeRow i = some d → TwigGo s d.t d.gu d.words [d.g, d.gb] → Idle s d.t →
     let w := s.twig d.t
     let a := (d.addr w).toNat
     let bs := (List.range d.size).map fun i => byteOf (w.reg d.g) i
     let own := ownBase d.t ≤ a ∧ a < ownBase d.t + ownSize d.t
     s.twigPortWaits d.t (accessParts a d.size) = false → s.accessFault d.t false (accessParts a d.size) = none →
     (own → w.stores = [] → (∀ tgt, s.entryCovers tgt a = false ∧ s.entryCovers tgt (a + d.size - 1) = false) → Alive s.mem a d.size →
       RunsTo i s fun s' =>
         Stored s.mem s'.mem a bs ∧ Moved w (s'.twig d.t) ∧ OtherTwigs d.t s s' ∧ BoughKept d.t s s' ∧
           { s' with mem := s.mem, boughs := s.boughs, crn := s.crn, scr := s.scr, plots := s.plots, ring := s.ring, crownEvts := s.crownEvts,
                     fresh := s.fresh } = s) ∧
     (¬ own ∨ w.stores ≠ [] → w.stores.length < storeCap d.t → s.portHolds d.t = false → (∀ y, w.stores.head? = some y → y.sent = true) →
       RunsTo i s fun s' =>
         (s'.twig d.t).stores = w.stores ++ [{ id := s.nextId, addr := a, bytes := bs, sent := w.stores.isEmpty, visible := false }] ∧
           Moved w { s'.twig d.t with stores := w.stores } ∧ OtherTwigs d.t s s' ∧ BoughKept d.t s s' ∧
           { s' with boughs := s.boughs, crn := s.crn, groves := s.groves, slices := s.slices, nextId := s.nextId, txns := s.txns,
                     seqQ := s.seqQ } = s) ∧
     (¬ own ∨ w.stores ≠ [] → storeCap d.t ≤ w.stores.length →
       RunsTo i s fun s' => (s'.twig d.t).waiting = some i ∧ (s'.twig d.t).stores = w.stores ∧ (s'.twig d.t).pc = w.pc ∧ s'.mem = s.mem)) ∧
  (∀ (s : State) t x rest, (s.twig t).stores = x :: rest →
     (x.sent = false → exec (.storePerformed t) s = .next s) ∧
     (∀ b off, x.sent = true → s.portHolds t = false → placeOf x.addr = .scratch b off →
       (accessParts x.addr x.bytes.length).all (fun p => !s.entryCovers (.scratch (boughId b)) p.1) = true →
       Alive s.mem x.addr x.bytes.length →
       RunsTo (.storePerformed t) s fun s' =>
         Stored s.mem s'.mem x.addr x.bytes ∧ s'.twig t = { s.twig t with stores := headSent rest } ∧ OtherTwigs t s s' ∧ BoughKept t s s' ∧
           { s' with mem := s.mem, boughs := s.boughs, crn := s.crn, scr := s.scr, plots := s.plots, ring := s.ring, crownEvts := s.crownEvts,
                     fresh := s.fresh, slices := s.slices, txns := s.txns, seqQ := s.seqQ } = s) ∧
     (x.sent = true → s.portHolds t = false → x.addr < rootSize → x.visible = true →
       RunsTo (.storePerformed t) s fun s' =>
         s'.twig t = { s.twig t with stores := headSent rest } ∧ OtherTwigs t s s' ∧ BoughKept t s s' ∧
           { s' with boughs := s.boughs, crn := s.crn, slices := s.slices, txns := s.txns, seqQ := s.seqQ } = s))

/-- SDLD loads and SDST stores the four words of a descriptor, SDBASE sets its BASE, and SDADV advances the BASE of a stride stream by VL elements;
an SDLD or SDST address that is not 32-byte aligned in the own scratchpad raises ACCESS (R68, R69, R230). -/
def Obligations.DescriptorOps : Prop :=
  (∀ (s : State) b gu n gb off, TwigGo s (.bough b) gu 2 [gb] → (s.bough b).issued = [] →
    let w := (s.bough b).twig
    let addr := w.reg gb + w.imm true 10 off.toNat
    let a := addr.toNat
    let ok := a % 32 = 0 ∧ scratchAddr b ≤ a ∧ a < scratchAddr b + 0x80000
    let d := (Desc.mk (s.mem.readWord a) (s.mem.readWord (a + 8)) (s.mem.readWord (a + 16)) (s.mem.readWord (a + 24))).masked
    (ok → s.ownReadWaits (.bough b) a 32 = false → (∀ x, a ≤ x → x < a + 32 → s.mem.badByte x = false) → d.legal = true →
      RunsTo (.sdld (.bough b) gu n gb off) s fun s' =>
        (s'.bough b).sd = (s.bough b).sd.set n.val d n.isLt ∧ Moved w (s'.bough b).twig ∧ s'.mem = s.mem ∧ (∀ c, c ≠ b → s'.bough c = s.bough c) ∧
          { s'.bough b with sd := (s.bough b).sd, twig := w } = s.bough b ∧
          { s' with boughs := s.boughs, scr := s.scr, plots := s.plots, ring := s.ring, crownEvts := s.crownEvts, fresh := s.fresh } = s) ∧
    (ok → w.stores = [] → s.entryCovers (.scratch b) a = false → Alive s.mem a 32 →
      RunsTo (.sdst (.bough b) gu n gb off) s fun s' =>
        let e := (s.bough b).sd[n]
        Stored s.mem s'.mem a (wordsBytes [e.w0, e.w1, e.w2, e.w3]) ∧ Moved w (s'.bough b).twig ∧ { s'.bough b with twig := w } = s.bough b ∧
          (∀ c, c ≠ b → s'.bough c = s.bough c) ∧ { s' with mem := s.mem, boughs := s.boughs, plots := s.plots } = s) ∧
    (¬ ok → s.tsbHeld (.bough b) = false →
      (∃ s0 : State, exec (.sdld (.bough b) gu n gb off) s = .next (s0.twigFault (.bough b) .access addr) ∧ s0.mem = s.mem ∧ (s0.bough b).sd = (s.bough b).sd) ∧
      ∃ s0 : State, exec (.sdst (.bough b) gu n gb off) s = .next (s0.twigFault (.bough b) .access addr) ∧ s0.mem = s.mem) ∧
    (w.imm true 10 off.toNat = 0 →
      let e := (s.bough b).sd[n]
      let e' : Desc := { e with w0 := (e.w0 >>> 48 <<< 48) ||| (w.reg gb <<< 16 >>> 16) }
      e'.legal = true →
      RunsTo (.sdbase (.bough b) gu n gb off) s fun s' =>
        (s'.bough b).sd = (s.bough b).sd.set n.val e' n.isLt ∧ Moved w (s'.bough b).twig ∧ OnlyBough b s s' ∧
          { s'.bough b with sd := (s.bough b).sd, twig := w } = s.bough b)) ∧
  ∀ (s : State) b gu n, TwigGo s (.bough b) gu 1 [] → (s.bough b).issued = [] → (s.bough b).twig.pfx = [] →
    let w := (s.bough b).twig
    let e := (s.bough b).sd[n]
    RunsTo (.sdadv (.bough b) gu n) s fun s' =>
      ((s'.bough b).sd[n].base : Int) = (if e.isStride then ((e.base : Int) + w.vl * e.stride * ((e.ty.map ETy.size).getD 1 : Nat)) % 2 ^ 48 else e.base) ∧
        (∀ k, k ≠ n → (s'.bough b).sd[k] = (s.bough b).sd[k]) ∧ Moved w (s'.bough b).twig ∧ OnlyBough b s s' ∧
        { s'.bough b with sd := (s.bough b).sd, twig := w } = s.bough b

/-- PMR reads the 14-bit word that Gs names and PMW writes it and marks every cached copy of its line in the grove stale; both raise ACCESS outside
the region, and PMW in a read-only region. PROGRAM_STORE_FILL brings a line into the cache and the line buffer (R45, R233, R234). -/
def Obligations.ProgramStore : Prop :=
  (∀ (s : State) t gu gd gs, TwigGo s t gu 2 [gs] → Plain s t →
    let w := s.twig t
    let x := w.reg gs
    let a := s.progAddr t x.toNat
    (s.regionLen t ≤ x.toNat → s.tsbHeld t = false → FaultsAt (.pmr t gu gd gs 0) s t .access x) ∧
    (x.toNat < s.regionLen t → s.mem.badLine a = true → s.tsbHeld t = false → FaultsAt (.pmr t gu gd gs 0) s t .poison x) ∧
    (x.toNat < s.regionLen t → s.mem.badLine a = false →
      RunsTo (.pmr t gu gd gs 0) s fun s' =>
        (∀ r, (s'.twig t).reg r = if r = gd then BitVec.ofNat 64 (bytesNat (s.mem.readN a 2) % 2 ^ 14) else w.reg r) ∧
          Moved w { s'.twig t with g := w.g } ∧ OnlyTwig t s { s' with groves := s.groves })) ∧
  (∀ (s : State) t gu gs gt, TwigGo s t gu 2 [gs, gt] → Plain s t →
    let w := s.twig t
    let x := w.reg gs
    let a := s.progAddr t x.toNat
    (s.regionLen t ≤ x.toNat ∨ s.regionRo t = true → s.tsbHeld t = false → FaultsAt (.pmw t gu 0 gs 0 gt) s t .access x) ∧
    (x.toNat < s.regionLen t → s.regionRo t = false →
      RunsTo (.pmw t gu 0 gs 0 gt) s fun s' =>
        Stored s.mem s'.mem a (wordBytes 2 ((w.reg gt).toNat % 2 ^ 14)) ∧ (s'.twig t).g = w.g ∧
          (∀ c ∈ (s'.twig t).icache ++ (s'.twig t).lineBuf.toList, c.line = s.progLine t x.toNat → c.stale = true) ∧
          (∀ b b' : BoughId, t = .bough b → b'.val / 16 = b.val / 16 →
            ∀ c ∈ (s'.bough b').twig.icache ++ (s'.bough b').twig.lineBuf.toList, c.line = s.progLine t x.toNat → c.stale = true) ∧
          (∀ b b' : BoughId, t = .bough b → b'.val / 16 ≠ b.val / 16 → s'.bough b' = s.bough b') ∧
          { s' with mem := s.mem, boughs := s.boughs, crn := s.crn, groves := s.groves } = s)) ∧
  ∀ (s : State) t line, s.lineInRegion t line = true →
    RunsTo (.programStoreFill t line) s fun s' =>
      (∃ c, (s'.twig t).lineBuf = some c ∧ c.line = line ∧ c.stale = false ∧ c.bad = s.mem.badLine (lineAddr t line) ∧
        ∀ k, k < 16 → c.words[k]? = some (BitVec.ofNat 14 (bytesNat (s.mem.readN (lineAddr t line + 2 * k) 2)))) ∧
        (s'.twig t).icache.head? = (s'.twig t).lineBuf ∧ (∀ c ∈ (s'.twig t).icache.drop 1, c ∈ (s.twig t).icache ∧ c.line ≠ line) ∧
        { s'.twig t with lineBuf := (s.twig t).lineBuf, icache := (s.twig t).icache } = s.twig t ∧ OnlyTwig t s { s' with groves := s.groves }

/-- WFI ends when a source is pending and enabled or a vector fault waits and else stands waiting; HALT stops a crown core and raises PRIVILEGE on a
bough's twig; RESUME and every other instruction that waits goes on at its release (R236, R255). RESUME restores what R246 marks as restored, ORs
the saved flags into VCSR, sets VALID and continues at the saved PC; with the saved queue's own TSB it puts the held entries back at the front of
the issue queue, or drops them; its reads are reads of the twig's own storage, and a VL above 32,768 raises ILLEGAL (R246, R249, R567). -/
def Obligations.WaitHaltResume : Prop :=
  ((∀ (s : State) b gu, TwigGo s (.bough b) gu 1 [] → Plain s (.bough b) →
     (s.sources (.bough b) = [] → RunsTo (.wfi (.bough b) gu) s fun s' =>
       (s'.bough b).twig = { (s.bough b).twig with waiting := some (.wfi (.bough b) gu), wait := .plain, repActive := false } ∧ OnlyTwig (.bough b) s s') ∧
     (s.sources (.bough b) ≠ [] → RunsTo (.wfi (.bough b) gu) s fun s' => Moved (s.bough b).twig (s'.bough b).twig ∧ OnlyTwig (.bough b) s s')) ∧
   (∀ (s : State) b gu, (s.bough b).twig.waiting = some (.wfi (.bough b) gu) → (s.bough b).twig.rep = none → s.codeRuns (.bough b) = true →
     (s.bough b).twig.run = .running → (s.sources (.bough b) ≠ [] ∨ (s.bough b).vfault ≠ none) →
     RunsTo (.twigWaitRelease (.bough b)) s fun s' =>
       (s'.bough b).twig.waiting = none ∧ (s'.bough b).twig.wait = .plain ∧
         Moved (s.bough b).twig { (s'.bough b).twig with waiting := (s.bough b).twig.waiting, wait := (s.bough b).twig.wait } ∧
         OnlyTwig (.bough b) s s') ∧
   (∀ (s : State) t i, WaitsAt s t i → isWfi i = false → isQopen i = false → isQtake i = false →
     ∃ s1, resumeInstr t i (s.modTwig t Twig.unwait) = .next s1 ∧ exec (.twigWaitRelease t) s = .next s1) ∧
   (∀ (s : State) k gu, TwigGo s (.crown k) gu 1 [] → Plain s (.crown k) →
     RunsTo (.halt (.crown k) gu) s fun s' =>
       (s'.twig (.crown k)).run = .halted ∧ s'.crn.haltBits = s.crn.haltBits ||| BitVec.ofNat 4 (2 ^ k.val) ∧
         Moved (s.twig (.crown k)) { s'.twig (.crown k) with run := (s.twig (.crown k)).run } ∧ { s' with crn := s.crn } = s) ∧
   ∀ (s : State) b gu, TwigGo s (.bough b) gu 1 [] → Plain s (.bough b) → s.tsbHeld (.bough b) = false →
     FaultsAt (.halt (.bough b) gu) s (.bough b) .privilege 0) ∧
  (∀ (s : State) t gu, TwigGo s t gu 1 [] → Plain s t → s.tsbHeld t = false →
     let w := s.twig t
     let base := tsbBase w.tsbp
     let own := ownBase t ≤ base ∧ base + 512 ≤ ownBase t + ownSize t
     let word (i : Nat) : Word := s.mem.readWord (base + 8 * i)
     (¬ own → FaultsAt (.resume t gu) s t .illegal 0) ∧
     (own → s.ownReadWaits t base 328 = true → RunsTo (.resume t gu) s fun s' =>
       s'.twig t = { w with waiting := some (.resume t gu), wait := .load, repActive := false } ∧ OnlyTwig t s s') ∧
     (own → s.ownReadWaits t base 328 = false → s.mem.badByte (base + 40) = false → 32768 < (word 5).toNat → FaultsAt (.resume t gu) s t .illegal 0) ∧
     (own → s.ownReadWaits t base 328 = false → (∀ x, base ≤ x → x < base + 328 → s.mem.badByte x = false) → (word 5).toNat ≤ 32768 →
       RunsTo (.resume t gu) s fun s' =>
         let w' := s'.twig t
         w'.pc = (word 0).setWidth 20 ∧ w'.past = false ∧ (∀ p, w'.predBit p = (p == 0 || (word 4).getLsbD p.val)) ∧ w'.vl = (word 5).toNat ∧
           w'.vcsr = (word 6 &&& 0x1f001f) ||| ((w.vcsr ||| word 6) &&& 0x1f00) ∧ w'.rc = word 7 ∧
           w'.lc0 = word 8 ∧ w'.ls0 = (word 9).setWidth 20 ∧ w'.le0 = (word 10).setWidth 20 ∧
           w'.lc1 = word 11 ∧ w'.ls1 = (word 12).setWidth 20 ∧ w'.le1 = (word 13).setWidth 20 ∧ w'.repActive = (word 14).getLsbD 0 ∧
           (∀ r, w'.reg r = word (16 + r.val)) ∧ w'.tsbp = w.tsbp ||| 1 ∧ w'.shadow = w.shadow ∧ w'.stores = w.stores ∧ s'.mem = s.mem ∧
           (∀ b q, t = .bough b → (s.bough b).saved = some q → q.base = BitVec.ofNat 64 base →
             (s'.bough b).saved = none ∧ ((word 32).getLsbD 8 = true → (s'.bough b).iq = (s.bough b).iq) ∧
               ((word 32).getLsbD 8 = false → (s'.bough b).iq.length = q.entries.length + (s.bough b).iq.length)) ∧
           ((∀ b q, t = .bough b → (s.bough b).saved = some q → q.base ≠ BitVec.ofNat 64 base) →
             OnlyTwig t s { s' with scr := s.scr, plots := s.plots, ring := s.ring, crownEvts := s.crownEvts, fresh := s.fresh })))

/-- Taking a trap: the TSB words 0-31 of R246 are written, VALID is cleared, and execution goes on at 4 x cause. Stated of TRAP_ENTRY with a vector
fault or an interrupt due, and of the twig faults that other statements end in (R240, R244, R246, R247). A trap is due at a boundary with VALID set:
a waiting vector fault first, then the late fault of a buffered store (the model's choice, log entry 168), then CROWN_MSG, TIMER and QUEUE,
interrupts only while no issued instruction writes a G register or VL (R253, R254). TIMER_LATCH latches the timer of the boughs whose plot's period
divides the tick (R252). -/
def Obligations.TrapsEntered : Prop :=
  ((∀ (s : State) t c addr, TsbReady s t → (s.twig t).rep = none → Entered t c addr s (s.twigFault t c addr)) ∧
   (∀ (s : State) b k, s.codeRuns (.bough b) = true → (s.bough b).twig.run = .running → s.trapDue (.bough b) = some k → TsbReady s (.bough b) →
     s.tsbHeld (.bough b) = false →
     RunsTo (.trapEntry (.bough b)) s fun s' =>
       let w := (s.bough b).twig
       let w' := (s'.bough b).twig
       let base := tsbBase w.tsbp
       let word (i : Nat) : Word := s'.mem.readWord (base + 8 * i)
       w'.pc = BitVec.ofNat 20 (4 * k.cause.num) ∧ w'.past = false ∧ w'.tsbp = w.tsbp &&& ~~~1 ∧ w'.waiting = none ∧ w'.g = w.g ∧ w'.vcsr = w.vcsr ∧
         w'.vl = w.vl ∧ w'.shadow = w.shadow ∧ w'.stores = w.stores ∧ (k.vector = true → (s'.bough b).vfault = none) ∧
         (k.late = true → w'.badStore = none) ∧
         word 0 = w.pc.setWidth 64 ∧ word 1 = BitVec.ofNat 64 (k.cause.num + 32 * b2n k.intr + 64 * b2n k.vector + 128 * b2n k.held) ∧
         word 2 = BitVec.ofNat 64 (k.elem % 65536) ∧ word 3 = k.addr ∧ word 5 = BitVec.ofNat 64 w.vl ∧ word 6 = w.vcsr ∧ word 7 = w.rc ∧
         word 8 = w.lc0 ∧ word 11 = w.lc1 ∧ word 14 = BitVec.ofNat 64 (b2n k.active) ∧ word 15 = s.ring.tick ∧
         (∀ r : GReg, word (16 + r.val) = w.reg r) ∧ ∀ x, x < base ∨ base + 328 ≤ x → s'.mem.read x = s.mem.read x)) ∧
  ((∀ (s : State) b, (s.bough b).twig.tsbp.getLsbD 0 = false → s.trapDue (.bough b) = none) ∧
   (∀ (s : State) b v, (s.bough b).twig.tsbp.getLsbD 0 = true → (s.bough b).twig.canTrap = true → (s.bough b).vfault = some v →
     ∃ k, s.trapDue (.bough b) = some k ∧ k.cause = v.cause ∧ k.vector = true ∧ k.elem = v.elem ∧ k.addr = v.addr ∧ k.held = v.held) ∧
   (∀ (s : State) b a, (s.bough b).twig.tsbp.getLsbD 0 = true → (s.bough b).twig.canTrap = true → (s.bough b).vfault = none →
     (s.bough b).twig.badStore = some a →
     ∃ k, s.trapDue (.bough b) = some k ∧ k.cause = .poison ∧ k.vector = false ∧ k.intr = false ∧ k.addr = BitVec.ofNat 64 a) ∧
   (∀ (s : State) b, (s.bough b).twig.tsbp.getLsbD 0 = true → (s.bough b).twig.canTrap = true → (s.bough b).vfault = none →
     (s.bough b).twig.badStore = none →
     (((s.bough b).issued.any fun e => e.ret.isSome || e.op == .gatherf) = true → s.trapDue (.bough b) = none) ∧
     (((s.bough b).issued.any fun e => e.ret.isSome || e.op == .gatherf) = false →
       (s.trapDue (.bough b)).map (fun k => k.cause) =
         if s.crownLevel b = true then some .crownMsg
         else if (s.bough b).twig.timerLatch = true ∧ (s.bough b).twig.tsbp.getLsbD 2 = true then some .timer
         else if s.queueLevel b = true ∧ (s.bough b).twig.tsbp.getLsbD 1 = true then some .queue else none)) ∧
   ∀ s : State, RunsTo .timerLatch s fun s' =>
     (∀ b : BoughId, (s'.bough b).twig.timerLatch =
       ((s.bough b).twig.timerLatch || (s.timerPeriod b.val != 0 && s.ring.tick.toNat % s.timerPeriod b.val == 0))) ∧
       (∀ b : BoughId, { s'.bough b with twig := { (s'.bough b).twig with timerLatch := (s.bough b).twig.timerLatch } } = s.bough b) ∧
       { s' with boughs := s.boughs } = s)

/-! ### Queue commands of twigs (chapter 13) -/

/-- QOPEN opens a packet for producing and takes C + 1 credits, QPUT appends a word, QCLOSE closes the packet and returns the unused credits; each
writes its status (R342, R343, R345, R346). QTAKE opens the oldest pending packet and returns its length word, QGET returns the next payload word,
QDONE frees the packet and returns its COUNT + 1 credits, QSTAT reads the queue state (R341, R343, R345-R347). A queue command of a twig without the
role, or that names no queue, raises ACCESS at the address of R344 and changes no queue. A QOPEN or QTAKE that waits runs again when credits or a
packet are there (R344, R345). -/
def Obligations.QueueCommands : Prop :=
  ((∀ (s : State) t gu gd gs gt q, QueueGo s t gu gs gt .prod q →
     let c := ((s.twig t).reg gt).toNat % 8192
     let x := s.queues[q]
     (x.prod = none → c ≤ 4096 → c + 1 ≤ s.ringWords q → c + 1 ≤ x.credits →
       RunsTo (.qopen t gu gd gs 0 gt) s fun s' =>
         s'.queues[q] = { x with credits := x.credits - (c + 1), prod := some { cap := c, words := [], slot := x.tail }, prodVoid := false } ∧
           QueueTwig t gd 0 s s' ∧ OnlyQueue q s s' ∧ OnlyTwig t s { s' with queues := s.queues }) ∧
     (x.prod ≠ none → RunsTo (.qopen t gu gd gs 0 gt) s fun s' => QueueTwig t gd 4 s s' ∧ OnlyTwig t s s') ∧
     (x.prod = none → (4096 < c ∨ s.ringWords q < c + 1) → RunsTo (.qopen t gu gd gs 0 gt) s fun s' => QueueTwig t gd 5 s s' ∧ OnlyTwig t s s') ∧
     (x.prod = none → c ≤ 4096 → c + 1 ≤ s.ringWords q → x.credits < c + 1 →
       RunsTo (.qopen t gu gd gs 0 gt) s fun s' =>
         s'.twig t = { s.twig t with waiting := some (.qopen t gu gd gs 0 gt), wait := .plain, repActive := false } ∧ OnlyTwig t s s')) ∧
   (∀ (s : State) t gu gd gs gt q, QueueGo s t gu gs gt .prod q →
     let x := s.queues[q]
     (∀ o, x.prod = some o → o.words.length < o.cap →
       RunsTo (.qput t gu gd gs 0 gt) s fun s' =>
         (∃ w, w.w = (s.twig t).reg gt ∧ w.bad = false ∧ s'.queues[q] = { x with prod := some { o with words := o.words ++ [w] } }) ∧
           QueueTwig t gd 0 s s' ∧ OnlyQueue q s s' ∧ OnlyTwig t s { s' with queues := s.queues }) ∧
     (∀ o, x.prod = some o → o.cap ≤ o.words.length → RunsTo (.qput t gu gd gs 0 gt) s fun s' => QueueTwig t gd 2 s s' ∧ OnlyTwig t s s') ∧
     (x.prod = none → RunsTo (.qput t gu gd gs 0 gt) s fun s' => QueueTwig t gd (if x.prodVoid then 1 else 3) s s' ∧ OnlyTwig t s s')) ∧
   ∀ (s : State) t gu gd gs gt q o, QueueGo s t gu gs gt .prod q → (s.twig t).stores = [] → s.queues[q].prod = some o →
     let w := (s.twig t).reg gt
     let barred := (∃ b, t = .bough b) ∧ 0x80 ≤ w.toNat / 2 ^ 16 % 256
     (barred → RunsTo (.qclose t gu gd gs 0 gt) s fun s' => QueueTwig t gd 7 s s' ∧ OnlyTwig t s s') ∧
     (¬ barred →
       RunsTo (.qclose t gu gd gs 0 gt) s fun s' =>
         (∃ p, p.words = o.words ∧ p.typ = BitVec.ofNat 8 (w.toNat / 2 ^ 16) ∧ p.tag = BitVec.ofNat 32 (w.toNat / 2 ^ 32) ∧
           s'.queues[q].pending = s.queues[q].pending ++ [p]) ∧
           s'.queues[q].prod = none ∧ s'.queues[q].credits = s.queues[q].credits + (o.cap - o.words.length) ∧ s'.queues[q].cons = s.queues[q].cons ∧
           QueueTwig t gd 0 s s' ∧ OnlyQueue q s s' ∧
           OnlyTwig t s { s' with queues := s.queues, plots := s.plots, outbox := s.outbox, crownEvts := s.crownEvts, grafts := s.grafts })) ∧
  ((∀ (s : State) t gu gd gs gt q, QueueGo s t gu gs gt .cons q →
     let x := s.queues[q]
     let len (p : Packet) : Word :=
       BitVec.ofNat 64 (p.words.length % 65536 + 2 ^ 16 * p.typ.toNat + 2 ^ 24 * b2n (p.lenBad || p.words.any fun w => w.poison) + 2 ^ 32 * p.tag.toNat)
     (∀ p ps, x.cons = none → x.pending = p :: ps →
       RunsTo (.qtake t gu gd gs 0 gt) s fun s' =>
         s'.queues[q] = { x with cons := some { pkt := p, pos := 0 }, pending := ps, consVoid := false } ∧
           QueueTwig t gd (len p) s s' ∧ OnlyQueue q s s' ∧ OnlyTwig t s { s' with queues := s.queues }) ∧
     (∀ o, x.cons = some o → RunsTo (.qtake t gu gd gs 0 gt) s fun s' => QueueTwig t gd (len o.pkt) s s' ∧ OnlyTwig t s s') ∧
     (x.cons = none → x.pending = [] →
       RunsTo (.qtake t gu gd gs 0 gt) s fun s' =>
         s'.twig t = { s.twig t with waiting := some (.qtake t gu gd gs 0 gt), wait := .plain, repActive := false } ∧ OnlyTwig t s s')) ∧
   (∀ (s : State) t gu gd gs gt q, QueueGo s t gu gs gt .cons q →
     let x := s.queues[q]
     (∀ o w, x.cons = some o → o.pkt.words[o.pos]? = some w → w.bad = false →
       RunsTo (.qget t gu gd gs 0 gt) s fun s' =>
         s'.queues[q] = { x with cons := some { o with pos := o.pos + 1 } } ∧ QueueTwig t gd w.w s s' ∧ OnlyQueue q s s' ∧
           OnlyTwig t s { s' with queues := s.queues }) ∧
     (∀ o, x.cons = some o → o.pkt.words[o.pos]? = none → RunsTo (.qget t gu gd gs 0 gt) s fun s' => QueueTwig t gd 0 s s' ∧ OnlyTwig t s s') ∧
     (x.cons = none → RunsTo (.qget t gu gd gs 0 gt) s fun s' => QueueTwig t gd 0 s s' ∧ OnlyTwig t s s')) ∧
   (∀ (s : State) t gu gd gs gt q, QueueGo s t gu gs gt .cons q → (s.twig t).stores = [] →
     let x := s.queues[q]
     (∀ o, x.cons = some o →
       RunsTo (.qdone t gu gd gs 0 gt) s fun s' =>
         s'.queues[q] = { x with cons := none, credits := x.credits + o.pkt.words.length + 1 } ∧ QueueTwig t gd 0 s s' ∧ OnlyQueue q s s' ∧
           OnlyTwig t s { s' with queues := s.queues, ring := s.ring, grafts := s.grafts, outbox := s.outbox }) ∧
     (x.cons = none → RunsTo (.qdone t gu gd gs 0 gt) s fun s' => QueueTwig t gd (if x.consVoid then 1 else 3) s s' ∧ OnlyTwig t s s')) ∧
   ∀ (s : State) t gu gd gs gt q, QueueGo s t gu gs gt .either q →
     let x := s.queues[q]
     RunsTo (.qstat t gu gd gs 0 gt) s fun s' =>
       (∃ v : Word, QueueTwig t gd v s s' ∧ v.toNat % 2 ^ 17 = x.credits % 2 ^ 17 ∧ v.getLsbD 17 = (s.hasRole t q.val .prod && x.prod.isSome) ∧
         v.getLsbD 18 = (s.hasRole t q.val .cons && x.cons.isSome) ∧ v.toNat / 2 ^ 24 % 16 = 0 ∧ v.toNat / 2 ^ 32 % 2 ^ 17 = x.pending.length % 2 ^ 17) ∧
         OnlyTwig t s s') ∧
  ((∀ i (s : State) t gu gd gs gt need,
     (i = .qopen t gu gd gs 0 gt ∧ need = .prod ∨ i = .qput t gu gd gs 0 gt ∧ need = .prod ∨ i = .qclose t gu gd gs 0 gt ∧ need = .prod ∨
       i = .qtake t gu gd gs 0 gt ∧ need = .cons ∨ i = .qget t gu gd gs 0 gt ∧ need = .cons ∨ i = .qdone t gu gd gs 0 gt ∧ need = .cons ∨
       i = .qstat t gu gd gs 0 gt ∧ need = .either) →
     TwigGo s t gu 2 [gs, gt] → Plain s t → s.tsbHeld t = false →
     let x := ((s.twig t).reg gs).toNat
     (1024 ≤ x ∨ s.hasRole t (x % 1024) need = false) → FaultsAt i s t .access (BitVec.ofNat 64 (2 ^ 63 + x % 1024))) ∧
   (∀ (s : State) t gu gd gs gt, WaitsAt s t (.qopen t gu gd gs 0 gt) →
     ∃ s1, exec (.qopen t gu gd gs 0 gt) (s.modTwig t Twig.unwait) = .next s1 ∧ exec (.qopenCreditsReady t) s = .next s1) ∧
   ∀ (s : State) t gu gd gs gt, WaitsAt s t (.qtake t gu gd gs 0 gt) →
     ∃ s1, exec (.qtake t gu gd gs 0 gt) (s.modTwig t Twig.unwait) = .next s1 ∧ exec (.qtakePacketReady t) s = .next s1)

/-! ### Vector instructions (chapters 02 to 05) -/

/-- A vector instruction whose decode checks pass enters the issue queue with its operands, VL and VCSR controls captured, and the twig goes on, owing
the wait of VCSR.SYNC if that bit is set; with eight entries in the queue it waits at the instruction, and a length that its operands cannot hold
raises LENGTH. For each of the 46 three-word instructions (R25-R27, R29, R72, R79). CHAIN n opens a block, its members are collected, and the last
member enters all n as one unit; an instruction that waits for room goes on at ISSUE_STALL_RELEASE (R27, R80, R81). SETVL sets VL and Gd to the
lesser of Gs and the VLMAX of its type; VWAIT and FENCE complete once no vector instruction is issued, FENCE also only once the store buffer is
empty; otherwise they wait (R71, R120, R166). -/
def Obligations.VectorIssue : Prop :=
  (∀ i (s : State) b gu op src f d, guardRow i = some (.bough b, gu, 3) → vecOf i = some (op, src, f, gu) → vdec op src f = some d →
     TwigGo s (.bough b) gu 3 [] → Plain s (.bough b) → (s.bough b).saved = none → (s.bough b).vlPending = false →
     (∀ g ∈ bcastsOf (op, src, f), (s.bough b).writesG g = false) → s.vecIllegal b d = false →
     let y := s.bough b
     (blockLength y.twig.vl [d] = false → y.iq.length < 8 →
       RunsTo i s fun s' =>
         (∃ e, (s'.bough b).iq = y.iq ++ [e] ∧ e.op = op ∧ e.ty = d.ty ∧ e.vl = y.twig.vl ∧ e.head = y.twig.pc ∧ e.inBlock = false ∧
           e.rm = y.twig.vcsr.setWidth 2 ∧ e.ftz = y.twig.vcsr.getLsbD 2 ∧ e.daz = y.twig.vcsr.getLsbD 3 ∧
           (∀ k, e.en.getLsbD k = (decide (k < 5) && y.twig.vcsr.getLsbD (16 + k))) ∧ e.mask.val = f.mask.toNat ∧ e.a = y.capture f.srca.toNat) ∧
           (s'.bough b).twig.sync = y.twig.vcsr.getLsbD 4 ∧ Moved y.twig { (s'.bough b).twig with sync := y.twig.sync } ∧
           { s'.bough b with iq := y.iq, twig := y.twig } = y ∧ OnlyBough b s s') ∧
     (blockLength y.twig.vl [d] = false → 8 ≤ y.iq.length →
       RunsTo i s fun s' =>
         (s'.bough b).twig = { y.twig with waiting := some i, wait := .plain, repActive := false } ∧ OnlyTwig (.bough b) s s') ∧
     (blockLength y.twig.vl [d] = true → s.tsbHeld (.bough b) = false → FaultsAt i s (.bough b) .length 0)) ∧
  ((∀ (s : State) b gu (n : BitVec 4), 2 ≤ n.toNat → n.toNat ≤ 4 → TwigGo s (.bough b) gu 1 [] → Plain s (.bough b) → (s.bough b).saved = none →
     (s.bough b).vlPending = false →
     RunsTo (.chain (.bough b) gu n) s fun s' =>
       (s'.bough b).twig = { (s.bough b).twig with block := some { n := n.toNat, members := [], reads := [], bad := false }, repActive := false } ∧
         OnlyTwig (.bough b) s s') ∧
   (∀ i (s : State) b k op src f (blk : BlockSt), guardRow i = some (.bough b, k, 3) → vecOf i = some (op, src, f, k) → s.twigReady (.bough b) = true →
     (s.bough b).twig.block = some blk → WordsReady s (.bough b) 3 → blk.members.length + 1 < blk.n →
     RunsTo i s fun s' =>
       (s'.bough b).twig = { (s.bough b).twig with block := some { n := blk.n, members := blk.members ++ [i],
                                                                   reads := blk.reads ++ bcastsOf (op, src, f), bad := blk.bad || k != 0 } } ∧
         OnlyTwig (.bough b) s s') ∧
   (∀ i (s : State) b op src f (blk : BlockSt) ds, guardRow i = some (.bough b, 0, 3) → vecOf i = some (op, src, f, 0) → s.twigReady (.bough b) = true →
     (s.bough b).twig.block = some blk → blk.bad = false → (s.bough b).twig.rep = none → WordsReady s (.bough b) 3 → blk.members.length + 1 = blk.n →
     decodeAll ((blk.members ++ [i]).filterMap fun j => (vecOf j).map fun x => (x.1, x.2.1, x.2.2.1)) = some ds →
     (s.bough b).vfault = none → (s.bough b).saved = none → (s.bough b).issued = [] → ds.any (s.vecIllegal b) = false → blockIllegal ds = false →
     blockGenerators ds ≤ 4 → blockLength (s.bough b).twig.vl ds = false → ds.length ≤ 8 →
     RunsTo i s fun s' =>
       (s'.bough b).iq = (List.range ds.length).filterMap (fun j => (ds[j]?).map fun d => (s.bough b).entry d (s.bough b).twig.pc j ds.length) ∧
         (s'.bough b).twig.block = none ∧ (s'.bough b).twig.sync = (s.bough b).twig.vcsr.getLsbD 4 ∧ OnlyBough b s s') ∧
   ∀ (s : State) t i, WaitsAt s t i → (vecOf i).isSome = true →
     ∃ s1, resumeInstr t i (s.modTwig t Twig.unwait) = .next s1 ∧ exec (.issueStallRelease t) s = .next s1) ∧
  ((∀ (s : State) b gu gd gs ty ety, TwigGo s (.bough b) gu 2 [gs] → Plain s (.bough b) → (s.bough b).vlPending = false → ETy.ofCode ty.toNat = some ety →
     RunsTo (.setvl (.bough b) gu 0 gd gs ty) s fun s' =>
       let vl := min ((s.bough b).twig.reg gs).toNat (32768 / ety.size)
       (s'.bough b).twig.vl = vl ∧ (∀ r, (s'.bough b).twig.reg r = if r = gd then BitVec.ofNat 64 vl else (s.bough b).twig.reg r) ∧
         Moved (s.bough b).twig { (s'.bough b).twig with g := (s.bough b).twig.g, vl := (s.bough b).twig.vl } ∧ OnlyTwig (.bough b) s s') ∧
   (∀ (s : State) b gu i, i = .vwait (.bough b) gu ∨ i = .fence (.bough b) gu → TwigGo s (.bough b) gu 1 [] → Plain s (.bough b) →
     ((s.bough b).issued = [] → (s.bough b).twig.stores = [] → RunsTo i s fun s' => Moved (s.bough b).twig (s'.bough b).twig ∧ OnlyTwig (.bough b) s s') ∧
     ((s.bough b).issued ≠ [] → RunsTo i s fun s' =>
       (s'.bough b).twig = { (s.bough b).twig with waiting := some i, wait := .plain, repActive := false } ∧ OnlyTwig (.bough b) s s')) ∧
   ∀ (s : State) b gu, TwigGo s (.bough b) gu 1 [] → Plain s (.bough b) → (s.bough b).issued = [] → (s.bough b).twig.stores ≠ [] →
     RunsTo (.fence (.bough b) gu) s fun s' =>
       (s'.bough b).twig = { (s.bough b).twig with waiting := some (.fence (.bough b) gu), wait := .plain, repActive := false } ∧ OnlyTwig (.bough b) s s')

/-- The integer element results of the vector pipes, with their wrap, division and shift edges, and no flag (R143). The elementwise operations: each
active element of the result is the operation on the elements of the sources, an inactive one is not written, and the flags are those of the active
elements (R76, R96, R100, R104-R106). -/
def Obligations.ElementResults : Prop :=
  (∀ (t : ETy) (k : ACtl) (a b c : Nat), t.isFp = false → a < 2 ^ t.width → b < 2 ^ t.width → c < 2 ^ t.width →
     let w := t.width
     let r (op : VOp) : Nat := (elemOp op t t k a b c).1
     (∀ op, (elemOp op t t k a b c).2 = 0) ∧
     r .add = (a + b) % 2 ^ w ∧ r .sub = (a + 2 ^ w - b) % 2 ^ w ∧ r .mul = a * b % 2 ^ w ∧ r .fma = (a * b + c) % 2 ^ w ∧
     r .fms = (a * b + 2 ^ w - c) % 2 ^ w ∧
     (t.isSigned = true → r .neg = (2 ^ w - a) % 2 ^ w ∧ r .abs = if t.value a < 0 then (2 ^ w - a) % 2 ^ w else a) ∧
     t.value (r .min) = min (t.value a) (t.value b) ∧ t.value (r .max) = max (t.value a) (t.value b) ∧
     (b ≠ 0 → ¬ (t.isSigned = true ∧ a = 2 ^ (w - 1) ∧ b = 2 ^ w - 1) →
       t.value (r .div) = (t.value a).tdiv (t.value b) ∧ t.value (r .rem) = (t.value a).tmod (t.value b)) ∧
     (b = 0 → r .div = 2 ^ w - 1 ∧ r .rem = a) ∧
     (t.isSigned = true → a = 2 ^ (w - 1) → b = 2 ^ w - 1 → r .div = a ∧ r .rem = 0) ∧
     r .shl = (if w ≤ b % 128 then 0 else a * 2 ^ (b % 128) % 2 ^ w) ∧ r .shr = (if w ≤ b % 128 then 0 else a / 2 ^ (b % 128)) ∧
     (t.isSigned = true → t.value (r .sra) = t.value a / 2 ^ min (b % 128) w) ∧
     (∀ j, j < w → (r .rot).testBit ((j + b % 128) % w) = a.testBit j) ∧ r .rot < 2 ^ w ∧
     r .popc = (List.range w).countP (fun j => a.testBit j) ∧ (a = 0 → r .clz = w) ∧
     (a ≠ 0 → r .clz < w ∧ a.testBit (w - 1 - r .clz) = true ∧ a < 2 ^ (w - r .clz))) ∧
  (∀ (v : Env) prev m (e : QEntry) bits (a b c : Nat → Nat), v.maskBits e = .ok bits → e.op.isCmp = false → e.op ∉ [VOp.fill, .gatherf, .compress, .expand, .merge, .sum, .minr, .maxr, .scan, .segsum, .dot4] →
     (∀ i, bits[i]? = some true → v.read prev m e 0 i = .ok (a i) ∧ v.read prev m e 1 i = .ok (b i) ∧ v.read prev m e 2 i = .ok (c i) ∧
       (∃ x, v.dest m e i = .ok x)) →
     let x (i : Nat) := elemOp e.op e.ty e.srcTy e.ctl (a i) (if e.op.usesB then b i else 0) (if e.op.usesC then c i else 0)
     (∀ i, bits[i]? = some true → e.en &&& (x i).2 = 0) →
     (v.member prev m e).stop = none ∧ (v.member prev m e).outs.length = bits.length ∧
       (∀ i, i < bits.length → (v.member prev m e).outs[i]? = some (if bits[i]? = some true then some (x i).1 else none)) ∧
       ∀ j, (v.member prev m e).flags.getLsbD j = true ↔ ∃ i, bits[i]? = some true ∧ (x i).2.getLsbD j = true)

/-- VSUM over an integer type gives the sum of the active elements modulo 2^w, whatever the order of its lanes (R110, R143). A write of one element
into a vector register changes that element alone, and a mask write changes bits 0 to VL - 1 alone (R74, R75). -/
def Obligations.SumsAndRegisterElements : Prop :=
  (∀ (v : Env) prev m (e : QEntry) bits (a : Nat → Nat), e.op = .sum → e.ty.isFp = false → v.maskBits e = .ok bits → 0 < e.vl →
     (∀ i, bits[i]? = some true → v.read prev m e 0 i = .ok (a i) ∧ a i < 2 ^ e.ty.width) → (∃ x, v.dest m e 0 = .ok x) →
     let r := v.member prev m e
     r.stop = none ∧ r.outs = [some (((activeIx bits).map a).sum % 2 ^ e.ty.width)] ∧ r.scalar = some (((activeIx bits).map a).sum % 2 ^ e.ty.width) ∧ r.flags = 0) ∧
  ((∀ (v : BitVec 8192) (t : ETy) i j x, i < t.perReg → j < t.perReg →
     vregElem (setElem v t.width i x) t.width j = if i = j then x % 2 ^ t.width else vregElem v t.width j) ∧
   ∀ (m : BitVec 16384) vl (bits : List Bool) j, vl = bits.length → vl ≤ 16384 → j < 16384 →
     (setMask m vl (bitsNat bits)).getLsbD j = if j < vl then bits.getD j false else m.getLsbD j)

/-! ### Dispatch, streams and commit (chapters 02, 06, 11) -/

/-- VECTOR_DISPATCH claims a free half for the head entry or block, with its address generators; a frozen bough, or one outside RUN, dispatches
nothing. Here for a run that names no chain link (R24, R28, R30, R42). STREAM_REQUEST sends the next request of a generator: a memory source takes a
new tag and asks for a granule, or for half a granule where it is indexed; a failed check answers with a fault; a memory destination has its element's
address checked and asks for nothing. A region that the ownership cache does not hold is looked up first, and OWNERSHIP_LOOKUP_RETURN fills the cache
and lets the held generators go on (R31, R33, R270, R303, R304). READ_RESPONSE_ARRIVAL gives a response to the half that holds its tag; the tag is
free once the data of every earlier request of its stream has come too; in absorb state the data goes nowhere (R33, R305). A command that finds
nothing to act on leaves the state as it is: the model's choice (log entry 1). -/
def Obligations.Streaming : Prop :=
  ((∀ (s : State) b, (s.bough b).freeze = true ∨ s.sys.mode ≠ .run → exec (.vectorDispatch b) s = .next s) ∧
   ∀ (s : State) b e es h, (s.bough b).iq = e :: es → let y := s.bough b; let run := y.iq.take e.blockLen
     s.sys.mode = .run → y.freeze = false → y.resetting = false → y.saved = none → y.vfault = none → y.twig.run ≠ .halted →
     (∀ x ∈ y.fillingRuns, s.generatorsDone b x = true) → y.freeHalf = some h → s.runLinks b run = [] →
     s.queueShort b (y.runs.map fun x => x.run) run = false →
     RunsTo (.vectorDispatch b) s fun s' =>
       (s'.half b h).st = .filling ∧ (s'.half b h).run = run ∧ (s'.half b h).slots = slotsOf run ∧ (s'.half b h).ord = y.nextOrd ∧
         (s'.half b h).result = none ∧ (s'.half b h).tags = [] ∧ (s'.half b h).chunks = [] ∧ (∀ k, k ≠ h → s'.half b k = s.half b k) ∧
         (s'.bough b).iq = y.iq.drop run.length ∧
         { s'.bough b with halves := y.halves, iq := y.iq, nextOrd := y.nextOrd } = y ∧ OnlyBough b s s') ∧
  ((∀ (s : State) b h k sl i a, let x := s.half b h
     x.st = .filling → x.slots[k]? = some sl → (s.env b x).slotNext sl = some (some (i, a)) → sl.desc.inMem = true →
     (s.env b x).requestHeld sl a (if sl.desc.isIndex then 32 else 64) = false → (s.bough b).absorbing = false → (s.bough b).lookup = none →
     s.canopyTags b < 256 →
     let n := if sl.desc.isStride then 64 else 32
     let known := ∀ r, placeOf a = .root r → (s.bough b).knowsRegion r = true
     let past := lmod x.slots k fun sl => { sl with next := i + 1, last := some (a / 64) }
     let req : ReadReq := { tag := s.nextId, who := .stream b h sl.key, addr := a / n * n, len := n }
     (∀ r, placeOf a = .root r → (s.bough b).knowsRegion r = false →
       RunsTo (.streamRequest b h k) s fun s' =>
         (s'.bough b).lookup = some r ∧ (s'.bough b).lookHeld = (s.bough b).lookHeld ++ [(h, k)] ∧ s'.cnp = { s.cnp with ownMiss := s.cnp.ownMiss + 1 } ∧
           { s'.bough b with lookup := none, lookHeld := (s.bough b).lookHeld } = s.bough b ∧ OnlyBough b s { s' with cnp := s.cnp, groves := s.groves }) ∧
     (known → ¬ (sl.key.opnd = 3 ∧ sl.key.index = false) →
       RunsTo (.streamRequest b h k) s fun s' =>
         s'.half b h = { x with slots := past, tags := x.tags ++ [{ tag := s.nextId, key := sl.key, own := ownPlace (.bough b) (a / n * n), come := false }] } ∧
           s'.nextId = s.nextId + 1 ∧ s'.mem = s.mem ∧ s'.queues = s.queues ∧ (∀ c, c ≠ b → s'.bough c = s.bough c) ∧
           (∀ c, s.checkOwner (s.reqPlot b) (a / n * n) = some c →
             (s'.bough b).resps = (s.bough b).resps ++ [(s.nextId, { key := sl.key, base := a / n * n, data := [], poison := [], fault := some c })]) ∧
           (s.checkOwner (s.reqPlot b) (a / n * n) = none → (s'.bough b).resps = (s.bough b).resps ∧
             (∀ d off, placeOf (a / n * n) = .scratch d off →
               s'.scr[boughId d].inbox = s.scr[boughId d].inbox ++ [req] ∧ s'.slices = s.slices) ∧
             ∀ r, placeOf (a / n * n) = .root r →
               s'.slices[s.sliceOf (a / n * n)].inbox = s.slices[s.sliceOf (a / n * n)].inbox ++ [.read req] ∧ s'.scr = s.scr)) ∧
     (known → sl.key.opnd = 3 → sl.key.index = false → s.checkOwner (s.reqPlot b) a = none →
       RunsTo (.streamRequest b h k) s fun s' =>
         s'.half b h = { x with slots := past } ∧ s'.slices = s.slices ∧ s'.scr = s.scr ∧ s'.nextId = s.nextId ∧ (s'.bough b).resps = (s.bough b).resps ∧
           (∀ c, c ≠ b → s'.bough c = s.bough c))) ∧
   ∀ (s : State) b r, (s.bough b).lookup = some r →
     ∃ s0 : State, (s0.bough b).lookup = none ∧ (s0.bough b).lookHeld = [] ∧
       (∀ p, (s.regionPlot r).map (fun m => plotId m.plot) = p → (s0.bough b).ocache.head? = some (r, p)) ∧ (s0.bough b).ocache.length ≤ 32 ∧
       { s0.bough b with lookup := (s.bough b).lookup, lookHeld := (s.bough b).lookHeld, ocache := (s.bough b).ocache } = s.bough b ∧ OnlyBough b s s0 ∧
       ((s.bough b).lookHeld = [] → exec (.ownershipLookupReturn b) s = .next s0) ∧
       ∀ h k, (s.bough b).lookHeld = [(h, k)] → exec (.ownershipLookupReturn b) s = exec (.streamRequest b h k) s0) ∧
  ((∀ (s : State) b tag c, (s.bough b).resps.find? (fun r => r.1 = tag) = some (tag, c) →
     RunsTo (.readResponseArrival b tag) s fun s' =>
       (∀ h, let x := s.half b h
         let come := x.tags.map fun t => if t.tag = tag then { t with come := true } else t
         s'.half b h = if x.tags.any (fun t => t.tag = tag && !t.come) then { x with tags := releaseTags [] come, chunks := x.chunks ++ [c] } else x) ∧
         (s'.bough b).resps = (s.bough b).resps.filter (fun r => r.1 ≠ tag) ∧ tag ∉ (s'.bough b).absorbTags ∧
         { s'.bough b with halves := (s.bough b).halves, resps := (s.bough b).resps, absorbTags := (s.bough b).absorbTags } = s.bough b ∧ OnlyBough b s s') ∧
   ∀ (ts : List ReTag) (i : Nat) (t : ReTag), ts.Nodup → ts[i]? = some t →
     (t ∈ releaseTags [] ts ↔ t.come = false ∨ ∃ (j : Nat) (u : ReTag), j < i ∧ ts[j]? = some u ∧ u.key = t.key ∧ u.come = false))

/-- COMMIT_POINT: the oldest run, complete and without a fault, while the other half does not drain, has its results in the half, which is ARMING;
its ranges are sent to the filters, and nothing it computed is visible yet (R145-R148). Here for a run without chain links. ARM_REQUEST_ACCEPT
delivers the entries of a waiting request to every target they touch, after all entries delivered before, and FILTER_INSTALL installs the oldest
entry delivered to its target; a scratchpad's filter holds 16 (R148, R149). A command that finds nothing to act on leaves the state as it is: the
model's choice (log entry 1). -/
def Obligations.CommitArming : Prop :=
  (∀ (s : State) b h, let y := s.bough b; let x := s.half b h
     x.st = .filling → y.isOldest h = true → y.halves[otherHalf h].st ≠ .draining → firstStop (s.evalRun b h) = none → x.recvs = [] → x.broke = none →
     RunsTo (.commitPoint b h) s fun s' =>
       let res := s.runResult b h (s.evalRun b h)
       (s'.half b h).st = .arming ∧ (s'.half b h).result = some res ∧ (s'.half b h).ranges = res.ranges ∧ (s'.half b h).run = x.run ∧
         (res.ranges = [] → s'.filters = s.filters ∧ s'.seqQ = s.seqQ) ∧
         (res.ranges ≠ [] → oneScratch res.ranges = none → s'.seqQ = s.seqQ ++ [{ owner := .half b h, ranges := res.ranges }] ∧ s'.filters = s.filters) ∧
         ((oneScratch res.ranges).isSome = true → s'.seqQ = s.seqQ ∧ s'.filters = s.filters ++ s.entriesFor (.half b h) res.ranges) ∧
         { s'.bough b with halves := y.halves, absorbTags := y.absorbTags } = y ∧ (∀ c, c ≠ b → s'.bough c = s.bough c) ∧
         { s' with boughs := s.boughs, plots := s.plots, filters := s.filters, seqQ := s.seqQ } = s) ∧
  ((∀ (s : State) n q, s.seqQ[n]? = some q →
     RunsTo (.armRequestAccept n) s fun s' =>
       s'.filters = s.filters ++ s.entriesFor q.owner q.ranges ∧ s'.seqQ = s.seqQ.eraseIdx n ∧ { s' with filters := s.filters, seqQ := s.seqQ } = s) ∧
   (∀ (s : State) tgt pre e post b h, s.filters = pre ++ e :: post → (∀ x ∈ pre, ¬ (x.tgt = tgt ∧ x.installed = false)) → e.tgt = tgt → e.installed = false →
     e.owner = .half b h → (∀ d, tgt = .scratch d → s.filterCount tgt < 16) →
     RunsTo (.filterInstall tgt) s fun s' => s'.filters = pre ++ { e with installed := true } :: post ∧ { s' with filters := s.filters } = s) ∧
   (∀ (s : State) d, 16 ≤ s.filterCount (.scratch d) → exec (.filterInstall (.scratch d)) s = .next s))

/-- COMMIT_INSTANT: once every entry of the armed run is installed, all of its writes and results take effect in one step, and the half drains;
bytes outside its writes are unchanged (R145, R148, R150, R163). -/
def Obligations.CommitIsAtomic : Prop :=
  ∀ (s : State) b h r w, let x := s.half b h
    ([0, 1] : List (Fin 2)).find? (fun k => (s.half b k).st == .arming) = some h → x.result = some r → r.writes = [w] → r.qreads = [] → r.qapps = [] → x.sends = [] →
    s.seqQ.any (fun q => q.owner == .half b h) = false → s.filters.any (fun e => e.owner == .half b h && !e.installed) = false →
    youngerOwners (.half b h) s.filters = [] → (w.map fun c => c.1).Nodup → w ≠ [] → (∀ c ∈ w, c.1 / 64 ∉ s.mem.dead) →
    RunsTo (.commitInstant b) s fun s' =>
      (∀ c ∈ w, s'.mem.read c.1 = c.2) ∧ (∀ a, a ∉ w.map (fun c => c.1) → s'.mem.read a = s.mem.read a) ∧
        (s'.half b h).st = .draining ∧ (s'.half b h).drain.Perm (granulesOf w) ∧ (s.heldReads = [] → (s'.half b h).drain = granulesOf w) ∧ (∀ k, k ≠ h → s'.half b k = s.half b k) ∧
        (∀ g, (s'.bough b).twig.reg g = match r.scalar with
          | some (d, v) => if g = d then v else (s.bough b).twig.reg g
          | none => (s.bough b).twig.reg g) ∧
        (∀ k, k < 5 → (s'.bough b).twig.vcsr.getLsbD (8 + k) = ((s.bough b).twig.vcsr.getLsbD (8 + k) || r.flags.getLsbD k)) ∧
        (s'.bough b).twig.vl = r.newVl.getD (s.bough b).twig.vl ∧ (s'.bough b).twig.pc = (s.bough b).twig.pc ∧
        (r.vregs = [] → (s'.bough b).v = (s.bough b).v) ∧ (r.masks = [] → (s'.bough b).m = (s.bough b).m) ∧
        s'.filters = s.filters ∧ s'.queues = s.queues ∧ s'.links = s.links ∧ (∀ c, c ≠ b → s'.bough c = s.bough c)

/-- DRAIN_WRITE_ACCEPT takes the next granule of a draining half in order, past one that an older entry holds at its target; with the last one the half
is FREE and its entries are released, and ENTRY_RELEASE retires an entry at its target (R150, R154). A read that hits an installed entry is held, no
data is served, and the granule goes ahead in the drain of an owner that drains; the read is answered once the owner's half drains, from the committed
bytes (R151). A command that finds nothing to act on leaves the state as it is: the model's choice (log entry 1). -/
def Obligations.DrainAndRelease : Prop :=
  ((∀ (s : State) b h g tgt, let x := s.half b h
     x.st = .draining → s.filterTarget (64 * g) = some tgt →
     let free := olderBlocks (.half b h) tgt g s.filters = false ∧ ∀ k, tgt = .slice k → s.stageFull k (64 * g) = false
     let rest (gs : List Nat) (s' : State) : Prop :=
       s'.half b h = { x with drain := gs } ∧ s'.filters = s.filters ∧ s'.mem = s.mem ∧ OnlyBough b s { s' with slices := s.slices, groves := s.groves }
     (∀ g2 gs, x.drain = g :: g2 :: gs → free → RunsTo (.drainWriteAccept b h) s (rest (g2 :: gs))) ∧
     (∀ g1 tgt1 gs, x.drain = g1 :: g :: gs → s.filterTarget (64 * g1) = some tgt1 → olderBlocks (.half b h) tgt1 g1 s.filters = true → free →
       RunsTo (.drainWriteAccept b h) s (rest (g1 :: gs))) ∧
     (x.drain = [g] → x.sends.all (fun y => y.taken) = true → free →
       RunsTo (.drainWriteAccept b h) s fun s' =>
         s'.half b h = Half.free ∧ s'.filters = s.filters.map (fun e => if e.owner = .half b h then { e with released := true } else e) ∧
           s'.mem = s.mem ∧ OnlyBough b s { s' with slices := s.slices, groves := s.groves, filters := s.filters }) ∧
     (x.drain = [g] → olderBlocks (.half b h) tgt g s.filters = true → exec (.drainWriteAccept b h) s = .next s) ∧
     ∀ k, x.drain.head? = some g → tgt = .slice k → s.stageFull k (64 * g) = true → olderBlocks (.half b h) tgt g s.filters = false →
       exec (.drainWriteAccept b h) s = .next s) ∧
   ∀ (s : State) tgt pre e post, s.filters = pre ++ e :: post → (∀ x ∈ pre, ¬ (x.tgt = tgt ∧ x.released = true)) → e.tgt = tgt → e.released = true →
     RunsTo (.entryRelease tgt 0) s fun s' => s'.filters = pre ++ post ∧ { s' with filters := s.filters } = s) ∧
  ((∀ (s : State) tgt n r, s.entryCovers tgt r.addr = true → (s.heldAt tgt).length < targetPlaces tgt →
     let asked (s' : State) : Prop :=
       s'.heldReads = s.heldReads ++ [{ tgt := tgt, req := r, ord := s.nextId }] ∧ s'.nextId = s.nextId + 1 ∧
         (∀ b, { s'.bough b with halves := (s.bough b).halves } = s.bough b) ∧
         (∀ b h, s'.half b h = { s.half b h with drain := (s'.half b h).drain } ∧ (s'.half b h).drain.Perm (s.half b h).drain ∧
           (r.addr / 64 ∈ (s.half b h).drain → (s.half b h).st = .draining →
             (∃ e ∈ s.filters, e.owner = .half b h ∧ e.tgt = tgt ∧ e.installed = true ∧ e.lo ≤ r.addr / 64 ∧ r.addr / 64 ≤ e.hi) →
             (s'.half b h).drain.head? = some (r.addr / 64)))
     (∀ k rest, tgt = .slice k → s.slices[k].inbox = .read r :: rest →
       RunsTo (.filterHitDemand tgt n) s fun s' =>
         asked s' ∧ s'.slices[k].inbox = rest ∧
           { s' with heldReads := s.heldReads, nextId := s.nextId, boughs := s.boughs, slices := s'.slices.set k.val s.slices[k] k.isLt } = s) ∧
     (∀ d, tgt = .scratch d → s.scr[d].inbox[n]? = some r → s.scratchInOrder d r = true →
       RunsTo (.filterHitDemand tgt n) s fun s' =>
         asked s' ∧ s'.scr[d].inbox = s.scr[d].inbox.eraseIdx n ∧
           { s' with heldReads := s.heldReads, nextId := s.nextId, boughs := s.boughs, scr := s'.scr.set d.val s.scr[d] d.isLt } = s)) ∧
   (∀ (s : State) tgt n x, (s.heldAt tgt)[n]? = some x → s.entriesServe tgt x.req.addr = false → exec (.demandAnswer tgt n) s = .next s) ∧
   ∀ (s : State) k n b h key tag a len o,
     (s.heldAt (.slice k))[n]? = some { tgt := .slice k, req := { tag := tag, who := .stream b h key, addr := a, len := len }, ord := o } →
     s.entriesServe (.slice k) a = true → s.writeHeldAt (.slice k) a o = false →
     RunsTo (.demandAnswer (.slice k) n) s fun s' =>
       (∃ c, (s'.bough b).resps = (s.bough b).resps ++ [(tag, c)] ∧ c.base = a ∧ c.data = s.mem.readN a len ∧ c.key = key ∧ c.fault = none ∧ c.poison = s.mem.poisonOf a len) ∧
         s'.mem = s.mem ∧ s'.heldReads.length + 1 = s.heldReads.length ∧ s'.slices[k].rd = s.slices[k].rd + 1)

/-- VECTOR_FAULT_TAKEN: the fault at the lowest recorded index of the oldest run empties the issue queue into the saved queue, frees the half with
nothing written, and signals the twig (R94, R95, R158, R256). Here for a run without chain links and with no younger half filling. -/
def Obligations.VectorFaultStops : Prop :=
  ∀ (s : State) b h i rank c addr, let y := s.bough b; let x := s.half b h
    x.st = .filling → y.isOldest h = true → (y.halves[otherHalf h].st ≠ .filling) → firstStop (s.evalRun b h) = some (i, .fault rank c addr) → addr.getLsbD 63 = false →
    x.sends = [] → x.recvs = [] → x.broke = none →
    RunsTo (.vectorFaultTaken b h) s fun s' =>
      (s'.bough b).vfault = some { cause := c, elem := i, addr := addr, held := !y.twig.tsbp.getLsbD 0 } ∧ (s'.bough b).iq = [] ∧
        (s'.half b h) = Half.free ∧ (s'.bough b).absorbing = true ∧
        (∃ q, (s'.bough b).saved = some q ∧ q.entries = (x.run.map fun e => { e with again := true }) ++ y.iq) ∧
        (s'.bough b).twig = y.twig ∧ (s'.bough b).v = y.v ∧ (s'.bough b).m = y.m ∧ s'.mem = s.mem ∧ s'.queues = s.queues ∧
        (∀ d, d ≠ b → s'.bough d = s.bough d) ∧ { s' with boughs := s.boughs } = s

/-! ### Chain links (chapter 07) -/

/-- CHAIN_TRANSFER_SEND on a link inside the device sends up to 8 of the words that its oldest unfinished epoch has ready, and takes one credit for
each; without the credits nothing is sent (R174, R175). The oldest message of a link inside the device reaches the chain buffer: words join their
epoch in order, END gives its length, COMMIT commits it, ABORT drops it and returns its credits (R174, R175, R177, R180); a word that arrives
uncorrectable is marked (R184). Here while no run of the receiver fills. The tokens that come upstream on a link inside the device: TAKEN passes custody, so the sender keeps nothing of the epoch; REPLAY
sends the named epoch and every later one again from byte 0; a credit return moves words from those owed to those the sender may use (R175, R178,
R181). A command that finds nothing to act on leaves the state as it is: the model's choice (log entry 1). -/
def Obligations.ChainTransfer : Prop :=
  (∀ (s : State) i x t, let ws := (t.words.drop t.sent).take 8
     (s.refreshTx i).links[i]? = some x → Inner x → s.sendHeld x = false → x.tx.find? (fun t => !t.ended) = some t → ws ≠ [] →
     (ws.length ≤ x.credits → RunsTo (.chainTransferSend i) s fun s' =>
       (∃ x' toks, s'.links[i]? = some x' ∧ x'.credits + ws.length = x.credits ∧ x'.wire = x.wire ++ ChainMsg.data t.ep t.sent ws :: toks ∧
         (∀ m ∈ toks, ∀ e o w, m ≠ ChainMsg.data e o w) ∧ x'.eps = x.eps ∧ x'.back = x.back ∧ x'.nextEp = x.nextEp) ∧
         (∀ j, j ≠ i → s'.links[j]? = s.links[j]?) ∧ { s' with links := s.links, boughs := s.boughs } = s) ∧
     (x.credits < ws.length → exec (.chainTransferSend i) s = .next s)) ∧
  (∀ (s : State) i l rest ep (lo : List (Word × Bool)) (e : BitVec 8), s.links[i]? = some l → Inner l → NoReceiver s l → l.past ep = false → l.sink = false →
     let r := epochRec l ep
     (∀ o ws n, l.wire = .data ep o ws :: rest → o = r.base + r.words.length + r.cut →
       RunsTo (.chainTransferArrive i e n lo) s fun s' =>
         (∃ l' ws', s'.links[i]? = some l' ∧ l'.wire = rest ∧ l'.eps.find? (fun x => x.ep = ep) = some { r with words := r.words ++ ws' } ∧
           ws'.length = ws.length ∧ (∀ (j : Nat) (w : Word) (p : Bool), ws[j]? = some (w, p) → ws'[j]? = some (w, p || ((lo[j]?).map Prod.snd).getD false)) ∧
           l'.credits = l.credits ∧ l'.expect = l.expect ∧ ∀ ep', ep' ≠ ep → epochRec l' ep' = epochRec l ep') ∧ OnlyLink i s s') ∧
     (∀ len n, l.wire = .fin ep len :: rest →
       RunsTo (.chainEnd i e n) s fun s' =>
         (∃ l', s'.links[i]? = some l' ∧ l'.wire = rest ∧ l'.eps.find? (fun x => x.ep = ep) = some { r with endLen := some len } ∧
           ∀ ep', ep' ≠ ep → epochRec l' ep' = epochRec l ep') ∧ OnlyLink i s s') ∧
     (l.wire = .commit ep :: rest →
       RunsTo (.chainCommit i e) s fun s' =>
         (∃ l', s'.links[i]? = some l' ∧ l'.wire = rest ∧ l'.eps.find? (fun x => x.ep = ep) = some { r with committed := true } ∧
           ∀ ep', ep' ≠ ep → epochRec l' ep' = epochRec l ep') ∧ OnlyLink i s s') ∧
     (l.wire = .abort ep :: rest →
       RunsTo (.chainAbort i e) s fun s' =>
         (∃ l', s'.links[i]? = some l' ∧ l'.wire = rest ∧ (∀ x ∈ l'.eps, x.ep ≠ ep) ∧ l'.owed = l.owed + r.words.length ∧
           ∀ ep', ep' ≠ ep → epochRec l' ep' = epochRec l ep') ∧ OnlyLink i s s')) ∧
  ((∀ (s : State) i l ep ms (e : BitVec 8), s.links[i]? = some l → Inner l → l.back = .taken ep :: ms →
     RunsTo (.chainTaken i e) s fun s' =>
       (∃ l', s'.links[i]? = some l' ∧ l'.back = ms ∧ l'.tx = l.tx.filter (fun t => t.ep ≠ ep) ∧ l'.wire = l.wire ∧ l'.eps = l.eps) ∧
         (∀ h, (s.half (boughId l.srcBough) h).st = .filling → (s'.half (boughId l.srcBough) h).sends =
           (s.half (boughId l.srcBough) h).sends.map fun y => if y.link = i && y.epoch == ep then { y with taken := true } else y) ∧
         (∀ h, (s.half (boughId l.srcBough) h).st = .draining → (s.half (boughId l.srcBough) h).drain = [] →
           (s.half (boughId l.srcBough) h).sends.all (fun y => y.taken || (y.link == i && y.epoch == ep)) = true → s'.half (boughId l.srcBough) h = Half.free) ∧
         (∀ b, b ≠ boughId l.srcBough → s'.bough b = s.bough b) ∧ (∀ j, j ≠ i → s'.links[j]? = s.links[j]?) ∧
         { s' with links := s.links, boughs := s.boughs, filters := s.filters } = s) ∧
   (∀ (s : State) i l ep ms (e : BitVec 8), s.links[i]? = some l → Inner l → l.back = .replay ep :: ms →
     RunsTo (.chainReplay i e) s fun s' =>
       (∃ l', s'.links[i]? = some l' ∧ l'.back = ms ∧
         l'.tx = l.tx.map fun t => if (t.ep - ep).toNat < 2 ^ 15 then { t with sent := 0, ended := false, commitSent := false } else t) ∧
         (∀ b, b ≠ boughId l.srcBough → s'.bough b = s.bough b) ∧ (∀ j, j ≠ i → s'.links[j]? = s.links[j]?) ∧
         { s' with links := s.links, boughs := s.boughs } = s) ∧
   ∀ (s : State) i l n, s.links[i]? = some l → l.fromGraft = false → l.toGraft = false →
     RunsTo (.chainCreditReturn i n) s fun s' =>
       s'.links[i]? = some { l with owed := l.owed - min n l.owed, credits := l.credits + min n l.owed } ∧ OnlyLink i s s')

/-- A link that breaks empties its buffers and sets its bit of GRV_CHAIN_BREAK; REARM arms a broken link of the grove whose cause is gone with epoch
0, empty buffers and 256 credits (R187, R188, R190, R194). Here for a link inside the device, whose boughs fill no run. -/
def Obligations.BreakAndRearm : Prop :=
  (∀ (s : State) i l n (code : BitVec 4), s.links[i]? = some l → Inner l → l.buf = some n → NoReceiver s l →
    (∀ h, (s.half (boughId l.srcBough) h).st = .free) → 1 ≤ code.toNat → code.toNat ≤ 6 →
    RunsTo (.linkBreak i code) s fun s' =>
      s'.links[i]? = some { l with broken := true, code := code, causes := l.causes ||| BitVec.ofNat 7 (2 ^ code.toNat), eps := [], relay := [],
                                   wire := [], back := [], tx := [], owed := 0, sink := false } ∧
        s'.groves[l.bufGrove].brk = s.groves[l.bufGrove].brk ||| BitVec.ofNat 32 (2 ^ n) ∧ (∀ j, j ≠ i → s'.links[j]? = s.links[j]?) ∧
        (∀ g, g ≠ l.bufGrove → s'.groves[g] = s.groves[g]) ∧
        (s.groves[l.bufGrove].brk.getLsbD n = false → s'.crownEvts = s.crownEvts ++ [.chainBreak l.bufGrove n]) ∧
        s'.mem = s.mem ∧ s'.queues = s.queues) ∧
  ∀ (s : State) l g n (bits : BitVec 32), s.links = [l] → l.fromGraft = false → l.toGraft = false → l.buf = some n → l.bufGrove = g → l.broken = true →
    s.breakPersists l = false →
    RunsTo (.rearm g bits) s fun s' =>
      (bits.getLsbD n = true → ∃ l', s'.links = [l'] ∧ l'.broken = false ∧ l'.credits = 256 ∧ l'.nextEp = 0 ∧ l'.expect = 0 ∧ l'.eps = [] ∧ l'.wire = [] ∧
        l'.causes = 0 ∧ l'.code = l.code ∧ l'.xfer = l.xfer ∧ l'.w0 = l.w0 ∧ l'.w1 = l.w1) ∧
        (bits.getLsbD n = false → s' = s) ∧ { s' with links := s.links } = s

/-! ### Bough control (chapters 02, 09, 11) -/

/-- A bough reset discards the issue queue, the saved queue and every filling half, stops the twig and absorbs; when the port is clean and the
halves have drained it completes with descriptors, V and M registers and twig state cleared; FREEZE changes its own bit alone; PORT_CLEAN ends the
absorb state, and the port sends the twig's store that waits first (R41, R42, R158, R165, R241, R305). A command that finds nothing to act on leaves the state as it is: the model's choice (log entry 1). -/
def Obligations.BoughControl : Prop :=
  (∀ (s : State) b, (s.bough b).resetting = false →
    RunsTo (.boughReset b) s fun s' =>
      (s'.bough b).iq = [] ∧ (s'.bough b).saved = none ∧ (s'.bough b).vfault = none ∧ (s'.bough b).resetting = true ∧ (s'.bough b).absorbing = true ∧
        (s'.bough b).twig.run = (if (s.bough b).twig.run = .halted then .halted else .stopped) ∧ (∀ h, (s'.half b h).st ≠ .filling) ∧ s'.mem = s.mem ∧
        (s.links = [] → (∀ h, (s.half b h).st ≠ .filling → s'.half b h = s.half b h) ∧ OnlyBough b s s')) ∧
  (∀ (s : State) b, (s.bough b).resetting = true → s.boughClean b = true →
    RunsTo (.boughResetComplete b) s fun s' =>
      let y := s'.bough b
      y.resetting = false ∧ y.absorbing = false ∧ (∀ i : Fin 16, y.sd[i] = Desc.zero) ∧ (∀ i : Fin 8, y.v[i] = 0) ∧ (∀ i : Fin 3, y.m[i] = 0) ∧
        (∀ r, y.twig.reg r = 0) ∧ y.twig.pc = 0 ∧ y.twig.vcsr = 0 ∧ y.twig.tsbp = 0 ∧ y.twig.vl = 0 ∧ y.twig.shadow = [] ∧ (∀ h, s'.half b h = Half.free) ∧
        y.freeze = (s.bough b).freeze ∧ (∀ c, c ≠ b → s'.bough c = s.bough c) ∧ s'.mem = s.mem) ∧
  (∀ (s : State) b, (s.bough b).resetting = false ∨ s.boughClean b = false → exec (.boughResetComplete b) s = .next s) ∧
  (∀ (s : State) b on, RunsTo (.freeze b on) s fun s' => s'.bough b = { s.bough b with freeze := on } ∧ OnlyBough b s s') ∧
  (∀ (s : State) b, s.masterClean (.bough b) = true → (∀ n : PortId, s.ports[n].held = []) →
    RunsTo (.portClean (.bough b)) s fun s' =>
      s'.bough b = { s.bough b with absorbing := (s.bough b).resetting,
                                    twig := { (s.bough b).twig with stores := headSent (s.bough b).twig.stores } } ∧
        (((s.bough b).twig.stores.all fun x => x.sent) = true → OnlyBough b s s') ∧
        OnlyBough b s { s' with slices := s.slices, txns := s.txns, seqQ := s.seqQ }) ∧
  ∀ (s : State) m, s.masterClean m = false → (∀ n : PortId, s.ports[n].held = []) → exec (.portClean m) s = .next s

/-! ### Root memory (chapter 10) -/

/-- SLICE_ACCEPT_REQUEST binds the value of the read at the head of the trunk input, unless an entry covers it or a held write that came before it,
or its bank target has 16 requests waiting (R151, R262, R269). TARGET_ACCESS_COMPLETE returns the oldest read of its granule to the bough, twig or
host port that asked, or ends the write of a committed burst; a word that the way back found bad is poisoned, and after a second parity error every
word of the access is (R262, R270, R274, R275). WRITE_BURST_STAGE: a burst that meets an installed entry of another owner, or an access held before it
to one of its granules, is held and changes no byte; one that finds no room waits; one with a commit mark is written at once; any other is staged and
changes no byte; a word that arrived bad is stored as poison (R152, R262, R269, R271, R272, R275). A command that finds nothing to act on leaves the
state as it is: the model's choice (log entry 1). -/
def Obligations.RootSlices : Prop :=
  ((∀ (s : State) k r rest, s.slices[k].inbox = .read r :: rest → s.entryCovers (.slice k) r.addr = false →
     s.writeHeldAt (.slice k) r.addr s.nextId = false → s.queuedAt k < 256 →
     (s.waitingAt k r.addr < 16 → RunsTo (.sliceAcceptRequest k) s fun s' =>
       s'.slices[k] = { s.slices[k] with inbox := rest, rd := s.slices[k].rd + 1,
                                         queue := s.slices[k].queue ++ [{ req := r, data := s.mem.readN r.addr r.len, poison := s.mem.poisonOf r.addr r.len }] } ∧
         { s' with slices := s'.slices.set k.val s.slices[k] k.isLt, hbm := s.hbm, scr := s.scr, plots := s.plots, ring := s.ring, crownEvts := s.crownEvts,
                   fresh := s.fresh } = s) ∧
     (16 ≤ s.waitingAt k r.addr → RunsTo (.sliceAcceptRequest k) s fun s' =>
       s'.slices[k] = { s.slices[k] with wait := s.slices[k].wait + 1 } ∧ { s' with slices := s'.slices.set k.val s.slices[k] k.isLt } = s)) ∧
   (∀ (s : State) k r rest, s.slices[k].inbox = .read r :: rest →
     s.entryCovers (.slice k) r.addr = true ∨ s.writeHeldAt (.slice k) r.addr s.nextId = true ∨ 256 ≤ s.queuedAt k → exec (.sliceAcceptRequest k) s = .next s) ∧
   (∀ (s : State) k n par bad q, s.slices[k].queue[n]? = some q → (∀ p ∈ s.slices[k].queue.take n, p.req.addr / 64 ≠ q.req.addr / 64) →
     RunsTo (.targetAccessComplete k ⟨n, par, bad⟩) s fun s' =>
       s'.slices[k] = { s.slices[k] with queue := s.slices[k].queue.eraseIdx n } ∧ (∀ j, j ≠ k → s'.slices[j] = s.slices[j]) ∧
         (∃ c : Chunk, c.base = q.req.addr ∧ c.data = q.data ∧ c.fault = none ∧ c.poison.length = q.poison.length ∧
           (∀ (j : Nat) (p : Bool), q.poison[j]? = some p → c.poison[j]? = some (p || decide (par = 2) || bad.getLsbD j)) ∧
           (∀ b h key, q.req.who = .stream b h key →
             s'.bough b = { s.bough b with resps := (s.bough b).resps ++ [(q.req.tag, c)] } ∧ c.key = key ∧ s'.ports = s.ports ∧ s'.crn = s.crn) ∧
           (∀ t l, q.req.who = .twig t → (s.twig t).load = some l → q.req.tag ∈ l.owed →
             s'.twig t = { s.twig t with load := some { l with owed := l.owed.filter (· ≠ q.req.tag), got := l.got ++ [c] } } ∧ OtherTwigs t s s' ∧
               s'.ports = s.ports) ∧
           (∀ m tag part, q.req.who = .host m tag part →
             s'.ports[m].reads = s.ports[m].reads.map (fun x => if x.tag = tag then { x with parts := lmod x.parts part fun p => { p with data := some c } } else x) ∧
               s'.boughs = s.boughs ∧ s'.crn = s.crn)) ∧
         (par ≠ 2 → { s' with slices := s.slices, boughs := s.boughs, crn := s.crn, ports := s.ports } = s) ∧
         { s' with slices := s.slices, boughs := s.boughs, crn := s.crn, ports := s.ports, hbm := s.hbm, ring := s.ring, crownEvts := s.crownEvts,
                   fresh := s.fresh } = s) ∧
   (∀ (s : State) k n par bad q, s.slices[k].queue[n]? = some q → (∃ p ∈ s.slices[k].queue.take n, p.req.addr / 64 = q.req.addr / 64) →
     exec (.targetAccessComplete k ⟨n, par, bad⟩) s = .next s) ∧
   ∀ (s : State) k n par bad, s.slices[k].queue.length ≤ n →
     RunsTo (.targetAccessComplete k ⟨n, par, bad⟩) s fun s' =>
       s'.slices[k] = { s.slices[k] with writing := s.slices[k].writing.eraseIdx (n - s.slices[k].queue.length) } ∧
         (par ≠ 2 → { s' with slices := s'.slices.set k.val s.slices[k] k.isLt } = s) ∧
         (par = 2 → ∀ b, s.slices[k].writing[n - s.slices[k].queue.length]? = some b → ∀ w ∈ wordsOf b.bytes, s'.mem.markOf w = some .fresh) ∧
         { s' with slices := s'.slices.set k.val s.slices[k] k.isLt, mem := s.mem, hbm := s.hbm, ring := s.ring, crownEvts := s.crownEvts, fresh := s.fresh } = s) ∧
  (∀ (s : State) k bad b rest, s.slices[k].inbox = .beat b :: rest → b.slice = k → s.heldOf k = [] →
     let held := s.burstHeld b = true ∨ s.behindHeld b s.nextId = true
     (held → RunsTo (.writeBurstStage ⟨k, bad⟩) s fun s' =>
       s'.heldWrites = s.heldWrites ++ [{ tgt := .slice k, burst := b, ord := s.nextId }] ∧ s'.nextId = s.nextId + 1 ∧
         s'.slices[k] = { s.slices[k] with inbox := rest } ∧
         { s' with heldWrites := s.heldWrites, nextId := s.nextId, slices := s'.slices.set k.val s.slices[k] k.isLt } = s) ∧
     (¬ held → s.noRoom b = true → exec (.writeBurstStage ⟨k, bad⟩) s = .next s) ∧
     (¬ held → s.noRoom b = false → b.mark = false →
       RunsTo (.writeBurstStage ⟨k, bad⟩) s fun s' =>
         (∃ ws : List Nat, s'.slices[k] = { s.slices[k] with inbox := rest, staging := s.slices[k].staging ++ [{ b with bad := ws }] } ∧
           ∀ w, w ∈ ws ↔ w ∈ b.bad ∨ ∃ j, (wordsOf b.bytes)[j]? = some w ∧ bad.getLsbD j = true) ∧
           { s' with slices := s'.slices.set k.val s.slices[k] k.isLt } = s) ∧
     (¬ held → s.noRoom b = false → b.mark = true →
       RunsTo (.writeBurstStage ⟨k, bad⟩) s fun s' =>
         (∃ ws : List Nat, s'.slices[k] = { s.slices[k] with inbox := rest, writing := s.slices[k].writing ++ [{ b with bad := ws }], wr := s.slices[k].wr + 1 } ∧
           (∀ w, w ∈ ws ↔ w ∈ b.bad ∨ ∃ j, (wordsOf b.bytes)[j]? = some w ∧ bad.getLsbD j = true) ∧ ∀ w ∈ ws, s'.mem.markOf w = some .stored) ∧
           (s.sys.mode ≠ .service → (b.bytes.map fun c => c.1).Nodup → (∀ c ∈ b.bytes, c.1 / 64 ∉ s.mem.dead) → ∀ c ∈ b.bytes, s'.mem.read c.1 = c.2) ∧
           (s.sys.mode ≠ .service → ∀ a, a ∉ b.bytes.map (fun c => c.1) → s'.mem.read a = s.mem.read a) ∧
           (∀ j, j ≠ k → s'.slices[j] = s.slices[j]) ∧ s'.queues = s.queues ∧ s'.filters = s.filters ∧ s'.heldWrites = s.heldWrites ∧ s'.links = s.links)) ∧
  ∀ (s : State) k bad x post pre, s.heldWrites = pre ++ x :: post → (∀ y ∈ pre, y.tgt ≠ .slice k) → x.tgt = .slice k → x.burst.slice = k → x.burst.mark = false →
     x.burst.bad = [] → s.burstHeld x.burst = false → s.behindHeld x.burst x.ord = false → s.noRoom x.burst = false →
     RunsTo (.writeBurstStage ⟨k, bad⟩) s fun s' =>
       s'.heldWrites = pre ++ post ∧ (bad = 0 → s'.slices[k] = { s.slices[k] with staging := s.slices[k].staging ++ [x.burst] }) ∧
         { s' with heldWrites := s.heldWrites, slices := s'.slices.set k.val s.slices[k] k.isLt } = s

/-- Refresh, temperature readings and error injection change the registers of their own stack alone, the scrub no byte (R276-R278, R285, R286,
R290-R292). A refresh is made in RUN and DRAIN, of a bank for which nothing waits or whose refresh is 8 intervals late (R263, R277). -/
def Obligations.StackMaintenance : Prop :=
  (∀ (s : State) (k : SliceId) p bank waited, s.hbm[sliceStack k].state = 2 → waited ≤ 8 → s.sys.mode = .run ∨ s.sys.mode = .drain →
    s.waitingFor k p.val bank.val = 0 ∨ waited = 8 →
    RunsTo (.perBankRefresh k p bank waited) s fun s' =>
      s'.hbm[sliceStack k].refreshes = s.hbm[sliceStack k].refreshes + 1 ∧
        s'.hbm[sliceStack k].postponedMax.toNat = max s.hbm[sliceStack k].postponedMax.toNat waited ∧
        { s' with hbm := s'.hbm.set (sliceStack k).val s.hbm[sliceStack k] (sliceStack k).isLt } = s) ∧
  (∀ (s : State) (i : StackId) (temp : BitVec 8), s.hbm[i].state ≠ 0 →
    RunsTo (.stackTempRead i temp) s fun s' =>
      s'.hbm[i].temp = temp ∧ s'.hbm[i].tempMax.toNat = max s.hbm[i].tempMax.toNat temp.toNat ∧ s'.hbm[i].hot = decide (95 ≤ temp.toNat) ∧
        s'.refreshFast i = (decide (85 < temp.toNat) || s.refresh2x) ∧
        s'.hbm[i].hotSeen = (s.hbm[i].hotSeen || (decide (95 ≤ temp.toNat) && !s.hbm[i].hot)) ∧
        { s' with hbm := s'.hbm.set i.val s.hbm[i] i.isLt, crownEvts := s.crownEvts } = s) ∧
  (∀ (s : State) (i : StackId) kind word, RunsTo (.injectArm i kind word) s fun s' =>
    s'.hbm[i] = { s.hbm[i] with injArm := true, injKind := kind, injWord := word } ∧ { s' with hbm := s'.hbm.set i.val s.hbm[i] i.isLt } = s) ∧
  ∀ (s : State) (k : SliceId) g, 64 * g < rootSize → s.sliceOf (64 * g) = k → s.hbm[sliceStack k].state = 2 → s.scrubHours ≠ 0 →
    s.hbm[sliceStack k].scrubAt k (s.bankOf (64 * g)) = true → s.waitingAt k (64 * g) = 0 →
    RunsTo (.patrolScrub k g) s fun s' =>
      SameBytes s.mem s'.mem ∧
        (s.scrubSkips k g = false → ∀ w, w / 8 = g → s'.mem.markOf w = match s.mem.markOf w with
          | some .single => none
          | some .fresh => some .stored
          | m => m) ∧
        (k.val % 8 = 0 → s.hbm[sliceStack k].scrubNext ≠ 63 → s'.hbm[sliceStack k].scrubNext = s.hbm[sliceStack k].scrubNext + 1) ∧
        { s' with mem := s.mem, hbm := s.hbm, ring := s.ring, crownEvts := s.crownEvts, fresh := s.fresh } = s

/-- The skew fold and the linear map each name every granule of root memory once, and LINEAR_MAP_SWITCH changes the map only in SERVICE with idle
slices (R264, R268). A command that finds nothing to act on leaves the state as it is: the model's choice (log entry 1). -/
def Obligations.AddressMaps : Prop :=
  (∀ g, g < 2 ^ 31 → skewUnfold (skewFold g) = g ∧ (skewFold g).s < 64 ∧ (skewFold g).p < 4 ∧ (skewFold g).b < 16 ∧ (skewFold g).w < 2 ^ 19) ∧
  (∀ g, g < 2 ^ 31 → linearUnmap (linearMap g) = g ∧ (linearMap g).s < 64 ∧ (linearMap g).p < 4 ∧ (linearMap g).b < 16 ∧ (linearMap g).w < 2 ^ 19) ∧
  (∀ (s : State), s.sys.mode = .service → s.slicesIdle = true → RunsTo .linearMapSwitch s fun s' =>
    s'.linearInForce = s.rootLinear ∧ { s' with mem := s.mem, linearInForce := s.linearInForce } = s ∧ (s.rootLinear = s.linearInForce → s' = s)) ∧
  ∀ (s : State), s.sys.mode ≠ .service ∨ s.slicesIdle = false → exec .linearMapSwitch s = .next s

/-! ### Host transactions (chapter 11) -/

/-- A host write TLP of a physical function to root memory is staged as one transaction and changes no byte; one that it cannot stage is logged
(R306, R309). STAGED and COMMIT: once every slice has staged its bursts, a COMMIT makes the bursts of its slice visible, and DISCARD drops them;
here for a transaction of one slice (R272, R306, R307). A host write to a scratchpad arms one entry there, becomes visible when the entry is
installed, and releases the entry once its granules are written (R150, R308). A command that finds nothing to act on leaves the state as it is: the
model's choice (log entry 1). -/
def Obligations.HostWrites : Prop :=
  (∀ (s : State) n p a, p.fn = .pf n → s.takesTlp (.pf n) = true → s.tlpWaits (.pf n) (.hostWriteTlp n p) = false → s.writeWaits n p = false → p.wellFormed = true → p.bar2 = true →
     s.ports[n].pfWindow p.off = .mem a →
     (a + p.data.length ≤ rootSize → p.poisoned = false →
       RunsTo (.hostWriteTlp n p) s fun s' =>
         (∃ t, s'.txns = s.txns ++ [t] ∧ t.id = s.nextId ∧ t.who = .host n ∧ t.fn = some (.pf n) ∧ t.addr = a ∧ t.len = p.data.length ∧ t.decision = none ∧
           t.slices = s.slicesOf (atAddr a p.data) ∧ t.relaxed = p.relaxed) ∧
           s'.mem = s.mem ∧ s'.ports[n].rx = s.ports[n].rx + BitVec.ofNat 48 p.data.length ∧ OnlyPort n s s' ∧
           { s' with txns := s.txns, seqQ := s.seqQ, slices := s.slices, nextId := s.nextId, ports := s.ports } = s) ∧
     (p.poisoned = true →
       RunsTo (.hostWriteTlp n p) s fun s' =>
         s'.mem = s.mem ∧ s'.txns = s.txns ∧ s'.outbox = s.outbox ++ [.aer n true] ∧ s'.ports[n].event.getLsbD 4 = true ∧ OnlyPort n s s' ∧
           { s' with ports := s.ports, outbox := s.outbox, crownEvts := s.crownEvts } = s)) ∧
  ((∀ (s : State) id k t, s.txn? id = some t → t.slices = [k] → t.okFrom = [] → t.failFrom = [] → t.decision = none → s.allStaged id k = true → t.id = id →
     (∀ b ∈ s.slices[k].staging, b.txn = id → b.bad = []) →
     RunsTo (.staged id k) s fun s' => s'.txn? id = some { t with okFrom := [k] } ∧ s'.mem = s.mem ∧ { s' with txns := s.txns } = s) ∧
   (∀ (s : State) id k t b, s.txn? id = some t → t.id = id → t.slices = [k] → t.decision = none → s.commitReady t = true → (∀ w st, t.who ≠ .twig w st) → s.sys.mode ≠ .service →
     youngerOwners (.txn id) s.filters = [] →
     (s.slices[k].staging.filter fun b => b.txn = id) = [b] → b.bad = [] → b.slice = k → (b.bytes.map fun c => c.1).Nodup →
     (∀ c ∈ b.bytes, c.1 / 64 ∉ s.mem.dead) →
     RunsTo (.commit id k) s fun s' =>
       (∀ c ∈ b.bytes, s'.mem.read c.1 = c.2) ∧ (∀ a, a ∉ b.bytes.map (fun c => c.1) → s'.mem.read a = s.mem.read a) ∧
         s'.slices[k].staging = s.slices[k].staging.filter (fun b => b.txn ≠ id) ∧ s'.slices[k].writing = s.slices[k].writing ++ [b] ∧
         (∃ u, s'.txn? id = some u ∧ u.decision = some true ∧ u.ctl = []) ∧ s'.boughs = s.boughs ∧ s'.queues = s.queues ∧ s'.filters = s.filters) ∧
   (∀ (s : State) id k t, s.txn? id = some t → t.id = id → t.slices = [k] → t.decision = none → s.commitReady t = false → exec (.commit id k) s = .next s) ∧
   (∀ (s : State) id k t, s.txn? id = some t → t.id = id → t.decision = some false → t.ctl = [k] → (∀ n : PortId, s.ports[n].held = []) →
     RunsTo (.discard id k) s fun s' =>
       s'.txn? id = none ∧ s'.mem = s.mem ∧ (∀ b ∈ s'.slices[k].staging, b.txn ≠ id) ∧ s'.slices[k].writing = s.slices[k].writing ∧
         { s' with txns := s.txns, seqQ := s.seqQ, filters := s.filters, slices := s.slices, heldWrites := s.heldWrites } = s) ∧
   ∀ (s : State) id k t, s.txn? id = some t → t.id = id → t.decision = some true → t.slices = [k] → t.ctl = [] → t.committed = [] → (∀ n : PortId, s.ports[n].held = []) →
     RunsTo (.committed id k) s fun s' =>
       s'.txn? id = none ∧ s'.mem = s.mem ∧ (∀ e ∈ s'.filters, e.owner = .txn id → e.released = true) ∧
         { s' with txns := s.txns, seqQ := s.seqQ, filters := s.filters } = s) ∧
  ((∀ (s : State) d pre e post id t, s.filters = pre ++ e :: post → (∀ x ∈ pre, ¬ (x.tgt = .scratch d ∧ x.installed = false)) → e.tgt = .scratch d → e.installed = false →
     e.owner = .txn id → s.filterCount (.scratch d) < 16 → s.sys.mode ≠ .service → s.txns.find? (fun t => t.id = id && t.scratch.isSome) = some t → (t.bytes.map fun c => c.1).Nodup →
     (∀ c ∈ t.bytes, c.1 / 64 ∉ s.mem.dead) →
     RunsTo (.filterInstall (.scratch d)) s fun s' =>
       s'.filters = pre ++ { e with installed := true } :: post ∧ (∀ c ∈ t.bytes, s'.mem.read c.1 = c.2) ∧
         ∀ a, a ∉ t.bytes.map (fun c => c.1) → s'.mem.read a = s.mem.read a) ∧
   ∀ (s : State) id t d n, s.txn? id = some t → t.id = id → t.scratch = some d → t.fn = some (.pf n) → s.scratchVisible id = true → (∀ n : PortId, s.ports[n].held = []) →
     (∀ g ∈ granulesOf t.bytes, olderBlocks (.txn id) (.scratch d) g s.filters = false) →
     RunsTo (.hostScratchpadWrite id) s fun s' =>
       s'.txn? id = none ∧ s'.mem = s.mem ∧ (∀ e ∈ s'.filters, e.owner = .txn id → e.released = true) ∧
         { s' with txns := s.txns, seqQ := s.seqQ, filters := s.filters } = s)

/-- A host read through BAR2 asks for every granule it touches, or for a half granule, and its completion carries the bytes that the parts brought,
low address first (R270, R302, R310). -/
def Obligations.HostReads : Prop :=
  (∀ (s : State) n tag off len a, s.takesTlp (.pf n) = true →
    s.tlpWaits (.pf n) (.hostReadRequest n tag (.pf n) true off len) = false → s.readWaits n tag off len s.nextId = false → 0 < len → len ≤ 4096 →
    off / 4096 = (off + len - 1) / 4096 → s.ports[n].pfWindow off = .mem a →
    RunsTo (.hostReadRequest n tag (.pf n) true off len) s fun s' =>
      (∃ r, s'.ports[n].reads = s.ports[n].reads ++ [r] ∧ r.tag = tag ∧ r.addr = a ∧ r.len = len ∧ r.parts = readParts a len ∧
        (∀ x, a ≤ x → x < a + len → ∃ p ∈ r.parts, p.addr ≤ x ∧ x < p.addr + p.len)) ∧
        s'.nextId = s.nextId + (readParts a len).length ∧ s'.mem = s.mem ∧ OnlyPort n s s' ∧
        { s' with ports := s.ports, slices := s.slices, scr := s.scr, nextId := s.nextId } = s) ∧
  ∀ (s : State) n tag r c p, s.ports[n].reads = [r] → s.ports[n].held = [] → r.tag = tag → r.fn = .pf n → r.absorb = false → r.answer = none → r.fault = none →
    r.parts = [p] → p.data = some c → c.base ≤ r.addr → r.addr + r.len ≤ c.base + c.data.length → p.addr < rootSize → c.poison.any (fun b => b) = false →
    RunsTo (.hostReadCompletion n tag) s fun s' =>
      s'.outbox = s.outbox ++ [.completion n tag true false ((c.data.drop (r.addr - c.base)).take r.len)] ∧ s'.ports[n].reads = [] ∧
        s'.ports[n].tx = s.ports[n].tx + BitVec.ofNat 48 r.len ∧ s'.mem = s.mem ∧ OnlyPort n s s' ∧ { s' with ports := s.ports, outbox := s.outbox } = s

/-! ### Registers (chapter 21) -/

/-- REGISTER_WRITE: an RW field takes the written value, a W1C field clears the bits written 1, a 4-byte write reaches its half alone, PWR_ALARM and
RING_CAL_SYNC ignore it, a physical function leaves crown-only fields alone, a VF reaches only the registers of R386, and an access of another size
or alignment changes no register (R10, R386, R543, R546, R547). A command that finds nothing to act on leaves the state as it is: the model's choice
(log entry 1). -/
def Obligations.RegisterWrites : Prop :=
  (∀ (s : State) k v, s.awake = true →
    (RunsTo (.registerWrite (.crown k) 0x418 true v) s fun s' =>
      s'.pwr.hotC = v.setWidth 8 ∧ s'.pwr.powerW = (v >>> 8).setWidth 10 ∧
        { s' with pwr := { s'.pwr with hotC := s.pwr.hotC, powerW := s.pwr.powerW } } = s) ∧
    (RunsTo (.registerWrite (.crown k) 0x410 true v) s fun s' =>
      s'.pwr.event = s.pwr.event &&& ~~~ v.setWidth 7 ∧ { s' with pwr := { s'.pwr with event := s.pwr.event } } = s) ∧
    (RunsTo (.registerWrite (.crown k) 0x42c false v) s fun s' =>
      s'.pwr.peakMw = v.setWidth 8 ++ s.pwr.peakMw.setWidth 12 ∧ { s' with pwr := { s'.pwr with peakMw := s.pwr.peakMw } } = s) ∧
    (RunsTo (.registerWrite (.crown k) 0x438 true v) s fun s' =>
      s'.pwr.alarm = v ∧ { s' with pwr := { s'.pwr with alarm := s.pwr.alarm, alarmPend := s.pwr.alarmPend } } = s) ∧
    (∀ off, off = 0x438 ∨ off = 0x43c ∨ off = 0x1038 ∨ off = 0x103c → RunsTo (.registerWrite (.crown k) off false v) s fun s' => s' = s) ∧
    ∀ off wide, off % (if wide = true then 8 else 4) ≠ 0 → RunsTo (.registerWrite (.crown k) off wide v) s fun s' => s' = s) ∧
  (∀ (s : State) n v, s.takesTlp (.pf n) = true →
    (∀ off, s.tlpWaits (.pf n) (.registerWrite (.pf n) off true v) = false → off = 0x408 ∨ off = 0x438 ∨ off = 0x440 ∨ off = 0x1428 ∨ off = 0x1430 →
      RunsTo (.registerWrite (.pf n) off true v) s fun s' => OnlyPort n s s' ∧ { s' with ports := s.ports } = s) ∧
    (∀ off wide, s.tlpWaits (.pf n) (.registerWrite (.pf n) off wide v) = false → off % (if wide = true then 8 else 4) ≠ 0 →
      RunsTo (.registerWrite (.pf n) off wide v) s fun s' =>
        s'.outbox = s.outbox ++ [.aer n true] ∧ s'.ports[n].event.getLsbD 2 = true ∧ OnlyPort n s s' ∧
          { s' with ports := s.ports, outbox := s.outbox, crownEvts := s.crownEvts } = s)) ∧
  (∀ (s : State) x off wide v, s.takesTlp (.vf x) = true → s.tlpWaits (.vf x) (.registerWrite (.vf x) off wide v) = false → off < 0x140 → off % 8 = 0 → off ≠ 0x18 → off ≠ 0xc0 →
    RunsTo (.registerWrite (.vf x) off wide v) s fun s' =>
      (∀ p : PlotId, { s'.plots[p] with cnt := s.plots[p].cnt } = s.plots[p]) ∧ OnlyPort (fnPort s (.vf x)) s s' ∧
        { s' with ports := s.ports, plots := s.plots } = s) ∧
  ∀ (s : State) n off wide v, s.takesTlp (.pf n) = true → s.tlpWaits (.pf n) (.registerWrite (.pf n) off wide v) = true →
    RunsTo (.registerWrite (.pf n) off wide v) s fun s' =>
      s'.ports[n].held = s.ports[n].held ++ [⟨.registerWrite (.pf n) off wide v, s.nextId⟩] ∧ OnlyPort n s s' ∧ { s' with ports := s.ports } = s

/-! ### Scratchpads and queue windows (chapters 12, 13) -/

/-- SWEEP_REGION_START opens the next region once the pace allows it, and SWEEP_RESTORE closes it, with no byte changed; a row that failed takes the
lowest free spare of its bank while repair is enabled and a spare is left (R323-R326, R332, R337). A command that finds nothing to act on leaves the state as it is: the model's choice (log
entry 1). -/
def Obligations.ScratchpadSweep : Prop :=
  (∀ (s : State) b, s.sweepEn = true → s.scr[b].sweepOpen = false → s.scrPowered = true → s.paceDue b = true →
    RunsTo (.sweepRegionStart b) s fun s' =>
      s'.scr[b].sweepOpen = true ∧ s'.scr[b].sweepPos = s.scr[b].sweepPos + 1 ∧ s'.scr[b].sweepAt = some s.ring.tick ∧ SameBytes s.mem s'.mem ∧ (∀ c, c ≠ b → s'.scr[c] = s.scr[c]) ∧
        { s' with mem := s.mem, scr := s.scr, ring := s.ring, crownEvts := s.crownEvts, fresh := s.fresh } = s) ∧
  (∀ (s : State) b, s.scr[b].sweepOpen = true →
    RunsTo (.sweepRestore b 0) s fun s' =>
      s'.scr[b] = { s.scr[b] with sweepOpen := false, passes := if s.scr[b].sweepPos = 0 then s.scr[b].passes + 1 else s.scr[b].passes } ∧
        SameBytes s.mem s'.mem ∧ (∀ c, c ≠ b → s'.scr[c] = s.scr[c]) ∧ { s' with mem := s.mem, scr := s.scr } = s) ∧
  (∀ (s : State) b (i : Fin 4) (k : Fin 32) (j : Fin 8) q, q = 4 * (s.scr[b].sweepPos - 1).toNat + i.val → k.val = scrBank q → s.scr[b].sweepOpen = true →
    s.scr[b].failed.getLsbD k.val = false → s.repairEn = true → s.scr[b].spares[k].getLsbD j.val = false →
    (∀ j' : Fin 8, j' < j → s.scr[b].spares[k].getLsbD j'.val = true) →
    RunsTo (.sweepRestore b (BitVec.ofNat 4 (2 ^ i.val))) s fun s' =>
      let x := s'.scr[b]
      x.sweepOpen = false ∧ x.spares[k] = s.scr[b].spares[k] ||| BitVec.ofNat 8 (2 ^ j.val) ∧ (∀ c, c ≠ k → x.spares[c] = s.scr[b].spares[c]) ∧
        (k.val, scrRow q, j.val) ∈ x.rowMap ∧ (∀ r, (r.1 ≠ k.val ∨ r.2.1 ≠ scrRow q) → (r ∈ x.rowMap ↔ r ∈ s.scr[b].rowMap)) ∧
        x.status.getLsbD 3 = true ∧ x.failed = s.scr[b].failed ∧ (∀ r, r ∈ x.poisonRows ↔ r ∈ s.scr[b].poisonRows ∧ r ≠ (k.val, scrRow q)) ∧
        SameBytes s.mem s'.mem ∧ (∀ c, c ≠ b → s'.scr[c] = s.scr[c]) ∧
        { s' with mem := s.mem, scr := s.scr, ring := s.ring, hwd := s.hwd, crownEvts := s.crownEvts } = s) ∧
  ∀ (s : State) b failed, s.scr[b].sweepOpen = false → RunsTo (.sweepRestore b failed) s fun s' => s' = s

/-- The queue window of a host producer: QW_OPEN takes C + 1 credits, QW_DATA fills a payload word, QW_CLOSE closes with COUNT words; each error
changes ERR alone (R341-R343, R355-R357). The queue window of a host consumer: QW_TAKE opens the oldest packet, QW_DATA reads its words, QW_DONE
frees it and returns COUNT + 1 credits; and MSIX_UNMASK sends one message for pending closes (R343, R350, R356, R357, R469). -/
def Obligations.HostWindows : Prop :=
  (∀ (s : State) fn q v, s.hostProd fn q = true →
     let go (i : Instr) (Q : State → Prop) : Prop := Reaches s fn i → RunsTo i s Q
     let x := s.queues[q]
     let only (s' : State) : Prop := OnlyQueue q s s' ∧ OnlyPort (fnPort s fn) s s' ∧ { s' with queues := s.queues, ports := s.ports, plots := s.plots } = s
     let err (k : BitVec 4) (s' : State) : Prop := s'.queues[q].errProd = k ∧ { s'.queues[q] with errProd := x.errProd, errCons := x.errCons } = x ∧ only s'
     let c := v.toNat % 8192
     let n := v.toNat % 65536
     let typ := v.toNat / 2 ^ 16 % 256
     (x.prod = none → c ≤ 4096 → c + 1 ≤ s.ringWords q → c + 1 ≤ x.credits →
       go (.qwOpen fn q v) fun s' =>
         s'.queues[q].credits = x.credits - (c + 1) ∧ (∃ o, s'.queues[q].prod = some o ∧ o.cap = c ∧ o.slot = x.tail) ∧ s'.queues[q].errProd = 0 ∧
           s'.queues[q].pending = x.pending ∧ s'.queues[q].cons = x.cons ∧ only s') ∧
     (x.prod ≠ none → go (.qwOpen fn q v) (err 4)) ∧
     (x.prod = none → (4096 < c ∨ s.ringWords q < c + 1) → go (.qwOpen fn q v) (err 5)) ∧
     (x.prod = none → c ≤ 4096 → c + 1 ≤ s.ringWords q → x.credits < c + 1 → go (.qwOpen fn q v) (err 6)) ∧
     (∀ o i, x.prod = some o → i < o.words.length → o.words.length = o.cap →
       go (.qwDataWrite fn q i v) fun s' =>
         (∃ w, w.w = v ∧ w.bad = false ∧ s'.queues[q] = { x with prod := some { o with words := o.words.set i w } }) ∧ only s') ∧
     (∀ o i, x.prod = some o → o.cap ≤ i → go (.qwDataWrite fn q i v) (err 2)) ∧
     (∀ i, x.prod = none → go (.qwDataWrite fn q i v) (err (if x.prodVoid = true then 1 else 3))) ∧
     (s.writesDone fn = true →
       (x.prod = none → go (.qwClose fn q v) (err (if x.prodVoid = true then 1 else 3))) ∧
       ∀ o, x.prod = some o →
         (o.cap < n → go (.qwClose fn q v) (err 2)) ∧
         (n ≤ o.cap → 0x80 ≤ typ → go (.qwClose fn q v) (err 7)) ∧
         (n ≤ o.cap → typ < 0x80 → o.words.length = o.cap →
           go (.qwClose fn q v) fun s' =>
             (∃ p, p.words = o.words.take n ∧ p.typ = BitVec.ofNat 8 typ ∧ p.tag = BitVec.ofNat 32 (v.toNat / 2 ^ 32) ∧
               s'.queues[q].pending = x.pending ++ [p]) ∧
               s'.queues[q].prod = none ∧ s'.queues[q].credits = x.credits + (o.cap - n) ∧ s'.queues[q].cons = x.cons ∧ OnlyQueue q s s' ∧
               { s' with queues := s.queues, ports := s.ports, plots := s.plots, outbox := s.outbox, crownEvts := s.crownEvts, grafts := s.grafts } = s))) ∧
  ((∀ (s : State) fn q, s.hostCons fn q = true →
     let go (i : Instr) (Q : State → Prop) : Prop := Reaches s fn i → RunsTo i s Q
     let x := s.queues[q]
     let only (s' : State) : Prop := OnlyQueue q s s' ∧ OnlyPort (fnPort s fn) s s' ∧ { s' with queues := s.queues, ports := s.ports, plots := s.plots } = s
     (∀ p ps, x.cons = none → x.pending = p :: ps →
       go (.qwTake fn q 1) fun s' => s'.queues[q] = { x with cons := some { pkt := p, pos := 0 }, pending := ps, consVoid := false } ∧ only s') ∧
     (x.cons = none → x.pending = [] → go (.qwTake fn q 1) fun s' => s'.queues[q] = x ∧ only s') ∧
     (x.cons ≠ none → go (.qwTake fn q 1) fun s' =>
       s'.queues[q].errCons = 4 ∧ { s'.queues[q] with errProd := x.errProd, errCons := x.errCons } = x ∧ only s') ∧
     (∀ o i w, x.cons = some o → o.pkt.words[i]? = some w → w.bad = false →
       go (.qwDataRead fn q i) fun s' =>
         s'.outbox = s.outbox ++ [.window fn q i w.w false] ∧ s'.queues = s.queues ∧ OnlyPort (fnPort s fn) s s' ∧
           { s' with outbox := s.outbox, ports := s.ports, plots := s.plots } = s) ∧
     (∀ i, (∀ o, x.cons = some o → o.pkt.words.length ≤ i) →
       go (.qwDataRead fn q i) fun s' => s'.outbox = s.outbox ++ [.window fn q i 0 false] ∧ s'.queues = s.queues) ∧
     (∀ o, x.cons = some o →
       go (.qwDone fn q 1) fun s' =>
         s'.queues[q] = { x with cons := none, credits := x.credits + o.pkt.words.length + 1 } ∧ OnlyQueue q s s' ∧
           { s' with queues := s.queues, ports := s.ports, plots := s.plots, ring := s.ring, grafts := s.grafts, outbox := s.outbox } = s) ∧
     (x.cons = none → go (.qwDone fn q 1) fun s' =>
       s'.queues[q].errCons = (if x.consVoid = true then 1 else 3) ∧ { s'.queues[q] with errProd := x.errProd, errCons := x.errCons } = x ∧ only s')) ∧
   ∀ (s : State) fn entry, entry < s.msixCount fn →
     RunsTo (.msixUnmask fn entry) s fun s' =>
       (s'.func fn).entryMasked entry = (s.func fn).funcMask ∧
         s'.outbox = (if (s.func fn).funcMask = false ∧ (s.func fn).entryMasked entry = true ∧ s.entryPending fn entry = true ∧ (s.func fn).msixEn = true ∧ s.fnUp fn = true
           then s.outbox ++ [.msix fn entry] else s.outbox) ∧
         { s'.func fn with msixTab := (s.func fn).msixTab } = s.func fn ∧ { s' with ports := s.ports, vfs := s.vfs, outbox := s.outbox } = s)

/-- FLUSH asks for a flush of its queue, and QUEUE_FLUSH, once no vector instruction uses the queue, empties it: no packet is pending or open, both
open packets are marked void, and the credits are SIZE64 × 64 (R353, R360). A command that finds nothing to act on leaves the state as it is: the
model's choice (log entry 1). -/
def Obligations.QueueFlushes : Prop :=
  (∀ (s : State) q, RunsTo (.flush q) s fun s' => s'.queues[q] = { s.queues[q] with flushing := true } ∧ OnlyQueue q s s' ∧ { s' with queues := s.queues } = s) ∧
  (∀ (s : State) q r, s.queues[q].flushing = true → s.halvesOn q = [] → s.queueRec q.val = some r → (∀ n, recCons r ≠ .graft n) → 
    RunsTo (.queueFlush q) s fun s' =>
      let x := s'.queues[q]
      x.pending = [] ∧ x.prod = none ∧ x.cons = none ∧ x.credits = recSize r ∧ x.flushing = false ∧ x.prodVoid = (s.queues[q].prodVoid || s.queues[q].prod.isSome) ∧
        x.consVoid = (s.queues[q].consVoid || s.queues[q].cons.isSome) ∧ OnlyQueue q s s' ∧ { s' with queues := s.queues, ring := s.ring } = s) ∧
  ∀ (s : State) q, s.queues[q].flushing = false → exec (.queueFlush q) s = .next s

/-! ### Plots (chapter 14) -/

/-- PARK freezes the boughs of a running plot, PARK_HOLD holds their twigs once none streams and parks the plot, and clearing PARK lets a parking
plot go on; a running plot's PREEMPT starts the grace period, at whose end the plot begins to park (R375, R376). A command that finds nothing to act
on leaves the state as it is: the model's choice (log entry 1). -/
def Obligations.PlotParking : Prop :=
  ∀ (s : State) p m, s.plotMap p.val = some m →
    let others (s' : State) : Prop := (∀ r, r ≠ p → s'.plots[r] = s.plots[r]) ∧ { s' with plots := s.plots, boughs := s.boughs } = s
    (s.plots[p].st = .running →
      RunsTo (.park p true) s fun s' =>
        s'.plots[p] = { s.plots[p] with park := true, st := .parking } ∧
          (∀ b, s'.bough b = if m.boughs.getLsbD b.val then { s.bough b with freeze := true } else s.bough b) ∧ others s') ∧
    (s.plots[p].st = .parking → (∀ b : BoughId, m.boughs.getLsbD b.val = true → (s.bough b).streaming = false ∧ (s.bough b).twig.canHold = true) →
      RunsTo (.parkHold p) s fun s' =>
        s'.plots[p] = { s.plots[p] with st := .parked, preempt := false, graceOn := false, parkedAt := s.ring.tick } ∧
          (∀ b, s'.bough b = if m.boughs.getLsbD b.val ∧ (s.bough b).twig.run ≠ .halted ∧ (s.bough b).resetting = false then { s.bough b with twig := { (s.bough b).twig with run := .held } }
            else s.bough b) ∧ others s') ∧
    (s.plots[p].st = .parking → RunsTo (.park p false) s fun s' =>
      s'.plots[p] = { s.plots[p] with park := false, st := .running, preempt := s.plots[p].graceOn } ∧
        (∀ b : BoughId, m.boughs.getLsbD b.val = true → (s'.bough b).freeze = false ∧ ((s.bough b).twig.run ≠ .halted → (s.bough b).resetting = false → (s'.bough b).twig.run = .running)) ∧
        (∀ b : BoughId, m.boughs.getLsbD b.val = false → s'.bough b = s.bough b) ∧ others s') ∧
    (s.plots[p].st = .parked → RunsTo (.park p false) s fun s' =>
      s'.plots[p].st = .running ∧ s'.plots[p].park = false ∧
        (∀ b : BoughId, m.boughs.getLsbD b.val = true → (s'.bough b).freeze = false ∧ ((s.bough b).twig.run ≠ .halted → (s.bough b).resetting = false → (s'.bough b).twig.run = .running)) ∧
        (∀ b : BoughId, m.boughs.getLsbD b.val = false → s'.bough b = s.bough b) ∧ (∀ r, r ≠ p → { s'.plots[r] with cnt := s.plots[r].cnt } = s.plots[r]) ∧ s'.mem = s.mem) ∧
    (s.plots[p].st = .running → s.plots[p].preempt = false →
      RunsTo (.preempt p) s fun s' =>
        s'.plots[p].preempt = true ∧ s'.plots[p].graceOn = true ∧ s'.plots[p].preemptEnd = s.ring.tick + s.plots[p].grace.setWidth 64 ∧ s'.plots[p].st = .running ∧
          (s.messageBough m = none → { s'.plots[p] with preempt := false, graceOn := s.plots[p].graceOn, preemptEnd := s.plots[p].preemptEnd } = s.plots[p] ∧ others s') ∧
          { s' with plots := s.plots, queues := s.queues, outbox := s.outbox, crownEvts := s.crownEvts, grafts := s.grafts } = s) ∧
    (s.plots[p].st ≠ .running → RunsTo (.preempt p) s fun s' => s' = s) ∧
    (s.plots[p].st = .running → s.plots[p].graceOn = true → s.plots[p].preemptEnd.toNat ≤ s.ring.tick.toNat ∨ s.plotIdle m = true →
      RunsTo (.preemptGraceExpiry p) s fun s' =>
        s'.plots[p] = { s.plots[p] with park := true, graceOn := false, st := .parking } ∧
          (∀ b, s'.bough b = if m.boughs.getLsbD b.val then { s.bough b with freeze := true } else s.bough b) ∧ others s') ∧
    (s.plots[p].st = .parking → s.plots[p].graceOn = true → s.plots[p].preemptEnd.toNat ≤ s.ring.tick.toNat →
      RunsTo (.preemptGraceExpiry p) s fun s' => s'.plots[p] = { s.plots[p] with graceOn := false } ∧ s'.boughs = s.boughs ∧ others s') ∧
    (s.ring.tick.toNat < s.plots[p].preemptEnd.toNat → s.plotIdle m = false → RunsTo (.preemptGraceExpiry p) s fun s' => s' = s)

/-- PLOT_RESET resets every bough of the plot, asks for a flush of its queues and cancels a preemption; PLOT_RESET_COMPLETE, once all is clean,
leaves the scratchpads zero and DUTY at 64 and runs the plot, or leaves it parked; PLOT_BOUGH_RESET resets a bough of its own plot only (R383,
R390). A command that finds nothing to act on leaves the state as it is: the model's choice (log entry 1). -/
def Obligations.PlotReset : Prop :=
  ∀ (s : State) p m, s.plotMap p.val = some m →
    (s.plots[p].resetBusy = false → s.plots[p].st ≠ .regraining →
      RunsTo (.plotReset p) s fun s' =>
        s'.plots[p].st = .resetting ∧ s'.plots[p].resetBusy = true ∧ s'.plots[p].preempt = false ∧ s'.plots[p].graceOn = false ∧ s'.plots[p].park = s.plots[p].park ∧
          s'.plots[p].cnt.resets = s.plots[p].cnt.resets + 1 ∧ s'.plots[p].limitMw = s.plots[p].limitMw ∧ s'.plots[p].events = s.plots[p].events ∧
          (∀ b : BoughId, m.boughs.getLsbD b.val = true → (s'.bough b).resetting = true) ∧
          (∀ b : BoughId, m.boughs.getLsbD b.val = true → (s.bough b).resetting = false → (s'.bough b).iq = [] ∧ (s'.bough b).saved = none ∧ (s'.bough b).absorbing = true) ∧
          (∀ q ∈ s.plotQueues m, s'.queues[q].flushing = true) ∧ (∀ v : VfId, m.vf = some v.val → s'.cnp.vfAbsorb.getLsbD v.val = true) ∧ s'.mem = s.mem) ∧
    (s.plots[p].st = .regraining → s.plots[p].resetBusy = false →
      RunsTo (.plotReset p) s fun s' => s'.plots[p] = { s.plots[p] with resetWaits := true } ∧ (∀ r, r ≠ p → s'.plots[r] = s.plots[r]) ∧ { s' with plots := s.plots } = s) ∧
    (s.plots[p].resetBusy = true → s.plotClean m = true → s.plots[p].heldEvents = [] →
      RunsTo (.plotResetComplete p) s fun s' =>
        s'.plots[p].st = (if s.plots[p].park = true then .parked else .running) ∧ s'.plots[p].resetBusy = false ∧ s'.plots[p].duty = 64 ∧
          s'.plots[p].cnt = s.plots[p].cnt ∧ s'.plots[p].limitMw = s.plots[p].limitMw ∧ s'.plots[p].events = s.plots[p].events ∧
          (∀ b : BoughId, m.boughs.getLsbD b.val = true → (s'.bough b).freeze = s.plots[p].park ∧
            (s'.bough b).twig.run = (if s.plots[p].park = true then .held else .running) ∧ ∀ i, i < 0x80000 → s'.mem.read (scratchAddr b + i) = 0) ∧
          (∀ b : BoughId, m.boughs.getLsbD b.val = false → s'.bough b = s.bough b ∧ ∀ i, i < 0x80000 → s'.mem.read (scratchAddr b + i) = s.mem.read (scratchAddr b + i)) ∧
          (∀ a, a < rootSize → s'.mem.read a = s.mem.read a) ∧ s'.queues = s.queues) ∧
    (s.plotClean m = false → RunsTo (.plotResetComplete p) s fun s' => s' = s) ∧
    (∀ b : BoughId, m.boughs.getLsbD b.val = true → (s.bough b).resetting = false →
      RunsTo (.plotBoughReset p b) s fun s' => (s'.bough b).resetting = true ∧ (s'.bough b).iq = [] ∧ s'.mem = s.mem ∧ s'.plots[p].st = s.plots[p].st) ∧
    ∀ b : BoughId, m.boughs.getLsbD b.val = false → RunsTo (.plotBoughReset p b) s fun s' => s' = s

/-- CAP_EVALUATION at a multiple of 1,000 ticks sets LAST_MW and DUTY of every defined plot from its effective cap, and CAP_HIT when DUTY first
falls below 64; CROWN_MESSAGE_SEND posts a held message once its crown queue has the credits (R373, R380, R382). A command that finds nothing to act
on leaves the state as it is: the model's choice (log entry 1). -/
def Obligations.PowerCapsAndMessages : Prop :=
  (∀ (s : State), s.ring.tick.toNat % 1000 = 0 → (s.plotMaps.map fun m => m.plot).Nodup → (∀ m ∈ s.plotMaps, m.plot < 64) →
    RunsTo .capEvaluation s fun s' =>
      (∀ p : PlotId, (s.plotMap p.val).isSome = true →
        let a := s.imageCap p.val
        let l := s.plots[p].limitMw.toNat
        let c := if a = 0 then l else if l = 0 then a else min a l
        let mw := min (s.plots[p].shareNJ / 1000) 0xfffff
        let d := s.plots[p].duty
        s'.plots[p].lastMw.toNat = mw ∧ s'.plots[p].peakMw.toNat = max s.plots[p].peakMw.toNat mw ∧
          s'.plots[p].duty = (if 0 < c ∧ c < mw then max 1 (d * c / mw) else if c = 0 ∨ 10 * mw < 9 * c then min 64 (d + 4) else d) ∧
          (s'.plots[p].events.getLsbD 7 = true ↔ s.plots[p].events.getLsbD 7 = true ∨ (s'.plots[p].duty < 64 ∧ d = 64)) ∧
          s'.plots[p].throttledMs = (if s'.plots[p].duty < 64 then s.plots[p].throttledMs + 1 else s.plots[p].throttledMs)) ∧
        (∀ p : PlotId, s.plotMap p.val = none → s'.plots[p] = s.plots[p]) ∧ { s' with plots := s.plots, crownEvts := s.crownEvts } = s) ∧
  (∀ (s : State), s.ring.tick.toNat % 1000 ≠ 0 → RunsTo .capEvaluation s fun s' => s' = s) ∧
  ∀ (s : State) b m q typ w, s.boughPlot b.val = some m → s.plots[plotId m.plot].msgs = [(b, typ, w)] → s.crownQueue b.val = some q → s.queues[q].prod = none →
    (s.queues[q].credits < 2 → RunsTo (.crownMessageSend b) s fun s' => s' = s) ∧
    (2 ≤ s.queues[q].credits → RunsTo (.crownMessageSend b) s fun s' =>
      s'.plots[plotId m.plot].msgs = [] ∧ s'.queues[q].credits = s.queues[q].credits - 2 ∧
        (∃ k, k.typ = typ ∧ k.tag = 0 ∧ (k.words.map fun x => x.w) = [w] ∧ s'.queues[q].pending = s.queues[q].pending ++ [k]) ∧ OnlyQueue q s s' ∧
        { s' with queues := s.queues, plots := s.plots, outbox := s.outbox, crownEvts := s.crownEvts, grafts := s.grafts } = s)

/-! ### The Grain loader (chapter 15) -/

/-- GRAIN_STAGED ends a check: an image is staged only if every check of it passed, else GRN_STATUS holds the rejection, and either way the image in
force, the boughs, the queues and memory are as they were; ACTIVATION_DRAIN takes a staged activation to DRAIN at its tick and not before (R407,
R411, R412). ACTIVATION_WRITE works on shadows: the image in force stays, every bough is reset, every changed queue is flushed, each region that
changes hands as R410 says reads zero and every other region keeps its bytes, and each bough that changes plots has a zeroed scratchpad (R328, R402,
R410, R411). A command that finds nothing to act on leaves the state as it is: the model's choice (log entry 1). -/
def Obligations.ImageLoading : Prop :=
  ((∀ (s : State) r c, s.grn.req = some r → r.ch = some c → s.grn.st = .checking → s.sys.mode = .run → s.grn.waiting = [] →
     RunsTo .grainStaged s fun s' =>
       (∀ g, s'.grn.staged = some g → ∃ n, { s with fresh := n }.checkImage r.slot r.plot = .ok (g, false)) ∧
         (s'.grn.staged.isSome = true ∧ s.grn.staged = none → s'.grn.st = .staged ∧ s'.grn.req = some r) ∧
         ((∀ n g, { s with fresh := n }.checkImage r.slot r.plot ≠ .ok (g, false)) →
           s'.grn.rejected = true ∧ s'.grn.req = none ∧ s'.grn.st = .idle ∧ s'.crn.chans[c].go = false ∧ s'.crn.chans[c].code = 3) ∧
         s'.grn.active = s.grn.active ∧ { s' with grn := s.grn, crn := s.crn, fresh := s.fresh, crownEvts := s.crownEvts } = s) ∧
   (∀ (s : State) r, s.grn.req = some r → s.grn.st = .staged → r.plot = none → s.sys.mode = .run → s.linearInForce = false →
     (r.early.toNat ≤ s.ring.tick.toNat →
       RunsTo .activationDrain s fun s' =>
         s'.sys.mode = .drain ∧ s'.sys.drainFor = some .activation ∧ s'.grn = { s.grn with st := .draining } ∧ s'.mem = s.mem ∧ s'.queues = s.queues ∧
           s'.crownEvts = s.crownEvts ++ [.modeChange .drain]) ∧
     (s.ring.tick.toNat < r.early.toNat → RunsTo .activationDrain s fun s' => s' = s))) ∧
  (∀ (s : State) g, s.grn.staged = some g → s.sys.mode = .load → s.grn.st = .staged ∨ s.grn.st = .draining →
     RunsTo .activationWrite s fun s' =>
       let new (r : Nat) : Option PlotMap := g.plots.find? fun m => m.regions.getLsbD r
       let zero (r : Nat) : Prop := s.prevOwner r ≠ (new r).map (fun m => m.plot) ∧ (s.prevOwner r ≠ none ∨ ∃ m, new r = some m ∧ m.keep.getLsbD r = false)
       s'.grn.active = s.grn.active ∧ s'.grn.staged = some g ∧ s'.grn.st = .writing ∧ s'.sys = s.sys ∧
         (∀ a, a < rootSize → (zero (a / 0x10000000) → s'.mem.read a = 0) ∧ (¬ zero (a / 0x10000000) → s'.mem.read a = s.mem.read a)) ∧
         (∀ b : BoughId, (s.boughPlot b.val).map (fun m => m.plot) ≠ (g.plotOf b.val).map (fun m => m.plot) → ∀ i, i < 0x80000 → s'.mem.read (scratchAddr b + i) = 0) ∧
         (∀ b : BoughId, (s.boughPlot b.val).map (fun m => m.plot) = (g.plotOf b.val).map (fun m => m.plot) →
           ∀ i, i < 0x80000 → s'.mem.read (scratchAddr b + i) = s.mem.read (scratchAddr b + i)) ∧
         (∀ b, (s'.bough b).iq = [] ∧ (s'.bough b).saved = none) ∧
         (∀ q : QueueId, s.queueRec q.val ≠ g.queueRec q.val → s'.queues[q].pending = [] ∧ s'.queues[q].prod = none ∧ s'.queues[q].cons = none) ∧
         ∀ q : QueueId, s.queueRec q.val = g.queueRec q.val → s'.queues[q] = s.queues[q])

/-- SWITCH_TICK puts the staged image in force at one tick: GRN_EPOCH is the tick, every ownership cache is empty, every twig stands at word 0,
every link is new, changed queues are empty and unchanged ones keep their packets; PLOT_START, after that tick, starts the twigs of every plot in
RUN (R190, R304, R409, R411). A regrain resets its plot while the image stays in force; at its switch the plot's scratchpads and the regions that
change hands read 0 and the new image takes effect with every queue and every bough of other plots as they were; the plot's twigs start at word 0
unless PARK is 1 (R304, R328, R409, R410, R413, R414). A command that finds nothing to act on leaves the state as it is: the model's choice (log entry 1). -/
def Obligations.SwitchAndRegrain : Prop :=
  ((∀ (s : State) g r, s.grn.staged = some g → s.grn.req = some r → s.sys.mode = .load → s.grn.st = .writing → (∀ b, (s.bough b).resetting = false) → (∀ b h, (s.half b h).st = .free) →
     (∀ n : PortId, s.grafts[n].st = .off) →
     RunsTo .switchTick s fun s' =>
       s'.grn.active = some g ∧ s'.grn.staged = none ∧ s'.grn.epoch = s.ring.tick ∧ s'.grn.slot = r.slot ∧ s'.sys.mode = .load ∧ s'.mem = s.mem ∧
         (∀ b, (s'.bough b).ocache = [] ∧ (s'.bough b).freeze = false ∧ (s'.bough b).twig.pc = 0 ∧ (s'.bough b).twig.run ≠ .running) ∧
         (∀ p : PlotId, s'.plots[p].duty = 64 ∧ s'.plots[p].park = false ∧ s'.plots[p].preempt = false ∧ s'.plots[p].grace = 1000 ∧
           s'.plots[p].st = if (g.map? p.val).isSome = true then .running else .undefined) ∧
         (∀ q : QueueId, s.queueRec q.val = g.queueRec q.val → s'.queues[q] = s.queues[q]) ∧
         (∀ q : QueueId, s.queueRec q.val ≠ g.queueRec q.val → s'.queues[q].pending = [] ∧
           s'.queues[q].credits = ((g.queueRec q.val).map recSize).getD 0) ∧
         s'.links.length = (linksWithBuf g.links).length ∧ ∀ l ∈ s'.links, l.nextEp = 0 ∧ l.expect = 0 ∧ l.eps = [] ∧ l.wire = []) ∧
   (∀ (s : State) g, s.grn.active = some g → s.sys.mode = .load → s.grn.st = .writing → s.grn.staged = none → s.grn.waiting = [] → s.linearInForce = false →
     (s.grn.epoch.toNat < s.ring.tick.toNat →
       RunsTo .plotStart s fun s' =>
         s'.sys.mode = .run ∧ s'.grn.active = some g ∧ s'.grn.floor = g.serial ∧ s'.grn.prefSlot = s.grn.slot ∧ s'.grn.req = none ∧ s'.grn.st = .idle ∧
           s'.mem = s.mem ∧ s'.links = s.links ∧
           (∀ b : BoughId, (g.plotOf b.val).isSome = true → (s'.bough b).twig.run = .running ∧ (s'.bough b).twig.pc = 0 ∧ ∀ r, (s'.bough b).twig.reg r = 0) ∧
           (∀ b : BoughId, g.plotOf b.val = none → s'.bough b = s.bough b)) ∧
     (s.ring.tick.toNat ≤ s.grn.epoch.toNat → RunsTo .plotStart s fun s' => s' = s))) ∧
  ((∀ (s : State) g r p, s.grn.staged = some g → s.grn.req = some r → r.plot = some p → s.sys.mode = .run → s.grn.st = .staged → s.plots[p].resetBusy = false →
     RunsTo .regrain s fun s' =>
       s'.grn.active = s.grn.active ∧ s'.grn.st = .regraining ∧ s'.grn.plot = p ∧ s'.plots[p].st = .regraining ∧ s'.plots[p].preempt = false ∧
         (∀ q, q ≠ p → s'.plots[q].st = s.plots[q].st) ∧
         (∀ m, s.plotMap p.val = some m → (∀ b : BoughId, m.boughs.getLsbD b.val = true → (s'.bough b).resetting = true) ∧
           ∀ q ∈ s.plotQueues m, s'.queues[q].flushing = true) ∧
         (∀ q : QueueId, s.queueRec q.val ≠ g.queueRec q.val → s.queueRec q.val ≠ none → s'.queues[q].flushing = true) ∧
         (∀ a, a < rootSize → a / 0x10000000 ∉ s.regionsToZero g → s'.mem.read a = s.mem.read a) ∧
         (∀ a, a < rootSize → a / 0x10000000 ∈ s.regionsToZero g → s'.mem.read a = 0)) ∧
   (∀ (s : State) g old r p, s.grn.staged = some g → s.grn.active = some old → s.grn.req = some r → r.plot = some p → s.grn.st = .regraining → s.sys.mode = .run →
     s.regrainReady g p = true → s.grn.waiting = [] → s.plots[p].resetWaits = false → s.plots[p].heldEvents = [] → (∀ n : PortId, s.grafts[n].st ≠ .up) →
     RunsTo .regrainSwitchTick s fun s' =>
       s'.grn.active = some g ∧ s'.grn.epoch = s.ring.tick ∧ s'.grn.floor = g.serial ∧ s'.grn.st = .idle ∧ s'.grn.req = none ∧
         s'.plots[p].st = (if g.map? p.val = none then .undefined else if s.plots[p].park = true then .parked else .running) ∧
         (∀ (m : PlotMap) (b : BoughId), s.plotMap p.val = some m → m.boughs.getLsbD b.val = true → ∀ i, i < 0x80000 → s'.mem.read (scratchAddr b + i) = 0) ∧
         (∀ a, a < rootSize → a / 0x10000000 ∈ s.regionsToZero g → s'.mem.read a = 0) ∧
         (∀ q : QueueId, old.queueRec q.val = g.queueRec q.val → s'.queues[q] = s.queues[q]) ∧
         (∀ (b : BoughId) m, g.plotOf b.val = some m → m.plot ≠ p.val → (s'.bough b).twig = (s.bough b).twig) ∧
         (∀ (b : BoughId) m, g.plotOf b.val = some m → m.plot = p.val → (s'.bough b).twig = Twig.start (if s.plots[p].park = true then .held else .running)) ∧
         (∀ b, ∀ e ∈ (s'.bough b).ocache, (old.plotRegions p.val).getLsbD e.1 = false ∧ (g.plotRegions p.val).getLsbD e.1 = false)) ∧
   ∀ (s : State) g p, s.grn.staged = some g → s.grn.req.bind (fun r => r.plot) = some p → s.regrainReady g p = false → RunsTo .regrainSwitchTick s fun s' => s' = s)

/-! ### The ring ledger (chapter 16) -/

/-- RING_TICK adds 1 to the tick, meters the tick's energy and the busy boughs of every plot that is not parked; at each multiple of 1,000 ticks
ENERGY_APPORTION gives every plot its activity and its share of the rest, or scales the activities down; RING_CAL_SYNC sets the calendar offset
(R421, R422, R433, R487). A command that finds nothing to act on leaves the state as it is: the model's choice (log entry 1). -/
def Obligations.TimeAndEnergy : Prop :=
  (∀ (s : State) nj, s.ticking = true → (s.plotMaps.map fun m => m.plot).Nodup → (∀ m ∈ s.plotMaps, m.plot < 64) →
    RunsTo (.ringTick nj) s fun s' =>
      s'.ring.tick = s.ring.tick + 1 ∧ s'.pwr.uj = s.pwr.uj + BitVec.ofNat 64 ((s.pwr.ujRem + nj) / 1000) ∧ s'.pwr.ujRem = (s.pwr.ujRem + nj) % 1000 ∧
        s'.ring.msNJ = s.ring.msNJ + nj ∧ s'.ring.offset = s.ring.offset ∧
        (∀ p : PlotId, ∀ m, s.plotMap p.val = some m → s'.plots[p] = { s.plots[p] with cnt := { s.plots[p].cnt with
          boughUs := s.plots[p].cnt.boughUs + if s.plots[p].st = .parked then 0 else (m.boughList.filter fun b => s.boughBusy b).length } }) ∧
        (∀ p : PlotId, s.plotMap p.val = none → s'.plots[p] = s.plots[p]) ∧
        (s.crn.armed = true → s.crn.subMs = 999 → s.sys.mode ≠ .dormant → s'.crn.remain = s.crn.remain - (if s.crn.remain = 0 then 0 else 1)) ∧
        { s' with ring := s.ring, pwr := s.pwr, plots := s.plots, crn := s.crn } = s) ∧
  (∀ (s : State) nj, s.pwr.refclkOk = false → RunsTo (.ringTick nj) s fun s' => s' = s) ∧
  (∀ (s : State), s.ring.tick.toNat % 1000 = 0 → s.ticking = true → s.sys.mode = .run → (s.plotMaps.map fun m => m.plot).Nodup → (∀ m ∈ s.plotMaps, m.plot < 64) →
    RunsTo .energyApportion s fun s' =>
      let e := s.ring.msNJ
      let act (m : PlotMap) : Nat := s.plots[plotId m.plot].activity / 10 ^ 8
      let sum := (s.plotMaps.map act).sum
      (∀ p : PlotId, ∀ m, s.plotMap p.val = some m →
        let x := if e < sum then act m * e / sum else act m + (e - sum) * m.boughList.length / 256
        s'.plots[p].shareNJ = x ∧ s'.plots[p].activity = 0 ∧ s'.plots[p].cnt.energyNJ = s.plots[p].cnt.energyNJ + x ∧ s'.plots[p].st = s.plots[p].st) ∧
        (∀ p : PlotId, s.plotMap p.val = none → s'.plots[p] = s.plots[p]) ∧ s'.ring.msNJ = 0 ∧ s'.pwr.lastMw.toNat = min (e / 1000) 0xfffff ∧
        { s' with ring := s.ring, pwr := s.pwr, plots := s.plots, crownEvts := s.crownEvts } = s) ∧
  ∀ (s : State) v, LedgerTakes s →
    RunsTo (.ringCalSync v) s fun s' =>
      s'.ring.offset = v - s.ring.tick ∧ s'.ring.tick = s.ring.tick ∧ s'.ring.gapOpen = false ∧ s'.ring.uncertain = false ∧
        (s.ring.gapOpen = true → s'.ring.gap = v - s.ring.tick - s.ring.offset) ∧
        (∃ i, s'.ring.unsigned = s.ring.unsigned ++ [i] ∧ i.typ = 0xa2 ∧ i.covered.length = 6 ∧ i.covered[2]? = some s.ring.tick ∧
          i.covered[3]? = some s.ring.offset ∧ i.covered[4]? = some (v - s.ring.tick)) ∧
        { s' with ring := s.ring, hwd := s.hwd, plots := s.plots } = s

/-- MINUTE_BOUNDARY closes the record of every plot and opens a zeroed one at the same tick, or merges when at most 64 slots are free; HOURLY_SEAL
emits the seal with all 32 rings; THERMAL_CYCLE_SAMPLE counts the bin of the hottest junction (R419, R420, R424, R425, R428, R430). An item's way:
SIGNATURE_COMPLETE signs the oldest with the next SEQ, JOURNAL_SLOT_COMMIT commits the oldest signed item to a free slot, LEDGER_ITEM_POST posts the
oldest committed item when its queue has the credits; PWR_FAIL_ASSERT stops signing and writes the flush area, PWR_FAIL_DEASSERT goes on (R423,
R428, R437, R444). A command that finds nothing to act on leaves the state as it is: the model's choice (log entry 1). -/
def Obligations.LedgerEmission : Prop :=
  ((∀ (s : State), s.ring.tick.toNat % 60000000 = 0 → s.ticking = true → s.sys.mode = .run → (s.plotMaps.map fun m => m.plot).Nodup → (∀ m ∈ s.plotMaps, m.plot < 64) →
     s.plotMaps ≠ [] →
     (s.ring.journal.length + 64 < 7680 →
       RunsTo .minuteBoundary s fun s' =>
         (∀ p : PlotId, ∀ m, s.plotMap p.val = some m → s.plots[p].cnt.startTick ≠ s.ring.tick →
           s'.plots[p].cnt.startTick = s.ring.tick ∧ s'.plots[p].cnt.boughUs = 0 ∧ s'.plots[p].cnt.rootRd = 0 ∧ s'.plots[p].cnt.rootWr = 0 ∧ s'.plots[p].cnt.traps = 0 ∧
             s'.plots[p].cnt.energyNJ = s.plots[p].cnt.energyNJ % 1000 ∧
             ∃ i ∈ s'.ring.unsigned, i.typ = 0xa0 ∧ i.plot = some p ∧ i.covered.length = 22 ∧ i.covered[2]? = some s.plots[p].cnt.startTick ∧
               i.covered[3]? = some s.ring.tick ∧ i.covered[5]? = some (BitVec.ofNat 64 s.plots[p].cnt.boughUs) ∧
               i.covered[12]? = some (BitVec.ofNat 64 (s.plots[p].cnt.energyNJ / 1000))) ∧
           s'.ring.merging = false ∧ (∀ p : PlotId, s.plotMap p.val = none → s'.plots[p] = s.plots[p]) ∧
           { s' with ring := s.ring, hwd := s.hwd, plots := s.plots } = s) ∧
     (7680 ≤ s.ring.journal.length + 64 →
       RunsTo .minuteBoundary s fun s' => s'.ring.merging = true ∧ s'.ring.unsigned = s.ring.unsigned ∧ s'.plots = s.plots ∧ { s' with ring := s.ring } = s)) ∧
   (∀ (s : State), s.sys.mode = .dormant ∨ s.sys.mode = .boot ∨ s.sys.mode = .reset →
     RunsTo .minuteBoundary s fun s' => s'.plots = s.plots ∧ s'.ring.unsigned = s.ring.unsigned) ∧
   (∀ (s : State), s.ring.tick.toNat % 3600000000 = 0 → s.ring.sealStart ≠ s.ring.tick → s.ticking = true → LedgerTakes s →
     RunsTo .hourlySeal s fun s' =>
       (∃ i, s'.ring.unsigned = s.ring.unsigned ++ [i] ∧ i.typ = 0xa1 ∧ i.covered.length = 51 ∧ i.covered[2]? = some s.ring.sealStart ∧
         i.covered[3]? = some s.ring.tick ∧ i.covered[4]? = some s.ring.offset ∧ i.covered.drop 19 = s.ring.rings.toList) ∧
         s'.ring.sealStart = s.ring.tick ∧ { s' with ring := s.ring, hwd := s.hwd } = s) ∧
   ∀ (s : State), s.ring.tick.toNat % 1000000 = 0 → s.ticking = true →
     RunsTo .thermalCycleSample s fun s' =>
       let t := s.pwr.jmax.toNat
       (∀ k : Fin 32, k.val = 5 + (if t < 100 then t / 10 else if t ≤ 105 then 10 else 11) → s.ring.rings[k].toNat < 2 ^ 64 - 1 → s'.ring.rings[k] = s.ring.rings[k] + 1) ∧
         (∀ k : Fin 32, k.val < 4 ∨ 16 < k.val → s'.ring.rings[k] = s.ring.rings[k]) ∧
         (s.ring.rings[(4 : Fin 32)].toNat < 2 ^ 64 - 1 → 
           s'.ring.rings[(4 : Fin 32)] = s.ring.rings[(4 : Fin 32)] + (if s.ring.thermHigh ≠ 0 ∧ t + 30 ≤ max s.ring.thermHigh t then 1 else 0)) ∧
         { s' with ring := s.ring } = s) ∧
  ((∀ (s : State) i is, s.hwd.engine = some .ledger → s.sys.pwrFail = false → s.sys.mode = .run → s.ring.unsigned = i :: is →
     2 ≤ i.covered.length → (i.typ = 0xa0 → i.covered.length = 22) → (i.typ = 0xa1 → i.covered.length = 51) →
     RunsTo .signatureComplete s fun s' =>
       (∃ j, s'.ring.signed = s.ring.signed ++ [j] ∧ j.typ = i.typ ∧ j.plot = i.plot ∧ j.seq = s.ring.seq ∧ j.sig.length = 12 ∧
         j.covered.length = i.covered.length ∧ j.covered[1]? = some s.ring.seq) ∧
         s'.ring.unsigned = is ∧ s'.ring.seq = s.ring.seq + 1 ∧ (s.hwd.sigQueue = [] → s'.hwd.engine = none) ∧ { s' with ring := s.ring, hwd := s.hwd } = s) ∧
   (∀ (s : State) i is, s.ring.signed = i :: is → s.sys.mode = .run → s.sys.pwrFail = false →
     (s.ring.journal.length < 7680 →
       RunsTo .journalSlotCommit s fun s' =>
         s'.ring.signed = is ∧ s'.ring.journal = s.ring.journal ++ [{ item := i, posted := false }] ∧
           s'.ring.peak.toNat = max s.ring.peak.toNat (s.ring.journal.length + 1) ∧ s'.ring.seq = s.ring.seq ∧
           { s' with ring := s.ring, plots := s.plots, crownEvts := s.crownEvts } = s) ∧
     (7680 ≤ s.ring.journal.length → RunsTo .journalSlotCommit s fun s' => s' = s)) ∧
   (∀ (s : State) q x pre post, s.ledgerQueue = some q → s.ring.journal = pre ++ x :: post → (∀ y ∈ pre, y.posted = true) → x.posted = false → s.sys.mode = .run →
     s.sys.pwrFail = false → s.queues[q].prod = none →
     let ws := x.item.covered ++ x.item.sig
     (ws.length + 1 ≤ s.queues[q].credits →
       RunsTo .ledgerItemPost s fun s' =>
         s'.ring.journal = pre ++ { x with posted := true } :: post ∧
           (∃ p, p.typ = x.item.typ ∧ p.tag = 0 ∧ (p.words.map fun w => w.w) = ws ∧ s'.queues[q].pending = s.queues[q].pending ++ [p]) ∧
           s'.queues[q].credits = s.queues[q].credits - (ws.length + 1) ∧ OnlyQueue q s s' ∧
           { s' with ring := s.ring, queues := s.queues, plots := s.plots, outbox := s.outbox, crownEvts := s.crownEvts, grafts := s.grafts } = s) ∧
     (s.queues[q].credits < ws.length + 1 → RunsTo .ledgerItemPost s fun s' => s' = s)) ∧
   (∀ (s : State), s.sys.pwrFail = false → s.sys.aonGood = true → s.sys.mode = .run → s.sys.restoreDue = none → s.grn.staged = none → s.grn.req = none → s.grn.active ≠ none →
     RunsTo .pwrFailAssert s fun s' =>
       s'.sys = { s.sys with pwrFail := true } ∧ s'.hwd.engine = none ∧ s'.ring.unsigned = s.ring.unsigned ∧ s'.ring.journal = s.ring.journal ∧
         (∃ f, s'.ring.flush = some f ∧ f.tick = s.ring.tick ∧ f.offset = s.ring.offset ∧ (f.recs.map fun r => r.plot) = s.plotMaps.map (fun m => plotId m.plot) ∧
           ∀ r ∈ f.recs, r.cnt = s.plots[r.plot].cnt) ∧ s'.mem = s.mem ∧ s'.boughs = s.boughs ∧ s'.queues = s.queues ∧ s'.plots = s.plots) ∧
   ∀ (s : State), s.sys.pwrFail = true →
     RunsTo .pwrFailDeassert s fun s' =>
       s'.sys = { s.sys with pwrFail := false } ∧ (s.hwd.engine = none → ∀ r, s.hwd.sigQueue = [r] → s'.hwd.engine = some r ∧ s'.hwd.sigQueue = []) ∧
         { s' with sys := s.sys, hwd := s.hwd } = s)

/-! ### Heartwood (chapter 17) -/

/-- Negotiation and the answers that need no session: version, capabilities, algorithms, digests, certificate bytes, an unsupported request; an
answer that needs a signature waits for the engine, or is told to come back while the engine is busy (R445-R450). Sessions: KEY_EXCHANGE opens one
of at most 8, FINISH establishes it, HEARTBEAT and KEY_UPDATE keep it, END_SESSION and a missed heartbeat end it; link IDE keys are taken only in an
established session of the port's own DOE (R447, R448, R451, R452). -/
def Obligations.SpdmAndSessions : Prop :=
  (∀ (s : State) tr,
     let go (i : Instr) (Q : State → Prop) : Prop := Heard s tr i → RunsTo i s Q
     let t := s.hwd.transports[tr]
     (go (.getVersion tr) fun s' => Answers tr (.version 1 2) s s' ∧ s'.hwd.transports[tr].version = true ∧ s'.hwd.transports[tr].algs = false) ∧
     (t.version = true → go (.getCapabilities tr) fun s' => Answers tr (.capabilities 16 [.cert, .chal, .measSig, .measFresh, .keyEx, .encrypt, .mac, .hbeat, .keyUpd]) s s' ∧ s'.hwd.transports[tr].caps = true ∧ s'.hwd.transports[tr].algs = t.algs) ∧
     (∀ o, t.caps = true →
       (o.asym = true ∧ o.hash = true ∧ o.measSpec = true ∧ o.dhe = true ∧ o.aead = true ∧ o.keySchedule = true →
         go (.negotiateAlgorithms tr o) fun s' => Answers tr (.algorithms [.ecdsaP384, .baseSha384, .measSha384, .dmtf, .secp384r1, .aes256Gcm, .spdmSchedule]) s s' ∧ s'.hwd.transports[tr].algs = true) ∧
       (o.asym = false ∨ o.hash = false ∨ o.measSpec = false ∨ o.dhe = false ∨ o.aead = false ∨ o.keySchedule = false →
         go (.negotiateAlgorithms tr o) fun s' => Answers tr (.error errUnsupported 0) s s' ∧ s'.hwd.transports[tr].algs = t.algs)) ∧
     (∀ code, go (.spdmUnsupportedRequest tr code) fun s' => Answers tr (.error errUnsupported code) s s' ∧ s'.hwd.sessions = s.hwd.sessions) ∧
     (t.algs = true →
       (go (.getDigests tr) fun s' => Answers tr (.digests chainDigest) s s') ∧
       (∀ off len, off < Config.certChain.length →
         go (.getCertificate tr 0 off len) fun s' =>
           Answers tr (.certificate ((Config.certChain.drop off).take len) (Config.certChain.length - off - min len (Config.certChain.length - off))) s s') ∧
       (∀ slot off len, slot ≠ 0 → go (.getCertificate tr slot off len) fun s' => Answers tr (.error errInvalid 0) s s') ∧
       (∀ slot nonce, slot ≠ 0 → go (.challenge tr slot nonce) fun s' => Answers tr (.error errInvalid 0) s s') ∧
       (∀ nonce, s.hwd.engine = none → s.sys.pwrFail = false →
         go (.challenge tr 0 nonce) fun s' =>
           s'.hwd.engine = some (.spdm tr) ∧ s'.outbox = s.outbox ∧ (∃ n, s'.hwd.transports[tr].pending = some (.challengeAuth chainDigest n [])) ∧
             s'.hwd.transports[tr].direct = true ∧ { s' with hwd := s.hwd, fresh := s.fresh } = s) ∧
       (∀ nonce r, s.hwd.engine = some r → r ≠ .spdm tr → s.sys.pwrFail = false →
         go (.challenge tr 0 nonce) fun s' =>
           Answers tr (.notReady 13 8) s s' ∧ s'.hwd.engine = some r ∧ SigReq.spdm tr ∈ s'.hwd.sigQueue ∧ s'.hwd.transports[tr].pending.isSome = true) ∧
       (∀ nonce (index : BitVec 8), index.toNat = 0 ∨ (4 < index.toNat ∧ index ≠ 0xff) →
         go (.getMeasurements tr 0 index false nonce) fun s' => Answers tr (.error errInvalid 0) s s') ∧
       (∀ nonce, go (.getMeasurements tr 0 0xff false nonce) fun s' =>
         ∃ n, Answers tr (.measurements [(1, s.measurement 1), (2, s.measurement 2), (3, s.measurement 3), (4, s.measurement 4)] n []) s s')) ∧
     (∀ r, t.pending = some r → t.ready = true →
       go (.respondIfReady tr) fun s' => Answers tr r s s' ∧ s'.hwd.transports[tr].pending = none) ∧
     (s.grn.active = none → s.measurement 3 = List.replicate 6 0)) ∧
  (∀ (s : State) tr,
     let go (i : Instr) (Q : State → Prop) : Prop := Heard s tr i → RunsTo i s Q
     let open? (sid : Nat) (e : Bool) : Prop := ∃ x ∈ s.hwd.sessions, x.sid = sid ∧ x.tr = tr ∧ x.established = e
     (∀ hb, s.hwd.transports[tr].algs = true → 8 ≤ s.hwd.sessions.length →
       go (.keyExchange tr 0 hb) fun s' => Answers tr (.error errLimit 0) s s' ∧ s'.hwd.sessions = s.hwd.sessions) ∧
     (∀ hb, s.hwd.transports[tr].algs = true → s.hwd.sessions.length < 8 → s.hwd.engine = none → s.sys.pwrFail = false →
       go (.keyExchange tr 0 hb) fun s' =>
         (∃ x, s'.hwd.sessions = s.hwd.sessions ++ [x] ∧ x.tr = tr ∧ x.heartbeat = hb ∧ x.established = false) ∧ s'.hwd.engine = some (.spdm tr) ∧
           s'.outbox = s.outbox ∧ { s' with hwd := s.hwd, fresh := s.fresh } = s) ∧
     (∀ sid, open? sid false → go (.finish tr sid) fun s' =>
       Answers tr .finishRsp s s' ∧ s'.hwd.sessions = s.hwd.sessions.map fun x => if x.sid = sid then { x with established := true } else x) ∧
     (∀ sid, open? sid true →
       (go (.heartbeat tr sid) fun s' => Answers tr .heartbeatAck s s' ∧ s'.hwd.sessions = s.hwd.sessions) ∧
       (go (.keyUpdate tr sid) fun s' =>
         Answers tr .keyUpdateAck s s' ∧ s'.hwd.sessions = s.hwd.sessions.map fun x => if x.sid = sid then { x with keyGen := x.keyGen + 1 } else x) ∧
       (go (.endSession tr sid) fun s' => Answers tr .endSessionAck s s' ∧ s'.hwd.sessions = s.hwd.sessions.filter fun x => x.sid ≠ sid)) ∧
     (∀ sid, ¬ open? sid true → go (.heartbeat tr sid) fun s' => Answers tr (.error errSession 0) s s' ∧ s'.hwd.sessions = s.hwd.sessions) ∧
     (∀ sid x, x ∈ s.hwd.sessions → x.sid = sid → x.heartbeat ≠ 0 →
       RunsTo (.sessionHeartbeatTimeout sid) s fun s' => s'.hwd = { s.hwd with sessions := s.hwd.sessions.filter fun x => x.sid ≠ sid } ∧ { s' with hwd := s.hwd } = s) ∧
     (∀ sid (n : PortId) k j key,
       let x := s.hwd.ide[n]
       let only (s' : State) : Prop := s'.outbox = s.outbox ++ [.spdm tr (.keyMgmt 0)] ∧ (∀ m, m ≠ n → s'.hwd.ide[m] = s.hwd.ide[m]) ∧ s'.hwd.sessions = s.hwd.sessions ∧
         { s' with hwd := s.hwd, outbox := s.outbox } = s
       (tr.val = n.val ∧ open? sid true →
         (go (.keyProg tr sid n k j key) fun s' => only s' ∧ (k, j, key) ∈ s'.hwd.ide[n].keys ∧
           (∀ y ∈ s'.hwd.ide[n].keys, y = (k, j, key) ∨ (y ∈ x.keys ∧ ¬ (y.1 = k ∧ y.2.1 = j))) ∧ s'.hwd.ide[n].going = x.going) ∧
         ((∃ key', (k, j, key') ∈ x.keys) → go (.kSetGo tr sid n k j) fun s' => only s' ∧ (k, j) ∈ s'.hwd.ide[n].going ∧ s'.hwd.ide[n].keys = x.keys) ∧
         (go (.kSetStop tr sid n k j) fun s' => only s' ∧ (k, j) ∉ s'.hwd.ide[n].going ∧ s'.hwd.ide[n].keys = x.keys) ∧
         go (.query tr sid n) fun s' => only s' ∧ s'.hwd.ide[n].keys = x.keys ∧ s'.hwd.ide[n].going = x.going) ∧
       (¬ (tr.val = n.val ∧ open? sid true) → go (.keyProg tr sid n k j key) fun s' => Answers tr (.keyMgmt 1) s s')))

/-! ### Host links (chapter 18) -/

/-- Loss of a host port by link failure or PERST: the port goes down and absorbs, its IDE keys and sessions go, its open produced packets are voided
with their credits back, its plots get HOST_LOST, and memory, boughs and closed packets stay; the port trains again once PERSTn_N is released (R452,
R464, R468). A command that finds nothing to act on leaves the state as it is: the model's choice (log entry 1). -/
def Obligations.HostPortLoss : Prop :=
  (∀ (s : State) n, s.ports[n].linkUp = true →
    let lost (s' : State) : Prop :=
      s'.ports[n].linkUp = false ∧ s'.ports[n].held = [] ∧ s'.cnp.hostAbsorb.getLsbD n.val = true ∧ s'.ports[n].event.getLsbD 0 = true ∧
        s'.hwd.ide[n] = { keys := [], going := [], secure := false } ∧ s'.hwd.sessions = s.hwd.sessions.filter (fun x => x.tr.val ≠ n.val) ∧
        s'.ports[n].downs = (if s.ports[n].downs.toNat < 65535 then s.ports[n].downs + 1 else s.ports[n].downs) ∧ s'.ports[n].pf = Func.start ∧
        (∀ v ∈ s.portVfs n, s'.vfs[v] = Func.start) ∧ (∀ v, v ∉ s.portVfs n → s'.vfs[v] = s.vfs[v]) ∧ OnlyPort n s s' ∧
        (∀ v ∈ s.portVfs n, ∀ m, s.vfPlot v.val = some m → m.plot < 64 → s'.plots[plotId m.plot].events.getLsbD 2 = true) ∧
        (∀ q : QueueId, s.queues[q].pending <+: s'.queues[q].pending) ∧
        ((∀ v ∈ s.portVfs n, s.vfPlot v.val = none) → ∀ q : QueueId, ∀ fn ∈ s.portFns n, s.hostProd fn q = true → ∀ o, s.queues[q].prod = some o →
          s'.queues[q] = { s.queues[q] with prod := none, prodVoid := true, credits := s.queues[q].credits + o.cap + 1 }) ∧
        s'.mem = s.mem ∧ s'.boughs = s.boughs
    (RunsTo (.hostLinkDown n) s fun s' => lost s' ∧ s'.ports[n].event.getLsbD 1 = true ∧ s'.pwr = s.pwr) ∧
    (s.portPresent n = true → RunsTo (.perstAssert n false) s fun s' =>
      lost s' ∧ s'.ports[n].perst = true ∧ s'.ports[n].winEn = true ∧ s'.ports[n].winBase = 0 ∧ s'.ports[n].sizeLog2 = 30 ∧ s'.ports[n].rx = 0 ∧
        s'.ports[n].retrains = s.ports[n].retrains ∧ s'.ports[n].event.getLsbD 1 = s.ports[n].event.getLsbD 1 ∧ s'.pwr.req = 3) ∧
    (s.portPresent n = true → RunsTo (.perstAssert n true) s fun s' => lost s' ∧ s'.ports[n].perst = s.ports[n].perst)) ∧
  (∀ (s : State) n, s.ports[n].linkUp = false → RunsTo (.hostLinkDown n) s fun s' => s' = s) ∧
  (∀ (s : State) n, RunsTo (.perstDeassert n) s fun s' => s'.ports[n] = { s.ports[n] with perst := false } ∧ OnlyPort n s s' ∧ { s' with ports := s.ports } = s) ∧
  ∀ (s : State) n sp w fl,
    (s.canTrain n sp w = true → s.ports[n].linkUp = false → RunsTo (.hostLinkTrained n sp w fl) s fun s' =>
      s'.ports[n] = { s.ports[n] with linkUp := true, speed := sp, width := w, flit := fl, l1 := false } ∧ OnlyPort n s s' ∧ { s' with ports := s.ports } = s) ∧
    (s.canTrain n sp w = true → s.ports[n].linkUp = true → RunsTo (.hostLinkRetrain n sp w fl) s fun s' =>
      s'.ports[n] = { s.ports[n] with speed := sp, width := w, flit := fl, l1 := false, retrains := s'.ports[n].retrains } ∧
        s'.ports[n].retrains = (if s.ports[n].retrains.toNat < 65535 then s.ports[n].retrains + 1 else s.ports[n].retrains) ∧ OnlyPort n s s' ∧ { s' with ports := s.ports } = s) ∧
    (s.ports[n].perst = true → RunsTo (.hostLinkTrained n sp w fl) s fun s' => s' = s)

/-- A function level reset of a VF resets its plot, or its configuration state alone without a plot; one of a PF absorbs its share and flushes its
queues; a configuration request gets Request Retry Status until the functions are brought up, and then takes effect (R464, R467). -/
def Obligations.FunctionsAndConfig : Prop :=
  (∀ (s : State) v, let n := vfPort s.grn.split v
    s.portPresent n = true → s.ports[n].linkUp = true →
    (s.vfPlot v.val = none → RunsTo (.vfFlr v) s fun s' => s'.vfs[v] = Func.start ∧ (∀ u, u ≠ v → s'.vfs[u] = s.vfs[u]) ∧ { s' with vfs := s.vfs } = s) ∧
    (∀ m, s.vfPlot v.val = some m → m.plot < 64 → s.plotMap m.plot = some m → let p := plotId m.plot
      s.plots[p].resetBusy = false → s.plots[p].st ≠ .regraining →
      RunsTo (.vfFlr v) s fun s' =>
        s'.vfs[v].flrBusy = true ∧ s'.vfs[v].enabled = false ∧ s'.vfs[v].msixTab = [] ∧ s'.plots[p].resetBusy = true ∧ s'.plots[p].st = .resetting ∧
          (∀ b : BoughId, m.boughs.getLsbD b.val = true → (s'.bough b).resetting = true) ∧ s'.mem = s.mem)) ∧
  (∀ (s : State) n, s.portPresent n = true → s.ports[n].linkUp = true → (∀ t ∈ s.txns, t.fn = some (.pf n) → t.who = .host n) →
    RunsTo (.pfFlr n) s fun s' =>
      s'.cnp.pfAbsorb.getLsbD n.val = true ∧ s'.ports[n].pf = Func.start ∧ (∀ q ∈ s.fnQueues (.pf n), s'.queues[q].flushing = true) ∧
        (∀ q, q ∉ s.fnQueues (.pf n) → s'.queues[q] = s.queues[q]) ∧ s'.vfs = s.vfs ∧ s'.boughs = s.boughs ∧ s'.mem = s.mem ∧ OnlyPort n s s') ∧
  ∀ (s : State) n, s.ports[n].linkUp = true →
    let go (fn : HostFn) (op : CfgOp) (Q : State → Prop) : Prop := s.portWaits n (.configRequest n fn op) = false → RunsTo (.configRequest n fn op) s Q
    (∀ fn op, s.ports[n].broughtUp = false →
      go fn op fun s' => s'.outbox = s.outbox ++ [.cfgCompletion n true] ∧ { s' with outbox := s.outbox } = s) ∧
    (s.ports[n].broughtUp = true → s.portPresent n = true →
      (∀ on, go (.pf n) (.aspmL1 on) fun s' =>
        s'.ports[n] = { s.ports[n] with aspm := on } ∧ s'.outbox = s.outbox ++ [.cfgCompletion n false] ∧ OnlyPort n s s' ∧ { s' with ports := s.ports, outbox := s.outbox } = s) ∧
      (∀ k, 30 ≤ k → k ≤ 37 → go (.pf n) (.resizeBar2 k) fun s' =>
        s'.ports[n] = { s.ports[n] with sizeLog2 := BitVec.ofNat 6 k } ∧ OnlyPort n s s' ∧ { s' with ports := s.ports, outbox := s.outbox } = s) ∧
      (∀ on, (∀ e, s.entryPending (.pf n) e = false) → go (.pf n) (.msixEnable on) fun s' =>
        s'.ports[n].pf = { s.ports[n].pf with msixEn := on } ∧ s'.outbox = s.outbox ++ [.cfgCompletion n false] ∧ OnlyPort n s s' ∧
          { s' with ports := s.ports, outbox := s.outbox } = s) ∧
      ∀ on, go (.pf n) (.vfEnable on) fun s' =>
        (∀ v ∈ s.portVfs n, s'.vfs[v] = { s.vfs[v] with enabled := on }) ∧ (∀ v, v ∉ s.portVfs n → s'.vfs[v] = s.vfs[v]) ∧ { s' with vfs := s.vfs, outbox := s.outbox } = s)

/-! ### Clocks and power (chapter 19) -/

/-- A level change: a faster level waits for the voltage, a slower one switches first; the dividers switch at the second frame edge; a timeout goes
back to the old level; a request during a change is kept (R489, R491-R495). A command that finds nothing to act on leaves the state as it is: the
model's choice (log entry 1). -/
def Obligations.LevelChanges : Prop :=
  ∀ (s : State), let p := s.pwr
    let only (s' : State) : Prop := { s' with pwr := s.pwr, outbox := s.outbox } = s
    let mv (l : Fin 4) : Nat := if l = 0 then 800 else if l = 1 then 720 else if l = 2 then 660 else 600
    (∀ l, s.lvlWaits = false → p.lvl = .idle → p.hwLive = false → p.droopHold = false →
      let t : Fin 4 := s.wanted l
      t.val = min (max l.val s.maxLevel) 3 ∧
      (t < p.level → RunsTo (.pwrPlReq l) s fun s' =>
        s'.pwr = { p with req := l, lvl := .settling p.level t, targetMv := mv t } ∧ s'.outbox = s.outbox ++ [.avs (mv t)] ∧ only s') ∧
      (p.level < t → RunsTo (.pwrPlReq l) s fun s' => s'.pwr = { p with req := l, lvl := .edge1 p.level t } ∧ s'.outbox = s.outbox ∧ only s') ∧
      (t = p.level → RunsTo (.pwrPlReq l) s fun s' => s'.pwr = { p with req := l } ∧ s'.outbox = s.outbox ∧ only s')) ∧
    (∀ l, p.lvl ≠ .idle → RunsTo (.pwrPlReq l) s fun s' => s'.pwr = { p with req := l, droopHold := false, keptReq := some l } ∧ only s') ∧
    (∀ x o n, p.lvl = .settling o n → x ≤ p.targetMv + 15 → p.targetMv ≤ x + 15 →
      RunsTo (.voltageSettled x) s fun s' => s'.pwr = { p with voltMv := BitVec.ofNat 12 x, lvl := .edge1 o n } ∧ s'.outbox = s.outbox ∧ only s') ∧
    (∀ o n, p.lvl = .settling o n → p.keptReq = none →
      RunsTo .voltageTimeout s fun s' =>
        s'.pwr = { p with lvl := .idle, targetMv := mv o, event := p.event ||| 8 } ∧ s'.outbox = s.outbox ++ [.avs (mv o)] ∧ { s' with pwr := p, outbox := s.outbox, crownEvts := s.crownEvts } = s) ∧
    (∀ o n, p.lvl = .edge1 o n → RunsTo .frameEdgeSwitch s fun s' => s'.pwr = { p with lvl := .edge2 o n, frozen := true } ∧ s'.outbox = s.outbox ∧ only s') ∧
    (∀ o n, p.lvl = .edge2 o n → p.keptReq = none → mv n ≤ p.voltMv.toNat + 15 ∨ o < n →
      RunsTo .frameEdgeSwitch s fun s' =>
        s'.pwr.level = n ∧ s'.pwr.lvl = .idle ∧ s'.pwr.frozen = false ∧ s'.pwr.switches = p.switches + 1 ∧ s'.outbox = (if o < n then s.outbox ++ [.avs (mv n)] else s.outbox) ∧
          (∀ q : PlotId, { s'.plots[q] with cnt := s.plots[q].cnt } = s.plots[q]) ∧ { s' with pwr := p, outbox := s.outbox, plots := s.plots } = s) ∧
    (∀ o n, p.lvl = .edge2 o n → p.voltMv.toNat + 15 < mv n → n ≤ o → RunsTo .frameEdgeSwitch s fun s' => s' = s)

/-- Droop and the hardware throttle force PL3 at the next frame edge; a sensor sample and the crown's evaluation move the level one step; the alarm
latches at its tick; a thermal trip stops the core in RESET (R496, R498-R501, R506). A command that finds nothing to act on leaves the state as it
is: the model's choice (log entry 1). -/
def Obligations.ThrottleAndSensors : Prop :=
  ∀ (s : State), let p := s.pwr
    (p.level ≠ 3 →
      (RunsTo .droop s fun s' =>
        s'.pwr = { p with droopHold := true, event := p.event ||| 4, keptReq := none, frozen := true, lvl := .edge2 p.level 3 } ∧ { s' with pwr := p, crownEvts := s.crownEvts } = s) ∧
      (p.hwLive = false → RunsTo .hwThrottle s fun s' =>
        s'.pwr = { p with hwLive := true, event := p.event ||| 16, keptReq := none, frozen := true, lvl := .edge2 p.level 3 } ∧ { s' with pwr := p, crownEvts := s.crownEvts } = s)) ∧
    (RunsTo .hwThrottleRelease s fun s' => s'.pwr = { p with hwLive := false } ∧ { s' with pwr := p } = s) ∧
    (s.sys.trip = false → RunsTo .thermalTrip s fun s' =>
      s'.sys.trip = true ∧ s'.sys.mode = .reset ∧ s'.pwr.locked = false ∧ s'.outbox.getLast? = some (.avs 0) ∧ s'.grn.active = none) ∧
    (∀ temps : List Nat, temps.length = 20 → (∀ x ∈ temps, x < 256) →
      RunsTo (.sensorSample temps) s fun s' =>
        (∀ x ∈ temps, x ≤ s'.pwr.jmax.toNat) ∧ ((∀ x ∈ temps, x = 0) ∨ temps[s'.pwr.sensor.toNat]? = some s'.pwr.jmax.toNat) ∧
          s'.pwr.jpeak.toNat = max p.jpeak.toNat s'.pwr.jmax.toNat ∧ s'.pwr.thermLive = decide (p.hotC.toNat ≤ s'.pwr.jmax.toNat) ∧
          s'.pwr.event = (if p.hotC.toNat ≤ s'.pwr.jmax.toNat ∧ p.thermLive = false then p.event ||| 1 else p.event) ∧ { s' with pwr := p, crownEvts := s.crownEvts } = s) ∧
    (s.ring.tick.toNat % 1000 = 0 → s.sys.mode = .run →
      let hot := ∃ k : StackId, s.hbm[k].hot = true
      (s.deviceMw < p.lastMw.toNat ∨ p.hotC.toNat ≤ p.jms ∨ hot →
        RunsTo .levelEvaluation s fun s' => s'.pwr.req.val = min (p.level.val + 1) 3 ∧ { s' with pwr := p, outbox := s.outbox } = s) ∧
      (¬ (s.deviceMw < p.lastMw.toNat ∨ p.hotC.toNat ≤ p.jms ∨ hot) → p.hotC.toNat < p.jms + 10 ∨ p.level.val ≤ s.maxLevel ∨ p.sinceSlow < 100 →
        RunsTo .levelEvaluation s fun s' => s'.pwr.req = p.req ∧ s'.pwr.lvl = p.lvl ∧ { s' with pwr := p } = s)) ∧
    (∀ v, RunsTo (.pwrAlarm v) s fun s' =>
      s'.pwr.alarm = v ∧ s'.pwr.alarmPend = (decide (v ≠ 0) && decide (v.toNat ≤ s.ring.tick.toNat)) ∧ { s' with pwr := { s'.pwr with alarm := p.alarm, alarmPend := p.alarmPend } } = s) ∧
    (p.alarm ≠ 0 → p.alarm.toNat ≤ s.ring.tick.toNat → RunsTo .alarmReached s fun s' => s'.pwr = { p with alarmPend := true } ∧ { s' with pwr := p } = s) ∧
    (s.ring.tick.toNat < p.alarm.toNat → RunsTo .alarmReached s fun s' => s' = s)

/-! ### Modes, resets and boot (chapter 20) -/

/-- Power-on and the loss of power: the device is in RESET with its Reset values and no memory contents, and the rings, the Grain slots, the owner
and the serial floor stay in MRAM and flash (R520, R522). -/
def Obligations.PowerOnReset : Prop :=
  ∀ (s : State),
    let cleared (s' : State) : Prop :=
      s'.sys.mode = .reset ∧ s'.boughs = State.reset.boughs ∧ s'.queues = State.reset.queues ∧ s'.links = [] ∧ s'.grn.active = none ∧ s'.ports = State.reset.ports ∧
        s'.vfs = State.reset.vfs ∧ s'.hbm = State.reset.hbm ∧ s'.pwr = State.reset.pwr ∧ s'.crn = State.reset.crn ∧ s'.hwd = State.reset.hwd ∧ s'.mem.cells = [] ∧ s'.mem.zeroed = [] ∧
        s'.grn.slots = s.grn.slots ∧ s'.grn.owner = s.grn.owner ∧ s'.grn.floor = s.grn.floor ∧ s'.ring.repairLog = s.ring.repairLog ∧ s'.sys.fw = s.sys.fw ∧
        s'.pending = s.pending
    (RunsTo .powerOn s fun s' =>
      cleared s' ∧ s'.sys.aonGood = true ∧ s'.sys.kind = 0 ∧
        ∀ i : Fin 32, s'.ring.rings[i] = if i = 3 ∧ s.ring.rings[i] ≠ BitVec.allOnes 64 then s.ring.rings[i] + 1 else s.ring.rings[i]) ∧
      ∀ rail, RunsTo (.railOutOfTolerance rail) s fun s' => cleared s' ∧ s'.sys.aonGood = false ∧ s'.ring.rings = s.ring.rings

/-- A device reset: in RESET with the cores, boughs, queues and host functions cleared, no image active and PL3, while the tick, the owner and the
slots stay and the contents of root memory too, but for a REFCLK loss, which loses them; a reset that RESET_N or the device starts ends as it says,
and then BOOT begins (R515, R520-R523, R528, R529). A command that finds nothing to act on leaves the state as it is: the model's choice (log entry
1). -/
def Obligations.DeviceResets : Prop :=
  ∀ (s : State),
    let core (s' : State) : Prop :=
      s'.sys.mode = .reset ∧ s'.boughs = State.reset.boughs ∧ s'.queues = State.reset.queues ∧ s'.links = [] ∧ s'.grn.active = none ∧ s'.vfs = State.reset.vfs ∧
        s'.crn = State.reset.crn ∧ s'.pwr.level = 3 ∧ s'.pwr.locked = false ∧ s'.ring.tick = s.ring.tick ∧ s'.ring.offset = s.ring.offset ∧ s'.pwr.alarm = s.pwr.alarm ∧
        s'.grn.slots = s.grn.slots ∧ s'.grn.owner = s.grn.owner ∧ s'.grn.floor = s.grn.floor ∧ s'.pending = s.pending ∧
        s'.sys.count = (if s.sys.count.toNat < 65535 then s.sys.count + 1 else s.sys.count)
    let rootKept (s' : State) : Prop :=
      s.linearInForce = false → s.heldWrites = [] → (∀ k : SliceId, s.slices[k].inbox = [] ∧ s.slices[k].staging = []) → ∀ a, a < rootSize → s'.mem.read a = s.mem.read a
    let flushed (s' : State) : Prop := s.sys.restoreDue = none → s'.ring.flush.map (fun f => f.tick) = some s.ring.tick
    let ready : Prop := s.sys.mode = .reset ∧ s.pwr.refclkOk = true ∧ s.sys.aonGood = true ∧ s.sys.trip = false
    let boots (s' : State) : Prop := s'.sys.mode = .boot ∧ s'.sys.bootStep = 0 ∧ s'.pwr.level = 3 ∧ s'.mem = s.mem ∧ s'.boughs = s.boughs
    (s.sys.mode ≠ .reset → RunsTo .resetNAssert s fun s' => core s' ∧ rootKept s' ∧ flushed s' ∧ s'.sys.kind = 1 ∧ s'.sys.resetN = true) ∧
    (s.sys.mode = .reset → RunsTo .resetNAssert s fun s' => s' = { s with sys := { s.sys with resetN := true } }) ∧
    (ready → s.sys.internalReset = false → s.linearInForce = false → RunsTo .resetNDeassert s fun s' => boots s' ∧ s'.sys.resetN = false) ∧
    (s.sys.mode ≠ .reset → RunsTo .resetNDeassert s fun s' => s' = { s with sys := { s.sys with resetN := false } }) ∧
    (ready → s.sys.internalReset = true → s.sys.resetN = false → s.linearInForce = false → RunsTo .coreResetComplete s fun s' => boots s' ∧ s'.sys.internalReset = false) ∧
    (ready → s.sys.internalReset = true → s.sys.resetN = true → RunsTo .coreResetComplete s fun s' => s' = { s with sys := { s.sys with internalReset := false } }) ∧
    (s.pwr.refclkOk = true → s.sys.mode ≠ .dormant →
      RunsTo .refclkLoss s fun s' => core s' ∧ flushed s' ∧ s'.sys.kind = 4 ∧ s'.pwr.refclkOk = false ∧ s'.mem.cells = [] ∧ s'.mem.zeroed = [] ∧ s'.pwr.event.getLsbD 6 = true) ∧
    (s.sys.aonGood = true → s.sys.mode = .reset → s.sys.trip = false → s.sys.resetN = false → s.sys.internalReset = false → s.linearInForce = false →
      RunsTo .refclkRestore s fun s' => boots s' ∧ s'.pwr.refclkOk = true) ∧
    (s.sys.mode ≠ .reset →
      (s.crn.armed = true ∧ s.crn.remain = 0) ∨ (∃ k : CoreId, s.crn.cores[k].run = .halted ∧ s.crn.haltBits.getLsbD k.val = false) ∨ (∀ k : CoreId, s.crn.cores[k].run = .halted) →
        RunsTo .watchdogExpiry s fun s' =>
          core s' ∧ rootKept s' ∧ flushed s' ∧ s'.sys.kind = 2 ∧ s'.sys.internalReset = true ∧
            s'.ring.rings[(23 : Fin 32)] = (if s.ring.rings[(23 : Fin 32)] = BitVec.allOnes 64 then BitVec.allOnes 64 else s.ring.rings[(23 : Fin 32)] + 1)) ∧
    (s.crn.armed = false ∨ s.crn.remain ≠ 0 → (∀ k : CoreId, s.crn.cores[k].run ≠ .halted) → RunsTo .watchdogExpiry s fun s' => s' = s) ∧
    (s.sys.mode ≠ .reset → s.sys.mode ≠ .dormant →
      RunsTo .kick s fun s' => s' = { s with crn := { s.crn with remain := if s.crn.period.toNat < 10 then 10 else s.crn.period, subMs := 0 } })

/-- BOOT runs its steps in their order, each within its time: core up at PL3, the boot ROM with crown firmware in crown RAM, the self-test with
zeroed scratchpads, the ledger, the host ports; a step that fails or takes too long leads to QUARANTINE with its cause, which no command but a reset
leaves (R515, R517, R518, R525). -/
def Obligations.BootSteps : Prop :=
  ∀ (s : State), s.sys.mode = .boot →
    let quarantined (c : Nat) (s' : State) : Prop :=
      s'.sys.mode = .quarantine ∧ s'.sys.qcause = BitVec.ofNat 8 c ∧ s'.grn.active = none ∧ s'.sys.bootStep = s.sys.bootStep ∧ s'.grn.slots = s.grn.slots ∧ s'.grn.owner = s.grn.owner
    let most : Nat := match s.sys.bootStep with | 0 => 1100 | 1 => 45000 | 2 => 12000 | 3 => 20000 | _ => 1000
    let good (k : Fin 2) : Bool := Config.fwVerifies s.sys.fw[k].words && decide (s.sys.fwFloor.toNat ≤ s.sys.fw[k].serial.toNat)
    let other : Fin 2 := 1 - s.sys.fwPref
    let started (k : Fin 2) (s' : State) : Prop :=
      s'.sys.mode = .boot ∧ s'.sys.bootStep = 2 ∧ s'.sys.fwCopy = decide (k = 1) ∧ s'.sys.fwPref = k ∧ s'.sys.fwFallback = decide (k ≠ s.sys.fwPref) ∧ s'.hwd.keyOk = true ∧
        s'.hwd.chainOk = true ∧ s'.crn.armed = true ∧ ∀ c : CoreId, s'.crn.cores[c].run = .running ∧ s'.crn.cores[c].pc = 0
    (RunsTo .bootStepTimeout s (quarantined 8)) ∧
    ∀ us,
      (∀ c, most < us → RunsTo (.bootStepPass c us) s (quarantined 8)) ∧
      (us ≤ most →
        (s.sys.bootStep = 0 → RunsTo (.bootStepPass 0 us) s fun s' =>
          s'.sys.mode = .boot ∧ s'.sys.bootStep = 1 ∧ s'.pwr.locked = true ∧ s'.pwr.targetMv = 600 ∧ s'.pwr.level = s.pwr.level ∧ s'.mem = s.mem) ∧
        (s.sys.bootStep = 1 →
          (good s.sys.fwPref = true → RunsTo (.bootStepPass 0 us) s (started s.sys.fwPref)) ∧
          (good s.sys.fwPref = false → good other = true → RunsTo (.bootStepPass 0 us) s (started other)) ∧
          (good s.sys.fwPref = false → good other = false → RunsTo (.bootStepPass 0 us) s (quarantined 1)) ∧
          ∀ c : BitVec 8, c = 1 ∨ c = 2 ∨ c = 6 → RunsTo (.bootStepPass c us) s (quarantined c.toNat)) ∧
        (s.sys.bootStep = 2 →
          (RunsTo (.bootStepPass 0 us) s fun s' =>
            s'.sys.mode = .boot ∧ s'.sys.bootStep = 3 ∧ (∀ (b : BoughId) i, i < 0x80000 → s'.mem.read (scratchAddr b + i) = 0) ∧
              (∀ a, a < rootSize → s'.mem.read a = s.mem.read a) ∧ ∀ k : StackId, s'.hbm[k].state = 2) ∧
          ∀ c : BitVec 8, c = 3 ∨ c = 4 → RunsTo (.bootStepPass c us) s (quarantined c.toNat)) ∧
        (s.sys.bootStep = 3 →
          (RunsTo (.bootStepPass 0 us) s fun s' => s'.sys.mode = .boot ∧ s'.sys.bootStep = 4 ∧ s'.sys.restoreDue = none ∧ SameBytes s.mem s'.mem ∧ s'.mem.marks = s.mem.marks) ∧
            RunsTo (.bootStepPass 5 us) s (quarantined 5)) ∧
        (s.sys.bootStep = 4 → RunsTo (.bootStepPass 0 us) s fun s' =>
          s'.sys.bootStep = 5 ∧ s'.grn.split = s.grn.splitNext ∧
            (s.grn.owner = none ∨ s.sys.toService = true ∨ (slotWord s.grn.slots[(0 : Fin 2)] 0 = BitVec.allOnes 64 ∧ slotWord s.grn.slots[(1 : Fin 2)] 0 = BitVec.allOnes 64) →
              s'.sys.mode = .service ∧ s'.grn.active = s.grn.active)))

/-- The drains of an activation, of ENTER_SERVICE and of a mailbox RESET end in LOAD, SERVICE and RESET, once every half is FREE and every port is
clean; a core that HALT stopped restarts at word 0 with cleared registers once its port share is clean (R515, R521, R527). A command that finds
nothing to act on leaves the state as it is: the model's choice (log entry 1). -/
def Obligations.DrainsAndRestart : Prop :=
  ∀ (s : State),
    (s.sys.mode = .drain → s.linearInForce = false →
      (s.drained = false → RunsTo .modeDrainComplete s fun s' => s' = s) ∧
      (s.drained = true →
        (s.sys.drainFor = some .activation → RunsTo .modeDrainComplete s fun s' =>
          s'.sys.mode = .load ∧ s'.sys.drainFor = none ∧ s'.boughs = s.boughs ∧ s'.mem = s.mem ∧ s'.grn = s.grn ∧ s'.queues = s.queues) ∧
        (s.sys.drainFor = some .service → RunsTo .modeDrainComplete s fun s' =>
          s'.sys.mode = .service ∧ s'.sys.drainFor = none ∧ s'.grn.active = none ∧ s'.links = [] ∧ s'.mem = s.mem ∧ (∀ p : PlotId, s'.plots[p].st = .undefined) ∧
            ∀ c : Fin 5, s.crn.chans[c].busy = true → s.crn.chans[c].op = 3 → s'.crn.chans[c].go = false ∧ s'.crn.chans[c].code = 0) ∧
        (∀ ch, s.sys.drainFor = some (.reset ch) → RunsTo .modeDrainComplete s fun s' =>
          s'.sys.mode = .reset ∧ s'.sys.kind = 3 ∧ s'.sys.channel.toNat = ch.val ∧ s'.sys.internalReset = true ∧ s'.grn.active = none ∧ s'.ring.tick = s.ring.tick))) ∧
    (s.sys.mode ≠ .drain → RunsTo .modeDrainComplete s fun s' => s' = s) ∧
    ∀ k : CoreId, s.sys.mode ≠ .reset → s.sys.mode ≠ .dormant →
      (s.crn.haltBits.getLsbD k.val = false → RunsTo (.restart k) s fun s' => s' = s) ∧
      (s.crn.haltBits.getLsbD k.val = true →
        (s.masterClean (.crown k) = true → RunsTo (.restart k) s fun s' =>
          s'.crn.haltBits.getLsbD k.val = false ∧ s'.cnp.crownAbsorb.getLsbD k.val = false ∧
            (let w := s'.crn.cores[k]
             w.run = .running ∧ w.pc = 0 ∧ w.tsbp = 0 ∧ w.vl = 0 ∧ w.rc = 0 ∧ w.pred = 1 ∧ (∀ r : GReg, w.reg r = 0) ∧ w.lc0 = 0 ∧ w.ls0 = 0 ∧ w.le0 = 0 ∧ w.lc1 = 0 ∧ w.ls1 = 0 ∧ w.le1 = 0) ∧
            (∀ j, j ≠ k → s'.crn.cores[j] = s.crn.cores[j]) ∧ { s' with crn := s.crn, cnp := s.cnp } = s) ∧
        (s.masterClean (.crown k) = false → RunsTo (.restart k) s fun s' =>
          s'.crn.restartBits.getLsbD k.val = true ∧ s'.cnp.crownAbsorb.getLsbD k.val = true ∧ s'.crn.cores = s.crn.cores ∧ { s' with crn := s.crn, cnp := s.cnp } = s))

/-! ### Dormant (chapter 19) -/

/-- Dormant entry: ENTER freezes every bough and takes the device to DRAIN; each step does its part when it can end, and after step 7 the device is
in DORMANT with VDD_CORE at 0 mV; a wake source abandons entry in steps 1 and 2, is latched in steps 3 to 5, and an edge in step 6 is lost
(R502-R505, R510). A command that finds nothing to act on leaves the state as it is: the model's choice (log entry 1). -/
def Obligations.DormantEntry : Prop :=
  ∀ (s : State), s.linearInForce = false →
    let entering : Prop := s.sys.mode = .drain ∧ s.sys.drainFor = some .dormant
    let step (k : Nat) (s' : State) : Prop := s'.pwr.dormStep = k ∧ s'.sys.mode = .drain ∧ s'.sys.drainFor = some .dormant
    (∀ g, s.sys.mode = .run → s.grn.active = some g → g.dormantEn = true → s.grn.req = none → s.lvlBusy = false → s.pwr.dormEnter = false →
      (∀ m ∈ s.plotMaps, s.plots[plotId m.plot].st = .parked ∨ s.plotIdle m = true) →
      RunsTo .dormantEnter s fun s' =>
        step 1 s' ∧ s'.pwr.dormEnter = true ∧ (∀ b, s'.bough b = { s.bough b with freeze := true }) ∧
          { s' with pwr := s.pwr, sys := s.sys, boughs := s.boughs, crownEvts := s.crownEvts } = s) ∧
    (s.sys.mode ≠ .run ∨ s.grn.req ≠ none ∨ s.lvlBusy = true → RunsTo .dormantEnter s fun s' => s' = s) ∧
    (¬ entering → RunsTo .dormantStepComplete s fun s' => s' = s) ∧
    (entering →
      (s.pwr.dormStep = 1 →
        (s.drained = true → (∀ b : BoughId, (s.bough b).twig.canHold = true) →
          RunsTo .dormantStepComplete s fun s' => s' = { s with pwr := { s.pwr with dormStep := 2 } }) ∧
        (s.drained = false → RunsTo .dormantStepComplete s fun s' => s' = s)) ∧
      (s.pwr.dormStep = 2 →
        ((∀ b : BoughId, s.scr[b].sweepOpen = false) → RunsTo .dormantStepComplete s fun s' =>
          step 3 s' ∧ (∀ k : SliceId, s'.slices[k].writing = [] ∧ s'.slices[k].staging = []) ∧ (∀ k : StackId, s.hbm[k].state = 2 → s'.hbm[k].state = 3) ∧
            (s.sys.restoreDue = none → s'.ring.flush.map (fun f => f.tick) = some s.ring.tick)) ∧
        ((∃ b : BoughId, s.scr[b].sweepOpen = true) → RunsTo .dormantStepComplete s fun s' => s' = s)) ∧
      (s.pwr.dormStep = 3 → RunsTo .dormantStepComplete s fun s' =>
        step 4 s' ∧ (∀ n : PortId, s'.grafts[n].st = (if s.grafts[n].st = .off then .off else s.graftRest n)) ∧ (∀ n : PortId, s.ports[n].linkUp = true → s.ports[n].aspm = true → s'.ports[n].l1 = true) ∧
          s'.mem = s.mem) ∧
      (s.pwr.dormStep = 4 → RunsTo .dormantStepComplete s fun s' => step 5 s' ∧ s'.pwr.sigs.length = 18 ∧ (∀ b : BoughId, s'.scr[b].crcs.length = 32) ∧
        { s' with pwr := s.pwr, scr := s.scr, fresh := s.fresh } = s) ∧
      (s.pwr.dormStep = 5 → RunsTo .dormantStepComplete s fun s' => s' = { s with pwr := { s.pwr with locked := false, dormStep := 6 } }) ∧
      (s.pwr.dormStep = 6 → RunsTo .dormantStepComplete s fun s' => s' = { s with pwr := { s.pwr with dormStep := 7 } }) ∧
      (s.pwr.dormStep = 7 → RunsTo .dormantStepComplete s fun s' =>
        s'.sys.mode = .dormant ∧ s'.pwr.dormEnter = false ∧ s'.pwr.dormStep = 0 ∧ s'.boughs = s.boughs ∧ s'.queues = s.queues ∧ s'.mem = s.mem ∧
          (s.pwr.latched = none → s'.pwr.targetMv = 0 ∧ s'.pwr.wakeStep = s.pwr.wakeStep) ∧
          ∀ c, s.pwr.latched = some c → s'.pwr.wakeStep = 1 ∧ s'.pwr.wakeCause = c)) ∧
    ∀ code, s.sourceThere code = true →
      (entering → s.pwr.dormStep ≤ 2 → (∀ n : PortId, s.ports[n].held = []) → RunsTo (.wakeSource code) s fun s' =>
        s'.sys.mode = .run ∧ s'.sys.drainFor = none ∧ s'.pwr.abandoned = true ∧ s'.pwr.dormEnter = false ∧ s'.pwr.dormStep = 0 ∧ s'.mem = s.mem ∧
          ∀ b : BoughId, s.boughPlot b.val = none → (s'.bough b) = { s.bough b with freeze := false }) ∧
      (entering → 3 ≤ s.pwr.dormStep → s.pwr.dormStep ≠ 6 ∨ code.toNat < 5 → s.pwr.latched = none → RunsTo (.wakeSource code) s fun s' => s' = { s with pwr := { s.pwr with latched := some code } }) ∧
      (entering → s.pwr.dormStep = 6 → 5 ≤ code.toNat → RunsTo (.wakeSource code) s fun s' => s' = s) ∧
      (s.sys.mode = .dormant → s.pwr.wakeStep = 0 → RunsTo (.wakeSource code) s fun s' =>
        s'.pwr.wakeStep = 1 ∧ s'.pwr.wakeCause = code ∧ s'.pwr.chained = false ∧ s'.outbox = s.outbox ++ [.avs s'.pwr.targetMv] ∧
          s'.pwr.targetMv = (if s.pwr.level = 0 then 800 else if s.pwr.level = 1 then 720 else if s.pwr.level = 2 then 660 else 600) ∧ { s' with pwr := s.pwr, outbox := s.outbox } = s)

/-- The wake: each step takes its fixed delay while its ready is there, and goes to ready-chained order with WAKE_LATE when it is not; step 3 trains the
stacks again, with the repairs kept, and checks every scratchpad; after step 4,
with every signature as it was, the device is in RUN with its boughs, queues and links as they were kept; a step without ready times out into
QUARANTINE; REFCLK that stops in Dormant freezes the tick (R330, R435, R509-R513). A command that finds nothing to act on leaves the state as it is: the
model's choice (log entry 1). -/
def Obligations.WakeSequence : Prop :=
  ∀ (s : State), s.linearInForce = false →
    let delay (k : Nat) : Nat := if k = 1 then 150 else if k = 2 then 60 else if k = 3 then 120 else 70
    let waking (k : Nat) : Prop := s.sys.mode = .dormant ∧ s.pwr.wakeStep = k
    let next (k us : Nat) (s' : State) : Prop :=
      s'.pwr.wakeStep = k + 1 ∧ s'.sys.mode = .dormant ∧ (∀ i : Fin 4, s'.pwr.stepUs[i] = if i.val + 1 = k then BitVec.ofNat 16 us else s.pwr.stepUs[i]) ∧
        (k = 2 → s'.pwr.locked = true) ∧ (k = 3 → ∀ i : StackId, s.hbm[i].state = 3 → s'.hbm[i].state = 2 ∧ s'.hbm[i].trainKind = 2 ∧ s'.hbm[i].repLanes = s.hbm[i].repLanes) ∧
        (k = 3 → ∀ b : BoughId, s'.scr[b].checks = s.scr[b].checks + 1) ∧ (k ≠ 3 → s'.mem = s.mem) ∧ SameBytes s.mem s'.mem ∧ s'.boughs = s.boughs
    (∀ k, 1 ≤ k → k ≤ 3 → waking k →
      (s.pwr.chained = false → s.pwr.refclkOk = true → RunsTo (.wakeStepDelayEnd true) s (next k (delay k))) ∧
      (∀ us, s.pwr.chained = true → s.pwr.refclkOk = true → us ≤ 10000 → s.pwr.lateStep.toNat ≠ k ∨ delay k ≤ us → RunsTo (.wakeStepReady us) s (next k us))) ∧
    (∀ k rdy, 1 ≤ k → k ≤ 4 → waking k → s.pwr.chained = false → rdy = false ∨ s.pwr.refclkOk = false →
      RunsTo (.wakeStepDelayEnd rdy) s fun s' =>
        s'.pwr.chained = true ∧ s'.pwr.late = true ∧ s'.pwr.lateStep = BitVec.ofNat 3 k ∧ s'.pwr.event.getLsbD 5 = true ∧ s'.pwr.wakeStep = k ∧
          { s' with pwr := s.pwr, ring := s.ring, crownEvts := s.crownEvts } = s) ∧
    (waking 4 → s.pwr.chained = false → s.pwr.refclkOk = true → s.pwr.late = false → s.pwr.stoppedUs = none → (∀ n : PortId, s.ports[n].held = []) →
      (∀ i, i < 18 → s.pwr.sigs[i]? = some ((Config.freeWord (s.fresh + i)).truncate 32)) → s.pwr.sigs.length = 18 →
      RunsTo (.wakeStepDelayEnd true) s fun s' =>
        s'.sys.mode = .run ∧ s'.pwr.wakeStep = 0 ∧ s'.pwr.stepUs[(3 : Fin 4)] = 70 ∧ s'.links = s.links ∧
          ∀ b : BoughId, (s'.bough b).sd = (s.bough b).sd ∧ (s'.bough b).v = (s.bough b).v ∧ (s'.bough b).m = (s.bough b).m ∧ (s'.bough b).iq = (s.bough b).iq ∧
            (s'.bough b).twig.pc = (s.bough b).twig.pc ∧ (s'.bough b).twig.g = (s.bough b).twig.g ∧ (s'.bough b).twig.icache = [] ∧ (s'.bough b).ocache = []) ∧
    (∀ k, 1 ≤ k → k ≤ 4 → waking k → s.pwr.chained = true → (∀ n : PortId, s.ports[n].held = []) →
      RunsTo .wakeStepTimeout s fun s' => s'.sys.mode = .quarantine ∧ s'.sys.qcause = 7 ∧ s'.grn.active = none) ∧
    (s.pwr.chained = false → RunsTo .wakeStepTimeout s fun s' => s' = s) ∧
    (∀ us, s.sys.mode = .dormant → RunsTo (.refclkStopInDormant us) s fun s' =>
      s'.pwr.refclkOk = false ∧ s'.pwr.stoppedUs = some (s.pwr.stoppedUs.getD 0 + us) ∧ s'.ring = s.ring ∧ { s' with pwr := s.pwr, crownEvts := s.crownEvts } = s) ∧
    ∀ us, s.sys.mode ≠ .dormant → RunsTo (.refclkStopInDormant us) s fun s' => s' = s

/-! ### Graft links (chapter 18) -/

/-- A graft port's way to HELLO: a beacon received in LISTEN starts training, lock of all lanes leads to HELLO, and each state's timeout goes back
to LISTEN; HELLO carries the four words of R476 and waits behind every flit that waits; a HELLO with PROTOCOL 1 that is acknowledged in both
directions starts authentication (R471, R475, R476, R477). A command that finds nothing to act on leaves the state as it is: the model's choice (log entry 1). -/
def Obligations.GraftTraining : Prop :=
  ∀ (s : State) (n : PortId), let p := s.grafts[n]
    let only (s' : State) : Prop := (∀ m, m ≠ n → s'.grafts[m] = s.grafts[m]) ∧ { s' with grafts := s.grafts, outbox := s.outbox, fresh := s.fresh } = s
    let fourWords : List Word := [BitVec.ofNat 64 (1 + 2 ^ 16 * n.val + 2 ^ 18 * (((s.grn.active.map fun g => g.rank)).getD 0 % 4)), Config.serial, (s.grn.active.map fun g => g.serial).getD 0, s.sys.bootId]
    (p.st ≠ .up → p.st ≠ .off → s.sys.mode ≠ .dormant → RunsTo (.graftBeaconTx n) s fun s' => s' = { s with outbox := s.outbox ++ [.beacon n] }) ∧
    (p.st = .up ∨ p.st = .off → RunsTo (.graftBeaconTx n) s fun s' => s' = s) ∧
    (s.sys.mode ≠ .drain → s.sys.mode ≠ .dormant →
      (p.st = .listen → RunsTo (.graftBeaconRx n) s fun s' => s'.grafts[n].st = .train ∧ only s') ∧
      (p.st ≠ .listen → RunsTo (.graftBeaconRx n) s fun s' => s' = s)) ∧
    (p.st = .train →
      (RunsTo (.graftTrainLock n) s fun s' =>
        s'.grafts[n].st = .hello ∧ s'.grafts[n].locked = 0xff ∧ s'.grafts[n].txSeq = 0 ∧ s'.grafts[n].rxSeq = 0 ∧ s'.grafts[n].unacked = [] ∧ s'.grafts[n].helloSeen = false ∧ only s') ∧
      RunsTo (.graftTrainTimeout n) s fun s' => s'.grafts[n].st = .listen ∧ only s') ∧
    (p.st ≠ .train → (RunsTo (.graftTrainLock n) s fun s' => s' = s) ∧ RunsTo (.graftTrainTimeout n) s fun s' => s' = s) ∧
    (p.st = .hello → RunsTo (.graftHelloTimeout n) s fun s' => s'.grafts[n].st = .listen ∧ only s') ∧
    (p.st = .refused → RunsTo (.graftRefusedTimeout n) s fun s' => s'.grafts[n].st = .listen ∧ only s') ∧
    (p.st ≠ .refused → RunsTo (.graftRefusedTimeout n) s fun s' => s' = s) ∧
    (p.st = .hello ∨ p.st = .up → p.waiting = [] → p.unacked.length < 512 → RunsTo (.graftHelloTx n) s fun s' =>
      s'.outbox = s.outbox ++ [.flit n (flitHdr p 1 p.txSeq 4) fourWords] ∧ s'.grafts[n].txSeq = p.txSeq + 1 ∧ s'.grafts[n].st = p.st ∧
        (s'.grafts[n].unacked.map fun f => f.seq) = (p.unacked.map fun f => f.seq) ++ [p.txSeq] ∧ s'.grafts[n].txFlits = p.txFlits + 1 ∧ only s') ∧
    (p.st = .hello ∨ p.st = .up → p.waiting ≠ [] → RunsTo (.graftHelloTx n) s fun s' =>
      (∃ w : WFlit, s'.grafts[n] = { p with waiting := p.waiting ++ [w] } ∧ w.cls = 4 ∧ w.kind = 1 ∧ w.words = fourWords) ∧ (∀ m, m ≠ n → s'.grafts[m] = s.grafts[m]) ∧
        { s' with grafts := s.grafts } = s) ∧
    (∀ port rank serial image boot, p.st = .hello →
      let seen (s' : State) : Prop :=
        s'.grafts[n].peerPort = port ∧ s'.grafts[n].peerRank = rank ∧ s'.grafts[n].helloSerial = serial ∧ s'.grafts[n].peerImage = image ∧ s'.grafts[n].helloBoot = boot ∧ s'.grafts[n].helloSeen = true ∧
          s'.grafts[n].rxFlits = p.rxFlits + 1 ∧ only s'
      (p.helloAcked = false → RunsTo (.hello n 1 port rank serial image boot) s fun s' => seen s' ∧ s'.grafts[n].st = .hello) ∧
      (p.helloAcked = true → RunsTo (.hello n 1 port rank serial image boot) s fun s' => seen s' ∧ s'.grafts[n].st = .auth) ∧
      ∀ v, v ≠ 1 → RunsTo (.hello n v port rank serial image boot) s fun s' => s' = s) ∧
    ∀ ack, p.st = .hello → (∀ f ∈ p.unacked, (ack - f.seq - 1).toNat < 512) → p.txSeq ≠ 0 →
      RunsTo (.graftIdle n ack) s fun s' => (p.helloSeen = false → s'.grafts[n].unacked = []) ∧ s'.grafts[n].helloAcked = true ∧ s'.grafts[n].st = (if p.helloSeen then .auth else .hello) ∧ only s'

/-- Authentication: the peer's chain, nonce and owner digest, and signature arrive in order and are checked; a failure refuses the peer with its
reason in HWD_AUTH_LOG; both signatures good lead to ADMIT, and both lists ended lead to UP with every item admitted or refused (R453, R454, R477,
R478). A command that finds nothing to act on leaves the state as it is: the model's choice (log entry 1). -/
def Obligations.GraftAuthentication : Prop :=
  ∀ (s : State) (n : PortId), let p := s.grafts[n]
    let refused (reason : Nat) (serial : Nat) (s' : State) : Prop :=
      s'.grafts[n].st = .refused ∧ s'.hwd.authFail = true ∧ s'.grafts[n].event.getLsbD 1 = true ∧ s'.hwd.authLog = BitVec.ofNat 64 (n.val + 2 ^ 4 * reason + 2 ^ 32 * (serial % 2 ^ 32)) ∧
        (∀ m, m ≠ n → s'.grafts[m] = s.grafts[m]) ∧ { s' with grafts := s.grafts, hwd := s.hwd, crownEvts := s.crownEvts } = s
    let good (ch : List Byte) : Nat := if Config.chainVerifies ch then p.helloSerial.toNat else 0
    (p.st = .auth →
      (∀ off bs, (off.toNat = p.rxChain.length → RunsTo (.auth n 0 off bs) s fun s' =>
          s'.grafts[n] = { p with rxChain := p.rxChain ++ bs, rxSeq := p.rxSeq + 1, rxFlits := p.rxFlits + 1 } ∧ { s' with grafts := s.grafts } = s) ∧
        (off.toNat ≠ p.rxChain.length → RunsTo (.auth n 0 off bs) s fun s' => s'.grafts[n] = { p with rxSeq := p.rxSeq + 1, rxFlits := p.rxFlits + 1 } ∧ { s' with grafts := s.grafts } = s)) ∧
      (∀ off bs, off.toNat = p.rxNonce.length → p.rxNonce.length + bs.length < 96 → RunsTo (.auth n 1 off bs) s fun s' => s'.grafts[n].rxNonce = p.rxNonce ++ bs ∧ s'.grafts[n].st = .auth) ∧
      (∀ off bs, off.toNat = p.rxNonce.length → p.rxNonce.length + bs.length = 96 →
        let owner := (p.rxNonce ++ bs).drop 48
        (Config.chainVerifies p.rxChain = false → RunsTo (.auth n 1 off bs) s (refused 1 0)) ∧
        (Config.chainVerifies p.rxChain = true → s.ownerDigest ≠ some owner → RunsTo (.auth n 1 off bs) s (refused 3 (good p.rxChain))) ∧
        (Config.chainVerifies p.rxChain = true → s.ownerDigest = some owner → s.sys.pwrFail = false → s.hwd.engine = none →
          RunsTo (.auth n 1 off bs) s fun s' => s'.grafts[n].st = .auth ∧ s'.hwd = { s.hwd with engine := some (.graft n) })) ∧
      (∀ off bs, off.toNat = p.rxSig.length → p.rxSig.length + bs.length = 96 → p.rxNonce.length = 96 →
        let ok := Config.ecdsaVerify (Config.chainKey p.rxChain) (s.peerMsg n) (p.rxSig ++ bs)
        (ok = false → RunsTo (.auth n 2 off bs) s (refused 2 (good p.rxChain))) ∧
        (ok = true → p.authSent = false → RunsTo (.auth n 2 off bs) s fun s' => s'.grafts[n].st = .auth ∧ s'.grafts[n].rxSig = p.rxSig ++ bs) ∧
        (ok = true → p.authSent = true → p.admitLast = false → RunsTo (.auth n 2 off bs) s fun s' =>
          s'.grafts[n].st = .admitting ∧ s'.hwd.graftAuth.getLsbD n.val = true ∧ s'.grafts[n].peerSerial = p.helloSerial ∧ s'.grafts[n].peerBoot = p.helloBoot ∧ s'.grafts[n].admitSent = true)) ∧
      RunsTo (.graftAuthTimeout n) s (refused 4 (good p.rxChain))) ∧
    (p.st ≠ .auth → (RunsTo (.graftAuthTimeout n) s fun s' => s' = s) ∧ ∀ part off bs, RunsTo (.auth n part off bs) s fun s' => s' = s) ∧
    (∀ last es, p.st = .auth ∨ (p.st = .admitting ∧ last = false) ∨ (p.st = .up ∧ last = false) → RunsTo (.admitList n last es) s fun s' =>
      s'.grafts[n] = { p with peerAdmit := p.peerAdmit ++ es, admitLast := last, rxSeq := p.rxSeq + 1, rxFlits := p.rxFlits + 1 } ∧ { s' with grafts := s.grafts } = s) ∧
    (∀ es, p.st = .admitting → p.admitSent = true →
      let has (i : GraftItem) : Bool :=
        (p.peerAdmit ++ es).any (fun e => e.tag == i.tag && e.role.toNat == (if i.role % 2 = 0 then i.role + 1 else i.role - 1)) &&
          (if i.role = 0 then decide ((s.grn.active.map fun g => g.rank).getD 0 < p.peerRank.toNat)
           else if i.role = 1 then decide (p.peerRank.toNat < (s.grn.active.map fun g => g.rank).getD 0) else true)
      let items := s.graftItems n
      RunsTo (.admitList n true es) s fun s' =>
        s'.grafts[n].st = .up ∧ s'.grafts[n].admitted = BitVec.ofNat 16 (items.countP has) ∧ s'.grafts[n].refused = BitVec.ofNat 16 (items.countP fun i => !has i) ∧
          s'.grafts[n].tags = (items.filter has).map (fun i => (i.tag, i.role))) ∧
    (∀ last es, p.st = .listen ∨ p.st = .off ∨ p.st = .refused → RunsTo (.admitList n last es) s fun s' => s' = s)

/-- Queue packets over a graft port: the words of a packet arrive in order into an open packet, its last word closes it and returns CLOSED, a packet
already closed is answered again and not taken, CLOSED frees the sent packet, ABORT discards a partial one, and CREDIT adds to a grant (R354,
R479-R481). Of the flits that wait, a port sends tokens, controls and credits first, the oldest of them that its flow lets go; then chain and queue
data, the flows in turn; then HELLO (R174, R475). -/
def Obligations.GraftPackets : Prop :=
  ∀ (s : State) (n : PortId) tag, s.grafts[n].st = .up →
    let ctl (op : Nat) (pseq : BitVec 16) : List Word := [BitVec.ofNat 64 (tag.toNat + 2 ^ 32 * op + 2 ^ 35 * pseq.toNat)]
    let waits (k : Nat) (ws : List Word) (s' : State) : Prop :=
      ∃ w : WFlit, s'.grafts[n].waiting = s.grafts[n].waiting ++ [w] ∧ w.cls = 2 ∧ w.kind = k ∧ w.words = ws ∧ (∀ m, m ≠ n → s'.grafts[m] = s.grafts[m])
    let wire (ws : List (Word × Bool)) (l : List QWord) : Prop := l.map (fun w => (w.w, w.poison)) = ws
    (∀ q pseq, (tag, 3) ∈ s.grafts[n].tags → s.rxQueue n tag = some q → s.queues[q].wasClosed pseq = false → let x := s.queues[q]
      (∀ w ws, x.prod = none → let c := w.1.toNat % 65536
        c + 1 ≤ x.credits → ws.length < c → RunsTo (.queueData n tag pseq 0 (w :: ws)) s fun s' =>
          (∃ o, s'.queues[q] = { x with credits := x.credits - (c + 1), prod := some o, prodVoid := false, rxPseq := some pseq } ∧ o.cap = c ∧ wire (w :: ws) o.words) ∧ OnlyQueue q s s' ∧
            { s' with queues := s.queues, grafts := s.grafts } = s) ∧
      (∀ o ws, x.prod = some o → x.rxPseq = some pseq → o.words ≠ [] → o.words.length + ws.length < o.cap + 1 →
        RunsTo (.queueData n tag pseq o.words.length ws) s fun s' =>
          (∃ o', s'.queues[q] = { x with prod := some o' } ∧ o'.cap = o.cap ∧ ∃ l, o'.words = o.words ++ l ∧ wire ws l) ∧ OnlyQueue q s s' ∧ { s' with queues := s.queues, grafts := s.grafts } = s) ∧
      (∀ o w rest ws, x.prod = some o → x.rxPseq = some pseq → o.words = w :: rest → o.words.length + ws.length = o.cap + 1 →
        RunsTo (.queueData n tag pseq o.words.length ws) s fun s' =>
          (∃ k l, s'.queues[q].pending = x.pending ++ [k] ∧ k.words = rest ++ l ∧ wire ws l ∧ k.lenBad = w.poison ∧
              k.typ = (if w.poison then 0 else BitVec.ofNat 8 (w.w.toNat / 2 ^ 16)) ∧ k.tag = (if w.poison then 0 else BitVec.ofNat 32 (w.w.toNat / 2 ^ 32))) ∧
            s'.queues[q].prod = none ∧ s'.queues[q].rxClosed = some pseq ∧ s'.queues[q].credits = x.credits ∧ (∃ w ∈ s'.grafts[n].waiting, w.cls = 2 ∧ w.kind = 8 ∧ w.words = ctl 0 pseq)) ∧
      (∀ o, x.prod = some o → x.rxPseq = some pseq → RunsTo (.queueAbort n tag pseq) s fun s' =>
        s'.queues[q] = { x with prod := none, rxPseq := none, credits := x.credits + o.cap + 1 } ∧ OnlyQueue q s s' ∧
          waits 9 [BitVec.ofNat 64 (tag.toNat + 2 ^ 32 + 2 ^ 33 * ((o.cap + 1) % 2 ^ 17))] s' ∧ { s' with queues := s.queues, grafts := s.grafts } = s)) ∧
    (∀ q pseq ws, (tag, 3) ∈ s.grafts[n].tags → s.rxQueue n tag = some q → s.queues[q].wasClosed pseq = true → RunsTo (.queueData n tag pseq 0 ws) s fun s' =>
      waits 8 (ctl 0 pseq) s' ∧ { s' with grafts := s.grafts } = s) ∧
    (∀ q pseq, (tag, 2) ∈ s.grafts[n].tags → s.txQueue n tag = some q → let x := s.queues[q]
      (∀ k ks, x.txBusy = true → x.txPseq = pseq → x.pending = k :: ks → RunsTo (.closed n tag pseq) s fun s' =>
        s'.queues[q].pending = ks ∧ s'.queues[q].txPseq = pseq + 1 ∧ s'.queues[q].cons = none ∧ s'.queues[q].credits = x.credits + k.words.length + 1 ∧ OnlyQueue q s s') ∧
      (x.txPseq ≠ pseq → RunsTo (.closed n tag pseq) s fun s' => s'.queues = s.queues ∧ s'.outbox = s.outbox)) ∧
    (∀ w : BitVec 17,
      (∀ q, s.txQueue n tag = some q → s.queues[q].txBusy = true ∨ s.queues[q].pending = [] → RunsTo (.credit n tag true w) s fun s' =>
        s'.queues[q] = { s.queues[q] with txGrant := s.queues[q].txGrant + w.toNat } ∧ OnlyQueue q s s' ∧ { s' with queues := s.queues, grafts := s.grafts } = s) ∧
      (∀ i l, s.links[i]? = some l → (∀ j k, s.links[j]? = some k → (k.toGraft = true ∧ k.outPort = n ∧ k.tag = tag ∧ k.broken = false ↔ j = i)) →
        RunsTo (.credit n tag false w) s fun s' => s'.links[i]? = some { l with credits := l.credits + w.toNat } ∧ OnlyLink i s { s' with grafts := s.grafts })) ∧
    let heads := flowHeads [] s.grafts[n].waiting
    let on := s.grafts[n].served
    (s.grafts[n].choose = none ↔ s.grafts[n].waiting = []) ∧
      ∀ f, s.grafts[n].choose = some f →
        f ∈ heads ∧ (f.cls ≠ 2 → ∀ g ∈ heads, g.cls ≠ 2) ∧ (f.cls ≠ 2 → f.cls ≠ 3 → ∀ g ∈ heads, g.cls ≠ 3) ∧
          (f.cls = 3 → (on < f.flow ∧ ∀ g ∈ heads, g.cls = 3 → on < g.flow → f.flow ≤ g.flow) ∨ ∀ g ∈ heads, g.cls = 3 → g.flow ≤ on ∧ f.flow ≤ g.flow) ∧
          (s.portTurn n).outbox = s.outbox ++ [.flit n (flitHdr s.grafts[n] f.kind s.grafts[n].txSeq f.words.length) f.words] ∧
          (s.portTurn n).grafts[n].waiting = s.grafts[n].waiting.erase f ∧ { s.portTurn n with grafts := s.grafts, outbox := s.outbox } = s

/-- Replay: a bad flit makes the next one carry NAK; a NAK drops what is acknowledged and sends the rest again in order; the fourth NAK of a flit,
LEAVE, a lane without lock, missing acknowledgement or keepalive, HOLD and another BOOT_ID lose the partner of a port in UP: its links break with
GRAFT_DOWN, a packet being received is discarded, packets being sent stay, and the port goes to LISTEN, or OFF while held (R473, R477, R482). A
command that finds nothing to act on leaves the state as it is: the model's choice (log entry 1). -/
def Obligations.GraftPartnerLoss : Prop :=
  ∀ (s : State) (n : PortId), let p := s.grafts[n]
    let linked : Prop := p.st = .hello ∨ p.st = .auth ∨ p.st = .admitting ∨ p.st = .up
    let rest (h : Bool) : GraftSt := if h = true ∨ (s.grn.active.map fun g => g.graftEn.getLsbD n.val) ≠ some true then .off else .listen
    let down (s' : State) : Prop :=
      s'.grafts[n].event.getLsbD 0 = true ∧ s'.hwd.graftAuth.getLsbD n.val = false ∧ s'.cnp.graftAbsorb.getLsbD n.val = true ∧ s'.grafts[n].unacked = [] ∧ s'.grafts[n].tags = [] ∧
        (∀ (i : Nat) (l : Link), s.links[i]? = some l → l.crosses n = true → l.broken = false → ∃ l' : Link, s'.links[i]? = some l' ∧ l'.broken = true ∧ l'.code = 3) ∧
        (∀ (q : QueueId) r, s.queueRec q.val = some r → recProd r = .graft n.val → s'.queues[q].prod = none) ∧
        (∀ q : QueueId, s.queues[q].pending <+: s'.queues[q].pending) ∧ (∀ m, m ≠ n → s'.grafts[m].st = s.grafts[m].st) ∧ s'.mem = s.mem
    (linked → RunsTo (.graftBadFlit n) s fun s' => s'.grafts[n] = { p with nakDue := true } ∧ (∀ m, m ≠ n → s'.grafts[m] = s.grafts[m]) ∧ { s' with grafts := s.grafts } = s) ∧
    (¬ linked → (RunsTo (.graftBadFlit n) s fun s' => s' = s) ∧ ∀ ack, RunsTo (.graftNak n ack) s fun s' => s' = s) ∧
    (∀ ack f fs, linked → p.unacked.filter (fun f => decide (512 ≤ (ack - f.seq - 1).toNat)) = f :: fs →
      (f.naks + 1 < 4 ∨ p.st ≠ .up → RunsTo (.graftNak n ack) s fun s' =>
        s'.grafts[n].unacked = { f with naks := f.naks + 1 } :: fs ∧ s'.grafts[n].st = p.st ∧
          s'.grafts[n].replays = (if p.replays = BitVec.allOnes 32 then p.replays else p.replays + 1) ∧
          s'.outbox = s.outbox ++ (f :: fs).map (fun g => .flit n (flitHdr p g.kind.toNat g.seq g.words.length) g.words) ∧ { s' with grafts := s.grafts, outbox := s.outbox } = s) ∧
      (3 ≤ f.naks → p.st = .up → RunsTo (.graftNak n ack) s fun s' => down s' ∧ s'.grafts[n].st = rest p.hold ∧ s'.grafts[n].event.getLsbD 4 = true)) ∧
    (p.st = .up →
      (RunsTo (.leave n) s fun s' => down s' ∧ s'.grafts[n].st = rest p.hold) ∧ (∀ l, RunsTo (.graftLaneLockLoss n l) s fun s' => down s' ∧ s'.grafts[n].st = rest p.hold ∧ s'.grafts[n].locked = 0) ∧
        (p.unacked ≠ [] → RunsTo (.graftAckTimeout n) s fun s' => down s' ∧ s'.grafts[n].st = rest p.hold) ∧ (RunsTo (.graftKeepaliveMiss n) s fun s' => down s' ∧ s'.grafts[n].st = rest p.hold) ∧
        (RunsTo (.hold n true) s fun s' => down s' ∧ s'.grafts[n].st = .off ∧ s'.grafts[n].hold = true ∧ ∃ h, Output.flit n h [] ∈ s'.outbox) ∧
        (∀ port rank serial image boot v, boot ≠ p.peerBoot → RunsTo (.hello n v port rank serial image boot) s fun s' => down s' ∧ s'.grafts[n].st = rest p.hold ∧ s'.grafts[n].event.getLsbD 2 = true) ∧
        ∀ port rank serial image v, RunsTo (.hello n v port rank serial image p.peerBoot) s fun s' =>
          s'.grafts[n] = { p with rxSeq := p.rxSeq + 1, rxFlits := p.rxFlits + 1 } ∧ { s' with grafts := s.grafts } = s) ∧
    (p.st ≠ .up → (RunsTo (.leave n) s fun s' => s' = s) ∧ (RunsTo (.graftKeepaliveMiss n) s fun s' => s' = s) ∧ RunsTo (.graftAckTimeout n) s fun s' => s' = s) ∧
    (p.unacked = [] → RunsTo (.graftAckTimeout n) s fun s' => s' = s) ∧
    (∀ l : Fin 8, p.st ≠ .up → RunsTo (.graftLaneLockLoss n l) s fun s' => s'.grafts[n] = { p with locked := s'.grafts[n].locked } ∧ s'.grafts[n].locked.getLsbD l.val = false ∧
      (∀ j : Fin 8, j ≠ l → s'.grafts[n].locked.getLsbD j.val = p.locked.getLsbD j.val) ∧ (∀ m, m ≠ n → s'.grafts[m] = s.grafts[m]) ∧ { s' with grafts := s.grafts } = s) ∧
    (p.st ≠ .up → p.st ≠ .off → RunsTo (.hold n true) s fun s' => s'.grafts[n].st = .off ∧ s'.grafts[n].hold = true ∧ s'.links = s.links ∧ s'.queues = s.queues) ∧
    (p.st = .off → RunsTo (.hold n false) s fun s' => s'.grafts[n].st = rest false ∧ s'.grafts[n].hold = false ∧ (∀ m, m ≠ n → s'.grafts[m] = s.grafts[m]) ∧ { s' with grafts := s.grafts } = s)

/-! ### The crown mailbox (chapter 20) -/

/-- The crown mailbox serves a channel whose command is pending: a mode that the command does not accept gives BAD_MODE and a reserved OP gives
UNKNOWN_OP, and nothing changes but the channel; GET_INFO, RESET, ENTER_SERVICE, ACTIVATE, CAL_SYNC, LEDGER_READ and LEDGER_FREE act as R533 says
(R515, R530-R534). A command that finds nothing to act on leaves the state as it is: the model's choice (log entry 1). -/
def Obligations.MailboxControl : Prop :=
  ∀ (s : State) (ch : Fin 5), let c := s.crn.chans[ch]
    let serves (op : Nat) : Prop := s.sys.mode ≠ .reset ∧ s.sys.mode ≠ .dormant ∧ c.go = true ∧ c.busy = false ∧ c.op.toNat = op
    let ended (code : Nat) (s' : State) : Prop :=
      s'.crn.chans[ch] = { c with go := false, busy := false, code := BitVec.ofNat 8 code, detail := 0, words := 0 } ∧ ∀ k, k ≠ ch → s'.crn.chans[k] = s.crn.chans[k]
    let badMode (s' : State) : Prop := ended 1 s' ∧ { s' with crn := s.crn } = s
    let items := (s.ring.journal.map fun x => x.item).filter fun i => decide (c.args[(0 : Fin 4)].toNat ≤ i.seq.toNat)
    (c.go = false →
      ∀ i, i = .getInfo ch ∨ i = .reset ch ∨ i = .enterService ch ∨ i = .fwWrite ch ∨ i = .slotWrite ch ∨ i = .activate ch ∨ i = .enrollOwner ch ∨ i = .transferOwner ch ∨ i = .calSync ch ∨
        i = .ledgerRead ch ∨ i = .ledgerFree ch ∨ i = .unknownOp ch → RunsTo i s fun s' => s' = s) ∧
    (serves 1 → RunsTo (.getInfo ch) s fun s' =>
      (let d := s'.crn.chans[ch]
       d.go = false ∧ d.code = 0 ∧ d.words = 5 ∧ d.data[(0 : Fin 32)] = s.sysModeWord ∧ d.data[(1 : Fin 32)] = Config.serial ∧
         d.data[(2 : Fin 32)] = BitVec.ofNat 64 (b2n s.sys.fwCopy + 2 ^ 32 * (s.sys.fw[if s.sys.fwCopy then (1 : Fin 2) else 0].serial).toNat) ∧
         d.data[(3 : Fin 32)] = (s.grn.active.map fun g => g.serial).getD 0 ∧ d.data[(4 : Fin 32)] = s.ring.seq) ∧ { s' with crn := s.crn } = s) ∧
    (serves 2 → s.linearInForce = false →
      (s.sys.mode = .run → RunsTo (.reset ch) s fun s' =>
        s'.sys.mode = .drain ∧ s'.sys.drainFor = some (.reset ch) ∧ s'.sys.toService = c.args[(0 : Fin 4)].getLsbD 0 ∧ (∀ b, s'.bough b = { s.bough b with freeze := true }) ∧ s'.mem = s.mem) ∧
      (s.sys.mode ≠ .run → RunsTo (.reset ch) s fun s' =>
        s'.sys.mode = .reset ∧ s'.sys.kind = 3 ∧ s'.sys.channel.toNat = ch.val ∧ s'.sys.toService = c.args[(0 : Fin 4)].getLsbD 0 ∧ s'.grn.active = none)) ∧
    (serves 3 → s.linearInForce = false →
      (s.sys.mode = .run → RunsTo (.enterService ch) s fun s' =>
        s'.sys.mode = .drain ∧ s'.sys.drainFor = some .service ∧ s'.crn.chans[ch] = { c with busy := true } ∧ (∀ b, s'.bough b = { s.bough b with freeze := true }) ∧ s'.mem = s.mem) ∧
      (s.sys.mode = .load → RunsTo (.enterService ch) s fun s' => s'.sys.mode = .service ∧ s'.grn.active = none ∧ s'.grn.req = none ∧ s'.crn.chans[ch].go = false ∧ s'.crn.chans[ch].code = 0) ∧
      (s.sys.mode ≠ .run → s.sys.mode ≠ .load → RunsTo (.enterService ch) s badMode)) ∧
    (serves 6 → s.linearInForce = false →
      let slot : Fin 2 := if c.args[(0 : Fin 4)].getLsbD 0 then 1 else 0
      let plot : Option PlotId := if c.args[(0 : Fin 4)].getLsbD 8 then some ⟨c.args[(0 : Fin 4)].toNat / 2 ^ 16 % 64, Nat.mod_lt _ (by decide)⟩ else none
      (s.sys.mode = .run ∨ (s.sys.mode = .service ∧ c.args[(0 : Fin 4)].getLsbD 8 = false) → s.grn.req = none → RunsTo (.activate ch) s fun s' =>
        s'.grn = { s.grn with req := some { slot := slot, plot := plot, early := c.args[(1 : Fin 4)], ch := some ch }, st := .checking } ∧ s'.crn.chans[ch] = { c with busy := true } ∧
          s'.sys.mode = (if s.sys.mode = .run then .run else .load) ∧ s'.boughs = s.boughs ∧ s'.mem = s.mem) ∧
      (s.sys.mode = .run → s.grn.req ≠ none → RunsTo (.activate ch) s fun s' =>
        s'.grn = { s.grn with waiting := s.grn.waiting ++ [{ slot := slot, plot := plot, early := c.args[(1 : Fin 4)], ch := some ch }] } ∧ s'.crn.chans[ch] = { c with busy := true }) ∧
      ((s.sys.mode ≠ .run ∧ s.sys.mode ≠ .service) ∨ (s.sys.mode = .service ∧ c.args[(0 : Fin 4)].getLsbD 8 = true) → RunsTo (.activate ch) s badMode)) ∧
    (serves 9 → RunsTo (.calSync ch) s fun s' => ended 0 s' ∧ s'.ring.offset = c.args[(0 : Fin 4)] - s.ring.tick ∧ s'.ring.uncertain = false ∧ s'.mem = s.mem) ∧
    (serves 10 →
      (s.bufferOk ch c = false → RunsTo (.ledgerRead ch) s fun s' => ended 2 s' ∧ { s' with crn := s.crn } = s) ∧
      (c.bulk = false → s.bufferOk ch c = true → RunsTo (.ledgerRead ch) s fun s' =>
        s'.crn.chans[ch].go = false ∧ s'.crn.chans[ch].code = 0 ∧ s'.crn.chans[ch].data[(0 : Fin 32)] = BitVec.ofNat 64 (min c.args[(1 : Fin 4)].toNat items.length) ∧ { s' with crn := s.crn } = s) ∧
      (c.bulk = true → s.bufferOk ch c = true →
        let k := min (min c.args[(1 : Fin 4)].toNat (c.args[(3 : Fin 4)].toNat / 512)) items.length
        let bs := wordsBytes ((items.take k).flatMap Item.slotWords)
        Alive s.mem c.args[(2 : Fin 4)].toNat bs.length → RunsTo (.ledgerRead ch) s fun s' =>
          s'.crn.chans[ch].go = false ∧ s'.crn.chans[ch].code = 0 ∧ s'.crn.chans[ch].data[(0 : Fin 32)] = BitVec.ofNat 64 k ∧ Stored s.mem s'.mem c.args[(2 : Fin 4)].toNat bs ∧ s'.ring.journal = s.ring.journal)) ∧
    (serves 11 →
      (s.sys.mode = .boot → RunsTo (.ledgerFree ch) s badMode) ∧
      (s.sys.mode ≠ .boot → RunsTo (.ledgerFree ch) s fun s' =>
        ended 0 s' ∧ s'.ring = { s.ring with journal := s.ring.journal.filter fun x => x.posted || decide (c.args[(0 : Fin 4)].toNat < x.item.seq.toNat) } ∧ { s' with crn := s.crn, ring := s.ring } = s)) ∧
    ∀ op, serves op →
      (op = 0 ∨ 11 < op → RunsTo (.unknownOp ch) s fun s' => ended 9 s' ∧ { s' with crn := s.crn } = s) ∧ (1 ≤ op → op ≤ 11 → RunsTo (.unknownOp ch) s fun s' => s' = s)

/-- FW_WRITE, SLOT_WRITE, ENROLL_OWNER and TRANSFER_OWNER: a firmware copy becomes preferred only when it verifies with a serial at the floor or
above; a slot that is in use is not written; an owner is enrolled once, by a valid key, and transferred by a record that verifies (R404-R406, R518,
R533, R534). -/
def Obligations.MailboxFlash : Prop :=
  ∀ (s : State) (ch : Fin 5), let c := s.crn.chans[ch]
    let serves (op : Nat) : Prop := s.sys.mode ≠ .reset ∧ s.sys.mode ≠ .dormant ∧ c.go = true ∧ c.busy = false ∧ c.op.toNat = op
    let ended (code : Nat) (s' : State) : Prop := s'.crn.chans[ch] = { c with go := false, busy := false, code := BitVec.ofNat 8 code, detail := 0, words := 0 }
    let only (s' : State) : Prop := { s' with crn := s.crn } = s
    let len := c.args[(3 : Fin 4)].toNat
    let held (ws : List Word) (bs : List Byte) : Prop := c.bulk = true → (wordsBytes ws).take bs.length = bs ∧ ∀ x ∈ (wordsBytes ws).drop bs.length, x = 0xff
    (∀ i op, (i = .fwWrite ch ∧ op = 4) ∨ (i = .enrollOwner ch ∧ op = 7) ∨ (i = .transferOwner ch ∧ op = 8) → serves op → s.sys.mode ≠ .service → RunsTo i s fun s' => ended 1 s' ∧ only s') ∧
    (serves 4 → s.sys.mode = .service →
      let k : Fin 2 := if s.sys.fwCopy then 0 else 1
      (s.bufferOk ch c = false → RunsTo (.fwWrite ch) s fun s' => ended 2 s' ∧ only s') ∧
      (s.bufferOk ch c = true → RunsTo (.fwWrite ch) s fun s' =>
        s'.crn.chans[ch].go = false ∧ s'.sys.fw[1 - k] = s.sys.fw[1 - k] ∧ s'.sys.fwFloor = s.sys.fwFloor ∧ s'.mem = s.mem ∧
          (let ws := s'.sys.fw[k].words
           let n := Config.fwSerial ws
           (s'.crn.chans[ch].code = 5 ∧ s'.sys.fwPref = 1 - k) ∨
             (held ws (s.bufferBytes c) ∧
               ((ended 4 s' ∧ s'.sys.fwPref = 1 - k ∧ Config.fwVerifies ws = false) ∨
                 (ended 10 s' ∧ s'.sys.fwPref = 1 - k ∧ Config.fwVerifies ws = true ∧ n.toNat < s.sys.fwFloor.toNat) ∨
                 (ended 0 s' ∧ s'.sys.fwPref = k ∧ Config.fwVerifies ws = true ∧ s.sys.fwFloor.toNat ≤ n.toNat)))))) ∧
    (serves 5 → let k : Fin 2 := if c.args[(0 : Fin 4)].getLsbD 0 then 1 else 0
      let off := if c.bulk then 0 else c.args[(2 : Fin 4)].toNat
      let busy : Prop := (s.grn.active ≠ none ∧ s.grn.slot = k) ∨ ∃ r, s.grn.req = some r ∧ r.slot = k
      (s.sys.mode ≠ .service → s.sys.mode ≠ .run → RunsTo (.slotWrite ch) s fun s' => ended 1 s' ∧ only s') ∧
      (s.sys.mode = .service ∨ s.sys.mode = .run →
        (s.bufferOk ch c = false ∨ 2 ^ 22 < off + len → RunsTo (.slotWrite ch) s fun s' => ended 2 s' ∧ only s') ∧
        (s.bufferOk ch c = true → off + len ≤ 2 ^ 22 → busy → RunsTo (.slotWrite ch) s fun s' => ended 7 s' ∧ only s') ∧
        (s.bufferOk ch c = true → off + len ≤ 2 ^ 22 → ¬ busy → RunsTo (.slotWrite ch) s fun s' =>
          s'.grn.slots[1 - k] = s.grn.slots[1 - k] ∧ s'.grn = { s.grn with slots := s'.grn.slots } ∧ s'.mem = s.mem ∧
            (s'.crn.chans[ch].code = 5 ∨ (ended 0 s' ∧ held s'.grn.slots[k] (s.bufferBytes c)))))) ∧
    (serves 7 → s.sys.mode = .service → let key := s.bufferBytes c
      (s.grn.owner ≠ none → RunsTo (.enrollOwner ch) s fun s' => ended 6 s' ∧ only s') ∧
      (s.grn.owner = none →
        (s.bufferOk ch c = false ∨ len ≠ 96 → RunsTo (.enrollOwner ch) s fun s' => ended 2 s' ∧ only s') ∧
        (s.bufferOk ch c = true → len = 96 → Config.keyValid key = false → RunsTo (.enrollOwner ch) s fun s' => ended 4 s' ∧ only s') ∧
        (s.bufferOk ch c = true → len = 96 → Config.keyValid key = true → RunsTo (.enrollOwner ch) s fun s' =>
          ended 0 s' ∧ s'.grn = { s.grn with owner := some key } ∧ (s.ring.journal.length < 7680 → ∃ i, s'.ring.unsigned = s.ring.unsigned ++ [i] ∧ i.typ = 0xa3 ∧
            i.covered = [3, 0, s.ring.tick, (Config.sha384 key).headD 0, 0]) ∧ { s' with crn := s.crn, grn := s.grn, ring := s.ring, hwd := s.hwd } = s))) ∧
    (serves 8 → s.sys.mode = .service → s.bufferOk ch c = true → let rc := s.bufferBytes c
      (s.grn.owner = none → RunsTo (.transferOwner ch) s fun s' => ended 4 s' ∧ only s') ∧
      ∀ old, s.grn.owner = some old →
        (Config.transferVerifies old rc = false → RunsTo (.transferOwner ch) s fun s' => ended 4 s' ∧ only s') ∧
        (Config.transferVerifies old rc = true → RunsTo (.transferOwner ch) s fun s' =>
          ended 0 s' ∧ s'.grn.owner = some (Config.transferKey rc) ∧ (∀ k : Fin 2, s'.slotEmpty k = true) ∧ { s' with crn := s.crn, grn := s.grn, ring := s.ring, hwd := s.hwd } = s))

/-! ### Reset and memory -/

/-- State.reset is the machine after power-on: mode RESET at PL3, every command queue, bough, queue and port empty, no image active, no memory
listed, and the registers whose Reset column is not 0 at that column; its memory is in canonical form (R282, R312, R332, R387-R389, R441, R457,
R485, R514, R520, R522, R536). -/
def Obligations.ResetState : Prop :=
  let s := State.reset
  s.sys.mode = .reset ∧ s.pwr.level = 3 ∧ s.pwr.req = 3 ∧ s.pwr.hotC = 95 ∧ s.pwr.powerW = 250 ∧ s.grn.active = none ∧ s.pending = [] ∧ s.links = [] ∧ s.txns = [] ∧ s.filters = [] ∧
    s.mem.cells = [] ∧ s.mem.wf = true ∧ s.scrubHours = 24 ∧ s.sweepEn = true ∧ s.repairEn = true ∧ s.paceUs = 100 ∧ s.crn.period = 1000 ∧ s.ring.backlogSlots = 3840 ∧ s.hwd.measIndex = 1 ∧
    (∀ b : BoughId, let y := s.bough b
      y.twig.run = .stopped ∧ y.twig.pc = 0 ∧ y.twig.vcsr = 0 ∧ y.twig.tsbp = 0 ∧ y.twig.vl = 0 ∧ (∀ r : GReg, y.twig.reg r = 0) ∧ y.iq = [] ∧ y.freeze = false ∧ ∀ h : Fin 2, (s.half b h).st = .free) ∧
    (∀ p : PlotId, s.plots[p].st = .undefined ∧ s.plots[p].grace = 1000 ∧ s.plots[p].duty = 64 ∧ s.plots[p].limitMw = 0) ∧
    (∀ n : PortId, s.ports[n].linkUp = false ∧ s.ports[n].winEn = true ∧ s.ports[n].sizeLog2 = 30 ∧ s.grafts[n].st = .off) ∧
    ∀ q : QueueId, s.queues[q].pending = [] ∧ s.queues[q].prod = none ∧ s.queues[q].cons = none

/-- The memory keeps its canonical form: from every state whose memory has it, whatever command is at the front, a step leaves a memory that has it
(the form is the model's own; log entry 3). A command that finds nothing to act on leaves the state as it is: the model's choice (log entry 1). -/
def Obligations.MemoryStaysCanonical : Prop :=
 ∀ s s' : State, s.mem.wf = true → step s = .next s' → s'.mem.wf = true
end

