-- ==== Sys2Proof/Laws/Memory.lean ====
section
/-! SUPPORT. The byte store: what a read gives after each memory operation, and that every memory operation keeps the canonical form
`Memory.wf`. -/

namespace Sys2Proof.Machine

/-! ### Strictly rising lists -/

theorem rising_cons (a : Nat) (l : List Nat) : rising (a :: l) = true ↔ (∀ x ∈ l.head?, a < x) ∧ rising l = true := by
  cases l <;> simp [rising]

theorem rising_iff_pairwise (l : List Nat) : rising l = true ↔ l.Pairwise (· < ·) := by
  induction l with
  | nil => simp [rising]
  | cons a l ih =>
    rw [rising_cons, ih, List.pairwise_cons]
    constructor
    · rintro ⟨h1, h2⟩
      refine ⟨fun x hx => ?_, h2⟩
      cases l with
      | nil => simp at hx
      | cons b l =>
        have hb : a < b := h1 b (by simp)
        rcases List.mem_cons.mp hx with rfl | hx
        · exact hb
        · exact Nat.lt_trans hb ((List.pairwise_cons.mp h2).1 x hx)
    · rintro ⟨h1, h2⟩
      refine ⟨fun x hx => h1 x ?_, h2⟩
      cases l with
      | nil => simp at hx
      | cons b l => simp at hx; simp [hx]

theorem mem_insertNat (z x : Nat) (l : List Nat) : x ∈ insertNat z l ↔ x = z ∨ x ∈ l := by
  induction l with
  | nil => simp [insertNat]
  | cons a l ih => simp only [insertNat]; split_ifs <;> simp_all <;> grind

theorem rising_insertNat (z : Nat) (l : List Nat) (h : rising l = true) : rising (insertNat z l) = true := by
  rw [rising_iff_pairwise] at *
  induction l with
  | nil => simp [insertNat]
  | cons a l ih =>
    have h' := List.pairwise_cons.mp h
    simp only [insertNat]
    split_ifs with h1 h2
    · exact List.pairwise_cons.mpr ⟨fun x hx => by
        rcases List.mem_cons.mp hx with rfl | hx
        · exact h1
        · exact Nat.lt_trans h1 (h'.1 x hx), h⟩
    · exact h
    · refine List.pairwise_cons.mpr ⟨fun x hx => ?_, ih h'.2⟩
      rcases (mem_insertNat z x l).mp hx with rfl | hx
      · omega
      · exact h'.1 x hx

theorem rising_filter (p : Nat → Bool) (l : List Nat) (h : rising l = true) : rising (l.filter p) = true := by
  rw [rising_iff_pairwise] at *
  exact h.filter p

/-- Keys of a filtered association list rise when the keys of the list do. -/
theorem rising_keys_filter {β : Type} (p : Nat × β → Bool) (l : List (Nat × β)) (h : rising (l.map (·.1)) = true) :
    rising ((l.filter p).map (·.1)) = true := by
  rw [rising_iff_pairwise] at *
  exact h.sublist (List.Sublist.map _ List.filter_sublist)

theorem keys_insertCell (a : Nat) (b : Byte) (l : List Host.Cell) : (insertCell a b l).map (·.1) = insertNat a (l.map (·.1)) := by
  induction l with
  | nil => rfl
  | cons c l ih => simp only [insertCell, List.map_cons, insertNat]; split_ifs <;> simp_all

theorem keys_insertMark (w : Nat) (k : Mark) (l : List (Nat × Mark)) : (insertMark w k l).map (·.1) = insertNat w (l.map (·.1)) := by
  induction l with
  | nil => rfl
  | cons c l ih => simp only [insertMark, List.map_cons, insertNat]; split_ifs <;> simp_all

theorem mem_insertCell (a : Nat) (b : Byte) (c : Host.Cell) (l : List Host.Cell) (h : c ∈ insertCell a b l) : c = (a, b) ∨ c ∈ l := by
  induction l with
  | nil => simp_all [insertCell]
  | cons d l ih => simp only [insertCell] at h; split_ifs at h <;> simp_all <;> grind

/-! ### The canonical form -/

theorem Memory.wf_iff (m : Memory) : m.wf = true ↔
    rising (m.cells.map (·.1)) = true ∧ (∀ c ∈ m.cells, ¬ (m.isZeroed (zoneOf c.1) = true ∧ c.2 = 0)) ∧ rising m.zeroed = true ∧
      rising (m.marks.map (·.1)) = true ∧ rising m.dead = true := by
  simp only [Memory.wf, Bool.and_eq_true, and_assoc, List.all_eq_true, Bool.not_eq_true', Bool.and_eq_false_iff, beq_eq_false_iff_ne]
  grind

theorem Memory.init_wf : Memory.init.wf = true := rfl

theorem Memory.put_wf {m : Memory} (h : m.wf = true) (a : Nat) (b : Byte) : (m.put a b).wf = true := by
  obtain ⟨h1, h2, h3, h4, h5⟩ := m.wf_iff.mp h
  unfold Memory.put
  split_ifs with hz
  · exact (Memory.wf_iff _).mpr ⟨rising_keys_filter _ _ h1, fun c hc => h2 c (List.mem_of_mem_filter hc), h3, h4, h5⟩
  · refine (Memory.wf_iff _).mpr ⟨by rw [keys_insertCell]; exact rising_insertNat _ _ h1, fun c hc => ?_, h3, h4, h5⟩
    rcases mem_insertCell a b c _ hc with rfl | hc
    · show ¬ (m.isZeroed (zoneOf a) = true ∧ b = 0)
      simpa using hz
    · exact h2 c hc

theorem Memory.putAll_wf (bs : List (Nat × Byte)) {m : Memory} (h : m.wf = true) : (m.putAll bs).wf = true := by
  induction bs generalizing m with
  | nil => exact h
  | cons c bs ih => exact ih (Memory.put_wf h c.1 c.2)

theorem Memory.setMark_wf {m : Memory} (h : m.wf = true) (w : Nat) (k : Option Mark) : (m.setMark w k).wf = true := by
  obtain ⟨h1, h2, h3, h4, h5⟩ := m.wf_iff.mp h
  cases k with
  | none => exact (Memory.wf_iff _).mpr ⟨h1, h2, h3, rising_keys_filter _ _ h4, h5⟩
  | some k => exact (Memory.wf_iff _).mpr ⟨h1, h2, h3, by show rising ((insertMark w k m.marks).map (·.1)) = true; rw [keys_insertMark]; exact rising_insertNat _ _ h4, h5⟩

theorem Memory.materialise_wf {m : Memory} (h : m.wf = true) (w : Nat) : (m.materialise w).wf = true := by
  unfold Memory.materialise
  split_ifs
  · exact h
  · exact Memory.putAll_wf _ h

theorem Memory.writeWord_wf {m : Memory} (h : m.wf = true) (w : Nat) (bs : List (Nat × Byte)) : (m.writeWord w bs).wf = true := by
  unfold Memory.writeWord
  split_ifs
  · exact Memory.setMark_wf (Memory.putAll_wf _ h) _ _
  all_goals exact Memory.setMark_wf (Memory.putAll_wf _ (Memory.materialise_wf h _)) _ _

/-- A fold of operations that keep the form keeps it. -/
theorem Memory.foldl_wf {α : Type} (f : Memory → α → Memory) (hf : ∀ m a, m.wf = true → (f m a).wf = true) (l : List α) {m : Memory}
    (h : m.wf = true) : (l.foldl f m).wf = true := by
  induction l generalizing m with
  | nil => exact h
  | cons a l ih => exact ih (hf m a h)

theorem Memory.write_wf {m : Memory} (h : m.wf = true) (bs : List (Nat × Byte)) : (m.write bs).wf = true :=
  Memory.foldl_wf _ (fun m w hm => by split_ifs; exacts [hm, Memory.writeWord_wf hm _ _]) _ h

theorem Memory.zeroZone_wf {m : Memory} (h : m.wf = true) (z : Nat) : (m.zeroZone z).wf = true := by
  obtain ⟨h1, h2, h3, h4, h5⟩ := m.wf_iff.mp h
  refine (Memory.wf_iff _).mpr ⟨rising_keys_filter _ _ h1, fun c hc => ?_, rising_insertNat _ _ h3, rising_keys_filter _ _ h4, h5⟩
  have hc' := List.mem_filter.mp hc
  have hz : zoneOf c.1 ≠ z := by simpa using hc'.2
  have := h2 c hc'.1
  simpa [Memory.isZeroed, Memory.zeroZone, mem_insertNat, hz] using this

theorem Memory.lose_wf {m : Memory} (h : m.wf = true) (p : Nat → Bool) : (m.lose p).wf = true := by
  obtain ⟨h1, h2, h3, h4, h5⟩ := m.wf_iff.mp h
  refine (Memory.wf_iff _).mpr ⟨rising_keys_filter _ _ h1, fun c hc => ?_, rising_filter _ _ h3, rising_keys_filter _ _ h4, h5⟩
  have hc' := List.mem_filter.mp hc
  have := h2 c hc'.1
  simp only [Memory.isZeroed, Memory.lose, List.contains_eq_mem, List.mem_filter] at *
  grind

theorem Memory.kill_wf {m : Memory} (h : m.wf = true) (g : Nat) : (m.kill g).wf = true := by
  obtain ⟨h1, h2, h3, h4, h5⟩ := m.wf_iff.mp h
  exact (Memory.wf_iff _).mpr ⟨h1, h2, h3, h4, rising_insertNat _ _ h5⟩

theorem Memory.revive_wf {m : Memory} (h : m.wf = true) (g : Nat) : (m.revive g).wf = true := by
  obtain ⟨h1, h2, h3, h4, h5⟩ := m.wf_iff.mp h
  exact (Memory.wf_iff _).mpr ⟨h1, h2, h3, h4, rising_filter _ _ h5⟩

/-- Dead rows are forgotten with the arrays that they lie in. -/
theorem Memory.noDead_wf {m : Memory} (h : m.wf = true) : ({ m with dead := [] } : Memory).wf = true := by
  obtain ⟨h1, h2, h3, h4, -⟩ := m.wf_iff.mp h
  exact (Memory.wf_iff _).mpr ⟨h1, h2, h3, h4, rfl⟩

theorem Memory.scrubWord_wf {m : Memory} (h : m.wf = true) (w : Nat) : (m.scrubWord w).wf = true := by
  unfold Memory.scrubWord
  split
  · exact Memory.setMark_wf (Memory.materialise_wf h _) _ _
  · exact Memory.setMark_wf (Memory.materialise_wf h _) _ _
  · exact h

theorem Memory.writeLine_wf {m : Memory} (h : m.wf = true) (a : Nat) (bs : List (Nat × Byte)) : (m.writeLine a bs).wf = true := by
  unfold Memory.writeLine
  refine Memory.foldl_wf _ (fun m i hm => Memory.setMark_wf hm _ _) _ (Memory.putAll_wf _ ?_)
  split_ifs
  · exact h
  · exact Memory.foldl_wf _ (fun m i hm => Memory.materialise_wf hm _) _ h

/-- Counting the errors of a program line changes no memory. -/
@[simp] theorem State.countLine_mem (s : State) (g : GroveId) (a : Nat) : (s.countLine g a).mem = s.mem := by
  unfold State.countLine
  split_ifs <;> rfl

theorem State.writeLines_wf {s : State} (h : s.mem.wf = true) (g : GroveId) (bs : List (Nat × Byte)) : (s.writeLines g bs).mem.wf = true := by
  unfold State.writeLines
  induction (bs.map fun c => c.1 / 32).eraseDups generalizing s with
  | nil => exact h
  | cons l ls ih =>
    refine ih (Memory.writeLine_wf ?_ _ _)
    split_ifs
    · exact (State.countLine_mem s g (32 * l)).symm ▸ h
    · exact h

theorem Memory.writeRegion_wf {m : Memory} (h : m.wf = true) (g base units : Nat) (ws : List (BitVec 16)) : (m.writeRegion g base units ws).wf = true :=
  Memory.putAll_wf _ (Memory.foldl_wf _ (fun _ _ hm => Memory.zeroZone_wf hm _) _ h)

theorem Memory.remap_wf {m : Memory} (h : m.wf = true) (lin : Bool) : (m.remap lin).wf = true := by
  obtain ⟨-, -, h3, -, h5⟩ := m.wf_iff.mp h
  refine Memory.foldl_wf _ (fun _ _ hm => Memory.setMark_wf hm _ _) _ (Memory.foldl_wf _ (fun _ _ hm => Memory.put_wf hm _ _) _ ?_)
  exact (Memory.wf_iff _).mpr ⟨rfl, by simp, h3, rfl, h5⟩

/-! ### Reads after writes -/

theorem find_insertCell (a x : Nat) (b : Byte) (l : List Host.Cell) (h : rising (l.map (·.1)) = true) :
    (insertCell a b l).find? (fun c => c.1 = x) = if x = a then some (a, b) else l.find? fun c => c.1 = x := by
  rw [rising_iff_pairwise] at h
  induction l with
  | nil => by_cases hx : x = a <;> simp [insertCell, hx, eq_comm]
  | cons c l ih =>
    have h' := List.pairwise_cons.mp h
    have ih := ih h'.2
    simp only [insertCell]
    split_ifs with h1 h2 h3 h4 h5 <;> simp_all [List.find?_cons] <;> grind

theorem Memory.read_eq (m : Memory) (x : Nat) : m.read x =
    ((m.cells.find? fun c => decide (c.1 = x)).map (·.2)).getD (if m.zeroed.contains (zoneOf x) then 0 else Config.freeByte (if x < rootSize then m.epoch else m.coreEpoch) x) := rfl

/-- A read of the byte just written gives it; every other byte reads as before. -/
theorem Memory.read_put {m : Memory} (h : m.wf = true) (a x : Nat) (b : Byte) : (m.put a b).read x = if x = a then b else m.read x := by
  have h1 := (m.wf_iff.mp h).1
  unfold Memory.put
  split_ifs with hz hx hx
  · subst hx
    have hz' : m.zeroed.contains (zoneOf x) = true ∧ b = 0 := by simpa [Memory.isZeroed] using hz
    have hn : (eraseCell x m.cells).find? (fun c => decide (c.1 = x)) = none := by simp [eraseCell]
    rw [Memory.read_eq]
    simp only [hn, hz'.1, hz'.2]
    rfl
  · have hn : (eraseCell a m.cells).find? (fun c => decide (c.1 = x)) = m.cells.find? fun c => decide (c.1 = x) := by
      unfold eraseCell
      rw [List.find?_filter]
      congr 1
      funext c
      by_cases hc : c.1 = x <;> simp [hc, hx]
    rw [Memory.read_eq, Memory.read_eq]
    simp only [hn]
  · rw [Memory.read_eq]
    simp only [find_insertCell a x b _ h1, if_pos hx]
    rfl
  · rw [Memory.read_eq, Memory.read_eq]
    simp only [find_insertCell a x b _ h1, if_neg hx]

/-- Marks are no part of what a byte reads as. -/
@[simp] theorem Memory.read_setMark (m : Memory) (w : Nat) (k : Option Mark) (x : Nat) : (m.setMark w k).read x = m.read x := by
  cases k <;> rfl

@[simp] theorem Memory.read_kill (m : Memory) (g x : Nat) : (m.kill g).read x = m.read x := rfl
@[simp] theorem Memory.read_revive (m : Memory) (g x : Nat) : (m.revive g).read x = m.read x := rfl

/-- Every byte of a zone that was made 0 reads 0. -/
theorem Memory.read_zeroZone_self (m : Memory) (z x : Nat) (h : zoneOf x = z) : (m.zeroZone z).read x = 0 := by
  have h1 : (m.cells.filter fun c => decide (zoneOf c.1 ≠ z)).find? (fun c => decide (c.1 = x)) = none := by
    rw [List.find?_eq_none]
    intro c hc hx
    have := (List.mem_filter.mp hc).2
    simp_all
  have h2 : (insertNat z m.zeroed).contains (zoneOf x) = true := by simp [mem_insertNat, h]
  rw [Memory.read_eq]
  simp only [Memory.zeroZone, h1, h2]
  rfl

/-- Bytes of other zones read as before. -/
theorem Memory.read_zeroZone_other (m : Memory) (z x : Nat) (h : zoneOf x ≠ z) : (m.zeroZone z).read x = m.read x := by
  have h1 : (m.cells.filter fun c => decide (zoneOf c.1 ≠ z)).find? (fun c => decide (c.1 = x)) = m.cells.find? fun c => decide (c.1 = x) := by
    rw [List.find?_filter]
    congr 1
    funext c
    by_cases hc : c.1 = x <;> simp [hc, h]
  have h2 : (insertNat z m.zeroed).contains (zoneOf x) = m.zeroed.contains (zoneOf x) := by simp [mem_insertNat, h]
  rw [Memory.read_eq, Memory.read_eq]
  simp only [Memory.zeroZone, h1, h2]

/-- Materialising a word changes no byte. -/
theorem Memory.read_materialise {m : Memory} (h : m.wf = true) (w x : Nat) : (m.materialise w).read x = m.read x := by
  unfold Memory.materialise
  split_ifs
  · rfl
  · have key : ∀ (l : List Nat) (k : Memory), k.wf = true → (∀ y, k.read y = m.read y) →
        (k.putAll (l.map fun i => (8 * w + i, m.read (8 * w + i)))).read x = m.read x := by
      intro l
      induction l with
      | nil => intro k _ hr; exact hr x
      | cons i l ih =>
        intro k hk hr
        refine ih (k.put _ _) (Memory.put_wf hk _ _) fun y => ?_
        rw [Memory.read_put hk]
        split_ifs with hy
        · rw [hy]
        · exact hr y
    exact key _ m h fun _ => rfl

/-- Reading back a list of bytes that was put: the last byte given for an address, and every other address as before. -/
theorem Memory.read_putAll {m : Memory} (h : m.wf = true) (bs : List (Nat × Byte)) (x : Nat) :
    (m.putAll bs).read x = ((bs.reverse.find? fun c => c.1 = x).map (·.2)).getD (m.read x) := by
  induction bs generalizing m with
  | nil => rfl
  | cons c bs ih =>
    have := ih (Memory.put_wf h c.1 c.2)
    show ((m.put c.1 c.2).putAll bs).read x = _
    rw [this, Memory.read_put h, List.reverse_cons, List.find?_append]
    cases hf : bs.reverse.find? fun c => decide (c.1 = x) with
    | some d => simp
    | none =>
      by_cases hx : c.1 = x
      · simp [hx]
      · simp [hx, Ne.symm hx]

end Sys2Proof.Machine
end

