-- ==== Sys2Proof/Laws/State.lean ====
section
/-! SUPPORT. What each small update of State changes and what it leaves, one lemma per field, so that no proof unfolds a record update; and how
the vectors of State read after an update. -/

namespace Sys2Proof.Machine

/-! ### Vectors -/

section vectors

variable {α : Type} {n : Nat}

/-- In the form that `simp` gives an index: its number. -/
theorem vset_getElem (v : Vector α n) (i : Fin n) (x : α) (j : Nat) (h : j < n) : (vset v i x)[j] = if j = i.val then x else v[j] := by
  by_cases e : j = i.val
  · subst e; simp [vset]
  · rw [if_neg e]; exact Vector.getElem_set_ne _ _ fun h => e h.symm

theorem vmod_getElem (v : Vector α n) (i : Fin n) (f : α → α) (j : Nat) (h : j < n) : (vmod v i f)[j] = if j = i.val then f v[i] else v[j] :=
  vset_getElem v i (f v[i]) j h

theorem vset_get (v : Vector α n) (i j : Fin n) (x : α) : (vset v i x)[j] = if j = i then x else v[j] := by
  by_cases e : j = i
  · rw [if_pos e, e]; exact (vset_getElem v i x i.val i.isLt).trans (if_pos rfl)
  · rw [if_neg e]; exact (vset_getElem v i x j.val j.isLt).trans (if_neg fun h => e (Fin.ext h))

theorem vmod_get (v : Vector α n) (i j : Fin n) (f : α → α) : (vmod v i f)[j] = if j = i then f v[i] else v[j] := vset_get v i j (f v[i])

@[simp] theorem vset_getElem_self (v : Vector α n) (i : Fin n) (x : α) : (vset v i x)[i.val] = x := by simp [vset_getElem]
@[simp] theorem vmod_getElem_self (v : Vector α n) (i : Fin n) (f : α → α) : (vmod v i f)[i.val] = f v[i] := by simp [vmod_getElem]
theorem vset_get_self (v : Vector α n) (i : Fin n) (x : α) : (vset v i x)[i] = x := vset_getElem_self v i x
theorem vmod_get_self (v : Vector α n) (i : Fin n) (f : α → α) : (vmod v i f)[i] = f v[i] := vmod_getElem_self v i f
theorem vset_get_ne (v : Vector α n) {i j : Fin n} (x : α) (h : j ≠ i) : (vset v i x)[j] = v[j] := (vset_get v i j x).trans (if_neg h)
theorem vmod_get_ne (v : Vector α n) {i j : Fin n} (f : α → α) (h : j ≠ i) : (vmod v i f)[j] = v[j] := vset_get_ne v _ h

/-- Writing back what an entry held before undoes an update. -/
@[simp] theorem vset_vset (v : Vector α n) (i : Fin n) (x y : α) : vset (vset v i x) i y = vset v i y := by
  ext j hj
  simp only [vset_getElem]
  split_ifs <;> rfl

@[simp] theorem vset_same (v : Vector α n) (i : Fin n) : vset v i v[i.val] = v := by
  ext j hj
  simp only [vset_getElem]
  split_ifs with h
  · simp [h]
  · rfl

end vectors

section updates

variable (s : State)

/-! ### setBough -/

@[simp] theorem State.setBough_boughs (b : BoughId) (x : Bough) : (s.setBough b x).boughs = vset s.boughs b x := rfl
@[simp] theorem State.setBough_pending (b : BoughId) (x : Bough) : (s.setBough b x).pending = s.pending := rfl
@[simp] theorem State.setBough_mem (b : BoughId) (x : Bough) : (s.setBough b x).mem = s.mem := rfl
@[simp] theorem State.setBough_groves (b : BoughId) (x : Bough) : (s.setBough b x).groves = s.groves := rfl
@[simp] theorem State.setBough_queues (b : BoughId) (x : Bough) : (s.setBough b x).queues = s.queues := rfl
@[simp] theorem State.setBough_links (b : BoughId) (x : Bough) : (s.setBough b x).links = s.links := rfl
@[simp] theorem State.setBough_plots (b : BoughId) (x : Bough) : (s.setBough b x).plots = s.plots := rfl
@[simp] theorem State.setBough_slices (b : BoughId) (x : Bough) : (s.setBough b x).slices = s.slices := rfl
@[simp] theorem State.setBough_hbm (b : BoughId) (x : Bough) : (s.setBough b x).hbm = s.hbm := rfl
@[simp] theorem State.setBough_scr (b : BoughId) (x : Bough) : (s.setBough b x).scr = s.scr := rfl
@[simp] theorem State.setBough_cnp (b : BoughId) (x : Bough) : (s.setBough b x).cnp = s.cnp := rfl
@[simp] theorem State.setBough_filters (b : BoughId) (x : Bough) : (s.setBough b x).filters = s.filters := rfl
@[simp] theorem State.setBough_seqQ (b : BoughId) (x : Bough) : (s.setBough b x).seqQ = s.seqQ := rfl
@[simp] theorem State.setBough_heldReads (b : BoughId) (x : Bough) : (s.setBough b x).heldReads = s.heldReads := rfl
@[simp] theorem State.setBough_heldWrites (b : BoughId) (x : Bough) : (s.setBough b x).heldWrites = s.heldWrites := rfl
@[simp] theorem State.setBough_txns (b : BoughId) (x : Bough) : (s.setBough b x).txns = s.txns := rfl
@[simp] theorem State.setBough_grn (b : BoughId) (x : Bough) : (s.setBough b x).grn = s.grn := rfl
@[simp] theorem State.setBough_ring (b : BoughId) (x : Bough) : (s.setBough b x).ring = s.ring := rfl
@[simp] theorem State.setBough_hwd (b : BoughId) (x : Bough) : (s.setBough b x).hwd = s.hwd := rfl
@[simp] theorem State.setBough_ports (b : BoughId) (x : Bough) : (s.setBough b x).ports = s.ports := rfl
@[simp] theorem State.setBough_vfs (b : BoughId) (x : Bough) : (s.setBough b x).vfs = s.vfs := rfl
@[simp] theorem State.setBough_grafts (b : BoughId) (x : Bough) : (s.setBough b x).grafts = s.grafts := rfl
@[simp] theorem State.setBough_pwr (b : BoughId) (x : Bough) : (s.setBough b x).pwr = s.pwr := rfl
@[simp] theorem State.setBough_sys (b : BoughId) (x : Bough) : (s.setBough b x).sys = s.sys := rfl
@[simp] theorem State.setBough_crn (b : BoughId) (x : Bough) : (s.setBough b x).crn = s.crn := rfl
@[simp] theorem State.setBough_rootLinear (b : BoughId) (x : Bough) : (s.setBough b x).rootLinear = s.rootLinear := rfl
@[simp] theorem State.setBough_refresh2x (b : BoughId) (x : Bough) : (s.setBough b x).refresh2x = s.refresh2x := rfl
@[simp] theorem State.setBough_scrubHours (b : BoughId) (x : Bough) : (s.setBough b x).scrubHours = s.scrubHours := rfl
@[simp] theorem State.setBough_linearInForce (b : BoughId) (x : Bough) : (s.setBough b x).linearInForce = s.linearInForce := rfl
@[simp] theorem State.setBough_sweepEn (b : BoughId) (x : Bough) : (s.setBough b x).sweepEn = s.sweepEn := rfl
@[simp] theorem State.setBough_repairEn (b : BoughId) (x : Bough) : (s.setBough b x).repairEn = s.repairEn := rfl
@[simp] theorem State.setBough_paceUs (b : BoughId) (x : Bough) : (s.setBough b x).paceUs = s.paceUs := rfl
@[simp] theorem State.setBough_scrSel (b : BoughId) (x : Bough) : (s.setBough b x).scrSel = s.scrSel := rfl
@[simp] theorem State.setBough_crownEvts (b : BoughId) (x : Bough) : (s.setBough b x).crownEvts = s.crownEvts := rfl
@[simp] theorem State.setBough_outbox (b : BoughId) (x : Bough) : (s.setBough b x).outbox = s.outbox := rfl
@[simp] theorem State.setBough_nextId (b : BoughId) (x : Bough) : (s.setBough b x).nextId = s.nextId := rfl
@[simp] theorem State.setBough_fresh (b : BoughId) (x : Bough) : (s.setBough b x).fresh = s.fresh := rfl
@[simp] theorem State.setBough_turn (b : BoughId) (x : Bough) : (s.setBough b x).turn = s.turn := rfl

/-! ### modBough -/

@[simp] theorem State.modBough_boughs (b : BoughId) (f : Bough → Bough) : (s.modBough b f).boughs = vset s.boughs b (f (s.bough b)) := rfl
@[simp] theorem State.modBough_pending (b : BoughId) (f : Bough → Bough) : (s.modBough b f).pending = s.pending := rfl
@[simp] theorem State.modBough_mem (b : BoughId) (f : Bough → Bough) : (s.modBough b f).mem = s.mem := rfl
@[simp] theorem State.modBough_groves (b : BoughId) (f : Bough → Bough) : (s.modBough b f).groves = s.groves := rfl
@[simp] theorem State.modBough_queues (b : BoughId) (f : Bough → Bough) : (s.modBough b f).queues = s.queues := rfl
@[simp] theorem State.modBough_links (b : BoughId) (f : Bough → Bough) : (s.modBough b f).links = s.links := rfl
@[simp] theorem State.modBough_plots (b : BoughId) (f : Bough → Bough) : (s.modBough b f).plots = s.plots := rfl
@[simp] theorem State.modBough_slices (b : BoughId) (f : Bough → Bough) : (s.modBough b f).slices = s.slices := rfl
@[simp] theorem State.modBough_hbm (b : BoughId) (f : Bough → Bough) : (s.modBough b f).hbm = s.hbm := rfl
@[simp] theorem State.modBough_scr (b : BoughId) (f : Bough → Bough) : (s.modBough b f).scr = s.scr := rfl
@[simp] theorem State.modBough_cnp (b : BoughId) (f : Bough → Bough) : (s.modBough b f).cnp = s.cnp := rfl
@[simp] theorem State.modBough_filters (b : BoughId) (f : Bough → Bough) : (s.modBough b f).filters = s.filters := rfl
@[simp] theorem State.modBough_seqQ (b : BoughId) (f : Bough → Bough) : (s.modBough b f).seqQ = s.seqQ := rfl
@[simp] theorem State.modBough_heldReads (b : BoughId) (f : Bough → Bough) : (s.modBough b f).heldReads = s.heldReads := rfl
@[simp] theorem State.modBough_heldWrites (b : BoughId) (f : Bough → Bough) : (s.modBough b f).heldWrites = s.heldWrites := rfl
@[simp] theorem State.modBough_txns (b : BoughId) (f : Bough → Bough) : (s.modBough b f).txns = s.txns := rfl
@[simp] theorem State.modBough_grn (b : BoughId) (f : Bough → Bough) : (s.modBough b f).grn = s.grn := rfl
@[simp] theorem State.modBough_ring (b : BoughId) (f : Bough → Bough) : (s.modBough b f).ring = s.ring := rfl
@[simp] theorem State.modBough_hwd (b : BoughId) (f : Bough → Bough) : (s.modBough b f).hwd = s.hwd := rfl
@[simp] theorem State.modBough_ports (b : BoughId) (f : Bough → Bough) : (s.modBough b f).ports = s.ports := rfl
@[simp] theorem State.modBough_vfs (b : BoughId) (f : Bough → Bough) : (s.modBough b f).vfs = s.vfs := rfl
@[simp] theorem State.modBough_grafts (b : BoughId) (f : Bough → Bough) : (s.modBough b f).grafts = s.grafts := rfl
@[simp] theorem State.modBough_pwr (b : BoughId) (f : Bough → Bough) : (s.modBough b f).pwr = s.pwr := rfl
@[simp] theorem State.modBough_sys (b : BoughId) (f : Bough → Bough) : (s.modBough b f).sys = s.sys := rfl
@[simp] theorem State.modBough_crn (b : BoughId) (f : Bough → Bough) : (s.modBough b f).crn = s.crn := rfl
@[simp] theorem State.modBough_rootLinear (b : BoughId) (f : Bough → Bough) : (s.modBough b f).rootLinear = s.rootLinear := rfl
@[simp] theorem State.modBough_refresh2x (b : BoughId) (f : Bough → Bough) : (s.modBough b f).refresh2x = s.refresh2x := rfl
@[simp] theorem State.modBough_scrubHours (b : BoughId) (f : Bough → Bough) : (s.modBough b f).scrubHours = s.scrubHours := rfl
@[simp] theorem State.modBough_linearInForce (b : BoughId) (f : Bough → Bough) : (s.modBough b f).linearInForce = s.linearInForce := rfl
@[simp] theorem State.modBough_sweepEn (b : BoughId) (f : Bough → Bough) : (s.modBough b f).sweepEn = s.sweepEn := rfl
@[simp] theorem State.modBough_repairEn (b : BoughId) (f : Bough → Bough) : (s.modBough b f).repairEn = s.repairEn := rfl
@[simp] theorem State.modBough_paceUs (b : BoughId) (f : Bough → Bough) : (s.modBough b f).paceUs = s.paceUs := rfl
@[simp] theorem State.modBough_scrSel (b : BoughId) (f : Bough → Bough) : (s.modBough b f).scrSel = s.scrSel := rfl
@[simp] theorem State.modBough_crownEvts (b : BoughId) (f : Bough → Bough) : (s.modBough b f).crownEvts = s.crownEvts := rfl
@[simp] theorem State.modBough_outbox (b : BoughId) (f : Bough → Bough) : (s.modBough b f).outbox = s.outbox := rfl
@[simp] theorem State.modBough_nextId (b : BoughId) (f : Bough → Bough) : (s.modBough b f).nextId = s.nextId := rfl
@[simp] theorem State.modBough_fresh (b : BoughId) (f : Bough → Bough) : (s.modBough b f).fresh = s.fresh := rfl
@[simp] theorem State.modBough_turn (b : BoughId) (f : Bough → Bough) : (s.modBough b f).turn = s.turn := rfl

/-! ### setTwig -/

@[simp] theorem State.setTwig_pending (t : TwigId) (x : Twig) : (s.setTwig t x).pending = s.pending := by cases t <;> rfl
@[simp] theorem State.setTwig_mem (t : TwigId) (x : Twig) : (s.setTwig t x).mem = s.mem := by cases t <;> rfl
@[simp] theorem State.setTwig_groves (t : TwigId) (x : Twig) : (s.setTwig t x).groves = s.groves := by cases t <;> rfl
@[simp] theorem State.setTwig_queues (t : TwigId) (x : Twig) : (s.setTwig t x).queues = s.queues := by cases t <;> rfl
@[simp] theorem State.setTwig_links (t : TwigId) (x : Twig) : (s.setTwig t x).links = s.links := by cases t <;> rfl
@[simp] theorem State.setTwig_plots (t : TwigId) (x : Twig) : (s.setTwig t x).plots = s.plots := by cases t <;> rfl
@[simp] theorem State.setTwig_slices (t : TwigId) (x : Twig) : (s.setTwig t x).slices = s.slices := by cases t <;> rfl
@[simp] theorem State.setTwig_hbm (t : TwigId) (x : Twig) : (s.setTwig t x).hbm = s.hbm := by cases t <;> rfl
@[simp] theorem State.setTwig_scr (t : TwigId) (x : Twig) : (s.setTwig t x).scr = s.scr := by cases t <;> rfl
@[simp] theorem State.setTwig_cnp (t : TwigId) (x : Twig) : (s.setTwig t x).cnp = s.cnp := by cases t <;> rfl
@[simp] theorem State.setTwig_filters (t : TwigId) (x : Twig) : (s.setTwig t x).filters = s.filters := by cases t <;> rfl
@[simp] theorem State.setTwig_seqQ (t : TwigId) (x : Twig) : (s.setTwig t x).seqQ = s.seqQ := by cases t <;> rfl
@[simp] theorem State.setTwig_heldReads (t : TwigId) (x : Twig) : (s.setTwig t x).heldReads = s.heldReads := by cases t <;> rfl
@[simp] theorem State.setTwig_heldWrites (t : TwigId) (x : Twig) : (s.setTwig t x).heldWrites = s.heldWrites := by cases t <;> rfl
@[simp] theorem State.setTwig_txns (t : TwigId) (x : Twig) : (s.setTwig t x).txns = s.txns := by cases t <;> rfl
@[simp] theorem State.setTwig_grn (t : TwigId) (x : Twig) : (s.setTwig t x).grn = s.grn := by cases t <;> rfl
@[simp] theorem State.setTwig_ring (t : TwigId) (x : Twig) : (s.setTwig t x).ring = s.ring := by cases t <;> rfl
@[simp] theorem State.setTwig_hwd (t : TwigId) (x : Twig) : (s.setTwig t x).hwd = s.hwd := by cases t <;> rfl
@[simp] theorem State.setTwig_ports (t : TwigId) (x : Twig) : (s.setTwig t x).ports = s.ports := by cases t <;> rfl
@[simp] theorem State.setTwig_vfs (t : TwigId) (x : Twig) : (s.setTwig t x).vfs = s.vfs := by cases t <;> rfl
@[simp] theorem State.setTwig_grafts (t : TwigId) (x : Twig) : (s.setTwig t x).grafts = s.grafts := by cases t <;> rfl
@[simp] theorem State.setTwig_pwr (t : TwigId) (x : Twig) : (s.setTwig t x).pwr = s.pwr := by cases t <;> rfl
@[simp] theorem State.setTwig_sys (t : TwigId) (x : Twig) : (s.setTwig t x).sys = s.sys := by cases t <;> rfl
@[simp] theorem State.setTwig_rootLinear (t : TwigId) (x : Twig) : (s.setTwig t x).rootLinear = s.rootLinear := by cases t <;> rfl
@[simp] theorem State.setTwig_refresh2x (t : TwigId) (x : Twig) : (s.setTwig t x).refresh2x = s.refresh2x := by cases t <;> rfl
@[simp] theorem State.setTwig_scrubHours (t : TwigId) (x : Twig) : (s.setTwig t x).scrubHours = s.scrubHours := by cases t <;> rfl
@[simp] theorem State.setTwig_linearInForce (t : TwigId) (x : Twig) : (s.setTwig t x).linearInForce = s.linearInForce := by cases t <;> rfl
@[simp] theorem State.setTwig_sweepEn (t : TwigId) (x : Twig) : (s.setTwig t x).sweepEn = s.sweepEn := by cases t <;> rfl
@[simp] theorem State.setTwig_repairEn (t : TwigId) (x : Twig) : (s.setTwig t x).repairEn = s.repairEn := by cases t <;> rfl
@[simp] theorem State.setTwig_paceUs (t : TwigId) (x : Twig) : (s.setTwig t x).paceUs = s.paceUs := by cases t <;> rfl
@[simp] theorem State.setTwig_scrSel (t : TwigId) (x : Twig) : (s.setTwig t x).scrSel = s.scrSel := by cases t <;> rfl
@[simp] theorem State.setTwig_crownEvts (t : TwigId) (x : Twig) : (s.setTwig t x).crownEvts = s.crownEvts := by cases t <;> rfl
@[simp] theorem State.setTwig_outbox (t : TwigId) (x : Twig) : (s.setTwig t x).outbox = s.outbox := by cases t <;> rfl
@[simp] theorem State.setTwig_nextId (t : TwigId) (x : Twig) : (s.setTwig t x).nextId = s.nextId := by cases t <;> rfl
@[simp] theorem State.setTwig_fresh (t : TwigId) (x : Twig) : (s.setTwig t x).fresh = s.fresh := by cases t <;> rfl
@[simp] theorem State.setTwig_turn (t : TwigId) (x : Twig) : (s.setTwig t x).turn = s.turn := by cases t <;> rfl

/-! ### modTwig -/

@[simp] theorem State.modTwig_pending (t : TwigId) (f : Twig → Twig) : (s.modTwig t f).pending = s.pending := by cases t <;> rfl
@[simp] theorem State.modTwig_mem (t : TwigId) (f : Twig → Twig) : (s.modTwig t f).mem = s.mem := by cases t <;> rfl
@[simp] theorem State.modTwig_groves (t : TwigId) (f : Twig → Twig) : (s.modTwig t f).groves = s.groves := by cases t <;> rfl
@[simp] theorem State.modTwig_queues (t : TwigId) (f : Twig → Twig) : (s.modTwig t f).queues = s.queues := by cases t <;> rfl
@[simp] theorem State.modTwig_links (t : TwigId) (f : Twig → Twig) : (s.modTwig t f).links = s.links := by cases t <;> rfl
@[simp] theorem State.modTwig_plots (t : TwigId) (f : Twig → Twig) : (s.modTwig t f).plots = s.plots := by cases t <;> rfl
@[simp] theorem State.modTwig_slices (t : TwigId) (f : Twig → Twig) : (s.modTwig t f).slices = s.slices := by cases t <;> rfl
@[simp] theorem State.modTwig_hbm (t : TwigId) (f : Twig → Twig) : (s.modTwig t f).hbm = s.hbm := by cases t <;> rfl
@[simp] theorem State.modTwig_scr (t : TwigId) (f : Twig → Twig) : (s.modTwig t f).scr = s.scr := by cases t <;> rfl
@[simp] theorem State.modTwig_cnp (t : TwigId) (f : Twig → Twig) : (s.modTwig t f).cnp = s.cnp := by cases t <;> rfl
@[simp] theorem State.modTwig_filters (t : TwigId) (f : Twig → Twig) : (s.modTwig t f).filters = s.filters := by cases t <;> rfl
@[simp] theorem State.modTwig_seqQ (t : TwigId) (f : Twig → Twig) : (s.modTwig t f).seqQ = s.seqQ := by cases t <;> rfl
@[simp] theorem State.modTwig_heldReads (t : TwigId) (f : Twig → Twig) : (s.modTwig t f).heldReads = s.heldReads := by cases t <;> rfl
@[simp] theorem State.modTwig_heldWrites (t : TwigId) (f : Twig → Twig) : (s.modTwig t f).heldWrites = s.heldWrites := by cases t <;> rfl
@[simp] theorem State.modTwig_txns (t : TwigId) (f : Twig → Twig) : (s.modTwig t f).txns = s.txns := by cases t <;> rfl
@[simp] theorem State.modTwig_grn (t : TwigId) (f : Twig → Twig) : (s.modTwig t f).grn = s.grn := by cases t <;> rfl
@[simp] theorem State.modTwig_ring (t : TwigId) (f : Twig → Twig) : (s.modTwig t f).ring = s.ring := by cases t <;> rfl
@[simp] theorem State.modTwig_hwd (t : TwigId) (f : Twig → Twig) : (s.modTwig t f).hwd = s.hwd := by cases t <;> rfl
@[simp] theorem State.modTwig_ports (t : TwigId) (f : Twig → Twig) : (s.modTwig t f).ports = s.ports := by cases t <;> rfl
@[simp] theorem State.modTwig_vfs (t : TwigId) (f : Twig → Twig) : (s.modTwig t f).vfs = s.vfs := by cases t <;> rfl
@[simp] theorem State.modTwig_grafts (t : TwigId) (f : Twig → Twig) : (s.modTwig t f).grafts = s.grafts := by cases t <;> rfl
@[simp] theorem State.modTwig_pwr (t : TwigId) (f : Twig → Twig) : (s.modTwig t f).pwr = s.pwr := by cases t <;> rfl
@[simp] theorem State.modTwig_sys (t : TwigId) (f : Twig → Twig) : (s.modTwig t f).sys = s.sys := by cases t <;> rfl
@[simp] theorem State.modTwig_rootLinear (t : TwigId) (f : Twig → Twig) : (s.modTwig t f).rootLinear = s.rootLinear := by cases t <;> rfl
@[simp] theorem State.modTwig_refresh2x (t : TwigId) (f : Twig → Twig) : (s.modTwig t f).refresh2x = s.refresh2x := by cases t <;> rfl
@[simp] theorem State.modTwig_scrubHours (t : TwigId) (f : Twig → Twig) : (s.modTwig t f).scrubHours = s.scrubHours := by cases t <;> rfl
@[simp] theorem State.modTwig_linearInForce (t : TwigId) (f : Twig → Twig) : (s.modTwig t f).linearInForce = s.linearInForce := by cases t <;> rfl
@[simp] theorem State.modTwig_sweepEn (t : TwigId) (f : Twig → Twig) : (s.modTwig t f).sweepEn = s.sweepEn := by cases t <;> rfl
@[simp] theorem State.modTwig_repairEn (t : TwigId) (f : Twig → Twig) : (s.modTwig t f).repairEn = s.repairEn := by cases t <;> rfl
@[simp] theorem State.modTwig_paceUs (t : TwigId) (f : Twig → Twig) : (s.modTwig t f).paceUs = s.paceUs := by cases t <;> rfl
@[simp] theorem State.modTwig_scrSel (t : TwigId) (f : Twig → Twig) : (s.modTwig t f).scrSel = s.scrSel := by cases t <;> rfl
@[simp] theorem State.modTwig_crownEvts (t : TwigId) (f : Twig → Twig) : (s.modTwig t f).crownEvts = s.crownEvts := by cases t <;> rfl
@[simp] theorem State.modTwig_outbox (t : TwigId) (f : Twig → Twig) : (s.modTwig t f).outbox = s.outbox := by cases t <;> rfl
@[simp] theorem State.modTwig_nextId (t : TwigId) (f : Twig → Twig) : (s.modTwig t f).nextId = s.nextId := by cases t <;> rfl
@[simp] theorem State.modTwig_fresh (t : TwigId) (f : Twig → Twig) : (s.modTwig t f).fresh = s.fresh := by cases t <;> rfl
@[simp] theorem State.modTwig_turn (t : TwigId) (f : Twig → Twig) : (s.modTwig t f).turn = s.turn := by cases t <;> rfl

/-! ### setHalf -/

@[simp] theorem State.setHalf_pending (b : BoughId) (h : Fin 2) (x : Half) : (s.setHalf b h x).pending = s.pending := rfl
@[simp] theorem State.setHalf_mem (b : BoughId) (h : Fin 2) (x : Half) : (s.setHalf b h x).mem = s.mem := rfl
@[simp] theorem State.setHalf_groves (b : BoughId) (h : Fin 2) (x : Half) : (s.setHalf b h x).groves = s.groves := rfl
@[simp] theorem State.setHalf_queues (b : BoughId) (h : Fin 2) (x : Half) : (s.setHalf b h x).queues = s.queues := rfl
@[simp] theorem State.setHalf_links (b : BoughId) (h : Fin 2) (x : Half) : (s.setHalf b h x).links = s.links := rfl
@[simp] theorem State.setHalf_plots (b : BoughId) (h : Fin 2) (x : Half) : (s.setHalf b h x).plots = s.plots := rfl
@[simp] theorem State.setHalf_slices (b : BoughId) (h : Fin 2) (x : Half) : (s.setHalf b h x).slices = s.slices := rfl
@[simp] theorem State.setHalf_hbm (b : BoughId) (h : Fin 2) (x : Half) : (s.setHalf b h x).hbm = s.hbm := rfl
@[simp] theorem State.setHalf_scr (b : BoughId) (h : Fin 2) (x : Half) : (s.setHalf b h x).scr = s.scr := rfl
@[simp] theorem State.setHalf_cnp (b : BoughId) (h : Fin 2) (x : Half) : (s.setHalf b h x).cnp = s.cnp := rfl
@[simp] theorem State.setHalf_filters (b : BoughId) (h : Fin 2) (x : Half) : (s.setHalf b h x).filters = s.filters := rfl
@[simp] theorem State.setHalf_seqQ (b : BoughId) (h : Fin 2) (x : Half) : (s.setHalf b h x).seqQ = s.seqQ := rfl
@[simp] theorem State.setHalf_heldReads (b : BoughId) (h : Fin 2) (x : Half) : (s.setHalf b h x).heldReads = s.heldReads := rfl
@[simp] theorem State.setHalf_heldWrites (b : BoughId) (h : Fin 2) (x : Half) : (s.setHalf b h x).heldWrites = s.heldWrites := rfl
@[simp] theorem State.setHalf_txns (b : BoughId) (h : Fin 2) (x : Half) : (s.setHalf b h x).txns = s.txns := rfl
@[simp] theorem State.setHalf_grn (b : BoughId) (h : Fin 2) (x : Half) : (s.setHalf b h x).grn = s.grn := rfl
@[simp] theorem State.setHalf_ring (b : BoughId) (h : Fin 2) (x : Half) : (s.setHalf b h x).ring = s.ring := rfl
@[simp] theorem State.setHalf_hwd (b : BoughId) (h : Fin 2) (x : Half) : (s.setHalf b h x).hwd = s.hwd := rfl
@[simp] theorem State.setHalf_ports (b : BoughId) (h : Fin 2) (x : Half) : (s.setHalf b h x).ports = s.ports := rfl
@[simp] theorem State.setHalf_vfs (b : BoughId) (h : Fin 2) (x : Half) : (s.setHalf b h x).vfs = s.vfs := rfl
@[simp] theorem State.setHalf_grafts (b : BoughId) (h : Fin 2) (x : Half) : (s.setHalf b h x).grafts = s.grafts := rfl
@[simp] theorem State.setHalf_pwr (b : BoughId) (h : Fin 2) (x : Half) : (s.setHalf b h x).pwr = s.pwr := rfl
@[simp] theorem State.setHalf_sys (b : BoughId) (h : Fin 2) (x : Half) : (s.setHalf b h x).sys = s.sys := rfl
@[simp] theorem State.setHalf_crn (b : BoughId) (h : Fin 2) (x : Half) : (s.setHalf b h x).crn = s.crn := rfl
@[simp] theorem State.setHalf_rootLinear (b : BoughId) (h : Fin 2) (x : Half) : (s.setHalf b h x).rootLinear = s.rootLinear := rfl
@[simp] theorem State.setHalf_refresh2x (b : BoughId) (h : Fin 2) (x : Half) : (s.setHalf b h x).refresh2x = s.refresh2x := rfl
@[simp] theorem State.setHalf_scrubHours (b : BoughId) (h : Fin 2) (x : Half) : (s.setHalf b h x).scrubHours = s.scrubHours := rfl
@[simp] theorem State.setHalf_linearInForce (b : BoughId) (h : Fin 2) (x : Half) : (s.setHalf b h x).linearInForce = s.linearInForce := rfl
@[simp] theorem State.setHalf_sweepEn (b : BoughId) (h : Fin 2) (x : Half) : (s.setHalf b h x).sweepEn = s.sweepEn := rfl
@[simp] theorem State.setHalf_repairEn (b : BoughId) (h : Fin 2) (x : Half) : (s.setHalf b h x).repairEn = s.repairEn := rfl
@[simp] theorem State.setHalf_paceUs (b : BoughId) (h : Fin 2) (x : Half) : (s.setHalf b h x).paceUs = s.paceUs := rfl
@[simp] theorem State.setHalf_scrSel (b : BoughId) (h : Fin 2) (x : Half) : (s.setHalf b h x).scrSel = s.scrSel := rfl
@[simp] theorem State.setHalf_crownEvts (b : BoughId) (h : Fin 2) (x : Half) : (s.setHalf b h x).crownEvts = s.crownEvts := rfl
@[simp] theorem State.setHalf_outbox (b : BoughId) (h : Fin 2) (x : Half) : (s.setHalf b h x).outbox = s.outbox := rfl
@[simp] theorem State.setHalf_nextId (b : BoughId) (h : Fin 2) (x : Half) : (s.setHalf b h x).nextId = s.nextId := rfl
@[simp] theorem State.setHalf_fresh (b : BoughId) (h : Fin 2) (x : Half) : (s.setHalf b h x).fresh = s.fresh := rfl
@[simp] theorem State.setHalf_turn (b : BoughId) (h : Fin 2) (x : Half) : (s.setHalf b h x).turn = s.turn := rfl

/-! ### modHalf -/

@[simp] theorem State.modHalf_pending (b : BoughId) (h : Fin 2) (f : Half → Half) : (s.modHalf b h f).pending = s.pending := rfl
@[simp] theorem State.modHalf_mem (b : BoughId) (h : Fin 2) (f : Half → Half) : (s.modHalf b h f).mem = s.mem := rfl
@[simp] theorem State.modHalf_groves (b : BoughId) (h : Fin 2) (f : Half → Half) : (s.modHalf b h f).groves = s.groves := rfl
@[simp] theorem State.modHalf_queues (b : BoughId) (h : Fin 2) (f : Half → Half) : (s.modHalf b h f).queues = s.queues := rfl
@[simp] theorem State.modHalf_links (b : BoughId) (h : Fin 2) (f : Half → Half) : (s.modHalf b h f).links = s.links := rfl
@[simp] theorem State.modHalf_plots (b : BoughId) (h : Fin 2) (f : Half → Half) : (s.modHalf b h f).plots = s.plots := rfl
@[simp] theorem State.modHalf_slices (b : BoughId) (h : Fin 2) (f : Half → Half) : (s.modHalf b h f).slices = s.slices := rfl
@[simp] theorem State.modHalf_hbm (b : BoughId) (h : Fin 2) (f : Half → Half) : (s.modHalf b h f).hbm = s.hbm := rfl
@[simp] theorem State.modHalf_scr (b : BoughId) (h : Fin 2) (f : Half → Half) : (s.modHalf b h f).scr = s.scr := rfl
@[simp] theorem State.modHalf_cnp (b : BoughId) (h : Fin 2) (f : Half → Half) : (s.modHalf b h f).cnp = s.cnp := rfl
@[simp] theorem State.modHalf_filters (b : BoughId) (h : Fin 2) (f : Half → Half) : (s.modHalf b h f).filters = s.filters := rfl
@[simp] theorem State.modHalf_seqQ (b : BoughId) (h : Fin 2) (f : Half → Half) : (s.modHalf b h f).seqQ = s.seqQ := rfl
@[simp] theorem State.modHalf_heldReads (b : BoughId) (h : Fin 2) (f : Half → Half) : (s.modHalf b h f).heldReads = s.heldReads := rfl
@[simp] theorem State.modHalf_heldWrites (b : BoughId) (h : Fin 2) (f : Half → Half) : (s.modHalf b h f).heldWrites = s.heldWrites := rfl
@[simp] theorem State.modHalf_txns (b : BoughId) (h : Fin 2) (f : Half → Half) : (s.modHalf b h f).txns = s.txns := rfl
@[simp] theorem State.modHalf_grn (b : BoughId) (h : Fin 2) (f : Half → Half) : (s.modHalf b h f).grn = s.grn := rfl
@[simp] theorem State.modHalf_ring (b : BoughId) (h : Fin 2) (f : Half → Half) : (s.modHalf b h f).ring = s.ring := rfl
@[simp] theorem State.modHalf_hwd (b : BoughId) (h : Fin 2) (f : Half → Half) : (s.modHalf b h f).hwd = s.hwd := rfl
@[simp] theorem State.modHalf_ports (b : BoughId) (h : Fin 2) (f : Half → Half) : (s.modHalf b h f).ports = s.ports := rfl
@[simp] theorem State.modHalf_vfs (b : BoughId) (h : Fin 2) (f : Half → Half) : (s.modHalf b h f).vfs = s.vfs := rfl
@[simp] theorem State.modHalf_grafts (b : BoughId) (h : Fin 2) (f : Half → Half) : (s.modHalf b h f).grafts = s.grafts := rfl
@[simp] theorem State.modHalf_pwr (b : BoughId) (h : Fin 2) (f : Half → Half) : (s.modHalf b h f).pwr = s.pwr := rfl
@[simp] theorem State.modHalf_sys (b : BoughId) (h : Fin 2) (f : Half → Half) : (s.modHalf b h f).sys = s.sys := rfl
@[simp] theorem State.modHalf_crn (b : BoughId) (h : Fin 2) (f : Half → Half) : (s.modHalf b h f).crn = s.crn := rfl
@[simp] theorem State.modHalf_rootLinear (b : BoughId) (h : Fin 2) (f : Half → Half) : (s.modHalf b h f).rootLinear = s.rootLinear := rfl
@[simp] theorem State.modHalf_refresh2x (b : BoughId) (h : Fin 2) (f : Half → Half) : (s.modHalf b h f).refresh2x = s.refresh2x := rfl
@[simp] theorem State.modHalf_scrubHours (b : BoughId) (h : Fin 2) (f : Half → Half) : (s.modHalf b h f).scrubHours = s.scrubHours := rfl
@[simp] theorem State.modHalf_linearInForce (b : BoughId) (h : Fin 2) (f : Half → Half) : (s.modHalf b h f).linearInForce = s.linearInForce := rfl
@[simp] theorem State.modHalf_sweepEn (b : BoughId) (h : Fin 2) (f : Half → Half) : (s.modHalf b h f).sweepEn = s.sweepEn := rfl
@[simp] theorem State.modHalf_repairEn (b : BoughId) (h : Fin 2) (f : Half → Half) : (s.modHalf b h f).repairEn = s.repairEn := rfl
@[simp] theorem State.modHalf_paceUs (b : BoughId) (h : Fin 2) (f : Half → Half) : (s.modHalf b h f).paceUs = s.paceUs := rfl
@[simp] theorem State.modHalf_scrSel (b : BoughId) (h : Fin 2) (f : Half → Half) : (s.modHalf b h f).scrSel = s.scrSel := rfl
@[simp] theorem State.modHalf_crownEvts (b : BoughId) (h : Fin 2) (f : Half → Half) : (s.modHalf b h f).crownEvts = s.crownEvts := rfl
@[simp] theorem State.modHalf_outbox (b : BoughId) (h : Fin 2) (f : Half → Half) : (s.modHalf b h f).outbox = s.outbox := rfl
@[simp] theorem State.modHalf_nextId (b : BoughId) (h : Fin 2) (f : Half → Half) : (s.modHalf b h f).nextId = s.nextId := rfl
@[simp] theorem State.modHalf_fresh (b : BoughId) (h : Fin 2) (f : Half → Half) : (s.modHalf b h f).fresh = s.fresh := rfl
@[simp] theorem State.modHalf_turn (b : BoughId) (h : Fin 2) (f : Half → Half) : (s.modHalf b h f).turn = s.turn := rfl

/-! ### modGrove -/

@[simp] theorem State.modGrove_groves (g : GroveId) (f : Grove → Grove) : (s.modGrove g f).groves = vmod s.groves g f := rfl
@[simp] theorem State.modGrove_pending (g : GroveId) (f : Grove → Grove) : (s.modGrove g f).pending = s.pending := rfl
@[simp] theorem State.modGrove_mem (g : GroveId) (f : Grove → Grove) : (s.modGrove g f).mem = s.mem := rfl
@[simp] theorem State.modGrove_boughs (g : GroveId) (f : Grove → Grove) : (s.modGrove g f).boughs = s.boughs := rfl
@[simp] theorem State.modGrove_queues (g : GroveId) (f : Grove → Grove) : (s.modGrove g f).queues = s.queues := rfl
@[simp] theorem State.modGrove_links (g : GroveId) (f : Grove → Grove) : (s.modGrove g f).links = s.links := rfl
@[simp] theorem State.modGrove_plots (g : GroveId) (f : Grove → Grove) : (s.modGrove g f).plots = s.plots := rfl
@[simp] theorem State.modGrove_slices (g : GroveId) (f : Grove → Grove) : (s.modGrove g f).slices = s.slices := rfl
@[simp] theorem State.modGrove_hbm (g : GroveId) (f : Grove → Grove) : (s.modGrove g f).hbm = s.hbm := rfl
@[simp] theorem State.modGrove_scr (g : GroveId) (f : Grove → Grove) : (s.modGrove g f).scr = s.scr := rfl
@[simp] theorem State.modGrove_cnp (g : GroveId) (f : Grove → Grove) : (s.modGrove g f).cnp = s.cnp := rfl
@[simp] theorem State.modGrove_filters (g : GroveId) (f : Grove → Grove) : (s.modGrove g f).filters = s.filters := rfl
@[simp] theorem State.modGrove_seqQ (g : GroveId) (f : Grove → Grove) : (s.modGrove g f).seqQ = s.seqQ := rfl
@[simp] theorem State.modGrove_heldReads (g : GroveId) (f : Grove → Grove) : (s.modGrove g f).heldReads = s.heldReads := rfl
@[simp] theorem State.modGrove_heldWrites (g : GroveId) (f : Grove → Grove) : (s.modGrove g f).heldWrites = s.heldWrites := rfl
@[simp] theorem State.modGrove_txns (g : GroveId) (f : Grove → Grove) : (s.modGrove g f).txns = s.txns := rfl
@[simp] theorem State.modGrove_grn (g : GroveId) (f : Grove → Grove) : (s.modGrove g f).grn = s.grn := rfl
@[simp] theorem State.modGrove_ring (g : GroveId) (f : Grove → Grove) : (s.modGrove g f).ring = s.ring := rfl
@[simp] theorem State.modGrove_hwd (g : GroveId) (f : Grove → Grove) : (s.modGrove g f).hwd = s.hwd := rfl
@[simp] theorem State.modGrove_ports (g : GroveId) (f : Grove → Grove) : (s.modGrove g f).ports = s.ports := rfl
@[simp] theorem State.modGrove_vfs (g : GroveId) (f : Grove → Grove) : (s.modGrove g f).vfs = s.vfs := rfl
@[simp] theorem State.modGrove_grafts (g : GroveId) (f : Grove → Grove) : (s.modGrove g f).grafts = s.grafts := rfl
@[simp] theorem State.modGrove_pwr (g : GroveId) (f : Grove → Grove) : (s.modGrove g f).pwr = s.pwr := rfl
@[simp] theorem State.modGrove_sys (g : GroveId) (f : Grove → Grove) : (s.modGrove g f).sys = s.sys := rfl
@[simp] theorem State.modGrove_crn (g : GroveId) (f : Grove → Grove) : (s.modGrove g f).crn = s.crn := rfl
@[simp] theorem State.modGrove_rootLinear (g : GroveId) (f : Grove → Grove) : (s.modGrove g f).rootLinear = s.rootLinear := rfl
@[simp] theorem State.modGrove_refresh2x (g : GroveId) (f : Grove → Grove) : (s.modGrove g f).refresh2x = s.refresh2x := rfl
@[simp] theorem State.modGrove_scrubHours (g : GroveId) (f : Grove → Grove) : (s.modGrove g f).scrubHours = s.scrubHours := rfl
@[simp] theorem State.modGrove_linearInForce (g : GroveId) (f : Grove → Grove) : (s.modGrove g f).linearInForce = s.linearInForce := rfl
@[simp] theorem State.modGrove_sweepEn (g : GroveId) (f : Grove → Grove) : (s.modGrove g f).sweepEn = s.sweepEn := rfl
@[simp] theorem State.modGrove_repairEn (g : GroveId) (f : Grove → Grove) : (s.modGrove g f).repairEn = s.repairEn := rfl
@[simp] theorem State.modGrove_paceUs (g : GroveId) (f : Grove → Grove) : (s.modGrove g f).paceUs = s.paceUs := rfl
@[simp] theorem State.modGrove_scrSel (g : GroveId) (f : Grove → Grove) : (s.modGrove g f).scrSel = s.scrSel := rfl
@[simp] theorem State.modGrove_crownEvts (g : GroveId) (f : Grove → Grove) : (s.modGrove g f).crownEvts = s.crownEvts := rfl
@[simp] theorem State.modGrove_outbox (g : GroveId) (f : Grove → Grove) : (s.modGrove g f).outbox = s.outbox := rfl
@[simp] theorem State.modGrove_nextId (g : GroveId) (f : Grove → Grove) : (s.modGrove g f).nextId = s.nextId := rfl
@[simp] theorem State.modGrove_fresh (g : GroveId) (f : Grove → Grove) : (s.modGrove g f).fresh = s.fresh := rfl
@[simp] theorem State.modGrove_turn (g : GroveId) (f : Grove → Grove) : (s.modGrove g f).turn = s.turn := rfl

/-! ### modQueue -/

@[simp] theorem State.modQueue_queues (q : QueueId) (f : Queue → Queue) : (s.modQueue q f).queues = vmod s.queues q f := rfl
@[simp] theorem State.modQueue_pending (q : QueueId) (f : Queue → Queue) : (s.modQueue q f).pending = s.pending := rfl
@[simp] theorem State.modQueue_mem (q : QueueId) (f : Queue → Queue) : (s.modQueue q f).mem = s.mem := rfl
@[simp] theorem State.modQueue_boughs (q : QueueId) (f : Queue → Queue) : (s.modQueue q f).boughs = s.boughs := rfl
@[simp] theorem State.modQueue_groves (q : QueueId) (f : Queue → Queue) : (s.modQueue q f).groves = s.groves := rfl
@[simp] theorem State.modQueue_links (q : QueueId) (f : Queue → Queue) : (s.modQueue q f).links = s.links := rfl
@[simp] theorem State.modQueue_plots (q : QueueId) (f : Queue → Queue) : (s.modQueue q f).plots = s.plots := rfl
@[simp] theorem State.modQueue_slices (q : QueueId) (f : Queue → Queue) : (s.modQueue q f).slices = s.slices := rfl
@[simp] theorem State.modQueue_hbm (q : QueueId) (f : Queue → Queue) : (s.modQueue q f).hbm = s.hbm := rfl
@[simp] theorem State.modQueue_scr (q : QueueId) (f : Queue → Queue) : (s.modQueue q f).scr = s.scr := rfl
@[simp] theorem State.modQueue_cnp (q : QueueId) (f : Queue → Queue) : (s.modQueue q f).cnp = s.cnp := rfl
@[simp] theorem State.modQueue_filters (q : QueueId) (f : Queue → Queue) : (s.modQueue q f).filters = s.filters := rfl
@[simp] theorem State.modQueue_seqQ (q : QueueId) (f : Queue → Queue) : (s.modQueue q f).seqQ = s.seqQ := rfl
@[simp] theorem State.modQueue_heldReads (q : QueueId) (f : Queue → Queue) : (s.modQueue q f).heldReads = s.heldReads := rfl
@[simp] theorem State.modQueue_heldWrites (q : QueueId) (f : Queue → Queue) : (s.modQueue q f).heldWrites = s.heldWrites := rfl
@[simp] theorem State.modQueue_txns (q : QueueId) (f : Queue → Queue) : (s.modQueue q f).txns = s.txns := rfl
@[simp] theorem State.modQueue_grn (q : QueueId) (f : Queue → Queue) : (s.modQueue q f).grn = s.grn := rfl
@[simp] theorem State.modQueue_ring (q : QueueId) (f : Queue → Queue) : (s.modQueue q f).ring = s.ring := rfl
@[simp] theorem State.modQueue_hwd (q : QueueId) (f : Queue → Queue) : (s.modQueue q f).hwd = s.hwd := rfl
@[simp] theorem State.modQueue_ports (q : QueueId) (f : Queue → Queue) : (s.modQueue q f).ports = s.ports := rfl
@[simp] theorem State.modQueue_vfs (q : QueueId) (f : Queue → Queue) : (s.modQueue q f).vfs = s.vfs := rfl
@[simp] theorem State.modQueue_grafts (q : QueueId) (f : Queue → Queue) : (s.modQueue q f).grafts = s.grafts := rfl
@[simp] theorem State.modQueue_pwr (q : QueueId) (f : Queue → Queue) : (s.modQueue q f).pwr = s.pwr := rfl
@[simp] theorem State.modQueue_sys (q : QueueId) (f : Queue → Queue) : (s.modQueue q f).sys = s.sys := rfl
@[simp] theorem State.modQueue_crn (q : QueueId) (f : Queue → Queue) : (s.modQueue q f).crn = s.crn := rfl
@[simp] theorem State.modQueue_rootLinear (q : QueueId) (f : Queue → Queue) : (s.modQueue q f).rootLinear = s.rootLinear := rfl
@[simp] theorem State.modQueue_refresh2x (q : QueueId) (f : Queue → Queue) : (s.modQueue q f).refresh2x = s.refresh2x := rfl
@[simp] theorem State.modQueue_scrubHours (q : QueueId) (f : Queue → Queue) : (s.modQueue q f).scrubHours = s.scrubHours := rfl
@[simp] theorem State.modQueue_linearInForce (q : QueueId) (f : Queue → Queue) : (s.modQueue q f).linearInForce = s.linearInForce := rfl
@[simp] theorem State.modQueue_sweepEn (q : QueueId) (f : Queue → Queue) : (s.modQueue q f).sweepEn = s.sweepEn := rfl
@[simp] theorem State.modQueue_repairEn (q : QueueId) (f : Queue → Queue) : (s.modQueue q f).repairEn = s.repairEn := rfl
@[simp] theorem State.modQueue_paceUs (q : QueueId) (f : Queue → Queue) : (s.modQueue q f).paceUs = s.paceUs := rfl
@[simp] theorem State.modQueue_scrSel (q : QueueId) (f : Queue → Queue) : (s.modQueue q f).scrSel = s.scrSel := rfl
@[simp] theorem State.modQueue_crownEvts (q : QueueId) (f : Queue → Queue) : (s.modQueue q f).crownEvts = s.crownEvts := rfl
@[simp] theorem State.modQueue_outbox (q : QueueId) (f : Queue → Queue) : (s.modQueue q f).outbox = s.outbox := rfl
@[simp] theorem State.modQueue_nextId (q : QueueId) (f : Queue → Queue) : (s.modQueue q f).nextId = s.nextId := rfl
@[simp] theorem State.modQueue_fresh (q : QueueId) (f : Queue → Queue) : (s.modQueue q f).fresh = s.fresh := rfl
@[simp] theorem State.modQueue_turn (q : QueueId) (f : Queue → Queue) : (s.modQueue q f).turn = s.turn := rfl

/-! ### modPlot -/

@[simp] theorem State.modPlot_plots (p : PlotId) (f : Plot → Plot) : (s.modPlot p f).plots = vmod s.plots p f := rfl
@[simp] theorem State.modPlot_pending (p : PlotId) (f : Plot → Plot) : (s.modPlot p f).pending = s.pending := rfl
@[simp] theorem State.modPlot_mem (p : PlotId) (f : Plot → Plot) : (s.modPlot p f).mem = s.mem := rfl
@[simp] theorem State.modPlot_boughs (p : PlotId) (f : Plot → Plot) : (s.modPlot p f).boughs = s.boughs := rfl
@[simp] theorem State.modPlot_groves (p : PlotId) (f : Plot → Plot) : (s.modPlot p f).groves = s.groves := rfl
@[simp] theorem State.modPlot_queues (p : PlotId) (f : Plot → Plot) : (s.modPlot p f).queues = s.queues := rfl
@[simp] theorem State.modPlot_links (p : PlotId) (f : Plot → Plot) : (s.modPlot p f).links = s.links := rfl
@[simp] theorem State.modPlot_slices (p : PlotId) (f : Plot → Plot) : (s.modPlot p f).slices = s.slices := rfl
@[simp] theorem State.modPlot_hbm (p : PlotId) (f : Plot → Plot) : (s.modPlot p f).hbm = s.hbm := rfl
@[simp] theorem State.modPlot_scr (p : PlotId) (f : Plot → Plot) : (s.modPlot p f).scr = s.scr := rfl
@[simp] theorem State.modPlot_cnp (p : PlotId) (f : Plot → Plot) : (s.modPlot p f).cnp = s.cnp := rfl
@[simp] theorem State.modPlot_filters (p : PlotId) (f : Plot → Plot) : (s.modPlot p f).filters = s.filters := rfl
@[simp] theorem State.modPlot_seqQ (p : PlotId) (f : Plot → Plot) : (s.modPlot p f).seqQ = s.seqQ := rfl
@[simp] theorem State.modPlot_heldReads (p : PlotId) (f : Plot → Plot) : (s.modPlot p f).heldReads = s.heldReads := rfl
@[simp] theorem State.modPlot_heldWrites (p : PlotId) (f : Plot → Plot) : (s.modPlot p f).heldWrites = s.heldWrites := rfl
@[simp] theorem State.modPlot_txns (p : PlotId) (f : Plot → Plot) : (s.modPlot p f).txns = s.txns := rfl
@[simp] theorem State.modPlot_grn (p : PlotId) (f : Plot → Plot) : (s.modPlot p f).grn = s.grn := rfl
@[simp] theorem State.modPlot_ring (p : PlotId) (f : Plot → Plot) : (s.modPlot p f).ring = s.ring := rfl
@[simp] theorem State.modPlot_hwd (p : PlotId) (f : Plot → Plot) : (s.modPlot p f).hwd = s.hwd := rfl
@[simp] theorem State.modPlot_ports (p : PlotId) (f : Plot → Plot) : (s.modPlot p f).ports = s.ports := rfl
@[simp] theorem State.modPlot_vfs (p : PlotId) (f : Plot → Plot) : (s.modPlot p f).vfs = s.vfs := rfl
@[simp] theorem State.modPlot_grafts (p : PlotId) (f : Plot → Plot) : (s.modPlot p f).grafts = s.grafts := rfl
@[simp] theorem State.modPlot_pwr (p : PlotId) (f : Plot → Plot) : (s.modPlot p f).pwr = s.pwr := rfl
@[simp] theorem State.modPlot_sys (p : PlotId) (f : Plot → Plot) : (s.modPlot p f).sys = s.sys := rfl
@[simp] theorem State.modPlot_crn (p : PlotId) (f : Plot → Plot) : (s.modPlot p f).crn = s.crn := rfl
@[simp] theorem State.modPlot_rootLinear (p : PlotId) (f : Plot → Plot) : (s.modPlot p f).rootLinear = s.rootLinear := rfl
@[simp] theorem State.modPlot_refresh2x (p : PlotId) (f : Plot → Plot) : (s.modPlot p f).refresh2x = s.refresh2x := rfl
@[simp] theorem State.modPlot_scrubHours (p : PlotId) (f : Plot → Plot) : (s.modPlot p f).scrubHours = s.scrubHours := rfl
@[simp] theorem State.modPlot_linearInForce (p : PlotId) (f : Plot → Plot) : (s.modPlot p f).linearInForce = s.linearInForce := rfl
@[simp] theorem State.modPlot_sweepEn (p : PlotId) (f : Plot → Plot) : (s.modPlot p f).sweepEn = s.sweepEn := rfl
@[simp] theorem State.modPlot_repairEn (p : PlotId) (f : Plot → Plot) : (s.modPlot p f).repairEn = s.repairEn := rfl
@[simp] theorem State.modPlot_paceUs (p : PlotId) (f : Plot → Plot) : (s.modPlot p f).paceUs = s.paceUs := rfl
@[simp] theorem State.modPlot_scrSel (p : PlotId) (f : Plot → Plot) : (s.modPlot p f).scrSel = s.scrSel := rfl
@[simp] theorem State.modPlot_crownEvts (p : PlotId) (f : Plot → Plot) : (s.modPlot p f).crownEvts = s.crownEvts := rfl
@[simp] theorem State.modPlot_outbox (p : PlotId) (f : Plot → Plot) : (s.modPlot p f).outbox = s.outbox := rfl
@[simp] theorem State.modPlot_nextId (p : PlotId) (f : Plot → Plot) : (s.modPlot p f).nextId = s.nextId := rfl
@[simp] theorem State.modPlot_fresh (p : PlotId) (f : Plot → Plot) : (s.modPlot p f).fresh = s.fresh := rfl
@[simp] theorem State.modPlot_turn (p : PlotId) (f : Plot → Plot) : (s.modPlot p f).turn = s.turn := rfl

/-! ### modSlice -/

@[simp] theorem State.modSlice_slices (k : SliceId) (f : Slice → Slice) : (s.modSlice k f).slices = vmod s.slices k f := rfl
@[simp] theorem State.modSlice_pending (k : SliceId) (f : Slice → Slice) : (s.modSlice k f).pending = s.pending := rfl
@[simp] theorem State.modSlice_mem (k : SliceId) (f : Slice → Slice) : (s.modSlice k f).mem = s.mem := rfl
@[simp] theorem State.modSlice_boughs (k : SliceId) (f : Slice → Slice) : (s.modSlice k f).boughs = s.boughs := rfl
@[simp] theorem State.modSlice_groves (k : SliceId) (f : Slice → Slice) : (s.modSlice k f).groves = s.groves := rfl
@[simp] theorem State.modSlice_queues (k : SliceId) (f : Slice → Slice) : (s.modSlice k f).queues = s.queues := rfl
@[simp] theorem State.modSlice_links (k : SliceId) (f : Slice → Slice) : (s.modSlice k f).links = s.links := rfl
@[simp] theorem State.modSlice_plots (k : SliceId) (f : Slice → Slice) : (s.modSlice k f).plots = s.plots := rfl
@[simp] theorem State.modSlice_hbm (k : SliceId) (f : Slice → Slice) : (s.modSlice k f).hbm = s.hbm := rfl
@[simp] theorem State.modSlice_scr (k : SliceId) (f : Slice → Slice) : (s.modSlice k f).scr = s.scr := rfl
@[simp] theorem State.modSlice_cnp (k : SliceId) (f : Slice → Slice) : (s.modSlice k f).cnp = s.cnp := rfl
@[simp] theorem State.modSlice_filters (k : SliceId) (f : Slice → Slice) : (s.modSlice k f).filters = s.filters := rfl
@[simp] theorem State.modSlice_seqQ (k : SliceId) (f : Slice → Slice) : (s.modSlice k f).seqQ = s.seqQ := rfl
@[simp] theorem State.modSlice_heldReads (k : SliceId) (f : Slice → Slice) : (s.modSlice k f).heldReads = s.heldReads := rfl
@[simp] theorem State.modSlice_heldWrites (k : SliceId) (f : Slice → Slice) : (s.modSlice k f).heldWrites = s.heldWrites := rfl
@[simp] theorem State.modSlice_txns (k : SliceId) (f : Slice → Slice) : (s.modSlice k f).txns = s.txns := rfl
@[simp] theorem State.modSlice_grn (k : SliceId) (f : Slice → Slice) : (s.modSlice k f).grn = s.grn := rfl
@[simp] theorem State.modSlice_ring (k : SliceId) (f : Slice → Slice) : (s.modSlice k f).ring = s.ring := rfl
@[simp] theorem State.modSlice_hwd (k : SliceId) (f : Slice → Slice) : (s.modSlice k f).hwd = s.hwd := rfl
@[simp] theorem State.modSlice_ports (k : SliceId) (f : Slice → Slice) : (s.modSlice k f).ports = s.ports := rfl
@[simp] theorem State.modSlice_vfs (k : SliceId) (f : Slice → Slice) : (s.modSlice k f).vfs = s.vfs := rfl
@[simp] theorem State.modSlice_grafts (k : SliceId) (f : Slice → Slice) : (s.modSlice k f).grafts = s.grafts := rfl
@[simp] theorem State.modSlice_pwr (k : SliceId) (f : Slice → Slice) : (s.modSlice k f).pwr = s.pwr := rfl
@[simp] theorem State.modSlice_sys (k : SliceId) (f : Slice → Slice) : (s.modSlice k f).sys = s.sys := rfl
@[simp] theorem State.modSlice_crn (k : SliceId) (f : Slice → Slice) : (s.modSlice k f).crn = s.crn := rfl
@[simp] theorem State.modSlice_rootLinear (k : SliceId) (f : Slice → Slice) : (s.modSlice k f).rootLinear = s.rootLinear := rfl
@[simp] theorem State.modSlice_refresh2x (k : SliceId) (f : Slice → Slice) : (s.modSlice k f).refresh2x = s.refresh2x := rfl
@[simp] theorem State.modSlice_scrubHours (k : SliceId) (f : Slice → Slice) : (s.modSlice k f).scrubHours = s.scrubHours := rfl
@[simp] theorem State.modSlice_linearInForce (k : SliceId) (f : Slice → Slice) : (s.modSlice k f).linearInForce = s.linearInForce := rfl
@[simp] theorem State.modSlice_sweepEn (k : SliceId) (f : Slice → Slice) : (s.modSlice k f).sweepEn = s.sweepEn := rfl
@[simp] theorem State.modSlice_repairEn (k : SliceId) (f : Slice → Slice) : (s.modSlice k f).repairEn = s.repairEn := rfl
@[simp] theorem State.modSlice_paceUs (k : SliceId) (f : Slice → Slice) : (s.modSlice k f).paceUs = s.paceUs := rfl
@[simp] theorem State.modSlice_scrSel (k : SliceId) (f : Slice → Slice) : (s.modSlice k f).scrSel = s.scrSel := rfl
@[simp] theorem State.modSlice_crownEvts (k : SliceId) (f : Slice → Slice) : (s.modSlice k f).crownEvts = s.crownEvts := rfl
@[simp] theorem State.modSlice_outbox (k : SliceId) (f : Slice → Slice) : (s.modSlice k f).outbox = s.outbox := rfl
@[simp] theorem State.modSlice_nextId (k : SliceId) (f : Slice → Slice) : (s.modSlice k f).nextId = s.nextId := rfl
@[simp] theorem State.modSlice_fresh (k : SliceId) (f : Slice → Slice) : (s.modSlice k f).fresh = s.fresh := rfl
@[simp] theorem State.modSlice_turn (k : SliceId) (f : Slice → Slice) : (s.modSlice k f).turn = s.turn := rfl

/-! ### modStack -/

@[simp] theorem State.modStack_hbm (k : StackId) (f : Stack → Stack) : (s.modStack k f).hbm = vmod s.hbm k f := rfl
@[simp] theorem State.modStack_pending (k : StackId) (f : Stack → Stack) : (s.modStack k f).pending = s.pending := rfl
@[simp] theorem State.modStack_mem (k : StackId) (f : Stack → Stack) : (s.modStack k f).mem = s.mem := rfl
@[simp] theorem State.modStack_boughs (k : StackId) (f : Stack → Stack) : (s.modStack k f).boughs = s.boughs := rfl
@[simp] theorem State.modStack_groves (k : StackId) (f : Stack → Stack) : (s.modStack k f).groves = s.groves := rfl
@[simp] theorem State.modStack_queues (k : StackId) (f : Stack → Stack) : (s.modStack k f).queues = s.queues := rfl
@[simp] theorem State.modStack_links (k : StackId) (f : Stack → Stack) : (s.modStack k f).links = s.links := rfl
@[simp] theorem State.modStack_plots (k : StackId) (f : Stack → Stack) : (s.modStack k f).plots = s.plots := rfl
@[simp] theorem State.modStack_slices (k : StackId) (f : Stack → Stack) : (s.modStack k f).slices = s.slices := rfl
@[simp] theorem State.modStack_scr (k : StackId) (f : Stack → Stack) : (s.modStack k f).scr = s.scr := rfl
@[simp] theorem State.modStack_cnp (k : StackId) (f : Stack → Stack) : (s.modStack k f).cnp = s.cnp := rfl
@[simp] theorem State.modStack_filters (k : StackId) (f : Stack → Stack) : (s.modStack k f).filters = s.filters := rfl
@[simp] theorem State.modStack_seqQ (k : StackId) (f : Stack → Stack) : (s.modStack k f).seqQ = s.seqQ := rfl
@[simp] theorem State.modStack_heldReads (k : StackId) (f : Stack → Stack) : (s.modStack k f).heldReads = s.heldReads := rfl
@[simp] theorem State.modStack_heldWrites (k : StackId) (f : Stack → Stack) : (s.modStack k f).heldWrites = s.heldWrites := rfl
@[simp] theorem State.modStack_txns (k : StackId) (f : Stack → Stack) : (s.modStack k f).txns = s.txns := rfl
@[simp] theorem State.modStack_grn (k : StackId) (f : Stack → Stack) : (s.modStack k f).grn = s.grn := rfl
@[simp] theorem State.modStack_ring (k : StackId) (f : Stack → Stack) : (s.modStack k f).ring = s.ring := rfl
@[simp] theorem State.modStack_hwd (k : StackId) (f : Stack → Stack) : (s.modStack k f).hwd = s.hwd := rfl
@[simp] theorem State.modStack_ports (k : StackId) (f : Stack → Stack) : (s.modStack k f).ports = s.ports := rfl
@[simp] theorem State.modStack_vfs (k : StackId) (f : Stack → Stack) : (s.modStack k f).vfs = s.vfs := rfl
@[simp] theorem State.modStack_grafts (k : StackId) (f : Stack → Stack) : (s.modStack k f).grafts = s.grafts := rfl
@[simp] theorem State.modStack_pwr (k : StackId) (f : Stack → Stack) : (s.modStack k f).pwr = s.pwr := rfl
@[simp] theorem State.modStack_sys (k : StackId) (f : Stack → Stack) : (s.modStack k f).sys = s.sys := rfl
@[simp] theorem State.modStack_crn (k : StackId) (f : Stack → Stack) : (s.modStack k f).crn = s.crn := rfl
@[simp] theorem State.modStack_rootLinear (k : StackId) (f : Stack → Stack) : (s.modStack k f).rootLinear = s.rootLinear := rfl
@[simp] theorem State.modStack_refresh2x (k : StackId) (f : Stack → Stack) : (s.modStack k f).refresh2x = s.refresh2x := rfl
@[simp] theorem State.modStack_scrubHours (k : StackId) (f : Stack → Stack) : (s.modStack k f).scrubHours = s.scrubHours := rfl
@[simp] theorem State.modStack_linearInForce (k : StackId) (f : Stack → Stack) : (s.modStack k f).linearInForce = s.linearInForce := rfl
@[simp] theorem State.modStack_sweepEn (k : StackId) (f : Stack → Stack) : (s.modStack k f).sweepEn = s.sweepEn := rfl
@[simp] theorem State.modStack_repairEn (k : StackId) (f : Stack → Stack) : (s.modStack k f).repairEn = s.repairEn := rfl
@[simp] theorem State.modStack_paceUs (k : StackId) (f : Stack → Stack) : (s.modStack k f).paceUs = s.paceUs := rfl
@[simp] theorem State.modStack_scrSel (k : StackId) (f : Stack → Stack) : (s.modStack k f).scrSel = s.scrSel := rfl
@[simp] theorem State.modStack_crownEvts (k : StackId) (f : Stack → Stack) : (s.modStack k f).crownEvts = s.crownEvts := rfl
@[simp] theorem State.modStack_outbox (k : StackId) (f : Stack → Stack) : (s.modStack k f).outbox = s.outbox := rfl
@[simp] theorem State.modStack_nextId (k : StackId) (f : Stack → Stack) : (s.modStack k f).nextId = s.nextId := rfl
@[simp] theorem State.modStack_fresh (k : StackId) (f : Stack → Stack) : (s.modStack k f).fresh = s.fresh := rfl
@[simp] theorem State.modStack_turn (k : StackId) (f : Stack → Stack) : (s.modStack k f).turn = s.turn := rfl

/-! ### modScr -/

@[simp] theorem State.modScr_scr (b : BoughId) (f : Scratch → Scratch) : (s.modScr b f).scr = vmod s.scr b f := rfl
@[simp] theorem State.modScr_pending (b : BoughId) (f : Scratch → Scratch) : (s.modScr b f).pending = s.pending := rfl
@[simp] theorem State.modScr_mem (b : BoughId) (f : Scratch → Scratch) : (s.modScr b f).mem = s.mem := rfl
@[simp] theorem State.modScr_boughs (b : BoughId) (f : Scratch → Scratch) : (s.modScr b f).boughs = s.boughs := rfl
@[simp] theorem State.modScr_groves (b : BoughId) (f : Scratch → Scratch) : (s.modScr b f).groves = s.groves := rfl
@[simp] theorem State.modScr_queues (b : BoughId) (f : Scratch → Scratch) : (s.modScr b f).queues = s.queues := rfl
@[simp] theorem State.modScr_links (b : BoughId) (f : Scratch → Scratch) : (s.modScr b f).links = s.links := rfl
@[simp] theorem State.modScr_plots (b : BoughId) (f : Scratch → Scratch) : (s.modScr b f).plots = s.plots := rfl
@[simp] theorem State.modScr_slices (b : BoughId) (f : Scratch → Scratch) : (s.modScr b f).slices = s.slices := rfl
@[simp] theorem State.modScr_hbm (b : BoughId) (f : Scratch → Scratch) : (s.modScr b f).hbm = s.hbm := rfl
@[simp] theorem State.modScr_cnp (b : BoughId) (f : Scratch → Scratch) : (s.modScr b f).cnp = s.cnp := rfl
@[simp] theorem State.modScr_filters (b : BoughId) (f : Scratch → Scratch) : (s.modScr b f).filters = s.filters := rfl
@[simp] theorem State.modScr_seqQ (b : BoughId) (f : Scratch → Scratch) : (s.modScr b f).seqQ = s.seqQ := rfl
@[simp] theorem State.modScr_heldReads (b : BoughId) (f : Scratch → Scratch) : (s.modScr b f).heldReads = s.heldReads := rfl
@[simp] theorem State.modScr_heldWrites (b : BoughId) (f : Scratch → Scratch) : (s.modScr b f).heldWrites = s.heldWrites := rfl
@[simp] theorem State.modScr_txns (b : BoughId) (f : Scratch → Scratch) : (s.modScr b f).txns = s.txns := rfl
@[simp] theorem State.modScr_grn (b : BoughId) (f : Scratch → Scratch) : (s.modScr b f).grn = s.grn := rfl
@[simp] theorem State.modScr_ring (b : BoughId) (f : Scratch → Scratch) : (s.modScr b f).ring = s.ring := rfl
@[simp] theorem State.modScr_hwd (b : BoughId) (f : Scratch → Scratch) : (s.modScr b f).hwd = s.hwd := rfl
@[simp] theorem State.modScr_ports (b : BoughId) (f : Scratch → Scratch) : (s.modScr b f).ports = s.ports := rfl
@[simp] theorem State.modScr_vfs (b : BoughId) (f : Scratch → Scratch) : (s.modScr b f).vfs = s.vfs := rfl
@[simp] theorem State.modScr_grafts (b : BoughId) (f : Scratch → Scratch) : (s.modScr b f).grafts = s.grafts := rfl
@[simp] theorem State.modScr_pwr (b : BoughId) (f : Scratch → Scratch) : (s.modScr b f).pwr = s.pwr := rfl
@[simp] theorem State.modScr_sys (b : BoughId) (f : Scratch → Scratch) : (s.modScr b f).sys = s.sys := rfl
@[simp] theorem State.modScr_crn (b : BoughId) (f : Scratch → Scratch) : (s.modScr b f).crn = s.crn := rfl
@[simp] theorem State.modScr_rootLinear (b : BoughId) (f : Scratch → Scratch) : (s.modScr b f).rootLinear = s.rootLinear := rfl
@[simp] theorem State.modScr_refresh2x (b : BoughId) (f : Scratch → Scratch) : (s.modScr b f).refresh2x = s.refresh2x := rfl
@[simp] theorem State.modScr_scrubHours (b : BoughId) (f : Scratch → Scratch) : (s.modScr b f).scrubHours = s.scrubHours := rfl
@[simp] theorem State.modScr_linearInForce (b : BoughId) (f : Scratch → Scratch) : (s.modScr b f).linearInForce = s.linearInForce := rfl
@[simp] theorem State.modScr_sweepEn (b : BoughId) (f : Scratch → Scratch) : (s.modScr b f).sweepEn = s.sweepEn := rfl
@[simp] theorem State.modScr_repairEn (b : BoughId) (f : Scratch → Scratch) : (s.modScr b f).repairEn = s.repairEn := rfl
@[simp] theorem State.modScr_paceUs (b : BoughId) (f : Scratch → Scratch) : (s.modScr b f).paceUs = s.paceUs := rfl
@[simp] theorem State.modScr_scrSel (b : BoughId) (f : Scratch → Scratch) : (s.modScr b f).scrSel = s.scrSel := rfl
@[simp] theorem State.modScr_crownEvts (b : BoughId) (f : Scratch → Scratch) : (s.modScr b f).crownEvts = s.crownEvts := rfl
@[simp] theorem State.modScr_outbox (b : BoughId) (f : Scratch → Scratch) : (s.modScr b f).outbox = s.outbox := rfl
@[simp] theorem State.modScr_nextId (b : BoughId) (f : Scratch → Scratch) : (s.modScr b f).nextId = s.nextId := rfl
@[simp] theorem State.modScr_fresh (b : BoughId) (f : Scratch → Scratch) : (s.modScr b f).fresh = s.fresh := rfl
@[simp] theorem State.modScr_turn (b : BoughId) (f : Scratch → Scratch) : (s.modScr b f).turn = s.turn := rfl

/-! ### modPort -/

@[simp] theorem State.modPort_ports (n : PortId) (f : HostPort → HostPort) : (s.modPort n f).ports = vmod s.ports n f := rfl
@[simp] theorem State.modPort_pending (n : PortId) (f : HostPort → HostPort) : (s.modPort n f).pending = s.pending := rfl
@[simp] theorem State.modPort_mem (n : PortId) (f : HostPort → HostPort) : (s.modPort n f).mem = s.mem := rfl
@[simp] theorem State.modPort_boughs (n : PortId) (f : HostPort → HostPort) : (s.modPort n f).boughs = s.boughs := rfl
@[simp] theorem State.modPort_groves (n : PortId) (f : HostPort → HostPort) : (s.modPort n f).groves = s.groves := rfl
@[simp] theorem State.modPort_queues (n : PortId) (f : HostPort → HostPort) : (s.modPort n f).queues = s.queues := rfl
@[simp] theorem State.modPort_links (n : PortId) (f : HostPort → HostPort) : (s.modPort n f).links = s.links := rfl
@[simp] theorem State.modPort_plots (n : PortId) (f : HostPort → HostPort) : (s.modPort n f).plots = s.plots := rfl
@[simp] theorem State.modPort_slices (n : PortId) (f : HostPort → HostPort) : (s.modPort n f).slices = s.slices := rfl
@[simp] theorem State.modPort_hbm (n : PortId) (f : HostPort → HostPort) : (s.modPort n f).hbm = s.hbm := rfl
@[simp] theorem State.modPort_scr (n : PortId) (f : HostPort → HostPort) : (s.modPort n f).scr = s.scr := rfl
@[simp] theorem State.modPort_cnp (n : PortId) (f : HostPort → HostPort) : (s.modPort n f).cnp = s.cnp := rfl
@[simp] theorem State.modPort_filters (n : PortId) (f : HostPort → HostPort) : (s.modPort n f).filters = s.filters := rfl
@[simp] theorem State.modPort_seqQ (n : PortId) (f : HostPort → HostPort) : (s.modPort n f).seqQ = s.seqQ := rfl
@[simp] theorem State.modPort_heldReads (n : PortId) (f : HostPort → HostPort) : (s.modPort n f).heldReads = s.heldReads := rfl
@[simp] theorem State.modPort_heldWrites (n : PortId) (f : HostPort → HostPort) : (s.modPort n f).heldWrites = s.heldWrites := rfl
@[simp] theorem State.modPort_txns (n : PortId) (f : HostPort → HostPort) : (s.modPort n f).txns = s.txns := rfl
@[simp] theorem State.modPort_grn (n : PortId) (f : HostPort → HostPort) : (s.modPort n f).grn = s.grn := rfl
@[simp] theorem State.modPort_ring (n : PortId) (f : HostPort → HostPort) : (s.modPort n f).ring = s.ring := rfl
@[simp] theorem State.modPort_hwd (n : PortId) (f : HostPort → HostPort) : (s.modPort n f).hwd = s.hwd := rfl
@[simp] theorem State.modPort_vfs (n : PortId) (f : HostPort → HostPort) : (s.modPort n f).vfs = s.vfs := rfl
@[simp] theorem State.modPort_grafts (n : PortId) (f : HostPort → HostPort) : (s.modPort n f).grafts = s.grafts := rfl
@[simp] theorem State.modPort_pwr (n : PortId) (f : HostPort → HostPort) : (s.modPort n f).pwr = s.pwr := rfl
@[simp] theorem State.modPort_sys (n : PortId) (f : HostPort → HostPort) : (s.modPort n f).sys = s.sys := rfl
@[simp] theorem State.modPort_crn (n : PortId) (f : HostPort → HostPort) : (s.modPort n f).crn = s.crn := rfl
@[simp] theorem State.modPort_rootLinear (n : PortId) (f : HostPort → HostPort) : (s.modPort n f).rootLinear = s.rootLinear := rfl
@[simp] theorem State.modPort_refresh2x (n : PortId) (f : HostPort → HostPort) : (s.modPort n f).refresh2x = s.refresh2x := rfl
@[simp] theorem State.modPort_scrubHours (n : PortId) (f : HostPort → HostPort) : (s.modPort n f).scrubHours = s.scrubHours := rfl
@[simp] theorem State.modPort_linearInForce (n : PortId) (f : HostPort → HostPort) : (s.modPort n f).linearInForce = s.linearInForce := rfl
@[simp] theorem State.modPort_sweepEn (n : PortId) (f : HostPort → HostPort) : (s.modPort n f).sweepEn = s.sweepEn := rfl
@[simp] theorem State.modPort_repairEn (n : PortId) (f : HostPort → HostPort) : (s.modPort n f).repairEn = s.repairEn := rfl
@[simp] theorem State.modPort_paceUs (n : PortId) (f : HostPort → HostPort) : (s.modPort n f).paceUs = s.paceUs := rfl
@[simp] theorem State.modPort_scrSel (n : PortId) (f : HostPort → HostPort) : (s.modPort n f).scrSel = s.scrSel := rfl
@[simp] theorem State.modPort_crownEvts (n : PortId) (f : HostPort → HostPort) : (s.modPort n f).crownEvts = s.crownEvts := rfl
@[simp] theorem State.modPort_outbox (n : PortId) (f : HostPort → HostPort) : (s.modPort n f).outbox = s.outbox := rfl
@[simp] theorem State.modPort_nextId (n : PortId) (f : HostPort → HostPort) : (s.modPort n f).nextId = s.nextId := rfl
@[simp] theorem State.modPort_fresh (n : PortId) (f : HostPort → HostPort) : (s.modPort n f).fresh = s.fresh := rfl
@[simp] theorem State.modPort_turn (n : PortId) (f : HostPort → HostPort) : (s.modPort n f).turn = s.turn := rfl

/-! ### modGraft -/

@[simp] theorem State.modGraft_grafts (n : PortId) (f : GraftPort → GraftPort) : (s.modGraft n f).grafts = vmod s.grafts n f := rfl
@[simp] theorem State.modGraft_pending (n : PortId) (f : GraftPort → GraftPort) : (s.modGraft n f).pending = s.pending := rfl
@[simp] theorem State.modGraft_mem (n : PortId) (f : GraftPort → GraftPort) : (s.modGraft n f).mem = s.mem := rfl
@[simp] theorem State.modGraft_boughs (n : PortId) (f : GraftPort → GraftPort) : (s.modGraft n f).boughs = s.boughs := rfl
@[simp] theorem State.modGraft_groves (n : PortId) (f : GraftPort → GraftPort) : (s.modGraft n f).groves = s.groves := rfl
@[simp] theorem State.modGraft_queues (n : PortId) (f : GraftPort → GraftPort) : (s.modGraft n f).queues = s.queues := rfl
@[simp] theorem State.modGraft_links (n : PortId) (f : GraftPort → GraftPort) : (s.modGraft n f).links = s.links := rfl
@[simp] theorem State.modGraft_plots (n : PortId) (f : GraftPort → GraftPort) : (s.modGraft n f).plots = s.plots := rfl
@[simp] theorem State.modGraft_slices (n : PortId) (f : GraftPort → GraftPort) : (s.modGraft n f).slices = s.slices := rfl
@[simp] theorem State.modGraft_hbm (n : PortId) (f : GraftPort → GraftPort) : (s.modGraft n f).hbm = s.hbm := rfl
@[simp] theorem State.modGraft_scr (n : PortId) (f : GraftPort → GraftPort) : (s.modGraft n f).scr = s.scr := rfl
@[simp] theorem State.modGraft_cnp (n : PortId) (f : GraftPort → GraftPort) : (s.modGraft n f).cnp = s.cnp := rfl
@[simp] theorem State.modGraft_filters (n : PortId) (f : GraftPort → GraftPort) : (s.modGraft n f).filters = s.filters := rfl
@[simp] theorem State.modGraft_seqQ (n : PortId) (f : GraftPort → GraftPort) : (s.modGraft n f).seqQ = s.seqQ := rfl
@[simp] theorem State.modGraft_heldReads (n : PortId) (f : GraftPort → GraftPort) : (s.modGraft n f).heldReads = s.heldReads := rfl
@[simp] theorem State.modGraft_heldWrites (n : PortId) (f : GraftPort → GraftPort) : (s.modGraft n f).heldWrites = s.heldWrites := rfl
@[simp] theorem State.modGraft_txns (n : PortId) (f : GraftPort → GraftPort) : (s.modGraft n f).txns = s.txns := rfl
@[simp] theorem State.modGraft_grn (n : PortId) (f : GraftPort → GraftPort) : (s.modGraft n f).grn = s.grn := rfl
@[simp] theorem State.modGraft_ring (n : PortId) (f : GraftPort → GraftPort) : (s.modGraft n f).ring = s.ring := rfl
@[simp] theorem State.modGraft_hwd (n : PortId) (f : GraftPort → GraftPort) : (s.modGraft n f).hwd = s.hwd := rfl
@[simp] theorem State.modGraft_ports (n : PortId) (f : GraftPort → GraftPort) : (s.modGraft n f).ports = s.ports := rfl
@[simp] theorem State.modGraft_vfs (n : PortId) (f : GraftPort → GraftPort) : (s.modGraft n f).vfs = s.vfs := rfl
@[simp] theorem State.modGraft_pwr (n : PortId) (f : GraftPort → GraftPort) : (s.modGraft n f).pwr = s.pwr := rfl
@[simp] theorem State.modGraft_sys (n : PortId) (f : GraftPort → GraftPort) : (s.modGraft n f).sys = s.sys := rfl
@[simp] theorem State.modGraft_crn (n : PortId) (f : GraftPort → GraftPort) : (s.modGraft n f).crn = s.crn := rfl
@[simp] theorem State.modGraft_rootLinear (n : PortId) (f : GraftPort → GraftPort) : (s.modGraft n f).rootLinear = s.rootLinear := rfl
@[simp] theorem State.modGraft_refresh2x (n : PortId) (f : GraftPort → GraftPort) : (s.modGraft n f).refresh2x = s.refresh2x := rfl
@[simp] theorem State.modGraft_scrubHours (n : PortId) (f : GraftPort → GraftPort) : (s.modGraft n f).scrubHours = s.scrubHours := rfl
@[simp] theorem State.modGraft_linearInForce (n : PortId) (f : GraftPort → GraftPort) : (s.modGraft n f).linearInForce = s.linearInForce := rfl
@[simp] theorem State.modGraft_sweepEn (n : PortId) (f : GraftPort → GraftPort) : (s.modGraft n f).sweepEn = s.sweepEn := rfl
@[simp] theorem State.modGraft_repairEn (n : PortId) (f : GraftPort → GraftPort) : (s.modGraft n f).repairEn = s.repairEn := rfl
@[simp] theorem State.modGraft_paceUs (n : PortId) (f : GraftPort → GraftPort) : (s.modGraft n f).paceUs = s.paceUs := rfl
@[simp] theorem State.modGraft_scrSel (n : PortId) (f : GraftPort → GraftPort) : (s.modGraft n f).scrSel = s.scrSel := rfl
@[simp] theorem State.modGraft_crownEvts (n : PortId) (f : GraftPort → GraftPort) : (s.modGraft n f).crownEvts = s.crownEvts := rfl
@[simp] theorem State.modGraft_outbox (n : PortId) (f : GraftPort → GraftPort) : (s.modGraft n f).outbox = s.outbox := rfl
@[simp] theorem State.modGraft_nextId (n : PortId) (f : GraftPort → GraftPort) : (s.modGraft n f).nextId = s.nextId := rfl
@[simp] theorem State.modGraft_fresh (n : PortId) (f : GraftPort → GraftPort) : (s.modGraft n f).fresh = s.fresh := rfl
@[simp] theorem State.modGraft_turn (n : PortId) (f : GraftPort → GraftPort) : (s.modGraft n f).turn = s.turn := rfl

/-! ### modVf -/

@[simp] theorem State.modVf_vfs (v : VfId) (f : Func → Func) : (s.modVf v f).vfs = vmod s.vfs v f := rfl
@[simp] theorem State.modVf_pending (v : VfId) (f : Func → Func) : (s.modVf v f).pending = s.pending := rfl
@[simp] theorem State.modVf_mem (v : VfId) (f : Func → Func) : (s.modVf v f).mem = s.mem := rfl
@[simp] theorem State.modVf_boughs (v : VfId) (f : Func → Func) : (s.modVf v f).boughs = s.boughs := rfl
@[simp] theorem State.modVf_groves (v : VfId) (f : Func → Func) : (s.modVf v f).groves = s.groves := rfl
@[simp] theorem State.modVf_queues (v : VfId) (f : Func → Func) : (s.modVf v f).queues = s.queues := rfl
@[simp] theorem State.modVf_links (v : VfId) (f : Func → Func) : (s.modVf v f).links = s.links := rfl
@[simp] theorem State.modVf_plots (v : VfId) (f : Func → Func) : (s.modVf v f).plots = s.plots := rfl
@[simp] theorem State.modVf_slices (v : VfId) (f : Func → Func) : (s.modVf v f).slices = s.slices := rfl
@[simp] theorem State.modVf_hbm (v : VfId) (f : Func → Func) : (s.modVf v f).hbm = s.hbm := rfl
@[simp] theorem State.modVf_scr (v : VfId) (f : Func → Func) : (s.modVf v f).scr = s.scr := rfl
@[simp] theorem State.modVf_cnp (v : VfId) (f : Func → Func) : (s.modVf v f).cnp = s.cnp := rfl
@[simp] theorem State.modVf_filters (v : VfId) (f : Func → Func) : (s.modVf v f).filters = s.filters := rfl
@[simp] theorem State.modVf_seqQ (v : VfId) (f : Func → Func) : (s.modVf v f).seqQ = s.seqQ := rfl
@[simp] theorem State.modVf_heldReads (v : VfId) (f : Func → Func) : (s.modVf v f).heldReads = s.heldReads := rfl
@[simp] theorem State.modVf_heldWrites (v : VfId) (f : Func → Func) : (s.modVf v f).heldWrites = s.heldWrites := rfl
@[simp] theorem State.modVf_txns (v : VfId) (f : Func → Func) : (s.modVf v f).txns = s.txns := rfl
@[simp] theorem State.modVf_grn (v : VfId) (f : Func → Func) : (s.modVf v f).grn = s.grn := rfl
@[simp] theorem State.modVf_ring (v : VfId) (f : Func → Func) : (s.modVf v f).ring = s.ring := rfl
@[simp] theorem State.modVf_hwd (v : VfId) (f : Func → Func) : (s.modVf v f).hwd = s.hwd := rfl
@[simp] theorem State.modVf_ports (v : VfId) (f : Func → Func) : (s.modVf v f).ports = s.ports := rfl
@[simp] theorem State.modVf_grafts (v : VfId) (f : Func → Func) : (s.modVf v f).grafts = s.grafts := rfl
@[simp] theorem State.modVf_pwr (v : VfId) (f : Func → Func) : (s.modVf v f).pwr = s.pwr := rfl
@[simp] theorem State.modVf_sys (v : VfId) (f : Func → Func) : (s.modVf v f).sys = s.sys := rfl
@[simp] theorem State.modVf_crn (v : VfId) (f : Func → Func) : (s.modVf v f).crn = s.crn := rfl
@[simp] theorem State.modVf_rootLinear (v : VfId) (f : Func → Func) : (s.modVf v f).rootLinear = s.rootLinear := rfl
@[simp] theorem State.modVf_refresh2x (v : VfId) (f : Func → Func) : (s.modVf v f).refresh2x = s.refresh2x := rfl
@[simp] theorem State.modVf_scrubHours (v : VfId) (f : Func → Func) : (s.modVf v f).scrubHours = s.scrubHours := rfl
@[simp] theorem State.modVf_linearInForce (v : VfId) (f : Func → Func) : (s.modVf v f).linearInForce = s.linearInForce := rfl
@[simp] theorem State.modVf_sweepEn (v : VfId) (f : Func → Func) : (s.modVf v f).sweepEn = s.sweepEn := rfl
@[simp] theorem State.modVf_repairEn (v : VfId) (f : Func → Func) : (s.modVf v f).repairEn = s.repairEn := rfl
@[simp] theorem State.modVf_paceUs (v : VfId) (f : Func → Func) : (s.modVf v f).paceUs = s.paceUs := rfl
@[simp] theorem State.modVf_scrSel (v : VfId) (f : Func → Func) : (s.modVf v f).scrSel = s.scrSel := rfl
@[simp] theorem State.modVf_crownEvts (v : VfId) (f : Func → Func) : (s.modVf v f).crownEvts = s.crownEvts := rfl
@[simp] theorem State.modVf_outbox (v : VfId) (f : Func → Func) : (s.modVf v f).outbox = s.outbox := rfl
@[simp] theorem State.modVf_nextId (v : VfId) (f : Func → Func) : (s.modVf v f).nextId = s.nextId := rfl
@[simp] theorem State.modVf_fresh (v : VfId) (f : Func → Func) : (s.modVf v f).fresh = s.fresh := rfl
@[simp] theorem State.modVf_turn (v : VfId) (f : Func → Func) : (s.modVf v f).turn = s.turn := rfl

/-! ### modFunc -/

@[simp] theorem State.modFunc_pending (fn : HostFn) (f : Func → Func) : (s.modFunc fn f).pending = s.pending := by cases fn <;> rfl
@[simp] theorem State.modFunc_mem (fn : HostFn) (f : Func → Func) : (s.modFunc fn f).mem = s.mem := by cases fn <;> rfl
@[simp] theorem State.modFunc_boughs (fn : HostFn) (f : Func → Func) : (s.modFunc fn f).boughs = s.boughs := by cases fn <;> rfl
@[simp] theorem State.modFunc_groves (fn : HostFn) (f : Func → Func) : (s.modFunc fn f).groves = s.groves := by cases fn <;> rfl
@[simp] theorem State.modFunc_queues (fn : HostFn) (f : Func → Func) : (s.modFunc fn f).queues = s.queues := by cases fn <;> rfl
@[simp] theorem State.modFunc_links (fn : HostFn) (f : Func → Func) : (s.modFunc fn f).links = s.links := by cases fn <;> rfl
@[simp] theorem State.modFunc_plots (fn : HostFn) (f : Func → Func) : (s.modFunc fn f).plots = s.plots := by cases fn <;> rfl
@[simp] theorem State.modFunc_slices (fn : HostFn) (f : Func → Func) : (s.modFunc fn f).slices = s.slices := by cases fn <;> rfl
@[simp] theorem State.modFunc_hbm (fn : HostFn) (f : Func → Func) : (s.modFunc fn f).hbm = s.hbm := by cases fn <;> rfl
@[simp] theorem State.modFunc_scr (fn : HostFn) (f : Func → Func) : (s.modFunc fn f).scr = s.scr := by cases fn <;> rfl
@[simp] theorem State.modFunc_cnp (fn : HostFn) (f : Func → Func) : (s.modFunc fn f).cnp = s.cnp := by cases fn <;> rfl
@[simp] theorem State.modFunc_filters (fn : HostFn) (f : Func → Func) : (s.modFunc fn f).filters = s.filters := by cases fn <;> rfl
@[simp] theorem State.modFunc_seqQ (fn : HostFn) (f : Func → Func) : (s.modFunc fn f).seqQ = s.seqQ := by cases fn <;> rfl
@[simp] theorem State.modFunc_heldReads (fn : HostFn) (f : Func → Func) : (s.modFunc fn f).heldReads = s.heldReads := by cases fn <;> rfl
@[simp] theorem State.modFunc_heldWrites (fn : HostFn) (f : Func → Func) : (s.modFunc fn f).heldWrites = s.heldWrites := by cases fn <;> rfl
@[simp] theorem State.modFunc_txns (fn : HostFn) (f : Func → Func) : (s.modFunc fn f).txns = s.txns := by cases fn <;> rfl
@[simp] theorem State.modFunc_grn (fn : HostFn) (f : Func → Func) : (s.modFunc fn f).grn = s.grn := by cases fn <;> rfl
@[simp] theorem State.modFunc_ring (fn : HostFn) (f : Func → Func) : (s.modFunc fn f).ring = s.ring := by cases fn <;> rfl
@[simp] theorem State.modFunc_hwd (fn : HostFn) (f : Func → Func) : (s.modFunc fn f).hwd = s.hwd := by cases fn <;> rfl
@[simp] theorem State.modFunc_grafts (fn : HostFn) (f : Func → Func) : (s.modFunc fn f).grafts = s.grafts := by cases fn <;> rfl
@[simp] theorem State.modFunc_pwr (fn : HostFn) (f : Func → Func) : (s.modFunc fn f).pwr = s.pwr := by cases fn <;> rfl
@[simp] theorem State.modFunc_sys (fn : HostFn) (f : Func → Func) : (s.modFunc fn f).sys = s.sys := by cases fn <;> rfl
@[simp] theorem State.modFunc_crn (fn : HostFn) (f : Func → Func) : (s.modFunc fn f).crn = s.crn := by cases fn <;> rfl
@[simp] theorem State.modFunc_rootLinear (fn : HostFn) (f : Func → Func) : (s.modFunc fn f).rootLinear = s.rootLinear := by cases fn <;> rfl
@[simp] theorem State.modFunc_refresh2x (fn : HostFn) (f : Func → Func) : (s.modFunc fn f).refresh2x = s.refresh2x := by cases fn <;> rfl
@[simp] theorem State.modFunc_scrubHours (fn : HostFn) (f : Func → Func) : (s.modFunc fn f).scrubHours = s.scrubHours := by cases fn <;> rfl
@[simp] theorem State.modFunc_linearInForce (fn : HostFn) (f : Func → Func) : (s.modFunc fn f).linearInForce = s.linearInForce := by cases fn <;> rfl
@[simp] theorem State.modFunc_sweepEn (fn : HostFn) (f : Func → Func) : (s.modFunc fn f).sweepEn = s.sweepEn := by cases fn <;> rfl
@[simp] theorem State.modFunc_repairEn (fn : HostFn) (f : Func → Func) : (s.modFunc fn f).repairEn = s.repairEn := by cases fn <;> rfl
@[simp] theorem State.modFunc_paceUs (fn : HostFn) (f : Func → Func) : (s.modFunc fn f).paceUs = s.paceUs := by cases fn <;> rfl
@[simp] theorem State.modFunc_scrSel (fn : HostFn) (f : Func → Func) : (s.modFunc fn f).scrSel = s.scrSel := by cases fn <;> rfl
@[simp] theorem State.modFunc_crownEvts (fn : HostFn) (f : Func → Func) : (s.modFunc fn f).crownEvts = s.crownEvts := by cases fn <;> rfl
@[simp] theorem State.modFunc_outbox (fn : HostFn) (f : Func → Func) : (s.modFunc fn f).outbox = s.outbox := by cases fn <;> rfl
@[simp] theorem State.modFunc_nextId (fn : HostFn) (f : Func → Func) : (s.modFunc fn f).nextId = s.nextId := by cases fn <;> rfl
@[simp] theorem State.modFunc_fresh (fn : HostFn) (f : Func → Func) : (s.modFunc fn f).fresh = s.fresh := by cases fn <;> rfl
@[simp] theorem State.modFunc_turn (fn : HostFn) (f : Func → Func) : (s.modFunc fn f).turn = s.turn := by cases fn <;> rfl

/-! ### modLink -/

@[simp] theorem State.modLink_links (i : Nat) (f : Link → Link) : (s.modLink i f).links = lmod s.links i f := rfl
@[simp] theorem State.modLink_pending (i : Nat) (f : Link → Link) : (s.modLink i f).pending = s.pending := rfl
@[simp] theorem State.modLink_mem (i : Nat) (f : Link → Link) : (s.modLink i f).mem = s.mem := rfl
@[simp] theorem State.modLink_boughs (i : Nat) (f : Link → Link) : (s.modLink i f).boughs = s.boughs := rfl
@[simp] theorem State.modLink_groves (i : Nat) (f : Link → Link) : (s.modLink i f).groves = s.groves := rfl
@[simp] theorem State.modLink_queues (i : Nat) (f : Link → Link) : (s.modLink i f).queues = s.queues := rfl
@[simp] theorem State.modLink_plots (i : Nat) (f : Link → Link) : (s.modLink i f).plots = s.plots := rfl
@[simp] theorem State.modLink_slices (i : Nat) (f : Link → Link) : (s.modLink i f).slices = s.slices := rfl
@[simp] theorem State.modLink_hbm (i : Nat) (f : Link → Link) : (s.modLink i f).hbm = s.hbm := rfl
@[simp] theorem State.modLink_scr (i : Nat) (f : Link → Link) : (s.modLink i f).scr = s.scr := rfl
@[simp] theorem State.modLink_cnp (i : Nat) (f : Link → Link) : (s.modLink i f).cnp = s.cnp := rfl
@[simp] theorem State.modLink_filters (i : Nat) (f : Link → Link) : (s.modLink i f).filters = s.filters := rfl
@[simp] theorem State.modLink_seqQ (i : Nat) (f : Link → Link) : (s.modLink i f).seqQ = s.seqQ := rfl
@[simp] theorem State.modLink_heldReads (i : Nat) (f : Link → Link) : (s.modLink i f).heldReads = s.heldReads := rfl
@[simp] theorem State.modLink_heldWrites (i : Nat) (f : Link → Link) : (s.modLink i f).heldWrites = s.heldWrites := rfl
@[simp] theorem State.modLink_txns (i : Nat) (f : Link → Link) : (s.modLink i f).txns = s.txns := rfl
@[simp] theorem State.modLink_grn (i : Nat) (f : Link → Link) : (s.modLink i f).grn = s.grn := rfl
@[simp] theorem State.modLink_ring (i : Nat) (f : Link → Link) : (s.modLink i f).ring = s.ring := rfl
@[simp] theorem State.modLink_hwd (i : Nat) (f : Link → Link) : (s.modLink i f).hwd = s.hwd := rfl
@[simp] theorem State.modLink_ports (i : Nat) (f : Link → Link) : (s.modLink i f).ports = s.ports := rfl
@[simp] theorem State.modLink_vfs (i : Nat) (f : Link → Link) : (s.modLink i f).vfs = s.vfs := rfl
@[simp] theorem State.modLink_grafts (i : Nat) (f : Link → Link) : (s.modLink i f).grafts = s.grafts := rfl
@[simp] theorem State.modLink_pwr (i : Nat) (f : Link → Link) : (s.modLink i f).pwr = s.pwr := rfl
@[simp] theorem State.modLink_sys (i : Nat) (f : Link → Link) : (s.modLink i f).sys = s.sys := rfl
@[simp] theorem State.modLink_crn (i : Nat) (f : Link → Link) : (s.modLink i f).crn = s.crn := rfl
@[simp] theorem State.modLink_rootLinear (i : Nat) (f : Link → Link) : (s.modLink i f).rootLinear = s.rootLinear := rfl
@[simp] theorem State.modLink_refresh2x (i : Nat) (f : Link → Link) : (s.modLink i f).refresh2x = s.refresh2x := rfl
@[simp] theorem State.modLink_scrubHours (i : Nat) (f : Link → Link) : (s.modLink i f).scrubHours = s.scrubHours := rfl
@[simp] theorem State.modLink_linearInForce (i : Nat) (f : Link → Link) : (s.modLink i f).linearInForce = s.linearInForce := rfl
@[simp] theorem State.modLink_sweepEn (i : Nat) (f : Link → Link) : (s.modLink i f).sweepEn = s.sweepEn := rfl
@[simp] theorem State.modLink_repairEn (i : Nat) (f : Link → Link) : (s.modLink i f).repairEn = s.repairEn := rfl
@[simp] theorem State.modLink_paceUs (i : Nat) (f : Link → Link) : (s.modLink i f).paceUs = s.paceUs := rfl
@[simp] theorem State.modLink_scrSel (i : Nat) (f : Link → Link) : (s.modLink i f).scrSel = s.scrSel := rfl
@[simp] theorem State.modLink_crownEvts (i : Nat) (f : Link → Link) : (s.modLink i f).crownEvts = s.crownEvts := rfl
@[simp] theorem State.modLink_outbox (i : Nat) (f : Link → Link) : (s.modLink i f).outbox = s.outbox := rfl
@[simp] theorem State.modLink_nextId (i : Nat) (f : Link → Link) : (s.modLink i f).nextId = s.nextId := rfl
@[simp] theorem State.modLink_fresh (i : Nat) (f : Link → Link) : (s.modLink i f).fresh = s.fresh := rfl
@[simp] theorem State.modLink_turn (i : Nat) (f : Link → Link) : (s.modLink i f).turn = s.turn := rfl

/-! ### modChan -/

@[simp] theorem State.modChan_crn (c : Fin 5) (f : Chan → Chan) : (s.modChan c f).crn = { s.crn with chans := vmod s.crn.chans c f } := rfl
@[simp] theorem State.modChan_pending (c : Fin 5) (f : Chan → Chan) : (s.modChan c f).pending = s.pending := rfl
@[simp] theorem State.modChan_mem (c : Fin 5) (f : Chan → Chan) : (s.modChan c f).mem = s.mem := rfl
@[simp] theorem State.modChan_boughs (c : Fin 5) (f : Chan → Chan) : (s.modChan c f).boughs = s.boughs := rfl
@[simp] theorem State.modChan_groves (c : Fin 5) (f : Chan → Chan) : (s.modChan c f).groves = s.groves := rfl
@[simp] theorem State.modChan_queues (c : Fin 5) (f : Chan → Chan) : (s.modChan c f).queues = s.queues := rfl
@[simp] theorem State.modChan_links (c : Fin 5) (f : Chan → Chan) : (s.modChan c f).links = s.links := rfl
@[simp] theorem State.modChan_plots (c : Fin 5) (f : Chan → Chan) : (s.modChan c f).plots = s.plots := rfl
@[simp] theorem State.modChan_slices (c : Fin 5) (f : Chan → Chan) : (s.modChan c f).slices = s.slices := rfl
@[simp] theorem State.modChan_hbm (c : Fin 5) (f : Chan → Chan) : (s.modChan c f).hbm = s.hbm := rfl
@[simp] theorem State.modChan_scr (c : Fin 5) (f : Chan → Chan) : (s.modChan c f).scr = s.scr := rfl
@[simp] theorem State.modChan_cnp (c : Fin 5) (f : Chan → Chan) : (s.modChan c f).cnp = s.cnp := rfl
@[simp] theorem State.modChan_filters (c : Fin 5) (f : Chan → Chan) : (s.modChan c f).filters = s.filters := rfl
@[simp] theorem State.modChan_seqQ (c : Fin 5) (f : Chan → Chan) : (s.modChan c f).seqQ = s.seqQ := rfl
@[simp] theorem State.modChan_heldReads (c : Fin 5) (f : Chan → Chan) : (s.modChan c f).heldReads = s.heldReads := rfl
@[simp] theorem State.modChan_heldWrites (c : Fin 5) (f : Chan → Chan) : (s.modChan c f).heldWrites = s.heldWrites := rfl
@[simp] theorem State.modChan_txns (c : Fin 5) (f : Chan → Chan) : (s.modChan c f).txns = s.txns := rfl
@[simp] theorem State.modChan_grn (c : Fin 5) (f : Chan → Chan) : (s.modChan c f).grn = s.grn := rfl
@[simp] theorem State.modChan_ring (c : Fin 5) (f : Chan → Chan) : (s.modChan c f).ring = s.ring := rfl
@[simp] theorem State.modChan_hwd (c : Fin 5) (f : Chan → Chan) : (s.modChan c f).hwd = s.hwd := rfl
@[simp] theorem State.modChan_ports (c : Fin 5) (f : Chan → Chan) : (s.modChan c f).ports = s.ports := rfl
@[simp] theorem State.modChan_vfs (c : Fin 5) (f : Chan → Chan) : (s.modChan c f).vfs = s.vfs := rfl
@[simp] theorem State.modChan_grafts (c : Fin 5) (f : Chan → Chan) : (s.modChan c f).grafts = s.grafts := rfl
@[simp] theorem State.modChan_pwr (c : Fin 5) (f : Chan → Chan) : (s.modChan c f).pwr = s.pwr := rfl
@[simp] theorem State.modChan_sys (c : Fin 5) (f : Chan → Chan) : (s.modChan c f).sys = s.sys := rfl
@[simp] theorem State.modChan_rootLinear (c : Fin 5) (f : Chan → Chan) : (s.modChan c f).rootLinear = s.rootLinear := rfl
@[simp] theorem State.modChan_refresh2x (c : Fin 5) (f : Chan → Chan) : (s.modChan c f).refresh2x = s.refresh2x := rfl
@[simp] theorem State.modChan_scrubHours (c : Fin 5) (f : Chan → Chan) : (s.modChan c f).scrubHours = s.scrubHours := rfl
@[simp] theorem State.modChan_linearInForce (c : Fin 5) (f : Chan → Chan) : (s.modChan c f).linearInForce = s.linearInForce := rfl
@[simp] theorem State.modChan_sweepEn (c : Fin 5) (f : Chan → Chan) : (s.modChan c f).sweepEn = s.sweepEn := rfl
@[simp] theorem State.modChan_repairEn (c : Fin 5) (f : Chan → Chan) : (s.modChan c f).repairEn = s.repairEn := rfl
@[simp] theorem State.modChan_paceUs (c : Fin 5) (f : Chan → Chan) : (s.modChan c f).paceUs = s.paceUs := rfl
@[simp] theorem State.modChan_scrSel (c : Fin 5) (f : Chan → Chan) : (s.modChan c f).scrSel = s.scrSel := rfl
@[simp] theorem State.modChan_crownEvts (c : Fin 5) (f : Chan → Chan) : (s.modChan c f).crownEvts = s.crownEvts := rfl
@[simp] theorem State.modChan_outbox (c : Fin 5) (f : Chan → Chan) : (s.modChan c f).outbox = s.outbox := rfl
@[simp] theorem State.modChan_nextId (c : Fin 5) (f : Chan → Chan) : (s.modChan c f).nextId = s.nextId := rfl
@[simp] theorem State.modChan_fresh (c : Fin 5) (f : Chan → Chan) : (s.modChan c f).fresh = s.fresh := rfl
@[simp] theorem State.modChan_turn (c : Fin 5) (f : Chan → Chan) : (s.modChan c f).turn = s.turn := rfl

/-! ### modTxn -/

@[simp] theorem State.modTxn_txns (i : Nat) (f : WTxn → WTxn) : (s.modTxn i f).txns = s.txns.map fun t => if t.id = i then f t else t := rfl
@[simp] theorem State.modTxn_pending (i : Nat) (f : WTxn → WTxn) : (s.modTxn i f).pending = s.pending := rfl
@[simp] theorem State.modTxn_mem (i : Nat) (f : WTxn → WTxn) : (s.modTxn i f).mem = s.mem := rfl
@[simp] theorem State.modTxn_boughs (i : Nat) (f : WTxn → WTxn) : (s.modTxn i f).boughs = s.boughs := rfl
@[simp] theorem State.modTxn_groves (i : Nat) (f : WTxn → WTxn) : (s.modTxn i f).groves = s.groves := rfl
@[simp] theorem State.modTxn_queues (i : Nat) (f : WTxn → WTxn) : (s.modTxn i f).queues = s.queues := rfl
@[simp] theorem State.modTxn_links (i : Nat) (f : WTxn → WTxn) : (s.modTxn i f).links = s.links := rfl
@[simp] theorem State.modTxn_plots (i : Nat) (f : WTxn → WTxn) : (s.modTxn i f).plots = s.plots := rfl
@[simp] theorem State.modTxn_slices (i : Nat) (f : WTxn → WTxn) : (s.modTxn i f).slices = s.slices := rfl
@[simp] theorem State.modTxn_hbm (i : Nat) (f : WTxn → WTxn) : (s.modTxn i f).hbm = s.hbm := rfl
@[simp] theorem State.modTxn_scr (i : Nat) (f : WTxn → WTxn) : (s.modTxn i f).scr = s.scr := rfl
@[simp] theorem State.modTxn_cnp (i : Nat) (f : WTxn → WTxn) : (s.modTxn i f).cnp = s.cnp := rfl
@[simp] theorem State.modTxn_filters (i : Nat) (f : WTxn → WTxn) : (s.modTxn i f).filters = s.filters := rfl
@[simp] theorem State.modTxn_seqQ (i : Nat) (f : WTxn → WTxn) : (s.modTxn i f).seqQ = s.seqQ := rfl
@[simp] theorem State.modTxn_heldReads (i : Nat) (f : WTxn → WTxn) : (s.modTxn i f).heldReads = s.heldReads := rfl
@[simp] theorem State.modTxn_heldWrites (i : Nat) (f : WTxn → WTxn) : (s.modTxn i f).heldWrites = s.heldWrites := rfl
@[simp] theorem State.modTxn_grn (i : Nat) (f : WTxn → WTxn) : (s.modTxn i f).grn = s.grn := rfl
@[simp] theorem State.modTxn_ring (i : Nat) (f : WTxn → WTxn) : (s.modTxn i f).ring = s.ring := rfl
@[simp] theorem State.modTxn_hwd (i : Nat) (f : WTxn → WTxn) : (s.modTxn i f).hwd = s.hwd := rfl
@[simp] theorem State.modTxn_ports (i : Nat) (f : WTxn → WTxn) : (s.modTxn i f).ports = s.ports := rfl
@[simp] theorem State.modTxn_vfs (i : Nat) (f : WTxn → WTxn) : (s.modTxn i f).vfs = s.vfs := rfl
@[simp] theorem State.modTxn_grafts (i : Nat) (f : WTxn → WTxn) : (s.modTxn i f).grafts = s.grafts := rfl
@[simp] theorem State.modTxn_pwr (i : Nat) (f : WTxn → WTxn) : (s.modTxn i f).pwr = s.pwr := rfl
@[simp] theorem State.modTxn_sys (i : Nat) (f : WTxn → WTxn) : (s.modTxn i f).sys = s.sys := rfl
@[simp] theorem State.modTxn_crn (i : Nat) (f : WTxn → WTxn) : (s.modTxn i f).crn = s.crn := rfl
@[simp] theorem State.modTxn_rootLinear (i : Nat) (f : WTxn → WTxn) : (s.modTxn i f).rootLinear = s.rootLinear := rfl
@[simp] theorem State.modTxn_refresh2x (i : Nat) (f : WTxn → WTxn) : (s.modTxn i f).refresh2x = s.refresh2x := rfl
@[simp] theorem State.modTxn_scrubHours (i : Nat) (f : WTxn → WTxn) : (s.modTxn i f).scrubHours = s.scrubHours := rfl
@[simp] theorem State.modTxn_linearInForce (i : Nat) (f : WTxn → WTxn) : (s.modTxn i f).linearInForce = s.linearInForce := rfl
@[simp] theorem State.modTxn_sweepEn (i : Nat) (f : WTxn → WTxn) : (s.modTxn i f).sweepEn = s.sweepEn := rfl
@[simp] theorem State.modTxn_repairEn (i : Nat) (f : WTxn → WTxn) : (s.modTxn i f).repairEn = s.repairEn := rfl
@[simp] theorem State.modTxn_paceUs (i : Nat) (f : WTxn → WTxn) : (s.modTxn i f).paceUs = s.paceUs := rfl
@[simp] theorem State.modTxn_scrSel (i : Nat) (f : WTxn → WTxn) : (s.modTxn i f).scrSel = s.scrSel := rfl
@[simp] theorem State.modTxn_crownEvts (i : Nat) (f : WTxn → WTxn) : (s.modTxn i f).crownEvts = s.crownEvts := rfl
@[simp] theorem State.modTxn_outbox (i : Nat) (f : WTxn → WTxn) : (s.modTxn i f).outbox = s.outbox := rfl
@[simp] theorem State.modTxn_nextId (i : Nat) (f : WTxn → WTxn) : (s.modTxn i f).nextId = s.nextId := rfl
@[simp] theorem State.modTxn_fresh (i : Nat) (f : WTxn → WTxn) : (s.modTxn i f).fresh = s.fresh := rfl
@[simp] theorem State.modTxn_turn (i : Nat) (f : WTxn → WTxn) : (s.modTxn i f).turn = s.turn := rfl

/-! ### modMem -/

@[simp] theorem State.modMem_mem (f : Memory → Memory) : (s.modMem f).mem = f s.mem := rfl
@[simp] theorem State.modMem_pending (f : Memory → Memory) : (s.modMem f).pending = s.pending := rfl
@[simp] theorem State.modMem_boughs (f : Memory → Memory) : (s.modMem f).boughs = s.boughs := rfl
@[simp] theorem State.modMem_groves (f : Memory → Memory) : (s.modMem f).groves = s.groves := rfl
@[simp] theorem State.modMem_queues (f : Memory → Memory) : (s.modMem f).queues = s.queues := rfl
@[simp] theorem State.modMem_links (f : Memory → Memory) : (s.modMem f).links = s.links := rfl
@[simp] theorem State.modMem_plots (f : Memory → Memory) : (s.modMem f).plots = s.plots := rfl
@[simp] theorem State.modMem_slices (f : Memory → Memory) : (s.modMem f).slices = s.slices := rfl
@[simp] theorem State.modMem_hbm (f : Memory → Memory) : (s.modMem f).hbm = s.hbm := rfl
@[simp] theorem State.modMem_scr (f : Memory → Memory) : (s.modMem f).scr = s.scr := rfl
@[simp] theorem State.modMem_cnp (f : Memory → Memory) : (s.modMem f).cnp = s.cnp := rfl
@[simp] theorem State.modMem_filters (f : Memory → Memory) : (s.modMem f).filters = s.filters := rfl
@[simp] theorem State.modMem_seqQ (f : Memory → Memory) : (s.modMem f).seqQ = s.seqQ := rfl
@[simp] theorem State.modMem_heldReads (f : Memory → Memory) : (s.modMem f).heldReads = s.heldReads := rfl
@[simp] theorem State.modMem_heldWrites (f : Memory → Memory) : (s.modMem f).heldWrites = s.heldWrites := rfl
@[simp] theorem State.modMem_txns (f : Memory → Memory) : (s.modMem f).txns = s.txns := rfl
@[simp] theorem State.modMem_grn (f : Memory → Memory) : (s.modMem f).grn = s.grn := rfl
@[simp] theorem State.modMem_ring (f : Memory → Memory) : (s.modMem f).ring = s.ring := rfl
@[simp] theorem State.modMem_hwd (f : Memory → Memory) : (s.modMem f).hwd = s.hwd := rfl
@[simp] theorem State.modMem_ports (f : Memory → Memory) : (s.modMem f).ports = s.ports := rfl
@[simp] theorem State.modMem_vfs (f : Memory → Memory) : (s.modMem f).vfs = s.vfs := rfl
@[simp] theorem State.modMem_grafts (f : Memory → Memory) : (s.modMem f).grafts = s.grafts := rfl
@[simp] theorem State.modMem_pwr (f : Memory → Memory) : (s.modMem f).pwr = s.pwr := rfl
@[simp] theorem State.modMem_sys (f : Memory → Memory) : (s.modMem f).sys = s.sys := rfl
@[simp] theorem State.modMem_crn (f : Memory → Memory) : (s.modMem f).crn = s.crn := rfl
@[simp] theorem State.modMem_rootLinear (f : Memory → Memory) : (s.modMem f).rootLinear = s.rootLinear := rfl
@[simp] theorem State.modMem_refresh2x (f : Memory → Memory) : (s.modMem f).refresh2x = s.refresh2x := rfl
@[simp] theorem State.modMem_scrubHours (f : Memory → Memory) : (s.modMem f).scrubHours = s.scrubHours := rfl
@[simp] theorem State.modMem_linearInForce (f : Memory → Memory) : (s.modMem f).linearInForce = s.linearInForce := rfl
@[simp] theorem State.modMem_sweepEn (f : Memory → Memory) : (s.modMem f).sweepEn = s.sweepEn := rfl
@[simp] theorem State.modMem_repairEn (f : Memory → Memory) : (s.modMem f).repairEn = s.repairEn := rfl
@[simp] theorem State.modMem_paceUs (f : Memory → Memory) : (s.modMem f).paceUs = s.paceUs := rfl
@[simp] theorem State.modMem_scrSel (f : Memory → Memory) : (s.modMem f).scrSel = s.scrSel := rfl
@[simp] theorem State.modMem_crownEvts (f : Memory → Memory) : (s.modMem f).crownEvts = s.crownEvts := rfl
@[simp] theorem State.modMem_outbox (f : Memory → Memory) : (s.modMem f).outbox = s.outbox := rfl
@[simp] theorem State.modMem_nextId (f : Memory → Memory) : (s.modMem f).nextId = s.nextId := rfl
@[simp] theorem State.modMem_fresh (f : Memory → Memory) : (s.modMem f).fresh = s.fresh := rfl
@[simp] theorem State.modMem_turn (f : Memory → Memory) : (s.modMem f).turn = s.turn := rfl

/-! ### modGrn -/

@[simp] theorem State.modGrn_grn (f : Grn → Grn) : (s.modGrn f).grn = f s.grn := rfl
@[simp] theorem State.modGrn_pending (f : Grn → Grn) : (s.modGrn f).pending = s.pending := rfl
@[simp] theorem State.modGrn_mem (f : Grn → Grn) : (s.modGrn f).mem = s.mem := rfl
@[simp] theorem State.modGrn_boughs (f : Grn → Grn) : (s.modGrn f).boughs = s.boughs := rfl
@[simp] theorem State.modGrn_groves (f : Grn → Grn) : (s.modGrn f).groves = s.groves := rfl
@[simp] theorem State.modGrn_queues (f : Grn → Grn) : (s.modGrn f).queues = s.queues := rfl
@[simp] theorem State.modGrn_links (f : Grn → Grn) : (s.modGrn f).links = s.links := rfl
@[simp] theorem State.modGrn_plots (f : Grn → Grn) : (s.modGrn f).plots = s.plots := rfl
@[simp] theorem State.modGrn_slices (f : Grn → Grn) : (s.modGrn f).slices = s.slices := rfl
@[simp] theorem State.modGrn_hbm (f : Grn → Grn) : (s.modGrn f).hbm = s.hbm := rfl
@[simp] theorem State.modGrn_scr (f : Grn → Grn) : (s.modGrn f).scr = s.scr := rfl
@[simp] theorem State.modGrn_cnp (f : Grn → Grn) : (s.modGrn f).cnp = s.cnp := rfl
@[simp] theorem State.modGrn_filters (f : Grn → Grn) : (s.modGrn f).filters = s.filters := rfl
@[simp] theorem State.modGrn_seqQ (f : Grn → Grn) : (s.modGrn f).seqQ = s.seqQ := rfl
@[simp] theorem State.modGrn_heldReads (f : Grn → Grn) : (s.modGrn f).heldReads = s.heldReads := rfl
@[simp] theorem State.modGrn_heldWrites (f : Grn → Grn) : (s.modGrn f).heldWrites = s.heldWrites := rfl
@[simp] theorem State.modGrn_txns (f : Grn → Grn) : (s.modGrn f).txns = s.txns := rfl
@[simp] theorem State.modGrn_ring (f : Grn → Grn) : (s.modGrn f).ring = s.ring := rfl
@[simp] theorem State.modGrn_hwd (f : Grn → Grn) : (s.modGrn f).hwd = s.hwd := rfl
@[simp] theorem State.modGrn_ports (f : Grn → Grn) : (s.modGrn f).ports = s.ports := rfl
@[simp] theorem State.modGrn_vfs (f : Grn → Grn) : (s.modGrn f).vfs = s.vfs := rfl
@[simp] theorem State.modGrn_grafts (f : Grn → Grn) : (s.modGrn f).grafts = s.grafts := rfl
@[simp] theorem State.modGrn_pwr (f : Grn → Grn) : (s.modGrn f).pwr = s.pwr := rfl
@[simp] theorem State.modGrn_sys (f : Grn → Grn) : (s.modGrn f).sys = s.sys := rfl
@[simp] theorem State.modGrn_crn (f : Grn → Grn) : (s.modGrn f).crn = s.crn := rfl
@[simp] theorem State.modGrn_rootLinear (f : Grn → Grn) : (s.modGrn f).rootLinear = s.rootLinear := rfl
@[simp] theorem State.modGrn_refresh2x (f : Grn → Grn) : (s.modGrn f).refresh2x = s.refresh2x := rfl
@[simp] theorem State.modGrn_scrubHours (f : Grn → Grn) : (s.modGrn f).scrubHours = s.scrubHours := rfl
@[simp] theorem State.modGrn_linearInForce (f : Grn → Grn) : (s.modGrn f).linearInForce = s.linearInForce := rfl
@[simp] theorem State.modGrn_sweepEn (f : Grn → Grn) : (s.modGrn f).sweepEn = s.sweepEn := rfl
@[simp] theorem State.modGrn_repairEn (f : Grn → Grn) : (s.modGrn f).repairEn = s.repairEn := rfl
@[simp] theorem State.modGrn_paceUs (f : Grn → Grn) : (s.modGrn f).paceUs = s.paceUs := rfl
@[simp] theorem State.modGrn_scrSel (f : Grn → Grn) : (s.modGrn f).scrSel = s.scrSel := rfl
@[simp] theorem State.modGrn_crownEvts (f : Grn → Grn) : (s.modGrn f).crownEvts = s.crownEvts := rfl
@[simp] theorem State.modGrn_outbox (f : Grn → Grn) : (s.modGrn f).outbox = s.outbox := rfl
@[simp] theorem State.modGrn_nextId (f : Grn → Grn) : (s.modGrn f).nextId = s.nextId := rfl
@[simp] theorem State.modGrn_fresh (f : Grn → Grn) : (s.modGrn f).fresh = s.fresh := rfl
@[simp] theorem State.modGrn_turn (f : Grn → Grn) : (s.modGrn f).turn = s.turn := rfl

/-! ### modHwd -/

@[simp] theorem State.modHwd_hwd (f : Hwd → Hwd) : (s.modHwd f).hwd = f s.hwd := rfl
@[simp] theorem State.modHwd_pending (f : Hwd → Hwd) : (s.modHwd f).pending = s.pending := rfl
@[simp] theorem State.modHwd_mem (f : Hwd → Hwd) : (s.modHwd f).mem = s.mem := rfl
@[simp] theorem State.modHwd_boughs (f : Hwd → Hwd) : (s.modHwd f).boughs = s.boughs := rfl
@[simp] theorem State.modHwd_groves (f : Hwd → Hwd) : (s.modHwd f).groves = s.groves := rfl
@[simp] theorem State.modHwd_queues (f : Hwd → Hwd) : (s.modHwd f).queues = s.queues := rfl
@[simp] theorem State.modHwd_links (f : Hwd → Hwd) : (s.modHwd f).links = s.links := rfl
@[simp] theorem State.modHwd_plots (f : Hwd → Hwd) : (s.modHwd f).plots = s.plots := rfl
@[simp] theorem State.modHwd_slices (f : Hwd → Hwd) : (s.modHwd f).slices = s.slices := rfl
@[simp] theorem State.modHwd_hbm (f : Hwd → Hwd) : (s.modHwd f).hbm = s.hbm := rfl
@[simp] theorem State.modHwd_scr (f : Hwd → Hwd) : (s.modHwd f).scr = s.scr := rfl
@[simp] theorem State.modHwd_cnp (f : Hwd → Hwd) : (s.modHwd f).cnp = s.cnp := rfl
@[simp] theorem State.modHwd_filters (f : Hwd → Hwd) : (s.modHwd f).filters = s.filters := rfl
@[simp] theorem State.modHwd_seqQ (f : Hwd → Hwd) : (s.modHwd f).seqQ = s.seqQ := rfl
@[simp] theorem State.modHwd_heldReads (f : Hwd → Hwd) : (s.modHwd f).heldReads = s.heldReads := rfl
@[simp] theorem State.modHwd_heldWrites (f : Hwd → Hwd) : (s.modHwd f).heldWrites = s.heldWrites := rfl
@[simp] theorem State.modHwd_txns (f : Hwd → Hwd) : (s.modHwd f).txns = s.txns := rfl
@[simp] theorem State.modHwd_grn (f : Hwd → Hwd) : (s.modHwd f).grn = s.grn := rfl
@[simp] theorem State.modHwd_ring (f : Hwd → Hwd) : (s.modHwd f).ring = s.ring := rfl
@[simp] theorem State.modHwd_ports (f : Hwd → Hwd) : (s.modHwd f).ports = s.ports := rfl
@[simp] theorem State.modHwd_vfs (f : Hwd → Hwd) : (s.modHwd f).vfs = s.vfs := rfl
@[simp] theorem State.modHwd_grafts (f : Hwd → Hwd) : (s.modHwd f).grafts = s.grafts := rfl
@[simp] theorem State.modHwd_pwr (f : Hwd → Hwd) : (s.modHwd f).pwr = s.pwr := rfl
@[simp] theorem State.modHwd_sys (f : Hwd → Hwd) : (s.modHwd f).sys = s.sys := rfl
@[simp] theorem State.modHwd_crn (f : Hwd → Hwd) : (s.modHwd f).crn = s.crn := rfl
@[simp] theorem State.modHwd_rootLinear (f : Hwd → Hwd) : (s.modHwd f).rootLinear = s.rootLinear := rfl
@[simp] theorem State.modHwd_refresh2x (f : Hwd → Hwd) : (s.modHwd f).refresh2x = s.refresh2x := rfl
@[simp] theorem State.modHwd_scrubHours (f : Hwd → Hwd) : (s.modHwd f).scrubHours = s.scrubHours := rfl
@[simp] theorem State.modHwd_linearInForce (f : Hwd → Hwd) : (s.modHwd f).linearInForce = s.linearInForce := rfl
@[simp] theorem State.modHwd_sweepEn (f : Hwd → Hwd) : (s.modHwd f).sweepEn = s.sweepEn := rfl
@[simp] theorem State.modHwd_repairEn (f : Hwd → Hwd) : (s.modHwd f).repairEn = s.repairEn := rfl
@[simp] theorem State.modHwd_paceUs (f : Hwd → Hwd) : (s.modHwd f).paceUs = s.paceUs := rfl
@[simp] theorem State.modHwd_scrSel (f : Hwd → Hwd) : (s.modHwd f).scrSel = s.scrSel := rfl
@[simp] theorem State.modHwd_crownEvts (f : Hwd → Hwd) : (s.modHwd f).crownEvts = s.crownEvts := rfl
@[simp] theorem State.modHwd_outbox (f : Hwd → Hwd) : (s.modHwd f).outbox = s.outbox := rfl
@[simp] theorem State.modHwd_nextId (f : Hwd → Hwd) : (s.modHwd f).nextId = s.nextId := rfl
@[simp] theorem State.modHwd_fresh (f : Hwd → Hwd) : (s.modHwd f).fresh = s.fresh := rfl
@[simp] theorem State.modHwd_turn (f : Hwd → Hwd) : (s.modHwd f).turn = s.turn := rfl

/-! ### modSys -/

@[simp] theorem State.modSys_sys (f : Sys → Sys) : (s.modSys f).sys = f s.sys := rfl
@[simp] theorem State.modSys_pending (f : Sys → Sys) : (s.modSys f).pending = s.pending := rfl
@[simp] theorem State.modSys_mem (f : Sys → Sys) : (s.modSys f).mem = s.mem := rfl
@[simp] theorem State.modSys_boughs (f : Sys → Sys) : (s.modSys f).boughs = s.boughs := rfl
@[simp] theorem State.modSys_groves (f : Sys → Sys) : (s.modSys f).groves = s.groves := rfl
@[simp] theorem State.modSys_queues (f : Sys → Sys) : (s.modSys f).queues = s.queues := rfl
@[simp] theorem State.modSys_links (f : Sys → Sys) : (s.modSys f).links = s.links := rfl
@[simp] theorem State.modSys_plots (f : Sys → Sys) : (s.modSys f).plots = s.plots := rfl
@[simp] theorem State.modSys_slices (f : Sys → Sys) : (s.modSys f).slices = s.slices := rfl
@[simp] theorem State.modSys_hbm (f : Sys → Sys) : (s.modSys f).hbm = s.hbm := rfl
@[simp] theorem State.modSys_scr (f : Sys → Sys) : (s.modSys f).scr = s.scr := rfl
@[simp] theorem State.modSys_cnp (f : Sys → Sys) : (s.modSys f).cnp = s.cnp := rfl
@[simp] theorem State.modSys_filters (f : Sys → Sys) : (s.modSys f).filters = s.filters := rfl
@[simp] theorem State.modSys_seqQ (f : Sys → Sys) : (s.modSys f).seqQ = s.seqQ := rfl
@[simp] theorem State.modSys_heldReads (f : Sys → Sys) : (s.modSys f).heldReads = s.heldReads := rfl
@[simp] theorem State.modSys_heldWrites (f : Sys → Sys) : (s.modSys f).heldWrites = s.heldWrites := rfl
@[simp] theorem State.modSys_txns (f : Sys → Sys) : (s.modSys f).txns = s.txns := rfl
@[simp] theorem State.modSys_grn (f : Sys → Sys) : (s.modSys f).grn = s.grn := rfl
@[simp] theorem State.modSys_ring (f : Sys → Sys) : (s.modSys f).ring = s.ring := rfl
@[simp] theorem State.modSys_hwd (f : Sys → Sys) : (s.modSys f).hwd = s.hwd := rfl
@[simp] theorem State.modSys_ports (f : Sys → Sys) : (s.modSys f).ports = s.ports := rfl
@[simp] theorem State.modSys_vfs (f : Sys → Sys) : (s.modSys f).vfs = s.vfs := rfl
@[simp] theorem State.modSys_grafts (f : Sys → Sys) : (s.modSys f).grafts = s.grafts := rfl
@[simp] theorem State.modSys_pwr (f : Sys → Sys) : (s.modSys f).pwr = s.pwr := rfl
@[simp] theorem State.modSys_crn (f : Sys → Sys) : (s.modSys f).crn = s.crn := rfl
@[simp] theorem State.modSys_rootLinear (f : Sys → Sys) : (s.modSys f).rootLinear = s.rootLinear := rfl
@[simp] theorem State.modSys_refresh2x (f : Sys → Sys) : (s.modSys f).refresh2x = s.refresh2x := rfl
@[simp] theorem State.modSys_scrubHours (f : Sys → Sys) : (s.modSys f).scrubHours = s.scrubHours := rfl
@[simp] theorem State.modSys_linearInForce (f : Sys → Sys) : (s.modSys f).linearInForce = s.linearInForce := rfl
@[simp] theorem State.modSys_sweepEn (f : Sys → Sys) : (s.modSys f).sweepEn = s.sweepEn := rfl
@[simp] theorem State.modSys_repairEn (f : Sys → Sys) : (s.modSys f).repairEn = s.repairEn := rfl
@[simp] theorem State.modSys_paceUs (f : Sys → Sys) : (s.modSys f).paceUs = s.paceUs := rfl
@[simp] theorem State.modSys_scrSel (f : Sys → Sys) : (s.modSys f).scrSel = s.scrSel := rfl
@[simp] theorem State.modSys_crownEvts (f : Sys → Sys) : (s.modSys f).crownEvts = s.crownEvts := rfl
@[simp] theorem State.modSys_outbox (f : Sys → Sys) : (s.modSys f).outbox = s.outbox := rfl
@[simp] theorem State.modSys_nextId (f : Sys → Sys) : (s.modSys f).nextId = s.nextId := rfl
@[simp] theorem State.modSys_fresh (f : Sys → Sys) : (s.modSys f).fresh = s.fresh := rfl
@[simp] theorem State.modSys_turn (f : Sys → Sys) : (s.modSys f).turn = s.turn := rfl

/-! ### modPwr -/

@[simp] theorem State.modPwr_pwr (f : Pwr → Pwr) : (s.modPwr f).pwr = f s.pwr := rfl
@[simp] theorem State.modPwr_pending (f : Pwr → Pwr) : (s.modPwr f).pending = s.pending := rfl
@[simp] theorem State.modPwr_mem (f : Pwr → Pwr) : (s.modPwr f).mem = s.mem := rfl
@[simp] theorem State.modPwr_boughs (f : Pwr → Pwr) : (s.modPwr f).boughs = s.boughs := rfl
@[simp] theorem State.modPwr_groves (f : Pwr → Pwr) : (s.modPwr f).groves = s.groves := rfl
@[simp] theorem State.modPwr_queues (f : Pwr → Pwr) : (s.modPwr f).queues = s.queues := rfl
@[simp] theorem State.modPwr_links (f : Pwr → Pwr) : (s.modPwr f).links = s.links := rfl
@[simp] theorem State.modPwr_plots (f : Pwr → Pwr) : (s.modPwr f).plots = s.plots := rfl
@[simp] theorem State.modPwr_slices (f : Pwr → Pwr) : (s.modPwr f).slices = s.slices := rfl
@[simp] theorem State.modPwr_hbm (f : Pwr → Pwr) : (s.modPwr f).hbm = s.hbm := rfl
@[simp] theorem State.modPwr_scr (f : Pwr → Pwr) : (s.modPwr f).scr = s.scr := rfl
@[simp] theorem State.modPwr_cnp (f : Pwr → Pwr) : (s.modPwr f).cnp = s.cnp := rfl
@[simp] theorem State.modPwr_filters (f : Pwr → Pwr) : (s.modPwr f).filters = s.filters := rfl
@[simp] theorem State.modPwr_seqQ (f : Pwr → Pwr) : (s.modPwr f).seqQ = s.seqQ := rfl
@[simp] theorem State.modPwr_heldReads (f : Pwr → Pwr) : (s.modPwr f).heldReads = s.heldReads := rfl
@[simp] theorem State.modPwr_heldWrites (f : Pwr → Pwr) : (s.modPwr f).heldWrites = s.heldWrites := rfl
@[simp] theorem State.modPwr_txns (f : Pwr → Pwr) : (s.modPwr f).txns = s.txns := rfl
@[simp] theorem State.modPwr_grn (f : Pwr → Pwr) : (s.modPwr f).grn = s.grn := rfl
@[simp] theorem State.modPwr_ring (f : Pwr → Pwr) : (s.modPwr f).ring = s.ring := rfl
@[simp] theorem State.modPwr_hwd (f : Pwr → Pwr) : (s.modPwr f).hwd = s.hwd := rfl
@[simp] theorem State.modPwr_ports (f : Pwr → Pwr) : (s.modPwr f).ports = s.ports := rfl
@[simp] theorem State.modPwr_vfs (f : Pwr → Pwr) : (s.modPwr f).vfs = s.vfs := rfl
@[simp] theorem State.modPwr_grafts (f : Pwr → Pwr) : (s.modPwr f).grafts = s.grafts := rfl
@[simp] theorem State.modPwr_sys (f : Pwr → Pwr) : (s.modPwr f).sys = s.sys := rfl
@[simp] theorem State.modPwr_crn (f : Pwr → Pwr) : (s.modPwr f).crn = s.crn := rfl
@[simp] theorem State.modPwr_rootLinear (f : Pwr → Pwr) : (s.modPwr f).rootLinear = s.rootLinear := rfl
@[simp] theorem State.modPwr_refresh2x (f : Pwr → Pwr) : (s.modPwr f).refresh2x = s.refresh2x := rfl
@[simp] theorem State.modPwr_scrubHours (f : Pwr → Pwr) : (s.modPwr f).scrubHours = s.scrubHours := rfl
@[simp] theorem State.modPwr_linearInForce (f : Pwr → Pwr) : (s.modPwr f).linearInForce = s.linearInForce := rfl
@[simp] theorem State.modPwr_sweepEn (f : Pwr → Pwr) : (s.modPwr f).sweepEn = s.sweepEn := rfl
@[simp] theorem State.modPwr_repairEn (f : Pwr → Pwr) : (s.modPwr f).repairEn = s.repairEn := rfl
@[simp] theorem State.modPwr_paceUs (f : Pwr → Pwr) : (s.modPwr f).paceUs = s.paceUs := rfl
@[simp] theorem State.modPwr_scrSel (f : Pwr → Pwr) : (s.modPwr f).scrSel = s.scrSel := rfl
@[simp] theorem State.modPwr_crownEvts (f : Pwr → Pwr) : (s.modPwr f).crownEvts = s.crownEvts := rfl
@[simp] theorem State.modPwr_outbox (f : Pwr → Pwr) : (s.modPwr f).outbox = s.outbox := rfl
@[simp] theorem State.modPwr_nextId (f : Pwr → Pwr) : (s.modPwr f).nextId = s.nextId := rfl
@[simp] theorem State.modPwr_fresh (f : Pwr → Pwr) : (s.modPwr f).fresh = s.fresh := rfl
@[simp] theorem State.modPwr_turn (f : Pwr → Pwr) : (s.modPwr f).turn = s.turn := rfl

/-! ### modRing -/

@[simp] theorem State.modRing_ring (f : Ring → Ring) : (s.modRing f).ring = f s.ring := rfl
@[simp] theorem State.modRing_pending (f : Ring → Ring) : (s.modRing f).pending = s.pending := rfl
@[simp] theorem State.modRing_mem (f : Ring → Ring) : (s.modRing f).mem = s.mem := rfl
@[simp] theorem State.modRing_boughs (f : Ring → Ring) : (s.modRing f).boughs = s.boughs := rfl
@[simp] theorem State.modRing_groves (f : Ring → Ring) : (s.modRing f).groves = s.groves := rfl
@[simp] theorem State.modRing_queues (f : Ring → Ring) : (s.modRing f).queues = s.queues := rfl
@[simp] theorem State.modRing_links (f : Ring → Ring) : (s.modRing f).links = s.links := rfl
@[simp] theorem State.modRing_plots (f : Ring → Ring) : (s.modRing f).plots = s.plots := rfl
@[simp] theorem State.modRing_slices (f : Ring → Ring) : (s.modRing f).slices = s.slices := rfl
@[simp] theorem State.modRing_hbm (f : Ring → Ring) : (s.modRing f).hbm = s.hbm := rfl
@[simp] theorem State.modRing_scr (f : Ring → Ring) : (s.modRing f).scr = s.scr := rfl
@[simp] theorem State.modRing_cnp (f : Ring → Ring) : (s.modRing f).cnp = s.cnp := rfl
@[simp] theorem State.modRing_filters (f : Ring → Ring) : (s.modRing f).filters = s.filters := rfl
@[simp] theorem State.modRing_seqQ (f : Ring → Ring) : (s.modRing f).seqQ = s.seqQ := rfl
@[simp] theorem State.modRing_heldReads (f : Ring → Ring) : (s.modRing f).heldReads = s.heldReads := rfl
@[simp] theorem State.modRing_heldWrites (f : Ring → Ring) : (s.modRing f).heldWrites = s.heldWrites := rfl
@[simp] theorem State.modRing_txns (f : Ring → Ring) : (s.modRing f).txns = s.txns := rfl
@[simp] theorem State.modRing_grn (f : Ring → Ring) : (s.modRing f).grn = s.grn := rfl
@[simp] theorem State.modRing_hwd (f : Ring → Ring) : (s.modRing f).hwd = s.hwd := rfl
@[simp] theorem State.modRing_ports (f : Ring → Ring) : (s.modRing f).ports = s.ports := rfl
@[simp] theorem State.modRing_vfs (f : Ring → Ring) : (s.modRing f).vfs = s.vfs := rfl
@[simp] theorem State.modRing_grafts (f : Ring → Ring) : (s.modRing f).grafts = s.grafts := rfl
@[simp] theorem State.modRing_pwr (f : Ring → Ring) : (s.modRing f).pwr = s.pwr := rfl
@[simp] theorem State.modRing_sys (f : Ring → Ring) : (s.modRing f).sys = s.sys := rfl
@[simp] theorem State.modRing_crn (f : Ring → Ring) : (s.modRing f).crn = s.crn := rfl
@[simp] theorem State.modRing_rootLinear (f : Ring → Ring) : (s.modRing f).rootLinear = s.rootLinear := rfl
@[simp] theorem State.modRing_refresh2x (f : Ring → Ring) : (s.modRing f).refresh2x = s.refresh2x := rfl
@[simp] theorem State.modRing_scrubHours (f : Ring → Ring) : (s.modRing f).scrubHours = s.scrubHours := rfl
@[simp] theorem State.modRing_linearInForce (f : Ring → Ring) : (s.modRing f).linearInForce = s.linearInForce := rfl
@[simp] theorem State.modRing_sweepEn (f : Ring → Ring) : (s.modRing f).sweepEn = s.sweepEn := rfl
@[simp] theorem State.modRing_repairEn (f : Ring → Ring) : (s.modRing f).repairEn = s.repairEn := rfl
@[simp] theorem State.modRing_paceUs (f : Ring → Ring) : (s.modRing f).paceUs = s.paceUs := rfl
@[simp] theorem State.modRing_scrSel (f : Ring → Ring) : (s.modRing f).scrSel = s.scrSel := rfl
@[simp] theorem State.modRing_crownEvts (f : Ring → Ring) : (s.modRing f).crownEvts = s.crownEvts := rfl
@[simp] theorem State.modRing_outbox (f : Ring → Ring) : (s.modRing f).outbox = s.outbox := rfl
@[simp] theorem State.modRing_nextId (f : Ring → Ring) : (s.modRing f).nextId = s.nextId := rfl
@[simp] theorem State.modRing_fresh (f : Ring → Ring) : (s.modRing f).fresh = s.fresh := rfl
@[simp] theorem State.modRing_turn (f : Ring → Ring) : (s.modRing f).turn = s.turn := rfl

/-! ### raise -/

@[simp] theorem State.raise_crownEvts (e : CrownEvt) : (s.raise e).crownEvts = s.crownEvts ++ [e] := rfl
@[simp] theorem State.raise_pending (e : CrownEvt) : (s.raise e).pending = s.pending := rfl
@[simp] theorem State.raise_mem (e : CrownEvt) : (s.raise e).mem = s.mem := rfl
@[simp] theorem State.raise_boughs (e : CrownEvt) : (s.raise e).boughs = s.boughs := rfl
@[simp] theorem State.raise_groves (e : CrownEvt) : (s.raise e).groves = s.groves := rfl
@[simp] theorem State.raise_queues (e : CrownEvt) : (s.raise e).queues = s.queues := rfl
@[simp] theorem State.raise_links (e : CrownEvt) : (s.raise e).links = s.links := rfl
@[simp] theorem State.raise_plots (e : CrownEvt) : (s.raise e).plots = s.plots := rfl
@[simp] theorem State.raise_slices (e : CrownEvt) : (s.raise e).slices = s.slices := rfl
@[simp] theorem State.raise_hbm (e : CrownEvt) : (s.raise e).hbm = s.hbm := rfl
@[simp] theorem State.raise_scr (e : CrownEvt) : (s.raise e).scr = s.scr := rfl
@[simp] theorem State.raise_cnp (e : CrownEvt) : (s.raise e).cnp = s.cnp := rfl
@[simp] theorem State.raise_filters (e : CrownEvt) : (s.raise e).filters = s.filters := rfl
@[simp] theorem State.raise_seqQ (e : CrownEvt) : (s.raise e).seqQ = s.seqQ := rfl
@[simp] theorem State.raise_heldReads (e : CrownEvt) : (s.raise e).heldReads = s.heldReads := rfl
@[simp] theorem State.raise_heldWrites (e : CrownEvt) : (s.raise e).heldWrites = s.heldWrites := rfl
@[simp] theorem State.raise_txns (e : CrownEvt) : (s.raise e).txns = s.txns := rfl
@[simp] theorem State.raise_grn (e : CrownEvt) : (s.raise e).grn = s.grn := rfl
@[simp] theorem State.raise_ring (e : CrownEvt) : (s.raise e).ring = s.ring := rfl
@[simp] theorem State.raise_hwd (e : CrownEvt) : (s.raise e).hwd = s.hwd := rfl
@[simp] theorem State.raise_ports (e : CrownEvt) : (s.raise e).ports = s.ports := rfl
@[simp] theorem State.raise_vfs (e : CrownEvt) : (s.raise e).vfs = s.vfs := rfl
@[simp] theorem State.raise_grafts (e : CrownEvt) : (s.raise e).grafts = s.grafts := rfl
@[simp] theorem State.raise_pwr (e : CrownEvt) : (s.raise e).pwr = s.pwr := rfl
@[simp] theorem State.raise_sys (e : CrownEvt) : (s.raise e).sys = s.sys := rfl
@[simp] theorem State.raise_crn (e : CrownEvt) : (s.raise e).crn = s.crn := rfl
@[simp] theorem State.raise_rootLinear (e : CrownEvt) : (s.raise e).rootLinear = s.rootLinear := rfl
@[simp] theorem State.raise_refresh2x (e : CrownEvt) : (s.raise e).refresh2x = s.refresh2x := rfl
@[simp] theorem State.raise_scrubHours (e : CrownEvt) : (s.raise e).scrubHours = s.scrubHours := rfl
@[simp] theorem State.raise_linearInForce (e : CrownEvt) : (s.raise e).linearInForce = s.linearInForce := rfl
@[simp] theorem State.raise_sweepEn (e : CrownEvt) : (s.raise e).sweepEn = s.sweepEn := rfl
@[simp] theorem State.raise_repairEn (e : CrownEvt) : (s.raise e).repairEn = s.repairEn := rfl
@[simp] theorem State.raise_paceUs (e : CrownEvt) : (s.raise e).paceUs = s.paceUs := rfl
@[simp] theorem State.raise_scrSel (e : CrownEvt) : (s.raise e).scrSel = s.scrSel := rfl
@[simp] theorem State.raise_outbox (e : CrownEvt) : (s.raise e).outbox = s.outbox := rfl
@[simp] theorem State.raise_nextId (e : CrownEvt) : (s.raise e).nextId = s.nextId := rfl
@[simp] theorem State.raise_fresh (e : CrownEvt) : (s.raise e).fresh = s.fresh := rfl
@[simp] theorem State.raise_turn (e : CrownEvt) : (s.raise e).turn = s.turn := rfl

/-! ### emit -/

@[simp] theorem State.emit_outbox (o : Output) : (s.emit o).outbox = s.outbox ++ [o] := rfl
@[simp] theorem State.emit_pending (o : Output) : (s.emit o).pending = s.pending := rfl
@[simp] theorem State.emit_mem (o : Output) : (s.emit o).mem = s.mem := rfl
@[simp] theorem State.emit_boughs (o : Output) : (s.emit o).boughs = s.boughs := rfl
@[simp] theorem State.emit_groves (o : Output) : (s.emit o).groves = s.groves := rfl
@[simp] theorem State.emit_queues (o : Output) : (s.emit o).queues = s.queues := rfl
@[simp] theorem State.emit_links (o : Output) : (s.emit o).links = s.links := rfl
@[simp] theorem State.emit_plots (o : Output) : (s.emit o).plots = s.plots := rfl
@[simp] theorem State.emit_slices (o : Output) : (s.emit o).slices = s.slices := rfl
@[simp] theorem State.emit_hbm (o : Output) : (s.emit o).hbm = s.hbm := rfl
@[simp] theorem State.emit_scr (o : Output) : (s.emit o).scr = s.scr := rfl
@[simp] theorem State.emit_cnp (o : Output) : (s.emit o).cnp = s.cnp := rfl
@[simp] theorem State.emit_filters (o : Output) : (s.emit o).filters = s.filters := rfl
@[simp] theorem State.emit_seqQ (o : Output) : (s.emit o).seqQ = s.seqQ := rfl
@[simp] theorem State.emit_heldReads (o : Output) : (s.emit o).heldReads = s.heldReads := rfl
@[simp] theorem State.emit_heldWrites (o : Output) : (s.emit o).heldWrites = s.heldWrites := rfl
@[simp] theorem State.emit_txns (o : Output) : (s.emit o).txns = s.txns := rfl
@[simp] theorem State.emit_grn (o : Output) : (s.emit o).grn = s.grn := rfl
@[simp] theorem State.emit_ring (o : Output) : (s.emit o).ring = s.ring := rfl
@[simp] theorem State.emit_hwd (o : Output) : (s.emit o).hwd = s.hwd := rfl
@[simp] theorem State.emit_ports (o : Output) : (s.emit o).ports = s.ports := rfl
@[simp] theorem State.emit_vfs (o : Output) : (s.emit o).vfs = s.vfs := rfl
@[simp] theorem State.emit_grafts (o : Output) : (s.emit o).grafts = s.grafts := rfl
@[simp] theorem State.emit_pwr (o : Output) : (s.emit o).pwr = s.pwr := rfl
@[simp] theorem State.emit_sys (o : Output) : (s.emit o).sys = s.sys := rfl
@[simp] theorem State.emit_crn (o : Output) : (s.emit o).crn = s.crn := rfl
@[simp] theorem State.emit_rootLinear (o : Output) : (s.emit o).rootLinear = s.rootLinear := rfl
@[simp] theorem State.emit_refresh2x (o : Output) : (s.emit o).refresh2x = s.refresh2x := rfl
@[simp] theorem State.emit_scrubHours (o : Output) : (s.emit o).scrubHours = s.scrubHours := rfl
@[simp] theorem State.emit_linearInForce (o : Output) : (s.emit o).linearInForce = s.linearInForce := rfl
@[simp] theorem State.emit_sweepEn (o : Output) : (s.emit o).sweepEn = s.sweepEn := rfl
@[simp] theorem State.emit_repairEn (o : Output) : (s.emit o).repairEn = s.repairEn := rfl
@[simp] theorem State.emit_paceUs (o : Output) : (s.emit o).paceUs = s.paceUs := rfl
@[simp] theorem State.emit_scrSel (o : Output) : (s.emit o).scrSel = s.scrSel := rfl
@[simp] theorem State.emit_crownEvts (o : Output) : (s.emit o).crownEvts = s.crownEvts := rfl
@[simp] theorem State.emit_nextId (o : Output) : (s.emit o).nextId = s.nextId := rfl
@[simp] theorem State.emit_fresh (o : Output) : (s.emit o).fresh = s.fresh := rfl
@[simp] theorem State.emit_turn (o : Output) : (s.emit o).turn = s.turn := rfl

/-! ### notice -/

@[simp] theorem State.notice_pending (was : Bool) (reg : String) : (s.notice was reg).pending = s.pending := by cases was <;> rfl
@[simp] theorem State.notice_mem (was : Bool) (reg : String) : (s.notice was reg).mem = s.mem := by cases was <;> rfl
@[simp] theorem State.notice_boughs (was : Bool) (reg : String) : (s.notice was reg).boughs = s.boughs := by cases was <;> rfl
@[simp] theorem State.notice_groves (was : Bool) (reg : String) : (s.notice was reg).groves = s.groves := by cases was <;> rfl
@[simp] theorem State.notice_queues (was : Bool) (reg : String) : (s.notice was reg).queues = s.queues := by cases was <;> rfl
@[simp] theorem State.notice_links (was : Bool) (reg : String) : (s.notice was reg).links = s.links := by cases was <;> rfl
@[simp] theorem State.notice_plots (was : Bool) (reg : String) : (s.notice was reg).plots = s.plots := by cases was <;> rfl
@[simp] theorem State.notice_slices (was : Bool) (reg : String) : (s.notice was reg).slices = s.slices := by cases was <;> rfl
@[simp] theorem State.notice_hbm (was : Bool) (reg : String) : (s.notice was reg).hbm = s.hbm := by cases was <;> rfl
@[simp] theorem State.notice_scr (was : Bool) (reg : String) : (s.notice was reg).scr = s.scr := by cases was <;> rfl
@[simp] theorem State.notice_cnp (was : Bool) (reg : String) : (s.notice was reg).cnp = s.cnp := by cases was <;> rfl
@[simp] theorem State.notice_filters (was : Bool) (reg : String) : (s.notice was reg).filters = s.filters := by cases was <;> rfl
@[simp] theorem State.notice_seqQ (was : Bool) (reg : String) : (s.notice was reg).seqQ = s.seqQ := by cases was <;> rfl
@[simp] theorem State.notice_heldReads (was : Bool) (reg : String) : (s.notice was reg).heldReads = s.heldReads := by cases was <;> rfl
@[simp] theorem State.notice_heldWrites (was : Bool) (reg : String) : (s.notice was reg).heldWrites = s.heldWrites := by cases was <;> rfl
@[simp] theorem State.notice_txns (was : Bool) (reg : String) : (s.notice was reg).txns = s.txns := by cases was <;> rfl
@[simp] theorem State.notice_grn (was : Bool) (reg : String) : (s.notice was reg).grn = s.grn := by cases was <;> rfl
@[simp] theorem State.notice_ring (was : Bool) (reg : String) : (s.notice was reg).ring = s.ring := by cases was <;> rfl
@[simp] theorem State.notice_hwd (was : Bool) (reg : String) : (s.notice was reg).hwd = s.hwd := by cases was <;> rfl
@[simp] theorem State.notice_ports (was : Bool) (reg : String) : (s.notice was reg).ports = s.ports := by cases was <;> rfl
@[simp] theorem State.notice_vfs (was : Bool) (reg : String) : (s.notice was reg).vfs = s.vfs := by cases was <;> rfl
@[simp] theorem State.notice_grafts (was : Bool) (reg : String) : (s.notice was reg).grafts = s.grafts := by cases was <;> rfl
@[simp] theorem State.notice_pwr (was : Bool) (reg : String) : (s.notice was reg).pwr = s.pwr := by cases was <;> rfl
@[simp] theorem State.notice_sys (was : Bool) (reg : String) : (s.notice was reg).sys = s.sys := by cases was <;> rfl
@[simp] theorem State.notice_crn (was : Bool) (reg : String) : (s.notice was reg).crn = s.crn := by cases was <;> rfl
@[simp] theorem State.notice_rootLinear (was : Bool) (reg : String) : (s.notice was reg).rootLinear = s.rootLinear := by cases was <;> rfl
@[simp] theorem State.notice_refresh2x (was : Bool) (reg : String) : (s.notice was reg).refresh2x = s.refresh2x := by cases was <;> rfl
@[simp] theorem State.notice_scrubHours (was : Bool) (reg : String) : (s.notice was reg).scrubHours = s.scrubHours := by cases was <;> rfl
@[simp] theorem State.notice_linearInForce (was : Bool) (reg : String) : (s.notice was reg).linearInForce = s.linearInForce := by cases was <;> rfl
@[simp] theorem State.notice_sweepEn (was : Bool) (reg : String) : (s.notice was reg).sweepEn = s.sweepEn := by cases was <;> rfl
@[simp] theorem State.notice_repairEn (was : Bool) (reg : String) : (s.notice was reg).repairEn = s.repairEn := by cases was <;> rfl
@[simp] theorem State.notice_paceUs (was : Bool) (reg : String) : (s.notice was reg).paceUs = s.paceUs := by cases was <;> rfl
@[simp] theorem State.notice_scrSel (was : Bool) (reg : String) : (s.notice was reg).scrSel = s.scrSel := by cases was <;> rfl
@[simp] theorem State.notice_outbox (was : Bool) (reg : String) : (s.notice was reg).outbox = s.outbox := by cases was <;> rfl
@[simp] theorem State.notice_nextId (was : Bool) (reg : String) : (s.notice was reg).nextId = s.nextId := by cases was <;> rfl
@[simp] theorem State.notice_fresh (was : Bool) (reg : String) : (s.notice was reg).fresh = s.fresh := by cases was <;> rfl
@[simp] theorem State.notice_turn (was : Bool) (reg : String) : (s.notice was reg).turn = s.turn := by cases was <;> rfl

/-! ### Boughs, twigs and queues after an update -/

@[simp] theorem State.bough_setBough (b : BoughId) (x : Bough) : (s.setBough b x).bough b = x := vset_get_self _ _ _
theorem State.bough_setBough_ne {b c : BoughId} (x : Bough) (h : c ≠ b) : (s.setBough b x).bough c = s.bough c := vset_get_ne _ _ h
@[simp] theorem State.bough_modBough (b : BoughId) (f : Bough → Bough) : (s.modBough b f).bough b = f (s.bough b) := vset_get_self _ _ _
theorem State.bough_modBough_ne {b c : BoughId} (f : Bough → Bough) (h : c ≠ b) : (s.modBough b f).bough c = s.bough c := vset_get_ne _ _ h

@[simp] theorem State.twig_setTwig (t : TwigId) (x : Twig) : (s.setTwig t x).twig t = x := by
  cases t with
  | bough b => exact congrArg Bough.twig (State.bough_setBough s b _)
  | crown k => exact vset_get_self _ _ _

theorem State.twig_setTwig_ne {t u : TwigId} (x : Twig) (h : u ≠ t) : (s.setTwig t x).twig u = s.twig u := by
  cases t <;> cases u
  · exact congrArg Bough.twig (State.bough_setBough_ne s _ fun e => h (by rw [e]))
  · rfl
  · rfl
  · exact vset_get_ne _ _ fun e => h (by rw [e])

@[simp] theorem State.twig_modTwig (t : TwigId) (f : Twig → Twig) : (s.modTwig t f).twig t = f (s.twig t) := State.twig_setTwig s t _

theorem State.twig_modTwig_ne {t u : TwigId} (f : Twig → Twig) (h : u ≠ t) : (s.modTwig t f).twig u = s.twig u := State.twig_setTwig_ne s _ h

@[simp] theorem State.setTwig_setTwig (t : TwigId) (x y : Twig) : (s.setTwig t x).setTwig t y = s.setTwig t y := by
  cases t <;> simp [State.setTwig, State.modBough, State.setBough, State.bough]

@[simp] theorem State.setTwig_self (t : TwigId) : s.setTwig t (s.twig t) = s := by
  cases t with
  | bough b =>
    show { s with boughs := vset s.boughs b s.boughs[b.val] } = s
    rw [vset_same]
  | crown k =>
    show { s with crn := { s.crn with cores := vset s.crn.cores k s.crn.cores[k.val] } } = s
    rw [vset_same]

/-- An update of twig t is undone by putting its old value back: the frame `OnlyTwig`. -/
theorem State.modTwig_undo (t : TwigId) (f : Twig → Twig) : (s.modTwig t f).setTwig t (s.twig t) = s := by
  rw [State.modTwig, State.setTwig_setTwig, State.setTwig_self]

end updates

end Sys2Proof.Machine
end

