-- ==== Sys2Proof/Tests/Slice0.lean ====
section
/-! SUPPORT. The model's own tests: that well-formedness refuses what it should, worked examples of the spec and single steps, and for every
statement a state and operands that meet its hypotheses (clause by clause; clauses that turn on an uninterpreted function of Config, a
cryptographic check, have no such witness). -/

-- One theorem after another: the evaluations of this file, all at once, would need more threads than a build may have.
set_option Elab.async false
set_option maxRecDepth 20000

namespace Sys2Proof.Tests
open Sys2Proof.Machine Sys2Proof.Safety

/-- The state that a command answers; the state after reset where it answers none. -/
def getNext (o : Host.Outcome State Fault Refusal) : State := match o with | .next s => s | _ => State.reset

/-- The checks of `TwigAt`, computed. -/
def atOk (s : State) (t : TwigId) (n : Nat) : Bool :=
  s.twigReady t && (s.twig t).block.isNone && !(s.twig t).sync && (s.fetchFault t n).isNone &&
    (List.range n).all fun i => ((s.twig t).cached (s.progLine t ((s.twig t).fetchAt + i))).isSome

theorem twigAt_of {s : State} {t : TwigId} {n : Nat} (h : atOk s t n = true) : TwigAt s t n := by
  simp only [atOk, Bool.and_eq_true, Option.isNone_iff_eq_none, Bool.not_eq_true', List.all_eq_true, List.mem_range] at h
  exact ⟨h.1.1.1.1, h.1.1.1.2, h.1.1.2, h.2, h.1.2⟩

/-- The checks of `TwigGo`, computed. -/
def goOk (s : State) (t : TwigId) (gu : PReg) (n : Nat) (reads : List GReg) : Bool :=
  atOk s t n && !(s.twig t).skips && (s.twig t).predBit gu &&
    match t with
    | .bough b => (s.bough b).vfault.isNone && reads.all fun r => !(s.bough b).writesG r
    | .crown _ => true

theorem twigGo_of {s : State} {t : TwigId} {gu : PReg} {n : Nat} {reads : List GReg} (h : goOk s t gu n reads = true) : TwigGo s t gu n reads := by
  simp only [goOk, Bool.and_eq_true, Bool.not_eq_true'] at h
  refine ⟨twigAt_of h.1.1.1, h.1.1.2, h.1.2, ?_⟩
  rintro b rfl
  have w := h.2
  simp only [Bool.and_eq_true, Option.isNone_iff_eq_none, Bool.not_eq_true', List.all_eq_true] at w
  exact w

/-- Words of plain storage: no register and no program store. -/
theorem plainParts_of {l : List (Nat × Nat)}
    (h : l.all (fun p => decide (rootSize ≤ p.1) && match placeOf p.1 with | .regs _ => false | .pstore _ _ => false | _ => true) = true) :
    ∀ p ∈ l, rootSize ≤ p.1 ∧ (∀ off, placeOf p.1 ≠ .regs off) ∧ ∀ g off, placeOf p.1 ≠ .pstore g off := by
  intro p hp
  have := List.all_eq_true.mp h p hp
  simp only [Bool.and_eq_true, decide_eq_true_eq] at this
  exact ⟨this.1, fun off e => by simp [e] at this, fun g off e => by simp [e] at this⟩

/-- An address in no root region, or in one that the bough's port knows. -/
theorem knows_of {y : Bough} {a : Nat} (h : (match placeOf a with | .root r => y.knowsRegion r | _ => true) = true) :
    ∀ r, placeOf a = .root r → y.knowsRegion r = true := by
  intro r e
  simpa [e] using h

def idleOk (s : State) (t : TwigId) : Bool := match t with | .bough b => (s.bough b).issued.isEmpty | .crown _ => true

theorem idle_of {s : State} {t : TwigId} (h : idleOk s t = true) : Idle s t := by
  rintro b rfl
  simpa [idleOk] using h

/-- The checks of `QueueGo`, computed. -/
def queueOk (s : State) (t : TwigId) (gu : PReg) (gs gt : GReg) (need : Need) (q : QueueId) : Bool :=
  goOk s t gu 2 [gs, gt] && (s.twig t).rep.isNone && (s.twig t).pfx.isEmpty && idleOk s t && (s.twig t).reg gs == BitVec.ofNat 64 q.val && s.hasRole t q.val need

theorem queueGo_of {s : State} {t : TwigId} {gu : PReg} {gs gt : GReg} {need : Need} {q : QueueId} (h : queueOk s t gu gs gt need q = true) :
    QueueGo s t gu gs gt need q := by
  simp only [queueOk, Bool.and_eq_true, Option.isNone_iff_eq_none, List.isEmpty_iff, beq_iff_eq] at h
  exact ⟨twigGo_of h.1.1.1.1.1, ⟨h.1.1.1.1.2, h.1.1.1.2⟩, idle_of h.1.1.2, h.1.2, h.2⟩

/-- Words 0 and 1 of a queue record: id, SIZE64, producer kind and number, consumer kind and number, tag. -/
def qrec (id sz pk pid ck cid tag : Nat) : Word × Word :=
  (packWord [(0, 10, id), (28, 11, sz), (40, 3, pk), (48, 8, pid)], packWord [(0, 3, ck), (8, 8, cid), (32, 32, tag)])
def m0 : PlotMap :=
  { plot := 0, vf := some 0, evq := none, timer := 10, progBase := 0, progUnits := 1, progRo := false, boughs := 3, regions := 1, keep := 0 }
/-- An image with one plot on boughs 0 and 1, region 0 and eight queues. -/
def img : Grain :=
  { serial := 7, plots := [m0], boughEn := 3, uplinks := 0, downlinks := 0, rank := 1, links := [],
    queues := [qrec 0 1 0 0 0 1 0, qrec 1 1 1 0 0 0 0, qrec 2 1 0 0 1 0 0, qrec 3 1 3 0 0 0 0, qrec 4 1 4 0 1 0xf0 0, qrec 5 1 2 0 0 0 77, qrec 6 1 0 0 2 0 78,
      qrec 7 1 3 0 3 0 0],
    hashEn := 0, graftEn := 15, split := 0, maxLevel := 0, dormantEn := true, idleMs := 0, deviceW := 0, caps := [], progs := [], raw := [] }
/-- The program lines that each twig of the tests has in its cache. -/
def lines : List CLine := [⟨0, List.replicate 16 0, false, false⟩, ⟨1, List.replicate 16 0, false, false⟩]
/-- The device in RUN with that image, every twig running at word 0, each link up. -/
def bs : State :=
  { State.reset with
    sys := { Sys.start with mode := .run, bootStep := 5, restoreDue := none, resetN := false }
    grn := { Grn.start with active := some img }
    crn := { Crn.start with cores := Vector.replicate 4 { Twig.start .running with g := Vector.replicate 16 8, icache := lines } }
    boughs := Vector.replicate 256 { Bough.start with twig := { Twig.start .running with g := Vector.replicate 16 8, icache := lines } }
    plots := Vector.replicate 64 { Plot.start with st := .running }
    queues := Vector.replicate 1024 (Queue.start 64)
    mem := { Memory.init with zeroed := [0, 512, 513, 1024, 5120] }
    pwr := { Pwr.start with refclkOk := true, locked := true }
    ports := Vector.replicate 4 { HostPort.start with linkUp := true, broughtUp := true }
    hwd := { Hwd.start with keyOk := true } }
/-- the state with twig t changed -/
def tw (t : TwigId) (f : Twig → Twig) (s : State := bs) : State := s.modTwig t f
def c0 : TwigId := .crown 0
def b0 : TwigId := .bough 0
def run (is : List Instr) (s : State) : State := is.foldl (fun s i => getNext (exec i s)) s
def fld (d a b c : BitVec 5) : VFields := { u := false, dst := d, srca := a, mask := 0, rsv := 0, srcb := b, srcc := c, ty := 2, rtz := false }
/-- stride stream descriptor of type code ty -/
def sd (base ty : Nat) (lo hi : Nat) : Desc := ⟨BitVec.ofNat 64 (base + ty * 2^48), 1, BitVec.ofNat 64 lo, BitVec.ofNat 64 hi⟩
abbrev sc : Nat := 0x10000000000
def vs (vl : Nat) (f : Bough → Bough := id) : State := bs.modBough 0 fun y => f { y with twig := { y.twig with vl := vl, vcsr := 0x1f0006, pc := 8 }, sd := vset (vset (vset y.sd 0 (sd 0x100 6 0 0x1000)) 1 (sd (sc + 0x100) 6 sc (sc + 0x1000))) 2 (sd (sc + 0x200) 6 sc (sc + 0x1000)) }
def a1 : State := run [.vadd b0 0 (fld 2 0 1 0)] (vs 4)
def a2 : State := run [.vectorDispatch 0] a1
def a3 : State := run [.streamRequest 0 0 0, .streamRequest 0 0 1] a2
def a4 : State := run [.ownershipLookupReturn 0] a3
def a5 : State := run [.sliceAcceptRequest 0, .targetAccessComplete 0 ⟨0, 0, 0⟩] a4
def a6 : State := run [.readResponseArrival 0 0, .readResponseArrival 0 1, .streamRequest 0 0 2] a5
def a7 : State := run [.commitPoint 0 0] a6
def a8 : State := run [.filterInstall (.scratch 0)] a7
def a9 : State := run [.commitInstant 0] a8
def r1 : State := run [.vadd b0 0 (fld 2 1 1 0), .vectorDispatch 0, .streamRequest 0 0 0, .streamRequest 0 0 1,.streamRequest 0 0 0, .streamRequest 0 0 1, .readResponseArrival 0 0, .readResponseArrival 0 1, .readResponseArrival 0 2, .readResponseArrival 0 3,
    .streamRequest 0 0 2, .ownershipLookupReturn 0, .streamRequest 0 0 2] (vs 32 fun y => { y with sd := vset y.sd 2 (sd 0x200 6 0 0x1000) })
def r2 := run [.commitPoint 0 0] r1
def r3 := run [.armRequestAccept 0] r2
def r4 := run ((r3.filters.map fun e => Instr.filterInstall e.tgt)) r3
def r5 : State := run [.commitInstant 0] r4

/-! ### Well-formedness: each check refuses an ill-formed term and takes one at its bound -/

theorem test_wf_write_length : (Instr.hostWriteTlp 0 ⟨.pf 0, true, 0, List.replicate 513 0, false, false, false⟩).wellFormed = false ∧
    (Instr.hostWriteTlp 0 ⟨.pf 0, true, 0, List.replicate 512 0, false, false, false⟩).wellFormed = true := by decide +kernel

theorem test_wf_write_block : (Instr.hostWriteTlp 0 ⟨.pf 0, true, 4095, [1, 2], false, false, false⟩).wellFormed = false ∧
    (Instr.hostWriteTlp 0 ⟨.pf 0, true, 4094, [1, 2], false, false, false⟩).wellFormed = true := by decide

theorem test_wf_read : (Instr.hostReadRequest 0 1 (.pf 0) true 8 4096).wellFormed = false ∧ (Instr.hostReadRequest 0 1 (.pf 0) true 0 0).wellFormed = false ∧
    (Instr.hostReadRequest 0 1 (.pf 0) true 0 4096).wellFormed = true := by decide

theorem test_wf_register : (Instr.registerWrite (.pf 0) 4 true 0).wellFormed = false ∧ (Instr.registerWrite (.pf 0) 2 false 0).wellFormed = false ∧
    (Instr.registerWrite (.pf 0) 4 false 0).wellFormed = true := by decide

theorem test_wf_bar2 : (Instr.configRequest 0 (.pf 0) (.resizeBar2 28)).wellFormed = false ∧ (Instr.configRequest 0 (.pf 0) (.resizeBar2 39)).wellFormed = false ∧
    (Instr.configRequest 0 (.pf 0) (.resizeBar2 38)).wellFormed = true := by decide

theorem test_wf_queue_data : (Instr.qwDataWrite (.vf 0) 0 4096 0).wellFormed = false ∧ (Instr.qwDataRead (.vf 0) 0 4096).wellFormed = false ∧
    (Instr.msixUnmask (.vf 0) 512).wellFormed = false ∧ (Instr.qwDataWrite (.vf 0) 0 4095 0).wellFormed = true := by decide

theorem test_wf_transfers : (Instr.chainTransferArrive 0 0 0 []).wellFormed = false ∧ (Instr.chainTransferArrive 0 0 0 (List.replicate 30 (0, false))).wellFormed = false ∧
    (Instr.queueData 0 7 0 8192 [(0, false)]).wellFormed = false ∧ (Instr.queueData 0 7 0 8191 (List.replicate 29 (0, false))).wellFormed = true := by decide

theorem test_wf_auth : (Instr.auth 0 3 0 [1]).wellFormed = false ∧ (Instr.auth 0 0 0 (List.replicate 241 1)).wellFormed = false ∧ (Instr.auth 0 0 0 []).wellFormed = false ∧
    (Instr.admitList 0 true (List.replicate 31 ⟨0, 0⟩)).wellFormed = false ∧ (Instr.auth 0 2 0 (List.replicate 240 1)).wellFormed = true := by decide +kernel

theorem test_wf_maintenance : (Instr.perBankRefresh 0 0 0 9).wellFormed = false ∧ (Instr.patrolScrub 0 (2 ^ 31)).wellFormed = false ∧
    (Instr.sensorSample (List.replicate 19 40)).wellFormed = false ∧ (Instr.sensorSample (List.replicate 20 40)).wellFormed = true := by decide +kernel

theorem test_wf_links : (Instr.hostLinkTrained 0 7 16 true).wellFormed = false ∧ (Instr.hostLinkRetrain 0 6 17 true).wellFormed = false ∧
    (Instr.wakeSource 7).wellFormed = false ∧ (Instr.wakeStepReady 10001).wellFormed = false ∧ (Instr.wakeStepReady 10000).wellFormed = true := by decide

/-! ### Worked examples of the spec, and single steps -/

/-- The table of "Worked example: saturating FP32 to I32" in 05_arithmetic_results.md: result bits and flags (NV 1, NX 16). -/
theorem test_vcvt_table :
    [0x406ccccd, 0xc06ccccd, 0x4effffff, 0x4f000000, 0xcf000000, 0xcf000001, 0x7f800000, 0x7fc00001, 0x80000000, 1].map (convert .fp32 .i32 .rtz false false) =
      [(3, 16), (0xfffffffd, 16), (0x7fffff80, 0), (0x7fffffff, 1), (0x80000000, 0), (0x80000000, 1), (0x7fffffff, 1), (0, 1), (0, 0), (0, 16)] := by decide +kernel

/-- The evaluations of "Worked example: a plot settling under its cap" in 14_plots.md. -/
theorem test_duty_settles : nextDuty 64 10000 14200 = 45 ∧ nextDuty 45 10000 10578 = 42 ∧ nextDuty 42 10000 10006 = 41 ∧ nextDuty 41 10000 9815 = 41 := by decide

/-- "Worked example: reading columns of a wide matrix" in 10_root_memory.md: bough 3, element 65 goes to slice 3 xor 1 xor (32 or 1), bank 0. -/
theorem test_skew_column : skewFold (0x20000000 + 65 * 2 ^ 18 + 64 * 3) = { b := 0, p := 0, s := 35, w := (0x20000000 + 65 * 2 ^ 18) / 4096 } := by decide +kernel

/-- Register addresses of "Worked example: finding registers for plot 5" in 21_address_map.md. -/
theorem test_register_addresses : placeOf 0x020000035008 = .regs 0x35008 ∧ placeOf 0x020000012158 = .regs 0x12158 ∧ placeOf 0x020000002020 = .regs 0x2020 := by decide +kernel

/-- Queue 1 of the image with 512 words, as in "Worked example: one submission and its return of credits" in 13_sap_queues.md. -/
def ring512 : State := bs.modQueue 1 fun x => { x with credits := 512 }

theorem test_qw_open_credits : (getNext (exec (.qwOpen (.vf 0) 1 8) ring512)).queues[(1 : QueueId)].credits = 503 := by decide +kernel

def opened : State := bs.modQueue 1 fun x => { x with credits := 503, prod := some { cap := 8, words := List.replicate 6 (qword 5 false), slot := 0 } }

theorem test_qw_close_credits : (getNext (exec (.qwClose (.vf 0) 1 0x0000007700010006) opened)).queues[(1 : QueueId)].credits = 505 ∧
    (getNext (exec (.qwClose (.vf 0) 1 0x0000007700010006) opened)).queues[(1 : QueueId)].pending.map (fun k => (k.typ, k.tag, k.words.length)) = [(1, 0x77, 6)] := by decide +kernel

/-- CNP_REGION of an owned region reads OWNER with ASSIGNED set: 0x40 for plot 0. -/
theorem test_region_register : bs.readReg 0x2000 = some 0x40 ∧ bs.readReg 0x2008 = some 0 := by decide +kernel

/-- A twig at word 8 with G1 all ones and G2 one. -/
def ones : State := tw b0 fun w => { w with g := vset (vset w.g 1 (BitVec.allOnes 64)) 2 1 }

theorem test_add_wraps : ((getNext (exec (.add b0 0 1 2) ones)).twig b0).reg 1 = 0 ∧ ((getNext (exec (.add b0 0 1 2) ones)).twig b0).pc = (ones.twig b0).pc + 1 := by decide +kernel

theorem test_sra_keeps_sign : ((getNext (exec (.srai b0 0 3 1 0 127) ones)).twig b0).reg 3 = BitVec.allOnes 64 := by decide +kernel

theorem test_p0_stays_true : ((getNext (exec (.pnot b0 0 0 0) bs)).twig b0).predBit 0 = true := by decide +kernel

theorem test_guard_false_skips : ((getNext (exec (.add b0 1 1 2) ones)).twig b0).reg 1 = BitVec.allOnes 64 := by decide +kernel

theorem test_power_on_counts : (getNext (exec .powerOn State.reset)).ring.rings[(3 : Fin 32)] = 1 ∧ (getNext (exec .powerOn State.reset)).sys.mode = .reset := by decide +kernel

theorem test_tick_counts : (getNext (exec (.ringTick 0) bs)).ring.tick = bs.ring.tick + 1 := by decide +kernel

theorem test_reserved_op : (getNext (exec (.unknownOp 2) { bs with crn := { bs.crn with chans := vmod bs.crn.chans 2 fun c => { c with go := true, op := 12 } } })).crn.chans[(2 : Fin 5)].code = 9 := by
  decide +kernel

theorem test_step_pops_front : (getNext (step { bs with pending := [.ringTick 0, .kick] })).pending = [.kick] := by decide +kernel

/-! ### Witnesses: states and operands that meet the hypotheses of the statements -/

/-- Obligations.MemoryStaysCanonical: a state whose memory has the form and a step to a next state. -/
theorem test_witness_MemoryStaysCanonical : State.reset.mem.wf = true ∧ ∃ s', step State.reset = .next s' := ⟨by decide +kernel, _, rfl⟩

namespace W0

/-- The state in which the twig of the turn fetches. -/
def turned (s : State) : State := { s.portsTurn with turn := (s.turn + 1) % 260 }
def halted : State := tw b0 fun w => { w with run := .halted }
def timer : State := tw b0 fun w => { w with tsbp := BitVec.ofNat 64 (sc + 0x205), timerLatch := true }
def idles : State := tw b0 fun w => { w with waiting := some (.wfi b0 0) }
/-- ADDI G1, G1, 5 in the first word: guard 0, major 5, body 0x15. -/
def adds : State := tw b0 fun w => { w with icache := [⟨0, (0x515 : Word14) :: List.replicate 15 0, false, false⟩] }
/-- The word at the program counter. -/
def word0 : Word14 := (turned bs).fetchedWord b0 0

/-- The hypotheses of Obligations.StepRunsFront are met: one bracket for each clause. -/
theorem test_witness_StepRunsFront :
    ({ bs with pending := [.kick] }.pending = Instr.kick :: []) ∧
    (bs.pending = [] ∧ ∀ n : PortId, bs.grafts[n].waiting = []) ∧
    (State.reset.pending = [] ∧ (turned State.reset).codeRuns b0 = false) ∧
    (halted.pending = [] ∧ twigOfTurn halted.turn = b0 ∧ ((turned halted).twig b0).run ≠ .running) ∧
    (timer.pending = [] ∧ (turned timer).codeRuns b0 = true ∧ ((turned timer).twig b0).run = .running ∧ ((turned timer).twig b0).load = none ∧
      (∃ k, (turned timer).trapDue b0 = some k) ∧ (turned timer).tsbHeld b0 = false) ∧
    (idles.pending = [] ∧ (turned idles).codeRuns b0 = true ∧ ((turned idles).twig b0).run = .running ∧ ((turned idles).twig b0).load = none ∧
      (turned idles).trapDue b0 = none ∧ ((turned idles).twig b0).waiting ≠ none) ∧
    (bs.pending = [] ∧ (turned bs).twigReady b0 = true ∧ WordsReady (turned bs) b0 (wordsOfHead word0) ∧ decodeTwig b0 word0 word0 word0 = some (.nop b0 0)) :=
  ⟨rfl, by decide +kernel, by decide +kernel, by decide +kernel,
    ⟨by decide +kernel, by decide +kernel, by decide +kernel, by decide +kernel, Option.isSome_iff_exists.mp (by decide +kernel), by decide +kernel⟩,
    by decide +kernel, by unfold WordsReady; decide +kernel⟩

/-- With no command waiting, the twig of the turn fetches and runs its instruction (log entry 158). -/
theorem test_empty_queue_fetches : ((getNext (step bs)).twig b0).pc = 1 ∧ (getNext (step bs)).turn = 1 ∧ ((getNext (step adds)).twig b0).reg 1 = 13 := by
  decide +kernel

end W0

namespace P1

def wit1 : State := tw b0 (fun w => { w with pfx := [3] })
def wit8 : Twig := { bs.twig b0 with vcsr := 8 }
def wit9 : Twig := { bs.twig b0 with pred := 9 }

/-- The hypotheses of Obligations.TwigPredicates are met: one bracket for each clause. -/
theorem test_witness_TwigPredicates :
    (TwigGo bs c0 (0 : PReg) 1 [] ∧ (bs.twig c0).pfx = []) ∧
    (TwigGo bs b0 (0 : PReg) 1 [] ∧ (bs.twig b0).pfx = []) ∧
    (TwigGo bs b0 (0 : PReg) 2 (if false = true then [(1 : GReg)] else [(1 : GReg), (2 : GReg)]) ∧ (false = true ∨ (bs.twig b0).pfx = []) ∧ (0 : BitVec 2) ≠ (3 : BitVec 2) ∧ (false = false → (0 : BitVec 6) = (0 : BitVec 6))) ∧
    (TwigGo bs b0 (0 : PReg) 2 (if true = true then [(1 : GReg)] else [(1 : GReg), (0 : GReg)]) ∧ (true = true ∨ (bs.twig b0).pfx = []) ∧ (1 : BitVec 2) ≠ (3 : BitVec 2) ∧ (true = true → (0 : GReg) = (0 : GReg)) ∧ (true = false → (0 : BitVec 6) = (0 : BitVec 6))) ∧
    (TwigGo bs b0 (0 : PReg) 2 (if true = true then [(1 : GReg)] else [(1 : GReg), (0 : GReg)]) ∧ (true = true ∨ (bs.twig b0).pfx = []) ∧ (2 : BitVec 2) ≠ (3 : BitVec 2) ∧ (true = true → (0 : GReg) = (0 : GReg)) ∧ (true = false → (3 : BitVec 6) = (0 : BitVec 6))) := ⟨⟨twigGo_of (by decide +kernel), by decide +kernel⟩,
    ⟨twigGo_of (by decide +kernel), by decide +kernel⟩,
    ⟨twigGo_of (by decide +kernel), by decide +kernel, by decide +kernel, by decide +kernel⟩,
    ⟨twigGo_of (by decide +kernel), by decide +kernel, by decide +kernel, by decide +kernel, by decide +kernel⟩,
    ⟨twigGo_of (by decide +kernel), by decide +kernel, by decide +kernel, by decide +kernel, by decide +kernel⟩⟩

/-- The hypotheses of Obligations.TwigAluResult are met: one bracket for each clause. -/
theorem test_witness_TwigAluResult :
    ((aluRow (Instr.add c0 (0 : PReg) (1 : GReg) (2 : GReg)) = some { t := c0, gu := (0 : PReg), words := 1, pfx := false, legal := True, reads := [(1 : GReg), (2 : GReg)], gd := (1 : GReg), value := fun (w : Twig) => w.reg (1 : GReg) + w.reg (2 : GReg) : AluRow }) ∧ TwigGo bs c0 (0 : PReg) 1 [(1 : GReg), (2 : GReg)] ∧ (false = true ∨ (bs.twig c0).pfx = [])) ∧
    ((aluRow (Instr.addi b0 (0 : PReg) (1 : GReg) (15 : BitVec 4)) = some { t := b0, gu := (0 : PReg), words := 1, pfx := true, legal := True, reads := [(1 : GReg)], gd := (1 : GReg), value := fun (w : Twig) => w.reg (1 : GReg) + w.imm true 4 15 : AluRow }) ∧ TwigGo wit1 b0 (0 : PReg) 1 [(1 : GReg)] ∧ (true = true ∨ (wit1.twig b0).pfx = [])) := ⟨⟨rfl, twigGo_of (by decide +kernel), by decide +kernel⟩,
    ⟨rfl, twigGo_of (by decide +kernel), by decide +kernel⟩⟩

/-- The hypotheses of Obligations.ControlRegisters are met: one bracket for each clause. -/
theorem test_witness_ControlRegisters :
    (TwigGo bs b0 (0 : PReg) 2 [] ∧ (bs.twig b0).pfx = [] ∧ Idle bs b0 ∧ (bs.twig b0).rep = none ∧ ctlValue bs b0 ↑(13 : Fin 16) = some (0 : Word)) ∧
    (TwigGo bs c0 (0 : PReg) 2 [] ∧ (bs.twig c0).pfx = [] ∧ Idle bs c0 ∧ (bs.twig c0).rep = none ∧ ctlValue bs c0 ↑(13 : Fin 16) = some (16384 : Word)) ∧
    (TwigGo bs b0 (0 : PReg) 2 [(3 : GReg)] ∧ (bs.twig b0).pfx = [] ∧ Idle bs b0 ∧ (bs.twig b0).rep = none ∧ ctlWritten (bs.twig b0) (↑(0 : Fin 16)) ((bs.twig b0).reg (3 : GReg)) = some wit8) ∧
    (TwigGo bs b0 (0 : PReg) 2 [(3 : GReg)] ∧ (bs.twig b0).pfx = [] ∧ Idle bs b0 ∧ (bs.twig b0).rep = none ∧ ctlWritten (bs.twig b0) (↑(10 : Fin 16)) ((bs.twig b0).reg (3 : GReg)) = some wit9) := ⟨⟨twigGo_of (by decide +kernel), by decide +kernel, idle_of (by decide +kernel), by decide +kernel, by decide +kernel⟩,
    ⟨twigGo_of (by decide +kernel), by decide +kernel, idle_of (by decide +kernel), by decide +kernel, by decide +kernel⟩,
    ⟨twigGo_of (by decide +kernel), by decide +kernel, idle_of (by decide +kernel), by decide +kernel, by decide +kernel⟩,
    ⟨twigGo_of (by decide +kernel), by decide +kernel, idle_of (by decide +kernel), by decide +kernel, by decide +kernel⟩⟩

end P1

namespace P2

def av : State := tw b0 fun w => { w with g := (vset (vset (vset w.g 1 0x8000000000000000) 2 0xfffffffffffffffd) 3 67) }
def wit1 : State := tw b0 (fun w => { w with vcsr := 5, tsbp := 8, rc := 9, lc0 := 10, ls0 := 11, le0 := 12, lc1 := 13, ls1 := 14, le1 := 15, vl := 16, pred := 6, shadow := [1,2] })
def wit2 : State := tw b0 (fun w => { w with g := vset w.g 3 0xfedcba9876543217 })
def wit3 : Twig := (ctlWritten (tw b0 (fun w => { w with g := vset w.g 3 0xfedcba9876543217 }) |>.twig b0) 0 0xfedcba9876543217).getD (Twig.start .running)
def wit4 : Twig := (ctlWritten (tw b0 (fun w => { w with g := vset w.g 3 0xfedcba9876543217 }) |>.twig b0) 1 0xfedcba9876543217).getD (Twig.start .running)

/-- The hypotheses of Obligations.TwigAluResult are met: one bracket for each clause. -/
theorem test_witness_TwigAluResult_2 :
    ((aluRow (Instr.neg b0 (0 : PReg) (1 : GReg)) = some { t := b0, gu := (0 : PReg), words := 1, pfx := false, legal := True, reads := [(1 : GReg)], gd := (1 : GReg), value := fun (w : Twig) => -w.reg (1 : GReg) : AluRow }) ∧ TwigGo av b0 (0 : PReg) 1 [(1 : GReg)] ∧ (false = true ∨ (av.twig b0).pfx = [])) ∧
    ((aluRow (Instr.movi b0 (0 : PReg) (1 : GReg) (9 : BitVec 4)) = some { t := b0, gu := (0 : PReg), words := 1, pfx := true, legal := True, reads := [], gd := (1 : GReg), value := fun (w : Twig) => w.imm true 4 (BitVec.toNat (9 : BitVec 4)) : AluRow }) ∧ TwigGo av b0 (0 : PReg) 1 [] ∧ (true = true ∨ (av.twig b0).pfx = [])) ∧
    ((aluRow (Instr.sra b0 (0 : PReg) (1 : GReg) (2 : GReg) (0 : BitVec 4) (3 : GReg)) = some { t := b0, gu := (0 : PReg), words := 2, pfx := false, legal := (0 : BitVec 4) = (0 : BitVec 4), reads := [(2 : GReg), (3 : GReg)], gd := (1 : GReg), value := fun (w : Twig) => BitVec.sshiftRight (w.reg (2 : GReg)) (amount (w.reg (3 : GReg))) : AluRow }) ∧ (0 : BitVec 4) = (0 : BitVec 4) ∧ TwigGo av b0 (0 : PReg) 2 [(2 : GReg), (3 : GReg)] ∧ (false = true ∨ (av.twig b0).pfx = [])) ∧
    ((aluRow (Instr.rot b0 (0 : PReg) (1 : GReg) (2 : GReg) (0 : BitVec 4) (3 : GReg)) = some { t := b0, gu := (0 : PReg), words := 2, pfx := false, legal := (0 : BitVec 4) = (0 : BitVec 4), reads := [(2 : GReg), (3 : GReg)], gd := (1 : GReg), value := fun (w : Twig) => BitVec.rotateLeft (w.reg (2 : GReg)) (amount (w.reg (3 : GReg))) : AluRow }) ∧ (0 : BitVec 4) = (0 : BitVec 4) ∧ TwigGo av b0 (0 : PReg) 2 [(2 : GReg), (3 : GReg)] ∧ (false = true ∨ (av.twig b0).pfx = [])) ∧
    ((aluRow (Instr.shli b0 (0 : PReg) (1 : GReg) (2 : GReg) (0 : BitVec 1) (5 : BitVec 7)) = some { t := b0, gu := (0 : PReg), words := 2, pfx := false, legal := (0 : BitVec 1) = (0 : BitVec 1), reads := [(2 : GReg)], gd := (1 : GReg), value := fun (w : Twig) => w.reg (2 : GReg) <<< BitVec.toNat (5 : BitVec 7) : AluRow }) ∧ (0 : BitVec 1) = (0 : BitVec 1) ∧ TwigGo av b0 (0 : PReg) 2 [(2 : GReg)] ∧ (false = true ∨ (av.twig b0).pfx = [])) ∧
    ((aluRow (Instr.shli b0 (0 : PReg) (1 : GReg) (2 : GReg) (0 : BitVec 1) (127 : BitVec 7)) = some { t := b0, gu := (0 : PReg), words := 2, pfx := false, legal := (0 : BitVec 1) = (0 : BitVec 1), reads := [(2 : GReg)], gd := (1 : GReg), value := fun (w : Twig) => w.reg (2 : GReg) <<< BitVec.toNat (127 : BitVec 7) : AluRow }) ∧ (0 : BitVec 1) = (0 : BitVec 1) ∧ TwigGo av b0 (0 : PReg) 2 [(2 : GReg)] ∧ (false = true ∨ (av.twig b0).pfx = [])) ∧
    ((aluRow (Instr.andi b0 (0 : PReg) (1 : GReg) (2 : GReg) (9 : BitVec 8)) = some { t := b0, gu := (0 : PReg), words := 2, pfx := true, legal := True, reads := [(2 : GReg)], gd := (1 : GReg), value := fun (w : Twig) => w.reg (2 : GReg) &&& w.imm true 8 (BitVec.toNat (9 : BitVec 8)) : AluRow }) ∧ TwigGo av b0 (0 : PReg) 2 [(2 : GReg)] ∧ (true = true ∨ (av.twig b0).pfx = [])) ∧
    ((aluRow (Instr.popc b0 (0 : PReg) (1 : GReg) (2 : GReg) (0 : BitVec 8)) = some { t := b0, gu := (0 : PReg), words := 2, pfx := false, legal := (0 : BitVec 8) = (0 : BitVec 8), reads := [(2 : GReg)], gd := (1 : GReg), value := fun (w : Twig) => BitVec.ofNat 64 (List.countP (fun (i : ℕ) => BitVec.getLsbD (w.reg (2 : GReg)) i) (List.range 64)) : AluRow }) ∧ (0 : BitVec 8) = (0 : BitVec 8) ∧ TwigGo av b0 (0 : PReg) 2 [(2 : GReg)] ∧ (false = true ∨ (av.twig b0).pfx = [])) := ⟨⟨rfl, twigGo_of (by decide +kernel), by decide +kernel⟩,
    ⟨rfl, twigGo_of (by decide +kernel), by decide +kernel⟩,
    ⟨rfl, by decide +kernel, twigGo_of (by decide +kernel), by decide +kernel⟩,
    ⟨rfl, by decide +kernel, twigGo_of (by decide +kernel), by decide +kernel⟩,
    ⟨rfl, by decide +kernel, twigGo_of (by decide +kernel), by decide +kernel⟩,
    ⟨rfl, by decide +kernel, twigGo_of (by decide +kernel), by decide +kernel⟩,
    ⟨rfl, twigGo_of (by decide +kernel), by decide +kernel⟩,
    ⟨rfl, by decide +kernel, twigGo_of (by decide +kernel), by decide +kernel⟩⟩

/-- The hypotheses of Obligations.ControlRegisters are met: one bracket for each clause. -/
theorem test_witness_ControlRegisters_2 :
    (TwigGo wit1 b0 (0 : PReg) 2 [] ∧ (wit1.twig b0).pfx = [] ∧ Idle wit1 b0 ∧ (wit1.twig b0).rep = none ∧ (ctlValue wit1 b0 ↑(0 : Fin 16) = some ((ctlValue wit1 b0 0).getD 0))) ∧
    (TwigGo wit2 b0 (0 : PReg) 2 [(3 : GReg)] ∧ (wit2.twig b0).pfx = [] ∧ Idle wit2 b0 ∧ (wit2.twig b0).rep = none ∧ ctlWritten (wit2.twig b0) (↑(0 : Fin 16)) ((wit2.twig b0).reg (3 : GReg)) = some wit3) ∧
    (TwigGo wit1 b0 (0 : PReg) 2 [] ∧ (wit1.twig b0).pfx = [] ∧ Idle wit1 b0 ∧ (wit1.twig b0).rep = none ∧ (ctlValue wit1 b0 ↑(1 : Fin 16) = some ((ctlValue wit1 b0 1).getD 0))) ∧
    (TwigGo wit2 b0 (0 : PReg) 2 [(3 : GReg)] ∧ (wit2.twig b0).pfx = [] ∧ Idle wit2 b0 ∧ (wit2.twig b0).rep = none ∧ ctlWritten (wit2.twig b0) (↑(1 : Fin 16)) ((wit2.twig b0).reg (3 : GReg)) = some wit4) := ⟨⟨twigGo_of (by decide +kernel), by decide +kernel, idle_of (by decide +kernel), by decide +kernel, by decide +kernel⟩,
    ⟨twigGo_of (by decide +kernel), by decide +kernel, idle_of (by decide +kernel), by decide +kernel, by decide +kernel⟩,
    ⟨twigGo_of (by decide +kernel), by decide +kernel, idle_of (by decide +kernel), by decide +kernel, by decide +kernel⟩,
    ⟨twigGo_of (by decide +kernel), by decide +kernel, idle_of (by decide +kernel), by decide +kernel, by decide +kernel⟩⟩

end P2

namespace P3

/-- The hypotheses of Obligations.TwigAluResult are met: one bracket for each clause. -/
theorem test_witness_TwigAluResult_3 :
    ((aluRow (Instr.movi b0 (0 : PReg) (1 : GReg) (9 : BitVec 4)) = some { t := b0, gu := (0 : PReg), words := 1, pfx := true, legal := True, reads := [], gd := (1 : GReg), value := fun (w : Twig) => w.imm true 4 9 : AluRow }) ∧ TwigGo bs b0 (0 : PReg) 1 [] ∧ (true = true ∨ (bs.twig b0).pfx = [])) ∧
    ((aluRow (Instr.andi b0 (0 : PReg) (1 : GReg) (2 : GReg) (128 : BitVec 8)) = some { t := b0, gu := (0 : PReg), words := 2, pfx := true, legal := True, reads := [(2 : GReg)], gd := (1 : GReg), value := fun (w : Twig) => w.reg (2 : GReg) &&& w.imm true 8 128 : AluRow }) ∧ TwigGo bs b0 (0 : PReg) 2 [(2 : GReg)] ∧ (true = true ∨ (bs.twig b0).pfx = [])) := ⟨⟨rfl, twigGo_of (by decide +kernel), by decide +kernel⟩,
    ⟨rfl, twigGo_of (by decide +kernel), by decide +kernel⟩⟩

end P3

namespace P8

/-- The hypotheses of Obligations.ElementResults are met: one bracket for each clause. -/
theorem test_witness_ElementResults :
    (ETy.i8.isFp = false ∧ 128 < 2 ^ ETy.i8.width ∧ 255 < 2 ^ ETy.i8.width ∧ 3 < 2 ^ ETy.i8.width) ∧
    (ETy.i8.isFp = false ∧ 128 < 2 ^ ETy.i8.width ∧ 0 < 2 ^ ETy.i8.width ∧ 3 < 2 ^ ETy.i8.width) := ⟨by decide +kernel,
    by decide +kernel⟩

end P8

namespace P9

def fld (d a b c : BitVec 5) : VFields := { u := false, dst := d, srca := a, mask := 0, rsv := 0, srcb := b, srcc := c, ty := 2, rtz := false }
def da : VDec := (vdec .add 0 (fld 16 17 18 0)).get (by decide +kernel)
def vs (vl : Nat) (f : Bough → Bough := id) : State := bs.modBough 0 fun y => f { y with twig := { y.twig with vl := vl, vcsr := 0x1f0006, pc := 8 } }
def e0 : QEntry := (vs 4).bough 0 |>.entry da 8 0 1
def v0 : Env := ((vs 4 (fun y => { y with v := vset (vset y.v 1 0x00000004000000030000000200000001) 2 0xffffffff000000300000002000000010 })).env 0 { Half.free with run := [e0] })
def fa (i : Nat) : Nat := match v0.read [] 0 e0 0 i with | .ok x => x | _ => 7
def fb (i : Nat) : Nat := match v0.read [] 0 e0 1 i with | .ok x => x | _ => 7
def fc (i : Nat) : Nat := match v0.read [] 0 e0 2 i with | .ok x => x | _ => 7
def eo : QEntry := { e0 with op := .sum }
def fs (i : Nat) : Nat := match v0.read [] 0 eo 0 i with | .ok x => x | _ => 7

/-- The hypotheses of Obligations.ElementResults are met: one bracket for each clause. -/
theorem test_witness_ElementResults_2 :
    v0.maskBits e0 = Except.ok [true, true, true, true] ∧ e0.op.isCmp = false ∧ e0.op ∉ [VOp.fill, VOp.gatherf, VOp.compress, VOp.expand, VOp.merge, VOp.sum, VOp.minr, VOp.maxr, VOp.scan, VOp.segsum, VOp.dot4] ∧ (∀ (i : ℕ), [true, true, true, true][i]? = some true → v0.read [] 0 e0 0 i = Except.ok (fa i) ∧ v0.read [] 0 e0 1 i = Except.ok (fb i) ∧ v0.read [] 0 e0 2 i = Except.ok (fc i) ∧ ∃ (x : ℕ), v0.dest 0 e0 i = Except.ok x) ∧ (∀ (i : ℕ), [true, true, true, true][i]? = some true → e0.en &&& (elemOp e0.op e0.ty e0.srcTy e0.ctl (fa i) (if e0.op.usesB = true then fb i else 0) (if e0.op.usesC = true then fc i else 0)).2 = (0 : BitVec 5)) := ⟨by decide +kernel, by decide +kernel, by decide +kernel, fun i h => match i, h with | 0, _ => ⟨by decide +kernel, by decide +kernel, by decide +kernel, _, rfl⟩ | 1, _ => ⟨by decide +kernel, by decide +kernel, by decide +kernel, _, rfl⟩ | 2, _ => ⟨by decide +kernel, by decide +kernel, by decide +kernel, _, rfl⟩ | 3, _ => ⟨by decide +kernel, by decide +kernel, by decide +kernel, _, rfl⟩ | n + 4, h => by simp at h, fun i h => match i, h with | 0, _ => by decide +kernel | 1, _ => by decide +kernel | 2, _ => by decide +kernel | 3, _ => by decide +kernel | n + 4, h => by simp at h⟩

/-- The hypotheses of Obligations.SumsAndRegisterElements are met: one bracket for each clause. -/
theorem test_witness_SumsAndRegisterElements :
    (eo.op = VOp.sum ∧ eo.ty.isFp = false ∧ v0.maskBits eo = Except.ok [true, true, true, true] ∧ 0 < eo.vl ∧ (∀ (i : ℕ), [true, true, true, true][i]? = some true → v0.read [] 0 eo 0 i = Except.ok (fs i) ∧ fs i < 2 ^ eo.ty.width) ∧ (∃ (x : ℕ), v0.dest 0 eo 0 = Except.ok x)) ∧
    (2 < ETy.u16.perReg ∧ 3 < ETy.u16.perReg) ∧
    (3 < ETy.u16.perReg ∧ 3 < ETy.u16.perReg) ∧
    (3 = [true, false, true].length ∧ 3 ≤ 16384 ∧ 1 < 16384) ∧
    (3 = [true, false, true].length ∧ 3 ≤ 16384 ∧ 3 < 16384) := ⟨⟨by decide +kernel, by decide +kernel, by decide +kernel, by decide +kernel, fun i h => match i, h with | 0, _ => ⟨by decide +kernel, by decide +kernel⟩ | 1, _ => ⟨by decide +kernel, by decide +kernel⟩ | 2, _ => ⟨by decide +kernel, by decide +kernel⟩ | 3, _ => ⟨by decide +kernel, by decide +kernel⟩ | n + 4, h => by simp at h, ⟨_, rfl⟩⟩,
    by decide +kernel,
    by decide +kernel,
    by decide +kernel,
    by decide +kernel⟩

end P9

namespace P12

def st2 : State := { bs with hbm := vmod bs.hbm 0 fun x => { x with state := 2 } }
def wit10 : State := { st2 with sys := { st2.sys with mode := .service }, rootLinear := true }
def wit11 : State := { st2 with rootLinear := true }

/-- The hypotheses of Obligations.AddressMaps are met: one bracket for each clause. -/
theorem test_witness_AddressMaps :
    (2147483647 < 2 ^ 31) ∧
    (305419896 < 2 ^ 31) ∧
    (wit10.sys.mode = Mode.service ∧ wit10.slicesIdle = true) ∧
    ((wit11.sys.mode ≠ Mode.service ∨ wit11.slicesIdle = false)) := ⟨by decide +kernel,
    by decide +kernel,
    by decide +kernel,
    by decide +kernel⟩

end P12

namespace P14

def qf : State := bs.modQueue 0 fun x => { x with flushing := true, prod := some ⟨2, [], 3⟩, credits := 0, pending := [{ typ := 3, tag := 9, words := [], slot := 0 }] }
def wit14 : Word × Word := (qf.queueRec 0).get (by decide +kernel)

/-- The hypotheses of Obligations.QueueFlushes are met: one bracket for each clause. -/
theorem test_witness_QueueFlushes :
    (qf.queues[(0 : QueueId)].flushing = true ∧ qf.halvesOn (0 : QueueId) = [] ∧ qf.queueRec ↑(0 : QueueId) = some wit14 ∧ (∀ (n : ℕ), recCons wit14 ≠ QRole.graft n)) ∧
    (bs.queues[(0 : QueueId)].flushing = false) := ⟨⟨by decide +kernel, by decide +kernel, by decide +kernel, fun _ h => nomatch ((by decide +kernel : recCons wit14 = .bough 1).symm.trans h)⟩,
    by decide +kernel⟩

end P14

namespace P15

def pp (st : PlotSt) (f : Plot → Plot := id) (s : State := bs) : State := s.modPlot 0 fun p => f { p with st := st }
def wit8 : State := pp .parking
def wit9 : State := (pp .parking).modTwig (.bough 1) (fun w => { w with run := .halted })
def wit10 : State := (pp .parked (fun x => { x with parkedAt := 0 })).modTwig (.bough 1) (fun w => { w with run := .held })
def wit11 : State := pp .parked
def wit12 : State := pp .running (fun x => { x with preempt := true, graceOn := true })
def wit12p : State := pp .parking (fun x => { x with preempt := true, graceOn := true })
def wit13 : State := pp .running (fun x => { x with preempt := true, graceOn := true, preemptEnd := 1 }) a3
def wit14 : State := pp .regraining
def pr : State := { (bs.modPlot 0 fun x => { x with st := .resetting, resetBusy := true }) with boughs := vmod bs.boughs 1 fun y => { y with resetting := true } }
def pr2 : State := bs.modPlot 0 fun x => { x with st := .resetting, resetBusy := true }
def wit15 : State := { (pr2.modPlot 0 fun x => { x with park := true }) with mem := pr2.mem.put (sc + 5) 7 }
def cp (share lim duty : Nat) : State := { (bs.modPlot 0 fun x => { x with shareNJ := share, limitMw := BitVec.ofNat 20 lim, duty := duty }) with ring := { Ring.start with tick := 2000 } }
def wit16 : State := cp 500000 400 64
def wit17 : State := cp 500000 500 60
def wit18 : State := { bs with ring := { Ring.start with tick := 2001 } }
def cm : State := bs.modPlot 0 fun x => { x with msgs := [(0, 5, 99)] }
def wit19 : State := cm.modQueue 3 (fun x => { x with credits := 1 })

/-- The hypotheses of Obligations.PlotParking are met: one bracket for each clause. -/
theorem test_witness_PlotParking :
    (a3.plotMap ↑(0 : PlotId) = some m0 ∧ a3.plots[(0 : PlotId)].st = PlotSt.running) ∧
    (wit8.plotMap ↑(0 : PlotId) = some m0 ∧ wit8.plots[(0 : PlotId)].st = PlotSt.parking ∧ (∀ (b : BoughId), m0.boughs.getLsbD ↑b = true → (wit8.bough b).streaming = false ∧ (wit8.bough b).twig.canHold = true)) ∧
    (wit9.plotMap ↑(0 : PlotId) = some m0 ∧ wit9.plots[(0 : PlotId)].st = PlotSt.parking ∧ (∀ (b : BoughId), m0.boughs.getLsbD ↑b = true → (wit9.bough b).streaming = false ∧ (wit9.bough b).twig.canHold = true)) ∧
    (wit8.plotMap ↑(0 : PlotId) = some m0 ∧ wit8.plots[(0 : PlotId)].st = PlotSt.parking) ∧
    (wit10.plotMap ↑(0 : PlotId) = some m0 ∧ wit10.plots[(0 : PlotId)].st = PlotSt.parked) ∧
    (bs.plotMap ↑(0 : PlotId) = some m0 ∧ bs.plots[(0 : PlotId)].st = PlotSt.running ∧ bs.plots[(0 : PlotId)].preempt = false) ∧
    (wit11.plotMap ↑(0 : PlotId) = some m0 ∧ wit11.plots[(0 : PlotId)].st ≠ PlotSt.running) ∧
    (wit12.plotMap ↑(0 : PlotId) = some m0 ∧ wit12.plots[(0 : PlotId)].st = PlotSt.running ∧ wit12.plots[(0 : PlotId)].graceOn = true ∧ (BitVec.toNat wit12.plots[(0 : PlotId)].preemptEnd ≤ BitVec.toNat wit12.ring.tick ∨ wit12.plotIdle m0 = true)) := ⟨by decide +kernel,
    by decide +kernel,
    by decide +kernel,
    by decide +kernel,
    by decide +kernel,
    by decide +kernel,
    by decide +kernel,
    by decide +kernel⟩

/-- The hypotheses of Obligations.PlotParking are met: one bracket for each clause. -/
theorem test_witness_PlotParking_2 :
    (wit12p.plotMap ↑(0 : PlotId) = some m0 ∧ wit12p.plots[(0 : PlotId)].st = PlotSt.parking ∧ wit12p.plots[(0 : PlotId)].graceOn = true ∧ BitVec.toNat wit12p.plots[(0 : PlotId)].preemptEnd ≤ BitVec.toNat wit12p.ring.tick) ∧
    wit13.plotMap ↑(0 : PlotId) = some m0 ∧ BitVec.toNat wit13.ring.tick < BitVec.toNat wit13.plots[(0 : PlotId)].preemptEnd ∧ wit13.plotIdle m0 = false := by decide +kernel

/-- The hypotheses of Obligations.PlotReset are met: one bracket for each clause. -/
theorem test_witness_PlotReset :
    (bs.plotMap ↑(0 : PlotId) = some m0 ∧ bs.plots[(0 : PlotId)].resetBusy = false ∧ bs.plots[(0 : PlotId)].st ≠ PlotSt.regraining) ∧
    (wit14.plotMap ↑(0 : PlotId) = some m0 ∧ wit14.plots[(0 : PlotId)].st = PlotSt.regraining ∧ wit14.plots[(0 : PlotId)].resetBusy = false) ∧
    (pr2.plotMap ↑(0 : PlotId) = some m0 ∧ pr2.plots[(0 : PlotId)].resetBusy = true ∧ pr2.plotClean m0 = true ∧ pr2.plots[(0 : PlotId)].heldEvents = []) ∧
    (wit15.plotMap ↑(0 : PlotId) = some m0 ∧ wit15.plots[(0 : PlotId)].resetBusy = true ∧ wit15.plotClean m0 = true ∧ wit15.plots[(0 : PlotId)].heldEvents = []) ∧
    (pr.plotMap ↑(0 : PlotId) = some m0 ∧ pr.plotClean m0 = false) ∧
    (bs.plotMap ↑(0 : PlotId) = some m0 ∧ m0.boughs.getLsbD ↑(1 : BoughId) = true ∧ (bs.bough (1 : BoughId)).resetting = false) ∧
    (bs.plotMap ↑(0 : PlotId) = some m0 ∧ m0.boughs.getLsbD ↑(2 : BoughId) = false) := ⟨by decide +kernel,
    by decide +kernel,
    by decide +kernel,
    by decide +kernel,
    by decide +kernel,
    by decide +kernel,
    by decide +kernel⟩

/-- The hypotheses of Obligations.PowerCapsAndMessages are met: one bracket for each clause. -/
theorem test_witness_PowerCapsAndMessages :
    (BitVec.toNat wit16.ring.tick % 1000 = 0 ∧ ((List.map (fun (m : PlotMap) => m.plot) wit16.plotMaps).Nodup) ∧ (∀ m ∈ wit16.plotMaps, m.plot < 64)) ∧
    (BitVec.toNat wit17.ring.tick % 1000 = 0 ∧ ((List.map (fun (m : PlotMap) => m.plot) wit17.plotMaps).Nodup) ∧ (∀ m ∈ wit17.plotMaps, m.plot < 64)) ∧
    (BitVec.toNat wit18.ring.tick % 1000 ≠ 0) ∧
    (cm.boughPlot ↑(0 : BoughId) = some m0 ∧ cm.plots[plotId m0.plot].msgs = [((0 : BoughId), (5 : BitVec 8), (99 : Word))] ∧ cm.crownQueue ↑(0 : BoughId) = some (3 : QueueId) ∧ cm.queues[(3 : QueueId)].prod = none ∧ 2 ≤ cm.queues[(3 : QueueId)].credits) ∧
    (wit19.boughPlot ↑(0 : BoughId) = some m0 ∧ wit19.plots[plotId m0.plot].msgs = [((0 : BoughId), (5 : BitVec 8), (99 : Word))] ∧ wit19.crownQueue ↑(0 : BoughId) = some (3 : QueueId) ∧ wit19.queues[(3 : QueueId)].prod = none ∧ wit19.queues[(3 : QueueId)].credits < 2) := ⟨by decide +kernel,
    by decide +kernel,
    by decide +kernel,
    by decide +kernel,
    by decide +kernel⟩

end P15

namespace P16

def q1 : ActReq := { slot := 0, plot := none, early := 5, ch := some 1 }
def gs (st : GrnSt) (m : Mode) (r : ActReq := q1) (g : Option Grain := none) (s : State := bs) : State := { s with grn := { s.grn with req := some r, st := st, staged := g }, sys := { s.sys with mode := m }, ring := { Ring.start with tick := 5 } }
def wit1 : State := gs .checking .run
def wit2 : State := gs .staged .run
def wit3 : State := gs .staged .run { q1 with early := 6 }
def m1 : PlotMap := { m0 with plot := 1, vf := some 1, boughs := 6, regions := 2, keep := 0 }
def g2 : Grain := { img with serial := 9, plots := [{ m0 with boughs := 1 }, { m1 with boughs := 6 }], queues := [qrec 0 1 0 0 0 1 0, qrec 1 2 1 0 0 0 0, qrec 3 1 3 0 0 0 0] }
def gw : State := { gs .draining .load q1 (some g2) with mem := (bs.mem.put 5 7).put (sc + 0x100005) 8 }
def wit4 : State := { a6 with crn := { a6.crn with armed := true, subMs := 999, remain := 4 } }
def wit5 : State := { a6 with pwr := { a6.pwr with refclkOk := false } }
def te (ms act : Nat) : State := { (bs.modPlot 0 fun x => { x with activity := act * 10^8 }) with ring := { Ring.start with tick := 3000, msNJ := ms } }
def wit6 : State := te 1000 50
def wit7 : State := te 100 500
def wit8 : State := { bs with ring := { Ring.start with tick := 7, gapOpen := true, uncertain := true, offset := 50 } }

/-- The hypotheses of Obligations.ImageLoading are met: one bracket for each clause. -/
theorem test_witness_ImageLoading :
    (wit1.grn.req = some q1 ∧ q1.ch = some (1 : Fin 5) ∧ wit1.grn.st = GrnSt.checking ∧ wit1.sys.mode = Mode.run ∧ wit1.grn.waiting = []) ∧
    (wit2.grn.req = some q1 ∧ wit2.grn.st = GrnSt.staged ∧ q1.plot = none ∧ wit2.sys.mode = Mode.run ∧ wit2.linearInForce = false) ∧
    (wit3.grn.req = some { slot := q1.slot, plot := q1.plot, early := (6 : Word), ch := q1.ch : ActReq } ∧ wit3.grn.st = GrnSt.staged ∧ { slot := q1.slot, plot := q1.plot, early := (6 : Word), ch := q1.ch : ActReq }.plot = none ∧ wit3.sys.mode = Mode.run ∧ wit3.linearInForce = false) ∧
    (gw.grn.staged = some g2 ∧ gw.sys.mode = Mode.load ∧ (gw.grn.st = GrnSt.staged ∨ gw.grn.st = GrnSt.draining)) := ⟨by decide +kernel,
    by decide +kernel,
    by decide +kernel,
    by decide +kernel⟩

/-- The hypotheses of Obligations.TimeAndEnergy are met: one bracket for each clause. -/
theorem test_witness_TimeAndEnergy :
    (a6.ticking = true ∧ ((List.map (fun (m : PlotMap) => m.plot) a6.plotMaps).Nodup) ∧ (∀ m ∈ a6.plotMaps, m.plot < 64)) ∧
    (wit4.ticking = true ∧ ((List.map (fun (m : PlotMap) => m.plot) wit4.plotMaps).Nodup) ∧ (∀ m ∈ wit4.plotMaps, m.plot < 64)) ∧
    (wit5.pwr.refclkOk = false) ∧
    (BitVec.toNat wit6.ring.tick % 1000 = 0 ∧ wit6.ticking = true ∧ wit6.sys.mode = Mode.run ∧ ((List.map (fun (m : PlotMap) => m.plot) wit6.plotMaps).Nodup) ∧ (∀ m ∈ wit6.plotMaps, m.plot < 64)) ∧
    (BitVec.toNat wit7.ring.tick % 1000 = 0 ∧ wit7.ticking = true ∧ wit7.sys.mode = Mode.run ∧ ((List.map (fun (m : PlotMap) => m.plot) wit7.plotMaps).Nodup) ∧ (∀ m ∈ wit7.plotMaps, m.plot < 64)) ∧
    (LedgerTakes wit8) := ⟨by decide +kernel,
    by decide +kernel,
    by decide +kernel,
    by decide +kernel,
    by decide +kernel,
    by unfold LedgerTakes; decide +kernel⟩

end P16

namespace P17

def mb (tick : Nat) (f : State → State := id) : State := f { (bs.modPlot 0 fun x => { x with cnt := { x.cnt with startTick := 3, boughUs := 77, traps := 5, energyNJ := 123456, rootRd := 9 } }) with ring := { Ring.start with tick := BitVec.ofNat 64 tick, rings := Vector.replicate 32 7 } }
def wit1 : State := mb 60000000
def js (n : Nat) (p : Bool := true) : List JSlot := List.replicate n { item := { typ := 0xa0, seq := 1, covered := [1,2,3], sig := [4], plot := some 0 }, posted := p }
def wit2 : State := mb 60000000 fun s => { s with ring := { s.ring with journal := js 7615 } }
def wit3 : State := mb 60000000 fun s => { s with sys := { s.sys with mode := .dormant } }
def wit4 : State := mb 3600000000
def th (t lo hi : Nat) : State := mb 1000000 fun s => { s with pwr := { s.pwr with jmax := BitVec.ofNat 8 t }, ring := { s.ring with thermLow := lo, thermHigh := hi } }
def wit5 : State := th 99 1000 0
def wit6 : State := th 105 20 120
def it (t : BitVec 8) (n : Nat) : Item := { typ := t, seq := 0, covered := List.replicate n 1, sig := [], plot := some 0 }
def sg (i : Item) : State := mb 60000000 fun s => { s with hwd := { s.hwd with engine := some .ledger }, ring := { s.ring with unsigned := [i, it 0xa2 6], seq := 44 } }
def wit7 : State := sg (it 0xa0 22)
def wit8 : State := sg (it 0xa1 51)
def jc (n : Nat) : State := mb 5 fun s => { s with ring := { s.ring with signed := [it 0xa0 22], journal := js n } }
def wit9 : State := jc 7679
def wit10 : State := jc 7680
def jp : State := mb 5 fun s => { s with ring := { s.ring with journal := js 2 ++ js 2 false } }
def wit11 : JSlot := ((js 1 false).head?).get (by decide +kernel)
def wit12 : State := jp.modQueue 4 (fun x => { x with credits := 4 })
def wit13 : State := { jp with sys := { jp.sys with pwrFail := true }, hwd := { jp.hwd with sigQueue := [.ledger] } } -- spdm
/-- The hypotheses of Obligations.LedgerEmission are met: one bracket for each clause. -/
theorem test_witness_LedgerEmission :
    (BitVec.toNat wit1.ring.tick % 60000000 = 0 ∧ wit1.ticking = true ∧ wit1.sys.mode = Mode.run ∧ ((List.map (fun (m : PlotMap) => m.plot) wit1.plotMaps).Nodup) ∧ (∀ m ∈ wit1.plotMaps, m.plot < 64) ∧ wit1.plotMaps ≠ []) ∧
    (BitVec.toNat wit2.ring.tick % 60000000 = 0 ∧ wit2.ticking = true ∧ wit2.sys.mode = Mode.run ∧ ((List.map (fun (m : PlotMap) => m.plot) wit2.plotMaps).Nodup) ∧ (∀ m ∈ wit2.plotMaps, m.plot < 64) ∧ wit2.plotMaps ≠ []) ∧
    ((wit3.sys.mode = Mode.dormant ∨ wit3.sys.mode = Mode.boot ∨ wit3.sys.mode = Mode.reset)) ∧
    (BitVec.toNat wit4.ring.tick % 3600000000 = 0 ∧ wit4.ring.sealStart ≠ wit4.ring.tick ∧ wit4.ticking = true ∧ LedgerTakes wit4) ∧
    (BitVec.toNat wit5.ring.tick % 1000000 = 0 ∧ wit5.ticking = true) ∧
    (BitVec.toNat wit6.ring.tick % 1000000 = 0 ∧ wit6.ticking = true) ∧
    (wit7.hwd.engine = some SigReq.ledger ∧ wit7.sys.pwrFail = false ∧ wit7.sys.mode = Mode.run ∧ wit7.ring.unsigned = [it (160 : BitVec 8) 22, it (162 : BitVec 8) 6] ∧ 2 ≤ (it (160 : BitVec 8) 22).covered.length ∧ ((it (160 : BitVec 8) 22).typ = (160 : BitVec 8) → (it (160 : BitVec 8) 22).covered.length = 22) ∧ ((it (160 : BitVec 8) 22).typ = (161 : BitVec 8) → (it (160 : BitVec 8) 22).covered.length = 51)) ∧
    (wit8.hwd.engine = some SigReq.ledger ∧ wit8.sys.pwrFail = false ∧ wit8.sys.mode = Mode.run ∧ wit8.ring.unsigned = [it (161 : BitVec 8) 51, it (162 : BitVec 8) 6] ∧ 2 ≤ (it (161 : BitVec 8) 51).covered.length ∧ ((it (161 : BitVec 8) 51).typ = (160 : BitVec 8) → (it (161 : BitVec 8) 51).covered.length = 22) ∧ ((it (161 : BitVec 8) 51).typ = (161 : BitVec 8) → (it (161 : BitVec 8) 51).covered.length = 51)) := ⟨by decide +kernel,
    by decide +kernel,
    by decide +kernel,
    ⟨by decide +kernel, by decide +kernel, by unfold LedgerTakes; decide +kernel⟩,
    by decide +kernel,
    by decide +kernel,
    by decide +kernel,
    by decide +kernel⟩

/-- The hypotheses of Obligations.LedgerEmission are met: one bracket for each clause. -/
theorem test_witness_LedgerEmission_2 :
    (wit9.ring.signed = [it (160 : BitVec 8) 22] ∧ wit9.sys.mode = Mode.run ∧ wit9.sys.pwrFail = false) ∧
    (wit10.ring.signed = [it (160 : BitVec 8) 22] ∧ wit10.sys.mode = Mode.run ∧ wit10.sys.pwrFail = false) ∧
    (jp.ledgerQueue = some (4 : QueueId) ∧ jp.ring.journal = js 2 ++ wit11 :: js 1 false ∧ (∀ y ∈ js 2, y.posted = true) ∧ wit11.posted = false ∧ jp.sys.mode = Mode.run ∧ jp.sys.pwrFail = false ∧ jp.queues[(4 : QueueId)].prod = none) ∧
    (wit12.ledgerQueue = some (4 : QueueId) ∧ wit12.ring.journal = js 2 ++ wit11 :: js 1 false ∧ (∀ y ∈ js 2, y.posted = true) ∧ wit11.posted = false ∧ wit12.sys.mode = Mode.run ∧ wit12.sys.pwrFail = false ∧ wit12.queues[(4 : QueueId)].prod = none) ∧
    (jp.sys.pwrFail = false ∧ jp.sys.aonGood = true ∧ jp.sys.mode = Mode.run ∧ jp.sys.restoreDue = none ∧ jp.grn.staged = none ∧ jp.grn.req = none ∧ jp.grn.active ≠ none) ∧
    (wit13.sys.pwrFail = true) := ⟨by decide +kernel,
    by decide +kernel,
    by decide +kernel,
    by decide +kernel,
    by decide +kernel,
    by decide +kernel⟩

end P17

namespace P18

def hp : State := (a6.modQueue 1 fun x => { x with prod := some ⟨3, [], 0⟩, credits := 60 }).modPort 0 fun p => { p with downs := 65534 }
def g1 : Grain := { img with plots := [{ m0 with vf := none }], queues := [qrec 1 1 1 0xf0 0 0 0] }
def hp2 : State := { hp with grn := { hp.grn with active := some g1 } }
def dn : State := bs.modPort 0 fun p => { p with linkUp := false }
def wit1 : State := bs.modPort 0 (fun p => { p with retrains := 65535 })
def wit2 : State := dn.modPort 0 (fun p => { p with perst := true })
def pw (f : Pwr → Pwr) : State := { bs with pwr := f bs.pwr }
def wit7 : State := pw (fun p => { p with lvl := .edge1 3 0 })
def wit8 : State := pw (fun p => { p with lvl := .settling 3 0, targetMv := 800 })
def wit9 : State := pw (fun p => { p with lvl := .edge1 3 0, targetMv := 800 })
def wit10 : State := pw (fun p => { p with lvl := .edge2 3 0, targetMv := 800, voltMv := 785, frozen := true })
def wit11 : State := pw (fun p => { p with lvl := .edge2 0 3, targetMv := 800, voltMv := 785, frozen := true })
def wit12 : State := pw (fun p => { p with lvl := .edge2 3 0, targetMv := 800, voltMv := 784, frozen := true })
def wit13 : State := pw (fun p => { p with level := 0 })
def lv (f : Pwr → Pwr) : State := { pw f with ring := { Ring.start with tick := 1000 } }
def wit14 : State := lv (fun p => { p with lastMw := 0xfffff })
def wit15 : State := lv (fun p => { p with jms := 95, level := 1 })
def wit16 : State := lv (fun p => { p with alarm := 1000 })
def wit17 : State := lv (fun p => { p with alarm := 1001 })

/-- The hypotheses of Obligations.HostPortLoss are met: one bracket for each clause. -/
theorem test_witness_HostPortLoss :
    (hp.ports[(0 : PortId)].linkUp = true) ∧
    (hp.ports[(0 : PortId)].linkUp = true ∧ hp.portPresent (0 : PortId) = true) ∧
    (hp2.ports[(0 : PortId)].linkUp = true) ∧
    (State.reset.ports[(0 : PortId)].linkUp = false) ∧
    (dn.canTrain (0 : PortId) (6 : BitVec 4) (16 : BitVec 5) = true ∧ dn.ports[(0 : PortId)].linkUp = false) ∧
    (dn.canTrain (0 : PortId) (1 : BitVec 4) (1 : BitVec 5) = true ∧ dn.ports[(0 : PortId)].linkUp = false) ∧
    (wit1.canTrain (0 : PortId) (1 : BitVec 4) (1 : BitVec 5) = true ∧ wit1.ports[(0 : PortId)].linkUp = true) ∧
    (bs.canTrain (0 : PortId) (6 : BitVec 4) (16 : BitVec 5) = true ∧ bs.ports[(0 : PortId)].linkUp = true) := ⟨by decide +kernel,
    by decide +kernel,
    by decide +kernel,
    by decide +kernel,
    by decide +kernel,
    by decide +kernel,
    by decide +kernel,
    by decide +kernel⟩

/-- The hypotheses of Obligations.HostPortLoss are met: one bracket for each clause. -/
theorem test_witness_HostPortLoss_2 :
    wit2.ports[(0 : PortId)].perst = true := by decide +kernel

/-- The hypotheses of Obligations.LevelChanges are met: one bracket for each clause. -/
theorem test_witness_LevelChanges :
    (bs.lvlWaits = false ∧ bs.pwr.lvl = LvlSt.idle ∧ bs.pwr.hwLive = false ∧ bs.pwr.droopHold = false) ∧
    (wit7.pwr.lvl ≠ LvlSt.idle) ∧
    (wit8.pwr.lvl = LvlSt.settling (3 : Fin 4) (0 : Fin 4) ∧ 815 ≤ wit8.pwr.targetMv + 15 ∧ wit8.pwr.targetMv ≤ 815 + 15) ∧
    (wit8.pwr.lvl = LvlSt.settling (3 : Fin 4) (0 : Fin 4) ∧ 785 ≤ wit8.pwr.targetMv + 15 ∧ wit8.pwr.targetMv ≤ 785 + 15) ∧
    (wit8.pwr.lvl = LvlSt.settling (3 : Fin 4) (0 : Fin 4) ∧ wit8.pwr.keptReq = none) ∧
    (wit9.pwr.lvl = LvlSt.edge1 (3 : Fin 4) (0 : Fin 4)) ∧
    (wit10.pwr.lvl = LvlSt.edge2 (3 : Fin 4) (0 : Fin 4) ∧ wit10.pwr.keptReq = none ∧ ((if (0 : Fin 4) = (0 : Fin 4) then 800 else if (0 : Fin 4) = (1 : Fin 4) then 720 else if (0 : Fin 4) = (2 : Fin 4) then 660 else 600) ≤ wit10.pwr.voltMv.toNat + 15 ∨ (3 : Fin 4) < (0 : Fin 4))) ∧
    (wit11.pwr.lvl = LvlSt.edge2 (0 : Fin 4) (3 : Fin 4) ∧ wit11.pwr.keptReq = none ∧ ((if (3 : Fin 4) = (0 : Fin 4) then 800 else if (3 : Fin 4) = (1 : Fin 4) then 720 else if (3 : Fin 4) = (2 : Fin 4) then 660 else 600) ≤ wit11.pwr.voltMv.toNat + 15 ∨ (0 : Fin 4) < (3 : Fin 4))) := ⟨by decide +kernel,
    by decide +kernel,
    by decide +kernel,
    by decide +kernel,
    by decide +kernel,
    by decide +kernel,
    by decide +kernel,
    by decide +kernel⟩

/-- The hypotheses of Obligations.LevelChanges are met: one bracket for each clause. -/
theorem test_witness_LevelChanges_2 :
    wit12.pwr.lvl = LvlSt.edge2 (3 : Fin 4) (0 : Fin 4) ∧ (wit12.pwr.voltMv.toNat + 15 < if (0 : Fin 4) = (0 : Fin 4) then 800 else if (0 : Fin 4) = (1 : Fin 4) then 720 else if (0 : Fin 4) = (2 : Fin 4) then 660 else 600) ∧ (0 : Fin 4) ≤ (3 : Fin 4) := by decide +kernel

/-- The hypotheses of Obligations.ThrottleAndSensors are met: one bracket for each clause. -/
theorem test_witness_ThrottleAndSensors :
    (wit13.pwr.level ≠ (3 : Fin 4)) ∧
    (a6.sys.trip = false) ∧
    ((List.range 20).length = 20 ∧ (∀ x ∈ List.range 20, x < 256)) ∧
    (((List.map (fun (i : ℕ) => 95 - i) (List.range 20)).length = 20) ∧ (∀ x ∈ List.map (fun (i : ℕ) => 95 - i) (List.range 20), x < 256)) ∧
    ((List.replicate 20 0).length = 20 ∧ (∀ x ∈ List.replicate 20 0, x < 256)) ∧
    ((List.replicate 20 255).length = 20 ∧ (∀ x ∈ List.replicate 20 255, x < 256)) ∧
    (BitVec.toNat wit14.ring.tick % 1000 = 0 ∧ wit14.sys.mode = Mode.run) ∧
    (BitVec.toNat wit15.ring.tick % 1000 = 0 ∧ wit15.sys.mode = Mode.run) := ⟨by decide +kernel,
    by decide +kernel,
    by decide +kernel,
    by decide +kernel,
    by decide +kernel,
    by decide +kernel,
    by decide +kernel,
    by decide +kernel⟩

/-- The hypotheses of Obligations.ThrottleAndSensors are met: one bracket for each clause. -/
theorem test_witness_ThrottleAndSensors_2 :
    (wit16.pwr.alarm ≠ (0 : Word) ∧ BitVec.toNat wit16.pwr.alarm ≤ BitVec.toNat wit16.ring.tick) ∧
    (BitVec.toNat wit17.ring.tick < BitVec.toNat wit17.pwr.alarm) := ⟨by decide +kernel,
    by decide +kernel⟩

end P18

namespace P19

def rst (f : Sys → Sys := id) : State := { State.reset with sys := f { Sys.start with restoreDue := none, resetN := true }, pwr := { Pwr.start with refclkOk := true } }
def wit1 : State := rst (fun x => { x with internalReset := true, resetN := false })
def wit2 : State := rst (fun x => { x with internalReset := true })
def wit3 : State := { rst (fun x => { x with resetN := false }) with pwr := Pwr.start }
def wit4 : State := { a6 with crn := { a6.crn with armed := true, remain := 0 } }
def wit5 : State := { a6 with crn := { a6.crn with armed := true, remain := 5, cores := vmod a6.crn.cores 2 fun w => { w with run := .halted } } }
def wit6 : State := { a6 with crn := { a6.crn with armed := true, remain := 1 } }
def wit7 : State := { a6 with crn := { a6.crn with armed := true, remain := 1, period := 9 } }
/-- The hypotheses of Obligations.DeviceResets are met: one bracket for each clause. -/
theorem test_witness_DeviceResets :
    (a6.sys.mode ≠ Mode.reset) ∧
    (State.reset.sys.mode = Mode.reset) ∧
    ((rst.sys.mode = Mode.reset ∧ rst.pwr.refclkOk = true ∧ rst.sys.aonGood = true ∧ rst.sys.trip = false) ∧ rst.sys.internalReset = false ∧ rst.linearInForce = false) ∧
    ((wit1.sys.mode = Mode.reset ∧ wit1.pwr.refclkOk = true ∧ wit1.sys.aonGood = true ∧ wit1.sys.trip = false) ∧ wit1.sys.internalReset = true ∧ wit1.sys.resetN = false ∧ wit1.linearInForce = false) ∧
    ((wit2.sys.mode = Mode.reset ∧ wit2.pwr.refclkOk = true ∧ wit2.sys.aonGood = true ∧ wit2.sys.trip = false) ∧ wit2.sys.internalReset = true ∧ wit2.sys.resetN = true) ∧
    (a6.pwr.refclkOk = true ∧ a6.sys.mode ≠ Mode.dormant) ∧
    (wit3.sys.aonGood = true ∧ wit3.sys.mode = Mode.reset ∧ wit3.sys.trip = false ∧ wit3.sys.resetN = false ∧ wit3.sys.internalReset = false ∧ wit3.linearInForce = false) ∧
    (wit4.sys.mode ≠ Mode.reset ∧ (wit4.crn.armed = true ∧ wit4.crn.remain = (0 : BitVec 16) ∨ (∃ (k : CoreId), wit4.crn.cores[k].run = TwigRun.halted ∧ wit4.crn.haltBits.getLsbD ↑k = false) ∨ ∀ (k : CoreId), wit4.crn.cores[k].run = TwigRun.halted)) := ⟨by decide +kernel,
    by decide +kernel,
    by decide +kernel,
    by decide +kernel,
    by decide +kernel,
    by decide +kernel,
    by decide +kernel,
    by decide +kernel⟩

/-- The hypotheses of Obligations.DeviceResets are met: one bracket for each clause. -/
theorem test_witness_DeviceResets_2 :
    (wit5.sys.mode ≠ Mode.reset ∧ (wit5.crn.armed = true ∧ wit5.crn.remain = (0 : BitVec 16) ∨ (∃ (k : CoreId), wit5.crn.cores[k].run = TwigRun.halted ∧ wit5.crn.haltBits.getLsbD ↑k = false) ∨ ∀ (k : CoreId), wit5.crn.cores[k].run = TwigRun.halted)) ∧
    ((wit6.crn.armed = false ∨ wit6.crn.remain ≠ (0 : BitVec 16)) ∧ (∀ (k : CoreId), wit6.crn.cores[k].run ≠ TwigRun.halted)) ∧
    (wit7.sys.mode ≠ Mode.reset ∧ wit7.sys.mode ≠ Mode.dormant) := ⟨by decide +kernel,
    by decide +kernel,
    by decide +kernel⟩

end P19

namespace P20

def dr (k : DrainFor) (s : State := bs) : State := { s with sys := { s.sys with mode := .drain, drainFor := some k } }
def wit1 : State := dr .activation
def wit2 : State := dr .service { bs with crn := { bs.crn with chans := vmod bs.crn.chans 2 fun c => { c with busy := true, go := true, op := 3 } } }
def wit3 : State := dr (.reset 2)
def hc : State := { bs with crn := { bs.crn with haltBits := 2, cores := vmod bs.crn.cores 1 fun w => { w with run := .halted, pc := 77 } } }

/-- The hypotheses of Obligations.DrainsAndRestart are met: one bracket for each clause. -/
theorem test_witness_DrainsAndRestart :
    (wit1.sys.mode = Mode.drain ∧ wit1.linearInForce = false ∧ wit1.drained = true ∧ wit1.sys.drainFor = some DrainFor.activation) ∧
    (wit2.sys.mode = Mode.drain ∧ wit2.linearInForce = false ∧ wit2.drained = true ∧ wit2.sys.drainFor = some DrainFor.service) ∧
    (wit3.sys.mode = Mode.drain ∧ wit3.linearInForce = false ∧ wit3.drained = true ∧ wit3.sys.drainFor = some (DrainFor.reset (2 : Fin 5))) ∧
    (bs.sys.mode ≠ Mode.drain) ∧
    (bs.sys.mode ≠ Mode.reset ∧ bs.sys.mode ≠ Mode.dormant ∧ bs.crn.haltBits.getLsbD ↑(1 : CoreId) = false) ∧
    (hc.sys.mode ≠ Mode.reset ∧ hc.sys.mode ≠ Mode.dormant ∧ hc.crn.haltBits.getLsbD ↑(1 : CoreId) = true ∧ hc.masterClean (Master.crown (1 : CoreId)) = true) := ⟨by decide +kernel,
    by decide +kernel,
    by decide +kernel,
    by decide +kernel,
    by decide +kernel,
    by decide +kernel⟩

end P20

namespace P21

def imd : Grain := { img with dormantEn := true }
def dn (k : Nat) (f : State → State := id) : State := f { bs with grn := { bs.grn with active := some imd }, sys := { bs.sys with mode := .drain, drainFor := some .dormant }, pwr := { bs.pwr with dormEnter := true, dormStep := k } }
def rn : State := { bs with grn := { bs.grn with active := some imd }, plots := Vector.replicate 64 { Plot.start with st := .parked } }
def wit1 : State := { rn with pwr := { rn.pwr with lvl := .settling 0 1 } }
def wit2 : State := dn 1
def wit3 : State := dn 1 (fun s => { s with boughs := vmod s.boughs 0 fun y => { y with halves := a3.boughs[0].halves }, cnp := { s.cnp with pfAbsorb := 0 } })
def wit4 : State := dn 2
def wit5 : State := dn 2 (fun s => { s with hbm := Vector.replicate 8 { s.hbm[0] with state := 2 } })
def wit6 : State := dn 2 (fun s => { s with scr := vmod s.scr 3 fun x => { x with sweepOpen := true } })
def wit7 : State := dn 3 (fun s => { s with ports := vmod s.ports 1 fun p => { p with aspm := true } })
def wit8 : State := dn 3 (fun s => { s with grafts := Vector.replicate 4 { s.grafts[0] with st := .up } })
def wit9 : State := dn 3
def wit10 : State := dn 7
def wit11 : State := dn 6
def wit12 : State := { rn with sys := { rn.sys with mode := .dormant } }
/-- The hypotheses of Obligations.DormantEntry are met: one bracket for each clause. -/
theorem test_witness_DormantEntry :
    (rn.linearInForce = false ∧ rn.sys.mode = Mode.run ∧ rn.grn.active = some imd ∧ imd.dormantEn = true ∧ rn.grn.req = none ∧ rn.lvlBusy = false ∧ rn.pwr.dormEnter = false ∧ (∀ m ∈ rn.plotMaps, rn.plots[plotId m.plot].st = PlotSt.parked ∨ rn.plotIdle m = true)) ∧
    (wit1.linearInForce = false ∧ (wit1.sys.mode ≠ Mode.run ∨ wit1.grn.req ≠ none ∨ wit1.lvlBusy = true)) ∧
    (a6.linearInForce = false ∧ (¬(a6.sys.mode = Mode.drain ∧ a6.sys.drainFor = some DrainFor.dormant))) ∧
    (wit2.linearInForce = false ∧ (wit2.sys.mode = Mode.drain ∧ wit2.sys.drainFor = some DrainFor.dormant) ∧ wit2.pwr.dormStep = 1 ∧ wit2.drained = true ∧ (∀ (b : BoughId), (wit2.bough b).twig.canHold = true)) ∧
    (wit3.linearInForce = false ∧ (wit3.sys.mode = Mode.drain ∧ wit3.sys.drainFor = some DrainFor.dormant) ∧ wit3.pwr.dormStep = 1 ∧ wit3.drained = false) ∧
    (wit4.linearInForce = false ∧ (wit4.sys.mode = Mode.drain ∧ wit4.sys.drainFor = some DrainFor.dormant) ∧ wit4.pwr.dormStep = 2 ∧ (∀ (b : BoughId), wit4.scr[b].sweepOpen = false)) ∧
    (wit5.linearInForce = false ∧ (wit5.sys.mode = Mode.drain ∧ wit5.sys.drainFor = some DrainFor.dormant) ∧ wit5.pwr.dormStep = 2 ∧ (∀ (b : BoughId), wit5.scr[b].sweepOpen = false)) ∧
    (wit6.linearInForce = false ∧ (wit6.sys.mode = Mode.drain ∧ wit6.sys.drainFor = some DrainFor.dormant) ∧ wit6.pwr.dormStep = 2 ∧ (∃ (b : BoughId), wit6.scr[b].sweepOpen = true)) := ⟨by decide +kernel,
    by decide +kernel,
    by decide +kernel,
    by decide +kernel,
    by decide +kernel,
    by decide +kernel,
    by decide +kernel,
    by decide +kernel⟩

/-- The hypotheses of Obligations.DormantEntry are met: one bracket for each clause. -/
theorem test_witness_DormantEntry_2 :
    (wit7.linearInForce = false ∧ (wit7.sys.mode = Mode.drain ∧ wit7.sys.drainFor = some DrainFor.dormant) ∧ wit7.pwr.dormStep = 3) ∧
    (wit8.linearInForce = false ∧ (wit8.sys.mode = Mode.drain ∧ wit8.sys.drainFor = some DrainFor.dormant) ∧ wit8.pwr.dormStep = 3) ∧
    (wit2.linearInForce = false ∧ wit2.sourceThere (2 : BitVec 4) = true ∧ (wit2.sys.mode = Mode.drain ∧ wit2.sys.drainFor = some DrainFor.dormant) ∧ wit2.pwr.dormStep ≤ 2 ∧ (∀ (n : PortId), wit2.ports[n].held = [])) ∧
    (wit4.linearInForce = false ∧ wit4.sourceThere (1 : BitVec 4) = true ∧ (wit4.sys.mode = Mode.drain ∧ wit4.sys.drainFor = some DrainFor.dormant) ∧ wit4.pwr.dormStep ≤ 2 ∧ (∀ (n : PortId), wit4.ports[n].held = [])) ∧
    (wit9.linearInForce = false ∧ wit9.sourceThere (2 : BitVec 4) = true ∧ (wit9.sys.mode = Mode.drain ∧ wit9.sys.drainFor = some DrainFor.dormant) ∧ 3 ≤ wit9.pwr.dormStep ∧ (wit9.pwr.dormStep ≠ 6 ∨ BitVec.toNat (2 : BitVec 4) < 5) ∧ wit9.pwr.latched = none) ∧
    (wit10.linearInForce = false ∧ wit10.sourceThere (6 : BitVec 4) = true ∧ (wit10.sys.mode = Mode.drain ∧ wit10.sys.drainFor = some DrainFor.dormant) ∧ 3 ≤ wit10.pwr.dormStep ∧ (wit10.pwr.dormStep ≠ 6 ∨ BitVec.toNat (6 : BitVec 4) < 5) ∧ wit10.pwr.latched = none) ∧
    (wit11.linearInForce = false ∧ wit11.sourceThere (6 : BitVec 4) = true ∧ (wit11.sys.mode = Mode.drain ∧ wit11.sys.drainFor = some DrainFor.dormant) ∧ wit11.pwr.dormStep = 6 ∧ 5 ≤ BitVec.toNat (6 : BitVec 4)) ∧
    (wit12.linearInForce = false ∧ wit12.sourceThere (6 : BitVec 4) = true ∧ wit12.sys.mode = Mode.dormant ∧ wit12.pwr.wakeStep = 0) := ⟨by decide +kernel,
    by decide +kernel,
    by decide +kernel,
    by decide +kernel,
    by decide +kernel,
    by decide +kernel,
    by decide +kernel,
    by decide +kernel⟩

end P21

namespace P23

def gr (st : GraftSt) (f : GraftPort → GraftPort := id) : State := { bs with grafts := vmod bs.grafts 0 fun p => f { p with st := st } }
def fl : Flit := ⟨0, 1, [], 0⟩
def wit1 : State := gr .admitting
def wit2 : State := gr .train
def wit3 : State := gr .up (fun p => { p with unacked := [⟨0,1,[],0⟩, ⟨1,1,[],2⟩, ⟨2,1,[],0⟩] })
def wit4 : State := gr .hello (fun p => { p with unacked := [⟨0,1,[],0⟩, ⟨1,1,[],3⟩, ⟨2,1,[],0⟩] })
def wit5 : State := gr .up (fun p => { p with unacked := [⟨0,1,[],0⟩, ⟨1,1,[],3⟩, ⟨2,1,[],0⟩] })
def wit6 : State := gr .up
def wit7 : State := gr .up (fun p => { p with unacked := [fl] })
def wit8 : State := gr .train (fun p => { p with locked := 0xff })
def wit9 : State := gr .off (fun p => { p with hold := true })
def sv (op : Nat) (f : Chan → Chan := id) (m : Mode := .run) (s : State := bs) : State := { s with sys := { s.sys with mode := m }, crn := { s.crn with chans := vmod s.crn.chans 2 fun c => f { c with go := true, op := BitVec.ofNat 8 op } } }
def wit10 : State := sv 1
def wit11 : State := sv 2
def wit12 : State := sv 2 id .service
def wit13 : State := sv 3
def wit14 : State := sv 3 id .load
def wit15 : State := sv 3 id .boot
def wit16 : State := sv 6 (fun c => { c with args := vset c.args 0 0x00030101 })
def wit17 : State := sv 6 id .service
def wit18 : State := sv 6 id .run { bs with grn := { bs.grn with req := some ⟨0, none, 0, none⟩ } }
def wit19 : State := sv 6 id .quarantine
def wit20 : State := sv 6 (fun c => { c with args := vset c.args 0 0x00030101 }) .service
def wit21 : State := sv 9 (fun c => { c with args := vset c.args 0 0x00030101 }) .service
def wit22 : State := sv 10 (fun c => { c with bulk := true }) .service
def wit23 : State := sv 10 (fun c => { c with args := vset c.args 3 256 }) .service
def wit24 : State := sv 10 (fun c => { c with bulk := true, args := vset (vset c.args 2 0x20000000) 3 512 }) .service
def wit25 : State := sv 11 id .boot
def wit26 : State := sv 11 id .run
def wit27 : State := sv 0 id .run
def wit28 : State := sv 12 id .run
def wit29 : State := sv 4
def wit30 : State := sv 8 id .load
def wit31 : State := sv 4 (fun c => { c with bulk := true }) .service
def wit32 : State := sv 4 (fun c => { c with args := vset c.args 3 256 }) .service
def wit33 : State := sv 5 (fun c => { c with args := vset c.args 3 256 }) .load
def wit34 : State := sv 5 (fun c => { c with args := vset c.args 3 257 }) .run
def wit35 : State := sv 5 (fun c => { c with args := vset (vset c.args 2 0x3fff01) 3 256 }) .run
def wit36 : State := sv 5 (fun c => { c with args := vset c.args 3 256 }) .run
def wit37 : State := sv 5 (fun c => { c with args := vset (vset (vset c.args 0 1) 2 0x3fff00) 3 256 }) .run
def wit38 : State := sv 7 (fun c => { c with args := vset c.args 3 96 }) .service { bs with grn := { bs.grn with owner := some [1] } }
def wit39 : State := sv 7 (fun c => { c with args := vset c.args 3 97 }) .service
def wit40 : State := sv 8 (fun c => { c with args := vset c.args 3 96 }) .service

/-- The hypotheses of Obligations.GraftPartnerLoss are met: one bracket for each clause. -/
theorem test_witness_GraftPartnerLoss :
    ((wit1.grafts[(0 : PortId)].st = GraftSt.hello ∨ wit1.grafts[(0 : PortId)].st = GraftSt.auth ∨ wit1.grafts[(0 : PortId)].st = GraftSt.admitting ∨ wit1.grafts[(0 : PortId)].st = GraftSt.up)) ∧
    ((¬(wit2.grafts[(0 : PortId)].st = GraftSt.hello ∨ wit2.grafts[(0 : PortId)].st = GraftSt.auth ∨ wit2.grafts[(0 : PortId)].st = GraftSt.admitting ∨ wit2.grafts[(0 : PortId)].st = GraftSt.up))) ∧
    ((wit3.grafts[(0 : PortId)].st = GraftSt.hello ∨ wit3.grafts[(0 : PortId)].st = GraftSt.auth ∨ wit3.grafts[(0 : PortId)].st = GraftSt.admitting ∨ wit3.grafts[(0 : PortId)].st = GraftSt.up) ∧ (List.filter (fun (f : Flit) => decide (512 ≤ ((1 : BitVec 10) - f.seq - (1 : BitVec 10)).toNat)) wit3.grafts[(0 : PortId)].unacked = [{ seq := (1 : BitVec 10), kind := (1 : BitVec 4), words := [], naks := 2 : Flit }, { seq := (2 : BitVec 10), kind := (1 : BitVec 4), words := [], naks := 0 : Flit }]) ∧ (2 + 1 < 4 ∨ wit3.grafts[(0 : PortId)].st ≠ GraftSt.up)) ∧
    ((wit4.grafts[(0 : PortId)].st = GraftSt.hello ∨ wit4.grafts[(0 : PortId)].st = GraftSt.auth ∨ wit4.grafts[(0 : PortId)].st = GraftSt.admitting ∨ wit4.grafts[(0 : PortId)].st = GraftSt.up) ∧ (List.filter (fun (f : Flit) => decide (512 ≤ ((1 : BitVec 10) - f.seq - (1 : BitVec 10)).toNat)) wit4.grafts[(0 : PortId)].unacked = [{ seq := (1 : BitVec 10), kind := (1 : BitVec 4), words := [], naks := 3 : Flit }, { seq := (2 : BitVec 10), kind := (1 : BitVec 4), words := [], naks := 0 : Flit }]) ∧ (3 + 1 < 4 ∨ wit4.grafts[(0 : PortId)].st ≠ GraftSt.up)) ∧
    ((wit5.grafts[(0 : PortId)].st = GraftSt.hello ∨ wit5.grafts[(0 : PortId)].st = GraftSt.auth ∨ wit5.grafts[(0 : PortId)].st = GraftSt.admitting ∨ wit5.grafts[(0 : PortId)].st = GraftSt.up) ∧ (List.filter (fun (f : Flit) => decide (512 ≤ ((1 : BitVec 10) - f.seq - (1 : BitVec 10)).toNat)) wit5.grafts[(0 : PortId)].unacked = [{ seq := (1 : BitVec 10), kind := (1 : BitVec 4), words := [], naks := 3 : Flit }, { seq := (2 : BitVec 10), kind := (1 : BitVec 4), words := [], naks := 0 : Flit }]) ∧ 3 ≤ 3 ∧ wit5.grafts[(0 : PortId)].st = GraftSt.up) ∧
    (wit6.grafts[(0 : PortId)].st = GraftSt.up) ∧
    (wit6.grafts[(0 : PortId)].st = GraftSt.up) ∧
    (wit7.grafts[(0 : PortId)].st = GraftSt.up ∧ wit7.grafts[(0 : PortId)].unacked ≠ []) := ⟨by decide +kernel,
    by decide +kernel,
    by decide +kernel,
    by decide +kernel,
    by decide +kernel,
    by decide +kernel,
    by decide +kernel,
    by decide +kernel⟩

/-- The hypotheses of Obligations.GraftPartnerLoss are met: one bracket for each clause. -/
theorem test_witness_GraftPartnerLoss_2 :
    (wit6.grafts[(0 : PortId)].st = GraftSt.up ∧ (5 : Word) ≠ wit6.grafts[(0 : PortId)].peerBoot) ∧
    (wit1.grafts[(0 : PortId)].st ≠ GraftSt.up) ∧
    (wit6.grafts[(0 : PortId)].unacked = []) ∧
    (wit8.grafts[(0 : PortId)].st ≠ GraftSt.up) ∧
    (wit8.grafts[(0 : PortId)].st ≠ GraftSt.up ∧ wit8.grafts[(0 : PortId)].st ≠ GraftSt.off) ∧
    (wit9.grafts[(0 : PortId)].st = GraftSt.off) := ⟨by decide +kernel,
    by decide +kernel,
    by decide +kernel,
    by decide +kernel,
    by decide +kernel,
    by decide +kernel⟩

/-- The hypotheses of Obligations.MailboxControl are met: one bracket for each clause. -/
theorem test_witness_MailboxControl :
    (bs.crn.chans[(2 : Fin 5)].go = false) ∧
    ((wit10.sys.mode ≠ Mode.reset ∧ wit10.sys.mode ≠ Mode.dormant ∧ wit10.crn.chans[(2 : Fin 5)].go = true ∧ wit10.crn.chans[(2 : Fin 5)].busy = false ∧ wit10.crn.chans[(2 : Fin 5)].op.toNat = 1)) ∧
    ((wit11.sys.mode ≠ Mode.reset ∧ wit11.sys.mode ≠ Mode.dormant ∧ wit11.crn.chans[(2 : Fin 5)].go = true ∧ wit11.crn.chans[(2 : Fin 5)].busy = false ∧ wit11.crn.chans[(2 : Fin 5)].op.toNat = 2) ∧ wit11.linearInForce = false ∧ wit11.sys.mode = Mode.run) ∧
    ((wit12.sys.mode ≠ Mode.reset ∧ wit12.sys.mode ≠ Mode.dormant ∧ wit12.crn.chans[(2 : Fin 5)].go = true ∧ wit12.crn.chans[(2 : Fin 5)].busy = false ∧ wit12.crn.chans[(2 : Fin 5)].op.toNat = 2) ∧ wit12.linearInForce = false ∧ wit12.sys.mode ≠ Mode.run) ∧
    ((wit13.sys.mode ≠ Mode.reset ∧ wit13.sys.mode ≠ Mode.dormant ∧ wit13.crn.chans[(2 : Fin 5)].go = true ∧ wit13.crn.chans[(2 : Fin 5)].busy = false ∧ wit13.crn.chans[(2 : Fin 5)].op.toNat = 3) ∧ wit13.linearInForce = false ∧ wit13.sys.mode = Mode.run) ∧
    ((wit14.sys.mode ≠ Mode.reset ∧ wit14.sys.mode ≠ Mode.dormant ∧ wit14.crn.chans[(2 : Fin 5)].go = true ∧ wit14.crn.chans[(2 : Fin 5)].busy = false ∧ wit14.crn.chans[(2 : Fin 5)].op.toNat = 3) ∧ wit14.linearInForce = false ∧ wit14.sys.mode = Mode.load) ∧
    ((wit15.sys.mode ≠ Mode.reset ∧ wit15.sys.mode ≠ Mode.dormant ∧ wit15.crn.chans[(2 : Fin 5)].go = true ∧ wit15.crn.chans[(2 : Fin 5)].busy = false ∧ wit15.crn.chans[(2 : Fin 5)].op.toNat = 3) ∧ wit15.linearInForce = false ∧ wit15.sys.mode ≠ Mode.run ∧ wit15.sys.mode ≠ Mode.load) ∧
    ((wit16.sys.mode ≠ Mode.reset ∧ wit16.sys.mode ≠ Mode.dormant ∧ wit16.crn.chans[(2 : Fin 5)].go = true ∧ wit16.crn.chans[(2 : Fin 5)].busy = false ∧ wit16.crn.chans[(2 : Fin 5)].op.toNat = 6) ∧ wit16.linearInForce = false ∧ (wit16.sys.mode = Mode.run ∨ wit16.sys.mode = Mode.service ∧ BitVec.getLsbD wit16.crn.chans[(2 : Fin 5)].args[(0 : Fin 4)] 8 = false) ∧ wit16.grn.req = none) := ⟨by decide +kernel,
    by decide +kernel,
    by decide +kernel,
    by decide +kernel,
    by decide +kernel,
    by decide +kernel,
    by decide +kernel,
    by decide +kernel⟩

/-- The hypotheses of Obligations.MailboxControl are met: one bracket for each clause. -/
theorem test_witness_MailboxControl_2 :
    ((wit17.sys.mode ≠ Mode.reset ∧ wit17.sys.mode ≠ Mode.dormant ∧ wit17.crn.chans[(2 : Fin 5)].go = true ∧ wit17.crn.chans[(2 : Fin 5)].busy = false ∧ wit17.crn.chans[(2 : Fin 5)].op.toNat = 6) ∧ wit17.linearInForce = false ∧ (wit17.sys.mode = Mode.run ∨ wit17.sys.mode = Mode.service ∧ BitVec.getLsbD wit17.crn.chans[(2 : Fin 5)].args[(0 : Fin 4)] 8 = false) ∧ wit17.grn.req = none) ∧
    ((wit18.sys.mode ≠ Mode.reset ∧ wit18.sys.mode ≠ Mode.dormant ∧ wit18.crn.chans[(2 : Fin 5)].go = true ∧ wit18.crn.chans[(2 : Fin 5)].busy = false ∧ wit18.crn.chans[(2 : Fin 5)].op.toNat = 6) ∧ wit18.linearInForce = false ∧ wit18.sys.mode = Mode.run ∧ wit18.grn.req ≠ none) ∧
    ((wit19.sys.mode ≠ Mode.reset ∧ wit19.sys.mode ≠ Mode.dormant ∧ wit19.crn.chans[(2 : Fin 5)].go = true ∧ wit19.crn.chans[(2 : Fin 5)].busy = false ∧ wit19.crn.chans[(2 : Fin 5)].op.toNat = 6) ∧ wit19.linearInForce = false ∧ (wit19.sys.mode ≠ Mode.run ∧ wit19.sys.mode ≠ Mode.service ∨ wit19.sys.mode = Mode.service ∧ BitVec.getLsbD wit19.crn.chans[(2 : Fin 5)].args[(0 : Fin 4)] 8 = true)) ∧
    ((wit20.sys.mode ≠ Mode.reset ∧ wit20.sys.mode ≠ Mode.dormant ∧ wit20.crn.chans[(2 : Fin 5)].go = true ∧ wit20.crn.chans[(2 : Fin 5)].busy = false ∧ wit20.crn.chans[(2 : Fin 5)].op.toNat = 6) ∧ wit20.linearInForce = false ∧ (wit20.sys.mode ≠ Mode.run ∧ wit20.sys.mode ≠ Mode.service ∨ wit20.sys.mode = Mode.service ∧ BitVec.getLsbD wit20.crn.chans[(2 : Fin 5)].args[(0 : Fin 4)] 8 = true)) ∧
    ((wit21.sys.mode ≠ Mode.reset ∧ wit21.sys.mode ≠ Mode.dormant ∧ wit21.crn.chans[(2 : Fin 5)].go = true ∧ wit21.crn.chans[(2 : Fin 5)].busy = false ∧ wit21.crn.chans[(2 : Fin 5)].op.toNat = 9)) ∧
    ((wit22.sys.mode ≠ Mode.reset ∧ wit22.sys.mode ≠ Mode.dormant ∧ wit22.crn.chans[(2 : Fin 5)].go = true ∧ wit22.crn.chans[(2 : Fin 5)].busy = false ∧ wit22.crn.chans[(2 : Fin 5)].op.toNat = 10) ∧ wit22.bufferOk (2 : Fin 5) wit22.crn.chans[(2 : Fin 5)] = false) ∧
    ((wit23.sys.mode ≠ Mode.reset ∧ wit23.sys.mode ≠ Mode.dormant ∧ wit23.crn.chans[(2 : Fin 5)].go = true ∧ wit23.crn.chans[(2 : Fin 5)].busy = false ∧ wit23.crn.chans[(2 : Fin 5)].op.toNat = 10) ∧ wit23.crn.chans[(2 : Fin 5)].bulk = false ∧ wit23.bufferOk (2 : Fin 5) wit23.crn.chans[(2 : Fin 5)] = true) ∧
    ((wit24.sys.mode ≠ Mode.reset ∧ wit24.sys.mode ≠ Mode.dormant ∧ wit24.crn.chans[(2 : Fin 5)].go = true ∧ wit24.crn.chans[(2 : Fin 5)].busy = false ∧ wit24.crn.chans[(2 : Fin 5)].op.toNat = 10) ∧ wit24.crn.chans[(2 : Fin 5)].bulk = true ∧ wit24.bufferOk (2 : Fin 5) wit24.crn.chans[(2 : Fin 5)] = true ∧ (Alive wit24.mem (BitVec.toNat wit24.crn.chans[(2 : Fin 5)].args[(2 : Fin 4)]) (wordsBytes (List.flatMap Item.slotWords (List.take (min (min (BitVec.toNat wit24.crn.chans[(2 : Fin 5)].args[(1 : Fin 4)]) (BitVec.toNat wit24.crn.chans[(2 : Fin 5)].args[(3 : Fin 4)] / 512)) (List.filter (fun (i : Item) => decide (BitVec.toNat wit24.crn.chans[(2 : Fin 5)].args[(0 : Fin 4)] ≤ BitVec.toNat i.seq)) (List.map (fun (x : JSlot) => x.item) wit24.ring.journal)).length) (List.filter (fun (i : Item) => decide (BitVec.toNat wit24.crn.chans[(2 : Fin 5)].args[(0 : Fin 4)] ≤ BitVec.toNat i.seq)) (List.map (fun (x : JSlot) => x.item) wit24.ring.journal))))).length)) := ⟨by decide +kernel,
    by decide +kernel,
    by decide +kernel,
    by decide +kernel,
    by decide +kernel,
    by decide +kernel,
    by decide +kernel,
    ⟨by decide +kernel, by decide +kernel, by decide +kernel, by unfold Alive; decide +kernel⟩⟩

/-- The hypotheses of Obligations.MailboxControl are met: one bracket for each clause. -/
theorem test_witness_MailboxControl_3 :
    ((wit25.sys.mode ≠ Mode.reset ∧ wit25.sys.mode ≠ Mode.dormant ∧ wit25.crn.chans[(2 : Fin 5)].go = true ∧ wit25.crn.chans[(2 : Fin 5)].busy = false ∧ wit25.crn.chans[(2 : Fin 5)].op.toNat = 11) ∧ wit25.sys.mode = Mode.boot) ∧
    ((wit26.sys.mode ≠ Mode.reset ∧ wit26.sys.mode ≠ Mode.dormant ∧ wit26.crn.chans[(2 : Fin 5)].go = true ∧ wit26.crn.chans[(2 : Fin 5)].busy = false ∧ wit26.crn.chans[(2 : Fin 5)].op.toNat = 11) ∧ wit26.sys.mode ≠ Mode.boot) ∧
    ((wit27.sys.mode ≠ Mode.reset ∧ wit27.sys.mode ≠ Mode.dormant ∧ wit27.crn.chans[(2 : Fin 5)].go = true ∧ wit27.crn.chans[(2 : Fin 5)].busy = false ∧ wit27.crn.chans[(2 : Fin 5)].op.toNat = 0) ∧ (0 = 0 ∨ 11 < 0)) ∧
    ((wit28.sys.mode ≠ Mode.reset ∧ wit28.sys.mode ≠ Mode.dormant ∧ wit28.crn.chans[(2 : Fin 5)].go = true ∧ wit28.crn.chans[(2 : Fin 5)].busy = false ∧ wit28.crn.chans[(2 : Fin 5)].op.toNat = 12) ∧ (12 = 0 ∨ 11 < 12)) ∧
    ((wit26.sys.mode ≠ Mode.reset ∧ wit26.sys.mode ≠ Mode.dormant ∧ wit26.crn.chans[(2 : Fin 5)].go = true ∧ wit26.crn.chans[(2 : Fin 5)].busy = false ∧ wit26.crn.chans[(2 : Fin 5)].op.toNat = 11) ∧ 1 ≤ 11 ∧ 11 ≤ 11) := ⟨by decide +kernel,
    by decide +kernel,
    by decide +kernel,
    by decide +kernel,
    by decide +kernel⟩

/-- The hypotheses of Obligations.MailboxFlash are met: one bracket for each clause. -/
theorem test_witness_MailboxFlash :
    ((Instr.fwWrite (2 : Fin 5) = Instr.fwWrite (2 : Fin 5) ∧ 4 = 4 ∨ Instr.fwWrite (2 : Fin 5) = Instr.enrollOwner (2 : Fin 5) ∧ 4 = 7 ∨ Instr.fwWrite (2 : Fin 5) = Instr.transferOwner (2 : Fin 5) ∧ 4 = 8) ∧ (wit29.sys.mode ≠ Mode.reset ∧ wit29.sys.mode ≠ Mode.dormant ∧ wit29.crn.chans[(2 : Fin 5)].go = true ∧ wit29.crn.chans[(2 : Fin 5)].busy = false ∧ wit29.crn.chans[(2 : Fin 5)].op.toNat = 4) ∧ wit29.sys.mode ≠ Mode.service) ∧
    ((Instr.transferOwner (2 : Fin 5) = Instr.fwWrite (2 : Fin 5) ∧ 8 = 4 ∨ Instr.transferOwner (2 : Fin 5) = Instr.enrollOwner (2 : Fin 5) ∧ 8 = 7 ∨ Instr.transferOwner (2 : Fin 5) = Instr.transferOwner (2 : Fin 5) ∧ 8 = 8) ∧ (wit30.sys.mode ≠ Mode.reset ∧ wit30.sys.mode ≠ Mode.dormant ∧ wit30.crn.chans[(2 : Fin 5)].go = true ∧ wit30.crn.chans[(2 : Fin 5)].busy = false ∧ wit30.crn.chans[(2 : Fin 5)].op.toNat = 8) ∧ wit30.sys.mode ≠ Mode.service) ∧
    ((wit31.sys.mode ≠ Mode.reset ∧ wit31.sys.mode ≠ Mode.dormant ∧ wit31.crn.chans[(2 : Fin 5)].go = true ∧ wit31.crn.chans[(2 : Fin 5)].busy = false ∧ wit31.crn.chans[(2 : Fin 5)].op.toNat = 4) ∧ wit31.sys.mode = Mode.service ∧ wit31.bufferOk (2 : Fin 5) wit31.crn.chans[(2 : Fin 5)] = false) ∧
    ((wit32.sys.mode ≠ Mode.reset ∧ wit32.sys.mode ≠ Mode.dormant ∧ wit32.crn.chans[(2 : Fin 5)].go = true ∧ wit32.crn.chans[(2 : Fin 5)].busy = false ∧ wit32.crn.chans[(2 : Fin 5)].op.toNat = 4) ∧ wit32.sys.mode = Mode.service ∧ wit32.bufferOk (2 : Fin 5) wit32.crn.chans[(2 : Fin 5)] = true) ∧
    ((wit33.sys.mode ≠ Mode.reset ∧ wit33.sys.mode ≠ Mode.dormant ∧ wit33.crn.chans[(2 : Fin 5)].go = true ∧ wit33.crn.chans[(2 : Fin 5)].busy = false ∧ wit33.crn.chans[(2 : Fin 5)].op.toNat = 5) ∧ wit33.sys.mode ≠ Mode.service ∧ wit33.sys.mode ≠ Mode.run) ∧
    ((wit34.sys.mode ≠ Mode.reset ∧ wit34.sys.mode ≠ Mode.dormant ∧ wit34.crn.chans[(2 : Fin 5)].go = true ∧ wit34.crn.chans[(2 : Fin 5)].busy = false ∧ wit34.crn.chans[(2 : Fin 5)].op.toNat = 5) ∧ (wit34.sys.mode = Mode.service ∨ wit34.sys.mode = Mode.run) ∧ (wit34.bufferOk (2 : Fin 5) wit34.crn.chans[(2 : Fin 5)] = false ∨ 2 ^ 22 < (if wit34.crn.chans[(2 : Fin 5)].bulk = true then 0 else BitVec.toNat wit34.crn.chans[(2 : Fin 5)].args[(2 : Fin 4)]) + BitVec.toNat wit34.crn.chans[(2 : Fin 5)].args[(3 : Fin 4)])) ∧
    ((wit35.sys.mode ≠ Mode.reset ∧ wit35.sys.mode ≠ Mode.dormant ∧ wit35.crn.chans[(2 : Fin 5)].go = true ∧ wit35.crn.chans[(2 : Fin 5)].busy = false ∧ wit35.crn.chans[(2 : Fin 5)].op.toNat = 5) ∧ (wit35.sys.mode = Mode.service ∨ wit35.sys.mode = Mode.run) ∧ (wit35.bufferOk (2 : Fin 5) wit35.crn.chans[(2 : Fin 5)] = false ∨ 2 ^ 22 < (if wit35.crn.chans[(2 : Fin 5)].bulk = true then 0 else BitVec.toNat wit35.crn.chans[(2 : Fin 5)].args[(2 : Fin 4)]) + BitVec.toNat wit35.crn.chans[(2 : Fin 5)].args[(3 : Fin 4)])) ∧
    ((wit36.sys.mode ≠ Mode.reset ∧ wit36.sys.mode ≠ Mode.dormant ∧ wit36.crn.chans[(2 : Fin 5)].go = true ∧ wit36.crn.chans[(2 : Fin 5)].busy = false ∧ wit36.crn.chans[(2 : Fin 5)].op.toNat = 5) ∧ (wit36.sys.mode = Mode.service ∨ wit36.sys.mode = Mode.run) ∧ wit36.bufferOk (2 : Fin 5) wit36.crn.chans[(2 : Fin 5)] = true ∧ (if wit36.crn.chans[(2 : Fin 5)].bulk = true then 0 else BitVec.toNat wit36.crn.chans[(2 : Fin 5)].args[(2 : Fin 4)]) + BitVec.toNat wit36.crn.chans[(2 : Fin 5)].args[(3 : Fin 4)] ≤ 2 ^ 22 ∧ ((wit36.grn.active ≠ none ∧ wit36.grn.slot = if BitVec.getLsbD wit36.crn.chans[(2 : Fin 5)].args[(0 : Fin 4)] 0 = true then (1 : Fin 2) else (0 : Fin 2)) ∨ ∃ (r : ActReq), wit36.grn.req = some r ∧ r.slot = if BitVec.getLsbD wit36.crn.chans[(2 : Fin 5)].args[(0 : Fin 4)] 0 = true then (1 : Fin 2) else (0 : Fin 2))) := ⟨by decide +kernel,
    by decide +kernel,
    by decide +kernel,
    by decide +kernel,
    by decide +kernel,
    by decide +kernel,
    by decide +kernel,
    by decide +kernel⟩

/-- The hypotheses of Obligations.MailboxFlash are met: one bracket for each clause. -/
theorem test_witness_MailboxFlash_2 :
    ((wit37.sys.mode ≠ Mode.reset ∧ wit37.sys.mode ≠ Mode.dormant ∧ wit37.crn.chans[(2 : Fin 5)].go = true ∧ wit37.crn.chans[(2 : Fin 5)].busy = false ∧ wit37.crn.chans[(2 : Fin 5)].op.toNat = 5) ∧ (wit37.sys.mode = Mode.service ∨ wit37.sys.mode = Mode.run) ∧ wit37.bufferOk (2 : Fin 5) wit37.crn.chans[(2 : Fin 5)] = true ∧ (if wit37.crn.chans[(2 : Fin 5)].bulk = true then 0 else BitVec.toNat wit37.crn.chans[(2 : Fin 5)].args[(2 : Fin 4)]) + BitVec.toNat wit37.crn.chans[(2 : Fin 5)].args[(3 : Fin 4)] ≤ 2 ^ 22 ∧ (¬((wit37.grn.active ≠ none ∧ wit37.grn.slot = if BitVec.getLsbD wit37.crn.chans[(2 : Fin 5)].args[(0 : Fin 4)] 0 = true then (1 : Fin 2) else (0 : Fin 2)) ∨ ∃ (r : ActReq), wit37.grn.req = some r ∧ r.slot = if BitVec.getLsbD wit37.crn.chans[(2 : Fin 5)].args[(0 : Fin 4)] 0 = true then (1 : Fin 2) else (0 : Fin 2)))) ∧
    ((wit38.sys.mode ≠ Mode.reset ∧ wit38.sys.mode ≠ Mode.dormant ∧ wit38.crn.chans[(2 : Fin 5)].go = true ∧ wit38.crn.chans[(2 : Fin 5)].busy = false ∧ wit38.crn.chans[(2 : Fin 5)].op.toNat = 7) ∧ wit38.sys.mode = Mode.service ∧ wit38.grn.owner ≠ none) ∧
    ((wit39.sys.mode ≠ Mode.reset ∧ wit39.sys.mode ≠ Mode.dormant ∧ wit39.crn.chans[(2 : Fin 5)].go = true ∧ wit39.crn.chans[(2 : Fin 5)].busy = false ∧ wit39.crn.chans[(2 : Fin 5)].op.toNat = 7) ∧ wit39.sys.mode = Mode.service ∧ wit39.grn.owner = none ∧ (wit39.bufferOk (2 : Fin 5) wit39.crn.chans[(2 : Fin 5)] = false ∨ BitVec.toNat wit39.crn.chans[(2 : Fin 5)].args[(3 : Fin 4)] ≠ 96)) ∧
    ((wit40.sys.mode ≠ Mode.reset ∧ wit40.sys.mode ≠ Mode.dormant ∧ wit40.crn.chans[(2 : Fin 5)].go = true ∧ wit40.crn.chans[(2 : Fin 5)].busy = false ∧ wit40.crn.chans[(2 : Fin 5)].op.toNat = 8) ∧ wit40.sys.mode = Mode.service ∧ wit40.bufferOk (2 : Fin 5) wit40.crn.chans[(2 : Fin 5)] = true ∧ wit40.grn.owner = none) := ⟨by decide +kernel,
    by decide +kernel,
    by decide +kernel,
    by decide +kernel⟩

end P23

namespace W1

def pfx5 : State := tw b0 (fun w => { w with pfx := [1, 2, 3, 4, 5] })
def pfx6 : State := tw b0 fun w => { w with pfx := [1, 2, 3, 4, 5, 6] }
def skips6 : State := tw b0 fun w => { w with pfx := [1, 2, 3, 4, 5, 6], rep := some ⟨1, none, true⟩ }
def pfx2w : Twig := { bs.twig b0 with pfx := [1023, 512] }
def pfx1w : Twig := { bs.twig b0 with pfx := [1023] }
def inLoop : State := tw b0 (fun w => { w with pc := 5, lc1 := 1, lc0 := 2, le1 := 6, ls0 := 1, le0 := 6 })
def half15 : State := tw b0 fun w => { w with pc := 15, icache := lines.take 1 }
def cold : State := tw b0 fun w => { w with icache := [] }
def syncing : State := cold.modTwig b0 fun w => { w with vcsr := 16, sync := true }

/-- The hypotheses of Obligations.ImmediatesGuardsAndFallThrough are met: one bracket for each clause. -/
theorem test_witness_ImmediatesGuardsAndFallThrough :
    (TwigAt pfx5 b0 1 ∧ ((pfx5.twig b0).pfx.length < 6 ∨ (pfx5.twig b0).repSkips = true)) ∧
    (TwigAt skips6 b0 1 ∧ ((skips6.twig b0).pfx.length < 6 ∨ (skips6.twig b0).repSkips = true)) ∧
    (TwigAt pfx6 b0 1 ∧ 6 ≤ (pfx6.twig b0).pfx.length ∧ (pfx6.twig b0).repSkips = false ∧ pfx6.tsbHeld b0 = false) ∧
    (pfx2w.pfx = [(1023 : BitVec 10), (512 : BitVec 10)]) ∧
    (pfx1w.pfx = [(1023 : BitVec 10)]) ∧
    ((pfx6.twig b0).pfx = [(1 : BitVec 10), (2 : BitVec 10), (3 : BitVec 10), (4 : BitVec 10), (5 : BitVec 10), (6 : BitVec 10)]) :=
  ⟨⟨twigAt_of (by decide +kernel), by decide +kernel⟩,
    ⟨twigAt_of (by decide +kernel), by decide +kernel⟩,
    ⟨twigAt_of (by decide +kernel), by decide +kernel⟩,
    by decide +kernel,
    by decide +kernel,
    by decide +kernel⟩

/-- The hypotheses of Obligations.ImmediatesGuardsAndFallThrough are met: one bracket for each clause. -/
theorem test_witness_ImmediatesGuardsAndFallThrough_2 :
    (TwigGo inLoop b0 (0 : PReg) 1 [] ∧ Plain inLoop b0) ∧
    (TwigGo inLoop b0 (0 : PReg) 1 [] ∧ Plain inLoop b0) ∧
    ((guardRow (Instr.add b0 (1 : PReg) (1 : GReg) (2 : GReg)) = some (b0, (1 : PReg), 1) ∨ ∃ k, Instr.add b0 (1 : PReg) (1 : GReg) (2 : GReg) = Instr.chain b0 (1 : PReg) k ∧ 1 = 1 + 3 * k.toNat) ∧ TwigAt inLoop b0 1 ∧ (inLoop.twig b0).rep = none ∧ (inLoop.twig b0).predBit (1 : PReg) = false) ∧
    ((guardRow (Instr.chain b0 (1 : PReg) (7 : BitVec 4)) = some (b0, (1 : PReg), 22) ∨ ∃ k, Instr.chain b0 (1 : PReg) (7 : BitVec 4) = Instr.chain b0 (1 : PReg) k ∧ 22 = 1 + 3 * k.toNat) ∧ TwigAt inLoop b0 1 ∧ (inLoop.twig b0).rep = none ∧ (inLoop.twig b0).predBit (1 : PReg) = false) ∧
    (twigRow (Instr.add b0 (1 : PReg) (1 : GReg) (2 : GReg)) = some (b0, (1 : PReg), 1) ∧ cold.twigReady b0 = true ∧ (cold.twig b0).block = none ∧ cold.syncWaits b0 = false ∧ cold.syncFault b0 = none ∧ (cold.twig b0).cached (cold.progLine b0 (cold.twig b0).fetchAt) = none ∧ (cold.twig b0).fetchAt < cold.regionLen b0) ∧
    (twigRow (Instr.add b0 (1 : PReg) (1 : GReg) (2 : GReg)) = some (b0, (1 : PReg), 1) ∧ syncing.twigReady b0 = true ∧ (syncing.twig b0).block = none ∧ syncing.syncWaits b0 = false ∧ syncing.syncFault b0 = none) :=
  ⟨⟨twigGo_of (by decide +kernel), by unfold Plain; decide +kernel⟩,
    ⟨twigGo_of (by decide +kernel), by unfold Plain; decide +kernel⟩,
    ⟨Or.inl rfl, twigAt_of (by decide +kernel), by decide +kernel⟩,
    ⟨Or.inr ⟨7, rfl, rfl⟩, twigAt_of (by decide +kernel), by decide +kernel⟩,
    by decide +kernel,
    by decide +kernel⟩

/-- The hypotheses of Obligations.ImmediatesGuardsAndFallThrough are met: one bracket for each clause. -/
theorem test_witness_ImmediatesGuardsAndFallThrough_3 :
    (twigRow (Instr.and b0 (0 : PReg) (1 : GReg) (2 : GReg) (0 : BitVec 4) (3 : GReg)) = some (b0, (0 : PReg), 2) ∧ TwigAt half15 b0 1 ∧ (half15.twig b0).rep = none ∧ (half15.twig b0).predBit (0 : PReg) = true ∧ (half15.twig b0).cached (half15.progLine b0 (half15.twig b0).fetchAt) = List.find? (fun c => c.line == half15.progLine b0 (half15.twig b0).fetchAt) (half15.twig b0).icache) :=
  ⟨by decide +kernel, twigAt_of (by decide +kernel), by decide +kernel⟩

end W1

namespace W2

def wit1 : State := tw b0 (fun w => { w with pc := 10 })
def wit2 : State := tw b0 (fun w => { w with pc := 1, pfx := [1] })
def wit3 : State := tw b0 (fun w => { w with g := vset w.g 1 4096 })
def st (sp : Nat) (t : TwigId := b0) : State := tw t fun w => { w with g := vset w.g 15 (BitVec.ofNat 64 (ownBase t + sp)), pc := 4 }
def wit4 : State := st 0x201
def wit5 : State := st 0x200
def wit6 : State := (st 0x200).modTwig b0 (fun w => { w with g := vset w.g 1 4096 })
def wit7 : State := (st 0x200 (.crown 1))
def c1 : TwigId := .crown 1
def deep : State := (st 8).modTwig b0 fun w => { w with shadow := List.replicate 1024 3 }
def buffered : State := (st 0x80000).modTwig b0 fun w => { w with stores := [⟨1, 0x40, [0], true, false⟩] }
def rs (sp : Nat) (v : Word) (sh : List WordAddr) : State := { (st sp).modTwig b0 (fun w => { w with shadow := sh }) with mem := bs.mem.write (atAddr (ownBase b0 + sp) (wordBytes 8 v.toNat)) }
def wit8 : State := rs 0x200 9 [9,3]
def wit9 : State := rs 0x7fff8 9 [9]
def wit10 : State := rs 0x200 9 [8]
def wit11 : State := rs 0x201 9 [8]
def covered : State := { wit8 with filters := [⟨.txn 1, .scratch 0, (ownBase b0) / 64, (ownBase b0 + 0x400) / 64, 0, true, false, none⟩] }
def poisoned : State := { wit8 with mem := { wit8.mem with marks := [((ownBase b0 + 0x200) / 8, .stored)] } }

/-- The hypotheses of Obligations.ControlTransfer are met: one bracket for each clause. -/
theorem test_witness_ControlTransfer :
    (TwigGo wit1 b0 (0 : PReg) 1 [] ∧ (wit1.twig b0).rep = none ∧ (BitVec.setWidth 64 ((wit1.twig b0).pc + BitVec.ofNat 20 (wit1.twig b0).pfx.length) + (wit1.twig b0).imm true 8 (BitVec.toNat (5 : BitVec 8))).toNat < wit1.regionLen b0) ∧
    (TwigGo wit2 b0 (0 : PReg) 1 [] ∧ (wit2.twig b0).rep = none ∧ (BitVec.setWidth 64 ((wit2.twig b0).pc + BitVec.ofNat 20 (wit2.twig b0).pfx.length) + (wit2.twig b0).imm true 8 (BitVec.toNat (255 : BitVec 8))).toNat < wit2.regionLen b0) ∧
    (TwigGo bs b0 (0 : PReg) 1 [] ∧ (bs.twig b0).rep = none ∧ bs.regionLen b0 ≤ (BitVec.setWidth 64 ((bs.twig b0).pc + BitVec.ofNat 20 (bs.twig b0).pfx.length) + (bs.twig b0).imm true 8 (BitVec.toNat (255 : BitVec 8))).toNat ∧ bs.tsbHeld b0 = false) ∧
    (TwigGo bs b0 (0 : PReg) 1 [(1 : GReg)] ∧ Plain bs b0 ∧ BitVec.toNat ((bs.twig b0).reg (1 : GReg)) < bs.regionLen b0) ∧
    (TwigGo wit3 b0 (0 : PReg) 1 [(1 : GReg)] ∧ Plain wit3 b0 ∧ wit3.regionLen b0 ≤ BitVec.toNat ((wit3.twig b0).reg (1 : GReg)) ∧ wit3.tsbHeld b0 = false) ∧
    (((∃ off, Instr.call b0 (0 : PReg) (3 : BitVec 8) = Instr.call b0 (0 : PReg) off ∧ (7 : Word) = BitVec.setWidth 64 ((wit4.twig b0).pc + BitVec.ofNat 20 (wit4.twig b0).pfx.length) + (wit4.twig b0).imm true 8 off.toNat ∧ [(15 : GReg)] = [(15 : GReg)]) ∨ ∃ gs, Instr.call b0 (0 : PReg) (3 : BitVec 8) = Instr.callr b0 (0 : PReg) gs ∧ (wit4.twig b0).pfx = [] ∧ (7 : Word) = (wit4.twig b0).reg gs ∧ [(15 : GReg)] = [(15 : GReg), gs]) ∧ TwigGo wit4 b0 (0 : PReg) 1 [(15 : GReg)] ∧ (wit4.twig b0).rep = none ∧ Idle wit4 b0 ∧ wit4.tsbHeld b0 = false ∧ (¬PushValid b0 ((wit4.twig b0).reg (15 : GReg)))) :=
  ⟨⟨twigGo_of (by decide +kernel), by decide +kernel⟩,
    ⟨twigGo_of (by decide +kernel), by decide +kernel⟩,
    ⟨twigGo_of (by decide +kernel), by decide +kernel⟩,
    ⟨twigGo_of (by decide +kernel), by unfold Plain; decide +kernel, by decide +kernel⟩,
    ⟨twigGo_of (by decide +kernel), by unfold Plain; decide +kernel, by decide +kernel⟩,
    ⟨Or.inl ⟨_, rfl, by decide +kernel, rfl⟩, twigGo_of (by decide +kernel), by decide +kernel, idle_of (by decide +kernel), by decide +kernel, by unfold PushValid; decide +kernel⟩⟩

/-- The hypotheses of Obligations.ControlTransfer are met: one bracket for each clause. -/
theorem test_witness_ControlTransfer_2 :
    (((∃ off, Instr.call b0 (0 : PReg) (3 : BitVec 8) = Instr.call b0 (0 : PReg) off ∧ (7 : Word) = BitVec.setWidth 64 ((deep.twig b0).pc + BitVec.ofNat 20 (deep.twig b0).pfx.length) + (deep.twig b0).imm true 8 off.toNat ∧ [(15 : GReg)] = [(15 : GReg)]) ∨ ∃ gs, Instr.call b0 (0 : PReg) (3 : BitVec 8) = Instr.callr b0 (0 : PReg) gs ∧ (deep.twig b0).pfx = [] ∧ (7 : Word) = (deep.twig b0).reg gs ∧ [(15 : GReg)] = [(15 : GReg), gs]) ∧ TwigGo deep b0 (0 : PReg) 1 [(15 : GReg)] ∧ (deep.twig b0).rep = none ∧ Idle deep b0 ∧ deep.tsbHeld b0 = false ∧ PushValid b0 ((deep.twig b0).reg (15 : GReg)) ∧ 1024 ≤ (deep.twig b0).shadow.length) ∧
    (((∃ off, Instr.callr b0 (0 : PReg) (1 : GReg) = Instr.call b0 (0 : PReg) off ∧ (4096 : Word) = BitVec.setWidth 64 ((wit6.twig b0).pc + BitVec.ofNat 20 (wit6.twig b0).pfx.length) + (wit6.twig b0).imm true 8 off.toNat ∧ [(15 : GReg), (1 : GReg)] = [(15 : GReg)]) ∨ ∃ gs, Instr.callr b0 (0 : PReg) (1 : GReg) = Instr.callr b0 (0 : PReg) gs ∧ (wit6.twig b0).pfx = [] ∧ (4096 : Word) = (wit6.twig b0).reg gs ∧ [(15 : GReg), (1 : GReg)] = [(15 : GReg), gs]) ∧ TwigGo wit6 b0 (0 : PReg) 1 [(15 : GReg), (1 : GReg)] ∧ (wit6.twig b0).rep = none ∧ Idle wit6 b0 ∧ wit6.tsbHeld b0 = false ∧ PushValid b0 ((wit6.twig b0).reg (15 : GReg)) ∧ (wit6.twig b0).shadow.length < 1024 ∧ wit6.regionLen b0 ≤ BitVec.toNat (4096 : Word)) ∧
    (((∃ off, Instr.callr c1 (0 : PReg) (1 : GReg) = Instr.call c1 (0 : PReg) off ∧ (8 : Word) = BitVec.setWidth 64 ((wit7.twig c1).pc + BitVec.ofNat 20 (wit7.twig c1).pfx.length) + (wit7.twig c1).imm true 8 off.toNat ∧ [(15 : GReg), (1 : GReg)] = [(15 : GReg)]) ∨ ∃ gs, Instr.callr c1 (0 : PReg) (1 : GReg) = Instr.callr c1 (0 : PReg) gs ∧ (wit7.twig c1).pfx = [] ∧ (8 : Word) = (wit7.twig c1).reg gs ∧ [(15 : GReg), (1 : GReg)] = [(15 : GReg), gs]) ∧ TwigGo wit7 c1 (0 : PReg) 1 [(15 : GReg), (1 : GReg)] ∧ (wit7.twig c1).rep = none ∧ Idle wit7 c1 ∧ wit7.tsbHeld c1 = false ∧ PushValid c1 ((wit7.twig c1).reg (15 : GReg)) ∧ (wit7.twig c1).shadow.length < 1024 ∧ BitVec.toNat (8 : Word) < wit7.regionLen c1 ∧ (wit7.twig c1).stores = [] ∧ (∀ (tgt : Target), wit7.entryCovers tgt (BitVec.toNat ((wit7.twig c1).reg (15 : GReg) - (8 : Word))) = false) ∧ Alive wit7.mem (BitVec.toNat ((wit7.twig c1).reg (15 : GReg) - (8 : Word))) 8) ∧
    (((∃ off, Instr.call b0 (0 : PReg) (3 : BitVec 8) = Instr.call b0 (0 : PReg) off ∧ (7 : Word) = BitVec.setWidth 64 ((buffered.twig b0).pc + BitVec.ofNat 20 (buffered.twig b0).pfx.length) + (buffered.twig b0).imm true 8 off.toNat ∧ [(15 : GReg)] = [(15 : GReg)]) ∨ ∃ gs, Instr.call b0 (0 : PReg) (3 : BitVec 8) = Instr.callr b0 (0 : PReg) gs ∧ (buffered.twig b0).pfx = [] ∧ (7 : Word) = (buffered.twig b0).reg gs ∧ [(15 : GReg)] = [(15 : GReg), gs]) ∧ TwigGo buffered b0 (0 : PReg) 1 [(15 : GReg)] ∧ (buffered.twig b0).rep = none ∧ Idle buffered b0 ∧ buffered.tsbHeld b0 = false ∧ PushValid b0 ((buffered.twig b0).reg (15 : GReg)) ∧ (buffered.twig b0).shadow.length < 1024 ∧ BitVec.toNat (7 : Word) < buffered.regionLen b0 ∧ (buffered.twig b0).stores.length < storeCap b0 ∧ (∃ y, (buffered.twig b0).stores.head? = some y ∧ y.sent = true)) ∧
    (TwigGo wit11 b0 (0 : PReg) 1 [(15 : GReg)] ∧ Plain wit11 b0 ∧ Idle wit11 b0 ∧ wit11.tsbHeld b0 = false ∧ (¬(BitVec.toNat ((wit11.twig b0).reg (15 : GReg)) % 8 = 0 ∧ ownBase b0 ≤ BitVec.toNat ((wit11.twig b0).reg (15 : GReg)) ∧ BitVec.toNat ((wit11.twig b0).reg (15 : GReg)) + 8 ≤ ownBase b0 + ownSize b0))) ∧
    (TwigGo covered b0 (0 : PReg) 1 [(15 : GReg)] ∧ Plain covered b0 ∧ Idle covered b0 ∧ covered.tsbHeld b0 = false ∧ (BitVec.toNat ((covered.twig b0).reg (15 : GReg)) % 8 = 0 ∧ ownBase b0 ≤ BitVec.toNat ((covered.twig b0).reg (15 : GReg)) ∧ BitVec.toNat ((covered.twig b0).reg (15 : GReg)) + 8 ≤ ownBase b0 + ownSize b0) ∧ covered.ownReadWaits b0 (BitVec.toNat ((covered.twig b0).reg (15 : GReg))) 8 = true) :=
  ⟨⟨Or.inl ⟨_, rfl, by decide +kernel, rfl⟩, twigGo_of (by decide +kernel), by decide +kernel, idle_of (by decide +kernel), by decide +kernel, by unfold PushValid; decide +kernel, by decide +kernel⟩,
    ⟨Or.inr ⟨_, rfl, by decide +kernel, by decide +kernel, rfl⟩, twigGo_of (by decide +kernel), by decide +kernel, idle_of (by decide +kernel), by decide +kernel, by unfold PushValid; decide +kernel, by decide +kernel⟩,
    ⟨Or.inr ⟨_, rfl, by decide +kernel, by decide +kernel, rfl⟩, twigGo_of (by decide +kernel), by decide +kernel, idle_of (by decide +kernel), by decide +kernel, by unfold PushValid; decide +kernel, by decide +kernel, by decide +kernel, by decide +kernel, fun _ => rfl, by unfold Alive; decide +kernel⟩,
    ⟨Or.inl ⟨_, rfl, by decide +kernel, rfl⟩, twigGo_of (by decide +kernel), by decide +kernel, idle_of (by decide +kernel), by decide +kernel, by unfold PushValid; decide +kernel, by decide +kernel, by decide +kernel, by decide +kernel, ⟨_, rfl, rfl⟩⟩,
    ⟨twigGo_of (by decide +kernel), by unfold Plain; decide +kernel, idle_of (by decide +kernel), by decide +kernel⟩,
    ⟨twigGo_of (by decide +kernel), by unfold Plain; decide +kernel, idle_of (by decide +kernel), by decide +kernel⟩⟩

/-- The hypotheses of Obligations.ControlTransfer are met: one bracket for each clause. -/
theorem test_witness_ControlTransfer_3 :
    (TwigGo poisoned b0 (0 : PReg) 1 [(15 : GReg)] ∧ Plain poisoned b0 ∧ Idle poisoned b0 ∧ poisoned.tsbHeld b0 = false ∧ (BitVec.toNat ((poisoned.twig b0).reg (15 : GReg)) % 8 = 0 ∧ ownBase b0 ≤ BitVec.toNat ((poisoned.twig b0).reg (15 : GReg)) ∧ BitVec.toNat ((poisoned.twig b0).reg (15 : GReg)) + 8 ≤ ownBase b0 + ownSize b0) ∧ poisoned.ownReadWaits b0 (BitVec.toNat ((poisoned.twig b0).reg (15 : GReg))) 8 = false ∧ poisoned.mem.badByte (BitVec.toNat ((poisoned.twig b0).reg (15 : GReg))) = true) ∧
    (TwigGo wit10 b0 (0 : PReg) 1 [(15 : GReg)] ∧ Plain wit10 b0 ∧ Idle wit10 b0 ∧ wit10.tsbHeld b0 = false ∧ (BitVec.toNat ((wit10.twig b0).reg (15 : GReg)) % 8 = 0 ∧ ownBase b0 ≤ BitVec.toNat ((wit10.twig b0).reg (15 : GReg)) ∧ BitVec.toNat ((wit10.twig b0).reg (15 : GReg)) + 8 ≤ ownBase b0 + ownSize b0) ∧ wit10.ownReadWaits b0 (BitVec.toNat ((wit10.twig b0).reg (15 : GReg))) 8 = false ∧ wit10.mem.badByte (BitVec.toNat ((wit10.twig b0).reg (15 : GReg))) = false ∧ (∀ (ra : WordAddr), (wit10.twig b0).shadow.head? = some ra → wit10.mem.readWord (BitVec.toNat ((wit10.twig b0).reg (15 : GReg))) ≠ BitVec.setWidth 64 ra)) ∧
    (TwigGo wit8 b0 (0 : PReg) 1 [(15 : GReg)] ∧ Plain wit8 b0 ∧ Idle wit8 b0 ∧ wit8.tsbHeld b0 = false ∧ (BitVec.toNat ((wit8.twig b0).reg (15 : GReg)) % 8 = 0 ∧ ownBase b0 ≤ BitVec.toNat ((wit8.twig b0).reg (15 : GReg)) ∧ BitVec.toNat ((wit8.twig b0).reg (15 : GReg)) + 8 ≤ ownBase b0 + ownSize b0) ∧ wit8.ownReadWaits b0 (BitVec.toNat ((wit8.twig b0).reg (15 : GReg))) 8 = false ∧ wit8.mem.badByte (BitVec.toNat ((wit8.twig b0).reg (15 : GReg))) = false ∧ (wit8.twig b0).shadow = [(9 : WordAddr), (3 : WordAddr)] ∧ wit8.mem.readWord (BitVec.toNat ((wit8.twig b0).reg (15 : GReg))) = BitVec.setWidth 64 (9 : WordAddr)) ∧
    (TwigGo wit9 b0 (0 : PReg) 1 [(15 : GReg)] ∧ Plain wit9 b0 ∧ Idle wit9 b0 ∧ wit9.tsbHeld b0 = false ∧ (BitVec.toNat ((wit9.twig b0).reg (15 : GReg)) % 8 = 0 ∧ ownBase b0 ≤ BitVec.toNat ((wit9.twig b0).reg (15 : GReg)) ∧ BitVec.toNat ((wit9.twig b0).reg (15 : GReg)) + 8 ≤ ownBase b0 + ownSize b0) ∧ wit9.ownReadWaits b0 (BitVec.toNat ((wit9.twig b0).reg (15 : GReg))) 8 = false ∧ wit9.mem.badByte (BitVec.toNat ((wit9.twig b0).reg (15 : GReg))) = false ∧ (wit9.twig b0).shadow = [(9 : WordAddr)] ∧ wit9.mem.readWord (BitVec.toNat ((wit9.twig b0).reg (15 : GReg))) = BitVec.setWidth 64 (9 : WordAddr)) :=
  ⟨⟨twigGo_of (by decide +kernel), by unfold Plain; decide +kernel, idle_of (by decide +kernel), by decide +kernel⟩,
    ⟨twigGo_of (by decide +kernel), by unfold Plain; decide +kernel, idle_of (by decide +kernel), by decide +kernel, by decide +kernel, by decide +kernel, by decide +kernel, (by intro ra e; cases ((by decide +kernel : (wit10.twig b0).shadow.head? = some 8).symm.trans e); decide +kernel)⟩,
    ⟨twigGo_of (by decide +kernel), by unfold Plain; decide +kernel, idle_of (by decide +kernel), by decide +kernel⟩,
    ⟨twigGo_of (by decide +kernel), by unfold Plain; decide +kernel, idle_of (by decide +kernel), by decide +kernel⟩⟩

end W2

namespace W3

def rOld : RepSt := ⟨1, some 9, false⟩
def rRun : RepSt := ⟨1, none, false⟩
def rSkip : RepSt := ⟨1, none, true⟩
def ls : State := tw b0 fun w => { w with g := vset w.g 1 5, pc := 4 }
def wit12 : State := ls.modTwig b0 (fun w => { w with g := vset w.g 0 0 })
def wit13 : State := ls.modTwig b0 (fun w => { w with pfx := [1] })
def wit14 : State := ls.modTwig b0 (fun w => { w with repActive := true, rc := 3 })
def wit15 : State := ls.modTwig b0 (fun w => { w with pred := 1 })
def rp (rc : Word) (r : RepSt) : State := tw b0 fun w => { w with pc := 4, rc := rc, rep := some r }
def wit16 : State := rp 3 rOld
def wit17 : State := rp 1 rRun
def wit18 : State := rp 0 rOld
def wit19 : State := rp 5 rSkip

/-- The hypotheses of Obligations.LoopsAndRepeats are met: one bracket for each clause. -/
theorem test_witness_LoopsAndRepeats :
    (((∃ gc, Instr.loop b0 (0 : PReg) (0 : BitVec 1) (0 : Fin 2) (1 : GReg) (7 : BitVec 14) = Instr.loop b0 (0 : PReg) (0 : BitVec 1) (0 : Fin 2) gc (7 : BitVec 14) ∧ (ls.twig b0).pfx = [] ∧ (5 : Word) = (ls.twig b0).reg gc ∧ [(1 : GReg)] = [gc]) ∨ ∃ c, Instr.loop b0 (0 : PReg) (0 : BitVec 1) (0 : Fin 2) (1 : GReg) (7 : BitVec 14) = Instr.loopi b0 (0 : PReg) (0 : BitVec 1) (0 : Fin 2) c (7 : BitVec 14) ∧ (5 : Word) = (ls.twig b0).imm false 4 c.toNat ∧ [(1 : GReg)] = []) ∧ (7 : BitVec 14) ≠ (0 : BitVec 14) ∧ TwigGo ls b0 (0 : PReg) 2 [(1 : GReg)] ∧ (ls.twig b0).rep = none) ∧
    (((∃ gc, Instr.loop b0 (0 : PReg) (0 : BitVec 1) (1 : Fin 2) (0 : GReg) (7 : BitVec 14) = Instr.loop b0 (0 : PReg) (0 : BitVec 1) (1 : Fin 2) gc (7 : BitVec 14) ∧ (wit12.twig b0).pfx = [] ∧ (0 : Word) = (wit12.twig b0).reg gc ∧ [(0 : GReg)] = [gc]) ∨ ∃ c, Instr.loop b0 (0 : PReg) (0 : BitVec 1) (1 : Fin 2) (0 : GReg) (7 : BitVec 14) = Instr.loopi b0 (0 : PReg) (0 : BitVec 1) (1 : Fin 2) c (7 : BitVec 14) ∧ (0 : Word) = (wit12.twig b0).imm false 4 c.toNat ∧ [(0 : GReg)] = []) ∧ (7 : BitVec 14) ≠ (0 : BitVec 14) ∧ TwigGo wit12 b0 (0 : PReg) 2 [(0 : GReg)] ∧ (wit12.twig b0).rep = none) ∧
    (((∃ gc, Instr.loopi b0 (0 : PReg) (0 : BitVec 1) (1 : Fin 2) (15 : BitVec 4) (16383 : BitVec 14) = Instr.loop b0 (0 : PReg) (0 : BitVec 1) (1 : Fin 2) gc (16383 : BitVec 14) ∧ (wit13.twig b0).pfx = [] ∧ (31 : Word) = (wit13.twig b0).reg gc ∧ [] = [gc]) ∨ ∃ c, Instr.loopi b0 (0 : PReg) (0 : BitVec 1) (1 : Fin 2) (15 : BitVec 4) (16383 : BitVec 14) = Instr.loopi b0 (0 : PReg) (0 : BitVec 1) (1 : Fin 2) c (16383 : BitVec 14) ∧ (31 : Word) = (wit13.twig b0).imm false 4 c.toNat ∧ ([] : List GReg) = []) ∧ (16383 : BitVec 14) ≠ (0 : BitVec 14) ∧ TwigGo wit13 b0 (0 : PReg) 2 [] ∧ (wit13.twig b0).rep = none) ∧
    (((∃ gc, Instr.rep b0 (0 : PReg) (0 : BitVec 2) (1 : GReg) = Instr.rep b0 (0 : PReg) (0 : BitVec 2) gc ∧ (ls.twig b0).pfx = [] ∧ (5 : Word) = (ls.twig b0).reg gc ∧ [(1 : GReg)] = [gc]) ∨ ∃ c, Instr.rep b0 (0 : PReg) (0 : BitVec 2) (1 : GReg) = Instr.repi b0 (0 : PReg) (0 : BitVec 2) c ∧ (5 : Word) = (ls.twig b0).imm false 4 c.toNat ∧ [(1 : GReg)] = []) ∧ (ls.twig b0).rep = none ∧ TwigGo ls b0 (0 : PReg) 1 [(1 : GReg)] ∧ (ls.twig b0).repActive = false) ∧
    (((∃ gc, Instr.repi b0 (0 : PReg) (0 : BitVec 2) (9 : BitVec 4) = Instr.rep b0 (0 : PReg) (0 : BitVec 2) gc ∧ (wit13.twig b0).pfx = [] ∧ (25 : Word) = (wit13.twig b0).reg gc ∧ [] = [gc]) ∨ ∃ c, Instr.repi b0 (0 : PReg) (0 : BitVec 2) (9 : BitVec 4) = Instr.repi b0 (0 : PReg) (0 : BitVec 2) c ∧ (25 : Word) = (wit13.twig b0).imm false 4 c.toNat ∧ ([] : List GReg) = []) ∧ (wit13.twig b0).rep = none ∧ TwigGo wit13 b0 (0 : PReg) 1 [] ∧ (wit13.twig b0).repActive = false) ∧
    (((∃ gc, Instr.rep b0 (0 : PReg) (0 : BitVec 2) (1 : GReg) = Instr.rep b0 (0 : PReg) (0 : BitVec 2) gc ∧ (wit14.twig b0).pfx = [] ∧ (5 : Word) = (wit14.twig b0).reg gc ∧ [(1 : GReg)] = [gc]) ∨ ∃ c, Instr.rep b0 (0 : PReg) (0 : BitVec 2) (1 : GReg) = Instr.repi b0 (0 : PReg) (0 : BitVec 2) c ∧ (5 : Word) = (wit14.twig b0).imm false 4 c.toNat ∧ [(1 : GReg)] = []) ∧ (wit14.twig b0).rep = none ∧ TwigAt wit14 b0 1 ∧ (wit14.twig b0).repActive = true) :=
  ⟨⟨Or.inl ⟨_, rfl, by decide +kernel, by decide +kernel, rfl⟩, by decide +kernel, twigGo_of (by decide +kernel), by decide +kernel⟩,
    ⟨Or.inl ⟨_, rfl, by decide +kernel, by decide +kernel, rfl⟩, by decide +kernel, twigGo_of (by decide +kernel), by decide +kernel⟩,
    ⟨Or.inr ⟨_, rfl, by decide +kernel, rfl⟩, by decide +kernel, twigGo_of (by decide +kernel), by decide +kernel⟩,
    ⟨Or.inl ⟨_, rfl, by decide +kernel, by decide +kernel, rfl⟩, by decide +kernel, twigGo_of (by decide +kernel), by decide +kernel⟩,
    ⟨Or.inr ⟨_, rfl, by decide +kernel, rfl⟩, by decide +kernel, twigGo_of (by decide +kernel), by decide +kernel⟩,
    ⟨Or.inl ⟨_, rfl, by decide +kernel, by decide +kernel, rfl⟩, by decide +kernel, twigAt_of (by decide +kernel), by decide +kernel⟩⟩

/-- The hypotheses of Obligations.LoopsAndRepeats are met: one bracket for each clause. -/
theorem test_witness_LoopsAndRepeats_2 :
    (((∃ gc, Instr.rep b0 (1 : PReg) (0 : BitVec 2) (1 : GReg) = Instr.rep b0 (1 : PReg) (0 : BitVec 2) gc ∧ (wit15.twig b0).pfx = [] ∧ (5 : Word) = (wit15.twig b0).reg gc ∧ [(1 : GReg)] = [gc]) ∨ ∃ c, Instr.rep b0 (1 : PReg) (0 : BitVec 2) (1 : GReg) = Instr.repi b0 (1 : PReg) (0 : BitVec 2) c ∧ (5 : Word) = (wit15.twig b0).imm false 4 c.toNat ∧ [(1 : GReg)] = []) ∧ (wit15.twig b0).rep = none ∧ TwigAt wit15 b0 1 ∧ (wit15.twig b0).repActive = false ∧ (wit15.twig b0).predBit (1 : PReg) = false) ∧
    ((wit16.twig b0).rep = some rOld ∧ TwigGo wit16 b0 (0 : PReg) 1 [(1 : GReg), (2 : GReg)] ∧ (wit16.twig b0).pfx = []) ∧
    ((wit17.twig b0).rep = some rRun ∧ TwigGo wit17 b0 (0 : PReg) 1 [(1 : GReg), (2 : GReg)] ∧ (wit17.twig b0).pfx = []) ∧
    ((wit18.twig b0).rep = some rOld ∧ (rOld.skip = true ∨ (wit18.twig b0).rc = (0 : Word)) ∧ TwigAt wit18 b0 1 ∧ (wit18.twig b0).pfx = [] ∧ (wit18.twig b0).lc0 = (0 : Word) ∧ (wit18.twig b0).lc1 = (0 : Word)) ∧
    ((wit19.twig b0).rep = some rSkip ∧ (rSkip.skip = true ∨ (wit19.twig b0).rc = (0 : Word)) ∧ TwigAt wit19 b0 1 ∧ (wit19.twig b0).pfx = [] ∧ (wit19.twig b0).lc0 = (0 : Word) ∧ (wit19.twig b0).lc1 = (0 : Word)) ∧
    ((wit16.twig b0).rep = some rOld ∧ rOld.skip = false ∧ TwigAt wit16 b0 1 ∧ wit16.tsbHeld b0 = false) :=
  ⟨⟨Or.inl ⟨_, rfl, by decide +kernel, by decide +kernel, rfl⟩, by decide +kernel, twigAt_of (by decide +kernel), by decide +kernel⟩,
    ⟨by decide +kernel, twigGo_of (by decide +kernel), by decide +kernel⟩,
    ⟨by decide +kernel, twigGo_of (by decide +kernel), by decide +kernel⟩,
    ⟨by decide +kernel, by decide +kernel, twigAt_of (by decide +kernel), by decide +kernel⟩,
    ⟨by decide +kernel, by decide +kernel, twigAt_of (by decide +kernel), by decide +kernel⟩,
    ⟨by decide +kernel, by decide +kernel, twigAt_of (by decide +kernel), by decide +kernel⟩⟩

end W3

namespace W4

def ld (a : Nat) (t : TwigId := b0) : State := tw t fun w => { w with g := vset w.g 2 (BitVec.ofNat 64 a), pc := 4 }
/-- the twig's bough knows that root region 0 is its own -/
def known (s : State) : State := s.modBough 0 fun y => { y with ocache := [(0, some 0), (1, none)] }
def wit1 : State := ld (sc+0x100)
def wit2 : State := known (ld (0x101))
def wit3 : State := known (ld (0x3c))
def wit4 : State := ld (0x3e) c0
def wit5 : State := ld (0x20000000408) c0
def wit6 : State := ld (sc+0x7fffc)
def wit7 : State := ld (0x20000000408)
def wit8 : State := known (ld (0xfffffff))
def unknown : State := ld 0x100
def dld : MemRow := { t := b0, gu := 0, words := 1, g := 1, gb := 2, size := 8, signed := false, k := 0, off := 0 }
def dld8s : MemRow := { t := b0, gu := 0, words := 2, g := 1, gb := 2, size := 1, signed := true, k := 10, off := 1023 }
def dld64 : MemRow := { t := b0, gu := 0, words := 2, g := 1, gb := 2, size := 8, signed := false, k := 10, off := 0 }
def dld32 : MemRow := { t := c0, gu := 0, words := 2, g := 1, gb := 2, size := 4, signed := false, k := 10, off := 0 }
def dst16 : MemRow := { t := b0, gu := 0, words := 2, g := 1, gb := 2, size := 2, signed := false, k := 10, off := 0 }
def lop (a n : Nat) (sg : Bool) (got : List Chunk) : LoadOp := { words := 2, gd := 3, size := n, signed := sg, addr := a, owed := [], got := got }
def lr (a n : Nat) (sg : Bool) (t : TwigId := b0) (got : List Chunk := []) : State :=
  { tw t fun w => { w with load := some (lop a n sg got) } with mem := bs.mem.write (atAddr (sc + 0x100) [1,2,0x83,4,0x85,6,7,0x88]) }
def wit9 : State := lr (sc+0x101) 2 true
def wit10 : State := lr (sc+0x100) 8 false
def wit11 : State := lr (sc+0x102) 1 false c0
def ck : Chunk := { key := ⟨0,0,false⟩, base := 0x100, data := List.replicate 32 7, poison := [false, false, false, false], fault := none }
def wit12 : State := lr 0x100 4 true b0 [ck]
def wit13 : State := lr 0x2000000041c 4 true c0
def wit14 : State := lr 0x20000000418 8 false c0
def pst : Nat := pstoreBase + 0x101
def inProg : State := lr pst 2 false c0

/-- The hypotheses of Obligations.Loads are met: one bracket for each clause. -/
theorem test_witness_Loads :
    (loadRow (Instr.ld b0 (0 : PReg) (1 : GReg) (2 : GReg)) = some dld ∧ TwigGo wit1 dld.t dld.gu dld.words [dld.gb] ∧ Idle wit1 dld.t ∧ wit1.twigPortWaits dld.t (accessParts (BitVec.toNat (dld.addr (wit1.twig dld.t))) dld.size) = false ∧ wit1.portHolds dld.t = false ∧ wit1.accessFault dld.t true (accessParts (BitVec.toNat (dld.addr (wit1.twig dld.t))) dld.size) = none ∧ (wit1.twig dld.t).overlapsStore (BitVec.toNat (dld.addr (wit1.twig dld.t))) dld.size = false) ∧
    (loadRow (Instr.ld8s b0 (0 : PReg) (1 : GReg) (2 : GReg) (1023 : BitVec 10)) = some dld8s ∧ TwigGo wit2 dld8s.t dld8s.gu dld8s.words [dld8s.gb] ∧ Idle wit2 dld8s.t ∧ wit2.twigPortWaits dld8s.t (accessParts (BitVec.toNat (dld8s.addr (wit2.twig dld8s.t))) dld8s.size) = false ∧ wit2.portHolds dld8s.t = false ∧ wit2.accessFault dld8s.t true (accessParts (BitVec.toNat (dld8s.addr (wit2.twig dld8s.t))) dld8s.size) = none ∧ (wit2.twig dld8s.t).overlapsStore (BitVec.toNat (dld8s.addr (wit2.twig dld8s.t))) dld8s.size = false) ∧
    (loadRow (Instr.ld64 b0 (0 : PReg) (1 : GReg) (2 : GReg) (0 : BitVec 10)) = some dld64 ∧ TwigGo wit3 dld64.t dld64.gu dld64.words [dld64.gb] ∧ Idle wit3 dld64.t ∧ wit3.twigPortWaits dld64.t (accessParts (BitVec.toNat (dld64.addr (wit3.twig dld64.t))) dld64.size) = false ∧ wit3.portHolds dld64.t = false ∧ wit3.accessFault dld64.t true (accessParts (BitVec.toNat (dld64.addr (wit3.twig dld64.t))) dld64.size) = none ∧ (wit3.twig dld64.t).overlapsStore (BitVec.toNat (dld64.addr (wit3.twig dld64.t))) dld64.size = false) ∧
    (loadRow (Instr.ld32u c0 (0 : PReg) (1 : GReg) (2 : GReg) (0 : BitVec 10)) = some dld32 ∧ TwigGo wit4 dld32.t dld32.gu dld32.words [dld32.gb] ∧ Idle wit4 dld32.t ∧ wit4.twigPortWaits dld32.t (accessParts (BitVec.toNat (dld32.addr (wit4.twig dld32.t))) dld32.size) = false ∧ wit4.portHolds dld32.t = false ∧ wit4.accessFault dld32.t true (accessParts (BitVec.toNat (dld32.addr (wit4.twig dld32.t))) dld32.size) = none ∧ (wit4.twig dld32.t).overlapsStore (BitVec.toNat (dld32.addr (wit4.twig dld32.t))) dld32.size = false) ∧
    (loadRow (Instr.ld32u c0 (0 : PReg) (1 : GReg) (2 : GReg) (0 : BitVec 10)) = some dld32 ∧ TwigGo wit5 dld32.t dld32.gu dld32.words [dld32.gb] ∧ Idle wit5 dld32.t ∧ wit5.twigPortWaits dld32.t (accessParts (BitVec.toNat (dld32.addr (wit5.twig dld32.t))) dld32.size) = false ∧ wit5.portHolds dld32.t = false ∧ wit5.accessFault dld32.t true (accessParts (BitVec.toNat (dld32.addr (wit5.twig dld32.t))) dld32.size) = none ∧ (wit5.twig dld32.t).overlapsStore (BitVec.toNat (dld32.addr (wit5.twig dld32.t))) dld32.size = false) ∧
    ((loadRow (Instr.ld b0 (0 : PReg) (1 : GReg) (2 : GReg)) = some dld ∧ TwigGo unknown dld.t dld.gu dld.words [dld.gb] ∨ storeRow (Instr.ld b0 (0 : PReg) (1 : GReg) (2 : GReg)) = some dld ∧ TwigGo unknown dld.t dld.gu dld.words [dld.g, dld.gb]) ∧ unknown.twigPortWaits dld.t (accessParts (BitVec.toNat (dld.addr (unknown.twig dld.t))) dld.size) = true) :=
  ⟨⟨rfl, twigGo_of (by decide +kernel), idle_of (by decide +kernel), by decide +kernel⟩,
    ⟨rfl, twigGo_of (by decide +kernel), idle_of (by decide +kernel), by decide +kernel⟩,
    ⟨rfl, twigGo_of (by decide +kernel), idle_of (by decide +kernel), by decide +kernel⟩,
    ⟨rfl, twigGo_of (by decide +kernel), idle_of (by decide +kernel), by decide +kernel⟩,
    ⟨rfl, twigGo_of (by decide +kernel), idle_of (by decide +kernel), by decide +kernel⟩,
    ⟨Or.inl ⟨rfl, twigGo_of (by decide +kernel)⟩, by decide +kernel⟩⟩

/-- The hypotheses of Obligations.Loads are met: one bracket for each clause. -/
theorem test_witness_Loads_2 :
    ((loadRow (Instr.st16 b0 (0 : PReg) (1 : GReg) (2 : GReg) (0 : BitVec 10)) = some dst16 ∧ TwigGo unknown dst16.t dst16.gu dst16.words [dst16.gb] ∨ storeRow (Instr.st16 b0 (0 : PReg) (1 : GReg) (2 : GReg) (0 : BitVec 10)) = some dst16 ∧ TwigGo unknown dst16.t dst16.gu dst16.words [dst16.g, dst16.gb]) ∧ unknown.twigPortWaits dst16.t (accessParts (BitVec.toNat (dst16.addr (unknown.twig dst16.t))) dst16.size) = true) ∧
    (loadRow (Instr.ld b0 (0 : PReg) (1 : GReg) (2 : GReg)) = some dld ∧ TwigGo wit6 dld.t dld.gu dld.words [dld.gb] ∧ wit6.tsbHeld dld.t = false ∧ wit6.twigPortWaits dld.t (accessParts (BitVec.toNat (dld.addr (wit6.twig dld.t))) dld.size) = false ∧ wit6.accessFault dld.t true (accessParts (BitVec.toNat (dld.addr (wit6.twig dld.t))) dld.size) = some (Cause.access, sc + 524288)) ∧
    (loadRow (Instr.ld b0 (0 : PReg) (1 : GReg) (2 : GReg)) = some dld ∧ TwigGo wit7 dld.t dld.gu dld.words [dld.gb] ∧ wit7.tsbHeld dld.t = false ∧ wit7.twigPortWaits dld.t (accessParts (BitVec.toNat (dld.addr (wit7.twig dld.t))) dld.size) = false ∧ wit7.accessFault dld.t true (accessParts (BitVec.toNat (dld.addr (wit7.twig dld.t))) dld.size) = some (Cause.access, 2199023256584)) ∧
    (storeRow (Instr.st16 b0 (0 : PReg) (1 : GReg) (2 : GReg) (0 : BitVec 10)) = some dst16 ∧ TwigGo wit8 dst16.t dst16.gu dst16.words [dst16.g, dst16.gb] ∧ wit8.tsbHeld dst16.t = false ∧ wit8.twigPortWaits dst16.t (accessParts (BitVec.toNat (dst16.addr (wit8.twig dst16.t))) dst16.size) = false ∧ wit8.accessFault dst16.t false (accessParts (BitVec.toNat (dst16.addr (wit8.twig dst16.t))) dst16.size) = some (Cause.unmapped, 268435456)) ∧
    (bs.boughPlot ↑(0 : BoughId) = some m0) ∧
    ((wit9.twig b0).load = some (lop (sc + 257) 2 true []) ∧ (lop (sc + 257) 2 true []).owed = [] ∧ ((lop (sc + 257) 2 true []).size = 1 ∨ (lop (sc + 257) 2 true []).size = 2 ∨ (lop (sc + 257) 2 true []).size = 4 ∨ (lop (sc + 257) 2 true []).size = 8) ∧ ((lop (sc + 257) 2 true []).signed = true → (lop (sc + 257) 2 true []).size < 8) ∧ (∀ p ∈ accessParts (lop (sc + 257) 2 true []).addr (lop (sc + 257) 2 true []).size, wit9.partHeld p.1 = false ∧ wit9.storeAhead b0 p.1 = false) ∧ (∀ p ∈ accessParts (lop (sc + 257) 2 true []).addr (lop (sc + 257) 2 true []).size, rootSize ≤ p.1 ∧ (∀ (off : ℕ), placeOf p.1 ≠ Place.regs off) ∧ ∀ (g off : ℕ), placeOf p.1 ≠ Place.pstore g off) ∧ (∀ (x : ℕ), (lop (sc + 257) 2 true []).addr ≤ x → x < (lop (sc + 257) 2 true []).addr + (lop (sc + 257) 2 true []).size → wit9.mem.badByte x = false)) :=
  ⟨⟨Or.inr ⟨rfl, twigGo_of (by decide +kernel)⟩, by decide +kernel⟩,
    ⟨rfl, twigGo_of (by decide +kernel), by decide +kernel⟩,
    ⟨rfl, twigGo_of (by decide +kernel), by decide +kernel⟩,
    ⟨rfl, twigGo_of (by decide +kernel), by decide +kernel⟩,
    by decide +kernel,
    ⟨by decide +kernel, by decide +kernel, by decide +kernel, by decide +kernel, by decide +kernel, plainParts_of (by decide +kernel), by decide +kernel⟩⟩

/-- The hypotheses of Obligations.Loads are met: one bracket for each clause. -/
theorem test_witness_Loads_3 :
    ((wit10.twig b0).load = some (lop (sc + 256) 8 false []) ∧ (lop (sc + 256) 8 false []).owed = [] ∧ ((lop (sc + 256) 8 false []).size = 1 ∨ (lop (sc + 256) 8 false []).size = 2 ∨ (lop (sc + 256) 8 false []).size = 4 ∨ (lop (sc + 256) 8 false []).size = 8) ∧ ((lop (sc + 256) 8 false []).signed = true → (lop (sc + 256) 8 false []).size < 8) ∧ (∀ p ∈ accessParts (lop (sc + 256) 8 false []).addr (lop (sc + 256) 8 false []).size, wit10.partHeld p.1 = false ∧ wit10.storeAhead b0 p.1 = false) ∧ (∀ p ∈ accessParts (lop (sc + 256) 8 false []).addr (lop (sc + 256) 8 false []).size, rootSize ≤ p.1 ∧ (∀ (off : ℕ), placeOf p.1 ≠ Place.regs off) ∧ ∀ (g off : ℕ), placeOf p.1 ≠ Place.pstore g off) ∧ (∀ (x : ℕ), (lop (sc + 256) 8 false []).addr ≤ x → x < (lop (sc + 256) 8 false []).addr + (lop (sc + 256) 8 false []).size → wit10.mem.badByte x = false)) ∧
    ((wit11.twig c0).load = some (lop (sc + 258) 1 false []) ∧ (lop (sc + 258) 1 false []).owed = [] ∧ ((lop (sc + 258) 1 false []).size = 1 ∨ (lop (sc + 258) 1 false []).size = 2 ∨ (lop (sc + 258) 1 false []).size = 4 ∨ (lop (sc + 258) 1 false []).size = 8) ∧ ((lop (sc + 258) 1 false []).signed = true → (lop (sc + 258) 1 false []).size < 8) ∧ (∀ p ∈ accessParts (lop (sc + 258) 1 false []).addr (lop (sc + 258) 1 false []).size, wit11.partHeld p.1 = false ∧ wit11.storeAhead c0 p.1 = false) ∧ (∀ p ∈ accessParts (lop (sc + 258) 1 false []).addr (lop (sc + 258) 1 false []).size, rootSize ≤ p.1 ∧ (∀ (off : ℕ), placeOf p.1 ≠ Place.regs off) ∧ ∀ (g off : ℕ), placeOf p.1 ≠ Place.pstore g off) ∧ (∀ (x : ℕ), (lop (sc + 258) 1 false []).addr ≤ x → x < (lop (sc + 258) 1 false []).addr + (lop (sc + 258) 1 false []).size → wit11.mem.badByte x = false)) ∧
    ((inProg.twig c0).load = some (lop pst 2 false []) ∧ (lop pst 2 false []).owed = [] ∧ ((lop pst 2 false []).size = 1 ∨ (lop pst 2 false []).size = 2 ∨ (lop pst 2 false []).size = 4 ∨ (lop pst 2 false []).size = 8) ∧ ((lop pst 2 false []).signed = true → (lop pst 2 false []).size < 8) ∧ (∀ p ∈ accessParts (lop pst 2 false []).addr (lop pst 2 false []).size, inProg.partHeld p.1 = false ∧ inProg.storeAhead c0 p.1 = false) ∧ accessParts (lop pst 2 false []).addr (lop pst 2 false []).size = [((lop pst 2 false []).addr, (lop pst 2 false []).size)] ∧ placeOf (lop pst 2 false []).addr = Place.pstore 0 257 ∧ (∀ (x : ℕ), (lop pst 2 false []).addr ≤ x → x < (lop pst 2 false []).addr + (lop pst 2 false []).size → inProg.mem.badLine (x / 8 * 8) = false)) ∧
    ((wit12.twig b0).load = some (lop 256 4 true [ck]) ∧ (lop 256 4 true [ck]).owed = [] ∧ ((lop 256 4 true [ck]).size = 1 ∨ (lop 256 4 true [ck]).size = 2 ∨ (lop 256 4 true [ck]).size = 4 ∨ (lop 256 4 true [ck]).size = 8) ∧ ((lop 256 4 true [ck]).signed = true → (lop 256 4 true [ck]).size < 8) ∧ (∀ p ∈ accessParts (lop 256 4 true [ck]).addr (lop 256 4 true [ck]).size, wit12.partHeld p.1 = false ∧ wit12.storeAhead b0 p.1 = false) ∧ accessParts (lop 256 4 true [ck]).addr (lop 256 4 true [ck]).size = [((lop 256 4 true [ck]).addr, (lop 256 4 true [ck]).size)] ∧ (lop 256 4 true [ck]).addr < rootSize ∧ (lop 256 4 true [ck]).got = [ck] ∧ ck.base = (loadRequest (lop 256 4 true [ck]).addr (lop 256 4 true [ck]).size).1 ∧ (ck.part (lop 256 4 true [ck]).addr (lop 256 4 true [ck]).size).badAt = none) ∧
    ((wit13.twig c0).load = some (lop 2199023256604 4 true []) ∧ (lop 2199023256604 4 true []).owed = [] ∧ ((lop 2199023256604 4 true []).size = 1 ∨ (lop 2199023256604 4 true []).size = 2 ∨ (lop 2199023256604 4 true []).size = 4 ∨ (lop 2199023256604 4 true []).size = 8) ∧ ((lop 2199023256604 4 true []).signed = true → (lop 2199023256604 4 true []).size < 8) ∧ (∀ p ∈ accessParts (lop 2199023256604 4 true []).addr (lop 2199023256604 4 true []).size, wit13.partHeld p.1 = false ∧ wit13.storeAhead c0 p.1 = false) ∧ accessParts (lop 2199023256604 4 true []).addr (lop 2199023256604 4 true []).size = [((lop 2199023256604 4 true []).addr, (lop 2199023256604 4 true []).size)] ∧ placeOf (lop 2199023256604 4 true []).addr = Place.regs 1052 ∧ ((lop 2199023256604 4 true []).size = 4 ∨ (lop 2199023256604 4 true []).size = 8) ∧ 1052 % (lop 2199023256604 4 true []).size = 0 ∧ wit13.readReg ((1052 / 8 : ℕ) * 8) = some (64095 : Word)) ∧
    ((wit14.twig c0).load = some (lop 2199023256600 8 false []) ∧ (lop 2199023256600 8 false []).owed = [] ∧ ((lop 2199023256600 8 false []).size = 1 ∨ (lop 2199023256600 8 false []).size = 2 ∨ (lop 2199023256600 8 false []).size = 4 ∨ (lop 2199023256600 8 false []).size = 8) ∧ ((lop 2199023256600 8 false []).signed = true → (lop 2199023256600 8 false []).size < 8) ∧ (∀ p ∈ accessParts (lop 2199023256600 8 false []).addr (lop 2199023256600 8 false []).size, wit14.partHeld p.1 = false ∧ wit14.storeAhead c0 p.1 = false) ∧ accessParts (lop 2199023256600 8 false []).addr (lop 2199023256600 8 false []).size = [((lop 2199023256600 8 false []).addr, (lop 2199023256600 8 false []).size)] ∧ placeOf (lop 2199023256600 8 false []).addr = Place.regs 1048 ∧ ((lop 2199023256600 8 false []).size = 4 ∨ (lop 2199023256600 8 false []).size = 8) ∧ 1048 % (lop 2199023256600 8 false []).size = 0 ∧ wit14.readReg ((1048 / 8 : ℕ) * 8) = some (64095 : Word)) :=
  ⟨⟨by decide +kernel, by decide +kernel, by decide +kernel, by decide +kernel, by decide +kernel, plainParts_of (by decide +kernel), by decide +kernel⟩,
    ⟨by decide +kernel, by decide +kernel, by decide +kernel, by decide +kernel, by decide +kernel, plainParts_of (by decide +kernel), by decide +kernel⟩,
    by decide +kernel,
    by decide +kernel,
    by decide +kernel,
    by decide +kernel⟩

end W4

namespace W5

def ld (a : Nat) (t : TwigId := b0) : State := tw t fun w => { w with g := vset (vset w.g 2 (BitVec.ofNat 64 a)) 1 0x8877665544332211, pc := 4 }
def known (s : State) : State := s.modBough 0 fun y => { y with ocache := [(0, some 0)] }
def wit1 : State := ld (sc+0xfc)
def wit2 : State := ld (sc+0x7fffe)
def wit3 : State := ld (0x40000000000) c0
def wit4 : State := known (ld (0x3e))
def wit5 : State := ld (0x20000000430) c0
def so : StoreOp := { id := 3, addr := sc + 0x10003c, bytes := [1,2,3,4,5,6,7,8], sent := true, visible := false }
def soWaits : StoreOp := { so with sent := false }
def soRoot : StoreOp := { so with addr := 0x100, visible := true }
def ss (l : List StoreOp) : State := tw b0 fun w => { w with stores := l }
def wit6 : State := ss [so, soWaits]
def wit7 : State := ss [soRoot, soWaits]
def waits : State := ss [soWaits]
def behind : State := (ld (sc+0xfc)).modTwig b0 fun w => { w with stores := [so] }
def full : State := (ld (sc+0xfc)).modTwig b0 fun w => { w with stores := [so, soWaits, soWaits, soWaits] }
def dst : MemRow := { t := b0, gu := 0, words := 1, g := 1, gb := 2, size := 8, signed := false, k := 0, off := 0 }
def dst16 : MemRow := { t := b0, gu := 0, words := 2, g := 1, gb := 2, size := 2, signed := false, k := 10, off := 0 }
def dst8 : MemRow := { t := c0, gu := 0, words := 2, g := 1, gb := 2, size := 1, signed := false, k := 10, off := 0 }
def dst32 (t : TwigId) : MemRow := { t := t, gu := 0, words := 2, g := 1, gb := 2, size := 4, signed := false, k := 10, off := 0 }
def ds (a : Nat) (v : List Word) : State := { tw b0 (fun w => { w with g := vset w.g 2 (BitVec.ofNat 64 (sc + a)), pc := 4, vl := 7 }) with mem := bs.mem.write (atAddr (sc + a) (wordsBytes v)) }
def wit8 : State := ds 0x100 [0x0006000000000100, 1, 0, 0x1000]
def wit9 : State := ds 0x7ffe0 [0x0006000000000100, 1, 0, 0x1000]
def wit10 : State := (ds 0x100 []).modBough 0 (fun y => { y with sd := vset y.sd 3 ⟨0x0002ffffffffffff, 3, 0, 0⟩ })
def wit11 : State := (ds 0x100 []).modBough 0 (fun y => { y with sd := vset y.sd 3 ⟨0x000200000000000f, 0xffffffff, 0, 0⟩ })
def wit12 : State := (ds 0x104 []).modBough 0 fun y => { y with sd := vset y.sd 3 (Tests.sd 0 6 0 0x1000) }

/-- The hypotheses of Obligations.Stores are met: one bracket for each clause. -/
theorem test_witness_Stores :
    (storeRow (Instr.st b0 (0 : PReg) (1 : GReg) (2 : GReg)) = some dst ∧ TwigGo wit1 dst.t dst.gu dst.words [dst.g, dst.gb] ∧ Idle wit1 dst.t ∧ wit1.twigPortWaits dst.t (accessParts (BitVec.toNat (dst.addr (wit1.twig dst.t))) dst.size) = false ∧ wit1.accessFault dst.t false (accessParts (BitVec.toNat (dst.addr (wit1.twig dst.t))) dst.size) = none ∧ (ownBase dst.t ≤ BitVec.toNat (dst.addr (wit1.twig dst.t)) ∧ BitVec.toNat (dst.addr (wit1.twig dst.t)) < ownBase dst.t + ownSize dst.t) ∧ (wit1.twig dst.t).stores = [] ∧ (∀ (tgt : Target), wit1.entryCovers tgt (BitVec.toNat (dst.addr (wit1.twig dst.t))) = false ∧ wit1.entryCovers tgt (BitVec.toNat (dst.addr (wit1.twig dst.t)) + dst.size - 1) = false) ∧ Alive wit1.mem (BitVec.toNat (dst.addr (wit1.twig dst.t))) dst.size) ∧
    (storeRow (Instr.st16 b0 (0 : PReg) (1 : GReg) (2 : GReg) (0 : BitVec 10)) = some dst16 ∧ TwigGo wit2 dst16.t dst16.gu dst16.words [dst16.g, dst16.gb] ∧ Idle wit2 dst16.t ∧ wit2.twigPortWaits dst16.t (accessParts (BitVec.toNat (dst16.addr (wit2.twig dst16.t))) dst16.size) = false ∧ wit2.accessFault dst16.t false (accessParts (BitVec.toNat (dst16.addr (wit2.twig dst16.t))) dst16.size) = none ∧ (ownBase dst16.t ≤ BitVec.toNat (dst16.addr (wit2.twig dst16.t)) ∧ BitVec.toNat (dst16.addr (wit2.twig dst16.t)) < ownBase dst16.t + ownSize dst16.t) ∧ (wit2.twig dst16.t).stores = [] ∧ (∀ (tgt : Target), wit2.entryCovers tgt (BitVec.toNat (dst16.addr (wit2.twig dst16.t))) = false ∧ wit2.entryCovers tgt (BitVec.toNat (dst16.addr (wit2.twig dst16.t)) + dst16.size - 1) = false) ∧ Alive wit2.mem (BitVec.toNat (dst16.addr (wit2.twig dst16.t))) dst16.size) ∧
    (storeRow (Instr.st8 c0 (0 : PReg) (1 : GReg) (2 : GReg) (0 : BitVec 10)) = some dst8 ∧ TwigGo wit3 dst8.t dst8.gu dst8.words [dst8.g, dst8.gb] ∧ Idle wit3 dst8.t ∧ wit3.twigPortWaits dst8.t (accessParts (BitVec.toNat (dst8.addr (wit3.twig dst8.t))) dst8.size) = false ∧ wit3.accessFault dst8.t false (accessParts (BitVec.toNat (dst8.addr (wit3.twig dst8.t))) dst8.size) = none ∧ (ownBase dst8.t ≤ BitVec.toNat (dst8.addr (wit3.twig dst8.t)) ∧ BitVec.toNat (dst8.addr (wit3.twig dst8.t)) < ownBase dst8.t + ownSize dst8.t) ∧ (wit3.twig dst8.t).stores = [] ∧ (∀ (tgt : Target), wit3.entryCovers tgt (BitVec.toNat (dst8.addr (wit3.twig dst8.t))) = false ∧ wit3.entryCovers tgt (BitVec.toNat (dst8.addr (wit3.twig dst8.t)) + dst8.size - 1) = false) ∧ Alive wit3.mem (BitVec.toNat (dst8.addr (wit3.twig dst8.t))) dst8.size) ∧
    (storeRow (Instr.st32 b0 (0 : PReg) (1 : GReg) (2 : GReg) (0 : BitVec 10)) = some (dst32 b0) ∧ TwigGo wit4 (dst32 b0).t (dst32 b0).gu (dst32 b0).words [(dst32 b0).g, (dst32 b0).gb] ∧ Idle wit4 (dst32 b0).t ∧ wit4.twigPortWaits (dst32 b0).t (accessParts (BitVec.toNat ((dst32 b0).addr (wit4.twig (dst32 b0).t))) (dst32 b0).size) = false ∧ wit4.accessFault (dst32 b0).t false (accessParts (BitVec.toNat ((dst32 b0).addr (wit4.twig (dst32 b0).t))) (dst32 b0).size) = none ∧ (¬(ownBase (dst32 b0).t ≤ BitVec.toNat ((dst32 b0).addr (wit4.twig (dst32 b0).t)) ∧ BitVec.toNat ((dst32 b0).addr (wit4.twig (dst32 b0).t)) < ownBase (dst32 b0).t + ownSize (dst32 b0).t) ∨ (wit4.twig (dst32 b0).t).stores ≠ []) ∧ (wit4.twig (dst32 b0).t).stores.length < storeCap (dst32 b0).t ∧ wit4.portHolds (dst32 b0).t = false ∧ (∀ (y : StoreOp), (wit4.twig (dst32 b0).t).stores.head? = some y → y.sent = true)) ∧
    (storeRow (Instr.st32 c0 (0 : PReg) (1 : GReg) (2 : GReg) (0 : BitVec 10)) = some (dst32 c0) ∧ TwigGo wit5 (dst32 c0).t (dst32 c0).gu (dst32 c0).words [(dst32 c0).g, (dst32 c0).gb] ∧ Idle wit5 (dst32 c0).t ∧ wit5.twigPortWaits (dst32 c0).t (accessParts (BitVec.toNat ((dst32 c0).addr (wit5.twig (dst32 c0).t))) (dst32 c0).size) = false ∧ wit5.accessFault (dst32 c0).t false (accessParts (BitVec.toNat ((dst32 c0).addr (wit5.twig (dst32 c0).t))) (dst32 c0).size) = none ∧ (¬(ownBase (dst32 c0).t ≤ BitVec.toNat ((dst32 c0).addr (wit5.twig (dst32 c0).t)) ∧ BitVec.toNat ((dst32 c0).addr (wit5.twig (dst32 c0).t)) < ownBase (dst32 c0).t + ownSize (dst32 c0).t) ∨ (wit5.twig (dst32 c0).t).stores ≠ []) ∧ (wit5.twig (dst32 c0).t).stores.length < storeCap (dst32 c0).t ∧ wit5.portHolds (dst32 c0).t = false ∧ (∀ (y : StoreOp), (wit5.twig (dst32 c0).t).stores.head? = some y → y.sent = true)) ∧
    (storeRow (Instr.st b0 (0 : PReg) (1 : GReg) (2 : GReg)) = some dst ∧ TwigGo behind dst.t dst.gu dst.words [dst.g, dst.gb] ∧ Idle behind dst.t ∧ behind.twigPortWaits dst.t (accessParts (BitVec.toNat (dst.addr (behind.twig dst.t))) dst.size) = false ∧ behind.accessFault dst.t false (accessParts (BitVec.toNat (dst.addr (behind.twig dst.t))) dst.size) = none ∧ (¬(ownBase dst.t ≤ BitVec.toNat (dst.addr (behind.twig dst.t)) ∧ BitVec.toNat (dst.addr (behind.twig dst.t)) < ownBase dst.t + ownSize dst.t) ∨ (behind.twig dst.t).stores ≠ []) ∧ (behind.twig dst.t).stores.length < storeCap dst.t ∧ behind.portHolds dst.t = false ∧ (∀ (y : StoreOp), (behind.twig dst.t).stores.head? = some y → y.sent = true)) :=
  ⟨⟨rfl, twigGo_of (by decide +kernel), idle_of (by decide +kernel), by decide +kernel, by decide +kernel, by decide +kernel, by decide +kernel, fun _ => ⟨rfl, rfl⟩, by unfold Alive; decide +kernel⟩,
    ⟨rfl, twigGo_of (by decide +kernel), idle_of (by decide +kernel), by decide +kernel, by decide +kernel, by decide +kernel, by decide +kernel, fun _ => ⟨rfl, rfl⟩, by unfold Alive; decide +kernel⟩,
    ⟨rfl, twigGo_of (by decide +kernel), idle_of (by decide +kernel), by decide +kernel, by decide +kernel, by decide +kernel, by decide +kernel, fun _ => ⟨rfl, rfl⟩, by unfold Alive; decide +kernel⟩,
    ⟨rfl, twigGo_of (by decide +kernel), idle_of (by decide +kernel), by decide +kernel⟩,
    ⟨rfl, twigGo_of (by decide +kernel), idle_of (by decide +kernel), by decide +kernel⟩,
    ⟨rfl, twigGo_of (by decide +kernel), idle_of (by decide +kernel), by decide +kernel⟩⟩

/-- The hypotheses of Obligations.Stores are met: one bracket for each clause. -/
theorem test_witness_Stores_2 :
    (storeRow (Instr.st b0 (0 : PReg) (1 : GReg) (2 : GReg)) = some dst ∧ TwigGo full dst.t dst.gu dst.words [dst.g, dst.gb] ∧ Idle full dst.t ∧ full.twigPortWaits dst.t (accessParts (BitVec.toNat (dst.addr (full.twig dst.t))) dst.size) = false ∧ full.accessFault dst.t false (accessParts (BitVec.toNat (dst.addr (full.twig dst.t))) dst.size) = none ∧ (¬(ownBase dst.t ≤ BitVec.toNat (dst.addr (full.twig dst.t)) ∧ BitVec.toNat (dst.addr (full.twig dst.t)) < ownBase dst.t + ownSize dst.t) ∨ (full.twig dst.t).stores ≠ []) ∧ storeCap dst.t ≤ (full.twig dst.t).stores.length) ∧
    ((waits.twig b0).stores = [soWaits] ∧ soWaits.sent = false) ∧
    ((wit6.twig b0).stores = [so, soWaits] ∧ so.sent = true ∧ wit6.portHolds b0 = false ∧ placeOf so.addr = Place.scratch 1 60 ∧ ((accessParts so.addr so.bytes.length).all fun p => !wit6.entryCovers (Target.scratch (boughId 1)) p.1) = true ∧ Alive wit6.mem so.addr so.bytes.length) ∧
    ((wit7.twig b0).stores = [soRoot, soWaits] ∧ soRoot.sent = true ∧ wit7.portHolds b0 = false ∧ soRoot.addr < rootSize ∧ soRoot.visible = true) :=
  ⟨⟨rfl, twigGo_of (by decide +kernel), idle_of (by decide +kernel), by decide +kernel⟩,
    by decide +kernel,
    ⟨by decide +kernel, by decide +kernel, by decide +kernel, by decide +kernel, by decide +kernel, by unfold Alive; decide +kernel⟩,
    by decide +kernel⟩

/-- The hypotheses of Obligations.DescriptorOps are met: one bracket for each clause. -/
theorem test_witness_DescriptorOps :
    (TwigGo wit8 (TwigId.bough (0 : BoughId)) (0 : PReg) 2 [(2 : GReg)] ∧ (wit8.bough (0 : BoughId)).issued = [] ∧ (BitVec.toNat ((wit8.bough (0 : BoughId)).twig.reg (2 : GReg) + (wit8.bough (0 : BoughId)).twig.imm true 10 (BitVec.toNat (0 : BitVec 10))) % 32 = 0 ∧ scratchAddr (0 : BoughId) ≤ BitVec.toNat ((wit8.bough (0 : BoughId)).twig.reg (2 : GReg) + (wit8.bough (0 : BoughId)).twig.imm true 10 (BitVec.toNat (0 : BitVec 10))) ∧ BitVec.toNat ((wit8.bough (0 : BoughId)).twig.reg (2 : GReg) + (wit8.bough (0 : BoughId)).twig.imm true 10 (BitVec.toNat (0 : BitVec 10))) < scratchAddr (0 : BoughId) + 524288) ∧ wit8.ownReadWaits (TwigId.bough (0 : BoughId)) (BitVec.toNat ((wit8.bough (0 : BoughId)).twig.reg (2 : GReg) + (wit8.bough (0 : BoughId)).twig.imm true 10 (BitVec.toNat (0 : BitVec 10)))) 32 = false ∧ (∀ (x : ℕ), BitVec.toNat ((wit8.bough (0 : BoughId)).twig.reg (2 : GReg) + (wit8.bough (0 : BoughId)).twig.imm true 10 (BitVec.toNat (0 : BitVec 10))) ≤ x → x < BitVec.toNat ((wit8.bough (0 : BoughId)).twig.reg (2 : GReg) + (wit8.bough (0 : BoughId)).twig.imm true 10 (BitVec.toNat (0 : BitVec 10))) + 32 → wit8.mem.badByte x = false) ∧ (Desc.mk (wit8.mem.readWord (BitVec.toNat ((wit8.bough (0 : BoughId)).twig.reg (2 : GReg) + (wit8.bough (0 : BoughId)).twig.imm true 10 (BitVec.toNat (0 : BitVec 10))))) (wit8.mem.readWord (BitVec.toNat ((wit8.bough (0 : BoughId)).twig.reg (2 : GReg) + (wit8.bough (0 : BoughId)).twig.imm true 10 (BitVec.toNat (0 : BitVec 10))) + 8)) (wit8.mem.readWord (BitVec.toNat ((wit8.bough (0 : BoughId)).twig.reg (2 : GReg) + (wit8.bough (0 : BoughId)).twig.imm true 10 (BitVec.toNat (0 : BitVec 10))) + 16)) (wit8.mem.readWord (BitVec.toNat ((wit8.bough (0 : BoughId)).twig.reg (2 : GReg) + (wit8.bough (0 : BoughId)).twig.imm true 10 (BitVec.toNat (0 : BitVec 10))) + 24))).masked.legal = true) ∧
    (TwigGo wit9 (TwigId.bough (0 : BoughId)) (0 : PReg) 2 [(2 : GReg)] ∧ (wit9.bough (0 : BoughId)).issued = [] ∧ (BitVec.toNat ((wit9.bough (0 : BoughId)).twig.reg (2 : GReg) + (wit9.bough (0 : BoughId)).twig.imm true 10 (BitVec.toNat (0 : BitVec 10))) % 32 = 0 ∧ scratchAddr (0 : BoughId) ≤ BitVec.toNat ((wit9.bough (0 : BoughId)).twig.reg (2 : GReg) + (wit9.bough (0 : BoughId)).twig.imm true 10 (BitVec.toNat (0 : BitVec 10))) ∧ BitVec.toNat ((wit9.bough (0 : BoughId)).twig.reg (2 : GReg) + (wit9.bough (0 : BoughId)).twig.imm true 10 (BitVec.toNat (0 : BitVec 10))) < scratchAddr (0 : BoughId) + 524288) ∧ (wit9.bough (0 : BoughId)).twig.stores = [] ∧ wit9.entryCovers (Target.scratch (0 : BoughId)) (BitVec.toNat ((wit9.bough (0 : BoughId)).twig.reg (2 : GReg) + (wit9.bough (0 : BoughId)).twig.imm true 10 (BitVec.toNat (0 : BitVec 10)))) = false ∧ Alive wit9.mem (BitVec.toNat ((wit9.bough (0 : BoughId)).twig.reg (2 : GReg) + (wit9.bough (0 : BoughId)).twig.imm true 10 (BitVec.toNat (0 : BitVec 10)))) 32) ∧
    (TwigGo wit12 (TwigId.bough (0 : BoughId)) (0 : PReg) 2 [(2 : GReg)] ∧ (wit12.bough (0 : BoughId)).issued = [] ∧ (¬(BitVec.toNat ((wit12.bough (0 : BoughId)).twig.reg (2 : GReg) + (wit12.bough (0 : BoughId)).twig.imm true 10 (BitVec.toNat (0 : BitVec 10))) % 32 = 0 ∧ scratchAddr (0 : BoughId) ≤ BitVec.toNat ((wit12.bough (0 : BoughId)).twig.reg (2 : GReg) + (wit12.bough (0 : BoughId)).twig.imm true 10 (BitVec.toNat (0 : BitVec 10))) ∧ BitVec.toNat ((wit12.bough (0 : BoughId)).twig.reg (2 : GReg) + (wit12.bough (0 : BoughId)).twig.imm true 10 (BitVec.toNat (0 : BitVec 10))) < scratchAddr (0 : BoughId) + 524288)) ∧ wit12.tsbHeld (TwigId.bough (0 : BoughId)) = false) ∧
    (TwigGo wit12 (TwigId.bough (0 : BoughId)) (0 : PReg) 2 [(2 : GReg)] ∧ (wit12.bough (0 : BoughId)).issued = [] ∧ (wit12.bough (0 : BoughId)).twig.imm true 10 (BitVec.toNat (0 : BitVec 10)) = (0 : Word) ∧ (Desc.mk ((wit12.bough (0 : BoughId)).sd[(3 : Fin 16)].w0 >>> 48 <<< 48 ||| (wit12.bough (0 : BoughId)).twig.reg (2 : GReg) <<< 16 >>> 16) (wit12.bough (0 : BoughId)).sd[(3 : Fin 16)].w1 (wit12.bough (0 : BoughId)).sd[(3 : Fin 16)].w2 (wit12.bough (0 : BoughId)).sd[(3 : Fin 16)].w3).legal = true) ∧
    (TwigGo wit10 (TwigId.bough (0 : BoughId)) (0 : PReg) 1 [] ∧ (wit10.bough (0 : BoughId)).issued = [] ∧ (wit10.bough (0 : BoughId)).twig.pfx = []) ∧
    (TwigGo wit11 (TwigId.bough (0 : BoughId)) (0 : PReg) 1 [] ∧ (wit11.bough (0 : BoughId)).issued = [] ∧ (wit11.bough (0 : BoughId)).twig.pfx = []) :=
  ⟨⟨twigGo_of (by decide +kernel), by decide +kernel⟩,
    ⟨twigGo_of (by decide +kernel), by decide +kernel, by decide +kernel, by decide +kernel, by decide +kernel, by unfold Alive; decide +kernel⟩,
    ⟨twigGo_of (by decide +kernel), by decide +kernel⟩,
    ⟨twigGo_of (by decide +kernel), by decide +kernel⟩,
    ⟨twigGo_of (by decide +kernel), by decide +kernel⟩,
    ⟨twigGo_of (by decide +kernel), by decide +kernel⟩⟩

end W5

namespace W6

def ln (n : Nat) : CLine := ⟨n, List.replicate 16 0, false, false⟩
def ps (x v : Word) (ro : Bool := false) (t : TwigId := b0) : State :=
  { tw t (fun w => { w with g := vset (vset w.g 2 x) 1 v, pc := 4, icache := [ln 0, ln 255], lineBuf := some (ln 255) }) with grn := { Grn.start with active := some { img with plots := [{ m0 with progRo := ro }] } }, mem := bs.mem.write (atAddr 0x30000001ffe [0x34, 0xd2]) }
def wit1 : State := ps 4095 0
def wit2 : State := ps 4096 0
def wit3 : State := ps 0xfffff 0 false c0
def wit4 : State := ps 4095 0xffff
def wit5 : State := ps 0xfffff 0x1234 false c0
def wit6 : State := ps 4096 0xffff
def ro : State := ps 0 0 true
def badLine : State := { wit1 with mem := { wit1.mem with marks := [(0x30000001fe0 / 8, .fresh)] } }
def wit7 : State := tw b0 (fun w => { w with timerLatch := true, tsbp := 4 })
def wit8 : State := tw b0 (fun w => { w with timerLatch := true, tsbp := 4, waiting := some (.wfi b0 0) })
def wit9 : State := tw b0 (fun w => { w with waiting := some (.vwait b0 0), wait := .all })
def ts (base : Nat) (ws : List Word) (t : TwigId := b0) : State := { tw t (fun w => { w with tsbp := BitVec.ofNat 64 base, vcsr := 0x100, shadow := [1] }) with mem := bs.mem.write (atAddr base (wordsBytes ws)) }
def tw33 : List Word := (List.range 41).map fun i => BitVec.ofNat 64 (i * 0x111 + 1)
def wit10 : State := ts (sc + 0x200) tw33
def wit11 : State := ts (sc + 0x7fe00) tw33
def wit12 : State := ts (0x40000000200) tw33 c0
def far : State := ts 0x200 []
def longVl : State := ts (sc + 0x200) ((List.range 41).map fun _ => 32769)
def covered : State := { wit10 with filters := [⟨.txn 1, .scratch 0, sc / 64, (sc + 0x400) / 64, 0, true, false, none⟩] }
def base10 : BitVec 64 := BitVec.ofNat 64 (sc + 0x200)
def back : State := wit10.modBough 0 fun y => { y with saved := some { base := base10, entries := [] } }

/-- The hypotheses of Obligations.ProgramStore are met: one bracket for each clause. -/
theorem test_witness_ProgramStore :
    (TwigGo wit2 b0 (0 : PReg) 2 [(2 : GReg)] ∧ Plain wit2 b0 ∧ wit2.regionLen b0 ≤ BitVec.toNat ((wit2.twig b0).reg (2 : GReg)) ∧ wit2.tsbHeld b0 = false) ∧
    (TwigGo badLine b0 (0 : PReg) 2 [(2 : GReg)] ∧ Plain badLine b0 ∧ BitVec.toNat ((badLine.twig b0).reg (2 : GReg)) < badLine.regionLen b0 ∧ badLine.mem.badLine (badLine.progAddr b0 (BitVec.toNat ((badLine.twig b0).reg (2 : GReg)))) = true ∧ badLine.tsbHeld b0 = false) ∧
    (TwigGo wit1 b0 (0 : PReg) 2 [(2 : GReg)] ∧ Plain wit1 b0 ∧ BitVec.toNat ((wit1.twig b0).reg (2 : GReg)) < wit1.regionLen b0 ∧ wit1.mem.badLine (wit1.progAddr b0 (BitVec.toNat ((wit1.twig b0).reg (2 : GReg)))) = false) ∧
    (TwigGo wit3 c0 (0 : PReg) 2 [(2 : GReg)] ∧ Plain wit3 c0 ∧ BitVec.toNat ((wit3.twig c0).reg (2 : GReg)) < wit3.regionLen c0 ∧ wit3.mem.badLine (wit3.progAddr c0 (BitVec.toNat ((wit3.twig c0).reg (2 : GReg)))) = false) ∧
    (TwigGo ro b0 (0 : PReg) 2 [(2 : GReg), (1 : GReg)] ∧ Plain ro b0 ∧ (ro.regionLen b0 ≤ BitVec.toNat ((ro.twig b0).reg (2 : GReg)) ∨ ro.regionRo b0 = true) ∧ ro.tsbHeld b0 = false) ∧
    (TwigGo wit4 b0 (0 : PReg) 2 [(2 : GReg), (1 : GReg)] ∧ Plain wit4 b0 ∧ BitVec.toNat ((wit4.twig b0).reg (2 : GReg)) < wit4.regionLen b0 ∧ wit4.regionRo b0 = false) :=
  ⟨⟨twigGo_of (by decide +kernel), by unfold Plain; decide +kernel, by decide +kernel⟩,
    ⟨twigGo_of (by decide +kernel), by unfold Plain; decide +kernel, by decide +kernel⟩,
    ⟨twigGo_of (by decide +kernel), by unfold Plain; decide +kernel, by decide +kernel⟩,
    ⟨twigGo_of (by decide +kernel), by unfold Plain; decide +kernel, by decide +kernel⟩,
    ⟨twigGo_of (by decide +kernel), by unfold Plain; decide +kernel, by decide +kernel⟩,
    ⟨twigGo_of (by decide +kernel), by unfold Plain; decide +kernel, by decide +kernel⟩⟩

/-- The hypotheses of Obligations.ProgramStore are met: one bracket for each clause. -/
theorem test_witness_ProgramStore_2 :
    (TwigGo wit5 c0 (0 : PReg) 2 [(2 : GReg), (1 : GReg)] ∧ Plain wit5 c0 ∧ BitVec.toNat ((wit5.twig c0).reg (2 : GReg)) < wit5.regionLen c0 ∧ wit5.regionRo c0 = false) ∧
    (wit6.lineInRegion b0 255 = true) ∧
    (wit6.lineInRegion b0 0 = true) :=
  ⟨⟨twigGo_of (by decide +kernel), by unfold Plain; decide +kernel, by decide +kernel⟩,
    by decide +kernel,
    by decide +kernel⟩

/-- The hypotheses of Obligations.WaitHaltResume are met: one bracket for each clause. -/
theorem test_witness_WaitHaltResume :
    (TwigGo bs (TwigId.bough (0 : BoughId)) (0 : PReg) 1 [] ∧ Plain bs (TwigId.bough (0 : BoughId)) ∧ bs.sources (TwigId.bough (0 : BoughId)) = []) ∧
    (TwigGo wit7 (TwigId.bough (0 : BoughId)) (0 : PReg) 1 [] ∧ Plain wit7 (TwigId.bough (0 : BoughId)) ∧ wit7.sources (TwigId.bough (0 : BoughId)) ≠ []) ∧
    ((wit8.bough (0 : BoughId)).twig.waiting = some (Instr.wfi (TwigId.bough (0 : BoughId)) (0 : PReg)) ∧ (wit8.bough (0 : BoughId)).twig.rep = none ∧ wit8.codeRuns (TwigId.bough (0 : BoughId)) = true ∧ (wit8.bough (0 : BoughId)).twig.run = TwigRun.running ∧ (wit8.sources (TwigId.bough (0 : BoughId)) ≠ [] ∨ (wit8.bough (0 : BoughId)).vfault ≠ none)) ∧
    (WaitsAt wit9 b0 (Instr.vwait b0 (0 : PReg)) ∧ isWfi (Instr.vwait b0 (0 : PReg)) = false ∧ isQopen (Instr.vwait b0 (0 : PReg)) = false ∧ isQtake (Instr.vwait b0 (0 : PReg)) = false) ∧
    (TwigGo bs (TwigId.crown (3 : CoreId)) (0 : PReg) 1 [] ∧ Plain bs (TwigId.crown (3 : CoreId))) ∧
    (TwigGo bs (TwigId.bough (0 : BoughId)) (0 : PReg) 1 [] ∧ Plain bs (TwigId.bough (0 : BoughId)) ∧ bs.tsbHeld (TwigId.bough (0 : BoughId)) = false) :=
  ⟨⟨twigGo_of (by decide +kernel), by unfold Plain; decide +kernel, by decide +kernel⟩,
    ⟨twigGo_of (by decide +kernel), by unfold Plain; decide +kernel, by decide +kernel⟩,
    by decide +kernel,
    ⟨by unfold WaitsAt; decide +kernel, by decide +kernel⟩,
    ⟨twigGo_of (by decide +kernel), by unfold Plain; decide +kernel⟩,
    ⟨twigGo_of (by decide +kernel), by unfold Plain; decide +kernel, by decide +kernel⟩⟩

/-- The hypotheses of Obligations.WaitHaltResume are met: one bracket for each clause. -/
theorem test_witness_WaitHaltResume_2 :
    (TwigGo far b0 (0 : PReg) 1 [] ∧ Plain far b0 ∧ far.tsbHeld b0 = false ∧ (¬(ownBase b0 ≤ tsbBase (far.twig b0).tsbp ∧ tsbBase (far.twig b0).tsbp + 512 ≤ ownBase b0 + ownSize b0))) ∧
    (TwigGo covered b0 (0 : PReg) 1 [] ∧ Plain covered b0 ∧ covered.tsbHeld b0 = false ∧ (ownBase b0 ≤ tsbBase (covered.twig b0).tsbp ∧ tsbBase (covered.twig b0).tsbp + 512 ≤ ownBase b0 + ownSize b0) ∧ covered.ownReadWaits b0 (tsbBase (covered.twig b0).tsbp) 328 = true) ∧
    (TwigGo longVl b0 (0 : PReg) 1 [] ∧ Plain longVl b0 ∧ longVl.tsbHeld b0 = false ∧ (ownBase b0 ≤ tsbBase (longVl.twig b0).tsbp ∧ tsbBase (longVl.twig b0).tsbp + 512 ≤ ownBase b0 + ownSize b0) ∧ longVl.ownReadWaits b0 (tsbBase (longVl.twig b0).tsbp) 328 = false ∧ longVl.mem.badByte (tsbBase (longVl.twig b0).tsbp + 40) = false ∧ 32768 < BitVec.toNat (longVl.mem.readWord (tsbBase (longVl.twig b0).tsbp + 8 * 5))) ∧
    (TwigGo wit11 b0 (0 : PReg) 1 [] ∧ Plain wit11 b0 ∧ wit11.tsbHeld b0 = false ∧ (ownBase b0 ≤ tsbBase (wit11.twig b0).tsbp ∧ tsbBase (wit11.twig b0).tsbp + 512 ≤ ownBase b0 + ownSize b0) ∧ wit11.ownReadWaits b0 (tsbBase (wit11.twig b0).tsbp) 328 = false ∧ (∀ (x : ℕ), tsbBase (wit11.twig b0).tsbp ≤ x → x < tsbBase (wit11.twig b0).tsbp + 328 → wit11.mem.badByte x = false) ∧ BitVec.toNat (wit11.mem.readWord (tsbBase (wit11.twig b0).tsbp + 8 * 5)) ≤ 32768) ∧
    (TwigGo wit12 c0 (0 : PReg) 1 [] ∧ Plain wit12 c0 ∧ wit12.tsbHeld c0 = false ∧ (ownBase c0 ≤ tsbBase (wit12.twig c0).tsbp ∧ tsbBase (wit12.twig c0).tsbp + 512 ≤ ownBase c0 + ownSize c0) ∧ wit12.ownReadWaits c0 (tsbBase (wit12.twig c0).tsbp) 328 = false ∧ (∀ (x : ℕ), tsbBase (wit12.twig c0).tsbp ≤ x → x < tsbBase (wit12.twig c0).tsbp + 328 → wit12.mem.badByte x = false) ∧ BitVec.toNat (wit12.mem.readWord (tsbBase (wit12.twig c0).tsbp + 8 * 5)) ≤ 32768) ∧
    (TwigGo back b0 (0 : PReg) 1 [] ∧ Plain back b0 ∧ back.tsbHeld b0 = false ∧ (ownBase b0 ≤ tsbBase (back.twig b0).tsbp ∧ tsbBase (back.twig b0).tsbp + 512 ≤ ownBase b0 + ownSize b0) ∧ back.ownReadWaits b0 (tsbBase (back.twig b0).tsbp) 328 = false ∧ (∀ (x : ℕ), tsbBase (back.twig b0).tsbp ≤ x → x < tsbBase (back.twig b0).tsbp + 328 → back.mem.badByte x = false) ∧ BitVec.toNat (back.mem.readWord (tsbBase (back.twig b0).tsbp + 8 * 5)) ≤ 32768) :=
  ⟨⟨twigGo_of (by decide +kernel), by unfold Plain; decide +kernel, by decide +kernel⟩,
    ⟨twigGo_of (by decide +kernel), by unfold Plain; decide +kernel, by decide +kernel⟩,
    ⟨twigGo_of (by decide +kernel), by unfold Plain; decide +kernel, by decide +kernel⟩,
    ⟨twigGo_of (by decide +kernel), by unfold Plain; decide +kernel, by decide +kernel⟩,
    ⟨twigGo_of (by decide +kernel), by unfold Plain; decide +kernel, by decide +kernel⟩,
    ⟨twigGo_of (by decide +kernel), by unfold Plain; decide +kernel, by decide +kernel⟩⟩

end W6

namespace W7

def ts (base : Nat) (t : TwigId := b0) : State := { tw t (fun w => { w with tsbp := BitVec.ofNat 64 base, vcsr := 0x100, shadow := [1] }) with mem := bs.mem }
def vf : VFault := { cause := .fpDivZero, elem := 70000, addr := 9, held := true }
def inMem : State := ts (sc + 0x201)
def inCrown : State := ts 0x40000000201 c0
def timer : State := (ts (sc + 0x205)).modBough 0 (fun y => { y with twig := { y.twig with timerLatch := true } })
def timerK : TrapInfo := (timer.trapDue b0).get (by decide +kernel)
def fault : State := inMem.modBough 0 (fun y => { y with vfault := some vf })
def faultK : TrapInfo := (fault.trapDue b0).get (by decide +kernel)
def late : State := inMem.modTwig b0 fun w => { w with badStore := some 0x40 }
def lateK : TrapInfo := (late.trapDue b0).get (by decide +kernel)
def queued : State := (ts (sc + 0x203)).modQueue 1 (fun y => { y with pending := [{ typ := 0, tag := 0, words := [], slot := 0 }] })
def da : VDec := (vdec .add 0 (fld 16 17 18 0)).get (by decide +kernel)
def entry : QEntry := { (bs.bough 0).entry da 8 0 1 with ret := some 3 }
def returns : State := inMem.modBough 0 fun y => { y with iq := [entry] }

/-- The hypotheses of Obligations.TrapsEntered are met: one bracket for each clause. -/
theorem test_witness_TrapsEntered :
    (TsbReady inMem b0 ∧ (inMem.twig b0).rep = none) ∧
    (TsbReady inCrown c0 ∧ (inCrown.twig c0).rep = none) ∧
    (timer.codeRuns (TwigId.bough (0 : BoughId)) = true ∧ (timer.bough (0 : BoughId)).twig.run = TwigRun.running ∧ timer.trapDue (TwigId.bough (0 : BoughId)) = some timerK ∧ TsbReady timer (TwigId.bough (0 : BoughId)) ∧ timer.tsbHeld (TwigId.bough (0 : BoughId)) = false) ∧
    (fault.codeRuns (TwigId.bough (0 : BoughId)) = true ∧ (fault.bough (0 : BoughId)).twig.run = TwigRun.running ∧ fault.trapDue (TwigId.bough (0 : BoughId)) = some faultK ∧ TsbReady fault (TwigId.bough (0 : BoughId)) ∧ fault.tsbHeld (TwigId.bough (0 : BoughId)) = false) ∧
    (late.codeRuns (TwigId.bough (0 : BoughId)) = true ∧ (late.bough (0 : BoughId)).twig.run = TwigRun.running ∧ late.trapDue (TwigId.bough (0 : BoughId)) = some lateK ∧ TsbReady late (TwigId.bough (0 : BoughId)) ∧ late.tsbHeld (TwigId.bough (0 : BoughId)) = false) ∧
    (BitVec.getLsbD (bs.bough (0 : BoughId)).twig.tsbp 0 = false) :=
  ⟨⟨by unfold TsbReady Alive; decide +kernel, by decide +kernel⟩,
    ⟨by unfold TsbReady Alive; decide +kernel, by decide +kernel⟩,
    ⟨by decide +kernel, by decide +kernel, by decide +kernel, by unfold TsbReady Alive; decide +kernel, by decide +kernel⟩,
    ⟨by decide +kernel, by decide +kernel, by decide +kernel, by unfold TsbReady Alive; decide +kernel, by decide +kernel⟩,
    ⟨by decide +kernel, by decide +kernel, by decide +kernel, by unfold TsbReady Alive; decide +kernel, by decide +kernel⟩,
    by decide +kernel⟩

/-- The hypotheses of Obligations.TrapsEntered are met: one bracket for each clause. -/
theorem test_witness_TrapsEntered_2 :
    (BitVec.getLsbD (fault.bough (0 : BoughId)).twig.tsbp 0 = true ∧ (fault.bough (0 : BoughId)).twig.canTrap = true ∧ (fault.bough (0 : BoughId)).vfault = some vf) ∧
    (BitVec.getLsbD (late.bough (0 : BoughId)).twig.tsbp 0 = true ∧ (late.bough (0 : BoughId)).twig.canTrap = true ∧ (late.bough (0 : BoughId)).vfault = none ∧ (late.bough (0 : BoughId)).twig.badStore = some 64) ∧
    (BitVec.getLsbD (timer.bough (0 : BoughId)).twig.tsbp 0 = true ∧ (timer.bough (0 : BoughId)).twig.canTrap = true ∧ (timer.bough (0 : BoughId)).vfault = none ∧ (timer.bough (0 : BoughId)).twig.badStore = none ∧ ((timer.bough (0 : BoughId)).issued.any fun e => e.ret.isSome || e.op == VOp.gatherf) = false) ∧
    (BitVec.getLsbD (queued.bough (0 : BoughId)).twig.tsbp 0 = true ∧ (queued.bough (0 : BoughId)).twig.canTrap = true ∧ (queued.bough (0 : BoughId)).vfault = none ∧ (queued.bough (0 : BoughId)).twig.badStore = none ∧ ((queued.bough (0 : BoughId)).issued.any fun e => e.ret.isSome || e.op == VOp.gatherf) = false) ∧
    (BitVec.getLsbD (returns.bough (0 : BoughId)).twig.tsbp 0 = true ∧ (returns.bough (0 : BoughId)).twig.canTrap = true ∧ (returns.bough (0 : BoughId)).vfault = none ∧ (returns.bough (0 : BoughId)).twig.badStore = none ∧ ((returns.bough (0 : BoughId)).issued.any fun e => e.ret.isSome || e.op == VOp.gatherf) = true) :=
  ⟨by decide +kernel,
    by decide +kernel,
    by decide +kernel,
    by decide +kernel,
    by decide +kernel⟩

end W7

namespace W8

def fv (d : BitVec 5) : VFields := fld d 17 18 0
def va : Instr := .vadd b0 0 (fv 16)
def vm : Instr := .vmul b0 0 (fv 19)
def vmG : Instr := .vmul b0 1 (fv 19)
def da : VDec := (vdec .add 0 (fv 16)).get (by decide +kernel)
def vl (n : Nat) (f : Bough → Bough := id) : State := bs.modBough 0 fun y => f { y with twig := { y.twig with vl := n, vcsr := 0x1f0006, pc := 8 } }
def e0 : QEntry := (vl 4).bough 0 |>.entry da 8 0 1
def wit1 : State := vl 256
def wit2 : State := vl 257
def wit3 : State := vl 4
def full : State := vl 4 fun y => { y with iq := List.replicate 8 e0 }
def blkB : BlockSt := ⟨3, [], [], false⟩
def blkE : BlockSt := ⟨2, [va], [], false⟩
def wit4 : State := vl 4 (fun y => { y with twig := { y.twig with block := some blkB } })
def wit5 : State := vl 4 (fun y => { y with twig := { y.twig with block := some blkE } })
def wit6 : List VDec := (decodeAll [(.add, 0, fv 16), (.mul, 0, fv 19)]).get (by decide +kernel)
def wit7 : State := vl 4 (fun y => { y with twig := { y.twig with waiting := some va } })
def wit8 : State := vl 4 (fun y => { y with twig := { y.twig with g := vset y.twig.g 2 40000 } })
def wit9 : State := vl 4 (fun y => { y with iq := [e0] })
def wit10 : State := vl 4 (fun y => { y with twig := { y.twig with stores := [⟨1, 8, [], true, false⟩] } })

/-- The hypotheses of Obligations.VectorIssue are met: one bracket for each clause. -/
theorem test_witness_VectorIssue :
    (guardRow va = some (TwigId.bough (0 : BoughId), (0 : PReg), 3) ∧ vecOf va = some (VOp.add, 0, fv (16 : BitVec 5), (0 : PReg)) ∧ vdec VOp.add 0 (fv (16 : BitVec 5)) = some da ∧ TwigGo wit1 (TwigId.bough (0 : BoughId)) (0 : PReg) 3 [] ∧ Plain wit1 (TwigId.bough (0 : BoughId)) ∧ (wit1.bough (0 : BoughId)).saved = none ∧ (wit1.bough (0 : BoughId)).vlPending = false ∧ (∀ g ∈ bcastsOf (VOp.add, 0, fv (16 : BitVec 5)), (wit1.bough (0 : BoughId)).writesG g = false) ∧ wit1.vecIllegal (0 : BoughId) da = false ∧ blockLength (wit1.bough (0 : BoughId)).twig.vl [da] = false ∧ (wit1.bough (0 : BoughId)).iq.length < 8) ∧
    (guardRow va = some (TwigId.bough (0 : BoughId), (0 : PReg), 3) ∧ vecOf va = some (VOp.add, 0, fv (16 : BitVec 5), (0 : PReg)) ∧ vdec VOp.add 0 (fv (16 : BitVec 5)) = some da ∧ TwigGo full (TwigId.bough (0 : BoughId)) (0 : PReg) 3 [] ∧ Plain full (TwigId.bough (0 : BoughId)) ∧ (full.bough (0 : BoughId)).saved = none ∧ (full.bough (0 : BoughId)).vlPending = false ∧ (∀ g ∈ bcastsOf (VOp.add, 0, fv (16 : BitVec 5)), (full.bough (0 : BoughId)).writesG g = false) ∧ full.vecIllegal (0 : BoughId) da = false ∧ blockLength (full.bough (0 : BoughId)).twig.vl [da] = false ∧ 8 ≤ (full.bough (0 : BoughId)).iq.length) ∧
    (guardRow va = some (TwigId.bough (0 : BoughId), (0 : PReg), 3) ∧ vecOf va = some (VOp.add, 0, fv (16 : BitVec 5), (0 : PReg)) ∧ vdec VOp.add 0 (fv (16 : BitVec 5)) = some da ∧ TwigGo wit2 (TwigId.bough (0 : BoughId)) (0 : PReg) 3 [] ∧ Plain wit2 (TwigId.bough (0 : BoughId)) ∧ (wit2.bough (0 : BoughId)).saved = none ∧ (wit2.bough (0 : BoughId)).vlPending = false ∧ (∀ g ∈ bcastsOf (VOp.add, 0, fv (16 : BitVec 5)), (wit2.bough (0 : BoughId)).writesG g = false) ∧ wit2.vecIllegal (0 : BoughId) da = false ∧ blockLength (wit2.bough (0 : BoughId)).twig.vl [da] = true ∧ wit2.tsbHeld (TwigId.bough (0 : BoughId)) = false) ∧
    (2 ≤ BitVec.toNat (4 : BitVec 4) ∧ BitVec.toNat (4 : BitVec 4) ≤ 4 ∧ TwigGo wit3 (TwigId.bough (0 : BoughId)) (0 : PReg) 1 [] ∧ Plain wit3 (TwigId.bough (0 : BoughId)) ∧ (wit3.bough (0 : BoughId)).saved = none ∧ (wit3.bough (0 : BoughId)).vlPending = false) ∧
    (guardRow va = some (TwigId.bough (0 : BoughId), (0 : PReg), 3) ∧ vecOf va = some (VOp.add, 0, fv (16 : BitVec 5), (0 : PReg)) ∧ wit4.twigReady (TwigId.bough (0 : BoughId)) = true ∧ (wit4.bough (0 : BoughId)).twig.block = some blkB ∧ WordsReady wit4 (TwigId.bough (0 : BoughId)) 3 ∧ blkB.members.length + 1 < blkB.n) ∧
    (guardRow vmG = some (TwigId.bough (0 : BoughId), (1 : PReg), 3) ∧ vecOf vmG = some (VOp.mul, 0, fv (19 : BitVec 5), (1 : PReg)) ∧ wit4.twigReady (TwigId.bough (0 : BoughId)) = true ∧ (wit4.bough (0 : BoughId)).twig.block = some blkB ∧ WordsReady wit4 (TwigId.bough (0 : BoughId)) 3 ∧ blkB.members.length + 1 < blkB.n) :=
  ⟨⟨by decide +kernel, by decide +kernel, by decide +kernel, twigGo_of (by decide +kernel), by unfold Plain; decide +kernel, by decide +kernel⟩,
    ⟨by decide +kernel, by decide +kernel, by decide +kernel, twigGo_of (by decide +kernel), by unfold Plain; decide +kernel, by decide +kernel⟩,
    ⟨by decide +kernel, by decide +kernel, by decide +kernel, twigGo_of (by decide +kernel), by unfold Plain; decide +kernel, by decide +kernel⟩,
    ⟨by decide +kernel, by decide +kernel, twigGo_of (by decide +kernel), by unfold Plain; decide +kernel, by decide +kernel⟩,
    ⟨by decide +kernel, by decide +kernel, by decide +kernel, by decide +kernel, by unfold WordsReady; decide +kernel, by decide +kernel⟩,
    ⟨by decide +kernel, by decide +kernel, by decide +kernel, by decide +kernel, by unfold WordsReady; decide +kernel, by decide +kernel⟩⟩

/-- The hypotheses of Obligations.VectorIssue are met: one bracket for each clause. -/
theorem test_witness_VectorIssue_2 :
    (guardRow vm = some (TwigId.bough (0 : BoughId), (0 : PReg), 3) ∧ vecOf vm = some (VOp.mul, 0, fv (19 : BitVec 5), (0 : PReg)) ∧ wit5.twigReady (TwigId.bough (0 : BoughId)) = true ∧ (wit5.bough (0 : BoughId)).twig.block = some blkE ∧ blkE.bad = false ∧ (wit5.bough (0 : BoughId)).twig.rep = none ∧ WordsReady wit5 (TwigId.bough (0 : BoughId)) 3 ∧ blkE.members.length + 1 = blkE.n ∧ decodeAll (List.filterMap (fun j => Option.map (fun x => (x.1, x.2.1, x.2.2.1)) (vecOf j)) (blkE.members ++ [vm])) = some wit6 ∧ (wit5.bough (0 : BoughId)).vfault = none ∧ (wit5.bough (0 : BoughId)).saved = none ∧ (wit5.bough (0 : BoughId)).issued = [] ∧ wit6.any (wit5.vecIllegal (0 : BoughId)) = false ∧ blockIllegal wit6 = false ∧ blockGenerators wit6 ≤ 4 ∧ blockLength (wit5.bough (0 : BoughId)).twig.vl wit6 = false ∧ wit6.length ≤ 8) ∧
    (WaitsAt wit7 b0 va ∧ (vecOf va).isSome = true) ∧
    (TwigGo wit8 (TwigId.bough (0 : BoughId)) (0 : PReg) 2 [(2 : GReg)] ∧ Plain wit8 (TwigId.bough (0 : BoughId)) ∧ (wit8.bough (0 : BoughId)).vlPending = false ∧ ETy.ofCode (BitVec.toNat (0 : BitVec 4)) = some ETy.u8) ∧
    (TwigGo wit8 (TwigId.bough (0 : BoughId)) (0 : PReg) 2 [(2 : GReg)] ∧ Plain wit8 (TwigId.bough (0 : BoughId)) ∧ (wit8.bough (0 : BoughId)).vlPending = false ∧ ETy.ofCode (BitVec.toNat (11 : BitVec 4)) = some ETy.fp64) ∧
    ((Instr.vwait b0 (0 : PReg) = Instr.vwait (TwigId.bough (0 : BoughId)) (0 : PReg) ∨ Instr.vwait b0 (0 : PReg) = Instr.fence (TwigId.bough (0 : BoughId)) (0 : PReg)) ∧ TwigGo wit3 (TwigId.bough (0 : BoughId)) (0 : PReg) 1 [] ∧ Plain wit3 (TwigId.bough (0 : BoughId)) ∧ (wit3.bough (0 : BoughId)).issued = [] ∧ (wit3.bough (0 : BoughId)).twig.stores = []) ∧
    ((Instr.fence b0 (0 : PReg) = Instr.vwait (TwigId.bough (0 : BoughId)) (0 : PReg) ∨ Instr.fence b0 (0 : PReg) = Instr.fence (TwigId.bough (0 : BoughId)) (0 : PReg)) ∧ TwigGo wit9 (TwigId.bough (0 : BoughId)) (0 : PReg) 1 [] ∧ Plain wit9 (TwigId.bough (0 : BoughId)) ∧ (wit9.bough (0 : BoughId)).issued ≠ []) :=
  ⟨⟨by decide +kernel, by decide +kernel, by decide +kernel, by decide +kernel, by decide +kernel, by decide +kernel, by unfold WordsReady; decide +kernel, by decide +kernel⟩,
    ⟨by unfold WaitsAt; decide +kernel, by decide +kernel⟩,
    ⟨twigGo_of (by decide +kernel), by unfold Plain; decide +kernel, by decide +kernel⟩,
    ⟨twigGo_of (by decide +kernel), by unfold Plain; decide +kernel, by decide +kernel⟩,
    ⟨by decide +kernel, twigGo_of (by decide +kernel), by unfold Plain; decide +kernel, by decide +kernel⟩,
    ⟨by decide +kernel, twigGo_of (by decide +kernel), by unfold Plain; decide +kernel, by decide +kernel⟩⟩

/-- The hypotheses of Obligations.VectorIssue are met: one bracket for each clause. -/
theorem test_witness_VectorIssue_3 :
    (TwigGo wit10 (TwigId.bough (0 : BoughId)) (0 : PReg) 1 [] ∧ Plain wit10 (TwigId.bough (0 : BoughId)) ∧ (wit10.bough (0 : BoughId)).issued = [] ∧ (wit10.bough (0 : BoughId)).twig.stores ≠ []) :=
  ⟨twigGo_of (by decide +kernel), by unfold Plain; decide +kernel, by decide +kernel⟩

end W8

namespace W9

def frozen : State := a1.modBough 0 fun y => { y with freeze := true }
def front : QEntry := ((a1.bough 0).iq.head?).get (by decide +kernel)
def slotA : Slot := ((a2.half 0 0).slots[0]?).get (by decide +kernel)
def slotB : Slot := ((a2.half 0 0).slots[1]?).get (by decide +kernel)
def slotD : Slot := ((a2.half 0 0).slots[2]?).get (by decide +kernel)
def a2k : State := a2.modBough 0 fun y => { y with ocache := [(0, some 0)] }
def twoHeld : State := a3
def resp1 : Chunk := (((a5.bough 0).resps.head?).get (by decide +kernel)).2
def tg1 : ReTag := ⟨4, ⟨0, 0, false⟩, false, true⟩
def tg2 : ReTag := ⟨5, ⟨0, 0, false⟩, false, false⟩

/-- The hypotheses of Obligations.Streaming are met: one bracket for each clause. -/
theorem test_witness_Streaming :
    ((frozen.bough (0 : BoughId)).freeze = true ∨ frozen.sys.mode ≠ Mode.run) ∧
    (((let __src := bs;           State.mk __src.pending __src.mem __src.boughs __src.groves __src.queues __src.links __src.plots __src.slices __src.hbm __src.scr __src.cnp __src.filters __src.seqQ __src.heldReads __src.heldWrites __src.txns __src.grn __src.ring __src.hwd __src.ports __src.vfs __src.grafts __src.pwr             (let __src := bs.sys;             Sys.mk Mode.drain __src.toService __src.qcause __src.qnotes __src.kind __src.channel __src.count __src.bootStep __src.bootUs __src.loadUs __src.bootStart __src.fwCopy __src.fwFallback __src.fw __src.fwPref __src.fwFloor __src.fwRan __src.drainFor __src.internalReset __src.resetN __src.trip __src.pwrFail __src.aonGood __src.restoreDue __src.bootId __src.postDue)             __src.crn __src.rootLinear __src.refresh2x __src.scrubHours __src.linearInForce __src.sweepEn __src.repairEn __src.paceUs __src.scrSel __src.crownEvts __src.outbox __src.nextId __src.fresh __src.turn).bough         (0 : BoughId)).freeze =     true ∨   (let __src := bs;         State.mk __src.pending __src.mem __src.boughs __src.groves __src.queues __src.links __src.plots __src.slices __src.hbm __src.scr __src.cnp __src.filters __src.seqQ __src.heldReads __src.heldWrites __src.txns __src.grn __src.ring __src.hwd __src.ports __src.vfs __src.grafts __src.pwr           (let __src := bs.sys;           Sys.mk Mode.drain __src.toService __src.qcause __src.qnotes __src.kind __src.channel __src.count __src.bootStep __src.bootUs __src.loadUs __src.bootStart __src.fwCopy __src.fwFallback __src.fw __src.fwPref __src.fwFloor __src.fwRan __src.drainFor __src.internalReset __src.resetN __src.trip __src.pwrFail __src.aonGood __src.restoreDue __src.bootId __src.postDue)           __src.crn __src.rootLinear __src.refresh2x __src.scrubHours __src.linearInForce __src.sweepEn __src.repairEn __src.paceUs __src.scrSel __src.crownEvts __src.outbox __src.nextId __src.fresh __src.turn).sys.mode ≠     Mode.run) ∧
    ((a1.bough (0 : BoughId)).iq = [front] ∧ a1.sys.mode = Mode.run ∧ (a1.bough (0 : BoughId)).freeze = false ∧ (a1.bough (0 : BoughId)).resetting = false ∧ (a1.bough (0 : BoughId)).saved = none ∧ (a1.bough (0 : BoughId)).vfault = none ∧ (a1.bough (0 : BoughId)).twig.run ≠ TwigRun.halted ∧ (∀ x ∈ (a1.bough (0 : BoughId)).fillingRuns, a1.generatorsDone (0 : BoughId) x = true) ∧ (a1.bough (0 : BoughId)).freeHalf = some (0 : Fin 2) ∧ a1.runLinks (0 : BoughId) (List.take front.blockLen (a1.bough (0 : BoughId)).iq) = [] ∧ a1.queueShort (0 : BoughId) (List.map (fun x => x.run) (a1.bough (0 : BoughId)).runs) (List.take front.blockLen (a1.bough (0 : BoughId)).iq) = false) ∧
    ((a2.half (0 : BoughId) (0 : Fin 2)).st = HalfSt.filling ∧ (a2.half (0 : BoughId) (0 : Fin 2)).slots[0]? = some slotA ∧ (a2.env (0 : BoughId) (a2.half (0 : BoughId) (0 : Fin 2))).slotNext slotA = some (some (0, 256)) ∧ slotA.desc.inMem = true ∧ (a2.env (0 : BoughId) (a2.half (0 : BoughId) (0 : Fin 2))).requestHeld slotA 256 (if slotA.desc.isIndex = true then 32 else 64) = false ∧ (a2.bough (0 : BoughId)).absorbing = false ∧ (a2.bough (0 : BoughId)).lookup = none ∧ a2.canopyTags (0 : BoughId) < 256 ∧ placeOf 256 = Place.root 0 ∧ (a2.bough (0 : BoughId)).knowsRegion 0 = false) ∧
    ((a2k.half (0 : BoughId) (0 : Fin 2)).st = HalfSt.filling ∧ (a2k.half (0 : BoughId) (0 : Fin 2)).slots[0]? = some slotA ∧ (a2k.env (0 : BoughId) (a2k.half (0 : BoughId) (0 : Fin 2))).slotNext slotA = some (some (0, 256)) ∧ slotA.desc.inMem = true ∧ (a2k.env (0 : BoughId) (a2k.half (0 : BoughId) (0 : Fin 2))).requestHeld slotA 256 (if slotA.desc.isIndex = true then 32 else 64) = false ∧ (a2k.bough (0 : BoughId)).absorbing = false ∧ (a2k.bough (0 : BoughId)).lookup = none ∧ a2k.canopyTags (0 : BoughId) < 256 ∧ (∀ (r : ℕ), placeOf 256 = Place.root r → (a2k.bough (0 : BoughId)).knowsRegion r = true) ∧ (¬(slotA.key.opnd = 3 ∧ slotA.key.index = false))) ∧
    ((a2.half (0 : BoughId) (0 : Fin 2)).st = HalfSt.filling ∧ (a2.half (0 : BoughId) (0 : Fin 2)).slots[1]? = some slotB ∧ (a2.env (0 : BoughId) (a2.half (0 : BoughId) (0 : Fin 2))).slotNext slotB = some (some (0, sc + 256)) ∧ slotB.desc.inMem = true ∧ (a2.env (0 : BoughId) (a2.half (0 : BoughId) (0 : Fin 2))).requestHeld slotB (sc + 256) (if slotB.desc.isIndex = true then 32 else 64) = false ∧ (a2.bough (0 : BoughId)).absorbing = false ∧ (a2.bough (0 : BoughId)).lookup = none ∧ a2.canopyTags (0 : BoughId) < 256 ∧ (∀ (r : ℕ), placeOf (sc + 256) = Place.root r → (a2.bough (0 : BoughId)).knowsRegion r = true) ∧ (¬(slotB.key.opnd = 3 ∧ slotB.key.index = false))) :=
  ⟨by decide +kernel,
    by decide +kernel,
    by decide +kernel,
    by decide +kernel,
    ⟨by decide +kernel, by decide +kernel, by decide +kernel, by decide +kernel, by decide +kernel, by decide +kernel, by decide +kernel, by decide +kernel, knows_of (by decide +kernel), by decide +kernel⟩,
    ⟨by decide +kernel, by decide +kernel, by decide +kernel, by decide +kernel, by decide +kernel, by decide +kernel, by decide +kernel, by decide +kernel, knows_of (by decide +kernel), by decide +kernel⟩⟩

/-- The hypotheses of Obligations.Streaming are met: one bracket for each clause. -/
theorem test_witness_Streaming_2 :
    ((a2.half (0 : BoughId) (0 : Fin 2)).st = HalfSt.filling ∧ (a2.half (0 : BoughId) (0 : Fin 2)).slots[2]? = some slotD ∧ (a2.env (0 : BoughId) (a2.half (0 : BoughId) (0 : Fin 2))).slotNext slotD = some (some (0, sc + 512)) ∧ slotD.desc.inMem = true ∧ (a2.env (0 : BoughId) (a2.half (0 : BoughId) (0 : Fin 2))).requestHeld slotD (sc + 512) (if slotD.desc.isIndex = true then 32 else 64) = false ∧ (a2.bough (0 : BoughId)).absorbing = false ∧ (a2.bough (0 : BoughId)).lookup = none ∧ a2.canopyTags (0 : BoughId) < 256 ∧ (∀ (r : ℕ), placeOf (sc + 512) = Place.root r → (a2.bough (0 : BoughId)).knowsRegion r = true) ∧ slotD.key.opnd = 3 ∧ slotD.key.index = false ∧ a2.checkOwner (a2.reqPlot (0 : BoughId)) (sc + 512) = none) ∧
    ((a3.bough (0 : BoughId)).lookup = some 0) ∧
    (List.find? (fun r => decide (r.1 = 1)) (a5.bough (0 : BoughId)).resps = some (1, resp1)) ∧
    ([tg1, tg2].Nodup ∧ [tg1, tg2][0]? = some tg1) :=
  ⟨⟨by decide +kernel, by decide +kernel, by decide +kernel, by decide +kernel, by decide +kernel, by decide +kernel, by decide +kernel, by decide +kernel, knows_of (by decide +kernel), by decide +kernel⟩,
    by decide +kernel,
    by decide +kernel,
    by decide +kernel⟩

/-- The hypotheses of Obligations.CommitArming are met: one bracket for each clause. -/
theorem test_witness_CommitArming :
    ((a6.half (0 : BoughId) (0 : Fin 2)).st = HalfSt.filling ∧ (a6.bough (0 : BoughId)).isOldest (0 : Fin 2) = true ∧ (a6.bough (0 : BoughId)).halves[otherHalf (0 : Fin 2)].st ≠ HalfSt.draining ∧ firstStop (a6.evalRun (0 : BoughId) (0 : Fin 2)) = none ∧ (a6.half (0 : BoughId) (0 : Fin 2)).recvs = [] ∧ (a6.half (0 : BoughId) (0 : Fin 2)).broke = none) ∧
    ((r1.half (0 : BoughId) (0 : Fin 2)).st = HalfSt.filling ∧ (r1.bough (0 : BoughId)).isOldest (0 : Fin 2) = true ∧ (r1.bough (0 : BoughId)).halves[otherHalf (0 : Fin 2)].st ≠ HalfSt.draining ∧ firstStop (r1.evalRun (0 : BoughId) (0 : Fin 2)) = none ∧ (r1.half (0 : BoughId) (0 : Fin 2)).recvs = [] ∧ (r1.half (0 : BoughId) (0 : Fin 2)).broke = none) :=
  ⟨by decide +kernel,
    by decide +kernel⟩

end W9

namespace W10

def arm : ArmReq := (r2.seqQ.head?).get (by decide +kernel)
def sl0 : Target := .slice 0
def ent3 : FEntry := (r3.filters.head?).get (by decide +kernel)
def ent7 : FEntry := (a7.filters.head?).get (by decide +kernel)
def many : State := { a7 with filters := List.replicate 16 ((a8.filters.head?).get (by decide +kernel)) ++ a7.filters }
def res8 : RunResult := ((a8.half 0 0).result).get (by decide +kernel)
def wr8 : List (ℕ × Byte) := res8.writes.head!
def resR : RunResult := ((r4.half 0 0).result).get (by decide +kernel)
def wrR : List (ℕ × Byte) := resR.writes.head!
def a10 : State := run [.drainWriteAccept 0 0] a9
def rel : FEntry := (a10.filters.head?).get (by decide +kernel)
def olde : FEntry := { owner := .txn 5, tgt := .slice 0, lo := 8, hi := 8, ord := 0, installed := true, released := false, left := none }
def older : State := { r5 with filters := olde :: r5.filters }
def r6 : State := run [.drainWriteAccept 0 0] r5
def older9 : State := { r6 with filters := { olde with hi := 9 } :: r6.filters }
def bu (m : Bool) (a : Nat) : Burst := { txn := 7, who := .twig b0 3, plot := some 0, slice := 0, bytes := atAddr a [1,2,3], bad := [], mark := m }
def fullStage : State := r5.modSlice 0 fun x => { x with staging := List.replicate 32 (bu false 0x100) }
def rq (a : Nat) : ReadReq := { tag := 9, who := .stream 0 1 ⟨0,0,false⟩, addr := a, len := 64 }
def h1 : State := r4.modSlice 0 fun x => { x with inbox := [.read (rq 0x200)] }
def h2 : State := a8.modScr 0 fun x => { x with inbox := [rq (sc + 0x200)] }
def h5 : State := r5.modSlice 0 fun x => { x with inbox := [.read (rq 0x240)] }
def h3 : State := run [.filterHitDemand (.slice 0) 0] h1
def h4 : State := run [.commitInstant 0] h3
def hr3 : HeldRead := ((h3.heldAt sl0).head?).get (by decide +kernel)
def f1 : State := run [.vadd b0 0 (fld 2 1 1 0), .vectorDispatch 0] (vs 32 fun y => { y with sd := vset y.sd 1 (sd (sc+0xff0) 6 sc (sc+0x1000)) })
def f2 : State := run [.streamRequest 0 0 0, .streamRequest 0 0 1, .streamRequest 0 0 0, .streamRequest 0 0 1, .readResponseArrival 0 0, .readResponseArrival 0 1, .streamRequest 0 0 2] f1

/-- The hypotheses of Obligations.CommitArming are met: one bracket for each clause. -/
theorem test_witness_CommitArming_2 :
    (r2.seqQ[0]? = some arm) ∧
    (r3.filters = [] ++ ent3 :: r3.filters.tail ∧ (∀ x ∈ ([] : List FEntry), ¬(x.tgt = sl0 ∧ x.installed = false)) ∧ ent3.tgt = sl0 ∧ ent3.installed = false ∧ ent3.owner = FOwner.half (0 : BoughId) (0 : Fin 2) ∧ (∀ (d : BoughId), sl0 = Target.scratch d → r3.filterCount sl0 < 16)) ∧
    (a7.filters = [] ++ [ent7] ∧ (∀ x ∈ ([] : List FEntry), ¬(x.tgt = Target.scratch (0 : BoughId) ∧ x.installed = false)) ∧ ent7.tgt = Target.scratch (0 : BoughId) ∧ ent7.installed = false ∧ ent7.owner = FOwner.half (0 : BoughId) (0 : Fin 2) ∧ (∀ (d : BoughId), Target.scratch (0 : BoughId) = Target.scratch d → a7.filterCount (Target.scratch (0 : BoughId)) < 16)) ∧
    (16 ≤ many.filterCount (Target.scratch (0 : BoughId))) :=
  ⟨by decide +kernel,
    by decide +kernel,
    by decide +kernel,
    by decide +kernel⟩

/-- The hypotheses of Obligations.CommitIsAtomic are met: one bracket for each clause. -/
theorem test_witness_CommitIsAtomic :
    (List.find? (fun k => (a8.half (0 : BoughId) k).st == HalfSt.arming) [(0 : Fin 2), (1 : Fin 2)] = some (0 : Fin 2) ∧ (a8.half (0 : BoughId) (0 : Fin 2)).result = some res8 ∧ res8.writes = [wr8] ∧ res8.qreads = [] ∧ res8.qapps = [] ∧ (a8.half (0 : BoughId) (0 : Fin 2)).sends = [] ∧ (a8.seqQ.any fun q => q.owner == FOwner.half (0 : BoughId) (0 : Fin 2)) = false ∧ (a8.filters.any fun e => e.owner == FOwner.half (0 : BoughId) (0 : Fin 2) && !e.installed) = false ∧ youngerOwners (FOwner.half (0 : BoughId) (0 : Fin 2)) a8.filters = [] ∧ (List.map (fun c => c.1) wr8).Nodup ∧ wr8 ≠ [] ∧ (∀ c ∈ wr8, c.1 / 64 ∉ a8.mem.dead)) ∧
    (List.find? (fun k => (r4.half (0 : BoughId) k).st == HalfSt.arming) [(0 : Fin 2), (1 : Fin 2)] = some (0 : Fin 2) ∧ (r4.half (0 : BoughId) (0 : Fin 2)).result = some resR ∧ resR.writes = [wrR] ∧ resR.qreads = [] ∧ resR.qapps = [] ∧ (r4.half (0 : BoughId) (0 : Fin 2)).sends = [] ∧ (r4.seqQ.any fun q => q.owner == FOwner.half (0 : BoughId) (0 : Fin 2)) = false ∧ (r4.filters.any fun e => e.owner == FOwner.half (0 : BoughId) (0 : Fin 2) && !e.installed) = false ∧ youngerOwners (FOwner.half (0 : BoughId) (0 : Fin 2)) r4.filters = [] ∧ (List.map (fun c => c.1) wrR).Nodup ∧ wrR ≠ [] ∧ (∀ c ∈ wrR, c.1 / 64 ∉ r4.mem.dead)) :=
  ⟨by decide +kernel,
    by decide +kernel⟩

/-- The hypotheses of Obligations.DrainAndRelease are met: one bracket for each clause. -/
theorem test_witness_DrainAndRelease :
    ((r5.half (0 : BoughId) (0 : Fin 2)).st = HalfSt.draining ∧ r5.filterTarget (64 * 8) = some sl0 ∧ (r5.half (0 : BoughId) (0 : Fin 2)).drain = [8, 9] ∧ (olderBlocks (FOwner.half (0 : BoughId) (0 : Fin 2)) sl0 8 r5.filters = false ∧ ∀ (k : SliceId), sl0 = Target.slice k → r5.stageFull k (64 * 8) = false)) ∧
    ((older.half (0 : BoughId) (0 : Fin 2)).st = HalfSt.draining ∧ older.filterTarget (64 * 9) = some sl0 ∧ (older.half (0 : BoughId) (0 : Fin 2)).drain = [8, 9] ∧ older.filterTarget (64 * 8) = some sl0 ∧ olderBlocks (FOwner.half (0 : BoughId) (0 : Fin 2)) sl0 8 older.filters = true ∧ (olderBlocks (FOwner.half (0 : BoughId) (0 : Fin 2)) sl0 9 older.filters = false ∧ ∀ (k : SliceId), sl0 = Target.slice k → older.stageFull k (64 * 9) = false)) ∧
    ((a9.half (0 : BoughId) (0 : Fin 2)).st = HalfSt.draining ∧ a9.filterTarget (64 * 17179869192) = some (Target.scratch (0 : BoughId)) ∧ (a9.half (0 : BoughId) (0 : Fin 2)).drain = [17179869192] ∧ ((a9.half (0 : BoughId) (0 : Fin 2)).sends.all fun y => y.taken) = true ∧ (olderBlocks (FOwner.half (0 : BoughId) (0 : Fin 2)) (Target.scratch (0 : BoughId)) 17179869192 a9.filters = false ∧ ∀ (k : SliceId), Target.scratch (0 : BoughId) = Target.slice k → a9.stageFull k (64 * 17179869192) = false)) ∧
    ((older9.half (0 : BoughId) (0 : Fin 2)).st = HalfSt.draining ∧ older9.filterTarget (64 * 9) = some sl0 ∧ (older9.half (0 : BoughId) (0 : Fin 2)).drain = [9] ∧ olderBlocks (FOwner.half (0 : BoughId) (0 : Fin 2)) sl0 9 older9.filters = true) ∧
    ((fullStage.half (0 : BoughId) (0 : Fin 2)).st = HalfSt.draining ∧ fullStage.filterTarget (64 * 8) = some sl0 ∧ (fullStage.half (0 : BoughId) (0 : Fin 2)).drain.head? = some 8 ∧ sl0 = Target.slice (0 : SliceId) ∧ fullStage.stageFull (0 : SliceId) (64 * 8) = true ∧ olderBlocks (FOwner.half (0 : BoughId) (0 : Fin 2)) sl0 8 fullStage.filters = false) ∧
    (a10.filters = [] ++ [rel] ∧ (∀ x ∈ ([] : List FEntry), ¬(x.tgt = Target.scratch (0 : BoughId) ∧ x.released = true)) ∧ rel.tgt = Target.scratch (0 : BoughId) ∧ rel.released = true) :=
  ⟨by decide +kernel,
    by decide +kernel,
    by decide +kernel,
    by decide +kernel,
    by decide +kernel,
    by decide +kernel⟩

/-- The hypotheses of Obligations.DrainAndRelease are met: one bracket for each clause. -/
theorem test_witness_DrainAndRelease_2 :
    (h1.entryCovers sl0 (rq 512).addr = true ∧ (h1.heldAt sl0).length < targetPlaces sl0 ∧ sl0 = Target.slice (0 : SliceId) ∧ h1.slices[(0 : SliceId)].inbox = [SliceMsg.read (rq 512)]) ∧
    (h5.entryCovers sl0 (rq 576).addr = true ∧ (h5.heldAt sl0).length < targetPlaces sl0 ∧ sl0 = Target.slice (0 : SliceId) ∧ h5.slices[(0 : SliceId)].inbox = [SliceMsg.read (rq 576)]) ∧
    (h2.entryCovers (Target.scratch (0 : BoughId)) (rq (sc + 512)).addr = true ∧ (h2.heldAt (Target.scratch (0 : BoughId))).length < targetPlaces (Target.scratch (0 : BoughId)) ∧ Target.scratch (0 : BoughId) = Target.scratch (0 : BoughId) ∧ h2.scr[(0 : BoughId)].inbox[0]? = some (rq (sc + 512)) ∧ h2.scratchInOrder (0 : BoughId) (rq (sc + 512)) = true) ∧
    ((h3.heldAt sl0)[0]? = some hr3 ∧ h3.entriesServe sl0 hr3.req.addr = false) ∧
    ((h4.heldAt (Target.slice (0 : SliceId)))[0]? = some (HeldRead.mk (Target.slice (0 : SliceId)) (ReadReq.mk 9 (Requester.stream (0 : BoughId) (1 : Fin 2) (SlotKey.mk 0 0 false)) 512 64) h3.nextId.pred) ∧ h4.entriesServe (Target.slice (0 : SliceId)) 512 = true ∧ h4.writeHeldAt (Target.slice (0 : SliceId)) 512 h3.nextId.pred = false) :=
  ⟨by decide +kernel,
    by decide +kernel,
    by decide +kernel,
    by decide +kernel,
    by decide +kernel⟩

/-- The hypotheses of Obligations.VectorFaultStops are met: one bracket for each clause. -/
theorem test_witness_VectorFaultStops :
    ((f2.half (0 : BoughId) (0 : Fin 2)).st = HalfSt.filling ∧ (f2.bough (0 : BoughId)).isOldest (0 : Fin 2) = true ∧ (f2.bough (0 : BoughId)).halves[otherHalf (0 : Fin 2)].st ≠ HalfSt.filling ∧ firstStop (f2.evalRun (0 : BoughId) (0 : Fin 2)) = some (4, Elem.fault 1 Cause.access (BitVec.ofNat 64 (sc + 4096))) ∧ (BitVec.ofNat 64 (sc + 4096)).getLsbD 63 = false ∧ (f2.half (0 : BoughId) (0 : Fin 2)).sends = [] ∧ (f2.half (0 : BoughId) (0 : Fin 2)).recvs = [] ∧ (f2.half (0 : BoughId) (0 : Fin 2)).broke = none) :=
  by decide +kernel

end W10

namespace W11

def rq (a : Nat) : ReadReq := { tag := 9, who := .stream 0 1 ⟨0,0,false⟩, addr := a, len := 64 }
def a4b : State := run [.sliceAcceptRequest 0] a4
def rq4 : ReadReq := match a4.slices[(0 : SliceId)].inbox with | .read r :: _ => r | _ => rq 0
def q0 : QRead := (a4b.slices[(0 : SliceId)].queue[0]?).get (by decide +kernel)
def qr (a : Nat) : QRead := { req := rq a, data := [], poison := [] }
def full16 : State := a4.modSlice 0 fun x => { x with queue := List.replicate 16 (qr 0x100) }
def twoQ : State := a4.modSlice 0 fun x => { x with queue := [qr 0x100, qr 0x100] }
def hid : State := r4.modSlice 0 fun x => { x with inbox := [.read (rq 0x200)] }
def bu (m : Bool) (a : Nat) : Burst := { txn := 7, who := .twig b0 3, plot := some 0, slice := 0, bytes := atAddr a [1,2,3], bad := [], mark := m }
def ws (m : Bool) (a : Nat) (s : State := bs) : State := s.modSlice 0 fun x => { x with inbox := [.beat (bu m a)] }
def wrt : State := bs.modSlice 0 fun x => { x with writing := [bu true 0x100] }
def beatHeld : State := ws false 0x201 r4
def beat : State := ws false 0x101
def beatMark : State := ws true 0x10f
def noPlace : State := beat.modSlice 0 fun x => { x with staging := List.replicate 32 (bu false 0x200) }
def hw : HeldWrite := { tgt := .slice 0, burst := bu false 0x101, ord := 0 }
def heldW : State := { bs with heldWrites := [hw] }
def st2 : State := { bs with hbm := vmod bs.hbm 0 fun x => { x with state := 2 } }
def busy : State := st2.modSlice 0 fun x => { x with queue := [qr 0x100] }
def scm : State := { st2 with hbm := vmod st2.hbm 0 fun x => { x with scrubNext := 4 }, mem := { st2.mem with marks := [(32, .single), (33, .fresh), (34, .stored)], cells := [(0x100, 4)] } }

/-- The hypotheses of Obligations.RootSlices are met: one bracket for each clause. -/
theorem test_witness_RootSlices :
    (a4.slices[(0 : SliceId)].inbox = [SliceMsg.read rq4] ∧ a4.entryCovers (Target.slice (0 : SliceId)) rq4.addr = false ∧ a4.writeHeldAt (Target.slice (0 : SliceId)) rq4.addr a4.nextId = false ∧ a4.queuedAt (0 : SliceId) < 256 ∧ a4.waitingAt (0 : SliceId) rq4.addr < 16) ∧
    (full16.slices[(0 : SliceId)].inbox = [SliceMsg.read rq4] ∧ full16.entryCovers (Target.slice (0 : SliceId)) rq4.addr = false ∧ full16.writeHeldAt (Target.slice (0 : SliceId)) rq4.addr full16.nextId = false ∧ full16.queuedAt (0 : SliceId) < 256 ∧ 16 ≤ full16.waitingAt (0 : SliceId) rq4.addr) ∧
    (hid.slices[(0 : SliceId)].inbox = [SliceMsg.read (rq 512)] ∧ (hid.entryCovers (Target.slice (0 : SliceId)) (rq 512).addr = true ∨ hid.writeHeldAt (Target.slice (0 : SliceId)) (rq 512).addr hid.nextId = true ∨ 256 ≤ hid.queuedAt (0 : SliceId))) ∧
    (a4b.slices[(0 : SliceId)].queue[0]? = some q0 ∧ (∀ p ∈ List.take 0 a4b.slices[(0 : SliceId)].queue, p.req.addr / 64 ≠ q0.req.addr / 64)) ∧
    (twoQ.slices[(0 : SliceId)].queue[1]? = some (qr 256) ∧ (∃ p ∈ List.take 1 twoQ.slices[(0 : SliceId)].queue, p.req.addr / 64 = (qr 256).req.addr / 64)) ∧
    (wrt.slices[(0 : SliceId)].queue.length ≤ 0) :=
  ⟨by decide +kernel,
    by decide +kernel,
    by decide +kernel,
    by decide +kernel,
    ⟨by decide +kernel, ⟨qr 0x100, by decide +kernel, by decide +kernel⟩⟩,
    by decide +kernel⟩

/-- The hypotheses of Obligations.RootSlices are met: one bracket for each clause. -/
theorem test_witness_RootSlices_2 :
    (beatHeld.slices[(0 : SliceId)].inbox = [SliceMsg.beat (bu false 513)] ∧ (bu false 513).slice = (0 : SliceId) ∧ beatHeld.heldOf (0 : SliceId) = [] ∧ (beatHeld.burstHeld (bu false 513) = true ∨ beatHeld.behindHeld (bu false 513) beatHeld.nextId = true)) ∧
    (noPlace.slices[(0 : SliceId)].inbox = [SliceMsg.beat (bu false 257)] ∧ (bu false 257).slice = (0 : SliceId) ∧ noPlace.heldOf (0 : SliceId) = [] ∧ (¬(noPlace.burstHeld (bu false 257) = true ∨ noPlace.behindHeld (bu false 257) noPlace.nextId = true)) ∧ noPlace.noRoom (bu false 257) = true) ∧
    (beat.slices[(0 : SliceId)].inbox = [SliceMsg.beat (bu false 257)] ∧ (bu false 257).slice = (0 : SliceId) ∧ beat.heldOf (0 : SliceId) = [] ∧ (¬(beat.burstHeld (bu false 257) = true ∨ beat.behindHeld (bu false 257) beat.nextId = true)) ∧ beat.noRoom (bu false 257) = false ∧ (bu false 257).mark = false) ∧
    (beatMark.slices[(0 : SliceId)].inbox = [SliceMsg.beat (bu true 271)] ∧ (bu true 271).slice = (0 : SliceId) ∧ beatMark.heldOf (0 : SliceId) = [] ∧ (¬(beatMark.burstHeld (bu true 271) = true ∨ beatMark.behindHeld (bu true 271) beatMark.nextId = true)) ∧ beatMark.noRoom (bu true 271) = false ∧ (bu true 271).mark = true) ∧
    (heldW.heldWrites = [] ++ [hw] ∧ (∀ y ∈ ([] : List HeldWrite), y.tgt ≠ Target.slice (0 : SliceId)) ∧ hw.tgt = Target.slice (0 : SliceId) ∧ hw.burst.slice = (0 : SliceId) ∧ hw.burst.mark = false ∧ hw.burst.bad = [] ∧ heldW.burstHeld hw.burst = false ∧ heldW.behindHeld hw.burst hw.ord = false ∧ heldW.noRoom hw.burst = false) :=
  ⟨by decide +kernel,
    by decide +kernel,
    by decide +kernel,
    by decide +kernel,
    by decide +kernel⟩

/-- The hypotheses of Obligations.StackMaintenance are met: one bracket for each clause. -/
theorem test_witness_StackMaintenance :
    (st2.hbm[sliceStack (0 : SliceId)].state = (2 : BitVec 3) ∧ 7 ≤ 8 ∧ (st2.sys.mode = Mode.run ∨ st2.sys.mode = Mode.drain) ∧ (st2.waitingFor (0 : SliceId) ↑(0 : Fin 4) ↑(0 : Fin 16) = 0 ∨ 7 = 8)) ∧
    (busy.hbm[sliceStack (0 : SliceId)].state = (2 : BitVec 3) ∧ 8 ≤ 8 ∧ (busy.sys.mode = Mode.run ∨ busy.sys.mode = Mode.drain) ∧ (busy.waitingFor (0 : SliceId) ↑(0 : Fin 4) ↑(0 : Fin 16) = 0 ∨ 8 = 8)) ∧
    (st2.hbm[(0 : StackId)].state ≠ (0 : BitVec 3)) ∧
    (64 * 4 < rootSize ∧ scm.sliceOf (64 * 4) = (0 : SliceId) ∧ scm.hbm[sliceStack (0 : SliceId)].state = (2 : BitVec 3) ∧ scm.scrubHours ≠ (0 : BitVec 8) ∧ scm.hbm[sliceStack (0 : SliceId)].scrubAt (0 : SliceId) (scm.bankOf (64 * 4)) = true ∧ scm.waitingAt (0 : SliceId) (64 * 4) = 0) :=
  ⟨by decide +kernel,
    by decide +kernel,
    by decide +kernel,
    by decide +kernel⟩

end W11

namespace W13

def l0 : Link := Link.armed 0x10000 0x100000000 (some 0) 256
def chd (mode : Nat) : Desc := ⟨BitVec.ofNat 64 (6 * 2^48 + mode * 2^52), 0, 0, 0⟩
def c1 : State := run [.vadd b0 0 (fld 2 1 1 0), .vectorDispatch 0, .streamRequest 0 0 0, .streamRequest 0 0 1,.streamRequest 0 0 0, .streamRequest 0 0 1, .readResponseArrival 0 0, .readResponseArrival 0 1, .readResponseArrival 0 2, .readResponseArrival 0 3, .streamRequest 0 0 2] { vs 32 (fun y => { y with sd := vset y.sd 2 (chd 3) }) with links := [l0] }
def ct : Link := ((c1.refreshTx 0).links[0]?).get (by decide +kernel)
def ep0 : TxEpoch := (ct.tx.find? fun t => !t.ended).get (by decide +kernel)
def few : Link := { ct with credits := 7 }
def enough : Link := { ct with credits := 8 }
def cFew : State := { c1 with links := [few] }
def cEnough : State := { c1 with links := [enough] }
def c2 : State := run [.chainTransferSend 0, .chainTransferSend 0] c1
def lk (s : State) : Link := (s.links[0]?).getD l0
def dws (s : State) : List (Word × Bool) := match (lk s).wire with | .data _ _ ws :: _ => ws | _ => []
def c3 : State := run [.chainTransferArrive 0 0 0 []] c2
def c4 : State := run [.chainTransferArrive 0 0 8 []] c3
def wl (m : ChainMsg) (s : State := c4) : State := { s with links := [{ lk s with wire := [m], dead := [] }] }
def wit4 : State := wl (.fin 0 128)
def wit5 : State := wl (.commit 0)
def wit6 : State := wl (.abort 0)
def bl (m : ChainMsg) (s : State := c4) : State := { s with links := [{ lk s with back := [m] }] }
def wit7 : State := bl (.taken 0)
def wit8 : State := bl (.replay 0)
def oc : State := { c4 with links := [{ lk c4 with owed := 5, credits := 3 }] }
def bk : State := { bs with links := [{ lk c4 with owed := 5, credits := 3 }] }
def bk2 : State := { bs with links := [{ lk c4 with owed := 5, credits := 3, broken := true, code := 5, causes := 32 }] }
def br : State := run [.boughReset 0] a6
def wit9 : State := run [.boughReset 0] a3
def wit10 : State := bs.modBough 0 (fun y => { y with absorbing := true, twig := { y.twig with stores := [⟨1, 0x100, [0], false, false⟩] } })

/-- The hypotheses of Obligations.ChainTransfer are met: one bracket for each clause. -/
theorem test_witness_ChainTransfer :
    ((cEnough.refreshTx 0).links[0]? = some enough ∧ Safety.Inner enough ∧ cEnough.sendHeld enough = false ∧ List.find? (fun t => !t.ended) enough.tx = some ep0 ∧ List.take 8 (List.drop ep0.sent ep0.words) ≠ [] ∧ (List.take 8 (List.drop ep0.sent ep0.words)).length ≤ enough.credits) ∧
    ((cFew.refreshTx 0).links[0]? = some few ∧ Safety.Inner few ∧ cFew.sendHeld few = false ∧ List.find? (fun t => !t.ended) few.tx = some ep0 ∧ List.take 8 (List.drop ep0.sent ep0.words) ≠ [] ∧ few.credits < (List.take 8 (List.drop ep0.sent ep0.words)).length) ∧
    (c2.links[0]? = some (lk c2) ∧ Safety.Inner (lk c2) ∧ NoReceiver c2 (lk c2) ∧ (lk c2).past (0 : BitVec 16) = false ∧ (lk c2).sink = false ∧ (lk c2).wire = ChainMsg.data (0 : BitVec 16) 0 (dws c2) :: (lk c2).wire.tail ∧ 0 = (epochRec (lk c2) (0 : BitVec 16)).base + (epochRec (lk c2) (0 : BitVec 16)).words.length + (epochRec (lk c2) (0 : BitVec 16)).cut) ∧
    (c3.links[0]? = some (lk c3) ∧ Safety.Inner (lk c3) ∧ NoReceiver c3 (lk c3) ∧ (lk c3).past (0 : BitVec 16) = false ∧ (lk c3).sink = false ∧ (lk c3).wire = ChainMsg.data (0 : BitVec 16) 8 (dws c3) :: (lk c3).wire.tail ∧ 8 = (epochRec (lk c3) (0 : BitVec 16)).base + (epochRec (lk c3) (0 : BitVec 16)).words.length + (epochRec (lk c3) (0 : BitVec 16)).cut) ∧
    (wit4.links[0]? = some (lk wit4) ∧ Safety.Inner (lk wit4) ∧ NoReceiver wit4 (lk wit4) ∧ (lk wit4).past (0 : BitVec 16) = false ∧ (lk wit4).sink = false ∧ (lk wit4).wire = [ChainMsg.fin (0 : BitVec 16) 128]) ∧
    (wit5.links[0]? = some (lk wit5) ∧ Safety.Inner (lk wit5) ∧ NoReceiver wit5 (lk wit5) ∧ (lk wit5).past (0 : BitVec 16) = false ∧ (lk wit5).sink = false ∧ (lk wit5).wire = [ChainMsg.commit (0 : BitVec 16)]) :=
  ⟨⟨by decide +kernel, by unfold Safety.Inner; decide +kernel, by decide +kernel⟩,
    ⟨by decide +kernel, by unfold Safety.Inner; decide +kernel, by decide +kernel⟩,
    ⟨by decide +kernel, by unfold Safety.Inner; decide +kernel, by unfold NoReceiver; decide +kernel, by decide +kernel⟩,
    ⟨by decide +kernel, by unfold Safety.Inner; decide +kernel, by unfold NoReceiver; decide +kernel, by decide +kernel⟩,
    ⟨by decide +kernel, by unfold Safety.Inner; decide +kernel, by unfold NoReceiver; decide +kernel, by decide +kernel⟩,
    ⟨by decide +kernel, by unfold Safety.Inner; decide +kernel, by unfold NoReceiver; decide +kernel, by decide +kernel⟩⟩

/-- The hypotheses of Obligations.ChainTransfer are met: one bracket for each clause. -/
theorem test_witness_ChainTransfer_2 :
    (wit6.links[0]? = some (lk wit6) ∧ Safety.Inner (lk wit6) ∧ NoReceiver wit6 (lk wit6) ∧ (lk wit6).past (0 : BitVec 16) = false ∧ (lk wit6).sink = false ∧ (lk wit6).wire = [ChainMsg.abort (0 : BitVec 16)]) ∧
    (wit7.links[0]? = some (lk wit7) ∧ Safety.Inner (lk wit7) ∧ (lk wit7).back = [ChainMsg.taken (0 : BitVec 16)]) ∧
    (wit8.links[0]? = some (lk wit8) ∧ Safety.Inner (lk wit8) ∧ (lk wit8).back = [ChainMsg.replay (0 : BitVec 16)]) ∧
    (oc.links[0]? = some (lk oc) ∧ (lk oc).fromGraft = false ∧ (lk oc).toGraft = false) :=
  ⟨⟨by decide +kernel, by unfold Safety.Inner; decide +kernel, by unfold NoReceiver; decide +kernel, by decide +kernel⟩,
    ⟨by decide +kernel, by unfold Safety.Inner; decide +kernel, by decide +kernel⟩,
    ⟨by decide +kernel, by unfold Safety.Inner; decide +kernel, by decide +kernel⟩,
    by decide +kernel⟩

/-- The hypotheses of Obligations.BreakAndRearm are met: one bracket for each clause. -/
theorem test_witness_BreakAndRearm :
    (bk.links[0]? = some (lk bk) ∧ Safety.Inner (lk bk) ∧ (lk bk).buf = some 0 ∧ NoReceiver bk (lk bk) ∧ (∀ (h : Fin 2), (bk.half (boughId (lk bk).srcBough) h).st = HalfSt.free) ∧ 1 ≤ BitVec.toNat (6 : BitVec 4) ∧ BitVec.toNat (6 : BitVec 4) ≤ 6) ∧
    (bk2.links = [lk bk2] ∧ (lk bk2).fromGraft = false ∧ (lk bk2).toGraft = false ∧ (lk bk2).buf = some 0 ∧ (lk bk2).bufGrove = (0 : GroveId) ∧ (lk bk2).broken = true ∧ bk2.breakPersists (lk bk2) = false) :=
  ⟨⟨by decide +kernel, by unfold Safety.Inner; decide +kernel, by decide +kernel, by unfold NoReceiver; decide +kernel, by decide +kernel⟩,
    by decide +kernel⟩

/-- The hypotheses of Obligations.BoughControl are met: one bracket for each clause. -/
theorem test_witness_BoughControl :
    ((a6.bough (0 : BoughId)).resetting = false) ∧
    ((a3.bough (0 : BoughId)).resetting = false) ∧
    ((br.bough (0 : BoughId)).resetting = true ∧ br.boughClean (0 : BoughId) = true) ∧
    ((a6.bough (0 : BoughId)).resetting = false ∨ a6.boughClean (0 : BoughId) = false) ∧
    ((wit9.bough (0 : BoughId)).resetting = false ∨ wit9.boughClean (0 : BoughId) = false) ∧
    (wit10.masterClean (Master.bough (0 : BoughId)) = true ∧ (∀ (n : PortId), wit10.ports[n].held = [])) :=
  ⟨by decide +kernel,
    by decide +kernel,
    by decide +kernel,
    by decide +kernel,
    by decide +kernel,
    by decide +kernel⟩

/-- The hypotheses of Obligations.BoughControl are met: one bracket for each clause. -/
theorem test_witness_BoughControl_2 :
    (a3.masterClean (Master.bough (0 : BoughId)) = false ∧ (∀ (n : PortId), a3.ports[n].held = [])) :=
  by decide +kernel

end W13

namespace W14

def tl (off : Nat) (d : List Byte) (p : Bool := false) : Tlp := { fn := .pf 0, bar2 := true, off := off, data := d, poisoned := p, relaxed := false, damaged := false }
def tlA : Tlp := tl 0x105 [1,2,3]
def tlB : Tlp := tl 0xf0 (List.replicate 32 7)
def tlP : Tlp := tl 0x105 [1,2,3] true
def w1 : State := run [.hostWriteTlp 0 tlA] bs
def tk : SliceId := 0
def w2 : State := run [.writeBurstStage ⟨tk, 0⟩] w1
def txn (s : State) : WTxn := (s.txn? 0).getD ⟨0, .ledger, none, [], [], [], [], none, [], false, 0, 0, none, []⟩
def w3 : State := run [.staged 0 tk] w2
def bst : Burst := (w3.slices[tk].staging.head?).get (by decide +kernel)
def wd : State := { w3 with txns := w3.txns.map fun t => { t with decision := some false, ctl := [tk] } }
def w4 : State := run [.commit 0 tk] w3
def w5 : State := { w4 with txns := w4.txns.map fun t => { t with committed := [] } }
def sp0 : State := bs.modPort 0 fun p => { p with winBase := 1024 }
def x1 : State := run [.hostWriteTlp 0 tlA] sp0
def ent : FEntry := (x1.filters.head?).get (by decide +kernel)
def x2 := run [.filterInstall (.scratch 0)] x1
def y1 : State := run [.hostReadRequest 0 5 (.pf 0) true 0x104 8] w4
def y2 : State := run [.sliceAcceptRequest 0, .targetAccessComplete 0 ⟨0, 0, 0⟩] y1
def rr : HRead := (y2.ports[0].reads.head?).get (by decide +kernel)
def part : HPart := (rr.parts.head?).get (by decide +kernel)
def chunk : Chunk := part.data.get (by decide +kernel)

/-- The hypotheses of Obligations.HostWrites are met: one bracket for each clause. -/
theorem test_witness_HostWrites :
    (tlA.fn = HostFn.pf (0 : PortId) ∧ bs.takesTlp (HostFn.pf (0 : PortId)) = true ∧ bs.tlpWaits (HostFn.pf (0 : PortId)) (Instr.hostWriteTlp (0 : PortId) tlA) = false ∧ bs.writeWaits (0 : PortId) tlA = false ∧ tlA.wellFormed = true ∧ tlA.bar2 = true ∧ bs.ports[(0 : PortId)].pfWindow tlA.off = Bar2.mem 261 ∧ 261 + tlA.data.length ≤ rootSize ∧ tlA.poisoned = false) ∧
    (tlB.fn = HostFn.pf (0 : PortId) ∧ bs.takesTlp (HostFn.pf (0 : PortId)) = true ∧ bs.tlpWaits (HostFn.pf (0 : PortId)) (Instr.hostWriteTlp (0 : PortId) tlB) = false ∧ bs.writeWaits (0 : PortId) tlB = false ∧ tlB.wellFormed = true ∧ tlB.bar2 = true ∧ bs.ports[(0 : PortId)].pfWindow tlB.off = Bar2.mem 240 ∧ 240 + tlB.data.length ≤ rootSize ∧ tlB.poisoned = false) ∧
    (tlP.fn = HostFn.pf (0 : PortId) ∧ bs.takesTlp (HostFn.pf (0 : PortId)) = true ∧ bs.tlpWaits (HostFn.pf (0 : PortId)) (Instr.hostWriteTlp (0 : PortId) tlP) = false ∧ bs.writeWaits (0 : PortId) tlP = false ∧ tlP.wellFormed = true ∧ tlP.bar2 = true ∧ bs.ports[(0 : PortId)].pfWindow tlP.off = Bar2.mem 261 ∧ tlP.poisoned = true) ∧
    (w2.txn? 0 = some (txn w2) ∧ (txn w2).slices = [tk] ∧ (txn w2).okFrom = [] ∧ (txn w2).failFrom = [] ∧ (txn w2).decision = none ∧ w2.allStaged 0 tk = true ∧ (txn w2).id = 0 ∧ (∀ b ∈ w2.slices[tk].staging, b.txn = 0 → b.bad = [])) ∧
    (w3.txn? 0 = some (txn w3) ∧ (txn w3).id = 0 ∧ (txn w3).slices = [tk] ∧ (txn w3).decision = none ∧ w3.commitReady (txn w3) = true ∧ (∀ (w : TwigId) (st : ℕ), (txn w3).who ≠ Writer.twig w st) ∧ w3.sys.mode ≠ Mode.service ∧ youngerOwners (FOwner.txn 0) w3.filters = [] ∧ List.filter (fun b => decide (b.txn = 0)) w3.slices[tk].staging = [bst] ∧ bst.bad = [] ∧ bst.slice = tk ∧ (List.map (fun c => c.1) bst.bytes).Nodup ∧ (∀ c ∈ bst.bytes, c.1 / 64 ∉ w3.mem.dead)) ∧
    (w2.txn? 0 = some (txn w2) ∧ (txn w2).id = 0 ∧ (txn w2).slices = [tk] ∧ (txn w2).decision = none ∧ w2.commitReady (txn w2) = false) :=
  ⟨by decide +kernel,
    by decide +kernel,
    by decide +kernel,
    by decide +kernel,
    ⟨by decide +kernel, by decide +kernel, by decide +kernel, by decide +kernel, by decide +kernel, (by intro w st e; rw [(by decide +kernel : (txn w3).who = .host 0)] at e; cases e), by decide +kernel⟩,
    by decide +kernel⟩

/-- The hypotheses of Obligations.HostWrites are met: one bracket for each clause. -/
theorem test_witness_HostWrites_2 :
    (wd.txn? 0 = some (txn wd) ∧ (txn wd).id = 0 ∧ (txn wd).decision = some false ∧ (txn wd).ctl = [tk] ∧ (∀ (n : PortId), wd.ports[n].held = [])) ∧
    (w5.txn? 0 = some (txn w5) ∧ (txn w5).id = 0 ∧ (txn w5).decision = some true ∧ (txn w5).slices = [tk] ∧ (txn w5).ctl = [] ∧ (txn w5).committed = [] ∧ (∀ (n : PortId), w5.ports[n].held = [])) ∧
    (x1.filters = [] ++ [ent] ∧ (∀ x ∈ ([] : List FEntry), ¬(x.tgt = Target.scratch (0 : BoughId) ∧ x.installed = false)) ∧ ent.tgt = Target.scratch (0 : BoughId) ∧ ent.installed = false ∧ ent.owner = FOwner.txn 0 ∧ x1.filterCount (Target.scratch (0 : BoughId)) < 16 ∧ x1.sys.mode ≠ Mode.service ∧ List.find? (fun t => decide (t.id = 0) && t.scratch.isSome) x1.txns = some (txn x1) ∧ (List.map (fun c => c.1) (txn x1).bytes).Nodup ∧ (∀ c ∈ (txn x1).bytes, c.1 / 64 ∉ x1.mem.dead)) ∧
    (x2.txn? 0 = some (txn x2) ∧ (txn x2).id = 0 ∧ (txn x2).scratch = some (0 : BoughId) ∧ (txn x2).fn = some (HostFn.pf (0 : PortId)) ∧ x2.scratchVisible 0 = true ∧ (∀ (n : PortId), x2.ports[n].held = []) ∧ (∀ g ∈ granulesOf (txn x2).bytes, olderBlocks (FOwner.txn 0) (Target.scratch (0 : BoughId)) g x2.filters = false)) :=
  ⟨by decide +kernel,
    by decide +kernel,
    by decide +kernel,
    by decide +kernel⟩

/-- The hypotheses of Obligations.HostReads are met: one bracket for each clause. -/
theorem test_witness_HostReads :
    (bs.takesTlp (HostFn.pf (0 : PortId)) = true ∧ bs.tlpWaits (HostFn.pf (0 : PortId)) (Instr.hostReadRequest (0 : PortId) 5 (HostFn.pf (0 : PortId)) true 260 8) = false ∧ bs.readWaits (0 : PortId) 5 260 8 bs.nextId = false ∧ 0 < 8 ∧ 8 ≤ 4096 ∧ (260 / 4096 : ℕ) = (260 + 8 - 1) / 4096 ∧ bs.ports[(0 : PortId)].pfWindow 260 = Bar2.mem 260) ∧
    (bs.takesTlp (HostFn.pf (0 : PortId)) = true ∧ bs.tlpWaits (HostFn.pf (0 : PortId)) (Instr.hostReadRequest (0 : PortId) 5 (HostFn.pf (0 : PortId)) true 0 4096) = false ∧ bs.readWaits (0 : PortId) 5 0 4096 bs.nextId = false ∧ 0 < 4096 ∧ 4096 ≤ 4096 ∧ (0 / 4096 : ℕ) = (0 + 4096 - 1) / 4096 ∧ bs.ports[(0 : PortId)].pfWindow 0 = Bar2.mem 0) ∧
    (y2.ports[(0 : PortId)].reads = [rr] ∧ y2.ports[(0 : PortId)].held = [] ∧ rr.tag = 5 ∧ rr.fn = HostFn.pf (0 : PortId) ∧ rr.absorb = false ∧ rr.answer = none ∧ rr.fault = none ∧ rr.parts = [part] ∧ part.data = some chunk ∧ chunk.base ≤ rr.addr ∧ rr.addr + rr.len ≤ chunk.base + chunk.data.length ∧ part.addr < rootSize ∧ (chunk.poison.any fun b => b) = false) :=
  ⟨by decide +kernel,
    by decide +kernel,
    by decide +kernel⟩

end W14

namespace W15

def ev : State := { bs with pwr := { bs.pwr with event := 0x55, peakMw := 0xabcde } }
def busy : State := ev.modPort 0 (fun p => { p with held := [⟨.registerWrite (.pf 0) 0x438 true 1, 0⟩] })
def sw : State := run [.sweepRegionStart 0] bs
def last : State := sw.modScr 0 (fun x => { x with sweepPos := 0 })
def used : State := sw.modScr 0 (fun x => { x with spares := Vector.replicate 32 0x7f })
def k3 : Fin 32 := ⟨scrBank 3 % 32, Nat.mod_lt _ (by decide)⟩
def k9 : Fin 32 := ⟨scrBank (4 * 2047 + 2) % 32, Nat.mod_lt _ (by decide)⟩

/-- The hypotheses of Obligations.RegisterWrites are met: one bracket for each clause. -/
theorem test_witness_RegisterWrites :
    (ev.awake = true) ∧
    (ev.awake = true ∧ (1080 = 1080 ∨ 1080 = 1084 ∨ 1080 = 4152 ∨ 1080 = 4156)) ∧
    (ev.awake = true ∧ (4156 = 1080 ∨ 4156 = 1084 ∨ 4156 = 4152 ∨ 4156 = 4156)) ∧
    (ev.awake = true ∧ (1044 % if true = true then 8 else 4) ≠ 0) ∧
    (ev.awake = true ∧ (1042 % if false = true then 8 else 4) ≠ 0) ∧
    (ev.takesTlp (HostFn.pf (0 : PortId)) = true ∧ ev.tlpWaits (HostFn.pf (0 : PortId)) (Instr.registerWrite (RegWho.pf (0 : PortId)) 1032 true (5 : Word)) = false ∧ (1032 = 1032 ∨ 1032 = 1080 ∨ 1032 = 1088 ∨ 1032 = 5160 ∨ 1032 = 5168)) :=
  ⟨by decide +kernel,
    by decide +kernel,
    by decide +kernel,
    by decide +kernel,
    by decide +kernel,
    by decide +kernel⟩

/-- The hypotheses of Obligations.RegisterWrites are met: one bracket for each clause. -/
theorem test_witness_RegisterWrites_2 :
    (ev.takesTlp (HostFn.pf (0 : PortId)) = true ∧ ev.tlpWaits (HostFn.pf (0 : PortId)) (Instr.registerWrite (RegWho.pf (0 : PortId)) 1088 true (5 : Word)) = false ∧ (1088 = 1032 ∨ 1088 = 1080 ∨ 1088 = 1088 ∨ 1088 = 5160 ∨ 1088 = 5168)) ∧
    (ev.takesTlp (HostFn.pf (0 : PortId)) = true ∧ ev.tlpWaits (HostFn.pf (0 : PortId)) (Instr.registerWrite (RegWho.pf (0 : PortId)) 1042 false (5 : Word)) = false ∧ (1042 % if false = true then 8 else 4) ≠ 0) ∧
    (ev.takesTlp (HostFn.vf (0 : VfId)) = true ∧ ev.tlpWaits (HostFn.vf (0 : VfId)) (Instr.registerWrite (RegWho.vf (0 : VfId)) 16 true (5 : Word)) = false ∧ 16 < 320 ∧ 16 % 8 = 0 ∧ 16 ≠ 24 ∧ 16 ≠ 192) ∧
    (ev.takesTlp (HostFn.vf (0 : VfId)) = true ∧ ev.tlpWaits (HostFn.vf (0 : VfId)) (Instr.registerWrite (RegWho.vf (0 : VfId)) 312 true (5 : Word)) = false ∧ 312 < 320 ∧ 312 % 8 = 0 ∧ 312 ≠ 24 ∧ 312 ≠ 192) ∧
    (busy.takesTlp (HostFn.pf (0 : PortId)) = true ∧ busy.tlpWaits (HostFn.pf (0 : PortId)) (Instr.registerWrite (RegWho.pf (0 : PortId)) 1080 true (5 : Word)) = true) :=
  ⟨by decide +kernel,
    by decide +kernel,
    by decide +kernel,
    by decide +kernel,
    by decide +kernel⟩

/-- The hypotheses of Obligations.ScratchpadSweep are met: one bracket for each clause. -/
theorem test_witness_ScratchpadSweep :
    (bs.sweepEn = true ∧ bs.scr[(0 : BoughId)].sweepOpen = false ∧ bs.scrPowered = true ∧ bs.paceDue (0 : BoughId) = true) ∧
    (sw.scr[(0 : BoughId)].sweepOpen = true) ∧
    (3 = 4 * (sw.scr[(0 : BoughId)].sweepPos - (1 : BitVec 11)).toNat + ↑(3 : Fin 4) ∧ ↑k3 = scrBank 3 ∧ sw.scr[(0 : BoughId)].sweepOpen = true ∧ sw.scr[(0 : BoughId)].failed.getLsbD ↑k3 = false ∧ sw.repairEn = true ∧ sw.scr[(0 : BoughId)].spares[k3].getLsbD ↑(0 : Fin 8) = false ∧ (∀ j' < (0 : Fin 8), sw.scr[(0 : BoughId)].spares[k3].getLsbD ↑j' = true)) ∧
    (3 = 4 * (used.scr[(0 : BoughId)].sweepPos - (1 : BitVec 11)).toNat + ↑(3 : Fin 4) ∧ ↑k3 = scrBank 3 ∧ used.scr[(0 : BoughId)].sweepOpen = true ∧ used.scr[(0 : BoughId)].failed.getLsbD ↑k3 = false ∧ used.repairEn = true ∧ used.scr[(0 : BoughId)].spares[k3].getLsbD ↑(7 : Fin 8) = false ∧ (∀ j' < (7 : Fin 8), used.scr[(0 : BoughId)].spares[k3].getLsbD ↑j' = true)) ∧
    (4 * 2047 + 2 = 4 * (last.scr[(0 : BoughId)].sweepPos - (1 : BitVec 11)).toNat + ↑(2 : Fin 4) ∧ ↑k9 = scrBank (4 * 2047 + 2) ∧ last.scr[(0 : BoughId)].sweepOpen = true ∧ last.scr[(0 : BoughId)].failed.getLsbD ↑k9 = false ∧ last.repairEn = true ∧ last.scr[(0 : BoughId)].spares[k9].getLsbD ↑(0 : Fin 8) = false ∧ (∀ j' < (0 : Fin 8), last.scr[(0 : BoughId)].spares[k9].getLsbD ↑j' = true)) ∧
    (bs.scr[(0 : BoughId)].sweepOpen = false) :=
  ⟨by decide +kernel,
    by decide +kernel,
    by decide +kernel,
    by decide +kernel,
    by decide +kernel,
    by decide +kernel⟩

end W15

namespace W16

def V0 : HostFn := .vf 0
def qw (n : Nat) : QWord := qword (BitVec.ofNat 64 n) false
def hq (f : Queue → Queue) (q : QueueId := 1) : State := bs.modQueue q f
def op1 (c : Nat) (ws : List QWord) : OpenProd := ⟨c, ws, 0⟩
def op (c : Nat) (ws : List QWord) : Queue → Queue := fun x => { x with prod := some (op1 c ws) }
def wit1 : State := hq (op 2 [])
def wit2 : State := hq (fun x => { x with credits := 63 })
def wit3 : State := hq (op 2 [qw 1, qw 2])
def wit4 : State := hq (fun x => { x with prodVoid := true })
def pk : Packet := { typ := 3, tag := 9, words := [qw 3, qw 5], slot := 0 }
def oc : OpenCons := ⟨pk, 0⟩
def wit5 : State := hq (fun x => { x with pending := [pk] }) 2
def wit6 : State := hq (fun x => { x with cons := some oc }) 2
def wit7 : State := hq (fun x => { x with consVoid := true }) 2
def mx : State := (hq (fun x => { x with pending := [pk] }) 4).modPort 0 fun p => { p with pf := { p.pf with msixEn := true } }

/-- The hypotheses of Obligations.HostWindows are met: one bracket for each clause. -/
theorem test_witness_HostWindows :
    (bs.hostProd V0 (1 : QueueId) = true ∧ bs.queues[(1 : QueueId)].prod = none ∧ BitVec.toNat (63 : Word) % 8192 ≤ 4096 ∧ BitVec.toNat (63 : Word) % 8192 + 1 ≤ bs.ringWords (1 : QueueId) ∧ BitVec.toNat (63 : Word) % 8192 + 1 ≤ bs.queues[(1 : QueueId)].credits ∧ Reaches bs V0 (Instr.qwOpen V0 (1 : QueueId) (63 : Word))) ∧
    (wit1.hostProd V0 (1 : QueueId) = true ∧ wit1.queues[(1 : QueueId)].prod ≠ none ∧ Reaches wit1 V0 (Instr.qwOpen V0 (1 : QueueId) (63 : Word))) ∧
    (bs.hostProd V0 (1 : QueueId) = true ∧ bs.queues[(1 : QueueId)].prod = none ∧ (4096 < BitVec.toNat (64 : Word) % 8192 ∨ bs.ringWords (1 : QueueId) < BitVec.toNat (64 : Word) % 8192 + 1) ∧ Reaches bs V0 (Instr.qwOpen V0 (1 : QueueId) (64 : Word))) ∧
    (bs.hostProd V0 (1 : QueueId) = true ∧ bs.queues[(1 : QueueId)].prod = none ∧ (4096 < BitVec.toNat (4097 : Word) % 8192 ∨ bs.ringWords (1 : QueueId) < BitVec.toNat (4097 : Word) % 8192 + 1) ∧ Reaches bs V0 (Instr.qwOpen V0 (1 : QueueId) (4097 : Word))) ∧
    (wit2.hostProd V0 (1 : QueueId) = true ∧ wit2.queues[(1 : QueueId)].prod = none ∧ BitVec.toNat (63 : Word) % 8192 ≤ 4096 ∧ BitVec.toNat (63 : Word) % 8192 + 1 ≤ wit2.ringWords (1 : QueueId) ∧ wit2.queues[(1 : QueueId)].credits < BitVec.toNat (63 : Word) % 8192 + 1 ∧ Reaches wit2 V0 (Instr.qwOpen V0 (1 : QueueId) (63 : Word))) ∧
    (wit3.hostProd V0 (1 : QueueId) = true ∧ wit3.queues[(1 : QueueId)].prod = some (op1 2 [qw 1, qw 2]) ∧ 1 < (op1 2 [qw 1, qw 2]).words.length ∧ (op1 2 [qw 1, qw 2]).words.length = (op1 2 [qw 1, qw 2]).cap ∧ Reaches wit3 V0 (Instr.qwDataWrite V0 (1 : QueueId) 1 (63 : Word))) :=
  ⟨⟨by decide +kernel, by decide +kernel, by decide +kernel, by decide +kernel, by decide +kernel, by unfold Reaches; decide +kernel⟩,
    ⟨by decide +kernel, by decide +kernel, by unfold Reaches; decide +kernel⟩,
    ⟨by decide +kernel, by decide +kernel, by decide +kernel, by unfold Reaches; decide +kernel⟩,
    ⟨by decide +kernel, by decide +kernel, by decide +kernel, by unfold Reaches; decide +kernel⟩,
    ⟨by decide +kernel, by decide +kernel, by decide +kernel, by decide +kernel, by decide +kernel, by unfold Reaches; decide +kernel⟩,
    ⟨by decide +kernel, by decide +kernel, by decide +kernel, by decide +kernel, by unfold Reaches; decide +kernel⟩⟩

/-- The hypotheses of Obligations.HostWindows are met: one bracket for each clause. -/
theorem test_witness_HostWindows_2 :
    (wit3.hostProd V0 (1 : QueueId) = true ∧ wit3.queues[(1 : QueueId)].prod = some (op1 2 [qw 1, qw 2]) ∧ (op1 2 [qw 1, qw 2]).cap ≤ 2 ∧ Reaches wit3 V0 (Instr.qwDataWrite V0 (1 : QueueId) 2 (63 : Word))) ∧
    (wit4.hostProd V0 (1 : QueueId) = true ∧ wit4.queues[(1 : QueueId)].prod = none ∧ Reaches wit4 V0 (Instr.qwDataWrite V0 (1 : QueueId) 0 (63 : Word))) ∧
    (bs.hostProd V0 (1 : QueueId) = true ∧ bs.queues[(1 : QueueId)].prod = none ∧ Reaches bs V0 (Instr.qwDataWrite V0 (1 : QueueId) 7 (63 : Word))) ∧
    (bs.hostProd V0 (1 : QueueId) = true ∧ bs.writesDone V0 = true ∧ bs.queues[(1 : QueueId)].prod = none ∧ Reaches bs V0 (Instr.qwClose V0 (1 : QueueId) (63 : Word))) ∧
    (wit3.hostProd V0 (1 : QueueId) = true ∧ wit3.writesDone V0 = true ∧ wit3.queues[(1 : QueueId)].prod = some (op1 2 [qw 1, qw 2]) ∧ (op1 2 [qw 1, qw 2]).cap < BitVec.toNat (3 : Word) % 65536 ∧ Reaches wit3 V0 (Instr.qwClose V0 (1 : QueueId) (3 : Word))) ∧
    (wit3.hostProd V0 (1 : QueueId) = true ∧ wit3.writesDone V0 = true ∧ wit3.queues[(1 : QueueId)].prod = some (op1 2 [qw 1, qw 2]) ∧ BitVec.toNat (8388610 : Word) % 65536 ≤ (op1 2 [qw 1, qw 2]).cap ∧ 128 ≤ BitVec.toNat (8388610 : Word) / 2 ^ 16 % 256 ∧ Reaches wit3 V0 (Instr.qwClose V0 (1 : QueueId) (8388610 : Word))) :=
  ⟨⟨by decide +kernel, by decide +kernel, by decide +kernel, by unfold Reaches; decide +kernel⟩,
    ⟨by decide +kernel, by decide +kernel, by unfold Reaches; decide +kernel⟩,
    ⟨by decide +kernel, by decide +kernel, by unfold Reaches; decide +kernel⟩,
    ⟨by decide +kernel, by decide +kernel, by decide +kernel, by unfold Reaches; decide +kernel⟩,
    ⟨by decide +kernel, by decide +kernel, by decide +kernel, by decide +kernel, by unfold Reaches; decide +kernel⟩,
    ⟨by decide +kernel, by decide +kernel, by decide +kernel, by decide +kernel, by decide +kernel, by unfold Reaches; decide +kernel⟩⟩

/-- The hypotheses of Obligations.HostWindows are met: one bracket for each clause. -/
theorem test_witness_HostWindows_3 :
    (wit3.hostProd V0 (1 : QueueId) = true ∧ wit3.writesDone V0 = true ∧ wit3.queues[(1 : QueueId)].prod = some (op1 2 [qw 1, qw 2]) ∧ BitVec.toNat (8323074 : Word) % 65536 ≤ (op1 2 [qw 1, qw 2]).cap ∧ BitVec.toNat (8323074 : Word) / 2 ^ 16 % 256 < 128 ∧ (op1 2 [qw 1, qw 2]).words.length = (op1 2 [qw 1, qw 2]).cap ∧ Reaches wit3 V0 (Instr.qwClose V0 (1 : QueueId) (8323074 : Word))) ∧
    (wit5.hostCons V0 (2 : QueueId) = true ∧ wit5.queues[(2 : QueueId)].cons = none ∧ wit5.queues[(2 : QueueId)].pending = [pk] ∧ Reaches wit5 V0 (Instr.qwTake V0 (2 : QueueId) (1 : Word))) ∧
    (bs.hostCons V0 (2 : QueueId) = true ∧ bs.queues[(2 : QueueId)].cons = none ∧ bs.queues[(2 : QueueId)].pending = [] ∧ Reaches bs V0 (Instr.qwTake V0 (2 : QueueId) (1 : Word))) ∧
    (wit6.hostCons V0 (2 : QueueId) = true ∧ wit6.queues[(2 : QueueId)].cons ≠ none ∧ Reaches wit6 V0 (Instr.qwTake V0 (2 : QueueId) (1 : Word))) ∧
    (wit6.hostCons V0 (2 : QueueId) = true ∧ wit6.queues[(2 : QueueId)].cons = some oc ∧ oc.pkt.words[1]? = some (qw 5) ∧ (qw 5).bad = false ∧ Reaches wit6 V0 (Instr.qwDataRead V0 (2 : QueueId) 1)) ∧
    (wit6.hostCons V0 (2 : QueueId) = true ∧ (∀ (o : OpenCons), wit6.queues[(2 : QueueId)].cons = some o → o.pkt.words.length ≤ 2) ∧ Reaches wit6 V0 (Instr.qwDataRead V0 (2 : QueueId) 2)) :=
  ⟨⟨by decide +kernel, by decide +kernel, by decide +kernel, by decide +kernel, by decide +kernel, by decide +kernel, by unfold Reaches; decide +kernel⟩,
    ⟨by decide +kernel, by decide +kernel, by decide +kernel, by unfold Reaches; decide +kernel⟩,
    ⟨by decide +kernel, by decide +kernel, by decide +kernel, by unfold Reaches; decide +kernel⟩,
    ⟨by decide +kernel, by decide +kernel, by unfold Reaches; decide +kernel⟩,
    ⟨by decide +kernel, by decide +kernel, by decide +kernel, by decide +kernel, by unfold Reaches; decide +kernel⟩,
    ⟨by decide +kernel, by decide +kernel, by unfold Reaches; decide +kernel⟩⟩

/-- The hypotheses of Obligations.HostWindows are met: one bracket for each clause. -/
theorem test_witness_HostWindows_4 :
    (bs.hostCons V0 (2 : QueueId) = true ∧ (∀ (o : OpenCons), bs.queues[(2 : QueueId)].cons = some o → o.pkt.words.length ≤ 0) ∧ Reaches bs V0 (Instr.qwDataRead V0 (2 : QueueId) 0)) ∧
    (wit6.hostCons V0 (2 : QueueId) = true ∧ wit6.queues[(2 : QueueId)].cons = some oc ∧ Reaches wit6 V0 (Instr.qwDone V0 (2 : QueueId) (1 : Word))) ∧
    (bs.hostCons V0 (2 : QueueId) = true ∧ bs.queues[(2 : QueueId)].cons = none ∧ Reaches bs V0 (Instr.qwDone V0 (2 : QueueId) (1 : Word))) ∧
    (wit7.hostCons V0 (2 : QueueId) = true ∧ wit7.queues[(2 : QueueId)].cons = none ∧ Reaches wit7 V0 (Instr.qwDone V0 (2 : QueueId) (1 : Word))) ∧
    (511 < bs.msixCount (HostFn.pf (0 : PortId))) ∧
    (0 < mx.msixCount (HostFn.pf (0 : PortId))) :=
  ⟨⟨by decide +kernel, by decide +kernel, by unfold Reaches; decide +kernel⟩,
    ⟨by decide +kernel, by decide +kernel, by unfold Reaches; decide +kernel⟩,
    ⟨by decide +kernel, by decide +kernel, by unfold Reaches; decide +kernel⟩,
    ⟨by decide +kernel, by decide +kernel, by unfold Reaches; decide +kernel⟩,
    by decide +kernel,
    by decide +kernel⟩

end W16

namespace W17

def qs (q : Nat) (v : Word) (f : Queue → Queue := id) (t : TwigId := b0) : State := (tw t fun w => { w with g := vset (vset w.g 2 (BitVec.ofNat 64 q)) 1 v }).modQueue (finOf? 1024 q |>.getD 0) f
def w1 (n : Nat) (p : Bool := false) : QWord := { w := BitVec.ofNat 64 n, parity := (QWord.mk (BitVec.ofNat 64 n) false false).bad, poison := p }
def o2 : OpenProd := ⟨2, [w1 3], 0⟩
def o1 : OpenProd := ⟨1, [w1 3], 0⟩
def op (o : OpenProd) : Queue → Queue := fun x => { x with prod := some o }
def wit3 : State := qs 0 63
def wit4 : State := qs 0 64
def wit2 : State := qs 0 63 fun x => { x with credits := 63 }
def wit5 : State := qs 3 0 (op ⟨2, [], 0⟩) c0
def wit6 : State := qs 0 5 (op o2)
def wit7 : State := qs 0 5 (op o1)
def wit8 : State := qs 0 5 (fun x => { x with prodVoid := true })
def wit9 : State := qs 0 0x1234567801234567 (op o2)
def wit10 : State := qs 0 0x1234567801834567 (op o2)
def wit11 : State := qs 3 0x1234567801834567 (op o2) c0
def pk : Packet := { typ := 3, tag := 9, words := [w1 3, w1 5 true], slot := 0 }
def oc (n : Nat) : OpenCons := ⟨pk, n⟩
def oc0 : OpenCons := oc 0
def oc1 : OpenCons := oc 1
def oc2 : OpenCons := oc 2
def wit12 : State := qs 1 0 (fun x => { x with pending := [pk, pk] })
def wit13 : State := qs 1 0 (fun x => { x with cons := some oc1 })
def wit14 : State := qs 1 0
def wit15 : State := qs 1 0 (fun x => { x with cons := some oc0 })
def wit16 : State := qs 1 0 (fun x => { x with cons := some oc2 })
def wit17 : State := qs 1 0 (fun x => { x with cons := some oc2, credits := 3 })
def wit18 : State := qs 5 0 (fun x => { x with cons := some oc2, credits := 3 })
def wit19 : State := qs 0 0 (fun x => { x with pending := [pk, pk], prod := some o2 })
def wit20 : State := qs 1024 0
def wit21 : State := (qs 0 3).modTwig b0 (fun w => { w with waiting := some (.qopen b0 0 3 2 0 1) })
def wit22 : State := (qs 1 3 (fun x => { x with pending := [pk, pk] })).modTwig b0 (fun w => { w with waiting := some (.qtake b0 0 3 2 0 1) })

/-- The hypotheses of Obligations.QueueCommands are met: one bracket for each clause. -/
theorem test_witness_QueueCommands :
    (QueueGo wit3 b0 (0 : PReg) (2 : GReg) (1 : GReg) Need.prod (0 : QueueId) ∧ wit3.queues[(0 : QueueId)].prod = none ∧ BitVec.toNat ((wit3.twig b0).reg (1 : GReg)) % 8192 ≤ 4096 ∧ BitVec.toNat ((wit3.twig b0).reg (1 : GReg)) % 8192 + 1 ≤ wit3.ringWords (0 : QueueId) ∧ BitVec.toNat ((wit3.twig b0).reg (1 : GReg)) % 8192 + 1 ≤ wit3.queues[(0 : QueueId)].credits) ∧
    (QueueGo wit5 c0 (0 : PReg) (2 : GReg) (1 : GReg) Need.prod (3 : QueueId) ∧ wit5.queues[(3 : QueueId)].prod ≠ none) ∧
    (QueueGo wit4 b0 (0 : PReg) (2 : GReg) (1 : GReg) Need.prod (0 : QueueId) ∧ wit4.queues[(0 : QueueId)].prod = none ∧ (4096 < BitVec.toNat ((wit4.twig b0).reg (1 : GReg)) % 8192 ∨ wit4.ringWords (0 : QueueId) < BitVec.toNat ((wit4.twig b0).reg (1 : GReg)) % 8192 + 1)) ∧
    (QueueGo wit2 b0 (0 : PReg) (2 : GReg) (1 : GReg) Need.prod (0 : QueueId) ∧ wit2.queues[(0 : QueueId)].prod = none ∧ BitVec.toNat ((wit2.twig b0).reg (1 : GReg)) % 8192 ≤ 4096 ∧ BitVec.toNat ((wit2.twig b0).reg (1 : GReg)) % 8192 + 1 ≤ wit2.ringWords (0 : QueueId) ∧ wit2.queues[(0 : QueueId)].credits < BitVec.toNat ((wit2.twig b0).reg (1 : GReg)) % 8192 + 1) ∧
    (QueueGo wit6 b0 (0 : PReg) (2 : GReg) (1 : GReg) Need.prod (0 : QueueId) ∧ wit6.queues[(0 : QueueId)].prod = some o2 ∧ o2.words.length < o2.cap) ∧
    (QueueGo wit7 b0 (0 : PReg) (2 : GReg) (1 : GReg) Need.prod (0 : QueueId) ∧ wit7.queues[(0 : QueueId)].prod = some o1 ∧ o1.cap ≤ o1.words.length) :=
  ⟨⟨queueGo_of (by decide +kernel), by decide +kernel⟩,
    ⟨queueGo_of (by decide +kernel), by decide +kernel⟩,
    ⟨queueGo_of (by decide +kernel), by decide +kernel⟩,
    ⟨queueGo_of (by decide +kernel), by decide +kernel⟩,
    ⟨queueGo_of (by decide +kernel), by decide +kernel⟩,
    ⟨queueGo_of (by decide +kernel), by decide +kernel⟩⟩

/-- The hypotheses of Obligations.QueueCommands are met: one bracket for each clause. -/
theorem test_witness_QueueCommands_2 :
    (QueueGo wit8 b0 (0 : PReg) (2 : GReg) (1 : GReg) Need.prod (0 : QueueId) ∧ wit8.queues[(0 : QueueId)].prod = none) ∧
    (QueueGo wit10 b0 (0 : PReg) (2 : GReg) (1 : GReg) Need.prod (0 : QueueId) ∧ (wit10.twig b0).stores = [] ∧ wit10.queues[(0 : QueueId)].prod = some o2 ∧ ((∃ b, b0 = TwigId.bough b) ∧ 128 ≤ BitVec.toNat ((wit10.twig b0).reg (1 : GReg)) / 2 ^ 16 % 256)) ∧
    (QueueGo wit9 b0 (0 : PReg) (2 : GReg) (1 : GReg) Need.prod (0 : QueueId) ∧ (wit9.twig b0).stores = [] ∧ wit9.queues[(0 : QueueId)].prod = some o2 ∧ (¬((∃ b, b0 = TwigId.bough b) ∧ 128 ≤ BitVec.toNat ((wit9.twig b0).reg (1 : GReg)) / 2 ^ 16 % 256))) ∧
    (QueueGo wit11 c0 (0 : PReg) (2 : GReg) (1 : GReg) Need.prod (3 : QueueId) ∧ (wit11.twig c0).stores = [] ∧ wit11.queues[(3 : QueueId)].prod = some o2 ∧ (¬((∃ b, c0 = TwigId.bough b) ∧ 128 ≤ BitVec.toNat ((wit11.twig c0).reg (1 : GReg)) / 2 ^ 16 % 256))) ∧
    (QueueGo wit12 b0 (0 : PReg) (2 : GReg) (1 : GReg) Need.cons (1 : QueueId) ∧ wit12.queues[(1 : QueueId)].cons = none ∧ wit12.queues[(1 : QueueId)].pending = [pk, pk]) ∧
    (QueueGo wit13 b0 (0 : PReg) (2 : GReg) (1 : GReg) Need.cons (1 : QueueId) ∧ wit13.queues[(1 : QueueId)].cons = some oc1) :=
  ⟨⟨queueGo_of (by decide +kernel), by decide +kernel⟩,
    ⟨queueGo_of (by decide +kernel), by decide +kernel, by decide +kernel, ⟨⟨0, rfl⟩, by decide +kernel⟩⟩,
    ⟨queueGo_of (by decide +kernel), by decide +kernel, by decide +kernel, (by decide +kernel)⟩,
    ⟨queueGo_of (by decide +kernel), by decide +kernel, by decide +kernel, (fun e => Exists.elim e.1 fun _ x => nomatch x)⟩,
    ⟨queueGo_of (by decide +kernel), by decide +kernel⟩,
    ⟨queueGo_of (by decide +kernel), by decide +kernel⟩⟩

/-- The hypotheses of Obligations.QueueCommands are met: one bracket for each clause. -/
theorem test_witness_QueueCommands_3 :
    (QueueGo wit14 b0 (0 : PReg) (2 : GReg) (1 : GReg) Need.cons (1 : QueueId) ∧ wit14.queues[(1 : QueueId)].cons = none ∧ wit14.queues[(1 : QueueId)].pending = []) ∧
    (QueueGo wit15 b0 (0 : PReg) (2 : GReg) (1 : GReg) Need.cons (1 : QueueId) ∧ wit15.queues[(1 : QueueId)].cons = some oc0 ∧ oc0.pkt.words[oc0.pos]? = some (w1 3) ∧ (w1 3).bad = false) ∧
    (QueueGo wit16 b0 (0 : PReg) (2 : GReg) (1 : GReg) Need.cons (1 : QueueId) ∧ wit16.queues[(1 : QueueId)].cons = some oc2 ∧ oc2.pkt.words[oc2.pos]? = none) ∧
    (QueueGo wit14 b0 (0 : PReg) (2 : GReg) (1 : GReg) Need.cons (1 : QueueId) ∧ wit14.queues[(1 : QueueId)].cons = none) ∧
    (QueueGo wit17 b0 (0 : PReg) (2 : GReg) (1 : GReg) Need.cons (1 : QueueId) ∧ (wit17.twig b0).stores = [] ∧ wit17.queues[(1 : QueueId)].cons = some oc2) ∧
    (QueueGo wit18 b0 (0 : PReg) (2 : GReg) (1 : GReg) Need.cons (5 : QueueId) ∧ (wit18.twig b0).stores = [] ∧ wit18.queues[(5 : QueueId)].cons = some oc2) :=
  ⟨⟨queueGo_of (by decide +kernel), by decide +kernel⟩,
    ⟨queueGo_of (by decide +kernel), by decide +kernel⟩,
    ⟨queueGo_of (by decide +kernel), by decide +kernel⟩,
    ⟨queueGo_of (by decide +kernel), by decide +kernel⟩,
    ⟨queueGo_of (by decide +kernel), by decide +kernel⟩,
    ⟨queueGo_of (by decide +kernel), by decide +kernel⟩⟩

/-- The hypotheses of Obligations.QueueCommands are met: one bracket for each clause. -/
theorem test_witness_QueueCommands_4 :
    (QueueGo wit14 b0 (0 : PReg) (2 : GReg) (1 : GReg) Need.cons (1 : QueueId) ∧ (wit14.twig b0).stores = [] ∧ wit14.queues[(1 : QueueId)].cons = none) ∧
    (QueueGo wit12 b0 (0 : PReg) (2 : GReg) (1 : GReg) Need.either (1 : QueueId)) ∧
    (QueueGo wit19 b0 (0 : PReg) (2 : GReg) (1 : GReg) Need.either (0 : QueueId)) ∧
    ((Instr.qput b0 (0 : PReg) (3 : GReg) (2 : GReg) (0 : BitVec 4) (1 : GReg) = Instr.qopen b0 (0 : PReg) (3 : GReg) (2 : GReg) (0 : BitVec 4) (1 : GReg) ∧ Need.prod = Need.prod ∨ Instr.qput b0 (0 : PReg) (3 : GReg) (2 : GReg) (0 : BitVec 4) (1 : GReg) = Instr.qput b0 (0 : PReg) (3 : GReg) (2 : GReg) (0 : BitVec 4) (1 : GReg) ∧ Need.prod = Need.prod ∨ Instr.qput b0 (0 : PReg) (3 : GReg) (2 : GReg) (0 : BitVec 4) (1 : GReg) = Instr.qclose b0 (0 : PReg) (3 : GReg) (2 : GReg) (0 : BitVec 4) (1 : GReg) ∧ Need.prod = Need.prod ∨ Instr.qput b0 (0 : PReg) (3 : GReg) (2 : GReg) (0 : BitVec 4) (1 : GReg) = Instr.qtake b0 (0 : PReg) (3 : GReg) (2 : GReg) (0 : BitVec 4) (1 : GReg) ∧ Need.prod = Need.cons ∨ Instr.qput b0 (0 : PReg) (3 : GReg) (2 : GReg) (0 : BitVec 4) (1 : GReg) = Instr.qget b0 (0 : PReg) (3 : GReg) (2 : GReg) (0 : BitVec 4) (1 : GReg) ∧ Need.prod = Need.cons ∨ Instr.qput b0 (0 : PReg) (3 : GReg) (2 : GReg) (0 : BitVec 4) (1 : GReg) = Instr.qdone b0 (0 : PReg) (3 : GReg) (2 : GReg) (0 : BitVec 4) (1 : GReg) ∧ Need.prod = Need.cons ∨ Instr.qput b0 (0 : PReg) (3 : GReg) (2 : GReg) (0 : BitVec 4) (1 : GReg) = Instr.qstat b0 (0 : PReg) (3 : GReg) (2 : GReg) (0 : BitVec 4) (1 : GReg) ∧ Need.prod = Need.either) ∧ TwigGo wit20 b0 (0 : PReg) 2 [(2 : GReg), (1 : GReg)] ∧ Plain wit20 b0 ∧ wit20.tsbHeld b0 = false ∧ (1024 ≤ BitVec.toNat ((wit20.twig b0).reg (2 : GReg)) ∨ wit20.hasRole b0 (BitVec.toNat ((wit20.twig b0).reg (2 : GReg)) % 1024) Need.prod = false)) ∧
    ((Instr.qget b0 (0 : PReg) (3 : GReg) (2 : GReg) (0 : BitVec 4) (1 : GReg) = Instr.qopen b0 (0 : PReg) (3 : GReg) (2 : GReg) (0 : BitVec 4) (1 : GReg) ∧ Need.cons = Need.prod ∨ Instr.qget b0 (0 : PReg) (3 : GReg) (2 : GReg) (0 : BitVec 4) (1 : GReg) = Instr.qput b0 (0 : PReg) (3 : GReg) (2 : GReg) (0 : BitVec 4) (1 : GReg) ∧ Need.cons = Need.prod ∨ Instr.qget b0 (0 : PReg) (3 : GReg) (2 : GReg) (0 : BitVec 4) (1 : GReg) = Instr.qclose b0 (0 : PReg) (3 : GReg) (2 : GReg) (0 : BitVec 4) (1 : GReg) ∧ Need.cons = Need.prod ∨ Instr.qget b0 (0 : PReg) (3 : GReg) (2 : GReg) (0 : BitVec 4) (1 : GReg) = Instr.qtake b0 (0 : PReg) (3 : GReg) (2 : GReg) (0 : BitVec 4) (1 : GReg) ∧ Need.cons = Need.cons ∨ Instr.qget b0 (0 : PReg) (3 : GReg) (2 : GReg) (0 : BitVec 4) (1 : GReg) = Instr.qget b0 (0 : PReg) (3 : GReg) (2 : GReg) (0 : BitVec 4) (1 : GReg) ∧ Need.cons = Need.cons ∨ Instr.qget b0 (0 : PReg) (3 : GReg) (2 : GReg) (0 : BitVec 4) (1 : GReg) = Instr.qdone b0 (0 : PReg) (3 : GReg) (2 : GReg) (0 : BitVec 4) (1 : GReg) ∧ Need.cons = Need.cons ∨ Instr.qget b0 (0 : PReg) (3 : GReg) (2 : GReg) (0 : BitVec 4) (1 : GReg) = Instr.qstat b0 (0 : PReg) (3 : GReg) (2 : GReg) (0 : BitVec 4) (1 : GReg) ∧ Need.cons = Need.either) ∧ TwigGo wit3 b0 (0 : PReg) 2 [(2 : GReg), (1 : GReg)] ∧ Plain wit3 b0 ∧ wit3.tsbHeld b0 = false ∧ (1024 ≤ BitVec.toNat ((wit3.twig b0).reg (2 : GReg)) ∨ wit3.hasRole b0 (BitVec.toNat ((wit3.twig b0).reg (2 : GReg)) % 1024) Need.cons = false)) ∧
    (WaitsAt wit21 b0 (Instr.qopen b0 (0 : PReg) (3 : GReg) (2 : GReg) (0 : BitVec 4) (1 : GReg))) :=
  ⟨⟨queueGo_of (by decide +kernel), by decide +kernel⟩,
    queueGo_of (by decide +kernel),
    queueGo_of (by decide +kernel),
    ⟨by decide +kernel, twigGo_of (by decide +kernel), by unfold Plain; decide +kernel, by decide +kernel⟩,
    ⟨by decide +kernel, twigGo_of (by decide +kernel), by unfold Plain; decide +kernel, by decide +kernel⟩,
    by unfold WaitsAt; decide +kernel⟩

/-- The hypotheses of Obligations.QueueCommands are met: one bracket for each clause. -/
theorem test_witness_QueueCommands_5 :
    (WaitsAt wit22 b0 (Instr.qtake b0 (0 : PReg) (3 : GReg) (2 : GReg) (0 : BitVec 4) (1 : GReg))) :=
  by unfold WaitsAt; decide +kernel

end W17

namespace W18

def q1 : ActReq := { slot := 0, plot := none, early := 5, ch := some 1 }
def gs (st : GrnSt) (m : Mode) (r : ActReq := q1) (g : Option Grain := none) (s : State := bs) : State := { s with grn := { s.grn with req := some r, st := st, staged := g }, sys := { s.sys with mode := m }, ring := { Ring.start with tick := 5 } }
def m1 : PlotMap := { m0 with plot := 1, vf := some 1, boughs := 6, regions := 2, keep := 0 }
def g2 : Grain := { img with serial := 9, plots := [{ m0 with boughs := 1 }, { m1 with boughs := 6 }], queues := [qrec 0 1 0 0 0 1 0, qrec 1 2 1 0 0 0 0, qrec 3 1 3 0 0 0 0] }
def gx2 : State := { gs .writing .load q1 (some g2) with queues := vmod bs.queues 0 fun q => { q with credits := 3 } }
def gy : State := { gs .writing .load q1 none { bs with grn := { bs.grn with active := some g2, epoch := 5 } } with sys := { bs.sys with mode := .load } }
def gy1 : State := { gy with ring := { gy.ring with tick := 6 } }
def rq : ActReq := { q1 with plot := some 0 }
def g3 : Grain := { img with serial := 9, plots := [{ m0 with boughs := 5, regions := 3 }] }
def rg : State := gs .staged .run rq (some g3)
def rg3 : State := (gs .regraining .run rq (some g3)).modPlot 0 fun x => { x with st := .regraining }
def rg2 : State := { rg3 with boughs := vmod bs.boughs 0 fun y => { y with resetting := true } }

/-- The hypotheses of Obligations.SwitchAndRegrain are met: one bracket for each clause. -/
theorem test_witness_SwitchAndRegrain :
    (gx2.grn.staged = some g2 ∧ gx2.grn.req = some q1 ∧ gx2.sys.mode = Mode.load ∧ gx2.grn.st = GrnSt.writing ∧ (∀ (b : BoughId), (gx2.bough b).resetting = false) ∧ (∀ (b : BoughId) (h : Fin 2), (gx2.half b h).st = HalfSt.free) ∧ (∀ (n : PortId), gx2.grafts[n].st = GraftSt.off)) ∧
    (gy1.grn.active = some g2 ∧ gy1.sys.mode = Mode.load ∧ gy1.grn.st = GrnSt.writing ∧ gy1.grn.staged = none ∧ gy1.grn.waiting = [] ∧ gy1.linearInForce = false ∧ BitVec.toNat gy1.grn.epoch < BitVec.toNat gy1.ring.tick) ∧
    (gy.grn.active = some g2 ∧ gy.sys.mode = Mode.load ∧ gy.grn.st = GrnSt.writing ∧ gy.grn.staged = none ∧ gy.grn.waiting = [] ∧ gy.linearInForce = false ∧ BitVec.toNat gy.ring.tick ≤ BitVec.toNat gy.grn.epoch) ∧
    (rg.grn.staged = some g3 ∧ rg.grn.req = some rq ∧ rq.plot = some (0 : PlotId) ∧ rg.sys.mode = Mode.run ∧ rg.grn.st = GrnSt.staged ∧ rg.plots[(0 : PlotId)].resetBusy = false) ∧
    (rg3.grn.staged = some g3 ∧ rg3.grn.active = some img ∧ rg3.grn.req = some rq ∧ rq.plot = some (0 : PlotId) ∧ rg3.grn.st = GrnSt.regraining ∧ rg3.sys.mode = Mode.run ∧ rg3.regrainReady g3 (0 : PlotId) = true ∧ rg3.grn.waiting = [] ∧ rg3.plots[(0 : PlotId)].resetWaits = false ∧ rg3.plots[(0 : PlotId)].heldEvents = [] ∧ (∀ (n : PortId), rg3.grafts[n].st ≠ GraftSt.up)) ∧
    (rg2.grn.staged = some g3 ∧ (rg2.grn.req.bind fun r => r.plot) = some (0 : PlotId) ∧ rg2.regrainReady g3 (0 : PlotId) = false) :=
  ⟨by decide +kernel,
    by decide +kernel,
    by decide +kernel,
    by decide +kernel,
    by decide +kernel,
    by decide +kernel⟩

end W18

namespace W19

def T0 : Transport := ⟨true, true, true, none, false, false, false⟩
def sp (t : Transport := T0) (f : Hwd → Hwd := id) : State := { bs with hwd := f { bs.hwd with transports := Vector.replicate 9 t } }
def wit14 : State := sp T0 (fun h => { h with engine := some .ledger })
def wit15 : State := sp { T0 with pending := some (.version 1 2), ready := true }
def wit16 : State := { sp with grn := Grn.start }
def se (n : Nat) (e : Bool) : List Session := (List.range n).map fun i => { sid := i, tr := 0, heartbeat := 5, established := e, keyGen := 0 }
def ss (n : Nat) (e : Bool) : State := sp T0 fun h => { h with sessions := se n e, nextSid := n }
def wit17 : State := ss 8 true
def wit18 : State := ss 7 true
def wit19 : State := ss 7 false
def wit20 : Session := ((se 7 true)[3]?).get (by decide +kernel)
def all7 : AlgOffer := ⟨true, true, true, true, true, true⟩
def some6 : AlgOffer := ⟨true, true, true, true, false, true⟩
def wit21 : State := { wit18 with hwd := { wit18.hwd with ide := vmod wit18.hwd.ide 0 fun x => { x with keys := [(1, 0, 7)] } } }

/-- The hypotheses of Obligations.SpdmAndSessions are met: one bracket for each clause. -/
theorem test_witness_SpdmAndSessions :
    (Heard sp (0 : Fin 9) (Instr.getVersion (0 : Fin 9))) ∧
    (Heard sp (8 : Fin 9) (Instr.getVersion (8 : Fin 9))) ∧
    (sp.hwd.transports[(0 : Fin 9)].version = true ∧ Heard sp (0 : Fin 9) (Instr.getCapabilities (0 : Fin 9))) ∧
    (sp.hwd.transports[(4 : Fin 9)].caps = true ∧ (all7.asym = true ∧ all7.hash = true ∧ all7.measSpec = true ∧ all7.dhe = true ∧ all7.aead = true ∧ all7.keySchedule = true) ∧ Heard sp (4 : Fin 9) (Instr.negotiateAlgorithms (4 : Fin 9) all7)) ∧
    (sp.hwd.transports[(4 : Fin 9)].caps = true ∧ (some6.asym = false ∨ some6.hash = false ∨ some6.measSpec = false ∨ some6.dhe = false ∨ some6.aead = false ∨ some6.keySchedule = false) ∧ Heard sp (4 : Fin 9) (Instr.negotiateAlgorithms (4 : Fin 9) some6)) ∧
    (Heard sp (4 : Fin 9) (Instr.spdmUnsupportedRequest (4 : Fin 9) (238 : BitVec 8))) :=
  ⟨by unfold Heard; decide +kernel,
    by unfold Heard; decide +kernel,
    ⟨by decide +kernel, by unfold Heard; decide +kernel⟩,
    ⟨by decide +kernel, by decide +kernel, by unfold Heard; decide +kernel⟩,
    ⟨by decide +kernel, by decide +kernel, by unfold Heard; decide +kernel⟩,
    by unfold Heard; decide +kernel⟩

/-- The hypotheses of Obligations.SpdmAndSessions are met: one bracket for each clause. -/
theorem test_witness_SpdmAndSessions_2 :
    (sp.hwd.transports[(4 : Fin 9)].algs = true ∧ Heard sp (4 : Fin 9) (Instr.getDigests (4 : Fin 9))) ∧
    (sp.hwd.transports[(4 : Fin 9)].algs = true ∧ (1 : BitVec 4) ≠ (0 : BitVec 4) ∧ Heard sp (4 : Fin 9) (Instr.getCertificate (4 : Fin 9) (1 : BitVec 4) 0 4)) ∧
    (sp.hwd.transports[(4 : Fin 9)].algs = true ∧ (1 : BitVec 4) ≠ (0 : BitVec 4) ∧ Heard sp (4 : Fin 9) (Instr.challenge (4 : Fin 9) (1 : BitVec 4) (9 : BitVec 256))) ∧
    (sp.hwd.transports[(4 : Fin 9)].algs = true ∧ sp.hwd.engine = none ∧ sp.sys.pwrFail = false ∧ Heard sp (4 : Fin 9) (Instr.challenge (4 : Fin 9) (0 : BitVec 4) (9 : BitVec 256))) ∧
    (wit14.hwd.transports[(4 : Fin 9)].algs = true ∧ wit14.hwd.engine = some SigReq.ledger ∧ SigReq.ledger ≠ SigReq.spdm (4 : Fin 9) ∧ wit14.sys.pwrFail = false ∧ Heard wit14 (4 : Fin 9) (Instr.challenge (4 : Fin 9) (0 : BitVec 4) (9 : BitVec 256))) ∧
    (sp.hwd.transports[(4 : Fin 9)].algs = true ∧ (BitVec.toNat (5 : BitVec 8) = 0 ∨ 4 < BitVec.toNat (5 : BitVec 8) ∧ (5 : BitVec 8) ≠ (255 : BitVec 8)) ∧ Heard sp (4 : Fin 9) (Instr.getMeasurements (4 : Fin 9) (0 : BitVec 4) (5 : BitVec 8) false (9 : BitVec 256))) :=
  ⟨⟨by decide +kernel, by unfold Heard; decide +kernel⟩,
    ⟨by decide +kernel, by decide +kernel, by unfold Heard; decide +kernel⟩,
    ⟨by decide +kernel, by decide +kernel, by unfold Heard; decide +kernel⟩,
    ⟨by decide +kernel, by decide +kernel, by decide +kernel, by unfold Heard; decide +kernel⟩,
    ⟨by decide +kernel, by decide +kernel, by decide +kernel, by decide +kernel, by unfold Heard; decide +kernel⟩,
    ⟨by decide +kernel, by decide +kernel, by unfold Heard; decide +kernel⟩⟩

/-- The hypotheses of Obligations.SpdmAndSessions are met: one bracket for each clause. -/
theorem test_witness_SpdmAndSessions_3 :
    (sp.hwd.transports[(4 : Fin 9)].algs = true ∧ (BitVec.toNat (0 : BitVec 8) = 0 ∨ 4 < BitVec.toNat (0 : BitVec 8) ∧ (0 : BitVec 8) ≠ (255 : BitVec 8)) ∧ Heard sp (4 : Fin 9) (Instr.getMeasurements (4 : Fin 9) (0 : BitVec 4) (0 : BitVec 8) false (9 : BitVec 256))) ∧
    (sp.hwd.transports[(4 : Fin 9)].algs = true ∧ Heard sp (4 : Fin 9) (Instr.getMeasurements (4 : Fin 9) (0 : BitVec 4) (255 : BitVec 8) false (9 : BitVec 256))) ∧
    (wit15.hwd.transports[(4 : Fin 9)].pending = some (SpdmResp.version 1 2) ∧ wit15.hwd.transports[(4 : Fin 9)].ready = true ∧ Heard wit15 (4 : Fin 9) (Instr.respondIfReady (4 : Fin 9))) ∧
    (wit16.grn.active = none) ∧
    (wit17.hwd.transports[(0 : Fin 9)].algs = true ∧ 8 ≤ wit17.hwd.sessions.length ∧ Heard wit17 (0 : Fin 9) (Instr.keyExchange (0 : Fin 9) (0 : BitVec 4) 5)) ∧
    (wit18.hwd.transports[(0 : Fin 9)].algs = true ∧ wit18.hwd.sessions.length < 8 ∧ wit18.hwd.engine = none ∧ wit18.sys.pwrFail = false ∧ Heard wit18 (0 : Fin 9) (Instr.keyExchange (0 : Fin 9) (0 : BitVec 4) 5)) :=
  ⟨⟨by decide +kernel, by decide +kernel, by unfold Heard; decide +kernel⟩,
    ⟨by decide +kernel, by unfold Heard; decide +kernel⟩,
    ⟨by decide +kernel, by decide +kernel, by unfold Heard; decide +kernel⟩,
    by decide +kernel,
    ⟨by decide +kernel, by decide +kernel, by unfold Heard; decide +kernel⟩,
    ⟨by decide +kernel, by decide +kernel, by decide +kernel, by decide +kernel, by unfold Heard; decide +kernel⟩⟩

/-- The hypotheses of Obligations.SpdmAndSessions are met: one bracket for each clause. -/
theorem test_witness_SpdmAndSessions_4 :
    ((∃ x ∈ wit19.hwd.sessions, x.sid = 3 ∧ x.tr = (0 : Fin 9) ∧ x.established = false) ∧ Heard wit19 (0 : Fin 9) (Instr.finish (0 : Fin 9) 3)) ∧
    ((∃ x ∈ wit18.hwd.sessions, x.sid = 3 ∧ x.tr = (0 : Fin 9) ∧ x.established = true) ∧ Heard wit18 (0 : Fin 9) (Instr.heartbeat (0 : Fin 9) 3)) ∧
    ((∃ x ∈ wit18.hwd.sessions, x.sid = 3 ∧ x.tr = (0 : Fin 9) ∧ x.established = true) ∧ Heard wit18 (0 : Fin 9) (Instr.keyUpdate (0 : Fin 9) 3)) ∧
    ((∃ x ∈ wit18.hwd.sessions, x.sid = 3 ∧ x.tr = (0 : Fin 9) ∧ x.established = true) ∧ Heard wit18 (0 : Fin 9) (Instr.endSession (0 : Fin 9) 3)) ∧
    ((¬∃ x ∈ wit18.hwd.sessions, x.sid = 9 ∧ x.tr = (0 : Fin 9) ∧ x.established = true) ∧ Heard wit18 (0 : Fin 9) (Instr.heartbeat (0 : Fin 9) 9)) ∧
    ((¬∃ x ∈ wit19.hwd.sessions, x.sid = 3 ∧ x.tr = (0 : Fin 9) ∧ x.established = true) ∧ Heard wit19 (0 : Fin 9) (Instr.heartbeat (0 : Fin 9) 3)) :=
  ⟨⟨by decide +kernel, by unfold Heard; decide +kernel⟩,
    ⟨by decide +kernel, by unfold Heard; decide +kernel⟩,
    ⟨by decide +kernel, by unfold Heard; decide +kernel⟩,
    ⟨by decide +kernel, by unfold Heard; decide +kernel⟩,
    ⟨by decide +kernel, by unfold Heard; decide +kernel⟩,
    ⟨by decide +kernel, by unfold Heard; decide +kernel⟩⟩

/-- The hypotheses of Obligations.SpdmAndSessions are met: one bracket for each clause. -/
theorem test_witness_SpdmAndSessions_5 :
    (wit20 ∈ wit18.hwd.sessions ∧ wit20.sid = 3 ∧ wit20.heartbeat ≠ 0) ∧
    (((0 : Fin 9).val = (0 : PortId).val ∧ ∃ x ∈ wit18.hwd.sessions, x.sid = 3 ∧ x.tr = (0 : Fin 9) ∧ x.established = true) ∧ Heard wit18 (0 : Fin 9) (Instr.keyProg (0 : Fin 9) 3 (0 : PortId) (1 : Fin 2) (0 : Fin 3) (7 : BitVec 256))) ∧
    (((0 : Fin 9).val = (0 : PortId).val ∧ ∃ x ∈ wit21.hwd.sessions, x.sid = 3 ∧ x.tr = (0 : Fin 9) ∧ x.established = true) ∧ (∃ key', ((1 : Fin 2), (0 : Fin 3), key') ∈ wit21.hwd.ide[(0 : PortId)].keys) ∧ Heard wit21 (0 : Fin 9) (Instr.kSetGo (0 : Fin 9) 3 (0 : PortId) (1 : Fin 2) (0 : Fin 3))) ∧
    (((0 : Fin 9).val = (0 : PortId).val ∧ ∃ x ∈ wit21.hwd.sessions, x.sid = 3 ∧ x.tr = (0 : Fin 9) ∧ x.established = true) ∧ Heard wit21 (0 : Fin 9) (Instr.kSetStop (0 : Fin 9) 3 (0 : PortId) (1 : Fin 2) (0 : Fin 3))) ∧
    (((0 : Fin 9).val = (0 : PortId).val ∧ ∃ x ∈ wit18.hwd.sessions, x.sid = 3 ∧ x.tr = (0 : Fin 9) ∧ x.established = true) ∧ Heard wit18 (0 : Fin 9) (Instr.query (0 : Fin 9) 3 (0 : PortId))) ∧
    ((¬((0 : Fin 9).val = (1 : PortId).val ∧ ∃ x ∈ wit18.hwd.sessions, x.sid = 3 ∧ x.tr = (0 : Fin 9) ∧ x.established = true)) ∧ Heard wit18 (0 : Fin 9) (Instr.keyProg (0 : Fin 9) 3 (1 : PortId) (1 : Fin 2) (0 : Fin 3) (7 : BitVec 256))) :=
  ⟨by decide +kernel,
    ⟨by decide +kernel, by unfold Heard; decide +kernel⟩,
    ⟨by decide +kernel, ⟨7, by decide +kernel⟩, by unfold Heard; decide +kernel⟩,
    ⟨by decide +kernel, by unfold Heard; decide +kernel⟩,
    ⟨by decide +kernel, by unfold Heard; decide +kernel⟩,
    ⟨by decide +kernel, by unfold Heard; decide +kernel⟩⟩

end W19

namespace W20

def hp : State := (a6.modQueue 1 fun x => { x with prod := some ⟨3, [], 0⟩, credits := 60 }).modPort 0 fun p => { p with downs := 65534 }
def wit3 : State := bs.modVf 1 (fun _ => { enabled := true, msixEn := true, funcMask := true, msixTab := [(3,4)], flrBusy := false })
def wit4 : State := bs.modVf 0 (fun _ => { enabled := true, msixEn := true, funcMask := true, msixTab := [(3,4)], flrBusy := false })
def wit5 : State := a6.modPort 0 (fun p => { p with pf := { enabled := true, msixEn := true, funcMask := true, msixTab := [(3,4)], flrBusy := false } })
def wit6 : State := bs.modPort 0 (fun p => { p with broughtUp := false })
def nq : State := { bs with grn := { bs.grn with active := none } }

/-- The hypotheses of Obligations.FunctionsAndConfig are met: one bracket for each clause. -/
theorem test_witness_FunctionsAndConfig :
    (wit3.portPresent (vfPort wit3.grn.split (1 : VfId)) = true ∧ wit3.ports[vfPort wit3.grn.split (1 : VfId)].linkUp = true ∧ wit3.vfPlot ↑(1 : VfId) = none) ∧
    (wit4.portPresent (vfPort wit4.grn.split (0 : VfId)) = true ∧ wit4.ports[vfPort wit4.grn.split (0 : VfId)].linkUp = true ∧ wit4.vfPlot ↑(0 : VfId) = some m0 ∧ m0.plot < 64 ∧ wit4.plotMap m0.plot = some m0 ∧ wit4.plots[plotId m0.plot].resetBusy = false ∧ wit4.plots[plotId m0.plot].st ≠ PlotSt.regraining) ∧
    (wit5.portPresent (0 : PortId) = true ∧ wit5.ports[(0 : PortId)].linkUp = true ∧ (∀ t ∈ wit5.txns, t.fn = some (HostFn.pf (0 : PortId)) → t.who = Writer.host (0 : PortId))) ∧
    (wit6.ports[(0 : PortId)].linkUp = true ∧ wit6.ports[(0 : PortId)].broughtUp = false ∧ wit6.portWaits (0 : PortId) (Instr.configRequest (0 : PortId) (HostFn.pf (0 : PortId)) (CfgOp.aspmL1 true)) = false) ∧
    (bs.ports[(0 : PortId)].linkUp = true ∧ bs.ports[(0 : PortId)].broughtUp = true ∧ bs.portPresent (0 : PortId) = true ∧ bs.portWaits (0 : PortId) (Instr.configRequest (0 : PortId) (HostFn.pf (0 : PortId)) (CfgOp.aspmL1 true)) = false) ∧
    (bs.ports[(0 : PortId)].linkUp = true ∧ bs.ports[(0 : PortId)].broughtUp = true ∧ bs.portPresent (0 : PortId) = true ∧ 30 ≤ 30 ∧ 30 ≤ 37 ∧ bs.portWaits (0 : PortId) (Instr.configRequest (0 : PortId) (HostFn.pf (0 : PortId)) (CfgOp.resizeBar2 30)) = false) :=
  ⟨by decide +kernel,
    by decide +kernel,
    by decide +kernel,
    by decide +kernel,
    by decide +kernel,
    by decide +kernel⟩

/-- The hypotheses of Obligations.FunctionsAndConfig are met: one bracket for each clause. -/
theorem test_witness_FunctionsAndConfig_2 :
    (bs.ports[(0 : PortId)].linkUp = true ∧ bs.ports[(0 : PortId)].broughtUp = true ∧ bs.portPresent (0 : PortId) = true ∧ 30 ≤ 37 ∧ 37 ≤ 37 ∧ bs.portWaits (0 : PortId) (Instr.configRequest (0 : PortId) (HostFn.pf (0 : PortId)) (CfgOp.resizeBar2 37)) = false) ∧
    (nq.ports[(0 : PortId)].linkUp = true ∧ nq.ports[(0 : PortId)].broughtUp = true ∧ nq.portPresent (0 : PortId) = true ∧ (∀ (e : ℕ), nq.entryPending (HostFn.pf (0 : PortId)) e = false) ∧ nq.portWaits (0 : PortId) (Instr.configRequest (0 : PortId) (HostFn.pf (0 : PortId)) (CfgOp.msixEnable true)) = false) ∧
    (nq.ports[(0 : PortId)].linkUp = true ∧ nq.ports[(0 : PortId)].broughtUp = true ∧ nq.portPresent (0 : PortId) = true ∧ nq.portWaits (0 : PortId) (Instr.configRequest (0 : PortId) (HostFn.pf (0 : PortId)) (CfgOp.vfEnable true)) = false) :=
  ⟨by decide +kernel,
    ⟨by decide +kernel, by decide +kernel, by decide +kernel, fun _ => rfl, by decide +kernel⟩,
    by decide +kernel⟩

end W20

namespace W21

def bt (k : Nat) (f : State → State := id) : State := f { State.reset with sys := { Sys.start with mode := .boot, bootStep := k, resetN := false }, pwr := { Pwr.start with refclkOk := true } }
def bw8 : State := bt 2
def bw9 : State := bt 0
def bw10 : State := bt 1
def bw11 : State := bt 4
def bw12 : State := bt 3
def low (s : State) : State := { s with sys := { s.sys with fwFloor := 0xffff } }
def bw13 : State := low (bt 1)
def imd : Grain := { img with dormantEn := true }
def rn : State := { bs with grn := { bs.grn with active := some imd }, plots := Vector.replicate 64 { Plot.start with st := .parked } }
def wk (k : Nat) (f : State → State := id) : State := f { rn with sys := { rn.sys with mode := .dormant }, pwr := { rn.pwr with wakeStep := k, wakeCause := 4 }, hbm := Vector.replicate 8 { rn.hbm[0] with state := 3 } }
def chn (s : State) : State := { s with pwr := { s.pwr with chained := true } }
def wit13 : State := wk 1
def wit14 : State := wk 2
def wit15 : State := wk 3 chn
def wit16 : State := wk 2 chn
def wit17 : State := wk 4
def wit18 : State := wk 4 (fun s => { s with pwr := { s.pwr with refclkOk := false } })
def wit19 : State := wk 4 chn
def wit20 : State := wk 0 (fun s => { s with pwr := { s.pwr with stoppedUs := some 7 } })
def wit21 : State := wk 4 fun s => { s with pwr := { s.pwr with sigs := (List.range 18).map fun i => (Config.freeWord (s.fresh + i)).truncate 32 } }
theorem wit21_sigs : wit21.pwr.sigs = (List.range 18).map fun i => (Config.freeWord (rn.fresh + i)).truncate 32 := rfl

/-- The hypotheses of Obligations.BootSteps are met: one bracket for each clause. -/
theorem test_witness_BootSteps :
    (bw8.sys.mode = Mode.boot) ∧
    (bw9.sys.mode = Mode.boot ∧ (match bw9.sys.bootStep with | 0 => 1100 | 1 => 45000 | 2 => 12000 | 3 => 20000 | _ => 1000) <   1101) ∧
    (bw9.sys.mode = Mode.boot ∧ 1100 ≤   (match bw9.sys.bootStep with | 0 => 1100 | 1 => 45000 | 2 => 12000 | 3 => 20000 | _ => 1000) ∧ bw9.sys.bootStep = 0) ∧
    (bw13.sys.mode = Mode.boot ∧ 45000 ≤   (match bw13.sys.bootStep with | 0 => 1100 | 1 => 45000 | 2 => 12000 | 3 => 20000 | _ => 1000) ∧ bw13.sys.bootStep = 1 ∧ (Config.fwVerifies bw13.sys.fw[bw13.sys.fwPref].words && decide (bw13.sys.fwFloor.toNat ≤ bw13.sys.fw[bw13.sys.fwPref].serial.toNat)) = false ∧ (Config.fwVerifies bw13.sys.fw[(1 : Fin 2) - bw13.sys.fwPref].words && decide (bw13.sys.fwFloor.toNat ≤ bw13.sys.fw[(1 : Fin 2) - bw13.sys.fwPref].serial.toNat)) = false) ∧
    (bw10.sys.mode = Mode.boot ∧ 45000 ≤   (match bw10.sys.bootStep with | 0 => 1100 | 1 => 45000 | 2 => 12000 | 3 => 20000 | _ => 1000) ∧ bw10.sys.bootStep = 1 ∧ ((6 : BitVec 8) = (1 : BitVec 8) ∨ (6 : BitVec 8) = (2 : BitVec 8) ∨ (6 : BitVec 8) = (6 : BitVec 8))) ∧
    (bw8.sys.mode = Mode.boot ∧ 12000 ≤   (match bw8.sys.bootStep with | 0 => 1100 | 1 => 45000 | 2 => 12000 | 3 => 20000 | _ => 1000) ∧ bw8.sys.bootStep = 2) :=
  ⟨by decide +kernel,
    by decide +kernel,
    by decide +kernel,
    ⟨by decide +kernel, by decide +kernel, by decide +kernel, (by rw [Bool.and_eq_false_iff]; exact Or.inr (by decide +kernel)), (by rw [Bool.and_eq_false_iff]; exact Or.inr (by decide +kernel))⟩,
    by decide +kernel,
    by decide +kernel⟩

/-- The hypotheses of Obligations.BootSteps are met: one bracket for each clause. -/
theorem test_witness_BootSteps_2 :
    (bw8.sys.mode = Mode.boot ∧ 12000 ≤   (match bw8.sys.bootStep with | 0 => 1100 | 1 => 45000 | 2 => 12000 | 3 => 20000 | _ => 1000) ∧ bw8.sys.bootStep = 2 ∧ ((4 : BitVec 8) = (3 : BitVec 8) ∨ (4 : BitVec 8) = (4 : BitVec 8))) ∧
    (bw12.sys.mode = Mode.boot ∧ 20000 ≤   (match bw12.sys.bootStep with | 0 => 1100 | 1 => 45000 | 2 => 12000 | 3 => 20000 | _ => 1000) ∧ bw12.sys.bootStep = 3) ∧
    (bw12.sys.mode = Mode.boot ∧ 20000 ≤   (match bw12.sys.bootStep with | 0 => 1100 | 1 => 45000 | 2 => 12000 | 3 => 20000 | _ => 1000) ∧ bw12.sys.bootStep = 3) ∧
    (bw11.sys.mode = Mode.boot ∧ 1000 ≤   (match bw11.sys.bootStep with | 0 => 1100 | 1 => 45000 | 2 => 12000 | 3 => 20000 | _ => 1000) ∧ bw11.sys.bootStep = 4) :=
  ⟨by decide +kernel,
    by decide +kernel,
    by decide +kernel,
    by decide +kernel⟩

/-- The hypotheses of Obligations.WakeSequence are met: one bracket for each clause. -/
theorem test_witness_WakeSequence :
    (wit13.linearInForce = false ∧ 1 ≤ 1 ∧ 1 ≤ 3 ∧ (wit13.sys.mode = Mode.dormant ∧ wit13.pwr.wakeStep = 1) ∧ wit13.pwr.chained = false ∧ wit13.pwr.refclkOk = true) ∧
    (wit14.linearInForce = false ∧ 1 ≤ 2 ∧ 2 ≤ 3 ∧ (wit14.sys.mode = Mode.dormant ∧ wit14.pwr.wakeStep = 2) ∧ wit14.pwr.chained = false ∧ wit14.pwr.refclkOk = true) ∧
    (wit15.linearInForce = false ∧ 1 ≤ 3 ∧ 3 ≤ 3 ∧ (wit15.sys.mode = Mode.dormant ∧ wit15.pwr.wakeStep = 3) ∧ wit15.pwr.chained = true ∧ wit15.pwr.refclkOk = true ∧ 10000 ≤ 10000 ∧ (wit15.pwr.lateStep.toNat ≠ 3 ∨ (if 3 = 1 then 150 else if 3 = 2 then 60 else if 3 = 3 then 120 else 70) ≤ 10000)) ∧
    (wit16.linearInForce = false ∧ 1 ≤ 2 ∧ 2 ≤ 3 ∧ (wit16.sys.mode = Mode.dormant ∧ wit16.pwr.wakeStep = 2) ∧ wit16.pwr.chained = true ∧ wit16.pwr.refclkOk = true ∧ 60 ≤ 10000 ∧ (wit16.pwr.lateStep.toNat ≠ 2 ∨ (if 2 = 1 then 150 else if 2 = 2 then 60 else if 2 = 3 then 120 else 70) ≤ 60)) ∧
    (wit13.linearInForce = false ∧ 1 ≤ 1 ∧ 1 ≤ 4 ∧ (wit13.sys.mode = Mode.dormant ∧ wit13.pwr.wakeStep = 1) ∧ wit13.pwr.chained = false ∧ (false = false ∨ wit13.pwr.refclkOk = false)) ∧
    (wit17.linearInForce = false ∧ 1 ≤ 4 ∧ 4 ≤ 4 ∧ (wit17.sys.mode = Mode.dormant ∧ wit17.pwr.wakeStep = 4) ∧ wit17.pwr.chained = false ∧ (false = false ∨ wit17.pwr.refclkOk = false)) :=
  ⟨by decide +kernel,
    by decide +kernel,
    by decide +kernel,
    by decide +kernel,
    by decide +kernel,
    by decide +kernel⟩

/-- The hypotheses of Obligations.WakeSequence are met: one bracket for each clause. -/
theorem test_witness_WakeSequence_2 :
    (wit18.linearInForce = false ∧ 1 ≤ 4 ∧ 4 ≤ 4 ∧ (wit18.sys.mode = Mode.dormant ∧ wit18.pwr.wakeStep = 4) ∧ wit18.pwr.chained = false ∧ (true = false ∨ wit18.pwr.refclkOk = false)) ∧
    (wit21.linearInForce = false ∧ (wit21.sys.mode = Mode.dormant ∧ wit21.pwr.wakeStep = 4) ∧ wit21.pwr.chained = false ∧ wit21.pwr.refclkOk = true ∧ wit21.pwr.late = false ∧ wit21.pwr.stoppedUs = none ∧ (∀ (n : PortId), wit21.ports[n].held = []) ∧ (∀ i < 18, wit21.pwr.sigs[i]? = some (BitVec.truncate 32 (Config.freeWord (wit21.fresh + i)))) ∧ wit21.pwr.sigs.length = 18) ∧
    (wit19.linearInForce = false ∧ 1 ≤ 4 ∧ 4 ≤ 4 ∧ (wit19.sys.mode = Mode.dormant ∧ wit19.pwr.wakeStep = 4) ∧ wit19.pwr.chained = true ∧ (∀ (n : PortId), wit19.ports[n].held = [])) ∧
    (wit13.linearInForce = false ∧ wit13.pwr.chained = false) ∧
    (wit13.linearInForce = false ∧ wit13.sys.mode = Mode.dormant) ∧
    (wit20.linearInForce = false ∧ wit20.sys.mode = Mode.dormant) :=
  ⟨by decide +kernel,
    ⟨by decide +kernel, by decide +kernel, by decide +kernel, by decide +kernel, by decide +kernel, by decide +kernel, by decide +kernel, (by intro i hi; rw [wit21_sigs, List.getElem?_map, List.getElem?_range hi]; rfl), by decide +kernel⟩,
    by decide +kernel,
    by decide +kernel,
    by decide +kernel,
    by decide +kernel⟩

/-- The hypotheses of Obligations.WakeSequence are met: one bracket for each clause. -/
theorem test_witness_WakeSequence_3 :
    (rn.linearInForce = false ∧ rn.sys.mode ≠ Mode.dormant) :=
  by decide +kernel

end W21

namespace W22

def gr (st : GraftSt) (f : GraftPort → GraftPort := id) : State := { bs with grafts := vmod bs.grafts 0 fun p => f { p with st := st } }
def wit1 : State := gr .listen
def wit2 : State := gr .up
def wit3 : State := gr .hello
def wit4 : State := gr .train
def wit5 : State := gr .refused
def wit6 : State := gr .up (fun p => { p with unacked := List.replicate 511 ⟨3,1,[],0⟩ })
def wit7 : State := gr .hello (fun p => { p with helloAcked := true })
def wit8 : State := gr .hello (fun p => { p with txSeq := 1, unacked := [⟨0,1,[],0⟩] })
def wit9 : State := gr .hello (fun p => { p with txSeq := 1, unacked := [⟨0,1,[],0⟩], helloSeen := true })
def wit10 : State := gr .auth
def wit11 : State := gr .admitting (fun p => { p with admitSent := true, peerAdmit := [⟨77, 2⟩] })
def wit12 : State := gr .off
def w13 : OpenProd := ⟨2, [⟨2, false, false⟩], 0⟩
def gq (f : Queue → Queue := id) : State := { gr .up (fun p => { p with tags := [(77, 3), (78, 2)] }) with queues := vmod (vmod bs.queues 5 fun q => f { q with credits := 64 }) 6 f }
def wit13 : State := gq fun q => { q with prod := some w13, rxPseq := some 9 }
def wit14 : State := gq fun q => { q with rxClosed := some 9 }
def pk : Packet := ⟨1, 2, [⟨2, false, false⟩], 0, false⟩
def wit15 : State := gq fun q => { q with txBusy := true, txPseq := 3, pending := [pk, pk] }
def wf (c k : Nat) : WFlit := ⟨c, c, k, []⟩
def wit16 : State := gr .hello fun p => { p with waiting := [wf 4 1] }
def w0 : Word × Bool := (2 + 5 * 2 ^ 16, false)
def nonce : State := gr .auth fun p => { p with rxNonce := List.replicate 95 0 }
def sig : State := gr .auth fun p => { p with rxNonce := List.replicate 96 0 }
def odd : State := gr .up fun p => { p with waiting := [wf 3 7, wf 2 8] }
def gl : Link := Link.armed 0x10000000 77 none 256
def lk : State := { gr .up with links := [gl] }
def wd (n : Nat) (p : Bool := false) : Word × Bool := (BitVec.ofNat 64 n, p)

/-- The hypotheses of Obligations.GraftTraining are met: one bracket for each clause. -/
theorem test_witness_GraftTraining :
    (wit1.grafts[(0 : PortId)].st ≠ GraftSt.up ∧ wit1.grafts[(0 : PortId)].st ≠ GraftSt.off ∧ wit1.sys.mode ≠ Mode.dormant) ∧
    (wit2.grafts[(0 : PortId)].st = GraftSt.up ∨ wit2.grafts[(0 : PortId)].st = GraftSt.off) ∧
    (wit1.sys.mode ≠ Mode.drain ∧ wit1.sys.mode ≠ Mode.dormant ∧ wit1.grafts[(0 : PortId)].st = GraftSt.listen) ∧
    (wit3.sys.mode ≠ Mode.drain ∧ wit3.sys.mode ≠ Mode.dormant ∧ wit3.grafts[(0 : PortId)].st ≠ GraftSt.listen) ∧
    (wit4.grafts[(0 : PortId)].st = GraftSt.train) ∧
    (wit2.grafts[(0 : PortId)].st ≠ GraftSt.train) :=
  ⟨by decide +kernel,
    by decide +kernel,
    by decide +kernel,
    by decide +kernel,
    by decide +kernel,
    by decide +kernel⟩

/-- The hypotheses of Obligations.GraftTraining are met: one bracket for each clause. -/
theorem test_witness_GraftTraining_2 :
    (wit3.grafts[(0 : PortId)].st = GraftSt.hello) ∧
    (wit5.grafts[(0 : PortId)].st = GraftSt.refused) ∧
    (wit2.grafts[(0 : PortId)].st ≠ GraftSt.refused) ∧
    ((wit6.grafts[(0 : PortId)].st = GraftSt.hello ∨ wit6.grafts[(0 : PortId)].st = GraftSt.up) ∧ wit6.grafts[(0 : PortId)].waiting = [] ∧ wit6.grafts[(0 : PortId)].unacked.length < 512) ∧
    ((wit3.grafts[(0 : PortId)].st = GraftSt.hello ∨ wit3.grafts[(0 : PortId)].st = GraftSt.up) ∧ wit3.grafts[(0 : PortId)].waiting = [] ∧ wit3.grafts[(0 : PortId)].unacked.length < 512) ∧
    ((wit16.grafts[(0 : PortId)].st = GraftSt.hello ∨ wit16.grafts[(0 : PortId)].st = GraftSt.up) ∧ wit16.grafts[(0 : PortId)].waiting ≠ []) :=
  ⟨by decide +kernel,
    by decide +kernel,
    by decide +kernel,
    by decide +kernel,
    by decide +kernel,
    by decide +kernel⟩

/-- The hypotheses of Obligations.GraftTraining are met: one bracket for each clause. -/
theorem test_witness_GraftTraining_3 :
    (wit3.grafts[(0 : PortId)].st = GraftSt.hello ∧ wit3.grafts[(0 : PortId)].helloAcked = false) ∧
    (wit7.grafts[(0 : PortId)].st = GraftSt.hello ∧ wit7.grafts[(0 : PortId)].helloAcked = true) ∧
    (wit3.grafts[(0 : PortId)].st = GraftSt.hello ∧ (2 : BitVec 16) ≠ (1 : BitVec 16)) ∧
    (wit8.grafts[(0 : PortId)].st = GraftSt.hello ∧ (∀ f ∈ wit8.grafts[(0 : PortId)].unacked, ((1 : BitVec 10) - f.seq - (1 : BitVec 10)).toNat < 512) ∧ wit8.grafts[(0 : PortId)].txSeq ≠ (0 : BitVec 10)) ∧
    (wit9.grafts[(0 : PortId)].st = GraftSt.hello ∧ (∀ f ∈ wit9.grafts[(0 : PortId)].unacked, ((1 : BitVec 10) - f.seq - (1 : BitVec 10)).toNat < 512) ∧ wit9.grafts[(0 : PortId)].txSeq ≠ (0 : BitVec 10)) :=
  ⟨by decide +kernel,
    by decide +kernel,
    by decide +kernel,
    by decide +kernel,
    by decide +kernel⟩

/-- The hypotheses of Obligations.GraftAuthentication are met: one bracket for each clause. -/
theorem test_witness_GraftAuthentication :
    (wit10.grafts[(0 : PortId)].st = GraftSt.auth ∧ BitVec.toNat (0 : BitVec 16) = wit10.grafts[(0 : PortId)].rxChain.length) ∧
    (wit10.grafts[(0 : PortId)].st = GraftSt.auth ∧ BitVec.toNat (1 : BitVec 16) ≠ wit10.grafts[(0 : PortId)].rxChain.length) ∧
    (wit10.grafts[(0 : PortId)].st = GraftSt.auth ∧ BitVec.toNat (0 : BitVec 16) = wit10.grafts[(0 : PortId)].rxNonce.length ∧ wit10.grafts[(0 : PortId)].rxNonce.length + [(1 : Byte), (2 : Byte)].length < 96) ∧
    (nonce.grafts[(0 : PortId)].st = GraftSt.auth ∧ BitVec.toNat (95 : BitVec 16) = nonce.grafts[(0 : PortId)].rxNonce.length ∧ nonce.grafts[(0 : PortId)].rxNonce.length + [(1 : Byte)].length = 96) ∧
    (sig.grafts[(0 : PortId)].st = GraftSt.auth ∧ BitVec.toNat (0 : BitVec 16) = sig.grafts[(0 : PortId)].rxSig.length ∧ sig.grafts[(0 : PortId)].rxSig.length + (List.replicate 96 (0 : Byte)).length = 96 ∧ sig.grafts[(0 : PortId)].rxNonce.length = 96) ∧
    (wit2.grafts[(0 : PortId)].st ≠ GraftSt.auth) :=
  ⟨by decide +kernel,
    by decide +kernel,
    by decide +kernel,
    by decide +kernel,
    by decide +kernel,
    by decide +kernel⟩

/-- The hypotheses of Obligations.GraftAuthentication are met: one bracket for each clause. -/
theorem test_witness_GraftAuthentication_2 :
    (wit2.grafts[(0 : PortId)].st = GraftSt.auth ∨ wit2.grafts[(0 : PortId)].st = GraftSt.admitting ∧ false = false ∨ wit2.grafts[(0 : PortId)].st = GraftSt.up ∧ false = false) ∧
    (wit10.grafts[(0 : PortId)].st = GraftSt.auth ∨ wit10.grafts[(0 : PortId)].st = GraftSt.admitting ∧ true = false ∨ wit10.grafts[(0 : PortId)].st = GraftSt.up ∧ true = false) ∧
    (wit11.grafts[(0 : PortId)].st = GraftSt.admitting ∧ wit11.grafts[(0 : PortId)].admitSent = true) ∧
    (wit12.grafts[(0 : PortId)].st = GraftSt.listen ∨ wit12.grafts[(0 : PortId)].st = GraftSt.off ∨ wit12.grafts[(0 : PortId)].st = GraftSt.refused) :=
  ⟨by decide +kernel,
    by decide +kernel,
    by decide +kernel,
    by decide +kernel⟩

/-- The hypotheses of Obligations.GraftPackets are met: one bracket for each clause. -/
theorem test_witness_GraftPackets :
    (gq.grafts[(0 : PortId)].st = GraftSt.up ∧ ((77 : BitVec 32), 3) ∈ gq.grafts[(0 : PortId)].tags ∧ gq.rxQueue (0 : PortId) (77 : BitVec 32) = some (5 : QueueId) ∧ gq.queues[(5 : QueueId)].wasClosed (9 : BitVec 16) = false ∧ gq.queues[(5 : QueueId)].prod = none ∧ BitVec.toNat w0.1 % 65536 + 1 ≤ gq.queues[(5 : QueueId)].credits ∧ [wd 1].length < BitVec.toNat w0.1 % 65536) ∧
    (wit13.grafts[(0 : PortId)].st = GraftSt.up ∧ ((77 : BitVec 32), 3) ∈ wit13.grafts[(0 : PortId)].tags ∧ wit13.rxQueue (0 : PortId) (77 : BitVec 32) = some (5 : QueueId) ∧ wit13.queues[(5 : QueueId)].wasClosed (9 : BitVec 16) = false ∧ wit13.queues[(5 : QueueId)].prod = some w13 ∧ wit13.queues[(5 : QueueId)].rxPseq = some (9 : BitVec 16) ∧ w13.words ≠ [] ∧ w13.words.length + [wd 1].length < w13.cap + 1) ∧
    (wit13.grafts[(0 : PortId)].st = GraftSt.up ∧ ((77 : BitVec 32), 3) ∈ wit13.grafts[(0 : PortId)].tags ∧ wit13.rxQueue (0 : PortId) (77 : BitVec 32) = some (5 : QueueId) ∧ wit13.queues[(5 : QueueId)].wasClosed (9 : BitVec 16) = false ∧ wit13.queues[(5 : QueueId)].prod = some w13 ∧ wit13.queues[(5 : QueueId)].rxPseq = some (9 : BitVec 16) ∧ w13.words = [QWord.mk (2 : Word) false false] ∧ w13.words.length + [wd 1, wd 8 true].length = w13.cap + 1) ∧
    (wit13.grafts[(0 : PortId)].st = GraftSt.up ∧ ((77 : BitVec 32), 3) ∈ wit13.grafts[(0 : PortId)].tags ∧ wit13.rxQueue (0 : PortId) (77 : BitVec 32) = some (5 : QueueId) ∧ wit13.queues[(5 : QueueId)].wasClosed (9 : BitVec 16) = false ∧ wit13.queues[(5 : QueueId)].prod = some w13 ∧ wit13.queues[(5 : QueueId)].rxPseq = some (9 : BitVec 16)) ∧
    (wit14.grafts[(0 : PortId)].st = GraftSt.up ∧ ((77 : BitVec 32), 3) ∈ wit14.grafts[(0 : PortId)].tags ∧ wit14.rxQueue (0 : PortId) (77 : BitVec 32) = some (5 : QueueId) ∧ wit14.queues[(5 : QueueId)].wasClosed (9 : BitVec 16) = true) ∧
    (wit15.grafts[(0 : PortId)].st = GraftSt.up ∧ ((78 : BitVec 32), 2) ∈ wit15.grafts[(0 : PortId)].tags ∧ wit15.txQueue (0 : PortId) (78 : BitVec 32) = some (6 : QueueId) ∧ wit15.queues[(6 : QueueId)].txBusy = true ∧ wit15.queues[(6 : QueueId)].txPseq = (3 : BitVec 16) ∧ wit15.queues[(6 : QueueId)].pending = [pk, pk]) :=
  ⟨by decide +kernel,
    by decide +kernel,
    by decide +kernel,
    by decide +kernel,
    by decide +kernel,
    by decide +kernel⟩

/-- The hypotheses of Obligations.GraftPackets are met: one bracket for each clause. -/
theorem test_witness_GraftPackets_2 :
    (wit15.grafts[(0 : PortId)].st = GraftSt.up ∧ ((78 : BitVec 32), 2) ∈ wit15.grafts[(0 : PortId)].tags ∧ wit15.txQueue (0 : PortId) (78 : BitVec 32) = some (6 : QueueId) ∧ wit15.queues[(6 : QueueId)].txPseq ≠ (4 : BitVec 16)) ∧
    (wit15.grafts[(0 : PortId)].st = GraftSt.up ∧ wit15.txQueue (0 : PortId) (78 : BitVec 32) = some (6 : QueueId) ∧ (wit15.queues[(6 : QueueId)].txBusy = true ∨ wit15.queues[(6 : QueueId)].pending = [])) ∧
    (lk.grafts[(0 : PortId)].st = GraftSt.up ∧ lk.links[0]? = some gl ∧ (∀ (j : ℕ) (k : Link), lk.links[j]? = some k → (k.toGraft = true ∧ k.outPort = (0 : PortId) ∧ k.tag = (77 : BitVec 32) ∧ k.broken = false ↔ j = 0))) ∧
    (odd.grafts[(0 : PortId)].st = GraftSt.up ∧ odd.grafts[(0 : PortId)].choose = some (wf 2 8)) :=
  ⟨by decide +kernel,
    by decide +kernel,
    ⟨by decide +kernel, by decide +kernel, (by intro j k e; cases j with | zero => cases e; decide +kernel | succ j => exact nomatch (e : (none : Option Link) = some k))⟩,
    by decide +kernel⟩

end W22

end Sys2Proof.Tests
end

section
/-! SUPPORT. Host reads (R270, R302, R310): what a request asks for, what its completion carries, and the settling of O30. -/

namespace Sys2Proof.Machine

open Sys2Proof.Safety

/-! ### Ports -/

theorem vmod_same {α : Type} {k : Nat} (v : Vector α k) (i : Fin k) (f : α → α) (h : f v[i] = v[i]) : vmod v i f = v :=
  (congrArg (vset v i) h).trans (vset_same v i)

theorem State.modPort_same (s : State) (n : PortId) (f : HostPort → HostPort) (h : f s.ports[n] = s.ports[n]) : s.modPort n f = s :=
  congrArg (fun ps => { s with ports := ps }) (vmod_same s.ports n f h)

theorem State.modPort_port_self (s : State) (n : PortId) (f : HostPort → HostPort) : (s.modPort n f).ports[n] = f s.ports[n] :=
  vmod_get_self s.ports n f

theorem State.modPort_modPort (s : State) (n : PortId) (f g : HostPort → HostPort) : (s.modPort n f).modPort n g = s.modPort n (g ∘ f) := by
  have h : vmod (vmod s.ports n f) n g = vmod s.ports n (g ∘ f) := by
    show vset (vset s.ports n _) n (g (vmod s.ports n f)[n]) = _
    rw [vset_vset, vmod_get_self]
    rfl
  exact congrArg (fun ps => { s with ports := ps }) h

/-- A command that updates port n alone of the ports keeps the frame `OnlyPort`. -/
theorem onlyPort_of_ports_eq_vmod {s s' : State} {n : PortId} (f : HostPort → HostPort) (h : s'.ports = vmod s.ports n f) : OnlyPort n s s' := by
  show vset s'.ports n s.ports[n] = s.ports
  rw [h]
  exact (vset_vset _ _ _ _).trans (vset_same _ _)

/-- A port that holds no TLP has none to serve. -/
theorem State.serveHeld_of_held_nil (s : State) (n : PortId) (h : s.ports[n].held = []) : s.serveHeld n = s := by
  have hsame : (s.modPort n fun p => { p with held := [] }) = s := s.modPort_same n _ (by rw [← h])
  rw [State.serveHeld, h, hsame, State.serveSome, ite_self]

/-! ### The request -/

theorem exec_hostReadRequest (s : State) (n : PortId) (tag : Nat) (fn : HostFn) (bar2 : Bool) (off len : Nat) :
    exec (.hostReadRequest n tag fn bar2 off len) s = .next (s.takeRead s.nextId n tag fn bar2 off len) := rfl

theorem tlpFits_iff (off len most : Nat) : tlpFits off len most = true ↔ 0 < len ∧ len ≤ most ∧ off / 4096 = (off + len - 1) / 4096 := by
  simp [tlpFits, and_assoc]

/-- A read that its port takes and that need not wait is performed at once. -/
theorem State.takeRead_of_taken (s : State) (ord : Nat) (n : PortId) (tag : Nat) (bar2 : Bool) (off len : Nat)
    (htakes : s.takesTlp (.pf n) = true) (htlp : s.tlpWaits (.pf n) (.hostReadRequest n tag (.pf n) bar2 off len) = false)
    (hwaits : s.readWaits n tag off len ord = false) : s.takeRead ord n tag (.pf n) bar2 off len = s.hostRead n tag (.pf n) bar2 off len := by
  simp [State.takeRead, htakes, htlp, hwaits, fnPort]

theorem State.addRead_ports (s : State) (n : PortId) (r : HRead) :
    (s.addRead n r).ports = vmod s.ports n fun p => { p with reads := p.reads ++ [r] } := rfl

/-- A read request that asks for `len` bytes of memory at `a`, with none of its parts there yet. -/
def HRead.ofMem (tag : Nat) (fn : HostFn) (off len a : Nat) : HRead :=
  { tag := tag, fn := fn, addr := a, len := len, parts := readParts a len, tags := readTags off len, answer := none, fault := none,
    absorb := false }

/-- A read through BAR2 that leads to memory is put down at its port and its parts are sent. -/
theorem State.hostRead_of_mem (s : State) (n : PortId) (tag : Nat) (fn : HostFn) (off len a : Nat) (hfits : tlpFits off len 4096 = true)
    (ha : s.bar2 fn off = .mem a) :
    s.hostRead n tag fn true off len = (s.addRead n (HRead.ofMem tag fn off len a)).sendParts n tag 0 (readParts a len) := by
  simp [State.hostRead, hfits, ha, HRead.ofMem]

/-- Sending parts draws a number for each and reaches only the slices and the scratchpads. -/
theorem State.sendParts_eq (s : State) (n : PortId) (tag i : Nat) (ps : List HPart) :
    ∃ slices scr, s.sendParts n tag i ps = { s with slices := slices, scr := scr, nextId := s.nextId + ps.length } := by
  induction ps generalizing s i with
  | nil => exact ⟨s.slices, s.scr, rfl⟩
  | cons p ps ih =>
    rw [List.length_cons, Nat.add_comm ps.length 1, ← Nat.add_assoc]
    unfold State.sendParts
    -- The first part goes to a scratchpad's inbox or to a slice's.
    split <;> exact ih _ (i + 1)

/-- Every byte of a read lies in one of its parts: the granule of the byte has a part, and that part reaches from the lowest to the highest
byte of the read in the granule (R270). -/
theorem readParts_cover {a len x : Nat} (hlo : a ≤ x) (hhi : x < a + len) : ∃ p ∈ readParts a len, p.addr ≤ x ∧ x < p.addr + p.len := by
  have hg : a / 64 + (x / 64 - a / 64) = x / 64 := by omega
  refine ⟨_, List.mem_map.mpr ⟨x / 64 - a / 64, List.mem_range.mpr (by omega), rfl⟩, ?_⟩
  simp only [hg]
  split_ifs with hhalf
  · dsimp only; omega
  · dsimp only; omega

/-- A physical function's read of memory that need not wait: the read is put down at its port, a number is drawn for each part, and only the
slices and the scratchpads change besides. -/
theorem exec_hostReadRequest_of_mem (s : State) (n : PortId) (tag off len a : Nat) (htakes : s.takesTlp (.pf n) = true)
    (htlp : s.tlpWaits (.pf n) (.hostReadRequest n tag (.pf n) true off len) = false) (hwaits : s.readWaits n tag off len s.nextId = false)
    (hfits : tlpFits off len 4096 = true) (ha : s.ports[n].pfWindow off = .mem a) :
    ∃ slices scr, exec (.hostReadRequest n tag (.pf n) true off len) s =
      .next { s.addRead n (HRead.ofMem tag (.pf n) off len a) with
              slices := slices, scr := scr, nextId := s.nextId + (readParts a len).length } := by
  rw [exec_hostReadRequest, s.takeRead_of_taken _ n tag true off len htakes htlp hwaits, s.hostRead_of_mem n tag (.pf n) off len a hfits ha]
  obtain ⟨slices, scr, hsent⟩ := State.sendParts_eq (s.addRead n (HRead.ofMem tag (.pf n) off len a)) n tag 0 (readParts a len)
  exact ⟨slices, scr, congrArg Host.Outcome.next hsent⟩

/-! ### The completion -/

theorem exec_hostReadCompletion (s : State) (n : PortId) (tag : Nat) :
    exec (.hostReadCompletion n tag) s = .next ((s.completeRead n tag).serveHeld n) := rfl

theorem placeOf_of_lt_rootSize {a : Nat} (h : a < rootSize) : placeOf a = .root (a / 0x10000000) := if_pos h

/-- A part in root memory has its data from its slice: completing the read performs nothing for it. -/
theorem State.scratchPart_of_root (s : State) (n : PortId) (tag : Nat) (p : HPart) (h : p.addr < rootSize) : s.scratchPart n tag p = s := by
  rw [State.scratchPart, placeOf_of_lt_rootSize h]

theorem State.foldl_scratchPart_of_root (s : State) (n : PortId) (tag : Nat) (ps : List HPart) (h : ∀ p ∈ ps, p.addr < rootSize) :
    ps.foldl (fun s p => s.scratchPart n tag p) s = s := by
  induction ps with
  | nil => rfl
  | cons p ps ih =>
    rw [List.foldl_cons, s.scratchPart_of_root n tag p (h p (by simp))]
    exact ih fun q hq => h q (by simp [hq])

/-- A read of root memory is finished once every part has its data. -/
theorem State.completeRead_of_filled (s : State) (n : PortId) (tag : Nat) (r : HRead)
    (hr : s.ports[n].reads.find? (fun r => decide (r.tag = tag)) = some r) (hroot : ∀ p ∈ r.parts, p.addr < rootSize)
    (hfilled : ∀ p ∈ r.parts, p.data.isSome = true) : s.completeRead n tag = s.finishRead n r := by
  simp only [State.completeRead, hr, s.foldl_scratchPart_of_root n tag r.parts hroot, List.all_eq_true.mpr hfilled, if_true]

/-- The bytes of a read whose one part holds them all, low address first. -/
theorem HRead.bytes_of_one_part {r : HRead} {p : HPart} {c : Chunk} (hp : r.parts = [p]) (hc : p.data = some c) (hlo : c.base ≤ r.addr)
    (hhi : r.addr + r.len ≤ c.base + c.data.length) : r.bytes = (c.data.drop (r.addr - c.base)).take r.len := by
  apply List.ext_getElem
  · simp only [HRead.bytes, List.length_map, List.length_range, List.length_take, List.length_drop]
    omega
  · intro i hi _
    have hi : i < r.len := by simpa [HRead.bytes] using hi
    have hsub : r.addr + i - c.base = r.addr - c.base + i := by omega
    have hlt : r.addr - c.base + i < c.data.length := by omega
    simp [HRead.bytes, hp, hc, Chunk.byteAt, hsub, Nat.le_add_right_of_le hlo, hlt]

/-- A read of memory whose parts brought no poisoned word returns its bytes without EP. -/
theorem State.readAnswer_of_clean (s : State) (n : PortId) {r : HRead} (hanswer : r.answer = none) (hfault : r.fault = none)
    (hclean : ∀ p ∈ r.parts, ∀ c, p.data = some c → (c.poison.any fun b => b) = false) : s.readAnswer n r = (s, r.bytes, false) := by
  simp only [State.readAnswer, hanswer, hfault]
  split_ifs with hbad
  · obtain ⟨p, hp, hpoison⟩ := List.any_eq_true.mp hbad
    cases hd : p.data with
    | none => simp [hd] at hpoison
    | some c => simp [hd, hclean p hp c hd] at hpoison
  · rw [Bool.eq_false_of_not_eq_true hbad]

/-- A port after a completion of `len` bytes for a tag: the read is gone and the bytes are counted. -/
def HostPort.completed (p : HostPort) (tag len : Nat) : HostPort :=
  { p with reads := p.reads.filter fun q => q.tag ≠ tag, tx := p.tx + BitVec.ofNat 48 len }

theorem HostPort.completed_reads_of_only {p : HostPort} {r : HRead} (len : Nat) (h : p.reads = [r]) : (p.completed r.tag len).reads = [] := by
  simp [HostPort.completed, h]

/-- A physical function's clean read leaves its port, counts its bytes and sends its completion. -/
theorem State.finishRead_of_clean (s : State) (n : PortId) {r : HRead} (hfn : r.fn = .pf n) (habsorb : r.absorb = false)
    (hanswer : r.answer = none) (hfault : r.fault = none)
    (hclean : ∀ p ∈ r.parts, ∀ c, p.data = some c → (c.poison.any fun b => b) = false) :
    s.finishRead n r = (s.modPort n fun p => p.completed r.tag r.len).emit (.completion n r.tag true false r.bytes) := by
  have hport : (s.dropRead n r.tag).txBytes n r.len = s.modPort n fun p => p.completed r.tag r.len := State.modPort_modPort ..
  simp [State.finishRead, habsorb, State.readAnswer_of_clean _ n hanswer hfault hclean, hfn, State.meterHost, hport]

/-- A physical function's clean read of root memory with every part there, at a port that holds no TLP: the completion goes out. -/
theorem exec_hostReadCompletion_of_filled (s : State) (n : PortId) {r : HRead} (hfind : s.ports[n].reads.find? (fun q => decide (q.tag = r.tag)) = some r)
    (hheld : s.ports[n].held = []) (hfn : r.fn = .pf n) (habsorb : r.absorb = false) (hanswer : r.answer = none) (hfault : r.fault = none)
    (hroot : ∀ p ∈ r.parts, p.addr < rootSize) (hfilled : ∀ p ∈ r.parts, p.data.isSome = true)
    (hclean : ∀ p ∈ r.parts, ∀ c, p.data = some c → (c.poison.any fun b => b) = false) :
    exec (.hostReadCompletion n r.tag) s = .next ((s.modPort n fun p => p.completed r.tag r.len).emit (.completion n r.tag true false r.bytes)) := by
  have hport : ((s.modPort n fun p => p.completed r.tag r.len).emit (.completion n r.tag true false r.bytes)).ports[n].held = [] :=
    (congrArg HostPort.held (s.modPort_port_self n _)).trans hheld
  rw [exec_hostReadCompletion, s.completeRead_of_filled n r.tag r hfind hroot hfilled, s.finishRead_of_clean n hfn habsorb hanswer hfault hclean,
    State.serveHeld_of_held_nil _ n hport]

end Sys2Proof.Machine

open Sys2Proof Sys2Proof.Machine Sys2Proof.Safety

/-- Settles O30: the request by `readParts_cover` and `State.sendParts_eq`, the completion by `HRead.bytes_of_one_part`. -/
theorem hostReads : Obligations.HostReads := by
  unfold Obligations.HostReads
  constructor
  · intro s n tag off len a htakes htlp hwaits hpos hmost hblock ha
    have hfits : tlpFits off len 4096 = true := (tlpFits_iff ..).mpr ⟨hpos, hmost, hblock⟩
    obtain ⟨slices, scr, hexec⟩ := exec_hostReadRequest_of_mem s n tag off len a htakes htlp hwaits hfits ha
    refine ⟨_, hexec, ⟨HRead.ofMem tag (.pf n) off len a, ?_, rfl, rfl, rfl, rfl, fun _ => readParts_cover⟩, rfl, rfl, ?_, rfl⟩
    · exact congrArg HostPort.reads (s.modPort_port_self n _)
    · exact onlyPort_of_ports_eq_vmod _ (s.addRead_ports n _)
  · intro s n tag r c p hreads hheld htag hfn habsorb hanswer hfault hparts hdata hlo hhi hroot hclean
    subst htag
    have hfind : s.ports[n].reads.find? (fun q => decide (q.tag = r.tag)) = some r := by
      rw [hreads, List.find?_cons_of_pos (by simp)]
    have hexec := exec_hostReadCompletion_of_filled s n hfind hheld hfn habsorb hanswer hfault (by simpa [hparts]) (by simp [hparts, hdata])
      (by simpa [hparts, hdata] using hclean)
    have hport := s.modPort_port_self n fun p => p.completed r.tag r.len
    rw [HRead.bytes_of_one_part hparts hdata hlo hhi] at hexec
    refine ⟨_, hexec, rfl, ?_, congrArg HostPort.tx hport, rfl, ?_, rfl⟩
    · exact (congrArg HostPort.reads hport).trans (HostPort.completed_reads_of_only _ hreads)
    · exact onlyPort_of_ports_eq_vmod (fun p => p.completed r.tag r.len) rfl

end

section
/-! SUPPORT. Dispatch, stream requests and the responses that fill (R24, R28, R30, R31, R33, R303-R305): what each does to its bough, and the
settling of O18. -/

namespace Sys2Proof.Machine

open Sys2Proof.Safety

/-! ### One bough of the state -/

theorem State.setBough_setBough (s : State) (b : BoughId) (x y : Bough) : (s.setBough b x).setBough b y = s.setBough b y := by
  simp [State.setBough]

theorem State.setBough_self (s : State) (b : BoughId) : s.setBough b (s.bough b) = s :=
  congrArg (fun v => { s with boughs := v }) (vset_same s.boughs b)

theorem State.modBough_modBough (s : State) (b : BoughId) (f g : Bough → Bough) : (s.modBough b f).modBough b g = s.modBough b (g ∘ f) := by
  rw [State.modBough, State.bough_modBough]
  exact s.setBough_setBough b _ _

theorem State.modBough_same (s : State) (b : BoughId) (f : Bough → Bough) (h : f (s.bough b) = s.bough b) : s.modBough b f = s := by
  rw [State.modBough, h, State.setBough_self]

/-- An update of one bough keeps the frame `OnlyBough`. -/
theorem onlyBough_modBough (s : State) (b : BoughId) (f : Bough → Bough) : OnlyBough b s (s.modBough b f) :=
  (s.setBough_setBough b _ _).trans (s.setBough_self b)

theorem State.half_modBough (s : State) (b : BoughId) (h : Fin 2) (f : Bough → Bough) : (s.modBough b f).half b h = (f (s.bough b)).halves[h] :=
  congrArg (fun y : Bough => y.halves[h]) (s.bough_modBough b f)

theorem State.bough_modHalf (s : State) (b : BoughId) (h : Fin 2) (f : Half → Half) :
    (s.modHalf b h f).bough b = { s.bough b with halves := vmod (s.bough b).halves h f } :=
  s.bough_modBough b _

theorem State.bough_modHalf_ne (s : State) {b c : BoughId} (h : Fin 2) (f : Half → Half) (hc : c ≠ b) : (s.modHalf b h f).bough c = s.bough c :=
  s.bough_modBough_ne _ hc

theorem State.half_modHalf (s : State) (b : BoughId) (h : Fin 2) (f : Half → Half) : (s.modHalf b h f).half b h = f (s.half b h) :=
  (s.half_modBough b h _).trans (vset_get_self _ h _)

/-! ### Dispatch -/

/-- A bough that claims half h for a run without chain links (R28, R30). -/
def Bough.claimed (y : Bough) (h : Fin 2) (run : List QEntry) : Bough :=
  { y with halves := vset y.halves h { Half.free with st := .filling, run := run, ord := y.nextOrd, slots := slotsOf run },
           iq := y.iq.drop run.length, nextOrd := y.nextOrd + 1 }

@[simp] theorem State.runLinks_modBough (s : State) (b c : BoughId) (f : Bough → Bough) (run : List QEntry) :
    (s.modBough c f).runLinks b run = s.runLinks b run := rfl

theorem State.runLinks_cons (s : State) (b : BoughId) (e : QEntry) (es : List QEntry) :
    s.runLinks b (e :: es) = s.runLinks b [e] ++ s.runLinks b es := by
  simp [State.runLinks]

/-- A part of a run that names no chain link names none. -/
theorem State.runLinks_filter_of_nil (s : State) (b : BoughId) (run : List QEntry) (p : QEntry → Bool) (h : s.runLinks b run = []) :
    s.runLinks b (run.filter p) = [] :=
  List.flatMap_eq_nil_iff.mpr fun e he => List.flatMap_eq_nil_iff.mp h e (List.mem_of_mem_filter he)

theorem State.brokenLink_of_runLinks_nil (s : State) (b : BoughId) (run : List QEntry) (h : s.runLinks b run = []) : s.brokenLink b run = none := by
  rw [State.brokenLink, s.runLinks_filter_of_nil b run _ h, List.findSome?_nil]

theorem State.recvsOf_of_runLinks_nil (s : State) (b : BoughId) (run : List QEntry) (h : s.runLinks b run = []) : s.recvsOf b run = [] := by
  simp [State.recvsOf, State.runIns, h]

/-- The destination of an entry that names no chain link sends on none. -/
theorem State.linkOut_of_runLinks_nil (s : State) (b : BoughId) {e : QEntry} {d : Desc} (h : s.runLinks b [e] = []) (hd : e.dst.desc? = some d)
    (hout : d.isChainOut = true) : s.linkOut b.val d.link = none := by
  have hout' := (List.append_eq_nil_iff.mp (List.flatMap_eq_nil_iff.mp h e (List.mem_singleton_self e))).2
  simpa [QEntry.endpoints, hd, hout] using hout'

theorem openSends_of_runLinks_nil (s : State) (b : BoughId) (run : List QEntry) (h : s.runLinks b run = []) : openSends b run s = (s, []) := by
  induction run with
  | nil => rfl
  | cons e es ih =>
    rw [State.runLinks_cons, List.append_eq_nil_iff] at h
    have hes := ih h.2
    unfold openSends
    cases hd : e.dst.desc? with
    | none => exact hes
    | some d =>
      by_cases hout : d.isChainOut = true
      · simp [hout, s.linkOut_of_runLinks_nil b h.1 hd hout, hes]
      · simp [hout, hes]

/-- Claiming a half for a run without chain links reaches the bough alone. -/
theorem State.claimHalf_of_runLinks_nil (s : State) (b : BoughId) (h : Fin 2) (run : List QEntry) (hlinks : s.runLinks b run = []) :
    s.claimHalf b h run = s.modBough b fun y => y.claimed h run := by
  simp only [State.claimHalf, s.recvsOf_of_runLinks_nil b run hlinks, openSends_of_runLinks_nil, State.runLinks_modBough, hlinks, List.foldl_nil,
    ite_self]
  rw [State.modHalf, State.setHalf, State.modBough_modBough, State.half_modBough, vset_get_self]
  simp only [State.modBough, Function.comp, vset_vset]
  rfl

theorem State.half_claimed (s : State) (b : BoughId) (h : Fin 2) (run : List QEntry) :
    (s.modBough b fun y => y.claimed h run).half b h =
      { Half.free with st := .filling, run := run, ord := (s.bough b).nextOrd, slots := slotsOf run } :=
  (s.half_modBough b h _).trans (vset_get_self _ h _)

theorem State.half_claimed_ne (s : State) (b : BoughId) {h k : Fin 2} (run : List QEntry) (hk : k ≠ h) :
    (s.modBough b fun y => y.claimed h run).half b k = s.half b k :=
  (s.half_modBough b k _).trans (vset_get_ne _ _ hk)

theorem exec_vectorDispatch_of_idle (s : State) (b : BoughId) (h : (s.bough b).freeze = true ∨ s.sys.mode ≠ .run) :
    exec (.vectorDispatch b) s = .next s := by
  show execVectorDispatch b s = .next s
  cases hiq : (s.bough b).iq with
  | nil => simp [execVectorDispatch, hiq]
  | cons e es => rcases h with h | h <;> simp [execVectorDispatch, hiq, h]

/-- Bough b can dispatch its head entry e, or the block that it begins, to half h: nothing holds it, the run names no chain link, and the queues
have the words and the room that it needs (R28, R42, R67). -/
structure DispatchReady (s : State) (b : BoughId) (e : QEntry) (h : Fin 2) : Prop where
  mode : s.sys.mode = .run
  notFrozen : (s.bough b).freeze = false
  notResetting : (s.bough b).resetting = false
  noSaved : (s.bough b).saved = none
  noFault : (s.bough b).vfault = none
  notHalted : (s.bough b).twig.run ≠ .halted
  generatorsDone : ∀ x ∈ (s.bough b).fillingRuns, s.generatorsDone b x = true
  free : (s.bough b).freeHalf = some h
  noLinks : s.runLinks b ((s.bough b).iq.take e.blockLen) = []
  notShort : s.queueShort b ((s.bough b).runs.map fun x => x.run) ((s.bough b).iq.take e.blockLen) = false

theorem DispatchReady.exec_eq {s : State} {b : BoughId} {e : QEntry} {h : Fin 2} (hr : DispatchReady s b e h) {es : List QEntry}
    (hiq : (s.bough b).iq = e :: es) :
    exec (.vectorDispatch b) s = .next (s.modBough b fun y => y.claimed h ((s.bough b).iq.take e.blockLen)) := by
  obtain ⟨hmode, hfreeze, hreset, hsaved, hfault, hrun, hdone, hfree, hlinks, hshort⟩ := hr
  rw [← s.claimHalf_of_runLinks_nil b h _ hlinks]
  show execVectorDispatch b s = _
  have hbroken := s.brokenLink_of_runLinks_nil b _ hlinks
  rw [hiq] at hbroken hshort ⊢
  simp [execVectorDispatch, hiq, hmode, hfreeze, hreset, hsaved, hfault, hrun, List.all_eq_true.mpr hdone, hfree, hbroken, hshort]

/-! ### What a stream request may change -/

theorem State.countLeave_eq (s : State) (g : GroveId) (a : Nat) : ∃ groves, s.countLeave g a = { s with groves := groves } := by
  unfold State.countLeave
  split
  · exact ⟨_, rfl⟩
  · split_ifs
    · exact ⟨s.groves, rfl⟩
    · exact ⟨_, rfl⟩
  · exact ⟨s.groves, rfl⟩

theorem State.notice_eq (s : State) (was : Bool) (reg : String) : ∃ evts, s.notice was reg = { s with crownEvts := evts } := by
  cases was with
  | true => exact ⟨s.crownEvts, rfl⟩
  | false => exact ⟨_, rfl⟩

/-- A failed check is recorded in the canopy's registers and by a notice alone (R313, R314). -/
theorem State.checkFailed_eq (s : State) (b : BoughId) (a : Nat) (write : Bool) :
    ∃ cnp evts, s.checkFailed b a write = { s with cnp := cnp, crownEvts := evts } := by
  obtain ⟨evts, hnotice⟩ := State.notice_eq _ s.cnp.isoSeen "CNP_ISO_STATUS"
  exact ⟨_, evts, hnotice⟩

/-- The ownership check of a bough's requests turns on the active image alone. -/
theorem State.checkOwner_reqPlot_congr {s t : State} (b : BoughId) (a : Nat) (h : t.grn = s.grn) :
    t.checkOwner (t.reqPlot b) a = s.checkOwner (s.reqPlot b) a := by
  have hmaps : t.plotMaps = s.plotMaps := by unfold State.plotMaps; rw [h]
  have hplot : t.reqPlot b = s.reqPlot b := by simp only [State.reqPlot, State.boughPlot, hmaps]
  have howner : t.ownerAt a = s.ownerAt a := by simp only [State.ownerAt, State.regionPlot, State.boughPlot, hmaps]
  unfold State.checkOwner
  rw [hplot, howner]

theorem State.sendStream_of_root (s : State) (b : BoughId) (h : Fin 2) (tag : Nat) (key : SlotKey) {a r : Nat} (n : Nat) (ha : placeOf a = .root r) :
    ∃ groves, s.sendStream b h tag key a n =
      { s.modSlice (s.sliceOf a) fun x => { x with inbox := x.inbox ++ [.read { tag := tag, who := .stream b h key, addr := a, len := n }] } with
        groves := groves } := by
  simp only [State.sendStream, ha]
  exact State.countLeave_eq _ _ a

theorem State.sendStream_of_scratch (s : State) (b : BoughId) (h : Fin 2) (tag : Nat) (key : SlotKey) {a d off : Nat} (n : Nat)
    (ha : placeOf a = .scratch d off) :
    ∃ groves, s.sendStream b h tag key a n =
      { s.modScr (boughId d) fun x => { x with inbox := x.inbox ++ [{ tag := tag, who := .stream b h key, addr := a, len := n }] } with
        groves := groves } := by
  simp only [State.sendStream, ha]
  exact State.countLeave_eq _ _ a

/-- Sending a read reaches slices, scratchpads and uplink counters alone. -/
theorem State.sendStream_eq (s : State) (b : BoughId) (h : Fin 2) (tag : Nat) (key : SlotKey) (a n : Nat) :
    ∃ slices scr groves, s.sendStream b h tag key a n = { s with slices := slices, scr := scr, groves := groves } := by
  cases ha : placeOf a with
  | root r =>
    obtain ⟨groves, hsent⟩ := s.sendStream_of_root b h tag key n ha
    exact ⟨_, s.scr, groves, hsent⟩
  | scratch d off =>
    obtain ⟨groves, hsent⟩ := s.sendStream_of_scratch b h tag key n ha
    exact ⟨s.slices, _, groves, hsent⟩
  | _ => exact ⟨s.slices, s.scr, s.groves, by simp only [State.sendStream, ha]⟩

/-- The tag that a request for `base` takes: it waits in the reorder buffer (R33). -/
def State.newTag (s : State) (b : BoughId) (key : SlotKey) (base : Nat) : ReTag :=
  { tag := s.nextId, key := key, own := ownPlace (.bough b) base, come := false }

/-- The next request number is drawn and half h holds it as a tag of stream `key`. -/
def State.takeTag (s : State) (b : BoughId) (h : Fin 2) (key : SlotKey) (base : Nat) : State :=
  State.modHalf { s with nextId := s.nextId + 1 } b h fun x => { x with tags := x.tags ++ [s.newTag b key base] }

theorem State.half_takeTag (s : State) (b : BoughId) (h : Fin 2) (key : SlotKey) (base : Nat) :
    (s.takeTag b h key base).half b h = { s.half b h with tags := (s.half b h).tags ++ [s.newTag b key base] } :=
  State.half_modHalf { s with nextId := s.nextId + 1 } b h _

theorem State.bough_takeTag_ne (s : State) {b c : BoughId} (h : Fin 2) (key : SlotKey) (base : Nat) (hc : c ≠ b) :
    (s.takeTag b h key base).bough c = s.bough c :=
  State.bough_modHalf_ne { s with nextId := s.nextId + 1 } h _ hc

theorem State.resps_takeTag (s : State) (b : BoughId) (h : Fin 2) (key : SlotKey) (base : Nat) :
    ((s.takeTag b h key base).bough b).resps = (s.bough b).resps := by
  rw [State.takeTag, State.bough_modHalf]
  rfl

theorem State.readStream_of_pass (s : State) (b : BoughId) (h : Fin 2) (key : SlotKey) (base n : Nat)
    (hpass : s.checkOwner (s.reqPlot b) base = none) :
    s.readStream b h key base n = (s.takeTag b h key base).sendStream b h s.nextId key base n := by
  have hcheck : (s.takeTag b h key base).checkOwner ((s.takeTag b h key base).reqPlot b) base = none :=
    (State.checkOwner_reqPlot_congr b base rfl).trans hpass
  dsimp only [State.readStream]
  split
  next hnone => rfl
  next c hsome => exact absurd (hsome.symm.trans hcheck) (Option.some_ne_none c)

theorem State.readStream_of_fault (s : State) (b : BoughId) (h : Fin 2) (key : SlotKey) {base : Nat} (n : Nat) {c : Cause}
    (hfault : s.checkOwner (s.reqPlot b) base = some c) :
    ∃ cnp evts, s.readStream b h key base n =
      State.modBough { s.takeTag b h key base with cnp := cnp, crownEvts := evts } b fun y =>
        { y with resps := y.resps ++ [(s.nextId, { key := key, base := base, data := [], poison := [], fault := some c })] } := by
  have hcheck : (s.takeTag b h key base).checkOwner ((s.takeTag b h key base).reqPlot b) base = some c :=
    (State.checkOwner_reqPlot_congr b base rfl).trans hfault
  obtain ⟨cnp, evts, hfailed⟩ := (s.takeTag b h key base).checkFailed_eq b base false
  refine ⟨cnp, evts, ?_⟩
  rw [← hfailed]
  dsimp only [State.readStream]
  split
  next hnone => exact absurd (hcheck.symm.trans hnone) (Option.some_ne_none c)
  next c' hsome =>
    obtain rfl : c = c' := Option.some.inj (hcheck.symm.trans hsome)
    rfl

/-- What a read request does whether its check passes or fails: half h holds a new tag, and memory, the queues and the other boughs are as they
were. -/
theorem State.readStream_frame (s : State) (b : BoughId) (h : Fin 2) (key : SlotKey) (base n : Nat) :
    (s.readStream b h key base n).half b h = { s.half b h with tags := (s.half b h).tags ++ [s.newTag b key base] } ∧
      (s.readStream b h key base n).nextId = s.nextId + 1 ∧ (s.readStream b h key base n).mem = s.mem ∧
      (s.readStream b h key base n).queues = s.queues ∧ ∀ c, c ≠ b → (s.readStream b h key base n).bough c = s.bough c := by
  cases hcheck : s.checkOwner (s.reqPlot b) base with
  | none =>
    obtain ⟨slices, scr, groves, hsent⟩ := (s.takeTag b h key base).sendStream_eq b h s.nextId key base n
    rw [s.readStream_of_pass b h key base n hcheck, hsent]
    exact ⟨s.half_takeTag b h key base, rfl, rfl, rfl, fun c hc => s.bough_takeTag_ne h key base hc⟩
  | some c =>
    obtain ⟨cnp, evts, hread⟩ := s.readStream_of_fault b h key n hcheck
    rw [hread]
    refine ⟨?_, rfl, rfl, rfl, fun c hc => ?_⟩
    · rw [State.half_modBough]
      exact s.half_takeTag b h key base
    · rw [State.bough_modBough_ne _ _ hc]
      exact s.bough_takeTag_ne h key base hc

/-- A failed check answers with a fault response (R303). -/
theorem State.resps_readStream_of_fault (s : State) (b : BoughId) (h : Fin 2) (key : SlotKey) {base : Nat} (n : Nat) {c : Cause}
    (hfault : s.checkOwner (s.reqPlot b) base = some c) :
    ((s.readStream b h key base n).bough b).resps =
      (s.bough b).resps ++ [(s.nextId, { key := key, base := base, data := [], poison := [], fault := some c })] := by
  obtain ⟨cnp, evts, hread⟩ := s.readStream_of_fault b h key n hfault
  rw [hread, State.bough_modBough]
  exact congrArg (· ++ _) (s.resps_takeTag b h key base)

theorem State.resps_readStream_of_pass (s : State) (b : BoughId) (h : Fin 2) (key : SlotKey) {base : Nat} (n : Nat)
    (hpass : s.checkOwner (s.reqPlot b) base = none) : ((s.readStream b h key base n).bough b).resps = (s.bough b).resps := by
  obtain ⟨slices, scr, groves, hsent⟩ := (s.takeTag b h key base).sendStream_eq b h s.nextId key base n
  rw [s.readStream_of_pass b h key base n hpass, hsent]
  exact s.resps_takeTag b h key base

/-- A read of a scratchpad joins the reads that wait there. -/
theorem State.readStream_of_scratch (s : State) (b : BoughId) (h : Fin 2) (key : SlotKey) {base d off : Nat} (n : Nat)
    (hpass : s.checkOwner (s.reqPlot b) base = none) (hplace : placeOf base = .scratch d off) :
    (s.readStream b h key base n).scr[boughId d].inbox =
        s.scr[boughId d].inbox ++ [{ tag := s.nextId, who := .stream b h key, addr := base, len := n }] ∧
      (s.readStream b h key base n).slices = s.slices := by
  obtain ⟨groves, hsent⟩ := (s.takeTag b h key base).sendStream_of_scratch b h s.nextId key n hplace
  rw [s.readStream_of_pass b h key base n hpass, hsent]
  exact ⟨congrArg Scratch.inbox (vmod_get_self s.scr (boughId d) _), rfl⟩

/-- A read of root memory goes to the slice that holds it. -/
theorem State.readStream_of_root (s : State) (b : BoughId) (h : Fin 2) (key : SlotKey) {base r : Nat} (n : Nat)
    (hpass : s.checkOwner (s.reqPlot b) base = none) (hplace : placeOf base = .root r) :
    (s.readStream b h key base n).slices[s.sliceOf base].inbox =
        s.slices[s.sliceOf base].inbox ++ [.read { tag := s.nextId, who := .stream b h key, addr := base, len := n }] ∧
      (s.readStream b h key base n).scr = s.scr := by
  obtain ⟨groves, hsent⟩ := (s.takeTag b h key base).sendStream_of_root b h s.nextId key n hplace
  rw [s.readStream_of_pass b h key base n hpass, hsent]
  exact ⟨congrArg Slice.inbox (vmod_get_self s.slices (s.sliceOf base) _), rfl⟩

/-! ### Issuing a request -/

/-- The bytes that a request of a stream asks for: a granule, or half a granule where it is indexed (R33, R270). -/
def Desc.reach (d : Desc) : Nat := if d.isStride then 64 else 32

theorem Desc.inMem_iff (d : Desc) : d.inMem = true ↔ d.mode = 0 ∨ d.mode = 1 := by
  simp [Desc.inMem, Desc.isStride, Desc.isIndex]

/-- A memory source asks for the granule, or half granule, that its element lies in. -/
theorem State.issueStream_of_source (s : State) (b : BoughId) (h : Fin 2) (k : Nat) {sl : Slot} (i a : Nat) (hmem : sl.desc.inMem = true)
    (hsource : ¬ (sl.key.opnd = 3 ∧ sl.key.index = false)) :
    s.issueStream b h k sl i a = (s.slotPast b h k i a).readStream b h sl.key (a / sl.desc.reach * sl.desc.reach) sl.desc.reach := by
  rcases sl.desc.inMem_iff.mp hmem with hmode | hmode <;>
    simp [State.issueStream, Desc.isChainIn, Desc.isQueue, Desc.isStride, Desc.reach, hmode] <;> tauto

/-- A memory destination whose check passes asks for nothing. -/
theorem State.issueStream_of_dest (s : State) (b : BoughId) (h : Fin 2) (k : Nat) {sl : Slot} (i : Nat) {a : Nat} (hmem : sl.desc.inMem = true)
    (hopnd : sl.key.opnd = 3) (hindex : sl.key.index = false) (hpass : s.checkOwner (s.reqPlot b) a = none) :
    s.issueStream b h k sl i a = s.slotPast b h k i a := by
  have hcheck : (s.slotPast b h k i a).checkOwner ((s.slotPast b h k i a).reqPlot b) a = none :=
    (State.checkOwner_reqPlot_congr b a rfl).trans hpass
  rcases sl.desc.inMem_iff.mp hmem with hmode | hmode <;>
    simp [State.issueStream, Desc.isChainIn, Desc.isQueue, hmode, hopnd, hindex, State.checkDest, hcheck]

/-- A state in which generator k of half h is past its request for element i at address a, and the ownership cache is `oc`. -/
def State.passed (s : State) (b : BoughId) (h : Fin 2) (k i a : Nat) (oc : List (Nat × Option PlotId)) : State :=
  (s.modBough b fun y => { y with ocache := oc }).slotPast b h k i a

theorem State.half_passed (s : State) (b : BoughId) (h : Fin 2) (k i a : Nat) (oc : List (Nat × Option PlotId)) :
    (s.passed b h k i a oc).half b h =
      { s.half b h with slots := lmod (s.half b h).slots k fun sl => { sl with next := i + 1, last := some (a / 64) } } := by
  rw [State.passed, State.slotPast, State.half_modHalf, State.half_modBough]
  rfl

theorem State.bough_passed_ne (s : State) {b c : BoughId} (h : Fin 2) (k i a : Nat) (oc : List (Nat × Option PlotId)) (hc : c ≠ b) :
    (s.passed b h k i a oc).bough c = s.bough c :=
  (State.bough_modHalf_ne _ h _ hc).trans (s.bough_modBough_ne _ hc)

theorem State.resps_passed (s : State) (b : BoughId) (h : Fin 2) (k i a : Nat) (oc : List (Nat × Option PlotId)) :
    ((s.passed b h k i a oc).bough b).resps = (s.bough b).resps := by
  rw [State.passed, State.slotPast, State.bough_modHalf, State.bough_modBough]

theorem State.checkOwner_passed (s : State) (b : BoughId) (h : Fin 2) (k i a : Nat) (oc : List (Nat × Option PlotId)) (base : Nat) :
    (s.passed b h k i a oc).checkOwner ((s.passed b h k i a oc).reqPlot b) base = s.checkOwner (s.reqPlot b) base :=
  State.checkOwner_reqPlot_congr b base rfl

/-! ### The next request of a generator -/

/-- Generator k of half h has a request at address a for element i ready, which lies in memory and which nothing at the port holds (R156, R157,
R302). -/
structure RequestReady (s : State) (b : BoughId) (h : Fin 2) (k : Nat) (sl : Slot) (i a : Nat) : Prop where
  filling : (s.half b h).st = .filling
  slot : (s.half b h).slots[k]? = some sl
  next : (s.env b (s.half b h)).slotNext sl = some (some (i, a))
  inMem : sl.desc.inMem = true
  notHeld : (s.env b (s.half b h)).requestHeld sl a (if sl.desc.isIndex then 32 else 64) = false
  notAbsorbing : (s.bough b).absorbing = false
  noLookup : (s.bough b).lookup = none
  tagFree : s.canopyTags b < 256

theorem exec_streamRequest_of_eq {s s' : State} {b : BoughId} {h : Fin 2} {k : Nat} (hs : s.streamRequest b h k = s') :
    exec (.streamRequest b h k) s = .next s' :=
  congrArg Host.Outcome.next hs

section

variable {s : State} {b : BoughId} {h : Fin 2} {k : Nat} {sl : Slot} {i a : Nat}

/-- A ready request in root memory turns on the ownership cache (R304). -/
theorem RequestReady.streamRequest_of_root (hr : RequestReady s b h k sl i a) {r : Nat} (hplace : placeOf a = .root r) :
    s.streamRequest b h k = if (s.bough b).knowsRegion r then (s.touchOwn b r).issueStream b h k sl i a
      else (s.lookUp b r).modBough b fun y => { y with lookHeld := y.lookHeld ++ [(h, k)] } := by
  obtain ⟨hfilling, hslot, hnext, hmem, hheld, habsorb, hlookup, htags⟩ := hr
  simp only [State.half, Fin.getElem_fin] at hfilling hslot hnext hheld
  simp [State.streamRequest, hfilling, hslot, hnext, hmem, hheld, habsorb, hlookup, htags, hplace]

/-- Elsewhere it is issued at once. -/
theorem RequestReady.streamRequest_of_not_root (hr : RequestReady s b h k sl i a) (hplace : ∀ r, placeOf a ≠ .root r) :
    s.streamRequest b h k = s.issueStream b h k sl i a := by
  obtain ⟨hfilling, hslot, hnext, hmem, hheld, habsorb, hlookup, htags⟩ := hr
  simp only [State.half, Fin.getElem_fin] at hfilling hslot hnext hheld
  simp [State.streamRequest, hfilling, hslot, hnext, hmem, hheld, habsorb, hlookup, htags]

/-- A port that looks region r up and holds generator k of half h behind the lookup. -/
def Bough.lookingUp (y : Bough) (r : Nat) (h : Fin 2) (k : Nat) : Bough := { y with lookup := some r, lookHeld := y.lookHeld ++ [(h, k)] }

/-- A region that the ownership cache does not hold is looked up, and the request waits behind the lookup (R304). -/
theorem RequestReady.streamRequest_of_unknown (hr : RequestReady s b h k sl i a) {r : Nat} (hplace : placeOf a = .root r)
    (hunknown : (s.bough b).knowsRegion r = false) :
    ∃ groves, s.streamRequest b h k =
      { s.modBough b fun y => y.lookingUp r h k with cnp := { s.cnp with ownMiss := s.cnp.ownMiss + 1 }, groves := groves } := by
  obtain ⟨groves, hleave⟩ := State.countLeave_eq
    ({ s with cnp := { s.cnp with ownMiss := s.cnp.ownMiss + 1 } }.modBough b fun y => { y with lookup := some r }) (groveOf b) (r * 0x10000000)
  refine ⟨groves, ?_⟩
  rw [hr.streamRequest_of_root hplace, hunknown, if_neg Bool.false_ne_true, State.lookUp, hleave]
  exact State.modBough_modBough { s with cnp := { s.cnp with ownMiss := s.cnp.ownMiss + 1 }, groves := groves } b
    (fun y => { y with lookup := some r }) fun y => { y with lookHeld := y.lookHeld ++ [(h, k)] }

/-- A request whose region needs no lookup is issued; at most the order of the ownership cache has changed. -/
theorem RequestReady.streamRequest_of_known (hr : RequestReady s b h k sl i a)
    (hknown : ∀ r, placeOf a = .root r → (s.bough b).knowsRegion r = true) :
    ∃ oc, s.streamRequest b h k = (s.modBough b fun y => { y with ocache := oc }).issueStream b h k sl i a := by
  by_cases hroot : ∃ r, placeOf a = .root r
  · obtain ⟨r, hplace⟩ := hroot
    exact ⟨_, by rw [hr.streamRequest_of_root hplace, if_pos (hknown r hplace)]; rfl⟩
  · have hsame : (s.modBough b fun y => { y with ocache := (s.bough b).ocache }) = s := s.modBough_same b _ rfl
    exact ⟨(s.bough b).ocache, by rw [hr.streamRequest_of_not_root fun r hplace => hroot ⟨r, hplace⟩, hsame]⟩

/-- A memory source is past the element and asks for what its element lies in. -/
theorem RequestReady.streamRequest_of_source (hr : RequestReady s b h k sl i a)
    (hknown : ∀ r, placeOf a = .root r → (s.bough b).knowsRegion r = true) (hsource : ¬ (sl.key.opnd = 3 ∧ sl.key.index = false)) :
    ∃ oc, s.streamRequest b h k =
      (s.passed b h k i a oc).readStream b h sl.key (a / sl.desc.reach * sl.desc.reach) sl.desc.reach := by
  obtain ⟨oc, hissued⟩ := hr.streamRequest_of_known hknown
  exact ⟨oc, hissued.trans (State.issueStream_of_source _ b h k i a hr.inMem hsource)⟩

/-- A memory destination whose check passes is past the element. -/
theorem RequestReady.streamRequest_of_dest (hr : RequestReady s b h k sl i a)
    (hknown : ∀ r, placeOf a = .root r → (s.bough b).knowsRegion r = true) (hopnd : sl.key.opnd = 3) (hindex : sl.key.index = false)
    (hpass : s.checkOwner (s.reqPlot b) a = none) : ∃ oc, s.streamRequest b h k = s.passed b h k i a oc := by
  obtain ⟨oc, hissued⟩ := hr.streamRequest_of_known hknown
  exact ⟨oc, hissued.trans (State.issueStream_of_dest _ b h k i hr.inMem hopnd hindex
    ((State.checkOwner_reqPlot_congr b a rfl).trans hpass))⟩

end

/-! ### The ownership lookup -/

/-- A bough port that has learnt the owner of region r: its lookup is over and it holds no generator behind it (R304). -/
def State.learnt (s : State) (b : BoughId) (r : Nat) : State :=
  s.modBough b fun y =>
    { y with ocache := ((r, (s.regionPlot r).map fun m => plotId m.plot) :: y.ocache.filter fun e => e.1 ≠ r).take 32, lookup := none, lookHeld := [] }

theorem exec_ownershipLookupReturn_of_some (s : State) (b : BoughId) {r : Nat} (h : (s.bough b).lookup = some r) :
    exec (.ownershipLookupReturn b) s = .next ((s.bough b).lookHeld.foldl (fun s q => s.streamRequest b q.1 q.2) (s.learnt b r)) := by
  have hlearnt : ((s.learnOwn b r).modBough b fun y => { y with lookup := none, lookHeld := [] }) = s.learnt b r :=
    s.modBough_modBough b (fun y => { y with ocache := ((r, (s.regionPlot r).map fun m => plotId m.plot) :: y.ocache.filter fun e => e.1 ≠ r).take 32 })
      fun y => { y with lookup := none, lookHeld := [] }
  show execOwnershipLookupReturn b s = _
  simp only [execOwnershipLookupReturn, h, hlearnt]

/-! ### Responses -/

/-- A bough whose response for a tag has come: the half that waits for the tag is filled, and the tag is absorbed no longer. -/
def Bough.answered (y : Bough) (tag : Nat) (c : Chunk) : Bough :=
  { y with halves := vmod (vmod y.halves 0 fun x => x.fill tag c) 1 fun x => x.fill tag c,
           resps := y.resps.filter fun r => r.1 ≠ tag, absorbTags := y.absorbTags.filter (· ≠ tag) }

theorem vmod_zero_one_get {α : Type} (v : Vector α 2) (f : α → α) (i : Fin 2) : (vmod (vmod v 0 f) 1 f)[i] = f v[i] := by
  fin_cases i <;> simp [vmod_getElem]

theorem State.half_answered (s : State) (b : BoughId) (h : Fin 2) (tag : Nat) (c : Chunk) :
    (s.modBough b fun y => y.answered tag c).half b h = (s.half b h).fill tag c := by
  rw [State.half_modBough]
  exact vmod_zero_one_get _ _ h

theorem exec_readResponseArrival_of_find (s : State) (b : BoughId) {tag : Nat} {c : Chunk}
    (h : (s.bough b).resps.find? (fun r => r.1 = tag) = some (tag, c)) :
    exec (.readResponseArrival b tag) s = .next (s.modBough b fun y => y.answered tag c) := by
  show execReadResponseArrival b tag s = _
  simp only [execReadResponseArrival, h, State.fillTag, State.modBough_modBough]
  rfl

/-- The streams whose data is late once tag u has been passed. -/
def lateAfter (late : List SlotKey) (u : ReTag) : List SlotKey := if u.come then late else u.key :: late

theorem mem_lateAfter (late : List SlotKey) (u : ReTag) (key : SlotKey) : key ∈ lateAfter late u ↔ key ∈ late ∨ u.key = key ∧ u.come = false := by
  unfold lateAfter
  cases u.come <;> simp [or_comm, eq_comm]

/-- A tag leaves the reorder buffer when its data has come and its stream is not late (R33). -/
theorem mem_releaseTags_cons (late : List SlotKey) (t u : ReTag) (ts : List ReTag) :
    t ∈ releaseTags late (u :: ts) ↔ (t = u ∧ (u.come = false ∨ u.key ∈ late)) ∨ t ∈ releaseTags (lateAfter late u) ts := by
  by_cases hfree : u.come = true ∧ u.key ∉ late
  · simp [releaseTags, lateAfter, hfree.1, hfree.2]
  · have hstays : u.come = false ∨ u.key ∈ late := by simpa [or_iff_not_imp_left] using hfree
    have hcond : ¬ (u.come && !late.contains u.key) = true := by simpa using hfree
    rw [releaseTags, if_neg hcond, List.mem_cons]
    simp [lateAfter, hstays]

theorem mem_of_mem_releaseTags {late : List SlotKey} {t : ReTag} {ts : List ReTag} (h : t ∈ releaseTags late ts) : t ∈ ts := by
  induction ts generalizing late with
  | nil => exact h
  | cons u ts ih =>
    rcases (mem_releaseTags_cons late t u ts).mp h with ⟨rfl, _⟩ | hrest
    · exact List.mem_cons_self
    · exact List.mem_cons_of_mem u (ih hrest)

/-- Tag i stays in the reorder buffer exactly while its own data, or that of an earlier tag of its stream, has not come, or its stream was late
before (R33). -/
theorem mem_releaseTags_iff (late : List SlotKey) {ts : List ReTag} {i : Nat} {t : ReTag} (hnodup : ts.Nodup) (ht : ts[i]? = some t) :
    t ∈ releaseTags late ts ↔
      t.come = false ∨ t.key ∈ late ∨ ∃ (j : Nat) (u : ReTag), j < i ∧ ts[j]? = some u ∧ u.key = t.key ∧ u.come = false := by
  induction ts generalizing late i with
  | nil => simp at ht
  | cons u ts ih =>
    obtain ⟨hu, hts⟩ := List.nodup_cons.mp hnodup
    rw [mem_releaseTags_cons]
    cases i with
    | zero =>
      obtain rfl : u = t := by simpa using ht
      have hgone : u ∉ releaseTags (lateAfter late u) ts := fun h => hu (mem_of_mem_releaseTags h)
      simp [hgone]
    | succ i =>
      have ht' : ts[i]? = some t := by simpa using ht
      have hne : t ≠ u := fun h => hu (h ▸ List.mem_of_getElem? ht')
      have hlater : (∃ (j : Nat) (v : ReTag), j < i + 1 ∧ (u :: ts)[j]? = some v ∧ v.key = t.key ∧ v.come = false) ↔
          (u.key = t.key ∧ u.come = false) ∨ ∃ (j : Nat) (v : ReTag), j < i ∧ ts[j]? = some v ∧ v.key = t.key ∧ v.come = false := by
        rw [← Nat.or_exists_add_one]
        simp
      rw [ih _ hts ht', mem_lateAfter, hlater]
      simp [hne, or_assoc]

end Sys2Proof.Machine

open Sys2Proof Sys2Proof.Machine Sys2Proof.Safety

/-- Settles O18: dispatch by `State.claimHalf_of_runLinks_nil`, the requests by `RequestReady.streamRequest_of_known` and
`State.readStream_frame`, the reorder buffer by `mem_releaseTags_iff`. -/
theorem streaming : Obligations.Streaming := by
  unfold Obligations.Streaming
  refine ⟨⟨exec_vectorDispatch_of_idle, ?dispatch⟩, ⟨?request, ?lookup⟩, ?response, fun ts i t hnodup ht => ?release⟩
  case dispatch =>
    intro s b e es h hiq y run hmode hfreeze hreset hsaved hfault hrun hdone hfree hlinks hshort
    have hr : DispatchReady s b e h := ⟨hmode, hfreeze, hreset, hsaved, hfault, hrun, hdone, hfree, hlinks, hshort⟩
    have hhalf := s.half_claimed b h run
    have hbough := s.bough_modBough b fun y => y.claimed h run
    refine ⟨_, hr.exec_eq hiq, congrArg Half.st hhalf, congrArg Half.run hhalf, congrArg Half.slots hhalf, congrArg Half.ord hhalf,
      congrArg Half.result hhalf, congrArg Half.tags hhalf, congrArg Half.chunks hhalf, fun k hk => s.half_claimed_ne b run hk,
      congrArg Bough.iq hbough, ?_, onlyBough_modBough s b _⟩
    rw [hbough]
    rfl
  case request =>
    intro s b h k sl i a x hfilling hslot hnext hmem hheld habsorb hlookup htags n known past req
    have hr : RequestReady s b h k sl i a := ⟨hfilling, hslot, hnext, hmem, hheld, habsorb, hlookup, htags⟩
    refine ⟨fun r hplace hunknown => ?unknown, fun hknown hsource => ?source, fun hknown hopnd hindex hpass => ?dest⟩
    case unknown =>
      obtain ⟨groves, hlooked⟩ := hr.streamRequest_of_unknown hplace hunknown
      have hbough := s.bough_modBough b fun y => y.lookingUp r h k
      refine ⟨_, exec_streamRequest_of_eq hlooked, ?_⟩
      refine ⟨congrArg Bough.lookup hbough, congrArg Bough.lookHeld hbough, rfl, ?_, onlyBough_modBough s b fun y => y.lookingUp r h k⟩
      exact (congrArg (fun y : Bough => { y with lookup := none, lookHeld := (s.bough b).lookHeld }) hbough).trans (by rw [← hlookup])
    case source =>
      obtain ⟨oc, hread⟩ := hr.streamRequest_of_source hknown hsource
      obtain ⟨hhalf, hnextId, hmemory, hqueues, hothers⟩ := (s.passed b h k i a oc).readStream_frame b h sl.key (a / n * n) n
      have hcheck := s.checkOwner_passed b h k i a oc (a / n * n)
      refine ⟨_, exec_streamRequest_of_eq hread, ?_, hnextId, hmemory, hqueues,
        fun c hc => (hothers c hc).trans (s.bough_passed_ne h k i a oc hc), fun c hfault => ?_, fun hpass => ⟨?_, ?_, ?_⟩⟩
      · rw [s.half_passed] at hhalf
        exact hhalf
      · exact (State.resps_readStream_of_fault _ b h _ _ (hcheck.trans hfault)).trans (by rw [s.resps_passed]; rfl)
      · exact (State.resps_readStream_of_pass _ b h _ _ (hcheck.trans hpass)).trans (s.resps_passed b h k i a oc)
      · exact fun d off hplace => State.readStream_of_scratch _ b h _ _ (hcheck.trans hpass) hplace
      · exact fun r hplace => State.readStream_of_root _ b h _ _ (hcheck.trans hpass) hplace
    case dest =>
      obtain ⟨oc, hpassed⟩ := hr.streamRequest_of_dest hknown hopnd hindex hpass
      exact ⟨_, exec_streamRequest_of_eq hpassed, s.half_passed b h k i a oc, rfl, rfl, rfl, s.resps_passed b h k i a oc,
        fun c hc => s.bough_passed_ne h k i a oc hc⟩
  case lookup =>
    intro s b r hlookup
    have hexec := exec_ownershipLookupReturn_of_some s b hlookup
    have hbough : (s.learnt b r).bough b = _ := s.bough_modBough b _
    refine ⟨s.learnt b r, congrArg Bough.lookup hbough, congrArg Bough.lookHeld hbough, ?_, ?_, ?_, onlyBough_modBough s b _, ?_, ?_⟩
    · rintro p rfl
      rw [hbough]
      rfl
    · rw [hbough]
      exact List.length_take_le 32 _
    · rw [hbough]
    · intro hnone
      rw [hexec, hnone]
      rfl
    · intro h k hone
      rw [hexec, hone]
      rfl
  case response =>
    intro s b tag c hfind
    have hbough := s.bough_modBough b fun y => y.answered tag c
    refine ⟨_, exec_readResponseArrival_of_find s b hfind, fun h => s.half_answered b h tag c, congrArg Bough.resps hbough, ?_, ?_,
      onlyBough_modBough s b _⟩
    · rw [hbough]
      simp [Bough.answered]
    · rw [hbough]
      rfl
  case release => simpa using mem_releaseTags_iff [] hnodup ht

end

section
/-! SUPPORT. Bough reset, freeze and the clean port (R41, R42, R158, R165, R187, R305): what a reset's link breaks, its discards and its
completion may change, and the settling of O25. -/

namespace Sys2Proof.Machine

open Sys2Proof.Safety

/-! ### Messages and credits along a link -/

theorem State.giveCredit_eq (s : State) (i k : Nat) : ∃ links grafts, s.giveCredit i k = { s with links := links, grafts := grafts } := by
  unfold State.giveCredit
  split
  · exact ⟨s.links, s.grafts, rfl⟩
  · split_ifs
    · exact ⟨s.links, s.grafts, rfl⟩
    · exact ⟨s.links, _, rfl⟩
    · exact ⟨_, s.grafts, rfl⟩

theorem State.meter_eq (s : State) (p : Option Nat) (f : Counters → Counters) : ∃ plots, s.meter p f = { s with plots := plots } := by
  cases p with
  | none => exact ⟨s.plots, rfl⟩
  | some p => exact ⟨_, rfl⟩

/-- A message downstream reaches the link, its port of exit and the metering of its plot alone. -/
theorem State.sendDown_eq (s : State) (i : Nat) (m : ChainMsg) :
    ∃ links grafts plots, s.sendDown i m = { s with links := links, grafts := grafts, plots := plots } := by
  unfold State.sendDown
  split
  · exact ⟨s.links, s.grafts, s.plots, rfl⟩
  next l _ =>
    by_cases hgraft : l.toGraft = true
    · rw [if_pos hgraft]
      cases m with
      | data ep off ws =>
        obtain ⟨plots, hmeter⟩ := s.meter_eq (if l.fromGraft then none else some l.plot) fun c => { c with graft := c.graft + 8 * ws.length }
        exact ⟨s.links, _, plots, congrArg (fun s => State.sendChainData s l.outPort l.tag ep off ws) hmeter⟩
      | fin ep len => exact ⟨s.links, _, s.plots, rfl⟩
      | commit ep => exact ⟨s.links, _, s.plots, rfl⟩
      | abort ep => exact ⟨s.links, _, s.plots, rfl⟩
      | _ => exact ⟨s.links, s.grafts, s.plots, rfl⟩
    · rw [if_neg hgraft]
      exact ⟨_, s.grafts, s.plots, rfl⟩

theorem abortSends_eq (xs : List SendSt) (s : State) :
    ∃ links grafts plots, abortSends xs s = { s with links := links, grafts := grafts, plots := plots } := by
  induction xs generalizing s with
  | nil => exact ⟨s.links, s.grafts, s.plots, rfl⟩
  | cons x xs ih =>
    unfold abortSends
    split
    · exact ih s
    · split_ifs
      · exact ih s
      · obtain ⟨links, grafts, plots, hsent⟩ :=
          (s.modLink x.link fun l => { l with tx := l.tx.filter fun t => t.ep ≠ x.epoch }).sendDown_eq x.link (.abort x.epoch)
        rw [hsent]
        exact ih _

theorem abortSends_of_links_nil (xs : List SendSt) (s : State) (h : s.links = []) : abortSends xs s = s := by
  induction xs with
  | nil => rfl
  | cons x xs ih => simpa [abortSends, h] using ih

/-! ### What the discards and breaks of a reset leave alone -/

/-- Memory and every bough's twig are as they were. -/
structure KeepsTwigs (s s' : State) : Prop where
  mem : s'.mem = s.mem
  twig : ∀ b, (s'.bough b).twig = (s.bough b).twig

namespace KeepsTwigs

theorem of_boughs {s s' : State} (hmem : s'.mem = s.mem) (hboughs : s'.boughs = s.boughs) : KeepsTwigs s s' :=
  ⟨hmem, fun b => congrArg (fun v => (v[b] : Bough).twig) hboughs⟩

theorem refl (s : State) : KeepsTwigs s s := ⟨rfl, fun _ => rfl⟩

theorem trans {s t u : State} (h : KeepsTwigs s t) (k : KeepsTwigs t u) : KeepsTwigs s u :=
  ⟨k.mem.trans h.mem, fun b => (k.twig b).trans (h.twig b)⟩

theorem foldl {α : Type} {f : State → α → State} (h : ∀ s a, KeepsTwigs s (f s a)) (l : List α) (s : State) : KeepsTwigs s (l.foldl f s) := by
  induction l generalizing s with
  | nil => exact refl s
  | cons a l ih => exact (h s a).trans (ih (f s a))

theorem modBough {s : State} {b : BoughId} {f : Bough → Bough} (h : (f (s.bough b)).twig = (s.bough b).twig) : KeepsTwigs s (s.modBough b f) := by
  refine ⟨rfl, fun c => ?_⟩
  by_cases hc : c = b
  · rw [hc, State.bough_modBough, h]
  · rw [State.bough_modBough_ne s f hc]

end KeepsTwigs

theorem State.modLink_keeps (s : State) (i : Nat) (f : Link → Link) : KeepsTwigs s (s.modLink i f) := .of_boughs rfl rfl

theorem State.giveCredit_keeps (s : State) (i k : Nat) : KeepsTwigs s (s.giveCredit i k) := by
  obtain ⟨links, grafts, h⟩ := s.giveCredit_eq i k
  exact h ▸ .of_boughs rfl rfl

theorem State.leaveBuffer_keeps (s : State) (i k : Nat) : KeepsTwigs s (s.leaveBuffer i k) := by
  unfold State.leaveBuffer
  split
  · exact .refl s
  · split_ifs
    · exact s.modLink_keeps i _
    · exact s.giveCredit_keeps i k

theorem State.sinkDrop_keeps (s : State) (i : Nat) : KeepsTwigs s (s.sinkDrop i) := by
  unfold State.sinkDrop
  split
  · exact .refl s
  · split_ifs
    · exact (s.modLink_keeps i _).trans (State.leaveBuffer_keeps _ _ _)
    · exact .refl s

theorem State.sinkLinks_keeps (s : State) (ls : List Nat) : KeepsTwigs s (s.sinkLinks ls) := by
  unfold State.sinkLinks
  exact .foldl (fun s i => (s.modLink_keeps i _).trans (State.sinkDrop_keeps _ i)) ls s

theorem State.discardHalf_keeps (s : State) (b : BoughId) (h : Fin 2) : KeepsTwigs s (s.discardHalf b h) := by
  unfold State.discardHalf
  dsimp only
  split_ifs
  · obtain ⟨links, grafts, plots, haborts⟩ := abortSends_eq (s.half b h).sends s
    have hkeeps : KeepsTwigs s (abortSends (s.half b h).sends s) := haborts ▸ .of_boughs rfl rfl
    exact hkeeps.trans (.modBough rfl)
  · exact .refl s

theorem State.discardFrom_keeps (s : State) (b : BoughId) (ord : Nat) : KeepsTwigs s (s.discardFrom b ord) := by
  have hone : ∀ (s : State) (h : Fin 2),
      KeepsTwigs s (if (s.half b h).st == .filling && decide (ord ≤ (s.half b h).ord) then s.discardHalf b h else s) := by
    intro s h
    split_ifs
    · exact s.discardHalf_keeps b h
    · exact .refl s
  exact (hone s 0).trans (hone _ 1)

theorem State.takeVFault_keeps (s : State) (b : BoughId) (h : Fin 2) (cause : Cause) (elem : Nat) (addr : Word) :
    KeepsTwigs s (s.takeVFault b h cause elem addr) := by
  unfold State.takeVFault
  exact ((s.discardFrom_keeps b _).trans (State.sinkLinks_keeps _ _)).trans (.modBough rfl)

theorem State.modHalf_keeps (s : State) (b : BoughId) (h : Fin 2) (f : Half → Half) : KeepsTwigs s (s.modHalf b h f) := by
  unfold State.modHalf State.setHalf
  exact .modBough rfl

theorem State.signalBreak_keeps (s : State) (b : BoughId) (h : Fin 2) (elem : Nat) (addr : Word) : KeepsTwigs s (s.signalBreak b h elem addr) := by
  unfold State.signalBreak
  split_ifs
  · exact s.takeVFault_keeps b h _ elem addr
  · exact s.modHalf_keeps b h _

theorem State.breakHalf_keeps (s : State) (i : Nat) (l : Link) (code : BitVec 4) (b : BoughId) (h : Fin 2) :
    KeepsTwigs s (s.breakHalf i l code b h) := by
  unfold State.breakHalf
  dsimp only
  split_ifs
  · split
    · exact s.signalBreak_keeps ..
    · split_ifs
      · exact .refl s
      · exact s.signalBreak_keeps ..
    · exact .refl s
  · exact .refl s

theorem State.breakBough_keeps (s : State) (i : Nat) (l : Link) (code : BitVec 4) (b : BoughId) : KeepsTwigs s (s.breakBough i l code b) := by
  unfold State.breakBough
  split_ifs
  all_goals exact (s.breakHalf_keeps ..).trans (State.breakHalf_keeps ..)

theorem State.modRecvs_keeps (s : State) (i : Nat) (f : RecvSt → RecvSt) : KeepsTwigs s (s.modRecvs i f) := by
  unfold State.modRecvs
  split
  · exact .refl s
  · split_ifs
    · exact .refl s
    · exact .modBough rfl

theorem State.keepWhole_keeps (s : State) (i : Nat) : KeepsTwigs s (s.keepWhole i) := by
  unfold State.keepWhole
  split
  · exact .refl s
  · refine (KeepsTwigs.foldl (fun s e => ?_) _ s).trans (State.modRecvs_keeps ..)
    split
    · dsimp only
      split_ifs
      · exact (s.modRecvs_keeps ..).trans (.of_boughs rfl rfl)
      · exact .refl s
    · exact .refl s

theorem State.recordBreak_keeps (s : State) (i : Nat) (code : BitVec 4) : KeepsTwigs s (s.recordBreak i code) := by
  unfold State.recordBreak
  dsimp only
  split
  · exact .of_boughs rfl rfl
  · split
    · exact .of_boughs rfl rfl
    · split_ifs <;> exact .of_boughs rfl rfl

theorem State.tryFree_keeps (s : State) (b : BoughId) (h : Fin 2) : KeepsTwigs s (s.tryFree b h) := by
  unfold State.tryFree
  dsimp only
  split_ifs
  · have hfreed : KeepsTwigs s (s.setHalf b h Half.free) := s.modHalf_keeps b h fun _ => Half.free
    exact hfreed.trans (.of_boughs rfl rfl)
  · exact .refl s

theorem State.custody_keeps (s : State) (b : BoughId) (i : Nat) (p : SendSt → Bool) : KeepsTwigs s (s.custody b i p) := by
  have hone : ∀ (s : State) (h : Fin 2),
      KeepsTwigs s ((s.modHalf b h fun x => { x with sends := x.sends.map fun y => if y.link = i && p y then { y with taken := true } else y }).tryFree b h) :=
    fun s h => (s.modHalf_keeps b h _).trans (State.tryFree_keeps _ b h)
  exact (hone s 0).trans (hone _ 1)

theorem State.breakLink_keeps (s : State) (i : Nat) (code : BitVec 4) : KeepsTwigs s (s.breakLink i code) := by
  unfold State.breakLink
  split
  · exact .refl s
  next l _ =>
    split_ifs
    · exact s.recordBreak_keeps i code
    all_goals
      have hrecorded : KeepsTwigs s (((s.keepWhole i).recordBreak i code).modLink i fun l =>
          { l with eps := [], relay := [], wire := [], back := [], tx := [], owed := 0, sink := false }) :=
        ((s.keepWhole_keeps i).trans (State.recordBreak_keeps ..)).trans (.of_boughs rfl rfl)
    · exact hrecorded
    · exact hrecorded.trans (State.breakBough_keeps ..)
    · exact (hrecorded.trans (State.breakBough_keeps ..)).trans (State.custody_keeps ..)
    · exact ((hrecorded.trans (State.breakBough_keeps ..)).trans (State.custody_keeps ..)).trans (State.breakBough_keeps ..)

theorem State.breakLinks_keeps (s : State) (p : Link → Bool) (code : BitVec 4) : KeepsTwigs s (s.breakLinks p code) := by
  refine .foldl (fun s i => ?_) _ s
  split
  · split_ifs
    · exact s.breakLink_keeps i code
    · exact .refl s
  · exact .refl s

theorem State.breakLinks_of_links_nil (s : State) (p : Link → Bool) (code : BitVec 4) (h : s.links = []) : s.breakLinks p code = s := by
  simp [State.breakLinks, h]

/-! ### Discarded halves -/

/-- A discard frees the half if it was filling, and reaches no other half. -/
theorem State.half_discardHalf (s : State) (b : BoughId) (h k : Fin 2) :
    (s.discardHalf b h).half b k = if k = h ∧ (s.half b h).st = .filling then Half.free else s.half b k := by
  unfold State.discardHalf
  by_cases hst : (s.half b h).st = .filling
  · obtain ⟨links, grafts, plots, haborts⟩ := abortSends_eq (s.half b h).sends s
    simp only [hst, beq_self_eq_true, if_true, haborts, and_true, State.half_modBough]
    exact vset_get _ h k _
  · simp [hst]

theorem State.half_discardHalf_of_not_filling (s : State) (b : BoughId) (h : Fin 2) {k : Fin 2} (hk : (s.half b k).st ≠ .filling) :
    (s.discardHalf b h).half b k = s.half b k := by
  rw [State.half_discardHalf]
  refine if_neg ?_
  rintro ⟨rfl, hst⟩
  exact hk hst

theorem State.half_discardHalf_self (s : State) (b : BoughId) (h : Fin 2) : ((s.discardHalf b h).half b h).st ≠ .filling := by
  rw [State.half_discardHalf]
  split_ifs with hst
  · exact HalfSt.noConfusion
  · exact fun hfilling => hst ⟨rfl, hfilling⟩

/-- Both halves of bough b are discarded (R41). -/
def State.discardBoth (s : State) (b : BoughId) : State := (s.discardHalf b 0).discardHalf b 1

theorem State.discardBoth_keeps (s : State) (b : BoughId) : KeepsTwigs s (s.discardBoth b) :=
  (s.discardHalf_keeps b 0).trans (State.discardHalf_keeps _ b 1)

theorem State.half_discardBoth_not_filling (s : State) (b : BoughId) (h : Fin 2) : ((s.discardBoth b).half b h).st ≠ .filling := by
  have hzero := s.half_discardHalf_self b 0
  match h with
  | 0 => exact (State.half_discardHalf_of_not_filling _ b 1 hzero).symm ▸ hzero
  | 1 => exact State.half_discardHalf_self _ b 1

theorem State.half_discardBoth_of_not_filling (s : State) (b : BoughId) {h : Fin 2} (hst : (s.half b h).st ≠ .filling) :
    (s.discardBoth b).half b h = s.half b h := by
  have hzero := s.half_discardHalf_of_not_filling b 0 hst
  exact (State.half_discardHalf_of_not_filling _ b 1 (hzero.symm ▸ hst)).trans hzero

/-! ### Frames of one bough -/

theorem onlyBough_refl (b : BoughId) (s : State) : OnlyBough b s s := s.setBough_self b

theorem onlyBough_trans {b : BoughId} {s t u : State} (h : OnlyBough b s t) (k : OnlyBough b t u) : OnlyBough b s u := by
  unfold OnlyBough at *
  rw [← u.setBough_setBough b (t.bough b), k, h]

theorem State.links_of_onlyBough {b : BoughId} {s t : State} (h : OnlyBough b s t) : t.links = s.links :=
  (congrArg State.links (show t.setBough b (s.bough b) = s from h) :)

/-- Where there is no link, a discard reaches its bough alone. -/
theorem State.onlyBough_discardHalf (s : State) (b : BoughId) (h : Fin 2) (hlinks : s.links = []) : OnlyBough b s (s.discardHalf b h) := by
  unfold State.discardHalf
  dsimp only
  split_ifs
  · rw [abortSends_of_links_nil _ s hlinks]
    exact onlyBough_modBough s b _
  · exact onlyBough_refl b s

theorem State.onlyBough_discardBoth (s : State) (b : BoughId) (hlinks : s.links = []) : OnlyBough b s (s.discardBoth b) := by
  have hzero := s.onlyBough_discardHalf b 0 hlinks
  exact onlyBough_trans hzero (State.onlyBough_discardHalf _ b 1 ((State.links_of_onlyBough hzero).trans hlinks))

/-! ### A reset begins -/

/-- A bough whose reset has begun (R41): its queues are empty, its port absorbs and its twig has stopped. -/
def Bough.beginsReset (y : Bough) : Bough :=
  { y with iq := [], saved := none, vfault := none, resetting := true, absorbing := true,
           absorbTags := y.absorbTags ++ (match y.twig.load with | some l => l.owed | none => []),
           twig := { y.twig with run := if y.twig.run = .halted then .halted else .stopped, load := none, waiting := none, wait := .plain,
                                 pfx := [], rep := none, block := none } }

/-- Bough b's links are broken: those that it sends on with code 1, those that it receives on with code 2 (R187). -/
def State.breakOwnLinks (s : State) (b : BoughId) : State :=
  (s.breakLinks (fun l => !l.fromGraft && l.srcBough == b.val) 1).breakLinks (fun l => !l.toGraft && l.dstBough == b.val) 2

theorem State.breakOwnLinks_keeps (s : State) (b : BoughId) : KeepsTwigs s (s.breakOwnLinks b) :=
  (s.breakLinks_keeps _ _).trans (State.breakLinks_keeps _ _ _)

theorem State.breakOwnLinks_of_links_nil (s : State) (b : BoughId) (h : s.links = []) : s.breakOwnLinks b = s := by
  rw [State.breakOwnLinks, s.breakLinks_of_links_nil _ _ h, s.breakLinks_of_links_nil _ _ h]

theorem exec_boughReset_of_not_resetting (s : State) (b : BoughId) (h : (s.bough b).resetting = false) :
    exec (.boughReset b) s = .next (((s.breakOwnLinks b).discardBoth b).modBough b Bough.beginsReset) := by
  show execBoughReset b s = _
  rw [execBoughReset, h]
  rfl

theorem State.half_beginsReset (s : State) (b : BoughId) (h : Fin 2) : (s.modBough b Bough.beginsReset).half b h = s.half b h :=
  s.half_modBough b h _

/-! ### A reset ends -/

theorem State.rearmLink_eq (s : State) (i : Nat) : ∃ links grafts, s.rearmLink i = { s with links := links, grafts := grafts } := by
  unfold State.rearmLink
  split
  · exact ⟨s.links, s.grafts, rfl⟩
  · exact (s.modLink i Link.rearm).giveCredit_eq i _

theorem State.rearmAfterReset_eq (s : State) (b : BoughId) : ∃ links grafts, s.rearmAfterReset b = { s with links := links, grafts := grafts } := by
  unfold State.rearmAfterReset
  generalize List.range s.links.length = is
  induction is generalizing s with
  | nil => exact ⟨s.links, s.grafts, rfl⟩
  | cons i is ih =>
    rw [List.foldl_cons]
    split
    · split_ifs
      · obtain ⟨links, grafts, hrearmed⟩ := s.rearmLink_eq i
        rw [hrearmed]
        exact ih _
      · exact ih s
    · exact ih s

/-- The end of a reset clears the bough; besides, links are rearmed (R41, R383). -/
theorem State.endBoughReset_eq (s : State) (b : BoughId) :
    ∃ links grafts, s.endBoughReset b = { s.modBough b fun y => y.cleared (s.runAfterReset b) with links := links, grafts := grafts } := by
  unfold State.endBoughReset
  dsimp only
  split
  · exact ⟨s.links, s.grafts, rfl⟩
  · exact ⟨s.links, s.grafts, rfl⟩
  · exact State.rearmAfterReset_eq _ b

theorem exec_boughResetComplete_of_clean (s : State) (b : BoughId) (hreset : (s.bough b).resetting = true) (hclean : s.boughClean b = true) :
    exec (.boughResetComplete b) s = .next (s.endBoughReset b) := by
  show execBoughResetComplete b s = _
  rw [execBoughResetComplete, hreset, hclean]
  rfl

theorem exec_boughResetComplete_of_not_clean (s : State) (b : BoughId) (h : (s.bough b).resetting = false ∨ s.boughClean b = false) :
    exec (.boughResetComplete b) s = .next s := by
  show execBoughResetComplete b s = _
  rw [execBoughResetComplete, if_neg]
  rcases h with h | h <;> simp [h]

/-! ### A clean port and the store that waits -/

theorem State.serveAll_of_held_nil (s : State) (h : ∀ n : PortId, s.ports[n].held = []) : s.serveAll = s := by
  have hserve : ∀ l : List PortId, l.foldl (fun s n => s.serveHeld n) s = s := by
    intro l
    induction l with
    | nil => rfl
    | cons n l ih => rw [List.foldl_cons, State.serveHeld_of_held_nil s n (h n), ih]
  exact hserve (List.finRange 4)

/-- A twig whose oldest buffered store goes out. -/
def Twig.sendsHead (w : Twig) : Twig := { w with stores := headSent w.stores }

/-- A bough whose twig's oldest buffered store goes out. -/
def Bough.sendsHead (y : Bough) : Bough := { y with twig := y.twig.sendsHead }

theorem Twig.sendsHead_of_head_sent {w : Twig} (h : ∀ x ∈ w.stores.head?, x.sent = true) : w.sendsHead = w := by
  have hstores : headSent w.stores = w.stores := by
    cases hw : w.stores with
    | nil => rfl
    | cons x xs => rw [headSent, ← h x (by simp [hw])]
  rw [Twig.sendsHead, hstores]

theorem State.modTwig_same (s : State) (t : TwigId) (f : Twig → Twig) (h : f (s.twig t) = s.twig t) : s.modTwig t f = s := by
  rw [State.modTwig, h, State.setTwig_self]

theorem State.foldl_sendBurst_eq (s : State) (ks : List SliceId) (f : State → SliceId → Burst) :
    ∃ slices, ks.foldl (fun s k => s.sendBurst (f s k)) s = { s with slices := slices } := by
  induction ks generalizing s with
  | nil => exact ⟨s.slices, rfl⟩
  | cons k ks ih => exact ih (s.sendBurst (f s k))

theorem State.issueStore_of_head_sent (s : State) (t : TwigId) (h : ∀ x ∈ (s.twig t).stores.head?, x.sent = true) : s.issueStore t = s := by
  unfold State.issueStore
  cases hstores : (s.twig t).stores with
  | nil => rfl
  | cons x rest => simp [h x (by simp [hstores])]

/-- A port that holds nothing back sends the store at the head of the buffer; that reaches the slices, the transactions and the commit
sequencer alone (R165, R272). -/
theorem State.issueStore_eq (s : State) (t : TwigId) (h : s.portHolds t = false) :
    ∃ slices txns seqQ, s.issueStore t = { s.modTwig t Twig.sendsHead with slices := slices, txns := txns, seqQ := seqQ } := by
  by_cases hhead : ∀ x ∈ (s.twig t).stores.head?, x.sent = true
  · have hsame := s.modTwig_same t Twig.sendsHead (Twig.sendsHead_of_head_sent hhead)
    exact ⟨s.slices, s.txns, s.seqQ, by rw [s.issueStore_of_head_sent t hhead, hsame]⟩
  · obtain ⟨x, rest, hstores, hsent⟩ : ∃ x rest, (s.twig t).stores = x :: rest ∧ x.sent = false := by
      cases hstores : (s.twig t).stores with
      | nil => simp [hstores] at hhead
      | cons x rest => exact ⟨x, rest, rfl, by simpa [hstores] using hhead⟩
    have hmod : (s.modTwig t fun w => { w with stores := { x with sent := true } :: rest }) = s.modTwig t Twig.sendsHead := by
      simp only [State.modTwig, Twig.sendsHead, hstores, headSent]
    unfold State.issueStore
    simp only [hstores, hsent, h, Bool.or_self, Bool.false_eq_true, if_false, hmod]
    -- A store to root memory goes out as one burst or as a transaction of several; any other waits at its target.
    split
    · split
      · exact ⟨_, _, _, rfl⟩
      · obtain ⟨slices, hbursts⟩ := State.foldl_sendBurst_eq _ _ _
        exact ⟨slices, _, _, hbursts⟩
    · exact ⟨_, _, _, rfl⟩

/-- Bough b's port has left absorb state; one under reset goes on absorbing (R158, R305). -/
def State.portCleaned (s : State) (b : BoughId) : State := s.modBough b fun y => { y with absorbing := y.resetting }

theorem State.bough_portCleaned (s : State) (b : BoughId) : (s.portCleaned b).bough b = { s.bough b with absorbing := (s.bough b).resetting } :=
  s.bough_modBough b _

theorem State.portHolds_portCleaned (s : State) (b : BoughId) : (s.portCleaned b).portHolds (.bough b) = false := by
  simp [State.portHolds, State.bough_portCleaned]

theorem exec_portClean_of_clean (s : State) (b : BoughId) (hclean : s.masterClean (.bough b) = true) :
    exec (.portClean (.bough b)) s = .next (((s.portCleaned b).issueStore (.bough b)).serveAll) := by
  show execPortClean (.bough b) s = _
  rw [execPortClean, State.portCleanAt, hclean]
  rfl

theorem exec_portClean_of_not_clean (s : State) (m : Master) (hclean : s.masterClean m = false) : exec (.portClean m) s = .next s.serveAll := by
  show execPortClean m s = _
  rw [execPortClean, State.portCleanAt, hclean]
  rfl

end Sys2Proof.Machine

open Sys2Proof Sys2Proof.Machine Sys2Proof.Safety

/-- Settles O25: the reset by `State.breakOwnLinks_keeps` and `State.half_discardBoth_not_filling`, its end by `State.endBoughReset_eq`, the
clean port by `State.issueStore_eq`. -/
theorem boughControl : Obligations.BoughControl := by
  unfold Obligations.BoughControl
  refine ⟨fun s b hreset => ?reset, fun s b hreset hclean => ?complete, exec_boughResetComplete_of_not_clean, fun s b on => ?freeze,
    fun s b hclean hheld => ?portClean, fun s m hclean hheld => ?notClean⟩
  case reset =>
    have hexec := exec_boughReset_of_not_resetting s b hreset
    have hkeeps := (s.breakOwnLinks_keeps b).trans (State.discardBoth_keeps _ b)
    generalize ht : (s.breakOwnLinks b).discardBoth b = t at hexec hkeeps
    have hbough := t.bough_modBough b Bough.beginsReset
    refine ⟨_, hexec, congrArg Bough.iq hbough, congrArg Bough.saved hbough, congrArg Bough.vfault hbough, congrArg Bough.resetting hbough,
      congrArg Bough.absorbing hbough, ?_, fun h => ?_, hkeeps.mem, fun hlinks => ⟨fun h hst => ?_, ?_⟩⟩
    · rw [hbough, Bough.beginsReset, hkeeps.twig b]
    · rw [State.half_beginsReset, ← ht]
      exact State.half_discardBoth_not_filling _ b h
    · rw [State.half_beginsReset, ← ht, s.breakOwnLinks_of_links_nil b hlinks]
      exact s.half_discardBoth_of_not_filling b hst
    · have hdiscarded := s.onlyBough_discardBoth b hlinks
      rw [s.breakOwnLinks_of_links_nil b hlinks] at ht
      rw [ht] at hdiscarded
      exact onlyBough_trans hdiscarded (onlyBough_modBough t b _)
  case complete =>
    obtain ⟨links, grafts, hended⟩ := s.endBoughReset_eq b
    have hbough := s.bough_modBough b fun y => y.cleared (s.runAfterReset b)
    have hhalf : ∀ h, (s.modBough b fun y => y.cleared (s.runAfterReset b)).half b h = Half.free := by
      intro h
      rw [State.half_modBough]
      exact Vector.getElem_replicate _
    refine ⟨_, (exec_boughResetComplete_of_clean s b hreset hclean).trans (congrArg Host.Outcome.next hended), ?_⟩
    beta_reduce
    intro y
    have hy : y = (s.bough b).cleared (s.runAfterReset b) := hbough
    rw [hy]
    refine ⟨rfl, rfl, fun i => ?_, fun i => ?_, fun i => ?_, fun r => ?_, rfl, rfl, rfl, rfl, rfl, hhalf, rfl,
      fun c hc => s.bough_modBough_ne (fun y => y.cleared (s.runAfterReset b)) hc, rfl⟩
    all_goals exact Vector.getElem_replicate _
  case freeze => exact ⟨_, rfl, s.bough_modBough b _, onlyBough_modBough s b _⟩
  case portClean =>
    have hexec := exec_portClean_of_clean s b hclean
    have hcleaned := s.bough_portCleaned b
    have honly : OnlyBough b s (s.portCleaned b) := onlyBough_modBough s b _
    obtain ⟨slices, txns, seqQ, hissued⟩ := (s.portCleaned b).issueStore_eq (.bough b) (s.portHolds_portCleaned b)
    rw [State.serveAll_of_held_nil _ (by rw [hissued]; exact hheld)] at hexec
    refine ⟨_, hexec, ?_, fun hsent => ?_, ?_⟩
    · rw [hissued]
      exact ((s.portCleaned b).bough_modBough b Bough.sendsHead).trans (congrArg Bough.sendsHead hcleaned)
    · rw [State.issueStore_of_head_sent]
      · exact honly
      · intro x hx
        rw [State.twig, hcleaned] at hx
        exact List.all_eq_true.mp hsent x (List.mem_of_mem_head? hx)
    · rw [hissued]
      exact onlyBough_trans honly (onlyBough_modBough (s.portCleaned b) b Bough.sendsHead)
  case notClean => rw [exec_portClean_of_not_clean s m hclean, s.serveAll_of_held_nil hheld]

end

section
/-! SUPPORT. How a twig goes ahead with an instruction (R29, R45, R203, R222, R234): its words are fetched, its form is sound and nothing keeps
it, so that what it does is its effect alone; what falling through may change; what a line fill may change. -/

namespace Sys2Proof.Machine

open Sys2Proof.Safety

/-! ### One twig of the state -/

theorem onlyTwig_modTwig (s : State) (t : TwigId) (f : Twig → Twig) : OnlyTwig t s (s.modTwig t f) := s.modTwig_undo t f

theorem State.modTwig_modTwig (s : State) (t : TwigId) (f g : Twig → Twig) : (s.modTwig t f).modTwig t g = s.modTwig t (g ∘ f) := by
  rw [State.modTwig, State.twig_modTwig]
  exact s.setTwig_setTwig t _ _

theorem State.modTwig_congr (s : State) (t : TwigId) {f g : Twig → Twig} (h : f (s.twig t) = g (s.twig t)) : s.modTwig t f = s.modTwig t g :=
  congrArg (s.setTwig t) h

@[simp] theorem State.twig_groves (s : State) (t : TwigId) (groves : Vector Grove 16) : { s with groves := groves }.twig t = s.twig t := by
  cases t <;> rfl

theorem State.modTwig_groves_eq (s : State) (t : TwigId) (f : Twig → Twig) (groves : Vector Grove 16) :
    { s.modTwig t f with groves := groves } = { s with groves := groves }.modTwig t f := by
  cases t <;> rfl

/-- An update of twig t beside the record of its grove keeps the frame `OnlyTwig` but for that record. -/
theorem onlyTwig_modTwig_groves (s : State) (t : TwigId) (f : Twig → Twig) (groves : Vector Grove 16) :
    OnlyTwig t s { { s with groves := groves }.modTwig t f with groves := s.groves } := by
  rw [State.modTwig_groves_eq]
  exact onlyTwig_modTwig s t f

@[simp] theorem State.regionLen_modTwig (s : State) (t u : TwigId) (f : Twig → Twig) : (s.modTwig t f).regionLen u = s.regionLen u := by
  cases t <;> cases u <;> rfl

@[simp] theorem State.progLine_modTwig (s : State) (t u : TwigId) (f : Twig → Twig) (x : Nat) : (s.modTwig t f).progLine u x = s.progLine u x := by
  cases t <;> cases u <;> rfl

@[simp] theorem State.progAddr_modTwig (s : State) (t u : TwigId) (f : Twig → Twig) (x : Nat) : (s.modTwig t f).progAddr u x = s.progAddr u x := by
  cases t <;> cases u <;> rfl

theorem Twig.reg_setReg (w : Twig) (g r : GReg) (v : Word) : (w.setReg g v).reg r = if r = g then v else w.reg r := vset_get w.g g r v

/-! ### Fetch (R45, R232, R234) -/

theorem State.fetchFault_eq_none_iff (s : State) (t : TwigId) (n : Nat) :
    s.fetchFault t n = none ↔ (s.twig t).fetchAt + n ≤ s.regionLen t ∧
      ∀ i < n, ∀ c, (s.twig t).cached (s.progLine t ((s.twig t).fetchAt + i)) = some c → c.bad = false := by
  have hbad : ∀ o : Option CLine, (match o with | some c => c.bad | none => false) = false ↔ ∀ c, o = some c → c.bad = false := by
    intro o
    cases o <;> simp
  unfold State.fetchFault
  dsimp only
  split_ifs with hlen
  · exact iff_of_false not_false fun hsound => absurd hlen (Nat.not_lt.mpr hsound.1)
  · cases hfind : (List.range n).find? fun i => match (s.twig t).cached (s.progLine t ((s.twig t).fetchAt + i)) with
      | some c => c.bad
      | none => false with
    | some i =>
      obtain ⟨hi, hfalse⟩ := And.intro (List.mem_of_find?_eq_some hfind) (List.find?_some hfind)
      refine iff_of_false (Option.some_ne_none _) fun hsound => ?_
      rw [(hbad _).mpr (hsound.2 i (List.mem_range.mp hi))] at hfalse
      exact Bool.false_ne_true hfalse
    | none =>
      simp only [List.find?_eq_none, List.mem_range, Bool.not_eq_true, hbad] at hfind
      exact iff_of_true rfl ⟨Nat.le_of_not_lt hlen, hfind⟩

theorem wordsReady_mono {s : State} {t : TwigId} {n k : Nat} (h : WordsReady s t n) (hk : k ≤ n) : WordsReady s t k := by
  obtain ⟨hcached, hfault⟩ := h
  obtain ⟨hlen, hsound⟩ := (s.fetchFault_eq_none_iff t n).mp hfault
  exact ⟨fun i hi => hcached i (by omega), (s.fetchFault_eq_none_iff t k).mpr ⟨by omega, fun i hi => hsound i (by omega)⟩⟩

/-- Words that the cache holds are not filled again. -/
theorem State.fetchWords_of_ready {s : State} {t : TwigId} {n : Nat} (h : WordsReady s t n) : s.fetchWords t n = s := by
  unfold State.fetchWords State.fetchFrom
  have hkeep : ∀ l : List Nat, (∀ i ∈ l, i < n) → l.foldl (fun s' i =>
      if decide ((s.twig t).fetchAt + i < s'.regionLen t) && ((s'.twig t).cached (s'.progLine t ((s.twig t).fetchAt + i))).isNone
      then s'.fillLine t (s'.progLine t ((s.twig t).fetchAt + i)) else s') s = s := by
    intro l hl
    induction l with
    | nil => rfl
    | cons i l ih =>
      have hsome := h.1 i (hl i List.mem_cons_self)
      rw [List.foldl_cons, Option.isNone_eq_false_iff.mpr hsome, Bool.and_false, if_neg Bool.false_ne_true]
      exact ih fun j hj => hl j (List.mem_cons_of_mem i hj)
  exact hkeep (List.range n) fun i hi => List.mem_range.mp hi

/-- What fetch looks at in a twig is its place and its cache. -/
theorem wordsReady_modTwig {s : State} {t : TwigId} {n : Nat} (f : Twig → Twig) (hat : (f (s.twig t)).fetchAt = (s.twig t).fetchAt)
    (hcached : (f (s.twig t)).cached = (s.twig t).cached) : WordsReady (s.modTwig t f) t n ↔ WordsReady s t n := by
  unfold WordsReady
  rw [State.fetchFault_eq_none_iff, State.fetchFault_eq_none_iff]
  simp only [State.twig_modTwig, State.regionLen_modTwig, State.progLine_modTwig, hat, hcached]

theorem State.countProg_eq (s : State) (t : TwigId) (a : Nat) : ∃ groves, s.countProg t a = { s with groves := groves } := by
  unfold State.countProg State.countLine
  cases t with
  | crown k => exact ⟨s.groves, rfl⟩
  | bough b =>
    dsimp only
    split_ifs
    · exact ⟨_, rfl⟩
    · exact ⟨_, rfl⟩
    · exact ⟨s.groves, rfl⟩

/-- A line as a fill reads it for twig t (R45). -/
def State.lineCopy (s : State) (t : TwigId) (line : Nat) : CLine :=
  { line := line, words := (List.range 16).map fun i => BitVec.ofNat 14 (s.mem.readProg (lineAddr t line + 2 * i)), stale := false,
    bad := s.mem.badLine (lineAddr t line) }

/-- A line fill reaches the cache, the line buffer and the grove's error record alone. -/
theorem State.fillLine_eq (s : State) (t : TwigId) (line : Nat) :
    ∃ groves, s.fillLine t line = { s with groves := groves }.modTwig t fun w => w.fill (s.lineCopy t line) := by
  obtain ⟨groves, hcount⟩ := s.countProg_eq t (lineAddr t line)
  exact ⟨groves, congrArg (fun s' => State.modTwig s' t fun w => w.fill (s.lineCopy t line)) hcount⟩

/-- A twig with another cache and line buffer. -/
def Twig.withCache (w : Twig) (icache : List CLine) (lineBuf : Option CLine) : Twig := { w with icache := icache, lineBuf := lineBuf }

/-- So does every fetch. -/
theorem State.fetchFrom_eq (s : State) (t : TwigId) (x n : Nat) :
    ∃ groves icache lineBuf, s.fetchFrom t x n = { s with groves := groves }.modTwig t fun w => w.withCache icache lineBuf := by
  unfold State.fetchFrom
  generalize List.range n = is
  induction is generalizing s with
  | nil =>
    have hsame : (s.modTwig t fun w => w.withCache (s.twig t).icache (s.twig t).lineBuf) = s := s.modTwig_same t _ rfl
    exact ⟨s.groves, (s.twig t).icache, (s.twig t).lineBuf, hsame.symm⟩
  | cons i is ih =>
    rw [List.foldl_cons]
    split_ifs
    · obtain ⟨groves, hfill⟩ := s.fillLine_eq t (s.progLine t (x + i))
      obtain ⟨groves', icache, lineBuf, hrest⟩ := ih (s.fillLine t (s.progLine t (x + i)))
      refine ⟨groves', icache, lineBuf, hrest.trans ?_⟩
      rw [hfill, State.modTwig_groves_eq, State.modTwig_modTwig]
      rfl
    · exact ih s

/-! ### Falling through (R222) -/

/-- What moving past an instruction without a repetition changes: PC, the collected prefixes and the loop counts. -/
theorem Twig.finish_eq {w : Twig} (hrep : w.rep = none) (n : Nat) (w0 w1 : Bool) :
    ∃ pc past lc0 lc1, w.finish n w0 w1 = { w with pfx := [], pc := pc, past := past, lc0 := lc0, lc1 := lc1 } ∧
      (w.lc0 = 0 → lc0 = 0) ∧ (w.lc1 = 0 → lc1 = 0) := by
  have hend0 : ∀ (u : Twig) (next : Nat), ∃ pc past lc0, u.loopEnd0 next w0 = { u with pc := pc, past := past, lc0 := lc0 } ∧ (u.lc0 = 0 → lc0 = 0) := by
    intro u next
    unfold Twig.loopEnd0
    split_ifs with hloop hone
    · exact ⟨_, _, _, rfl, fun hzero => by simp [hzero] at hloop⟩
    · exact ⟨_, _, _, rfl, fun _ => rfl⟩
    · exact ⟨_, _, u.lc0, rfl, id⟩
  have hfinish : w.finish n w0 w1 = { w with pfx := [] }.loopEnd (w.pc.toNat + w.pfx.length + n) w0 w1 := by
    unfold Twig.finish
    split
    · rfl
    next r hr => exact absurd (hr.symm.trans hrep) (Option.some_ne_none r)
  rw [hfinish]
  unfold Twig.loopEnd
  split_ifs with hloop hone
  · exact ⟨_, _, w.lc0, _, rfl, id, fun hzero => by simp [hzero] at hloop⟩
  · obtain ⟨pc, past, lc0, hend, hzero⟩ := hend0 { w with pfx := [], lc1 := 0 } (w.pc.toNat + w.pfx.length + n)
    exact ⟨pc, past, lc0, 0, hend, hzero, fun _ => rfl⟩
  · obtain ⟨pc, past, lc0, hend, hzero⟩ := hend0 { w with pfx := [] } (w.pc.toNat + w.pfx.length + n)
    exact ⟨pc, past, lc0, w.lc1, hend, hzero, id⟩

/-! ### Going ahead -/

theorem Twig.latched_of_rep_none {w : Twig} (hrep : w.rep = none) : w.latched = { w with repActive := false } := by
  simp [Twig.latched, hrep]

theorem Twig.fetchAt_latched (w : Twig) : w.latched.fetchAt = w.fetchAt := by
  cases hrep : w.rep <;> simp [Twig.latched, Twig.fetchAt, Twig.ahead, hrep]

theorem Twig.latched_eq (w : Twig) : ∃ rep, w.latched = { w with repActive := false, rep := rep } := by
  unfold Twig.latched
  dsimp only
  split
  · exact ⟨_, rfl⟩
  · exact ⟨w.rep, rfl⟩

theorem Twig.repSkips_of_skips {w : Twig} (h : w.skips = false) : w.repSkips = false := by
  cases hrep : w.rep with
  | none => simp [Twig.repSkips, hrep]
  | some r =>
    simp only [Twig.skips, hrep, Bool.or_eq_false_iff] at h
    simpa [Twig.repSkips, hrep] using h.1

/-- The state in which twig t has decoded its instruction: a repetition under way has its count for good (R224). -/
def State.decoded (s : State) (t : TwigId) : State := s.modTwig t Twig.latched

theorem State.twig_decoded {s : State} {t : TwigId} (hrep : (s.twig t).rep = none) : (s.decoded t).twig t = { s.twig t with repActive := false } :=
  (s.twig_modTwig t _).trans (Twig.latched_of_rep_none hrep)

@[simp] theorem State.reg_decoded (s : State) (t : TwigId) (r : GReg) : ((s.decoded t).twig t).reg r = (s.twig t).reg r := by
  obtain ⟨rep, hlatched⟩ := (s.twig t).latched_eq
  rw [State.decoded, State.twig_modTwig, hlatched]
  rfl

@[simp] theorem State.mem_decoded (s : State) (t : TwigId) : (s.decoded t).mem = s.mem := s.modTwig_mem t _
@[simp] theorem State.regionLen_decoded (s : State) (t : TwigId) : (s.decoded t).regionLen t = s.regionLen t := s.regionLen_modTwig t t _
@[simp] theorem State.progAddr_decoded (s : State) (t : TwigId) (x : Nat) : (s.decoded t).progAddr t x = s.progAddr t x :=
  s.progAddr_modTwig t t _ x
@[simp] theorem State.progLine_decoded (s : State) (t : TwigId) (x : Nat) : (s.decoded t).progLine t x = s.progLine t x :=
  s.progLine_modTwig t t _ x

theorem wordsReady_decoded {s : State} {t : TwigId} {n : Nat} : WordsReady (s.decoded t) t n ↔ WordsReady s t n := by
  obtain ⟨rep, hlatched⟩ := (s.twig t).latched_eq
  exact wordsReady_modTwig Twig.latched (s.twig t).fetchAt_latched (by rw [hlatched]; rfl)

/-- A twig that stands before an instruction begins it (R203, R232). -/
theorem twigBegin_of_twigAt {s : State} {t : TwigId} {n : Nat} (h : TwigAt s t n) (hn : 1 ≤ n) (i : Instr) (k : State → State) :
    twigBegin i t s k = k s := by
  obtain ⟨hready, _, hsync, hwords⟩ := h
  have hwords := wordsReady_mono hwords hn
  have hsame : (s.modTwig t fun w => { w with sync := false }) = s := s.modTwig_same t _ (by rw [← hsync])
  have hwaits : s.syncWaits t = false := by
    cases t with
    | bough b => simp [State.syncWaits, show (s.bough b).twig.sync = false from hsync]
    | crown k => rfl
  have hfault : s.syncFault t = none := by
    cases t with
    | bough b => simp [State.syncFault, show (s.bough b).twig.sync = false from hsync]
    | crown k => rfl
  simp [twigBegin, hready, hwaits, hfault, hsame, State.fetchWords_of_ready hwords, hwords.2]

theorem State.faultAt_of_not_held {s : State} {t : TwigId} (h : s.tsbHeld t = false) (i : Instr) (s' : State) (c : Cause) (a : Word) :
    s.faultAt t i s' c a = s'.twigFault t c a := by
  simp [State.faultAt, h]

theorem State.tsbHeld_decoded (s : State) (t : TwigId) : (s.decoded t).tsbHeld t = s.tsbHeld t := by
  obtain ⟨rep, hlatched⟩ := (s.twig t).latched_eq
  have htwig : (s.decoded t).twig t = { s.twig t with repActive := false, rep := rep } := (s.twig_modTwig t _).trans hlatched
  cases t with
  | crown k => rfl
  | bough b =>
    unfold State.tsbHeld
    rw [htwig]
    rfl

/-- The fault of an instruction that no repetition precedes, with at most its grove's error record changed before. -/
theorem faultsAt_of_decoded {s : State} {t : TwigId} {i : Instr} {c : Cause} {a : Word} (hrep : (s.twig t).rep = none)
    (groves : Vector Grove 16) (hexec : exec i s = .next ({ s.decoded t with groves := groves }.twigFault t c a)) : FaultsAt i s t c a := by
  refine ⟨_, hexec, (State.twig_groves _ t groves).trans (State.twig_decoded hrep), ?_⟩
  cases t <;> exact onlyTwig_modTwig s _ Twig.latched

/-- A bough whose issued instructions do not meet the condition, and that holds no fault, does not wait (R29). -/
theorem State.waitWhile_of_clear {s : State} {t : TwigId} {wk : WaitKind} {cond : Bough → Bool}
    (h : ∀ b, t = .bough b → (s.bough b).vfault = none ∧ cond (s.bough b) = false) (k : Act) : s.waitWhile t wk cond k = k := by
  cases t with
  | crown c => rfl
  | bough b =>
    obtain ⟨hfault, hcond⟩ := h b rfl
    simp [State.waitWhile, hfault, hcond]

theorem State.bough_modTwig_eq (s : State) (t : TwigId) (f : Twig → Twig) (b : BoughId) :
    ∃ w, (s.modTwig t f).bough b = { s.bough b with twig := w } := by
  cases t with
  | crown k => exact ⟨(s.bough b).twig, rfl⟩
  | bough c =>
    by_cases hc : b = c
    · subst hc
      exact ⟨_, s.bough_modBough b _⟩
    · exact ⟨(s.bough b).twig, s.bough_modBough_ne _ hc⟩

/-- A twig that goes ahead with an instruction of a sound form does what the instruction's effect says. -/
theorem runTwig_of_go {s : State} {t : TwigId} {gu : PReg} {n : Nat} {reads : List GReg} (h : TwigGo s t gu n reads) (hn : 1 ≤ n)
    {f : TwigForm} (hwords : f.words = n) (hreads : f.reads = reads) (hbad : f.bad = false) (hrep : (s.twig t).rep = none ∨ f.rep = true)
    (hpfx : (s.twig t).pfx = [] ∨ f.pfx = true) (i : Instr) (eff : State → Act) :
    runTwig i t gu f eff s = (s.decoded t).act t i n (eff (s.decoded t)) := by
  obtain ⟨hat, hskips, hguard, hwaits⟩ := h
  have hready : WordsReady (s.decoded t) t n := wordsReady_decoded.mpr hat.words
  have hcond : ((s.twig t).rep.isSome && !f.rep) = false := by rcases hrep with hrep | hrep <;> simp [hrep]
  have hform : (f.bad || (!f.pfx && !(s.twig t).pfx.isEmpty)) = false := by rcases hpfx with hpfx | hpfx <;> simp [hbad, hpfx]
  have hnowait : (s.decoded t).waitReads t reads (eff (s.decoded t)) = eff (s.decoded t) := by
    refine State.waitWhile_of_clear (fun b hb => ?_) _
    obtain ⟨hfault, hclear⟩ := hwaits b hb
    obtain ⟨w, hbough⟩ := s.bough_modTwig_eq t Twig.latched b
    rw [State.decoded, hbough]
    exact ⟨hfault, List.any_eq_false.mpr fun r hr => Bool.eq_false_iff.mp (hclear r hr)⟩
  have hgo : ((s.twig t).skips || !(s.twig t).predBit gu) = false := by simp [hskips, hguard]
  rw [runTwig, twigBegin_of_twigAt hat hn]
  simp only [hat.noBlock, Twig.repSkips_of_skips hskips, hcond, hgo, hform, Bool.false_eq_true, if_false, hwords, hreads]
  rw [show s.modTwig t Twig.latched = s.decoded t from rfl, State.fetchWords_of_ready hready, hready.2]
  exact congrArg ((s.decoded t).act t i n) hnowait

end Sys2Proof.Machine
end

section
/-! SUPPORT. The program store as a twig reads and writes it (R43, R45, R233, R234): what PMR, PMW and a line fill leave, and the settling of
O11. -/

namespace Sys2Proof.Machine

open Sys2Proof.Safety

/-! ### Bytes of memory, whatever the order of its cells -/

theorem find_insertCell_eq (a x : Nat) (b : Byte) (l : List Host.Cell) :
    (insertCell a b l).find? (fun c => decide (c.1 = x)) = if x = a then some (a, b) else l.find? fun c => decide (c.1 = x) := by
  induction l with
  | nil => by_cases hx : x = a <;> simp [insertCell, hx, eq_comm]
  | cons c l ih =>
    have hnew : ∀ l' : List Host.Cell, ((a, b) :: l').find? (fun c => decide (c.1 = x)) =
        if x = a then some (a, b) else l'.find? fun c => decide (c.1 = x) := by
      intro l'
      by_cases hx : x = a <;> simp [hx, eq_comm]
    unfold insertCell
    by_cases hlt : a < c.1
    · rw [if_pos hlt]
      exact hnew (c :: l)
    · rw [if_neg hlt]
      by_cases heq : a = c.1
      · rw [if_pos heq, hnew]
        by_cases hx : x = a
        · rw [if_pos hx, if_pos hx]
        · rw [if_neg hx, if_neg hx, List.find?_cons_of_neg (by simpa [← heq] using Ne.symm hx)]
      · rw [if_neg heq, List.find?_cons, List.find?_cons, ih]
        by_cases hx : x = a
        · simp [hx, Ne.symm heq]
        · simp [hx]

/-- `Memory.read_put` for a memory in any form. -/
theorem Memory.read_put_eq (m : Memory) (a x : Nat) (b : Byte) : (m.put a b).read x = if x = a then b else m.read x := by
  unfold Memory.put
  split_ifs with hzero hx hx
  · obtain ⟨hzoned, rfl⟩ : m.zeroed.contains (zoneOf a) = true ∧ b = 0 := by simpa [Memory.isZeroed] using hzero
    subst hx
    have hnone : (eraseCell x m.cells).find? (fun c => decide (c.1 = x)) = none := by simp [eraseCell]
    rw [Memory.read_eq]
    simp only [hnone, hzoned]
    rfl
  · have hsame : (eraseCell a m.cells).find? (fun c => decide (c.1 = x)) = m.cells.find? fun c => decide (c.1 = x) := by
      rw [eraseCell, List.find?_filter]
      congr 1
      funext c
      by_cases hc : c.1 = x <;> simp [hc, hx]
    rw [Memory.read_eq, Memory.read_eq]
    simp only [hsame]
  · rw [Memory.read_eq]
    simp only [find_insertCell_eq, if_pos hx]
    rfl
  · rw [Memory.read_eq, Memory.read_eq]
    simp only [find_insertCell_eq, if_neg hx]

/-- Bytes written with the values that they have change nothing that is read. -/
theorem Memory.read_putAll_same (m k : Memory) (as : List Nat) (h : ∀ x, k.read x = m.read x) (x : Nat) :
    (k.putAll (as.map fun a => (a, m.read a))).read x = m.read x := by
  induction as generalizing k with
  | nil => exact h x
  | cons a as ih =>
    refine ih (k.put a (m.read a)) fun y => ?_
    rw [Memory.read_put_eq]
    split_ifs with hy
    · rw [hy]
    · exact h y

theorem Memory.read_materialise_eq (m : Memory) (w x : Nat) : (m.materialise w).read x = m.read x := by
  unfold Memory.materialise
  split_ifs
  · rfl
  · simpa [Function.comp_def] using m.read_putAll_same m ((List.range 8).map fun i => 8 * w + i) (fun _ => rfl) x

/-- A fold of operations that leave every byte reads as the memory before. -/
theorem Memory.read_foldl {α : Type} (f : Memory → α → Memory) (h : ∀ m a x, (f m a).read x = m.read x) (l : List α) (m : Memory) (x : Nat) :
    (l.foldl f m).read x = m.read x := by
  induction l generalizing m with
  | nil => rfl
  | cons a l ih => rw [List.foldl_cons, ih, h]

/-- The byte that a program store keeps of one written at address a (R43). -/
def progByte (c : Nat × Byte) : Nat × Byte := if c.1 % 2 = 1 then (c.1, c.2 &&& 0x3f) else c

/-- What a line write leaves to read is what its bytes put there. -/
theorem Memory.read_writeLine (m : Memory) (a : Nat) (bs : List (Nat × Byte)) :
    ∃ k : Memory, (∀ x, k.read x = m.read x) ∧ ∀ x, (m.writeLine a bs).read x = (k.putAll (bs.map progByte)).read x := by
  refine ⟨_, fun x => ?_, fun x => Memory.read_foldl _ (fun m i x => m.read_setMark _ _ x) _ _ x⟩
  split_ifs
  · rfl
  · exact Memory.read_foldl _ (fun m i x => m.read_materialise_eq _ x) _ _ x

theorem progByte_even {a : Nat} (h : a % 2 = 0) (b : Byte) : progByte (a, b) = (a, b) := by
  simp [progByte, h]

/-- The high byte of a 14-bit word is kept whole. -/
theorem progByte_odd {a : Nat} (h : a % 2 = 1) {n : Nat} (hn : n < 64) : progByte (a, BitVec.ofNat 8 n) = (a, BitVec.ofNat 8 n) := by
  have hkeep : BitVec.ofNat 8 n &&& 0x3f = BitVec.ofNat 8 n := by
    apply BitVec.eq_of_toNat_eq
    have hmask : n % 2 ^ 8 &&& 63 = n % 2 ^ 8 % 64 := Nat.and_two_pow_sub_one_eq_mod _ 6
    rw [BitVec.toNat_and, BitVec.toNat_ofNat, show BitVec.toNat (0x3f : Byte) = 63 from rfl]
    omega
  rw [progByte, if_pos h, hkeep]

/-- A 14-bit word written at an even address reads back, and every other byte reads as before (R43). -/
theorem stored_writeLine (m : Memory) {a n : Nat} (ha : a % 2 = 0) (hn : n < 2 ^ 14) :
    Stored m (m.writeLine a (atAddr a (wordBytes 2 n))) a (wordBytes 2 n) := by
  intro x
  obtain ⟨k, hk, hwritten⟩ := m.read_writeLine a (atAddr a (wordBytes 2 n))
  have hbytes : wordBytes 2 n = [BitVec.ofNat 8 n, BitVec.ofNat 8 (n / 256)] := by simp [wordBytes, List.range_succ]
  have hput : (atAddr a (wordBytes 2 n)).map progByte = [(a, BitVec.ofNat 8 n), (a + 1, BitVec.ofNat 8 (n / 256))] := by
    simp only [hbytes, atAddr, List.map_cons, List.map_nil, progByte_even ha, progByte_odd (show (a + 1) % 2 = 1 by omega) (show n / 256 < 64 by omega)]
  rw [hwritten, hput, hbytes]
  simp only [Memory.putAll, List.foldl_cons, List.foldl_nil, Memory.read_put_eq, hk, List.length_cons, List.length_nil]
  by_cases hhigh : x = a + 1
  · simp [hhigh]
  by_cases hlow : x = a
  · simp [hlow]
  rw [if_neg hhigh, if_neg hlow, if_neg (by omega)]

/-! ### The program store of a twig -/

theorem State.progAddr_even (s : State) (t : TwigId) (x : Nat) : s.progAddr t x % 2 = 0 := by
  cases t <;> simp only [State.progAddr, pstoreAddr, crownWordAddr, pstoreBase, crownBase] <;> omega

/-! ### PMR (R233) -/

/-- The effect of PMR: the word that Gs names, counted as a fetch is (R45), or its fault. -/
def pmrAct (t : TwigId) (gd gs : GReg) (s : State) : Act :=
  let x := (s.twig t).reg gs
  if !s.inRegion t x then .fault .access x
  else
    let a := s.progAddr t x.toNat
    let s := s.countProg t a
    if s.mem.badLine a then .faultIn s .poison x else .done (s.setG t gd (BitVec.ofNat 64 (s.mem.readProg a))) false false

section

variable {s : State} {t : TwigId} {gu : PReg} {gd gs : GReg} (hgo : TwigGo s t gu 2 [gs]) (hplain : Plain s t)

include hgo hplain

theorem exec_pmr_of_go : exec (.pmr t gu gd gs 0) s = .next ((s.decoded t).act t (.pmr t gu gd gs 0) 2 (pmrAct t gd gs (s.decoded t))) :=
  congrArg Host.Outcome.next (runTwig_of_go hgo (by omega) rfl rfl rfl (.inl hplain.1) (.inl hplain.2) _ _)

theorem pmr_faults_outside (hout : s.regionLen t ≤ ((s.twig t).reg gs).toNat) (hheld : s.tsbHeld t = false) :
    FaultsAt (.pmr t gu gd gs 0) s t .access ((s.twig t).reg gs) := by
  have hexec := exec_pmr_of_go (gd := gd) hgo hplain
  have hin : (s.decoded t).inRegion t ((s.twig t).reg gs) = false := by simpa [State.inRegion] using hout
  have hact : pmrAct t gd gs (s.decoded t) = .fault .access ((s.twig t).reg gs) := by simp [pmrAct, hin]
  rw [hact, State.act, State.faultAt_of_not_held (by rw [State.tsbHeld_decoded, hheld])] at hexec
  exact faultsAt_of_decoded hplain.1 (s.decoded t).groves hexec

theorem pmr_faults_poison (hlt : ((s.twig t).reg gs).toNat < s.regionLen t)
    (hbad : s.mem.badLine (s.progAddr t ((s.twig t).reg gs).toNat) = true) (hheld : s.tsbHeld t = false) :
    FaultsAt (.pmr t gu gd gs 0) s t .poison ((s.twig t).reg gs) := by
  have hexec := exec_pmr_of_go (gd := gd) hgo hplain
  obtain ⟨groves, hcount⟩ := (s.decoded t).countProg_eq t (s.progAddr t ((s.twig t).reg gs).toNat)
  have hin : (s.decoded t).inRegion t ((s.twig t).reg gs) = true := by simpa [State.inRegion] using hlt
  have hact : pmrAct t gd gs (s.decoded t) = .faultIn { s.decoded t with groves := groves } .poison ((s.twig t).reg gs) := by
    simp [pmrAct, hin, hcount, hbad]
  rw [hact, State.act, State.faultAt_of_not_held (by rw [State.tsbHeld_decoded, hheld])] at hexec
  exact faultsAt_of_decoded hplain.1 groves hexec

/-- PMR of a sound word: Gd takes it and the twig moves on. -/
theorem exec_pmr_of_sound (hlt : ((s.twig t).reg gs).toNat < s.regionLen t)
    (hbad : s.mem.badLine (s.progAddr t ((s.twig t).reg gs).toNat) = false) :
    ∃ groves, exec (.pmr t gu gd gs 0) s = .next ({ s with groves := groves }.modTwig t fun w =>
      (w.latched.setReg gd (BitVec.ofNat 64 (s.mem.readProg (s.progAddr t ((s.twig t).reg gs).toNat)))).finish 2 false false) := by
  have hexec := exec_pmr_of_go (gd := gd) hgo hplain
  obtain ⟨groves, hcount⟩ := (s.decoded t).countProg_eq t (s.progAddr t ((s.twig t).reg gs).toNat)
  have hin : (s.decoded t).inRegion t ((s.twig t).reg gs) = true := by simpa [State.inRegion] using hlt
  have hact : pmrAct t gd gs (s.decoded t) = .done ({ s.decoded t with groves := groves }.setG t gd
      (BitVec.ofNat 64 (s.mem.readProg (s.progAddr t ((s.twig t).reg gs).toNat)))) false false := by
    simp [pmrAct, hin, hcount, hbad]
  refine ⟨groves, hexec.trans (congrArg Host.Outcome.next ?_)⟩
  rw [hact, State.act, State.decoded, State.modTwig_groves_eq, State.setG, State.modTwig_modTwig, State.modTwig_modTwig]
  rfl

end

/-! ### Stale copies (R234) -/

theorem Twig.stale_of_markStale (w : Twig) (line : Nat) :
    ∀ c ∈ (w.markStale line).icache ++ (w.markStale line).lineBuf.toList, c.line = line → c.stale = true := by
  have hmark : ∀ c d : CLine, (if d.line = line then { d with stale := true } else d) = c → c.line = line → c.stale = true := by
    rintro c d rfl
    split_ifs with hline
    · exact fun _ => rfl
    · exact fun h => absurd h hline
  intro c hc
  rcases List.mem_append.mp hc with hc | hc
  · obtain ⟨d, -, hd⟩ := List.mem_map.mp hc
    exact hmark c d hd
  · obtain ⟨d, -, hd⟩ := Option.map_eq_some_iff.mp (Option.mem_toList.mp hc)
    exact hmark c d hd

theorem State.bough_markStale (s : State) (b c : BoughId) (line : Nat) :
    (s.markStale (.bough b) line).bough c =
      if c.val / 16 = b.val / 16 then { s.bough c with twig := (s.bough c).twig.markStale line } else s.bough c :=
  Vector.getElem_mapFinIdx _

theorem State.twig_markStale (s : State) (t : TwigId) (line : Nat) : (s.markStale t line).twig t = (s.twig t).markStale line := by
  cases t with
  | bough b => exact congrArg Bough.twig ((s.bough_markStale b b line).trans (if_pos rfl))
  | crown k => exact Vector.getElem_map _ _

/-- Marking copies stale reaches the boughs and the crown cores alone. -/
theorem State.markStale_eq (s : State) (t : TwigId) (line : Nat) :
    ∃ boughs cores, s.markStale t line = { s with boughs := boughs, crn := { s.crn with cores := cores } } := by
  cases t with
  | bough b => exact ⟨_, s.crn.cores, rfl⟩
  | crown k => exact ⟨s.boughs, _, rfl⟩

/-! ### What a write and its stale marks leave -/

section

variable (s : State) (t : TwigId) (f g : Twig → Twig) (line : Nat)

/-- Twig t is changed by f, the copies of a line in its grove are marked stale, and twig t is changed by g. -/
def State.staleBetween : State := ((s.modTwig t f).markStale t line).modTwig t g

theorem State.twig_staleBetween : (s.staleBetween t f g line).twig t = g ((f (s.twig t)).markStale line) := by
  rw [State.staleBetween, State.twig_modTwig, State.twig_markStale, State.twig_modTwig]

theorem State.mem_staleBetween : (s.staleBetween t f g line).mem = s.mem := by
  obtain ⟨boughs, cores, hstale⟩ := (s.modTwig t f).markStale_eq t line
  rw [State.staleBetween, State.modTwig_mem, hstale]
  exact s.modTwig_mem t f

/-- Nothing changes but boughs and crown cores. -/
theorem State.staleBetween_eq :
    ∃ boughs cores, s.staleBetween t f g line = { s with boughs := boughs, crn := { s.crn with cores := cores } } := by
  obtain ⟨boughs, cores, hstale⟩ := (s.modTwig t f).markStale_eq t line
  rw [State.staleBetween, hstale]
  cases t with
  | bough b => exact ⟨_, cores, rfl⟩
  | crown k => exact ⟨boughs, _, rfl⟩

theorem State.bough_staleBetween_ne {b c : BoughId} (hc : c ≠ b) :
    (s.staleBetween (.bough b) f g line).bough c =
      if c.val / 16 = b.val / 16 then { s.bough c with twig := (s.bough c).twig.markStale line } else s.bough c := by
  have hkeep : (s.modTwig (.bough b) f).bough c = s.bough c := s.bough_modBough_ne (fun y => { y with twig := f (s.twig (.bough b)) }) hc
  have hlast : (s.staleBetween (.bough b) f g line).bough c = ((s.modTwig (.bough b) f).markStale (.bough b) line).bough c :=
    State.bough_modBough_ne _ _ hc
  rw [hlast, State.bough_markStale, hkeep]

end

/-! ### PMW (R233, R234) -/

/-- The program store after twig t has written word v at place x of its region: the word after the instruction was fetched before, the read of
the line for the merge is on record, and every cached copy of the line is stale. -/
def State.progWritten (s : State) (t : TwigId) (x v : Nat) : State :=
  (((s.fetchWords t 3).countProg t (s.progAddr t x)).modMem fun m => m.writeLine (s.progAddr t x) (atAddr (s.progAddr t x) (wordBytes 2 v))).markStale t
    (((s.fetchWords t 3).countProg t (s.progAddr t x)).progLine t x)

/-- The effect of PMW. -/
def pmwAct (t : TwigId) (gs gt : GReg) (s : State) : Act :=
  let x := (s.twig t).reg gs
  if !s.inRegion t x || s.regionRo t then .fault .access x
  else .done (s.progWritten t x.toNat (((s.twig t).reg gt).toNat % 2 ^ 14)) false false

@[simp] theorem State.regionRo_decoded (s : State) (t : TwigId) : (s.decoded t).regionRo t = s.regionRo t := by
  cases t <;> rfl

theorem State.progLine_groves (s : State) (t : TwigId) (groves : Vector Grove 16) (x : Nat) :
    { s with groves := groves }.progLine t x = s.progLine t x := by
  cases t <;> rfl

theorem State.modMem_modTwig (s : State) (t : TwigId) (f : Twig → Twig) (g : Memory → Memory) :
    (s.modTwig t f).modMem g = (s.modMem g).modTwig t f := by
  cases t <;> rfl

/-- What is written before copies are marked: memory, the twig's cache and the grove's error record. -/
theorem State.progWritten_eq (s : State) (t : TwigId) (x v : Nat) :
    ∃ groves icache lineBuf, s.progWritten t x v =
      (({ s with groves := groves }.modMem fun m => m.writeLine (s.progAddr t x) (atAddr (s.progAddr t x) (wordBytes 2 v))).modTwig t fun w =>
        w.withCache icache lineBuf).markStale t (s.progLine t x) := by
  obtain ⟨groves, icache, lineBuf, hfetch⟩ := s.fetchFrom_eq t (s.twig t).fetchAt 3
  obtain ⟨groves', hcount⟩ := (s.fetchWords t 3).countProg_eq t (s.progAddr t x)
  have hall : (s.fetchWords t 3).countProg t (s.progAddr t x) = { s with groves := groves' }.modTwig t fun w => w.withCache icache lineBuf := by
    rw [hcount, State.fetchWords, hfetch, State.modTwig_groves_eq]
  refine ⟨groves', icache, lineBuf, ?_⟩
  rw [State.progWritten, hall, State.progLine_modTwig, State.progLine_groves, State.modMem_modTwig]

section

variable {s : State} {t : TwigId} {gu : PReg} {gs gt : GReg} (hgo : TwigGo s t gu 2 [gs, gt]) (hplain : Plain s t)

include hgo hplain

theorem exec_pmw_of_go : exec (.pmw t gu 0 gs 0 gt) s = .next ((s.decoded t).act t (.pmw t gu 0 gs 0 gt) 2 (pmwAct t gs gt (s.decoded t))) :=
  congrArg Host.Outcome.next (runTwig_of_go hgo (by omega) rfl rfl rfl (.inl hplain.1) (.inl hplain.2) _ _)

theorem pmw_faults (hout : s.regionLen t ≤ ((s.twig t).reg gs).toNat ∨ s.regionRo t = true) (hheld : s.tsbHeld t = false) :
    FaultsAt (.pmw t gu 0 gs 0 gt) s t .access ((s.twig t).reg gs) := by
  have hexec := exec_pmw_of_go hgo hplain
  have hact : pmwAct t gs gt (s.decoded t) = .fault .access ((s.twig t).reg gs) := by
    rcases hout with hout | hro
    · simp [pmwAct, State.inRegion, Nat.not_lt.mpr hout]
    · simp [pmwAct, hro]
  rw [hact, State.act, State.faultAt_of_not_held (by rw [State.tsbHeld_decoded, hheld])] at hexec
  exact faultsAt_of_decoded hplain.1 (s.decoded t).groves hexec

/-- PMW of a writable word: memory takes it, the twig's cache may have taken lines, copies of its line are stale, and the twig moves on. -/
theorem exec_pmw_of_writable (hlt : ((s.twig t).reg gs).toNat < s.regionLen t) (hro : s.regionRo t = false) :
    ∃ groves icache lineBuf, exec (.pmw t gu 0 gs 0 gt) s =
      .next (({ s with groves := groves }.modMem fun m => m.writeLine (s.progAddr t ((s.twig t).reg gs).toNat)
        (atAddr (s.progAddr t ((s.twig t).reg gs).toNat) (wordBytes 2 (((s.twig t).reg gt).toNat % 2 ^ 14)))).staleBetween t
          (fun w => w.latched.withCache icache lineBuf) (fun w => w.finish 2 false false) (s.progLine t ((s.twig t).reg gs).toNat)) := by
  have hexec := exec_pmw_of_go hgo hplain
  have hact : pmwAct t gs gt (s.decoded t) =
      .done ((s.decoded t).progWritten t ((s.twig t).reg gs).toNat (((s.twig t).reg gt).toNat % 2 ^ 14)) false false := by
    simp [pmwAct, State.inRegion, hlt, hro]
  obtain ⟨groves, icache, lineBuf, hwritten⟩ :=
    (s.decoded t).progWritten_eq t ((s.twig t).reg gs).toNat (((s.twig t).reg gt).toNat % 2 ^ 14)
  refine ⟨groves, icache, lineBuf, hexec.trans (congrArg Host.Outcome.next ?_)⟩
  rw [hact, State.act, hwritten, State.progAddr_decoded, State.progLine_decoded, State.decoded, State.modTwig_groves_eq, State.modMem_modTwig,
    State.modTwig_modTwig]
  rfl

end

/-! ### Line fills (R45) -/

theorem exec_programStoreFill_of_in {s : State} {t : TwigId} {line : Nat} (h : s.lineInRegion t line = true) :
    exec (.programStoreFill t line) s = .next (s.fillLine t line) := by
  show execProgramStoreFill t line s = _
  rw [execProgramStoreFill, if_pos h]

theorem State.words_lineCopy (s : State) (t : TwigId) (line k : Nat) (hk : k < 16) :
    (s.lineCopy t line).words[k]? = some (BitVec.ofNat 14 (bytesNat (s.mem.readN (lineAddr t line + 2 * k) 2))) := by
  have hword : ∀ a, BitVec.ofNat 14 (s.mem.readProg a) = BitVec.ofNat 14 (bytesNat (s.mem.readN a 2)) :=
    fun a => BitVec.eq_of_toNat_eq (by simp [Memory.readProg])
  simp [State.lineCopy, hk, hword]

/-- A fill puts its line first and keeps only other lines behind it. -/
theorem Twig.mem_icache_fill {w : Twig} {c d : CLine} (h : d ∈ (w.fill c).icache.drop 1) : d ∈ w.icache ∧ d.line ≠ c.line := by
  have hd := List.mem_of_mem_filter (show d ∈ List.filter _ (w.icache.filter fun x => decide (x.line ≠ c.line)) from h)
  simpa using List.mem_filter.mp hd

end Sys2Proof.Machine

open Sys2Proof Sys2Proof.Machine Sys2Proof.Safety

/-- Settles O11: PMR by `exec_pmr_of_sound`, PMW by `exec_pmw_of_writable`, `stored_writeLine` and `Twig.stale_of_markStale`, a line fill by
`State.fillLine_eq`. -/
theorem programStore : Obligations.ProgramStore := by
  unfold Obligations.ProgramStore
  refine ⟨fun s t gu gd gs hgo hplain => ⟨pmr_faults_outside hgo hplain, pmr_faults_poison hgo hplain, fun hlt hbad => ?pmr⟩,
    fun s t gu gs gt hgo hplain => ⟨pmw_faults hgo hplain, fun hlt hro => ?pmw⟩, fun s t line hin => ?fill⟩
  case pmr =>
    obtain ⟨groves, hexec⟩ := exec_pmr_of_sound (gd := gd) hgo hplain hlt hbad
    refine ⟨_, hexec, ?_, ?_, onlyTwig_modTwig_groves s t _ groves⟩
    all_goals
      rw [State.twig_modTwig, State.twig_groves s t groves, Twig.latched_of_rep_none hplain.1]
      obtain ⟨pc, past, lc0, lc1, hfinish, hzero0, hzero1⟩ := Twig.finish_eq
        (w := Twig.setReg { s.twig t with repActive := false } gd (BitVec.ofNat 64 (s.mem.readProg (s.progAddr t ((s.twig t).reg gs).toNat))))
        hplain.1 2 false false
      rw [hfinish]
    · exact fun r => Twig.reg_setReg _ gd r _
    · exact ⟨rfl, fun _ => ⟨rfl, hplain.1⟩, hzero0, hzero1⟩
  case pmw =>
    obtain ⟨groves, icache, lineBuf, hexec⟩ := exec_pmw_of_writable hgo hplain hlt hro
    set x := (s.twig t).reg gs
    have hstored := stored_writeLine s.mem (s.progAddr_even t x.toNat) (Nat.mod_lt ((s.twig t).reg gt).toNat (by decide : 0 < 2 ^ 14))
    rw [State.modMem] at hexec
    generalize s.mem.writeLine _ _ = m at hexec hstored
    set s1 : State := { s with groves := groves, mem := m } with hs1
    have htwig1 : s1.twig t = s.twig t := by cases t <;> rfl
    set s' : State := s1.staleBetween t (fun w => w.latched.withCache icache lineBuf) (fun w => w.finish 2 false false) (s.progLine t x.toNat) with hs'
    have htwig : s'.twig t = _ := s1.twig_staleBetween t _ _ _
    have hmem : s'.mem = s1.mem := s1.mem_staleBetween t _ _ _
    obtain ⟨pc, past, lc0, lc1, hfinish, -, -⟩ := Twig.finish_eq (w := ((s.twig t).latched.withCache icache lineBuf).markStale (s.progLine t x.toNat))
      (by rw [Twig.latched_of_rep_none hplain.1]; exact hplain.1) 2 false false
    rw [htwig1, hfinish] at htwig
    have hown : ∀ c ∈ (s'.twig t).icache ++ (s'.twig t).lineBuf.toList, c.line = s.progLine t x.toNat → c.stale = true := by
      rw [htwig]
      exact Twig.stale_of_markStale _ _
    refine ⟨s', hexec, ?stored, ?regs, hown, ?grove, ?others, ?frame⟩
    case stored =>
      rw [hmem]
      exact hstored
    case regs =>
      rw [htwig, Twig.latched_of_rep_none hplain.1]
      rfl
    case grove =>
      rintro b b' rfl hgrove
      by_cases hb : b' = b
      · subst hb
        exact hown
      · rw [hs', s1.bough_staleBetween_ne _ _ _ hb, if_pos hgrove]
        exact Twig.stale_of_markStale _ _
    case others =>
      rintro b b' rfl hgrove
      rw [hs', s1.bough_staleBetween_ne _ _ _ fun hb => hgrove (by rw [hb]), if_neg hgrove]
      rfl
    case frame =>
      obtain ⟨boughs, cores, heq⟩ := s1.staleBetween_eq t (fun w => w.latched.withCache icache lineBuf) (fun w => w.finish 2 false false)
        (s.progLine t x.toNat)
      rw [hs', heq]
  case fill =>
    obtain ⟨groves, hfill⟩ := s.fillLine_eq t line
    have hexec := exec_programStoreFill_of_in hin
    rw [hfill] at hexec
    have htwig : ({ s with groves := groves }.modTwig t fun w => w.fill (s.lineCopy t line)).twig t = (s.twig t).fill (s.lineCopy t line) := by
      rw [State.twig_modTwig, State.twig_groves]
    refine ⟨_, hexec, ?_⟩
    beta_reduce
    rw [htwig]
    exact ⟨⟨_, rfl, rfl, rfl, rfl, s.words_lineCopy t line⟩, rfl, fun c hc => Twig.mem_icache_fill hc, rfl, onlyTwig_modTwig_groves s t _ groves⟩

end

section
/-! SUPPORT. Vector instructions at the twig (R25-R29, R71, R72, R79-R81, R120, R166): how a single instruction and the members of a block enter
the issue queue, what SETVL, VWAIT and FENCE do, and the settling of O15. -/

namespace Sys2Proof.Machine

open Sys2Proof.Safety

/-! ### The fields that an entry captures (R26, R124) -/

theorem vdec_fields {op : VOp} {src : Nat} {f : VFields} {d : VDec} (h : vdec op src f = some d) : d.op = op ∧ d.f = f := by
  unfold vdec at h
  split at h
  · exact absurd h.symm (Option.some_ne_none d)
  · split_ifs at h
    · obtain ⟨st, -, rfl⟩ := Option.map_eq_some_iff.mp h
      exact ⟨rfl, rfl⟩
    · obtain rfl := Option.some.inj h
      exact ⟨rfl, rfl⟩

theorem getLsbD_vcsrEn (w : Word) (k : Nat) : (vcsrEn w).getLsbD k = (decide (k < 5) && w.getLsbD (16 + k)) := by
  have htest : w.getLsbD (16 + k) = w.toNat.testBit (16 + k) := rfl
  rw [htest, vcsrEn, fieldAt, BitVec.getLsbD_ofNat, Nat.testBit_mod_two_pow, Nat.testBit_div_two_pow, ← Bool.and_assoc, Bool.and_self, Nat.add_comm]

/-! ### Decode -/

/-- Every three-word vector instruction enters by one operation (R25, R26). -/
theorem exec_of_vecOf {i : Instr} {t : TwigId} {gu k : PReg} {n : Nat} {op : VOp} {src : Nat} {f : VFields} (hrow : guardRow i = some (t, k, n))
    (hvec : vecOf i = some (op, src, f, gu)) (s : State) : exec i s = .next (runVec i t gu op src f s) := by
  unfold vecOf at hvec
  split at hvec
  all_goals cases hvec
  all_goals
    cases hrow
    rfl

theorem decodeAll_single {op : VOp} {src : Nat} {f : VFields} {d : VDec} (h : vdec op src f = some d) : decodeAll [(op, src, f)] = some [d] := by
  simp [decodeAll, h]

/-! ### One bough and its twig -/

theorem State.modTwig_bough (s : State) (b : BoughId) (f : Twig → Twig) :
    s.modTwig (.bough b) f = s.modBough b fun y => { y with twig := f y.twig } := rfl

/-- What decode checks look at of a state is its descriptors, its links and its image. -/
theorem State.vecIllegal_modTwig (s : State) (b : BoughId) (f : Twig → Twig) (d : VDec) :
    (s.modTwig (.bough b) f).vecIllegal b d = s.vecIllegal b d := by
  have hbough : (s.modTwig (.bough b) f).bough b = { s.bough b with twig := f (s.bough b).twig } := s.bough_modBough b _
  have hopnd : ∀ ty k sel, (s.modTwig (.bough b) f).opndBad b d.op ty k sel = s.opndBad b d.op ty k sel := by
    intro ty k sel
    unfold State.opndBad
    rw [hbough]
    rfl
  unfold State.vecIllegal
  simp only [hopnd, State.modTwig_grn]

/-- The bough of a twig that has decoded an instruction which no repetition precedes. -/
theorem State.bough_decoded {s : State} {b : BoughId} (hrep : (s.bough b).twig.rep = none) :
    (s.decoded (.bough b)).bough b = { s.bough b with twig := { (s.bough b).twig with repActive := false } } :=
  (s.bough_modBough b _).trans (by rw [← Twig.latched_of_rep_none hrep]; rfl)

theorem State.issued_decoded {s : State} {b : BoughId} (hrep : (s.bough b).twig.rep = none) :
    ((s.decoded (.bough b)).bough b).issued = (s.bough b).issued := by
  rw [State.bough_decoded hrep]
  rfl

/-! ### Entry into the issue queue (R27, R72, R79) -/

/-- Nothing keeps an instruction of bough b from its decode checks: no fault is held, no VL is pending, no queue is saved, and no issued
instruction writes a register that it names as a broadcast (R29, R109, R251). -/
structure EnterReady (s : State) (b : BoughId) (xs : List (VOp × Nat × VFields)) : Prop where
  noFault : (s.bough b).vfault = none
  noSaved : (s.bough b).saved = none
  vlKnown : (s.bough b).vlPending = false
  bcasts : ∀ g ∈ xs.flatMap bcastsOf, (s.bough b).writesG g = false

/-- The entries of n decoded instructions with head word `head`. -/
def Bough.entries (y : Bough) (ds : List VDec) (head : WordAddr) (blockLen : Nat) : List QEntry :=
  (List.range ds.length).filterMap fun j => (ds[j]?).map fun d => y.entry d head j blockLen

/-- A bough whose issue queue has taken entries; its twig owes the wait of VCSR.SYNC if that bit is set (R29). -/
def Bough.enters (y : Bough) (es : List QEntry) : Bough :=
  { y with iq := y.iq ++ es, twig := { y.twig with sync := vcsrSync y.twig.vcsr } }

/-- A bough whose queue has taken entries, and whose twig goes on with f. -/
theorem State.bough_enters_modTwig (s : State) (b : BoughId) (es : Bough → List QEntry) (f : Twig → Twig) :
    ((s.modBough b fun y => y.enters (es y)).modTwig (.bough b) f).bough b = { s.bough b with
      iq := (s.bough b).iq ++ es (s.bough b)
      twig := f { (s.bough b).twig with sync := vcsrSync (s.bough b).twig.vcsr } } := by
  rw [State.modTwig_bough, State.bough_modBough, State.bough_modBough]
  rfl

theorem onlyBough_enters_modTwig (s : State) (b : BoughId) (es : Bough → List QEntry) (f : Twig → Twig) :
    OnlyBough b s ((s.modBough b fun y => y.enters (es y)).modTwig (.bough b) f) :=
  onlyBough_trans (onlyBough_modBough s b _) (onlyBough_modBough _ b _)

theorem vecEnter_of_ready {s : State} {b : BoughId} {xs : List (VOp × Nat × VFields)} (hr : EnterReady s b xs) {ds : List VDec}
    (hdecode : decodeAll xs = some ds) (hlegal : ds.any (s.vecIllegal b) = false) (head : WordAddr) {block : Bool}
    (hblock : (block && (blockIllegal ds || decide (4 < blockGenerators ds))) = false) :
    vecEnter b head block false xs s =
      if blockLength (s.bough b).twig.vl ds then .fault .length 0
      else if 8 < (s.bough b).iq.length + ds.length then .stall .plain
      else .done (s.modBough b fun y => y.enters (y.entries ds head (if block then ds.length else 0))) false false := by
  obtain ⟨hfault, hsaved, hvl, hbcasts⟩ := hr
  have hreads : ((xs.flatMap bcastsOf).any (s.bough b).writesG) = false :=
    List.any_eq_false.mpr fun g hg => Bool.eq_false_iff.mp (hbcasts g hg)
  have hqueued : (s.bough b).queued = (s.bough b).iq.length := by simp [Bough.queued, Bough.savedEntries, hsaved]
  have hvlwait : ∀ k, s.waitFor (.bough b) Bough.vlPending k = k :=
    fun k => State.waitWhile_of_clear (by rintro _ ⟨⟩; exact ⟨hfault, hvl⟩) k
  have hregwait : ∀ k, s.waitReads (.bough b) (xs.flatMap bcastsOf) k = k :=
    fun k => State.waitWhile_of_clear (by rintro _ ⟨⟩; exact ⟨hfault, hreads⟩) k
  simp only [vecEnter, hfault, hvlwait, hregwait, hdecode, hsaved, hlegal, hblock, hqueued, Option.isSome_none, Bool.or_self, Bool.false_eq_true,
    if_false]
  rfl

/-! ### A single vector instruction -/

theorem Bough.entries_single (y : Bough) (d : VDec) (head : WordAddr) (n : Nat) : y.entries [d] head n = [y.entry d head 0 n] := by
  simp [Bough.entries, List.range_succ]

/-- A single vector instruction that stands ready at bough b: its words are there, nothing keeps it, and its checks pass (R27, R79). -/
structure SingleReady (s : State) (b : BoughId) (i : Instr) (gu : PReg) (x : VOp × Nat × VFields) (d : VDec) : Prop where
  row : guardRow i = some (.bough b, gu, 3)
  vec : vecOf i = some (x.1, x.2.1, x.2.2, gu)
  decodes : vdec x.1 x.2.1 x.2.2 = some d
  go : TwigGo s (.bough b) gu 3 []
  plain : Plain s (.bough b)
  noSaved : (s.bough b).saved = none
  vlKnown : (s.bough b).vlPending = false
  bcasts : ∀ g ∈ bcastsOf x, (s.bough b).writesG g = false
  legal : s.vecIllegal b d = false

section

variable {s : State} {b : BoughId} {i : Instr} {gu : PReg} {x : VOp × Nat × VFields} {d : VDec} (h : SingleReady s b i gu x d)

include h

/-- It faults, waits for room, or enters (R27, R72). -/
theorem SingleReady.exec_eq : exec i s = .next ((s.decoded (.bough b)).act (.bough b) i 3
    (if blockLength (s.bough b).twig.vl [d] then .fault .length 0
     else if 8 < (s.bough b).iq.length + 1 then .stall .plain
     else .done ((s.decoded (.bough b)).modBough b fun y => y.enters [y.entry d (s.bough b).twig.pc 0 0]) false false)) := by
  obtain ⟨hrow, hvec, hdecodes, hgo, hplain, hsaved, hvl, hbcasts, hlegal⟩ := h
  have hbough := State.bough_decoded hplain.1
  have hready : EnterReady (s.decoded (.bough b)) b [x] := by
    refine ⟨?_, ?_, ?_, fun g hg => ?_⟩
    all_goals rw [hbough]
    · exact (hgo.waits b rfl).1
    · exact hsaved
    · exact hvl
    · exact hbcasts g (by simpa using hg)
  have hpc : ((s.decoded (.bough b)).twig (.bough b)).pc = (s.bough b).twig.pc := by
    rw [State.twig, hbough]
  have henter := vecEnter_of_ready hready (decodeAll_single hdecodes) (by rw [State.decoded]; simpa [State.vecIllegal_modTwig] using hlegal)
    (s.bough b).twig.pc (block := false) rfl
  simp only [hbough, List.length_singleton, Bough.entries_single, Bool.false_eq_true, if_false] at henter
  rw [exec_of_vecOf hrow hvec, runVec, show (s.twig (.bough b)).block = none from hgo.noBlock]
  refine congrArg Host.Outcome.next ((runTwig_of_go hgo (by omega) rfl rfl rfl (.inl hplain.1) (.inl hplain.2) _ _).trans (congrArg _ ?_))
  dsimp only
  rw [hpc, henter]

theorem SingleReady.exec_of_room (hlength : blockLength (s.bough b).twig.vl [d] = false) (hroom : (s.bough b).iq.length < 8) :
    exec i s = .next (((s.decoded (.bough b)).modBough b fun y => y.enters [y.entry d (s.bough b).twig.pc 0 0]).modTwig (.bough b)
      fun w => w.finish 3 false false) := by
  rw [h.exec_eq, hlength, if_neg Bool.false_ne_true, if_neg (by omega)]
  rfl

theorem SingleReady.exec_of_full (hlength : blockLength (s.bough b).twig.vl [d] = false) (hfull : 8 ≤ (s.bough b).iq.length) :
    exec i s = .next ((s.decoded (.bough b)).waitAt (.bough b) i .plain) := by
  rw [h.exec_eq, hlength, if_neg Bool.false_ne_true, if_pos (by omega)]
  rfl

theorem SingleReady.faults_of_length (hlength : blockLength (s.bough b).twig.vl [d] = true) (hheld : s.tsbHeld (.bough b) = false) :
    FaultsAt i s (.bough b) .length 0 := by
  have hexec := h.exec_eq
  rw [hlength, if_pos rfl, State.act, State.faultAt_of_not_held (by rw [State.tsbHeld_decoded, hheld])] at hexec
  exact faultsAt_of_decoded h.plain.1 (s.decoded (.bough b)).groves hexec

end

/-- What moving past an instruction without a repetition leaves of a twig. -/
theorem moved_latched_finish {w : Twig} (hrep : w.rep = none) (n : Nat) : Moved w (w.latched.finish n false false) := by
  obtain ⟨pc, past, lc0, lc1, hfinish, hzero0, hzero1⟩ := Twig.finish_eq (w := { w with repActive := false }) hrep n false false
  rw [Twig.latched_of_rep_none hrep, hfinish]
  exact ⟨rfl, fun _ => ⟨rfl, hrep⟩, hzero0, hzero1⟩

/-! ### Waits -/

/-- An instruction that waits at its boundary changes its own twig alone. -/
theorem waitAt_decoded {s : State} {t : TwigId} (hrep : (s.twig t).rep = none) (i : Instr) (k : WaitKind) :
    ((s.decoded t).waitAt t i k).twig t = { s.twig t with waiting := some i, wait := k, repActive := false } ∧
      OnlyTwig t s ((s.decoded t).waitAt t i k) := by
  have hwait : (s.decoded t).waitAt t i k = s.modTwig t fun w => { w.latched with waiting := some i, wait := k } := s.modTwig_modTwig t _ _
  rw [hwait]
  refine ⟨?_, onlyTwig_modTwig s t _⟩
  rw [State.twig_modTwig, Twig.latched_of_rep_none hrep]

/-! ### CHAIN blocks (R80, R81) -/

theorem exec_chain_of_go {s : State} {b : BoughId} {gu : PReg} {n : BitVec 4} (hlo : 2 ≤ n.toNat) (hhi : n.toNat ≤ 4)
    (hgo : TwigGo s (.bough b) gu 1 []) (hplain : Plain s (.bough b)) (hsaved : (s.bough b).saved = none)
    (hvl : (s.bough b).vlPending = false) :
    exec (.chain (.bough b) gu n) s = .next ((s.decoded (.bough b)).modTwig (.bough b) fun w =>
      { w with block := some { n := n.toNat, members := [], reads := [], bad := false } }) := by
  have hbough := State.bough_decoded hplain.1
  refine congrArg Host.Outcome.next ((runTwig_of_go hgo (by omega) rfl rfl rfl (.inl hplain.1) (.inl hplain.2) _ _).trans ?_)
  have hnowait : ∀ k, (s.decoded (.bough b)).waitFor (.bough b) Bough.vlPending k = k := by
    refine fun k => State.waitWhile_of_clear ?_ k
    rintro _ ⟨⟩
    rw [hbough]
    exact ⟨(hgo.waits b rfl).1, hvl⟩
  have hcount : (decide (n.toNat < 2) || decide (4 < n.toNat)) = false := by
    rw [decide_eq_false (by omega), decide_eq_false (by omega), Bool.or_self]
  simp only [hnowait, hcount, hbough, hsaved, Option.isSome_none, Bool.and_false, Bool.or_self, Bool.false_eq_true, if_false]
  rfl

section

variable {s : State} {b : BoughId} {i : Instr} {k : PReg} {op : VOp} {src : Nat} {f : VFields} {blk : BlockSt}
  (hrow : guardRow i = some (.bough b, k, 3)) (hvec : vecOf i = some (op, src, f, k)) (hready : s.twigReady (.bough b) = true)
  (hblock : (s.bough b).twig.block = some blk) (hwords : WordsReady s (.bough b) 3)

/-- The block with one more member (R80, R91). -/
def BlockSt.member (blk : BlockSt) (i : Instr) (x : VOp × Nat × VFields) (k : PReg) : BlockSt :=
  { n := blk.n, members := blk.members ++ [i], reads := blk.reads ++ bcastsOf x, bad := blk.bad || k != 0 }

include hrow hvec hready hblock hwords

/-- A member is collected, or completes its block (R80). -/
theorem exec_member : exec i s = .next
    (if blk.members.length + 1 < blk.n then s.modTwig (.bough b) fun w => { w with block := some (blk.member i (op, src, f) k) }
     else blockEnter i (.bough b) b (blk.member i (op, src, f) k) s) := by
  have hmembers : (blk.members ++ [i]).length = blk.members.length + 1 := List.length_append
  rw [exec_of_vecOf hrow hvec, runVec, show (s.twig (.bough b)).block = some blk from hblock]
  simp only [vecMember, hready, Bool.not_true, Bool.false_eq_true, if_false, State.fetchWords_of_ready hwords, hwords.2, hmembers]
  rfl

end

/-- The last member of a sound block: all members enter as one unit, and the twig is past the block (R81). -/
theorem blockEnter_of_ready {s : State} {b : BoughId} {blk : BlockSt} (hbad : blk.bad = false) {ds : List VDec}
    (hdecode : decodeAll (blk.members.filterMap fun j => (vecOf j).map fun x => (x.1, x.2.1, x.2.2.1)) = some ds)
    (hfault : (s.bough b).vfault = none) (hsaved : (s.bough b).saved = none) (hissued : (s.bough b).issued = [])
    (hlegal : ds.any (s.vecIllegal b) = false) (hwhole : blockIllegal ds = false) (hgens : blockGenerators ds ≤ 4)
    (hlength : blockLength (s.bough b).twig.vl ds = false) (hroom : ds.length ≤ 8) (i : Instr) :
    blockEnter i (.bough b) b blk s = (s.modBough b fun y => y.enters (y.entries ds (s.bough b).twig.pc ds.length)).modTwig (.bough b)
      fun w => { w with block := none }.finish (1 + 3 * blk.n) false false := by
  have hready : EnterReady s b (blk.members.filterMap fun j => (vecOf j).map fun x => (x.1, x.2.1, x.2.2.1)) :=
    ⟨hfault, hsaved, by simp [Bough.vlPending, hissued], fun g _ => by simp [Bough.writesG, hissued]⟩
  have hiq : (s.bough b).iq = [] := (List.append_eq_nil_iff.mp hissued).2
  have henter := vecEnter_of_ready hready hdecode hlegal (s.bough b).twig.pc (block := true) (by simp [hwhole, hgens])
  rw [hlength, if_neg Bool.false_ne_true, if_neg (by simp [hiq, hroom]), if_pos rfl] at henter
  unfold blockEnter
  dsimp only
  rw [hbad, show (s.twig (.bough b)).pc = (s.bough b).twig.pc from rfl, henter]

theorem resumeInstr_of_vecOf {i : Instr} (h : (vecOf i).isSome = true) (t : TwigId) (s : State) : ∃ s', resumeInstr t i s = .next s' := by
  obtain ⟨⟨op, src, f, gu⟩, hvec⟩ := Option.isSome_iff_exists.mp h
  refine ⟨runVec i t gu op src f s, ?_⟩
  unfold resumeInstr
  rw [hvec]

/-- Where the wait of an instruction is over, the instruction goes on (R27, R81). -/
theorem State.release_of_waitsAt {s : State} {t : TwigId} {i : Instr} (h : WaitsAt s t i) {p : Instr → Bool} (hp : p i = true) :
    s.release t p = resumeInstr t i (s.modTwig t Twig.unwait) := by
  obtain ⟨hwaiting, hover, hcode, hrun, htrap⟩ := h
  simp [State.release, hwaiting, hp, hover, hcode, hrun, htrap]

/-! ### SETVL, VWAIT and FENCE (R71, R120, R166) -/

/-- A twig to which SETVL has given a vector length (R71). -/
def Twig.setVl (w : Twig) (gd : GReg) (vl : Nat) : Twig := { w.setReg gd (BitVec.ofNat 64 vl) with vl := vl }

theorem exec_setvl_of_go {s : State} {b : BoughId} {gu : PReg} {gd gs : GReg} {ty : BitVec 4} {ety : ETy}
    (hgo : TwigGo s (.bough b) gu 2 [gs]) (hplain : Plain s (.bough b)) (hvl : (s.bough b).vlPending = false)
    (hty : ETy.ofCode ty.toNat = some ety) :
    exec (.setvl (.bough b) gu 0 gd gs ty) s = .next (s.modTwig (.bough b) fun w =>
      (w.latched.setVl gd (min ((s.bough b).twig.reg gs).toNat ety.vlmax)).finish 2 false false) := by
  have hbough := State.bough_decoded hplain.1
  have hnowait : ∀ k, (s.decoded (.bough b)).waitFor (.bough b) (fun y => y.vlPending) k = k := by
    refine fun k => State.waitWhile_of_clear ?_ k
    rintro _ ⟨⟩
    rw [hbough]
    exact ⟨(hgo.waits b rfl).1, hvl⟩
  refine congrArg Host.Outcome.next ((runTwig_of_go hgo (by omega) rfl rfl rfl (.inl hplain.1) (.inl hplain.2) _ _).trans ?_)
  simp only [hnowait, if_true, hty, State.reg_decoded, State.act]
  rw [State.decoded, State.modTwig_modTwig, State.modTwig_modTwig]
  rfl

/-- The wait of VWAIT and FENCE for the vector instructions that are issued. -/
theorem waitFor_issued_of_nil {s : State} {b : BoughId} (hrep : (s.bough b).twig.rep = none) (hfault : (s.bough b).vfault = none)
    (hissued : (s.bough b).issued = []) (k : Act) :
    (s.decoded (.bough b)).waitFor (.bough b) (fun y => !y.issued.isEmpty) k = k := by
  refine State.waitWhile_of_clear ?_ k
  rintro _ ⟨⟩
  rw [State.issued_decoded hrep, State.bough_decoded hrep, hissued]
  exact ⟨hfault, rfl⟩

theorem waitFor_issued_of_ne_nil {s : State} {b : BoughId} (hrep : (s.bough b).twig.rep = none) (hissued : (s.bough b).issued ≠ []) (k : Act) :
    (s.decoded (.bough b)).waitFor (.bough b) (fun y => !y.issued.isEmpty) k = .stall .plain := by
  have hsome : ((s.decoded (.bough b)).bough b).issued.isEmpty = false := by
    rw [State.issued_decoded hrep]
    simpa using hissued
  simp [State.waitFor, State.waitWhile, hsome]

section

variable {s : State} {b : BoughId} {gu : PReg} (hgo : TwigGo s (.bough b) gu 1 []) (hplain : Plain s (.bough b))

include hgo hplain

theorem exec_vwait_of_go : exec (.vwait (.bough b) gu) s = .next ((s.decoded (.bough b)).act (.bough b) (.vwait (.bough b) gu) 1
    ((s.decoded (.bough b)).waitFor (.bough b) (fun y => !y.issued.isEmpty) (.done (s.decoded (.bough b)) false false))) :=
  congrArg Host.Outcome.next (runTwig_of_go hgo (by omega) rfl rfl rfl (.inl hplain.1) (.inl hplain.2) _ _)

theorem exec_fence_of_go : exec (.fence (.bough b) gu) s = .next ((s.decoded (.bough b)).act (.bough b) (.fence (.bough b) gu) 1
    ((s.decoded (.bough b)).waitFor (.bough b) (fun y => !y.issued.isEmpty)
      (if (s.bough b).twig.stores.isEmpty then .done (s.decoded (.bough b)) false false else .stall .plain))) := by
  have hstores : ((s.decoded (.bough b)).twig (.bough b)).stores = (s.bough b).twig.stores := by
    rw [State.twig, State.bough_decoded hplain.1]
  rw [← hstores]
  exact congrArg Host.Outcome.next (runTwig_of_go hgo (by omega) rfl rfl rfl (.inl hplain.1) (.inl hplain.2) _ _)

/-- Both complete once no vector instruction is issued and the store buffer is empty. -/
theorem exec_barrier_of_done {i : Instr} (hi : i = .vwait (.bough b) gu ∨ i = .fence (.bough b) gu) (hissued : (s.bough b).issued = [])
    (hstores : (s.bough b).twig.stores = []) : exec i s = .next (s.modTwig (.bough b) fun w => w.latched.finish 1 false false) := by
  have hclear := waitFor_issued_of_nil hplain.1 (hgo.waits b rfl).1 hissued
  rcases hi with rfl | rfl
  · rw [exec_vwait_of_go hgo hplain, hclear]
    exact congrArg Host.Outcome.next (s.modTwig_modTwig (.bough b) Twig.latched fun w => w.finish 1 false false)
  · rw [exec_fence_of_go hgo hplain, hclear, hstores]
    exact congrArg Host.Outcome.next (s.modTwig_modTwig (.bough b) Twig.latched fun w => w.finish 1 false false)

theorem exec_barrier_of_issued {i : Instr} (hi : i = .vwait (.bough b) gu ∨ i = .fence (.bough b) gu) (hissued : (s.bough b).issued ≠ []) :
    exec i s = .next ((s.decoded (.bough b)).waitAt (.bough b) i .plain) := by
  have hwait := waitFor_issued_of_ne_nil hplain.1 hissued
  rcases hi with rfl | rfl
  · rw [exec_vwait_of_go hgo hplain, hwait]
    rfl
  · rw [exec_fence_of_go hgo hplain, hwait]
    rfl

theorem exec_fence_of_stores (hissued : (s.bough b).issued = []) (hstores : (s.bough b).twig.stores ≠ []) :
    exec (.fence (.bough b) gu) s = .next ((s.decoded (.bough b)).waitAt (.bough b) (.fence (.bough b) gu) .plain) := by
  have hsome : (s.bough b).twig.stores.isEmpty = false := by simpa using hstores
  rw [exec_fence_of_go hgo hplain, waitFor_issued_of_nil hplain.1 (hgo.waits b rfl).1 hissued, hsome]
  rfl

end

end Sys2Proof.Machine

open Sys2Proof Sys2Proof.Machine Sys2Proof.Safety

/-- Settles O15: a single instruction by `SingleReady.exec_eq`, a block by `exec_member` and `blockEnter_of_ready`, the waits by
`waitAt_decoded`. -/
theorem vectorIssue : Obligations.VectorIssue := by
  unfold Obligations.VectorIssue
  refine ⟨fun i s b gu op src f d hrow hvec hdecodes hgo hplain hsaved hvl hbcasts hlegal => ?single,
    ⟨fun s b gu n hlo hhi hgo hplain hsaved hvl => ?chain, fun i s b k op src f blk hrow hvec hready hblock hwords hmore => ?member,
      fun i s b op src f blk ds hrow hvec hready hblock hbad hrep hwords hlast hdecode hfault hsaved hissued hlegal hwhole hgens hlength hroom => ?last,
      fun s t i hwaits hvec => ?release⟩,
    ⟨fun s b gu gd gs ty ety hgo hplain hvl hty => ?setvl, fun s b gu i hi hgo hplain => ⟨fun hissued hstores => ?done, fun hissued => ?issued⟩,
      fun s b gu hgo hplain hissued hstores => ?stores⟩⟩
  case single =>
    have h : SingleReady s b i gu (op, src, f) d := ⟨hrow, hvec, hdecodes, hgo, hplain, hsaved, hvl, hbcasts, hlegal⟩
    refine ⟨fun hlength hroom => ?enters, fun hlength hfull => ?waits, h.faults_of_length⟩
    case waits => exact ⟨_, h.exec_of_full hlength hfull, waitAt_decoded hplain.1 i .plain⟩
    case enters =>
      refine ⟨_, h.exec_of_room hlength hroom, ?_⟩
      obtain ⟨hop, hf⟩ := vdec_fields hdecodes
      obtain ⟨pc, past, lc0, lc1, hfinish, hzero0, hzero1⟩ :=
        Twig.finish_eq (w := { (s.bough b).twig with repActive := false, sync := vcsrSync (s.bough b).twig.vcsr }) hplain.1 3 false false
      rw [State.bough_enters_modTwig, State.bough_decoded hplain.1, hfinish]
      refine ⟨⟨(s.bough b).entry d (s.bough b).twig.pc 0 0, rfl, hop, rfl, rfl, rfl, rfl, rfl, rfl, rfl, getLsbD_vcsrEn _, ?_, ?_⟩, rfl,
        ⟨rfl, fun _ => ⟨rfl, hplain.1⟩, hzero0, hzero1⟩, rfl, ?_⟩
      · rw [← hf]
        exact Nat.mod_eq_of_lt d.f.mask.isLt
      · rw [← hf]
        rfl
      · exact onlyBough_trans (t := s.decoded (.bough b)) (onlyBough_modBough s b _) (onlyBough_enters_modTwig _ b _ _)
  case chain =>
    refine ⟨_, exec_chain_of_go hlo hhi hgo hplain hsaved hvl, ?_, ?_⟩
    all_goals rw [State.decoded, State.modTwig_modTwig]
    · refine (s.twig_modTwig (.bough b) _).trans ?_
      rw [Function.comp, Twig.latched_of_rep_none hplain.1]
      rfl
    · exact onlyTwig_modTwig s _ _
  case member =>
    have hexec := exec_member hrow hvec hready hblock hwords
    rw [if_pos hmore] at hexec
    exact ⟨_, hexec, s.twig_modTwig (.bough b) _, onlyTwig_modTwig s _ _⟩
  case last =>
    have hexec := exec_member hrow hvec hready hblock hwords
    rw [if_neg (by omega), blockEnter_of_ready (by simp [BlockSt.member, hbad]) hdecode hfault hsaved hissued hlegal hwhole hgens hlength hroom] at hexec
    obtain ⟨pc, past, lc0, lc1, hfinish, -, -⟩ :=
      Twig.finish_eq (w := { (s.bough b).twig with block := none, sync := vcsrSync (s.bough b).twig.vcsr }) hrep (1 + 3 * blk.n) false false
    have hiq : (s.bough b).iq = [] := (List.append_eq_nil_iff.mp hissued).2
    refine ⟨_, hexec, ?_⟩
    simp only [BlockSt.member, State.bough_enters_modTwig, hfinish, hiq, List.nil_append]
    exact ⟨rfl, trivial, rfl, onlyBough_enters_modTwig s b _ _⟩
  case release =>
    obtain ⟨s', hresumed⟩ := resumeInstr_of_vecOf hvec t (s.modTwig t Twig.unwait)
    exact ⟨s', hresumed, (State.release_of_waitsAt hwaits hvec).trans hresumed⟩
  case setvl =>
    refine ⟨_, exec_setvl_of_go hgo hplain hvl hty, ?_⟩
    dsimp only
    generalize hmin : min ((s.bough b).twig.reg gs).toNat (32768 / ety.size) = vl
    obtain ⟨pc, past, lc0, lc1, hfinish, hzero0, hzero1⟩ :=
      Twig.finish_eq (w := { (s.bough b).twig with repActive := false }.setVl gd vl) hplain.1 2 false false
    have htwig : ((s.modTwig (.bough b) fun w => (w.latched.setVl gd (min ((s.bough b).twig.reg gs).toNat ety.vlmax)).finish 2 false false).bough
        b).twig = ({ (s.bough b).twig with repActive := false }.setVl gd vl).finish 2 false false := by
      refine (s.twig_modTwig (.bough b) _).trans ?_
      rw [Twig.latched_of_rep_none hplain.1, ETy.vlmax, hmin]
      rfl
    rw [htwig, hfinish]
    exact ⟨rfl, fun r => Twig.reg_setReg _ gd r _, ⟨rfl, fun _ => ⟨rfl, hplain.1⟩, hzero0, hzero1⟩, onlyTwig_modTwig s _ _⟩
  case done =>
    refine ⟨_, exec_barrier_of_done hgo hplain hi hissued hstores, ?_, onlyTwig_modTwig s _ _⟩
    rw [show (s.modTwig (.bough b) fun w => w.latched.finish 1 false false).bough b =
      { s.bough b with twig := (s.bough b).twig.latched.finish 1 false false } from s.bough_modBough b _]
    exact moved_latched_finish hplain.1 1
  case issued => exact ⟨_, exec_barrier_of_issued hgo hplain hi hissued, waitAt_decoded hplain.1 i .plain⟩
  case stores => exact ⟨_, exec_fence_of_stores hgo hplain hissued hstores, waitAt_decoded hplain.1 _ .plain⟩

end

section
/-! SUPPORT. A twig's own storage (R229, R273, R319, R334, R335, R421): what a write of memory leaves to read, what a sound chunk is, what a read
and a store of the own scratchpad leave on record. -/

namespace Sys2Proof.Machine

open Sys2Proof.Safety

/-! ### The last write of a byte -/

/-- The byte at x, which reads v, once the bytes bs are written in order. -/
def overlay (bs : List (Nat × Byte)) (x : Nat) (v : Byte) : Byte := bs.foldl (fun v c => if x = c.1 then c.2 else v) v

theorem overlay_cons (c : Nat × Byte) (bs : List (Nat × Byte)) (x : Nat) (v : Byte) :
    overlay (c :: bs) x v = overlay bs x (if x = c.1 then c.2 else v) := rfl

theorem overlay_of_not_written {bs : List (Nat × Byte)} {x : Nat} (h : ∀ c ∈ bs, c.1 ≠ x) (v : Byte) : overlay bs x v = v := by
  induction bs with
  | nil => rfl
  | cons c bs ih =>
    rw [overlay_cons, if_neg (h c List.mem_cons_self).symm]
    exact ih fun d hd => h d (List.mem_cons_of_mem c hd)

/-- Of the bytes written to one word, those of another word do not count. -/
theorem overlay_word (bs : List (Nat × Byte)) (x : Nat) (v : Byte) :
    overlay (bs.filter fun c => decide (c.1 / 8 = x / 8)) x v = overlay bs x v := by
  induction bs generalizing v with
  | nil => rfl
  | cons c bs ih =>
    by_cases hword : c.1 / 8 = x / 8
    · rw [List.filter_cons_of_pos (by simpa using hword), overlay_cons, overlay_cons, ih]
    · have hne : x ≠ c.1 := fun hx => hword (by rw [hx])
      rw [List.filter_cons_of_neg (by simpa using hword), overlay_cons, if_neg hne, ih]

theorem overlay_atAddr (a : Nat) (bs : List Byte) (x : Nat) (v : Byte) :
    overlay (atAddr a bs) x v = if a ≤ x ∧ x < a + bs.length then bs.getD (x - a) 0 else v := by
  induction bs generalizing a v with
  | nil => simp [atAddr, overlay]
  | cons b bs ih =>
    rw [atAddr, overlay_cons, ih, List.length_cons]
    by_cases hx : x = a
    · simp [hx]
    · by_cases hin : a + 1 ≤ x ∧ x < a + 1 + bs.length
      · obtain ⟨k, rfl⟩ := Nat.exists_eq_add_of_le hin.1
        rw [if_pos hin, if_pos (by omega), show a + 1 + k - (a + 1) = k by omega, show a + 1 + k - a = k + 1 by omega, List.getD_cons_succ]
      · rw [if_neg hin, if_neg hx, if_neg (by omega)]

theorem map_fst_atAddr (a : Nat) (bs : List Byte) : (atAddr a bs).map Prod.fst = List.range' a bs.length := by
  induction bs generalizing a with
  | nil => rfl
  | cons b bs ih => rw [atAddr, List.map_cons, ih, List.length_cons, List.range'_succ]

theorem exists_mem_atAddr_iff (a : Nat) (bs : List Byte) (x : Nat) : (∃ c ∈ atAddr a bs, c.1 = x) ↔ a ≤ x ∧ x < a + bs.length := by
  rw [← List.mem_range'_1, ← map_fst_atAddr, List.mem_map]

theorem length_wordsBytes (ws : List Word) : (wordsBytes ws).length = 8 * ws.length := by
  induction ws with
  | nil => rfl
  | cons w ws ih =>
    rw [wordsBytes, List.flatMap_cons, List.length_append, ← wordsBytes, ih, List.length_cons, wordBytes, List.length_map, List.length_range]
    omega

/-! ### Memory after a write -/

theorem Memory.read_putAll_eq (m : Memory) (bs : List (Nat × Byte)) (x : Nat) : (m.putAll bs).read x = overlay bs x (m.read x) := by
  induction bs generalizing m with
  | nil => rfl
  | cons c bs ih =>
    rw [overlay_cons, ← m.read_put_eq c.1 x c.2]
    exact ih (m.put c.1 c.2)

theorem Memory.read_writeWord (m : Memory) (w : Nat) (bs : List (Nat × Byte)) (x : Nat) :
    (m.writeWord w bs).read x = overlay bs x (m.read x) := by
  unfold Memory.writeWord
  split_ifs
  all_goals simp only [Memory.read_setMark, Memory.read_putAll_eq, Memory.read_materialise_eq]

theorem Memory.dead_put (m : Memory) (a : Nat) (b : Byte) : (m.put a b).dead = m.dead := by
  unfold Memory.put
  split_ifs <;> rfl

theorem Memory.dead_putAll (m : Memory) (bs : List (Nat × Byte)) : (m.putAll bs).dead = m.dead := by
  induction bs generalizing m with
  | nil => rfl
  | cons c bs ih => exact (ih (m.put c.1 c.2)).trans (m.dead_put c.1 c.2)

theorem Memory.dead_setMark (m : Memory) (w : Nat) (k : Option Mark) : (m.setMark w k).dead = m.dead := by
  cases k <;> rfl

theorem Memory.dead_writeWord (m : Memory) (w : Nat) (bs : List (Nat × Byte)) : (m.writeWord w bs).dead = m.dead := by
  have hmaterialise : (m.materialise w).dead = m.dead := by
    unfold Memory.materialise
    split_ifs
    · rfl
    · exact m.dead_putAll _
  unfold Memory.writeWord
  split_ifs
  all_goals simp only [Memory.dead_setMark, Memory.dead_putAll, hmaterialise]

theorem mem_wordsOf_iff (bs : List (Nat × Byte)) (w : Nat) : w ∈ wordsOf bs ↔ ∃ c ∈ bs, c.1 / 8 = w := by
  induction bs with
  | nil => simp [wordsOf]
  | cons c bs ih =>
    simp only [List.mem_cons, exists_eq_or_imp, ← ih, wordsOf]
    split_ifs with hmem
    · rw [List.contains_iff_mem] at hmem
      exact ⟨.inr, fun h => h.elim (fun hw => hw ▸ hmem) id⟩
    · rw [List.mem_cons, eq_comm]

theorem wordsOf_nodup (bs : List (Nat × Byte)) : (wordsOf bs).Nodup := by
  induction bs with
  | nil => exact List.nodup_nil
  | cons c bs ih =>
    rw [wordsOf]
    split_ifs with hmem
    · exact ih
    · exact List.nodup_cons.mpr ⟨by simpa using hmem, ih⟩

/-- A write to rows that are not dead leaves every byte as its last write did (R326). -/
theorem Memory.read_write_of_alive (m : Memory) (bs : List (Nat × Byte)) (h : ∀ c ∈ bs, c.1 / 64 ∉ m.dead) (x : Nat) :
    (m.write bs).read x = overlay bs x (m.read x) := by
  have hfold : ∀ (ws : List Nat) (k : Memory), ws.Nodup → (∀ w ∈ ws, w / 8 ∉ k.dead) →
      (ws.foldl (fun m w => if m.dead.contains (w / 8) then m else m.writeWord w (bs.filter fun c => c.1 / 8 = w)) k).read x =
        if x / 8 ∈ ws then overlay bs x (k.read x) else k.read x := by
    intro ws
    induction ws with
    | nil => simp
    | cons w ws ih =>
      intro k hnodup halive
      obtain ⟨hnew, hnodup⟩ := List.nodup_cons.mp hnodup
      have hhead : k.dead.contains (w / 8) = false := by simpa using halive w List.mem_cons_self
      rw [List.foldl_cons, hhead, if_neg Bool.false_ne_true, ih _ hnodup fun v hv => by
        rw [Memory.dead_writeWord]; exact halive v (List.mem_cons_of_mem w hv), Memory.read_writeWord]
      by_cases hx : x / 8 = w
      · subst hx
        rw [if_neg hnew, if_pos List.mem_cons_self, overlay_word]
      · rw [overlay_of_not_written (bs := bs.filter _) fun c hc hcx => hx (by simpa [hcx] using (List.mem_filter.mp hc).2)]
        simp only [List.mem_cons, hx, false_or]
  rw [Memory.write, hfold _ m (wordsOf_nodup bs)]
  · split_ifs with hx
    · rfl
    · exact (overlay_of_not_written (fun c hc hcx => hx ((mem_wordsOf_iff bs _).mpr ⟨c, hc, by rw [hcx]⟩)) _).symm
  · intro w hw
    obtain ⟨c, hc, rfl⟩ := (mem_wordsOf_iff bs w).mp hw
    rw [Nat.div_div_eq_div_mul]
    exact h c hc

/-- Bytes written where no row is dead read back, and every other byte reads as before. -/
theorem stored_write {m : Memory} {a : Nat} {bs : List Byte} (h : Alive m a bs.length) : Stored m (m.write (atAddr a bs)) a bs := by
  intro x
  rw [m.read_write_of_alive, overlay_atAddr]
  intro c hc
  obtain ⟨hlo, hhi⟩ := (exists_mem_atAddr_iff a bs c.1).mp ⟨c, hc, rfl⟩
  have halive := h (c.1 - a) (by omega)
  rwa [Nat.add_sub_cancel' hlo] at halive

/-- A write of whole words has nothing to merge (R273, R319). -/
theorem mergeWords_of_whole {a : Nat} {bs : List Byte} (ha : a % 8 = 0) (hlen : bs.length % 8 = 0) : mergeWords (atAddr a bs) = [] := by
  refine List.filter_eq_nil_iff.mpr fun w hw => ?_
  obtain ⟨c, hc, rfl⟩ := (mem_wordsOf_iff _ w).mp hw
  obtain ⟨hlo, hhi⟩ := (exists_mem_atAddr_iff a bs c.1).mp ⟨c, hc, rfl⟩
  have hwhole : ∀ i < 8, ∃ d ∈ atAddr a bs, d.1 = 8 * (c.1 / 8) + i := fun i hi => (exists_mem_atAddr_iff a bs _).mpr (by omega)
  have hall : ((List.range 8).all fun i => (atAddr a bs).any fun d => decide (d.1 = 8 * (c.1 / 8) + i)) = true :=
    List.all_eq_true.mpr fun i hi => by simpa only [List.any_eq_true, decide_eq_true_eq] using hwhole i (List.mem_range.mp hi)
  rw [hall]
  exact Bool.false_ne_true

/-- A chunk of sound bytes holds no poison (R274). -/
theorem Memory.badAt_chunk_of_sound {m : Memory} {a n : Nat} (h : ∀ x, a ≤ x → x < a + n → m.badByte x = false) :
    (m.chunk a n).badAt = none := by
  refine List.findSome?_eq_none_iff.mpr fun i hi => ?_
  have hi : i < n := by simpa [Memory.chunk, Memory.readN] using hi
  have hspan : (wordSpan a n)[(a + i) / 8 - a / 8]? = some ((a + i) / 8) := by
    rw [wordSpan, if_neg (by omega), List.getElem?_map, List.getElem?_range (by omega), Option.map_some]
    exact congrArg some (by omega)
  have hsound : m.badWord ((a + i) / 8) = false := h (a + i) (by omega) (by omega)
  simp [Memory.chunk, Memory.poisonOf, hspan, hsound]

/-! ### Addresses of the own scratchpad (R316, R537) -/

/-- The bytes [a, a + n) lie in the scratchpad of bough b. -/
def InScratch (b : BoughId) (a n : Nat) : Prop := scratchAddr b ≤ a ∧ a + n ≤ scratchAddr b + 0x80000

theorem placeOf_of_inScratch {b : BoughId} {a n : Nat} (h : InScratch b a n) (hn : 0 < n) : placeOf a = .scratch b.val (a - scratchAddr b) := by
  obtain ⟨hlo, hhi⟩ := h
  have hb := b.isLt
  simp only [scratchAddr, scratchBase] at hlo hhi
  have hroot : ¬ a < rootSize := by
    simp only [rootSize]
    omega
  have hwindow : scratchBase ≤ a ∧ a < scratchBase + 0x10000000 := by
    simp only [scratchBase]
    omega
  have hbough : (a - scratchBase) / 0x100000 = b.val := by
    simp only [scratchBase]
    omega
  have hoffset : (a - scratchBase) % 0x100000 = a - scratchAddr b := by
    simp only [scratchAddr, scratchBase]
    omega
  rw [placeOf, if_neg hroot, if_pos hwindow, hbough, hoffset, if_pos]
  simp only [scratchAddr, scratchBase]
  omega

@[simp] theorem boughId_val (b : BoughId) : boughId b.val = b := dif_pos b.isLt

theorem State.filterTarget_of_inScratch (s : State) {b : BoughId} {a n : Nat} (h : InScratch b a n) (hn : 0 < n) :
    s.filterTarget a = some (.scratch b) := by
  rw [State.filterTarget, placeOf_of_inScratch h hn]
  exact congrArg (fun c => some (Target.scratch c)) (boughId_val b)

/-! ### What a read of the own scratchpad leaves on record (R334, R335, R421) -/

theorem State.ringAdd_eq (s : State) (i k : Nat) : ∃ ring, s.ringAdd i k = { s with ring := ring } := by
  unfold State.ringAdd
  split
  · exact ⟨_, rfl⟩
  · exact ⟨s.ring, rfl⟩

theorem State.spend_eq (s : State) (p : Option Nat) (units : Nat) : ∃ plots, s.spend p units = { s with plots := plots } := by
  cases p with
  | none => exact ⟨s.plots, rfl⟩
  | some p => exact ⟨_, rfl⟩

theorem State.meterScratch_eq (s : State) (b d : BoughId) (k : Nat) : ∃ plots, s.meterScratch b d k = { s with plots := plots } := by
  unfold State.meterScratch
  dsimp only
  obtain ⟨plots, hmeter⟩ := s.meter_eq ((s.boughPlot b.val).map (·.plot)) fun c => { c with scr := c.scr + 64 * k }
  by_cases hown : ((s.boughPlot b.val).map (·.plot) == (s.boughPlot d.val).map (·.plot)) = true
  · rw [if_pos hown, hmeter]
    exact State.spend_eq _ _ _
  · rw [if_neg hown]
    exact State.spend_eq _ _ _

/-- An event of a scratchpad word reaches the scratchpad's error record, the ring that counts it, a notice and a free value. -/
theorem State.eccScratch_eq (s : State) (b : BoughId) (w : Nat) (k : Mark) (sweep : Bool) :
    ∃ scr ring evts fresh, s.eccScratch b w k sweep = { s with scr := scr, ring := ring, crownEvts := evts, fresh := fresh } := by
  unfold State.eccScratch
  extract_lets d syn t x ue log y
  obtain ⟨ring, hring⟩ := (t.modScr b fun _ => y).ringAdd_eq 21 (b2n (k == .fresh))
  obtain ⟨evts, hnotice⟩ := ((t.modScr b fun _ => y).ringAdd 21 (b2n (k == .fresh))).notice_eq (x.status.getLsbD (if ue then 1 else 0)) "SCR_STATUS"
  rw [hnotice, hring]
  exact ⟨_, ring, evts, _, rfl⟩

theorem State.observe_eq_of_inScratch (s : State) {b : BoughId} {a n : Nat} (h : InScratch b a n) (ha : a % 8 = 0) (bg : Bool) :
    ∃ scr ring evts fresh, s.observe a n bg = { s with scr := scr, ring := ring, crownEvts := evts, fresh := fresh } := by
  have hspan : ∀ w ∈ wordSpan a n, placeOf (8 * w) = .scratch b.val (8 * w - scratchAddr b) := by
    intro w hw
    unfold wordSpan at hw
    split_ifs at hw with hn
    · exact absurd hw List.not_mem_nil
    · obtain ⟨i, hi, rfl⟩ := List.mem_map.mp hw
      have hi := List.mem_range.mp hi
      obtain ⟨hlo, hhi⟩ := h
      exact placeOf_of_inScratch (n := 1) ⟨by omega, by omega⟩ Nat.one_pos
  unfold State.observe
  generalize (wordSpan a n).find? _ = first
  generalize wordSpan a n = ws at hspan
  induction ws generalizing s with
  | nil => exact ⟨s.scr, s.ring, s.crownEvts, s.fresh, rfl⟩
  | cons w ws ih =>
    have ih := fun s => ih s fun v hv => hspan v (List.mem_cons_of_mem w hv)
    rw [List.foldl_cons]
    cases hcheck : s.mem.check w with
    | none => exact ih s
    | some k =>
      simp only [hspan w List.mem_cons_self, boughId_val]
      obtain ⟨scr, ring, evts, fresh, hecc⟩ := s.eccScratch_eq b w k bg
      obtain ⟨scr', ring', evts', fresh', hrest⟩ := ih (s.eccScratch b w k bg)
      rw [hrest, hecc]
      exact ⟨scr', ring', evts', fresh', rfl⟩

/-- A read of the own scratchpad leaves its words' events and its metering on record. -/
theorem State.ownRead_eq_of_inScratch (s : State) {b : BoughId} {a n : Nat} (h : InScratch b a n) (ha : a % 8 = 0) :
    ∃ scr plots ring evts fresh, s.ownRead (.bough b) a n =
      { s with scr := scr, plots := plots, ring := ring, crownEvts := evts, fresh := fresh } := by
  obtain ⟨scr, ring, evts, fresh, hobserve⟩ := s.observe_eq_of_inScratch h ha false
  obtain ⟨plots, hmeter⟩ := (s.observe a n false).meterScratch_eq b b (granulesOf (atAddr a (List.replicate n 0))).length
  refine ⟨scr, plots, ring, evts, fresh, hmeter.trans ?_⟩
  rw [hobserve]

/-! ### A store to the own scratchpad (R165, R229) -/

/-- Outside SERVICE no write is injected into (R291). -/
theorem State.injectInto_of_not_service (s : State) (bs : List (Nat × Byte)) (h : s.sys.mode ≠ .service) : s.injectInto bs = s :=
  if_pos (by simpa using h)

/-- Whole words stored outside SERVICE reach memory and the metering alone. -/
theorem State.storeOwn_eq_of_whole (s : State) (b : BoughId) {a : Nat} {bs : List Byte} (ha : a % 8 = 0) (hlen : bs.length % 8 = 0)
    (hmode : s.sys.mode ≠ .service) :
    ∃ plots, s.storeOwn (.bough b) a bs = { s with mem := s.mem.write (atAddr a bs), plots := plots } := by
  have hbytes : s.storeBytes (atAddr a bs) = { s with mem := s.mem.write (atAddr a bs) } := by
    rw [State.storeBytes, mergeWords_of_whole ha hlen]
    exact State.injectInto_of_not_service _ _ hmode
  obtain ⟨plots, hmeter⟩ := (s.storeBytes (atAddr a bs)).meterScratch_eq b b (accessParts a bs.length).length
  refine ⟨plots, hmeter.trans ?_⟩
  rw [hbytes]

/-- Nothing holds a store to one granule of the own scratchpad: it is performed at once. -/
theorem State.putStore_of_own (s : State) {b : BoughId} {a : Nat} {bs : List Byte} (hin : InScratch b a bs.length) (hpos : 0 < bs.length)
    (hgran : a / 64 = (a + bs.length - 1) / 64) (hstores : (s.bough b).twig.stores = []) (hcovers : s.entryCovers (.scratch b) a = false) :
    s.putStore (.bough b) a bs = some (s.storeOwn (.bough b) a bs) := by
  have hown : ownPlace (.bough b) a = true := by
    obtain ⟨hlo, hhi⟩ := hin
    exact Bool.and_eq_true_iff.mpr ⟨decide_eq_true hlo, decide_eq_true (show a < scratchAddr b + 0x80000 by omega)⟩
  have hempty : (s.twig (.bough b)).stores.isEmpty = true := List.isEmpty_iff.mpr hstores
  have hparts : accessParts a bs.length = [(a, bs.length)] := by
    rw [accessParts, if_neg (by omega), if_pos hgran]
  simp [State.putStore, s.filterTarget_of_inScratch hin hpos, hparts, hcovers, hown, hempty]

end Sys2Proof.Machine
end

section
/-! SUPPORT. The descriptor instructions (R68, R69, R230): the BASE that SDBASE and SDADV write, the state in which a bough has a descriptor and
goes on, and the settling of O10. -/

namespace Sys2Proof.Machine

open Sys2Proof.Safety

/-! ### The BASE field (R59) -/

theorem getElem_maskAt_zero (n i : Nat) (hi : i < 64) : (maskAt 0 n)[i] = decide (i < n) := by
  rw [← BitVec.getLsbD_eq_getElem, maskAt, Nat.pow_zero, Nat.mul_one, BitVec.getLsbD_ofNat, Nat.testBit_two_pow_sub_one, decide_eq_true hi,
    Bool.true_and]

/-- A word whose low 48 bits come from another. -/
theorem blend_low48 (w v : Word) : blend w v (maskAt 0 48) = (w >>> 48 <<< 48) ||| (v <<< 16 >>> 16) := by
  refine BitVec.eq_of_getLsbD_eq fun i hi => ?_
  by_cases hlow : i < 48
  · simp [blend, getElem_maskAt_zero, hi, hlow, show 16 + i < 64 by omega]
  · simp [blend, getElem_maskAt_zero, hi, hlow, show ¬ 16 + i < 64 by omega, show 48 + (i - 48) = i by omega]

theorem fieldAt_blend_low48 (w v : Word) : fieldAt (blend w v (maskAt 0 48)) 0 48 = v.toNat % 2 ^ 48 := by
  have hlow : (blend w v (maskAt 0 48)).setWidth 48 = v.setWidth 48 := by
    refine BitVec.eq_of_getLsbD_eq fun i hi => ?_
    simp [blend, getElem_maskAt_zero, hi, show i < 64 by omega]
  have hnat := congrArg BitVec.toNat hlow
  rw [BitVec.toNat_setWidth, BitVec.toNat_setWidth] at hnat
  rw [fieldAt, Nat.pow_zero, Nat.div_one, hnat]

/-- A descriptor that SDADV has advanced by vl elements (R68). -/
def Desc.advanced (d : Desc) (vl : Nat) : Desc :=
  if d.isStride then
    { d with w0 := blend d.w0 (BitVec.ofInt 64 ((d.base : Int) + (vl : Int) * d.stride * (((d.ty.map ETy.size).getD 1 : Nat) : Int))) (maskAt 0 48) }
  else d

theorem Desc.base_advanced (d : Desc) (vl : Nat) : ((d.advanced vl).base : Int) =
    (if d.isStride then ((d.base : Int) + vl * d.stride * ((d.ty.map ETy.size).getD 1 : Nat)) % 2 ^ 48 else d.base : Int) := by
  unfold Desc.advanced
  split_ifs
  · generalize (d.base : Int) + vl * d.stride * ((d.ty.map ETy.size).getD 1 : Nat) = x
    have hnonneg : 0 ≤ x % ((2 ^ 64 : Nat) : Int) := Int.emod_nonneg x (by decide)
    rw [Desc.base, fieldAt_blend_low48, BitVec.toNat_ofInt, Int.natCast_mod, Int.toNat_of_nonneg hnonneg]
    exact Int.emod_emod_of_dvd x (show (2 ^ 48 : Int) ∣ (2 ^ 64 : Nat) by decide)
  · rfl

/-! ### The decoded state of a bough's twig -/

theorem State.bough_decoded_eq (s : State) (b : BoughId) :
    (s.decoded (.bough b)).bough b = { s.bough b with twig := (s.bough b).twig.latched } := s.bough_modBough b _

theorem State.imm_decoded (s : State) (t : TwigId) (signed : Bool) (k own : Nat) :
    ((s.decoded t).twig t).imm signed k own = (s.twig t).imm signed k own := by
  obtain ⟨rep, hlatched⟩ := (s.twig t).latched_eq
  rw [State.decoded, State.twig_modTwig, hlatched]
  rfl

theorem State.overlapsStore_decoded (s : State) (t : TwigId) (a n : Nat) :
    ((s.decoded t).twig t).overlapsStore a n = (s.twig t).overlapsStore a n := by
  obtain ⟨rep, hlatched⟩ := (s.twig t).latched_eq
  rw [State.decoded, State.twig_modTwig, hlatched]
  rfl

theorem State.entryHolds_decoded (s : State) (b : BoughId) (tgt : Target) (a : Nat) :
    (s.decoded (.bough b)).entryHolds tgt a = s.entryHolds tgt a := by
  have hhalf : ∀ c h, (s.decoded (.bough b)).half c h = s.half c h := by
    intro c h
    obtain ⟨w, hbough⟩ := s.bough_modTwig_eq (.bough b) Twig.latched c
    rw [State.half, State.decoded, hbough]
    rfl
  unfold State.entryHolds
  simp only [hhalf]
  rfl

theorem State.ownReadWaits_decoded (s : State) (b : BoughId) (a n : Nat) :
    (s.decoded (.bough b)).ownReadWaits (.bough b) a n = s.ownReadWaits (.bough b) a n := by
  unfold State.ownReadWaits
  rw [s.overlapsStore_decoded]
  simp only [s.entryHolds_decoded]
  rfl

/-- With no instruction issued and no fault held there is nothing to wait for (R109, R157). -/
theorem State.waitFor_decoded_of_clear {s : State} {b : BoughId} {cond : Bough → Bool} (hfault : (s.bough b).vfault = none)
    (hcond : ∀ y : Bough, y.issued = [] → cond y = false) (hissued : (s.bough b).issued = []) (k : Act) :
    (s.decoded (.bough b)).waitFor (.bough b) cond k = k := by
  refine State.waitWhile_of_clear ?_ k
  rintro _ ⟨⟩
  rw [s.bough_decoded_eq]
  exact ⟨hfault, hcond _ hissued⟩

/-- A bough's twig executes in RUN alone (R24). -/
theorem State.mode_of_twigReady {s : State} {b : BoughId} (h : s.twigReady (.bough b) = true) : s.sys.mode = .run := by
  simp only [State.twigReady, State.codeRuns, Bool.and_eq_true, beq_iff_eq] at h
  obtain ⟨⟨⟨⟨hmode, -⟩, -⟩, -⟩, -⟩ := h
  exact hmode

theorem State.modBough_congr (s : State) (b : BoughId) {f g : Bough → Bough} (h : f (s.bough b) = g (s.bough b)) :
    s.modBough b f = s.modBough b g :=
  congrArg (s.setBough b) h

/-! ### Moving past an instruction, in a repetition or not (R222, R224) -/

theorem Twig.moves_past (w : Twig) (n : Nat) : Moved w (w.latched.finish n false false) := by
  cases hrep : w.rep with
  | none => exact moved_latched_finish hrep n
  | some r =>
    have hnone : w.rep ≠ none := by simp [hrep]
    have hlatched : w.latched = { w with repActive := false, rep := some { r with old := none } } := by simp [Twig.latched, hrep]
    rw [hlatched, Twig.finish]
    by_cases hlast : (decide (w.rc.toNat ≤ 1) || r.skip) = true
    · -- The last repetition, or a skipped one: the twig falls through without a repetition.
      obtain ⟨pc, past, lc0, lc1, hfinish, hzero0, hzero1⟩ := Twig.finish_eq
        (w := { w with repActive := false, pfx := [], rep := none, rc := if r.skip then w.rc else 0 }) rfl (r.len + w.pfx.length + n) false false
      rw [Twig.finish] at hfinish
      simp only [List.length_nil, Nat.add_zero, ← Nat.add_assoc] at hfinish
      simp only [hlast, if_true]
      rw [hfinish]
      exact ⟨rfl, fun h => absurd h hnone, hzero0, hzero1⟩
    · simp only [hlast, Bool.false_eq_true, if_false]
      exact ⟨rfl, fun h => absurd h hnone, id, id⟩

/-! ### Descriptor instructions go ahead -/

theorem descRun_of_go {s : State} {b : BoughId} {gu : PReg} {n : Nat} {pfx : Bool} {reads : List GReg} (hgo : TwigGo s (.bough b) gu n reads)
    (hn : 1 ≤ n) (hpfx : (s.twig (.bough b)).pfx = [] ∨ pfx = true) (i : Instr) (eff : BoughId → State → Act) :
    descRun i (.bough b) gu (descForm (.bough b) n pfx reads) eff s =
      (s.decoded (.bough b)).act (.bough b) i n (eff b (s.decoded (.bough b))) :=
  runTwig_of_go (f := descForm (.bough b) n pfx reads) hgo hn rfl rfl rfl (.inr rfl) hpfx i _

/-- A bough that has descriptor d in place n, and whose twig has moved past the instruction of k words that put it there. -/
def Bough.withDesc (y : Bough) (n : Fin 16) (d : Desc) (k : Nat) : Bough :=
  { y with sd := vset y.sd n d, twig := y.twig.latched.finish k false false }

/-- A descriptor instruction of bough b that completes: descriptor d is in place n, and the twig is past the instruction. -/
def State.descSet (s : State) (b : BoughId) (n : Fin 16) (d : Desc) (k : Nat) : State := s.modBough b fun y => y.withDesc n d k

theorem State.act_done_decoded (s u : State) (b : BoughId) (k : Nat) (i : Instr) :
    u.act (.bough b) i k (.done (s.decoded (.bough b)) false false) =
      s.modBough b fun y => { y with twig := y.twig.latched.finish k false false } := by
  rw [State.act, State.decoded, State.modTwig_modTwig]
  rfl

theorem State.act_done_desc (s u : State) (b : BoughId) (n : Fin 16) (d : Desc) (k : Nat) (i : Instr) :
    u.act (.bough b) i k (.done ((s.decoded (.bough b)).modBough b fun y => { y with sd := vset y.sd n d }) false false) = s.descSet b n d k := by
  rw [State.act, State.decoded, State.modTwig_bough, State.modTwig_bough, State.modBough_modBough, State.modBough_modBough]
  rfl

theorem State.bough_descSet (s : State) (b : BoughId) (n : Fin 16) (d : Desc) (k : Nat) : (s.descSet b n d k).bough b = (s.bough b).withDesc n d k :=
  s.bough_modBough b _

theorem onlyBough_descSet (s : State) (b : BoughId) (n : Fin 16) (d : Desc) (k : Nat) : OnlyBough b s (s.descSet b n d k) :=
  onlyBough_modBough s b _

section

variable {s : State} {b : BoughId} {gu : PReg} (n : Fin 16)

/-! ### SDADV (R68, R69, R109) -/

theorem exec_sdadv_of_go (hgo : TwigGo s (.bough b) gu 1 []) (hissued : (s.bough b).issued = []) (hpfx : (s.bough b).twig.pfx = []) :
    exec (.sdadv (.bough b) gu n) s = .next (s.descSet b n ((s.bough b).sd[n].advanced (s.bough b).twig.vl) 1) := by
  have hvl : (s.bough b).twig.latched.vl = (s.bough b).twig.vl := by
    obtain ⟨rep, hlatched⟩ := (s.bough b).twig.latched_eq
    rw [hlatched]
  refine congrArg Host.Outcome.next ((descRun_of_go hgo le_rfl (.inl hpfx) _ _).trans ?_)
  dsimp only
  rw [State.waitFor_decoded_of_clear (hgo.waits b rfl).1 (fun y hy => by simp [Bough.vlPending, hy]) hissued,
    ← s.act_done_desc (s.decoded (.bough b))]
  congr 2
  refine State.modBough_congr _ b ?_
  rw [s.bough_decoded_eq, Desc.advanced]
  dsimp only
  rw [hvl]
  split_ifs
  · rfl
  · rw [show vset (s.bough b).sd n (s.bough b).sd[n] = (s.bough b).sd from vset_same _ n]

/-! ### The instructions with an address (R68, R69, R230) -/

/-- The address checks of SDLD and SDST (R230). -/
theorem sdAddrOk_iff (b : BoughId) (a : Nat) : sdAddrOk b a = true ↔ a % 32 = 0 ∧ scratchAddr b ≤ a ∧ a < scratchAddr b + 0x80000 := by
  rw [sdAddrOk, ownPlace, Bool.and_eq_true, Bool.and_eq_true, beq_iff_eq, decide_eq_true_eq, decide_eq_true_eq]
  exact Iff.rfl

variable {gb : GReg} {off : BitVec 10} (hgo : TwigGo s (.bough b) gu 2 [gb]) (hissued : (s.bough b).issued = []) {addr : Word}
  (haddr : (s.bough b).twig.reg gb + (s.bough b).twig.imm true 10 off.toNat = addr)

include haddr in
theorem State.addr_decoded :
    ((s.decoded (.bough b)).twig (.bough b)).reg gb + ((s.decoded (.bough b)).twig (.bough b)).imm true 10 off.toNat = addr := by
  rw [State.reg_decoded, State.imm_decoded]
  exact haddr

include hgo

/-- SDBASE of a sound BASE with offset 0. -/
theorem exec_sdbase_of_legal (himm : (s.bough b).twig.imm true 10 off.toNat = 0) {d : Desc}
    (hd : { (s.bough b).sd[n] with w0 := blend (s.bough b).sd[n].w0 ((s.bough b).twig.reg gb) (maskAt 0 48) } = d) (hlegal : d.legal = true) :
    exec (.sdbase (.bough b) gu n gb off) s = .next (s.descSet b n d 2) := by
  have himm : ((s.decoded (.bough b)).twig (.bough b)).imm true 10 off.toNat = 0 := (s.imm_decoded _ _ _ _).trans himm
  refine congrArg Host.Outcome.next ((descRun_of_go hgo (by omega) (.inr rfl) _ _).trans ?_)
  simp only [himm, State.reg_decoded, s.bough_decoded_eq, show s.twig (.bough b) = (s.bough b).twig from rfl, hd, hlegal, bne_self_eq_false,
    Bool.not_true, Bool.or_self, Bool.false_eq_true, if_false]
  exact State.act_done_desc s _ b n d 2 _

include haddr hissued

/-- SDLD of a sound descriptor: what the read leaves on record, and the descriptor is in its place. -/
theorem exec_sdld_of_legal (hok : sdAddrOk b addr.toNat = true) (hwaits : s.ownReadWaits (.bough b) addr.toNat 32 = false)
    (hsound : ∀ x, addr.toNat ≤ x → x < addr.toNat + 32 → s.mem.badByte x = false) {d : Desc}
    (hd : (Desc.mk (s.mem.readWord addr.toNat) (s.mem.readWord (addr.toNat + 8)) (s.mem.readWord (addr.toNat + 16))
      (s.mem.readWord (addr.toNat + 24))).masked = d) (hlegal : d.legal = true) :
    ∃ scr plots ring evts fresh, exec (.sdld (.bough b) gu n gb off) s =
      .next ({ s with scr := scr, plots := plots, ring := ring, crownEvts := evts, fresh := fresh }.descSet b n d 2) := by
  obtain ⟨halign, hlo, hhi⟩ := (sdAddrOk_iff b addr.toNat).mp hok
  have hin : InScratch b addr.toNat 32 := ⟨hlo, by unfold scratchAddr scratchBase at *; omega⟩
  obtain ⟨scr, plots, ring, evts, fresh, hread⟩ := (s.decoded (.bough b)).ownRead_eq_of_inScratch hin (by omega)
  refine ⟨scr, plots, ring, evts, fresh, congrArg Host.Outcome.next ((descRun_of_go hgo (by omega) (.inr rfl) _ _).trans ?_)⟩
  have hnowait := fun k => State.waitFor_decoded_of_clear (cond := fun y => y.loadWaits addr.toNat 32) (hgo.waits b rfl).1
    (fun y hy => by simp [Bough.loadWaits, hy]) hissued k
  simp only [State.addr_decoded haddr, hok, hnowait, State.ownReadWaits_decoded, hwaits, State.mem_decoded, Memory.badAt_chunk_of_sound hsound, hd,
    hlegal, hread, Bool.not_true, Bool.false_eq_true, if_false]
  exact State.act_done_desc { s with scr := scr, plots := plots, ring := ring, crownEvts := evts, fresh := fresh } _ b n d 2 _

/-- SDST to storage that nothing holds: memory has the descriptor's words, the store is metered, and the twig moves on. -/
theorem exec_sdst_of_alive (hok : sdAddrOk b addr.toNat = true) (hstores : (s.bough b).twig.stores = [])
    (hcovers : s.entryCovers (.scratch b) addr.toNat = false) {bs : List Byte}
    (hbs : wordsBytes [(s.bough b).sd[n].w0, (s.bough b).sd[n].w1, (s.bough b).sd[n].w2, (s.bough b).sd[n].w3] = bs) :
    ∃ plots, exec (.sdst (.bough b) gu n gb off) s = .next ({ s with mem := s.mem.write (atAddr addr.toNat bs), plots := plots }.modBough b
      fun y => { y with twig := y.twig.latched.finish 2 false false }) := by
  obtain ⟨halign, hlo, hhi⟩ := (sdAddrOk_iff b addr.toNat).mp hok
  have hlen : bs.length = 32 := hbs ▸ length_wordsBytes _
  have hin : InScratch b addr.toNat bs.length := ⟨hlo, by unfold scratchAddr scratchBase at *; omega⟩
  have hmode : (s.decoded (.bough b)).sys.mode ≠ .service := by
    rw [show (s.decoded (.bough b)).sys = s.sys from rfl, State.mode_of_twigReady hgo.ready]
    decide
  have hlatched : ((s.decoded (.bough b)).bough b).twig.stores = [] := by
    obtain ⟨rep, hlatched⟩ := (s.bough b).twig.latched_eq
    rw [s.bough_decoded_eq, hlatched]
    exact hstores
  obtain ⟨plots, hstore⟩ := (s.decoded (.bough b)).storeOwn_eq_of_whole b (a := addr.toNat) (bs := bs) (by omega) (by omega) hmode
  have hput := (s.decoded (.bough b)).putStore_of_own hin (by omega) (by omega) hlatched hcovers
  refine ⟨plots, congrArg Host.Outcome.next ((descRun_of_go hgo (by omega) (.inr rfl) _ _).trans ?_)⟩
  have hnowait := fun k => State.waitFor_decoded_of_clear (cond := fun y => y.storeWaits addr.toNat 32) (hgo.waits b rfl).1
    (fun y hy => by simp [Bough.storeWaits, hy]) hissued k
  simp only [State.addr_decoded haddr, hok, hnowait, s.bough_decoded_eq, hbs, hput, hstore, State.mem_decoded, Bool.not_true, Bool.false_eq_true,
    if_false]
  exact State.act_done_decoded { s with mem := s.mem.write (atAddr addr.toNat bs), plots := plots } _ b 2 _

omit hissued

/-- An address outside the own scratchpad, or not aligned, raises ACCESS (R230). -/
theorem exec_of_bad_addr {i : Instr} (hi : i = .sdld (.bough b) gu n gb off ∨ i = .sdst (.bough b) gu n gb off)
    (hok : sdAddrOk b addr.toNat = false) (hheld : s.tsbHeld (.bough b) = false) :
    exec i s = .next ((s.decoded (.bough b)).twigFault (.bough b) .access addr) := by
  rcases hi with rfl | rfl
  all_goals
    refine congrArg Host.Outcome.next ((descRun_of_go hgo (by omega) (.inr rfl) _ _).trans ?_)
    simp only [State.addr_decoded haddr, hok, Bool.not_false, if_true]
    exact State.faultAt_of_not_held (by rw [State.tsbHeld_decoded, hheld]) _ _ _ _

end

end Sys2Proof.Machine

open Sys2Proof Sys2Proof.Machine Sys2Proof.Safety

/-- Settles O10: SDLD by `exec_sdld_of_legal`, SDST by `exec_sdst_of_alive` and `stored_write`, SDBASE by `exec_sdbase_of_legal`, SDADV by
`exec_sdadv_of_go` and `Desc.base_advanced`, the bad addresses by `exec_of_bad_addr`. -/
theorem descriptorOps : Obligations.DescriptorOps := by
  unfold Obligations.DescriptorOps
  refine ⟨fun s b gu n gb off hgo hissued => ?addressed, fun s b gu n hgo hissued hpfx => ?sdadv⟩
  case addressed =>
    intro w addr a ok d
    have hok : sdAddrOk b addr.toNat = true ↔ ok := sdAddrOk_iff b addr.toNat
    refine ⟨fun haddr hwaits hsound hlegal => ?sdld, fun haddr hstores hcovers halive => ?sdst, fun haddr hheld => ?faults, fun himm => ?sdbase⟩
    case sdld =>
      obtain ⟨scr, plots, ring, evts, fresh, hexec⟩ :=
        exec_sdld_of_legal n hgo hissued rfl (hok.mpr haddr) hwaits hsound (d := d) rfl hlegal
      have hbough := State.bough_descSet { s with scr := scr, plots := plots, ring := ring, crownEvts := evts, fresh := fresh } b n d 2
      refine ⟨_, hexec, ?_, ?_, rfl, fun c hc => State.bough_modBough_ne _ _ hc, ?_, rfl⟩
      all_goals rw [hbough]
      · rfl
      · exact w.moves_past 2
      · rfl
    case sdst =>
      dsimp only
      generalize hbs : wordsBytes _ = bs
      have hlen : bs.length = 32 := hbs ▸ length_wordsBytes _
      obtain ⟨plots, hexec⟩ := exec_sdst_of_alive n hgo hissued rfl (hok.mpr haddr) hstores hcovers hbs
      have hstored : Stored s.mem (s.mem.write (atAddr a bs)) a bs := stored_write (hlen ▸ halive)
      have hbough := fun m => State.bough_modBough { s with mem := m, plots := plots } b fun y =>
        { y with twig := y.twig.latched.finish 2 false false }
      refine ⟨_, hexec, hstored, ?_, ?_, fun c hc => State.bough_modBough_ne _ _ hc, rfl⟩
      all_goals rw [hbough]
      · exact w.moves_past 2
      · rfl
    case faults =>
      have hbad : sdAddrOk b addr.toNat = false := Bool.eq_false_iff.mpr fun h => haddr (hok.mp h)
      refine ⟨⟨s.decoded (.bough b), exec_of_bad_addr n hgo rfl (.inl rfl) hbad hheld, rfl, ?_⟩,
        ⟨s.decoded (.bough b), exec_of_bad_addr n hgo rfl (.inr rfl) hbad hheld, rfl⟩⟩
      rw [s.bough_decoded_eq]
    case sdbase =>
      intro e e' hlegal
      have hd : { e with w0 := blend e.w0 (w.reg gb) (maskAt 0 48) } = e' := by rw [blend_low48]
      refine ⟨_, exec_sdbase_of_legal n hgo himm hd hlegal, ?_, ?_, onlyBough_descSet s b n e' 2, ?_⟩
      all_goals rw [s.bough_descSet]
      · rfl
      · exact w.moves_past 2
      · rfl
  case sdadv =>
    intro w e
    refine ⟨_, exec_sdadv_of_go n hgo hissued hpfx, ?_, fun k hk => ?_, ?_, onlyBough_descSet s b n _ 1, ?_⟩
    all_goals rw [s.bough_descSet]
    · rw [Bough.withDesc, vset_get_self]
      exact e.base_advanced w.vl
    · exact vset_get_ne _ _ hk
    · exact w.moves_past 1
    · rfl

end

section
/-! SUPPORT. Vector faults (R94, R95, R158, R256): what the discard of the one filling half and the taking of its fault leave in the bough, and
the settling of O22. -/

namespace Sys2Proof.Machine

open Sys2Proof.Safety

/-! ### The one half that fills -/

/-- Half h of a bough fills, and the other half does not. -/
structure Bough.FillsAlone (y : Bough) (h : Fin 2) : Prop where
  self : y.halves[h].st = .filling
  other : y.halves[otherHalf h].st ≠ .filling

theorem HalfSt.filling_and_uncommitted (x : HalfSt) : (x == .filling && x.uncommitted) = (x == .filling) := by cases x <;> rfl

theorem Bough.fillingFrom_of_fillsAlone {y : Bough} {h : Fin 2} (hy : y.FillsAlone h) : y.fillingFrom y.halves[h].ord = y.halves[h].run := by
  obtain ⟨hself, hother⟩ := hy
  have hpair : (if y.halves[0].ord ≤ y.halves[1].ord then [y.halves[0], y.halves[1]] else [y.halves[1], y.halves[0]]).filter
      (fun x => x.st == .filling) = [y.halves[h]] := by
    match h with
    | 0 => split_ifs <;> simp_all [otherHalf]
    | 1 => split_ifs <;> simp_all [otherHalf]
  have hfilling : y.runs.filter (fun x => x.st == .filling && decide (y.halves[h].ord ≤ x.ord)) = [y.halves[h]] := by
    have hkept : ∀ x : Half, ((x.st == .filling && decide (y.halves[h].ord ≤ x.ord)) && x.st.uncommitted) =
        (decide (y.halves[h].ord ≤ x.ord) && x.st == .filling) := by
      intro x
      rw [Bool.and_right_comm, HalfSt.filling_and_uncommitted, Bool.and_comm]
    rw [Bough.runs, List.filter_filter, List.filter_congr fun x _ => hkept x, ← List.filter_filter, hpair]
    simp
  rw [Bough.fillingFrom, hfilling, List.flatMap_singleton]

variable {s : State} {b : BoughId} {h : Fin 2}

/-- Where one half alone fills, the discard from its run on discards that half (R158). -/
theorem State.discardFrom_of_fillsAlone (hy : (s.bough b).FillsAlone h) : s.discardFrom b (s.half b h).ord = s.discardHalf b h := by
  obtain ⟨hself, hother⟩ := hy
  have hself : (s.half b h).st = .filling := hself
  have hother : (s.half b (otherHalf h)).st ≠ .filling := hother
  rw [State.discardFrom]
  match h with
  | 0 =>
    have hlater : ((s.discardHalf b 0).half b 1).st ≠ .filling := (s.half_discardHalf_of_not_filling b 0 hother).symm ▸ hother
    simp [hself, hlater]
  | 1 => simp [hself, show (s.half b 0).st ≠ .filling from hother]

/-! ### The fault -/

/-- A bough that has taken the fault of the run in half h: the half is free, its entries and the queue are saved, the port absorbs (R158). -/
def Bough.vfaulted (y : Bough) (h : Fin 2) (cause : Cause) (elem : Nat) (addr : Word) : Bough :=
  { absorbTagsOf { y with halves := vset y.halves h Half.free, lookHeld := y.lookHeld.filter fun q => q.1 ≠ h } y.halves[h] with
    iq := [], absorbing := true,
    saved := some { base := 0, entries := (y.halves[h].run.map fun e => { e with again := true }) ++ y.iq },
    vfault := some { cause := cause, elem := elem, addr := addr, held := !y.twig.tsbp.getLsbD 0 } }

theorem State.discardHalf_of_sends_nil (hst : (s.half b h).st = .filling) (hsends : (s.half b h).sends = []) :
    s.discardHalf b h = s.modBough b fun y =>
      absorbTagsOf { y with halves := vset y.halves h Half.free, lookHeld := y.lookHeld.filter fun q => q.1 ≠ h } (s.half b h) := by
  simp [State.discardHalf, hst, hsends, abortSends]

/-- The fault of the one half that fills, of a run without chain links, reaches its bough alone. -/
theorem State.takeVFault_of_fillsAlone (hy : (s.bough b).FillsAlone h) (hsends : (s.half b h).sends = []) (hrecvs : (s.half b h).recvs = [])
    (cause : Cause) (elem : Nat) (addr : Word) :
    s.takeVFault b h cause elem addr = s.modBough b fun y => y.vfaulted h cause elem addr := by
  have hentries : (s.bough b).fillingFrom (s.half b h).ord = (s.half b h).run := Bough.fillingFrom_of_fillsAlone hy
  have hlinks : ∀ t : State, t.sinkLinks (s.half b h).inLinks = t := fun t => by rw [Half.inLinks, hrecvs]; rfl
  rw [State.takeVFault, hlinks, State.discardFrom_of_fillsAlone hy, State.discardHalf_of_sends_nil hy.self hsends, hentries]
  simp only [State.modBough_modBough, State.bough_modBough]
  rfl

theorem State.queueFaultParity_of_not_queue {addr : Word} (haddr : addr.getLsbD 63 = false) : s.queueFaultParity addr = s := by
  rw [State.queueFaultParity, haddr]
  rfl

/-- VECTOR_FAULT_TAKEN takes the fault of the oldest run where no link has broken (R94, R95, R158). -/
theorem exec_vectorFaultTaken_of_fault (hst : (s.half b h).st = .filling) (holdest : (s.bough b).isOldest h = true) {elem rank : Nat} {cause : Cause}
    {addr : Word} (hstop : firstStop (s.evalRun b h) = some (elem, .fault rank cause addr)) (hbroke : (s.half b h).broke = none) :
    exec (.vectorFaultTaken b h) s = .next ((s.queueFaultParity addr).takeVFault b h cause elem addr) := by
  change (s.bough b).halves[h].st = _ at hst
  change (s.bough b).halves[h].broke = _ at hbroke
  show execVectorFaultTaken b h s = _
  simp only [execVectorFaultTaken, hst, holdest, hstop, hbroke, beq_self_eq_true, Bool.and_self, if_true]

end Sys2Proof.Machine

open Sys2Proof Sys2Proof.Machine Sys2Proof.Safety

/-- Settles O22 by `State.takeVFault_of_fillsAlone`: the fault is one update of its bough. -/
theorem vectorFaultStops : Obligations.VectorFaultStops := by
  unfold Obligations.VectorFaultStops
  intro s b h i rank c addr y x hst holdest hother hstop haddr hsends hrecvs hbroke
  have hexec : exec (.vectorFaultTaken b h) s = .next (s.modBough b fun y => y.vfaulted h c i addr) := by
    rw [exec_vectorFaultTaken_of_fault hst holdest hstop hbroke, State.queueFaultParity_of_not_queue haddr,
      State.takeVFault_of_fillsAlone ⟨hst, hother⟩ hsends hrecvs]
  have hbough : (s.modBough b fun y => y.vfaulted h c i addr).bough b = y.vfaulted h c i addr := s.bough_modBough b _
  refine ⟨_, hexec, ?vfault, ?iq, ?half, ?absorbing, ?saved, ?twig, ?v, ?m, rfl, rfl, fun d hd => s.bough_modBough_ne _ hd, rfl⟩
  case half => exact (s.half_modBough b h _).trans (vset_get_self _ h _)
  all_goals rw [hbough]
  case saved => exact ⟨_, rfl, rfl⟩
  all_goals rfl

end

section
/-! SUPPORT. Integer sums (R110, R143) and the elements of V and M registers (R74, R75): the sum that the lanes of a reduction hold, the bits that a
register write changes, and the settling of O17. -/

namespace Sys2Proof.Machine

/-! ### Operations that raise nothing -/

@[simp] theorem trapOf_flNone (e : QEntry) : trapOf e flNone = none := by simp [trapOf, enabledTrap, flNone]

@[simp] theorem trapStops_flNone (e : QEntry) (i : Nat) : trapStops e i flNone = [] := by simp [trapStops]

theorem destStop_of_ok {dest : Nat → Got Nat} {j x : Nat} (h : dest j = .ok x) (i : Nat) : destStop dest j i = [] := by
  rw [destStop, h]

theorem mem_activeIx {bits : List Bool} {i : Nat} : i ∈ activeIx bits ↔ bits[i]? = some true := by
  simp only [activeIx, List.mem_filter, List.mem_range, beq_iff_eq, and_iff_right_iff_imp]
  exact fun h => (List.getElem?_eq_some_iff.mp h).1

/-! ### Accumulators of an integer sum (R110) -/

/-- An accumulator holds the sum n modulo the width of its type: an absent one holds 0. Nothing was raised on the way. -/
structure RAcc.Holds (t : ETy) (x : RAcc) (n : Nat) : Prop where
  flags : x.flags = flNone
  stops : x.stops = []
  value : (x.v = .absent ∧ n = 0) ∨ ∃ hi, x.v = .known (n % 2 ^ t.width) hi

theorem RAcc.absent_holds (t : ETy) : RAcc.absent.Holds t 0 := ⟨rfl, rfl, .inl ⟨rfl, rfl⟩⟩

theorem RAcc.Holds.bare {t : ETy} {x : RAcc} {n : Nat} (h : x.Holds t n) : (⟨x.v, x.flags, []⟩ : RAcc).Holds t n := ⟨h.flags, rfl, h.value⟩

/-- Absent is the identity of every operation (R110). -/
theorem RAcc.op_of_left_absent (e : QEntry) {x : RAcc} (hx : x.v = .absent) (y : RAcc) :
    x.op e y = ⟨y.v, x.flags ||| y.flags, x.stops ++ y.stops⟩ := by
  simp [RAcc.op, hx]

theorem RAcc.op_of_right_absent (e : QEntry) (x : RAcc) {y : RAcc} (hy : y.v = .absent) :
    x.op e y = ⟨x.v, x.flags ||| y.flags, x.stops ++ y.stops⟩ := by
  cases hx : x.v <;> simp [RAcc.op, hx, hy]

theorem RAcc.op_of_known (e : QEntry) {x y : RAcc} {a b i j : Nat} (hx : x.v = .known a i) (hy : y.v = .known b j) :
    x.op e y = ⟨.known (redOp e.op e.ty e.ctl a b).1 (max i j), x.flags ||| y.flags ||| (redOp e.op e.ty e.ctl a b).2,
      x.stops ++ y.stops ++ trapStops e (max i j) (redOp e.op e.ty e.ctl a b).2⟩ := by
  simp [RAcc.op, hx, hy]

/-- Adding to one of some numbers adds to their sum. -/
theorem sum_update_add {α : Type} [Fintype α] [DecidableEq α] (n : α → Nat) (l : α) (c : Nat) :
    ∑ k, Function.update n l (n l + c) k = ∑ k, n k + c := by
  rw [Finset.sum_update_of_mem (Finset.mem_univ l), Finset.sdiff_singleton_eq_erase, ← Finset.add_sum_erase Finset.univ n (Finset.mem_univ l)]
  omega

section sums

variable {e : QEntry} (hint : e.ty.isFp = false)
include hint

theorem enterElem_holds (i : Nat) {a : Nat} (ha : a < 2 ^ e.ty.width) : (enterElem e i a).Holds e.ty a := by
  have henter : enterOp e.ty e.ctl a = (a, flNone) := by simp [enterOp, hint]
  unfold enterElem
  rw [henter]
  exact ⟨rfl, trapStops_flNone e i, .inr ⟨i, by rw [Nat.mod_eq_of_lt ha]⟩⟩

variable (hsum : e.op = .sum)
include hsum

/-- Addition of two accumulators adds what they hold (R110, R143). -/
theorem RAcc.Holds.op {x y : RAcc} {m n : Nat} (hx : x.Holds e.ty m) (hy : y.Holds e.ty n) : (x.op e y).Holds e.ty (m + n) := by
  obtain ⟨hxflags, hxstops, hxv⟩ := hx
  obtain ⟨hyflags, hystops, hyv⟩ := hy
  have hflags : x.flags ||| y.flags = flNone := by rw [hxflags, hyflags, BitVec.or_self]
  have hstops : x.stops ++ y.stops = [] := by rw [hxstops, hystops]; rfl
  rcases hxv with ⟨hxv, rfl⟩ | ⟨i, hxv⟩
  · rw [RAcc.op_of_left_absent e hxv, Nat.zero_add]
    exact ⟨hflags, hstops, hyv⟩
  · rcases hyv with ⟨hyv, rfl⟩ | ⟨j, hyv⟩
    · rw [RAcc.op_of_right_absent e x hyv, Nat.add_zero]
      exact ⟨hflags, hstops, .inr ⟨i, hxv⟩⟩
    · have hadd : ∀ a b, redOp e.op e.ty e.ctl a b = ((a + b) % 2 ^ e.ty.width, flNone) := by simp [redOp, hsum, hint, intElem]
      rw [RAcc.op_of_known e hxv hyv, hadd, hflags, hstops, trapStops_flNone, ← Nat.add_mod]
      exact ⟨BitVec.or_self, rfl, .inr ⟨max i j, rfl⟩⟩

/-- The lanes hold together what they held before and the elements added, whatever lane each goes to. -/
theorem laneLoop_holds {rd : Nat → Got Nat} {a : Nat → Nat} (xs : List (Nat × Nat))
    (hrd : ∀ x ∈ xs, rd x.2 = .ok (a x.2) ∧ a x.2 < 2 ^ e.ty.width) {lanes : Vector RAcc 8} {n : Fin 8 → Nat}
    (hlanes : ∀ l : Fin 8, lanes[l].Holds e.ty (n l)) :
    ∃ (lanes' : Vector RAcc 8) (n' : Fin 8 → Nat), laneLoop e rd xs lanes [] = (lanes', []) ∧ (∀ l : Fin 8, lanes'[l].Holds e.ty (n' l)) ∧
      ∑ l, n' l = ∑ l, n l + (xs.map fun x => a x.2).sum := by
  induction xs generalizing lanes n with
  | nil => exact ⟨lanes, n, rfl, hlanes, by simp⟩
  | cons x xs ih =>
    obtain ⟨p, i⟩ := x
    obtain ⟨hread, hlt⟩ := hrd (p, i) List.mem_cons_self
    let l : Fin 8 := ⟨p % 8, Nat.mod_lt _ (by decide)⟩
    have hadded : (lanes[l].op e (enterElem e i (a i))).Holds e.ty (n l + a i) := (hlanes l).op hint hsum (enterElem_holds hint i hlt)
    have hnext : ∀ k : Fin 8, (vset lanes l ⟨(lanes[l].op e (enterElem e i (a i))).v, (lanes[l].op e (enterElem e i (a i))).flags, []⟩)[k].Holds e.ty
        (Function.update n l (n l + a i) k) := by
      intro k
      rw [vset_get, Function.update_apply]
      split_ifs
      · exact hadded.bare
      · exact hlanes k
    obtain ⟨lanes', n', hloop, hheld, htotal⟩ := ih (fun x hx => hrd x (List.mem_cons_of_mem _ hx)) hnext
    refine ⟨lanes', n', ?_, hheld, ?_⟩
    · rw [← hloop]
      simp only [laneLoop, hread]
      rw [if_pos (List.isEmpty_iff.mpr hadded.stops)]
    · rw [htotal, sum_update_add, List.map_cons, List.sum_cons, Nat.add_assoc]

theorem laneTree_holds {lanes : Vector RAcc 8} {n : Fin 8 → Nat} (h : ∀ l : Fin 8, lanes[l].Holds e.ty (n l)) :
    (laneTree e lanes).Holds e.ty (∑ l, n l) := by
  have op := @RAcc.Holds.op e hint hsum
  have htree := op (op (op (h 0) (h 1)) (op (h 2) (h 3))) (op (op (h 4) (h 5)) (op (h 6) (h 7)))
  rwa [show ∑ l, n l = n 0 + n 1 + (n 2 + n 3) + (n 4 + n 5 + (n 6 + n 7)) by rw [Fin.sum_univ_eight]; omega]

theorem reduce_holds {rd : Nat → Got Nat} {a : Nat → Nat} {xs : List (Nat × Nat)}
    (hrd : ∀ x ∈ xs, rd x.2 = .ok (a x.2) ∧ a x.2 < 2 ^ e.ty.width) : (reduce e rd xs true).Holds e.ty (xs.map fun x => a x.2).sum := by
  have hempty : ∀ l : Fin 8, (Vector.replicate 8 RAcc.absent)[l].Holds e.ty 0 := fun l => by simpa using RAcc.absent_holds e.ty
  obtain ⟨lanes, n, hloop, hheld, htotal⟩ := laneLoop_holds hint hsum xs hrd hempty
  obtain ⟨hflags, hstops, hvalue⟩ := laneTree_holds hint hsum hheld
  rw [htotal, Finset.sum_const_zero, Nat.zero_add] at hvalue
  rw [reduce, hloop]
  exact ⟨hflags, hstops, hvalue⟩

/-- VSUM over an integer type, its active elements there and its destination sound (R110). -/
theorem evalReduce_of_int_sum {rd : Nat → Nat → Got Nat} {dest : Nat → Got Nat} {bits : List Bool} {a : Nat → Nat} (hvl : 0 < e.vl)
    (hrd : ∀ i, bits[i]? = some true → rd 0 i = .ok (a i) ∧ a i < 2 ^ e.ty.width) {d : Nat} (hdest : dest 0 = .ok d) :
    let total := ((activeIx bits).map a).sum % 2 ^ e.ty.width
    evalReduce e rd dest bits = { outs := [some total], flags := flNone, stop := none, scalar := some total, count := 1 } := by
  intro total
  obtain ⟨hflags, hstops, hvalue⟩ := reduce_holds (rd := rd 0) (a := a) (xs := (activeIx bits).map fun i => (i, i)) hint hsum fun x hx => by
    obtain ⟨i, hi, rfl⟩ := List.mem_map.mp hx
    exact hrd i (mem_activeIx.mp hi)
  rw [List.map_map, show (fun x : Nat × Nat => a x.2) ∘ (fun i => (i, i)) = a from rfl] at hvalue
  unfold evalReduce
  simp only [hstops, hflags, destStop_of_ok hdest, Nat.ne_of_gt hvl, if_false, List.append_nil, minStop]
  rcases hvalue with ⟨hv, hzero⟩ | ⟨hi, hv⟩
  · simp only [hv, hsum, identityOf, total, hzero, Nat.zero_mod]
  · simp only [hv, total]

end sums

theorem Env.member_of_sum {v : Env} {e : QEntry} {bits : List Bool} (hsum : e.op = .sum) (hbits : v.maskBits e = .ok bits) (prev : List MRes)
    (m : Nat) : v.member prev m e = evalReduce e (v.read prev m e) (v.dest m e) bits := by
  simp only [Env.member, hbits, hsum]

/-! ### Elements of a vector register (R74) -/

theorem testBit_vregElem (v : BitVec 8192) (w i k : Nat) : (vregElem v w i).testBit k = (decide (k < w) && v.getLsbD (w * i + k)) := by
  rw [vregElem, Nat.testBit_mod_two_pow, Nat.testBit_div_two_pow, BitVec.getLsbD, Nat.add_comm]

/-- A write of element i changes the bits of that element alone. -/
theorem getLsbD_setElem (v : BitVec 8192) (w i x : Nat) {k : Nat} (hk : k < 8192) :
    (setElem v w i x).getLsbD k = if w * i ≤ k ∧ k < w * i + w then x.testBit (k - w * i) else v.getLsbD k := by
  simp only [setElem, BitVec.getLsbD_or, BitVec.getLsbD_and, BitVec.getLsbD_not, BitVec.getLsbD_ofNat, Nat.testBit_mul_two_pow,
    Nat.testBit_two_pow_sub_one, Nat.testBit_mod_two_pow, hk, decide_true, Bool.true_and]
  by_cases hlo : w * i ≤ k
  · by_cases hhi : k < w * i + w
    · simp [hlo, hhi, show k - w * i < w by omega]
    · simp [hhi, show ¬ k - w * i < w by omega]
  · simp [hlo]

/-- A bit of element j lies in element i only where they are the same element. -/
theorem elem_bit_iff {w k : Nat} (hk : k < w) (i j : Nat) : w * i ≤ w * j + k ∧ w * j + k < w * i + w ↔ i = j := by
  have hdiv : (w * j + k) / w = j := by rw [Nat.mul_add_div (by omega), Nat.div_eq_of_lt hk, Nat.add_zero]
  constructor
  · rintro ⟨hlo, hhi⟩
    rw [← hdiv]
    exact (Nat.div_eq_of_lt_le (by rwa [Nat.mul_comm i]) (by rwa [Nat.succ_mul, Nat.mul_comm i])).symm
  · rintro rfl
    omega

theorem ETy.elem_bit_lt (t : ETy) {j k : Nat} (hj : j < t.perReg) (hk : k < t.width) : t.width * j + k < 8192 := by
  have hfill : t.width * t.perReg = 8192 := by cases t <;> rfl
  have hnext : t.width * (j + 1) ≤ t.width * t.perReg := Nat.mul_le_mul_left _ hj
  rw [Nat.mul_succ] at hnext
  omega

theorem vregElem_setElem (v : BitVec 8192) (t : ETy) {i j : Nat} (x : Nat) (hj : j < t.perReg) :
    vregElem (setElem v t.width i x) t.width j = if i = j then x % 2 ^ t.width else vregElem v t.width j := by
  refine Nat.eq_of_testBit_eq fun k => ?_
  rw [testBit_vregElem]
  by_cases hk : k < t.width
  · rw [getLsbD_setElem v t.width i x (t.elem_bit_lt hj hk)]
    simp only [elem_bit_iff hk i j, hk, decide_true, Bool.true_and]
    split_ifs with hij
    · simp [hij, hk]
    · simp [testBit_vregElem, hk]
  · split_ifs
    · simp [hk]
    · simp [testBit_vregElem, hk]

/-! ### Bits of a mask register (R75) -/

theorem testBit_bitsNat (bits : List Bool) (j : Nat) : (bitsNat bits).testBit j = bits.getD j false := by
  induction bits generalizing j with
  | nil => simp [bitsNat]
  | cons b bits ih =>
    cases j with
    | zero => cases b <;> simp [bitsNat, b2n, Nat.testBit_zero]
    | succ j =>
      have hbit : b2n b < 2 := by cases b <;> decide
      have hhalf : bitsNat (b :: bits) / 2 = bitsNat bits := by rw [bitsNat]; omega
      rw [Nat.testBit_succ, hhalf, ih, List.getD_cons_succ]

theorem getLsbD_setMask (m : BitVec 16384) (vl bits : Nat) {j : Nat} (hj : j < 16384) :
    (setMask m vl bits).getLsbD j = if j < vl then bits.testBit j else m.getLsbD j := by
  rw [setMask, BitVec.getLsbD_ofNat, Nat.mul_comm, Nat.testBit_two_pow_mul_add _ (Nat.mod_lt _ (Nat.two_pow_pos vl)), decide_eq_true hj,
    Bool.true_and]
  split_ifs with hlt
  · simp [hlt]
  · rw [Nat.testBit_div_two_pow, BitVec.getLsbD, Nat.sub_add_cancel (Nat.le_of_not_lt hlt)]

end Sys2Proof.Machine

open Sys2Proof Sys2Proof.Machine

/-- Settles O17: the sum by `evalReduce_of_int_sum`, the elements of V registers by `vregElem_setElem`, the bits of M registers by
`getLsbD_setMask` and `testBit_bitsNat`. -/
theorem sumsAndRegisterElements : Obligations.SumsAndRegisterElements := by
  unfold Obligations.SumsAndRegisterElements
  refine ⟨fun v prev m e bits a hsum hint hbits hvl hrd ⟨d, hdest⟩ => ?sum, fun v t i j x _ hj => vregElem_setElem v t x hj,
    fun m vl bits j _ _ hj => ?mask⟩
  case sum =>
    rw [Env.member_of_sum hsum hbits, evalReduce_of_int_sum hint hsum hvl hrd hdest]
    exact ⟨rfl, rfl, rfl, rfl⟩
  case mask => rw [getLsbD_setMask m vl _ hj, testBit_bitsNat]

end

section
/-! SUPPORT. Integer elements (R105, R143) and elementwise runs (R76, R96, R100): the value that a bit pattern stands for, the quotients, shifts
and rotates whose value fits its type, the walk over active elements that all have a result, and the settling of O16. -/

namespace Sys2Proof.Machine

/-! ### The low bits of an integer -/

theorem natCast_ofInt (w : Nat) (v : Int) : (ofInt w v : Int) = v % (2 ^ w : Nat) :=
  Int.toNat_of_nonneg (Int.emod_nonneg _ (by exact_mod_cast (Nat.two_pow_pos w).ne'))

theorem ofInt_lt (w : Nat) (v : Int) : ofInt w v < 2 ^ w := by
  have h := Int.emod_lt_of_pos v (show (0 : Int) < (2 ^ w : Nat) by exact_mod_cast Nat.two_pow_pos w)
  rw [← natCast_ofInt] at h
  exact_mod_cast h

theorem ofInt_natCast (w n : Nat) : ofInt w n = n % 2 ^ w := by
  rw [ofInt, ← Int.natCast_emod, Int.toNat_natCast]

/-- A difference wraps (R143). -/
theorem ofInt_natCast_sub (w n : Nat) {m : Nat} (hm : m < 2 ^ w) : ofInt w ((n : Int) - m) = (n + 2 ^ w - m) % 2 ^ w := by
  have hwrap : (n : Int) - m = (n + 2 ^ w - m : Nat) - (2 ^ w : Nat) := by omega
  rw [← ofInt_natCast, ofInt, hwrap, Int.sub_emod_right, ofInt]

theorem ofInt_neg_natCast (w : Nat) {m : Nat} (hm : m < 2 ^ w) : ofInt w (-(m : Int)) = (2 ^ w - m) % 2 ^ w := by
  simpa using ofInt_natCast_sub w 0 hm

/-! ### The value of an element (R57) -/

namespace ETy

variable (t : ETy) {a : Nat}

theorem two_pow_width : 2 ^ t.width = 2 * 2 ^ (t.width - 1) := by cases t <;> rfl

variable {t}

theorem value_of_unsigned (h : t.isSigned = false) (a : Nat) : t.value a = a := by simp [value, h]

theorem value_of_signed (h : t.isSigned = true) (ha : a < 2 ^ t.width) :
    t.value a = if a < 2 ^ (t.width - 1) then (a : Int) else (a : Int) - (2 ^ t.width : Nat) := by
  simp only [value, h, toSigned, Nat.mod_eq_of_lt ha, if_true]

theorem minVal_of_signed (h : t.isSigned = true) : t.minVal = -(2 ^ (t.width - 1) : Nat) := by rw [minVal, if_pos h]

theorem maxVal_of_signed (h : t.isSigned = true) : t.maxVal = (2 ^ (t.width - 1) : Nat) - 1 := by rw [maxVal, if_pos h]

theorem minVal_of_unsigned (h : t.isSigned = false) : t.minVal = 0 := by simp [minVal, h]

theorem maxVal_of_unsigned (h : t.isSigned = false) : t.maxVal = (2 ^ t.width : Nat) - 1 := by simp [maxVal, h]

theorem value_mem_range (ha : a < 2 ^ t.width) : t.minVal ≤ t.value a ∧ t.value a ≤ t.maxVal := by
  have hw := t.two_pow_width
  cases h : t.isSigned with
  | false =>
    rw [value_of_unsigned h, minVal_of_unsigned h, maxVal_of_unsigned h]
    omega
  | true =>
    rw [value_of_signed h ha, minVal_of_signed h, maxVal_of_signed h]
    split_ifs <;> omega

/-- A value that its type can hold is read back from its low bits. -/
theorem value_ofInt {v : Int} (hmin : t.minVal ≤ v) (hmax : v ≤ t.maxVal) : t.value (ofInt t.width v) = v := by
  have hw := t.two_pow_width
  have hlow := natCast_ofInt t.width v
  cases h : t.isSigned with
  | false =>
    rw [minVal_of_unsigned h] at hmin
    rw [maxVal_of_unsigned h] at hmax
    rw [value_of_unsigned h, hlow, Int.emod_eq_of_lt hmin (by omega)]
  | true =>
    rw [minVal_of_signed h] at hmin
    rw [maxVal_of_signed h] at hmax
    rw [value_of_signed h (ofInt_lt _ v)]
    by_cases hneg : v < 0
    · rw [← Int.add_emod_right, Int.emod_eq_of_lt (by omega) (by omega)] at hlow
      rw [if_neg (by omega)]
      omega
    · rw [Int.emod_eq_of_lt (by omega) (by omega)] at hlow
      rw [if_pos (by omega), hlow]

@[simp] theorem value_zero : t.value 0 = 0 := by cases t <;> rfl

/-- A result between 0 and the value of an element of its type fits. -/
theorem value_ofInt_of_between (ha : a < 2 ^ t.width) {v : Int} (hlo : min 0 (t.value a) ≤ v) (hhi : v ≤ max 0 (t.value a)) :
    t.value (ofInt t.width v) = v := by
  have hzero : t.minVal ≤ t.value 0 ∧ t.value 0 ≤ t.maxVal := value_mem_range (Nat.two_pow_pos _)
  have hva := value_mem_range ha
  rw [value_zero] at hzero
  exact value_ofInt (by omega) (by omega)

theorem value_eq_zero_iff (ha : a < 2 ^ t.width) : t.value a = 0 ↔ a = 0 := by
  have hpos := Nat.two_pow_pos (t.width - 1)
  cases h : t.isSigned with
  | false => rw [value_of_unsigned h, Int.natCast_eq_zero]
  | true =>
    rw [value_of_signed h ha]
    split_ifs <;> omega

/-- The most negative value of a signed type. -/
theorem value_eq_minVal_iff (h : t.isSigned = true) (ha : a < 2 ^ t.width) : t.value a = t.minVal ↔ a = 2 ^ (t.width - 1) := by
  have hw := t.two_pow_width
  rw [value_of_signed h ha, minVal_of_signed h]
  split_ifs <;> omega

theorem value_eq_neg_one_iff (h : t.isSigned = true) (ha : a < 2 ^ t.width) : t.value a = -1 ↔ a = 2 ^ t.width - 1 := by
  have hw := t.two_pow_width
  have hpos := Nat.two_pow_pos (t.width - 1)
  rw [value_of_signed h ha]
  split <;> omega

end ETy

/-! ### Minimum and maximum, division and remainder (R143) -/

theorem value_intMinMax_min (t : ETy) (a b : Nat) : t.value (intMinMax t false a b) = min (t.value a) (t.value b) := by
  by_cases h : t.value a ≤ t.value b
  · simp [intMinMax, h]
  · simp [intMinMax, h, (not_le.mp h).le]

theorem value_intMinMax_max (t : ETy) (a b : Nat) : t.value (intMinMax t true a b) = max (t.value a) (t.value b) := by
  by_cases h : t.value a ≤ t.value b
  · simp [intMinMax, h]
  · simp [intMinMax, h, (not_le.mp h).le]

/-- A truncated quotient leaves the range of a signed type only where it is the negation of the most negative value. -/
theorem tdiv_range_of_ne_min {x y : Int} {H : Nat} (hxlo : -(H : Int) ≤ x) (hxhi : x < H) (h : ¬ (x = -(H : Int) ∧ y = -1)) :
    -(H : Int) ≤ x.tdiv y ∧ x.tdiv y < H := by
  have habs : (x.tdiv y).natAbs = x.natAbs / y.natAbs := Int.natAbs_tdiv x y
  by_cases hone : y = 1 ∨ y = -1
  · rcases hone with rfl | rfl
    · rw [Int.tdiv_one]
      exact ⟨hxlo, hxhi⟩
    · rw [Int.tdiv_neg, Int.tdiv_one]
      omega
  · have hlt : x.natAbs / y.natAbs < H := by
      rcases y.natAbs.eq_zero_or_pos with hy | hy
      · rw [hy, Nat.div_zero]
        omega
      · have hhalf : x.natAbs / y.natAbs ≤ x.natAbs / 2 := Nat.div_le_div_left (by omega) (by decide)
        omega
    omega

theorem intDiv_of_ne_zero {t : ETy} {a b : Nat} (hb : b < 2 ^ t.width) (hb0 : b ≠ 0) :
    intDiv t a b = ofInt t.width ((t.value a).tdiv (t.value b)) :=
  if_neg ((ETy.value_eq_zero_iff hb).not.mpr hb0)

theorem intRem_of_ne_zero {t : ETy} {a b : Nat} (hb : b < 2 ^ t.width) (hb0 : b ≠ 0) :
    intRem t a b = ofInt t.width ((t.value a).tmod (t.value b)) :=
  if_neg ((ETy.value_eq_zero_iff hb).not.mpr hb0)

section integers

variable {t : ETy} {a b : Nat} (ha : a < 2 ^ t.width)
include ha

theorem ofInt_natAbs_value (h : t.isSigned = true) :
    ofInt t.width (t.value a).natAbs = if t.value a < 0 then (2 ^ t.width - a) % 2 ^ t.width else a := by
  rw [ofInt_natCast, ETy.value_of_signed h ha]
  by_cases hlow : a < 2 ^ (t.width - 1)
  · rw [if_pos hlow, Int.natAbs_natCast, Nat.mod_eq_of_lt ha, if_neg (by omega)]
  · rw [if_neg hlow, if_pos (by omega)]
    congr 1
    omega

variable (hb : b < 2 ^ t.width)
include hb

/-- The quotient truncates toward zero wherever it fits. -/
theorem value_intDiv (hb0 : b ≠ 0) (hfits : ¬ (t.isSigned = true ∧ a = 2 ^ (t.width - 1) ∧ b = 2 ^ t.width - 1)) :
    t.value (intDiv t a b) = (t.value a).tdiv (t.value b) := by
  rw [intDiv_of_ne_zero hb hb0]
  cases h : t.isSigned with
  | false =>
    rw [ETy.value_of_unsigned h b]
    refine ETy.value_ofInt_of_between ha ?_ ?_
    all_goals rw [ETy.value_of_unsigned h a]
    · exact (min_le_left _ _).trans (Int.tdiv_nonneg (by omega) (by omega))
    · exact (Int.tdiv_le_self _ (by omega)).trans (le_max_right _ _)
  | true =>
    have hrange := ETy.value_mem_range ha
    rw [ETy.minVal_of_signed h, ETy.maxVal_of_signed h] at hrange
    have hquot := tdiv_range_of_ne_min (H := 2 ^ (t.width - 1)) hrange.1 (by omega) (y := t.value b) fun ⟨hx, hy⟩ =>
      hfits ⟨h, (ETy.value_eq_minVal_iff h ha).mp (hx.trans (ETy.minVal_of_signed h).symm), (ETy.value_eq_neg_one_iff h hb).mp hy⟩
    refine ETy.value_ofInt ?_ ?_
    · rw [ETy.minVal_of_signed h]
      exact hquot.1
    · rw [ETy.maxVal_of_signed h]
      omega

/-- The remainder has the sign of the dividend. -/
theorem value_intRem (hb0 : b ≠ 0) : t.value (intRem t a b) = (t.value a).tmod (t.value b) := by
  rw [intRem_of_ne_zero hb hb0]
  have habs : ((t.value a).tmod (t.value b)).natAbs ≤ (t.value a).natAbs := by
    rw [Int.natAbs_tmod]
    exact Nat.mod_le _ _
  rcases le_total 0 (t.value a) with hsign | hsign
  · have hnonneg := Int.tmod_nonneg (t.value b) hsign
    exact ETy.value_ofInt_of_between ha (by omega) (by omega)
  · have hnonpos := Int.tmod_nonneg (t.value b) (Int.neg_nonneg_of_nonpos hsign)
    rw [Int.neg_tmod] at hnonpos
    exact ETy.value_ofInt_of_between ha (by omega) (by omega)

/-- MIN over -1 gives MIN, with no remainder. -/
theorem intDiv_intRem_of_overflow (h : t.isSigned = true) (hmin : a = 2 ^ (t.width - 1)) (hone : b = 2 ^ t.width - 1) :
    intDiv t a b = a ∧ intRem t a b = 0 := by
  have hw := t.two_pow_width
  have hpos := Nat.two_pow_pos (t.width - 1)
  have hva : t.value a = -(a : Int) := by rw [(ETy.value_eq_minVal_iff h ha).mpr hmin, ETy.minVal_of_signed h, hmin]
  have hvb := (ETy.value_eq_neg_one_iff h hb).mpr hone
  constructor
  · rw [intDiv_of_ne_zero hb (by omega), hva, hvb, Int.tdiv_neg, Int.tdiv_one, neg_neg, ofInt_natCast, Nat.mod_eq_of_lt ha]
  · rw [intRem_of_ne_zero hb (by omega), hvb, Int.tmod_neg, Int.tmod_one]
    exact ofInt_natCast _ 0

omit hb in
/-- An arithmetic shift floors the value over the power of two. -/
theorem value_shiftA (h : t.isSigned = true) (n : Nat) : t.value (shiftA t.width a n) = t.value a / 2 ^ min n t.width := by
  have hvalue : toSigned t.width a = t.value a := by rw [ETy.value, if_pos h]
  have hpow : (0 : Int) < 2 ^ min n t.width := by positivity
  rw [shiftA, hvalue, Nat.cast_pow, Nat.cast_ofNat, Int.fdiv_eq_ediv_of_nonneg _ hpow.le]
  rcases le_or_gt 0 (t.value a) with hsign | hsign
  · have hnonneg := Int.ediv_nonneg hsign hpow.le
    have hle := Int.ediv_le_self (2 ^ min n t.width) hsign
    exact ETy.value_ofInt_of_between ha (by omega) (by omega)
  · have hneg := Int.ediv_neg_of_neg_of_pos hsign hpow
    have hge : t.value a ≤ t.value a / 2 ^ min n t.width := (Int.le_ediv_iff_mul_le hpow).mpr (by nlinarith)
    exact ETy.value_ofInt_of_between ha (by omega) (by omega)

end integers

theorem intDiv_zero (t : ETy) (a : Nat) : intDiv t a 0 = 2 ^ t.width - 1 := if_pos ETy.value_zero

theorem intRem_zero (t : ETy) (a : Nat) : intRem t a 0 = a := if_pos ETy.value_zero

/-! ### Rotates and bit counts (R105, R213) -/

/-- A rotate moves each bit up by the amount, modulo the width. -/
theorem testBit_rotL {w x : Nat} (hx : x < 2 ^ w) (n : Nat) {j : Nat} (hj : j < w) : (rotL w x n).testBit ((j + n) % w) = x.testBit j := by
  have hn : n % w < w := Nat.mod_lt _ (by omega)
  have hhigh : ∀ k, w ≤ k → x.testBit k = false := fun k hk => Nat.testBit_lt_two_pow (hx.trans_le (Nat.pow_le_pow_right (by decide) hk))
  have hplace : (j + n) % w = if w ≤ j + n % w then j + n % w - w else j + n % w := by
    rw [Nat.add_mod_eq_ite, Nat.mod_eq_of_lt hj]
  rw [rotL, hplace, Nat.testBit_or, Nat.testBit_mod_two_pow, Nat.testBit_mul_two_pow, Nat.testBit_div_two_pow]
  by_cases hwrap : w ≤ j + n % w
  · rw [if_pos hwrap, decide_eq_false (show ¬ n % w ≤ j + n % w - w by omega), show j + n % w - w + (w - n % w) = j by omega]
    simp
  · rw [if_neg hwrap, hhigh (j + n % w + (w - n % w)) (by omega), Nat.add_sub_cancel]
    simp [show j + n % w < w by omega]

theorem rotL_lt {w x : Nat} (hx : x < 2 ^ w) (n : Nat) : rotL w x n < 2 ^ w :=
  Nat.or_lt_two_pow (Nat.mod_lt _ (Nat.two_pow_pos w)) ((Nat.div_le_self _ _).trans_lt hx)

theorem popCount_eq_countP (w x : Nat) : popCount w x = (List.range w).countP fun j => x.testBit j := List.countP_eq_length_filter.symm

theorem leadZeros_zero (w : Nat) : leadZeros w 0 = w := by simp [leadZeros]

/-- The bit below the leading zeros is set, and none above it. -/
theorem leadZeros_of_ne_zero {w x : Nat} (hx : x < 2 ^ w) (hx0 : x ≠ 0) :
    leadZeros w x < w ∧ x.testBit (w - 1 - leadZeros w x) = true ∧ x < 2 ^ (w - leadZeros w x) := by
  have hlog : x.log2 < w := (Nat.log2_lt hx0).mpr hx
  have hlead : leadZeros w x = w - 1 - x.log2 := by rw [leadZeros, Nat.mod_eq_of_lt hx, if_neg hx0]
  rw [hlead, show w - 1 - (w - 1 - x.log2) = x.log2 by omega, show w - (w - 1 - x.log2) = x.log2 + 1 by omega]
  exact ⟨by omega, Nat.testBit_log2 hx0, Nat.lt_log2_self⟩

/-! ### Elementwise runs (R76, R96, R100) -/

theorem intElem_fms (t : ETy) (a b : Nat) {c : Nat} (hc : c < 2 ^ t.width) :
    intElem .fms t a b c = (a * b + 2 ^ t.width - c) % 2 ^ t.width := by
  rw [← ofInt_natCast_sub _ _ hc, Nat.cast_mul]
  rfl

theorem elemOp_flags_of_int {t st : ETy} (ht : t.isFp = false) (hst : st.isFp = false) (op : VOp) (k : ACtl) (a b c : Nat) :
    (elemOp op t st k a b c).2 = 0 := by
  cases op <;> simp [elemOp, ht, hst, convert, flNone]

theorem exists_active_cons {active : Bool} {bits : List Bool} {p : Nat → Prop} :
    (∃ i, (active :: bits)[i]? = some true ∧ p i) ↔ active = true ∧ p 0 ∨ ∃ i, bits[i]? = some true ∧ p (i + 1) := by
  rw [← Nat.or_exists_add_one]
  simp

/-- A walk whose active elements all have a result writes those and no others, and its flags are theirs; the counters stay. -/
theorem walk_of_ok {step : Nat → Nat → Nat → Got ((Nat × BitVec 5) × Nat × Nat)} {r : Nat → Nat × BitVec 5} {x y : Nat} (bits : List Bool)
    (n : Nat) (fl : BitVec 5) (acc : List (Option Nat)) (hstep : ∀ i, bits[i]? = some true → step x y (i + n) = .ok (r (i + n), x, y)) :
    let res := walk step bits n x y fl acc
    res.stop = none ∧ res.outs = acc.reverse ++ bits.mapIdx (fun i active => if active then some (r (i + n)).1 else none) ∧
      ∀ j, res.flags.getLsbD j = true ↔ fl.getLsbD j = true ∨ ∃ i, bits[i]? = some true ∧ (r (i + n)).2.getLsbD j = true := by
  induction bits generalizing n fl acc with
  | nil => simp [walk]
  | cons active bits ih =>
    have hshift : ∀ i, i + 1 + n = i + (n + 1) := fun i => by omega
    have htail := fun fl acc => ih (n + 1) fl acc fun i hi => by
      rw [← hshift]
      exact hstep (i + 1) hi
    cases active with
    | false =>
      obtain ⟨hstop, houts, hflags⟩ := htail fl (none :: acc)
      refine ⟨hstop, ?_, fun j => ?_⟩
      · rw [walk, houts]
        simp [List.mapIdx_cons, hshift]
      · rw [walk, hflags, exists_active_cons]
        simp [hshift]
    | true =>
      obtain ⟨hstop, houts, hflags⟩ := htail (fl ||| (r n).2) (some (r n).1 :: acc)
      have hhead : step x y n = .ok (r n, x, y) := by simpa using hstep 0 rfl
      have hwalk : walk step (true :: bits) n x y fl acc = walk step bits (n + 1) x y (fl ||| (r n).2) (some (r n).1 :: acc) := by
        rw [walk, hhead]
      rw [hwalk]
      refine ⟨hstop, ?_, fun j => ?_⟩
      · rw [houts]
        simp [List.mapIdx_cons, hshift]
      · rw [hflags, exists_active_cons]
        simp [hshift, or_assoc]

theorem trapOf_of_and_eq_zero {e : QEntry} {fl : BitVec 5} (h : e.en &&& fl = 0) : trapOf e fl = none := by
  rw [trapOf, enabledTrap, h]
  rfl

theorem settle_of_ok {e : QEntry} {dest : Nat → Got Nat} {j d : Nat} (hdest : dest j = .ok d) {r : Nat × BitVec 5} (hen : e.en &&& r.2 = 0) :
    settle e dest j r = .ok r := by
  rw [settle, hdest, trapOf_of_and_eq_zero hen]
  rfl

/-- An elementwise operation combines the elements of the sources that it uses. -/
theorem elemStep_of_ok {e : QEntry} (hdot : e.op ≠ .dot4) (hcmp : e.op.isCmp = false) (ix : Nat → Nat → Got Unit) {rd : Nat → Nat → Got Nat}
    {i a b c : Nat} (ha : rd 0 i = .ok a) (hb : rd 1 i = .ok b) (hc : rd 2 i = .ok c) :
    elemStep e ix rd i = .ok (elemOp e.op e.ty e.srcTy e.ctl a (if e.op.usesB then b else 0) (if e.op.usesC then c else 0)) := by
  rw [elemStep, if_neg hdot, ha, hb, hc, hcmp, ← apply_ite Except.ok, ← apply_ite Except.ok]
  rfl

theorem evalElementwise_of_ok {e : QEntry} {ix : Nat → Nat → Got Unit} {rd : Nat → Nat → Got Nat} {dest : Nat → Got Nat} {bits : List Bool}
    {r : Nat → Nat × BitVec 5} (hstep : ∀ i, bits[i]? = some true → elemStep e ix rd i = .ok (r i))
    (hdest : ∀ i, bits[i]? = some true → ∃ d, dest i = .ok d) (hen : ∀ i, bits[i]? = some true → e.en &&& (r i).2 = 0) :
    let res := evalElementwise e ix rd dest bits
    res.stop = none ∧ res.outs = bits.mapIdx (fun i active => if active then some (r i).1 else none) ∧
      ∀ j, res.flags.getLsbD j = true ↔ ∃ i, bits[i]? = some true ∧ (r i).2.getLsbD j = true := by
  unfold evalElementwise
  simpa [flNone] using walk_of_ok (x := 0) (y := 0) (r := r) bits 0 flNone [] fun i hi => by
    obtain ⟨d, hd⟩ := hdest i hi
    rw [Nat.add_zero, hstep i hi]
    change (settle e dest i (r i) >>= fun r => .ok (r, 0, 0)) = _
    rw [settle_of_ok hd (hen i hi)]
    rfl

/-- Outside the listed operations a member is evaluated element by element. -/
theorem Env.member_of_elementwise {v : Env} {e : QEntry} {bits : List Bool}
    (hop : e.op ∉ [VOp.fill, .gatherf, .compress, .expand, .merge, .sum, .minr, .maxr, .scan, .segsum, .dot4]) (hbits : v.maskBits e = .ok bits)
    (prev : List MRes) (m : Nat) : v.member prev m e = evalElementwise e (v.readIndex m e) (v.read prev m e) (v.dest m e) bits := by
  rw [Env.member, hbits]
  cases h : e.op <;> simp_all

end Sys2Proof.Machine

open Sys2Proof Sys2Proof.Machine

/-- Settles O16: the integer results by the lemma of each operation, the elementwise runs by `walk_of_ok`. -/
theorem elementResults : Obligations.ElementResults := by
  unfold Obligations.ElementResults
  refine ⟨fun t k a b c hint ha hb hc => ?integers, fun v prev m e bits a b c hbits hcmp hop hrd => ?runs⟩
  case integers =>
    intro w r
    have harith : ∀ op ∈ [VOp.add, .sub, .mul, .fma, .fms, .abs, .neg, .min, .max, .div, .rem], r op = intElem op t a b c := by
      simp [r, elemOp, hint]
    refine ⟨fun op => elemOp_flags_of_int hint hint op k a b c, ?_⟩
    simp only [List.forall_mem_cons] at harith
    obtain ⟨hadd, hsub, hmul, hfma, hfms, habs, hneg, hmin, hmax, hdiv, hrem, -⟩ := harith
    rw [hadd, hsub, hmul, hfma, hfms, habs, hneg, hmin, hmax, hdiv, hrem]
    refine ⟨rfl, ofInt_natCast_sub _ a hb, rfl, rfl, intElem_fms t a b hc, fun hs => ⟨ofInt_neg_natCast _ ha, ofInt_natAbs_value ha hs⟩,
      value_intMinMax_min t a b, value_intMinMax_max t a b, fun hb0 hfits => ⟨value_intDiv ha hb hb0 hfits, value_intRem ha hb hb0⟩, ?zero,
      intDiv_intRem_of_overflow ha hb, rfl, rfl, fun hs => value_shiftA ha hs _, fun j hj => testBit_rotL ha _ hj, rotL_lt ha _,
      popCount_eq_countP _ a, ?clz, leadZeros_of_ne_zero ha⟩
    case zero =>
      rintro rfl
      exact ⟨intDiv_zero t a, intRem_zero t a⟩
    case clz =>
      rintro rfl
      exact leadZeros_zero w
  case runs =>
    intro x hen
    have hdot : e.op ≠ .dot4 := fun h => hop (by simp [h])
    have hstep : ∀ i, bits[i]? = some true → elemStep e (v.readIndex m e) (v.read prev m e) i = .ok (x i) := fun i hi => by
      obtain ⟨ha, hb, hc, -⟩ := hrd i hi
      exact elemStep_of_ok hdot hcmp _ ha hb hc
    have hdest : ∀ i, bits[i]? = some true → ∃ d, v.dest m e i = .ok d := fun i hi => by
      obtain ⟨-, -, -, hd⟩ := hrd i hi
      exact hd
    rw [Env.member_of_elementwise hop hbits]
    obtain ⟨hstop, houts, hflags⟩ := evalElementwise_of_ok hstep hdest hen
    refine ⟨hstop, ?_, fun i hi => ?_, hflags⟩
    · rw [houts, List.length_mapIdx]
    · rw [houts, List.getElem?_mapIdx, List.getElem?_eq_getElem hi]
      simp

end

section
/-! SUPPORT. The commit point and arming (R145-R149): what the commit point leaves in its half, where the ranges of a run go, what an install
changes, and the settling of O19. -/

namespace Sys2Proof.Machine

open Sys2Proof.Safety

/-! ### Where the ranges of a run go (R148) -/

theorem oneScratch_nil : oneScratch [] = none := rfl

/-- Ranges that lie in one scratchpad reach its filter at once. -/
theorem State.arm_of_oneScratch (s : State) (o : FOwner) {rs : List (Nat × Nat)} (h : (oneScratch rs).isSome = true) :
    s.arm o rs = { s with filters := s.filters ++ s.entriesFor o rs } := by
  have hne : rs.isEmpty = false := by
    cases rs with
    | nil => simp [oneScratch_nil] at h
    | cons r rs => rfl
  simp [State.arm, hne, h]

/-- Other ranges wait at the commit sequencer. -/
theorem State.arm_of_spread (s : State) (o : FOwner) {rs : List (Nat × Nat)} (hne : rs ≠ []) (h : oneScratch rs = none) :
    s.arm o rs = { s with seqQ := s.seqQ ++ [{ owner := o, ranges := rs }] } := by
  simp [State.arm, hne, h]

/-- Arming reaches the filters and the queue of the commit sequencer alone. -/
theorem State.arm_eq (s : State) (o : FOwner) (rs : List (Nat × Nat)) :
    ∃ filters seqQ, s.arm o rs = { s with filters := filters, seqQ := seqQ } := by
  unfold State.arm
  split_ifs
  · exact ⟨s.filters, s.seqQ, rfl⟩
  · exact ⟨_, s.seqQ, rfl⟩
  · exact ⟨s.filters, _, rfl⟩

@[simp] theorem State.bough_arm (s : State) (o : FOwner) (rs : List (Nat × Nat)) (b : BoughId) : (s.arm o rs).bough b = s.bough b := by
  obtain ⟨filters, seqQ, harm⟩ := s.arm_eq o rs
  rw [harm]
  rfl

theorem State.half_arm (s : State) (o : FOwner) (rs : List (Nat × Nat)) (b : BoughId) (h : Fin 2) : (s.arm o rs).half b h = s.half b h :=
  congrArg (fun y : Bough => y.halves[h]) (s.bough_arm o rs b)

/-! ### The commit point (R145-R147) -/

/-- A half past its commit point, with the results res. -/
def Half.armed (x : Half) (res : RunResult) : Half :=
  { x with st := .arming, result := some res, ranges := res.ranges, tags := [], chunks := [] }

/-- Bough y once the run in half h is past its commit point: the port absorbs the tags that are still out. -/
def Bough.armed (y : Bough) (h : Fin 2) (res : RunResult) : Bough :=
  absorbTagsOf { y with halves := vset y.halves h (y.halves[h].armed res) } y.halves[h]

/-- The state past the commit point of half h, before its ranges are sent: `plots` holds the energy spent. -/
def State.pastCommit (s : State) (b : BoughId) (h : Fin 2) (res : RunResult) (plots : Vector Plot 64) : State :=
  { s with plots := plots }.modBough b fun y => y.armed h res

theorem State.half_pastCommit (s : State) (b : BoughId) (h : Fin 2) (res : RunResult) (plots : Vector Plot 64) :
    (s.pastCommit b h res plots).half b h = (s.half b h).armed res :=
  (State.half_modBough _ b h _).trans (vset_get_self ..)

/-- The oldest run, complete, without fault, broken link or receiver, while the other half does not drain, passes its commit point. -/
theorem exec_commitPoint_of_complete {s : State} {b : BoughId} {h : Fin 2} (hst : (s.half b h).st = .filling) (holdest : (s.bough b).isOldest h = true)
    (hother : (s.bough b).halves[otherHalf h].st ≠ .draining) (hstop : firstStop (s.evalRun b h) = none) (hrecvs : (s.half b h).recvs = [])
    (hbroke : (s.half b h).broke = none) :
    ∃ plots, exec (.commitPoint b h) s = .next ((s.pastCommit b h (s.runResult b h (s.evalRun b h)) plots).arm (.half b h)
        (s.runResult b h (s.evalRun b h)).ranges) := by
  change (s.bough b).halves[h].st = _ at hst
  change (s.bough b).halves[h].recvs = _ at hrecvs
  change (s.bough b).halves[h].broke = _ at hbroke
  have hready : ((s.bough b).halves[h].st == .filling && (s.bough b).isOldest h && (s.bough b).halves[otherHalf h].st != .draining &&
      (firstStop (s.evalRun b h)).isNone && (s.bough b).halves[h].broke.isNone &&
      (s.runIdle b h || (s.bough b).halves[h].recvs.all (·.committed))) = true := by
    rw [hst, holdest, hstop, hrecvs, hbroke, bne_iff_ne.mpr hother]
    simp
  obtain ⟨plots, hspend⟩ := s.spend_eq ((s.boughPlot b.val).map (·.plot)) (s.pipeUnits b (s.bough b).halves[h])
  have hnone : ∀ t : State, (s.bough b).halves[h].recvs.foldl (fun s r => if r.cut then s else s.takeEpoch r.link r.epoch) t = t := fun t => by
    rw [hrecvs, List.foldl_nil]
  refine ⟨plots, (if_pos hready).trans ?_⟩
  rw [hspend]
  exact congrArg (fun t => Host.Outcome.next (State.arm t _ _)) (hnone _)

/-! ### Delivering and installing (R148, R149) -/

theorem exec_armRequestAccept_of_waiting {s : State} {n : Nat} {q : ArmReq} (hq : s.seqQ[n]? = some q) :
    exec (.armRequestAccept n) s = .next { s with seqQ := s.seqQ.eraseIdx n, filters := s.filters ++ s.entriesFor q.owner q.ranges } := by
  show execArmRequestAccept n s = _
  unfold execArmRequestAccept
  rw [hq]

theorem installFirst_of_first {tgt : Target} {pre : List FEntry} {e : FEntry} (post : List FEntry)
    (hpre : ∀ x ∈ pre, ¬ (x.tgt = tgt ∧ x.installed = false)) (htgt : e.tgt = tgt) (hnew : e.installed = false) :
    installFirst tgt (pre ++ e :: post) = pre ++ { e with installed := true } :: post := by
  induction pre with
  | nil => simp [installFirst, htgt, hnew]
  | cons x pre ih =>
    have hx : ¬ ((x.tgt == tgt && !x.installed) = true) := by simpa using hpre x List.mem_cons_self
    rw [List.cons_append, installFirst, if_neg hx, ih fun y hy => hpre y (List.mem_cons_of_mem x hy)]
    rfl

/-- The oldest entry delivered to a target, of a half, is installed where the target has room for it. -/
theorem exec_filterInstall_of_first {s : State} {tgt : Target} {pre : List FEntry} {e : FEntry} {post : List FEntry} {b : BoughId} {h : Fin 2}
    (hfilters : s.filters = pre ++ e :: post) (hpre : ∀ x ∈ pre, ¬ (x.tgt = tgt ∧ x.installed = false)) (htgt : e.tgt = tgt)
    (hnew : e.installed = false) (howner : e.owner = .half b h) (hroom : ∀ d, tgt = .scratch d → s.filterCount tgt < 16) :
    exec (.filterInstall tgt) s = .next { s with filters := pre ++ { e with installed := true } :: post } := by
  have hfind : s.filters.find? (fun x => x.tgt == tgt && !x.installed) = some e := by
    rw [List.find?_eq_some_iff_append]
    exact ⟨by simp [htgt, hnew], pre, post, hfilters, fun x hx => by simpa [imp_iff_not_or] using hpre x hx⟩
  show execFilterInstall tgt s = _
  rw [← installFirst_of_first post hpre htgt hnew, ← hfilters]
  cases tgt with
  | slice k => simp [execFilterInstall, hfind, howner]
  | scratch d => simp [execFilterInstall, hfind, howner, hroom d rfl]

/-- A scratchpad's filter that holds 16 entries installs no further one (R149). -/
theorem exec_filterInstall_of_full {s : State} {d : BoughId} (hfull : 16 ≤ s.filterCount (.scratch d)) :
    exec (.filterInstall (.scratch d)) s = .next s := by
  show execFilterInstall (.scratch d) s = _
  unfold execFilterInstall
  split
  · rfl
  · exact if_pos (decide_eq_true hfull)

end Sys2Proof.Machine

open Sys2Proof Sys2Proof.Machine Sys2Proof.Safety

/-- Settles O19: the commit point by `exec_commitPoint_of_complete` and the lemmas of `State.arm`, the install by `installFirst_of_first`. -/
theorem commitArming : Obligations.CommitArming := by
  unfold Obligations.CommitArming
  refine ⟨?commitPoint, fun s n q hq => ?accept, fun s tgt pre e post b h hfilters hpre htgt hnew howner hroom => ?install,
    fun s d => exec_filterInstall_of_full⟩
  case commitPoint =>
    intro s b h y x hst holdest hother hstop hrecvs hbroke
    obtain ⟨plots, hexec⟩ := exec_commitPoint_of_complete hst holdest hother hstop hrecvs hbroke
    refine ⟨_, hexec, ?_⟩
    beta_reduce
    intro res
    have hhalf : ((s.pastCommit b h res plots).arm (.half b h) res.ranges).half b h = (s.half b h).armed res :=
      (State.half_arm ..).trans (s.half_pastCommit b h res plots)
    have hbough : (s.pastCommit b h res plots).bough b = y.armed h res := State.bough_modBough ..
    refine ⟨congrArg Half.st hhalf, congrArg Half.result hhalf, congrArg Half.ranges hhalf, (congrArg Half.run hhalf :), fun hnil => ?_,
      fun hne hspread => ?_, fun hone => ?_, ?_, fun c hc => ?_, ?_⟩
    · rw [hnil]
      exact ⟨rfl, rfl⟩
    · rw [State.arm_of_spread _ _ hne hspread]
      exact ⟨rfl, rfl⟩
    · rw [State.arm_of_oneScratch _ _ hone]
      exact ⟨rfl, rfl⟩
    · rw [State.bough_arm, hbough]
      rfl
    · exact (State.bough_arm ..).trans (State.bough_modBough_ne _ _ hc)
    · obtain ⟨filters, seqQ, harm⟩ := (s.pastCommit b h res plots).arm_eq (.half b h) res.ranges
      rw [harm]
      rfl
  case accept => exact ⟨_, exec_armRequestAccept_of_waiting hq, rfl, rfl, rfl⟩
  case install => exact ⟨_, exec_filterInstall_of_first hfilters hpre htgt hnew howner hroom, rfl, rfl⟩

end

section
/-! SUPPORT. What checks and reads of memory leave on record (R274, R275, R287, R288, R421, R422): the parts of the state that a word's event, a
look at an access and a performed read may change. -/

namespace Sys2Proof.Machine

/-- What every step of a fold keeps, the fold keeps. -/
theorem foldl_rel {α σ : Type} {R : σ → σ → Prop} {f : σ → α → σ} (hrefl : ∀ s, R s s) (htrans : ∀ s t u, R s t → R t u → R s u)
    (hstep : ∀ s a, R s (f s a)) (l : List α) (s : σ) : R s (l.foldl f s) := by
  induction l generalizing s with
  | nil => exact hrefl s
  | cons a l ih => exact htrans s _ _ (hstep s a) (ih _)

/-- From s to t, what events of root memory leave on record has changed alone: stacks, rings, notices and free values. -/
def State.RootLogged (s t : State) : Prop := ∃ hbm ring evts fresh, t = { s with hbm := hbm, ring := ring, crownEvts := evts, fresh := fresh }

/-- From s to t, what events of memory leave on record has changed alone: that of root memory, and the scratchpads'. -/
def State.Logged (s t : State) : Prop :=
  ∃ hbm scr ring evts fresh, t = { s with hbm := hbm, scr := scr, ring := ring, crownEvts := evts, fresh := fresh }

theorem State.RootLogged.refl (s : State) : s.RootLogged s := ⟨s.hbm, s.ring, s.crownEvts, s.fresh, rfl⟩

theorem State.RootLogged.trans (s t u : State) (h : s.RootLogged t) (k : t.RootLogged u) : s.RootLogged u := by
  obtain ⟨_, _, _, _, rfl⟩ := h
  obtain ⟨hbm, ring, evts, fresh, rfl⟩ := k
  exact ⟨hbm, ring, evts, fresh, rfl⟩

theorem State.RootLogged.logged {s t : State} (h : s.RootLogged t) : s.Logged t := by
  obtain ⟨hbm, ring, evts, fresh, rfl⟩ := h
  exact ⟨hbm, s.scr, ring, evts, fresh, rfl⟩

theorem State.Logged.refl (s : State) : s.Logged s := (State.RootLogged.refl s).logged

theorem State.Logged.trans (s t u : State) (h : s.Logged t) (k : t.Logged u) : s.Logged u := by
  obtain ⟨_, _, _, _, _, rfl⟩ := h
  obtain ⟨hbm, scr, ring, evts, fresh, rfl⟩ := k
  exact ⟨hbm, scr, ring, evts, fresh, rfl⟩

theorem State.rootLogged_eccRoot (s : State) (w : Nat) (k : Mark) (scrub count : Bool) : s.RootLogged (s.eccRoot w k scrub count) := by
  unfold State.eccRoot
  extract_lets d syn t i x ue log y
  obtain ⟨ring, hring⟩ := (t.modStack i fun _ => y).ringAdd_eq 20 (b2n (k == .fresh))
  obtain ⟨evts, hnotice⟩ := ((t.modStack i fun _ => y).ringAdd 20 (b2n (k == .fresh))).notice_eq (if ue then x.ueSeen else x.ceSeen) "ROOT_ECC_STATUS"
  rw [hnotice, hring]
  exact ⟨_, ring, evts, _, rfl⟩

theorem State.logged_eccScratch (s : State) (b : BoughId) (w : Nat) (k : Mark) (sweep : Bool) : s.Logged (s.eccScratch b w k sweep) := by
  obtain ⟨scr, ring, evts, fresh, hecc⟩ := s.eccScratch_eq b w k sweep
  exact ⟨s.hbm, scr, ring, evts, fresh, hecc⟩

theorem State.logged_observe (s : State) (a n : Nat) (bg : Bool) : s.Logged (s.observe a n bg) := by
  refine foldl_rel State.Logged.refl State.Logged.trans (fun t w => ?_) _ s
  split
  · exact .refl t
  · split
    · exact (t.rootLogged_eccRoot w _ bg _).logged
    · exact t.logged_eccScratch _ w _ bg
    · exact .refl t

/-- Counting, where it is due, and then spending reach the plots alone. -/
theorem State.spend_meter_eq (s : State) (due : Bool) (p q : Option Nat) (f : Counters → Counters) (units : Nat) :
    ∃ plots, (if due then s.meter p f else s).spend q units = { s with plots := plots } := by
  obtain ⟨plots, hmeter⟩ : ∃ plots, (if due then s.meter p f else s) = { s with plots := plots } := by
    cases due with
    | true => exact s.meter_eq p f
    | false => exact ⟨s.plots, rfl⟩
  rw [hmeter]
  exact State.spend_eq _ q units

theorem State.meterRead_eq (s : State) (p : Option Nat) (n : Nat) : ∃ plots, s.meterRead p n = { s with plots := plots } :=
  s.spend_meter_eq true p p (fun c => { c with rootRd := c.rootRd + (if decide (n ≤ 32) then 32 else 64) }) _

/-- A performed read gives the bytes and the poison of memory, and leaves its words' events and its metering on record. -/
theorem State.performRead_eq (s : State) (r : ReadReq) :
    ∃ hbm scr plots ring evts fresh, s.performRead r =
      ({ s with hbm := hbm, scr := scr, plots := plots, ring := ring, crownEvts := evts, fresh := fresh }, s.mem.chunk r.addr r.len) := by
  obtain ⟨hbm, scr, ring, evts, fresh, hseen⟩ := s.logged_observe r.addr r.len false
  have hmetered : ∃ plots, s.performRead r = ({ s.observe r.addr r.len false with plots := plots }, s.mem.chunk r.addr r.len) := by
    unfold State.performRead
    extract_lets c t p
    split
    · obtain ⟨plots, hmeter⟩ := t.meterRead_eq (t.readPlot r) r.len
      exact ⟨plots, by rw [hmeter]⟩
    · obtain ⟨plots, hmeter⟩ := t.meterScratch_eq _ _ 1
      exact ⟨plots, by rw [hmeter]⟩
    · obtain ⟨plots, hmeter⟩ := t.meterScratch_eq _ _ 1
      exact ⟨plots, by rw [hmeter]⟩
    · obtain ⟨plots, hmeter⟩ := t.spend_meter_eq (p.isSome && p == (t.boughPlot _).map (·.plot)) p p (fun x => { x with scr := x.scr + 64 })
        (t.atVolt (eScratch + eTrunk))
      exact ⟨plots, by rw [hmeter]⟩
    · exact ⟨t.plots, rfl⟩
  obtain ⟨plots, hread⟩ := hmetered
  refine ⟨hbm, scr, plots, ring, evts, fresh, hread.trans ?_⟩
  rw [hseen]

end Sys2Proof.Machine
end

section
/-! SUPPORT. Drains, releases and the filter's demand (R150, R151, R154): which drain write goes next, what a demand does to the drains, what a
held read is answered with, and the settling of O21. -/

namespace Sys2Proof.Machine

open Sys2Proof.Safety

/-! ### The next drain write (R150) -/

/-- The target takes the drain write of granule g of owner o: no older entry holds it there, and a slice has room for it. -/
structure TakesDrain (s : State) (o : FOwner) (tgt : Target) (g : Nat) : Prop where
  target : s.filterTarget (64 * g) = some tgt
  free : olderBlocks o tgt g s.filters = false
  room : ∀ k, tgt = .slice k → s.stageFull k (64 * g) = false

theorem State.nextDrain_of_takes {s : State} {o : FOwner} {tgt : Target} {g : Nat} (h : TakesDrain s o tgt g) (held gs : List Nat) :
    s.nextDrain o held (g :: gs) = some (g, tgt, held ++ gs) := by
  obtain ⟨htarget, hfree, hroom⟩ := h
  cases tgt with
  | slice k => simp [State.nextDrain, htarget, hfree, hroom k rfl]
  | scratch d => simp [State.nextDrain, htarget, hfree]

/-- A write that an older entry holds takes the first hold place of its target, and those behind it go on. -/
theorem State.nextDrain_of_held {s : State} {o : FOwner} {tgt : Target} {g : Nat} (htarget : s.filterTarget (64 * g) = some tgt)
    (hheld : olderBlocks o tgt g s.filters = true) (gs : List Nat) : s.nextDrain o [] (g :: gs) = s.nextDrain o [g] gs := by
  have hplaces : 0 < targetPlaces tgt := by cases tgt <;> simp [targetPlaces]
  simp [State.nextDrain, htarget, hheld, hplaces]

theorem State.nextDrain_of_full {s : State} {o : FOwner} {k : SliceId} {g : Nat} (htarget : s.filterTarget (64 * g) = some (.slice k))
    (hfree : olderBlocks o (.slice k) g s.filters = false) (hfull : s.stageFull k (64 * g) = true) (held gs : List Nat) :
    s.nextDrain o held (g :: gs) = none := by
  simp [State.nextDrain, htarget, hfree, hfull]

theorem exec_drainWriteAccept_of_none {s : State} {b : BoughId} {h : Fin 2} (hnext : s.nextDrain (.half b h) [] (s.half b h).drain = none) :
    exec (.drainWriteAccept b h) s = .next s := by
  show execDrainWriteAccept b h s = _
  simp [execDrainWriteAccept, hnext]

/-- The bytes of granule g that a half writes travel to a slice as a burst with a commit mark (R271, R272). -/
def Half.drainBurst (x : Half) (b : BoughId) (k : SliceId) (g : Nat) : Burst :=
  { txn := 0, who := .journal b, plot := none, slice := k,
    bytes := (((x.result.map RunResult.writes).getD []).flatten).filter fun c => c.1 / 64 = g, bad := [], mark := true }

/-- The drain write of granule g of a half reaches its target. -/
def State.sendDrain (s : State) (b : BoughId) (h : Fin 2) (g : Nat) : Target → State
  | .slice k => (s.modSlice k fun q => { q with wr := q.wr + 1, writing := q.writing ++ [(s.half b h).drainBurst b k g] }).countLeave (groveOf b) (64 * g)
  | .scratch _ => s.countLeave (groveOf b) (64 * g)

theorem State.sendDrain_eq (s : State) (b : BoughId) (h : Fin 2) (g : Nat) (tgt : Target) :
    ∃ slices groves, s.sendDrain b h g tgt = { s with slices := slices, groves := groves } := by
  cases tgt with
  | slice k =>
    obtain ⟨groves, hleave⟩ := State.countLeave_eq (s.modSlice k _) (groveOf b) (64 * g)
    exact ⟨_, groves, hleave⟩
  | scratch d =>
    obtain ⟨groves, hleave⟩ := s.countLeave_eq (groveOf b) (64 * g)
    exact ⟨s.slices, groves, hleave⟩

theorem exec_drainWriteAccept_of_next {s : State} {b : BoughId} {h : Fin 2} (hst : (s.half b h).st = .draining) {g : Nat} {tgt : Target} {rest : List Nat}
    (hnext : s.nextDrain (.half b h) [] (s.half b h).drain = some (g, tgt, rest)) :
    exec (.drainWriteAccept b h) s = .next (((s.sendDrain b h g tgt).setHalf b h { s.half b h with drain := rest }).tryFree b h) := by
  show execDrainWriteAccept b h s = _
  have hdrain : (if (s.half b h).st == .draining then s.nextDrain (.half b h) [] (s.half b h).drain else none) = some (g, tgt, rest) := by
    rw [hst, hnext]
    rfl
  rw [execDrainWriteAccept]
  simp only [hdrain]
  cases tgt <;> rfl

/-! ### The half after a drain write (R150, R154) -/

theorem State.half_setHalf (s : State) (b : BoughId) (h : Fin 2) (x : Half) : (s.setHalf b h x).half b h = x :=
  (s.half_modBough b h _).trans (vset_get_self ..)

theorem onlyBough_setHalf (s : State) (b : BoughId) (h : Fin 2) (x : Half) : OnlyBough b s (s.setHalf b h x) := onlyBough_modBough s b _

theorem State.tryFree_of_drain {s : State} {b : BoughId} {h : Fin 2} (hdrain : (s.half b h).drain ≠ []) : s.tryFree b h = s := by
  simp [State.tryFree, hdrain]

theorem State.tryFree_of_drained {s : State} {b : BoughId} {h : Fin 2} (hst : (s.half b h).st = .draining) (hdrain : (s.half b h).drain = [])
    (htaken : (s.half b h).sends.all (·.taken) = true) :
    s.tryFree b h = { s.setHalf b h Half.free with
      filters := s.filters.map fun e => if e.owner = .half b h then { e with released := true } else e } := by
  simp only [State.tryFree, hst, hdrain, htaken]
  rfl

/-- The state after the drain write of granule g, with the granules that are left. -/
def State.drainSent (s : State) (b : BoughId) (h : Fin 2) (g : Nat) (tgt : Target) (rest : List Nat) : State :=
  (s.sendDrain b h g tgt).setHalf b h { s.half b h with drain := rest }

theorem State.half_drainSent (s : State) (b : BoughId) (h : Fin 2) (g : Nat) (tgt : Target) (rest : List Nat) :
    (s.drainSent b h g tgt rest).half b h = { s.half b h with drain := rest } :=
  State.half_setHalf ..

theorem State.drainSent_eq (s : State) (b : BoughId) (h : Fin 2) (g : Nat) (tgt : Target) (rest : List Nat) :
    ∃ slices groves, s.drainSent b h g tgt rest = { s.setHalf b h { s.half b h with drain := rest } with slices := slices, groves := groves } := by
  obtain ⟨slices, groves, hsent⟩ := s.sendDrain_eq b h g tgt
  refine ⟨slices, groves, ?_⟩
  rw [State.drainSent, hsent]
  rfl

/-- While granules are left, a drain write takes its granule from the drain and leaves entries and memory. -/
theorem runsTo_drainWriteAccept_of_more {s : State} {b : BoughId} {h : Fin 2} (hst : (s.half b h).st = .draining) {g : Nat} {tgt : Target}
    {rest : List Nat} (hnext : s.nextDrain (.half b h) [] (s.half b h).drain = some (g, tgt, rest)) (hrest : rest ≠ []) :
    RunsTo (.drainWriteAccept b h) s fun s' => s'.half b h = { s.half b h with drain := rest } ∧ s'.filters = s.filters ∧ s'.mem = s.mem ∧
      OnlyBough b s { s' with slices := s.slices, groves := s.groves } := by
  have hhalf := s.half_drainSent b h g tgt rest
  have hkeeps : (s.drainSent b h g tgt rest).tryFree b h = s.drainSent b h g tgt rest := State.tryFree_of_drain (by rwa [hhalf])
  refine ⟨_, (exec_drainWriteAccept_of_next hst hnext).trans (congrArg Host.Outcome.next hkeeps), hhalf, ?_⟩
  obtain ⟨slices, groves, hsent⟩ := s.drainSent_eq b h g tgt rest
  rw [hsent]
  exact ⟨rfl, rfl, onlyBough_setHalf s b h { s.half b h with drain := rest }⟩

/-- With the last granule the half is free and its entries are released. -/
theorem runsTo_drainWriteAccept_of_last {s : State} {b : BoughId} {h : Fin 2} (hst : (s.half b h).st = .draining) {g : Nat} {tgt : Target}
    (hnext : s.nextDrain (.half b h) [] (s.half b h).drain = some (g, tgt, [])) (htaken : (s.half b h).sends.all (·.taken) = true) :
    RunsTo (.drainWriteAccept b h) s fun s' => s'.half b h = Half.free ∧
      s'.filters = s.filters.map (fun e => if e.owner = .half b h then { e with released := true } else e) ∧ s'.mem = s.mem ∧
      OnlyBough b s { s' with slices := s.slices, groves := s.groves, filters := s.filters } := by
  have hhalf := s.half_drainSent b h g tgt []
  have hfreed := State.tryFree_of_drained (s := s.drainSent b h g tgt []) (b := b) (h := h) (by rwa [hhalf]) (by rw [hhalf]) (by rwa [hhalf])
  refine ⟨_, (exec_drainWriteAccept_of_next hst hnext).trans (congrArg Host.Outcome.next hfreed), State.half_setHalf .., ?_⟩
  obtain ⟨slices, groves, hsent⟩ := s.drainSent_eq b h g tgt []
  rw [hsent]
  exact ⟨rfl, rfl, onlyBough_trans (onlyBough_setHalf s b h { s.half b h with drain := [] }) (onlyBough_setHalf _ b h Half.free)⟩

/-! ### Releases (R154) -/

theorem retireNth_zero_of_first {tgt : Target} {pre : List FEntry} {e : FEntry} (post : List FEntry)
    (hpre : ∀ x ∈ pre, ¬ (x.tgt = tgt ∧ x.released = true)) (htgt : e.tgt = tgt) (hreleased : e.released = true) :
    retireNth tgt 0 (pre ++ e :: post) = pre ++ post := by
  induction pre with
  | nil => simp [retireNth, htgt, hreleased]
  | cons x pre ih =>
    have hx : ¬ ((x.tgt == tgt && x.released) = true) := by simpa using hpre x List.mem_cons_self
    rw [List.cons_append, retireNth, if_neg hx, ih fun y hy => hpre y (List.mem_cons_of_mem x hy)]
    rfl

/-! ### What a demand does to the drains (R151) -/

theorem perm_demandFirst (gs drain : List Nat) : (demandFirst gs drain).Perm drain :=
  List.filter_append_perm (fun g => gs.contains g) drain

theorem head?_demandFirst {g : Nat} {drain : List Nat} (hg : g ∈ drain) : (demandFirst [g] drain).head? = some g := by
  have hfirst : drain.filter (fun x => [g].contains x) ≠ [] := List.ne_nil_of_mem (List.mem_filter.mpr ⟨hg, by simp⟩)
  obtain ⟨x, xs, hcons⟩ := List.exists_cons_of_ne_nil hfirst
  have hx : x ∈ drain.filter fun x => [g].contains x := hcons ▸ List.mem_cons_self
  have hxg : x = g := by simpa using (List.mem_filter.mp hx).2
  rw [demandFirst, hcons, hxg]
  rfl

/-- A half that is asked for granule g: where it drains, g goes ahead. -/
def Half.demanded (g : Nat) (x : Half) : Half := if x.st == .draining then { x with drain := demandFirst [g] x.drain } else x

/-- Half y is half x with its drain in another order, in which a granule g at the head of x stays there. -/
structure Half.Reordered (g : Nat) (x y : Half) : Prop where
  frame : y = { x with drain := y.drain }
  perm : y.drain.Perm x.drain
  head : x.drain.head? = some g → y.drain.head? = some g

theorem Half.Reordered.refl (g : Nat) (x : Half) : Half.Reordered g x x := ⟨rfl, .rfl, id⟩

theorem Half.Reordered.trans {g : Nat} {x y z : Half} (h : Half.Reordered g x y) (k : Half.Reordered g y z) : Half.Reordered g x z :=
  ⟨by rw [k.frame, h.frame], k.perm.trans h.perm, fun hx => k.head (h.head hx)⟩

theorem Half.reordered_demanded (g : Nat) (x : Half) : Half.Reordered g x (x.demanded g) := by
  unfold Half.demanded
  split_ifs
  · exact ⟨rfl, perm_demandFirst _ _, fun hx => head?_demandFirst (List.mem_of_mem_head? hx)⟩
  · exact .refl g x

theorem Half.head?_demanded {g : Nat} {x : Half} (hst : x.st = .draining) (hg : g ∈ x.drain) : (x.demanded g).drain.head? = some g := by
  rw [Half.demanded, hst]
  exact head?_demandFirst hg

/-- From s to s' the order of drains has changed alone, and granule g has kept the head where it had it. -/
structure OnlyDrains (g : Nat) (s s' : State) : Prop where
  frame : s' = { s with boughs := s'.boughs }
  bough : ∀ b, { s'.bough b with halves := (s.bough b).halves } = s.bough b
  half : ∀ b h, Half.Reordered g (s.half b h) (s'.half b h)

theorem OnlyDrains.refl (g : Nat) (s : State) : OnlyDrains g s s := ⟨rfl, fun _ => rfl, fun _ _ => .refl g _⟩

theorem OnlyDrains.trans {g : Nat} {s t u : State} (h : OnlyDrains g s t) (k : OnlyDrains g t u) : OnlyDrains g s u := by
  refine ⟨k.frame.trans (congrArg (fun x : State => { x with boughs := u.boughs }) h.frame), fun b => ?_, fun b i => (h.half b i).trans (k.half b i)⟩
  · have hbough := h.bough b
    rw [← k.bough b] at hbough
    exact hbough

theorem onlyDrains_modHalf_demanded (g : Nat) (s : State) (b : BoughId) (h : Fin 2) : OnlyDrains g s (s.modHalf b h (Half.demanded g)) := by
  refine ⟨rfl, fun c => ?_, fun c k => ?_⟩
  · by_cases hc : c = b
    · subst hc
      rw [State.bough_modHalf]
    · rw [State.bough_modHalf_ne s h _ hc]
  · by_cases hc : c = b
    · subst hc
      have hget : (s.modHalf c h (Half.demanded g)).half c k = if k = h then (s.half c h).demanded g else s.half c k :=
        (s.half_modBough c k _).trans (vset_get ..)
      rw [hget]
      split_ifs with hk
      · rw [hk]
        exact Half.reordered_demanded g _
      · exact .refl g _
    · have hget : (s.modHalf b h (Half.demanded g)).half c k = s.half c k :=
        congrArg (fun y : Bough => y.halves[k]) (State.bough_modHalf_ne s h _ hc)
      rw [hget]
      exact .refl g _

/-- The entry is installed at the target and covers granule g. -/
def FEntry.Covers (e : FEntry) (tgt : Target) (g : Nat) : Prop := e.tgt = tgt ∧ e.installed = true ∧ e.lo ≤ g ∧ g ≤ e.hi

/-- The owner of one entry is asked for granule g, if the entry covers it. -/
def State.demandOf (s : State) (tgt : Target) (g : Nat) (e : FEntry) : State :=
  if e.tgt == tgt && e.installed && decide (e.lo ≤ g) && decide (g ≤ e.hi) then
    match e.owner with
    | .half b h => s.modHalf b h (Half.demanded g)
    | .txn _ => s
  else s

theorem State.demand_eq_foldl (s : State) (tgt : Target) (g : Nat) : s.demand tgt g = s.filters.foldl (fun s e => s.demandOf tgt g e) s := rfl

theorem State.demandOf_onlyDrains (s : State) (tgt : Target) (g : Nat) (e : FEntry) : OnlyDrains g s (s.demandOf tgt g e) := by
  unfold State.demandOf
  split_ifs
  · split
    · exact onlyDrains_modHalf_demanded g s _ _
    · exact .refl g s
  · exact .refl g s

theorem State.demandOf_of_covers {s : State} {tgt : Target} {g : Nat} {e : FEntry} {b : BoughId} {h : Fin 2} (howner : e.owner = .half b h)
    (hcovers : e.Covers tgt g) : s.demandOf tgt g e = s.modHalf b h (Half.demanded g) := by
  obtain ⟨htgt, hinstalled, hlo, hhi⟩ := hcovers
  simp [State.demandOf, howner, htgt, hinstalled, hlo, hhi]

theorem onlyDrains_foldl_demandOf (tgt : Target) (g : Nat) (es : List FEntry) (s : State) :
    OnlyDrains g s (es.foldl (fun s e => s.demandOf tgt g e) s) := by
  induction es generalizing s with
  | nil => exact .refl g s
  | cons e es ih => exact (s.demandOf_onlyDrains tgt g e).trans (ih _)

/-- A half that drains granule g and owns an entry that covers it has g at the head of its drain once the owners are asked. -/
theorem head?_foldl_demandOf {tgt : Target} {g : Nat} {es : List FEntry} {s : State} {b : BoughId} {h : Fin 2} (hst : (s.half b h).st = .draining)
    (hg : g ∈ (s.half b h).drain) (hentry : ∃ e ∈ es, e.owner = .half b h ∧ e.Covers tgt g) :
    ((es.foldl (fun s e => s.demandOf tgt g e) s).half b h).drain.head? = some g := by
  induction es generalizing s with
  | nil => simp at hentry
  | cons e es ih =>
    rw [List.foldl_cons]
    obtain ⟨hframe, hperm, -⟩ := (s.demandOf_onlyDrains tgt g e).half b h
    obtain ⟨x, hx, howner, hcovers⟩ := hentry
    rcases List.mem_cons.mp hx with rfl | hx
    · refine ((onlyDrains_foldl_demandOf tgt g es _).half b h).head ?_
      rw [State.demandOf_of_covers howner hcovers, State.half_modHalf]
      exact Half.head?_demanded hst hg
    · exact ih (by rw [hframe]; exact hst) (hperm.mem_iff.mpr hg) ⟨x, hx, howner, hcovers⟩

/-- The state with one more read held at a target. -/
def State.heldMore (s : State) (tgt : Target) (r : ReadReq) : State :=
  { s with heldReads := s.heldReads ++ [{ tgt := tgt, req := r, ord := s.nextId }], nextId := s.nextId + 1 }

theorem State.holdRead_onlyDrains (s : State) (tgt : Target) (r : ReadReq) : OnlyDrains (r.addr / 64) (s.heldMore tgt r) (s.holdRead tgt r) :=
  onlyDrains_foldl_demandOf tgt _ s.filters (s.heldMore tgt r)

/-- Read r is held at the target, and the half that drains its granule under an entry there has it at the head of its drain. -/
structure Asked (tgt : Target) (r : ReadReq) (s s' : State) : Prop where
  held : s'.heldReads = s.heldReads ++ [{ tgt := tgt, req := r, ord := s.nextId }]
  nextId : s'.nextId = s.nextId + 1
  bough : ∀ b, { s'.bough b with halves := (s.bough b).halves } = s.bough b
  half : ∀ b h, Half.Reordered (r.addr / 64) (s.half b h) (s'.half b h)
  head : ∀ b h, r.addr / 64 ∈ (s.half b h).drain → (s.half b h).st = .draining →
    (∃ e ∈ s.filters, e.owner = .half b h ∧ e.Covers tgt (r.addr / 64)) → (s'.half b h).drain.head? = some (r.addr / 64)

theorem State.asked_holdRead (s : State) (tgt : Target) (r : ReadReq) : Asked tgt r s (s.holdRead tgt r) := by
  obtain ⟨hframe, hbough, hhalf⟩ := s.holdRead_onlyDrains tgt r
  exact ⟨by rw [hframe]; rfl, by rw [hframe]; rfl, hbough, hhalf, fun b h hg hst hentry => head?_foldl_demandOf (s := s.heldMore tgt r) hst hg hentry⟩

theorem State.asked_modSlice_holdRead (s : State) (k : SliceId) (f : Slice → Slice) (tgt : Target) (r : ReadReq) :
    Asked tgt r s ((s.modSlice k f).holdRead tgt r) := by
  obtain ⟨hheld, hid, hbough, hhalf, hhead⟩ := (s.modSlice k f).asked_holdRead tgt r
  exact ⟨hheld, hid, hbough, hhalf, hhead⟩

theorem State.asked_modScr_holdRead (s : State) (d : BoughId) (f : Scratch → Scratch) (tgt : Target) (r : ReadReq) :
    Asked tgt r s ((s.modScr d f).holdRead tgt r) := by
  obtain ⟨hheld, hid, hbough, hhalf, hhead⟩ := (s.modScr d f).asked_holdRead tgt r
  exact ⟨hheld, hid, hbough, hhalf, hhead⟩

/-- Holding a read reaches the hold stores, the request numbers and the boughs alone. -/
theorem State.holdRead_eq (s : State) (tgt : Target) (r : ReadReq) : ∃ boughs, s.holdRead tgt r = { s.heldMore tgt r with boughs := boughs } :=
  ⟨_, (s.holdRead_onlyDrains tgt r).frame⟩

/-- Putting back what an entry held undoes an update of it. -/
theorem vmod_undo {α : Type} {n : Nat} (v : Vector α n) (i : Fin n) (f : α → α) : (vmod v i f).set i.val v[i] i.isLt = v :=
  (vset_vset v i (f v[i]) v[i]).trans (vset_same v i)

theorem exec_filterHitDemand_of_slice {s : State} {k : SliceId} {n : Nat} {r : ReadReq} {rest : List SliceMsg} (hinbox : s.slices[k].inbox = .read r :: rest)
    (hcovers : s.entryCovers (.slice k) r.addr = true) (hroom : (s.heldAt (.slice k)).length < targetPlaces (.slice k)) :
    exec (.filterHitDemand (.slice k) n) s = .next ((s.modSlice k fun x => { x with inbox := rest }).holdRead (.slice k) r) := by
  show execFilterHitDemand (.slice k) n s = _
  simp only [targetPlaces] at hroom
  simp only [execFilterHitDemand, hinbox, hcovers, hroom]
  rfl

theorem exec_filterHitDemand_of_scratch {s : State} {d : BoughId} {n : Nat} {r : ReadReq} (hinbox : s.scr[d].inbox[n]? = some r)
    (hcovers : s.entryCovers (.scratch d) r.addr = true) (horder : s.scratchInOrder d r = true)
    (hroom : (s.heldAt (.scratch d)).length < targetPlaces (.scratch d)) :
    exec (.filterHitDemand (.scratch d) n) s = .next ((s.modScr d fun x => { x with inbox := x.inbox.eraseIdx n }).holdRead (.scratch d) r) := by
  show execFilterHitDemand (.scratch d) n s = _
  simp only [targetPlaces] at hroom
  simp only [execFilterHitDemand, hinbox, hcovers, horder, hroom]
  rfl

/-! ### The answer (R151) -/

theorem length_dropHeld {tgt : Target} {n : Nat} {xs : List HeldRead} {x : HeldRead} (hx : (xs.filter fun y => y.tgt == tgt)[n]? = some x) :
    (dropHeld tgt n xs).length + 1 = xs.length := by
  induction xs generalizing n with
  | nil => simp at hx
  | cons y ys ih =>
    unfold dropHeld
    by_cases hy : (y.tgt == tgt) = true
    · rw [List.filter_cons, if_pos hy] at hx
      rw [if_pos hy]
      cases n with
      | zero => rfl
      | succ n => exact congrArg (· + 1) (ih hx)
    · rw [List.filter_cons, if_neg hy] at hx
      rw [if_neg hy]
      exact congrArg (· + 1) (ih hx)

theorem exec_demandAnswer_of_unserved {s : State} {tgt : Target} {n : Nat} {x : HeldRead} (hx : (s.heldAt tgt)[n]? = some x)
    (hserve : s.entriesServe tgt x.req.addr = false) : exec (.demandAnswer tgt n) s = .next s := by
  show execDemandAnswer tgt n s = _
  simp [execDemandAnswer, hx, hserve]

/-- The read that a slice has held leaves its hold store and is counted. -/
def State.unheld (s : State) (k : SliceId) (n : Nat) : State :=
  { s with heldReads := dropHeld (.slice k) n s.heldReads }.modSlice k fun q => { q with rd := q.rd + 1 }

theorem exec_demandAnswer_of_served {s : State} {k : SliceId} {n : Nat} {x : HeldRead} (hx : (s.heldAt (.slice k))[n]? = some x)
    (hserve : s.entriesServe (.slice k) x.req.addr = true) (hfirst : s.writeHeldAt (.slice k) x.req.addr x.ord = false) :
    exec (.demandAnswer (.slice k) n) s = .next (((s.unheld k n).performRead x.req).1.respond x.req ((s.unheld k n).performRead x.req).2) := by
  show execDemandAnswer (.slice k) n s = _
  simp only [execDemandAnswer, hx, hserve, hfirst]
  rfl

end Sys2Proof.Machine

open Sys2Proof Sys2Proof.Machine Sys2Proof.Safety

/-- Settles O21: drain writes by `State.nextDrain_of_takes` and `State.nextDrain_of_held`, releases by `retireNth_zero_of_first`, the demand by
`State.asked_holdRead`, the answer by `State.performRead_eq`. -/
theorem drainAndRelease : Obligations.DrainAndRelease := by
  unfold Obligations.DrainAndRelease
  refine ⟨⟨?drain, fun s tgt pre e post hfilters hpre htgt hreleased => ?release⟩, ?demand, fun s tgt n x => exec_demandAnswer_of_unserved,
    fun s k n b h key tag a len o hx hserve hfirst => ?answer⟩
  case drain =>
    intro s b h g tgt x hst htarget free rest
    have htakes : free → TakesDrain s (.half b h) tgt g := fun hfree => ⟨htarget, hfree.1, hfree.2⟩
    refine ⟨fun g2 gs hdrain hfree => ?_, fun g1 tgt1 gs hdrain htarget1 hheld hfree => ?_, fun hdrain htaken hfree => ?_, fun hdrain hheld => ?_,
      fun k hhead hslice hfull hfree => ?_⟩
    · have hnext := State.nextDrain_of_takes (htakes hfree) [] (g2 :: gs)
      exact runsTo_drainWriteAccept_of_more hst ((congrArg _ hdrain).trans hnext) (List.cons_ne_nil g2 gs)
    · have hnext := (State.nextDrain_of_held htarget1 hheld _).trans (State.nextDrain_of_takes (htakes hfree) [g1] gs)
      exact runsTo_drainWriteAccept_of_more hst ((congrArg _ hdrain).trans hnext) (List.cons_ne_nil g1 gs)
    · have hnext := State.nextDrain_of_takes (htakes hfree) [] []
      exact runsTo_drainWriteAccept_of_last hst ((congrArg _ hdrain).trans hnext) htaken
    · exact exec_drainWriteAccept_of_none ((congrArg _ hdrain).trans (State.nextDrain_of_held htarget hheld []))
    · subst hslice
      obtain ⟨gs, hdrain⟩ := List.head?_eq_some_iff.mp hhead
      exact exec_drainWriteAccept_of_none ((congrArg _ hdrain).trans (State.nextDrain_of_full htarget hfree hfull [] gs))
  case release =>
    refine ⟨_, rfl, ?_, rfl⟩
    rw [← retireNth_zero_of_first post hpre htgt hreleased, ← hfilters]
  case demand =>
    intro s tgt n r hcovers hroom asked
    have hasked : ∀ s', Asked tgt r s s' → asked s' := fun s' h => ⟨h.held, h.nextId, h.bough, fun b i =>
      ⟨(h.half b i).frame, (h.half b i).perm, fun hg hst ⟨e, he, howner, hcovers⟩ => h.head b i hg hst ⟨e, he, howner, hcovers⟩⟩⟩
    refine ⟨fun k rest htgt hinbox => ?_, fun d htgt hinbox horder => ?_⟩
    · subst htgt
      refine ⟨_, exec_filterHitDemand_of_slice hinbox hcovers hroom, hasked _ (s.asked_modSlice_holdRead k _ _ r), ?_⟩
      obtain ⟨boughs, hheld⟩ := (s.modSlice k fun x => { x with inbox := rest }).holdRead_eq (.slice k) r
      rw [hheld]
      exact ⟨congrArg Slice.inbox (vmod_get_self s.slices k _), congrArg (fun v => { s with slices := v }) (vmod_undo s.slices k _)⟩
    · subst htgt
      refine ⟨_, exec_filterHitDemand_of_scratch hinbox hcovers horder hroom, hasked _ (s.asked_modScr_holdRead d _ _ r), ?_⟩
      obtain ⟨boughs, hheld⟩ := (s.modScr d fun x => { x with inbox := x.inbox.eraseIdx n }).holdRead_eq (.scratch d) r
      rw [hheld]
      exact ⟨congrArg Scratch.inbox (vmod_get_self s.scr d _), congrArg (fun v => { s with scr := v }) (vmod_undo s.scr d _)⟩
  case answer =>
    have hexec := exec_demandAnswer_of_served hx hserve hfirst
    obtain ⟨hbm, scr, plots, ring, evts, fresh, hread⟩ := (s.unheld k n).performRead_eq { tag := tag, who := .stream b h key, addr := a, len := len }
    rw [hread] at hexec
    refine ⟨_, hexec, ⟨_, congrArg Bough.resps (State.bough_modBough ..), rfl, rfl, rfl, rfl, rfl⟩, rfl, length_dropHeld hx, ?_⟩
    exact congrArg Slice.rd (vmod_get_self s.slices k _)

end

section
/-! SUPPORT. The root slices (R151, R152, R262, R269-R275): what an accepted read binds, where a returned access goes, what a staged or committed
burst leaves in its slice and in memory, and the settling of O26. -/

namespace Sys2Proof.Machine

open Sys2Proof.Safety

/-! ### Accepting reads (R262, R269) -/

/-- The slice once it has bound the value c to the read at the head of its trunk input. -/
def Slice.binds (x : Slice) (r : ReadReq) (rest : List SliceMsg) (c : Chunk) : Slice :=
  { x with inbox := rest, rd := x.rd + 1, queue := x.queue ++ [{ req := r, data := c.data, poison := c.poison }] }

section
variable {s : State} {k : SliceId} {r : ReadReq} {rest : List SliceMsg} (hinbox : s.slices[k].inbox = .read r :: rest)
include hinbox

theorem exec_sliceAcceptRequest_of_held
    (hheld : s.entryCovers (.slice k) r.addr = true ∨ s.writeHeldAt (.slice k) r.addr s.nextId = true ∨ 256 ≤ s.queuedAt k) :
    exec (.sliceAcceptRequest k) s = .next s := by
  show execSliceAcceptRequest k s = _
  have hwaits : (s.entryCovers (.slice k) r.addr || s.writeHeldAt (.slice k) r.addr s.nextId || decide (256 ≤ s.queuedAt k)) = true := by
    simpa [or_assoc] using hheld
  rw [execSliceAcceptRequest]
  simp only [hinbox, hwaits, if_true]

variable (hcovers : s.entryCovers (.slice k) r.addr = false) (hwrite : s.writeHeldAt (.slice k) r.addr s.nextId = false) (hqueued : s.queuedAt k < 256)
include hcovers hwrite hqueued

theorem exec_sliceAcceptRequest_of_full (hfull : 16 ≤ s.waitingAt k r.addr) :
    exec (.sliceAcceptRequest k) s = .next (s.modSlice k fun x => { x with wait := x.wait + 1 }) := by
  show execSliceAcceptRequest k s = _
  rw [execSliceAcceptRequest]
  simp only [hinbox, hcovers, hwrite, Nat.not_le.mpr hqueued, hfull]
  rfl

theorem exec_sliceAcceptRequest_of_room (hroom : s.waitingAt k r.addr < 16) :
    exec (.sliceAcceptRequest k) s = .next ((s.performRead r).1.modSlice k fun x => x.binds r rest (s.performRead r).2) := by
  show execSliceAcceptRequest k s = _
  rw [execSliceAcceptRequest]
  simp only [hinbox, hcovers, hwrite, Nat.not_le.mpr hqueued, Nat.not_le.mpr hroom]
  rfl

end

/-! ### Marks of words (R274, R275) -/

theorem find_insertMark (w x : Nat) (k : Mark) (l : List (Nat × Mark)) :
    (insertMark w k l).find? (fun c => decide (c.1 = x)) = if x = w then some (w, k) else l.find? fun c => decide (c.1 = x) := by
  induction l with
  | nil => by_cases hx : x = w <;> simp [insertMark, hx, eq_comm]
  | cons c l ih =>
    rw [insertMark]
    rcases lt_trichotomy w c.1 with hlt | heq | hgt
    · by_cases hx : x = w <;> simp [hlt, hx, eq_comm]
    · by_cases hx : x = w <;> simp [← heq, hx, eq_comm]
    · rw [if_neg (by omega), if_neg (by omega), List.find?_cons, List.find?_cons, ih]
      by_cases hx : x = w
      · simp [hx, hgt.ne]
      · simp [hx]

theorem Memory.markOf_setMark_some (m : Memory) (w x : Nat) (k : Mark) : (m.setMark w (some k)).markOf x = if x = w then some k else m.markOf x := by
  have hfind : (m.setMark w (some k)).marks.find? (fun c => decide (c.1 = x)) = if x = w then some (w, k) else m.marks.find? fun c => decide (c.1 = x) :=
    find_insertMark w x k m.marks
  unfold Memory.markOf
  rw [hfind]
  by_cases hx : x = w
  · rw [if_pos hx, if_pos hx]
  · rw [if_neg hx, if_neg hx]
    rfl

/-- Memory with one mark set at each of a list of words. -/
def Memory.setMarks (m : Memory) (k : Mark) (ws : List Nat) : Memory := ws.foldl (fun m w => m.setMark w (some k)) m

theorem Memory.markOf_setMarks {k : Mark} {ws : List Nat} {x : Nat} (m : Memory) (h : x ∈ ws ∨ m.markOf x = some k) :
    (m.setMarks k ws).markOf x = some k := by
  induction ws generalizing m with
  | nil => exact h.resolve_left List.not_mem_nil
  | cons w ws ih =>
    refine ih (m.setMark w (some k)) ?_
    rw [Memory.markOf_setMark_some]
    by_cases hx : x = w
    · exact .inr (if_pos hx)
    · simpa [hx] using h

/-- Marks are no part of what a byte reads as. -/
theorem Memory.read_setMarks (m : Memory) (k : Mark) (ws : List Nat) (x : Nat) : (m.setMarks k ws).read x = m.read x :=
  Memory.read_foldl _ (fun m w x => m.read_setMark w (some k) x) ws m x

/-! ### What an access returns (R270, R274, R275) -/

theorem State.rootLogged_freshAll (s : State) (ws : List Nat) : s.RootLogged (s.freshAll ws) :=
  foldl_rel State.RootLogged.refl State.RootLogged.trans (fun t w => t.rootLogged_eccRoot w .fresh false false) ws s

/-- The state once an access to the words ws ends, with `par` parity errors on its way: a second one is on record for every word. -/
def State.parityChecked (s : State) (par : Fin 3) (ws : List Nat) : State := if par = 2 then s.freshAll ws else s

theorem State.parityChecked_of_ne (s : State) {par : Fin 3} (h : par ≠ 2) (ws : List Nat) : s.parityChecked par ws = s := if_neg h

theorem State.rootLogged_parityChecked (s : State) (par : Fin 3) (ws : List Nat) : s.RootLogged (s.parityChecked par ws) := by
  unfold State.parityChecked
  split_ifs
  · exact s.rootLogged_freshAll ws
  · exact .refl s

/-- The poison that a queued read returns with: what was bound, and what the way back found bad. -/
def QRead.poisonBack (q : QRead) (par : Fin 3) (bad : BitVec 8) : List Bool :=
  if par = 2 then q.poison.map fun _ => true else tagWords q.poison bad

theorem QRead.length_poisonBack (q : QRead) (par : Fin 3) (bad : BitVec 8) : (q.poisonBack par bad).length = q.poison.length := by
  unfold QRead.poisonBack tagWords
  split_ifs <;> simp

theorem QRead.getElem?_poisonBack (q : QRead) (par : Fin 3) (bad : BitVec 8) {j : Nat} {p : Bool} (hp : q.poison[j]? = some p) :
    (q.poisonBack par bad)[j]? = some (p || decide (par = 2) || bad.getLsbD j) := by
  obtain ⟨hj, -⟩ := List.getElem?_eq_some_iff.mp hp
  unfold QRead.poisonBack tagWords
  split_ifs with hpar
  · simp [hpar, hj]
  · simp [hp, hpar, List.getElem?_range hj]

/-- What a queued read returns. -/
def QRead.back (q : QRead) (par : Fin 3) (bad : BitVec 8) : Chunk :=
  { key := ⟨0, 0, false⟩, base := q.req.addr, data := q.data, poison := q.poisonBack par bad, fault := none }

section
variable {s : State} {k : SliceId} {n : Nat} {q : QRead} (hq : s.slices[k].queue[n]? = some q) (par : Fin 3) (bad : BitVec 8)
include hq

theorem exec_targetAccessComplete_of_younger (hold : ∃ p ∈ s.slices[k].queue.take n, p.req.addr / 64 = q.req.addr / 64) :
    exec (.targetAccessComplete k ⟨n, par, bad⟩) s = .next s := by
  have hold : (s.slices[k].queue.take n).any (fun p => decide (p.req.addr / 64 = q.req.addr / 64)) = true := by simpa using hold
  show execTargetAccessComplete k ⟨n, par, bad⟩ s = _
  rw [execTargetAccessComplete]
  simp only [hq, hold, if_true]

theorem exec_targetAccessComplete_of_oldest (hfirst : ∀ p ∈ s.slices[k].queue.take n, p.req.addr / 64 ≠ q.req.addr / 64) :
    exec (.targetAccessComplete k ⟨n, par, bad⟩) s =
      .next (((s.parityChecked par (wordSpan q.req.addr q.req.len)).modSlice k fun x => { x with queue := x.queue.eraseIdx n }).respond q.req
        (q.back par bad)) := by
  have hfirst : (s.slices[k].queue.take n).any (fun p => decide (p.req.addr / 64 = q.req.addr / 64)) = false := by simpa using hfirst
  show execTargetAccessComplete k ⟨n, par, bad⟩ s = _
  rw [execTargetAccessComplete]
  simp only [hq, hfirst]
  rfl

end

/-- Beyond the queued reads the numbers name the committed bursts: one ends (R271, R275). -/
def State.writeEnded (s : State) (k : SliceId) (i : Nat) (par : Fin 3) : State :=
  match s.slices[k].writing[i]? with
  | some b => if par = 2 then (s.modMem fun m => m.setMarks .fresh (wordsOf b.bytes)).freshAll (wordsOf b.bytes) else s
  | none => s

theorem exec_targetAccessComplete_of_write {s : State} {k : SliceId} {n : Nat} (hn : s.slices[k].queue.length ≤ n) (par : Fin 3) (bad : BitVec 8) :
    exec (.targetAccessComplete k ⟨n, par, bad⟩) s = .next ((s.writeEnded k (n - s.slices[k].queue.length) par).modSlice k fun x =>
      { x with writing := x.writing.eraseIdx (n - s.slices[k].queue.length) }) := by
  show execTargetAccessComplete k ⟨n, par, bad⟩ s = _
  rw [execTargetAccessComplete]
  simp only [List.getElem?_eq_none hn]
  rfl

theorem State.writeEnded_of_ne (s : State) (k : SliceId) (i : Nat) {par : Fin 3} (h : par ≠ 2) : s.writeEnded k i par = s := by
  unfold State.writeEnded
  split
  · exact if_neg h
  · rfl

theorem State.writeEnded_eq (s : State) (k : SliceId) (i : Nat) (par : Fin 3) : ∃ mem hbm ring evts fresh,
    s.writeEnded k i par = { s with mem := mem, hbm := hbm, ring := ring, crownEvts := evts, fresh := fresh } := by
  unfold State.writeEnded
  split
  · split_ifs
    · obtain ⟨hbm, ring, evts, fresh, hfresh⟩ := State.rootLogged_freshAll (s.modMem fun m => m.setMarks .fresh (wordsOf _)) (wordsOf _)
      exact ⟨_, hbm, ring, evts, fresh, hfresh⟩
    · exact ⟨s.mem, s.hbm, s.ring, s.crownEvts, s.fresh, rfl⟩
  · exact ⟨s.mem, s.hbm, s.ring, s.crownEvts, s.fresh, rfl⟩

theorem State.markOf_writeEnded {s : State} {k : SliceId} {i : Nat} {b : Burst} (hb : s.slices[k].writing[i]? = some b) {w : Nat}
    (hw : w ∈ wordsOf b.bytes) : (s.writeEnded k i 2).mem.markOf w = some .fresh := by
  obtain ⟨hbm, ring, evts, fresh, hfresh⟩ := State.rootLogged_freshAll (s.modMem fun m => m.setMarks .fresh (wordsOf b.bytes)) (wordsOf b.bytes)
  simp only [State.writeEnded, hb, if_true]
  rw [hfresh]
  exact s.mem.markOf_setMarks (.inl hw)

/-! ### Who a response reaches (R270) -/

theorem State.respond_eq (s : State) (r : ReadReq) (c : Chunk) :
    ∃ boughs crn ports, s.respond r c = { s with boughs := boughs, crn := crn, ports := ports } := by
  obtain ⟨tag, who, addr, len⟩ := r
  cases who with
  | stream b h key => exact ⟨_, s.crn, s.ports, rfl⟩
  | twig t =>
    cases t with
    | bough b => exact ⟨_, s.crn, s.ports, rfl⟩
    | crown i => exact ⟨s.boughs, _, s.ports, rfl⟩
  | host n tag part => exact ⟨s.boughs, s.crn, _, rfl⟩

/-- A twig whose load takes what a response to `tag` brings. -/
def Twig.answered (w : Twig) (tag : Nat) (c : Chunk) : Twig :=
  { w with load := w.load.map fun l => if l.owed.contains tag then { l with owed := l.owed.filter (· ≠ tag), got := l.got ++ [c] } else l }

theorem Twig.answered_of_owed {w : Twig} {tag : Nat} {l : LoadOp} (c : Chunk) (hload : w.load = some l) (htag : tag ∈ l.owed) :
    w.answered tag c = { w with load := some { l with owed := l.owed.filter (· ≠ tag), got := l.got ++ [c] } } := by
  simp [Twig.answered, hload, htag]

theorem State.respond_bough {s : State} {r : ReadReq} {b : BoughId} (c : Chunk) (hwho : r.who = .twig (.bough b)) :
    s.respond r c = s.modBough b fun y => { y with twig := y.twig.answered r.tag c, absorbTags := y.absorbTags.filter (· ≠ r.tag) } := by
  simp only [State.respond, hwho]
  exact State.modBough_modBough s b (fun y => { y with twig := (s.bough b).twig.answered r.tag c }) _

theorem State.respond_crown {s : State} {r : ReadReq} {i : CoreId} (c : Chunk) (hwho : r.who = .twig (.crown i)) :
    s.respond r c = s.modTwig (.crown i) fun w => w.answered r.tag c := by
  simp only [State.respond, hwho]
  rfl

theorem State.twig_respond {s : State} {r : ReadReq} {t : TwigId} (c : Chunk) (hwho : r.who = .twig t) :
    (s.respond r c).twig t = (s.twig t).answered r.tag c := by
  cases t with
  | bough b =>
    rw [State.respond_bough c hwho]
    exact congrArg Bough.twig (s.bough_modBough b _)
  | crown i =>
    rw [State.respond_crown c hwho]
    exact s.twig_modTwig (.crown i) _

theorem State.otherTwigs_respond {s : State} {r : ReadReq} {t : TwigId} (c : Chunk) (hwho : r.who = .twig t) : OtherTwigs t s (s.respond r c) := by
  cases t with
  | bough b =>
    rw [State.respond_bough c hwho]
    exact ⟨fun d hd => s.bough_modBough_ne _ fun h => hd (congrArg TwigId.bough h.symm), fun _ _ => rfl, rfl⟩
  | crown i =>
    rw [State.respond_crown c hwho]
    exact ⟨fun _ _ => rfl, fun j hj => vset_get_ne _ _ fun h => hj (congrArg TwigId.crown h.symm), rfl⟩

theorem State.ports_respond_twig {s : State} {r : ReadReq} {t : TwigId} (c : Chunk) (hwho : r.who = .twig t) : (s.respond r c).ports = s.ports := by
  simp only [State.respond, hwho]
  cases t <;> rfl

/-- Chunk c is what the queued read q returns, and from s to s' it has reached the bough, twig or host port that asked. -/
structure QRead.Returned (q : QRead) (par : Fin 3) (bad : BitVec 8) (s s' : State) (c : Chunk) : Prop where
  base : c.base = q.req.addr
  data : c.data = q.data
  fault : c.fault = none
  length : c.poison.length = q.poison.length
  poison : ∀ (j : Nat) (p : Bool), q.poison[j]? = some p → c.poison[j]? = some (p || decide (par = 2) || bad.getLsbD j)
  stream : ∀ b h key, q.req.who = .stream b h key →
    s'.bough b = { s.bough b with resps := (s.bough b).resps ++ [(q.req.tag, c)] } ∧ c.key = key ∧ s'.ports = s.ports ∧ s'.crn = s.crn
  twig : ∀ t l, q.req.who = .twig t → (s.twig t).load = some l → q.req.tag ∈ l.owed →
    s'.twig t = { s.twig t with load := some { l with owed := l.owed.filter (· ≠ q.req.tag), got := l.got ++ [c] } } ∧ OtherTwigs t s s' ∧
      s'.ports = s.ports
  host : ∀ m tag part, q.req.who = .host m tag part →
    s'.ports[m].reads = s.ports[m].reads.map (fun x => if x.tag = tag then { x with parts := lmod x.parts part fun p => { p with data := some c } } else x) ∧
      s'.boughs = s.boughs ∧ s'.crn = s.crn

/-- A stream's chunk carries the stream's key; twigs and host ports take it without one. -/
theorem State.returned_respond (s : State) (q : QRead) (par : Fin 3) (bad : BitVec 8) :
    ∃ c, q.Returned par bad s (s.respond q.req (q.back par bad)) c := by
  have hlength := q.length_poisonBack par bad
  have hpoison := fun (j : Nat) (p : Bool) (hp : q.poison[j]? = some p) => q.getElem?_poisonBack par bad hp
  cases hwho : q.req.who with
  | stream b h key =>
    refine ⟨{ q.back par bad with key := key }, rfl, rfl, rfl, hlength, hpoison, fun b' h' key' heq => ?_, by simp [hwho], by simp [hwho]⟩
    cases hwho.symm.trans heq
    rw [State.respond, hwho]
    exact ⟨State.bough_modBough .., rfl, rfl, rfl⟩
  | twig t =>
    refine ⟨q.back par bad, rfl, rfl, rfl, hlength, hpoison, by simp [hwho], fun t' l heq hload htag => ?_, by simp [hwho]⟩
    cases hwho.symm.trans heq
    refine ⟨?_, State.otherTwigs_respond _ hwho, State.ports_respond_twig _ hwho⟩
    rw [State.twig_respond _ hwho, Twig.answered_of_owed _ hload htag]
  | host m tag part =>
    refine ⟨q.back par bad, rfl, rfl, rfl, hlength, hpoison, by simp [hwho], by simp [hwho], fun m' tag' part' heq => ?_⟩
    cases hwho.symm.trans heq
    rw [State.respond, hwho]
    exact ⟨congrArg HostPort.reads (State.modPort_port_self ..), rfl, rfl⟩

/-! ### Which write of a slice goes on (R152, R262, R269) -/

theorem Burst.mem_bad_checked (b : Burst) (bad : BitVec 32) (w : Nat) :
    w ∈ (b.checked bad).bad ↔ w ∈ b.bad ∨ ∃ j, (wordsOf b.bytes)[j]? = some w ∧ bad.getLsbD j = true := by
  simp only [Burst.checked, List.mem_eraseDups, List.mem_append, List.mem_filterMap, List.mem_range, Option.ite_none_right_eq_some]
  refine or_congr_right (exists_congr fun j => ⟨fun h => ⟨h.2.2, h.2.1⟩, fun h => ⟨?_, h.2, h.1⟩⟩)
  obtain ⟨hj, -⟩ := List.getElem?_eq_some_iff.mp h.1
  exact hj

theorem Burst.checked_of_sound {b : Burst} (h : b.bad = []) : b.checked 0 = b := by
  have hnone : (b.checked 0).bad = [] := List.eq_nil_iff_forall_not_mem.mpr fun w hw => by simp [Burst.mem_bad_checked, h] at hw
  calc b.checked 0 = { b with bad := (b.checked 0).bad } := rfl
    _ = b := by rw [hnone, ← h]

section
variable {s : State} {k : SliceId} {b : Burst} {rest : List SliceMsg} (bad : BitVec 32) (hinbox : s.slices[k].inbox = .beat b :: rest)
  (hnone : s.heldOf k = [])
include hinbox hnone

theorem exec_writeBurstStage_of_held (hheld : s.burstHeld b = true ∨ s.behindHeld b s.nextId = true) :
    exec (.writeBurstStage ⟨k, bad⟩) s = .next { s.modSlice k fun x => { x with inbox := rest } with
      nextId := s.nextId + 1, heldWrites := s.heldWrites ++ [{ tgt := .slice k, burst := b, ord := s.nextId }] } := by
  have hheld : (s.burstHeld b || s.behindHeld b s.nextId) = true := by simpa using hheld
  show execWriteBurstStage ⟨k, bad⟩ s = _
  rw [execWriteBurstStage]
  simp only [hnone, hinbox, hheld]
  rfl

variable (hfree : ¬ (s.burstHeld b = true ∨ s.behindHeld b s.nextId = true))
include hfree

theorem exec_writeBurstStage_of_noRoom (hroom : s.noRoom b = true) : exec (.writeBurstStage ⟨k, bad⟩) s = .next s := by
  have hfree : (s.burstHeld b || s.behindHeld b s.nextId) = false := by simpa using hfree
  show execWriteBurstStage ⟨k, bad⟩ s = _
  rw [execWriteBurstStage]
  simp only [hnone, hinbox, hfree, hroom]
  rfl

theorem exec_writeBurstStage_of_room (hroom : s.noRoom b = false) :
    exec (.writeBurstStage ⟨k, bad⟩) s = .next ((s.modSlice k fun x => { x with inbox := rest }).stageBurst (b.checked bad)) := by
  have hfree : (s.burstHeld b || s.behindHeld b s.nextId) = false := by simpa using hfree
  show execWriteBurstStage ⟨k, bad⟩ s = _
  rw [execWriteBurstStage]
  simp only [hnone, hinbox, hfree, hroom]
  rfl

end

theorem dropFirstHeld_of_first {k : SliceId} {pre : List HeldWrite} {x : HeldWrite} (post : List HeldWrite) (hpre : ∀ y ∈ pre, y.tgt ≠ .slice k)
    (htgt : x.tgt = .slice k) : dropFirstHeld k (pre ++ x :: post) = pre ++ post := by
  induction pre with
  | nil => simp [dropFirstHeld, htgt]
  | cons y pre ih =>
    have hy : ¬ ((y.tgt == .slice k) = true) := by simpa using hpre y List.mem_cons_self
    rw [List.cons_append, dropFirstHeld, if_neg hy, ih fun z hz => hpre z (List.mem_cons_of_mem y hz)]
    rfl

theorem State.heldOf_of_first {s : State} {k : SliceId} {pre : List HeldWrite} {x : HeldWrite} {post : List HeldWrite}
    (hwrites : s.heldWrites = pre ++ x :: post) (hpre : ∀ y ∈ pre, y.tgt ≠ .slice k) (htgt : x.tgt = .slice k) :
    s.heldOf k = x :: post.filter fun y => y.tgt == .slice k := by
  have hskip : pre.filter (fun y => y.tgt == .slice k) = [] := List.filter_eq_nil_iff.mpr fun y hy => by simpa using hpre y hy
  rw [State.heldOf, hwrites, List.filter_append, hskip, List.nil_append, List.filter_cons, if_pos (by simp [htgt])]

/-- The oldest write that a slice holds goes on once nothing before it holds it (R152, R269). -/
theorem exec_writeBurstStage_of_released {s : State} {k : SliceId} {x : HeldWrite} {xs : List HeldWrite} (bad : BitVec 32) (hheld : s.heldOf k = x :: xs)
    (hentry : s.burstHeld x.burst = false) (hbehind : s.behindHeld x.burst x.ord = false) (hroom : s.noRoom x.burst = false) :
    exec (.writeBurstStage ⟨k, bad⟩) s = .next ({ s with heldWrites := dropFirstHeld k s.heldWrites }.stageBurst (x.burst.checked bad)) := by
  show execWriteBurstStage ⟨k, bad⟩ s = _
  rw [execWriteBurstStage]
  simp only [hheld, hentry, hbehind, hroom]
  rfl

theorem State.modSlice_modSlice (s : State) (k : SliceId) (f g : Slice → Slice) : (s.modSlice k f).modSlice k g = s.modSlice k (g ∘ f) := by
  have hget : (s.modSlice k f).slices[k] = f s.slices[k] := vmod_get_self ..
  simp only [State.modSlice] at hget ⊢
  rw [vmod, hget]
  exact congrArg (fun v => { s with slices := v }) (vset_vset ..)

theorem State.stageBurst_of_unmarked {s : State} {b : Burst} (h : b.mark = false) :
    s.stageBurst b = s.modSlice b.slice fun x => { x with staging := x.staging ++ [b] } := by
  rw [State.stageBurst, h]
  rfl

/-! ### A committed burst (R271, R272, R275) -/

theorem overlay_of_nodup {bs : List (Nat × Byte)} (hnodup : (bs.map fun c => c.1).Nodup) {c : Nat × Byte} (hc : c ∈ bs) (v : Byte) :
    overlay bs c.1 v = c.2 := by
  induction bs generalizing v with
  | nil => exact absurd hc List.not_mem_nil
  | cons d bs ih =>
    obtain ⟨hnew, hnodup⟩ := List.nodup_cons.mp hnodup
    rw [overlay_cons]
    rcases List.mem_cons.mp hc with rfl | hc
    · rw [if_pos rfl]
      exact overlay_of_not_written (fun e he heq => hnew (List.mem_map.mpr ⟨e, he, heq⟩)) _
    · exact ih hnodup hc _

/-- Bytes that a write does not name read as before, whatever rows are dead (R273, R326). -/
theorem Memory.read_write_of_not_written (m : Memory) {bs : List (Nat × Byte)} {x : Nat} (h : ∀ c ∈ bs, c.1 ≠ x) : (m.write bs).read x = m.read x := by
  unfold Memory.write
  generalize wordsOf bs = ws
  induction ws generalizing m with
  | nil => rfl
  | cons w ws ih =>
    rw [List.foldl_cons, ih]
    split_ifs
    · rfl
    · rw [Memory.read_writeWord]
      exact overlay_of_not_written (fun c hc => h c (List.mem_of_mem_filter hc)) _

/-- An armed injection of stack i acts on word w: its mark is k, and a fresh error flips two bits (R291). -/
def State.injectMark (s : State) (i : StackId) (w : Nat) (k : Option Mark) : State :=
  ((if k = some .fresh then s.flipTwo w else s).modMem fun m => m.setMark w k).modStack i fun x => { x with injArm := false }

theorem State.injectMark_eq (s : State) (i : StackId) (w : Nat) (k : Option Mark) :
    ∃ mem hbm fresh, s.injectMark i w k = { s with mem := mem, hbm := hbm, fresh := fresh } := by
  have hflip : ∃ mem fresh, (if k = some .fresh then s.flipTwo w else s) = { s with mem := mem, fresh := fresh } := by
    split_ifs
    · exact ⟨_, _, rfl⟩
    · exact ⟨s.mem, s.fresh, rfl⟩
  obtain ⟨mem, fresh, hflip⟩ := hflip
  rw [State.injectMark, hflip]
  exact ⟨_, _, fresh, rfl⟩

/-- An injection reaches memory, the stacks and the free values alone (R291). -/
theorem State.injectInto_eq (s : State) (bs : List (Nat × Byte)) :
    ∃ mem hbm fresh, s.injectInto bs = { s with mem := mem, hbm := hbm, fresh := fresh } := by
  unfold State.injectInto
  split_ifs
  · exact ⟨s.mem, s.hbm, s.fresh, rfl⟩
  · refine foldl_rel (R := fun s t : State => ∃ mem hbm fresh, t = { s with mem := mem, hbm := hbm, fresh := fresh })
      (fun s => ⟨s.mem, s.hbm, s.fresh, rfl⟩) (fun s t u => ?_) (fun s i => ?_) _ s
    · rintro ⟨_, _, _, rfl⟩ ⟨mem, hbm, fresh, rfl⟩
      exact ⟨mem, hbm, fresh, rfl⟩
    · dsimp only
      split
      · exact s.injectMark_eq i _ _
      · exact ⟨s.mem, s.hbm, s.fresh, rfl⟩

/-- The merge reads of a write are checked (R273). -/
def State.mergeChecked (s : State) (bs : List (Nat × Byte)) : State := (mergeWords bs).foldl (fun s w => s.observe (8 * w) 8 false) s

theorem State.logged_mergeChecked (s : State) (bs : List (Nat × Byte)) : s.Logged (s.mergeChecked bs) :=
  foldl_rel State.Logged.refl State.Logged.trans (fun t w => t.logged_observe (8 * w) 8 false) _ s

/-- Stored bytes reach memory and what its checks leave on record; outside SERVICE memory is as the write leaves it (R273, R291). -/
theorem State.storeBytes_eq (s : State) (bs : List (Nat × Byte)) : ∃ mem hbm scr ring evts fresh,
    s.storeBytes bs = { s with mem := mem, hbm := hbm, scr := scr, ring := ring, crownEvts := evts, fresh := fresh } ∧
      (s.sys.mode ≠ .service → mem = s.mem.write bs) := by
  obtain ⟨hbm, scr, ring, evts, fresh, hchecked⟩ := s.logged_mergeChecked bs
  obtain ⟨mem, hbm', fresh', hinjected⟩ := State.injectInto_eq ((s.mergeChecked bs).modMem fun m => m.write bs) bs
  have hstored : s.storeBytes bs = _ := hinjected
  rw [hchecked] at hstored
  refine ⟨mem, hbm', scr, ring, evts, fresh', hstored, fun hmode => ?_⟩
  have hkept := State.injectInto_of_not_service ((s.mergeChecked bs).modMem fun m => m.write bs) bs (by rw [hchecked]; exact hmode)
  have hmem := congrArg State.mem (hinjected.symm.trans hkept)
  rw [hchecked] at hmem
  exact hmem

/-- The words of a burst that arrived bad are stored as poison and logged (R275). -/
def State.poisonWords (s : State) (ws : List Nat) : State :=
  ws.foldl (fun s w => (s.modMem fun m => m.setMark w (some .stored)).eccRoot w .fresh false false) s

theorem State.poisonWords_eq (s : State) (ws : List Nat) : ∃ hbm ring evts fresh,
    s.poisonWords ws = { s with mem := s.mem.setMarks .stored ws, hbm := hbm, ring := ring, crownEvts := evts, fresh := fresh } := by
  unfold State.poisonWords
  induction ws generalizing s with
  | nil => exact ⟨s.hbm, s.ring, s.crownEvts, s.fresh, rfl⟩
  | cons w ws ih =>
    obtain ⟨hbm, ring, evts, fresh, hecc⟩ := (s.modMem fun m => m.setMark w (some .stored)).rootLogged_eccRoot w .fresh false false
    obtain ⟨hbm', ring', evts', fresh', hrest⟩ := ih ((s.modMem fun m => m.setMark w (some .stored)).eccRoot w .fresh false false)
    refine ⟨hbm', ring', evts', fresh', hrest.trans ?_⟩
    rw [hecc]
    rfl

theorem State.meterWrite_eq (s : State) (p : Option Nat) (k : Nat) : ∃ plots, s.meterWrite p k = { s with plots := plots } :=
  s.spend_meter_eq true p p (fun c => { c with rootWr := c.rootWr + 64 * k }) _

theorem State.storeVisible_eq (s : State) (who : Writer) : ∃ boughs crn, s.storeVisible who = { s with boughs := boughs, crn := crn } := by
  unfold State.storeVisible
  split
  next t _ =>
    cases t with
    | bough b => exact ⟨_, s.crn, rfl⟩
    | crown i => exact ⟨s.boughs, _, rfl⟩
  · exact ⟨s.boughs, s.crn, rfl⟩

/-- The slice with a committed burst that waits for its targets. -/
def Slice.commits (x : Slice) (b : Burst) : Slice := { x with writing := x.writing ++ [b], wr := x.wr + 1 }

/-- A burst with a commit mark is written at once: every bad word is stored as poison, and outside SERVICE every byte of memory is as the write
leaves it (R271, R272, R275). -/
theorem State.stageBurst_of_marked {s : State} {b : Burst} (hmark : b.mark = true) : ∃ mem boughs hbm scr plots ring crn evts fresh,
    s.stageBurst b = { s.modSlice b.slice fun x => x.commits b with
      mem := mem, boughs := boughs, hbm := hbm, scr := scr, plots := plots, ring := ring, crn := crn, crownEvts := evts, fresh := fresh } ∧
      (∀ w ∈ b.bad, mem.markOf w = some .stored) ∧ (s.sys.mode ≠ .service → ∀ x, mem.read x = (s.mem.write b.bytes).read x) := by
  have hall : b.bytes.filter (fun c => !([] : List Nat).contains c.1) = b.bytes := List.filter_eq_self.mpr fun c _ => rfl
  obtain ⟨mem, hbm, scr, ring, evts, fresh, hstored, hmem⟩ := s.storeBytes_eq b.bytes
  obtain ⟨hbm', ring', evts', fresh', hpoisoned⟩ := (s.storeBytes b.bytes).poisonWords_eq b.bad
  obtain ⟨plots, hmetered⟩ := State.meterWrite_eq (((s.storeBytes b.bytes).poisonWords b.bad).modSlice b.slice fun x => x.commits b) b.plot
    (granulesOf b.bytes).length
  have hcommitted : s.commitBurst [] b =
      (((s.storeBytes b.bytes).poisonWords b.bad).modSlice b.slice fun x => x.commits b).meterWrite b.plot (granulesOf b.bytes).length := by
    rw [State.commitBurst, hall]
    rfl
  obtain ⟨boughs, crn, hvisible⟩ := (s.commitBurst [] b).storeVisible_eq b.who
  refine ⟨mem.setMarks .stored b.bad, boughs, hbm', scr, plots, ring', crn, evts', fresh', ?_, fun w hw => ?_, fun hmode x => ?_⟩
  · rw [State.stageBurst, if_pos hmark, hvisible, hcommitted, hmetered, hpoisoned, hstored]
    rfl
  · exact mem.markOf_setMarks (.inl hw)
  · rw [Memory.read_setMarks, hmem hmode]

end Sys2Proof.Machine

open Sys2Proof Sys2Proof.Machine Sys2Proof.Safety

/-- Settles O26: an accepted read by `State.performRead_eq`, its return by `State.respond_eq` and the lemmas of its master, a burst by
`State.stageBurst_of_unmarked` and `State.stageBurst_of_marked`. -/
theorem rootSlices : Obligations.RootSlices := by
  unfold Obligations.RootSlices
  refine ⟨⟨fun s k r rest hinbox hcovers hwrite hqueued => ⟨fun hroom => ?bind, fun hfull => ?full⟩, fun s k r rest => exec_sliceAcceptRequest_of_held,
    fun s k n par bad q hq hfirst => ?oldest, fun s k n par bad q hq => exec_targetAccessComplete_of_younger hq par bad, fun s k n par bad hn => ?written⟩,
    ?burst, fun s k bad x post pre hwrites hpre htgt hslice hmark hsound hentry hbehind hroom => ?released⟩
  case bind =>
    have hexec := exec_sliceAcceptRequest_of_room hinbox hcovers hwrite hqueued hroom
    obtain ⟨hbm, scr, plots, ring, evts, fresh, hread⟩ := s.performRead_eq r
    rw [hread] at hexec
    exact ⟨_, hexec, vmod_get_self s.slices k _, congrArg (fun v => { s with slices := v }) (vmod_undo s.slices k _)⟩
  case full =>
    refine ⟨_, exec_sliceAcceptRequest_of_full hinbox hcovers hwrite hqueued hfull, vmod_get_self s.slices k _, ?_⟩
    exact congrArg (fun v => { s with slices := v }) (vmod_undo s.slices k _)
  case oldest =>
    have hexec := exec_targetAccessComplete_of_oldest hq par bad hfirst
    have hclean := fun h => s.parityChecked_of_ne (par := par) h (wordSpan q.req.addr q.req.len)
    obtain ⟨hbm, ring, evts, fresh, hchecked⟩ := s.rootLogged_parityChecked par (wordSpan q.req.addr q.req.len)
    rw [hchecked] at hexec hclean
    generalize hu : State.modSlice _ k _ = u at hexec
    obtain ⟨boughs, crn, ports, hresponded⟩ := u.respond_eq q.req (q.back par bad)
    refine ⟨_, hexec, ?slice, fun j hj => ?other, ?answer, fun hpar => ?clean, ?frame⟩
    case slice =>
      rw [hresponded, ← hu]
      exact vmod_get_self s.slices k _
    case other =>
      rw [hresponded, ← hu]
      exact vmod_get_ne s.slices _ hj
    case clean =>
      rw [hresponded, ← hu]
      exact hclean hpar
    case frame =>
      rw [hresponded, ← hu]
      rfl
    case answer =>
      subst hu
      obtain ⟨c, hc⟩ := State.returned_respond (State.modSlice _ k _) q par bad
      exact ⟨c, hc.base, hc.data, hc.fault, hc.length, hc.poison, hc.stream, hc.twig, hc.host⟩
  case written =>
    have hexec := exec_targetAccessComplete_of_write hn par bad
    obtain ⟨mem, hbm, ring, evts, fresh, hended⟩ := s.writeEnded_eq k (n - s.slices[k].queue.length) par
    refine ⟨_, hexec, ?_, fun hpar => ?_, fun hpar b hb w hw => ?_, ?_⟩
    · rw [hended]
      exact vmod_get_self s.slices k _
    · rw [s.writeEnded_of_ne k _ hpar]
      exact congrArg (fun v => { s with slices := v }) (vmod_undo s.slices k _)
    · subst hpar
      exact State.markOf_writeEnded hb hw
    · rw [hended]
      exact congrArg (fun v => { s with slices := v }) (vmod_undo s.slices k _)
  case burst =>
    intro s k bad b rest hinbox hslice hnone held
    refine ⟨fun hheld => ?_, fun hfree => exec_writeBurstStage_of_noRoom bad hinbox hnone hfree, fun hfree hroom hmark => ?_, fun hfree hroom hmark => ?_⟩
    · refine ⟨_, exec_writeBurstStage_of_held bad hinbox hnone hheld, rfl, rfl, vmod_get_self s.slices k _, ?_⟩
      exact congrArg (fun v => { s with slices := v }) (vmod_undo s.slices k _)
    · have hexec := exec_writeBurstStage_of_room bad hinbox hnone hfree hroom
      rw [State.stageBurst_of_unmarked (b := b.checked bad) hmark, show (b.checked bad).slice = k from hslice, State.modSlice_modSlice] at hexec
      refine ⟨_, hexec, ⟨(b.checked bad).bad, vmod_get_self s.slices k _, b.mem_bad_checked bad⟩, ?_⟩
      exact congrArg (fun v => { s with slices := v }) (vmod_undo s.slices k _)
    · have hexec := exec_writeBurstStage_of_room bad hinbox hnone hfree hroom
      obtain ⟨mem, boughs, hbm, scr, plots, ring, crn, evts, fresh, hstaged, hmarks, hread⟩ :=
        State.stageBurst_of_marked (s := s.modSlice k fun x => { x with inbox := rest }) (b := b.checked bad) hmark
      rw [hstaged, show (b.checked bad).slice = k from hslice, State.modSlice_modSlice] at hexec
      refine ⟨_, hexec, ⟨(b.checked bad).bad, vmod_get_self s.slices k _, b.mem_bad_checked bad, hmarks⟩, fun hmode hnodup halive c hc => ?_,
        fun hmode a ha => ?_, fun j hj => vmod_get_ne s.slices _ hj, rfl, rfl, rfl, rfl⟩
      · exact (hread hmode c.1).trans ((s.mem.read_write_of_alive b.bytes halive c.1).trans (overlay_of_nodup hnodup hc _))
      · refine (hread hmode a).trans (s.mem.read_write_of_not_written fun c hc heq => ha ?_)
        exact List.mem_map.mpr ⟨c, hc, heq⟩
  case released =>
    have hexec := exec_writeBurstStage_of_released bad (State.heldOf_of_first hwrites hpre htgt) hentry hbehind hroom
    rw [State.stageBurst_of_unmarked (b := x.burst.checked bad) hmark, show (x.burst.checked bad).slice = k from hslice] at hexec
    refine ⟨_, hexec, ?_, fun hbad => ?_, ?_⟩
    · exact (congrArg (dropFirstHeld k) hwrites).trans (dropFirstHeld_of_first post hpre htgt)
    · subst hbad
      rw [Burst.checked_of_sound hsound]
      exact vmod_get_self s.slices k _
    · exact congrArg (fun v => { s with slices := v }) (vmod_undo s.slices k _)

end

section
/-! SUPPORT. Chain links inside the device (R174, R175, R177, R178, R180, R181, R184): what a transfer, an arrival, a token and a credit leave of
their link while no run receives, and the settling of O23. -/

namespace Sys2Proof.Machine

open Sys2Proof.Safety

/-! ### One link of the state -/

theorem lmod_eq_modify {α : Type} (xs : List α) (k : Nat) (f : α → α) : lmod xs k f = xs.modify k f := by
  induction xs generalizing k with
  | nil => cases k <;> rfl
  | cons x xs ih =>
    cases k with
    | zero => rfl
    | succ k => exact congrArg (x :: ·) (ih k)

/-- The state with l in place of its i-th link. -/
def State.setLink (s : State) (i : Nat) (l : Link) : State := { s with links := s.links.set i l }

theorem State.modLink_of_link {s : State} {i : Nat} {l : Link} (hl : s.links[i]? = some l) (f : Link → Link) :
    s.modLink i f = s.setLink i (f l) := by
  have hset : lmod s.links i f = s.links.set i (f l) := by
    rw [lmod_eq_modify, List.modify_eq_set_getElem?, hl]
    rfl
  exact congrArg (fun ls => { s with links := ls }) hset

theorem State.setLink_setLink (s : State) (i : Nat) (l k : Link) : (s.setLink i l).setLink i k = s.setLink i k :=
  congrArg (fun ls => { s with links := ls }) (List.set_set l)

theorem State.setLink_self {s : State} {i : Nat} {l : Link} (hl : s.links[i]? = some l) : s.setLink i l = s := by
  obtain ⟨hi, rfl⟩ := List.getElem?_eq_some_iff.mp hl
  exact congrArg (fun ls => { s with links := ls }) (List.set_getElem_self hi)

theorem State.link_setLink {s : State} {i : Nat} {l : Link} (hl : s.links[i]? = some l) (k : Link) : (s.setLink i k).links[i]? = some k :=
  List.getElem?_set_self (List.getElem?_eq_some_iff.mp hl).1

theorem State.link_setLink_ne (s : State) {i j : Nat} (k : Link) (h : j ≠ i) : (s.setLink i k).links[j]? = s.links[j]? :=
  List.getElem?_set_ne h.symm

theorem onlyLink_setLink (s : State) (i : Nat) (k : Link) : OnlyLink i s (s.setLink i k) := ⟨fun _ h => s.link_setLink_ne k h, rfl⟩

/-! ### Messages, credits and tokens on a link inside the device (R174, R175) -/

section

variable {s : State} {i : Nat} {l : Link} (hl : s.links[i]? = some l)
include hl

theorem State.giveCredit_of_inner (hfrom : l.fromGraft = false) (k : Nat) : s.giveCredit i k = s.setLink i { l with owed := l.owed + k } := by
  unfold State.giveCredit
  simp only [hl, hfrom]
  by_cases hk : k = 0
  · subst hk
    exact (State.setLink_self hl).symm
  · rw [if_neg hk]
    exact State.modLink_of_link hl _

theorem State.sendDown_of_inner (hto : l.toGraft = false) (m : ChainMsg) : s.sendDown i m = s.setLink i { l with wire := l.wire ++ [m] } := by
  unfold State.sendDown
  simp only [hl, hto]
  exact State.modLink_of_link hl _

omit hl in
theorem State.foldl_sendDown_of_inner (ms : List ChainMsg) {s : State} {l : Link} (hl : s.links[i]? = some l) (hto : l.toGraft = false) :
    ms.foldl (fun s m => s.sendDown i m) s = s.setLink i { l with wire := l.wire ++ ms } := by
  induction ms generalizing s l with
  | nil => simpa using (State.setLink_self hl).symm
  | cons m ms ih =>
    have hsent := State.link_setLink hl { l with wire := l.wire ++ [m] }
    rw [List.foldl_cons, State.sendDown_of_inner hl hto, ih hsent hto, State.setLink_setLink]
    simp

/-- A link once the tokens that its epochs owe have gone out (R174). -/
def Link.pumped (l : Link) : Link :=
  { l with tx := l.tx.map fun t => t.tokens.1, wire := l.wire ++ l.tx.flatMap fun t => t.tokens.2 }

theorem State.pumpTokens_of_inner (hto : l.toGraft = false) : s.pumpTokens i = s.setLink i l.pumped := by
  unfold State.pumpTokens
  simp only [hl, List.map_map]
  have hmarked := State.link_setLink hl { l with tx := l.tx.map fun t => t.tokens.1 }
  rw [State.modLink_of_link hl]
  refine (State.foldl_sendDown_of_inner _ hmarked hto).trans ?_
  rw [State.setLink_setLink, List.flatMap_map]
  rfl

end

/-- Tokens are END and COMMIT. -/
theorem TxEpoch.ne_data_of_mem_tokens {t : TxEpoch} {m : ChainMsg} (hm : m ∈ t.tokens.2) (e : BitVec 16) (o : Nat) (w : List (Word × Bool)) :
    m ≠ .data e o w := by
  unfold TxEpoch.tokens at hm
  split at hm
  · simp at hm
  · rintro rfl
    simp at hm

/-! ### A frame of one bough, and what sending does to the sender's halves -/

theorem State.eq_setBough_of_onlyBough {b : BoughId} {s t : State} (h : OnlyBough b s t) : t = s.setBough b (t.bough b) := by
  rw [← show t.setBough b (s.bough b) = s from h, State.setBough_setBough, State.setBough_self]

/-- Counting what a half has sent reaches the sending bough alone. -/
theorem onlyBough_countSent {s : State} {i : Nat} {l : Link} (hl : s.links[i]? = some l) (ep : BitVec 16) (sent : Nat) (ended : Bool) :
    OnlyBough (boughId l.srcBough) s (s.countSent i ep sent ended) := by
  unfold State.countSent
  simp only [hl]
  split_ifs
  · exact onlyBough_refl _ s
  · exact onlyBough_modBough s _ _

/-! ### CHAIN_TRANSFER_SEND (R174, R175) -/

/-- What a sender has ready changes its own link alone. -/
theorem State.refreshTx_eq {s : State} {i : Nat} {x : Link} (hx : (s.refreshTx i).links[i]? = some x) :
    (∃ l, s.links[i]? = some l) ∧ s.refreshTx i = s.setLink i x := by
  cases hl : s.links[i]? with
  | none => simp [State.refreshTx, hl] at hx
  | some l =>
    obtain ⟨f, hf⟩ : ∃ f, s.refreshTx i = s.modLink i f := by
      unfold State.refreshTx
      simp only [hl]
      split_ifs <;> exact ⟨_, rfl⟩
    rw [hf, State.modLink_of_link hl] at hx ⊢
    rw [State.link_setLink hl] at hx
    exact ⟨⟨l, rfl⟩, congrArg (s.setLink i) (Option.some.inj hx)⟩

/-- Whether epoch t ends with its first `sent` words. -/
def TxEpoch.endsAt (t : TxEpoch) (sent : Nat) : Bool :=
  match t.len with
  | some n => decide (epochWords n ≤ sent)
  | none => false

/-- A link that takes the credits of the transfer ws of epoch t, which counts as sent (R174, R175). -/
def Link.pays (x : Link) (t : TxEpoch) (ws : List (Word × Bool)) : Link :=
  { x with credits := x.credits - ws.length, tx := x.tx.map fun u => if u.ep = t.ep then { u with sent := t.sent + ws.length } else u }

/-- A link on which the transfer ws of epoch t has gone out. -/
def Link.sends (x : Link) (t : TxEpoch) (ws : List (Word × Bool)) : Link :=
  { x.pays t ws with wire := x.wire ++ [.data t.ep t.sent ws] }

theorem State.sendDown_pays {s : State} {i : Nat} {x : Link} (hx : s.links[i]? = some x) (hto : x.toGraft = false) (t : TxEpoch)
    (ws : List (Word × Bool)) : (s.modLink i fun x => x.pays t ws).sendDown i (.data t.ep t.sent ws) = s.setLink i (x.sends t ws) := by
  have hpaid := State.link_setLink hx (x.pays t ws)
  rw [State.modLink_of_link hx, State.sendDown_of_inner hpaid hto, State.setLink_setLink]
  rfl

section

variable {s : State} {i : Nat} {x : Link} {t : TxEpoch} {ws : List (Word × Bool)} (hx : (s.refreshTx i).links[i]? = some x) (hinner : Inner x)
  (hheld : s.sendHeld x = false) (hnext : x.tx.find? (fun t => !t.ended) = some t) (hws : (t.words.drop t.sent).take 8 = ws) (hready : ws ≠ [])
include hx hinner hheld hnext hws hready

theorem exec_chainTransferSend_of_uncovered (hcredits : x.credits < ws.length) : exec (.chainTransferSend i) s = .next s := by
  obtain ⟨hfrom, -, hbroken, -⟩ := hinner
  show execChainTransferSend i s = _
  simp [execChainTransferSend, hx, hbroken, hheld, hfrom, hnext, hws, hready, hcredits]

/-- The transfer goes out, the sender counts it, and the tokens that it completes follow. -/
theorem exec_chainTransferSend_of_covered (hcredits : ws.length ≤ x.credits) :
    ∃ y, exec (.chainTransferSend i) s = .next ((s.setBough (boughId x.srcBough) y).setLink i (x.sends t ws).pumped) := by
  obtain ⟨hfrom, hto, hbroken, -⟩ := hinner
  obtain ⟨⟨l, hl⟩, hrefreshed⟩ := State.refreshTx_eq hx
  have hsent := State.link_setLink hl (x.sends t ws)
  have hexec : exec (.chainTransferSend i) s =
      .next (((s.setLink i (x.sends t ws)).countSent i t.ep (t.sent + ws.length) (t.endsAt (t.sent + ws.length))).pumpTokens i) := by
    have hdata := State.sendDown_pays hx hto t ws
    rw [hrefreshed, State.setLink_setLink] at hdata
    show execChainTransferSend i s = _
    simp only [execChainTransferSend, hx, hbroken, hheld, hfrom, hnext, hws]
    rw [if_neg (by simp), if_neg (by simpa using hready), if_neg (by omega), ← hdata, hrefreshed]
    rfl
  rw [hexec, State.eq_setBough_of_onlyBough (onlyBough_countSent hsent ..)]
  generalize State.bough _ _ = y
  have hlink : ((s.setBough (boughId x.srcBough) y).setLink i (x.sends t ws)).links[i]? = some (x.sends t ws) := hsent
  exact ⟨y, congrArg Host.Outcome.next ((State.pumpTokens_of_inner hlink hto).trans (State.setLink_setLink ..))⟩

end

/-! ### What a chain buffer holds of an epoch (R175) -/

theorem epochRec_eq (l : Link) (ep : BitVec 16) : epochRec l ep = (findRx ep l.eps).getD (RxEpoch.start ep) := rfl

theorem findRx_ep {ep : BitVec 16} {es : List RxEpoch} {e : RxEpoch} (h : findRx ep es = some e) : e.ep = ep := by
  simpa using List.find?_some h

/-- The record of an epoch as its first message opens it. -/
theorem epochRec_ep (l : Link) (ep : BitVec 16) : (epochRec l ep).ep = ep := by
  rw [epochRec_eq]
  cases h : findRx ep l.eps with
  | none => rfl
  | some e => exact findRx_ep h

/-- A change of epoch ep, opened if it is new, leaves the other epochs as they were. -/
theorem findRx_modRx (ep k : BitVec 16) {f : RxEpoch → RxEpoch} (hf : ∀ e, (f e).ep = e.ep) (es : List RxEpoch) :
    findRx k (modRx ep f es) = if k = ep then some (f ((findRx ep es).getD (RxEpoch.start ep))) else findRx k es := by
  unfold modRx
  split_ifs with hany hk hk
  all_goals unfold findRx
  · subst hk
    obtain ⟨e, hfind⟩ : ∃ e, es.find? (fun e => e.ep = k) = some e := Option.isSome_iff_exists.mp (by simpa using hany)
    have hep : e.ep = k := findRx_ep hfind
    have hkeeps : ((fun e : RxEpoch => decide (e.ep = k)) ∘ fun e => if e.ep = k then f e else e) = fun e => decide (e.ep = k) := by
      funext e
      by_cases he : e.ep = k <;> simp [he, hf]
    rw [List.find?_map, hkeeps, hfind]
    simp [hep]
  · have hkeeps : ((fun e : RxEpoch => decide (e.ep = k)) ∘ fun e => if e.ep = ep then f e else e) = fun e => decide (e.ep = k) := by
      funext e
      by_cases he : e.ep = ep <;> simp [he, hf]
    rw [List.find?_map, hkeeps]
    cases hfind : es.find? (fun e => decide (e.ep = k)) with
    | none => rfl
    | some e => simp [findRx_ep hfind, hk]
  · subst hk
    have hnone : es.find? (fun e => decide (e.ep = k)) = none := by simpa using hany
    simp [List.find?_append, hnone, hf, RxEpoch.start]
  · simp [List.find?_append, hf, RxEpoch.start, Ne.symm hk]

/-! ### A link whose receiving bough fills no run -/

section

variable {s : State} {i : Nat} {l : Link} (hl : s.links[i]? = some l) (hquiet : NoReceiver s l)
include hl hquiet

theorem State.recvOf_of_noReceiver (ep : BitVec 16) : s.recvOf i ep = none := by
  have hzero : (s.bough (boughId l.dstBough)).halves[0].st ≠ .filling := hquiet 0
  have hone : (s.bough (boughId l.dstBough)).halves[1].st ≠ .filling := hquiet 1
  simp [State.recvOf, hl, hzero, hone]

theorem State.trimEpoch_of_noReceiver (ep : BitVec 16) : s.trimEpoch i ep = s := by
  simp [State.trimEpoch, hl, State.recvOf_of_noReceiver hl hquiet]

theorem State.modRecvs_of_noReceiver (f : RecvSt → RecvSt) : s.modRecvs i f = s := by
  unfold State.modRecvs
  simp only [hl]
  split_ifs
  · rfl
  have hzero : (s.bough (boughId l.dstBough)).halves[0].st ≠ .filling := hquiet 0
  have hone : (s.bough (boughId l.dstBough)).halves[1].st ≠ .filling := hquiet 1
  refine s.modBough_same _ _ ?_
  rw [vmod_same _ 0 _ (by simp [hzero]), vmod_same _ 1 _ (by simp [hone])]

theorem State.tellRuns_of_noReceiver : s.tellRuns i = s := by
  simp only [State.tellRuns, hl]
  exact State.modRecvs_of_noReceiver hl hquiet _

omit hl in
theorem State.restartRun_of_noReceiver (h : Fin 2) (ep : BitVec 16) : s.restartRun i (boughId l.dstBough) h ep = s := by
  have hst : ((s.half (boughId l.dstBough) h).st == HalfSt.filling) = false := by simpa using hquiet h
  simp [State.restartRun, hst]

theorem State.settleRx_of_noReceiver (hfrom : l.fromGraft = false) : s.settleRx i = s := by
  have hbuffer : s.modLink i Link.toBuffer = s := by
    rw [State.modLink_of_link hl, Link.toBuffer, hfrom]
    exact State.setLink_self hl
  have htrim : ∀ eps : List (BitVec 16), eps.foldl (fun s ep => s.trimEpoch i ep) s = s :=
    List.foldl_fixed' (State.trimEpoch_of_noReceiver hl hquiet)
  simp only [State.settleRx, hl, hbuffer, htrim, State.tellRuns_of_noReceiver hl hquiet]
  split_ifs <;> rfl

theorem State.afterArrival_of_noReceiver (hfrom : l.fromGraft = false) (hrelay : l.relay = []) (ep : BitVec 16) : s.afterArrival i ep = s := by
  have hcustody : s.takeCustody i ep = s := by simp [State.takeCustody, hl, hrelay, findRx]
  simp [State.afterArrival, hcustody, State.settleRx_of_noReceiver hl hquiet hfrom, hl, hfrom]

end

/-! ### The oldest message reaches the chain buffer (R174, R175, R177, R180) -/

/-- A link whose buffer takes what a message changes of epoch ep. -/
def Link.joined (l : Link) (ep : BitVec 16) (f : RxEpoch → RxEpoch) : Link := { l with arriving := ep, eps := modRx ep f l.eps }

/-- A link from whose buffer epoch ep has gone, with its credits on their way back. -/
def Link.dropped (l : Link) (ep : BitVec 16) : Link :=
  { l with eps := l.eps.filter (fun e => e.ep ≠ ep), relay := l.relay.filter (fun e => e.ep ≠ ep), owed := l.owed + (epochRec l ep).words.length }

/-- A link whose receiver will not wait for epoch ep, of which a relay keeps nothing to send (R180). -/
def Link.skips (l : Link) (ep : BitVec 16) : Link :=
  let k : Link := { l with tx := if l.fromGraft then l.tx.filter (fun t => t.ep ≠ ep) else l.tx }
  if ep = k.expect then k.pass ep else { k with dead := ep :: k.dead }

theorem Link.skips_eq (l : Link) (ep : BitVec 16) : ∃ expect dead tx, l.skips ep = { l with expect := expect, dead := dead, tx := tx } := by
  unfold Link.skips
  extract_lets k
  by_cases hexpect : ep = k.expect
  · rw [if_pos hexpect]
    exact ⟨_, _, _, rfl⟩
  · rw [if_neg hexpect]
    exact ⟨_, _, _, rfl⟩

section

variable {s : State} {i : Nat} {l : Link} (hl : s.links[i]? = some l) (hinner : Inner l)
include hl hinner

theorem State.arrival_of_inner {m : ChainMsg} {rest : List ChainMsg} (hwire : l.wire = m :: rest) (e : BitVec 8) (flit : BitVec 16 → ChainMsg)
    {pick : ChainMsg → Bool} (hpick : pick m = true) : s.arrival i e flit pick = some (m, s.setLink i { l with wire := rest }) := by
  obtain ⟨hfrom, -, hbroken, -⟩ := hinner
  simp [State.arrival, State.popWire, hl, hbroken, hfrom, hwire, hpick, State.modLink_of_link hl]

omit hl in
theorem Link.modEp_of_inner {ep : BitVec 16} (hpast : l.past ep = false) (f : RxEpoch → RxEpoch) : l.modEp ep f = l.joined ep f := by
  simp [Link.modEp, Link.joined, hpast, hinner.1]

variable (hquiet : NoReceiver s l) {ep : BitVec 16} (hpast : l.past ep = false)
include hquiet hpast

theorem State.join_of_noReceiver (f : RxEpoch → RxEpoch) :
    (s.modLink i fun l => l.modEp ep f).afterArrival i ep = s.setLink i (l.joined ep f) := by
  have hjoined := State.link_setLink hl (l.joined ep f)
  rw [State.modLink_of_link hl, Link.modEp_of_inner hinner hpast]
  exact State.afterArrival_of_noReceiver hjoined hquiet hinner.1 hinner.2.2.2 ep

theorem State.arriveData_of_noReceiver (hsink : l.sink = false) {o : Nat} (ws : List (Word × Bool))
    (ho : o = (epochRec l ep).base + (epochRec l ep).words.length + (epochRec l ep).cut) :
    s.arriveData i ep o ws = s.setLink i ((l.joined ep id).joined ep fun e => { e with words := e.words ++ ws }) := by
  have hopened := State.link_setLink hl (l.joined ep id)
  have hjoin := State.join_of_noReceiver hopened hinner hquiet hpast fun e => { e with words := e.words ++ ws }
  rw [State.setLink_setLink] at hjoin
  rw [← hjoin]
  simp only [State.arriveData, hl, State.modLink_of_link hl, Link.modEp_of_inner hinner hpast, hinner.1, hpast, hsink, Link.rx]
  rw [epochRec_eq] at ho
  simp [ho]

omit hquiet hpast in
theorem State.dropEpoch_of_inner : s.dropEpoch i ep = s.setLink i (l.dropped ep) := by
  have hwords : l.wordsOf ep = (epochRec l ep).words.length := by
    rw [Link.wordsOf, hinner.1, if_neg Bool.false_ne_true, epochRec_eq]
    cases findRx ep l.eps <;> rfl
  have hfiltered := State.link_setLink hl { l with eps := l.eps.filter (fun e => e.ep ≠ ep), relay := l.relay.filter (fun e => e.ep ≠ ep) }
  simp only [State.dropEpoch, hl, hwords]
  rw [State.modLink_of_link hl]
  exact (State.giveCredit_of_inner hfiltered hinner.1 _).trans (State.setLink_setLink ..)

theorem State.arriveAbort_of_noReceiver : s.arriveAbort i ep = s.setLink i ((l.dropped ep).skips ep) := by
  have hdropped := State.link_setLink hl (l.dropped ep)
  have hskips := State.link_setLink hl ((l.dropped ep).skips ep)
  have hw0 : ((l.dropped ep).skips ep).w0 = l.w0 := by
    obtain ⟨expect, dead, tx, heq⟩ := (l.dropped ep).skips_eq ep
    rw [heq]
    rfl
  have hquiet' : NoReceiver (s.setLink i ((l.dropped ep).skips ep)) ((l.dropped ep).skips ep) := by rwa [NoReceiver, Link.dstBough, hw0]
  have hfrom : ((l.dropped ep).skips ep).fromGraft = false := by rw [Link.fromGraft, hw0]; exact hinner.1
  have hquietly : NoReceiver (s.setLink i ((l.dropped ep).skips ep)) l := hquiet
  have hstays := fun h : Fin 2 => State.restartRun_of_noReceiver (i := i) hquietly h ep
  rw [State.arriveAbort, hl]
  dsimp -zeta only
  rw [if_neg (by simp [hpast])]
  extract_lets t u b
  have hpassed : t = s.setLink i ((l.dropped ep).skips ep) := by
    have hskip : t = (s.dropEpoch i ep).modLink i fun k => k.skips ep := rfl
    rw [hskip, State.dropEpoch_of_inner hl hinner, State.modLink_of_link hdropped, State.setLink_setLink]
  have hsettled : u = s.setLink i ((l.dropped ep).skips ep) := by
    rw [← State.settleRx_of_noReceiver hskips hquiet' hfrom, ← hpassed]
  have hrestart : ∀ h : Fin 2, u.restartRun i b h ep = u := by
    rw [hsettled]
    exact hstays
  rw [if_neg (by simp [hinner.2.1]), hrestart, hrestart, hrestart, ite_self, hsettled]


end

section

variable {s : State} {i : Nat} {l : Link} (hl : s.links[i]? = some l) (hinner : Inner l) (hquiet : NoReceiver s l)
  {ep : BitVec 16} (hpast : l.past ep = false) {rest : List ChainMsg} (e : BitVec 8) (n : Nat)
include hl hinner hquiet hpast

theorem exec_chainTransferArrive_of_inner (hsink : l.sink = false) {o : Nat} {ws : List (Word × Bool)} (hwire : l.wire = .data ep o ws :: rest)
    (ho : o = (epochRec l ep).base + (epochRec l ep).words.length + (epochRec l ep).cut) (lo : List (Word × Bool)) :
    exec (.chainTransferArrive i e n lo) s = .next (s.setLink i ((({ l with wire := rest } : Link).joined ep id).joined ep fun x =>
      { x with words := x.words ++ poisonedBy ws lo })) := by
  have htaken := State.link_setLink hl { l with wire := rest }
  have harrive := State.arriveData_of_noReceiver htaken hinner hquiet hpast hsink (poisonedBy ws lo) ho
  rw [State.setLink_setLink] at harrive
  show execChainTransferArrive i e n lo s = _
  simp only [execChainTransferArrive, State.arrival_of_inner hl hinner hwire, hl, Option.map_some, Option.getD_some, hinner.1]
  exact congrArg Host.Outcome.next harrive

theorem exec_chainEnd_of_inner {len : Nat} (hwire : l.wire = .fin ep len :: rest) :
    exec (.chainEnd i e n) s = .next (s.setLink i (({ l with wire := rest } : Link).joined ep fun x => { x with endLen := some len })) := by
  have htaken := State.link_setLink hl { l with wire := rest }
  have harrive := State.join_of_noReceiver htaken hinner hquiet hpast fun x => { x with endLen := some len }
  rw [State.setLink_setLink] at harrive
  show execChainEnd i e n s = _
  simp only [execChainEnd, State.arrival_of_inner hl hinner hwire]
  exact congrArg Host.Outcome.next harrive

theorem exec_chainCommit_of_inner (hwire : l.wire = .commit ep :: rest) :
    exec (.chainCommit i e) s = .next (s.setLink i (({ l with wire := rest } : Link).joined ep fun x => { x with committed := true })) := by
  have htaken := State.link_setLink hl { l with wire := rest }
  have harrive := State.join_of_noReceiver htaken hinner hquiet hpast fun x => { x with committed := true }
  rw [State.setLink_setLink] at harrive
  show execChainCommit i e s = _
  simp only [execChainCommit, State.arrival_of_inner hl hinner hwire]
  exact congrArg Host.Outcome.next harrive

theorem exec_chainAbort_of_inner (hwire : l.wire = .abort ep :: rest) :
    exec (.chainAbort i e) s = .next (s.setLink i ((({ l with wire := rest } : Link).dropped ep).skips ep)) := by
  have htaken := State.link_setLink hl { l with wire := rest }
  have harrive := State.arriveAbort_of_noReceiver htaken hinner hquiet hpast
  rw [State.setLink_setLink] at harrive
  show execChainAbort i e s = _
  simp only [execChainAbort, State.arrival_of_inner hl hinner hwire]
  exact congrArg Host.Outcome.next harrive

end

theorem filterMap_range_getElem? {α : Type} (xs : List α) : (List.range xs.length).filterMap (fun j => xs[j]?) = xs := by
  induction xs using List.reverseRecOn with
  | nil => rfl
  | append_singleton xs x ih =>
    have hfront : ∀ j ∈ List.range xs.length, (xs ++ [x])[j]? = xs[j]? := fun j hj => List.getElem?_append_left (List.mem_range.mp hj)
    rw [List.length_append, List.length_singleton, List.range_succ, List.filterMap_append, List.filterMap_congr hfront, ih]
    simp

/-- The poison that an arrival found joins that of its words, one by one (R184). -/
theorem poisonedBy_eq_mapIdx (ws lo : List (Word × Bool)) :
    poisonedBy ws lo = ws.mapIdx fun j w => (w.1, w.2 || ((lo[j]?).map (·.2)).getD false) := by
  rw [← filterMap_range_getElem? (ws.mapIdx _), List.length_mapIdx]
  exact List.filterMap_congr fun j _ => by rw [List.getElem?_mapIdx]

/-! ### Records after an arrival -/

/-- The record of an epoch is found after a change of it, and the other epochs' records are as they were. -/
theorem Link.eps_joined (l : Link) (ep : BitVec 16) {f : RxEpoch → RxEpoch} (hf : ∀ e, (f e).ep = e.ep) :
    (l.joined ep f).eps.find? (fun x => x.ep = ep) = some (f (epochRec l ep)) ∧ ∀ k, k ≠ ep → epochRec (l.joined ep f) k = epochRec l k := by
  refine ⟨(findRx_modRx ep ep hf l.eps).trans (if_pos rfl), fun k hk => ?_⟩
  rw [epochRec_eq, epochRec_eq]
  exact congrArg (Option.getD · _) ((findRx_modRx ep k hf l.eps).trans (if_neg hk))

/-- Opening an epoch leaves what the buffer holds of every epoch. -/
theorem Link.epochRec_opened (l : Link) (ep k : BitVec 16) : epochRec (l.joined ep id) k = epochRec l k := by
  obtain ⟨hfind, hothers⟩ := l.eps_joined ep (f := id) fun _ => rfl
  by_cases hk : k = ep
  · subst hk
    rw [epochRec_eq, show findRx k (l.joined k id).eps = some (epochRec l k) from hfind]
    rfl
  · exact hothers k hk

theorem Link.epochRec_dropped (l : Link) {ep k : BitVec 16} (hk : k ≠ ep) : epochRec (l.dropped ep) k = epochRec l k := by
  have hfilter : (l.eps.filter (fun e => e.ep ≠ ep)).find? (fun e => e.ep = k) = l.eps.find? fun e => e.ep = k := by
    rw [List.find?_filter]
    congr 1
    funext e
    by_cases he : e.ep = k <;> simp [he, hk]
  exact congrArg (Option.getD · _) hfilter

/-! ### Custody (R178) -/

/-- A half whose epochs on link i that satisfy p are taken. -/
def Half.passes (x : Half) (i : Nat) (p : SendSt → Bool) : Half :=
  { x with sends := x.sends.map fun y => if y.link = i && p y then { y with taken := true } else y }

/-- A half that is free again if its drain is complete, by writes and by custody. -/
def Half.freed (x : Half) : Half := if x.st == .draining && x.drain.isEmpty && x.sends.all (·.taken) then Half.free else x

theorem Half.freed_of_ne {x : Half} (h : x.st ≠ .draining) : x.freed = x := by
  simp [Half.freed, h]

theorem State.half_modHalf_ne (s : State) (b : BoughId) {h k : Fin 2} (f : Half → Half) (hk : k ≠ h) : (s.modHalf b h f).half b k = s.half b k :=
  (s.half_modBough b k _).trans (vset_get_ne _ _ hk)

theorem State.modHalf_same (s : State) (b : BoughId) (h : Fin 2) (f : Half → Half) (hf : f (s.half b h) = s.half b h) : s.modHalf b h f = s := by
  rw [State.modHalf, State.setHalf, hf]
  exact s.modBough_same b _ (congrArg (fun v => { s.bough b with halves := v }) (vset_same (s.bough b).halves h))

theorem State.modHalf_modHalf (s : State) (b : BoughId) (h : Fin 2) (f g : Half → Half) : (s.modHalf b h f).modHalf b h g = s.modHalf b h (g ∘ f) := by
  have hread : (s.modHalf b h f).modHalf b h g = (s.modHalf b h f).setHalf b h (g (f (s.half b h))) :=
    congrArg (fun x => (s.modHalf b h f).setHalf b h (g x)) (s.half_modHalf b h f)
  rw [hread]
  simp only [State.modHalf, State.setHalf, State.modBough_modBough, Function.comp_def, vset_vset]

theorem State.tryFree_eq (s : State) (b : BoughId) (h : Fin 2) : ∃ filters, s.tryFree b h = { s.modHalf b h Half.freed with filters := filters } := by
  by_cases hdone : ((s.half b h).st == .draining && (s.half b h).drain.isEmpty && (s.half b h).sends.all (·.taken)) = true
  · obtain ⟨⟨hst, hdrain⟩, htaken⟩ : ((s.half b h).st = .draining ∧ (s.half b h).drain = []) ∧ (s.half b h).sends.all (·.taken) = true := by
      simpa using hdone
    have hfreed : s.modHalf b h Half.freed = s.setHalf b h Half.free := congrArg (s.setHalf b h) (if_pos hdone)
    rw [State.tryFree_of_drained hst hdrain htaken, hfreed]
    exact ⟨_, rfl⟩
  · have hkept : s.tryFree b h = s := if_neg hdone
    rw [hkept, s.modHalf_same b h Half.freed (if_neg hdone)]
    exact ⟨s.filters, rfl⟩

/-- A half after custody of its epochs on link i that satisfy p has passed (R178). -/
def Half.custodied (x : Half) (i : Nat) (p : SendSt → Bool) : Half := (x.passes i p).freed

/-- Custody reaches the halves of its bough, and the filters that wait for their drains. -/
theorem State.custody_eq (s : State) (b : BoughId) (i : Nat) (p : SendSt → Bool) : ∃ filters, s.custody b i p =
    { (s.modHalf b 0 fun x => x.custodied i p).modHalf b 1 fun x => x.custodied i p with filters := filters } := by
  have hone : ∀ (s : State) (h : Fin 2), ∃ filters,
      (s.modHalf b h fun x => x.passes i p).tryFree b h = { s.modHalf b h fun x => x.custodied i p with filters := filters } := by
    intro s h
    obtain ⟨filters, hfreed⟩ := (s.modHalf b h fun x => x.passes i p).tryFree_eq b h
    exact ⟨filters, by rw [hfreed, State.modHalf_modHalf]; rfl⟩
  obtain ⟨first, hfirst⟩ := hone s 0
  obtain ⟨second, hsecond⟩ := hone _ 1
  exact ⟨second, (congrArg (fun t : State => (t.modHalf b 1 fun x => x.passes i p).tryFree b 1) hfirst).trans hsecond⟩

theorem State.custody_frame (s : State) (b : BoughId) (i : Nat) (p : SendSt → Bool) :
    { s.custody b i p with boughs := s.boughs, filters := s.filters } = s := by
  obtain ⟨filters, hcustody⟩ := s.custody_eq b i p
  rw [hcustody]
  rfl

theorem State.boughs_custody (s : State) (b : BoughId) (i : Nat) (p : SendSt → Bool) :
    (s.custody b i p).boughs = ((s.modHalf b 0 fun x => x.custodied i p).modHalf b 1 fun x => x.custodied i p).boughs := by
  obtain ⟨filters, hcustody⟩ := s.custody_eq b i p
  rw [hcustody]

theorem State.half_custody (s : State) (b : BoughId) (i : Nat) (p : SendSt → Bool) (h : Fin 2) :
    (s.custody b i p).half b h = (s.half b h).custodied i p := by
  refine (congrArg (fun v => (v[b] : Bough).halves[h]) (s.boughs_custody b i p)).trans ?_
  change State.half _ b h = _
  rcases (show h = 0 ∨ h = 1 by omega) with rfl | rfl
  · rw [State.half_modHalf_ne _ b _ Fin.zero_ne_one, State.half_modHalf]
  · rw [State.half_modHalf, State.half_modHalf_ne _ b _ Fin.zero_ne_one.symm]

theorem State.bough_custody_ne (s : State) {b c : BoughId} (i : Nat) (p : SendSt → Bool) (hc : c ≠ b) : (s.custody b i p).bough c = s.bough c :=
  (congrArg (fun v => (v[c] : Bough)) (s.boughs_custody b i p)).trans ((State.bough_modHalf_ne _ 1 _ hc).trans (s.bough_modHalf_ne 0 _ hc))

theorem Half.custodied_of_filling {x : Half} (hst : x.st = .filling) (i : Nat) (p : SendSt → Bool) : x.custodied i p = x.passes i p :=
  Half.freed_of_ne (by simp [Half.passes, hst])

/-- A half whose drain waits for custody alone is free once it has passed (R178). -/
theorem Half.custodied_of_drained {x : Half} (hst : x.st = .draining) (hdrain : x.drain = []) {i : Nat} {p : SendSt → Bool}
    (hsends : x.sends.all (fun y => y.taken || (y.link == i && p y)) = true) : x.custodied i p = Half.free := by
  refine if_pos ?_
  simp only [Half.passes, hst, hdrain, List.all_map, Bool.and_eq_true, List.isEmpty_nil, beq_self_eq_true, true_and]
  refine List.all_eq_true.mpr fun y hy => ?_
  have htaken := List.all_eq_true.mp hsends y hy
  by_cases hlink : y.link = i ∧ p y = true
  · simp [hlink]
  · rcases (by simpa using htaken : y.taken = true ∨ y.link = i ∧ p y = true) with htaken | htaken
    · simp [hlink, htaken]
    · exact absurd htaken hlink

/-! ### Tokens and credits that come upstream (R175, R178, R181) -/

/-- A link whose sender keeps nothing of epoch ep, with the tokens ms still to come (R178). -/
def Link.forgets (l : Link) (ep : BitVec 16) (ms : List ChainMsg) : Link := { l with back := ms, tx := l.tx.filter fun t => t.ep ≠ ep }

/-- A link whose sender sends epoch ep and every later one again from byte 0 (R181). -/
def Link.replays (l : Link) (ep : BitVec 16) : Link :=
  { l with tx := l.tx.map fun t => if decide ((t.ep - ep).toNat < 0x8000) then { t with sent := 0, ended := false, commitSent := false } else t }

theorem onlyBough_foldl_countSent {s : State} {i : Nat} {l : Link} (hl : s.links[i]? = some l) (p : TxEpoch → Bool) (ts : List TxEpoch) :
    OnlyBough (boughId l.srcBough) s (ts.foldl (fun s t => if p t then s.countSent i t.ep 0 false else s) s) := by
  induction ts generalizing s with
  | nil => exact onlyBough_refl _ s
  | cons t ts ih =>
    rw [List.foldl_cons]
    split_ifs
    · have hcounted := onlyBough_countSent hl t.ep 0 false
      exact onlyBough_trans hcounted (ih (by rw [State.links_of_onlyBough hcounted, hl]))
    · exact ih hl

section

variable {s : State} {i : Nat} {l : Link} (hl : s.links[i]? = some l) (hinner : Inner l) {ep : BitVec 16} {ms : List ChainMsg} (e : BitVec 8)
include hl hinner

theorem exec_chainTaken_of_inner (hback : l.back = .taken ep :: ms) : exec (.chainTaken i e) s =
    .next ((s.setLink i (l.forgets ep ms)).custody (boughId l.srcBough) i fun y => y.epoch == ep) := by
  obtain ⟨hfrom, hto, hbroken, -⟩ := hinner
  have htoken : s.backToken i e false = some (ep, s.setLink i { l with back := ms }) := by
    simp [State.backToken, hl, hbroken, hto, hback, State.modLink_of_link hl]
  have hread := State.link_setLink hl { l with back := ms }
  show execChainTaken i e s = _
  simp only [execChainTaken, htoken, hread, State.modLink_of_link hread, State.setLink_setLink]
  exact if_neg (ne_true_of_eq_false hfrom)

/-- The sender's halves count the epochs that go out again as unsent; nothing but the sending bough sees it. -/
theorem exec_chainReplay_of_inner (hback : l.back = .replay ep :: ms) :
    ∃ y, exec (.chainReplay i e) s = .next ((s.setLink i (({ l with back := ms } : Link).replays ep)).setBough (boughId l.srcBough) y) := by
  obtain ⟨-, hto, hbroken, -⟩ := hinner
  have htoken : s.backToken i e true = some (ep, s.setLink i { l with back := ms }) := by
    simp [State.backToken, hl, hbroken, hto, hback, State.modLink_of_link hl]
  have hread := State.link_setLink hl { l with back := ms }
  have hagain := State.link_setLink hl (({ l with back := ms } : Link).replays ep)
  have hexec : exec (.chainReplay i e) s = .next ((({ l with back := ms } : Link).replays ep).tx.foldl
      (fun s t => if decide ((t.ep - ep).toNat < 0x8000) then s.countSent i t.ep 0 false else s)
      (s.setLink i (({ l with back := ms } : Link).replays ep))) := by
    simp only [Link.replays] at hagain ⊢
    show execChainReplay i e s = _
    simp only [execChainReplay, htoken, State.modLink_of_link hread, State.setLink_setLink, hagain]
  rw [hexec, State.eq_setBough_of_onlyBough (onlyBough_foldl_countSent hagain ..)]
  exact ⟨_, rfl⟩

omit hinner in
theorem exec_chainCreditReturn_of_inner (hfrom : l.fromGraft = false) (hto : l.toGraft = false) (n : Nat) : exec (.chainCreditReturn i n) s =
    .next (s.setLink i { l with owed := l.owed - min n l.owed, credits := l.credits + min n l.owed }) := by
  show execChainCreditReturn i n s = _
  simp only [execChainCreditReturn, hl, hfrom, hto, State.modLink_of_link hl]
  rfl

end

end Sys2Proof.Machine

open Sys2Proof Sys2Proof.Machine Sys2Proof.Safety

/-- Settles O23: each command by its equation on a link inside the device, the epochs' records by `Link.eps_joined`, the halves by
`State.half_custody`. -/
theorem chainTransfer : Obligations.ChainTransfer := by
  unfold Obligations.ChainTransfer
  refine ⟨fun s i x t => ?send, fun s i l rest ep lo e hl hinner hquiet hpast hsink => ?arrive, fun s i l ep ms e hl hinner hback => ?taken,
    fun s i l ep ms e hl hinner hback => ?replay, fun s i l n hl hfrom hto => ?credit⟩
  case send =>
    intro ws hx hinner hheld hnext hready
    refine ⟨fun hcredits => ?_, exec_chainTransferSend_of_uncovered hx hinner hheld hnext rfl hready⟩
    obtain ⟨y, hexec⟩ := exec_chainTransferSend_of_covered hx hinner hheld hnext rfl hready hcredits
    obtain ⟨⟨l, hl⟩, -⟩ := State.refreshTx_eq hx
    refine ⟨_, hexec, ⟨_, _, State.link_setLink hl _, Nat.sub_add_cancel hcredits, List.append_assoc .., fun m hm => ?_, rfl, rfl, rfl⟩,
      fun j hj => State.link_setLink_ne _ _ hj, rfl⟩
    obtain ⟨u, -, hu⟩ := List.mem_flatMap.mp hm
    exact TxEpoch.ne_data_of_mem_tokens hu
  case arrive =>
    intro r
    refine ⟨fun o ws n hwire ho => ?_, fun len n hwire => ?_, fun hwire => ?_, fun hwire => ?_⟩
    · obtain ⟨hfind, hothers⟩ := Link.eps_joined (({ l with wire := rest } : Link).joined ep id) ep
        (f := fun x => { x with words := x.words ++ poisonedBy ws lo }) fun _ => rfl
      rw [Link.epochRec_opened] at hfind
      refine ⟨_, exec_chainTransferArrive_of_inner hl hinner hquiet hpast e n hsink hwire ho lo,
        ⟨_, poisonedBy ws lo, State.link_setLink hl _, rfl, hfind, ?_, fun j w p hj => ?_, rfl, rfl, fun k hk => ?_⟩, onlyLink_setLink s i _⟩
      · rw [poisonedBy_eq_mapIdx, List.length_mapIdx]
      · rw [poisonedBy_eq_mapIdx, List.getElem?_mapIdx, hj]
        rfl
      · exact (hothers k hk).trans (Link.epochRec_opened ..)
    · obtain ⟨hfind, hothers⟩ := Link.eps_joined { l with wire := rest } ep (f := fun x => { x with endLen := some len }) fun _ => rfl
      exact ⟨_, exec_chainEnd_of_inner hl hinner hquiet hpast e n hwire, ⟨_, State.link_setLink hl _, rfl, hfind, hothers⟩, onlyLink_setLink s i _⟩
    · obtain ⟨hfind, hothers⟩ := Link.eps_joined { l with wire := rest } ep (f := fun x => { x with committed := true }) fun _ => rfl
      exact ⟨_, exec_chainCommit_of_inner hl hinner hquiet hpast e hwire, ⟨_, State.link_setLink hl _, rfl, hfind, hothers⟩, onlyLink_setLink s i _⟩
    · obtain ⟨expect, dead, tx, hskips⟩ := (({ l with wire := rest } : Link).dropped ep).skips_eq ep
      have hexec := exec_chainAbort_of_inner hl hinner hquiet hpast e hwire
      rw [hskips] at hexec
      refine ⟨_, hexec, ⟨_, State.link_setLink hl _, rfl, fun x hx => ?_, rfl, fun k hk => ?_⟩, onlyLink_setLink s i _⟩
      · exact of_decide_eq_true (List.mem_filter.mp hx).2
      · exact Link.epochRec_dropped { l with wire := rest } hk
  case taken =>
    have hexec := exec_chainTaken_of_inner hl hinner e hback
    have hlinked := State.link_setLink hl (l.forgets ep ms)
    have hhalf := State.half_custody (s.setLink i (l.forgets ep ms)) (boughId l.srcBough) i fun y => y.epoch == ep
    have hothers := fun b => State.bough_custody_ne (s.setLink i (l.forgets ep ms)) (b := boughId l.srcBough) (c := b) i fun y => y.epoch == ep
    have hframe := State.custody_frame (s.setLink i (l.forgets ep ms)) (boughId l.srcBough) i fun y => y.epoch == ep
    generalize State.custody _ _ _ _ = v at hexec hhalf hothers hframe
    have hlinks := congrArg State.links hframe
    refine ⟨v, hexec, ⟨_, (congrArg (·[i]?) hlinks).trans hlinked, rfl, rfl, rfl, rfl⟩, fun h hst => ?_, fun h hst hdrain hsends => ?_, hothers,
      fun j hj => (congrArg (·[j]?) hlinks).trans (s.link_setLink_ne _ hj), congrArg (fun t : State => { t with links := s.links }) hframe⟩
    · exact congrArg Half.sends ((hhalf h).trans (Half.custodied_of_filling hst i _))
    · exact (hhalf h).trans (Half.custodied_of_drained hst hdrain hsends)
  case replay =>
    obtain ⟨y, hexec⟩ := exec_chainReplay_of_inner hl hinner e hback
    refine ⟨_, hexec, ⟨_, State.link_setLink hl _, rfl, ?_⟩, fun b hb => State.bough_setBough_ne _ _ hb, fun j hj => State.link_setLink_ne s _ hj, rfl⟩
    simp [Link.replays]
  case credit =>
    exact ⟨_, exec_chainCreditReturn_of_inner hl hfrom hto n, State.link_setLink hl _, onlyLink_setLink s i _⟩
end

section
/-! SUPPORT. Breaks and rearming of a link inside the device (R187, R188, R190, R194, R197): what a break records and empties where no run of its
boughs fills, and the settling of O24. -/

namespace Sys2Proof.Machine

open Sys2Proof.Safety

/-! ### A break where no run fills (R184, R188) -/

theorem State.keepWhole_of_noReceiver {s : State} {i : Nat} {l : Link} (hl : s.links[i]? = some l) (hquiet : NoReceiver s l) : s.keepWhole i = s := by
  simp only [State.keepWhole, hl]
  rw [List.foldl_fixed' fun e => by simp only [State.recvOf_of_noReceiver hl hquiet]]
  exact State.modRecvs_of_noReceiver hl hquiet _

theorem State.breakHalf_of_not_filling {s : State} {b : BoughId} {h : Fin 2} (hst : (s.half b h).st ≠ .filling) (i : Nat) (l : Link) (code : BitVec 4) :
    s.breakHalf i l code b h = s := by
  simp [State.breakHalf, hst]

theorem State.breakBough_of_not_filling {s : State} {b : BoughId} (hst : ∀ h, (s.half b h).st ≠ .filling) (i : Nat) (l : Link) (code : BitVec 4) :
    s.breakBough i l code b = s := by
  simp [State.breakBough, State.breakHalf_of_not_filling (hst _)]

/-- Custody starts no run. -/
theorem Half.custodied_not_filling {x : Half} (hst : x.st ≠ .filling) (i : Nat) (p : SendSt → Bool) : (x.custodied i p).st ≠ .filling := by
  unfold Half.custodied Half.freed
  split_ifs
  · exact HalfSt.noConfusion
  · exact hst

theorem State.custody_not_filling {s : State} {c : BoughId} {h : Fin 2} (hst : (s.half c h).st ≠ .filling) (b : BoughId) (i : Nat) (p : SendSt → Bool) :
    ((s.custody b i p).half c h).st ≠ .filling := by
  by_cases hc : c = b
  · subst hc
    rw [State.half_custody]
    exact Half.custodied_not_filling hst i p
  · rwa [State.half, State.bough_custody_ne s i p hc]

/-! ### The record of a break (R187, R193, R197) -/

/-- A link broken with this code. -/
def Link.recorded (l : Link) (code : BitVec 4) : Link :=
  { l with broken := true, code := code, causes := l.causes ||| BitVec.ofNat 7 (2 ^ code.toNat) }

/-- A broken link: its buffers and what it carried are gone (R188). -/
def Link.emptied (l : Link) : Link := { l with eps := [], relay := [], wire := [], back := [], tx := [], owed := 0, sink := false }

/-- Bit n of grove g's GRV_CHAIN_BREAK is set, with one crown event when it was clear (R193). -/
def State.markBreak (s : State) (g : GroveId) (n : Nat) : State :=
  let t := s.modGrove g fun x => { x with brk := x.brk ||| BitVec.ofNat 32 (2 ^ n) }
  if s.groves[g].brk.getLsbD n then t else t.raise (.chainBreak g n)

theorem State.markBreak_frame (s : State) (g : GroveId) (n : Nat) : { s.markBreak g n with groves := s.groves, crownEvts := s.crownEvts } = s := by
  unfold State.markBreak
  cases s.groves[g].brk.getLsbD n <;> rfl

theorem State.groves_markBreak (s : State) (g : GroveId) (n : Nat) :
    (s.markBreak g n).groves = vmod s.groves g fun x => { x with brk := x.brk ||| BitVec.ofNat 32 (2 ^ n) } := by
  unfold State.markBreak
  cases s.groves[g].brk.getLsbD n <;> rfl

theorem State.crownEvts_markBreak {s : State} {g : GroveId} {n : Nat} (hclear : s.groves[g].brk.getLsbD n = false) :
    (s.markBreak g n).crownEvts = s.crownEvts ++ [.chainBreak g n] := by
  unfold State.markBreak
  extract_lets t
  exact congrArg State.crownEvts (if_neg (ne_true_of_eq_false hclear))

theorem State.recordBreak_of_buf {s : State} {i : Nat} {l : Link} (hl : s.links[i]? = some l) {n : Nat} (hbuf : l.buf = some n) (code : BitVec 4) :
    s.recordBreak i code = (s.setLink i (l.recorded code)).markBreak l.bufGrove n := by
  have hrecorded := State.link_setLink hl (l.recorded code)
  unfold Link.recorded at hrecorded ⊢
  simp only [State.recordBreak, State.modLink_of_link hl, hrecorded]
  simp only [hbuf]
  rfl

/-! ### LINK_BREAK (R187, R188) -/

section

variable {s : State} {i : Nat} {l : Link} (hl : s.links[i]? = some l) (hinner : Inner l) {n : Nat} (hbuf : l.buf = some n) (hquiet : NoReceiver s l)
  (hidle : ∀ h, (s.half (boughId l.srcBough) h).st ≠ .filling)
include hl hinner hbuf hquiet hidle

/-- A break records itself, empties the link and completes what its sender's halves wait for. -/
theorem State.breakLink_of_inner (code : BitVec 4) : s.breakLink i code =
    (((s.setLink i (l.recorded code)).markBreak l.bufGrove n).setLink i (l.recorded code).emptied).custody (boughId l.srcBough) i fun _ => true := by
  obtain ⟨hfrom, hto, hbroken, -⟩ := hinner
  have hmark := (s.setLink i (l.recorded code)).markBreak_frame l.bufGrove n
  have hlink : ((s.setLink i (l.recorded code)).markBreak l.bufGrove n).links[i]? = some (l.recorded code) :=
    (congrArg (·[i]?) (congrArg State.links hmark)).trans (State.link_setLink hl _)
  have hhalf : ∀ b h, (((s.setLink i (l.recorded code)).markBreak l.bufGrove n).setLink i (l.recorded code).emptied).half b h = s.half b h :=
    fun b h => (congrArg (fun t : State => t.half b h) hmark :)
  have hemptied : (((s.setLink i (l.recorded code)).markBreak l.bufGrove n).modLink i fun l =>
      { l with eps := [], relay := [], wire := [], back := [], tx := [], owed := 0, sink := false }) = _ := State.modLink_of_link hlink Link.emptied
  simp only [State.breakLink, hl, hbroken, hfrom, hto, State.keepWhole_of_noReceiver hl hquiet, State.recordBreak_of_buf hl hbuf, hemptied]
  generalize State.setLink _ i (l.recorded code).emptied = u at hhalf
  have hsender := State.breakBough_of_not_filling (fun h => by rw [hhalf]; exact hidle h) i l code
  have hreceiver := State.breakBough_of_not_filling (s := u.custody (boughId l.srcBough) i fun _ => true) (b := boughId l.dstBough)
    (fun h => State.custody_not_filling (by rw [hhalf]; exact hquiet h) _ i _) i l code
  simp [hsender, hreceiver]

theorem exec_linkBreak_of_inner {code : BitVec 4} (hlo : 1 ≤ code.toNat) (hhi : code.toNat ≤ 6) : exec (.linkBreak i code) s =
    .next ((((s.setLink i (l.recorded code)).markBreak l.bufGrove n).setLink i (l.recorded code).emptied).custody (boughId l.srcBough) i fun _ => true) := by
  have hsegments : s.dropSegments l = s := by simp [State.dropSegments, hinner.1, hinner.2.1]
  show execLinkBreak i code s = _
  simp only [execLinkBreak, hl, hsegments, ite_self]
  rw [if_pos ⟨hlo, hhi⟩, State.breakLink_of_inner hl hinner hbuf hquiet hidle]

end

/-! ### REARM (R190, R194) -/

theorem State.rearmLink_of_inner {s : State} {i : Nat} {l : Link} (hl : s.links[i]? = some l) (hfrom : l.fromGraft = false) :
    s.rearmLink i = s.setLink i l.rearm := by
  have hrearmed := State.link_setLink hl l.rearm
  simp only [State.rearmLink, hl, hfrom, State.modLink_of_link hl]
  refine (State.giveCredit_of_inner hrearmed hfrom 0).trans ?_
  rw [State.setLink_setLink]
  rfl

/-- REARM of the one link of a device (R190, R194). -/
theorem exec_rearm_of_only {s : State} {l : Link} (hlinks : s.links = [l]) (hfrom : l.fromGraft = false) {n : Nat} (hbuf : l.buf = some n)
    (hbroken : l.broken = true) (hgone : s.breakPersists l = false) (bits : BitVec 32) :
    exec (.rearm l.bufGrove bits) s = .next (if bits.getLsbD n then s.setLink 0 l.rearm else s) := by
  have hl : s.links[0]? = some l := by rw [hlinks]; rfl
  show execRearm l.bufGrove bits s = _
  have hrange : List.range s.links.length = [0] := by rw [hlinks]; rfl
  simp only [execRearm, hrange, List.foldl_cons, List.foldl_nil, hl, hbuf, hbroken, hgone, State.rearmLink_of_inner hl hfrom]
  simp

end Sys2Proof.Machine

open Sys2Proof Sys2Proof.Machine Sys2Proof.Safety

/-- Settles O24: the break by `exec_linkBreak_of_inner` and what its record leaves, REARM by `exec_rearm_of_only`. -/
theorem breakAndRearm : Obligations.BreakAndRearm := by
  unfold Obligations.BreakAndRearm
  refine ⟨fun s i l n code hl hinner hbuf hquiet hfree hlo hhi => ?breaks, fun s l g n bits hlinks hfrom hto hbuf hgrove hbroken hgone => ?rearms⟩
  case breaks =>
    have hidle : ∀ h, (s.half (boughId l.srcBough) h).st ≠ .filling := fun h => by simp [hfree h]
    have hexec := exec_linkBreak_of_inner hl hinner hbuf hquiet hidle hlo hhi
    have hgroves := (s.setLink i (l.recorded code)).groves_markBreak l.bufGrove n
    have hevts := State.crownEvts_markBreak (s := s.setLink i (l.recorded code)) (g := l.bufGrove) (n := n)
    have hmark := (s.setLink i (l.recorded code)).markBreak_frame l.bufGrove n
    generalize State.markBreak _ _ _ = u at hexec hgroves hevts hmark
    have hcustody := (u.setLink i (l.recorded code).emptied).custody_frame (boughId l.srcBough) i fun _ => true
    generalize State.custody _ _ _ _ = v at hexec hcustody
    have hlinks : v.links = s.links.set i (l.recorded code).emptied :=
      (congrArg State.links hcustody).trans ((congrArg (fun t : State => t.links.set i _) hmark).trans (List.set_set _))
    have hbrk := (congrArg State.groves hcustody).trans hgroves
    refine ⟨v, hexec, ?_, ?_, fun j hj => ?_, fun g hg => ?_, fun hclear => ?_, ?_, ?_⟩
    · exact (congrArg (·[i]?) hlinks).trans (State.link_setLink hl _)
    · exact (congrArg (fun w => w[l.bufGrove].brk) hbrk).trans (congrArg Grove.brk (vmod_get_self s.groves l.bufGrove _))
    · exact (congrArg (·[j]?) hlinks).trans (s.link_setLink_ne _ hj)
    · exact (congrArg (·[g]) hbrk).trans (vmod_get_ne s.groves _ hg)
    · exact (congrArg State.crownEvts hcustody).trans (hevts hclear)
    · exact (congrArg State.mem hcustody).trans (congrArg State.mem hmark :)
    · exact (congrArg State.queues hcustody).trans (congrArg State.queues hmark :)
  case rearms =>
    subst hgrove
    refine ⟨_, exec_rearm_of_only hlinks hfrom hbuf hbroken hgone bits, fun hbit => ?_, fun hbit => if_neg (by simp [hbit]), ?_⟩
    · rw [if_pos hbit]
      have hrearmed : (s.setLink 0 l.rearm).links = [l.rearm] := congrArg (·.set 0 l.rearm) hlinks
      have hcredits : l.rearm.credits = 256 := by simp [Link.rearm, Link.armed, hto]
      exact ⟨_, hrearmed, rfl, hcredits, rfl, rfl, rfl, rfl, rfl, rfl, rfl, rfl, rfl⟩
    · split_ifs <;> rfl
end

section
/-! SUPPORT. What link breaks and discarded runs reach, whatever fills (R158, R181, R187, R188): the two ends of the links, and of a bough neither
its twig, its ownership cache, its FREEZE nor its reset. -/

namespace Sys2Proof.Machine

open Sys2Proof.Safety

/-- What no break and no discard of a run changes in a bough. -/
def Bough.lasting (y : Bough) : Twig × List (Nat × Option PlotId) × Bool × Bool := (y.twig, y.ocache, y.freeze, y.resetting)

/-- From s to t, links, what they carry and the runs at their ends have changed alone. -/
structure Breaks (s t : State) : Prop where
  frame : { t with links := s.links, grafts := s.grafts, boughs := s.boughs, filters := s.filters, groves := s.groves, crownEvts := s.crownEvts } = s
  bough : ∀ b, (t.bough b).lasting = (s.bough b).lasting

namespace Breaks

theorem refl (s : State) : Breaks s s := ⟨rfl, fun _ => rfl⟩

theorem trans {s t u : State} (h : Breaks s t) (k : Breaks t u) : Breaks s u := by
  refine ⟨?_, fun b => (k.bough b).trans (h.bough b)⟩
  have hback := congrArg (fun x : State =>
    { x with links := s.links, grafts := s.grafts, boughs := s.boughs, filters := s.filters, groves := s.groves, crownEvts := s.crownEvts }) k.frame
  exact (hback :).trans h.frame

theorem foldl {α : Type} {f : State → α → State} (h : ∀ s a, Breaks s (f s a)) (l : List α) (s : State) : Breaks s (l.foldl f s) :=
  foldl_rel refl (fun _ _ _ => trans) h l s

theorem of_links_grafts (s : State) (links : List Link) (grafts : Vector GraftPort 4) : Breaks s { s with links := links, grafts := grafts } :=
  ⟨rfl, fun _ => rfl⟩

theorem modBough {s : State} {b : BoughId} {f : Bough → Bough} (h : (f (s.bough b)).lasting = (s.bough b).lasting) : Breaks s (s.modBough b f) := by
  refine ⟨rfl, fun c => ?_⟩
  by_cases hc : c = b
  · rw [hc, State.bough_modBough, h]
  · rw [State.bough_modBough_ne s f hc]

theorem modHalf (s : State) (b : BoughId) (h : Fin 2) (f : Half → Half) : Breaks s (s.modHalf b h f) := by
  unfold State.modHalf State.setHalf
  exact modBough rfl

end Breaks

theorem State.modLink_breaks (s : State) (i : Nat) (f : Link → Link) : Breaks s (s.modLink i f) := .of_links_grafts s _ s.grafts

theorem State.giveCredit_breaks (s : State) (i k : Nat) : Breaks s (s.giveCredit i k) := by
  obtain ⟨links, grafts, h⟩ := s.giveCredit_eq i k
  exact h ▸ .of_links_grafts s links grafts

theorem State.leaveBuffer_breaks (s : State) (i k : Nat) : Breaks s (s.leaveBuffer i k) := by
  unfold State.leaveBuffer
  split
  · exact .refl s
  · split_ifs
    · exact s.modLink_breaks i _
    · exact s.giveCredit_breaks i k

theorem State.sinkLinks_breaks (s : State) (is : List Nat) : Breaks s (s.sinkLinks is) := by
  have hdrop : ∀ (s : State) (i : Nat), Breaks s (s.sinkDrop i) := by
    intro s i
    unfold State.sinkDrop
    split
    · exact .refl s
    · split_ifs
      · exact (s.modLink_breaks i _).trans (State.leaveBuffer_breaks ..)
      · exact .refl s
  exact .foldl (fun s i => (s.modLink_breaks i _).trans (hdrop _ i)) is s

/-- An ABORT reaches the link or its port of exit; it is metered to no plot. -/
theorem State.sendDown_abort_breaks (s : State) (i : Nat) (ep : BitVec 16) : Breaks s (s.sendDown i (.abort ep)) := by
  unfold State.sendDown
  split
  · exact .refl s
  next l _ =>
    by_cases hgraft : l.toGraft = true
    · rw [if_pos hgraft]
      exact .of_links_grafts s s.links _
    · rw [if_neg hgraft]
      exact s.modLink_breaks i _

theorem abortSends_breaks (xs : List SendSt) (s : State) : Breaks s (abortSends xs s) := by
  induction xs generalizing s with
  | nil => exact .refl s
  | cons x xs ih =>
    refine Breaks.trans ?_ (ih _)
    split
    · exact .refl s
    · split_ifs
      · exact .refl s
      · exact (s.modLink_breaks ..).trans (State.sendDown_abort_breaks ..)

theorem State.discardHalf_breaks (s : State) (b : BoughId) (h : Fin 2) : Breaks s (s.discardHalf b h) := by
  unfold State.discardHalf
  dsimp only
  split_ifs
  · exact (abortSends_breaks _ s).trans (.modBough rfl)
  · exact .refl s

theorem State.takeVFault_breaks (s : State) (b : BoughId) (h : Fin 2) (cause : Cause) (elem : Nat) (addr : Word) :
    Breaks s (s.takeVFault b h cause elem addr) := by
  have hone : ∀ (s : State) (ord : Nat) (k : Fin 2),
      Breaks s (if (s.half b k).st == .filling && decide (ord ≤ (s.half b k).ord) then s.discardHalf b k else s) := by
    intro s ord k
    split_ifs
    · exact s.discardHalf_breaks b k
    · exact .refl s
  have hdiscard : ∀ ord, Breaks s (s.discardFrom b ord) := fun ord => (hone s ord 0).trans (hone _ ord 1)
  unfold State.takeVFault
  exact ((hdiscard _).trans (State.sinkLinks_breaks ..)).trans (.modBough rfl)

theorem State.breakHalf_breaks (s : State) (i : Nat) (l : Link) (code : BitVec 4) (b : BoughId) (h : Fin 2) : Breaks s (s.breakHalf i l code b h) := by
  have hsignal : ∀ elem addr, Breaks s (s.signalBreak b h elem addr) := by
    intro elem addr
    unfold State.signalBreak
    split_ifs
    · exact s.takeVFault_breaks ..
    · exact .modHalf s b h _
  unfold State.breakHalf
  dsimp only
  split_ifs
  · split
    · exact hsignal ..
    · split_ifs
      · exact .refl s
      · exact hsignal ..
    · exact .refl s
  · exact .refl s

theorem State.breakBough_breaks (s : State) (i : Nat) (l : Link) (code : BitVec 4) (b : BoughId) : Breaks s (s.breakBough i l code b) := by
  unfold State.breakBough
  split_ifs
  all_goals exact (s.breakHalf_breaks ..).trans (State.breakHalf_breaks ..)

theorem State.keepWhole_breaks (s : State) (i : Nat) : Breaks s (s.keepWhole i) := by
  have hrecvs : ∀ (s : State) (f : RecvSt → RecvSt), Breaks s (s.modRecvs i f) := by
    intro s f
    unfold State.modRecvs
    split
    · exact .refl s
    · split_ifs
      · exact .refl s
      · exact .modBough rfl
  unfold State.keepWhole
  split
  · exact .refl s
  · refine (Breaks.foldl (fun s e => ?_) _ s).trans (hrecvs ..)
    split
    · dsimp only
      split_ifs
      · exact (hrecvs ..).trans (State.modLink_breaks ..)
      · exact .refl s
    · exact .refl s

theorem State.recordBreak_breaks (s : State) (i : Nat) (code : BitVec 4) : Breaks s (s.recordBreak i code) := by
  unfold State.recordBreak
  dsimp only
  split
  · exact s.modLink_breaks i _
  · split
    · exact s.modLink_breaks i _
    · split_ifs <;> exact ⟨rfl, fun _ => rfl⟩

theorem State.custody_breaks (s : State) (b : BoughId) (i : Nat) (p : SendSt → Bool) : Breaks s (s.custody b i p) := by
  obtain ⟨filters, hcustody⟩ := s.custody_eq b i p
  have hhalves := (Breaks.modHalf s b 0 fun x => x.custodied i p).trans (.modHalf _ b 1 fun x => x.custodied i p)
  rw [hcustody]
  exact ⟨hhalves.frame, hhalves.bough⟩

theorem State.breakLink_breaks (s : State) (i : Nat) (code : BitVec 4) : Breaks s (s.breakLink i code) := by
  unfold State.breakLink
  split
  · exact .refl s
  · have hrecorded := (s.keepWhole_breaks i).trans (State.recordBreak_breaks _ i code)
    split_ifs
    · exact s.recordBreak_breaks i code
    · exact hrecorded.trans (State.modLink_breaks ..)
    · exact (hrecorded.trans (State.modLink_breaks ..)).trans (State.breakBough_breaks ..)
    · exact ((hrecorded.trans (State.modLink_breaks ..)).trans (State.breakBough_breaks ..)).trans (State.custody_breaks ..)
    · exact (((hrecorded.trans (State.modLink_breaks ..)).trans (State.breakBough_breaks ..)).trans (State.custody_breaks ..)).trans
        (State.breakBough_breaks ..)

theorem State.breakLinks_breaks (s : State) (p : Link → Bool) (code : BitVec 4) : Breaks s (s.breakLinks p code) := by
  refine .foldl (fun s i => ?_) _ s
  split
  · split_ifs
    · exact s.breakLink_breaks i code
    · exact .refl s
  · exact .refl s

end Sys2Proof.Machine
end

section
/-! SUPPORT. What the ledger writes down and what plot events reach (R370, R372, R419, R423, R426): records, notes and packets leave every bough, the
memory and the image as they were. -/

namespace Sys2Proof.Machine

open Sys2Proof.Safety

/-! ### Records and notes of the ledger -/

/-- From s to t the ledger has written items and counters alone. -/
structure Books (s t : State) : Prop where
  frame : { t with plots := s.plots, ring := s.ring, hwd := s.hwd } = s
  tick : t.ring.tick = s.ring.tick
  plot : ∀ p : PlotId, { t.plots[p] with cnt := s.plots[p].cnt } = s.plots[p]

namespace Books

theorem refl (s : State) : Books s s := ⟨rfl, rfl, fun _ => rfl⟩

theorem trans {s t u : State} (h : Books s t) (k : Books t u) : Books s u where
  frame := (congrArg (fun x : State => { x with plots := s.plots, ring := s.ring, hwd := s.hwd }) k.frame :).trans h.frame
  tick := k.tick.trans h.tick
  plot p := (congrArg (fun x : Plot => { x with cnt := s.plots[p].cnt }) (k.plot p) :).trans (h.plot p)

theorem foldl {α : Type} {f : State → α → State} (h : ∀ s a, Books s (f s a)) (l : List α) (s : State) : Books s (l.foldl f s) :=
  foldl_rel refl (fun _ _ _ => trans) h l s

theorem modCnt (s : State) (p : PlotId) (f : Plot → Counters) : Books s (s.modPlot p fun x => { x with cnt := f x }) := by
  refine ⟨rfl, rfl, fun q => ?_⟩
  have hplot : (s.modPlot p fun x => { x with cnt := f x }).plots[q] = _ := vmod_get s.plots p q _
  rw [hplot]
  split_ifs with hq
  · rw [hq]
  · rfl

end Books

theorem State.emitItem_books (s : State) (typ : BitVec 8) (covered : List Word) (plot : Option PlotId) : Books s (s.emitItem typ covered plot) := by
  have hrequest : ∀ (s : State) (r : SigReq), Books s (s.requestSig r) := by
    intro s r
    unfold State.requestSig
    split_ifs <;> exact ⟨rfl, rfl, fun _ => rfl⟩
  have hadd : ∀ items, Books s { s with ring := { s.ring with unsigned := items } } := fun _ => ⟨rfl, rfl, fun _ => rfl⟩
  unfold State.emitItem
  split_ifs
  · exact .refl s
  · exact ⟨rfl, rfl, fun _ => rfl⟩
  · exact (hadd _).trans (hrequest ..)

theorem State.note_books (s : State) (kind : Nat) (d0 d1 : Word) : Books s (s.note kind d0 d1) := s.emitItem_books ..

theorem State.closeAt_books (s : State) (p : PlotId) (flags : Word) : Books s (s.closeAt p flags) := by
  unfold State.closeAt
  split_ifs
  · exact .refl s
  · exact (s.emitItem_books ..).trans (.modCnt ..)

theorem State.recFlag_books (s : State) (p : PlotId) (bit : Nat) : Books s (s.recFlag p bit) := .modCnt s p _

/-- Opening the records of the plots that a switch changes. -/
theorem State.openAll_books (s : State) (old : Option Grain) (g : Grain) : Books s (s.openAll old g) := by
  refine .foldl (fun s m => ?_) _ s
  split_ifs
  · exact .refl s
  · exact (Books.modCnt s _ _).trans (State.recFlag_books ..)

/-- Closing the records of the plots that a switch changes. -/
theorem State.closeForSwitch_books (s : State) (old : Option Grain) (g : Grain) : Books s (s.closeForSwitch old g) := by
  unfold State.closeForSwitch
  split
  · exact .refl s
  next o =>
    extract_lets act t u
    have hclosed : Books t u := by
      refine .foldl (fun s m => ?_) _ t
      split_ifs
      · exact .refl s
      · exact s.closeAt_books ..
    clear_value u
    obtain ⟨hframe, htick, hplot⟩ := hclosed
    refine ⟨?_, htick, hplot⟩
    have hback := congrArg (fun x : State => { x with grn := { x.grn with active := act } }) hframe
    exact hback

/-! ### Packets and plot events -/

/-- From s to t packets have been posted alone, with their notices and metering. -/
structure Posts (s t : State) : Prop where
  frame : { t with queues := s.queues, plots := s.plots, grafts := s.grafts, crownEvts := s.crownEvts, outbox := s.outbox } = s

namespace Posts

theorem refl (s : State) : Posts s s := ⟨rfl⟩

theorem trans {s t u : State} (h : Posts s t) (k : Posts t u) : Posts s u where
  frame := (congrArg (fun x : State =>
    { x with queues := s.queues, plots := s.plots, grafts := s.grafts, crownEvts := s.crownEvts, outbox := s.outbox }) k.frame :).trans h.frame

theorem foldl {α : Type} {f : State → α → State} (h : ∀ s a, Posts s (f s a)) (l : List α) (s : State) : Posts s (l.foldl f s) :=
  foldl_rel refl (fun _ _ _ => trans) h l s

theorem modQueue (s : State) (q : QueueId) (f : Queue → Queue) : Posts s (s.modQueue q f) := ⟨rfl⟩

theorem modPlot (s : State) (p : PlotId) (f : Plot → Plot) : Posts s (s.modPlot p f) := ⟨rfl⟩

theorem waitFlit (s : State) (n : PortId) (cls flow kind : Nat) (ws : List Word) : Posts s (s.waitFlit n cls flow kind ws) := ⟨rfl⟩

theorem emit (s : State) (o : Output) : Posts s (s.emit o) := ⟨rfl⟩

theorem raise (s : State) (e : CrownEvt) : Posts s (s.raise e) := ⟨rfl⟩

theorem meter (s : State) (p : Option Nat) (f : Counters → Counters) : Posts s (s.meter p f) := by
  obtain ⟨plots, h⟩ := s.meter_eq p f
  exact h ▸ ⟨rfl⟩

end Posts

theorem State.sendQueueWords_posts (s : State) (n : PortId) (tag : BitVec 32) (pseq : BitVec 16) (fuel off : Nat) (ws : List (Word × Bool)) :
    Posts s (s.sendQueueWords n tag pseq fuel off ws) := by
  induction fuel generalizing s off ws with
  | zero => exact .refl s
  | succ fuel ih =>
    cases ws with
    | nil => exact .refl s
    | cons w ws => exact (Posts.waitFlit s n ..).trans (ih ..)

theorem State.queueNotice_posts (s : State) (q : QueueId) : Posts s (s.queueNotice q) := by
  have hmsix : ∀ (fn : HostFn) (entry : Nat), Posts s (s.sendMsix fn entry) := by
    intro fn entry
    unfold State.sendMsix
    dsimp only
    split_ifs
    · exact .emit s _
    · exact .refl s
  have hgraft : Posts s (s.graftTrySend q) := by
    unfold State.graftTrySend
    split
    · exact .refl s
    · split
      · split
        · exact .refl s
        · dsimp only
          split_ifs
          · exact ((Posts.modQueue s q _).trans (.meter ..)).trans (State.sendQueueWords_posts ..)
          · exact .refl s
      · exact .refl s
  unfold State.queueNotice
  split
  · exact .refl s
  · split
    · split
      · exact hmsix ..
      · exact .refl s
    · exact .raise s _
    · exact hgraft
    · exact .refl s

theorem State.qClose_posts (s : State) (q : QueueId) (typ : BitVec 8) (tag : BitVec 32) (lenBad : Bool) : Posts s (s.qClose q typ tag lenBad) := by
  unfold State.qClose
  split
  · exact .refl s
  · exact ((Posts.modQueue s q _).trans (.meter ..)).trans (State.queueNotice_posts ..)

theorem State.postPacket_posts {s t : State} {q : QueueId} {typ : Nat} {ws : List Word} (h : s.postPacket q typ ws = some t) : Posts s t := by
  unfold State.postPacket State.qOpen at h
  dsimp only at h
  split_ifs at h
  rw [← Option.some.inj h]
  exact ((Posts.modQueue s q _).trans (.modQueue _ q _)).trans (State.qClose_posts ..)

theorem State.sendEvent_posts (s : State) (p : PlotId) (e : PEvent) : Posts s (s.sendEvent p e) := by
  unfold State.sendEvent
  split
  · exact .refl s
  · split
    · exact .refl s
    · split
      next t ht => exact State.postPacket_posts ht
      · exact .modPlot s p _

theorem State.plotEvent_posts (s : State) (p : PlotId) (code bough unit : Nat) (detail : Word) : Posts s (s.plotEvent p code bough unit detail) := by
  unfold State.plotEvent
  dsimp only
  split_ifs
  · exact .refl s
  · exact (Posts.modPlot s p _).trans (.modPlot ..)
  · exact (Posts.modPlot s p _).trans (State.sendEvent_posts ..)

theorem State.postHeldEvents_posts (s : State) (p : PlotId) : Posts s (s.postHeldEvents p) := by
  unfold State.postHeldEvents
  exact (Posts.modPlot s p _).trans (.foldl (fun s e => s.sendEvent_posts p e) ..)

end Sys2Proof.Machine
end

section
/-! SUPPORT. The start of the plots after the switch and the commands that find nothing to act on (R304, R411, R414): the first parts of O39. -/

namespace Sys2Proof.Machine

open Sys2Proof.Safety

/-! ### PLOT_START (R372, R411) -/

/-- From s to t events have been posted and records of the firmware and of what is owed have changed, in the same mode. -/
structure Reports (s t : State) : Prop where
  frame : { t with queues := s.queues, plots := s.plots, grafts := s.grafts, crownEvts := s.crownEvts, outbox := s.outbox, sys := s.sys } = s
  mode : t.sys.mode = s.sys.mode

theorem Reports.trans {s t u : State} (h : Reports s t) (k : Reports t u) : Reports s u where
  frame := (congrArg (fun x : State =>
    { x with queues := s.queues, plots := s.plots, grafts := s.grafts, crownEvts := s.crownEvts, outbox := s.outbox, sys := s.sys }) k.frame :).trans h.frame
  mode := k.mode.trans h.mode

theorem Posts.reports {s t : State} (h : Posts s t) : Reports s t where
  frame := (congrArg (fun x : State => { x with sys := s.sys }) h.frame :)
  mode := (congrArg (fun x : State => x.sys.mode) h.frame :)

theorem State.fwReachesRun_reports (s : State) : Reports s s.fwReachesRun := by
  unfold State.fwReachesRun
  split_ifs <;> exact ⟨rfl, rfl⟩

theorem State.postOwed_reports (s : State) : Reports s s.postOwed := by
  unfold State.postOwed
  extract_lets t
  have ht : Posts s t := .foldl (fun s e => .foldl (fun s m => by
    split_ifs
    · exact (Posts.modPlot s _ _).trans (State.plotEvent_posts ..)
    · exact s.plotEvent_posts ..) _ s) _ s
  clear_value t
  have howed : Reports t { t with sys := { t.sys with postDue := [] } } := ⟨rfl, rfl⟩
  exact ht.reports.trans howed

/-- The grain state with no load in progress. -/
def Grn.ended (x : Grn) : Grn := { x with req := none, staged := none, st := .idle, triedOther := false, zeroing := 0 }

theorem State.endLoad_of_none_waiting {s : State} (h : s.grn.waiting = []) : s.endLoad = s.modGrn Grn.ended := by
  simp [State.endLoad, State.modGrn, Grn.ended, h]

theorem State.setMode_of_mapped {s : State} (h : s.linearInForce = false) (m : Mode) :
    s.setMode m = { s with sys := { s.sys with mode := m } }.raise (.modeChange m) := by
  simp [State.setMode, State.setMap, h]

/-- A bough as PLOT_START leaves it: the twigs of defined plots start at word 0 (R411). -/
def Bough.begun (y : Bough) (g : Grain) (i : Nat) : Bough := if (g.plotOf i).isSome then { y with twig := Twig.start .running } else y

theorem Bough.begun_of_none {g : Grain} {i : Nat} (h : g.plotOf i = none) (y : Bough) : y.begun g i = y := by simp [Bough.begun, h]

theorem Bough.twig_begun {g : Grain} {i : Nat} (h : (g.plotOf i).isSome = true) (y : Bough) : (y.begun g i).twig = Twig.start .running := by
  rw [Bough.begun, if_pos h]

/-- The state whose boughs have begun, with the time of the load. -/
def State.begun (s : State) (g : Grain) : State :=
  { s with boughs := s.boughs.mapFinIdx fun i y _ => y.begun g i
           sys := { s.sys with loadUs := BitVec.ofNat 16 (min ((s.ring.tick - s.sys.bootStart).toNat / 10) 65535) } }

theorem State.bough_begun (s : State) (g : Grain) (b : BoughId) : (s.begun g).bough b = (s.bough b).begun g b.val :=
  Vector.getElem_mapFinIdx ..

/-- The image on record, the load ended and the device in RUN. -/
theorem State.recordImage_endLoad_setMode {s : State} (hwaiting : s.grn.waiting = []) (hmapped : s.linearInForce = false) (g : Grain) :
    (s.recordImage g).endLoad.setMode .run =
      { (s.recordImage g).modGrn Grn.ended with sys := { s.sys with mode := .run }, crownEvts := s.crownEvts ++ [.modeChange .run] } := by
  have hended : (s.recordImage g).endLoad = (s.recordImage g).modGrn Grn.ended := State.endLoad_of_none_waiting hwaiting
  rw [hended]
  exact State.setMode_of_mapped (s := (s.recordImage g).modGrn Grn.ended) hmapped .run

section

variable {s : State} {g : Grain} (hactive : s.grn.active = some g) (hmode : s.sys.mode = .load) (hst : s.grn.st = .writing) (hstaged : s.grn.staged = none)
include hactive hmode hst hstaged

theorem exec_plotStart_of_early (hearly : s.ring.tick.toNat ≤ s.grn.epoch.toNat) : exec .plotStart s = .next s := by
  show execPlotStart s = _
  simp [execPlotStart, hactive, hmode, hst, hstaged, hearly]

/-- After its tick PLOT_START ends the load in RUN with every bough begun; what follows reports. -/
theorem exec_plotStart_of_late (hlate : s.grn.epoch.toNat < s.ring.tick.toNat) :
    ∃ u, exec .plotStart s = .next u ∧ Reports (((s.begun g).recordImage g).endLoad.setMode .run) u := by
  have howed := (State.fwReachesRun_reports (((s.begun g).recordImage g).endLoad.setMode .run)).trans (State.postOwed_reports _)
  have hexec : exec .plotStart s = (fun t : State => .next (t.plotMaps.foldl (fun (s : State) m => s.postHeldEvents (plotId m.plot)) t))
      ((((s.begun g).recordImage g).endLoad.setMode .run).fwReachesRun.postOwed) := by
    show execPlotStart s = _
    simp only [execPlotStart, hactive]
    exact if_pos ⟨hmode, hst, hstaged, hlate⟩
  generalize State.postOwed _ = t at hexec howed
  refine ⟨_, hexec, howed.trans (Posts.foldl (fun s m => s.postHeldEvents_posts _) _ t).reports⟩

end

/-! ### What a regrain waits for (R414) -/

theorem exec_regrainSwitchTick_of_not_ready {s : State} {g : Grain} {p : PlotId} (hstaged : s.grn.staged = some g)
    (hreq : s.grn.req.bind (fun r => r.plot) = some p) (hready : s.regrainReady g p = false) : exec .regrainSwitchTick s = .next s := by
  obtain ⟨r, hr, hp⟩ := Option.bind_eq_some_iff.mp hreq
  show execRegrainSwitchTick s = _
  cases hactive : s.grn.active <;> simp [execRegrainSwitchTick, hstaged, hactive, hr, hp, hready]

end Sys2Proof.Machine
end

section
/-! SUPPORT. What a regrain begins (R402, R410, R414): the resets, the flushes, the program it writes and the regions it zeroes. -/

namespace Sys2Proof.Machine

open Sys2Proof.Safety

/-! ### What is written and zeroed (R402, R410) -/

theorem State.foldl_modMem {α : Type} (f : Memory → α → Memory) (l : List α) (s : State) :
    l.foldl (fun s a => s.modMem fun m => f m a) s = { s with mem := l.foldl f s.mem } := by
  induction l generalizing s with
  | nil => rfl
  | cons a l ih => exact ih _

/-- Zones made 0 one after the other. -/
theorem Memory.read_foldl_zeroZone (zs : List Nat) (m : Memory) (x : Nat) :
    (zs.foldl Memory.zeroZone m).read x = if zoneOf x ∈ zs then 0 else m.read x := by
  induction zs generalizing m with
  | nil => rfl
  | cons z zs ih =>
    rw [List.foldl_cons, ih]
    by_cases hz : zoneOf x = z
    · simp [hz, m.read_zeroZone_self z x hz]
    · simp [hz, m.read_zeroZone_other z x hz]

theorem zoneOf_of_lt_rootSize {a : Nat} (h : a < rootSize) : zoneOf a = a / 0x10000000 := by
  rw [zoneOf, placeOf_of_lt_rootSize h]

theorem zoneOf_lt_of_lt_rootSize {a : Nat} (h : a < rootSize) : zoneOf a < 512 := by
  rw [zoneOf_of_lt_rootSize h]
  unfold rootSize at h
  omega

/-- A program written to its store changes no byte of root memory. -/
theorem Memory.read_writeRegion_of_lt (m : Memory) (g base units : Nat) (ws : List (BitVec 16)) {a : Nat} (h : a < rootSize) :
    (m.writeRegion g base units ws).read a = m.read a := by
  have hzone := zoneOf_lt_of_lt_rootSize h
  have hzeroed : ∀ (is : List Nat) (m : Memory), (is.foldl (fun m i => m.zeroZone (pstoreZone g (base + i))) m).read a = m.read a := by
    intro is
    induction is with
    | nil => exact fun _ => rfl
    | cons i is ih =>
      intro m
      rw [List.foldl_cons, ih, m.read_zeroZone_other]
      unfold pstoreZone
      omega
  have hstore : a < pstoreAddr g (4096 * base) := by
    unfold rootSize at h
    unfold pstoreAddr pstoreBase
    omega
  rw [Memory.writeRegion, Memory.read_putAll_eq, overlay_atAddr, if_neg fun hin => by omega, hzeroed]

theorem State.writeProgram_eq (s : State) (g : Grain) (m : PlotMap) :
    ∃ mem : Memory, s.writeProgram g m = { s with mem := mem } ∧ ∀ a, a < rootSize → mem.read a = s.mem.read a := by
  refine ⟨_, State.foldl_modMem _ _ s, fun a ha => ?_⟩
  generalize grovesOf m.boughs = ks
  generalize s.mem = k
  induction ks generalizing k with
  | nil => rfl
  | cons j ks ih => rw [List.foldl_cons, ih, k.read_writeRegion_of_lt _ _ _ _ ha]

theorem State.zeroRegions_eq (s : State) (g : Grain) :
    ∃ mem zeroing, s.zeroRegions g = { s with mem := mem, grn := { s.grn with zeroing := zeroing } } ∧
      ∀ x, mem.read x = if zoneOf x ∈ s.regionsToZero g then 0 else s.mem.read x := by
  unfold State.zeroRegions
  generalize s.regionsToZero g = rs
  extract_lets _ t
  have ht : t = _ := State.foldl_modMem Memory.zeroZone rs s
  rw [ht]
  exact ⟨_, _, rfl, fun x => Memory.read_foldl_zeroZone rs s.mem x⟩

/-- Which regions are zeroed rests on the image in force and the recorded owners. -/
theorem State.regionsToZero_congr {s t : State} (hactive : t.grn.active = s.grn.active) (howners : t.grn.prevOwners = s.grn.prevOwners) (g : Grain) :
    t.regionsToZero g = s.regionsToZero g := by
  simp only [State.regionsToZero, State.prevOwner, hactive, howners]

/-! ### Resets and flushes (R41, R328, R353, R414) -/

/-- From s to t resets and flushes have begun: the memory, the image and the plots are as they were, and no reset or flush has ended. -/
structure Quiesces (s t : State) : Prop where
  mem : t.mem = s.mem
  grn : t.grn = s.grn
  plots : t.plots = s.plots
  resetting : ∀ b, (s.bough b).resetting = true → (t.bough b).resetting = true
  flushing : ∀ q : QueueId, s.queues[q].flushing = true → t.queues[q].flushing = true

namespace Quiesces

theorem refl (s : State) : Quiesces s s := ⟨rfl, rfl, rfl, fun _ => id, fun _ => id⟩

theorem trans {s t u : State} (h : Quiesces s t) (k : Quiesces t u) : Quiesces s u where
  mem := k.mem.trans h.mem
  grn := k.grn.trans h.grn
  plots := k.plots.trans h.plots
  resetting b hb := k.resetting b (h.resetting b hb)
  flushing q hq := k.flushing q (h.flushing q hq)

theorem foldl {α : Type} {f : State → α → State} (h : ∀ s a, Quiesces s (f s a)) (l : List α) (s : State) : Quiesces s (l.foldl f s) :=
  foldl_rel refl (fun _ _ _ => trans) h l s

end Quiesces

theorem Breaks.quiesces {s t : State} (h : Breaks s t) : Quiesces s t where
  mem := (congrArg State.mem h.frame :)
  grn := (congrArg State.grn h.frame :)
  plots := (congrArg State.plots h.frame :)
  resetting b hb := by
    have hlasting : (t.bough b).resetting = (s.bough b).resetting := (congrArg (fun x => x.2.2.2) (h.bough b) :)
    rw [hlasting, hb]
  flushing q hq := by
    have hqueues : t.queues = s.queues := (congrArg State.queues h.frame :)
    rw [hqueues, hq]

/-- What a fold does for one of its elements it keeps, when no step undoes it. -/
theorem foldl_of_mem {α σ : Type} {f : σ → α → σ} {P : σ → Prop} (hkeep : ∀ s a, P s → P (f s a)) {x : α} (hdo : ∀ s, P (f s x)) {l : List α}
    (hx : x ∈ l) (s : σ) : P (l.foldl f s) := by
  induction l generalizing s with
  | nil => exact absurd hx List.not_mem_nil
  | cons a l ih =>
    rcases List.mem_cons.mp hx with rfl | hx
    · exact List.foldlRecOn (motive := P) l f (hdo s) fun s hs a _ => hkeep s a hs
    · exact ih hx _

theorem State.breakOwnLinks_breaks (s : State) (b : BoughId) : Breaks s (s.breakOwnLinks b) :=
  (s.breakLinks_breaks _ 1).trans (State.breakLinks_breaks _ _ 2)

theorem State.beginBoughReset_eq (s : State) (b : BoughId) :
    s.beginBoughReset b = ((s.breakOwnLinks b).discardBoth b).modBough b Bough.beginsReset := rfl

theorem State.beginBoughReset_quiesces (s : State) (b : BoughId) : Quiesces s (s.beginBoughReset b) := by
  have hdiscarded := ((s.breakOwnLinks_breaks b).trans (State.discardHalf_breaks _ b 0)).trans (State.discardHalf_breaks _ b 1)
  have hbegun : ∀ t : State, Quiesces t (t.modBough b Bough.beginsReset) := by
    refine fun t => ⟨rfl, rfl, rfl, fun c hc => ?_, fun _ => id⟩
    by_cases hcb : c = b
    · rw [hcb, State.bough_modBough]
      rfl
    · rwa [State.bough_modBough_ne _ _ hcb]
  rw [State.beginBoughReset_eq]
  exact hdiscarded.quiesces.trans (hbegun _)

theorem State.resetting_beginBoughReset (s : State) (b : BoughId) : ((s.beginBoughReset b).bough b).resetting = true := by
  rw [State.beginBoughReset_eq, State.bough_modBough]
  rfl

theorem State.requestFlush_quiesces (s : State) (q : QueueId) : Quiesces s (s.requestFlush q) := by
  refine ⟨rfl, rfl, rfl, fun _ => id, fun r hr => ?_⟩
  have hqueue : (s.requestFlush q).queues[r] = _ := vmod_get s.queues q r _
  rw [hqueue]
  split_ifs
  · rfl
  · exact hr

theorem State.flushing_requestFlush (s : State) (q : QueueId) : (s.requestFlush q).queues[q].flushing = true :=
  congrArg Queue.flushing (vmod_get_self s.queues q _)

/-- Discarding a function's work reaches its transactions and its port. -/
theorem State.absorbFn_quiesces (s : State) (fn : HostFn) : Quiesces s (s.absorbFn fn) := by
  have hevent : ∀ (s : State) (n : PortId) (bit : Nat), Quiesces s (s.hostEvent n bit) := by
    intro s n bit
    unfold State.hostEvent State.notice
    dsimp only
    split_ifs <;> exact ⟨rfl, rfl, rfl, fun _ => id, fun _ => id⟩
  have haer : ∀ (s : State) (n : PortId), Quiesces s (s.aer n) := fun s n =>
    Quiesces.trans (t := s.emit (.aer n true)) ⟨rfl, rfl, rfl, fun _ => id, fun _ => id⟩ (hevent ..)
  have hlogged : ∀ (s : State) (t : WTxn), Quiesces s (s.discardLogged t) := by
    intro s t
    unfold State.discardLogged
    split
    · exact (haer ..).trans (hevent ..)
    · exact .refl s
  have hdrop : ∀ (s : State) (id : Nat), Quiesces s (s.dropTxn id) := fun s _ => ⟨rfl, rfl, rfl, fun _ => id, fun _ => id⟩
  have hmark : ∀ (s : State) (id : Nat) (f : WTxn → WTxn), Quiesces s (s.modTxn id f) := fun s _ _ => ⟨rfl, rfl, rfl, fun _ => id, fun _ => id⟩
  have hwrites : ∀ p : WTxn → Bool, Quiesces s (s.discardWrites p) := by
    refine fun p => .foldl (fun s t => ?_) _ s
    split_ifs
    · exact .refl s
    · exact (hdrop ..).trans (hlogged ..)
    · exact (hmark ..).trans (hlogged ..)
  have hport : ∀ (s : State) (n : PortId) (f : HostPort → HostPort), Quiesces s (s.modPort n f) := fun s _ _ => ⟨rfl, rfl, rfl, fun _ => id, fun _ => id⟩
  have hcnp : ∀ (s : State) cnp, Quiesces s { s with cnp := cnp } := fun s _ => ⟨rfl, rfl, rfl, fun _ => id, fun _ => id⟩
  cases fn <;> exact ((hwrites _).trans (hport ..)).trans (hcnp ..)

/-! ### REGRAIN (R414) -/

/-- The state in which plot p is being regrained. -/
def State.regrains (s : State) (p : PlotId) : State :=
  (s.modGrn fun x => { x with st := .regraining, plot := p }).modPlot p fun x => { x with st := .regraining, preempt := false, graceOn := false }

/-- Every bough of map m resets or goes on with its reset. -/
def State.resetMap (s : State) (m : PlotMap) : State :=
  m.boughList.foldl (fun (s : State) b => if (s.bough b).resetting then s else s.beginBoughReset b) s

/-- The work of map m's function is discarded, its boughs reset and its queues flush (R371, R414). -/
def State.quietMap (s : State) (m : PlotMap) : State :=
  let s := match (m.vf.bind (finOf? 64) : Option VfId) with
    | some v => s.absorbFn (.vf v)
    | none => s
  let s := s.resetMap m
  (s.plotQueues m).foldl (fun (s : State) q => s.requestFlush q) s

/-- Every queue whose record changes flushes. -/
def State.flushChanged (s : State) (g : Grain) : State :=
  (s.queuesChanged g).foldl (fun (s : State) q => if (s.queueRec q.val).isSome then s.requestFlush q else s) s

theorem State.resetMap_quiesces (s : State) (m : PlotMap) : Quiesces s (s.resetMap m) := by
  refine .foldl (fun s b => ?_) _ s
  split_ifs
  · exact .refl s
  · exact s.beginBoughReset_quiesces b

theorem State.resetting_resetMap (s : State) {m : PlotMap} {b : BoughId} (hb : m.boughs.getLsbD b.val = true) :
    ((s.resetMap m).bough b).resetting = true := by
  have hmem : b ∈ m.boughList := List.mem_filter.mpr ⟨List.mem_finRange b, hb⟩
  refine foldl_of_mem (P := fun t : State => (t.bough b).resetting = true) (fun t c ht => ?_) (fun t => ?_) hmem s
  · split_ifs
    · exact ht
    · exact (t.beginBoughReset_quiesces c).resetting b ht
  · split_ifs with ht
    · exact ht
    · exact t.resetting_beginBoughReset b

/-- Flushing the queues of a list. -/
theorem State.flushing_foldl_requestFlush (s : State) {qs : List QueueId} {q : QueueId} (hq : q ∈ qs) :
    (qs.foldl (fun (s : State) q => s.requestFlush q) s).queues[q].flushing = true :=
  foldl_of_mem (P := fun t : State => t.queues[q].flushing = true) (fun t r ht => (t.requestFlush_quiesces r).flushing q ht)
    (fun t => t.flushing_requestFlush q) hq s

theorem State.plotQueues_congr {s t : State} (h : t.grn = s.grn) (m : PlotMap) : t.plotQueues m = s.plotQueues m := by
  simp only [State.plotQueues, h]

theorem State.queueRec_congr {s t : State} (h : t.grn = s.grn) (q : Nat) : t.queueRec q = s.queueRec q := by
  simp only [State.queueRec, h]

theorem State.quietMap_spec (s : State) (m : PlotMap) : Quiesces s (s.quietMap m) ∧
    (∀ b : BoughId, m.boughs.getLsbD b.val = true → ((s.quietMap m).bough b).resetting = true) ∧
    ∀ q ∈ s.plotQueues m, (s.quietMap m).queues[q].flushing = true := by
  unfold State.quietMap
  extract_lets a t
  have ha : Quiesces s a := by
    unfold a
    split
    · exact s.absorbFn_quiesces _
    · exact .refl s
  have hflush : Quiesces t ((t.plotQueues m).foldl (fun (s : State) q => s.requestFlush q) t) := .foldl (fun s q => s.requestFlush_quiesces q) _ t
  have ht : Quiesces s t := ha.trans (a.resetMap_quiesces m)
  refine ⟨ht.trans hflush, fun b hb => hflush.resetting b (a.resetting_resetMap hb), fun q hq => t.flushing_foldl_requestFlush ?_⟩
  rwa [State.plotQueues_congr ht.grn]

theorem State.flushChanged_spec (s : State) (g : Grain) : Quiesces s (s.flushChanged g) ∧
    ∀ q : QueueId, s.queueRec q.val ≠ g.queueRec q.val → s.queueRec q.val ≠ none → (s.flushChanged g).queues[q].flushing = true := by
  have hstep : ∀ (t : State) (q : QueueId), Quiesces t (if (t.queueRec q.val).isSome then t.requestFlush q else t) := by
    intro t q
    split_ifs
    · exact t.requestFlush_quiesces q
    · exact .refl t
  have hmem : ∀ q : QueueId, s.queueRec q.val ≠ g.queueRec q.val → q ∈ s.queuesChanged g := fun q hchanged =>
    List.mem_filter.mpr ⟨List.mem_finRange q, by simpa using hchanged⟩
  unfold State.flushChanged
  generalize s.queuesChanged g = qs at hmem
  have hkeeps := Quiesces.foldl hstep qs s
  refine ⟨hkeeps, fun q hchanged hdefined => ?_⟩
  refine foldl_of_mem (P := fun t : State => t.grn = s.grn → t.queues[q].flushing = true) (fun t r ht hgrn => ?_) (fun t hgrn => ?_)
    (hmem q hchanged) s hkeeps.grn
  · exact (hstep t r).flushing q (ht ((hstep t r).grn.symm.trans hgrn))
  · have hrec := State.queueRec_congr ((hstep t q).grn.symm.trans hgrn) q.val
    rw [hrec, if_pos (Option.isSome_iff_ne_none.mpr hdefined)]
    exact t.flushing_requestFlush q

/-- What REGRAIN of plot p begins before it writes (R414). -/
def State.quietsPlot (s : State) (g : Grain) (p : PlotId) : State :=
  let t := (s.regrains p).breakPlotLinks p.val
  let t := match s.plotMap p.val with
    | none => t
    | some m => t.quietMap m
  t.flushChanged g

theorem State.quietsPlot_spec (s : State) (g : Grain) (p : PlotId) : Quiesces (s.regrains p) (s.quietsPlot g p) ∧
    (∀ m, s.plotMap p.val = some m → (∀ b : BoughId, m.boughs.getLsbD b.val = true → ((s.quietsPlot g p).bough b).resetting = true) ∧
      ∀ q ∈ s.plotQueues m, (s.quietsPlot g p).queues[q].flushing = true) ∧
    ∀ q : QueueId, s.queueRec q.val ≠ g.queueRec q.val → s.queueRec q.val ≠ none → (s.quietsPlot g p).queues[q].flushing = true := by
  unfold State.quietsPlot
  extract_lets t u
  have hbroken : Quiesces (s.regrains p) t := ((s.regrains p).breakLinks_breaks _ 6).quiesces
  have hquiet : Quiesces t u := by
    unfold u
    split
    · exact .refl t
    · exact (t.quietMap_spec _).1
  obtain ⟨hflushed, hchanged⟩ := u.flushChanged_spec g
  have hactive : u.grn.active = s.grn.active := (congrArg Grn.active (hbroken.trans hquiet).grn :)
  have hrec : ∀ q, u.queueRec q = s.queueRec q := fun q => by simp only [State.queueRec, hactive]
  refine ⟨(hbroken.trans hquiet).trans hflushed, fun m hm => ?_, fun q => by simpa only [hrec] using hchanged q⟩
  have hu : u = t.quietMap m := by simp only [u, hm]
  have hmine : t.plotQueues m = s.plotQueues m := by
    have hactive : t.grn.active = s.grn.active := (congrArg Grn.active hbroken.grn :)
    simp only [State.plotQueues, hactive]
  obtain ⟨-, hreset, hqueues⟩ := t.quietMap_spec m
  rw [← hu] at hreset hqueues
  exact ⟨fun b hb => hflushed.resetting b (hreset b hb), fun q hq => hflushed.flushing q (hqueues q (by rwa [hmine]))⟩

/-- The program that an image gives plot p is in its stores. -/
def State.writesNew (s : State) (g : Grain) (p : PlotId) : State :=
  match g.map? p.val with
  | some m => s.writeProgram g m
  | none => s

theorem State.writesNew_eq (s : State) (g : Grain) (p : PlotId) :
    ∃ mem : Memory, s.writesNew g p = { s with mem := mem } ∧ ∀ a, a < rootSize → mem.read a = s.mem.read a := by
  unfold State.writesNew
  split
  · exact s.writeProgram_eq g _
  · exact ⟨s.mem, rfl, fun _ _ => rfl⟩

/-- REGRAIN writes the plot's program and zeroes the regions that change hands; of root memory it changes those regions alone. -/
theorem exec_regrain_of_staged {s : State} {g : Grain} {r : ActReq} {p : PlotId} (hstaged : s.grn.staged = some g) (hreq : s.grn.req = some r)
    (hplot : r.plot = some p) (hmode : s.sys.mode = .run) (hst : s.grn.st = .staged) (hbusy : s.plots[p].resetBusy = false) :
    ∃ mem zeroing, exec .regrain s = .next { s.quietsPlot g p with mem := mem, grn := { (s.quietsPlot g p).grn with zeroing := zeroing } } ∧
      ∀ a, a < rootSize → mem.read a = if a / 0x10000000 ∈ s.regionsToZero g then 0 else s.mem.read a := by
  have hexec : exec .regrain s = .next (((s.quietsPlot g p).writesNew g p).zeroRegions g) := by
    have hbind : s.grn.req.bind (fun r => r.plot) = some p := by rw [hreq]; exact hplot
    show execRegrain s = _
    unfold execRegrain
    rw [hstaged, hbind]
    exact if_pos ⟨hmode, hst, hbusy⟩
  obtain ⟨⟨hmem, hgrn, -, -, -⟩, -, -⟩ := s.quietsPlot_spec g p
  generalize s.quietsPlot g p = t at hexec hmem hgrn
  obtain ⟨written, hwritten, hkept⟩ := t.writesNew_eq g p
  obtain ⟨mem, zeroing, hzeroed, hread⟩ := (t.writesNew g p).zeroRegions_eq g
  have hregions : (t.writesNew g p).regionsToZero g = s.regionsToZero g := by
    rw [hwritten]
    exact State.regionsToZero_congr (congrArg Grn.active hgrn) (congrArg Grn.prevOwners hgrn) g
  rw [hregions] at hread
  rw [hzeroed, hwritten] at hexec
  refine ⟨mem, zeroing, hexec, fun a ha => ?_⟩
  rw [hread, hwritten, zoneOf_of_lt_rootSize ha, hkept a ha, hmem]
  rfl

theorem State.plot_regrains (s : State) (p : PlotId) :
    (s.regrains p).plots[p] = { s.plots[p] with st := .regraining, preempt := false, graceOn := false } := vmod_get_self s.plots p _

theorem State.plot_regrains_ne (s : State) {p q : PlotId} (h : q ≠ p) : (s.regrains p).plots[q] = s.plots[q] := vmod_get_ne s.plots _ h

end Sys2Proof.Machine
end

section
/-! SUPPORT. The switch of a regrain (R304, R328, R410, R413, R414): what it zeroes, what its tables keep, and what settles after them. -/

namespace Sys2Proof.Machine

open Sys2Proof.Safety

/-! ### What settles once the tables are in place -/

/-- From s to t links have settled and records have opened: memory, image, queues, modes, the plots but for their counters and, of a bough, its twig,
ownership cache, FREEZE and reset are as they were. -/
structure Settles (s t : State) : Prop where
  mem : t.mem = s.mem
  grn : t.grn = s.grn
  queues : t.queues = s.queues
  sys : t.sys = s.sys
  tick : t.ring.tick = s.ring.tick
  plot : ∀ p : PlotId, { t.plots[p] with cnt := s.plots[p].cnt } = s.plots[p]
  bough : ∀ b, (t.bough b).lasting = (s.bough b).lasting

namespace Settles

theorem trans {s t u : State} (h : Settles s t) (k : Settles t u) : Settles s u where
  mem := k.mem.trans h.mem
  grn := k.grn.trans h.grn
  queues := k.queues.trans h.queues
  sys := k.sys.trans h.sys
  tick := k.tick.trans h.tick
  plot p := (congrArg (fun x : Plot => { x with cnt := s.plots[p].cnt }) (k.plot p) :).trans (h.plot p)
  bough b := (k.bough b).trans (h.bough b)

section

variable {s t : State} (h : Settles s t) (b : BoughId)
include h

theorem twig : (t.bough b).twig = (s.bough b).twig := (congrArg (fun x => x.1) (h.bough b) :)

theorem ocache : (t.bough b).ocache = (s.bough b).ocache := (congrArg (fun x => x.2.1) (h.bough b) :)

theorem freeze : (t.bough b).freeze = (s.bough b).freeze := (congrArg (fun x => x.2.2.1) (h.bough b) :)

end

end Settles

theorem Breaks.settles {s t : State} (h : Breaks s t) : Settles s t where
  mem := (congrArg State.mem h.frame :)
  grn := (congrArg State.grn h.frame :)
  queues := (congrArg State.queues h.frame :)
  sys := (congrArg State.sys h.frame :)
  tick := (congrArg (fun x : State => x.ring.tick) h.frame :)
  plot p := by
    have hplots : t.plots = s.plots := (congrArg State.plots h.frame :)
    rw [hplots]
  bough := h.bough

theorem Books.settles {s t : State} (h : Books s t) : Settles s t where
  mem := (congrArg State.mem h.frame :)
  grn := (congrArg State.grn h.frame :)
  queues := (congrArg State.queues h.frame :)
  sys := (congrArg State.sys h.frame :)
  tick := h.tick
  plot := h.plot
  bough b := by
    have hboughs : t.boughs = s.boughs := (congrArg State.boughs h.frame :)
    rw [State.bough, hboughs, State.bough]

theorem State.finishOpt_settles (s : State) (ch : Option (Fin 5)) (code detail : Nat) : Settles s (s.finishOpt ch code detail) := by
  cases ch <;> exact ⟨rfl, rfl, rfl, rfl, rfl, fun _ => rfl, fun _ => rfl⟩

/-! ### Scratchpads made 0 (R328) -/

theorem zoneOf_scratch (b : BoughId) {i : Nat} (h : i < 0x80000) : zoneOf (scratchAddr b + i) = scratchZone b.val := by
  have hplace := placeOf_of_inScratch (b := b) (a := scratchAddr b + i) (n := 1) ⟨by omega, by omega⟩ (by omega)
  rw [zoneOf, hplace]
  rfl

theorem State.zeroScratch_eq (s : State) (b : BoughId) : ∃ mem scr, s.zeroScratch b = { s with mem := mem, scr := scr } ∧
    ∀ x, mem.read x = (s.mem.zeroZone (scratchZone b.val)).read x := by
  refine ⟨_, _, rfl, fun x => Memory.read_foldl _ (fun m q x => ?_) _ _ x⟩
  split_ifs <;> rfl

theorem State.foldl_zeroScratch_eq (bs : List BoughId) (s : State) :
    ∃ mem scr, bs.foldl (fun (s : State) b => s.zeroScratch b) s = { s with mem := mem, scr := scr } ∧
      ∀ x, mem.read x = if ∃ b ∈ bs, zoneOf x = scratchZone b.val then 0 else s.mem.read x := by
  induction bs generalizing s with
  | nil => exact ⟨s.mem, s.scr, rfl, fun x => by simp⟩
  | cons b bs ih =>
    obtain ⟨mem, scr, hb, hread⟩ := s.zeroScratch_eq b
    obtain ⟨mem', scr', hbs, hread'⟩ := ih (s.zeroScratch b)
    rw [hb] at hbs hread'
    refine ⟨mem', scr', by rw [List.foldl_cons, hb]; exact hbs, fun x => ?_⟩
    rw [hread']
    by_cases hzone : zoneOf x = scratchZone b.val
    · simp [hread, hzone, Memory.read_zeroZone_self]
    · simp [hread, hzone, Memory.read_zeroZone_other]

/-! ### Queues at a switch (R343, R411) -/

/-- Queues whose record stays keep their packets; the others start with all their credits. -/
theorem State.switchQueues_eq (s : State) (old g : Option Grain) (qs : List QueueId) :
    ∃ queues, s.switchQueues old g qs = { s with queues := queues } ∧ ∀ q : QueueId, queues[q] =
      if q ∈ qs ∧ (old.bind fun o => o.queueRec q.val) ≠ (g.bind fun g => g.queueRec q.val)
        then Queue.start (((g.bind fun g => g.queueRec q.val).map recSize).getD 0) else s.queues[q] := by
  unfold State.switchQueues
  extract_lets size
  induction qs generalizing s with
  | nil => exact ⟨s.queues, rfl, fun q => by simp⟩
  | cons r qs ih =>
    rw [List.foldl_cons]
    by_cases hr : (old.bind fun o => o.queueRec r.val) = (g.bind fun g => g.queueRec r.val)
    · rw [if_pos (by simpa using hr)]
      obtain ⟨queues, heq, hqueue⟩ := ih s
      refine ⟨queues, heq, fun q => ?_⟩
      rw [hqueue]
      by_cases hq : q = r
      · subst hq
        simp [hr]
      · simp [hq]
    · rw [if_neg (by simpa using hr)]
      obtain ⟨queues, heq, hqueue⟩ := ih (s.modQueue r fun _ => Queue.start (size r))
      refine ⟨queues, heq, fun q => ?_⟩
      have hmod : (s.modQueue r fun _ => Queue.start (size r)).queues[q] = _ := vmod_get s.queues r q _
      rw [hqueue, hmod]
      by_cases hq : q = r
      · subst hq
        simp [hr, size]
      · simp [hq]

/-! ### What the switch of a regrain zeroes (R328, R410) -/

/-- The state in which the regions that change hands and the scratchpads of plot p and of the boughs that change hands are 0. -/
def State.wipesPlot (s : State) (old g : Grain) (p : PlotId) : State :=
  let was := ((s.plotMap p.val).map (·.boughList)).getD []
  (was ++ s.boughsMoved g).foldl (fun (s : State) b => s.zeroScratch b) ((s.zeroRegions g).closeForSwitch (some old) g)

/-- From s to t memory and its scratchpads have been written and records closed. -/
structure Wipes (s t : State) : Prop where
  frame : { t with mem := s.mem, scr := s.scr, grn := s.grn, plots := s.plots, ring := s.ring, hwd := s.hwd } = s
  grn : { t.grn with zeroing := s.grn.zeroing } = s.grn
  tick : t.ring.tick = s.ring.tick
  plot : ∀ p : PlotId, { t.plots[p] with cnt := s.plots[p].cnt } = s.plots[p]

theorem State.wipesPlot_spec (s : State) (old g : Grain) (p : PlotId) : Wipes s (s.wipesPlot old g p) ∧
    (∀ a, a < rootSize → a / 0x10000000 ∈ s.regionsToZero g → (s.wipesPlot old g p).mem.read a = 0) ∧
    ∀ (m : PlotMap) (b : BoughId), s.plotMap p.val = some m → m.boughs.getLsbD b.val = true → ∀ i, i < 0x80000 →
      (s.wipesPlot old g p).mem.read (scratchAddr b + i) = 0 := by
  unfold State.wipesPlot
  extract_lets was
  have hwas : ∀ (m : PlotMap) (b : BoughId), s.plotMap p.val = some m → m.boughs.getLsbD b.val = true → b ∈ was ++ s.boughsMoved g := by
    intro m b hm hb
    refine List.mem_append_left _ ?_
    simp [was, hm, PlotMap.boughList, hb]
  generalize was ++ s.boughsMoved g = bs at hwas
  obtain ⟨zeroed, zeroing, hzero, hregion⟩ := s.zeroRegions_eq g
  obtain ⟨hframe, htick, hplot⟩ := (s.zeroRegions g).closeForSwitch_books (some old) g
  generalize State.closeForSwitch _ _ _ = t at hframe htick hplot
  rw [hzero] at hframe htick hplot
  obtain ⟨mem, scr, hscr, hread⟩ := t.foldl_zeroScratch_eq bs
  rw [hscr]
  have hmem : t.mem = zeroed := (congrArg State.mem hframe :)
  refine ⟨⟨?_, ?_, htick, hplot⟩, fun a ha hin => ?_, fun m b hm hb i hi => ?_⟩
  · exact (congrArg (fun x : State => { x with mem := s.mem, scr := s.scr, grn := s.grn }) hframe :)
  · exact (congrArg (fun x : State => { x.grn with zeroing := s.grn.zeroing }) hframe :)
  · show mem.read a = 0
    rw [hread]
    split_ifs
    · rfl
    · rw [hmem, hregion, zoneOf_of_lt_rootSize ha, if_pos hin]
  · show mem.read _ = 0
    rw [hread, if_pos ⟨b, hwas m b hm hb, zoneOf_scratch b hi⟩]

/-! ### The tables (R304, R413, R414) -/

/-- A bough that has forgotten who owns the regions rs. -/
def Bough.forgets (y : Bough) (rs : BitVec 512) : Bough := { y with ocache := y.ocache.filter fun e => !rs.getLsbD e.1 }

theorem Bough.ocache_forgets {y : Bough} {rs : BitVec 512} {e : Nat × Option PlotId} (h : e ∈ (y.forgets rs).ocache) : rs.getLsbD e.1 = false := by
  simpa using (List.mem_filter.mp h).2

theorem State.regrainTables_eq (s : State) (old g : Grain) (p : PlotId) (slot : Fin 2) :
    ∃ queues links, s.regrainTables old g p slot = { s with grn := { s.grn with active := some g, epoch := s.ring.tick, slot := slot }, queues := queues, links := links, boughs := s.boughs.map fun y => y.forgets (old.plotRegions p.val ||| g.plotRegions p.val) } ∧
      ∀ q : QueueId, old.queueRec q.val = g.queueRec q.val → queues[q] = s.queues[q] := by
  unfold State.regrainTables
  extract_lets rs links stays forget t u
  obtain ⟨queues, heq, hqueue⟩ := t.switchQueues_eq (some old) (some g) (List.finRange 1024)
  have hu : u = _ := heq
  rw [hu]
  refine ⟨queues, _, rfl, fun q hq => ?_⟩
  rw [hqueue, if_neg fun h => h.2 hq]
  rfl

/-- Ports that are not in UP exchange no tags. -/
theorem State.admitChanged_of_not_up {s : State} (h : ∀ n : PortId, s.grafts[n].st ≠ .up) (old g : Grain) (p : PlotId) : s.admitChanged old g p = s := by
  unfold State.admitChanged
  refine List.foldl_fixed' (fun n => if_neg fun hup => ?_) _
  exact h n (beq_iff_eq.mp (Bool.and_eq_true_iff.mp hup).1)

theorem State.armPlotLinks_settles (s : State) (p : PlotId) : Settles s (s.armPlotLinks p) := by
  unfold State.armPlotLinks
  refine ((s.breakLinks_breaks _ 3).trans (.foldl (fun s i => ?_) _ _)).settles
  split
  · split
    · exact s.giveCredit_breaks ..
    · exact .refl s
  · exact .refl s

theorem State.bough_regrainStart (s : State) (g : Grain) (p : PlotId) (b : BoughId) :
    (s.regrainStart g p).bough b = (s.bough b).regrained g p s.plots[p].park b.val :=
  Vector.getElem_mapFinIdx ..

/-- The state of plot p after its regrain. -/
def Grain.regrainedSt (g : Grain) (p : PlotId) (park : Bool) : PlotSt := if (g.map? p.val).isNone then .undefined else if park then .parked else .running

theorem State.plot_regrainStart (s : State) (g : Grain) (p : PlotId) :
    (s.regrainStart g p).plots[p] = { s.plots[p] with st := g.regrainedSt p s.plots[p].park, parkedAt := if s.plots[p].park then s.ring.tick else s.plots[p].parkedAt } :=
  vmod_get_self s.plots p _

theorem Grain.regrainedSt_eq (g : Grain) (p : PlotId) (park : Bool) :
    g.regrainedSt p park = if g.map? p.val = none then .undefined else if park = true then .parked else .running := by
  simp [Grain.regrainedSt]

section

variable {y : Bough} {g : Grain} {p : PlotId} {i : Nat} {m : PlotMap} (hm : g.plotOf i = some m)
include hm

theorem Bough.regrained_of_other (hp : m.plot ≠ p.val) (park : Bool) : y.regrained g p park i = y := by simp [Bough.regrained, hm, hp]

theorem Bough.twig_regrained_of_own (hp : m.plot = p.val) (park : Bool) :
    (y.regrained g p park i).twig = Twig.start (if park then .held else .running) := by
  simp [Bough.regrained, hm, hp]

end

theorem Bough.ocache_regrained (y : Bough) (g : Grain) (p : PlotId) (park : Bool) (i : Nat) : (y.regrained g p park i).ocache = y.ocache := by
  unfold Bough.regrained
  split
  · split_ifs <;> rfl
  · rfl

/-! ### REGRAIN_SWITCH_TICK (R414) -/

/-- Events that were held and none was: there is nothing to post. -/
theorem State.postHeldEvents_of_none {s : State} {p : PlotId} (h : s.plots[p].heldEvents = []) :
    s.postHeldEvents p = s.modPlot p fun x => { x with heldEvents := [] } := by
  rw [State.postHeldEvents, h]
  rfl

theorem exec_regrainSwitchTick_of_ready {s : State} {g old : Grain} {r : ActReq} {p : PlotId} (hstaged : s.grn.staged = some g)
    (hactive : s.grn.active = some old) (hreq : s.grn.req = some r) (hplot : r.plot = some p) (hst : s.grn.st = .regraining) (hmode : s.sys.mode = .run)
    (hready : s.regrainReady g p = true) : exec .regrainSwitchTick s = .next
      (let s2 := (((s.wipesPlot old g p).regrainTables old g p r.slot).admitChanged old g p).armPlotLinks p
       let s3 := ((s2.regrainStart g p).openAll (some old) g).note 5 g.serial (BitVec.ofNat 64 p.val)
       let s4 := ((s3.finishOpt r.ch 0 0).recordImage g).endLoad
       if s4.plots[p].resetWaits then s4.beginPlotReset p else s4.postHeldEvents p) := by
  show execRegrainSwitchTick s = _
  unfold execRegrainSwitchTick
  rw [hstaged, hactive, hreq]
  dsimp only
  rw [hplot]
  exact if_pos ⟨hst, hmode, hready⟩

/-- A plot of which only the counters differ. -/
theorem Plot.eq_of_cnt {x y : Plot} (h : { x with cnt := y.cnt } = y) : x = { y with cnt := x.cnt } :=
  (congrArg (fun z : Plot => { z with cnt := x.cnt }) h :)

section

variable {s w t u : State} {old g : Grain} {p : PlotId} {slot : Fin 2} (hw : Wipes s w) (ht : Settles (w.regrainTables old g p slot) t)
  (hu : Settles (t.regrainStart g p) u)
include hw ht hu

theorem Wipes.grn_regrained : u.grn = { s.grn with active := some g, epoch := s.ring.tick, slot := slot, zeroing := w.grn.zeroing } := by
  obtain ⟨queues, links, htables, -⟩ := w.regrainTables_eq old g p slot
  have hgrn : w.grn = { s.grn with zeroing := w.grn.zeroing } := (congrArg (fun x : Grn => { x with zeroing := w.grn.zeroing }) hw.grn :)
  have htaken : u.grn = (w.regrainTables old g p slot).grn := hu.grn.trans ht.grn
  rw [htables] at htaken
  rw [htaken, ← hw.tick]
  exact congrArg (fun x : Grn => { x with active := some g, epoch := w.ring.tick, slot := slot }) hgrn

theorem Wipes.plot_regrained : ∃ cnt parkedAt,
    u.plots[p] = { s.plots[p] with cnt := cnt, st := g.regrainedSt p s.plots[p].park, parkedAt := parkedAt } := by
  obtain ⟨queues, links, htables, -⟩ := w.regrainTables_eq old g p slot
  have htaken := ht.plot p
  rw [htables] at htaken
  have hplot : t.plots[p] = _ := Plot.eq_of_cnt ((congrArg (fun x : Plot => { x with cnt := s.plots[p].cnt }) htaken).trans (hw.plot p))
  have hstarted := Plot.eq_of_cnt (hu.plot p)
  rw [State.plot_regrainStart, hplot] at hstarted
  exact ⟨_, _, hstarted⟩

omit hw in
theorem Settles.mem_regrained : u.mem = w.mem := by
  obtain ⟨queues, links, htables, -⟩ := w.regrainTables_eq old g p slot
  have htaken := ht.mem
  rw [htables] at htaken
  exact hu.mem.trans htaken

theorem Wipes.queue_regrained {q : QueueId} (hq : old.queueRec q.val = g.queueRec q.val) : u.queues[q] = s.queues[q] := by
  obtain ⟨queues, links, htables, hqueues⟩ := w.regrainTables_eq old g p slot
  have htaken : u.queues = (w.regrainTables old g p slot).queues := hu.queues.trans ht.queues
  have hsame : w.queues = s.queues := (congrArg State.queues hw.frame :)
  rw [htables] at htaken
  rw [htaken, hqueues q hq, hsame]

/-- A bough starts over as the regrain leaves one that has its twig and has forgotten the plot's regions. -/
theorem Wipes.bough_regrained (b : BoughId) : ∃ y : Bough, y.twig = (s.bough b).twig ∧
    (∀ e ∈ y.ocache, (old.plotRegions p.val).getLsbD e.1 = false ∧ (g.plotRegions p.val).getLsbD e.1 = false) ∧
    (u.bough b).twig = (y.regrained g p s.plots[p].park b.val).twig ∧ (u.bough b).ocache = y.ocache := by
  obtain ⟨queues, links, htables, -⟩ := w.regrainTables_eq old g p slot
  have hsame : w.boughs = s.boughs := (congrArg State.boughs hw.frame :)
  have hplot := ht.plot p
  have htwig := ht.twig b
  have hocache := ht.ocache b
  have hforgot : (w.regrainTables old g p slot).bough b = (s.bough b).forgets (old.plotRegions p.val ||| g.plotRegions p.val) := by
    rw [htables, State.bough, State.bough, ← hsame]
    exact Vector.getElem_map ..
  rw [hforgot] at htwig hocache
  rw [htables] at hplot
  have hpark : t.plots[p].park = s.plots[p].park := (congrArg Plot.park hplot :).trans (congrArg Plot.park (hw.plot p) :)
  refine ⟨t.bough b, htwig, fun e he => ?_, ?_, ?_⟩
  · rw [hocache] at he
    simpa [BitVec.getLsbD_or] using Bough.ocache_forgets he
  · rw [hu.twig, State.bough_regrainStart, hpark]
  · rw [hu.ocache, State.bough_regrainStart, Bough.ocache_regrained]

end

/-- A regrain that nothing waits for: its links settle on the tables, its boughs start, its records open and its load ends. -/
theorem exec_regrainSwitchTick_settles {s : State} {g old : Grain} {r : ActReq} {p : PlotId} (hstaged : s.grn.staged = some g)
    (hactive : s.grn.active = some old) (hreq : s.grn.req = some r) (hplot : r.plot = some p) (hst : s.grn.st = .regraining) (hmode : s.sys.mode = .run)
    (hready : s.regrainReady g p = true) (hwaiting : s.grn.waiting = []) (hwaits : s.plots[p].resetWaits = false) (hheld : s.plots[p].heldEvents = [])
    (hdown : ∀ n : PortId, s.grafts[n].st ≠ .up) :
    ∃ t u, Settles ((s.wipesPlot old g p).regrainTables old g p r.slot) t ∧ Settles (t.regrainStart g p) u ∧
      exec .regrainSwitchTick s = .next (((u.recordImage g).modGrn Grn.ended).modPlot p fun x => { x with heldEvents := [] }) := by
  have hexec := exec_regrainSwitchTick_of_ready hstaged hactive hreq hplot hst hmode hready
  obtain ⟨hw, -, -⟩ := s.wipesPlot_spec old g p
  generalize s.wipesPlot old g p = w at hexec hw
  obtain ⟨queues, links, htables, -⟩ := w.regrainTables_eq old g p r.slot
  have hgrafts : w.grafts = s.grafts := (congrArg State.grafts hw.frame :)
  have hsame : (w.regrainTables old g p r.slot).admitChanged old g p = w.regrainTables old g p r.slot :=
    State.admitChanged_of_not_up (by rw [htables]; exact hgrafts ▸ hdown) old g p
  have ht := State.armPlotLinks_settles (w.regrainTables old g p r.slot) p
  rw [hsame] at hexec
  dsimp only at hexec
  generalize State.armPlotLinks _ p = t at hexec ht
  have hu := (((t.regrainStart g p).openAll_books (some old) g).trans (State.note_books _ 5 g.serial (BitVec.ofNat 64 p.val))).settles.trans
    (State.finishOpt_settles _ r.ch 0 0)
  generalize State.finishOpt _ r.ch 0 0 = u at hexec hu
  have hnone : u.grn.waiting = [] := (congrArg Grn.waiting (hw.grn_regrained ht hu)).trans hwaiting
  have hended : (u.recordImage g).endLoad = (u.recordImage g).modGrn Grn.ended := State.endLoad_of_none_waiting hnone
  obtain ⟨cnt, parkedAt, hp⟩ := hw.plot_regrained ht hu
  have hgoes : ((u.recordImage g).modGrn Grn.ended).plots[p].resetWaits = false := (congrArg Plot.resetWaits hp).trans hwaits
  rw [hended, if_neg (ne_true_of_eq_false hgoes)] at hexec
  exact ⟨t, u, ht, hu, hexec.trans (congrArg Host.Outcome.next (State.postHeldEvents_of_none ((congrArg Plot.heldEvents hp).trans hheld)))⟩

end Sys2Proof.Machine
end

section
/-! SUPPORT. The switch of the whole device (R190, R304, R411): the tables that it puts in force and the links that stay new, and the settling of
O39. -/

namespace Sys2Proof.Machine

open Sys2Proof.Safety

/-! ### New links (R190) -/

/-- A link on which nothing has been sent. -/
def Link.isNew (l : Link) : Prop := l.nextEp = 0 ∧ l.expect = 0 ∧ l.eps = [] ∧ l.wire = []

theorem Link.isNew_armed (w0 w1 : Word) (buf : Option Nat) (credits : Nat) : (Link.armed w0 w1 buf credits).isNew := ⟨rfl, rfl, rfl, rfl⟩

/-- The device's n links are new and no run fills. -/
structure Renewed (n : Nat) (s : State) : Prop where
  length : s.links.length = n
  new : ∀ l ∈ s.links, l.isNew
  quiet : ∀ b h, (s.half b h).st ≠ .filling

/-- What every element has, and the change keeps, every element of the changed list has. -/
theorem forall_mem_lmod {α : Type} {P : α → Prop} {f : α → α} (hf : ∀ x, P x → P (f x)) {xs : List α} (h : ∀ x ∈ xs, P x) (k : Nat) :
    ∀ x ∈ lmod xs k f, P x := by
  intro x hx
  rw [lmod_eq_modify] at hx
  obtain ⟨i, hi, rfl⟩ := List.mem_iff_getElem.mp hx
  rw [List.getElem_modify]
  split_ifs
  · exact hf _ (h _ (List.getElem_mem _))
  · exact h _ (List.getElem_mem _)

namespace Renewed

variable {n : Nat} {s : State} (hs : Renewed n s)
include hs

theorem of_eq {t : State} (hlinks : t.links = s.links) (hboughs : t.boughs = s.boughs) : Renewed n t where
  length := hlinks ▸ hs.length
  new := hlinks ▸ hs.new
  quiet b h := by
    rw [State.half, State.bough, hboughs]
    exact hs.quiet b h

theorem modLink (i : Nat) {f : Link → Link} (hf : ∀ l : Link, l.isNew → (f l).isNew) : Renewed n (s.modLink i f) where
  length := (congrArg List.length (lmod_eq_modify s.links i f)).trans ((List.length_modify ..).trans hs.length)
  new := forall_mem_lmod hf hs.new i
  quiet := hs.quiet

theorem recordBreak (i : Nat) (code : BitVec 4) : Renewed n (s.recordBreak i code) := by
  unfold State.recordBreak
  extract_lets t
  have ht : Renewed n t := hs.modLink i fun _ => id
  split
  · exact ht
  · split
    · exact ht
    · dsimp only
      split_ifs <;> exact ht.of_eq rfl rfl

theorem breakBough (b : BoughId) (i : Nat) (l : Link) (code : BitVec 4) : s.breakBough i l code b = s :=
  State.breakBough_of_not_filling (fun h => hs.quiet b h) i l code

theorem custody (b : BoughId) (i : Nat) (p : SendSt → Bool) : Renewed n (s.custody b i p) := by
  have hframe := s.custody_frame b i p
  have hquiet := fun c h => State.custody_not_filling (hs.quiet c h) b i p
  generalize s.custody b i p = t at hframe hquiet
  have hlinks : t.links = s.links := (congrArg State.links hframe :)
  exact ⟨hlinks ▸ hs.length, hlinks ▸ hs.new, hquiet⟩

theorem breakLink (i : Nat) (code : BitVec 4) : Renewed n (s.breakLink i code) := by
  unfold State.breakLink
  split
  · exact hs
  next l hl =>
    rw [State.keepWhole_of_noReceiver hl (hs.quiet _)]
    have hemptied := (hs.recordBreak i code).modLink i (f := Link.emptied) fun l ⟨hnext, hexpect, _, _⟩ => ⟨hnext, hexpect, rfl, rfl⟩
    unfold Link.emptied at hemptied
    dsimp only
    generalize State.modLink _ i _ = u at hemptied
    have hsent := hemptied.custody (boughId l.srcBough) i fun _ => true
    split_ifs
    · exact hs.recordBreak i code
    · exact hemptied
    · rw [hemptied.breakBough]
      exact hsent
    · rw [hemptied.breakBough]
      exact hemptied
    · rw [hemptied.breakBough, hsent.breakBough]
      exact hsent

theorem breakLinks (p : Link → Bool) (code : BitVec 4) : Renewed n (s.breakLinks p code) := by
  unfold State.breakLinks
  refine List.foldlRecOn (motive := Renewed n) _ _ hs fun s hs i _ => ?_
  split
  · split_ifs
    · exact hs.breakLink i code
    · exact hs
  · exact hs

theorem giveCredit (i k : Nat) : Renewed n (s.giveCredit i k) := by
  unfold State.giveCredit
  split
  · exact hs
  · split_ifs
    · exact hs
    · exact hs.of_eq rfl rfl
    · exact hs.modLink i fun _ => id

end Renewed

/-! ### The tables at the switch tick (R304, R409, R411) -/

/-- A bough as the switch leaves it: its twig at word 0, its ownership cache empty. -/
def Bough.switched (y : Bough) (g : Grain) (i : Nat) : Bough := { y with ocache := [], freeze := false, twig := Twig.start (idleRun g i) }

/-- The state with image g in force at its tick. -/
def State.takesImage (s : State) (old : Option Grain) (g : Grain) (tick : Word) (slot : Fin 2) : State :=
  let s := s.modGrn fun x => { x with active := some g, last := none, staged := none, epoch := tick, slot := slot, zeroing := 0 }
  let s := s.switchQueues old (some g) (List.finRange 1024)
  { s with links := linksFor g fun _ _ => none, boughs := s.boughs.mapFinIdx fun i y _ => y.switched g i, plots := s.plots.mapFinIdx fun i x _ => x.cleared (if (g.map? i).isSome then .running else .undefined) }

/-- The receivers of links that are not broken return their credits. -/
def State.givesCredits (s : State) : State :=
  (List.range s.links.length).foldl (fun s i => match s.links[i]? with
    | some l => if l.broken then s else s.giveCredit i (if l.fromGraft then l.shareWords else 0)
    | none => s) s

theorem State.givesCredits_settles (s : State) : Settles s s.givesCredits := by
  refine (Breaks.foldl (fun s i => ?_) _ s).settles
  split
  · split
    · exact .refl s
    · exact s.giveCredit_breaks ..
  · exact .refl s

theorem Renewed.givesCredits {n : Nat} {s : State} (hs : Renewed n s) : Renewed n s.givesCredits := by
  unfold State.givesCredits
  refine List.foldlRecOn (motive := Renewed n) _ _ hs fun s hs i _ => ?_
  split
  · split
    · exact hs
    · exact hs.giveCredit ..
  · exact hs

/-- Ports that are off lose no partner. -/
theorem State.graftsBefore_of_off {s : State} (h : ∀ n : PortId, s.grafts[n].st = .off) (g : Grain) : s.graftsBefore g = s := by
  unfold State.graftsBefore
  refine List.foldl_fixed' (fun n => if_neg fun hup => ?_) _
  have hst : s.grafts[n].st = .up := beq_iff_eq.mp (Bool.and_eq_true_iff.mp hup).1
  exact GraftSt.noConfusion ((h n).symm.trans hst)

theorem State.graftsAfter_eq (s : State) (g : Grain) : ∃ grafts, s.graftsAfter g = { s with grafts := grafts } := by
  unfold State.graftsAfter
  generalize List.finRange 4 = ns
  induction ns generalizing s with
  | nil => exact ⟨s.grafts, rfl⟩
  | cons n ns ih =>
    rw [List.foldl_cons]
    split_ifs
    · exact ih s
    · exact ih (s.setGraft n .off)
    · exact ih (s.setGraft n .listen)
    · exact ih s

section

variable (s : State) (old : Option Grain) (g : Grain) (tick : Word) (slot : Fin 2)

theorem State.takesImage_eq : ∃ queues links boughs plots,
    s.takesImage old g tick slot = { s with grn := { s.grn with active := some g, last := none, staged := none, epoch := tick, slot := slot, zeroing := 0 }, queues := queues, links := links, boughs := boughs, plots := plots } ∧
    (∀ q : QueueId, queues[q] = if (old.bind fun o => o.queueRec q.val) ≠ g.queueRec q.val then Queue.start (((g.queueRec q.val).map recSize).getD 0) else s.queues[q]) ∧
    links = linksFor g (fun _ _ => none) ∧ (∀ b : BoughId, boughs[b] = (s.bough b).switched g b.val) ∧
    ∀ p : PlotId, plots[p] = s.plots[p].cleared (if (g.map? p.val).isSome then .running else .undefined) := by
  unfold State.takesImage
  extract_lets t u
  obtain ⟨queues, heq, hqueue⟩ := t.switchQueues_eq old (some g) (List.finRange 1024)
  have hu : u = _ := heq
  rw [hu]
  refine ⟨queues, _, _, _, rfl, fun q => ?_, rfl, fun b => Vector.getElem_mapFinIdx .., fun p => Vector.getElem_mapFinIdx ..⟩
  rw [hqueue]
  simp only [List.mem_finRange, true_and]
  rfl

theorem State.takesImage_renewed (hfree : ∀ b h, (s.half b h).st = .free) : Renewed (linksWithBuf g.links).length (s.takesImage old g tick slot) := by
  obtain ⟨queues, links, boughs, plots, heq, -, hlinks, hboughs, -⟩ := s.takesImage_eq old g tick slot
  rw [heq]
  refine ⟨(congrArg List.length hlinks).trans (List.length_map ..), fun l hl => ?_, fun b h hst => ?_⟩
  · obtain ⟨x, -, rfl⟩ := List.mem_map.mp (hlinks ▸ hl)
    exact Link.isNew_armed ..
  · have hsame : boughs[b].halves[h] = s.half b h := (congrArg (fun y : Bough => y.halves[h]) (hboughs b) :)
    have hfilling : boughs[b].halves[h].st = .filling := hst
    rw [hsame, hfree] at hfilling
    exact HalfSt.noConfusion hfilling

end

/-- A queue's record is that of the image in force. -/
theorem State.queueRec_eq (s : State) (q : Nat) : (s.grn.active.bind fun o => o.queueRec q) = s.queueRec q := by
  unfold State.queueRec
  cases s.grn.active <;> rfl

/-! ### SWITCH_TICK (R411) -/

theorem exec_switchTick_of_ready {s : State} {g : Grain} {r : ActReq} (hstaged : s.grn.staged = some g) (hreq : s.grn.req = some r)
    (hmode : s.sys.mode = .load) (hst : s.grn.st = .writing) (hready : ∀ b, (s.bough b).resetting = false) :
    exec .switchTick s = .next (((((((((s.graftsBefore g).closeForSwitch (s.grn.active.or s.grn.last) g).takesImage s.grn.active g s.ring.tick
      r.slot).graftsAfter g).breakUnadmitted).givesCredits).openAll (s.grn.active.or s.grn.last) g).note 5 g.serial 0xff).finishOpt r.ch 0 0) := by
  have hall : s.boughsReady = true := by
    unfold State.boughsReady
    refine List.all_eq_true.mpr fun y hy => ?_
    obtain ⟨i, hi, rfl⟩ := Vector.mem_iff_getElem.mp (Vector.mem_toList_iff.mp hy)
    have hreset : (s.boughs[i]).resetting = false := hready ⟨i, hi⟩
    rw [hreset]
    rfl
  show execSwitchTick s = _
  unfold execSwitchTick
  rw [hstaged, hreq]
  exact if_pos ⟨hmode, hst, hall⟩

/-- The tables take the image once the records are closed; then links settle, records open and the command completes, with every link still new. -/
theorem exec_switchTick_settles {s : State} {g : Grain} {r : ActReq} (hstaged : s.grn.staged = some g) (hreq : s.grn.req = some r)
    (hmode : s.sys.mode = .load) (hst : s.grn.st = .writing) (hready : ∀ b, (s.bough b).resetting = false) (hfree : ∀ b h, (s.half b h).st = .free)
    (hoff : ∀ n : PortId, s.grafts[n].st = .off) :
    ∃ t u, Books s t ∧ Settles (t.takesImage s.grn.active g s.ring.tick r.slot) u ∧ Renewed (linksWithBuf g.links).length u ∧
      exec .switchTick s = .next u := by
  have hexec := exec_switchTick_of_ready hstaged hreq hmode hst hready
  rw [State.graftsBefore_of_off hoff] at hexec
  have ht := s.closeForSwitch_books (s.grn.active.or s.grn.last) g
  generalize s.closeForSwitch _ g = t at hexec ht
  have hhalf : ∀ b h, (t.half b h).st = .free := by
    intro b h
    have hboughs : t.boughs = s.boughs := (congrArg State.boughs ht.frame :)
    rw [State.half, State.bough, hboughs]
    exact hfree b h
  have hnew := t.takesImage_renewed s.grn.active g s.ring.tick r.slot hhalf
  suffices hsettled : ∃ u, Settles (t.takesImage s.grn.active g s.ring.tick r.slot) u ∧ Renewed (linksWithBuf g.links).length u ∧
      exec .switchTick s = .next u from hsettled.elim fun u hu => ⟨t, u, ht, hu⟩
  generalize t.takesImage _ _ _ _ = v at hexec hnew ⊢
  obtain ⟨grafts, hgrafts⟩ := v.graftsAfter_eq g
  rw [hgrafts] at hexec
  have hported : Settles v { v with grafts := grafts } := ⟨rfl, rfl, rfl, rfl, rfl, fun _ => rfl, fun _ => rfl⟩
  have hnew := hnew.of_eq (t := { v with grafts := grafts }) rfl rfl
  generalize ({ v with grafts := grafts } : State) = v' at hexec hported hnew
  have hunadmitted : Settles v' v'.breakUnadmitted := (v'.breakLinks_breaks _ 3).settles
  have hnew : Renewed _ v'.breakUnadmitted := hnew.breakLinks _ 3
  generalize v'.breakUnadmitted = w at hexec hunadmitted hnew
  have hcredited := w.givesCredits_settles
  have hnew := hnew.givesCredits
  generalize w.givesCredits = x at hexec hcredited hnew
  have hbooks := (x.openAll_books (s.grn.active.or s.grn.last) g).trans (State.note_books _ 5 g.serial 0xff)
  generalize State.note _ _ _ _ = y at hexec hbooks
  have hlinks : y.links = x.links := (congrArg State.links hbooks.frame :)
  have hboughs : y.boughs = x.boughs := (congrArg State.boughs hbooks.frame :)
  have hnew := hnew.of_eq hlinks hboughs
  have hsettled := ((hported.trans hunadmitted).trans hcredited).trans hbooks.settles
  refine ⟨_, hsettled.trans (y.finishOpt_settles r.ch 0 0), ?_, hexec⟩
  cases r.ch
  · exact hnew
  · exact hnew.of_eq rfl rfl

/-- Twigs of an image's boughs stand at word 0 and do not run. -/
theorem Twig.run_start_idleRun (g : Grain) (i : Nat) : (Twig.start (idleRun g i)).run ≠ .running := by
  show idleRun g i ≠ .running
  unfold idleRun
  split_ifs <;> exact TwigRun.noConfusion

end Sys2Proof.Machine

open Sys2Proof Sys2Proof.Machine Sys2Proof.Safety

/-- Settles O39: SWITCH_TICK by `State.takesImage_eq` and what settles after it, PLOT_START by `exec_plotStart_of_late`, a regrain by
`State.quietsPlot_spec`, its switch by `State.wipesPlot_spec` and the lemmas on what a regrain keeps. -/
theorem switchAndRegrain : Obligations.SwitchAndRegrain := by
  unfold Obligations.SwitchAndRegrain
  refine ⟨⟨fun s g r hstaged hreq hmode hst hready hfree hoff => ?switch, fun s g hactive hmode hst hstaged hwaiting hmapped => ?starts⟩,
    fun s g r p hstaged hreq hplot hmode hst hbusy => ?regrain,
    fun s g old r p hstaged hactive hreq hplot hst hmode hready hwaiting hwaits hheld hdown => ?regrained,
    fun s g p hstaged hreq hready => ⟨s, exec_regrainSwitchTick_of_not_ready hstaged hreq hready, rfl⟩⟩
  case switch =>
    obtain ⟨t, u, ht, hu, hnew, hexec⟩ := exec_switchTick_settles hstaged hreq hmode hst hready hfree hoff
    obtain ⟨queues, links, boughs, plots, htables, hqueues, -, hboughs, hplots⟩ := t.takesImage_eq s.grn.active g s.ring.tick r.slot
    rw [htables] at hu
    have hsys : t.sys = s.sys := (congrArg State.sys ht.frame :)
    have hmem : t.mem = s.mem := (congrArg State.mem ht.frame :)
    have hsame : t.queues = s.queues := (congrArg State.queues ht.frame :)
    have hqueue : ∀ q : QueueId, u.queues[q] = queues[q] := fun q => (congrArg (fun v => v[q]) hu.queues :)
    refine ⟨u, hexec, (congrArg Grn.active hu.grn :), (congrArg Grn.staged hu.grn :), (congrArg Grn.epoch hu.grn :), (congrArg Grn.slot hu.grn :),
      (congrArg Sys.mode (hu.sys.trans hsys)).trans hmode, hu.mem.trans hmem, fun b => ?_, fun p => ?_, fun q hq => ?_, fun q hq => ?_, hnew.length, hnew.new⟩
    · have htwig := (hu.twig b).trans (congrArg Bough.twig (hboughs b))
      exact ⟨(hu.ocache b).trans (congrArg Bough.ocache (hboughs b)), (hu.freeze b).trans (congrArg Bough.freeze (hboughs b)),
        congrArg Twig.pc htwig, htwig ▸ Twig.run_start_idleRun g b.val⟩
    · have hplot := (hu.plot p).trans (hplots p)
      exact ⟨(congrArg Plot.duty hplot :), (congrArg Plot.park hplot :), (congrArg Plot.preempt hplot :), (congrArg Plot.grace hplot :),
        (congrArg Plot.st hplot :)⟩
    · rw [hqueue, hqueues, State.queueRec_eq, if_neg (fun h => h hq), hsame]
    · rw [hqueue, hqueues, State.queueRec_eq, if_pos hq]
      exact ⟨rfl, rfl⟩
  case starts =>
    refine ⟨fun hlate => ?_, fun hearly => ⟨s, exec_plotStart_of_early hactive hmode hst hstaged hearly, rfl⟩⟩
    obtain ⟨u, hexec, hreports⟩ := exec_plotStart_of_late hactive hmode hst hstaged hlate
    rw [State.recordImage_endLoad_setMode (s := s.begun g) hwaiting hmapped] at hreports
    obtain ⟨hframe, hrun⟩ := hreports
    have hgrn := congrArg State.grn hframe
    have hbough : ∀ b, u.bough b = (s.bough b).begun g b.val := fun b =>
      (congrArg (fun v : Vector Bough 256 => v[b]) (congrArg State.boughs hframe)).trans (s.bough_begun g b)
    refine ⟨u, hexec, hrun, (congrArg Grn.active hgrn).trans hactive, (congrArg Grn.floor hgrn :), (congrArg Grn.prefSlot hgrn :),
      (congrArg Grn.req hgrn :), (congrArg Grn.st hgrn :), (congrArg State.mem hframe :), (congrArg State.links hframe :), fun b hb => ?_, fun b hb => ?_⟩
    · rw [hbough, Bough.twig_begun hb]
      exact ⟨rfl, rfl, fun r => Vector.getElem_replicate ..⟩
    · rw [hbough, Bough.begun_of_none hb]
  case regrain =>
    obtain ⟨mem, zeroing, hexec, hroot⟩ := exec_regrain_of_staged hstaged hreq hplot hmode hst hbusy
    obtain ⟨⟨-, hgrn, hplots, -, -⟩, hold, hchanged⟩ := s.quietsPlot_spec g p
    generalize s.quietsPlot g p = t at hexec hgrn hplots hold hchanged
    have hp : t.plots[p] = _ := (congrArg (fun v => v[p]) hplots).trans (s.plot_regrains p)
    refine ⟨_, hexec, (congrArg Grn.active hgrn :), (congrArg Grn.st hgrn :), (congrArg Grn.plot hgrn :), congrArg Plot.st hp, congrArg Plot.preempt hp,
      fun q hq => ?_, hold, hchanged, fun a ha hin => (hroot a ha).trans (if_neg hin), fun a ha hin => (hroot a ha).trans (if_pos hin)⟩
    exact congrArg Plot.st ((congrArg (fun v => v[q]) hplots).trans (s.plot_regrains_ne hq))
  case regrained =>
    obtain ⟨t, u, ht, hu, hexec⟩ := exec_regrainSwitchTick_settles hstaged hactive hreq hplot hst hmode hready hwaiting hwaits hheld hdown
    obtain ⟨hw, hregions, hscratch⟩ := s.wipesPlot_spec old g p
    generalize s.wipesPlot old g p = w at ht hw hregions hscratch
    have hgrn := hw.grn_regrained ht hu
    obtain ⟨cnt, parkedAt, hp⟩ := hw.plot_regrained ht hu
    have hmem := ht.mem_regrained hu
    refine ⟨_, hexec, (congrArg Grn.active hgrn :), (congrArg Grn.epoch hgrn :), rfl, rfl, rfl, ?_, fun m b hm hb i hi => ?_, fun a ha hin => ?_,
      fun q hq => hw.queue_regrained ht hu hq, fun b m hm hother => ?_, fun b m hm hown => ?_, fun b e he => ?_⟩
    · rw [← g.regrainedSt_eq]
      exact (congrArg Plot.st (vmod_get_self _ p _)).trans (congrArg Plot.st hp)
    · exact (congrArg (Memory.read · _) hmem).trans (hscratch m b hm hb i hi)
    · exact (congrArg (Memory.read · a) hmem).trans (hregions a ha hin)
    · obtain ⟨y, hy, -, htwig, -⟩ := hw.bough_regrained ht hu b
      rw [Bough.regrained_of_other hm hother, hy] at htwig
      exact htwig
    · obtain ⟨y, -, -, htwig, -⟩ := hw.bough_regrained ht hu b
      rw [Bough.twig_regrained_of_own hm hown] at htwig
      exact htwig
    · obtain ⟨y, -, hforgot, -, hocache⟩ := hw.bough_regrained ht hu b
      exact hforgot e (hocache ▸ he)
end

section
/-! SUPPORT. Trap entry (R240, R243, R244, R246, R247, R252-R254): the words that it leaves in the TSB, the twig that goes on at the vector, which
trap is due, and the settling of O13. -/

namespace Sys2Proof.Machine

open Sys2Proof.Safety

/-! ### Words laid out in memory -/

theorem wordBytes_succ (n v : Nat) : wordBytes (n + 1) v = BitVec.ofNat 8 v :: wordBytes n (v / 256) := by
  have hshift : ∀ i, v / 2 ^ (8 * (i + 1)) = v / 256 / 2 ^ (8 * i) := fun i => by
    rw [Nat.div_div_eq_div_mul, show 8 * (i + 1) = 8 + 8 * i by omega, Nat.pow_add]
  simp [wordBytes, List.range_succ_eq_map, hshift]

theorem bytesNat_wordBytes (n v : Nat) : bytesNat (wordBytes n v) = v % 2 ^ (8 * n) := by
  induction n generalizing v with
  | zero => exact (Nat.mod_one v).symm
  | succ n ih =>
    rw [wordBytes_succ, bytesNat, ih, BitVec.toNat_ofNat, show 8 * (n + 1) = 8 + 8 * n by omega, Nat.pow_add, Nat.mod_mul]

/-- Byte j of word i of the words ws. -/
theorem getD_wordsBytes {ws : List Word} {i j : Nat} {w : Word} (hw : ws[i]? = some w) (hj : j < 8) :
    (wordsBytes ws).getD (8 * i + j) 0 = BitVec.ofNat 8 (w.toNat / 2 ^ (8 * j)) := by
  induction ws generalizing i with
  | nil => exact absurd hw (by simp)
  | cons v ws ih =>
    have hlen : (wordBytes 8 v.toNat).length = 8 := rfl
    rw [wordsBytes, List.flatMap_cons, ← wordsBytes]
    cases i with
    | zero =>
      obtain rfl : v = w := Option.some.inj hw
      rw [List.getD_append _ _ _ _ (by omega), Nat.mul_zero, Nat.zero_add]
      simp [wordBytes, hj]
    | succ i =>
      rw [List.getD_append_right _ _ _ _ (by omega), show 8 * (i + 1) + j - (wordBytes 8 v.toNat).length = 8 * i + j by omega]
      exact ih hw

/-- Words that have been stored read back. -/
theorem Memory.readWord_of_stored {m m' : Memory} {a i : Nat} {ws : List Word} {w : Word} (h : Stored m m' a (wordsBytes ws)) (hw : ws[i]? = some w) :
    m'.readWord (a + 8 * i) = w := by
  have hi : i < ws.length := (List.getElem?_eq_some_iff.mp hw).1
  have hbytes : m'.readN (a + 8 * i) 8 = wordBytes 8 w.toNat := List.map_congr_left fun j hj => by
    have hj : j < 8 := List.mem_range.mp hj
    rw [h, if_pos (by rw [length_wordsBytes]; omega), show a + 8 * i + j - a = 8 * i + j by omega, getD_wordsBytes hw hj]
  rw [Memory.readWord, hbytes, bytesNat_wordBytes, Nat.mod_eq_of_lt w.isLt, BitVec.ofNat_toNat, BitVec.setWidth_eq]

/-! ### The words of the TSB (R246, R247) -/

theorem Cause.num_lt (c : Cause) : c.num < 32 := by cases c <;> decide

theorem TrapInfo.causeWord_eq (k : TrapInfo) :
    k.causeWord = BitVec.ofNat 64 (k.cause.num + 32 * b2n k.intr + 64 * b2n k.vector + 128 * b2n k.held) := by
  have hbit : ∀ b, b2n b % 2 = b2n b := by decide
  have hnum : k.cause.num % 32 = k.cause.num := Nat.mod_eq_of_lt k.cause.num_lt
  rw [causeWord, packWord]
  exact congrArg _ (by simp [hbit, hnum]; omega)

theorem length_tsbWords (w : Twig) (k : TrapInfo) (tick : Word) (moved : List QEntry) : (tsbWords w k tick moved).length = 41 := by
  simp [tsbWords, savedWords]

/-- Words 16 to 31 hold the G registers. -/
theorem tsbWords_reg (w : Twig) (k : TrapInfo) (tick : Word) (moved : List QEntry) (r : GReg) :
    (tsbWords w k tick moved)[16 + r.val]? = some (w.reg r) := by
  rw [tsbWords, List.append_assoc, List.append_assoc, List.getElem?_append_right (by simp), List.getElem?_append_left (by simp)]
  simp [Twig.reg]

/-! ### Trap entry (R244) -/

@[simp] theorem State.mem_meter (s : State) (p : Option Nat) (f : Counters → Counters) : (s.meter p f).mem = s.mem := by cases p <;> rfl
@[simp] theorem State.twig_meter (s : State) (p : Option Nat) (f : Counters → Counters) (t : TwigId) : (s.meter p f).twig t = s.twig t := by
  obtain ⟨plots, hmeter⟩ := s.meter_eq p f
  rw [hmeter]
  cases t <;> rfl

@[simp] theorem State.twig_modMem (s : State) (t : TwigId) (f : Memory → Memory) : (s.modMem f).twig t = s.twig t := by cases t <;> rfl

@[simp] theorem State.twig_meterTsb (s : State) (t u : TwigId) : (s.meterTsb t).twig u = s.twig u := by
  cases t with
  | bough b => exact s.twig_meter _ _ u
  | crown k => rfl
@[simp] theorem State.mem_meterTsb (s : State) (t : TwigId) : (s.meterTsb t).mem = s.mem := by
  cases t with
  | bough b => exact s.mem_meter _ _
  | crown k => rfl

/-- The twig as the entry of trap k leaves it. -/
def Twig.trapped (w : Twig) (k : TrapInfo) : Twig := { w.entered k.cause with badStore := if k.late then none else w.badStore }

/-- Trap k has taken s to s': the TSB is written, the twig goes on in the handler, and a vector fault waits no longer. -/
structure Traps (t : TwigId) (k : TrapInfo) (s s' : State) : Prop where
  mem : ∃ moved, s'.mem = s.mem.write (atAddr (tsbBase (s.twig t).tsbp) (wordsBytes (tsbWords (s.twig t) k s.ring.tick moved)))
  twig : s'.twig t = (s.twig t).trapped k
  vfault : ∀ b, t = .bough b → k.vector = true → (s'.bough b).vfault = none

/-- An update of a bough that keeps its twig. -/
theorem State.twig_modBough_of_kept (s : State) (b : BoughId) (f : Bough → Bough) (h : (f (s.bough b)).twig = (s.bough b).twig) :
    (s.modBough b f).twig (.bough b) = s.twig (.bough b) :=
  (congrArg Bough.twig (s.bough_modBough b f)).trans h

theorem State.enterTrap_traps (s : State) (t : TwigId) (k : TrapInfo) : Traps t k s (s.enterTrap t k) := by
  unfold State.enterTrap
  dsimp only
  cases t with
  | crown c => exact ⟨⟨[], by simp⟩, by simp [Twig.trapped], fun _ h => nomatch h⟩
  | bough b =>
    dsimp only
    by_cases hvector : k.vector = true
    · simp only [if_pos hvector]
      refine ⟨⟨((s.bough b).saved.map (·.entries)).getD [], by simp⟩, (State.twig_modBough_of_kept _ b _ rfl).trans (by simp [Twig.trapped]),
        fun c hc _ => ?_⟩
      obtain rfl : b = c := TwigId.bough.inj hc
      rw [State.bough_modBough]
    · simp only [if_neg hvector]
      exact ⟨⟨[], by simp⟩, (State.twig_modBough_of_kept _ b _ rfl).trans (by simp [Twig.trapped]), fun _ _ h => absurd h hvector⟩

/-! ### Taking a trap (R243, R244) -/

section ready

variable {s : State} {t : TwigId} (h : TsbReady s t) (k : TrapInfo)
include h

theorem State.takeTrap_traps : Traps t k s (s.takeTrap t k) := by
  obtain ⟨hvalid, hlo, hhi, -⟩ := h
  have husable : tsbUsable t (s.twig t).tsbp = true := by simp [tsbUsable, tsbValid, tsbInOwn, hvalid, hlo, hhi]
  rw [State.takeTrap, if_pos husable]
  exact s.enterTrap_traps t k

theorem State.stored_takeTrap :
    ∃ moved, Stored s.mem (s.takeTrap t k).mem (tsbBase (s.twig t).tsbp) (wordsBytes (tsbWords (s.twig t) k s.ring.tick moved)) := by
  obtain ⟨moved, hmem⟩ := (State.takeTrap_traps h k).mem
  obtain ⟨-, -, -, halive⟩ := h
  refine ⟨moved, hmem ▸ stored_write ?_⟩
  rwa [length_wordsBytes, length_tsbWords]

/-- A word of the TSB that holds v whatever queue the trap saves. -/
theorem State.readWord_takeTrap (i : Nat) {v : Word} (hword : ∀ moved, (tsbWords (s.twig t) k s.ring.tick moved)[i]? = some v) :
    (s.takeTrap t k).mem.readWord (tsbBase (s.twig t).tsbp + 8 * i) = v := by
  obtain ⟨moved, hstored⟩ := State.stored_takeTrap h k
  exact Memory.readWord_of_stored hstored (hword moved)

theorem State.read_takeTrap_outside {x : Nat} (hx : x < tsbBase (s.twig t).tsbp ∨ tsbBase (s.twig t).tsbp + 328 ≤ x) :
    (s.takeTrap t k).mem.read x = s.mem.read x := by
  obtain ⟨moved, hstored⟩ := State.stored_takeTrap h k
  rw [hstored, if_neg (by rw [length_wordsBytes, length_tsbWords]; omega)]

theorem State.twigFault_entered (c : Cause) (addr : Word) : Entered t c addr s (s.twigFault t c addr) := by
  unfold State.twigFault
  dsimp only
  generalize hk : TrapInfo.mk c false false false 0 addr (s.twig t).pc _ _ = k
  have htwig := (State.takeTrap_traps h k).twig
  have hcause : k.causeWord = BitVec.ofNat 64 c.num := by rw [TrapInfo.causeWord_eq, ← hk]; rfl
  subst hk
  exact ⟨congrArg Twig.pc htwig, congrArg Twig.tsbp htwig, (congrArg Twig.g htwig).trans rfl,
    by simpa using State.readWord_takeTrap h _ 0 fun _ => rfl, State.readWord_takeTrap h _ 1 fun _ => congrArg some hcause,
    State.readWord_takeTrap h _ 3 fun _ => rfl⟩

end ready

/-! ### Which trap is due (R253, R254) -/

/-- An instruction that sets VL writes a scalar (R109, R253). -/
theorem Bough.vlPending_of_not_writesScalar {y : Bough} (h : y.writesScalar = false) : y.vlPending = false := by
  simp only [Bough.writesScalar, Bough.vlPending, List.any_eq_false] at h ⊢
  intro e he hop
  exact h e he (by simp [hop])

section due

variable {s : State} {t : TwigId} {b : BoughId}

theorem State.trapDue_of_invalid (h : tsbValid (s.twig t).tsbp = false) : s.trapDue t = none := by
  simp [State.trapDue, h]

/-- A trap saves the PC at which the twig stands. -/
theorem State.pc_of_trapDue {k : TrapInfo} (h : s.trapDue t = some k) : k.pc = (s.twig t).pc := by
  have hstore : ∀ {k : TrapInfo} {w : Twig} {f : Nat → TrapInfo}, (∀ a, (f a).pc = w.pc) → w.badStore.map f = some k → k.pc = w.pc := by
    intro k w f hf hmap
    obtain ⟨a, -, rfl⟩ := Option.map_eq_some_iff.mp hmap
    exact hf a
  unfold State.trapDue at h
  dsimp only at h
  split at h
  · cases h
  · cases t with
    | crown c => exact hstore (fun _ => rfl) h
    | bough b =>
      dsimp only at h
      split at h
      · exact Option.some.inj h ▸ rfl
      · split_ifs at h
        · exact hstore (fun _ => rfl) h
        · split at h
          · exact Option.some.inj h ▸ rfl
          · cases h

variable (hvalid : tsbValid (s.bough b).twig.tsbp = true) (hcan : (s.bough b).twig.canTrap = true)
include hvalid hcan

theorem State.trapDue_of_vfault {v : VFault} (hv : (s.bough b).vfault = some v) : s.trapDue (.bough b) = some
    { cause := v.cause, intr := false, vector := true, held := v.held, elem := v.elem, addr := v.addr, pc := (s.bough b).twig.pc,
      active := (s.bough b).twig.repeating } := by
  simp [State.trapDue, State.twig, hvalid, hcan, hv]

variable (hv : (s.bough b).vfault = none)
include hv

theorem State.trapDue_of_badStore {a : Nat} (ha : (s.bough b).twig.badStore = some a) : s.trapDue (.bough b) = some
    { cause := .poison, intr := false, vector := false, held := false, elem := 0, addr := BitVec.ofNat 64 a, pc := (s.bough b).twig.pc,
      active := (s.bough b).twig.repeating, late := true } := by
  simp [State.trapDue, State.twig, hvalid, hcan, hv, ha]

variable (ha : (s.bough b).twig.badStore = none)
include ha

/-- An issued instruction that writes a G register or VL holds every interrupt. -/
theorem State.trapDue_of_writesScalar (hwrites : (s.bough b).writesScalar = true) : s.trapDue (.bough b) = none := by
  simp [State.trapDue, State.twig, hvalid, hcan, hv, ha, hwrites]

theorem State.cause_trapDue_of_sources (hwrites : (s.bough b).writesScalar = false) :
    (s.trapDue (.bough b)).map (fun k => k.cause) = (s.sources (.bough b)).head? := by
  have hvl := Bough.vlPending_of_not_writesScalar hwrites
  cases hsources : s.sources (.bough b) <;> simp [State.trapDue, State.twig, hvalid, hcan, hv, ha, hwrites, hvl, hsources]

end due

/-- The first source in the order of R254. -/
theorem State.head?_sources (s : State) (b : BoughId) : (s.sources (.bough b)).head? =
    if s.crownLevel b = true then some .crownMsg
    else if (s.bough b).twig.timerLatch = true ∧ tsbTie (s.bough b).twig.tsbp = true then some .timer
    else if s.queueLevel b = true ∧ tsbQie (s.bough b).twig.tsbp = true then some .queue else none := by
  simp only [State.sources, Bool.and_eq_true]
  split_ifs <;> rfl

/-! ### TRAP_ENTRY and TIMER_LATCH -/

theorem exec_trapEntry_of_due {s : State} {t : TwigId} {k : TrapInfo} (hcode : s.codeRuns t = true) (hrun : (s.twig t).run = .running)
    (hheld : s.tsbHeld t = false) (hdue : s.trapDue t = some k) : exec (.trapEntry t) s = .next (s.takeTrap t k) := by
  show execTrapEntry t s = _
  simp [execTrapEntry, hcode, hrun, hheld, hdue]

/-- The ring tick is a multiple of the timer period of bough i's plot (R252). -/
def State.timerDue (s : State) (i : Nat) : Bool := s.timerPeriod i != 0 && s.ring.tick.toNat % s.timerPeriod i == 0

/-- A bough with its timer latch set where the timer is due. -/
def Bough.latchTimer (y : Bough) (due : Bool) : Bough := { y with twig := { y.twig with timerLatch := y.twig.timerLatch || due } }

theorem Bough.latchTimer_false (y : Bough) : y.latchTimer false = y := by rw [Bough.latchTimer, Bool.or_false]

theorem exec_timerLatch (s : State) :
    exec .timerLatch s = .next { s with boughs := s.boughs.mapFinIdx fun i y _ => y.latchTimer (s.timerDue i) } := by
  have hstep : ∀ i (y : Bough), (if s.timerPeriod i ≠ 0 ∧ s.ring.tick.toNat % s.timerPeriod i = 0 then
      { y with twig := { y.twig with timerLatch := true } } else y) = y.latchTimer (s.timerDue i) := by
    intro i y
    by_cases hdue : s.timerPeriod i ≠ 0 ∧ s.ring.tick.toNat % s.timerPeriod i = 0
    · rw [if_pos hdue, show s.timerDue i = true by simp [State.timerDue, hdue], Bough.latchTimer, Bool.or_true]
    · rw [if_neg hdue, show s.timerDue i = false by simpa [State.timerDue] using hdue, Bough.latchTimer_false]
  show execTimerLatch s = _
  simp only [execTimerLatch, hstep]

end Sys2Proof.Machine

open Sys2Proof Sys2Proof.Machine Sys2Proof.Safety

/-- Settles O13: twig faults by `State.twigFault_entered`, TRAP_ENTRY by `State.takeTrap_traps` and what it leaves in the TSB, the order of the
traps by the lemmas of `State.trapDue`, the timer by `exec_timerLatch`. -/
theorem trapsEntered : Obligations.TrapsEntered := by
  unfold Obligations.TrapsEntered
  refine ⟨⟨fun s t c addr hready _ => State.twigFault_entered hready c addr, fun s b k hcode hrun hdue hready hheld => ?entry⟩,
    fun s b hinvalid => State.trapDue_of_invalid hinvalid,
    fun s b v hvalid hcan hv => ⟨_, State.trapDue_of_vfault hvalid hcan hv, rfl, rfl, rfl, rfl, rfl⟩,
    fun s b a hvalid hcan hv ha => ⟨_, State.trapDue_of_badStore hvalid hcan hv ha, rfl, rfl, rfl, rfl⟩,
    fun s b hvalid hcan hv ha => ⟨State.trapDue_of_writesScalar hvalid hcan hv ha, fun hwrites =>
      (State.cause_trapDue_of_sources hvalid hcan hv ha hwrites).trans (s.head?_sources b)⟩,
    fun s => ?latch⟩
  case entry =>
    have htraps := State.takeTrap_traps hready k
    have htwig : ((s.takeTrap (.bough b) k).bough b).twig = (s.bough b).twig.trapped k := htraps.twig
    have hpc : k.pc = (s.bough b).twig.pc := State.pc_of_trapDue hdue
    have hword := fun i {v : Word} => State.readWord_takeTrap hready k i (v := v)
    refine ⟨_, exec_trapEntry_of_due hcode hrun hheld hdue, ?_⟩
    dsimp only
    rw [htwig]
    exact ⟨rfl, rfl, rfl, rfl, rfl, rfl, rfl, rfl, rfl, htraps.vfault b rfl, fun hlate => if_pos hlate,
      hword 0 fun _ => by rw [← hpc]; rfl, hword 1 fun _ => congrArg some k.causeWord_eq, hword 2 fun _ => rfl, hword 3 fun _ => rfl,
      hword 5 fun _ => rfl, hword 6 fun _ => rfl, hword 7 fun _ => rfl, hword 8 fun _ => rfl, hword 11 fun _ => rfl, hword 14 fun _ => rfl,
      hword 15 fun _ => rfl, fun r => hword (16 + r.val) fun _ => tsbWords_reg _ k _ _ r, fun x => State.read_takeTrap_outside hready k⟩
  case latch =>
    have hbough : ∀ b : BoughId,
        State.bough { s with boughs := s.boughs.mapFinIdx fun i y _ => y.latchTimer (s.timerDue i) } b = (s.bough b).latchTimer (s.timerDue b.val) :=
      fun b => Vector.getElem_mapFinIdx ..
    refine ⟨_, exec_timerLatch s, fun b => ?_, fun b => ?_, rfl⟩
    all_goals rw [hbough]; rfl

end

section
/-! SUPPORT. The two maps of root memory (R264, R268): the fields of a granule's number that both maps take apart, that each map keeps them
all, and when the map switches; and the settling of O28. -/

namespace Sys2Proof.Machine

/-! ### Fields of a granule's number (R264) -/

theorem nbits_lt (x lo n : Nat) : nbits x lo n < 2 ^ n := Nat.mod_lt _ (Nat.two_pow_pos n)

/-- A one-bit field is a number below any width. -/
theorem nbits_one_lt (x lo : Nat) {n : Nat} (h : 1 ≤ n) : nbits x lo 1 < 2 ^ n :=
  (nbits_lt x lo 1).trans_le (Nat.pow_le_pow_right Nat.two_pos h)

/-- The bits from 12 up are those of the row's number, whatever stands below them. -/
theorem nbits_row {g lo n : Nat} (h : 12 ≤ lo) : nbits (g / 2 ^ 12 * 2 ^ 12) lo n = nbits g lo n := by
  obtain ⟨d, rfl⟩ := Nat.exists_eq_add_of_le h
  rw [nbits, nbits, pow_add, ← Nat.div_div_eq_div_mul, ← Nat.div_div_eq_div_mul, Nat.mul_div_cancel _ (Nat.two_pow_pos 12)]

theorem nbits_row_eq {g : Nat} (hg : g < 2 ^ 31) : nbits g 12 19 = g / 2 ^ 12 := Nat.mod_eq_of_lt (by omega)

/-- The row, and below it the fields of bank slot, pseudo-channel and slice, make up the number. -/
theorem eq_sum_nbits (g : Nat) : g / 2 ^ 12 * 2 ^ 12 + nbits g 0 4 + nbits g 4 2 * 2 ^ 4 + nbits g 6 6 * 2 ^ 6 = g := by
  unfold nbits
  omega

/-- The same with the linear map's fields: slice, pseudo-channel and bank slot from the lowest. -/
theorem eq_sum_nbits_linear (g : Nat) : g / 2 ^ 12 * 2 ^ 12 + nbits g 0 6 + nbits g 6 2 * 2 ^ 6 + nbits g 8 4 * 2 ^ 8 = g := by
  unfold nbits
  omega

/-! ### The maps, there and back (R264, R268) -/

/-- A number that three others have been folded into comes back when they are folded in again. -/
theorem xor_three_cancel (a x y z : Nat) : a ^^^ x ^^^ y ^^^ z ^^^ x ^^^ y ^^^ z = a := by
  have hpairs : a ^^^ x ^^^ y ^^^ z ^^^ x ^^^ y ^^^ z = a ^^^ (x ^^^ x) ^^^ (y ^^^ y) ^^^ (z ^^^ z) := by ac_rfl
  rw [hpairs, Nat.xor_self, Nat.xor_self, Nat.xor_self, Nat.xor_zero, Nat.xor_zero, Nat.xor_zero]

theorem skewUnfold_skewFold {g : Nat} (hg : g < 2 ^ 31) : skewUnfold (skewFold g) = g := by
  rw [skewUnfold, skewFold, nbits_row_eq hg]
  simp only [nbits_row (Nat.le_refl 12), nbits_row (show 12 ≤ 16 by decide), nbits_row (show 12 ≤ 18 by decide), nbits_row (show 12 ≤ 24 by decide),
    nbits_row (show 12 ≤ 30 by decide), Nat.xor_xor_cancel_right, xor_three_cancel]
  exact eq_sum_nbits g

theorem skewFold_lt (g : Nat) : (skewFold g).s < 64 ∧ (skewFold g).p < 4 ∧ (skewFold g).b < 16 ∧ (skewFold g).w < 2 ^ 19 :=
  ⟨Nat.xor_lt_two_pow (n := 6) (Nat.xor_lt_two_pow (Nat.xor_lt_two_pow (nbits_lt g 6 6) (nbits_lt g 18 6)) (nbits_lt g 24 6)) (nbits_one_lt g 30 (by decide)),
    Nat.xor_lt_two_pow (n := 2) (nbits_lt g 4 2) (nbits_lt g 16 2), Nat.xor_lt_two_pow (n := 4) (nbits_lt g 0 4) (nbits_lt g 12 4), nbits_lt g 12 19⟩

theorem linearUnmap_linearMap {g : Nat} (hg : g < 2 ^ 31) : linearUnmap (linearMap g) = g := by
  rw [linearUnmap, linearMap, nbits_row_eq hg]
  exact eq_sum_nbits_linear g

theorem linearMap_lt (g : Nat) : (linearMap g).s < 64 ∧ (linearMap g).p < 4 ∧ (linearMap g).b < 16 ∧ (linearMap g).w < 2 ^ 19 :=
  ⟨nbits_lt g 0 6, nbits_lt g 6 2, nbits_lt g 8 4, nbits_lt g 12 19⟩

/-! ### The switch (R268) -/

theorem exec_linearMapSwitch_of_service {s : State} (hmode : s.sys.mode = .service) (hidle : s.slicesIdle = true) :
    exec .linearMapSwitch s = .next (s.setMap s.rootLinear) := by
  show execLinearMapSwitch s = _
  simp [execLinearMapSwitch, hmode, hidle]

theorem exec_linearMapSwitch_of_not {s : State} (h : s.sys.mode ≠ .service ∨ s.slicesIdle = false) : exec .linearMapSwitch s = .next s := by
  show execLinearMapSwitch s = _
  have hnot : (s.sys.mode == .service && s.slicesIdle) = false := Bool.and_eq_false_iff.mpr (h.imp_left beq_false_of_ne)
  rw [execLinearMapSwitch, hnot]
  rfl

theorem State.setMap_of_eq {s : State} {lin : Bool} (h : lin = s.linearInForce) : s.setMap lin = s := by
  simp [State.setMap, h]

theorem State.setMap_of_ne {s : State} {lin : Bool} (h : lin ≠ s.linearInForce) :
    s.setMap lin = { s.modMem fun m => m.remap lin with linearInForce := lin } := by
  simp [State.setMap, h.symm]

end Sys2Proof.Machine

open Sys2Proof Sys2Proof.Machine Sys2Proof.Safety

/-- Settles O28: each map is undone by its inverse (`skewUnfold_skewFold`, `linearUnmap_linearMap`), and the switch is `State.setMap`, which
changes nothing where the map asked for is in force. -/
theorem addressMaps : Obligations.AddressMaps := by
  unfold Obligations.AddressMaps
  refine ⟨fun g hg => ⟨skewUnfold_skewFold hg, skewFold_lt g⟩, fun g hg => ⟨linearUnmap_linearMap hg, linearMap_lt g⟩,
    fun s hmode hidle => ⟨_, exec_linearMapSwitch_of_service hmode hidle, ?_⟩, fun s => exec_linearMapSwitch_of_not⟩
  by_cases hsame : s.rootLinear = s.linearInForce
  · rw [State.setMap_of_eq hsame]
    exact ⟨hsame.symm, rfl, fun _ => rfl⟩
  · rw [State.setMap_of_ne hsame]
    exact ⟨rfl, rfl, fun h => absurd h hsame⟩

end

section
/-! SUPPORT. Maintenance of a stack (R263, R276-R278, R285, R286, R290-R292): marks of the words that a scrub rewrites, what the scrub's read leaves
on record, the registers of one stack; and the settling of O27. -/

namespace Sys2Proof.Machine

open Sys2Proof.Safety

/-! ### Marks of words that are rewritten (R274, R276) -/

/-- Listed cells after a byte is put beside them. -/
theorem Memory.listed_put_of_ne (m : Memory) {a x : Nat} (b : Byte) (h : x ≠ a) : (m.put a b).listed x = m.listed x := by
  unfold Memory.put
  split_ifs
  · have herase : (eraseCell a m.cells).find? (fun c => decide (c.1 = x)) = m.cells.find? fun c => decide (c.1 = x) := by
      rw [eraseCell, List.find?_filter]
      congr 1
      funext c
      by_cases hc : c.1 = x <;> simp [hc, h]
    exact congrArg (Option.map (·.2)) herase
  · exact congrArg (Option.map (·.2)) ((find_insertCell_eq a x b m.cells).trans (if_neg h))

/-- A byte put where unlisted bytes have no defined value is listed. -/
theorem Memory.listed_put_self {m : Memory} {a : Nat} (h : m.isZeroed (zoneOf a) = false) (b : Byte) : (m.put a b).listed a = some b := by
  rw [Memory.put, h, Bool.false_and, if_neg Bool.false_ne_true]
  exact congrArg (Option.map (·.2)) ((find_insertCell_eq a a b m.cells).trans (if_pos rfl))

theorem Memory.put_eq (m : Memory) (a : Nat) (b : Byte) : ∃ cells, m.put a b = { m with cells := cells } := by
  unfold Memory.put
  split_ifs
  · exact ⟨_, rfl⟩
  · exact ⟨_, rfl⟩

theorem Memory.putAll_cons (m : Memory) (c : Nat × Byte) (bs : List (Nat × Byte)) : m.putAll (c :: bs) = (m.put c.1 c.2).putAll bs := rfl

theorem Memory.putAll_eq (m : Memory) (bs : List (Nat × Byte)) : ∃ cells, m.putAll bs = { m with cells := cells } := by
  induction bs generalizing m with
  | nil => exact ⟨m.cells, rfl⟩
  | cons c bs ih =>
    obtain ⟨cells, hput⟩ := m.put_eq c.1 c.2
    obtain ⟨cells', hrest⟩ := ih (m.put c.1 c.2)
    exact ⟨cells', hrest.trans (by rw [hput])⟩

theorem Memory.listed_putAll_of_not_put (m : Memory) {bs : List (Nat × Byte)} {x : Nat} (h : ∀ c ∈ bs, x ≠ c.1) :
    (m.putAll bs).listed x = m.listed x := by
  induction bs generalizing m with
  | nil => rfl
  | cons c bs ih =>
    exact (ih _ fun d hd => h d (List.mem_cons_of_mem c hd)).trans (m.listed_put_of_ne c.2 (h c List.mem_cons_self))

/-- Materialising lists cells alone. -/
theorem Memory.materialise_eq (m : Memory) (w : Nat) : ∃ cells, m.materialise w = { m with cells := cells } := by
  unfold Memory.materialise
  split_ifs
  · exact ⟨m.cells, rfl⟩
  · exact m.putAll_eq _

theorem Memory.listed_materialise_of_ne (m : Memory) {w x : Nat} (h : x ≠ w) : (m.materialise w).listed (8 * x) = m.listed (8 * x) := by
  unfold Memory.materialise
  split_ifs
  · rfl
  · refine m.listed_putAll_of_not_put fun c hc => ?_
    obtain ⟨i, hi, rfl⟩ := List.mem_map.mp hc
    have hi := List.mem_range.mp hi
    dsimp only
    omega

/-- The first byte of a word that was materialised has a cell, unless its zone holds zeros where nothing is listed. -/
theorem Memory.listed_materialise_self {m : Memory} {w : Nat} (h : m.isZeroed (zoneOf (8 * w)) = false) :
    ((m.materialise w).listed (8 * w)).isSome = true := by
  have hbytes : m.materialise w = (m.put (8 * w) (m.read (8 * w))).putAll ((List.range 7).map fun i => (8 * w + (i + 1), m.read (8 * w + (i + 1)))) := by
    rw [Memory.materialise, h, if_neg Bool.false_ne_true, List.range_succ_eq_map, List.map_cons, Memory.putAll_cons, List.map_map]
    rfl
  rw [hbytes, Memory.listed_putAll_of_not_put, Memory.listed_put_self h]
  · rfl
  · intro c hc
    obtain ⟨i, -, rfl⟩ := List.mem_map.mp hc
    exact (Nat.lt_add_of_pos_right i.succ_pos).ne

/-- What is listed elsewhere than at a word's first byte is no part of its mark. -/
theorem Memory.markOf_congr_cells {m : Memory} {cells : List Host.Cell} {x : Nat}
    (h : ({ m with cells := cells } : Memory).listed (8 * x) = m.listed (8 * x)) : ({ m with cells := cells } : Memory).markOf x = m.markOf x := by
  unfold Memory.markOf
  rw [h]
  rfl

theorem Memory.markOf_materialise_of_ne (m : Memory) {w x : Nat} (h : x ≠ w) : (m.materialise w).markOf x = m.markOf x := by
  have hlisted := m.listed_materialise_of_ne h
  obtain ⟨cells, hcells⟩ := m.materialise_eq w
  rw [hcells] at hlisted ⊢
  exact Memory.markOf_congr_cells hlisted

theorem Memory.markOf_setMark_none_of_ne (m : Memory) {w x : Nat} (h : x ≠ w) : (m.setMark w none).markOf x = m.markOf x := by
  have hfind : (m.marks.filter fun c => decide (c.1 ≠ w)).find? (fun c => decide (c.1 = x)) = m.marks.find? fun c => decide (c.1 = x) := by
    rw [List.find?_filter]
    congr 1
    funext c
    by_cases hc : c.1 = x <;> simp [hc, h]
  unfold Memory.markOf
  rw [show (m.setMark w none).marks = m.marks.filter fun c => decide (c.1 ≠ w) from rfl, hfind]
  rfl

/-- A materialised word whose mark is taken away is clean. -/
theorem Memory.markOf_cleared (m : Memory) (w : Nat) : ((m.materialise w).setMark w none).markOf w = none := by
  have hfind : ((m.materialise w).setMark w none).marks.find? (fun c => decide (c.1 = w)) = none := by
    simp [Memory.setMark]
  obtain ⟨cells, hcells⟩ := m.materialise_eq w
  unfold Memory.markOf
  rw [hfind]
  cases hzero : m.isZeroed (zoneOf (8 * w)) with
  | true => exact if_pos (by rw [hcells]; exact hzero)
  | false =>
    have hlisted : (((m.materialise w).setMark w none).listed (8 * w)).isSome = true := Memory.listed_materialise_self hzero
    have hzero : ((m.materialise w).setMark w none).isZeroed (zoneOf (8 * w)) = false := by rw [hcells]; exact hzero
    simp [hzero, hlisted]

/-! ### The scrub of a granule (R276) -/

/-- The mark of a word once the scrub has rewritten it: a single-bit error is gone, an uncorrectable word holds poison. -/
def scrubbedMark : Option Mark → Option Mark
  | some .single => none
  | some .fresh => some .stored
  | k => k

theorem Memory.markOf_scrubWord_self (m : Memory) (w : Nat) : (m.scrubWord w).markOf w = scrubbedMark (m.markOf w) := by
  unfold Memory.scrubWord
  split
  next h => rw [h, m.markOf_cleared w]; rfl
  next h => rw [h, Memory.markOf_setMark_some, if_pos rfl]; rfl
  next hsingle hfresh =>
    cases hmark : m.markOf w with
    | none => rfl
    | some k =>
      cases k with
      | single => exact absurd hmark hsingle
      | fresh => exact absurd hmark hfresh
      | stored => rfl

theorem Memory.markOf_scrubWord_of_ne (m : Memory) {w x : Nat} (h : x ≠ w) : (m.scrubWord w).markOf x = m.markOf x := by
  unfold Memory.scrubWord
  split
  · rw [Memory.markOf_setMark_none_of_ne _ h, m.markOf_materialise_of_ne h]
  · rw [Memory.markOf_setMark_some, if_neg h, m.markOf_materialise_of_ne h]
  · rfl

theorem Memory.read_scrubWord (m : Memory) (w x : Nat) : (m.scrubWord w).read x = m.read x := by
  unfold Memory.scrubWord
  split
  · rw [Memory.read_setMark, Memory.read_materialise_eq]
  · rw [Memory.read_setMark, Memory.read_materialise_eq]
  · rfl

theorem Memory.markOf_foldl_scrubWord_of_not_mem (m : Memory) {ws : List Nat} {x : Nat} (h : x ∉ ws) :
    (ws.foldl Memory.scrubWord m).markOf x = m.markOf x := by
  induction ws generalizing m with
  | nil => rfl
  | cons w ws ih =>
    rw [List.foldl_cons, ih _ fun hx => h (List.mem_cons_of_mem w hx), m.markOf_scrubWord_of_ne (List.ne_of_not_mem_cons h)]

/-- Words that are scrubbed once each. -/
theorem Memory.markOf_foldl_scrubWord_of_mem (m : Memory) {ws : List Nat} {x : Nat} (hnodup : ws.Nodup) (h : x ∈ ws) :
    (ws.foldl Memory.scrubWord m).markOf x = scrubbedMark (m.markOf x) := by
  induction ws generalizing m with
  | nil => exact absurd h List.not_mem_nil
  | cons w ws ih =>
    obtain ⟨hw, hws⟩ := List.nodup_cons.mp hnodup
    rw [List.foldl_cons]
    rcases List.mem_cons.mp h with rfl | hx
    · rw [Memory.markOf_foldl_scrubWord_of_not_mem _ hw, Memory.markOf_scrubWord_self]
    · rw [ih _ hws hx, m.markOf_scrubWord_of_ne (ne_of_mem_of_not_mem hx hw)]

/-- Every word of a granule is scrubbed. -/
def Memory.scrubGranule (m : Memory) (g : Nat) : Memory := (List.range 8).foldl (fun m i => m.scrubWord (8 * g + i)) m

theorem Memory.scrubGranule_eq (m : Memory) (g : Nat) : m.scrubGranule g = ((List.range 8).map fun i => 8 * g + i).foldl Memory.scrubWord m :=
  List.foldl_map.symm

theorem Memory.sameBytes_scrubGranule (m : Memory) (g : Nat) : SameBytes m (m.scrubGranule g) :=
  fun x => Memory.read_foldl _ (fun m i x => m.read_scrubWord (8 * g + i) x) _ m x

theorem Memory.markOf_scrubGranule (m : Memory) {g w : Nat} (hw : w / 8 = g) : (m.scrubGranule g).markOf w = scrubbedMark (m.markOf w) := by
  rw [m.scrubGranule_eq g]
  refine m.markOf_foldl_scrubWord_of_mem (List.nodup_range.map fun i j hij => ?_) (List.mem_map.mpr ⟨w % 8, List.mem_range.mpr ?_, ?_⟩)
  · exact Nat.add_left_cancel hij
  · exact Nat.mod_lt w (by decide)
  · omega

/-! ### What the scrub's read leaves on record (R276, R287, R290) -/

/-- An event of root memory moves no scrub on. -/
theorem State.scrubNext_eccRoot (s : State) (w : Nat) (k : Mark) (scrub count : Bool) (i : StackId) :
    (s.eccRoot w k scrub count).hbm[i].scrubNext = s.hbm[i].scrubNext := by
  unfold State.eccRoot
  extract_lets d syn t j x ue log y
  obtain ⟨ring, hring⟩ := (t.modStack j fun _ => y).ringAdd_eq 20 (b2n (k == .fresh))
  obtain ⟨evts, hnotice⟩ := ((t.modStack j fun _ => y).ringAdd 20 (b2n (k == .fresh))).notice_eq (if ue then x.ueSeen else x.ceSeen) "ROOT_ECC_STATUS"
  rw [hnotice, hring]
  show (vmod s.hbm j fun _ => y)[i].scrubNext = _
  rw [vmod_get]
  split_ifs with hi
  · rw [hi]
    rfl
  · rfl

theorem lt_rootSize_of_mem_wordSpan {a n w : Nat} (h : a + n ≤ rootSize) (hw : w ∈ wordSpan a n) : 8 * w < rootSize := by
  unfold wordSpan at hw
  split_ifs at hw
  · exact absurd hw List.not_mem_nil
  · obtain ⟨i, hi, rfl⟩ := List.mem_map.mp hw
    have hi := List.mem_range.mp hi
    omega

/-- A look at root memory leaves its words' events on record, and every scrub where it was. -/
theorem State.observe_of_root (s : State) {a n : Nat} (h : a + n ≤ rootSize) (bg : Bool) :
    s.RootLogged (s.observe a n bg) ∧ ∀ i : StackId, (s.observe a n bg).hbm[i].scrubNext = s.hbm[i].scrubNext := by
  unfold State.observe
  refine List.foldlRecOn (motive := fun t => s.RootLogged t ∧ ∀ i : StackId, t.hbm[i].scrubNext = s.hbm[i].scrubNext) _ _ ⟨.refl s, fun _ => rfl⟩ ?_
  intro t ⟨hlogged, hnext⟩ w hw
  rw [placeOf_of_lt_rootSize (lt_rootSize_of_mem_wordSpan h hw)]
  cases t.mem.check w with
  | none => exact ⟨hlogged, hnext⟩
  | some k => exact ⟨.trans s t _ hlogged (t.rootLogged_eccRoot w k bg _), fun i => (t.scrubNext_eccRoot w k bg _ i).trans (hnext i)⟩

/-- The scrub of slice k at granule g: read, counted and rewritten, unless it is skipped. -/
def State.scrubbed (s : State) (k : SliceId) (g : Nat) : State :=
  if s.scrubSkips k g then s else (s.observe (64 * g) 64 true).modMem fun m => m.scrubGranule g

theorem State.scrubbed_eq (s : State) (k : SliceId) {g : Nat} (hg : 64 * g < rootSize) : ∃ mem hbm ring evts fresh,
    s.scrubbed k g = { s with mem := mem, hbm := hbm, ring := ring, crownEvts := evts, fresh := fresh } ∧ SameBytes s.mem mem ∧
      (s.scrubSkips k g = false → ∀ w, w / 8 = g → mem.markOf w = scrubbedMark (s.mem.markOf w)) ∧
      ∀ i : StackId, hbm[i].scrubNext = s.hbm[i].scrubNext := by
  cases hskips : s.scrubSkips k g with
  | true => exact ⟨s.mem, s.hbm, s.ring, s.crownEvts, s.fresh, if_pos hskips, fun _ => rfl, nofun, fun _ => rfl⟩
  | false =>
    have hroom : 64 * g + 64 ≤ rootSize := by unfold rootSize at hg ⊢; omega
    obtain ⟨⟨hbm, ring, evts, fresh, hseen⟩, hnext⟩ := s.observe_of_root hroom true
    rw [hseen] at hnext
    refine ⟨s.mem.scrubGranule g, hbm, ring, evts, fresh, ?_, s.mem.sameBytes_scrubGranule g, fun _ w => s.mem.markOf_scrubGranule, hnext⟩
    rw [State.scrubbed, hskips, if_neg Bool.false_ne_true, hseen]
    rfl

/-- Local slice 0 takes its stack's scrub on; the other slices follow. -/
def State.scrubPast (s : State) (k : SliceId) : State := if k.val % 8 = 0 then s.modStack (sliceStack k) Stack.scrubPast else s

theorem State.scrubPast_eq (s : State) (k : SliceId) : ∃ hbm, s.scrubPast k = { s with hbm := hbm } := by
  unfold State.scrubPast
  split_ifs
  · exact ⟨_, rfl⟩
  · exact ⟨s.hbm, rfl⟩

theorem State.scrubNext_scrubPast (s : State) {k : SliceId} (hk : k.val % 8 = 0) (hnext : s.hbm[sliceStack k].scrubNext ≠ 63) :
    (s.scrubPast k).hbm[sliceStack k].scrubNext = s.hbm[sliceStack k].scrubNext + 1 := by
  rw [State.scrubPast, if_pos hk, State.modStack_hbm, vmod_get_self, Stack.scrubPast, if_neg hnext]

theorem exec_patrolScrub_of_due {s : State} {k : SliceId} {g : Nat} (hg : 64 * g < rootSize) (hslice : s.sliceOf (64 * g) = k)
    (hready : s.hbm[sliceStack k].state = 2) (hhours : s.scrubHours ≠ 0) (hat : s.hbm[sliceStack k].scrubAt k (s.bankOf (64 * g)) = true)
    (hfree : s.waitingAt k (64 * g) = 0) : exec (.patrolScrub k g) s = .next ((s.scrubbed k g).scrubPast k) := by
  show execPatrolScrub k g s = _
  have hdue : (decide (64 * g < rootSize) && s.sliceOf (64 * g) == k && s.hbm[sliceStack k].state == 2 && s.scrubHours != 0 &&
      s.hbm[sliceStack k].scrubAt k (s.bankOf (64 * g)) && s.waitingAt k (64 * g) == 0) = true := by
    simp only [Bool.and_eq_true, decide_eq_true_eq, beq_iff_eq, bne_iff_ne]
    exact ⟨⟨⟨⟨⟨hg, hslice⟩, hready⟩, hhours⟩, hat⟩, hfree⟩
  exact if_pos hdue

/-! ### Registers of one stack (R263, R277, R278, R285, R286, R291, R292) -/

/-- A register that keeps the greatest value that it has met. -/
theorem toNat_ite_lt {n m : Nat} {x y : BitVec n} (hy : y.toNat = m) : (if x.toNat < m then y else x).toNat = max x.toNat m := by
  split_ifs with hlt
  · rw [hy, Nat.max_eq_right hlt.le]
  · rw [Nat.max_eq_left (Nat.not_lt.mp hlt)]

/-- Putting back the registers of the stack undoes an update of them. -/
theorem State.modStack_undo (s : State) (i : StackId) (f : Stack → Stack) :
    { s.modStack i f with hbm := (s.modStack i f).hbm.set i.val s.hbm[i] i.isLt } = s :=
  congrArg (fun v => { s with hbm := v }) (vmod_undo s.hbm i f)

/-- The stack with one refresh more, made after `waited` intervals. -/
def Stack.refreshed (x : Stack) (waited : Nat) : Stack :=
  { x with refreshes := x.refreshes + 1, postponedMax := if x.postponedMax.toNat < waited then BitVec.ofNat 8 waited else x.postponedMax }

theorem exec_perBankRefresh_of_ready {s : State} {k : SliceId} {p : Fin 4} {bank : Fin 16} {waited : Nat} (hready : s.hbm[sliceStack k].state = 2)
    (hwaited : waited ≤ 8) (hmode : s.sys.mode = .run ∨ s.sys.mode = .drain) (hdue : s.waitingFor k p.val bank.val = 0 ∨ waited = 8) :
    exec (.perBankRefresh k p bank waited) s = .next (s.modStack (sliceStack k) fun x => x.refreshed waited) :=
  if_pos ⟨hready, hwaited, hmode, hdue⟩

/-- The stack once its temperature has been read. -/
def Stack.warmed (x : Stack) (temp : BitVec 8) : Stack :=
  { x with temp := temp, tempMax := if x.tempMax.toNat < temp.toNat then temp else x.tempMax, hot := decide (95 ≤ temp.toNat),
           hotSeen := x.hotSeen || (decide (95 ≤ temp.toNat) && !x.hot) }

/-- A temperature reading reaches the registers of its stack and a notice. -/
theorem exec_stackTempRead_of_on {s : State} {i : StackId} (hon : s.hbm[i].state ≠ 0) (temp : BitVec 8) :
    ∃ evts, exec (.stackTempRead i temp) s = .next { s.modStack i fun x => x.warmed temp with crownEvts := evts } := by
  have hexec : exec (.stackTempRead i temp) s = .next (if decide (95 ≤ temp.toNat) && !s.hbm[i].hot then
      (s.modStack i fun x => x.warmed temp).notice s.hbm[i].hotSeen "ROOT_STACK_STATUS" else s.modStack i fun x => x.warmed temp) := if_neg hon
  obtain ⟨evts, hnotice⟩ := (s.modStack i fun x => x.warmed temp).notice_eq s.hbm[i].hotSeen "ROOT_STACK_STATUS"
  rw [hexec]
  split_ifs
  · exact ⟨evts, by rw [hnotice]⟩
  · exact ⟨s.crownEvts, rfl⟩

/-- The short interval is in force after a reading above 85 °C. -/
theorem State.refreshFast_warmed {s : State} {i : StackId} (hon : s.hbm[i].state ≠ 0) (temp : BitVec 8) :
    (s.modStack i fun x => x.warmed temp).refreshFast i = (decide (85 < temp.toNat) || s.refresh2x) := by
  have hready : ((s.hbm[i].warmed temp).state != 0) = true := bne_iff_ne.mpr hon
  rw [State.refreshFast, State.modStack_hbm, vmod_get_self, hready]
  rfl

theorem exec_injectArm (s : State) (i : StackId) (kind : BitVec 2) (word : BitVec 34) :
    exec (.injectArm i kind word) s = .next (s.modStack i fun x => { x with injArm := true, injKind := kind, injWord := word }) := rfl

end Sys2Proof.Machine

open Sys2Proof Sys2Proof.Machine Sys2Proof.Safety

/-- Settles O27: a refresh, a temperature reading and an injection are updates of one stack (`Stack.refreshed`, `Stack.warmed`, `exec_injectArm`)
that `State.modStack_undo` takes back, and the scrub is `State.scrubbed` and `State.scrubPast`. -/
theorem stackMaintenance : Obligations.StackMaintenance := by
  unfold Obligations.StackMaintenance
  refine ⟨fun s k p bank waited hready hwaited hmode hdue => ?refresh, fun s i temp hon => ?temperature, fun s i kind word => ?inject,
    fun s k g hg hslice hready hhours hat hfree => ?scrub⟩
  case refresh =>
    have hstack : (s.modStack (sliceStack k) fun x => x.refreshed waited).hbm[sliceStack k] = _ := vmod_get_self s.hbm (sliceStack k) _
    refine ⟨_, exec_perBankRefresh_of_ready hready hwaited hmode hdue, ?_, ?_, s.modStack_undo _ _⟩
    · rw [hstack]
      rfl
    · rw [hstack]
      exact toNat_ite_lt (Nat.mod_eq_of_lt (by omega))
  case temperature =>
    obtain ⟨evts, hexec⟩ := exec_stackTempRead_of_on hon temp
    have hstack : (s.modStack i fun x => x.warmed temp).hbm[i] = _ := vmod_get_self s.hbm i _
    exact ⟨_, hexec, congrArg Stack.temp hstack, (congrArg (·.tempMax.toNat) hstack).trans (toNat_ite_lt rfl), congrArg Stack.hot hstack,
      State.refreshFast_warmed hon temp, congrArg Stack.hotSeen hstack, s.modStack_undo _ _⟩
  case inject => exact ⟨_, exec_injectArm s i kind word, vmod_get_self s.hbm i _, s.modStack_undo _ _⟩
  case scrub =>
    have hexec := exec_patrolScrub_of_due hg hslice hready hhours hat hfree
    obtain ⟨mem, hbm, ring, evts, fresh, hscrubbed, hbytes, hmarks, hnext⟩ := s.scrubbed_eq k hg
    obtain ⟨hbm', hpast⟩ := (s.scrubbed k g).scrubPast_eq k
    refine ⟨_, hexec, ?_, fun hskips w hw => ?_, fun hk hrow => ?_, ?_⟩
    · rw [hpast, hscrubbed]
      exact hbytes
    · rw [hpast, hscrubbed]
      exact hmarks hskips w hw
    · have hnext : (s.scrubbed k g).hbm[sliceStack k].scrubNext = s.hbm[sliceStack k].scrubNext := by
        rw [hscrubbed]
        exact hnext (sliceStack k)
      rw [State.scrubNext_scrubPast _ hk (hnext ▸ hrow), hnext]
    · rw [hpast, hscrubbed]

end

section
/-! SUPPORT. What a close, a posted packet and a crown message change (R342, R343, R350, R373): their own queue, the metering of plots, and what
leaves the device. -/

namespace Sys2Proof.Machine

open Sys2Proof.Safety

theorem onlyQueue_modQueue (s : State) (q : QueueId) (f : Queue → Queue) : OnlyQueue q s (s.modQueue q f) := vmod_undo s.queues q f

theorem State.modQueue_queue_self (s : State) (q : QueueId) (f : Queue → Queue) : (s.modQueue q f).queues[q] = f s.queues[q] := vmod_get_self s.queues q f

theorem State.modQueue_modQueue (s : State) (q : QueueId) (f g : Queue → Queue) : (s.modQueue q f).modQueue q g = s.modQueue q (g ∘ f) := by
  unfold State.modQueue
  congr 1
  exact (vset_vset s.queues q _ _).trans (congrArg (fun x => vset s.queues q (g x)) (vmod_get_self s.queues q f))

theorem onlyQueue_of_forall_ne {s t : State} {q : QueueId} (h : ∀ r, r ≠ q → t.queues[r] = s.queues[r]) : OnlyQueue q s t := by
  refine Vector.ext fun i hi => ?_
  rw [Vector.getElem_set]
  split_ifs with hq
  · subst hq
    rfl
  · exact h ⟨i, hi⟩ fun e => hq (congrArg Fin.val e).symm

/-! ### Metering -/

/-- From s to t the metering counters of plots have changed alone. -/
structure Meters (s t : State) : Prop where
  frame : { t with plots := s.plots } = s
  plot : ∀ p : PlotId, { t.plots[p] with cnt := s.plots[p].cnt } = s.plots[p]

theorem Meters.refl (s : State) : Meters s s := ⟨rfl, fun _ => rfl⟩

theorem State.meter_meters (s : State) (p : Option Nat) (f : Counters → Counters) : Meters s (s.meter p f) := by
  cases p with
  | none => exact .refl s
  | some p =>
    have hbooks := Books.modCnt s (plotId p) fun x => f x.cnt
    exact ⟨rfl, hbooks.plot⟩

/-! ### The notice of a close (R350, R480) -/

/-- From s to t queue q has given its notice: a message has left, the crown was told, or a graft port has begun to send the queue's oldest packet. -/
structure Notices (q : QueueId) (s t : State) : Prop where
  frame : { t with queues := s.queues, plots := s.plots, grafts := s.grafts, crownEvts := s.crownEvts, outbox := s.outbox } = s
  queue : ∀ r, r ≠ q → t.queues[r] = s.queues[r]
  own : { t.queues[q] with txBusy := s.queues[q].txBusy, txGrant := s.queues[q].txGrant } = s.queues[q]
  plot : ∀ p : PlotId, { t.plots[p] with cnt := s.plots[p].cnt } = s.plots[p]

namespace Notices

variable {q : QueueId} {s t u : State}

theorem refl (q : QueueId) (s : State) : Notices q s s := ⟨rfl, fun _ _ => rfl, rfl, fun _ => rfl⟩

theorem trans (h : Notices q s t) (k : Notices q t u) : Notices q s u where
  frame := (congrArg (fun x : State =>
    { x with queues := s.queues, plots := s.plots, grafts := s.grafts, crownEvts := s.crownEvts, outbox := s.outbox }) k.frame :).trans h.frame
  queue r hr := (k.queue r hr).trans (h.queue r hr)
  own := (congrArg (fun x : Queue => { x with txBusy := s.queues[q].txBusy, txGrant := s.queues[q].txGrant }) k.own :).trans h.own
  plot p := (congrArg (fun x : Plot => { x with cnt := s.plots[p].cnt }) (k.plot p) :).trans (h.plot p)

theorem posts (h : Notices q s t) : Posts s t := ⟨h.frame⟩

theorem of_outputs (q : QueueId) (s : State) (evts : List CrownEvt) (out : List Output) (grafts : Vector GraftPort 4) :
    Notices q s { s with crownEvts := evts, outbox := out, grafts := grafts } := ⟨rfl, fun _ _ => rfl, rfl, fun _ => rfl⟩

end Notices

theorem Meters.notices {s t : State} (h : Meters s t) (q : QueueId) : Notices q s t := by
  have hqueues : t.queues = s.queues := (congrArg State.queues h.frame :)
  have hframe := congrArg (fun x : State =>
    { x with queues := s.queues, grafts := s.grafts, crownEvts := s.crownEvts, outbox := s.outbox }) h.frame
  exact ⟨hframe, fun r _ => by rw [hqueues], by rw [hqueues], h.plot⟩

theorem State.sendQueueWords_notices (s : State) (q : QueueId) (n : PortId) (tag : BitVec 32) (pseq : BitVec 16) (fuel off : Nat)
    (ws : List (Word × Bool)) : Notices q s (s.sendQueueWords n tag pseq fuel off ws) := by
  induction fuel generalizing s off ws with
  | zero => exact .refl q s
  | succ fuel ih =>
    cases ws with
    | nil => exact .refl q s
    | cons w ws => exact (Notices.of_outputs q s s.crownEvts s.outbox _).trans (ih ..)

theorem State.graftTrySend_notices (s : State) (q : QueueId) : Notices q s (s.graftTrySend q) := by
  have hsent : ∀ grant : Queue → Nat, Notices q s (s.modQueue q fun x => { x with txBusy := true, txGrant := grant x }) := by
    refine fun grant => ⟨rfl, fun r hr => vmod_get_ne s.queues _ hr, ?_, fun _ => rfl⟩
    rw [State.modQueue_queue_self]
  unfold State.graftTrySend
  split
  · exact .refl q s
  · split
    · split
      · exact .refl q s
      · dsimp only
        split_ifs
        · exact ((hsent _).trans ((State.meter_meters ..).notices q)).trans (State.sendQueueWords_notices ..)
        · exact .refl q s
    · exact .refl q s

theorem State.sendMsix_notices (s : State) (q : QueueId) (fn : HostFn) (entry : Nat) : Notices q s (s.sendMsix fn entry) := by
  unfold State.sendMsix
  dsimp only
  split_ifs
  · exact .of_outputs q s s.crownEvts _ s.grafts
  · exact .refl q s

theorem State.queueNotice_notices (s : State) (q : QueueId) : Notices q s (s.queueNotice q) := by
  unfold State.queueNotice
  split
  · exact .refl q s
  · split
    · split
      · exact s.sendMsix_notices ..
      · exact .refl q s
    · exact .of_outputs q s _ s.outbox s.grafts
    · exact s.graftTrySend_notices q
    · exact .refl q s

/-! ### A close and a posted packet (R342, R343, R372) -/

/-- Queue x with its produced packet o closed as packet p; `tail` is the slot that the next packet opens at. -/
def Queue.closed (x : Queue) (o : OpenProd) (p : Packet) (tail : Nat) : Queue :=
  { x with prod := none, pending := x.pending ++ [p], credits := x.credits + (o.cap - o.words.length), tail := tail }

/-- The packet that a close makes of an open one. -/
def OpenProd.packet (o : OpenProd) (typ : BitVec 8) (tag : BitVec 32) (lenBad : Bool) : Packet :=
  { typ := if lenBad then 0 else typ, tag := if lenBad then 0 else tag, words := o.words, slot := o.slot, lenBad := lenBad }

theorem State.qClose_notices {s : State} {q : QueueId} {o : OpenProd} (ho : s.queues[q].prod = some o) (typ : BitVec 8) (tag : BitVec 32) (lenBad : Bool) :
    ∃ tail, Notices q (s.modQueue q fun x => x.closed o (o.packet typ tag lenBad) tail) (s.qClose q typ tag lenBad) := by
  unfold State.qClose
  rw [ho]
  exact ⟨_, ((State.meter_meters ..).notices q).trans (State.queueNotice_notices ..)⟩

/-- Queue x with the packet p of a source inside the device posted whole. -/
def Queue.posted (x : Queue) (p : Packet) (tail : Nat) : Queue :=
  { x with prod := none, prodVoid := false, pending := x.pending ++ [p], credits := x.credits - (p.words.length + 1), tail := tail }

theorem State.postPacket_of_short {s : State} {q : QueueId} {ws : List Word} (h : s.queues[q].credits < ws.length + 1) (typ : Nat) :
    s.postPacket q typ ws = none := by
  unfold State.postPacket
  dsimp only
  rw [decide_eq_true h, Bool.or_true]
  rfl

theorem State.postPacket_of_room {s : State} {q : QueueId} {ws : List Word} (hprod : s.queues[q].prod = none) (hroom : ws.length + 1 ≤ s.queues[q].credits)
    (typ : Nat) : ∃ t k tail, s.postPacket q typ ws = some t ∧ k.typ = BitVec.ofNat 8 typ ∧ k.tag = 0 ∧ (k.words.map fun w => w.w) = ws ∧
      Notices q (s.modQueue q fun x => x.posted k tail) t := by
  have hshort : ¬ s.queues[q].credits < ws.length + 1 := by omega
  let o : OpenProd := { cap := ws.length, words := ws.map fun w => qword w false, slot := s.queues[q].tail }
  let u := (s.qOpen q ws.length).modQueue q fun x => { x with prod := x.prod.map fun o => { o with words := ws.map fun w => qword w false } }
  have hu : u = s.modQueue q fun x => { x with credits := x.credits - (ws.length + 1), prod := some { o with slot := x.tail }, prodVoid := false } :=
    s.modQueue_modQueue q _ _
  have ho : u.queues[q].prod = some o := by rw [hu, State.modQueue_queue_self]
  obtain ⟨tail, hclosed⟩ := State.qClose_notices ho (BitVec.ofNat 8 typ) 0 false
  refine ⟨u.qClose q (BitVec.ofNat 8 typ) 0, o.packet (BitVec.ofNat 8 typ) 0 false, tail, ?_, rfl, rfl, ?_, ?_⟩
  · unfold State.postPacket
    dsimp only
    rw [hprod, decide_eq_false hshort]
    rfl
  · exact (List.map_map ..).trans (List.map_id' ws)
  · have hposted : (u.modQueue q fun x => x.closed o (o.packet (BitVec.ofNat 8 typ) 0 false) tail) =
        s.modQueue q fun x => x.posted (o.packet (BitVec.ofNat 8 typ) 0 false) tail := by
      rw [hu, State.modQueue_modQueue]
      congr 1
      funext x
      simp [Queue.closed, Queue.posted, OpenProd.packet, o]
    exact hposted ▸ hclosed

end Sys2Proof.Machine
end

section
open Sys2Proof Sys2Proof.Machine

/-- Settles O59: every part of `State.reset` is written out, and each of its vectors holds one value at every index. -/
theorem resetState : Obligations.ResetState := by
  unfold Obligations.ResetState
  refine ⟨rfl, rfl, rfl, rfl, rfl, rfl, rfl, rfl, rfl, rfl, rfl, Memory.init_wf, rfl, rfl, rfl, rfl, rfl, rfl, rfl, fun b => ?bough, fun p => ?plot,
    fun n => ?port, fun q => ?queue⟩
  case bough =>
    have hbough : State.reset.bough b = Bough.start := Vector.getElem_replicate b.isLt
    dsimp only
    simp only [State.half, hbough]
    exact ⟨rfl, rfl, rfl, rfl, rfl, fun r => Vector.getElem_replicate r.isLt, rfl, rfl, fun h => congrArg Half.st (Vector.getElem_replicate h.isLt)⟩
  case plot =>
    rw [show State.reset.plots[p] = Plot.start from Vector.getElem_replicate p.isLt]
    exact ⟨rfl, rfl, rfl, rfl⟩
  case port =>
    rw [show State.reset.ports[n] = HostPort.start from Vector.getElem_replicate n.isLt,
      show State.reset.grafts[n] = GraftPort.start from Vector.getElem_replicate n.isLt]
    exact ⟨rfl, rfl, rfl, rfl⟩
  case queue =>
    rw [show State.reset.queues[q] = Queue.start 0 from Vector.getElem_replicate q.isLt]
    exact ⟨rfl, rfl, rfl⟩
end

section
/-! SUPPORT. A flush of a queue, asked for and done; and the settling of O34. -/

namespace Sys2Proof.Machine

open Sys2Proof.Safety

/-- Posting the ledger's items again touches the ring alone. -/
theorem State.unpost_eq (s : State) (q : QueueId) : ∃ ring, s.unpost q = { s with ring := ring } := by
  unfold State.unpost
  split_ifs
  · exact ⟨_, rfl⟩
  · exact ⟨s.ring, rfl⟩

/-- Queue x when everything in it is discarded at the flush instant and `credits` credits stand (R353). -/
def Queue.flushed (x : Queue) (credits : Nat) : Queue :=
  { x with pending := [], prod := none, cons := none, credits := credits, flushing := false, txBusy := false,
           prodVoid := x.prodVoid || x.prod.isSome, consVoid := x.consVoid || x.cons.isSome, rxPseq := none }

/-- With no graft consumer a flush tells nobody. -/
theorem State.flushNow_of_not_graft {s : State} {q : QueueId} {r : Word × Word} (hrec : s.queueRec q.val = some r) (hcons : ∀ n, recCons r ≠ .graft n) :
    s.flushNow q = (s.unpost q).modQueue q fun x => x.flushed (recSize r) := by
  unfold State.flushNow
  simp only [State.ringWords, hrec, Queue.flushed]

theorem exec_queueFlush_of_idle {s : State} {q : QueueId} (hflush : s.queues[q].flushing = true) (hidle : s.halvesOn q = []) :
    exec (.queueFlush q) s = .next (s.flushNow q) := by
  show execQueueFlush q s = _
  simp only [execQueueFlush, hflush, hidle]
  rfl

theorem exec_queueFlush_of_not_flushing {s : State} {q : QueueId} (hflush : s.queues[q].flushing = false) : exec (.queueFlush q) s = .next s := by
  show execQueueFlush q s = _
  simp only [execQueueFlush, hflush]
  rfl

end Sys2Proof.Machine

open Sys2Proof Sys2Proof.Machine

/-- Settles O34: a flush asked for is one update of its queue, and one done is `Queue.flushed` behind `State.unpost`. -/
theorem queueFlushes : Obligations.QueueFlushes := by
  unfold Obligations.QueueFlushes
  refine ⟨fun s q => ⟨_, rfl, s.modQueue_queue_self q _, onlyQueue_modQueue s q _, rfl⟩, fun s q r hflush hidle hrec hcons => ?flush,
    fun s q => exec_queueFlush_of_not_flushing⟩
  obtain ⟨ring, hring⟩ := s.unpost_eq q
  refine ⟨_, exec_queueFlush_of_idle hflush hidle, ?_⟩
  rw [State.flushNow_of_not_graft hrec hcons, hring]
  dsimp only
  rw [State.modQueue_queue_self]
  exact ⟨rfl, rfl, rfl, rfl, rfl, rfl, rfl, onlyQueue_modQueue _ q _, rfl⟩

end

section
/-! SUPPORT. Parking and preemption (R373, R375, R376): what freezes and holds the boughs of a plot, what a crown message reaches, and each command;
and the settling of O35. -/

namespace Sys2Proof.Machine

open Sys2Proof.Safety

theorem State.modPlot_modPlot (s : State) (p : PlotId) (f g : Plot → Plot) : (s.modPlot p f).modPlot p g = s.modPlot p (g ∘ f) := by
  unfold State.modPlot
  congr 1
  exact (vset_vset s.plots p _ _).trans (congrArg (fun x => vset s.plots p (g x)) (vmod_get_self s.plots p f))

theorem State.plot_modPlot_self (s : State) (p : PlotId) (f : Plot → Plot) : (s.modPlot p f).plots[p] = f s.plots[p] := vmod_get_self s.plots p f

theorem State.plot_modPlot_ne (s : State) {p r : PlotId} (f : Plot → Plot) (h : r ≠ p) : (s.modPlot p f).plots[r] = s.plots[r] := vmod_get_ne s.plots f h

/-! ### Boughs of a plot -/

theorem PlotMap.mem_boughList (m : PlotMap) (b : BoughId) : b ∈ m.boughList ↔ m.boughs.getLsbD b.val = true := by
  simp [PlotMap.boughList]

theorem PlotMap.nodup_boughList (m : PlotMap) : m.boughList.Nodup := (List.nodup_finRange 256).filter _

/-- The state with f applied to every bough of map m. -/
def State.changeBoughs (s : State) (m : PlotMap) (f : Bough → Bough) : State :=
  { s with boughs := s.boughs.mapFinIdx fun i y _ => if m.boughs.getLsbD i then f y else y }

theorem State.bough_changeBoughs (s : State) (m : PlotMap) (f : Bough → Bough) (b : BoughId) :
    (s.changeBoughs m f).bough b = if m.boughs.getLsbD b.val then f (s.bough b) else s.bough b := Vector.getElem_mapFinIdx ..

theorem State.changeBoughs_modPlot (s : State) (p : PlotId) (m : PlotMap) (f : Plot → Plot) (g : Bough → Bough) :
    (s.modPlot p f).changeBoughs m g = (s.changeBoughs m g).modPlot p f := rfl

theorem State.changeBoughs_changeBoughs (s : State) (m : PlotMap) (f g : Bough → Bough) :
    (s.changeBoughs m f).changeBoughs m g = s.changeBoughs m (g ∘ f) := by
  unfold State.changeBoughs
  congr 1
  ext1 i hi
  simp only [Vector.getElem_mapFinIdx]
  split_ifs <;> rfl

/-- The boughs of a list changed one after the other. -/
theorem State.foldl_modBough_eq {bs : List BoughId} (hnodup : bs.Nodup) (f : Bough → Bough) (s : State) :
    bs.foldl (fun (s : State) b => s.modBough b f) s =
      { s with boughs := s.boughs.mapFinIdx fun i y hi => if (⟨i, hi⟩ : BoughId) ∈ bs then f y else y } := by
  induction bs generalizing s with
  | nil =>
    have hsame : (s.boughs.mapFinIdx fun i y hi => if (⟨i, hi⟩ : BoughId) ∈ ([] : List BoughId) then f y else y) = s.boughs := by
      ext1 i hi
      simp
    rw [hsame]
    rfl
  | cons c bs ih =>
    obtain ⟨hc, hnodup⟩ := List.nodup_cons.mp hnodup
    refine (ih hnodup (s.modBough c f)).trans (congrArg (fun boughs => { s with boughs := boughs }) ?_)
    ext1 i hi
    have hi' : (s.modBough c f).boughs[i] = if (⟨i, hi⟩ : BoughId) = c then f (s.bough c) else s.boughs[i] :=
      (vset_getElem s.boughs c _ i hi).trans (by simp only [Fin.ext_iff])
    simp only [Vector.getElem_mapFinIdx, hi', List.mem_cons]
    by_cases hic : (⟨i, hi⟩ : BoughId) = c
    · subst hic
      simp [hc, State.bough]
    · simp [hic]

theorem State.foldl_boughList_eq (s : State) (m : PlotMap) (f : Bough → Bough) :
    m.boughList.foldl (fun (s : State) b => s.modBough b f) s = s.changeBoughs m f := by
  simp only [State.foldl_modBough_eq m.nodup_boughList, m.mem_boughList, State.changeBoughs]

/-- What FREEZE does to a bough. -/
def Bough.frozen (on : Bool) (y : Bough) : Bough := { y with freeze := on }

/-- What a plot's run state does to a bough: a halted twig stays halted, and one under reset goes on (R241). -/
def Bough.steered (run : TwigRun) (y : Bough) : Bough :=
  { y with twig := if y.twig.run = .halted || y.resetting then y.twig else { y.twig with run := run } }

theorem State.freezePlot_eq (s : State) (m : PlotMap) (on : Bool) : s.freezePlot m on = s.changeBoughs m (Bough.frozen on) :=
  s.foldl_boughList_eq m (Bough.frozen on)

theorem State.runPlot_eq (s : State) (m : PlotMap) (run : TwigRun) : s.runPlot m run = s.changeBoughs m (Bough.steered run) :=
  s.foldl_boughList_eq m (Bough.steered run)

/-- A plot let go: its boughs thaw and their twigs run. -/
theorem State.thawed_eq (s : State) (m : PlotMap) :
    (s.freezePlot m false).runPlot m .running = s.changeBoughs m (Bough.steered .running ∘ Bough.frozen false) := by
  rw [State.freezePlot_eq, State.runPlot_eq, State.changeBoughs_changeBoughs]

theorem Bough.steered_of_goes {y : Bough} (hrun : y.twig.run ≠ .halted) (hreset : y.resetting = false) (run : TwigRun) :
    y.steered run = { y with twig := { y.twig with run := run } } := by
  simp [Bough.steered, hrun, hreset]

theorem Bough.steered_of_stays {y : Bough} (h : y.twig.run = .halted ∨ y.resetting = true) (run : TwigRun) : y.steered run = y := by
  have h : (decide (y.twig.run = .halted) || y.resetting) = true := by simpa using h
  rw [Bough.steered, h]
  rfl

/-! ### Crown messages (R373) -/

/-- From s to t messages of plot p have been raised and posted. -/
structure Messages (p : PlotId) (s t : State) : Prop where
  frame : { t with queues := s.queues, plots := s.plots, grafts := s.grafts, crownEvts := s.crownEvts, outbox := s.outbox } = s
  plot : ∀ r : PlotId, { t.plots[r] with cnt := s.plots[r].cnt, msgs := s.plots[r].msgs } = s.plots[r]
  other : ∀ r : PlotId, r ≠ p → t.plots[r].msgs = s.plots[r].msgs

namespace Messages

variable {p : PlotId} {s t u : State}

theorem refl (p : PlotId) (s : State) : Messages p s s := ⟨rfl, fun _ => rfl, fun _ _ => rfl⟩

theorem trans (h : Messages p s t) (k : Messages p t u) : Messages p s u where
  frame := (congrArg (fun x : State =>
    { x with queues := s.queues, plots := s.plots, grafts := s.grafts, crownEvts := s.crownEvts, outbox := s.outbox }) k.frame :).trans h.frame
  plot r := (congrArg (fun x : Plot => { x with cnt := s.plots[r].cnt, msgs := s.plots[r].msgs }) (k.plot r) :).trans (h.plot r)
  other r hr := (k.other r hr).trans (h.other r hr)

theorem of_queues (p : PlotId) (s : State) (queues : Vector Queue 1024) : Messages p s { s with queues := queues } := ⟨rfl, fun _ => rfl, fun _ _ => rfl⟩

/-- A plot whose messages are left changes in its counters alone. -/
theorem plot_of_ne (h : Messages p s t) {r : PlotId} (hr : r ≠ p) : { t.plots[r] with cnt := s.plots[r].cnt } = s.plots[r] := by
  have hplot := h.plot r
  rwa [← h.other r hr] at hplot

theorem modMsgs (p : PlotId) (s : State) (f : Plot → List (BoughId × BitVec 8 × Word)) : Messages p s (s.modPlot p fun x => { x with msgs := f x }) := by
  refine ⟨rfl, fun r => ?_, fun r hr => congrArg Plot.msgs (vmod_get_ne s.plots _ hr)⟩
  have hplot : (s.modPlot p fun x => { x with msgs := f x }).plots[r] = _ := vmod_get s.plots p r _
  rw [hplot]
  split_ifs with hr
  · rw [hr]
  · rfl

end Messages

theorem Notices.messages {q : QueueId} {s t : State} (h : Notices q s t) (p : PlotId) : Messages p s t where
  frame := h.frame
  plot r := (congrArg (fun x : Plot => { x with msgs := s.plots[r].msgs }) (h.plot r) :)
  other r _ := (congrArg Plot.msgs (h.plot r) :)

theorem State.postPacket_messages {s t : State} {q : QueueId} {typ : Nat} {ws : List Word} (h : s.postPacket q typ ws = some t) (p : PlotId) :
    Messages p s t := by
  have hprod : s.queues[q].prod = none := by
    by_contra hprod
    rw [State.postPacket, Option.isSome_iff_ne_none.mpr hprod] at h
    exact nomatch h
  have hroom : ws.length + 1 ≤ s.queues[q].credits := by
    by_contra hroom
    rw [State.postPacket_of_short (by omega)] at h
    exact nomatch h
  obtain ⟨u, k, tail, hu, -, -, -, hnotices⟩ := State.postPacket_of_room hprod hroom typ
  obtain rfl : t = u := Option.some.inj (h.symm.trans hu)
  exact (Messages.of_queues p s _).trans (hnotices.messages p)

section

variable {fuel : Nat} {s : State} {p : PlotId} {m : BoughId × BitVec 8 × Word} {ms : List (BoughId × BitVec 8 × Word)} {blocked : List BoughId}

theorem postMsgs_of_blocked (h : blocked.contains m.1 = true) :
    postMsgs (fuel + 1) s p (m :: ms) blocked = ((postMsgs fuel s p ms blocked).1, m :: (postMsgs fuel s p ms blocked).2) := if_pos h

section

variable (h : ¬ blocked.contains m.1 = true)
include h

theorem postMsgs_of_no_queue (hqueue : s.crownQueue m.1.val = none) : postMsgs (fuel + 1) s p (m :: ms) blocked = postMsgs fuel s p ms blocked := by
  refine (if_neg h).trans ?_
  rw [hqueue]

variable {q : QueueId} (hqueue : s.crownQueue m.1.val = some q)
include hqueue

theorem postMsgs_of_posted {t : State} (hpost : s.postPacket q m.2.1.toNat [m.2.2] = some t) :
    postMsgs (fuel + 1) s p (m :: ms) blocked = postMsgs fuel t p ms blocked := by
  refine (if_neg h).trans ?_
  rw [hqueue]
  dsimp only
  rw [hpost]

theorem postMsgs_of_short (hpost : s.postPacket q m.2.1.toNat [m.2.2] = none) :
    postMsgs (fuel + 1) s p (m :: ms) blocked = ((postMsgs fuel s p ms (m.1 :: blocked)).1, m :: (postMsgs fuel s p ms (m.1 :: blocked)).2) := by
  refine (if_neg h).trans ?_
  rw [hqueue]
  dsimp only
  rw [hpost]

end

end

theorem postMsgs_messages (fuel : Nat) (s : State) (p : PlotId) (ms : List (BoughId × BitVec 8 × Word)) (blocked : List BoughId) :
    Messages p s (postMsgs fuel s p ms blocked).1 := by
  induction fuel generalizing s ms blocked with
  | zero => exact .refl p s
  | succ fuel ih =>
    cases ms with
    | nil => exact .refl p s
    | cons m ms =>
      by_cases hblocked : blocked.contains m.1 = true
      · rw [postMsgs_of_blocked hblocked]
        exact ih ..
      cases hqueue : s.crownQueue m.1.val with
      | none =>
        rw [postMsgs_of_no_queue hblocked hqueue]
        exact ih ..
      | some q =>
        cases hpost : s.postPacket q m.2.1.toNat [m.2.2] with
        | none =>
          rw [postMsgs_of_short hblocked hqueue hpost]
          exact ih ..
        | some t =>
          rw [postMsgs_of_posted hblocked hqueue hpost]
          exact (State.postPacket_messages hpost p).trans (ih ..)

theorem State.crownMessage_messages (s : State) (p : PlotId) (typ : Nat) (w : Word) : Messages p s (s.crownMessage p typ w) := by
  unfold State.crownMessage State.postHeldMsgs
  split
  · exact .refl p s
  · split
    · exact .refl p s
    · exact ((Messages.modMsgs p s _).trans (postMsgs_messages ..)).trans (.modMsgs ..)

theorem State.crownMessage_of_nobody {s : State} {p : PlotId} {m : PlotMap} (hmap : s.plotMap p.val = some m) (hnobody : s.messageBough m = none)
    (typ : Nat) (w : Word) : s.crownMessage p typ w = s := by
  unfold State.crownMessage
  rw [hmap]
  dsimp only
  rw [hnobody]

/-! ### The commands -/

section

variable {s : State} {p : PlotId} {m : PlotMap} (hmap : s.plotMap p.val = some m)
include hmap

/-- PARK of a running plot, whether PARK is written or a grace period has ended. -/
theorem State.startPark_of_running (hrun : s.plots[p].st = .running) :
    s.startPark p = (s.changeBoughs m (Bough.frozen true)).modPlot p fun x => { x with park := true, st := .parking } := by
  have hst : (s.modPlot p fun x => { x with park := true }).plots[p].st = .running := (congrArg Plot.st (vmod_get_self s.plots p _)).trans hrun
  unfold State.startPark
  rw [hmap]
  dsimp only
  rw [if_pos hst, State.freezePlot_eq, State.changeBoughs_modPlot, State.modPlot_modPlot]
  rfl

/-- PARK cleared while the plot parks. -/
theorem State.unpark_of_parking (hst : s.plots[p].st = .parking) :
    s.unpark p = (s.changeBoughs m (Bough.steered .running ∘ Bough.frozen false)).modPlot p fun x =>
      { x with park := false, st := .running, preempt := x.graceOn } := by
  have hst : (s.modPlot p fun x => { x with park := false }).plots[p].st = .parking := (congrArg Plot.st (vmod_get_self s.plots p _)).trans hst
  unfold State.unpark
  rw [hmap]
  dsimp only
  rw [hst]
  dsimp only
  rw [State.thawed_eq, State.changeBoughs_modPlot, State.modPlot_modPlot]
  rfl

/-- PARK of a parked plot cleared: a message tells the plot. -/
theorem State.unpark_of_parked (hst : s.plots[p].st = .parked) :
    ∃ w, s.unpark p = ((s.changeBoughs m (Bough.steered .running ∘ Bough.frozen false)).modPlot p fun x =>
      { x with park := false, st := .running }).crownMessage p 0x81 w := by
  have hst : (s.modPlot p fun x => { x with park := false }).plots[p].st = .parked := (congrArg Plot.st (vmod_get_self s.plots p _)).trans hst
  unfold State.unpark
  rw [hmap]
  dsimp only
  rw [hst]
  dsimp only
  rw [State.thawed_eq, State.changeBoughs_modPlot, State.modPlot_modPlot]
  exact ⟨_, rfl⟩

theorem exec_parkHold_of_quiet (hst : s.plots[p].st = .parking)
    (hquiet : ∀ b : BoughId, m.boughs.getLsbD b.val = true → (s.bough b).streaming = false ∧ (s.bough b).twig.canHold = true) :
    exec (.parkHold p) s = .next ((s.changeBoughs m (Bough.steered .held)).modPlot p fun x =>
      { x with st := .parked, preempt := false, graceOn := false, parkedAt := s.ring.tick }) := by
  have hall : (m.boughList.all fun b => !(s.bough b).streaming && (s.bough b).twig.canHold) = true := by
    refine List.all_eq_true.mpr fun b hb => ?_
    obtain ⟨hstreaming, hhold⟩ := hquiet b ((m.mem_boughList b).mp hb)
    rw [hstreaming, hhold]
    rfl
  show execParkHold p s = _
  unfold execParkHold
  rw [hmap]
  exact (if_pos ⟨hst, hall⟩).trans (by rw [State.runPlot_eq])

/-- PREEMPT of a running plot starts its grace period and tells the plot. -/
theorem exec_preempt_of_running (hst : s.plots[p].st = .running) (hpreempt : s.plots[p].preempt = false) :
    exec (.preempt p) s = .next ((s.modPlot p fun x =>
      { x with preempt := true, graceOn := true, preemptEnd := s.ring.tick + x.grace.setWidth 64 }).crownMessage p 0x80 (s.plots[p].grace.setWidth 64)) := by
  show Host.Outcome.next (s.preempt p) = _
  unfold State.preempt
  dsimp only
  rw [hmap, hst, hpreempt]
  rfl

theorem exec_preemptGraceExpiry_of_over (hgrace : s.plots[p].graceOn = true) (hover : s.plots[p].preemptEnd.toNat ≤ s.ring.tick.toNat ∨ s.plotIdle m = true) :
    exec (.preemptGraceExpiry p) s = .next (if s.plots[p].st = .running then (s.modPlot p fun x => { x with graceOn := false }).startPark p
      else s.modPlot p fun x => { x with graceOn := false }) := by
  have hover : (s.plots[p].graceOn && (decide (s.plots[p].preemptEnd.toNat ≤ s.ring.tick.toNat) || s.plotIdle m)) = true := by
    rw [hgrace, Bool.true_and, Bool.or_eq_true, decide_eq_true_eq]
    exact hover
  show execPreemptGraceExpiry p s = _
  unfold execPreemptGraceExpiry
  rw [hmap]
  exact if_pos hover

theorem exec_preemptGraceExpiry_of_not_over (htick : s.ring.tick.toNat < s.plots[p].preemptEnd.toNat) (hidle : s.plotIdle m = false) :
    exec (.preemptGraceExpiry p) s = .next s := by
  show execPreemptGraceExpiry p s = _
  unfold execPreemptGraceExpiry
  rw [hmap]
  dsimp only
  rw [hidle, decide_eq_false (by omega : ¬ s.plots[p].preemptEnd.toNat ≤ s.ring.tick.toNat), Bool.or_false, Bool.and_false]
  rfl

end

theorem exec_preempt_of_not_running {s : State} {p : PlotId} (hst : s.plots[p].st ≠ .running) : exec (.preempt p) s = .next s := by
  show Host.Outcome.next (s.preempt p) = _
  unfold State.preempt
  dsimp only
  rw [beq_false_of_ne hst, Bool.and_false]
  rfl

/-- A bough let go thaws, and its twig runs unless it is halted or under reset. -/
theorem Bough.let_go (y : Bough) : ((y.frozen false).steered .running).freeze = false ∧
    (y.twig.run ≠ .halted → y.resetting = false → ((y.frozen false).steered .running).twig.run = .running) := by
  refine ⟨rfl, fun hrun hreset => ?_⟩
  rw [(y.frozen false).steered_of_goes hrun hreset]

theorem Bough.steered_eq (y : Bough) (run : TwigRun) :
    y.steered run = if y.twig.run ≠ .halted ∧ y.resetting = false then { y with twig := { y.twig with run := run } } else y := by
  split_ifs with h
  · exact y.steered_of_goes h.1 h.2 run
  · refine y.steered_of_stays ?_ run
    rw [not_and_or, not_not, Bool.not_eq_false] at h
    exact h

end Sys2Proof.Machine

open Sys2Proof Sys2Proof.Machine Sys2Proof.Safety

/-- Settles O35: each command is one change of the plot's boughs (`State.changeBoughs`) and one of the plot; a release and a PREEMPT also send
a message (`Messages`). -/
theorem plotParking : Obligations.PlotParking := by
  unfold Obligations.PlotParking
  intro s p m hmap others
  have hothers : ∀ (f : Bough → Bough) (g : Plot → Plot), others ((s.changeBoughs m f).modPlot p g) := fun f g =>
    ⟨fun r => State.plot_modPlot_ne (s.changeBoughs m f) g, rfl⟩
  have hkept : ∀ (f : Bough → Bough) (b : BoughId), m.boughs.getLsbD b.val = false → (s.changeBoughs m f).bough b = s.bough b := fun f b hb => by
    rw [State.bough_changeBoughs, hb]
    rfl
  have hlet : ∀ b : BoughId, m.boughs.getLsbD b.val = true →
      ((s.changeBoughs m (Bough.steered .running ∘ Bough.frozen false)).bough b).freeze = false ∧ ((s.bough b).twig.run ≠ .halted →
        (s.bough b).resetting = false → ((s.changeBoughs m (Bough.steered .running ∘ Bough.frozen false)).bough b).twig.run = .running) := fun b hb => by
    rw [State.bough_changeBoughs, if_pos hb]
    exact (s.bough b).let_go
  refine ⟨fun hst => ⟨_, congrArg Host.Outcome.next (State.startPark_of_running hmap hst), State.plot_modPlot_self .., s.bough_changeBoughs m _, hothers ..⟩,
    fun hst hquiet => ⟨_, exec_parkHold_of_quiet hmap hst hquiet, State.plot_modPlot_self .., fun b => ?held, hothers ..⟩,
    fun hst => ⟨_, congrArg Host.Outcome.next (State.unpark_of_parking hmap hst), State.plot_modPlot_self .., hlet, hkept _, hothers ..⟩,
    fun hst => ?released, fun hst hpreempt => ?preempt, fun hst => ⟨s, exec_preempt_of_not_running hst, rfl⟩, fun hst hgrace hover => ?expires,
    fun hst hgrace hover => ?late, fun htick hidle => ⟨s, exec_preemptGraceExpiry_of_not_over hmap htick hidle, rfl⟩⟩
  case held =>
    have hbough := s.bough_changeBoughs m (Bough.steered .held) b
    refine hbough.trans ?_
    rw [Bough.steered_eq]
    simp only [ite_and]
  case released =>
    obtain ⟨w, hunpark⟩ := State.unpark_of_parked hmap hst
    set u := (s.changeBoughs m (Bough.steered .running ∘ Bough.frozen false)).modPlot p fun x => { x with park := false, st := .running }
    have hmsg := u.crownMessage_messages p 0x81 w
    have hplot : u.plots[p] = { s.plots[p] with park := false, st := .running } := State.plot_modPlot_self ..
    have hbough : ∀ b, (u.crownMessage p 0x81 w).bough b = u.bough b := fun b =>
      (congrArg (fun x : State => x.bough b) hmsg.frame :)
    refine ⟨_, congrArg Host.Outcome.next hunpark, ?_, ?_, fun b hb => ?_, fun b hb => ?_, fun r hr => ?_, (congrArg State.mem hmsg.frame :)⟩
    · exact (congrArg Plot.st (hmsg.plot p)).trans (congrArg Plot.st hplot)
    · exact (congrArg Plot.park (hmsg.plot p)).trans (congrArg Plot.park hplot)
    · rw [hbough]
      exact hlet b hb
    · rw [hbough]
      exact hkept _ b hb
    · have hr' : u.plots[r] = s.plots[r] := State.plot_modPlot_ne _ _ hr
      have hcnt := hmsg.plot_of_ne hr
      rwa [hr'] at hcnt
  case preempt =>
    have hexec := exec_preempt_of_running hmap hst hpreempt
    set u := s.modPlot p fun x => { x with preempt := true, graceOn := true, preemptEnd := s.ring.tick + x.grace.setWidth 64 }
    have hmsg := u.crownMessage_messages p 0x80 (s.plots[p].grace.setWidth 64)
    have hplot : u.plots[p] = { s.plots[p] with preempt := true, graceOn := true, preemptEnd := s.ring.tick + s.plots[p].grace.setWidth 64 } :=
      State.plot_modPlot_self ..
    have hfield : ∀ {α : Type} (f : Plot → α), (∀ (x : Plot) cnt msgs, f { x with cnt := cnt, msgs := msgs } = f x) →
        f (u.crownMessage p 0x80 (s.plots[p].grace.setWidth 64)).plots[p] = f u.plots[p] := fun f hf =>
      (hf _ _ _).symm.trans (congrArg f (hmsg.plot p))
    refine ⟨_, hexec, ?_, ?_, ?_, ?_, fun hnobody => ?_, (congrArg (fun x : State => { x with plots := s.plots }) hmsg.frame :)⟩
    · rw [hfield Plot.preempt fun _ _ _ => rfl, hplot]
    · rw [hfield Plot.graceOn fun _ _ _ => rfl, hplot]
    · rw [hfield Plot.preemptEnd fun _ _ _ => rfl, hplot]
    · rw [hfield Plot.st fun _ _ _ => rfl, hplot]
      exact hst
    · rw [State.crownMessage_of_nobody (s := u) hmap hnobody, hplot]
      exact ⟨by rw [← hpreempt], fun r => State.plot_modPlot_ne s _, rfl⟩
  case expires =>
    have hexec := exec_preemptGraceExpiry_of_over hmap hgrace hover
    rw [if_pos hst, State.startPark_of_running (s := s.modPlot p fun x => { x with graceOn := false }) hmap
      ((congrArg Plot.st (s.plot_modPlot_self p _)).trans hst), State.changeBoughs_modPlot, State.modPlot_modPlot] at hexec
    exact ⟨_, hexec, State.plot_modPlot_self .., s.bough_changeBoughs m _, hothers ..⟩
  case late =>
    have hexec := exec_preemptGraceExpiry_of_over hmap hgrace (.inl hover)
    rw [if_neg (by rw [hst]; decide)] at hexec
    exact ⟨_, hexec, s.plot_modPlot_self p _, rfl, fun r => s.plot_modPlot_ne _, rfl⟩

end

section
/-! SUPPORT. A change of every defined plot in turn, power caps (R380, R382), and the messages held for a bough (R373); and the settling of O37. -/

namespace Sys2Proof.Machine

open Sys2Proof.Safety

/-! ### Every defined plot in turn -/

theorem plotId_val (p : PlotId) : plotId p.val = p := dif_pos p.isLt

theorem val_plotId {k : Nat} (h : k < 64) : (plotId k).val = k := by rw [plotId, dif_pos h]

theorem State.plotMap_spec {s : State} {p : Nat} {m : PlotMap} (h : s.plotMap p = some m) : m ∈ s.plotMaps ∧ m.plot = p :=
  ⟨List.mem_of_find?_eq_some h, by simpa using List.find?_some h⟩

theorem State.plot_ne_of_plotMap_none {s : State} {p : Nat} (h : s.plotMap p = none) : ∀ m ∈ s.plotMaps, m.plot ≠ p := by
  simpa [State.plotMap] using h

/-- Plots changed one after the other, each once, by a step that an invariant I carries along. -/
theorem plots_foldl {f : State → PlotMap → State} {g : PlotMap → Plot → Plot} {I : State → Prop}
    (hstep : ∀ s m, I s → I (f s m) ∧ (f s m).plots = vmod s.plots (plotId m.plot) (g m)) {ms : List PlotMap}
    (hnodup : (ms.map fun m => m.plot).Nodup) (hlt : ∀ m ∈ ms, m.plot < 64) {s : State} (hs : I s) :
    (∀ m ∈ ms, (ms.foldl f s).plots[plotId m.plot] = g m s.plots[plotId m.plot]) ∧
      ∀ p : PlotId, (∀ m ∈ ms, m.plot ≠ p.val) → (ms.foldl f s).plots[p] = s.plots[p] := by
  induction ms generalizing s with
  | nil => exact ⟨fun _ h => absurd h List.not_mem_nil, fun _ _ => rfl⟩
  | cons a ms ih =>
    obtain ⟨ha, hnodup⟩ := List.nodup_cons.mp hnodup
    have hlta := hlt a List.mem_cons_self
    obtain ⟨hI, hplots⟩ := hstep s a hs
    obtain ⟨hown, hother⟩ := ih hnodup (fun m hm => hlt m (List.mem_cons_of_mem a hm)) hI
    have hfresh : ∀ m ∈ ms, m.plot ≠ a.plot := fun m hm heq => ha (List.mem_map.mpr ⟨m, hm, heq⟩)
    refine ⟨fun m hm => ?_, fun p hp => ?_⟩
    · rcases List.mem_cons.mp hm with rfl | hm
      · have hkept := hother (plotId m.plot) (by rwa [val_plotId hlta])
        rw [List.foldl_cons, hkept, hplots]
        exact vmod_get_self ..
      · have hne : plotId m.plot ≠ plotId a.plot := fun heq => hfresh m hm (by
          rw [← val_plotId (hlt m (List.mem_cons_of_mem a hm)), heq, val_plotId hlta])
        rw [List.foldl_cons, hown m hm, hplots]
        exact congrArg (g m) (vmod_get_ne _ _ hne)
    · have hne : p ≠ plotId a.plot := fun heq => hp a List.mem_cons_self (by rw [heq, val_plotId hlta])
      rw [List.foldl_cons, hother p fun m hm => hp m (List.mem_cons_of_mem a hm), hplots]
      exact vmod_get_ne _ _ hne

/-- The plots that the image defines, changed one after the other. -/
theorem State.plots_foldl_plotMaps {f : State → PlotMap → State} {g : PlotMap → Plot → Plot} {I : State → Prop}
    (hstep : ∀ s m, I s → I (f s m) ∧ (f s m).plots = vmod s.plots (plotId m.plot) (g m)) {s : State} (hs : I s)
    (hnodup : (s.plotMaps.map fun m => m.plot).Nodup) (hlt : ∀ m ∈ s.plotMaps, m.plot < 64) :
    I (s.plotMaps.foldl f s) ∧ (∀ (p : PlotId) (m : PlotMap), s.plotMap p.val = some m → (s.plotMaps.foldl f s).plots[p] = g m s.plots[p]) ∧
      ∀ p : PlotId, s.plotMap p.val = none → (s.plotMaps.foldl f s).plots[p] = s.plots[p] := by
  obtain ⟨hown, hother⟩ := plots_foldl hstep hnodup hlt hs
  refine ⟨List.foldlRecOn (motive := I) _ _ hs fun t ht m _ => (hstep t m ht).1, fun p m hm => ?_,
    fun p hp => hother p (State.plot_ne_of_plotMap_none hp)⟩
  obtain ⟨hmem, hplot⟩ := State.plotMap_spec hm
  obtain rfl : plotId m.plot = p := by rw [hplot, plotId_val]
  exact hown m hmem

theorem State.modPlot_same (s : State) (p : PlotId) (f : Plot → Plot) (h : f s.plots[p] = s.plots[p]) : s.modPlot p f = s :=
  congrArg (fun plots => { s with plots := plots }) (vmod_same s.plots p f h)

/-! ### Power caps (R380, R382) -/

/-- Plot x after an evaluation under the image's cap `image`. -/
def Plot.capped (x : Plot) (image : Nat) : Plot :=
  let cap := if image = 0 then x.limitMw.toNat else if x.limitMw.toNat = 0 then image else min image x.limitMw.toNat
  let mw := min (x.shareNJ / 1000) 0xfffff
  let d := nextDuty x.duty cap mw
  { x with lastMw := BitVec.ofNat 20 mw, peakMw := if x.peakMw.toNat < mw then BitVec.ofNat 20 mw else x.peakMw, duty := d,
           throttledMs := if decide (d < 64) then x.throttledMs + 1 else x.throttledMs,
           cnt := if decide (d < 64) then { x.cnt with throttled := x.cnt.throttled + 1 } else x.cnt,
           events := if decide (d < 64) && decide (x.duty = 64) then withBit x.events 7 else x.events }

theorem State.evalCap_eq (s : State) (p : PlotId) :
    ∃ evts, s.evalCap p = { s with plots := vmod s.plots p fun x => x.capped (s.imageCap p.val), crownEvts := evts } := by
  unfold State.evalCap
  extract_lets x mw d low hit t
  have ht : t = { s with plots := vmod s.plots p fun x => x.capped (s.imageCap p.val) } := rfl
  split_ifs
  · obtain ⟨evts, hnotice⟩ := t.notice_eq (x.events.getLsbD 7) "PLOT_EVENT"
    exact ⟨evts, by rw [hnotice, ht]⟩
  · exact ⟨s.crownEvts, ht⟩

/-- Every defined plot is evaluated once. -/
theorem exec_capEvaluation_of_due {s : State} (htick : s.ring.tick.toNat % 1000 = 0) (hnodup : (s.plotMaps.map fun m => m.plot).Nodup)
    (hlt : ∀ m ∈ s.plotMaps, m.plot < 64) :
    ∃ s', exec .capEvaluation s = .next s' ∧ (∀ p : PlotId, (s.plotMap p.val).isSome = true → s'.plots[p] = s.plots[p].capped (s.imageCap p.val)) ∧
      (∀ p : PlotId, s.plotMap p.val = none → s'.plots[p] = s.plots[p]) ∧ { s' with plots := s.plots, crownEvts := s.crownEvts } = s := by
  have hstep : ∀ (t : State) (m : PlotMap), { t with plots := s.plots, crownEvts := s.crownEvts } = s →
      { t.evalCap (plotId m.plot) with plots := s.plots, crownEvts := s.crownEvts } = s ∧
      (t.evalCap (plotId m.plot)).plots = vmod t.plots (plotId m.plot) fun x => x.capped (s.imageCap (plotId m.plot).val) := by
    intro t m ht
    obtain ⟨evts, heval⟩ := t.evalCap_eq (plotId m.plot)
    have hcap : t.imageCap (plotId m.plot).val = s.imageCap (plotId m.plot).val := (congrArg (fun x : State => x.imageCap (plotId m.plot).val) ht :)
    rw [heval, hcap]
    exact ⟨ht, rfl⟩
  obtain ⟨hframe, hown, hother⟩ := State.plots_foldl_plotMaps (g := fun m x => x.capped (s.imageCap (plotId m.plot).val)) hstep (s := s) rfl hnodup hlt
  refine ⟨_, if_pos htick, fun p hp => ?_, hother, hframe⟩
  obtain ⟨m, hm⟩ := Option.isSome_iff_exists.mp hp
  obtain ⟨-, hplot⟩ := State.plotMap_spec hm
  rw [hown p m hm, hplot, plotId_val]

theorem Plot.peakMw_capped (x : Plot) (image : Nat) :
    (x.capped image).peakMw.toNat = max x.peakMw.toNat (min (x.shareNJ / 1000) 0xfffff) := by
  unfold Plot.capped
  dsimp only
  split_ifs with h
  · rw [BitVec.toNat_ofNat, Nat.mod_eq_of_lt (by omega)]
    omega
  · omega

theorem Plot.capHit_capped (x : Plot) (image : Nat) :
    (x.capped image).events.getLsbD 7 = true ↔ x.events.getLsbD 7 = true ∨ ((x.capped image).duty < 64 ∧ x.duty = 64) := by
  unfold Plot.capped
  dsimp only
  generalize nextDuty _ _ _ = d
  by_cases hhit : d < 64 ∧ x.duty = 64
  · simp [hhit, withBit]
  · rw [if_neg (by simpa using hhit)]
    simp [hhit]

/-! ### Messages held for a bough (R373) -/

theorem postMsgs_nil (fuel : Nat) (s : State) (p : PlotId) (blocked : List BoughId) : postMsgs (fuel + 1) s p [] blocked = (s, []) := rfl

section

variable {s : State} {b : BoughId} {m : PlotMap} {q : QueueId} {typ : BitVec 8} {w : Word} (hplot : s.boughPlot b.val = some m)
  (hmsgs : s.plots[plotId m.plot].msgs = [(b, typ, w)]) (hqueue : s.crownQueue b.val = some q)
include hplot hmsgs

theorem exec_crownMessageSend_of_one :
    exec (.crownMessageSend b) s = .next ((postMsgs 2 s (plotId m.plot) [(b, typ, w)] []).1.modPlot (plotId m.plot) fun x =>
      { x with msgs := (x.msgs.filter fun x => x.1 != b) ++ (postMsgs 2 s (plotId m.plot) [(b, typ, w)] []).2 }) := by
  have hmine : (s.plots[plotId m.plot].msgs.filter fun x => x.1 == b) = [(b, typ, w)] := by
    rw [hmsgs]
    simp
  show execCrownMessageSend b s = _
  unfold execCrownMessageSend
  rw [hplot]
  dsimp only
  rw [hmine]
  rfl

include hqueue

theorem exec_crownMessageSend_of_short (hshort : s.queues[q].credits < 2) : exec (.crownMessageSend b) s = .next s := by
  have hpost : s.postPacket q typ.toNat [w] = none := State.postPacket_of_short hshort _
  rw [exec_crownMessageSend_of_one hplot hmsgs, postMsgs_of_short (fuel := 1) (m := (b, typ, w)) (by simp) hqueue hpost]
  refine congrArg Host.Outcome.next (s.modPlot_same _ _ ?_)
  have hothers : (s.plots[plotId m.plot].msgs.filter fun x => x.1 != b) = [] := by
    rw [hmsgs]
    simp
  dsimp only
  rw [hothers, List.nil_append]
  exact congrArg (fun msgs => { s.plots[plotId m.plot] with msgs := msgs }) hmsgs.symm

theorem exec_crownMessageSend_of_room (hprod : s.queues[q].prod = none) (hroom : 2 ≤ s.queues[q].credits) :
    ∃ t k tail, exec (.crownMessageSend b) s = .next (t.modPlot (plotId m.plot) fun x => { x with msgs := [] }) ∧ k.typ = typ ∧ k.tag = 0 ∧
      (k.words.map fun x => x.w) = [w] ∧ Notices q (s.modQueue q fun x => x.posted k tail) t := by
  obtain ⟨t, k, tail, hpost, htyp, htag, hwords, hnotices⟩ := State.postPacket_of_room (ws := [w]) hprod hroom typ.toNat
  refine ⟨t, k, tail, ?_, ?_, htag, hwords, hnotices⟩
  · rw [exec_crownMessageSend_of_one hplot hmsgs, postMsgs_of_posted (fuel := 1) (m := (b, typ, w)) (by simp) hqueue hpost, postMsgs_nil 0]
    have hkept : t.plots[plotId m.plot].msgs = [(b, typ, w)] := (congrArg Plot.msgs (hnotices.plot (plotId m.plot)) :).trans hmsgs
    have hothers : (t.plots[plotId m.plot].msgs.filter fun x => x.1 != b) = [] := by
      rw [hkept]
      simp
    refine congrArg Host.Outcome.next (congrArg (fun plots => { t with plots := plots }) (congrArg (vset t.plots (plotId m.plot)) ?_))
    dsimp only
    rw [hothers, List.nil_append]
  · rw [htyp, BitVec.ofNat_toNat, BitVec.setWidth_eq]

end

end Sys2Proof.Machine

open Sys2Proof Sys2Proof.Machine Sys2Proof.Safety

/-- Settles O37: an evaluation is `Plot.capped` of every defined plot, and a message held alone is `State.postPacket` of one word. -/
theorem powerCapsAndMessages : Obligations.PowerCapsAndMessages := by
  unfold Obligations.PowerCapsAndMessages
  refine ⟨fun s htick hnodup hlt => ?caps, fun s htick => ⟨s, if_neg htick, rfl⟩,
    fun s b m q typ w hplot hmsgs hqueue hprod => ⟨fun hshort => ⟨s, exec_crownMessageSend_of_short hplot hmsgs hqueue hshort, rfl⟩, fun hroom => ?message⟩⟩
  case caps =>
    obtain ⟨s', hexec, hown, hother, hframe⟩ := exec_capEvaluation_of_due htick hnodup hlt
    refine ⟨s', hexec, fun p hp => ?_, hother, hframe⟩
    dsimp only
    rw [hown p hp]
    refine ⟨?_, Plot.peakMw_capped .., rfl, Plot.capHit_capped .., ?_⟩
    · exact (BitVec.toNat_ofNat ..).trans (Nat.mod_eq_of_lt (by omega))
    · simp only [Plot.capped, decide_eq_true_eq]
  case message =>
    obtain ⟨t, k, tail, hexec, htyp, htag, hwords, hnotices⟩ := exec_crownMessageSend_of_room hplot hmsgs hqueue hprod hroom
    have hposted : (s.modQueue q fun x => x.posted k tail).queues[q] = s.queues[q].posted k tail := s.modQueue_queue_self q _
    have hlength : k.words.length = 1 := by simpa using congrArg List.length hwords
    have hown := hnotices.own
    rw [hposted] at hown
    refine ⟨_, hexec, ?_, ?_, ⟨k, htyp, htag, hwords, (congrArg Queue.pending hown :)⟩, onlyQueue_of_forall_ne fun r hr => ?_,
      (congrArg (fun x : State => { x with queues := s.queues }) hnotices.frame :)⟩
    · exact congrArg Plot.msgs (t.plot_modPlot_self (plotId m.plot) _)
    · refine (congrArg Queue.credits hown :).trans ?_
      rw [Queue.posted, hlength]
    · exact (hnotices.queue r hr).trans (vmod_get_ne _ _ hr)

end

section
/-! SUPPORT. Host windows (R342, R343, R355, R356, R357): an access that reaches its window, and what each register of the window does to the queue;
and the mask bit of an MSI-X entry (R350, R463, R469); and the settling of O33. -/

namespace Sys2Proof.Machine

open Sys2Proof.Safety

/-! ### An access that reaches its window -/

theorem State.meterHost_eq (s : State) (fn : HostFn) (k : Nat) : ∃ plots, s.meterHost fn k = { s with plots := plots } := by
  cases fn with
  | pf n => exact ⟨s.plots, rfl⟩
  | vf v => exact s.meter_eq ((s.vfPlot v.val).map fun m => m.plot) fun c => { c with host := c.host + k }

section

variable {s : State} {fn : HostFn} {i : Instr}

/-- An access that goes through at once counts its bytes and acts. -/
theorem State.window_of_reaches (hreach : Reaches s fn i) (write : Bool) (f : State → State) :
    ∃ ports plots, s.window fn i false write f = f { s with ports := ports, plots := plots } ∧ ports.set (fnPort s fn).val s.ports[fnPort s fn] = s.ports := by
  obtain ⟨hup, hnow⟩ := hreach
  have hgo : s.window fn i false write f = f ((if write then s.rxBytes (fnPort s fn) 8 else s.txBytes (fnPort s fn) 8).meterHost fn 8) := by
    unfold State.window
    dsimp only
    rw [hup, hnow]
    rfl
  have hport : ∀ g : HostPort → HostPort, (vmod s.ports (fnPort s fn) g).set (fnPort s fn).val s.ports[fnPort s fn] = s.ports := vmod_undo s.ports _
  rw [hgo]
  cases write
  all_goals
    obtain ⟨plots, hplots⟩ := State.meterHost_eq _ fn 8
    exact ⟨_, plots, congrArg f hplots, hport _⟩

/-- A register of the window that changes queue q alone. -/
theorem State.window_of_modQueue (hreach : Reaches s fn i) {write : Bool} {f : State → State} {q : QueueId} {g : Queue → Queue}
    (hf : ∀ ports plots, f { s with ports := ports, plots := plots } = State.modQueue { s with ports := ports, plots := plots } q g) :
    ∃ s', Host.Outcome.next (s.window fn i false write f) = (.next s' : Out) ∧ s'.queues[q] = g s.queues[q] ∧
      OnlyQueue q s s' ∧ OnlyPort (fnPort s fn) s s' ∧ { s' with queues := s.queues, ports := s.ports, plots := s.plots } = s := by
  obtain ⟨ports, plots, hwindow, hports⟩ := State.window_of_reaches hreach write f
  rw [hwindow, hf]
  exact ⟨_, rfl, State.modQueue_queue_self _ q g, onlyQueue_modQueue _ q g, hports, rfl⟩

end

/-! ### The registers of a producer's window -/

theorem bad_qword (v : Word) (poison : Bool) : (qword v poison).bad = poison := by simp [QWord.bad, qword]


/-- The queue with ERR of its producing window set, and of the consuming one where one window serves both. -/
def Queue.errs (both : Bool) (k : Nat) (x : Queue) : Queue :=
  { x with errProd := BitVec.ofNat 4 k, errCons := if both then BitVec.ofNat 4 k else x.errCons }

theorem State.errProd_eq (s : State) (q : QueueId) (k : Nat) : s.errProd q k = s.modQueue q (Queue.errs (s.prodOf q.val == s.consOf q.val) k) := rfl

/-- A queue with a packet of capacity c opened by a host: its payload reads 0 until written (R342). -/
def Queue.hostOpened (both : Bool) (c : Nat) (x : Queue) : Queue :=
  { x.errs both qOk with credits := x.credits - (c + 1), prod := some { cap := c, words := List.replicate c (qword 0 false), slot := x.tail }, prodVoid := false }

section

variable {s : State} {fn : HostFn} {q : QueueId} (hrole : s.hostProd fn q = true) (v : Word)
include hrole

theorem State.qwOpen_of_open (hprod : s.queues[q].prod ≠ none) :
    s.qwOpen fn q v = s.errProd q qAlreadyOpen := by
  unfold State.qwOpen
  dsimp only
  rw [hrole, Option.isSome_iff_ne_none.mpr hprod]
  rfl

section

variable {v} (hprod : s.queues[q].prod = none)
include hprod

theorem State.qwOpen_of_big (hbig : 4096 < v.toNat % 8192 ∨ s.ringWords q < v.toNat % 8192 + 1) : s.qwOpen fn q v = s.errProd q qTooBig := by
  have hbig : (decide (4096 < fieldAt v 0 13) || decide (s.ringWords q < fieldAt v 0 13 + 1)) = true := by
    simpa [fieldAt] using hbig
  unfold State.qwOpen
  dsimp only
  rw [hrole, hprod, hbig]
  rfl

variable (hcap : v.toNat % 8192 ≤ 4096) (hring : v.toNat % 8192 + 1 ≤ s.ringWords q)
include hcap hring

theorem State.qwOpen_of_fits : s.qwOpen fn q v = if s.queues[q].credits < v.toNat % 8192 + 1 then s.errProd q qNoCredit
    else s.modQueue q (Queue.hostOpened (s.prodOf q.val == s.consOf q.val) (v.toNat % 8192)) := by
  have hfield : fieldAt v 0 13 = v.toNat % 8192 := by simp [fieldAt]
  have hfits : (decide (4096 < v.toNat % 8192) || decide (s.ringWords q < v.toNat % 8192 + 1)) = false := by
    rw [decide_eq_false (by omega), decide_eq_false (by omega)]
    rfl
  have hopened : ((s.qOpen q (v.toNat % 8192)).errProd q qOk).modQueue q (fun x =>
      { x with prod := x.prod.map fun o => { o with words := List.replicate (v.toNat % 8192) (qword 0 false) } }) =
      s.modQueue q (Queue.hostOpened (s.prodOf q.val == s.consOf q.val) (v.toNat % 8192)) := by
    rw [State.errProd_eq, State.modQueue_modQueue, State.qOpen, State.modQueue_modQueue]
    rfl
  unfold State.qwOpen
  dsimp only
  rw [hrole, hprod, hfield, hfits, hopened]
  rfl

end

theorem State.qwPut_of_closed (hprod : s.queues[q].prod = none) (i : Nat) : s.qwPut fn q i v = s.errProd q (voidOr s.queues[q].prodVoid) := by
  unfold State.qwPut
  dsimp only
  rw [hrole, hprod]
  rfl

theorem State.qwPut_of_open {o : OpenProd} (hprod : s.queues[q].prod = some o) (i : Nat) :
    s.qwPut fn q i v = if o.cap ≤ i then s.errProd q qFull
      else s.modQueue q fun x => { x with prod := some { o with words := lmod o.words i fun _ => qword v false } } := by
  unfold State.qwPut
  dsimp only
  rw [hrole, hprod]
  rfl

theorem State.qwClose_of_closed (hprod : s.queues[q].prod = none) : s.qwClose fn q v = s.errProd q (voidOr s.queues[q].prodVoid) := by
  unfold State.qwClose
  dsimp only
  rw [hrole, hprod]
  rfl

theorem State.qwClose_of_open {o : OpenProd} (hprod : s.queues[q].prod = some o) :
    s.qwClose fn q v = if o.cap < v.toNat % 65536 then s.errProd q qFull
      else if 0x80 ≤ v.toNat / 2 ^ 16 % 256 then s.errProd q qBadType
      else (s.modQueue q fun x => { x with prod := some { o with words := o.words.take (v.toNat % 65536) } }).qClose q (BitVec.ofNat 8 (v.toNat / 2 ^ 16 % 256))
          (BitVec.ofNat 32 (v.toNat / 2 ^ 32 % 2 ^ 32)) := by
  have hcount : fieldAt v 0 16 = v.toNat % 65536 := by simp [fieldAt]
  unfold State.qwClose
  dsimp only
  rw [hrole, hprod, hcount]
  rfl

/-- A close with COUNT n and a TYPE that a host may give closes the first n words. -/
theorem State.qwClose_notices {o : OpenProd} (hprod : s.queues[q].prod = some o) (hcount : v.toNat % 65536 ≤ o.cap)
    (htyp : v.toNat / 2 ^ 16 % 256 < 0x80) :
    ∃ tail, Notices q (s.modQueue q fun x => x.closed { o with words := o.words.take (v.toNat % 65536) } (OpenProd.packet
      { o with words := o.words.take (v.toNat % 65536) } (BitVec.ofNat 8 (v.toNat / 2 ^ 16 % 256)) (BitVec.ofNat 32 (v.toNat / 2 ^ 32)) false) tail)
        (s.qwClose fn q v) := by
  let cut : OpenProd := { o with words := o.words.take (v.toNat % 65536) }
  have htag : BitVec.ofNat 32 (v.toNat / 2 ^ 32 % 2 ^ 32) = BitVec.ofNat 32 (v.toNat / 2 ^ 32) := BitVec.eq_of_toNat_eq (by simp)
  have hcut : (s.modQueue q fun x => { x with prod := some cut }).queues[q].prod = some cut := congrArg Queue.prod (s.modQueue_queue_self q _)
  obtain ⟨tail, hnotices⟩ := State.qClose_notices hcut (BitVec.ofNat 8 (v.toNat / 2 ^ 16 % 256)) (BitVec.ofNat 32 (v.toNat / 2 ^ 32)) false
  rw [State.modQueue_modQueue] at hnotices
  rw [State.qwClose_of_open hrole v hprod, if_neg (Nat.not_lt.mpr hcount), if_neg (Nat.not_le.mpr htyp), htag]
  exact ⟨tail, hnotices⟩

end

/-! ### The registers of a consumer's window -/

/-- The queue with ERR of its consuming window set, and of the producing one where one window serves both. -/
def Queue.errsCons (both : Bool) (k : Nat) (x : Queue) : Queue :=
  { x with errCons := BitVec.ofNat 4 k, errProd := if both then BitVec.ofNat 4 k else x.errProd }

theorem State.errCons_eq (s : State) (q : QueueId) (k : Nat) : s.errCons q k = s.modQueue q (Queue.errsCons (s.prodOf q.val == s.consOf q.val) k) := rfl

/-- The queue with its consumed packet freed: its credits return (R343). -/
def Queue.freed (x : Queue) (o : OpenCons) : Queue := { x with cons := none, credits := x.credits + (o.pkt.words.length + 1) }

/-- A freed packet returns its credits; its journal slot is freed and a graft producer is told. -/
theorem State.qDone_eq {s : State} {q : QueueId} {o : OpenCons} (ho : s.queues[q].cons = some o) :
    ∃ ring grafts, s.qDone q = { s.modQueue q fun x => x.freed o with ring := ring, grafts := grafts } := by
  have hslot : ∀ t : State, ∃ ring, t.freeSlot q = { t with ring := ring } := fun t => by
    unfold State.freeSlot
    split_ifs
    · exact ⟨_, rfl⟩
    · exact ⟨t.ring, rfl⟩
  obtain ⟨ring, hring⟩ := hslot (s.modQueue q fun x => x.freed o)
  have hdone : ∃ grafts, s.qDone q = { (s.modQueue q fun x => x.freed o).freeSlot q with grafts := grafts } := by
    unfold State.qDone
    rw [ho]
    dsimp only
    split
    · exact ⟨_, rfl⟩
    · split
      · split
        · split_ifs <;> exact ⟨_, rfl⟩
        · exact ⟨_, rfl⟩
      · exact ⟨_, rfl⟩
  obtain ⟨grafts, hdone⟩ := hdone
  exact ⟨ring, grafts, by rw [hdone, hring]⟩

theorem State.qTake_of_empty {s : State} {q : QueueId} (hpending : s.queues[q].pending = []) : s.qTake q = s.modQueue q id := by
  have hsame : (match s.queues[q].pending with
      | p :: ps => { s.queues[q] with cons := some { pkt := p, pos := 0 }, pending := ps, consVoid := false }
      | [] => s.queues[q]) = s.queues[q] := by rw [hpending]
  exact congrArg (fun x => { s with queues := vset s.queues q x }) hsame

theorem State.qTake_of_pending {s : State} {q : QueueId} {p : Packet} {ps : List Packet} (hpending : s.queues[q].pending = p :: ps) :
    s.qTake q = s.modQueue q fun x => { x with cons := some { pkt := p, pos := 0 }, pending := ps, consVoid := false } := by
  have htaken : (match s.queues[q].pending with
      | p :: ps => { s.queues[q] with cons := some { pkt := p, pos := 0 }, pending := ps, consVoid := false }
      | [] => s.queues[q]) = { s.queues[q] with cons := some { pkt := p, pos := 0 }, pending := ps, consVoid := false } := by rw [hpending]
  exact congrArg (fun x => { s with queues := vset s.queues q x }) htaken

section

variable {s : State} {fn : HostFn} {q : QueueId} (hrole : s.hostCons fn q = true)
include hrole

theorem State.qwTake_one : s.qwTake fn q 1 = if s.queues[q].cons.isSome then s.errCons q qAlreadyOpen else s.qTake q := by
  unfold State.qwTake
  rw [hrole]
  rfl

theorem State.qwDone_one : s.qwDone fn q 1 = if s.queues[q].cons.isSome then s.qDone q else s.errCons q (voidOr s.queues[q].consVoid) := by
  unfold State.qwDone
  rw [hrole]
  rfl

theorem State.qwRead_of_none {i : Nat} (hword : ∀ o, s.queues[q].cons = some o → o.pkt.words.length ≤ i) : s.qwRead fn q i = (s, 0, false) := by
  have hget : s.qwGet fn q i = (s, 0, false) := by
    unfold State.qwGet
    rw [hrole]
    cases hcons : s.queues[q].cons with
    | none => rfl
    | some o =>
      dsimp only
      rw [List.getElem?_eq_none (hword o hcons)]
      rfl
  unfold State.qwRead
  rw [hget]
  rfl

theorem State.qwRead_of_word {i : Nat} {o : OpenCons} {w : QWord} (hcons : s.queues[q].cons = some o) (hword : o.pkt.words[i]? = some w)
    (hgood : w.bad = false) : s.qwRead fn q i = (s, w.w, false) := by
  have hparity : (w.parity != parityOf w.w) = false := (Bool.or_eq_false_iff.mp hgood).2
  have hget : s.qwGet fn q i = (s, w.w, false) := by
    unfold State.qwGet
    rw [hrole, hcons]
    dsimp only
    rw [hword]
    dsimp only
    rw [hparity, hgood]
    rfl
  unfold State.qwRead
  rw [hget]
  rfl

end

/-! ### The mask bit of an MSI-X entry (R463, R469) -/

/-- The function with the mask bit of an entry cleared. -/
def Func.unmasked (f : Func) (entry : Nat) : Func := { f with msixTab := (4 * entry + 3, 0) :: f.msixTab.filter fun e => e.1 ≠ 4 * entry + 3 }

theorem Func.entryMasked_unmasked (f : Func) (entry : Nat) : (f.unmasked entry).entryMasked entry = f.funcMask := by
  simp [Func.entryMasked, Func.unmasked]

theorem State.func_modFunc (s : State) (fn : HostFn) (f : Func → Func) : (s.modFunc fn f).func fn = f (s.func fn) := by
  cases fn with
  | pf n => exact congrArg HostPort.pf (vmod_get_self s.ports n _)
  | vf v => exact vmod_get_self s.vfs v f

theorem State.fnUp_modFunc (s : State) (fn gn : HostFn) (f : Func → Func) : (s.modFunc fn f).fnUp gn = s.fnUp gn := by
  cases fn with
  | pf n =>
    have hport : (vmod s.ports n fun p => { p with pf := f p.pf })[fnPort s gn] = _ := vmod_get s.ports n _ _
    refine (congrArg HostPort.linkUp hport).trans ?_
    split_ifs with h
    · subst h
      rfl
    · rfl
  | vf v => rfl

theorem State.modFunc_eq (s : State) (fn : HostFn) (f : Func → Func) : ∃ ports vfs, s.modFunc fn f = { s with ports := ports, vfs := vfs } := by
  cases fn with
  | pf n => exact ⟨_, s.vfs, rfl⟩
  | vf v => exact ⟨s.ports, _, rfl⟩

/-- The conditions on a message, one inside the other, are one condition. -/
theorem ite_message {α : Type} (funcMask masked pending en up : Bool) (x y : α) :
    (if masked && !funcMask then (if pending then (if en && up && !funcMask then x else y) else y) else y) =
      if funcMask = false ∧ masked = true ∧ pending = true ∧ en = true ∧ up = true then x else y := by
  cases funcMask <;> simp [ite_and]

/-- Unmasking sends the entry's message where closes are pending and nothing holds it back. -/
theorem exec_msixUnmask_of_entry {s : State} {fn : HostFn} {entry : Nat} (hentry : entry < s.msixCount fn) :
    exec (.msixUnmask fn entry) s = .next { s.modFunc fn fun f => f.unmasked entry with
      outbox := if (s.func fn).funcMask = false ∧ (s.func fn).entryMasked entry = true ∧ s.entryPending fn entry = true ∧ (s.func fn).msixEn = true ∧
          s.fnUp fn = true then s.outbox ++ [.msix fn entry] else s.outbox } := by
  have hdiv : (4 * entry + 3) / 4 = entry := by omega
  have hmod : (4 * entry + 3) % 4 = 3 := by omega
  set t := s.modFunc fn fun f => f.unmasked entry with ht
  have hfunc : t.func fn = (s.func fn).unmasked entry := s.func_modFunc fn _
  have hmasked : (t.func fn).entryMasked entry = (s.func fn).funcMask := by rw [hfunc, Func.entryMasked_unmasked]
  have hpending : t.entryPending fn entry = s.entryPending fn entry := by
    obtain ⟨ports, vfs, h⟩ := s.modFunc_eq fn fun f => f.unmasked entry
    rw [ht, h]
    rfl
  have houtbox : t.outbox = s.outbox := by
    obtain ⟨ports, vfs, h⟩ := s.modFunc_eq fn fun f => f.unmasked entry
    rw [ht, h]
  have hup : t.fnUp fn = s.fnUp fn := s.fnUp_modFunc fn fn _
  have hen : (t.func fn).msixEn = (s.func fn).msixEn := by rw [hfunc]; rfl
  have hmsix : t.sendMsix fn entry = if ((s.func fn).msixEn && s.fnUp fn && !(s.func fn).funcMask) then t.emit (.msix fn entry) else t := by
    rw [State.sendMsix, hen, hup, hmasked]
  have hwrite : s.msixWrite fn (4 * entry + 3) 0 =
      if ((s.func fn).entryMasked entry && !(s.func fn).funcMask) then (if s.entryPending fn entry then t.sendMsix fn entry else t) else t := by
    unfold State.msixWrite
    rw [hdiv, hmod, if_neg (by omega)]
    show (if ((s.func fn).entryMasked entry && !(t.func fn).entryMasked entry) then t.sendEntry fn entry else t) = _
    rw [hmasked, State.sendEntry, hpending]
  show Host.Outcome.next (s.msixWrite fn (4 * entry + 3) 0) = _
  rw [hwrite, hmsix, ite_message]
  split_ifs
  · rw [← houtbox]
    rfl
  · rw [← houtbox]

end Sys2Proof.Machine

open Sys2Proof Sys2Proof.Machine Sys2Proof.Safety

/-- Settles O33: a register of a window is one change of its queue (`State.window_of_modQueue`); a close gives its notice (`Notices`), a freed
packet its credits (`State.qDone_eq`), and an unmasked entry its message (`exec_msixUnmask_of_entry`). -/
theorem hostWindows : Obligations.HostWindows := by
  unfold Obligations.HostWindows
  refine ⟨fun s fn q v hrole => ?producer, ⟨fun s fn q hrole => ?consumer, fun s fn entry hentry => ?unmask⟩⟩
  case producer =>
    intro go x only err c n typ
    have herr : ∀ {i : Instr} {f : State → State} {write : Bool} (k : Nat), (∀ ports plots, f { s with ports := ports, plots := plots } =
        State.errProd { s with ports := ports, plots := plots } q k) → exec i s = .next (s.window fn i false write f) → go i (err (BitVec.ofNat 4 k)) := by
      intro i f write k hf hexec hreach
      obtain ⟨s', hs', hqueue, honly⟩ := State.window_of_modQueue hreach (write := write) (g := Queue.errs (s.prodOf q.val == s.consOf q.val) k) hf
      exact ⟨s', hexec.trans hs', by rw [hqueue]; rfl, by rw [hqueue]; rfl, honly⟩
    have hvoid : ∀ b : Bool, (if b = true then 1 else 3 : BitVec 4) = BitVec.ofNat 4 (voidOr b) := by decide
    have hclose : s.writesDone fn = true → exec (.qwClose fn q v) s = .next (s.window fn (.qwClose fn q v) false true fun s => s.qwClose fn q v) :=
      fun hdone => by
        show Host.Outcome.next (s.window fn _ (!s.writesDone fn) true _) = _
        rw [hdone]
        rfl
    refine ⟨fun hprod hcap hring hcredit hreach => ?opens,
      fun hprod => herr 4 (fun ports plots => State.qwOpen_of_open (s := { s with ports := ports, plots := plots }) hrole v hprod) rfl,
      fun hprod hbig => herr 5 (fun ports plots => State.qwOpen_of_big (s := { s with ports := ports, plots := plots }) hrole hprod hbig) rfl,
      fun hprod hcap hring hcredit => herr 6 (fun ports plots =>
        (State.qwOpen_of_fits (s := { s with ports := ports, plots := plots }) hrole hprod hcap hring).trans (if_pos hcredit)) rfl,
      fun o i hprod hi hfull hreach => ?puts,
      fun o i hprod hi => herr 2 (fun ports plots =>
        (State.qwPut_of_open (s := { s with ports := ports, plots := plots }) hrole v hprod i).trans (if_pos hi)) rfl,
      fun i hprod => hvoid x.prodVoid ▸ herr (voidOr x.prodVoid) (fun ports plots =>
        State.qwPut_of_closed (s := { s with ports := ports, plots := plots }) hrole v hprod i) rfl,
      fun hdone => ⟨fun hprod => hvoid x.prodVoid ▸ herr (voidOr x.prodVoid) (fun ports plots =>
        State.qwClose_of_closed (s := { s with ports := ports, plots := plots }) hrole v hprod) (hclose hdone), fun o hprod => ?closing⟩⟩
    case opens =>
      obtain ⟨s', hs', hqueue, honly⟩ := State.window_of_modQueue hreach (write := true) (f := fun s => s.qwOpen fn q v)
        (g := Queue.hostOpened (s.prodOf q.val == s.consOf q.val) c) fun ports plots =>
          (State.qwOpen_of_fits (s := { s with ports := ports, plots := plots }) hrole hprod hcap hring).trans (if_neg (Nat.not_lt.mpr hcredit))
      refine ⟨s', hs', ?_⟩
      dsimp only
      rw [hqueue]
      exact ⟨rfl, ⟨_, rfl, rfl, rfl⟩, rfl, rfl, rfl, honly⟩
    case puts =>
      obtain ⟨s', hs', hqueue, honly⟩ := State.window_of_modQueue hreach (write := true) (f := fun s => s.qwPut fn q i v)
        (g := fun x => { x with prod := some { o with words := lmod o.words i fun _ => qword v false } }) fun ports plots =>
          (State.qwPut_of_open (s := { s with ports := ports, plots := plots }) hrole v hprod i).trans (if_neg (Nat.not_le.mpr (hfull ▸ hi)))
      refine ⟨s', hs', ⟨qword v false, rfl, bad_qword v false, ?_⟩, honly⟩
      rw [hqueue, lmod_eq_modify, ← List.set_eq_modify]
    case closing =>
      have hopen := fun ports plots => State.qwClose_of_open (s := { s with ports := ports, plots := plots }) hrole v hprod
      refine ⟨fun hn => herr 2 (fun ports plots => (hopen ports plots).trans (if_pos hn)) (hclose hdone), fun hn htyp => ?barred, fun hn htyp hfull hreach => ?closes⟩
      case barred => exact herr 7 (fun ports plots => (hopen ports plots).trans ((if_neg (Nat.not_lt.mpr hn)).trans (if_pos htyp))) (hclose hdone)
      case closes =>
        obtain ⟨ports, plots, hwindow, -⟩ := State.window_of_reaches hreach true fun s => s.qwClose fn q v
        obtain ⟨tail, hnotices⟩ := State.qwClose_notices (s := { s with ports := ports, plots := plots }) hrole v hprod hn htyp
        have hown := hnotices.own
        rw [State.modQueue_queue_self] at hown
        have hlength : (o.words.take n).length = n := List.length_take_of_le (hn.trans_eq hfull.symm)
        refine ⟨_, (hclose hdone).trans (congrArg Host.Outcome.next hwindow), ⟨_, rfl, rfl, rfl, (congrArg Queue.pending hown :)⟩,
          (congrArg Queue.prod hown :), ?_, (congrArg Queue.cons hown :), onlyQueue_of_forall_ne fun r hr => ?_,
          (congrArg (fun t : State => { t with queues := s.queues, ports := s.ports, plots := s.plots }) hnotices.frame :)⟩
        · refine (congrArg Queue.credits hown :).trans ?_
          show x.credits + (o.cap - (o.words.take n).length) = _
          rw [hlength]
        · exact (hnotices.queue r hr).trans (vmod_get_ne _ _ hr)
  case consumer =>
    intro go x only
    refine ⟨fun p ps hcons hpending hreach => ?takes, fun hcons hpending hreach => ?empty, fun hcons hreach => ?opened, fun o i w hcons hword hgood hreach => ?reads,
      fun i hword hreach => ?zeros, fun o hcons hreach => ?done, fun hcons hreach => ?void⟩
    case takes =>
      obtain ⟨s', hs', hqueue, honly⟩ := State.window_of_modQueue hreach (write := true) (f := fun s => s.qwTake fn q 1)
        (g := fun x => { x with cons := some { pkt := p, pos := 0 }, pending := ps, consVoid := false }) fun ports plots => by
          rw [State.qwTake_one (s := { s with ports := ports, plots := plots }) hrole]
          exact (if_neg (by rw [hcons]; decide)).trans (State.qTake_of_pending hpending)
      exact ⟨s', hs', hqueue, honly⟩
    case empty =>
      obtain ⟨s', hs', hqueue, honly⟩ := State.window_of_modQueue hreach (write := true) (f := fun s => s.qwTake fn q 1) (g := id) fun ports plots => by
        rw [State.qwTake_one (s := { s with ports := ports, plots := plots }) hrole]
        exact (if_neg (by rw [hcons]; decide)).trans (State.qTake_of_empty hpending)
      exact ⟨s', hs', hqueue, honly⟩
    case opened =>
      obtain ⟨s', hs', hqueue, honly⟩ := State.window_of_modQueue hreach (write := true) (f := fun s => s.qwTake fn q 1)
        (g := Queue.errsCons (s.prodOf q.val == s.consOf q.val) 4) fun ports plots => by
          rw [State.qwTake_one (s := { s with ports := ports, plots := plots }) hrole]
          exact if_pos (Option.isSome_iff_ne_none.mpr hcons)
      exact ⟨s', hs', by rw [hqueue]; rfl, by rw [hqueue]; rfl, honly⟩
    case reads =>
      obtain ⟨ports, plots, hwindow, hports⟩ := State.window_of_reaches hreach false fun s => (s.qwRead fn q i).1.emit
        (.window fn q i (s.qwRead fn q i).2.1 (s.qwRead fn q i).2.2)
      rw [State.qwRead_of_word (s := { s with ports := ports, plots := plots }) hrole hcons hword hgood] at hwindow
      exact ⟨_, congrArg Host.Outcome.next hwindow, rfl, rfl, hports, rfl⟩
    case zeros =>
      obtain ⟨ports, plots, hwindow, hports⟩ := State.window_of_reaches hreach false fun s => (s.qwRead fn q i).1.emit
        (.window fn q i (s.qwRead fn q i).2.1 (s.qwRead fn q i).2.2)
      rw [State.qwRead_of_none (s := { s with ports := ports, plots := plots }) hrole hword] at hwindow
      exact ⟨_, congrArg Host.Outcome.next hwindow, rfl, rfl⟩
    case done =>
      obtain ⟨ports, plots, hwindow, -⟩ := State.window_of_reaches hreach true fun s => s.qwDone fn q 1
      have hone : State.qwDone { s with ports := ports, plots := plots } fn q 1 = State.qDone { s with ports := ports, plots := plots } q :=
        (State.qwDone_one (s := { s with ports := ports, plots := plots }) hrole).trans (if_pos (Option.isSome_iff_exists.mpr ⟨o, hcons⟩))
      obtain ⟨ring, grafts, hdone⟩ := State.qDone_eq (s := { s with ports := ports, plots := plots }) hcons
      exact ⟨_, congrArg Host.Outcome.next (hwindow.trans (hone.trans hdone)), vmod_get_self s.queues q _, onlyQueue_modQueue _ q _, rfl⟩
    case void =>
      have hvoid : ∀ b : Bool, (if b = true then 1 else 3 : BitVec 4) = BitVec.ofNat 4 (voidOr b) := by decide
      obtain ⟨s', hs', hqueue, honly⟩ := State.window_of_modQueue hreach (write := true) (f := fun s => s.qwDone fn q 1)
        (g := Queue.errsCons (s.prodOf q.val == s.consOf q.val) (voidOr x.consVoid)) fun ports plots => by
          rw [State.qwDone_one (s := { s with ports := ports, plots := plots }) hrole]
          exact if_neg (by rw [hcons]; decide)
      exact ⟨s', hs', by rw [hqueue, hvoid]; rfl, by rw [hqueue]; rfl, honly⟩
  case unmask =>
    have hfunc : (s.modFunc fn fun f => f.unmasked entry).func fn = (s.func fn).unmasked entry := s.func_modFunc fn _
    have hframe : { s.modFunc fn fun f => f.unmasked entry with ports := s.ports, vfs := s.vfs, outbox := s.outbox } = s := by
      obtain ⟨ports, vfs, hmod⟩ := s.modFunc_eq fn fun f => f.unmasked entry
      rw [hmod]
    refine ⟨_, exec_msixUnmask_of_entry hentry, ?_, rfl, ?_, hframe⟩
    · exact (congrArg (fun f : Func => f.entryMasked entry) hfunc).trans (Func.entryMasked_unmasked ..)
    · exact congrArg (fun f : Func => { f with msixTab := (s.func fn).msixTab }) hfunc

end


section
/-! SUPPORT. The queue commands of a twig (R235, R341-R347): what a command in its role does, what its answer changes of the twig, the fault
without the role; and the settling of O14. -/

namespace Sys2Proof.Machine

open Sys2Proof.Safety

/-! ### The answer of a queue command -/

theorem State.hasRole_decoded (s : State) (t : TwigId) (q : Nat) (need : Need) : (s.decoded t).hasRole t q need = s.hasRole t q need := by
  cases t <;> rfl

theorem State.ringWords_decoded (s : State) (t : TwigId) (q : QueueId) : (s.decoded t).ringWords q = s.ringWords q := by
  cases t <;> rfl

theorem State.queues_decoded (s : State) (t : TwigId) : (s.decoded t).queues = s.queues := s.modTwig_queues t _

/-- A twig past a queue command that answered v in Gd. -/
def Twig.told (gd : GReg) (v : Word) (w : Twig) : Twig := (w.setReg gd v).finish 2 false false

theorem State.act_told (s s1 : State) (t : TwigId) (i : Instr) (gd : GReg) (v : Word) :
    s.act t i 2 (.done (s1.setG t gd v) false false) = s1.modTwig t (Twig.told gd v) :=
  s1.modTwig_modTwig t (fun w => w.setReg gd v) fun w => w.finish 2 false false

theorem queueTwig_told {s s1 : State} {t : TwigId} (hrep : (s.twig t).rep = none) (htwig : s1.twig t = (s.decoded t).twig t) (gd : GReg) (v : Word) :
    QueueTwig t gd v s (s1.modTwig t (Twig.told gd v)) := by
  obtain ⟨pc, past, lc0, lc1, hfinish, hzero0, hzero1⟩ := Twig.finish_eq (w := { s.twig t with repActive := false }.setReg gd v) hrep 2 false false
  unfold QueueTwig
  rw [State.twig_modTwig, htwig, State.twig_decoded hrep, Twig.told, hfinish]
  exact ⟨fun r => Twig.reg_setReg _ gd r v, rfl, fun _ => ⟨rfl, hrep⟩, hzero0, hzero1⟩

theorem onlyTwig_decoded_modTwig {s u : State} {t : TwigId} (g : Twig → Twig) (h : u = (s.decoded t).modTwig t g) : OnlyTwig t s u := by
  rw [h, State.decoded, State.modTwig_modTwig]
  exact onlyTwig_modTwig s t _

/-- The frame of an answer beside changed queues. -/
theorem onlyTwig_queues {s s1 : State} {t : TwigId} (g : Twig → Twig) (h : { s1 with queues := s.queues } = s.decoded t) :
    OnlyTwig t s { s1.modTwig t g with queues := s.queues } :=
  onlyTwig_decoded_modTwig g ((show _ = { s1 with queues := s.queues }.modTwig t g by cases t <;> rfl).trans (congrArg (State.modTwig · t g) h))

theorem restored_modQueue_decoded (s : State) (t : TwigId) (q : QueueId) (f : Queue → Queue) :
    { (s.decoded t).modQueue q f with queues := s.queues } = s.decoded t := by
  cases t <;> rfl

/-! ### A queue command in its role -/

section

variable {s : State} {t : TwigId} {gu : PReg} {gs gt : GReg} {need : Need} {q : QueueId} (h : QueueGo s t gu gs gt need q)
include h

/-- A twig in its role does on queue q what the command says (R344). -/
theorem queueRun_of_go (i : Instr) (eff : QueueId → State → Act) :
    queueRun i t gu gs 0 gt need eff s = (s.decoded t).act t i 2 (eff q (s.decoded t)) := by
  obtain ⟨hgo, ⟨hrep, hpfx⟩, -, hnames, hrole⟩ := h
  refine (runTwig_of_go hgo (by omega) rfl rfl rfl (.inl hrep) (.inl hpfx) _ _).trans (congrArg _ ?_)
  have hq := q.isLt
  have hval : ((s.twig t).reg gs).toNat = q.val := by
    rw [hnames, BitVec.toNat_ofNat]
    omega
  have hqueue : (⟨((s.twig t).reg gs).toNat % 1024, Nat.mod_lt _ (by decide)⟩ : QueueId) = q := Fin.ext ((congrArg (· % 1024) hval).trans (Nat.mod_eq_of_lt hq))
  have hmod : ((s.twig t).reg gs).toNat % 1024 = q.val := congrArg Fin.val hqueue
  have hin : ¬ 1024 ≤ ((s.twig t).reg gs).toNat := by omega
  simp only [State.reg_decoded, State.hasRole_decoded, hmod, hrole, hin, decide_false, Bool.not_true, Bool.or_self, Bool.false_eq_true, if_false]

/-- No vector instruction is issued, so the command waits for none (R349). -/
theorem waitFor_of_go {cond : Bough → Bool} (hcond : ∀ b : Bough, b.issued = [] → cond b = false) (k : Act) :
    (s.decoded t).waitFor t cond k = k := by
  refine State.waitWhile_of_clear (fun b hb => ?_) k
  subst hb
  have hrep : (s.bough b).twig.rep = none := h.plain.1
  refine ⟨?_, hcond _ ?_⟩
  · rw [State.bough_decoded hrep]
    exact (h.go.waits b rfl).1
  · rw [State.issued_decoded hrep]
    exact h.idle b rfl

theorem queueWait_of_go (k : Act) : queueWait t q (s.decoded t) k = k :=
  waitFor_of_go h (fun b hb => by simp [Bough.queueWaits, hb]) k

/-- A command that only answers. -/
theorem runsTo_told {i : Instr} {gd : GReg} {v : Word} (hexec : exec i s = .next ((s.decoded t).modTwig t (Twig.told gd v))) :
    RunsTo i s fun s' => QueueTwig t gd v s s' ∧ OnlyTwig t s s' :=
  ⟨_, hexec, queueTwig_told h.plain.1 rfl gd v, onlyTwig_decoded_modTwig _ rfl⟩

/-- A command that changes its queue and answers. -/
theorem runsTo_changed {i : Instr} {gd : GReg} {v : Word} {f : Queue → Queue}
    (hexec : exec i s = .next (((s.decoded t).modQueue q f).modTwig t (Twig.told gd v))) :
    RunsTo i s fun s' => s'.queues[q] = f s.queues[q] ∧ QueueTwig t gd v s s' ∧ OnlyQueue q s s' ∧ OnlyTwig t s { s' with queues := s.queues } := by
  refine ⟨_, hexec, ?_, queueTwig_told h.plain.1 (by cases t <;> rfl) gd v, ?_, onlyTwig_queues _ (restored_modQueue_decoded s t q f)⟩
  · rw [State.modTwig_queues, State.modQueue_queue_self, State.queues_decoded]
  · unfold OnlyQueue
    rw [State.modTwig_queues, ← State.queues_decoded s t]
    exact onlyQueue_modQueue (s.decoded t) q f

/-- A command that waits at its boundary. -/
theorem runsTo_stalled {i : Instr} (hexec : exec i s = .next ((s.decoded t).waitAt t i .plain)) :
    RunsTo i s fun s' => s'.twig t = { s.twig t with waiting := some i, wait := .plain, repActive := false } ∧ OnlyTwig t s s' :=
  ⟨_, hexec, waitAt_decoded h.plain.1 i .plain⟩

theorem stores_decoded_of_go : ((s.decoded t).twig t).stores = (s.twig t).stores := by
  rw [State.twig_decoded h.plain.1]

end

/-! ### What each command does (R342-R347) -/

section

variable {s : State} {t : TwigId} {gu : PReg} {gs gt : GReg} {q : QueueId} (h : QueueGo s t gu gs gt .prod q) (gd : GReg)
include h

theorem exec_qopen_of_go : exec (.qopen t gu gd gs 0 gt) s = .next ((s.decoded t).act t (.qopen t gu gd gs 0 gt) 2
    (if s.queues[q].prod.isSome then stat t gd qAlreadyOpen (s.decoded t)
     else if decide (4096 < ((s.twig t).reg gt).toNat % 8192) || decide (s.ringWords q < ((s.twig t).reg gt).toNat % 8192 + 1) then
       stat t gd qTooBig (s.decoded t)
     else if s.queues[q].credits < ((s.twig t).reg gt).toNat % 8192 + 1 then .stall .plain
     else stat t gd qOk ((s.decoded t).qOpen q (((s.twig t).reg gt).toNat % 8192)))) := by
  have hcount : fieldAt ((s.twig t).reg gt) 0 13 = ((s.twig t).reg gt).toNat % 8192 := by simp [fieldAt]
  rw [show exec (.qopen t gu gd gs 0 gt) s = execQopen t gu gd gs 0 gt s from rfl, execQopen, queueRun_of_go h]
  dsimp only
  rw [State.reg_decoded, State.ringWords_decoded, State.queues_decoded, hcount]

theorem exec_qput_of_go : exec (.qput t gu gd gs 0 gt) s = .next ((s.decoded t).act t (.qput t gu gd gs 0 gt) 2
    (match s.queues[q].prod with
     | none => stat t gd (if s.queues[q].prodVoid then qVoid else qNotOpen) (s.decoded t)
     | some o =>
       if o.cap ≤ o.words.length then stat t gd qFull (s.decoded t)
       else stat t gd qOk ((s.decoded t).modQueue q fun x => x.append (qword ((s.twig t).reg gt) false)))) := by
  rw [show exec (.qput t gu gd gs 0 gt) s = execQput t gu gd gs 0 gt s from rfl, execQput, queueRun_of_go h]
  dsimp only
  rw [queueWait_of_go h, State.reg_decoded, State.queues_decoded] <;> rfl

theorem exec_qclose_of_go {o : OpenProd} (hstores : (s.twig t).stores = []) (ho : s.queues[q].prod = some o) :
    exec (.qclose t gu gd gs 0 gt) s = .next ((s.decoded t).act t (.qclose t gu gd gs 0 gt) 2
      (if typeBarred t (fieldAt ((s.twig t).reg gt) 16 8) then stat t gd qBadType (s.decoded t)
       else stat t gd qOk ((s.decoded t).qClose q (BitVec.ofNat 8 (fieldAt ((s.twig t).reg gt) 16 8)) (BitVec.ofNat 32 (fieldAt ((s.twig t).reg gt) 32 32))))) := by
  rw [show exec (.qclose t gu gd gs 0 gt) s = execQclose t gu gd gs 0 gt s from rfl, execQclose, queueRun_of_go h]
  dsimp only
  rw [waitFor_of_go h (fun b hb => by simp [hb]), stores_decoded_of_go h, hstores, State.reg_decoded, State.queues_decoded, ho]
  rfl

end

section

variable {s : State} {t : TwigId} {gu : PReg} {gs gt : GReg} {q : QueueId} (h : QueueGo s t gu gs gt .cons q) (gd : GReg)
include h

theorem exec_qtake_of_go : exec (.qtake t gu gd gs 0 gt) s = .next ((s.decoded t).act t (.qtake t gu gd gs 0 gt) 2
    (match s.queues[q].cons, s.queues[q].pending with
     | some o, _ => .done ((s.decoded t).setG t gd o.pkt.lengthWord) false false
     | none, p :: _ => .done (((s.decoded t).qTake q).setG t gd p.lengthWord) false false
     | none, [] => .stall .plain)) := by
  rw [show exec (.qtake t gu gd gs 0 gt) s = execQtake t gu gd gs 0 gt s from rfl, execQtake, queueRun_of_go h]
  dsimp only
  rw [queueWait_of_go h, State.queues_decoded] <;> rfl

theorem exec_qget_of_go : exec (.qget t gu gd gs 0 gt) s = .next ((s.decoded t).act t (.qget t gu gd gs 0 gt) 2
    (match s.queues[q].cons with
     | none => stat t gd 0 (s.decoded t)
     | some o =>
       match o.pkt.words[o.pos]? with
       | none => stat t gd 0 (s.decoded t)
       | some w =>
         let s1 := if w.parity != parityOf w.w then (s.decoded t).parityFail q ((s.decoded t).storeSlot q o o.pos) false else s.decoded t
         if w.bad then .faultIn s1 .poison (queueAddr q.val o.pos)
         else .done ((s1.modQueue q fun x => { x with cons := x.cons.map fun o => { o with pos := o.pos + 1 } }).setG t gd w.w) false false)) := by
  rw [show exec (.qget t gu gd gs 0 gt) s = execQget t gu gd gs 0 gt s from rfl, execQget, queueRun_of_go h]
  dsimp only
  rw [queueWait_of_go h, State.queues_decoded] <;> rfl

theorem exec_qdone_of_go (hstores : (s.twig t).stores = []) : exec (.qdone t gu gd gs 0 gt) s = .next ((s.decoded t).act t (.qdone t gu gd gs 0 gt) 2
    (match s.queues[q].cons with
     | none => stat t gd (if s.queues[q].consVoid then qVoid else qNotOpen) (s.decoded t)
     | some _ => stat t gd qOk ((s.decoded t).qDone q))) := by
  rw [show exec (.qdone t gu gd gs 0 gt) s = execQdone t gu gd gs 0 gt s from rfl, execQdone, queueRun_of_go h]
  dsimp only
  rw [queueWait_of_go h, stores_decoded_of_go h, hstores, State.queues_decoded]
  rfl

end

section

variable {s : State} {t : TwigId} {gu : PReg} {gs gt : GReg} {q : QueueId} (h : QueueGo s t gu gs gt .either q) (gd : GReg)
include h

theorem exec_qstat_of_go : exec (.qstat t gu gd gs 0 gt) s = .next ((s.decoded t).modTwig t (Twig.told gd
    (s.queues[q].statusWord (s.hasRole t q.val .prod) (s.hasRole t q.val .cons) 0))) := by
  rw [show exec (.qstat t gu gd gs 0 gt) s = execQstat t gu gd gs 0 gt s from rfl, execQstat, queueRun_of_go h]
  rw [State.hasRole_decoded, State.hasRole_decoded, State.queues_decoded, State.act_told]

end

/-! ### A command without its role (R344) -/

theorem queue_faults_of_no_role {i : Instr} {s : State} {t : TwigId} {gu : PReg} {gs gt : GReg} {need : Need} {eff : QueueId → State → Act}
    (hexec : exec i s = .next (queueRun i t gu gs 0 gt need eff s)) (hgo : TwigGo s t gu 2 [gs, gt]) (hplain : Plain s t) (hheld : s.tsbHeld t = false)
    (hno : 1024 ≤ ((s.twig t).reg gs).toNat ∨ s.hasRole t (((s.twig t).reg gs).toNat % 1024) need = false) :
    FaultsAt i s t .access (BitVec.ofNat 64 (2 ^ 63 + ((s.twig t).reg gs).toNat % 1024)) := by
  have hcond : (decide (1024 ≤ ((s.twig t).reg gs).toNat) || !s.hasRole t (((s.twig t).reg gs).toNat % 1024) need) = true := by
    rcases hno with hno | hno <;> simp [hno]
  refine faultsAt_of_decoded hplain.1 (s.decoded t).groves (hexec.trans (congrArg Host.Outcome.next ?_))
  refine (runTwig_of_go hgo (by omega) rfl rfl rfl (.inl hplain.1) (.inl hplain.2) _ _).trans ?_
  simp only [State.reg_decoded, State.hasRole_decoded, hcond, if_true]
  exact State.faultAt_of_not_held (by rw [State.tsbHeld_decoded, hheld]) _ _ _ _

/-! ### A closed and a freed packet -/

theorem ofNat_mod (n x : Nat) : BitVec.ofNat n (x % 2 ^ n) = BitVec.ofNat n x :=
  BitVec.eq_of_toNat_eq (by rw [BitVec.toNat_ofNat, BitVec.toNat_ofNat, Nat.mod_mod])

theorem State.modQueue_queue_ne (s : State) {q r : QueueId} (f : Queue → Queue) (h : r ≠ q) : (s.modQueue q f).queues[r] = s.queues[r] :=
  vmod_get_ne s.queues f h

section

variable {s : State} {t : TwigId} {gu : PReg} {gs gt : GReg} {need : Need} {q : QueueId} (h : QueueGo s t gu gs gt need q)
include h

theorem runsTo_closed {i : Instr} {gd : GReg} {v : Word} {o : OpenProd} (ho : s.queues[q].prod = some o) {typ tag : Nat}
    (hexec : exec i s = .next (((s.decoded t).qClose q (BitVec.ofNat 8 (typ % 2 ^ 8)) (BitVec.ofNat 32 (tag % 2 ^ 32))).modTwig t (Twig.told gd v))) :
    RunsTo i s fun s' =>
      (∃ p, p.words = o.words ∧ p.typ = BitVec.ofNat 8 typ ∧ p.tag = BitVec.ofNat 32 tag ∧ s'.queues[q].pending = s.queues[q].pending ++ [p]) ∧
        s'.queues[q].prod = none ∧ s'.queues[q].credits = s.queues[q].credits + (o.cap - o.words.length) ∧ s'.queues[q].cons = s.queues[q].cons ∧
        QueueTwig t gd v s s' ∧ OnlyQueue q s s' ∧
        OnlyTwig t s { s' with queues := s.queues, plots := s.plots, outbox := s.outbox, crownEvts := s.crownEvts, grafts := s.grafts } := by
  have ho' : (s.decoded t).queues[q].prod = some o := by rw [State.queues_decoded, ho]
  obtain ⟨tail, hnotices⟩ := State.qClose_notices ho' (BitVec.ofNat 8 (typ % 2 ^ 8)) (BitVec.ofNat 32 (tag % 2 ^ 32)) false
  generalize (s.decoded t).qClose q (BitVec.ofNat 8 (typ % 2 ^ 8)) (BitVec.ofNat 32 (tag % 2 ^ 32)) = s1 at hexec hnotices
  have hqueue : { s1.queues[q] with txBusy := s.queues[q].txBusy, txGrant := s.queues[q].txGrant } =
      s.queues[q].closed o (o.packet (BitVec.ofNat 8 (typ % 2 ^ 8)) (BitVec.ofNat 32 (tag % 2 ^ 32)) false) tail := by
    have hown := hnotices.own
    rw [State.modQueue_queue_self, State.queues_decoded] at hown
    exact hown
  have hframe : { s1 with queues := s.queues, plots := s.plots, outbox := s.outbox, crownEvts := s.crownEvts, grafts := s.grafts } = s.decoded t := by
    cases t <;> exact (congrArg (fun x : State => { x with queues := s.queues }) hnotices.frame :)
  have htwig : s1.twig t = (s.decoded t).twig t := by
    rw [← hframe]
    cases t <;> rfl
  have hqueues : (s1.modTwig t (Twig.told gd v)).queues = s1.queues := s1.modTwig_queues t _
  refine ⟨_, hexec, ⟨o.packet (BitVec.ofNat 8 (typ % 2 ^ 8)) (BitVec.ofNat 32 (tag % 2 ^ 32)) false, rfl, ?_, ?_, ?_⟩, ?_, ?_, ?_,
    queueTwig_told h.plain.1 htwig gd v, onlyQueue_of_forall_ne fun r hr => ?_, onlyTwig_decoded_modTwig (Twig.told gd v) ?_⟩
  · exact ofNat_mod 8 typ
  · exact ofNat_mod 32 tag
  · rw [hqueues]
    exact (congrArg Queue.pending hqueue :)
  · rw [hqueues]
    exact (congrArg Queue.prod hqueue :)
  · rw [hqueues]
    exact (congrArg Queue.credits hqueue :)
  · rw [hqueues]
    exact (congrArg Queue.cons hqueue :)
  · rw [hqueues, hnotices.queue r hr, State.modQueue_queue_ne _ _ hr, State.queues_decoded]
  · rw [← hframe]
    cases t <;> rfl

theorem runsTo_freed {i : Instr} {gd : GReg} {v : Word} {o : OpenCons} (ho : s.queues[q].cons = some o)
    (hexec : exec i s = .next (((s.decoded t).qDone q).modTwig t (Twig.told gd v))) :
    RunsTo i s fun s' => s'.queues[q] = { s.queues[q] with cons := none, credits := s.queues[q].credits + o.pkt.words.length + 1 } ∧
      QueueTwig t gd v s s' ∧ OnlyQueue q s s' ∧
      OnlyTwig t s { s' with queues := s.queues, ring := s.ring, grafts := s.grafts, outbox := s.outbox } := by
  obtain ⟨ring, grafts, hdone⟩ := State.qDone_eq (s := s.decoded t) (by rw [State.queues_decoded, ho])
  rw [hdone] at hexec
  refine ⟨_, hexec, ?_, queueTwig_told h.plain.1 (by cases t <;> rfl) gd v, onlyQueue_of_forall_ne fun r hr => ?_, onlyTwig_decoded_modTwig (Twig.told gd v) ?_⟩
  · rw [State.modTwig_queues]
    dsimp only
    rw [State.modQueue_queue_self, State.queues_decoded]
    rfl
  · rw [State.modTwig_queues]
    dsimp only
    rw [State.modQueue_queue_ne _ _ hr, State.queues_decoded]
  · cases t <;> rfl

end

/-! ### Answers that carry fields -/

theorem packWord_four (lo n v lo' n' v' lo2 n2 v2 lo3 n3 v3 : Nat) :
    packWord [(lo, n, v), (lo', n', v'), (lo2, n2, v2), (lo3, n3, v3)] =
      BitVec.ofNat 64 (v % 2 ^ n * 2 ^ lo + (v' % 2 ^ n' * 2 ^ lo' + (v2 % 2 ^ n2 * 2 ^ lo2 + v3 % 2 ^ n3 * 2 ^ lo3))) := by
  simp [packWord]

theorem packWord_five (lo n v lo' n' v' lo2 n2 v2 lo3 n3 v3 lo4 n4 v4 : Nat) :
    packWord [(lo, n, v), (lo', n', v'), (lo2, n2, v2), (lo3, n3, v3), (lo4, n4, v4)] =
      BitVec.ofNat 64 (v % 2 ^ n * 2 ^ lo + (v' % 2 ^ n' * 2 ^ lo' + (v2 % 2 ^ n2 * 2 ^ lo2 + (v3 % 2 ^ n3 * 2 ^ lo3 + v4 % 2 ^ n4 * 2 ^ lo4)))) := by
  simp [packWord]

theorem b2n_mod_two (b : Bool) : b2n b % 2 ^ 1 = b2n b := by cases b <;> rfl

theorem Packet.lengthWord_eq (p : Packet) : p.lengthWord = BitVec.ofNat 64 (p.words.length % 65536 + 2 ^ 16 * p.typ.toNat +
    2 ^ 24 * b2n (p.lenBad || p.words.any fun w => w.poison) + 2 ^ 32 * p.tag.toNat) := by
  have htyp : p.typ.toNat % 2 ^ 8 = p.typ.toNat := Nat.mod_eq_of_lt p.typ.isLt
  have htag : p.tag.toNat % 2 ^ 32 = p.tag.toNat := Nat.mod_eq_of_lt p.tag.isLt
  rw [Packet.lengthWord, packWord_four, htyp, htag, b2n_mod_two]
  refine congrArg (BitVec.ofNat 64) ?_
  omega

theorem Queue.statusWord_toNat (x : Queue) (isProd isCons : Bool) : (x.statusWord isProd isCons 0).toNat =
    x.credits % 2 ^ 17 + 2 ^ 17 * b2n (isProd && x.prod.isSome) + 2 ^ 18 * b2n (isCons && x.cons.isSome) + 2 ^ 32 * (x.pending.length % 2 ^ 17) := by
  have hle : ∀ b, b2n b ≤ 1 := fun b => by cases b <;> decide
  have hprod := hle (isProd && x.prod.isSome)
  have hcons := hle (isCons && x.cons.isSome)
  have herr : BitVec.toNat (0 : BitVec 4) % 2 ^ 4 = 0 := rfl
  rw [Queue.statusWord, packWord_five, b2n_mod_two, b2n_mod_two, herr, BitVec.toNat_ofNat]
  omega

theorem getLsbD_of_toNat {v : Word} {n k : Nat} {b : Bool} (h : v.toNat / 2 ^ n = b2n b + 2 * k) : v.getLsbD n = b := by
  rw [BitVec.getLsbD, Nat.testBit_eq_decide_div_mod_eq, h]
  cases b <;> simp [b2n]

end Sys2Proof.Machine

open Sys2Proof Sys2Proof.Machine Sys2Proof.Safety

/-- Settles O14: a command in its role by its `exec_..._of_go` and `runsTo_changed`, `runsTo_told` or `runsTo_stalled`, a close by
`State.qClose_notices`, a freed packet by `State.qDone_eq`, the fault by `queue_faults_of_no_role`. -/
theorem queueCommands : Obligations.QueueCommands := by
  unfold Obligations.QueueCommands
  refine ⟨⟨fun s t gu gd gs gt q h => ?qopen, fun s t gu gd gs gt q h => ?qput, fun s t gu gd gs gt q o h hstores ho => ?qclose⟩,
    ⟨fun s t gu gd gs gt q h => ?qtake, fun s t gu gd gs gt q h => ?qget, fun s t gu gd gs gt q h hstores => ?qdone, fun s t gu gd gs gt q h => ?qstat⟩,
    fun i s t gu gd gs gt need hi hgo hplain hheld hno => ?fault, fun s t gu gd gs gt hwaits => ?qopenWaits, fun s t gu gd gs gt hwaits => ?qtakeWaits⟩
  case qopen =>
    have hexec := exec_qopen_of_go h gd
    have hfit (hcap : ((s.twig t).reg gt).toNat % 8192 ≤ 4096) (hring : ((s.twig t).reg gt).toNat % 8192 + 1 ≤ s.ringWords q) :
        (decide (4096 < ((s.twig t).reg gt).toNat % 8192) || decide (s.ringWords q < ((s.twig t).reg gt).toNat % 8192 + 1)) = false := by
      rw [decide_eq_false (by omega), decide_eq_false (by omega), Bool.or_self]
    dsimp only
    refine ⟨fun hprod hcap hring hcredits => ?_, fun hprod => ?_, fun hprod hbig => ?_, fun hprod hcap hring hcredits => ?_⟩
    · rw [hprod, Option.isSome_none, if_neg Bool.false_ne_true, hfit hcap hring, if_neg Bool.false_ne_true, if_neg (by omega), stat, State.act_told] at hexec
      exact runsTo_changed h hexec
    · rw [if_pos (Option.isSome_iff_ne_none.mpr hprod), stat, State.act_told] at hexec
      exact runsTo_told h hexec
    · have hfull : (decide (4096 < ((s.twig t).reg gt).toNat % 8192) || decide (s.ringWords q < ((s.twig t).reg gt).toNat % 8192 + 1)) = true := by
        simpa using hbig
      rw [hprod, Option.isSome_none, if_neg Bool.false_ne_true, if_pos hfull, stat, State.act_told] at hexec
      exact runsTo_told h hexec
    · rw [hprod, Option.isSome_none, if_neg Bool.false_ne_true, hfit hcap hring, if_neg Bool.false_ne_true, if_pos hcredits] at hexec
      exact runsTo_stalled h hexec
  case qput =>
    have hexec := exec_qput_of_go h gd
    dsimp only
    refine ⟨fun o ho hroom => ?_, fun o ho hfull => ?_, fun hprod => ?_⟩
    · rw [ho] at hexec
      dsimp only at hexec
      rw [if_neg (by omega), stat, State.act_told] at hexec
      obtain ⟨s', hnext, hqueue, hframes⟩ := runsTo_changed h hexec
      refine ⟨s', hnext, ⟨qword ((s.twig t).reg gt) false, rfl, bad_qword _ _, ?_⟩, hframes⟩
      rw [hqueue, Queue.append, ho]
      rfl
    · rw [ho] at hexec
      dsimp only at hexec
      rw [if_pos hfull, stat, State.act_told] at hexec
      exact runsTo_told h hexec
    · rw [hprod] at hexec
      dsimp only at hexec
      rw [stat, State.act_told] at hexec
      cases hvoid : s.queues[q].prodVoid
      all_goals
        rw [hvoid] at hexec
        exact runsTo_told h hexec
  case qclose =>
    have hexec := exec_qclose_of_go h gd hstores ho
    have htype : typeBarred t (fieldAt ((s.twig t).reg gt) 16 8) = true ↔
        (∃ b, t = .bough b) ∧ 0x80 ≤ ((s.twig t).reg gt).toNat / 2 ^ 16 % 256 := by
      cases t with
      | bough b => exact decide_eq_true_iff.trans ⟨fun hlarge => ⟨⟨b, rfl⟩, hlarge⟩, And.right⟩
      | crown k => simp [typeBarred]
    dsimp only
    refine ⟨fun hbarred => ?_, fun hbarred => ?_⟩
    · rw [if_pos (htype.mpr hbarred), stat, State.act_told] at hexec
      exact runsTo_told h hexec
    · rw [if_neg (mt htype.mp hbarred), stat, State.act_told] at hexec
      exact runsTo_closed h ho hexec
  case qtake =>
    have hexec := exec_qtake_of_go h gd
    dsimp only
    simp only [← Packet.lengthWord_eq]
    refine ⟨fun p ps hcons hpending => ?_, fun o hcons => ?_, fun hcons hpending => ?_⟩
    · rw [hcons, hpending] at hexec
      dsimp only at hexec
      rw [State.act_told, State.qTake_of_pending (by rw [State.queues_decoded, hpending])] at hexec
      exact runsTo_changed h hexec
    · rw [hcons] at hexec
      dsimp only at hexec
      rw [State.act_told] at hexec
      exact runsTo_told h hexec
    · rw [hcons, hpending] at hexec
      exact runsTo_stalled h hexec
  case qget =>
    have hexec := exec_qget_of_go h gd
    dsimp only
    refine ⟨fun o w hcons hword hgood => ?_, fun o hcons hword => ?_, fun hcons => ?_⟩
    · have hparity : (w.parity != parityOf w.w) = false := (Bool.or_eq_false_iff.mp hgood).2
      rw [hcons] at hexec
      dsimp only at hexec
      rw [hword] at hexec
      dsimp only at hexec
      rw [hgood, if_neg Bool.false_ne_true, hparity, if_neg Bool.false_ne_true, State.act_told] at hexec
      obtain ⟨s', hnext, hqueue, hframes⟩ := runsTo_changed h hexec
      exact ⟨s', hnext, by rw [hqueue, hcons]; rfl, hframes⟩
    · rw [hcons] at hexec
      dsimp only at hexec
      rw [hword] at hexec
      dsimp only at hexec
      rw [stat, State.act_told] at hexec
      exact runsTo_told h hexec
    · rw [hcons] at hexec
      dsimp only at hexec
      rw [stat, State.act_told] at hexec
      exact runsTo_told h hexec
  case qdone =>
    have hexec := exec_qdone_of_go h gd hstores
    dsimp only
    refine ⟨fun o hcons => ?_, fun hcons => ?_⟩
    · rw [hcons] at hexec
      dsimp only at hexec
      rw [stat, State.act_told] at hexec
      exact runsTo_freed h hcons hexec
    · rw [hcons] at hexec
      dsimp only at hexec
      rw [stat, State.act_told] at hexec
      cases hvoid : s.queues[q].consVoid
      all_goals
        rw [hvoid] at hexec
        exact runsTo_told h hexec
  case qstat =>
    obtain ⟨s', hnext, hanswer, honly⟩ := runsTo_told h (exec_qstat_of_go h gd)
    have hword := s.queues[q].statusWord_toNat (s.hasRole t q.val .prod) (s.hasRole t q.val .cons)
    have hle : ∀ b, b2n b ≤ 1 := fun b => by cases b <;> decide
    have hprod := hle (s.hasRole t q.val .prod && s.queues[q].prod.isSome)
    have hcons := hle (s.hasRole t q.val .cons && s.queues[q].cons.isSome)
    refine ⟨s', hnext, ⟨_, hanswer, ?_, ?_, ?_, ?_, ?_⟩, honly⟩
    · rw [hword]
      omega
    · refine getLsbD_of_toNat (k := b2n (s.hasRole t q.val .cons && s.queues[q].cons.isSome) + 2 ^ 14 * (s.queues[q].pending.length % 2 ^ 17)) ?_
      rw [hword]
      omega
    · refine getLsbD_of_toNat (k := 2 ^ 13 * (s.queues[q].pending.length % 2 ^ 17)) ?_
      rw [hword]
      omega
    · rw [hword]
      omega
    · rw [hword]
      omega
  case fault =>
    rcases hi with ⟨rfl, rfl⟩ | ⟨rfl, rfl⟩ | ⟨rfl, rfl⟩ | ⟨rfl, rfl⟩ | ⟨rfl, rfl⟩ | ⟨rfl, rfl⟩ | ⟨rfl, rfl⟩
    all_goals exact queue_faults_of_no_role rfl hgo hplain hheld hno
  case qopenWaits => exact ⟨_, rfl, State.release_of_waitsAt hwaits rfl⟩
  case qtakeWaits => exact ⟨_, rfl, State.release_of_waitsAt hwaits rfl⟩

end

section
/-! SUPPORT. What sending flits on a graft port changes (chapter 18, R471 to R477); and the settling of O53. -/

namespace Sys2Proof.Machine

open Sys2Proof.Safety

/-! ### One port of the graft -/

theorem State.graft_modGraft_self (s : State) (n : PortId) (f : GraftPort → GraftPort) : (s.modGraft n f).grafts[n] = f s.grafts[n] :=
  vmod_get_self ..

theorem State.graft_modGraft_ne (s : State) {m n : PortId} (f : GraftPort → GraftPort) (h : m ≠ n) : (s.modGraft n f).grafts[m] = s.grafts[m] :=
  vmod_get_ne s.grafts f h

/-- From s to t: work of port n alone, with what it sends and the free values it draws. -/
def GraftWork (n : PortId) (s t : State) : Prop :=
  (∀ m, m ≠ n → t.grafts[m] = s.grafts[m]) ∧ { t with grafts := s.grafts, outbox := s.outbox, fresh := s.fresh } = s

namespace GraftWork

variable {n : PortId} {s t u : State}

theorem refl (n : PortId) (s : State) : GraftWork n s s := ⟨fun _ _ => rfl, rfl⟩

theorem trans (h : GraftWork n s t) (k : GraftWork n t u) : GraftWork n s u :=
  ⟨fun m hm => (k.1 m hm).trans (h.1 m hm),
    (congrArg (fun x : State => { x with grafts := s.grafts, outbox := s.outbox, fresh := s.fresh }) k.2 :).trans h.2⟩

theorem modGraft (s : State) (n : PortId) (f : GraftPort → GraftPort) : GraftWork n s (s.modGraft n f) :=
  ⟨fun _ => State.graft_modGraft_ne s f, rfl⟩

theorem emit (n : PortId) (s : State) (o : Output) : GraftWork n s (s.emit o) := ⟨fun _ _ => rfl, rfl⟩

theorem mem (h : GraftWork n s t) : t.mem = s.mem := (congrArg State.mem h.2 :)

end GraftWork

/-! ### Flits going out -/

/-- The port, but for the numbers, the flits not acknowledged and those that wait. -/
def GraftPort.unsent (p : GraftPort) : GraftPort :=
  { p with txSeq := 0, nakDue := false, unacked := [], txFlits := 0, waiting := [], served := 0 }

/-- From s to t port n sends flits and does nothing else. -/
structure FlitsOut (n : PortId) (s t : State) : Prop where
  work : GraftWork n s t
  own : t.grafts[n].unsent = s.grafts[n].unsent

namespace FlitsOut

variable {n : PortId} {s t u : State}

theorem refl (n : PortId) (s : State) : FlitsOut n s s := ⟨.refl n s, rfl⟩

theorem trans (h : FlitsOut n s t) (k : FlitsOut n t u) : FlitsOut n s u := ⟨h.work.trans k.work, k.own.trans h.own⟩

/-- A field of the port that sending does not touch is as it was. -/
theorem field {α : Type} (h : FlitsOut n s t) (f : GraftPort → α) (hf : ∀ p : GraftPort, f p.unsent = f p) : f t.grafts[n] = f s.grafts[n] := by
  rw [← hf, h.own, hf]

theorem modGraft {s : State} {n : PortId} {f : GraftPort → GraftPort} (h : (f s.grafts[n]).unsent = s.grafts[n].unsent) : FlitsOut n s (s.modGraft n f) :=
  ⟨.modGraft s n f, (congrArg GraftPort.unsent (State.graft_modGraft_self s n f)).trans h⟩

theorem emit (n : PortId) (s : State) (o : Output) : FlitsOut n s (s.emit o) := ⟨.emit n s o, rfl⟩

theorem sendFlit (s : State) (n : PortId) (kind : Nat) (ws : List Word) : FlitsOut n s (s.sendFlit n kind ws) :=
  (modGraft rfl).trans (.emit n _ _)

theorem sendIdle (s : State) (n : PortId) : FlitsOut n s (s.sendIdle n) := (modGraft rfl).trans (.emit n _ _)

theorem waitFlit (s : State) (n : PortId) (cls flow kind : Nat) (ws : List Word) : FlitsOut n s (s.waitFlit n cls flow kind ws) := modGraft rfl

theorem sendAuth (n : PortId) (part fuel off : Nat) (bs : List Byte) (s : State) : FlitsOut n s (s.sendAuth n part fuel off bs) := by
  induction fuel generalizing s off bs with
  | zero => exact .refl n s
  | succ fuel ih =>
    cases bs with
    | nil => exact .refl n s
    | cons b bs => exact (sendFlit s n fkAuth _).trans (ih _ _ _)

end FlitsOut

/-! ### Authentication begins -/

theorem draws_eq (k : Nat) (s : State) : (draws k s).2 = { s with fresh := s.fresh + k } := by
  induction k generalizing s with
  | zero => rfl
  | succ k ih =>
    refine (ih _).trans ?_
    simp only [State.draw, Nat.add_assoc, Nat.add_comm 1 k]

/-- A port whose authentication begins is as it was but for its state, its nonce and what it sent. -/
theorem State.enterAuth_flitsOut (s : State) (n : PortId) :
    FlitsOut n ((draws 6 s).2.modGraft n fun p => { p with st := .auth, ownNonce := (draws 6 s).1 }) (s.enterAuth n) := by
  unfold State.enterAuth
  exact (FlitsOut.sendAuth n 0 _ 0 _ _).trans (.sendAuth n 1 2 0 _ _)

theorem State.enterAuth_work (s : State) (n : PortId) : GraftWork n s (s.enterAuth n) := by
  have hdraw : GraftWork n s (draws 6 s).2 := by
    rw [draws_eq]
    exact ⟨fun _ _ => rfl, rfl⟩
  exact (hdraw.trans (.modGraft _ n _)).trans (s.enterAuth_flitsOut n).work

/-- The port, but for what sending touches, its state and its nonce. -/
def GraftPort.known (p : GraftPort) : GraftPort := { p.unsent with st := .auth, ownNonce := [] }

theorem FlitsOut.known {n : PortId} {s t : State} (h : FlitsOut n s t) : t.grafts[n].known = s.grafts[n].known :=
  (congrArg (fun p : GraftPort => { p with st := GraftSt.auth, ownNonce := [] }) h.own :)

theorem State.known_enterAuth (s : State) (n : PortId) : (s.enterAuth n).grafts[n].known = s.grafts[n].known := by
  rw [(s.enterAuth_flitsOut n).known, State.graft_modGraft_self, draws_eq]
  rfl

theorem State.st_enterAuth (s : State) (n : PortId) : (s.enterAuth n).grafts[n].st = .auth := by
  rw [(s.enterAuth_flitsOut n).field GraftPort.st fun _ => rfl, State.graft_modGraft_self]

theorem State.tryAuth_of_ready {s : State} {n : PortId} (hst : s.grafts[n].st = .hello) (hseen : s.grafts[n].helloSeen = true)
    (hacked : s.grafts[n].helloAcked = true) : s.tryAuth n = s.enterAuth n := by
  unfold State.tryAuth
  dsimp only
  rw [hst, hseen, hacked]
  rfl

theorem State.tryAuth_of_not_seen {s : State} {n : PortId} (h : s.grafts[n].helloSeen = false) : s.tryAuth n = s := by
  unfold State.tryAuth
  dsimp only
  rw [h, Bool.and_false, Bool.false_and]
  rfl

theorem State.tryAuth_of_not_acked {s : State} {n : PortId} (h : s.grafts[n].helloAcked = false) : s.tryAuth n = s := by
  unfold State.tryAuth
  dsimp only
  rw [h, Bool.and_false]
  rfl

/-! ### Beacons and training -/

theorem exec_graftBeaconRx_of_listen {s : State} {n : PortId} (hdrain : s.sys.mode ≠ .drain) (hdormant : s.sys.mode ≠ .dormant)
    (hst : s.grafts[n].st = .listen) : exec (.graftBeaconRx n) s = .next (s.setGraft n .train) := by
  have hentering : s.entering = false := by
    rw [State.entering, beq_eq_false_iff_ne.mpr hdrain]
    rfl
  rw [show exec (.graftBeaconRx n) s = execGraftBeaconRx n s from rfl, execGraftBeaconRx, beq_eq_false_iff_ne.mpr hdormant, hentering, hst]
  dsimp only
  rw [if_neg (c := (false || false) = true) (by decide), hst, hentering, bne_iff_ne.mpr hdormant]
  rfl

theorem exec_graftBeaconRx_of_not_listen {s : State} {n : PortId} (hdrain : s.sys.mode ≠ .drain) (hdormant : s.sys.mode ≠ .dormant)
    (hst : s.grafts[n].st ≠ .listen) : exec (.graftBeaconRx n) s = .next s := by
  have hentering : s.entering = false := by
    rw [State.entering, beq_eq_false_iff_ne.mpr hdrain]
    rfl
  rw [show exec (.graftBeaconRx n) s = execGraftBeaconRx n s from rfl, execGraftBeaconRx, beq_eq_false_iff_ne.mpr hdormant, hentering]
  dsimp only
  rw [if_neg (c := (false || false) = true) (by decide), beq_eq_false_iff_ne.mpr hst]
  exact ite_self _

/-- A port whose lanes have locked, with the polarity and the lane order that training found. -/
def GraftPort.trained (inverted : Word) (reversed : Bool) (p : GraftPort) : GraftPort :=
  { p.fresh .hello with locked := 0xff, inverted := inverted.truncate 8,
                        rxLane := Vector.ofFn fun i : Fin 8 => BitVec.ofNat 3 (if reversed then 7 - i.val else i.val) }

/-! ### HELLO -/

theorem packWord_three (lo n v lo' n' v' lo2 n2 v2 : Nat) :
    packWord [(lo, n, v), (lo', n', v'), (lo2, n2, v2)] = BitVec.ofNat 64 (v % 2 ^ n * 2 ^ lo + (v' % 2 ^ n' * 2 ^ lo' + v2 % 2 ^ n2 * 2 ^ lo2)) := by
  simp [packWord]

/-- The four words of R476. -/
theorem State.ownHello_eq (s : State) (n : PortId) : s.ownHello n =
    [BitVec.ofNat 64 (1 + 2 ^ 16 * n.val + 2 ^ 18 * (((s.grn.active.map fun g => g.rank)).getD 0 % 4)), Config.serial,
      (s.grn.active.map fun g => g.serial).getD 0, s.sys.bootId] := by
  have hn := n.isLt
  have hfirst : packWord [(0, 16, 1), (16, 2, n.val), (18, 2, s.rank)] =
      BitVec.ofNat 64 (1 + 2 ^ 16 * n.val + 2 ^ 18 * (s.rank % 4)) := by
    rw [packWord_three]
    refine congrArg (BitVec.ofNat 64) ?_
    omega
  rw [State.ownHello, hfirst]
  rfl

theorem exec_graftHelloTx_of_free {s : State} {n : PortId} (hst : s.grafts[n].st = .hello ∨ s.grafts[n].st = .up) (hwaiting : s.grafts[n].waiting = []) :
    exec (.graftHelloTx n) s = .next (s.sendFlit n fkHello (s.ownHello n)) := by
  rw [show exec (.graftHelloTx n) s = execGraftHelloTx n s from rfl, execGraftHelloTx, hwaiting]
  rcases hst with hst | hst <;> rw [hst] <;> rfl

theorem exec_graftHelloTx_of_waiting {s : State} {n : PortId} (hst : s.grafts[n].st = .hello ∨ s.grafts[n].st = .up) (hwaiting : s.grafts[n].waiting ≠ []) :
    exec (.graftHelloTx n) s = .next (s.waitFlit n 4 (flowOf 6 0) fkHello (s.ownHello n)) := by
  rw [show exec (.graftHelloTx n) s = execGraftHelloTx n s from rfl, execGraftHelloTx, List.isEmpty_eq_false_iff.mpr hwaiting]
  rcases hst with hst | hst <;> rw [hst] <;> rfl

/-- The port notes a HELLO of its peer. -/
def GraftPort.greeted (p : GraftPort) (port rank : BitVec 2) (serial image boot : Word) : GraftPort :=
  { p with rxSeq := p.rxSeq + 1, rxFlits := p.rxFlits + 1, helloSeen := true, peerPort := port, peerRank := rank, helloSerial := serial,
           peerImage := image, helloBoot := boot }

theorem State.modGraft_modGraft (s : State) (n : PortId) (f g : GraftPort → GraftPort) : (s.modGraft n f).modGraft n g = s.modGraft n (g ∘ f) := by
  unfold State.modGraft
  congr 1
  exact (vset_vset s.grafts n _ _).trans (congrArg (fun x => vset s.grafts n (g x)) (vmod_get_self s.grafts n f))

theorem State.modGraft_congr {s : State} {n : PortId} {f g : GraftPort → GraftPort} (h : f s.grafts[n] = g s.grafts[n]) : s.modGraft n f = s.modGraft n g :=
  congrArg (fun x => { s with grafts := vset s.grafts n x }) h

theorem exec_hello_of_hello {s : State} {n : PortId} (hst : s.grafts[n].st = .hello) (port rank : BitVec 2) (serial image boot : Word) :
    exec (.hello n 1 port rank serial image boot) s =
      .next (((s.modGraft n fun p => p.greeted port rank serial image boot).sendIdle n).tryAuth n) := by
  rw [show exec (.hello n 1 port rank serial image boot) s = execHello n 1 port rank serial image boot s from rfl, execHello,
    if_pos ⟨hst, rfl⟩, State.rxFlit, State.modGraft_modGraft]
  rfl

/-- A HELLO that the port takes in HELLO: the peer is noted, and authentication begins if this device's HELLO is acknowledged. -/
theorem exec_hello_greeted {s : State} {n : PortId} (hst : s.grafts[n].st = .hello) (port rank : BitVec 2) (serial image boot : Word) :
    ∃ t, exec (.hello n 1 port rank serial image boot) s = .next t ∧ GraftWork n s t ∧
      t.grafts[n].st = (if s.grafts[n].helloAcked then .auth else .hello) ∧
      t.grafts[n].known = (s.grafts[n].greeted port rank serial image boot).known := by
  have hexec := exec_hello_of_hello hst port rank serial image boot
  have hport := State.graft_modGraft_self s n fun p => p.greeted port rank serial image boot
  have hsent := FlitsOut.sendIdle (s.modGraft n fun p => p.greeted port rank serial image boot) n
  have hwork := (GraftWork.modGraft s n _).trans hsent.work
  have hown := hsent.own
  rw [hport] at hown
  set u := (s.modGraft n fun p => p.greeted port rank serial image boot).sendIdle n
  have hhello : u.grafts[n].st = .hello := (congrArg GraftPort.st hown :).trans hst
  have hknown : u.grafts[n].known = (s.grafts[n].greeted port rank serial image boot).known :=
    (congrArg (fun p : GraftPort => { p with st := GraftSt.auth, ownNonce := [] }) hown :)
  rcases hacked : s.grafts[n].helloAcked with _ | _
  · rw [State.tryAuth_of_not_acked ((congrArg GraftPort.helloAcked hown :).trans hacked)] at hexec
    exact ⟨u, hexec, hwork, hhello, hknown⟩
  · rw [State.tryAuth_of_ready hhello (congrArg GraftPort.helloSeen hown :) ((congrArg GraftPort.helloAcked hown :).trans hacked)] at hexec
    exact ⟨_, hexec, hwork.trans (u.enterAuth_work n), u.st_enterAuth n, (u.known_enterAuth n).trans hknown⟩

theorem exec_hello_of_other {s : State} {n : PortId} (hst : s.grafts[n].st = .hello) {v : BitVec 16} (hv : v ≠ 1) (port rank : BitVec 2)
    (serial image boot : Word) : exec (.hello n v port rank serial image boot) s = .next s := by
  rw [show exec (.hello n v port rank serial image boot) s = execHello n v port rank serial image boot s from rfl, execHello,
    if_neg fun h => hv h.2, if_neg (by rw [hst]; decide)]

/-! ### The acknowledgement of everything -/

theorem exec_graftIdle_of_hello {s : State} {n : PortId} {ack : BitVec 10} (hst : s.grafts[n].st = .hello)
    (hacked : ∀ f ∈ s.grafts[n].unacked, (ack - f.seq - 1).toNat < 512) (htx : s.grafts[n].txSeq ≠ 0) :
    exec (.graftIdle n ack) s = .next ((s.modGraft n fun p => { p with unacked := [], helloAcked := true }).tryAuth n) := by
  have hnone : (s.grafts[n].unacked.filter fun f => decide (512 ≤ (ack - f.seq - 1).toNat)) = [] :=
    List.filter_eq_nil_iff.mpr fun f hf => by simpa using hacked f hf
  have hlinked : s.grafts[n].linked = true := by
    unfold GraftPort.linked
    rw [hst]
  have hport : (GraftPort.ackTo s.grafts[n] ack) = { s.grafts[n] with unacked := [] } := by
    rw [GraftPort.ackTo, hnone]
  have hgraft : s.modGraft n ((fun p => { p with helloAcked := p.helloAcked || (p.st == .hello && p.txSeq != 0 && p.unacked.isEmpty) }) ∘
      fun p => p.ackTo ack) = s.modGraft n fun p => { p with unacked := [], helloAcked := true } := by
    refine State.modGraft_congr ?_
    have htxb : (s.grafts[n].txSeq != 0) = true := by simpa using htx
    simp only [Function.comp_apply]
    rw [hport, hst, htxb]
    simp
  rw [show exec (.graftIdle n ack) s = execGraftIdle n ack s from rfl, execGraftIdle, if_pos hlinked, State.afterAck, State.modGraft_modGraft, hgraft]

/-- The acknowledgement of everything that the port sent in HELLO: authentication begins if the peer's HELLO is in. -/
theorem exec_graftIdle_acked {s : State} {n : PortId} {ack : BitVec 10} (hst : s.grafts[n].st = .hello)
    (hacked : ∀ f ∈ s.grafts[n].unacked, (ack - f.seq - 1).toNat < 512) (htx : s.grafts[n].txSeq ≠ 0) :
    ∃ t, exec (.graftIdle n ack) s = .next t ∧ GraftWork n s t ∧ t.grafts[n].helloAcked = true ∧
      t.grafts[n].st = (if s.grafts[n].helloSeen then .auth else .hello) ∧ (s.grafts[n].helloSeen = false → t.grafts[n].unacked = []) := by
  have hexec := exec_graftIdle_of_hello hst hacked htx
  have hwork := GraftWork.modGraft s n fun p => { p with unacked := [], helloAcked := true }
  have hport := State.graft_modGraft_self s n fun p => { p with unacked := [], helloAcked := true }
  set u := s.modGraft n fun p => { p with unacked := [], helloAcked := true }
  have hacked : u.grafts[n].helloAcked = true := (congrArg GraftPort.helloAcked hport :)
  have hhello : u.grafts[n].st = .hello := (congrArg GraftPort.st hport :).trans hst
  rcases hseen : s.grafts[n].helloSeen with _ | _
  · rw [State.tryAuth_of_not_seen ((congrArg GraftPort.helloSeen hport :).trans hseen)] at hexec
    exact ⟨u, hexec, hwork, hacked, hhello, fun _ => (congrArg GraftPort.unacked hport :)⟩
  · rw [State.tryAuth_of_ready hhello ((congrArg GraftPort.helloSeen hport :).trans hseen) hacked] at hexec
    exact ⟨_, hexec, hwork.trans (u.enterAuth_work n), (congrArg GraftPort.helloAcked (u.known_enterAuth n) :).trans hacked, u.st_enterAuth n,
      fun h => Bool.noConfusion h⟩

end Sys2Proof.Machine

open Sys2Proof Sys2Proof.Machine Sys2Proof.Safety

/-- Settles O53: every clause is work of port n alone (`GraftWork`); what it sends leaves the rest of the port alone (`FlitsOut`). -/
theorem graftTraining : Obligations.GraftTraining := by
  unfold Obligations.GraftTraining
  intro s n p only fourWords
  have hset : ∀ f : GraftPort → GraftPort, only (s.modGraft n f) := GraftWork.modGraft s n
  refine ⟨fun hup hoff hmode => ?beacon, fun hst => ?silent, fun hdrain hdormant => ⟨fun hst => ?heard, fun hst => ?unheard⟩,
    fun hst => ⟨?lock, ?trainTimeout⟩, fun hst => ⟨?noLock, ?noTimeout⟩, fun hst => ?helloTimeout, fun hst => ?refusedTimeout, fun hst => ?notRefused,
    fun hst hwaiting hroom => ?helloTx, fun hst hwaiting => ?helloWaits,
    fun port rank serial image boot hst => ?greeted,
    fun ack hst hacked htx => ?idle⟩
  case beacon =>
    refine ⟨_, congrArg Host.Outcome.next (if_pos ?_), rfl⟩
    rw [bne_iff_ne.mpr hup, bne_iff_ne.mpr hoff, bne_iff_ne.mpr hmode]
    rfl
  case silent =>
    refine ⟨s, ?_, rfl⟩
    rw [show exec (.graftBeaconTx n) s = execGraftBeaconTx n s from rfl, execGraftBeaconTx]
    rcases hst with hst | hst <;> rw [hst] <;> rfl
  case heard =>
    refine ⟨_, exec_graftBeaconRx_of_listen hdrain hdormant hst, ?_, hset _⟩
    rw [State.setGraft, State.graft_modGraft_self, GraftPort.fresh]
  case unheard => exact ⟨s, exec_graftBeaconRx_of_not_listen hdrain hdormant hst, rfl⟩
  case lock =>
    have hport := State.graft_modGraft_self s.draw.2.drawBool.2 n (GraftPort.trained s.draw.1 s.draw.2.drawBool.1)
    refine ⟨_, if_pos hst, ?_, ?_, ?_, ?_, ?_, ?_, fun m => State.graft_modGraft_ne _ _, rfl⟩ <;> exact congrArg _ hport
  case trainTimeout =>
    refine ⟨s.setGraft n .listen, congrArg Host.Outcome.next (if_pos hst), ?_, hset _⟩
    rw [State.setGraft, State.graft_modGraft_self, GraftPort.fresh]
  case noLock => exact ⟨s, if_neg hst, rfl⟩
  case noTimeout => exact ⟨s, congrArg Host.Outcome.next (if_neg hst), rfl⟩
  case helloTimeout =>
    refine ⟨s.setGraft n .listen, congrArg Host.Outcome.next (if_pos hst), ?_, hset _⟩
    rw [State.setGraft, State.graft_modGraft_self, GraftPort.fresh]
  case refusedTimeout =>
    refine ⟨s.setGraft n .listen, congrArg Host.Outcome.next (if_pos hst), ?_, hset _⟩
    rw [State.setGraft, State.graft_modGraft_self, GraftPort.fresh]
  case notRefused => exact ⟨s, congrArg Host.Outcome.next (if_neg hst), rfl⟩
  case helloTx =>
    have hport : (s.sendFlit n fkHello (s.ownHello n)).grafts[n] = _ := State.graft_modGraft_self s n _
    refine ⟨_, exec_graftHelloTx_of_free hst hwaiting, ?_, (congrArg GraftPort.txSeq hport :), (congrArg GraftPort.st hport :), ?_,
      (congrArg GraftPort.txFlits hport :), (FlitsOut.sendFlit s n _ _).work⟩
    · rw [s.ownHello_eq n]
      rfl
    · rw [hport, show p.unacked.length + 1 - 512 = 0 by omega]
      exact List.map_append
  case helloWaits =>
    refine ⟨_, exec_graftHelloTx_of_waiting hst hwaiting, ⟨_, State.graft_modGraft_self s n _, rfl, rfl, s.ownHello_eq n⟩,
      fun m => State.graft_modGraft_ne s _, rfl⟩
  case greeted =>
    intro seen
    have hseen : ∀ t, GraftWork n s t → t.grafts[n].known = (p.greeted port rank serial image boot).known → seen t := fun t hwork hknown =>
      ⟨(congrArg GraftPort.peerPort hknown :), (congrArg GraftPort.peerRank hknown :), (congrArg GraftPort.helloSerial hknown :),
        (congrArg GraftPort.peerImage hknown :), (congrArg GraftPort.helloBoot hknown :), (congrArg GraftPort.helloSeen hknown :),
        (congrArg GraftPort.rxFlits hknown :), hwork⟩
    obtain ⟨t, hexec, hwork, hst', hknown⟩ := exec_hello_greeted hst port rank serial image boot
    exact ⟨fun hacked => ⟨t, hexec, hseen t hwork hknown, by rw [hst', hacked]; rfl⟩,
      fun hacked => ⟨t, hexec, hseen t hwork hknown, by rw [hst', hacked]; rfl⟩,
      fun v hv => ⟨s, exec_hello_of_other hst hv _ _ _ _ _, rfl⟩⟩
  case idle =>
    obtain ⟨t, hexec, hwork, hack, hst', hnone⟩ := exec_graftIdle_acked hst hacked htx
    exact ⟨t, hexec, hnone, hack, hst', hwork⟩

end

section
/-! SUPPORT. What the break of a link and the posting of an event leave of the graft ports, the links and the queues (R182, R188, R350, R370, R482). -/

namespace Sys2Proof.Machine

open Sys2Proof.Safety

/-! ### Flits that wait -/

/-- The port, but for the flits that wait. -/
def GraftPort.still (p : GraftPort) : GraftPort := { p with waiting := [] }

/-- From s to t the graft ports are as they were, but for flits that wait. -/
def WaitsOnly (s t : State) : Prop := ∀ m : PortId, t.grafts[m].still = s.grafts[m].still

namespace WaitsOnly

variable {s t u : State}

theorem of_grafts (h : t.grafts = s.grafts) : WaitsOnly s t := fun m => congrArg (fun v : Vector GraftPort 4 => v[m].still) h

theorem refl (s : State) : WaitsOnly s s := fun _ => rfl

theorem trans (h : WaitsOnly s t) (k : WaitsOnly t u) : WaitsOnly s u := fun m => (k m).trans (h m)

theorem foldl {α : Type} {f : State → α → State} (h : ∀ s a, WaitsOnly s (f s a)) (l : List α) (s : State) : WaitsOnly s (l.foldl f s) :=
  foldl_rel refl (fun _ _ _ => trans) h l s

theorem waitFlit (s : State) (n : PortId) (cls flow kind : Nat) (ws : List Word) : WaitsOnly s (s.waitFlit n cls flow kind ws) := fun m => by
  by_cases hm : m = n
  · subst hm
    unfold State.waitFlit
    rw [State.graft_modGraft_self]
    rfl
  · unfold State.waitFlit
    rw [State.graft_modGraft_ne s _ hm]

end WaitsOnly

/-! ### Links -/

/-- What a link is made of and whether it is broken, and by what. -/
def Link.fate (l : Link) : Word × Word × Bool × BitVec 4 := (l.w0, l.w1, l.broken, l.code)

/-- From s to t no link breaks or rearms, and the graft ports are as they were but for flits that wait. -/
structure Tears (s t : State) : Prop where
  fates : t.links.map Link.fate = s.links.map Link.fate
  ports : WaitsOnly s t

namespace Tears

variable {s t u : State}

theorem refl (s : State) : Tears s s := ⟨rfl, .refl s⟩

theorem trans (h : Tears s t) (k : Tears t u) : Tears s u := ⟨k.fates.trans h.fates, h.ports.trans k.ports⟩

theorem foldl {α : Type} {f : State → α → State} (h : ∀ s a, Tears s (f s a)) (l : List α) (s : State) : Tears s (l.foldl f s) :=
  foldl_rel refl (fun _ _ _ => trans) h l s

/-- A change of neither the links nor the ports. -/
theorem of_eq (hlinks : t.links = s.links) (hgrafts : t.grafts = s.grafts) : Tears s t := ⟨congrArg _ hlinks, .of_grafts hgrafts⟩

theorem modLink (s : State) (i : Nat) {f : Link → Link} (hf : ∀ l, (f l).fate = l.fate) : Tears s (s.modLink i f) := by
  refine ⟨?_, .refl s⟩
  show (lmod s.links i f).map Link.fate = _
  rw [lmod_eq_modify]
  refine List.ext_getElem (by simp) fun k _ _ => ?_
  rw [List.getElem_map, List.getElem_map, List.getElem_modify]
  split
  · exact hf _
  · rfl

theorem waitFlit (s : State) (n : PortId) (cls flow kind : Nat) (ws : List Word) : Tears s (s.waitFlit n cls flow kind ws) :=
  ⟨rfl, .waitFlit s n cls flow kind ws⟩

theorem modBough (s : State) (b : BoughId) (f : Bough → Bough) : Tears s (s.modBough b f) := of_eq rfl rfl

end Tears

theorem State.giveCredit_tears (s : State) (i k : Nat) : Tears s (s.giveCredit i k) := by
  unfold State.giveCredit
  split
  · exact .refl s
  · split_ifs
    · exact .refl s
    · exact .waitFlit s ..
    · exact .modLink s i fun _ => rfl

theorem Link.fate_passEpochs (l : Link) (es : List RxEpoch) : (l.passEpochs es).fate = l.fate := by
  induction es generalizing l with
  | nil => rfl
  | cons e es ih =>
    unfold Link.passEpochs
    dsimp only
    split
    · exact ih _
    · rfl

theorem State.leaveBuffer_tears (s : State) (i k : Nat) : Tears s (s.leaveBuffer i k) := by
  unfold State.leaveBuffer
  split
  · exact .refl s
  · split_ifs
    · exact .modLink s i fun l => by unfold Link.toBuffer; split; exacts [l.fate_passEpochs _, rfl]
    · exact s.giveCredit_tears i k

theorem State.sinkLinks_tears (s : State) (is : List Nat) : Tears s (s.sinkLinks is) := by
  have hdrop : ∀ (s : State) (i : Nat), Tears s (s.sinkDrop i) := by
    intro s i
    unfold State.sinkDrop
    split
    · exact .refl s
    · split_ifs
      · exact (Tears.modLink s i (f := fun l => { l with eps := sinkRx l.eps }) fun _ => rfl).trans (State.leaveBuffer_tears ..)
      · exact .refl s
  exact .foldl (fun s i => (Tears.modLink s i (f := fun l => if l.broken then l else { l with sink := true }) fun l => by split_ifs <;> rfl).trans (hdrop _ i)) is s

theorem abortSends_tears (xs : List SendSt) (s : State) : Tears s (abortSends xs s) := by
  have habort : ∀ (s : State) (i : Nat) (ep : BitVec 16), Tears s (s.sendDown i (.abort ep)) := by
    intro s i ep
    unfold State.sendDown
    split
    · exact .refl s
    next l _ =>
      by_cases hgraft : l.toGraft = true
      · rw [if_pos hgraft]
        exact .waitFlit s ..
      · rw [if_neg hgraft]
        exact .modLink s i fun _ => rfl
  induction xs generalizing s with
  | nil => exact .refl s
  | cons x xs ih =>
    refine Tears.trans ?_ (ih _)
    split
    · exact .refl s
    · split_ifs
      · exact .refl s
      · exact (Tears.modLink s x.link (f := fun l => { l with tx := l.tx.filter fun t => t.ep ≠ x.epoch }) fun _ => rfl).trans (habort ..)

theorem State.discardHalf_tears (s : State) (b : BoughId) (h : Fin 2) : Tears s (s.discardHalf b h) := by
  unfold State.discardHalf
  dsimp only
  split_ifs
  · exact (abortSends_tears _ s).trans (.modBough _ b _)
  · exact .refl s

theorem State.takeVFault_tears (s : State) (b : BoughId) (h : Fin 2) (cause : Cause) (elem : Nat) (addr : Word) :
    Tears s (s.takeVFault b h cause elem addr) := by
  have hone : ∀ (s : State) (ord : Nat) (k : Fin 2),
      Tears s (if (s.half b k).st == .filling && decide (ord ≤ (s.half b k).ord) then s.discardHalf b k else s) := by
    intro s ord k
    split_ifs
    · exact s.discardHalf_tears b k
    · exact .refl s
  have hdiscard : ∀ ord, Tears s (s.discardFrom b ord) := fun ord => (hone s ord 0).trans (hone _ ord 1)
  unfold State.takeVFault
  exact ((hdiscard _).trans (State.sinkLinks_tears ..)).trans (.modBough _ b _)

theorem State.breakBough_tears (s : State) (i : Nat) (l : Link) (code : BitVec 4) (b : BoughId) : Tears s (s.breakBough i l code b) := by
  have hsignal : ∀ (s : State) (h : Fin 2) (elem : Nat) (addr : Word), Tears s (s.signalBreak b h elem addr) := by
    intro s h elem addr
    unfold State.signalBreak
    split_ifs
    · exact s.takeVFault_tears ..
    · exact .of_eq rfl rfl
  have hhalf : ∀ (s : State) (h : Fin 2), Tears s (s.breakHalf i l code b h) := by
    intro s h
    unfold State.breakHalf
    dsimp only
    split_ifs
    · split
      · exact hsignal ..
      · split_ifs
        · exact .refl s
        · exact hsignal ..
      · exact .refl s
    · exact .refl s
  unfold State.breakBough
  split_ifs
  · exact (hhalf s 0).trans (hhalf _ 1)
  · exact (hhalf s 1).trans (hhalf _ 0)

theorem State.keepWhole_tears (s : State) (i : Nat) : Tears s (s.keepWhole i) := by
  have hrecvs : ∀ (s : State) (f : RecvSt → RecvSt), Tears s (s.modRecvs i f) := by
    intro s f
    unfold State.modRecvs
    split
    · exact .refl s
    · split_ifs
      · exact .refl s
      · exact .modBough s ..
  unfold State.keepWhole
  split
  · exact .refl s
  · refine (Tears.foldl (fun s e => ?_) _ s).trans (hrecvs ..)
    split
    · dsimp only
      split_ifs
      · exact (hrecvs ..).trans (.modLink _ i fun _ => rfl)
      · exact .refl s
    · exact .refl s

theorem State.custody_tears (s : State) (b : BoughId) (i : Nat) (p : SendSt → Bool) : Tears s (s.custody b i p) :=
  .of_eq (congrArg State.links (s.custody_frame b i p) :) (congrArg State.grafts (s.custody_frame b i p) :)

/-! ### A link that breaks -/

/-- The fate of a link that breaks with a code. -/
def torn (code : BitVec 4) (f : Word × Word × Bool × BitVec 4) : Word × Word × Bool × BitVec 4 := (f.1, f.2.1, true, code)

theorem State.fates_modLink (s : State) (i : Nat) {f : Link → Link} {g : Word × Word × Bool × BitVec 4 → Word × Word × Bool × BitVec 4}
    (h : ∀ l, (f l).fate = g l.fate) : (s.modLink i f).links.map Link.fate = (s.links.map Link.fate).modify i g := by
  show (lmod s.links i f).map Link.fate = _
  rw [lmod_eq_modify]
  refine List.ext_getElem (by simp) fun k _ _ => ?_
  rw [List.getElem_map, List.getElem_modify, List.getElem_modify, List.getElem_map]
  split
  · exact h _
  · rfl

theorem State.recordBreak_torn (s : State) (i : Nat) (code : BitVec 4) :
    (s.recordBreak i code).links.map Link.fate = (s.links.map Link.fate).modify i (torn code) ∧ WaitsOnly s (s.recordBreak i code) := by
  have hlinks : (s.recordBreak i code).links =
      (s.modLink i fun l => { l with broken := true, code := code, causes := l.causes ||| BitVec.ofNat 7 (2 ^ code.toNat) }).links := by
    unfold State.recordBreak
    dsimp only
    split
    · rfl
    · split
      · rfl
      · split_ifs <;> rfl
  have hgrafts : (s.recordBreak i code).grafts = s.grafts := by
    unfold State.recordBreak
    dsimp only
    split
    · rfl
    · split
      · rfl
      · split_ifs <;> rfl
  exact ⟨(congrArg _ hlinks).trans (s.fates_modLink i fun _ => rfl), .of_grafts hgrafts⟩

theorem State.breakLink_torn (s : State) (i : Nat) (code : BitVec 4) :
    (s.breakLink i code).links.map Link.fate = (s.links.map Link.fate).modify i (torn code) ∧ WaitsOnly s (s.breakLink i code) := by
  unfold State.breakLink
  split
  next hnone =>
    refine ⟨(List.modify_eq_self ?_).symm, .refl s⟩
    rw [List.length_map]
    exact List.getElem?_eq_none_iff.mp hnone
  next l _ =>
    split_ifs
    · exact s.recordBreak_torn i code
    all_goals
      obtain ⟨hfates, hports⟩ := (s.keepWhole i).recordBreak_torn i code
      rw [(s.keepWhole_tears i).fates] at hfates
      have hempty : Tears ((s.keepWhole i).recordBreak i code) _ :=
        .modLink _ i (f := fun l => { l with eps := [], relay := [], wire := [], back := [], tx := [], owed := 0, sink := false }) fun _ => rfl
      have hports := (s.keepWhole_tears i).ports.trans hports
    · exact ⟨hempty.fates.trans hfates, hports.trans hempty.ports⟩
    · have h := hempty.trans (State.breakBough_tears _ i l code (boughId l.dstBough))
      exact ⟨h.fates.trans hfates, hports.trans h.ports⟩
    · have h := (hempty.trans (State.breakBough_tears _ i l code (boughId l.srcBough))).trans (State.custody_tears _ (boughId l.srcBough) i fun _ => true)
      exact ⟨h.fates.trans hfates, hports.trans h.ports⟩
    · have h := ((hempty.trans (State.breakBough_tears _ i l code (boughId l.srcBough))).trans (State.custody_tears _ (boughId l.srcBough) i fun _ => true)).trans
        (State.breakBough_tears _ i l code (boughId l.dstBough))
      exact ⟨h.fates.trans hfates, hports.trans h.ports⟩

theorem State.breakLinks_waits (s : State) (p : Link → Bool) (code : BitVec 4) : WaitsOnly s (s.breakLinks p code) := by
  refine .foldl (fun s i => ?_) _ s
  split
  · split
    · exact (s.breakLink_torn i code).2
    · exact .refl s
  · exact .refl s

theorem foldl_modify_range {α : Type} (f : α → α) (l : List α) : (List.range l.length).foldl (fun l i => l.modify i f) l = l.map f := by
  have hprefix : ∀ n ≤ l.length, (List.range n).foldl (fun l i => l.modify i f) l = (l.take n).map f ++ l.drop n := by
    intro n hn
    induction n with
    | zero => rfl
    | succ n ih =>
      rw [List.range_succ, List.foldl_append, ih (by omega)]
      refine List.ext_getElem (by simp; omega) fun k _ _ => ?_
      simp only [List.foldl_cons, List.foldl_nil, List.getElem_modify, List.getElem_append, List.length_map, List.length_take]
      grind
  rw [hprefix l.length le_rfl, List.take_length, List.drop_length, List.append_nil]

theorem modify_congr {α : Type} {l : List α} {i : Nat} {f g : α → α} (h : ∀ x, l[i]? = some x → f x = g x) : l.modify i f = l.modify i g := by
  refine List.ext_getElem? fun k => ?_
  rw [List.getElem?_modify, List.getElem?_modify]
  by_cases hk : i = k
  · subst hk
    rcases hx : l[i]? with _ | x
    · rfl
    · simp [h x hx]
  · simp [hk]

/-- Each link of which p holds breaks with the code; no other does. -/
theorem State.breakLinks_torn (s : State) {p : Link → Bool} (code : BitVec 4) {q : Word × Word × Bool × BitVec 4 → Bool} (hp : ∀ l, p l = q l.fate) :
    (s.breakLinks p code).links.map Link.fate = (s.links.map Link.fate).map (fun f => if q f then torn code f else f) ∧
      WaitsOnly s (s.breakLinks p code) := by
  let step (s : State) (i : Nat) : State := match s.links[i]? with
    | some l => if p l then s.breakLink i code else s
    | none => s
  let tear (f : Word × Word × Bool × BitVec 4) : Word × Word × Bool × BitVec 4 := if q f then torn code f else f
  have hstep : ∀ (s : State) (i : Nat), (step s i).links.map Link.fate = (s.links.map Link.fate).modify i tear ∧ WaitsOnly s (step s i) := by
    intro s i
    unfold step
    rcases hl : s.links[i]? with _ | l
    · refine ⟨(List.modify_eq_self ?_).symm, .refl s⟩
      rw [List.length_map]
      exact List.getElem?_eq_none_iff.mp hl
    · have hfate : ∀ x, (s.links.map Link.fate)[i]? = some x → x = l.fate := fun x hx => by
        rw [List.getElem?_map, hl] at hx
        exact (Option.some.inj hx).symm
      dsimp only
      split
      next hpl =>
        refine ⟨(s.breakLink_torn i code).1.trans (modify_congr fun x hx => ?_), (s.breakLink_torn i code).2⟩
        rw [hfate x hx]
        exact (if_pos (hp l ▸ hpl)).symm
      next hpl =>
        refine ⟨((modify_congr fun x hx => ?_).trans (List.modify_id ..)).symm, .refl s⟩
        rw [hfate x hx]
        exact if_neg (hp l ▸ hpl)
  have hfold : ∀ (is : List Nat) (s : State), (is.foldl step s).links.map Link.fate = is.foldl (fun l i => l.modify i tear) (s.links.map Link.fate) ∧
      WaitsOnly s (is.foldl step s) := by
    intro is
    induction is with
    | nil => exact fun s => ⟨rfl, .refl s⟩
    | cons i is ih =>
      intro s
      obtain ⟨hfates, hports⟩ := ih (step s i)
      exact ⟨hfates.trans (by rw [(hstep s i).1]; rfl), (hstep s i).2.trans hports⟩
  obtain ⟨hfates, hports⟩ := hfold (List.range s.links.length) s
  refine ⟨hfates.trans ?_, hports⟩
  rw [← foldl_modify_range, List.length_map]

/-! ### Events -/

/-- From s to t ports may have more flits that wait, queues more pending packets, and the outbox more messages. -/
structure Tells (s t : State) : Prop where
  ports : WaitsOnly s t
  outbox : s.outbox <+: t.outbox
  pending : ∀ q : QueueId, s.queues[q].pending <+: t.queues[q].pending
  prod : ∀ q : QueueId, t.queues[q].prod = s.queues[q].prod

namespace Tells

variable {s t u : State}

theorem of_eq (hgrafts : t.grafts = s.grafts) (houtbox : t.outbox = s.outbox) (hqueues : t.queues = s.queues) : Tells s t where
  ports := .of_grafts hgrafts
  outbox := by rw [houtbox]
  pending q := by rw [hqueues]
  prod q := by rw [hqueues]

theorem refl (s : State) : Tells s s := .of_eq rfl rfl rfl

theorem trans (h : Tells s t) (k : Tells t u) : Tells s u where
  ports := h.ports.trans k.ports
  outbox := h.outbox.trans k.outbox
  pending q := (h.pending q).trans (k.pending q)
  prod q := (k.prod q).trans (h.prod q)

theorem foldl {α : Type} {f : State → α → State} (h : ∀ s a, Tells s (f s a)) (l : List α) (s : State) : Tells s (l.foldl f s) :=
  foldl_rel refl (fun _ _ _ => trans) h l s

theorem emit (s : State) (o : Output) : Tells s (s.emit o) where
  ports := .refl s
  outbox := List.prefix_append ..
  pending _ := List.prefix_rfl
  prod _ := rfl

theorem meter (s : State) (p : Option Nat) (f : Counters → Counters) : Tells s (s.meter p f) := by
  obtain ⟨plots, h⟩ := s.meter_eq p f
  exact h ▸ .of_eq rfl rfl rfl

theorem modQueue (s : State) (q : QueueId) {f : Queue → Queue} (hpending : (f s.queues[q]).pending = s.queues[q].pending)
    (hprod : (f s.queues[q]).prod = s.queues[q].prod) : Tells s (s.modQueue q f) := by
  have hone : ∀ r : QueueId, (s.modQueue q f).queues[r].pending = s.queues[r].pending ∧ (s.modQueue q f).queues[r].prod = s.queues[r].prod := fun r => by
    by_cases hr : r = q
    · subst hr
      rw [State.modQueue_queue_self]
      exact ⟨hpending, hprod⟩
    · rw [State.modQueue_queue_ne _ _ hr]
      exact ⟨rfl, rfl⟩
  exact ⟨.refl s, List.prefix_rfl, fun r => by rw [(hone r).1], fun r => (hone r).2⟩

end Tells

theorem State.sendQueueWords_tells (s : State) (n : PortId) (tag : BitVec 32) (pseq : BitVec 16) (fuel off : Nat) (ws : List (Word × Bool)) :
    Tells s (s.sendQueueWords n tag pseq fuel off ws) := by
  induction fuel generalizing s off ws with
  | zero => exact .refl s
  | succ fuel ih =>
    cases ws with
    | nil => exact .refl s
    | cons w ws => exact Tells.trans ⟨WaitsOnly.waitFlit s n _ _ _ _, List.prefix_rfl, fun _ => List.prefix_rfl, fun _ => rfl⟩ (ih ..)

theorem State.graftTrySend_tells (s : State) (q : QueueId) : Tells s (s.graftTrySend q) := by
  have hsent : ∀ grant : Queue → Nat, Tells s (s.modQueue q fun x => { x with txBusy := true, txGrant := grant x }) := fun grant => .modQueue s q rfl rfl
  unfold State.graftTrySend
  split
  · exact .refl s
  · split
    · split
      · exact .refl s
      · dsimp only
        split_ifs
        · exact ((hsent _).trans (.meter ..)).trans (State.sendQueueWords_tells ..)
        · exact .refl s
    · exact .refl s

theorem State.queueNotice_tells (s : State) (q : QueueId) : Tells s (s.queueNotice q) := by
  have hmsix : ∀ (fn : HostFn) (entry : Nat), Tells s (s.sendMsix fn entry) := by
    intro fn entry
    unfold State.sendMsix
    dsimp only
    split_ifs
    · exact .emit s _
    · exact .refl s
  unfold State.queueNotice
  split
  · exact .refl s
  · split
    · split
      · exact hmsix ..
      · exact .refl s
    · exact .of_eq rfl rfl rfl
    · exact s.graftTrySend_tells q
    · exact .refl s

/-- A close leaves the ports and the outbox as its notice does. -/
theorem State.qClose_outputs (s : State) (q : QueueId) (typ : BitVec 8) (tag : BitVec 32) (lenBad : Bool) :
    WaitsOnly s (s.qClose q typ tag lenBad) ∧ s.outbox <+: (s.qClose q typ tag lenBad).outbox := by
  have hnotice : ∀ (u : State) f, Tells u ((u.meter (s.queuePlot q) f).queueNotice q) := fun u f => (Tells.meter u _ f).trans (State.queueNotice_tells _ q)
  unfold State.qClose
  split
  · exact ⟨.refl s, List.prefix_rfl⟩
  · exact ⟨(hnotice (s.modQueue q _) _).ports, (hnotice (s.modQueue q _) _).outbox⟩

theorem State.postPacket_tells {s t : State} {q : QueueId} {typ : Nat} {ws : List Word} (h : s.postPacket q typ ws = some t) : Tells s t := by
  have hclosed : WaitsOnly s t ∧ s.outbox <+: t.outbox := by
    unfold State.postPacket at h
    dsimp only at h
    split at h
    · cases h
    · rw [← Option.some.inj h]
      exact State.qClose_outputs _ q (BitVec.ofNat 8 typ) 0 false
  have hfree : s.queues[q].prod = none ∧ ws.length + 1 ≤ s.queues[q].credits := by
    unfold State.postPacket at h
    dsimp only at h
    split at h
    · cases h
    next hbusy =>
      rw [Bool.or_eq_true, not_or, decide_eq_true_eq] at hbusy
      exact ⟨Option.not_isSome_iff_eq_none.mp hbusy.1, by omega⟩
  obtain ⟨t', k, tail, ht', -, -, -, hposted⟩ := State.postPacket_of_room hfree.1 hfree.2 typ
  obtain rfl := Option.some.inj (h.symm.trans ht')
  have hown := hposted.own
  rw [State.modQueue_queue_self] at hown
  have hqueue : ∀ r : QueueId, s.queues[r].pending <+: t.queues[r].pending ∧ t.queues[r].prod = s.queues[r].prod := fun r => by
    by_cases hr : r = q
    · subst hr
      have hpending : t.queues[r].pending = s.queues[r].pending ++ [k] := (congrArg Queue.pending hown :)
      have hprod : t.queues[r].prod = none := (congrArg Queue.prod hown :)
      exact ⟨hpending ▸ List.prefix_append .., hprod.trans hfree.1.symm⟩
    · rw [hposted.queue r hr, State.modQueue_queue_ne _ _ hr]
      exact ⟨List.prefix_rfl, rfl⟩
  exact ⟨hclosed.1, hclosed.2, fun r => (hqueue r).1, fun r => (hqueue r).2⟩

theorem State.plotEvent_tells (s : State) (p : PlotId) (code bough unit : Nat) (detail : Word) : Tells s (s.plotEvent p code bough unit detail) := by
  have hsend : ∀ (s : State) (e : PEvent), Tells s (s.sendEvent p e) := by
    intro s e
    unfold State.sendEvent
    split
    · exact .refl s
    · split
      · exact .refl s
      · split
        next t ht => exact State.postPacket_tells ht
        · exact .of_eq rfl rfl rfl
  unfold State.plotEvent
  dsimp only
  split_ifs
  · exact .refl s
  · exact .of_eq rfl rfl rfl
  · exact Tells.trans (t := s.modPlot p fun x => { x with events := x.events ||| BitVec.ofNat 8 (2 ^ (code - 1)) }) (.of_eq rfl rfl rfl) (hsend _ _)

end Sys2Proof.Machine
end

section
/-! SUPPORT. The authentication of a graft peer and the admission of items (R453, R454, R477, R478); and the settling of O54. -/

namespace Sys2Proof.Machine

open Sys2Proof.Safety

/-! ### A peer that is refused -/

/-- An event of the port sets its bit and may raise a notice. -/
theorem State.graftEvent_eq (s : State) (n : PortId) (bit : Nat) : ∃ evts, s.graftEvent n bit =
    { s.modGraft n fun p => { p with event := p.event ||| BitVec.ofNat 5 (2 ^ bit) } with crownEvts := evts } := by
  unfold State.graftEvent
  dsimp only
  split
  · exact State.notice_eq ..
  · exact ⟨_, rfl⟩

theorem getLsbD_ofNat_two_pow {w i j : Nat} (h : j < w) : (BitVec.ofNat w (2 ^ i)).getLsbD j = decide (i = j) := by
  rw [BitVec.getLsbD_ofNat, decide_eq_true h, Bool.true_and, Nat.testBit_two_pow]

theorem getLsbD_withBit {w i j : Nat} (x : BitVec w) (h : j < w) : (withBit x i).getLsbD j = (x.getLsbD j || decide (i = j)) := by
  rw [withBit, BitVec.getLsbD_or, getLsbD_ofNat_two_pow h]

theorem getLsbD_dropBit {w i j : Nat} (x : BitVec w) (h : j < w) : (dropBit x i).getLsbD j = (x.getLsbD j && !decide (i = j)) := by
  rw [dropBit, BitVec.getLsbD_and, BitVec.getLsbD_not, getLsbD_ofNat_two_pow h, decide_eq_true h, Bool.true_and]

theorem getLsbD_withBit_self {w i : Nat} (x : BitVec w) (h : i < w) : (withBit x i).getLsbD i = true := by
  rw [getLsbD_withBit x h, decide_eq_true rfl, Bool.or_true]

theorem getLsbD_dropBit_self {w i : Nat} (x : BitVec w) (h : i < w) : (dropBit x i).getLsbD i = false := by
  rw [getLsbD_dropBit x h, decide_eq_true rfl, Bool.not_true, Bool.and_false]

/-- From s to t port n has refused its peer: HWD_AUTH_LOG holds the port, the reason and the serial. -/
def Refused (n : PortId) (reason serial : Nat) (s t : State) : Prop :=
  t.grafts[n].st = .refused ∧ t.hwd.authFail = true ∧ t.grafts[n].event.getLsbD 1 = true ∧
    t.hwd.authLog = BitVec.ofNat 64 (n.val + 2 ^ 4 * reason + 2 ^ 32 * (serial % 2 ^ 32)) ∧
    (∀ m, m ≠ n → t.grafts[m] = s.grafts[m]) ∧ { t with grafts := s.grafts, hwd := s.hwd, crownEvts := s.crownEvts } = s

/-- The serial of a peer whose chain verifies. -/
def GraftPort.goodSerial (p : GraftPort) : Nat := if Config.chainVerifies p.rxChain then p.helloSerial.toNat else 0

theorem authLog_eq (n : PortId) {reason : Nat} (hreason : reason < 16) (serial : Nat) :
    packWord [(0, 2, n.val), (4, 4, reason), (32, 32, serial)] = BitVec.ofNat 64 (n.val + 2 ^ 4 * reason + 2 ^ 32 * (serial % 2 ^ 32)) := by
  have hn := n.isLt
  rw [packWord_three]
  refine congrArg (BitVec.ofNat 64) ?_
  omega

theorem State.refuse_refused (s : State) (n : PortId) {reason : Nat} (hreason : reason < 16) :
    Refused n reason s.grafts[n].goodSerial s (s.refuse n reason) := by
  let u : State := { s with hwd := { s.hwd with authFail := true, authLog := packWord [(0, 2, n.val), (4, 4, reason), (32, 32, s.grafts[n].goodSerial)],
                                                sigQueue := s.hwd.sigQueue.filter fun r => r != SigReq.graft n } }
  obtain ⟨evts, hnotice⟩ := u.notice_eq s.hwd.authFail "HWD_STATUS"
  obtain ⟨evts', hevent⟩ := ({ u with crownEvts := evts }.modGraft n fun p => { p with st := .refused }).graftEvent_eq n 1
  have heq : s.refuse n reason = _ := (congrArg (fun x : State => (x.modGraft n fun p => { p with st := .refused }).graftEvent n 1) hnotice).trans
    (hevent.trans (congrArg (fun x : State => { x with crownEvts := evts' }) (State.modGraft_modGraft ..)))
  have hport := u.graft_modGraft_self n ((fun p => { p with event := p.event ||| BitVec.ofNat 5 (2 ^ 1) }) ∘ fun p => { p with st := .refused })
  rw [heq]
  exact ⟨congrArg GraftPort.st hport, rfl, (congrArg (fun p : GraftPort => p.event.getLsbD 1) hport).trans (getLsbD_withBit_self _ (by decide)),
    authLog_eq n hreason _, fun m => u.graft_modGraft_ne _, rfl⟩

/-- The same when the port's own state was changed before. -/
theorem State.refuse_modGraft (s : State) (n : PortId) (f : GraftPort → GraftPort) {reason : Nat} (hreason : reason < 16) :
    Refused n reason (f s.grafts[n]).goodSerial s ((s.modGraft n f).refuse n reason) := by
  obtain ⟨hst, hfail, hevent, hlog, hothers, hframe⟩ := (s.modGraft n f).refuse_refused n hreason
  rw [State.graft_modGraft_self] at hlog
  exact ⟨hst, hfail, hevent, hlog, fun m hm => (hothers m hm).trans (s.graft_modGraft_ne f hm),
    (congrArg (fun x : State => { x with grafts := s.grafts }) hframe :)⟩

/-! ### AUTH (R453, R472) -/

/-- The port after a good flit. -/
def GraftPort.heard (p : GraftPort) : GraftPort := { p with rxSeq := p.rxSeq + 1, rxFlits := p.rxFlits + 1 }

/-- The port after a part of the peer's nonce and owner digest. -/
def GraftPort.nonced (bs : List Byte) (p : GraftPort) : GraftPort := { p.heard with rxNonce := p.rxNonce ++ bs }

/-- The port after a part of the peer's signature. -/
def GraftPort.signed (bs : List Byte) (p : GraftPort) : GraftPort := { p.heard with rxSig := p.rxSig ++ bs }

section

variable {s : State} {n : PortId} (hst : s.grafts[n].st = .auth) (off : BitVec 16) (bs : List Byte)
include hst

theorem execAuth_chain_of_next (h : off.toNat = s.grafts[n].rxChain.length) :
    exec (.auth n 0 off bs) s = .next (s.modGraft n fun p => { p.heard with rxChain := p.rxChain ++ bs }) := by
  rw [show exec (.auth n 0 off bs) s = execAuth n 0 off bs s from rfl, execAuth, if_neg (by rw [hst]; decide)]
  exact congrArg Host.Outcome.next ((if_pos h).trans (State.modGraft_modGraft ..))

theorem execAuth_chain_of_other (h : off.toNat ≠ s.grafts[n].rxChain.length) :
    exec (.auth n 0 off bs) s = .next (s.modGraft n GraftPort.heard) := by
  rw [show exec (.auth n 0 off bs) s = execAuth n 0 off bs s from rfl, execAuth, if_neg (by rw [hst]; decide)]
  exact congrArg Host.Outcome.next (if_neg h)

theorem execAuth_nonce (hoff : off.toNat = s.grafts[n].rxNonce.length) (hlen : s.grafts[n].rxNonce.length + bs.length ≤ 96) :
    exec (.auth n 1 off bs) s = .next (if s.grafts[n].rxNonce.length + bs.length = 96 then (s.modGraft n (.nonced bs)).checkPeer n
      else s.modGraft n (.nonced bs)) := by
  rw [show exec (.auth n 1 off bs) s = execAuth n 1 off bs s from rfl, execAuth, if_neg (by rw [hst]; decide)]
  refine (if_pos ⟨hoff, hlen⟩).trans ?_
  dsimp only
  rw [State.rxFlit, State.modGraft_modGraft]
  rfl

theorem execAuth_sig (hoff : off.toNat = s.grafts[n].rxSig.length) (hlen : s.grafts[n].rxSig.length + bs.length = 96) (hnonce : s.grafts[n].rxNonce.length = 96) :
    exec (.auth n 2 off bs) s = .next (if Config.ecdsaVerify (Config.chainKey s.grafts[n].rxChain) (s.peerMsg n) (s.grafts[n].rxSig ++ bs)
      then (s.modGraft n (.signed bs)).tryAdmit n else (s.modGraft n (.signed bs)).refuse n 2) := by
  have hport := s.graft_modGraft_self n (.signed bs)
  have hmsg : (s.modGraft n (.signed bs)).peerMsg n = s.peerMsg n := by
    unfold State.peerMsg
    rw [hport]
    rfl
  rw [show exec (.auth n 2 off bs) s = execAuth n 2 off bs s from rfl, execAuth, if_neg (by rw [hst]; decide)]
  refine (if_pos ⟨hoff, le_of_eq hlen, hnonce⟩).trans ((if_pos hlen).trans ?_)
  have hmod : (s.rxFlit n).modGraft n (fun p => { p with rxSig := p.rxSig ++ bs }) = s.modGraft n (.signed bs) :=
    State.modGraft_modGraft ..
  rw [hmod, hmsg, hport]
  rfl

end

/-- What the check of the peer's chain and owner digest finds (R454). -/
theorem State.checkPeer_refused_chain {s : State} {n : PortId} (h : Config.chainVerifies s.grafts[n].rxChain = false) : s.checkPeer n = s.refuse n 1 := by
  unfold State.checkPeer
  dsimp only
  rw [h]
  rfl

theorem State.checkPeer_refused_owner {s : State} {n : PortId} (h : Config.chainVerifies s.grafts[n].rxChain = true)
    (howner : s.ownerDigest ≠ some (s.grafts[n].rxNonce.drop 48)) : s.checkPeer n = s.refuse n 3 := by
  unfold State.checkPeer
  dsimp only
  rw [h, bne_iff_ne.mpr howner]
  rfl

theorem State.checkPeer_good {s : State} {n : PortId} (h : Config.chainVerifies s.grafts[n].rxChain = true)
    (howner : s.ownerDigest = some (s.grafts[n].rxNonce.drop 48)) (hpwr : s.sys.pwrFail = false) (hengine : s.hwd.engine = none) :
    s.checkPeer n = { s with hwd := { s.hwd with engine := some (.graft n) } } := by
  unfold State.checkPeer State.requestSig
  dsimp only
  rw [h, bne_eq_false_iff_eq.mpr howner, hpwr, hengine]
  rfl

theorem exec_auth_of_not_auth {s : State} {n : PortId} (hst : s.grafts[n].st ≠ .auth) (part : BitVec 4) (off : BitVec 16) (bs : List Byte) :
    exec (.auth n part off bs) s = .next s := if_pos (bne_iff_ne.mpr hst)

/-! ### Both signatures good (R457, R477) -/

theorem FlitsOut.sendAdmit (n : PortId) (fuel : Nat) (is : List GraftItem) (s : State) : FlitsOut n s (s.sendAdmit n fuel is) := by
  induction fuel generalizing s is with
  | zero => exact .refl n s
  | succ fuel ih =>
    unfold State.sendAdmit
    dsimp only
    split_ifs
    · exact .sendFlit s n fkAdmit _
    · exact (FlitsOut.sendFlit s n fkAdmit _).trans (ih _ _)

theorem State.tryUp_of_not_last {s : State} {n : PortId} (h : s.grafts[n].admitLast = false) : s.tryUp n = s := by
  unfold State.tryUp
  dsimp only
  rw [h, Bool.and_false]
  rfl

theorem State.tryUp_of_not_admitting {s : State} {n : PortId} (h : s.grafts[n].st ≠ .admitting) : s.tryUp n = s := by
  unfold State.tryUp
  dsimp only
  rw [beq_eq_false_iff_ne.mpr h]
  rfl

theorem State.tryAdmit_of_not_sent {s : State} {n : PortId} (h : s.grafts[n].authSent = false) : s.tryAdmit n = s := by
  unfold State.tryAdmit
  dsimp only
  rw [h, Bool.and_false]
  rfl

/-- The port once both signatures are good. -/
def GraftPort.trusted (p : GraftPort) : GraftPort := { p with st := .admitting, peerSerial := p.helloSerial, peerBoot := p.helloBoot, admitSent := true }

/-- Both signatures good: the peer's serial and BOOT_ID are noted and the ADMIT list goes out. -/
theorem State.tryAdmit_of_both {s : State} {n : PortId} (hst : s.grafts[n].st = .auth) (hsent : s.grafts[n].authSent = true)
    (hlen : s.grafts[n].rxSig.length = 96) (hlast : s.grafts[n].admitLast = false) :
    FlitsOut n ({ s with hwd := { s.hwd with graftAuth := withBit s.hwd.graftAuth n.val } }.modGraft n GraftPort.trusted) (s.tryAdmit n) := by
  set u : State := { s with hwd := { s.hwd with graftAuth := withBit s.hwd.graftAuth n.val } }.modGraft n GraftPort.trusted with hu
  have hcond : (s.grafts[n].st == .auth && s.grafts[n].authSent && s.grafts[n].rxSig.length == 96) = true := by
    rw [hst, hsent, hlen]
    rfl
  have hflits := FlitsOut.sendAdmit n ((u.graftItems n).length + 1) (u.graftItems n) u
  have heq : s.tryAdmit n = (u.sendAdmit n ((u.graftItems n).length + 1) (u.graftItems n)).tryUp n := if_pos hcond
  have hnot : (u.sendAdmit n ((u.graftItems n).length + 1) (u.graftItems n)).grafts[n].admitLast = false := by
    rw [hflits.field GraftPort.admitLast fun _ => rfl, hu, State.graft_modGraft_self]
    exact hlast
  rw [heq, State.tryUp_of_not_last hnot]
  exact hflits

/-! ### Items (R478, R479) -/

theorem State.refuseItem_waits (s : State) (n : PortId) (i : GraftItem) : WaitsOnly s (s.refuseItem n i) := by
  unfold State.refuseItem
  split
  · exact s.breakLinks_waits _ 4
  · split
    · exact s.breakLinks_waits _ 4
    · split
      · exact (s.plotEvent_tells ..).ports
      · exact .refl s

theorem State.rearmAdmitted_waits (s : State) (n : PortId) : WaitsOnly s (s.rearmAdmitted n) := by
  have hrearm : ∀ (s : State) (i : Nat), WaitsOnly s (s.rearmLink i) := by
    intro s i
    unfold State.rearmLink
    split
    · exact .refl s
    · exact (State.giveCredit_tears _ i _).ports
  refine .foldl (fun s i => ?_) _ s
  split
  · split
    · exact hrearm s _
    · exact .refl s
  · exact .refl s

theorem State.grantQueue_waits (s : State) (n : PortId) (i : GraftItem) : WaitsOnly s (s.grantQueue n i) := by
  unfold State.grantQueue
  split
  · refine .foldl (fun s q => ?_) _ s
    split
    · split
      · exact WaitsOnly.waitFlit s n _ _ _ _
      · exact .refl s
    · exact .refl s
  · exact .refl s

/-- The port that has matched the items `is` with its peer's list. -/
def GraftPort.matched (p : GraftPort) (good bad : List GraftItem) : GraftPort :=
  { p with tags := p.tags ++ good.map (fun i => (i.tag, i.role)), admitted := BitVec.ofNat 16 good.length, refused := BitVec.ofNat 16 bad.length,
           lastTag := (bad.getLast?.map (·.tag)).getD p.lastTag }

theorem State.admitItems_waits (s : State) (n : PortId) (is : List GraftItem) :
    WaitsOnly (s.modGraft n fun p => p.matched (is.filter (s.grafts[n].matchesItem s.rank)) (is.filter fun i => !s.grafts[n].matchesItem s.rank i))
      (s.admitItems n is) :=
  ((WaitsOnly.foldl (fun s i => s.refuseItem_waits n i) _ _).trans (State.rearmAdmitted_waits _ n)).trans
    (WaitsOnly.foldl (fun s i => s.grantQueue_waits n i) _ _)

/-- The PSEQ counts of the port's queues that restart are in the queues alone (R481). -/
theorem State.restartCounts_eq (s : State) (n : PortId) : ∃ queues, (List.finRange 1024).foldl (fun (s : State) q => match s.queueRec q.val with
      | some r => if recProd r == .graft n.val || recCons r == .graft n.val then s.modQueue q fun x => { x with txPseq := 0, rxClosed := none } else s
      | none => s) s = { s with queues := queues } := by
  refine foldl_rel (R := fun s t => ∃ queues, t = { s with queues := queues }) (fun s => ⟨s.queues, rfl⟩) ?_ (fun s q => ?_) _ s
  · rintro s _ _ ⟨queues, rfl⟩ ⟨queues', rfl⟩
    exact ⟨queues', rfl⟩
  · split
    · split
      · exact ⟨_, rfl⟩
      · exact ⟨s.queues, rfl⟩
    · exact ⟨s.queues, rfl⟩

/-- The port after the PSEQ counts have restarted: what it knows of its peer stays (R481). -/
theorem State.freshPseq_port (s : State) (n : PortId) :
    ∃ boots queues, s.freshPseq n = { s.modGraft n fun p => { p with lastBoots := boots } with queues := queues } := by
  unfold State.freshPseq
  dsimp only
  split
  · refine ⟨s.grafts[n].lastBoots, s.queues, ?_⟩
    exact (congrArg (fun v => { s with grafts := v }) (vmod_same s.grafts n (fun p => { p with lastBoots := s.grafts[n].lastBoots }) rfl)).symm
  · obtain ⟨queues, hqueues⟩ := s.restartCounts_eq n
    exact ⟨_, queues, congrArg (fun x : State => x.modGraft n fun p => { p with lastBoots := some (s.sys.bootId, s.grafts[n].helloBoot) }) hqueues⟩

/-- Both lists have ended: the items are matched with what the peer lists, and the port is UP. -/
theorem State.tryUp_matches {s : State} {n : PortId} (hst : s.grafts[n].st = .admitting) (hsent : s.grafts[n].admitSent = true)
    (hlast : s.grafts[n].admitLast = true) :
    let has (i : GraftItem) : Bool := s.grafts[n].matchesItem s.rank i
    let t := s.tryUp n
    t.grafts[n].st = .up ∧ t.grafts[n].admitted = BitVec.ofNat 16 ((s.graftItems n).countP has) ∧
      t.grafts[n].refused = BitVec.ofNat 16 ((s.graftItems n).countP fun i => !has i) ∧
      t.grafts[n].tags = ((s.graftItems n).filter has).map (fun i => (i.tag, i.role)) := by
  intro has t
  obtain ⟨boots, queues, hfresh⟩ := s.freshPseq_port n
  set u : State := (s.freshPseq n).modGraft n fun p => { p with st := .up, tags := [], admitSent := false } with hu
  have ht : t = u.admitItems n (s.graftItems n) := by
    have hcond : (s.grafts[n].st == .admitting && s.grafts[n].admitSent && s.grafts[n].admitLast) = true := by
      rw [hst, hsent, hlast]
      rfl
    have hitems : u.graftItems n = s.graftItems n := by
      rw [hu, hfresh]
      rfl
    rw [← hitems]
    exact if_pos hcond
  have hport : u.grafts[n] = { s.grafts[n] with lastBoots := boots, st := .up, tags := [], admitSent := false } := by
    rw [hu, State.graft_modGraft_self, hfresh]
    exact congrArg (fun p : GraftPort => { p with st := .up, tags := [], admitSent := false }) (s.graft_modGraft_self n _)
  have hrank : u.rank = s.rank := by
    rw [hu, hfresh]
    rfl
  have hstill := u.admitItems_waits n (s.graftItems n) n
  rw [State.graft_modGraft_self, hport, hrank, ← ht] at hstill
  have hmatch : GraftPort.matchesItem { s.grafts[n] with lastBoots := boots, st := .up, tags := [], admitSent := false } s.rank = has := rfl
  rw [hmatch] at hstill
  refine ⟨(congrArg GraftPort.st hstill :), (congrArg GraftPort.admitted hstill :).trans ?_, (congrArg GraftPort.refused hstill :).trans ?_,
    (congrArg GraftPort.tags hstill :)⟩
  · rw [List.countP_eq_length_filter]
    rfl
  · rw [List.countP_eq_length_filter]
    rfl

/-! ### ADMIT (R472, R478, R483) -/

/-- The port after an ADMIT flit. -/
def GraftPort.listed (p : GraftPort) (last : Bool) (es : List AdmitEntry) : GraftPort :=
  { p.heard with peerAdmit := p.peerAdmit ++ es, admitLast := last }

theorem exec_admitList {s : State} {n : PortId} {last : Bool} {es : List AdmitEntry}
    (hst : s.grafts[n].st = .auth ∨ s.grafts[n].st = .admitting ∨ s.grafts[n].st = .up) :
    let u := s.modGraft n fun p => p.listed last es
    exec (.admitList n last es) s = .next (if s.grafts[n].st == .up then (if last then u.admitAgain n else u) else u.tryUp n) := by
  have hcond : (s.grafts[n].st == .auth || s.grafts[n].st == .admitting || s.grafts[n].st == .up) = true := by
    rcases hst with hst | hst | hst <;> rw [hst] <;> rfl
  have hmod : (s.rxFlit n).modGraft n (fun p => { p with peerAdmit := p.peerAdmit ++ es, admitLast := last }) = s.modGraft n fun p => p.listed last es :=
    State.modGraft_modGraft ..
  rw [show exec (.admitList n last es) s = execAdmit n last es s from rfl, execAdmit, if_pos hcond, hmod]

/-- A list that is not the last thing the port waits for is noted alone. -/
theorem exec_admitList_noted {s : State} {n : PortId} {last : Bool} {es : List AdmitEntry}
    (hst : s.grafts[n].st = .auth ∨ (s.grafts[n].st = .admitting ∧ last = false) ∨ (s.grafts[n].st = .up ∧ last = false)) :
    exec (.admitList n last es) s = .next (s.modGraft n fun p => p.listed last es) := by
  have hport := s.graft_modGraft_self n fun p => p.listed last es
  rcases hst with hst | ⟨hst, rfl⟩ | ⟨hst, rfl⟩
  · rw [exec_admitList (.inl hst), hst, State.tryUp_of_not_admitting (by rw [hport]; exact fun h => nomatch hst.symm.trans h)]
    rfl
  · rw [exec_admitList (.inr (.inl hst)), hst, State.tryUp_of_not_last (congrArg GraftPort.admitLast hport)]
    rfl
  · rw [exec_admitList (.inr (.inr hst)), hst]
    rfl

theorem exec_admitList_last {s : State} {n : PortId} {es : List AdmitEntry} (hst : s.grafts[n].st = .admitting) :
    exec (.admitList n true es) s = .next ((s.modGraft n fun p => p.listed true es).tryUp n) := by
  rw [exec_admitList (.inr (.inl hst)), hst]
  rfl

theorem GraftPort.matchesItem_eq (p : GraftPort) (rank : Nat) (i : GraftItem) : p.matchesItem rank i =
    (p.peerAdmit.any (fun e => e.tag == i.tag && e.role.toNat == (if i.role % 2 = 0 then i.role + 1 else i.role - 1)) &&
      (if i.role = 0 then decide (rank < p.peerRank.toNat) else if i.role = 1 then decide (p.peerRank.toNat < rank) else true)) := by
  unfold GraftPort.matchesItem
  refine congrArg (and _) ?_
  split
  next h => rw [if_pos h]
  next h => rw [if_neg (by omega), if_pos h]
  next h0 h1 => rw [if_neg h0, if_neg h1]

theorem exec_admitList_of_other {s : State} {n : PortId} {last : Bool} {es : List AdmitEntry}
    (hst : s.grafts[n].st = .listen ∨ s.grafts[n].st = .off ∨ s.grafts[n].st = .refused) : exec (.admitList n last es) s = .next s := by
  rw [show exec (.admitList n last es) s = execAdmit n last es s from rfl, execAdmit]
  rcases hst with hst | hst | hst <;> rw [hst] <;> rfl

end Sys2Proof.Machine

open Sys2Proof Sys2Proof.Machine Sys2Proof.Safety

/-- Settles O54: a refusal is `State.refuse_refused`, the way to ADMIT `State.tryAdmit_of_both`, the way to UP `State.tryUp_matches`. -/
theorem graftAuthentication : Obligations.GraftAuthentication := by
  unfold Obligations.GraftAuthentication
  intro s n p refused good
  refine ⟨fun hst => ⟨fun off bs => ⟨fun h => ?chain, fun h => ?other⟩, fun off bs hoff hlen => ?nonce, fun off bs hoff hlen => ?checked,
    fun off bs hoff hlen hnonce => ?signature, ?timeout⟩, fun hst => ⟨?late, fun part off bs => ⟨s, exec_auth_of_not_auth hst part off bs, rfl⟩⟩,
    fun last es hst => ?listed, fun es hst hsent => ?admitted, fun last es hst => ⟨s, exec_admitList_of_other hst, rfl⟩⟩
  case chain => exact ⟨_, execAuth_chain_of_next hst off bs h, s.graft_modGraft_self n _, rfl⟩
  case other => exact ⟨_, execAuth_chain_of_other hst off bs h, s.graft_modGraft_self n _, rfl⟩
  case nonce =>
    have hexec := execAuth_nonce hst off bs hoff hlen.le
    rw [if_neg (ne_of_lt hlen)] at hexec
    have hport := s.graft_modGraft_self n (.nonced bs)
    exact ⟨_, hexec, congrArg GraftPort.rxNonce hport, (congrArg GraftPort.st hport).trans hst⟩
  case checked =>
    have hexec := execAuth_nonce hst off bs hoff (le_of_eq hlen)
    rw [if_pos hlen] at hexec
    have hport := s.graft_modGraft_self n (.nonced bs)
    have hchain : ∀ {v}, Config.chainVerifies p.rxChain = v → Config.chainVerifies (s.modGraft n (.nonced bs)).grafts[n].rxChain = v := fun h => by
      rw [hport]
      exact h
    have hnonce : (s.modGraft n (.nonced bs)).grafts[n].rxNonce = p.rxNonce ++ bs := congrArg GraftPort.rxNonce hport
    refine ⟨fun h => ?_, fun h howner => ?_, fun h howner hpwr hengine => ?_⟩
    · rw [State.checkPeer_refused_chain (hchain h)] at hexec
      have hserial : (GraftPort.nonced bs p).goodSerial = 0 := if_neg (by rw [show (GraftPort.nonced bs p).rxChain = p.rxChain from rfl, h]; decide)
      exact ⟨_, hexec, hserial ▸ s.refuse_modGraft n (.nonced bs) (by decide)⟩
    · rw [State.checkPeer_refused_owner (hchain h) (by rw [hnonce]; exact howner)] at hexec
      exact ⟨_, hexec, s.refuse_modGraft n (.nonced bs) (by decide)⟩
    · rw [State.checkPeer_good (hchain h) (by rw [hnonce]; exact howner) hpwr hengine] at hexec
      exact ⟨_, hexec, (congrArg GraftPort.st hport).trans hst, rfl⟩
  case signature =>
    intro ok
    have hexec := execAuth_sig hst off bs hoff hlen hnonce
    have hport := s.graft_modGraft_self n (.signed bs)
    refine ⟨fun hok => ?_, fun hok hsent => ?_, fun hok hsent hlast => ?_⟩
    · rw [show Config.ecdsaVerify (Config.chainKey s.grafts[n].rxChain) (s.peerMsg n) (s.grafts[n].rxSig ++ bs) = false from hok] at hexec
      exact ⟨_, hexec, s.refuse_modGraft n (.signed bs) (by decide)⟩
    · rw [if_pos hok, State.tryAdmit_of_not_sent ((congrArg GraftPort.authSent hport).trans hsent)] at hexec
      exact ⟨_, hexec, (congrArg GraftPort.st hport).trans hst, congrArg GraftPort.rxSig hport⟩
    · have hflits := State.tryAdmit_of_both ((congrArg GraftPort.st hport).trans hst) ((congrArg GraftPort.authSent hport).trans hsent)
        ((congrArg (fun p : GraftPort => p.rxSig.length) hport).trans (List.length_append.trans hlen)) ((congrArg GraftPort.admitLast hport).trans hlast)
      rw [if_pos hok] at hexec
      have hown := hflits.own
      rw [State.graft_modGraft_self] at hown
      have hown' := hown.trans (congrArg (fun p : GraftPort => p.trusted.unsent) hport)
      refine ⟨_, hexec, (congrArg GraftPort.st hown' :), ?_, (congrArg GraftPort.peerSerial hown' :), (congrArg GraftPort.peerBoot hown' :),
        (congrArg GraftPort.admitSent hown' :)⟩
      exact (congrArg (fun x : State => x.hwd.graftAuth.getLsbD n.val) hflits.work.2 :).trans (getLsbD_withBit_self _ n.isLt)
  case timeout => exact ⟨_, congrArg Host.Outcome.next (if_pos hst), s.refuse_refused n (by decide)⟩
  case late => exact ⟨s, congrArg Host.Outcome.next (if_neg hst), rfl⟩
  case listed => exact ⟨_, exec_admitList_noted hst, s.graft_modGraft_self n _, rfl⟩
  case admitted =>
    intro has items
    have hport := s.graft_modGraft_self n fun p => p.listed true es
    have hmatches := State.tryUp_matches ((congrArg GraftPort.st hport).trans hst) ((congrArg GraftPort.admitSent hport).trans hsent)
      (congrArg GraftPort.admitLast hport)
    have hhas : (s.modGraft n fun p => p.listed true es).grafts[n].matchesItem (s.modGraft n fun p => p.listed true es).rank = has := by
      rw [hport]
      exact funext fun i => GraftPort.matchesItem_eq _ _ i
    rw [hhas] at hmatches
    exact ⟨_, exec_admitList_last hst, hmatches⟩

end

section
/-! SUPPORT. The loss of a graft partner and the replay (R473, R477, R482); and the settling of O56. -/

namespace Sys2Proof.Machine

open Sys2Proof.Safety

/-! ### The links of a port break -/

/-- Whether a link crosses port n, told from what it is made of. -/
def fateCrosses (n : PortId) (f : Word × Word × Bool × BitVec 4) : Bool :=
  (f.1.getLsbD 12 && (⟨fieldAt f.1 13 2, Nat.mod_lt _ (by decide)⟩ : PortId) == n) ||
    (f.1.getLsbD 28 && (⟨fieldAt f.1 29 2, Nat.mod_lt _ (by decide)⟩ : PortId) == n)

theorem getElem?_of_fates {s t : State} {f : Word × Word × Bool × BitVec 4 → Word × Word × Bool × BitVec 4}
    (h : t.links.map Link.fate = (s.links.map Link.fate).map f) {i : Nat} {l : Link} (hl : s.links[i]? = some l) :
    ∃ l', t.links[i]? = some l' ∧ l'.fate = f l.fate := by
  have hi : (t.links.map Link.fate)[i]? = some (f l.fate) := by
    rw [h, List.getElem?_map, List.getElem?_map, hl]
    rfl
  rw [List.getElem?_map] at hi
  exact Option.map_eq_some_iff.mp hi

/-- From s to t the links that cross port n have broken with GRAFT_DOWN. -/
def CrossingsDown (n : PortId) (s t : State) : Prop :=
  ∀ (i : Nat) (l : Link), s.links[i]? = some l → l.crosses n = true → l.broken = false → ∃ l' : Link, t.links[i]? = some l' ∧ l'.broken = true ∧ l'.code = 3

theorem State.breakLinks_crossingsDown (s : State) (n : PortId) : CrossingsDown n s (s.breakLinks (fun l => l.crosses n) 3) := by
  intro i l hl hcrosses _
  obtain ⟨l', hl', hfate⟩ := getElem?_of_fates (s.breakLinks_torn (p := fun l => l.crosses n) 3 (q := fateCrosses n) fun _ => rfl).1 hl
  rw [if_pos (show fateCrosses n l.fate = true from hcrosses)] at hfate
  exact ⟨l', hl', (congrArg (fun f : Word × Word × Bool × BitVec 4 => f.2.2.1) hfate :),
    (congrArg (fun f : Word × Word × Bool × BitVec 4 => f.2.2.2) hfate :)⟩

/-! ### The queues of a port -/

/-- From s to t queues have changed alone: no pending packet is gone, and no packet is opened. -/
structure Voids (s t : State) : Prop where
  frame : { t with queues := s.queues } = s
  pending : ∀ q : QueueId, t.queues[q].pending = s.queues[q].pending
  prod : ∀ q : QueueId, s.queues[q].prod = none → t.queues[q].prod = none

namespace Voids

theorem refl (s : State) : Voids s s := ⟨rfl, fun _ => rfl, fun _ => id⟩

theorem trans {s t u : State} (h : Voids s t) (k : Voids t u) : Voids s u where
  frame := (congrArg (fun x : State => { x with queues := s.queues }) k.frame :).trans h.frame
  pending q := (k.pending q).trans (h.pending q)
  prod q hq := k.prod q (h.prod q hq)

theorem modQueue (s : State) (q : QueueId) {f : Queue → Queue} (hpending : ∀ x, (f x).pending = x.pending) (hprod : ∀ x, x.prod = none → (f x).prod = none) :
    Voids s (s.modQueue q f) := by
  have hone : ∀ r : QueueId, (s.modQueue q f).queues[r] = s.queues[r] ∨ (s.modQueue q f).queues[r] = f s.queues[r] := fun r => by
    by_cases hr : r = q
    · subst hr
      exact .inr (State.modQueue_queue_self ..)
    · exact .inl (State.modQueue_queue_ne _ _ hr)
  refine ⟨rfl, fun r => ?_, fun r h => ?_⟩
  · rcases hone r with hr | hr <;> rw [hr]
    exact hpending _
  · rcases hone r with hr | hr <;> rw [hr]
    exacts [h, hprod _ h]

theorem grn {s t : State} (h : Voids s t) : t.grn = s.grn := (congrArg State.grn h.frame :)

end Voids

/-- A queue whose producer is a graft port that goes down: the packet being received is discarded (R482). -/
def Queue.discarded (x : Queue) : Queue :=
  match x.prod with
  | some o => { x with prod := none, credits := x.credits + o.cap + 1, rxPseq := none }
  | none => { x with rxPseq := none }

theorem Queue.prod_discarded (x : Queue) : x.discarded.prod = none := by
  unfold Queue.discarded
  split
  · rfl
  next h => exact h

theorem Queue.pending_discarded (x : Queue) : x.discarded.pending = x.pending := by
  unfold Queue.discarded
  split <;> rfl

/-- What going down of port n does to one queue of the image. -/
def State.queueDown (n : PortId) (s : State) (q : QueueId) : State :=
  match s.queueRec q.val with
  | none => s
  | some r =>
    if recProd r == .graft n.val then s.modQueue q Queue.discarded
    else if recCons r == .graft n.val then s.modQueue q fun x => { x with txBusy := false, txGrant := 0 }
    else s

theorem State.queueDown_voids (n : PortId) (s : State) (q : QueueId) : Voids s (s.queueDown n q) := by
  unfold State.queueDown
  split
  · exact .refl s
  · split
    · exact .modQueue s q Queue.pending_discarded fun x _ => x.prod_discarded
    · split
      · exact .modQueue s q (fun _ => rfl) fun _ => id
      · exact .refl s

theorem State.graftQueuesDown_eq (s : State) (n : PortId) : s.graftQueuesDown n = (List.finRange 1024).foldl (State.queueDown n) s := rfl

theorem State.graftQueuesDown_voids (s : State) (n : PortId) : Voids s (s.graftQueuesDown n) :=
  foldl_rel Voids.refl (fun _ _ _ => Voids.trans) (State.queueDown_voids n) _ s

theorem State.prod_graftQueuesDown {s : State} {n : PortId} {q : QueueId} {r : Word × Word} (hr : s.queueRec q.val = some r) (hprod : recProd r = .graft n.val) :
    (s.graftQueuesDown n).queues[q].prod = none := by
  have hrec : ∀ (t : State) (x : QueueId), (State.queueDown n t x).queueRec q.val = t.queueRec q.val := fun t x =>
    State.queueRec_congr (congrArg State.grn (State.queueDown_voids n t x).frame :) _
  have hown : ∀ t : State, (State.queueDown n t q).queueRec q.val = some r → (State.queueDown n t q).queues[q].prod = none := fun t htr => by
    rw [hrec] at htr
    unfold State.queueDown
    rw [htr]
    dsimp only
    rw [if_pos (by rw [hprod]; exact beq_self_eq_true _), State.modQueue_queue_self]
    exact Queue.prod_discarded _
  have hall := foldl_of_mem (f := State.queueDown n) (P := fun t : State => t.queueRec q.val = some r → t.queues[q].prod = none)
    (fun t x ht htr => (State.queueDown_voids n t x).prod q (ht ((hrec t x).symm.trans htr))) hown (List.mem_finRange q) s
  rw [← State.graftQueuesDown_eq] at hall
  exact hall ((State.queueRec_congr (s.graftQueuesDown_voids n).grn _).trans hr)

/-! ### A partner that is lost (R477, R482) -/

theorem FlitsOut.portTurn (s : State) (n : PortId) : FlitsOut n s (s.portTurn n) := by
  unfold State.portTurn
  split
  · exact .refl n s
  · exact FlitsOut.trans (.modGraft rfl) (.sendFlit ..)

theorem FlitsOut.portsDrain (s : State) (n : PortId) : FlitsOut n s (s.portsDrain n) :=
  foldl_rel (FlitsOut.refl n) (fun _ _ _ => FlitsOut.trans) (fun s _ => .portTurn s n) _ s

/-- Everything that waits goes, then LEAVE (R482). -/
def State.leaving (s : State) (n : PortId) (leave : Bool) : State := if leave then (s.portsDrain n).sendFlit n fkLeave [] else s

theorem State.leaving_flitsOut (s : State) (n : PortId) (leave : Bool) : FlitsOut n s (s.leaving n leave) := by
  unfold State.leaving
  split
  · exact (FlitsOut.portsDrain s n).trans (.sendFlit ..)
  · exact .refl n s

theorem State.leave_mem_outbox (s : State) (n : PortId) : ∃ h, Output.flit n h [] ∈ (s.leaving n true).outbox :=
  ⟨_, List.mem_append_right _ (List.mem_singleton.mpr rfl)⟩

theorem State.graftLost_tells (s : State) (n : PortId) : Tells s (s.graftLost n) ∧ Posts s (s.graftLost n) := by
  unfold State.graftLost
  dsimp only
  refine ⟨.foldl (fun s m => ?_) _ s, .foldl (fun s m => ?_) _ s⟩
  · split
    · exact s.plotEvent_tells ..
    · exact .refl s
  · split
    · exact s.plotEvent_posts ..
    · exact .refl s

/-- What the loss of the partner of port n does before the port itself is set back: links, queues and plots. -/
structure Severed (n : PortId) (s t : State) : Prop where
  ports : WaitsOnly s t
  down : CrossingsDown n s t
  pending : ∀ q : QueueId, s.queues[q].pending <+: t.queues[q].pending
  prod : ∀ (q : QueueId) r, s.queueRec q.val = some r → recProd r = .graft n.val → t.queues[q].prod = none
  outbox : s.outbox <+: t.outbox
  grn : t.grn = s.grn
  cnp : t.cnp = s.cnp
  mem : t.mem = s.mem

theorem severed_of {n : PortId} {s a b c : State} (hbreaks : Breaks s a) (hwaits : WaitsOnly s a) (hdown : CrossingsDown n s a) (hvoids : Voids a b)
    (hprod : ∀ (q : QueueId) r, a.queueRec q.val = some r → recProd r = .graft n.val → b.queues[q].prod = none) (htells : Tells b c) (hposts : Posts b c) :
    Severed n s c := by
  have hgrn : a.grn = s.grn := (congrArg State.grn hbreaks.frame :)
  have hqueues : a.queues = s.queues := (congrArg State.queues hbreaks.frame :)
  refine ⟨?_, ?_, fun q => ?_, fun q r hr h => ?_, ?_, ?_, ?_, ?_⟩
  · exact (hwaits.trans (.of_grafts (congrArg State.grafts hvoids.frame :))).trans htells.ports
  · have hlinks : c.links = a.links := (congrArg State.links hposts.frame :).trans (congrArg State.links hvoids.frame :)
    intro i l hl hcrosses hbroken
    rw [hlinks]
    exact hdown i l hl hcrosses hbroken
  · rw [← hqueues, ← hvoids.pending]
    exact htells.pending q
  · exact (htells.prod q).trans (hprod q r ((State.queueRec_congr hgrn _).trans hr) h)
  · have houtbox : b.outbox = s.outbox := (congrArg State.outbox hvoids.frame :).trans (congrArg State.outbox hbreaks.frame :)
    rw [← houtbox]
    exact htells.outbox
  · exact ((congrArg State.grn hposts.frame :).trans hvoids.grn).trans hgrn
  · exact ((congrArg State.cnp hposts.frame :).trans (congrArg State.cnp hvoids.frame :)).trans (congrArg State.cnp hbreaks.frame :)
  · exact ((congrArg State.mem hposts.frame :).trans (congrArg State.mem hvoids.frame :)).trans (congrArg State.mem hbreaks.frame :)

theorem State.severed (s : State) (n : PortId) : Severed n s (((s.breakLinks (fun l => l.crosses n) 3).graftQueuesDown n).graftLost n) :=
  severed_of (s.breakLinks_breaks ..) (fun m => s.breakLinks_waits _ _ m) (s.breakLinks_crossingsDown n) (State.graftQueuesDown_voids _ n)
    (fun _ _ => State.prod_graftQueuesDown) (State.graftLost_tells _ n).1 (State.graftLost_tells _ n).2

/-- The port itself is set back: GRFT_EVENT bit 0, no authenticated peer, and LISTEN or OFF. -/
def State.setBack (s : State) (n : PortId) : State :=
  let u := { s.graftEvent n 0 with hwd := { s.hwd with graftAuth := dropBit s.hwd.graftAuth n.val } }
  u.setGraft n (u.graftRest n)

/-- The loss of a partner: what waits and LEAVE go, links, queues and plots are severed, and the port is set back. -/
theorem State.partnerLost_stages (s : State) (n : PortId) (leave : Bool) : ∃ u cnp t, u = s.leaving n leave ∧
    cnp = { u.cnp with graftAbsorb := withBit u.cnp.graftAbsorb n.val } ∧ Severed n { u with cnp := cnp } t ∧ s.partnerLost n leave = t.setBack n := by
  unfold State.partnerLost
  extract_lets u cnp s2 s3 s4
  have hsevered : Severed n s2 s4 := s2.severed n
  clear_value s4
  exact ⟨u, _, s4, rfl, rfl, hsevered, rfl⟩

theorem State.setBack_eq (s : State) (n : PortId) : ∃ evts, s.setBack n =
    { s.modGraft n fun p => { p with event := p.event ||| BitVec.ofNat 5 (2 ^ 0) }.fresh (s.graftRest n) with
      hwd := { s.hwd with graftAuth := dropBit s.hwd.graftAuth n.val }, crownEvts := evts } := by
  obtain ⟨evts, hevent⟩ := s.graftEvent_eq n 0
  refine ⟨evts, ?_⟩
  have hport := s.graft_modGraft_self n fun p => { p with event := p.event ||| BitVec.ofNat 5 (2 ^ 0) }
  have hrest : ∀ h : Hwd, State.graftRest { s.modGraft n fun p => { p with event := p.event ||| BitVec.ofNat 5 (2 ^ 0) } with crownEvts := evts, hwd := h } n =
      s.graftRest n := fun h => by
    unfold State.graftRest
    dsimp only
    rw [hport]
    rfl
  unfold State.setBack
  rw [hevent]
  dsimp only
  rw [hrest]
  unfold State.setGraft
  exact congrArg (fun x : State => { x with hwd := { s.hwd with graftAuth := dropBit s.hwd.graftAuth n.val }, crownEvts := evts })
    (State.modGraft_modGraft s n (fun p => { p with event := p.event ||| BitVec.ofNat 5 (2 ^ 0) }) fun p => p.fresh (s.graftRest n))

/-- From s to t port n has lost its partner (R482). -/
structure PartnerGone (n : PortId) (s t : State) : Prop where
  st : t.grafts[n].st = s.graftRest n
  event : t.grafts[n].event = s.grafts[n].event ||| BitVec.ofNat 5 (2 ^ 0)
  hold : t.grafts[n].hold = s.grafts[n].hold
  locked : t.grafts[n].locked = 0
  unacked : t.grafts[n].unacked = []
  tags : t.grafts[n].tags = []
  auth : t.hwd.graftAuth.getLsbD n.val = false
  absorb : t.cnp.graftAbsorb.getLsbD n.val = true
  down : CrossingsDown n s t
  prod : ∀ (q : QueueId) r, s.queueRec q.val = some r → recProd r = .graft n.val → t.queues[q].prod = none
  pending : ∀ q : QueueId, s.queues[q].pending <+: t.queues[q].pending
  others : ∀ m, m ≠ n → t.grafts[m].st = s.grafts[m].st
  mem : t.mem = s.mem

theorem State.graftRest_congr {s t : State} {n : PortId} (hhold : t.grafts[n].hold = s.grafts[n].hold) (hgrn : t.grn = s.grn) :
    t.graftRest n = s.graftRest n := by
  unfold State.graftRest
  rw [hhold, hgrn]

theorem State.partnerLost_gone (s : State) (n : PortId) (leave : Bool) :
    PartnerGone n s (s.partnerLost n leave) ∧ (s.leaving n leave).outbox <+: (s.partnerLost n leave).outbox := by
  obtain ⟨u, cnp, t, hu, hcnp, hsevered, hlost⟩ := s.partnerLost_stages n leave
  have hleaving := s.leaving_flitsOut n leave
  rw [← hu] at hleaving ⊢
  obtain ⟨evts, hback⟩ := t.setBack_eq n
  rw [hlost, hback]
  have hport : t.grafts[n].still = u.grafts[n].still := hsevered.ports n
  have hown : u.grafts[n].unsent = s.grafts[n].unsent := hleaving.own
  have hset := t.graft_modGraft_self n fun p => GraftPort.fresh { p with event := p.event ||| BitVec.ofNat 5 (2 ^ 0) } (t.graftRest n)
  have hframe := hleaving.work.2
  have hhold : t.grafts[n].hold = s.grafts[n].hold := (congrArg GraftPort.hold hport :).trans (congrArg GraftPort.hold hown :)
  have hevent : t.grafts[n].event = s.grafts[n].event := (congrArg GraftPort.event hport :).trans (congrArg GraftPort.event hown :)
  have hgrn : t.grn = s.grn := hsevered.grn.trans (congrArg State.grn hframe :)
  have hlinks : u.links = s.links := (congrArg State.links hframe :)
  have hqueues : u.queues = s.queues := (congrArg State.queues hframe :)
  have hugrn : u.grn = s.grn := (congrArg State.grn hframe :)
  refine ⟨⟨?_, ?_, ?_, ?_, ?_, ?_, ?_, ?_, ?_, ?_, ?_, ?_, ?_⟩, hsevered.outbox⟩
  · exact (congrArg GraftPort.st hset :).trans (State.graftRest_congr hhold hgrn)
  · exact (congrArg GraftPort.event hset :).trans (by rw [← hevent]; rfl)
  · exact (congrArg GraftPort.hold hset :).trans hhold
  · exact (congrArg GraftPort.locked hset :)
  · exact (congrArg GraftPort.unacked hset :)
  · exact (congrArg GraftPort.tags hset :)
  · exact getLsbD_dropBit_self _ n.isLt
  · have habsorb : t.cnp.graftAbsorb = withBit u.cnp.graftAbsorb n.val := by
      rw [hsevered.cnp, hcnp]
    exact (congrArg (fun x : BitVec 4 => x.getLsbD n.val) habsorb).trans (getLsbD_withBit_self _ n.isLt)
  · exact fun i l hl => hsevered.down i l (hlinks ▸ hl)
  · exact fun q r hr => hsevered.prod q r ((State.queueRec_congr hugrn _).trans hr)
  · intro q
    rw [← hqueues]
    exact hsevered.pending q
  · intro m hm
    have hstill : t.grafts[m].still = u.grafts[m].still := hsevered.ports m
    rw [hleaving.work.1 m hm] at hstill
    exact (congrArg GraftPort.st (t.graft_modGraft_ne _ hm)).trans (congrArg GraftPort.st hstill :)
  · exact hsevered.mem.trans (congrArg State.mem hframe :)

/-- What the rest of the device sees of port n's loss of its partner. -/
def PortDown (n : PortId) (s t : State) : Prop :=
  t.grafts[n].event.getLsbD 0 = true ∧ t.hwd.graftAuth.getLsbD n.val = false ∧ t.cnp.graftAbsorb.getLsbD n.val = true ∧ t.grafts[n].unacked = [] ∧ t.grafts[n].tags = [] ∧
    CrossingsDown n s t ∧ (∀ (q : QueueId) r, s.queueRec q.val = some r → recProd r = .graft n.val → t.queues[q].prod = none) ∧
    (∀ q : QueueId, s.queues[q].pending <+: t.queues[q].pending) ∧ (∀ m, m ≠ n → t.grafts[m].st = s.grafts[m].st) ∧ t.mem = s.mem

/-- The loss of a partner after the port itself, and what the crown was told, changed. -/
theorem PartnerGone.portDown {n : PortId} {s u t : State} (h : PartnerGone n u t) (hframe : { u with grafts := s.grafts, crownEvts := s.crownEvts } = s)
    (hothers : ∀ m, m ≠ n → u.grafts[m] = s.grafts[m]) : PortDown n s t := by
  have hlinks : u.links = s.links := (congrArg State.links hframe :)
  have hqueues : u.queues = s.queues := (congrArg State.queues hframe :)
  have hgrn : u.grn = s.grn := (congrArg State.grn hframe :)
  refine ⟨?_, h.auth, h.absorb, h.unacked, h.tags, fun i l hl => h.down i l (hlinks ▸ hl), fun q r hr => h.prod q r ((State.queueRec_congr hgrn _).trans hr),
    fun q => hqueues ▸ h.pending q, fun m hm => (h.others m hm).trans (congrArg GraftPort.st (hothers m hm)), h.mem.trans (congrArg State.mem hframe :)⟩
  rw [h.event, BitVec.getLsbD_or, getLsbD_ofNat_two_pow (by decide)]
  exact Bool.or_true _

/-- The state that a port takes when it goes down: OFF while held or off in the image, LISTEN otherwise. -/
theorem State.graftRest_eq (s : State) (n : PortId) : s.graftRest n =
    if s.grafts[n].hold = true ∨ (s.grn.active.map fun g => g.graftEn.getLsbD n.val) ≠ some true then .off else .listen := by
  unfold State.graftRest
  generalize s.grafts[n].hold = held, s.grn.active.map (fun g => g.graftEn.getLsbD n.val) = on
  rcases held <;> rcases on with _ | _ | _ <;> simp

/-! ### Replay (R471, R473) -/

theorem GraftPort.linked_iff (p : GraftPort) : p.linked = true ↔ p.st = .hello ∨ p.st = .auth ∨ p.st = .admitting ∨ p.st = .up := by
  unfold GraftPort.linked
  cases p.st <;> decide

theorem foldl_emit (f : State → Flit → Output) (hf : ∀ (s : State) (os : List Output) g, f { s with outbox := os } g = f s g) (gs : List Flit) (s : State) :
    gs.foldl (fun s g => s.emit (f s g)) s = { s with outbox := s.outbox ++ gs.map (f s) } := by
  induction gs generalizing s with
  | nil => exact congrArg (fun os => { s with outbox := os }) (List.append_nil _).symm
  | cons g gs ih =>
    have hmap : f (s.emit (f s g)) = f s := funext (hf s _)
    refine (ih (s.emit (f s g))).trans ?_
    rw [hmap]
    exact congrArg (fun os => { s with outbox := os }) (List.append_assoc ..)

/-- The port after a NAK of its oldest flit that is left. -/
def GraftPort.naked (f : Flit) (fs : List Flit) (p : GraftPort) : GraftPort :=
  { p with unacked := { f with naks := f.naks + 1 } :: fs, replays := satAdd 32 p.replays 1 }

theorem exec_graftBadFlit_of_not_linked {s : State} {n : PortId} (h : s.grafts[n].linked = false) : exec (.graftBadFlit n) s = .next s :=
  congrArg Host.Outcome.next (if_neg (by rw [h]; decide))

theorem exec_graftNak_of_not_linked {s : State} {n : PortId} (h : s.grafts[n].linked = false) (ack : BitVec 10) : exec (.graftNak n ack) s = .next s := by
  rw [show exec (.graftNak n ack) s = execGraftNak n ack s from rfl, execGraftNak, h]
  rfl

theorem satAdd_one (w : Nat) (x : BitVec w) : satAdd w x 1 = if x = BitVec.allOnes w then x else x + 1 := by
  have hx := x.isLt
  unfold satAdd
  split
  next h =>
    have hne : x ≠ BitVec.allOnes w := fun e => by
      rw [e, BitVec.toNat_allOnes] at h
      omega
    rw [if_neg hne]
    rw [BitVec.ofNat_add, BitVec.ofNat_toNat, BitVec.setWidth_eq]
    rfl
  next h =>
    have he : x = BitVec.allOnes w := BitVec.eq_of_toNat_eq (by rw [BitVec.toNat_allOnes]; omega)
    rw [if_pos he, he]
    exact BitVec.eq_of_toNat_eq (by rw [BitVec.toNat_ofNat, BitVec.toNat_allOnes, Nat.mod_eq_of_lt (by omega)])

theorem exec_graftNak_of_linked {s : State} {n : PortId} {ack : BitVec 10} {f : Flit} {fs : List Flit} (hlinked : s.grafts[n].linked = true)
    (hleft : s.grafts[n].unacked.filter (fun f => decide (512 ≤ (ack - f.seq - 1).toNat)) = f :: fs) :
    exec (.graftNak n ack) s = .next (if 4 ≤ f.naks + 1 && s.grafts[n].st == .up then ((s.modGraft n (.naked f fs)).graftEvent n 4).partnerLost n false
      else { s.modGraft n (.naked f fs) with
        outbox := s.outbox ++ (f :: fs).map fun g => .flit n (flitHdr s.grafts[n] g.kind.toNat g.seq g.words.length) g.words }) := by
  have hport : (GraftPort.ackTo s.grafts[n] ack).unacked = f :: fs := hleft
  have hgraft := s.graft_modGraft_self n fun p => { p.ackTo ack with replays := satAdd 32 p.replays 1 }
  have hunacked : (s.modGraft n fun p => { p.ackTo ack with replays := satAdd 32 p.replays 1 }).grafts[n].unacked = f :: fs :=
    (congrArg GraftPort.unacked hgraft :).trans hport
  have hmod : (s.modGraft n fun p => { p.ackTo ack with replays := satAdd 32 p.replays 1 }).modGraft n
      (fun p => { p with unacked := { f with naks := f.naks + 1 } :: fs }) = s.modGraft n (.naked f fs) := State.modGraft_modGraft ..
  have hst : (s.modGraft n (.naked f fs)).grafts[n].st = s.grafts[n].st := (congrArg GraftPort.st (s.graft_modGraft_self n (.naked f fs)) :)
  have hhdr : ∀ kind seq len, flitHdr (s.modGraft n (.naked f fs)).grafts[n] kind seq len = flitHdr s.grafts[n] kind seq len := fun kind seq len => by
    rw [s.graft_modGraft_self n (.naked f fs)]
    rfl
  rw [show exec (.graftNak n ack) s = execGraftNak n ack s from rfl, execGraftNak, hlinked]
  dsimp only
  rw [if_neg (by decide), hunacked]
  dsimp only
  rw [hmod, hst]
  split
  · rfl
  · rw [foldl_emit (fun s g => .flit n (flitHdr s.grafts[n] g.kind.toNat g.seq g.words.length) g.words) fun _ _ _ => rfl]
    simp only [hhdr]
    rfl

/-! ### The ways to lose a partner (R477, R482) -/

/-- The loss of the partner after the port was changed and an event of it was raised. -/
theorem State.partnerLost_after (s : State) (n : PortId) {f : GraftPort → GraftPort} (hhold : ∀ p, (f p).hold = p.hold) {bit : Nat} (hbit : bit < 5) (leave : Bool) :
    let t := (((s.modGraft n f).graftEvent n bit).partnerLost n leave)
    PortDown n s t ∧ t.grafts[n].st = s.graftRest n ∧ t.grafts[n].event.getLsbD bit = true := by
  obtain ⟨evts, hevent⟩ := (s.modGraft n f).graftEvent_eq n bit
  rw [hevent, State.modGraft_modGraft]
  set g : GraftPort → GraftPort := (fun p => { p with event := p.event ||| BitVec.ofNat 5 (2 ^ bit) }) ∘ f with hg
  have hport := s.graft_modGraft_self n g
  obtain ⟨hgone, -⟩ := State.partnerLost_gone { s.modGraft n g with crownEvts := evts } n leave
  refine ⟨hgone.portDown rfl fun m => s.graft_modGraft_ne g, hgone.st.trans (State.graftRest_congr ?_ rfl), ?_⟩
  · exact (congrArg GraftPort.hold hport).trans (hhold _)
  · have hev : { s.modGraft n g with crownEvts := evts }.grafts[n].event.getLsbD bit = true :=
      (congrArg (fun p : GraftPort => p.event.getLsbD bit) hport).trans (getLsbD_withBit_self _ hbit)
    rw [hgone.event, BitVec.getLsbD_or, hev, Bool.true_or]

/-- The same without an event of its own. -/
theorem State.partnerLost_changed (s : State) (n : PortId) (f : GraftPort → GraftPort) (leave : Bool) :
    let t := (s.modGraft n f).partnerLost n leave
    PortDown n s t ∧ t.grafts[n].st = (s.modGraft n f).graftRest n ∧ t.grafts[n].locked = 0 ∧ t.grafts[n].hold = (f s.grafts[n]).hold := by
  obtain ⟨hgone, -⟩ := State.partnerLost_gone (s.modGraft n f) n leave
  exact ⟨hgone.portDown rfl fun m => s.graft_modGraft_ne f, hgone.st, hgone.locked, hgone.hold.trans (congrArg GraftPort.hold (s.graft_modGraft_self n f))⟩

theorem exec_graftAckTimeout_of_unacked {s : State} {n : PortId} (h : s.grafts[n].unacked ≠ []) : exec (.graftAckTimeout n) s = .next (s.loseIfUp n) := by
  rw [show exec (.graftAckTimeout n) s = execGraftAckTimeout n s from rfl, execGraftAckTimeout, List.isEmpty_eq_false_iff.mpr h]
  rfl

theorem exec_graftAckTimeout_of_acked {s : State} {n : PortId} (h : s.grafts[n].unacked = []) : exec (.graftAckTimeout n) s = .next s := by
  rw [show exec (.graftAckTimeout n) s = execGraftAckTimeout n s from rfl, execGraftAckTimeout, h]
  rfl

theorem State.graftRest_of_held {s : State} {n : PortId} (h : s.grafts[n].hold = true) : s.graftRest n = .off := by
  rw [State.graftRest_eq, if_pos (.inl h)]

/-- HOLD on a port in UP: it loses its partner with LEAVE (R482). -/
theorem exec_hold_of_up {s : State} {n : PortId} (hup : s.grafts[n].st = .up) :
    exec (.hold n true) s = .next ((s.modGraft n fun p => { p with hold := true }).partnerLost n true) := by
  have hst : (s.modGraft n fun p => { p with hold := true }).grafts[n].st = .up := (congrArg GraftPort.st (s.graft_modGraft_self n _) :).trans hup
  rw [show exec (.hold n true) s = .next (s.writeHold n true) from rfl, State.writeHold]
  rw [if_pos rfl, if_neg (by rw [hst]; decide), State.graftDown, hst]
  rfl

/-- HOLD on a port that is neither in UP nor OFF: it goes OFF (R477). -/
theorem exec_hold_of_other {s : State} {n : PortId} (hup : s.grafts[n].st ≠ .up) (hoff : s.grafts[n].st ≠ .off) :
    exec (.hold n true) s = .next ({ s.modGraft n fun p => { p with hold := true } with
      hwd := { s.hwd with graftAuth := dropBit s.hwd.graftAuth n.val } }.setGraft n .off) := by
  have hport := s.graft_modGraft_self n fun p => { p with hold := true }
  have hst : (s.modGraft n fun p => { p with hold := true }).grafts[n].st = s.grafts[n].st := (congrArg GraftPort.st hport :)
  rw [show exec (.hold n true) s = .next (s.writeHold n true) from rfl, State.writeHold]
  dsimp only
  rw [if_pos rfl, hst, if_neg hoff, State.graftDown, hst, beq_eq_false_iff_ne.mpr hup,
    State.graftRest_of_held (s := s.modGraft n fun p => { p with hold := true }) (congrArg GraftPort.hold hport :)]
  rfl

/-- HOLD cleared on a port in OFF (R477). -/
theorem exec_hold_cleared {s : State} {n : PortId} (hoff : s.grafts[n].st = .off) :
    exec (.hold n false) s = .next ((s.modGraft n fun p => { p with hold := false }).setGraft n ((s.modGraft n fun p => { p with hold := false }).graftRest n)) := by
  have hst : (s.modGraft n fun p => { p with hold := false }).grafts[n].st = .off := (congrArg GraftPort.st (s.graft_modGraft_self n _) :).trans hoff
  rw [show exec (.hold n false) s = .next (s.writeHold n false) from rfl, State.writeHold]
  rw [if_neg (by decide), if_pos hst]

/-- HELLO in UP: another BOOT_ID loses the partner, the same is a keepalive (R482). -/
theorem exec_hello_of_up {s : State} {n : PortId} (hup : s.grafts[n].st = .up) (port rank : BitVec 2) (serial image boot : Word) (v : BitVec 16) :
    exec (.hello n v port rank serial image boot) s =
      .next (if boot ≠ s.grafts[n].peerBoot then ((s.modGraft n GraftPort.heard).graftEvent n 2).partnerLost n false else s.modGraft n GraftPort.heard) := by
  rw [show exec (.hello n v port rank serial image boot) s = execHello n v port rank serial image boot s from rfl, execHello,
    if_neg (fun h => absurd (hup.symm.trans h.1) (by decide)), if_pos hup]
  dsimp only
  split <;> rfl

end Sys2Proof.Machine

open Sys2Proof Sys2Proof.Machine Sys2Proof.Safety

/-- Settles O56: the loss of a partner is `State.partnerLost_gone`, the replay `exec_graftNak_of_linked`. -/
theorem graftPartnerLoss : Obligations.GraftPartnerLoss := by
  unfold Obligations.GraftPartnerLoss
  intro s n p linked rest down
  have hgone := fun leave => (s.partnerLost_gone n leave).1
  have hdown : ∀ leave, down (s.partnerLost n leave) ∧ (s.partnerLost n leave).grafts[n].st = rest p.hold := fun leave =>
    ⟨(hgone leave).portDown rfl fun _ _ => rfl, (hgone leave).st.trans (s.graftRest_eq n)⟩
  refine ⟨fun h => ?badFlit, fun h => ?unlinked, fun ack f fs h hleft => ⟨fun hfew => ?replayed, fun hnaks hup => ?fourth⟩,
    fun hup => ⟨⟨_, congrArg Host.Outcome.next (if_pos hup), hdown false⟩, fun l => ?laneLost, fun hun => ?ackLost, ⟨_, congrArg Host.Outcome.next (if_pos hup), hdown false⟩,
      ?held, fun port rank serial image boot v hboot => ?reborn, fun port rank serial image v => ?keepalive⟩,
    fun hup => ⟨⟨s, congrArg Host.Outcome.next (if_neg hup), rfl⟩, ⟨s, congrArg Host.Outcome.next (if_neg hup), rfl⟩, ?noAckLoss⟩, fun hun => ?allAcked,
    fun l hup => ?laneAlone, fun hup hoff => ?heldDown, fun hoff => ?freed⟩
  case badFlit =>
    refine ⟨_, congrArg Host.Outcome.next (if_pos (p.linked_iff.mpr h)), s.graft_modGraft_self n _, fun m => s.graft_modGraft_ne _, rfl⟩
  case unlinked =>
    have hlinked : p.linked = false := Bool.eq_false_iff.mpr fun hp => h (p.linked_iff.mp hp)
    exact ⟨⟨s, exec_graftBadFlit_of_not_linked hlinked, rfl⟩, fun ack => ⟨s, exec_graftNak_of_not_linked hlinked ack, rfl⟩⟩
  case replayed =>
    have hexec := exec_graftNak_of_linked (p.linked_iff.mpr h) hleft
    have hport := s.graft_modGraft_self n (.naked f fs)
    have hcond : (decide (4 ≤ f.naks + 1) && s.grafts[n].st == .up) = false := by
      rcases hfew with hfew | hfew
      · rw [decide_eq_false (by omega), Bool.false_and]
      · rw [beq_eq_false_iff_ne.mpr hfew, Bool.and_false]
    rw [hcond] at hexec
    exact ⟨_, hexec, (congrArg GraftPort.unacked hport :), (congrArg GraftPort.st hport :), (congrArg GraftPort.replays hport :).trans (satAdd_one 32 _), rfl, rfl⟩
  case fourth =>
    have hexec := exec_graftNak_of_linked (p.linked_iff.mpr h) hleft
    have hcond : (decide (4 ≤ f.naks + 1) && s.grafts[n].st == .up) = true := by
      rw [decide_eq_true (by omega), beq_iff_eq.mpr hup]
      rfl
    rw [hcond] at hexec
    obtain ⟨hport, hst, hevent⟩ := s.partnerLost_after n (f := .naked f fs) (fun _ => rfl) (bit := 4) (by decide) false
    exact ⟨_, hexec, hport, hst.trans (s.graftRest_eq n), hevent⟩
  case laneLost =>
    obtain ⟨hport, hst, hlocked, -⟩ := s.partnerLost_changed n (fun p => { p with locked := dropBit p.locked l.val }) false
    have hself := s.graft_modGraft_self n fun p => { p with locked := dropBit p.locked l.val }
    exact ⟨_, congrArg Host.Outcome.next (if_pos ((congrArg GraftPort.st hself :).trans hup)), hport,
      hst.trans ((State.graftRest_congr (congrArg GraftPort.hold hself :) rfl).trans (s.graftRest_eq n)), hlocked⟩
  case ackLost => exact ⟨_, (exec_graftAckTimeout_of_unacked hun).trans (congrArg Host.Outcome.next (if_pos hup)), hdown false⟩
  case held =>
    obtain ⟨hport, hst, -, hhold⟩ := s.partnerLost_changed n (fun p => { p with hold := true }) true
    obtain ⟨h, hleave⟩ := (s.modGraft n fun p => { p with hold := true }).leave_mem_outbox n
    have hprefix := (State.partnerLost_gone (s.modGraft n fun p => { p with hold := true }) n true).2
    exact ⟨_, exec_hold_of_up hup, hport, hst.trans (State.graftRest_of_held (congrArg GraftPort.hold (s.graft_modGraft_self n _) :)), hhold,
      h, hprefix.subset hleave⟩
  case reborn =>
    obtain ⟨hport, hst, hevent⟩ := s.partnerLost_after n (f := GraftPort.heard) (fun _ => rfl) (bit := 2) (by decide) false
    exact ⟨_, (exec_hello_of_up hup port rank serial image boot v).trans (congrArg _ (if_pos hboot)), hport, hst.trans (s.graftRest_eq n), hevent⟩
  case keepalive =>
    exact ⟨_, (exec_hello_of_up hup port rank serial image p.peerBoot v).trans (congrArg _ (if_neg fun h => h rfl)), s.graft_modGraft_self n _, rfl⟩
  case noAckLoss =>
    by_cases hun : p.unacked = []
    · exact ⟨s, exec_graftAckTimeout_of_acked hun, rfl⟩
    · exact ⟨s, (exec_graftAckTimeout_of_unacked hun).trans (congrArg Host.Outcome.next (if_neg hup)), rfl⟩
  case allAcked => exact ⟨s, exec_graftAckTimeout_of_acked hun, rfl⟩
  case laneAlone =>
    have hself := s.graft_modGraft_self n fun p => { p with locked := dropBit p.locked l.val }
    have hlocked : ∀ j : Fin 8, (s.modGraft n fun p => { p with locked := dropBit p.locked l.val }).grafts[n].locked.getLsbD j.val =
        (p.locked.getLsbD j.val && !decide (l.val = j.val)) := fun j =>
      (congrArg (fun p : GraftPort => p.locked.getLsbD j.val) hself :).trans (getLsbD_dropBit _ j.isLt)
    refine ⟨s.modGraft n fun p => { p with locked := dropBit p.locked l.val }, congrArg Host.Outcome.next (if_neg ?_), ?_, ?_, fun j hj => ?_,
      fun m => s.graft_modGraft_ne _, rfl⟩
    · rw [hself]
      exact hup
    · rw [hself]
    · rw [hlocked, decide_eq_true rfl, Bool.not_true, Bool.and_false]
    · rw [hlocked, decide_eq_false fun e => hj (Fin.ext e.symm), Bool.not_false, Bool.and_true]
  case heldDown =>
    have hself := State.graft_modGraft_self { s.modGraft n fun p => { p with hold := true } with
      hwd := { s.hwd with graftAuth := dropBit s.hwd.graftAuth n.val } } n fun p => p.fresh .off
    have hhold := s.graft_modGraft_self n fun p => { p with hold := true }
    exact ⟨_, exec_hold_of_other hup hoff, (congrArg GraftPort.st hself :), (congrArg GraftPort.hold hself :).trans (congrArg GraftPort.hold hhold :), rfl, rfl⟩
  case freed =>
    have hcleared := s.graft_modGraft_self n fun p => { p with hold := false }
    have hself := State.graft_modGraft_self (s.modGraft n fun p => { p with hold := false }) n fun p =>
      p.fresh ((s.modGraft n fun p => { p with hold := false }).graftRest n)
    refine ⟨_, exec_hold_cleared hoff, (congrArg GraftPort.st hself :).trans ?_, (congrArg GraftPort.hold hself :).trans (congrArg GraftPort.hold hcleared :), fun m hm => ?_, rfl⟩
    · rw [State.graftRest_eq, hcleared]
      rfl
    · exact (State.graft_modGraft_ne _ _ hm).trans (s.graft_modGraft_ne _ hm)

end

section
/-! SUPPORT. Queue packets over a graft port, and the flit that goes next (R174, R475, R479 to R481); and the settling of O55. -/

namespace Sys2Proof.Machine

open Sys2Proof.Safety

/-! ### The flit that goes next (R174, R475) -/

theorem mem_of_lowestFlow {p : Nat → Bool} {fs : List WFlit} {f : WFlit} (h : lowestFlow p fs = some f) : f ∈ fs ∧ p f.flow = true := by
  induction fs generalizing f with
  | nil => cases h
  | cons g fs ih =>
    unfold lowestFlow at h
    split at h
    next k hk =>
      split at h
      next hcond =>
        obtain rfl := Option.some.inj h
        exact ⟨List.mem_cons_self, (Bool.and_eq_true_iff.mp hcond).1⟩
      · obtain rfl := Option.some.inj h
        exact ⟨List.mem_cons_of_mem _ (ih hk).1, (ih hk).2⟩
    · split at h
      next hg =>
        obtain rfl := Option.some.inj h
        exact ⟨List.mem_cons_self, hg⟩
      · cases h

theorem lowestFlow_eq_none {p : Nat → Bool} {fs : List WFlit} (h : lowestFlow p fs = none) : ∀ g ∈ fs, p g.flow = false := by
  induction fs with
  | nil => exact fun g hg => absurd hg List.not_mem_nil
  | cons f fs ih =>
    unfold lowestFlow at h
    split at h
    · split at h <;> cases h
    next hnone =>
      split at h
      · cases h
      next hf => exact List.forall_mem_cons.mpr ⟨Bool.eq_false_iff.mpr hf, ih hnone⟩

theorem lowestFlow_le {p : Nat → Bool} {fs : List WFlit} {f : WFlit} (h : lowestFlow p fs = some f) : ∀ g ∈ fs, p g.flow = true → f.flow ≤ g.flow := by
  induction fs generalizing f with
  | nil => cases h
  | cons e fs ih =>
    unfold lowestFlow at h
    split at h
    next k hk =>
      have hle := ih hk
      split at h
      next hcond =>
        obtain rfl := Option.some.inj h
        have hek := of_decide_eq_true (Bool.and_eq_true_iff.mp hcond).2
        exact List.forall_mem_cons.mpr ⟨fun _ => le_rfl, fun g hg hp => hek.trans (hle g hg hp)⟩
      next hcond =>
        obtain rfl := Option.some.inj h
        refine List.forall_mem_cons.mpr ⟨fun hp => ?_, hle⟩
        rw [hp, Bool.true_and, decide_eq_true_eq] at hcond
        omega
    next hnone =>
      split at h
      · obtain rfl := Option.some.inj h
        refine List.forall_mem_cons.mpr ⟨fun _ => le_rfl, fun g hg hp => ?_⟩
        rw [lowestFlow_eq_none hnone g hg] at hp
        cases hp
      · cases h

theorem flowHeads_eq_nil {fs : List WFlit} : flowHeads [] fs = [] ↔ fs = [] := by
  cases fs with
  | nil => exact ⟨fun _ => rfl, fun _ => rfl⟩
  | cons f fs => exact ⟨fun h => absurd h (List.cons_ne_nil _ _), fun h => absurd h (List.cons_ne_nil _ _)⟩

section

variable (p : GraftPort)

theorem GraftPort.choose_eq_none : p.choose = none ↔ p.waiting = [] := by
  unfold GraftPort.choose
  dsimp only
  rw [← flowHeads_eq_nil]
  generalize flowHeads [] p.waiting = heads
  constructor
  · intro h
    split at h
    · cases h
    · split at h
      · cases h
      · exact List.head?_eq_none_iff.mp (Option.or_eq_none_iff.mp h).2
  · rintro rfl
    rfl

variable {p} {f : WFlit}

/-- What R475 says of the flit that goes next, told of the oldest flits of the flows. -/
def Chosen (on : Nat) (heads : List WFlit) (f : WFlit) : Prop :=
  f ∈ heads ∧ (f.cls ≠ 2 → ∀ g ∈ heads, g.cls ≠ 2) ∧ (f.cls ≠ 2 → f.cls ≠ 3 → ∀ g ∈ heads, g.cls ≠ 3) ∧
    (f.cls = 3 → (on < f.flow ∧ ∀ g ∈ heads, g.cls = 3 → on < g.flow → f.flow ≤ g.flow) ∨ ∀ g ∈ heads, g.cls = 3 → g.flow ≤ on ∧ f.flow ≤ g.flow)

theorem GraftPort.choose_chosen (h : p.choose = some f) : Chosen p.served (flowHeads [] p.waiting) f := by
  unfold GraftPort.choose at h
  dsimp only at h
  generalize flowHeads [] p.waiting = heads at h ⊢
  have hdata : ∀ g, g ∈ heads.filter (fun f => f.cls == 3) ↔ g ∈ heads ∧ g.cls = 3 := fun g => by simp [List.mem_filter]
  split at h
  next k hk =>
    obtain rfl := Option.some.inj h
    have hcls : k.cls = 2 := by simpa using List.find?_some hk
    exact ⟨List.mem_of_find?_eq_some hk, fun h2 => absurd hcls h2, fun h2 => absurd hcls h2, fun h3 => absurd (hcls.symm.trans h3) (by decide)⟩
  next hnone =>
    have hno : ∀ g ∈ heads, g.cls ≠ 2 := by simpa using hnone
    split at h
    next k hk =>
      obtain rfl := Option.some.inj h
      obtain ⟨hmem, hlater⟩ := mem_of_lowestFlow hk
      have hk' := (hdata k).mp hmem
      exact ⟨hk'.1, fun _ => hno, fun _ h3 => absurd hk'.2 h3, fun _ => .inl ⟨of_decide_eq_true hlater, fun g hg h3 hlt =>
        lowestFlow_le hk g ((hdata g).mpr ⟨hg, h3⟩) (decide_eq_true hlt)⟩⟩
    next hbefore =>
      have hle : ∀ g ∈ heads, g.cls = 3 → g.flow ≤ p.served := fun g hg h3 => by
        have := lowestFlow_eq_none hbefore g ((hdata g).mpr ⟨hg, h3⟩)
        simpa using this
      rcases hany : lowestFlow (fun _ => true) (heads.filter fun f => f.cls == 3) with _ | k
      · rw [hany, Option.none_or] at h
        have hnodata : ∀ g ∈ heads, g.cls ≠ 3 := fun g hg h3 => absurd (lowestFlow_eq_none hany g ((hdata g).mpr ⟨hg, h3⟩)) (by decide)
        have hmem : f ∈ heads := List.mem_of_head? h
        exact ⟨hmem, fun _ => hno, fun _ _ => hnodata, fun h3 => absurd h3 (hnodata f hmem)⟩
      · rw [hany, Option.some_or] at h
        obtain rfl := Option.some.inj h
        have hk := (hdata k).mp (mem_of_lowestFlow hany).1
        exact ⟨hk.1, fun _ => hno, fun _ h3 => absurd hk.2 h3, fun _ => .inr fun g hg h3 =>
          ⟨hle g hg h3, lowestFlow_le hany g ((hdata g).mpr ⟨hg, h3⟩) rfl⟩⟩

end

theorem State.portTurn_of_chosen {s : State} {n : PortId} {f : WFlit} (h : s.grafts[n].choose = some f) : s.portTurn n =
    (s.modGraft n fun p => { p with waiting := p.waiting.erase f, served := if f.cls = 3 then f.flow else p.served }).sendFlit n f.kind f.words := by
  unfold State.portTurn
  rw [h]

/-! ### Control words (R474) -/

theorem State.sendQueueCtrl_closed (s : State) (n : PortId) (tag : BitVec 32) (pseq : BitVec 16) : s.sendQueueCtrl n tag 0 pseq =
    s.waitFlit n 2 (flowOf 3 tag) fkQueueCtrl [BitVec.ofNat 64 (tag.toNat + 2 ^ 32 * 0 + 2 ^ 35 * pseq.toNat)] := by
  have htag := tag.isLt
  have hpseq := pseq.isLt
  have hword : packWord [(0, 32, tag.toNat), (32, 3, 0), (35, 16, pseq.toNat)] = BitVec.ofNat 64 (tag.toNat + 2 ^ 32 * 0 + 2 ^ 35 * pseq.toNat) := by
    rw [packWord_three]
    refine congrArg (BitVec.ofNat 64) ?_
    omega
  rw [State.sendQueueCtrl, hword]
  rfl

theorem State.sendCredit_queue (s : State) (n : PortId) (tag : BitVec 32) (words : Nat) : s.sendCredit n tag true words =
    s.waitFlit n 2 (flowOf 5 tag) fkCredit [BitVec.ofNat 64 (tag.toNat + 2 ^ 32 + 2 ^ 33 * (words % 2 ^ 17))] := by
  have htag := tag.isLt
  have hb : b2n true = 1 := rfl
  have hword : packWord [(0, 32, tag.toNat), (32, 1, b2n true), (33, 17, words)] = BitVec.ofNat 64 (tag.toNat + 2 ^ 32 + 2 ^ 33 * (words % 2 ^ 17)) := by
    rw [packWord_three, hb]
    refine congrArg (BitVec.ofNat 64) ?_
    omega
  rw [State.sendCredit, hword]
  rfl

theorem State.waiting_waitFlit (s : State) (n : PortId) (cls flow kind : Nat) (ws : List Word) :
    (s.waitFlit n cls flow kind ws).grafts[n].waiting = s.grafts[n].waiting ++ [{ cls := cls, flow := flow, kind := kind, words := ws }] :=
  (congrArg GraftPort.waiting (s.graft_modGraft_self n _) :)

/-! ### Packets that arrive (R479 to R481) -/

theorem State.itemUp_of_mem {s : State} {n : PortId} {tag : BitVec 32} {role : Nat} (hst : s.grafts[n].st = .up) (h : (tag, role) ∈ s.grafts[n].tags) :
    s.itemUp n tag role = true := by
  unfold State.itemUp
  rw [hst]
  exact List.any_eq_true.mpr ⟨(tag, role), h, by simp⟩

/-- A queue whose packet begins to arrive. -/
def Queue.arriving (x : Queue) (c : Nat) (ws : List QWord) (pseq : BitVec 16) : Queue :=
  { x with credits := x.credits - (c + 1), prod := some { cap := c, words := ws, slot := x.tail }, prodVoid := false, rxPseq := some pseq }

theorem State.finishRx_of_partial {s : State} {q : QueueId} {o : OpenProd} (ho : s.queues[q].prod = some o) (h : o.words.length < o.cap + 1) (n : PortId)
    (tag : BitVec 32) (pseq : BitVec 16) : s.finishRx n tag q pseq = s := by
  unfold State.finishRx
  rw [ho]
  exact if_pos h

/-- The last word of a packet closes it and CLOSED goes back. -/
theorem State.finishRx_of_whole {s : State} {q : QueueId} {o : OpenProd} {w : QWord} {rest : List QWord} (ho : s.queues[q].prod = some o)
    (hwords : o.words = w :: rest) (hlen : o.words.length = o.cap + 1) (n : PortId) (tag : BitVec 32) (pseq : BitVec 16) : ∃ (u : State) (k : Packet) (tail : Nat),
    s.finishRx n tag q pseq = u.sendQueueCtrl n tag 0 pseq ∧ k.words = rest ∧ k.lenBad = w.poison ∧
      k.typ = (if w.poison then 0 else BitVec.ofNat 8 (w.w.toNat / 2 ^ 16)) ∧ k.tag = (if w.poison then 0 else BitVec.ofNat 32 (w.w.toNat / 2 ^ 32)) ∧
      { u.queues[q] with txBusy := s.queues[q].txBusy, txGrant := s.queues[q].txGrant } =
        { s.queues[q] with prod := none, rxClosed := some pseq, rxPseq := none, pending := s.queues[q].pending ++ [k], tail := tail } := by
  have hrest : rest.length = o.cap := by
    rw [hwords, List.length_cons] at hlen
    omega
  let o' : OpenProd := { o with words := rest }
  let a := s.modQueue q fun x => { x with prod := some o', rxClosed := some pseq, rxPseq := none }
  let b := a.meter (s.queuePlot q) fun c => { c with graft := c.graft + 8 * (o.cap + 1) }
  have hqueues : b.queues = a.queues := (congrArg State.queues (State.meter_meters a _ _).frame :)
  have hown : b.queues[q] = { s.queues[q] with prod := some o', rxClosed := some pseq, rxPseq := none } := by
    rw [hqueues]
    exact s.modQueue_queue_self q _
  obtain ⟨tail, hclosed⟩ := State.qClose_notices (s := b) (q := q) (o := o') (congrArg Queue.prod hown) (BitVec.ofNat 8 (fieldAt w.w 16 8))
    (BitVec.ofNat 32 (fieldAt w.w 32 32)) w.poison
  have hend := hclosed.own
  rw [State.modQueue_queue_self, hown] at hend
  refine ⟨_, o'.packet (BitVec.ofNat 8 (fieldAt w.w 16 8)) (BitVec.ofNat 32 (fieldAt w.w 32 32)) w.poison, tail, ?_, rfl, rfl, ?_, ?_, hend.trans ?_⟩
  · unfold State.finishRx
    rw [ho]
    dsimp only
    rw [if_neg (by omega), hwords]
    rfl
  · exact congrArg (fun x => if w.poison then 0 else x) (ofNat_mod 8 _)
  · exact congrArg (fun x => if w.poison then 0 else x) (ofNat_mod 32 _)
  · have hcap : o'.cap - o'.words.length = 0 := by
      show o.cap - rest.length = 0
      omega
    rw [Queue.closed, hcap]
    rfl

/-! ### QUEUE_DATA and QUEUE_ABORT -/

section

variable {s : State} {n : PortId} {tag : BitVec 32} {q : QueueId} (hup : s.itemUp n tag 3 = true) (hq : s.rxQueue n tag = some q) (pseq : BitVec 16)
include hup hq

theorem exec_queueData_of_closed (hclosed : s.queues[q].wasClosed pseq = true) (ws : List (Word × Bool)) :
    exec (.queueData n tag pseq 0 ws) s = .next ((s.rxFlit n).sendQueueCtrl n tag 0 pseq) := by
  rw [show exec (.queueData n tag pseq 0 ws) s = execQueueData n tag pseq 0 ws s from rfl, execQueueData, hup, hq]
  dsimp only
  rw [if_neg (by decide)]
  exact if_pos hclosed

theorem exec_queueData_first (hclosed : s.queues[q].wasClosed pseq = false) {w : Word × Bool} {ws : List (Word × Bool)} {c : Nat} (hc : c = w.1.toNat % 65536)
    (hprod : s.queues[q].prod = none) (hcredits : c + 1 ≤ s.queues[q].credits) (hlen : ws.length < c) :
    exec (.queueData n tag pseq 0 (w :: ws)) s =
      .next ((s.rxFlit n).modQueue q fun x => x.arriving c ((w :: ws).map fun w => qword w.1 w.2) pseq) := by
  have hfield : fieldAt w.1 0 16 = c := by
    rw [hc, fieldAt, Nat.pow_zero, Nat.div_one]
    rfl
  have hmod : ((s.rxFlit n).qOpen q c).modQueue q (fun x =>
        { x with prod := x.prod.map fun o => { o with words := (w :: ws).map fun w => qword w.1 w.2 }, rxPseq := some pseq }) =
      (s.rxFlit n).modQueue q fun x => x.arriving c ((w :: ws).map fun w => qword w.1 w.2) pseq := State.modQueue_modQueue ..
  have hpartial := State.finishRx_of_partial (s := (s.rxFlit n).modQueue q fun x => x.arriving c ((w :: ws).map fun w => qword w.1 w.2) pseq) (q := q)
    (o := { cap := c, words := (w :: ws).map fun w => qword w.1 w.2, slot := s.queues[q].tail })
    (congrArg Queue.prod ((s.rxFlit n).modQueue_queue_self q _) :) (by simp; omega) n tag pseq
  have hopen : (s.queues[q].prod.isNone && decide (c + 1 ≤ s.queues[q].credits) && decide (((w :: ws).map fun w => qword w.1 w.2).length ≤ c + 1)) = true := by
    rw [hprod, decide_eq_true hcredits, decide_eq_true (by simp; omega)]
    rfl
  rw [show exec (.queueData n tag pseq 0 (w :: ws)) s = execQueueData n tag pseq 0 (w :: ws) s from rfl, execQueueData, hup, hq]
  dsimp only
  rw [if_neg (by decide), show (s.rxFlit n).queues[q] = s.queues[q] from rfl, if_neg (Bool.eq_false_iff.mp hclosed)]
  show (if (s.queues[q].prod.isNone && decide (fieldAt w.1 0 16 + 1 ≤ s.queues[q].credits) && _) = true then _ else _) = _
  rw [hfield]
  refine (if_pos hopen).trans ?_
  rw [hmod, hpartial]

/-- Later words of a packet join those that have arrived. -/
theorem exec_queueData_next (hclosed : s.queues[q].wasClosed pseq = false) {o : OpenProd} {ws : List (Word × Bool)} (ho : s.queues[q].prod = some o)
    (hpseq : s.queues[q].rxPseq = some pseq) (hwords : o.words ≠ []) (hlen : o.words.length + ws.length ≤ o.cap + 1) :
    exec (.queueData n tag pseq o.words.length ws) s =
      .next (((s.rxFlit n).modQueue q fun x => { x with prod := some { o with words := o.words ++ ws.map fun w => qword w.1 w.2 } }).finishRx n tag q pseq) := by
  rw [show exec (.queueData n tag pseq o.words.length ws) s = execQueueData n tag pseq o.words.length ws s from rfl, execQueueData, hup, hq]
  dsimp only
  rw [if_neg (by decide), show (s.rxFlit n).queues[q] = s.queues[q] from rfl, if_neg (Bool.eq_false_iff.mp hclosed)]
  split
  next heq => exact absurd (List.length_eq_zero_iff.mp heq) hwords
  · rw [ho]
    exact if_pos ⟨hpseq, rfl, by rw [List.length_map]; exact hlen⟩

theorem exec_queueAbort_of_open {o : OpenProd} (ho : s.queues[q].prod = some o) (hpseq : s.queues[q].rxPseq = some pseq) :
    exec (.queueAbort n tag pseq) s =
      .next (((s.rxFlit n).modQueue q fun x => { x with prod := none, rxPseq := none, credits := x.credits + o.cap + 1 }).sendCredit n tag true (o.cap + 1)) := by
  rw [show exec (.queueAbort n tag pseq) s = execQueueAbort n tag pseq s from rfl, execQueueAbort, hup, hq]
  dsimp only
  rw [if_neg (by decide), show (s.rxFlit n).queues[q] = s.queues[q] from rfl, ho]
  exact if_pos hpseq

end

/-! ### CLOSED and CREDIT (R474, R480) -/

section

variable {s : State} {n : PortId} {tag : BitVec 32} {q : QueueId} (hup : s.itemUp n tag 2 = true) (hq : s.txQueue n tag = some q) (pseq : BitVec 16)
include hup hq

theorem exec_closed_of_other (hpseq : s.queues[q].txPseq ≠ pseq) : exec (.closed n tag pseq) s = .next (s.rxFlit n) := by
  rw [show exec (.closed n tag pseq) s = execClosed n tag pseq s from rfl, execClosed, hup, hq]
  dsimp only
  rw [if_neg (by decide), show (s.rxFlit n).queues[q] = s.queues[q] from rfl, beq_eq_false_iff_ne.mpr hpseq, Bool.and_false]
  rfl

theorem exec_closed_of_sent (hbusy : s.queues[q].txBusy = true) (hpseq : s.queues[q].txPseq = pseq) : exec (.closed n tag pseq) s =
    .next (((((s.rxFlit n).qTake q).qDone q).modQueue q fun x => { x with txBusy := false, txPseq := x.txPseq + 1 }).graftTrySend q) := by
  rw [show exec (.closed n tag pseq) s = execClosed n tag pseq s from rfl, execClosed, hup, hq]
  dsimp only
  rw [if_neg (by decide), show (s.rxFlit n).queues[q] = s.queues[q] from rfl, hbusy, beq_iff_eq.mpr hpseq]
  rfl

end

theorem State.graftTrySend_of_idle {s : State} {q : QueueId} (h : s.queues[q].txBusy = true ∨ s.queues[q].pending = []) : s.graftTrySend q = s := by
  unfold State.graftTrySend
  split
  · rfl
  · split
    next hpending =>
      split
      · rfl
      · have hbusy : s.queues[q].txBusy = true := h.resolve_right fun e => List.cons_ne_nil _ _ (hpending.symm.trans e)
        dsimp only
        rw [hbusy, Bool.not_true, Bool.and_false]
        rfl
    · rfl

/-- CREDIT for a queue that sends nothing now: its grant grows. -/
theorem exec_credit_queue {s : State} {n : PortId} {tag : BitVec 32} {q : QueueId} (hst : s.grafts[n].st = .up) (hq : s.txQueue n tag = some q)
    (hidle : s.queues[q].txBusy = true ∨ s.queues[q].pending = []) (w : BitVec 17) :
    exec (.credit n tag true w) s = .next ((s.rxFlit n).modQueue q fun x => { x with txGrant := x.txGrant + w.toNat }) := by
  have hgrown := (s.rxFlit n).modQueue_queue_self q fun x => { x with txGrant := x.txGrant + w.toNat }
  have hq' : (s.rxFlit n).txQueue n tag = some q := hq
  rw [show exec (.credit n tag true w) s = execCredit n tag true w s from rfl, execCredit, if_neg (by rw [hst]; decide)]
  dsimp only
  rw [if_pos rfl, hq']
  refine congrArg Host.Outcome.next (State.graftTrySend_of_idle ?_)
  rw [hgrown]
  exact hidle

/-- CREDIT for a chain link that leaves on the port. -/
theorem exec_credit_link {s : State} {n : PortId} {tag : BitVec 32} {i : Nat} {l : Link} (hst : s.grafts[n].st = .up) (hl : s.links[i]? = some l)
    (honly : ∀ (j : Nat) k, s.links[j]? = some k → (k.toGraft = true ∧ k.outPort = n ∧ k.tag = tag ∧ k.broken = false ↔ j = i)) (w : BitVec 17) :
    exec (.credit n tag false w) s = .next ((s.rxFlit n).modLink i fun l => { l with credits := l.credits + w.toNat }) := by
  have hcond : ∀ k : Link, (k.toGraft && k.outPort == n && k.tag == tag && !k.broken) = true ↔
      k.toGraft = true ∧ k.outPort = n ∧ k.tag = tag ∧ k.broken = false := fun k => by simp [and_assoc]
  obtain ⟨hi, rfl⟩ := List.getElem?_eq_some_iff.mp hl
  have hfind : (s.rxFlit n).links.findIdx? (fun l => l.toGraft && l.outPort == n && l.tag == tag && !l.broken) = some i := by
    refine List.findIdx?_eq_some_iff_getElem.mpr ⟨hi, (hcond _).mpr ((honly i _ hl).mpr rfl), fun j hj => ?_⟩
    rw [Bool.not_eq_true, ← Bool.not_eq_true, hcond]
    exact fun h => absurd ((honly j _ (List.getElem?_eq_getElem _)).mp h) (ne_of_lt hj)
  rw [show exec (.credit n tag false w) s = execCredit n tag false w s from rfl, execCredit, if_neg (by rw [hst]; decide)]
  dsimp only
  rw [if_neg (by decide), hfind]

end Sys2Proof.Machine

open Sys2Proof Sys2Proof.Machine Sys2Proof.Safety

/-- Settles O55: what arrives is `exec_queueData_first` and `exec_queueData_next`, a whole packet `State.finishRx_of_whole`, the choice of R475
`GraftPort.choose_chosen`. -/
theorem graftPackets : Obligations.GraftPackets := by
  unfold Obligations.GraftPackets
  intro s n tag hst ctl waits wire
  have hwire : ∀ ws : List (Word × Bool), wire ws (ws.map fun w => qword w.1 w.2) := fun ws => by
    show ((ws.map fun w => qword w.1 w.2).map fun w => (w.w, w.poison)) = ws
    rw [List.map_map]
    exact List.map_id' ws
  have hrx : ∀ m, m ≠ n → (s.rxFlit n).grafts[m] = s.grafts[m] := fun m => s.graft_modGraft_ne _
  have hrxWaiting : (s.rxFlit n).grafts[n].waiting = s.grafts[n].waiting := (congrArg GraftPort.waiting (s.graft_modGraft_self n _) :)
  refine ⟨fun q pseq htag hq hclosed => ⟨fun w ws hprod => ?first, fun o ws ho hpseq hwords hlen => ?next, fun o w rest ws ho hpseq hwords hlen => ?last,
    fun o ho hpseq => ?abort⟩, fun q pseq ws htag hq hclosed => ?again, fun q pseq htag hq => ⟨fun k ks hbusy hpseq hpending => ?closed, fun hpseq => ?strange⟩,
    fun w => ⟨fun q hq hidle => ?credit, fun i l hl honly => ?linkCredit⟩, s.grafts[n].choose_eq_none, fun f hf => ?chosen⟩
  case first =>
    intro c hcredits hlen
    exact ⟨_, exec_queueData_first (State.itemUp_of_mem hst htag) hq pseq hclosed rfl hprod hcredits hlen,
      ⟨_, (s.rxFlit n).modQueue_queue_self q _, rfl, hwire _⟩, onlyQueue_modQueue (s.rxFlit n) q _, rfl⟩
  case next =>
    have hexec := exec_queueData_next (State.itemUp_of_mem hst htag) hq pseq hclosed ho hpseq hwords (ws := ws) hlen.le
    have hqueue := (s.rxFlit n).modQueue_queue_self q fun x => { x with prod := some { o with words := o.words ++ ws.map fun w => qword w.1 w.2 } }
    rw [State.finishRx_of_partial (congrArg Queue.prod hqueue :) (by simpa using hlen)] at hexec
    exact ⟨_, hexec, ⟨_, hqueue, rfl, _, rfl, hwire ws⟩, onlyQueue_modQueue (s.rxFlit n) q _, rfl⟩
  case last =>
    have hexec := exec_queueData_next (State.itemUp_of_mem hst htag) hq pseq hclosed ho hpseq (by rw [hwords]; exact List.cons_ne_nil _ _) (ws := ws) hlen.le
    have hqueue := (s.rxFlit n).modQueue_queue_self q fun x => { x with prod := some { o with words := o.words ++ ws.map fun w => qword w.1 w.2 } }
    obtain ⟨u, k, tail, hfinish, hkwords, hbad, htyp, hktag, hown⟩ := State.finishRx_of_whole (congrArg Queue.prod hqueue :)
      (w := w) (rest := rest ++ ws.map fun w => qword w.1 w.2) (by rw [hwords]; rfl) (by simpa using hlen) n tag pseq
    rw [hfinish, State.sendQueueCtrl_closed] at hexec
    rw [hqueue] at hown
    refine ⟨_, hexec, ⟨k, _, (congrArg Queue.pending hown :), hkwords, hwire ws, hbad, htyp, hktag⟩, (congrArg Queue.prod hown :), (congrArg Queue.rxClosed hown :),
      (congrArg Queue.credits hown :), ?_⟩
    rw [State.waiting_waitFlit]
    exact ⟨_, List.mem_append_right _ (List.mem_singleton.mpr rfl), rfl, rfl, rfl⟩
  case abort =>
    have hexec := exec_queueAbort_of_open (State.itemUp_of_mem hst htag) hq pseq ho hpseq
    rw [State.sendCredit_queue] at hexec
    refine ⟨_, hexec, (s.rxFlit n).modQueue_queue_self q _, onlyQueue_modQueue (s.rxFlit n) q _, ?_, rfl⟩
    exact ⟨_, (State.waiting_waitFlit ..).trans (congrArg (· ++ _) hrxWaiting), rfl, rfl, rfl, fun m hm => (State.graft_modGraft_ne _ _ hm).trans (hrx m hm)⟩
  case again =>
    have hexec := exec_queueData_of_closed (State.itemUp_of_mem hst htag) hq pseq hclosed ws
    rw [State.sendQueueCtrl_closed] at hexec
    refine ⟨_, hexec, ?_, rfl⟩
    exact ⟨_, (State.waiting_waitFlit ..).trans (congrArg (· ++ _) hrxWaiting), rfl, rfl, rfl, fun m hm => (State.graft_modGraft_ne _ _ hm).trans (hrx m hm)⟩
  case closed =>
    have hexec := exec_closed_of_sent (State.itemUp_of_mem hst htag) hq pseq hbusy hpseq
    have htake := State.qTake_of_pending (s := s.rxFlit n) (q := q) hpending
    have htaken := (s.rxFlit n).modQueue_queue_self q fun x => { x with cons := some { pkt := k, pos := 0 }, pending := ks, consVoid := false }
    rw [← htake] at htaken
    obtain ⟨ring, grafts, hdone⟩ := State.qDone_eq (congrArg Queue.cons htaken :)
    have hfreed := ((s.rxFlit n).qTake q).modQueue_queue_self q fun x => x.freed { pkt := k, pos := 0 }
    rw [htaken] at hfreed
    have hqueues : (((s.rxFlit n).qTake q).qDone q).queues = (((s.rxFlit n).qTake q).modQueue q fun x => x.freed { pkt := k, pos := 0 }).queues :=
      (congrArg State.queues hdone :)
    generalize ((s.rxFlit n).qTake q).qDone q = u at hexec hqueues
    have hsent := u.modQueue_queue_self q fun x => { x with txBusy := false, txPseq := x.txPseq + 1 }
    have hnotice := State.graftTrySend_notices (u.modQueue q fun x => { x with txBusy := false, txPseq := x.txPseq + 1 }) q
    have hown := hnotice.own
    rw [hsent, hqueues, hfreed] at hown
    refine ⟨_, hexec, (congrArg Queue.pending hown :), (congrArg Queue.txPseq hown :).trans (congrArg (· + 1) hpseq), (congrArg Queue.cons hown :),
      (congrArg Queue.credits hown :).trans (Nat.add_assoc ..).symm, ?_⟩
    refine onlyQueue_of_forall_ne fun r hr => ?_
    rw [hnotice.queue r hr, State.modQueue_queue_ne _ _ hr, hqueues, State.modQueue_queue_ne _ _ hr, htake, State.modQueue_queue_ne _ _ hr]
    rfl
  case strange => exact ⟨_, exec_closed_of_other (State.itemUp_of_mem hst htag) hq pseq hpseq, rfl, rfl⟩
  case credit => exact ⟨_, exec_credit_queue hst hq hidle w, (s.rxFlit n).modQueue_queue_self q _, onlyQueue_modQueue (s.rxFlit n) q _, rfl⟩
  case linkCredit =>
    have hmod : ∀ j, ((s.rxFlit n).modLink i fun l => { l with credits := l.credits + w.toNat }).links[j]? =
        (if i = j then (fun l : Link => { l with credits := l.credits + w.toNat }) else id) <$> s.links[j]? := fun j => by
      show (lmod s.links i _)[j]? = _
      rw [lmod_eq_modify, List.getElem?_modify]
      split <;> rfl
    refine ⟨_, exec_credit_link hst hl honly w, ?_, fun j hj => ?_, rfl⟩
    · rw [hmod, if_pos rfl, hl]
      rfl
    · refine (hmod j).trans ?_
      rw [if_neg (Ne.symm hj)]
      exact id_map _
  case chosen =>
    obtain ⟨hmem, htwo, hthree, hturn⟩ := GraftPort.choose_chosen hf
    have hport := s.graft_modGraft_self n fun p => { p with waiting := p.waiting.erase f, served := if f.cls = 3 then f.flow else p.served }
    refine ⟨hmem, htwo, hthree, hturn, ?_, ?_, ?_⟩
    all_goals rw [State.portTurn_of_chosen hf]
    · show s.outbox ++ [Output.flit n (flitHdr _ f.kind _ f.words.length) f.words] = _
      rw [hport]
      rfl
    · exact (congrArg GraftPort.waiting (State.graft_modGraft_self _ n _) :).trans (congrArg GraftPort.waiting hport)
    · rfl

end

section
/-! SUPPORT. What each state operation and each instruction does to the memory: either it leaves the memory alone (`_mem`), or memory in canonical
form stays so (`_wf`). The lemmas follow the order in which the operations call each other, and the settling of O60 reads them off. -/
namespace Sys2Proof.Machine
open Sys2Proof.Safety

theorem foldl_mem {α : Type} {f : State → α → State} (h : ∀ s a, (f s a).mem = s.mem) (l : List α) (s : State) : (l.foldl f s).mem = s.mem := by
  induction l generalizing s with
  | nil => rfl
  | cons a l ih => exact (ih (f s a)).trans (h s a)

theorem foldl_mem_wf {α : Type} {f : State → α → State} (h : ∀ s : State, s.mem.wf = true → ∀ a, (f s a).mem.wf = true) (l : List α) {s : State}
    (hs : s.mem.wf = true) : (l.foldl f s).mem.wf = true := by
  induction l generalizing s with
  | nil => exact hs
  | cons a l ih => exact ih (h s hs a)

/-- The memory after a command that completes is the one before. -/
def outMem (s : State) : Out → Prop
  | .next t => t.mem = s.mem
  | _ => True

/-- The memory after a command that completes is in canonical form. -/
def outWf : Out → Prop
  | .next t => t.mem.wf = true
  | _ => True

@[simp] theorem outMem_next (s t : State) : outMem s (.next t) ↔ t.mem = s.mem := ⟨id, id⟩
@[simp] theorem outWf_next (t : State) : outWf (.next t) ↔ t.mem.wf = true := ⟨id, id⟩

/-- The memory that an instruction's effect leaves is in canonical form. -/
def actWf : Act → Prop
  | .done t _ _ | .jump t _ | .faultIn t _ _ | .stallIn t _ | .hold t => t.mem.wf = true
  | _ => True

@[simp] theorem actWf_done (t : State) (w0 w1 : Bool) : actWf (.done t w0 w1) ↔ t.mem.wf = true := ⟨id, id⟩
@[simp] theorem actWf_jump (t : State) (pc : WordAddr) : actWf (.jump t pc) ↔ t.mem.wf = true := ⟨id, id⟩
@[simp] theorem actWf_fault (c : Cause) (a : Word) : actWf (.fault c a) := trivial
@[simp] theorem actWf_faultIn (t : State) (c : Cause) (a : Word) : actWf (.faultIn t c a) ↔ t.mem.wf = true := ⟨id, id⟩
@[simp] theorem actWf_stall (k : WaitKind) : actWf (.stall k) := trivial
@[simp] theorem actWf_stallIn (t : State) (k : WaitKind) : actWf (.stallIn t k) ↔ t.mem.wf = true := ⟨id, id⟩
@[simp] theorem actWf_hold (t : State) : actWf (.hold t) ↔ t.mem.wf = true := ⟨id, id⟩
@[simp] theorem actWf_double (c : Cause) : actWf (.double c) := trivial

theorem mem_with_hwd (s : State) (h : Hwd) : ({ s with hwd := h } : State).mem = s.mem := rfl

theorem ite_mem {c : Prop} [Decidable c] {s t u : State} (ht : t.mem = s.mem) (hu : u.mem = s.mem) : (if c then t else u).mem = s.mem := by
  split <;> assumption

theorem outWf_of_mem {s : State} {o : Out} (h : outMem s o) (hs : s.mem.wf = true) : outWf o := by
  cases o with
  | next t => exact (congrArg Memory.wf h).trans hs
  | _ => trivial

theorem mem_wf_of_outWf {o : Out} {t : State} (h : outWf o) (ht : o = .next t) : t.mem.wf = true := by
  rw [ht] at h
  exact h

theorem mem_wf_of_outMem {s t : State} {o : Out} (hm : outMem s o) (h : s.mem.wf = true) (ht : o = .next t) : t.mem.wf = true :=
  mem_wf_of_outWf (outWf_of_mem hm h) ht

@[simp] theorem State.meterBough_mem (s : State) (b : BoughId) (f : Counters → Counters) : (s.meterBough b f).mem = s.mem := by
  simp [State.meterBough]

@[simp] theorem State.enterTrap_wf {s : State} (t : TwigId) (k : TrapInfo) (h : s.mem.wf = true) : (s.enterTrap t k).mem.wf = true := by
  cases t with
  | crown c => simp [State.enterTrap, h, Memory.write_wf]
  | bough b =>
    unfold State.enterTrap
    dsimp only
    split_ifs <;> simp [h, Memory.write_wf]

@[simp] theorem State.ringAdd_mem (s : State) (i : Nat) (k : Nat) : (s.ringAdd i k).mem = s.mem := by
  unfold State.ringAdd
  repeat' split
  all_goals simp

@[simp] theorem State.waitFlit_mem (s : State) (n : PortId) (cls : Nat) (flow : Nat) (kind : Nat) (ws : List Word) :
    (s.waitFlit n cls flow kind ws).mem = s.mem := rfl

@[simp] theorem State.sendCredit_mem (s : State) (n : PortId) (tag : BitVec 32) (isQueue : Bool) (words : Nat) :
    (s.sendCredit n tag isQueue words).mem = s.mem := rfl

@[simp] theorem State.giveCredit_mem (s : State) (i : Nat) (k : Nat) : (s.giveCredit i k).mem = s.mem := by
  unfold State.giveCredit
  repeat' split
  all_goals simp

@[simp] theorem State.leaveBuffer_mem (s : State) (i : Nat) (k : Nat) : (s.leaveBuffer i k).mem = s.mem := by
  unfold State.leaveBuffer
  repeat' split
  all_goals simp

@[simp] theorem State.sinkDrop_mem (s : State) (i : Nat) : (s.sinkDrop i).mem = s.mem := by
  unfold State.sinkDrop
  repeat' split
  all_goals simp

@[simp] theorem State.sinkLinks_mem (s : State) (ls : List Nat) : (s.sinkLinks ls).mem = s.mem := by
  unfold State.sinkLinks
  refine foldl_mem (fun s x => ?_) _ _
  all_goals simp

@[simp] theorem State.sendChainData_mem (s : State) (n : PortId) (tag : BitVec 32) (ep : BitVec 16) (off : Nat) (ws : List (Word × Bool)) :
    (s.sendChainData n tag ep off ws).mem = s.mem := rfl

@[simp] theorem State.sendChainToken_mem (s : State) (n : PortId) (tag : BitVec 32) (ep : BitVec 16) (token : Nat) (len : Nat) :
    (s.sendChainToken n tag ep token len).mem = s.mem := rfl

@[simp] theorem State.sendDown_mem (s : State) (i : Nat) (m : ChainMsg) : (s.sendDown i m).mem = s.mem := by
  unfold State.sendDown
  repeat' split
  all_goals simp

@[simp] theorem abortSends_mem (xs : List SendSt) (s : State) : (abortSends xs s).mem = s.mem := by
  induction xs generalizing s with
  | nil => rfl
  | cons x xs ih =>
    rw [abortSends, ih]
    split
    · rfl
    · split_ifs <;> simp

@[simp] theorem State.discardHalf_mem (s : State) (b : BoughId) (h : Fin 2) : (s.discardHalf b h).mem = s.mem := by
  unfold State.discardHalf
  dsimp only
  repeat' split
  all_goals simp

@[simp] theorem State.qOpen_mem (s : State) (q : QueueId) (c : Nat) : (s.qOpen q c).mem = s.mem := rfl

@[simp] theorem State.sendMsix_mem (s : State) (fn : HostFn) (entry : Nat) : (s.sendMsix fn entry).mem = s.mem := by
  unfold State.sendMsix
  dsimp only
  repeat' split
  all_goals simp

@[simp] theorem State.sendQueueWords_mem (s : State) (n : PortId) (tag : BitVec 32) (pseq : BitVec 16) (fuel off : Nat) (ws : List (Word × Bool)) :
    (s.sendQueueWords n tag pseq fuel off ws).mem = s.mem := (congrArg State.mem (s.sendQueueWords_notices 0 n tag pseq fuel off ws).frame :)

@[simp] theorem State.graftTrySend_mem (s : State) (q : QueueId) :
    (s.graftTrySend q).mem = s.mem := (congrArg State.mem (s.graftTrySend_notices q).frame :)

@[simp] theorem State.queueNotice_mem (s : State) (q : QueueId) :
    (s.queueNotice q).mem = s.mem := (congrArg State.mem (s.queueNotice_notices q).frame :)

@[simp] theorem State.qClose_mem (s : State) (q : QueueId) (typ : BitVec 8) (tag : BitVec 32) (lenBad : Bool) :
    (s.qClose q typ tag lenBad).mem = s.mem := by
  unfold State.qClose
  split <;> simp

theorem State.postPacket_mem {s t : State} {q : QueueId} {typ : Nat} {ws : List Word} (h : s.postPacket q typ ws = some t) : t.mem = s.mem := by
  unfold State.postPacket at h
  dsimp only at h
  split_ifs at h
  cases h
  simp [State.qOpen]

@[simp] theorem postMsgs_mem (fuel : Nat) (s : State) (p : PlotId) (ms : List (BoughId × BitVec 8 × Word)) (blocked : List BoughId) :
    (postMsgs fuel s p ms blocked).1.mem = s.mem := (congrArg State.mem (postMsgs_messages fuel s p ms blocked).frame :)

@[simp] theorem State.postHeldMsgs_mem (s : State) (p : PlotId) : (s.postHeldMsgs p).mem = s.mem := by
  simp [State.postHeldMsgs]

@[simp] theorem State.crownMessage_mem (s : State) (p : PlotId) (typ : Nat) (w : Word) : (s.crownMessage p typ w).mem = s.mem :=
  (congrArg State.mem (s.crownMessage_messages p typ w).frame :)

@[simp] theorem State.doubleFault_mem (s : State) (t : TwigId) (c : Cause) : (s.doubleFault t c).mem = s.mem := by
  cases t with
  | crown k => simp [State.doubleFault]
  | bough b =>
    unfold State.doubleFault
    dsimp only
    split <;> simp

@[simp] theorem State.takeTrap_wf {s : State} (t : TwigId) (k : TrapInfo) (h : s.mem.wf = true) : (s.takeTrap t k).mem.wf = true := by
  unfold State.takeTrap
  repeat' split
  all_goals simp [h]

@[simp] theorem State.countProg_mem (s : State) (t : TwigId) (a : Nat) : (s.countProg t a).mem = s.mem := by
  unfold State.countProg
  repeat' split
  all_goals simp

@[simp] theorem State.fillLine_mem (s : State) (t : TwigId) (line : Nat) : (s.fillLine t line).mem = s.mem := by
  simp [State.fillLine]

@[simp] theorem State.fetchFrom_mem (s : State) (t : TwigId) (x : Nat) (n : Nat) : (s.fetchFrom t x n).mem = s.mem := by
  unfold State.fetchFrom
  refine foldl_mem (fun s x => ?_) _ _
  repeat' split
  all_goals simp

@[simp] theorem State.fetchWords_mem (s : State) (t : TwigId) (n : Nat) : (s.fetchWords t n).mem = s.mem := by
  simp [State.fetchWords]

@[simp] theorem State.waitAt_mem (s : State) (t : TwigId) (i : Instr) (k : WaitKind) : (s.waitAt t i k).mem = s.mem := by
  simp [State.waitAt]

@[simp] theorem State.twigFault_wf {s : State} (t : TwigId) (c : Cause) (addr : Word) (h : s.mem.wf = true) :
    (s.twigFault t c addr).mem.wf = true := by
  simp [State.twigFault, h]

@[simp] theorem State.faultAt_wf {s s' : State} (t : TwigId) (i : Instr) (c : Cause) (a : Word) (h : s.mem.wf = true) (h' : s'.mem.wf = true) :
    (s.faultAt t i s' c a).mem.wf = true := by
  unfold State.faultAt
  split_ifs <;> simp [h, h']

@[simp] theorem twigBegin_wf (i : Instr) (t : TwigId) {s : State} {k : State → State} (hk : ∀ u : State, u.mem.wf = true → (k u).mem.wf = true) (h : s.mem.wf = true) :
    (twigBegin i t s k).mem.wf = true := by
  unfold twigBegin
  dsimp only
  split_ifs
  · exact h
  · simp [h]
  · split
    · simp [h]
    · split
      · simp [h]
      · exact hk _ (by simp [h])

@[simp] theorem State.act_wf {s : State} (t : TwigId) (i : Instr) (n : Nat) {a : Act} (h : s.mem.wf = true) (ha : actWf a) :
    (s.act t i n a).mem.wf = true := by
  cases a <;> simp_all [State.act]

@[simp] theorem State.waitWhile_wf (s : State) (t : TwigId) (wk : WaitKind) (cond : Bough → Bool) {k : Act} (hk : actWf k) :
    actWf (s.waitWhile t wk cond k) := by
  unfold State.waitWhile
  dsimp only
  repeat' split
  all_goals simp [hk]

@[simp] theorem State.waitReads_wf (s : State) (t : TwigId) (reads : List GReg) {k : Act} (hk : actWf k) :
    actWf (s.waitReads t reads k) := s.waitWhile_wf t _ _ hk

@[simp] theorem State.blockBroken_wf {s : State} (t : TwigId) (i : Instr) (blk : BlockSt) (h : s.mem.wf = true) :
    (s.blockBroken t i blk).mem.wf = true := by
  simp [State.blockBroken, h]

theorem runTwig_wf (i : Instr) (t : TwigId) (gu : PReg) (f : TwigForm) {eff : State → Act} (heff : ∀ u : State, u.mem.wf = true → actWf (eff u)) {s : State}
    (h : s.mem.wf = true) : (runTwig i t gu f eff s).mem.wf = true := by
  refine twigBegin_wf i t (fun u hu => ?_) h
  have heffect := heff ((u.modTwig t Twig.latched).fetchWords t f.words) (by simp [hu])
  dsimp only
  repeat' split
  all_goals simp [hu, heffect]

@[simp] theorem runReserved_wf {s : State} (t : TwigId) (w : Word14) (h : s.mem.wf = true) : (runReserved t w s).mem.wf = true := by
  unfold runReserved
  split_ifs
  · exact h
  · exact runTwig_wf _ _ _ _ (fun u hu => by simpa using hu) h

@[simp] theorem State.waitFor_wf (s : State) (t : TwigId) (cond : Bough → Bool) {k : Act} (hk : actWf k) :
    actWf (s.waitFor t cond k) := s.waitWhile_wf t _ cond hk

@[simp] theorem vecEnter_wf (b : BoughId) (head : WordAddr) (block guarded : Bool) (xs : List (VOp × Nat × VFields)) {s : State} (h : s.mem.wf = true) :
    actWf (vecEnter b head block guarded xs s) := by
  unfold vecEnter
  dsimp only
  split
  · split_ifs <;> simp
  · refine State.waitFor_wf _ _ _ (State.waitReads_wf _ _ _ ?_)
    split
    · simp
    · split_ifs <;> simp [h]

@[simp] theorem blockEnter_wf (i : Instr) (t : TwigId) (b : BoughId) (blk : BlockSt) {s : State} (h : s.mem.wf = true) :
    (blockEnter i t b blk s).mem.wf = true := by
  unfold blockEnter
  dsimp only
  have hact := vecEnter_wf b (s.twig t).pc true blk.bad (blk.members.filterMap fun j => (vecOf j).map fun x => (x.1, x.2.1, x.2.2.1)) h
  split
  next heq =>
    rw [heq] at hact
    simpa using hact
  · exact State.act_wf _ _ _ h hact

@[simp] theorem vecMember_wf (i : Instr) (t : TwigId) (gu : PReg) (x : VOp × Nat × VFields) (blk : BlockSt) {s : State} (h : s.mem.wf = true) :
    (vecMember i t gu x blk s).mem.wf = true := by
  unfold vecMember
  dsimp only
  repeat' split
  all_goals simp [h]

@[simp] theorem vecSingle_wf (i : Instr) (t : TwigId) (gu : PReg) (op : VOp) (src : Nat) (f : VFields) {s : State} (h : s.mem.wf = true) :
    (vecSingle i t gu op src f s).mem.wf = true := by
  refine runTwig_wf _ _ _ _ (fun u hu => ?_) h
  cases t <;> simp [hu]

@[simp] theorem runVec_wf (i : Instr) (t : TwigId) (gu : PReg) (op : VOp) (src : Nat) (f : VFields) {s : State} (h : s.mem.wf = true) :
    (runVec i t gu op src f s).mem.wf = true := by
  unfold runVec
  repeat' split
  all_goals simp [h]

theorem execNop_wf (t : TwigId) (gu : PReg) {s : State} (h : s.mem.wf = true) : outWf (execNop t gu s) :=
  runTwig_wf _ t gu _ (fun u hu => by simpa using hu) h

theorem execIsync_wf (t : TwigId) (gu : PReg) {s : State} (h : s.mem.wf = true) : outWf (execIsync t gu s) := by
  unfold execIsync
  refine runTwig_wf _ _ _ _ (fun u hu => ?_) h
  all_goals simp [hu]

@[simp] theorem State.draw_mem (s : State) : s.draw.2.mem = s.mem := rfl

@[simp] theorem State.eccRoot_mem (s : State) (w : Nat) (k : Mark) (scrub : Bool) (count : Bool) : (s.eccRoot w k scrub count).mem = s.mem := by
  simp [State.eccRoot]

@[simp] theorem State.eccScratch_mem (s : State) (b : BoughId) (w : Nat) (k : Mark) (sweep : Bool) : (s.eccScratch b w k sweep).mem = s.mem := by
  simp [State.eccScratch]

@[simp] theorem State.observe_mem (s : State) (a : Nat) (n : Nat) (bg : Bool) : (s.observe a n bg).mem = s.mem := by
  unfold State.observe
  refine foldl_mem (fun s x => ?_) _ _
  repeat' split
  all_goals simp

@[simp] theorem State.spend_mem (s : State) (p : Option Nat) (units : Nat) : (s.spend p units).mem = s.mem := by
  unfold State.spend
  repeat' split
  all_goals simp

@[simp] theorem State.meterScratch_mem (s : State) (b : BoughId) (d : BoughId) (k : Nat) : (s.meterScratch b d k).mem = s.mem := by
  unfold State.meterScratch
  dsimp only
  repeat' split
  all_goals simp

@[simp] theorem State.ownRead_mem (s : State) (t : TwigId) (a : Nat) (n : Nat) : (s.ownRead t a n).mem = s.mem := by
  unfold State.ownRead
  repeat' split
  all_goals simp

theorem execRet_wf (t : TwigId) (gu : PReg) {s : State} (h : s.mem.wf = true) : outWf (execRet t gu s) := by
  refine runTwig_wf _ t gu _ (fun u hu => ?_) h
  dsimp only
  split
  · simp
  · refine State.waitFor_wf _ _ _ ?_
    split
    · simp
    split
    · simp [hu]
    generalize u.mem.readWord ((u.twig t).reg 15).toNat = ra
    split
    · split_ifs <;> simp [hu]
    · simp [hu]

theorem execWfi_wf (t : TwigId) (gu : PReg) {s : State} (h : s.mem.wf = true) : outWf (execWfi t gu s) := by
  unfold execWfi
  refine runTwig_wf _ _ _ _ (fun u hu => ?_) h
  dsimp only
  repeat' split
  all_goals simp [hu]

theorem execHalt_wf (t : TwigId) (gu : PReg) {s : State} (h : s.mem.wf = true) : outWf (execHalt t gu s) := by
  unfold execHalt
  refine runTwig_wf _ _ _ _ (fun u hu => ?_) h
  repeat' split
  all_goals simp [hu]

@[simp] theorem State.setG_mem (s : State) (t : TwigId) (g : GReg) (v : Word) : (s.setG t g v).mem = s.mem := by
  simp [State.setG]

@[simp] theorem aluRun_wf (i : Instr) (t : TwigId) (gu : PReg) (f : TwigForm) (gd : GReg) (v : Twig → Word) {s : State} (h : s.mem.wf = true) :
    (aluRun i t gu f gd v s).mem.wf = true :=
  runTwig_wf i t gu f (fun u hu => by simpa using hu) h

theorem execNeg_wf (t : TwigId) (gu : PReg) (gd : GReg) {s : State} (h : s.mem.wf = true) : outWf (execNeg t gu gd s) := by
  simp [execNeg, h]

theorem execNot_wf (t : TwigId) (gu : PReg) (gd : GReg) {s : State} (h : s.mem.wf = true) : outWf (execNot t gu gd s) := by
  simp [execNot, h]

theorem execAbs_wf (t : TwigId) (gu : PReg) (gd : GReg) {s : State} (h : s.mem.wf = true) : outWf (execAbs t gu gd s) := by
  simp [execAbs, h]

@[simp] theorem State.transfer_wf {s : State} (t : TwigId) (x : Word) (h : s.mem.wf = true) : actWf (s.transfer t x) := by
  unfold State.transfer
  repeat' split
  all_goals simp [h]

theorem execJmpr_wf (t : TwigId) (gu : PReg) (gs : GReg) {s : State} (h : s.mem.wf = true) : outWf (execJmpr t gu gs s) := by
  unfold execJmpr
  refine runTwig_wf _ _ _ _ (fun u hu => ?_) h
  all_goals simp [hu]

@[simp] theorem State.newId_mem (s : State) : s.newId.2.mem = s.mem := rfl

@[simp] theorem State.sendBurst_mem (s : State) (b : Burst) : (s.sendBurst b).mem = s.mem := rfl

@[simp] theorem State.countUplink_mem (s : State) (g : GroveId) (k : Nat) (n : Nat) : (s.countUplink g k n).mem = s.mem := rfl

@[simp] theorem State.countLeave_mem (s : State) (g : GroveId) (a : Nat) : (s.countLeave g a).mem = s.mem := by
  unfold State.countLeave
  repeat' split
  all_goals simp

@[simp] theorem State.countTwigUplink_mem (s : State) (t : TwigId) (a : Nat) : (s.countTwigUplink t a).mem = s.mem := by
  unfold State.countTwigUplink
  repeat' split
  all_goals simp

theorem execSdadv_wf (t : TwigId) (gu : PReg) (n : Fin 16) {s : State} (h : s.mem.wf = true) : outWf (execSdadv t gu n s) := by
  unfold execSdadv
  refine runTwig_wf _ _ _ _ (fun u hu => ?_) h
  repeat' split
  all_goals simp [hu]

theorem execPnot_wf (t : TwigId) (gu : PReg) (pd : PReg) (ps : PReg) {s : State} (h : s.mem.wf = true) : outWf (execPnot t gu pd ps s) := by
  unfold execPnot
  refine runTwig_wf _ _ _ _ (fun u hu => ?_) h
  all_goals simp [hu]

theorem execPmov_wf (t : TwigId) (gu : PReg) (pd : PReg) (ps : PReg) {s : State} (h : s.mem.wf = true) : outWf (execPmov t gu pd ps s) := by
  unfold execPmov
  refine runTwig_wf _ _ _ _ (fun u hu => ?_) h
  all_goals simp [hu]

theorem execMov_wf (t : TwigId) (gu : PReg) (gd : GReg) (gs : GReg) {s : State} (h : s.mem.wf = true) : outWf (execMov t gu gd gs s) := by
  simp [execMov, h]

theorem execAdd_wf (t : TwigId) (gu : PReg) (gd : GReg) (gs : GReg) {s : State} (h : s.mem.wf = true) : outWf (execAdd t gu gd gs s) := by
  simp [execAdd, h]

theorem execSub_wf (t : TwigId) (gu : PReg) (gd : GReg) (gs : GReg) {s : State} (h : s.mem.wf = true) : outWf (execSub t gu gd gs s) := by
  simp [execSub, h]

theorem execMovi_wf (t : TwigId) (gu : PReg) (gd : GReg) (imm : BitVec 4) {s : State} (h : s.mem.wf = true) : outWf (execMovi t gu gd imm s) := by
  simp [execMovi, h]

theorem execAddi_wf (t : TwigId) (gu : PReg) (gd : GReg) (imm : BitVec 4) {s : State} (h : s.mem.wf = true) : outWf (execAddi t gu gd imm s) := by
  simp [execAddi, h]

theorem execAnd_wf (t : TwigId) (gu : PReg) (gd : GReg) (gs : GReg) (z : BitVec 4) (gt : GReg) {s : State} (h : s.mem.wf = true) :
    outWf (execAnd t gu gd gs z gt s) := by
  simp [execAnd, h]

theorem execOr_wf (t : TwigId) (gu : PReg) (gd : GReg) (gs : GReg) (z : BitVec 4) (gt : GReg) {s : State} (h : s.mem.wf = true) :
    outWf (execOr t gu gd gs z gt s) := by
  simp [execOr, h]

theorem execXor_wf (t : TwigId) (gu : PReg) (gd : GReg) (gs : GReg) (z : BitVec 4) (gt : GReg) {s : State} (h : s.mem.wf = true) :
    outWf (execXor t gu gd gs z gt s) := by
  simp [execXor, h]

theorem execAndn_wf (t : TwigId) (gu : PReg) (gd : GReg) (gs : GReg) (z : BitVec 4) (gt : GReg) {s : State} (h : s.mem.wf = true) :
    outWf (execAndn t gu gd gs z gt s) := by
  simp [execAndn, h]

theorem execAdd3_wf (t : TwigId) (gu : PReg) (gd : GReg) (gs : GReg) (z : BitVec 4) (gt : GReg) {s : State} (h : s.mem.wf = true) :
    outWf (execAdd3 t gu gd gs z gt s) := by
  simp [execAdd3, h]

theorem execSub3_wf (t : TwigId) (gu : PReg) (gd : GReg) (gs : GReg) (z : BitVec 4) (gt : GReg) {s : State} (h : s.mem.wf = true) :
    outWf (execSub3 t gu gd gs z gt s) := by
  simp [execSub3, h]

theorem execShl_wf (t : TwigId) (gu : PReg) (gd : GReg) (gs : GReg) (z : BitVec 4) (gt : GReg) {s : State} (h : s.mem.wf = true) :
    outWf (execShl t gu gd gs z gt s) := by
  simp [execShl, h]

theorem execShr_wf (t : TwigId) (gu : PReg) (gd : GReg) (gs : GReg) (z : BitVec 4) (gt : GReg) {s : State} (h : s.mem.wf = true) :
    outWf (execShr t gu gd gs z gt s) := by
  simp [execShr, h]

theorem execSra_wf (t : TwigId) (gu : PReg) (gd : GReg) (gs : GReg) (z : BitVec 4) (gt : GReg) {s : State} (h : s.mem.wf = true) :
    outWf (execSra t gu gd gs z gt s) := by
  simp [execSra, h]

theorem execRot_wf (t : TwigId) (gu : PReg) (gd : GReg) (gs : GReg) (z : BitVec 4) (gt : GReg) {s : State} (h : s.mem.wf = true) :
    outWf (execRot t gu gd gs z gt s) := by
  simp [execRot, h]

theorem execShli_wf (t : TwigId) (gu : PReg) (gd : GReg) (gs : GReg) (z : BitVec 1) (amt : BitVec 7) {s : State} (h : s.mem.wf = true) :
    outWf (execShli t gu gd gs z amt s) := by
  simp [execShli, h]

theorem execShri_wf (t : TwigId) (gu : PReg) (gd : GReg) (gs : GReg) (z : BitVec 1) (amt : BitVec 7) {s : State} (h : s.mem.wf = true) :
    outWf (execShri t gu gd gs z amt s) := by
  simp [execShri, h]

theorem execSrai_wf (t : TwigId) (gu : PReg) (gd : GReg) (gs : GReg) (z : BitVec 1) (amt : BitVec 7) {s : State} (h : s.mem.wf = true) :
    outWf (execSrai t gu gd gs z amt s) := by
  simp [execSrai, h]

theorem execRoti_wf (t : TwigId) (gu : PReg) (gd : GReg) (gs : GReg) (z : BitVec 1) (amt : BitVec 7) {s : State} (h : s.mem.wf = true) :
    outWf (execRoti t gu gd gs z amt s) := by
  simp [execRoti, h]

theorem execAndi_wf (t : TwigId) (gu : PReg) (gd : GReg) (gs : GReg) (imm : BitVec 8) {s : State} (h : s.mem.wf = true) :
    outWf (execAndi t gu gd gs imm s) := by
  simp [execAndi, h]

theorem execOri_wf (t : TwigId) (gu : PReg) (gd : GReg) (gs : GReg) (imm : BitVec 8) {s : State} (h : s.mem.wf = true) :
    outWf (execOri t gu gd gs imm s) := by
  simp [execOri, h]

theorem execXori_wf (t : TwigId) (gu : PReg) (gd : GReg) (gs : GReg) (imm : BitVec 8) {s : State} (h : s.mem.wf = true) :
    outWf (execXori t gu gd gs imm s) := by
  simp [execXori, h]

theorem execPopc_wf (t : TwigId) (gu : PReg) (gd : GReg) (gs : GReg) (z : BitVec 8) {s : State} (h : s.mem.wf = true) :
    outWf (execPopc t gu gd gs z s) := by
  simp [execPopc, h]

theorem execClz_wf (t : TwigId) (gu : PReg) (gd : GReg) (gs : GReg) (z : BitVec 8) {s : State} (h : s.mem.wf = true) :
    outWf (execClz t gu gd gs z s) := by
  simp [execClz, h]

theorem execMfc_wf (t : TwigId) (gu : PReg) (gd : GReg) (zh : BitVec 4) (z : BitVec 4) (n : Fin 16) {s : State} (h : s.mem.wf = true) :
    outWf (execMfc t gu gd zh z n s) := by
  unfold execMfc
  refine runTwig_wf _ _ _ _ (fun u hu => ?_) h
  repeat' split
  all_goals simp [hu]

@[simp] theorem State.markHeld_mem (s : State) (x : TwigId) : (s.markHeld x).mem = s.mem := by
  unfold State.markHeld
  repeat' split
  all_goals simp

theorem execMtc_wf (t : TwigId) (gu : PReg) (zh : BitVec 4) (gs : GReg) (z : BitVec 4) (n : Fin 16) {s : State} (h : s.mem.wf = true) :
    outWf (execMtc t gu zh gs z n s) := by
  unfold execMtc
  refine runTwig_wf _ _ _ _ (fun u hu => ?_) h
  all_goals simp [hu]

theorem execPmr_wf (t : TwigId) (gu : PReg) (gd : GReg) (gs : GReg) (z : BitVec 8) {s : State} (h : s.mem.wf = true) :
    outWf (execPmr t gu gd gs z s) := by
  unfold execPmr
  refine runTwig_wf _ _ _ _ (fun u hu => ?_) h
  dsimp only
  repeat' split
  all_goals simp [hu]

@[simp] theorem State.markStale_mem (s : State) (t : TwigId) (line : Nat) : (s.markStale t line).mem = s.mem := by
  unfold State.markStale
  repeat' split
  all_goals simp

@[simp] theorem stat_wf (t : TwigId) (gd : GReg) (k : Nat) {s : State} (h : s.mem.wf = true) : actWf (stat t gd k s) := by
  simp [stat, h]

theorem execQopen_wf (t : TwigId) (gu : PReg) (gd : GReg) (gs : GReg) (z : BitVec 4) (gt : GReg) {s : State} (h : s.mem.wf = true) :
    outWf (execQopen t gu gd gs z gt s) := by
  unfold execQopen
  refine runTwig_wf _ _ _ _ (fun u hu => ?_) h
  dsimp only
  repeat' split
  all_goals simp [hu]

theorem execQclose_wf (t : TwigId) (gu : PReg) (gd : GReg) (gs : GReg) (z : BitVec 4) (gt : GReg) {s : State} (h : s.mem.wf = true) :
    outWf (execQclose t gu gd gs z gt s) := by
  unfold execQclose
  refine runTwig_wf _ _ _ _ (fun u hu => ?_) h
  dsimp only
  repeat' split
  all_goals simp [hu]

@[simp] theorem State.qTake_mem (s : State) (q : QueueId) : (s.qTake q).mem = s.mem := rfl

@[simp] theorem State.parityFail_mem (s : State) (q : QueueId) (slot : Nat) (len : Bool) : (s.parityFail q slot len).mem = s.mem := by
  simp [State.parityFail]

@[simp] theorem State.freeSlot_mem (s : State) (q : QueueId) : (s.freeSlot q).mem = s.mem := by
  unfold State.freeSlot
  repeat' split
  all_goals simp

@[simp] theorem State.qDone_mem (s : State) (q : QueueId) : (s.qDone q).mem = s.mem := by
  unfold State.qDone
  dsimp only
  repeat' split
  all_goals simp

theorem execQstat_wf (t : TwigId) (gu : PReg) (gd : GReg) (gs : GReg) (z : BitVec 4) (gt : GReg) {s : State} (h : s.mem.wf = true) :
    outWf (execQstat t gu gd gs z gt s) := by
  unfold execQstat
  refine runTwig_wf _ _ _ _ (fun u hu => ?_) h
  dsimp only
  repeat' split
  all_goals simp [hu]

theorem execCmp_wf (t : TwigId) (gu : PReg) (gs : GReg) (gt : GReg) (cc : BitVec 3) (pd : PReg) (md : BitVec 2) (im : Bool) (imm : BitVec 6) {s : State} (h : s.mem.wf = true) :
    outWf (execCmp t gu gs gt cc pd md im imm s) := by
  unfold execCmp
  refine runTwig_wf _ _ _ _ (fun u hu => ?_) h
  repeat' split
  all_goals simp [hu]

@[simp] theorem State.lookUp_mem (s : State) (b : BoughId) (r : Nat) : (s.lookUp b r).mem = s.mem := by
  simp [State.lookUp]

@[simp] theorem State.startLookup_mem (s : State) (t : TwigId) (ps : List (Nat × Nat)) : (s.startLookup t ps).mem = s.mem := by
  unfold State.startLookup
  repeat' split
  all_goals simp

@[simp] theorem State.touchOwn_mem (s : State) (b : BoughId) (r : Nat) : (s.touchOwn b r).mem = s.mem := rfl

@[simp] theorem State.isoFail_mem (s : State) (master : Nat) (vf : Nat) (plot : Nat) (a : Nat) (write : Bool) :
    (s.isoFail master vf plot a write).mem = s.mem := by
  simp [State.isoFail]

@[simp] theorem State.sendRead_mem (s : State) (r : ReadReq) : (s.sendRead r).mem = s.mem := rfl

@[simp] theorem State.flipTwo_wf {s : State} (w : Nat) (h : s.mem.wf = true) : (s.flipTwo w).mem.wf = true := by
  simp [State.flipTwo, Memory.write_wf, h]

@[simp] theorem State.injectInto_wf {s : State} (bs : List (Nat × Byte)) (h : s.mem.wf = true) : (s.injectInto bs).mem.wf = true := by
  unfold State.injectInto
  split
  · exact h
  · refine foldl_mem_wf (fun s h i => ?_) _ h
    dsimp only
    split
    · rw [State.modStack_mem, State.modMem_mem]
      refine Memory.setMark_wf ?_ _ _
      split <;> simp [h]
    · exact h

@[simp] theorem State.storeBytes_wf {s : State} (bs : List (Nat × Byte)) (h : s.mem.wf = true) : (s.storeBytes bs).mem.wf = true := by
  simp [State.storeBytes, foldl_mem, Memory.write_wf, h]

@[simp] theorem State.storeOwn_wf {s : State} (t : TwigId) (a : Nat) (bs : List Byte) (h : s.mem.wf = true) : (s.storeOwn t a bs).mem.wf = true := by
  cases t <;> simp [State.storeOwn, h]

theorem descRun_wf (i : Instr) (t : TwigId) (gu : PReg) (f : TwigForm) {eff : BoughId → State → Act} (heff : ∀ (b : BoughId) (u : State), u.mem.wf = true → actWf (eff b u))
    {s : State} (h : s.mem.wf = true) : (descRun i t gu f eff s).mem.wf = true := by
  refine runTwig_wf i t gu f (fun u hu => ?_) h
  cases t with
  | bough b => exact heff b u hu
  | crown k => simp

theorem execPfx_wf (t : TwigId) (payload : BitVec 10) {s : State} (h : s.mem.wf = true) : outWf (execPfx t payload s) := by
  refine twigBegin_wf _ t (fun u hu => ?_) h
  dsimp only
  split
  · simp [hu]
  · split_ifs <;> simp [hu]

theorem execPmw_wf (t : TwigId) (gu : PReg) (zh : BitVec 4) (gs : GReg) (z : BitVec 4) (gt : GReg) {s : State} (h : s.mem.wf = true) :
    outWf (execPmw t gu zh gs z gt s) := by
  refine runTwig_wf _ t gu _ (fun u hu => ?_) h
  dsimp only
  split
  · simp
  · simp [hu, Memory.writeLine_wf]

theorem queueRun_wf (i : Instr) (t : TwigId) (gu : PReg) (gs : GReg) (z : BitVec 4) (gt : GReg) (need : Need) {eff : QueueId → State → Act}
    (heff : ∀ (q : QueueId) (u : State), u.mem.wf = true → actWf (eff q u)) {s : State} (h : s.mem.wf = true) : (queueRun i t gu gs z gt need eff s).mem.wf = true := by
  refine runTwig_wf i t gu _ (fun u hu => ?_) h
  dsimp only
  split
  · simp
  · exact heff _ u hu

@[simp] theorem queueWait_wf (t : TwigId) (q : QueueId) (s : State) {k : Act} (hk : actWf k) : actWf (queueWait t q s k) := State.waitFor_wf s t _ hk

theorem execQput_wf (t : TwigId) (gu : PReg) (gd gs : GReg) (z : BitVec 4) (gt : GReg) {s : State} (h : s.mem.wf = true) :
    outWf (execQput t gu gd gs z gt s) := by
  refine queueRun_wf _ t gu gs z gt _ (fun q u hu => queueWait_wf t q u ?_) h
  dsimp only
  split
  · simp [stat, hu]
  · split_ifs <;> simp [stat, hu]

theorem execQtake_wf (t : TwigId) (gu : PReg) (gd gs : GReg) (z : BitVec 4) (gt : GReg) {s : State} (h : s.mem.wf = true) :
    outWf (execQtake t gu gd gs z gt s) := by
  refine queueRun_wf _ t gu gs z gt _ (fun q u hu => queueWait_wf t q u ?_) h
  dsimp only
  split <;> simp [State.qTake, hu]

theorem execQdone_wf (t : TwigId) (gu : PReg) (gd gs : GReg) (z : BitVec 4) (gt : GReg) {s : State} (h : s.mem.wf = true) :
    outWf (execQdone t gu gd gs z gt s) := by
  refine queueRun_wf _ t gu gs z gt _ (fun q u hu => queueWait_wf t q u ?_) h
  split
  · simp
  · dsimp only
    split <;> simp [stat, hu]

@[simp] theorem State.countChecks_mem (s : State) (t : TwigId) (write : Bool) (ps : List (Nat × Nat)) : (s.countChecks t write ps).mem = s.mem := by
  cases t with
  | crown k => rfl
  | bough b =>
    refine foldl_mem (fun s p => ?_) _ _
    dsimp only
    split_ifs <;> split <;> simp

theorem execSdld_wf (t : TwigId) (gu : PReg) (n : Fin 16) (gb : GReg) (off : BitVec 10) {s : State} (h : s.mem.wf = true) :
    outWf (execSdld t gu n gb off s) := by
  unfold execSdld
  refine runTwig_wf _ _ _ _ (fun u hu => ?_) h
  dsimp only
  repeat' split
  all_goals simp [hu]

theorem execSdbase_wf (t : TwigId) (gu : PReg) (n : Fin 16) (gb : GReg) (off : BitVec 10) {s : State} (h : s.mem.wf = true) :
    outWf (execSdbase t gu n gb off s) := by
  unfold execSdbase
  refine runTwig_wf _ _ _ _ (fun u hu => ?_) h
  dsimp only
  repeat' split
  all_goals simp [hu]

theorem execBr_wf (t : TwigId) (gu : PReg) (off : BitVec 8) {s : State} (h : s.mem.wf = true) : outWf (execBr t gu off s) := by
  unfold execBr
  refine runTwig_wf _ _ _ _ (fun u hu => ?_) h
  all_goals simp [hu]

@[simp] theorem State.setLoop_wf {s : State} (t : TwigId) (n : Fin 2) (count : Word) (fin : BitVec 14) (h : s.mem.wf = true) :
    actWf (s.setLoop t n count fin) := by
  unfold State.setLoop
  repeat' split
  all_goals simp [h]

theorem execLoop_wf (t : TwigId) (gu : PReg) (z : BitVec 1) (n : Fin 2) (gc : GReg) (fin : BitVec 14) {s : State} (h : s.mem.wf = true) :
    outWf (execLoop t gu z n gc fin s) := by
  unfold execLoop
  refine runTwig_wf _ _ _ _ (fun u hu => ?_) h
  all_goals simp [hu]

theorem execLoopi_wf (t : TwigId) (gu : PReg) (z : BitVec 1) (n : Fin 2) (count : BitVec 4) (fin : BitVec 14) {s : State} (h : s.mem.wf = true) :
    outWf (execLoopi t gu z n count fin s) := by
  unfold execLoopi
  refine runTwig_wf _ _ _ _ (fun u hu => ?_) h
  all_goals simp [hu]

theorem execChain_wf (t : TwigId) (gu : PReg) (n : BitVec 4) {s : State} (h : s.mem.wf = true) : outWf (execChain t gu n s) := by
  unfold execChain
  refine runTwig_wf _ _ _ _ (fun u hu => ?_) h
  repeat' split
  all_goals simp [hu]

theorem execFence_wf (t : TwigId) (gu : PReg) {s : State} (h : s.mem.wf = true) : outWf (execFence t gu s) := by
  unfold execFence
  refine runTwig_wf _ _ _ _ (fun u hu => ?_) h
  repeat' split
  all_goals simp [hu]

theorem execVwait_wf (t : TwigId) (gu : PReg) {s : State} (h : s.mem.wf = true) : outWf (execVwait t gu s) := by
  unfold execVwait
  refine runTwig_wf _ _ _ _ (fun u hu => ?_) h
  all_goals simp [hu]

theorem execSetvl_wf (t : TwigId) (gu : PReg) (z : BitVec 2) (gd : GReg) (gs : GReg) (ty : BitVec 4) {s : State} (h : s.mem.wf = true) :
    outWf (execSetvl t gu z gd gs ty s) := by
  unfold execSetvl
  refine runTwig_wf _ _ _ _ (fun u hu => ?_) h
  repeat' split
  all_goals simp [hu]

@[simp] theorem State.sendFlit_mem (s : State) (n : PortId) (kind : Nat) (ws : List Word) : (s.sendFlit n kind ws).mem = s.mem := rfl

@[simp] theorem State.portTurn_mem (s : State) (n : PortId) : (s.portTurn n).mem = s.mem := by
  unfold State.portTurn
  repeat' split
  all_goals simp

@[simp] theorem State.portsTurn_mem (s : State) : s.portsTurn.mem = s.mem := by
  unfold State.portsTurn
  refine foldl_mem (fun s x => ?_) _ _
  all_goals simp

@[simp] theorem State.meterRead_mem (s : State) (p : Option Nat) (n : Nat) : (s.meterRead p n).mem = s.mem := by
  simp [State.meterRead]

@[simp] theorem State.performRead_mem (s : State) (r : ReadReq) : (s.performRead r).1.mem = s.mem := by
  unfold State.performRead
  dsimp only
  repeat' split
  all_goals simp

@[simp] theorem State.readPart_mem (s : State) (t : TwigId) (l : LoadOp) (p : Nat × Nat) : (s.readPart t l p).1.mem = s.mem := by
  unfold State.readPart
  repeat' split
  all_goals simp

@[simp] theorem State.avs_mem (s : State) (mv : Nat) : (s.avs mv).mem = s.mem := rfl

@[simp] theorem State.changeLevel_mem (s : State) (l : Fin 4) : (s.changeLevel l).mem = s.mem := by
  unfold State.changeLevel
  dsimp only
  repeat' split
  all_goals simp

@[simp] theorem State.setReq_mem (s : State) (l : Fin 4) (crown : Bool) : (s.setReq l crown).mem = s.mem := by
  simp [State.setReq]

@[simp] theorem State.setAlarm_mem (s : State) (v : Word) : (s.setAlarm v).mem = s.mem := rfl

@[simp] theorem State.setMap_wf {s : State} (lin : Bool) (h : s.mem.wf = true) : (s.setMap lin).mem.wf = true := by
  unfold State.setMap
  split
  · exact h
  · exact Memory.remap_wf h lin

theorem execResume_wf (t : TwigId) (gu : PReg) {s : State} (h : s.mem.wf = true) : outWf (execResume t gu s) := by
  refine runTwig_wf _ t gu _ (fun u hu => ?_) h
  extract_lets w base acts held ws reads r s1 s2
  have hr : r.mem = u.mem := by simp [r, foldl_mem]
  have hs2 : s2.mem = u.mem := by
    cases t with
    | crown k => simp [s2, s1, hr]
    | bough b =>
      simp only [s2]
      split <;> simp [s1, hr]
  clear_value r s2
  split
  · simp
  split
  · simp
  split
  · simp [hr, hu]
  split <;> simp [hr, hs2, hu]

@[simp] theorem State.issueStore_mem (s : State) (t : TwigId) : (s.issueStore t).mem = s.mem := by
  unfold State.issueStore
  split
  · rfl
  · split
    · rfl
    · dsimp only
      split
      · split
        · simp
        · exact (foldl_mem (fun s k => State.sendBurst_mem s _) _ _).trans (State.modTwig_mem ..)
      all_goals simp

theorem State.putStore_wf {s u : State} {t : TwigId} {a : Nat} {bs : List Byte} (h : s.mem.wf = true) (hput : s.putStore t a bs = some u) :
    u.mem.wf = true := by
  unfold State.putStore at hput
  extract_lets held r s1 at hput
  clear_value held
  split_ifs at hput
  · cases hput
    simp [h]
  · cases hput
    simp [s1, r, foldl_mem, h]

@[simp] theorem State.callTo_wf {s : State} (t : TwigId) (target : Word) (h : s.mem.wf = true) : actWf (s.callTo t target) := by
  unfold State.callTo
  dsimp only
  split_ifs
  · simp
  · simp
  · simp
  · refine State.waitFor_wf _ _ _ ?_
    split
    next hput => simpa using State.putStore_wf h hput
    · simp

theorem execCallr_wf (t : TwigId) (gu : PReg) (gs : GReg) {s : State} (h : s.mem.wf = true) : outWf (execCallr t gu gs s) :=
  runTwig_wf _ t gu _ (fun _ hu => State.callTo_wf t _ hu) h

theorem execQget_wf (t : TwigId) (gu : PReg) (gd gs : GReg) (z : BitVec 4) (gt : GReg) {s : State} (h : s.mem.wf = true) :
    outWf (execQget t gu gd gs z gt s) := by
  refine queueRun_wf _ t gu gs z gt _ (fun q u hu => queueWait_wf t q u ?_) h
  split
  · simp [stat, hu]
  · split
    · simp [stat, hu]
    next w _ =>
      generalize (w.parity != parityOf w.w) = p
      cases p <;> cases w.bad <;> simp [hu]

@[simp] theorem State.requestParts_mem (s : State) (t : TwigId) (ps : List (Nat × Nat)) : (s.requestParts t ps).1.mem = s.mem := by
  induction ps generalizing s with
  | nil => rfl
  | cons p ps ih =>
    unfold State.requestParts
    dsimp only
    split <;> simp [ih]

@[simp] theorem loadAct_wf (t : TwigId) (words : Nat) (gd : GReg) (size : Nat) (signed : Bool) (addr : Word) {s : State} (h : s.mem.wf = true) :
    actWf (loadAct t words gd size signed addr s) := by
  unfold loadAct
  dsimp only
  split
  · simp [h]
  · split
    · simp [h]
    · split
      · simp
      · exact State.waitFor_wf _ _ _ (by simp [h])

@[simp] theorem runLoad_wf (i : Instr) (t : TwigId) (gu : PReg) (words : Nat) (k : Nat) (gd : GReg) (gb : GReg) (size : Nat) (signed : Bool) (off : Nat) {s : State} (h : s.mem.wf = true) :
    (runLoad i t gu words k gd gb size signed off s).mem.wf = true := by
  unfold runLoad
  refine runTwig_wf _ _ _ _ (fun u hu => ?_) h
  all_goals simp [hu]

theorem execLd_wf (t : TwigId) (gu : PReg) (gd : GReg) (gb : GReg) {s : State} (h : s.mem.wf = true) : outWf (execLd t gu gd gb s) := by
  simp [execLd, h]

@[simp] theorem storeAct_wf (t : TwigId) (addr : Word) (bs : List Byte) {s : State} (h : s.mem.wf = true) : actWf (storeAct t addr bs s) := by
  unfold storeAct
  dsimp only
  split
  · simp [h]
  · split
    · simp [h]
    · refine State.waitFor_wf _ _ _ ?_
      split
      next hput => simpa using State.putStore_wf (by simp [h]) hput
      · simp

@[simp] theorem runStore_wf (i : Instr) (t : TwigId) (gu : PReg) (words : Nat) (k : Nat) (gs : GReg) (gb : GReg) (size : Nat) (off : Nat) {s : State} (h : s.mem.wf = true) :
    (runStore i t gu words k gs gb size off s).mem.wf = true := by
  unfold runStore
  refine runTwig_wf _ _ _ _ (fun u hu => ?_) h
  all_goals simp [hu]

theorem execSt_wf (t : TwigId) (gu : PReg) (gs : GReg) (gb : GReg) {s : State} (h : s.mem.wf = true) : outWf (execSt t gu gs gb s) := by
  simp [execSt, h]

theorem execLd8u_wf (t : TwigId) (gu : PReg) (gd : GReg) (gb : GReg) (off : BitVec 10) {s : State} (h : s.mem.wf = true) :
    outWf (execLd8u t gu gd gb off s) := by
  simp [execLd8u, h]

theorem execLd8s_wf (t : TwigId) (gu : PReg) (gd : GReg) (gb : GReg) (off : BitVec 10) {s : State} (h : s.mem.wf = true) :
    outWf (execLd8s t gu gd gb off s) := by
  simp [execLd8s, h]

theorem execLd16u_wf (t : TwigId) (gu : PReg) (gd : GReg) (gb : GReg) (off : BitVec 10) {s : State} (h : s.mem.wf = true) :
    outWf (execLd16u t gu gd gb off s) := by
  simp [execLd16u, h]

theorem execLd16s_wf (t : TwigId) (gu : PReg) (gd : GReg) (gb : GReg) (off : BitVec 10) {s : State} (h : s.mem.wf = true) :
    outWf (execLd16s t gu gd gb off s) := by
  simp [execLd16s, h]

theorem execLd32u_wf (t : TwigId) (gu : PReg) (gd : GReg) (gb : GReg) (off : BitVec 10) {s : State} (h : s.mem.wf = true) :
    outWf (execLd32u t gu gd gb off s) := by
  simp [execLd32u, h]

theorem execLd32s_wf (t : TwigId) (gu : PReg) (gd : GReg) (gb : GReg) (off : BitVec 10) {s : State} (h : s.mem.wf = true) :
    outWf (execLd32s t gu gd gb off s) := by
  simp [execLd32s, h]

theorem execLd64_wf (t : TwigId) (gu : PReg) (gd : GReg) (gb : GReg) (off : BitVec 10) {s : State} (h : s.mem.wf = true) :
    outWf (execLd64 t gu gd gb off s) := by
  simp [execLd64, h]

theorem execSt8_wf (t : TwigId) (gu : PReg) (gs : GReg) (gb : GReg) (off : BitVec 10) {s : State} (h : s.mem.wf = true) :
    outWf (execSt8 t gu gs gb off s) := by
  simp [execSt8, h]

theorem execSt16_wf (t : TwigId) (gu : PReg) (gs : GReg) (gb : GReg) (off : BitVec 10) {s : State} (h : s.mem.wf = true) :
    outWf (execSt16 t gu gs gb off s) := by
  simp [execSt16, h]

theorem execSt32_wf (t : TwigId) (gu : PReg) (gs : GReg) (gb : GReg) (off : BitVec 10) {s : State} (h : s.mem.wf = true) :
    outWf (execSt32 t gu gs gb off s) := by
  simp [execSt32, h]

theorem execSt64_wf (t : TwigId) (gu : PReg) (gs : GReg) (gb : GReg) (off : BitVec 10) {s : State} (h : s.mem.wf = true) :
    outWf (execSt64 t gu gs gb off s) := by
  simp [execSt64, h]

theorem execCall_wf (t : TwigId) (gu : PReg) (off : BitVec 8) {s : State} (h : s.mem.wf = true) : outWf (execCall t gu off s) := by
  unfold execCall
  refine runTwig_wf _ _ _ _ (fun u hu => ?_) h
  all_goals simp [hu]

@[simp] theorem State.setMode_wf {s : State} (m : Mode) (h : s.mem.wf = true) : (s.setMode m).mem.wf = true := by
  unfold State.setMode
  repeat' split
  all_goals simp [h]

@[simp] theorem State.freezeAll_mem (s : State) (on : Bool) : (s.freezeAll on).mem = s.mem := rfl

@[simp] theorem State.beginDrain_wf {s : State} (d : DrainFor) (h : s.mem.wf = true) : (s.beginDrain d).mem.wf = true := by
  simp [State.beginDrain, h]

@[simp] theorem State.startDormant_wf {s : State} (h : s.mem.wf = true) : s.startDormant.mem.wf = true := by
  unfold State.startDormant
  dsimp only
  repeat' split
  all_goals simp [h]

@[simp] theorem State.writePower_wf {s : State} (o : Nat) (w : RegWr) (h : s.mem.wf = true) : (s.writePower o w).mem.wf = true := by
  unfold State.writePower
  repeat' split
  all_goals simp [h]

@[simp] theorem State.writeCanopy_mem (s : State) (o : Nat) (w : RegWr) : (s.writeCanopy o w).mem = s.mem := by
  unfold State.writeCanopy
  repeat' split
  all_goals simp

@[simp] theorem State.writeScr_mem (s : State) (o : Nat) (w : RegWr) : (s.writeScr o w).mem = s.mem := by
  unfold State.writeScr
  repeat' split
  all_goals simp

@[simp] theorem State.recFlag_mem (s : State) (p : PlotId) (bit : Nat) : (s.recFlag p bit).mem = s.mem := rfl

@[simp] theorem State.recFlagAll_mem (s : State) (bit : Nat) : (s.recFlagAll bit).mem = s.mem := by
  unfold State.recFlagAll
  refine foldl_mem (fun s x => ?_) _ _
  all_goals simp

@[simp] theorem State.requestSig_mem (s : State) (r : SigReq) : (s.requestSig r).mem = s.mem := by
  unfold State.requestSig
  repeat' split
  all_goals simp

@[simp] theorem State.emitItem_mem (s : State) (typ : BitVec 8) (covered : List Word) (plot : Option PlotId) :
    (s.emitItem typ covered plot).mem = s.mem := by
  unfold State.emitItem
  repeat' split
  all_goals simp

@[simp] theorem State.calSync_mem (s : State) (v : Word) : (s.calSync v).mem = s.mem := by
  unfold State.calSync
  dsimp only
  repeat' split
  all_goals simp

@[simp] theorem State.writeRing_mem (s : State) (o : Nat) (w : RegWr) : (s.writeRing o w).mem = s.mem := by
  unfold State.writeRing
  repeat' split
  all_goals simp

@[simp] theorem State.kick_mem (s : State) : s.kick.mem = s.mem := rfl

@[simp] theorem State.startCore_mem (s : State) (k : CoreId) : (s.startCore k).mem = s.mem := rfl

@[simp] theorem State.restartCore_mem (s : State) (k : CoreId) : (s.restartCore k).mem = s.mem := by
  unfold State.restartCore
  dsimp only
  repeat' split
  all_goals simp

@[simp] theorem State.writeHeart_mem (s : State) (o : Nat) (w : RegWr) : (s.writeHeart o w).mem = s.mem := by
  unfold State.writeHeart
  dsimp only
  repeat' split
  all_goals simp [foldl_mem, apply_ite State.mem]

@[simp] theorem State.writeGlobal_wf {s : State} (o : Nat) (w : RegWr) (h : s.mem.wf = true) : (s.writeGlobal o w).mem.wf = true := by
  unfold State.writeGlobal
  repeat' split
  all_goals simp [h]

@[simp] theorem State.writeChan_mem (s : State) (ch : Fin 5) (o : Nat) (w : RegWr) : (s.writeChan ch o w).mem = s.mem := by
  unfold State.writeChan
  repeat' split
  all_goals simp

@[simp] theorem State.recordBreak_mem (s : State) (i : Nat) (code : BitVec 4) : (s.recordBreak i code).mem = s.mem := by
  unfold State.recordBreak
  dsimp only
  repeat' split
  all_goals simp

@[simp] theorem State.modRecvs_mem (s : State) (i : Nat) (f : RecvSt → RecvSt) : (s.modRecvs i f).mem = s.mem := by
  unfold State.modRecvs
  repeat' split
  all_goals simp

@[simp] theorem State.keepWhole_mem (s : State) (i : Nat) : (s.keepWhole i).mem = s.mem := by
  unfold State.keepWhole
  split
  · rfl
  · rw [State.modRecvs_mem]
    refine foldl_mem (fun s e => ?_) _ _
    split
    · dsimp only
      split_ifs <;> simp
    · rfl

@[simp] theorem State.tryFree_mem (s : State) (b : BoughId) (h : Fin 2) : (s.tryFree b h).mem = s.mem := by
  unfold State.tryFree
  dsimp only
  repeat' split
  all_goals simp

@[simp] theorem State.custody_mem (s : State) (b : BoughId) (i : Nat) (p : SendSt → Bool) : (s.custody b i p).mem = s.mem := by
  simp [State.custody]

@[simp] theorem State.discardFrom_mem (s : State) (b : BoughId) (ord : Nat) : (s.discardFrom b ord).mem = s.mem := by
  unfold State.discardFrom
  dsimp only
  repeat' split
  all_goals simp

@[simp] theorem State.takeVFault_mem (s : State) (b : BoughId) (h : Fin 2) (cause : Cause) (elem : Nat) (addr : Word) :
    (s.takeVFault b h cause elem addr).mem = s.mem := by
  simp [State.takeVFault]

@[simp] theorem State.signalBreak_mem (s : State) (b : BoughId) (h : Fin 2) (elem : Nat) (addr : Word) :
    (s.signalBreak b h elem addr).mem = s.mem := by
  unfold State.signalBreak
  repeat' split
  all_goals simp

@[simp] theorem State.breakHalf_mem (s : State) (i : Nat) (l : Link) (code : BitVec 4) (b : BoughId) (h : Fin 2) :
    (s.breakHalf i l code b h).mem = s.mem := by
  unfold State.breakHalf
  dsimp only
  repeat' split
  all_goals simp

@[simp] theorem State.breakBough_mem (s : State) (i : Nat) (l : Link) (code : BitVec 4) (b : BoughId) : (s.breakBough i l code b).mem = s.mem := by
  unfold State.breakBough
  repeat' split
  all_goals simp

@[simp] theorem State.breakLink_mem (s : State) (i : Nat) (code : BitVec 4) : (s.breakLink i code).mem = s.mem := by
  unfold State.breakLink
  repeat' split
  all_goals simp

@[simp] theorem State.breakLinks_mem (s : State) (p : Link → Bool) (code : BitVec 4) : (s.breakLinks p code).mem = s.mem := by
  unfold State.breakLinks
  refine foldl_mem (fun s x => ?_) _ _
  repeat' split
  all_goals simp

@[simp] theorem State.beginBoughReset_mem (s : State) (b : BoughId) : (s.beginBoughReset b).mem = s.mem := by
  simp [State.beginBoughReset]

@[simp] theorem State.askBoughReset_mem (s : State) (b : BoughId) : (s.askBoughReset b).mem = s.mem := by
  unfold State.askBoughReset
  repeat' split
  all_goals simp

@[simp] theorem State.writeBough_mem (s : State) (b : BoughId) (w : RegWr) : (s.writeBough b w).mem = s.mem := by
  unfold State.writeBough
  repeat' split
  all_goals simp

@[simp] theorem State.requestFlush_mem (s : State) (q : QueueId) : (s.requestFlush q).mem = s.mem := rfl

@[simp] theorem State.rearmLink_mem (s : State) (i : Nat) : (s.rearmLink i).mem = s.mem := by
  unfold State.rearmLink
  repeat' split
  all_goals simp

@[simp] theorem State.rearmBits_mem (s : State) (g : GroveId) (bits : BitVec 32) : (s.rearmBits g bits).mem = s.mem := by
  unfold State.rearmBits
  refine foldl_mem (fun s x => ?_) _ _
  repeat' split
  all_goals simp

@[simp] theorem State.writeGrove_mem (s : State) (g : GroveId) (o : Nat) (w : RegWr) : (s.writeGrove g o w).mem = s.mem := by
  unfold State.writeGrove
  repeat' split
  all_goals simp

@[simp] theorem State.writeStack_mem (s : State) (k : StackId) (o : Nat) (w : RegWr) : (s.writeStack k o w).mem = s.mem := by
  unfold State.writeStack
  repeat' split
  all_goals simp

@[simp] theorem State.writeHost_mem (s : State) (n : PortId) (o : Nat) (w : RegWr) : (s.writeHost n o w).mem = s.mem := by
  unfold State.writeHost
  repeat' split
  all_goals simp

@[simp] theorem State.portsDrain_mem (s : State) (n : PortId) : (s.portsDrain n).mem = s.mem := by
  unfold State.portsDrain
  refine foldl_mem (fun s x => ?_) _ _
  all_goals simp

@[simp] theorem State.graftQueuesDown_mem (s : State) (n : PortId) : (s.graftQueuesDown n).mem = s.mem := by
  unfold State.graftQueuesDown
  refine foldl_mem (fun s x => ?_) _ _
  repeat' split
  all_goals simp

@[simp] theorem State.graftEvent_mem (s : State) (n : PortId) (bit : Nat) : (s.graftEvent n bit).mem = s.mem := by
  unfold State.graftEvent
  repeat' split
  all_goals simp

@[simp] theorem State.setGraft_mem (s : State) (n : PortId) (st : GraftSt) : (s.setGraft n st).mem = s.mem := rfl

@[simp] theorem State.freezePlot_mem (s : State) (m : PlotMap) (on : Bool) : (s.freezePlot m on).mem = s.mem := by
  unfold State.freezePlot
  refine foldl_mem (fun s x => ?_) _ _
  all_goals simp

@[simp] theorem State.startPark_mem (s : State) (p : PlotId) : (s.startPark p).mem = s.mem := by
  unfold State.startPark
  dsimp only
  repeat' split
  all_goals simp

@[simp] theorem State.runPlot_mem (s : State) (m : PlotMap) (run : TwigRun) : (s.runPlot m run).mem = s.mem := by
  unfold State.runPlot
  refine foldl_mem (fun s x => ?_) _ _
  all_goals simp

@[simp] theorem State.unpark_mem (s : State) (p : PlotId) : (s.unpark p).mem = s.mem := by
  unfold State.unpark
  dsimp only
  repeat' split
  all_goals simp

@[simp] theorem State.writePark_mem (s : State) (p : PlotId) (on : Bool) : (s.writePark p on).mem = s.mem := by
  unfold State.writePark
  repeat' split
  all_goals simp

@[simp] theorem State.preempt_mem (s : State) (p : PlotId) : (s.preempt p).mem = s.mem := by
  unfold State.preempt
  dsimp only
  repeat' split
  all_goals simp

@[simp] theorem State.hostEvent_mem (s : State) (n : PortId) (bit : Nat) : (s.hostEvent n bit).mem = s.mem := by
  simp [State.hostEvent]

@[simp] theorem State.aer_mem (s : State) (n : PortId) : (s.aer n).mem = s.mem := by
  simp [State.aer]

@[simp] theorem State.discardLogged_mem (s : State) (t : WTxn) : (s.discardLogged t).mem = s.mem := by
  unfold State.discardLogged
  repeat' split
  all_goals simp

@[simp] theorem State.dropTxn_mem (s : State) (id : Nat) : (s.dropTxn id).mem = s.mem := rfl

@[simp] theorem State.discardWrites_mem (s : State) (p : WTxn → Bool) : (s.discardWrites p).mem = s.mem := by
  unfold State.discardWrites
  refine foldl_mem (fun s x => ?_) _ _
  repeat' split
  all_goals simp

@[simp] theorem State.absorbFn_mem (s : State) (fn : HostFn) : (s.absorbFn fn).mem = s.mem := by
  unfold State.absorbFn
  repeat' split
  all_goals simp

theorem execSdst_wf (t : TwigId) (gu : PReg) (n : Fin 16) (gb : GReg) (off : BitVec 10) {s : State} (h : s.mem.wf = true) :
    outWf (execSdst t gu n gb off s) := by
  refine descRun_wf _ t gu _ (fun b u hu => ?_) h
  dsimp only
  split
  · simp
  · refine State.waitFor_wf _ _ _ ?_
    split
    next hput => simpa using State.putStore_wf hu hput
    · simp

@[simp] theorem runRep_wf (i : Instr) (t : TwigId) (gu : PReg) (pfx bad : Bool) (reads : List GReg) (count : Twig → Word) {s : State} (h : s.mem.wf = true) :
    (runRep i t gu pfx bad reads count s).mem.wf = true := by
  refine twigBegin_wf i t (fun u hu => ?_) h
  dsimp only
  split
  · simp [hu]
  · split_ifs
    · simp [hu]
    · simp [hu]
    · simp [hu]
    · simp [hu]
    · simp [hu]
    · exact State.act_wf _ _ _ hu (State.waitReads_wf _ _ _ (by simp [hu]))

theorem execRep_wf (t : TwigId) (gu : PReg) (z : BitVec 2) (gc : GReg) {s : State} (h : s.mem.wf = true) : outWf (execRep t gu z gc s) := by
  simp [execRep, h]

theorem execRepi_wf (t : TwigId) (gu : PReg) (z : BitVec 2) (count : BitVec 4) {s : State} (h : s.mem.wf = true) :
    outWf (execRepi t gu z count s) := by
  simp [execRepi, h]

@[simp] theorem State.readAll_mem (s : State) (t : TwigId) (l : LoadOp) (ps : List (Nat × Nat)) : (s.readAll t l ps).1.mem = s.mem := by
  induction ps generalizing s with
  | nil => rfl
  | cons p ps ih => exact (ih _).trans (s.readPart_mem t l p)

theorem State.finishLoad_wf {s0 s : State} (t : TwigId) (l : LoadOp) (cs : List Chunk) (h0 : s0.mem.wf = true) (h : s.mem.wf = true) :
    (s0.finishLoad s t l cs).mem.wf = true := by
  unfold State.finishLoad
  dsimp only
  split
  · split_ifs <;> simp [h0, h]
  · simp [h]

theorem execTwigLoadReturn_wf (t : TwigId) {s : State} (h : s.mem.wf = true) : outWf (execTwigLoadReturn t s) := by
  unfold execTwigLoadReturn
  split
  · exact h
  · dsimp only
    split
    · exact h
    · exact State.finishLoad_wf t _ _ h (by simpa using h)

@[simp] theorem State.sendEvent_mem (s : State) (p : PlotId) (e : PEvent) : (s.sendEvent p e).mem = s.mem := by
  unfold State.sendEvent
  split
  · rfl
  · split
    · rfl
    · split
      next hpost => exact State.postPacket_mem hpost
      · rfl

@[simp] theorem State.plotEvent_mem (s : State) (p : PlotId) (code : Nat) (bough : Nat) (unit : Nat) (detail : Word) :
    (s.plotEvent p code bough unit detail).mem = s.mem := by
  unfold State.plotEvent
  dsimp only
  repeat' split
  all_goals simp

@[simp] theorem State.graftLost_mem (s : State) (n : PortId) : (s.graftLost n).mem = s.mem := by
  unfold State.graftLost
  refine foldl_mem (fun s x => ?_) _ _
  repeat' split
  all_goals simp

@[simp] theorem State.setLimit_mem (s : State) (p : PlotId) (mw : BitVec 20) : (s.setLimit p mw).mem = s.mem := by
  unfold State.setLimit
  repeat' split
  all_goals simp

@[simp] theorem State.plotBoughReset_mem (s : State) (p : PlotId) (b : BoughId) : (s.plotBoughReset p b).mem = s.mem := by
  unfold State.plotBoughReset
  repeat' split
  all_goals simp

@[simp] theorem State.sendEntry_mem (s : State) (fn : HostFn) (entry : Nat) : (s.sendEntry fn entry).mem = s.mem := by
  unfold State.sendEntry
  repeat' split
  all_goals simp

@[simp] theorem State.msixWrite_mem (s : State) (fn : HostFn) (i : Nat) (v : BitVec 32) : (s.msixWrite fn i v).mem = s.mem := by
  unfold State.msixWrite
  dsimp only
  repeat' split
  all_goals simp

@[simp] theorem State.writeMsix_mem (s : State) (fn : HostFn) (o : Nat) (pba : Nat) (w : RegWr) : (s.writeMsix fn o pba w).mem = s.mem := by
  unfold State.writeMsix
  repeat' split
  all_goals simp

theorem execVadd_wf (t : TwigId) (gu : PReg) (f : VFields) {s : State} (h : s.mem.wf = true) : outWf (execVadd t gu f s) := by
  simp [execVadd, h]

theorem execVsub_wf (t : TwigId) (gu : PReg) (f : VFields) {s : State} (h : s.mem.wf = true) : outWf (execVsub t gu f s) := by
  simp [execVsub, h]

theorem execVmin_wf (t : TwigId) (gu : PReg) (f : VFields) {s : State} (h : s.mem.wf = true) : outWf (execVmin t gu f s) := by
  simp [execVmin, h]

theorem execVmax_wf (t : TwigId) (gu : PReg) (f : VFields) {s : State} (h : s.mem.wf = true) : outWf (execVmax t gu f s) := by
  simp [execVmax, h]

theorem execVabs_wf (t : TwigId) (gu : PReg) (f : VFields) {s : State} (h : s.mem.wf = true) : outWf (execVabs t gu f s) := by
  simp [execVabs, h]

theorem execVneg_wf (t : TwigId) (gu : PReg) (f : VFields) {s : State} (h : s.mem.wf = true) : outWf (execVneg t gu f s) := by
  simp [execVneg, h]

theorem execVcmpEq_wf (t : TwigId) (gu : PReg) (f : VFields) {s : State} (h : s.mem.wf = true) : outWf (execVcmpEq t gu f s) := by
  simp [execVcmpEq, h]

theorem execVcmpNe_wf (t : TwigId) (gu : PReg) (f : VFields) {s : State} (h : s.mem.wf = true) : outWf (execVcmpNe t gu f s) := by
  simp [execVcmpNe, h]

theorem execVcmpLt_wf (t : TwigId) (gu : PReg) (f : VFields) {s : State} (h : s.mem.wf = true) : outWf (execVcmpLt t gu f s) := by
  simp [execVcmpLt, h]

theorem execVcmpLe_wf (t : TwigId) (gu : PReg) (f : VFields) {s : State} (h : s.mem.wf = true) : outWf (execVcmpLe t gu f s) := by
  simp [execVcmpLe, h]

theorem execVcmpGt_wf (t : TwigId) (gu : PReg) (f : VFields) {s : State} (h : s.mem.wf = true) : outWf (execVcmpGt t gu f s) := by
  simp [execVcmpGt, h]

theorem execVcmpGe_wf (t : TwigId) (gu : PReg) (f : VFields) {s : State} (h : s.mem.wf = true) : outWf (execVcmpGe t gu f s) := by
  simp [execVcmpGe, h]

theorem execVcmpUn_wf (t : TwigId) (gu : PReg) (f : VFields) {s : State} (h : s.mem.wf = true) : outWf (execVcmpUn t gu f s) := by
  simp [execVcmpUn, h]

theorem execVmul_wf (t : TwigId) (gu : PReg) (f : VFields) {s : State} (h : s.mem.wf = true) : outWf (execVmul t gu f s) := by
  simp [execVmul, h]

theorem execVfma_wf (t : TwigId) (gu : PReg) (f : VFields) {s : State} (h : s.mem.wf = true) : outWf (execVfma t gu f s) := by
  simp [execVfma, h]

theorem execVfms_wf (t : TwigId) (gu : PReg) (f : VFields) {s : State} (h : s.mem.wf = true) : outWf (execVfms t gu f s) := by
  simp [execVfms, h]

theorem execVdot4_wf (t : TwigId) (gu : PReg) (f : VFields) {s : State} (h : s.mem.wf = true) : outWf (execVdot4 t gu f s) := by
  simp [execVdot4, h]

theorem execVcvt_wf (t : TwigId) (gu : PReg) (src : BitVec 4) (f : VFields) {s : State} (h : s.mem.wf = true) : outWf (execVcvt t gu src f s) := by
  simp [execVcvt, h]

theorem execVand_wf (t : TwigId) (gu : PReg) (f : VFields) {s : State} (h : s.mem.wf = true) : outWf (execVand t gu f s) := by
  simp [execVand, h]

theorem execVor_wf (t : TwigId) (gu : PReg) (f : VFields) {s : State} (h : s.mem.wf = true) : outWf (execVor t gu f s) := by
  simp [execVor, h]

theorem execVxor_wf (t : TwigId) (gu : PReg) (f : VFields) {s : State} (h : s.mem.wf = true) : outWf (execVxor t gu f s) := by
  simp [execVxor, h]

theorem execVnot_wf (t : TwigId) (gu : PReg) (f : VFields) {s : State} (h : s.mem.wf = true) : outWf (execVnot t gu f s) := by
  simp [execVnot, h]

theorem execVshl_wf (t : TwigId) (gu : PReg) (f : VFields) {s : State} (h : s.mem.wf = true) : outWf (execVshl t gu f s) := by
  simp [execVshl, h]

theorem execVshr_wf (t : TwigId) (gu : PReg) (f : VFields) {s : State} (h : s.mem.wf = true) : outWf (execVshr t gu f s) := by
  simp [execVshr, h]

theorem execVsra_wf (t : TwigId) (gu : PReg) (f : VFields) {s : State} (h : s.mem.wf = true) : outWf (execVsra t gu f s) := by
  simp [execVsra, h]

theorem execVrot_wf (t : TwigId) (gu : PReg) (f : VFields) {s : State} (h : s.mem.wf = true) : outWf (execVrot t gu f s) := by
  simp [execVrot, h]

theorem execVpopc_wf (t : TwigId) (gu : PReg) (f : VFields) {s : State} (h : s.mem.wf = true) : outWf (execVpopc t gu f s) := by
  simp [execVpopc, h]

theorem execVclz_wf (t : TwigId) (gu : PReg) (f : VFields) {s : State} (h : s.mem.wf = true) : outWf (execVclz t gu f s) := by
  simp [execVclz, h]

theorem execVsel_wf (t : TwigId) (gu : PReg) (f : VFields) {s : State} (h : s.mem.wf = true) : outWf (execVsel t gu f s) := by
  simp [execVsel, h]

theorem execVcopy_wf (t : TwigId) (gu : PReg) (f : VFields) {s : State} (h : s.mem.wf = true) : outWf (execVcopy t gu f s) := by
  simp [execVcopy, h]

theorem execVfill_wf (t : TwigId) (gu : PReg) (f : VFields) {s : State} (h : s.mem.wf = true) : outWf (execVfill t gu f s) := by
  simp [execVfill, h]

theorem execVgatherf_wf (t : TwigId) (gu : PReg) (f : VFields) {s : State} (h : s.mem.wf = true) : outWf (execVgatherf t gu f s) := by
  simp [execVgatherf, h]

theorem execVdiv_wf (t : TwigId) (gu : PReg) (f : VFields) {s : State} (h : s.mem.wf = true) : outWf (execVdiv t gu f s) := by
  simp [execVdiv, h]

theorem execVrem_wf (t : TwigId) (gu : PReg) (f : VFields) {s : State} (h : s.mem.wf = true) : outWf (execVrem t gu f s) := by
  simp [execVrem, h]

theorem execVsqrt_wf (t : TwigId) (gu : PReg) (f : VFields) {s : State} (h : s.mem.wf = true) : outWf (execVsqrt t gu f s) := by
  simp [execVsqrt, h]

theorem execVsum_wf (t : TwigId) (gu : PReg) (f : VFields) {s : State} (h : s.mem.wf = true) : outWf (execVsum t gu f s) := by
  simp [execVsum, h]

theorem execVminr_wf (t : TwigId) (gu : PReg) (f : VFields) {s : State} (h : s.mem.wf = true) : outWf (execVminr t gu f s) := by
  simp [execVminr, h]

theorem execVmaxr_wf (t : TwigId) (gu : PReg) (f : VFields) {s : State} (h : s.mem.wf = true) : outWf (execVmaxr t gu f s) := by
  simp [execVmaxr, h]

theorem execVscan_wf (t : TwigId) (gu : PReg) (f : VFields) {s : State} (h : s.mem.wf = true) : outWf (execVscan t gu f s) := by
  simp [execVscan, h]

theorem execVsegsum_wf (t : TwigId) (gu : PReg) (f : VFields) {s : State} (h : s.mem.wf = true) : outWf (execVsegsum t gu f s) := by
  simp [execVsegsum, h]

theorem execVcompress_wf (t : TwigId) (gu : PReg) (f : VFields) {s : State} (h : s.mem.wf = true) : outWf (execVcompress t gu f s) := by
  simp [execVcompress, h]

theorem execVexpand_wf (t : TwigId) (gu : PReg) (f : VFields) {s : State} (h : s.mem.wf = true) : outWf (execVexpand t gu f s) := by
  simp [execVexpand, h]

theorem execVmerge_wf (t : TwigId) (gu : PReg) (f : VFields) {s : State} (h : s.mem.wf = true) : outWf (execVmerge t gu f s) := by
  simp [execVmerge, h]

theorem execVhashCrc_wf (t : TwigId) (gu : PReg) (f : VFields) {s : State} (h : s.mem.wf = true) : outWf (execVhashCrc t gu f s) := by
  simp [execVhashCrc, h]

theorem execVhashMix_wf (t : TwigId) (gu : PReg) (f : VFields) {s : State} (h : s.mem.wf = true) : outWf (execVhashMix t gu f s) := by
  simp [execVhashMix, h]

theorem execVbucket_wf (t : TwigId) (gu : PReg) (f : VFields) {s : State} (h : s.mem.wf = true) : outWf (execVbucket t gu f s) := by
  simp [execVbucket, h]

@[simp] theorem State.dispatchFault_mem (s : State) (b : BoughId) (n : Nat) (cause : Cause) (addr : Word) :
    (s.dispatchFault b n cause addr).mem = s.mem := by
  simp [State.dispatchFault]

@[simp] theorem openSends_mem (b : BoughId) (es : List QEntry) (s : State) : (openSends b es s).1.mem = s.mem := by
  induction es generalizing s with
  | nil => rfl
  | cons e es ih =>
    unfold openSends
    repeat' split
    all_goals simp [ih]

@[simp] theorem State.trimEpoch_mem (s : State) (i : Nat) (ep : BitVec 16) : (s.trimEpoch i ep).mem = s.mem := by
  unfold State.trimEpoch
  dsimp only
  repeat' split
  all_goals simp

@[simp] theorem State.tellRuns_mem (s : State) (i : Nat) : (s.tellRuns i).mem = s.mem := by
  unfold State.tellRuns
  repeat' split
  all_goals simp

@[simp] theorem State.settleRx_mem (s : State) (i : Nat) : (s.settleRx i).mem = s.mem := by
  unfold State.settleRx
  dsimp only
  repeat' split
  all_goals simp [foldl_mem]

@[simp] theorem State.sendUp_mem (s : State) (i : Nat) (m : ChainMsg) : (s.sendUp i m).mem = s.mem := by
  unfold State.sendUp
  repeat' split
  all_goals simp

@[simp] theorem State.replayLink_mem (s : State) (i : Nat) (ep : BitVec 16) : (s.replayLink i ep).mem = s.mem := by
  unfold State.replayLink
  repeat' split
  all_goals simp

@[simp] theorem State.pullChain_mem (s : State) (b : BoughId) (h : Fin 2) (i : Nat) : (s.pullChain b h i).mem = s.mem := by
  unfold State.pullChain
  repeat' split
  all_goals simp

@[simp] theorem State.slotPast_mem (s : State) (b : BoughId) (h : Fin 2) (k : Nat) (i : Nat) (a : Nat) : (s.slotPast b h k i a).mem = s.mem := rfl

@[simp] theorem State.countQueue_mem (s : State) (g : GroveId) (q : QueueId) (words : Nat) : (s.countQueue g q words).mem = s.mem := by
  unfold State.countQueue
  repeat' split
  all_goals simp

@[simp] theorem State.readQueue_mem (s : State) (b : BoughId) (h : Fin 2) (key : SlotKey) (q : QueueId) (base : Nat) :
    (s.readQueue b h key q base).mem = s.mem := by
  simp [State.readQueue]

@[simp] theorem State.checkFailed_mem (s : State) (b : BoughId) (a : Nat) (write : Bool) : (s.checkFailed b a write).mem = s.mem := by
  simp [State.checkFailed]

@[simp] theorem State.checkDest_mem (s : State) (b : BoughId) (h : Fin 2) (key : SlotKey) (a : Nat) : (s.checkDest b h key a).mem = s.mem := by
  unfold State.checkDest
  repeat' split
  all_goals simp

@[simp] theorem State.sendStream_mem (s : State) (b : BoughId) (h : Fin 2) (tag : Nat) (key : SlotKey) (a : Nat) (n : Nat) :
    (s.sendStream b h tag key a n).mem = s.mem := by
  unfold State.sendStream
  repeat' split
  all_goals simp

@[simp] theorem State.readStream_mem (s : State) (b : BoughId) (h : Fin 2) (key : SlotKey) (base : Nat) (n : Nat) :
    (s.readStream b h key base n).mem = s.mem := by
  unfold State.readStream
  dsimp only
  repeat' split
  all_goals simp

@[simp] theorem State.issueStream_mem (s : State) (b : BoughId) (h : Fin 2) (k : Nat) (sl : Slot) (i : Nat) (a : Nat) :
    (s.issueStream b h k sl i a).mem = s.mem := by
  unfold State.issueStream
  repeat' split
  all_goals simp

@[simp] theorem State.learnOwn_mem (s : State) (b : BoughId) (r : Nat) : (s.learnOwn b r).mem = s.mem := rfl

@[simp] theorem State.fillTag_mem (s : State) (b : BoughId) (tag : Nat) (c : Chunk) : (s.fillTag b tag c).mem = s.mem := rfl

theorem execReadResponseArrival_mem (b : BoughId) (tag : Nat) (s : State) : outMem s (execReadResponseArrival b tag s) := by
  unfold execReadResponseArrival
  repeat' split
  all_goals simp

@[simp] theorem State.dropEpoch_mem (s : State) (i : Nat) (ep : BitVec 16) : (s.dropEpoch i ep).mem = s.mem := by
  unfold State.dropEpoch
  repeat' split
  all_goals simp

@[simp] theorem State.takeEpoch_mem (s : State) (i : Nat) (ep : BitVec 16) : (s.takeEpoch i ep).mem = s.mem := by
  unfold State.takeEpoch
  dsimp only
  repeat' split
  all_goals simp

@[simp] theorem State.arm_mem (s : State) (o : FOwner) (rs : List (Nat × Nat)) : (s.arm o rs).mem = s.mem := by
  unfold State.arm
  repeat' split
  all_goals simp

theorem execCommitPoint_mem (b : BoughId) (h : Fin 2) (s : State) : outMem s (execCommitPoint b h s) := by
  unfold execCommitPoint
  dsimp only
  repeat' split
  all_goals simp [foldl_mem, apply_ite State.mem]

@[simp] theorem State.queueFaultParity_mem (s : State) (addr : Word) : (s.queueFaultParity addr).mem = s.mem := by
  unfold State.queueFaultParity
  dsimp only
  repeat' split
  all_goals simp

theorem execVectorFaultTaken_mem (b : BoughId) (h : Fin 2) (s : State) : outMem s (execVectorFaultTaken b h s) := by
  unfold execVectorFaultTaken
  dsimp only
  repeat' split
  all_goals simp

theorem execArmRequestAccept_mem (n : Nat) (s : State) : outMem s (execArmRequestAccept n s) := by
  unfold execArmRequestAccept
  repeat' split
  all_goals simp

theorem execFilterInstall_wf (tgt : Target) {s : State} (h : s.mem.wf = true) : outWf (execFilterInstall tgt s) := by
  unfold execFilterInstall
  dsimp only
  repeat' split
  all_goals simp [h]

@[simp] theorem State.meterWrite_mem (s : State) (p : Option Nat) (k : Nat) : (s.meterWrite p k).mem = s.mem := by
  simp [State.meterWrite]

@[simp] theorem State.pumpTokens_mem (s : State) (i : Nat) : (s.pumpTokens i).mem = s.mem := by
  unfold State.pumpTokens
  dsimp only
  repeat' split
  all_goals simp [foldl_mem]

@[simp] theorem State.commitSends_mem (s : State) (xs : List (SendSt × Nat × Nat × List Word)) : (s.commitSends xs).mem = s.mem := by
  unfold State.commitSends
  refine foldl_mem (fun s x => ?_) _ _
  all_goals simp

@[simp] theorem State.demand_mem (s : State) (tgt : Target) (g : Nat) : (s.demand tgt g).mem = s.mem := by
  unfold State.demand
  refine foldl_mem (fun s x => ?_) _ _
  repeat' split
  all_goals simp

@[simp] theorem State.holdRead_mem (s : State) (tgt : Target) (r : ReadReq) : (s.holdRead tgt r).mem = s.mem := by
  simp [State.holdRead]

theorem execFilterHitDemand_mem (tgt : Target) (n : Nat) (s : State) : outMem s (execFilterHitDemand tgt n s) := by
  unfold execFilterHitDemand
  repeat' split
  all_goals simp

@[simp] theorem State.respond_mem (s : State) (r : ReadReq) (c : Chunk) : (s.respond r c).mem = s.mem := by
  unfold State.respond
  repeat' split
  all_goals simp

theorem execDemandAnswer_mem (tgt : Target) (n : Nat) (s : State) : outMem s (execDemandAnswer tgt n s) := by
  unfold execDemandAnswer
  repeat' split
  all_goals simp

theorem execDrainWriteAccept_mem (b : BoughId) (h : Fin 2) (s : State) : outMem s (execDrainWriteAccept b h s) := by
  unfold execDrainWriteAccept
  dsimp only
  repeat' split
  all_goals simp

theorem execEntryRelease_mem (tgt : Target) (n : Nat) (s : State) : outMem s (execEntryRelease tgt n s) := rfl

@[simp] theorem State.refreshTx_mem (s : State) (i : Nat) : (s.refreshTx i).mem = s.mem := by
  unfold State.refreshTx
  repeat' split
  all_goals simp

@[simp] theorem State.countSent_mem (s : State) (i : Nat) (ep : BitVec 16) (sent : Nat) (ended : Bool) :
    (s.countSent i ep sent ended).mem = s.mem := by
  unfold State.countSent
  repeat' split
  all_goals simp

theorem execChainTransferSend_mem (l : Nat) (s : State) : outMem s (execChainTransferSend l s) := by
  unfold execChainTransferSend
  dsimp only
  repeat' split
  all_goals simp

@[simp] theorem State.rxFlit_mem (s : State) (n : PortId) : (s.rxFlit n).mem = s.mem := rfl

theorem State.popWire_mem {s t : State} {i : Nat} {m : ChainMsg} (h : s.popWire i = some (m, t)) : t.mem = s.mem := by
  unfold State.popWire at h
  repeat' split at h
  all_goals simp at h
  rw [← h.2]
  simp

theorem State.arrival_mem {s t : State} {i : Nat} {ep : BitVec 8} {flit : BitVec 16 → ChainMsg} {pick : ChainMsg → Bool} {m : ChainMsg}
    (h : s.arrival i ep flit pick = some (m, t)) : t.mem = s.mem := by
  unfold State.arrival at h
  split at h
  · cases h
  · split_ifs at h
    · cases h
      simp
    · split at h
      next hpop =>
        split_ifs at h
        cases h
        exact State.popWire_mem hpop
      · cases h

@[simp] theorem State.takeCustody_mem (s : State) (i : Nat) (ep : BitVec 16) : (s.takeCustody i ep).mem = s.mem := by
  unfold State.takeCustody
  repeat' split
  all_goals simp

@[simp] theorem State.afterArrival_mem (s : State) (i : Nat) (ep : BitVec 16) : (s.afterArrival i ep).mem = s.mem := by
  unfold State.afterArrival
  dsimp only
  repeat' split
  all_goals simp

@[simp] theorem State.arriveData_mem (s : State) (i : Nat) (ep : BitVec 16) (off : Nat) (ws : List (Word × Bool)) :
    (s.arriveData i ep off ws).mem = s.mem := by
  unfold State.arriveData
  dsimp only
  repeat' split
  all_goals simp

theorem execChainTransferArrive_mem (l : Nat) (ep : BitVec 8) (off : Nat) (ws : List (Word × Bool)) (s : State) :
    outMem s (execChainTransferArrive l ep off ws s) := by
  unfold execChainTransferArrive
  split
  next h => simpa using State.arrival_mem h
  · rfl

@[simp] theorem State.arriveEnd_mem (s : State) (i : Nat) (ep : BitVec 16) (len : Nat) : (s.arriveEnd i ep len).mem = s.mem := by
  simp [State.arriveEnd]

theorem execChainEnd_mem (l : Nat) (ep : BitVec 8) (len : Nat) (s : State) : outMem s (execChainEnd l ep len s) := by
  unfold execChainEnd
  split
  next h => simpa using State.arrival_mem h
  · rfl

@[simp] theorem State.arriveCommit_mem (s : State) (i : Nat) (ep : BitVec 16) : (s.arriveCommit i ep).mem = s.mem := by
  simp [State.arriveCommit]

theorem execChainCommit_mem (l : Nat) (ep : BitVec 8) (s : State) : outMem s (execChainCommit l ep s) := by
  unfold execChainCommit
  split
  next h => simpa using State.arrival_mem h
  · rfl

theorem resumeInstr_wf (t : TwigId) (i : Instr) {s : State} (h : s.mem.wf = true) : outWf (resumeInstr t i s) := by
  unfold resumeInstr
  split
  · simp [h]
  next hvec =>
  clear hvec
  cases i
  case nop t' gu => exact execNop_wf t' gu h
  case isync t' gu => exact execIsync_wf t' gu h
  case ret t' gu => exact execRet_wf t' gu h
  case resume t' gu => exact execResume_wf t' gu h
  case wfi t' gu => exact execWfi_wf t' gu h
  case halt t' gu => exact execHalt_wf t' gu h
  case neg t' gu gd => exact execNeg_wf t' gu gd h
  case not t' gu gd => exact execNot_wf t' gu gd h
  case abs t' gu gd => exact execAbs_wf t' gu gd h
  case jmpr t' gu gs => exact execJmpr_wf t' gu gs h
  case callr t' gu gs => exact execCallr_wf t' gu gs h
  case sdadv t' gu n => exact execSdadv_wf t' gu n h
  case pnot t' gu pd ps => exact execPnot_wf t' gu pd ps h
  case pmov t' gu pd ps => exact execPmov_wf t' gu pd ps h
  case mov t' gu gd gs => exact execMov_wf t' gu gd gs h
  case add t' gu gd gs => exact execAdd_wf t' gu gd gs h
  case sub t' gu gd gs => exact execSub_wf t' gu gd gs h
  case movi t' gu gd imm => exact execMovi_wf t' gu gd imm h
  case addi t' gu gd imm => exact execAddi_wf t' gu gd imm h
  case pfx t' payload => exact execPfx_wf t' payload h
  case and t' gu gd gs z gt => exact execAnd_wf t' gu gd gs z gt h
  case or t' gu gd gs z gt => exact execOr_wf t' gu gd gs z gt h
  case xor t' gu gd gs z gt => exact execXor_wf t' gu gd gs z gt h
  case andn t' gu gd gs z gt => exact execAndn_wf t' gu gd gs z gt h
  case add3 t' gu gd gs z gt => exact execAdd3_wf t' gu gd gs z gt h
  case sub3 t' gu gd gs z gt => exact execSub3_wf t' gu gd gs z gt h
  case shl t' gu gd gs z gt => exact execShl_wf t' gu gd gs z gt h
  case shr t' gu gd gs z gt => exact execShr_wf t' gu gd gs z gt h
  case sra t' gu gd gs z gt => exact execSra_wf t' gu gd gs z gt h
  case rot t' gu gd gs z gt => exact execRot_wf t' gu gd gs z gt h
  case shli t' gu gd gs z amt => exact execShli_wf t' gu gd gs z amt h
  case shri t' gu gd gs z amt => exact execShri_wf t' gu gd gs z amt h
  case srai t' gu gd gs z amt => exact execSrai_wf t' gu gd gs z amt h
  case roti t' gu gd gs z amt => exact execRoti_wf t' gu gd gs z amt h
  case andi t' gu gd gs imm => exact execAndi_wf t' gu gd gs imm h
  case ori t' gu gd gs imm => exact execOri_wf t' gu gd gs imm h
  case xori t' gu gd gs imm => exact execXori_wf t' gu gd gs imm h
  case popc t' gu gd gs z => exact execPopc_wf t' gu gd gs z h
  case clz t' gu gd gs z => exact execClz_wf t' gu gd gs z h
  case mfc t' gu gd zh z n => exact execMfc_wf t' gu gd zh z n h
  case mtc t' gu zh gs z n => exact execMtc_wf t' gu zh gs z n h
  case pmr t' gu gd gs z => exact execPmr_wf t' gu gd gs z h
  case pmw t' gu zh gs z gt => exact execPmw_wf t' gu zh gs z gt h
  case qopen t' gu gd gs z gt => exact execQopen_wf t' gu gd gs z gt h
  case qput t' gu gd gs z gt => exact execQput_wf t' gu gd gs z gt h
  case qclose t' gu gd gs z gt => exact execQclose_wf t' gu gd gs z gt h
  case qtake t' gu gd gs z gt => exact execQtake_wf t' gu gd gs z gt h
  case qget t' gu gd gs z gt => exact execQget_wf t' gu gd gs z gt h
  case qdone t' gu gd gs z gt => exact execQdone_wf t' gu gd gs z gt h
  case qstat t' gu gd gs z gt => exact execQstat_wf t' gu gd gs z gt h
  case cmp t' gu gs gt cc pd md im imm => exact execCmp_wf t' gu gs gt cc pd md im imm h
  case ld t' gu gd gb => exact execLd_wf t' gu gd gb h
  case st t' gu gs gb => exact execSt_wf t' gu gs gb h
  case ld8u t' gu gd gb off => exact execLd8u_wf t' gu gd gb off h
  case ld8s t' gu gd gb off => exact execLd8s_wf t' gu gd gb off h
  case ld16u t' gu gd gb off => exact execLd16u_wf t' gu gd gb off h
  case ld16s t' gu gd gb off => exact execLd16s_wf t' gu gd gb off h
  case ld32u t' gu gd gb off => exact execLd32u_wf t' gu gd gb off h
  case ld32s t' gu gd gb off => exact execLd32s_wf t' gu gd gb off h
  case ld64 t' gu gd gb off => exact execLd64_wf t' gu gd gb off h
  case st8 t' gu gs gb off => exact execSt8_wf t' gu gs gb off h
  case st16 t' gu gs gb off => exact execSt16_wf t' gu gs gb off h
  case st32 t' gu gs gb off => exact execSt32_wf t' gu gs gb off h
  case st64 t' gu gs gb off => exact execSt64_wf t' gu gs gb off h
  case sdld t' gu n gb off => exact execSdld_wf t' gu n gb off h
  case sdst t' gu n gb off => exact execSdst_wf t' gu n gb off h
  case sdbase t' gu n gb off => exact execSdbase_wf t' gu n gb off h
  case br t' gu off => exact execBr_wf t' gu off h
  case call t' gu off => exact execCall_wf t' gu off h
  case loop t' gu z n gc fin => exact execLoop_wf t' gu z n gc fin h
  case loopi t' gu z n count fin => exact execLoopi_wf t' gu z n count fin h
  case rep t' gu z gc => exact execRep_wf t' gu z gc h
  case repi t' gu z count => exact execRepi_wf t' gu z count h
  case chain t' gu n => exact execChain_wf t' gu n h
  case fence t' gu => exact execFence_wf t' gu h
  case vwait t' gu => exact execVwait_wf t' gu h
  case setvl t' gu z gd gs ty => exact execSetvl_wf t' gu z gd gs ty h
  all_goals exact h

theorem State.fetchRun_wf {s : State} (t : TwigId) (h : s.mem.wf = true) : outWf (s.fetchRun t) := by
  unfold State.fetchRun
  extract_lets s1 x w s2 s3
  have h1 : s1.mem.wf = true := by simp [s1, h]
  have h2 : s2.mem.wf = true := by
    unfold s2
    split <;> simp [h1]
  have h3 : s3.mem.wf = true := by
    unfold s3
    split <;> simp [h2]
  split
  · exact runReserved_wf t 0 h1
  · split
    · exact resumeInstr_wf t _ h3
    · exact runReserved_wf t w h3

theorem State.twigTurn_wf {s : State} (t : TwigId) (h : s.mem.wf = true) : outWf (s.twigTurn t) := by
  unfold State.twigTurn
  dsimp only
  split
  · exact h
  · split
    · rw [outWf_next]
      split_ifs <;> simp [h]
    · split
      · exact h
      · exact State.fetchRun_wf t h

theorem State.fetchTurn_wf {s : State} (h : s.mem.wf = true) : outWf s.fetchTurn :=
  State.twigTurn_wf (s := { s.portsTurn with turn := (s.turn + 1) % 260 }) _ (by simpa using h)

@[simp] theorem State.beginPlotReset_mem (s : State) (p : PlotId) : (s.beginPlotReset p).mem = s.mem := by
  unfold State.beginPlotReset
  split
  · rfl
  split
  · rfl
  split
  · simp
  extract_lets s1 s2 s3 s4
  have h3 : s3.mem = s.mem := by
    unfold s3
    split <;> simp [s2, s1]
  have h4 : s4.mem = s3.mem := by
    refine foldl_mem (fun s b => ?_) _ _
    split <;> simp
  exact (foldl_mem (fun s q => State.requestFlush_mem s q) _ _).trans (h4.trans h3)

@[simp] theorem State.writePlotCtrl_mem (s : State) (p : PlotId) (w : RegWr) : (s.writePlotCtrl p w).mem = s.mem := by
  unfold State.writePlotCtrl
  dsimp only
  repeat' split
  all_goals simp

@[simp] theorem State.writePlot_mem (s : State) (p : PlotId) (o : Nat) (w : RegWr) : (s.writePlot p o w).mem = s.mem := by
  unfold State.writePlot
  repeat' split
  all_goals simp

@[simp] theorem State.release_wf {s : State} (t : TwigId) (p : Instr → Bool) (h : s.mem.wf = true) : outWf (s.release t p) := by
  unfold State.release
  dsimp only
  split
  · exact h
  · split_ifs
    · exact resumeInstr_wf t _ (by simpa using h)
    · exact h

theorem execTwigWaitRelease_wf (t : TwigId) {s : State} (h : s.mem.wf = true) : outWf (execTwigWaitRelease t s) := by
  unfold execTwigWaitRelease
  split
  · split_ifs
    · simp [h]
    · exact h
    · exact State.release_wf t _ h
  · exact h

theorem execIssueStallRelease_wf (t : TwigId) {s : State} (h : s.mem.wf = true) : outWf (execIssueStallRelease t s) := by
  simp [execIssueStallRelease, h]

theorem execQopenCreditsReady_wf (t : TwigId) {s : State} (h : s.mem.wf = true) : outWf (execQopenCreditsReady t s) := by
  simp [execQopenCreditsReady, h]

theorem execQtakePacketReady_wf (t : TwigId) {s : State} (h : s.mem.wf = true) : outWf (execQtakePacketReady t s) := by
  simp [execQtakePacketReady, h]

@[simp] theorem State.claimHalf_mem (s : State) (b : BoughId) (h : Fin 2) (run : List QEntry) : (s.claimHalf b h run).mem = s.mem := by
  unfold State.claimHalf
  dsimp only
  rw [foldl_mem fun s (r : RecvSt) => State.settleRx_mem s r.link]
  split
  · refine (foldl_mem (fun s r => ?_) _ _).trans (by simp)
    split <;> simp
  · simp

theorem execVectorDispatch_mem (b : BoughId) (s : State) : outMem s (execVectorDispatch b s) := by
  unfold execVectorDispatch
  dsimp only
  repeat' split
  all_goals simp

@[simp] theorem State.partnerLost_mem (s : State) (n : PortId) (leave : Bool) : (s.partnerLost n leave).mem = s.mem := by
  unfold State.partnerLost
  extract_lets s0 c s2 s3 s4
  have h0 : s0.mem = s.mem := by
    unfold s0
    split <;> simp
  have h3 : s3.mem = s0.mem := by
    unfold s3
    rw [State.breakLinks_mem]
  clear_value s3 s2 s0
  have h4 : s4.mem = s3.mem := by
    unfold s4
    rw [State.graftLost_mem, State.graftQueuesDown_mem]
  clear_value s4
  rw [State.setGraft_mem]
  exact (mem_with_hwd _ _).trans ((State.graftEvent_mem ..).trans (h4.trans (h3.trans h0)))

@[simp] theorem State.graftDown_mem (s : State) (n : PortId) : (s.graftDown n).mem = s.mem := by
  unfold State.graftDown
  split
  · exact State.partnerLost_mem ..
  · rw [State.setGraft_mem]

@[simp] theorem State.writeHold_mem (s : State) (n : PortId) (on : Bool) : (s.writeHold n on).mem = s.mem := by
  unfold State.writeHold
  dsimp only
  repeat' split
  all_goals simp

@[simp] theorem State.writeGraft_mem (s : State) (n : PortId) (o : Nat) (w : RegWr) : (s.writeGraft n o w).mem = s.mem := by
  unfold State.writeGraft
  repeat' split
  all_goals simp

@[simp] theorem State.writeOf_wf {s : State} (r : Reg) (crown : Bool) (v : Word) (mask : Word) (h : s.mem.wf = true) :
    (s.writeOf r crown v mask).mem.wf = true := by
  unfold State.writeOf
  repeat' split
  all_goals simp [h]

theorem State.writeReg_wf {s u : State} {crown : Bool} {o len : Nat} {v : Word} (h : s.mem.wf = true) (hwrite : s.writeReg crown o len v = some u) :
    u.mem.wf = true := by
  unfold State.writeReg at hwrite
  split at hwrite
  · cases hwrite
    simp [h]
  · cases hwrite

theorem State.landStore_wf {s u : State} {t : TwigId} {x : StoreOp} (h : s.mem.wf = true) (hland : s.landStore t x = some u) : u.mem.wf = true := by
  unfold State.landStore at hland
  dsimp only at hland
  split at hland
  · cases hland
  split at hland
  · split at hland <;> cases hland
    exact h
  · split at hland <;> cases hland
    cases t <;> simp [h]
  · cases hland
    cases hwrite : s.writeReg true _ x.bytes.length (BitVec.ofNat 64 (bytesNat x.bytes)) with
    | none => exact h
    | some u => exact State.writeReg_wf h hwrite
  · cases hland
    exact State.writeLines_wf h _ _
  · cases hland
    simp [h]

theorem execStorePerformed_wf (t : TwigId) {s : State} (h : s.mem.wf = true) : outWf (execStorePerformed t s) := by
  unfold execStorePerformed
  split
  · exact h
  · split
    next hland => simpa using State.landStore_wf (by simpa using h) hland
    · exact h

theorem execChainCreditReturn_mem (l : Nat) (n : Nat) (s : State) : outMem s (execChainCreditReturn l n s) := by
  unfold execChainCreditReturn
  repeat' split
  all_goals simp

@[simp] theorem State.dropSegments_mem (s : State) (l : Link) : (s.dropSegments l).mem = s.mem := by
  unfold State.dropSegments
  repeat' split
  all_goals simp

theorem execLinkBreak_mem (l : Nat) (code : BitVec 4) (s : State) : outMem s (execLinkBreak l code s) := by
  unfold execLinkBreak
  repeat' split
  all_goals simp

theorem execRearm_mem (g : GroveId) (bits : BitVec 32) (s : State) : outMem s (execRearm g bits s) := by
  unfold execRearm
  refine foldl_mem (fun s x => ?_) _ _
  repeat' split
  all_goals simp

theorem execTrapEntry_wf (t : TwigId) {s : State} (h : s.mem.wf = true) : outWf (execTrapEntry t s) := by
  unfold execTrapEntry
  repeat' split
  all_goals simp [h]

theorem execTimerLatch_mem (s : State) : outMem s (execTimerLatch s) := rfl

theorem execBoughReset_mem (b : BoughId) (s : State) : outMem s (execBoughReset b s) := by
  unfold execBoughReset
  repeat' split
  all_goals simp

@[simp] theorem State.rearmAfterReset_mem (s : State) (b : BoughId) : (s.rearmAfterReset b).mem = s.mem := by
  unfold State.rearmAfterReset
  refine foldl_mem (fun s x => ?_) _ _
  repeat' split
  all_goals simp

@[simp] theorem State.endBoughReset_mem (s : State) (b : BoughId) : (s.endBoughReset b).mem = s.mem := by
  unfold State.endBoughReset
  dsimp only
  repeat' split
  all_goals simp

theorem execBoughResetComplete_mem (b : BoughId) (s : State) : outMem s (execBoughResetComplete b s) := by
  unfold execBoughResetComplete
  repeat' split
  all_goals simp

theorem execFreeze_mem (b : BoughId) (on : Bool) (s : State) : outMem s (execFreeze b on s) := rfl

@[simp] theorem State.holdTlp_mem (s : State) (n : PortId) (i : Instr) (ord : Nat) : (s.holdTlp n i ord).mem = s.mem := rfl

@[simp] theorem State.rxBytes_mem (s : State) (n : PortId) (k : Nat) : (s.rxBytes n k).mem = s.mem := rfl

@[simp] theorem State.faultAddr_mem (s : State) (a : Option Nat) : (s.faultAddr a).1.mem = s.mem := by
  unfold State.faultAddr
  repeat' split
  all_goals simp

@[simp] theorem State.hostFault_mem (s : State) (n : PortId) (fn : HostFn) (c : Cause) (a : Nat) : (s.hostFault n fn c a).mem = s.mem := by
  unfold State.hostFault
  dsimp only
  repeat' split
  all_goals simp

@[simp] theorem State.hostIso_mem (s : State) (n : PortId) (fn : HostFn) (a : Nat) (write : Bool) : (s.hostIso n fn a write).mem = s.mem := by
  unfold State.hostIso
  dsimp only
  repeat' split
  all_goals simp

@[simp] theorem State.stageScratch_mem (s : State) (n : PortId) (p : Tlp) (a : Nat) (b : BoughId) : (s.stageScratch n p a b).mem = s.mem := by
  simp [State.stageScratch]

@[simp] theorem State.stageRoot_mem (s : State) (n : PortId) (p : Tlp) (a : Nat) : (s.stageRoot n p a).mem = s.mem := by
  unfold State.stageRoot
  refine foldl_mem (fun s x => ?_) _ _
  all_goals simp

@[simp] theorem State.bar2Write_mem (s : State) (n : PortId) (p : Tlp) : (s.bar2Write n p).mem = s.mem := by
  unfold State.bar2Write
  repeat' split
  all_goals simp

@[simp] theorem State.errProd_mem (s : State) (q : QueueId) (k : Nat) : (s.errProd q k).mem = s.mem := rfl

@[simp] theorem State.qwOpen_mem (s : State) (fn : HostFn) (q : QueueId) (v : Word) : (s.qwOpen fn q v).mem = s.mem := by
  unfold State.qwOpen
  dsimp only
  repeat' split
  all_goals simp

@[simp] theorem State.qwClose_mem (s : State) (fn : HostFn) (q : QueueId) (v : Word) : (s.qwClose fn q v).mem = s.mem := by
  unfold State.qwClose
  dsimp only
  repeat' split
  all_goals simp

@[simp] theorem State.errCons_mem (s : State) (q : QueueId) (k : Nat) : (s.errCons q k).mem = s.mem := rfl

@[simp] theorem State.qwTake_mem (s : State) (fn : HostFn) (q : QueueId) (v : Word) : (s.qwTake fn q v).mem = s.mem := by
  unfold State.qwTake
  repeat' split
  all_goals simp

@[simp] theorem State.qwDone_mem (s : State) (fn : HostFn) (q : QueueId) (v : Word) : (s.qwDone fn q v).mem = s.mem := by
  unfold State.qwDone
  repeat' split
  all_goals simp

@[simp] theorem State.qwPut_mem (s : State) (fn : HostFn) (q : QueueId) (i : Nat) (v : Word) : (s.qwPut fn q i v).mem = s.mem := by
  unfold State.qwPut
  dsimp only
  repeat' split
  all_goals simp

@[simp] theorem State.winWrite_mem (s : State) (fn : HostFn) (q : QueueId) (o : Nat) (v : Word) : (s.winWrite fn q o v).mem = s.mem := by
  unfold State.winWrite
  repeat' split
  all_goals simp

@[simp] theorem State.winWrites_mem (s : State) (fn : HostFn) (q : QueueId) (o : Nat) (vs : List Word) : (s.winWrites fn q o vs).mem = s.mem := by
  induction vs generalizing s o with
  | nil => rfl
  | cons v vs ih => exact (ih ..).trans (by simp)

@[simp] theorem State.meterHost_mem (s : State) (fn : HostFn) (n : Nat) : (s.meterHost fn n).mem = s.mem := by
  unfold State.meterHost
  repeat' split
  all_goals simp

@[simp] theorem State.writeBar_wf {s : State} (r : BarReg) (v : Word) (mask : Word) (h : s.mem.wf = true) : (s.writeBar r v mask).mem.wf = true := by
  unfold State.writeBar
  repeat' split
  all_goals simp [h]

@[simp] theorem State.hostRegWrite_wf {s : State} (n : PortId) (fn : HostFn) (o : Nat) (len : Nat) (v : Word) (h : s.mem.wf = true) :
    (s.hostRegWrite n fn o len v).mem.wf = true := by
  unfold State.hostRegWrite
  repeat' split
  all_goals simp [h]

@[simp] theorem State.bar0Write_wf {s : State} (n : PortId) (p : Tlp) (h : s.mem.wf = true) : (s.bar0Write n p).mem.wf = true := by
  unfold State.bar0Write
  dsimp only
  repeat' split
  all_goals simp [h]

@[simp] theorem State.hostWrite_wf {s : State} (n : PortId) (p : Tlp) (h : s.mem.wf = true) : (s.hostWrite n p).mem.wf = true := by
  unfold State.hostWrite
  repeat' split
  all_goals simp [h]

@[simp] theorem State.takeWrite_wf {s : State} (n : PortId) (p : Tlp) (h : s.mem.wf = true) : (s.takeWrite n p).mem.wf = true := by
  unfold State.takeWrite
  repeat' split
  all_goals simp [h]

theorem execHostWriteTlp_wf (n : PortId) (p : Tlp) {s : State} (h : s.mem.wf = true) : outWf (execHostWriteTlp n p s) := by
  simp [execHostWriteTlp, h]

@[simp] theorem State.readUr_mem (s : State) (n : PortId) (tag : Nat) : (s.readUr n tag).mem = s.mem := rfl

@[simp] theorem State.addRead_mem (s : State) (n : PortId) (r : HRead) : (s.addRead n r).mem = s.mem := rfl

@[simp] theorem State.sendParts_mem (s : State) (n : PortId) (tag i : Nat) (ps : List HPart) : (s.sendParts n tag i ps).mem = s.mem := by
  induction ps generalizing s i with
  | nil => rfl
  | cons p ps ih =>
    refine (ih ..).trans ?_
    split <;> simp

@[simp] theorem State.qwGet_mem (s : State) (fn : HostFn) (q : QueueId) (i : Nat) : (s.qwGet fn q i).1.mem = s.mem := by
  unfold State.qwGet
  repeat' split
  all_goals simp

@[simp] theorem State.readPoison_mem (s : State) (fn : HostFn) (a : Nat) : (s.readPoison fn a).mem = s.mem := by
  unfold State.readPoison
  dsimp only
  repeat' split
  all_goals simp

@[simp] theorem State.qwRead_mem (s : State) (fn : HostFn) (q : QueueId) (i : Nat) : (s.qwRead fn q i).1.mem = s.mem := by
  unfold State.qwRead
  dsimp only
  repeat' split
  all_goals simp

@[simp] theorem State.winRead_mem (s : State) (fn : HostFn) (q : QueueId) (o : Nat) : (s.winRead fn q o).1.mem = s.mem := by
  unfold State.winRead
  repeat' split
  all_goals simp

@[simp] theorem State.hostWriteReg_wf {s : State} (fn : HostFn) (o : Nat) (wide : Bool) (v : Word) (h : s.mem.wf = true) :
    (s.hostWriteReg fn o wide v).mem.wf = true := by
  unfold State.hostWriteReg
  dsimp only
  repeat' split
  all_goals simp [h]

@[simp] theorem State.sendEntries_mem (s : State) (fn : HostFn) : (s.sendEntries fn).mem = s.mem := by
  unfold State.sendEntries
  refine foldl_mem (fun s x => ?_) _ _
  all_goals simp

@[simp] theorem State.txBytes_mem (s : State) (n : PortId) (k : Nat) : (s.txBytes n k).mem = s.mem := rfl

@[simp] theorem State.window_mem (s : State) (fn : HostFn) (i : Instr) (wait write : Bool) {f : State → State} (hf : ∀ u : State, (f u).mem = u.mem) :
    (s.window fn i wait write f).mem = s.mem := by
  unfold State.window
  dsimp only
  split_ifs <;> simp [hf]

theorem execQwOpen_mem (fn : HostFn) (q : QueueId) (v : Word) (s : State) : outMem s (execQwOpen fn q v s) := by
  simp [execQwOpen]

theorem execQwClose_mem (fn : HostFn) (q : QueueId) (v : Word) (s : State) : outMem s (execQwClose fn q v s) := by
  simp [execQwClose]

theorem execQwTake_mem (fn : HostFn) (q : QueueId) (v : Word) (s : State) : outMem s (execQwTake fn q v s) := by
  simp [execQwTake]

theorem execQwDone_mem (fn : HostFn) (q : QueueId) (v : Word) (s : State) : outMem s (execQwDone fn q v s) := by
  simp [execQwDone]

theorem execQwDataWrite_mem (fn : HostFn) (q : QueueId) (i : Nat) (v : Word) (s : State) : outMem s (execQwDataWrite fn q i v s) := by
  simp [execQwDataWrite]

theorem execQwDataRead_mem (fn : HostFn) (q : QueueId) (i : Nat) (s : State) : outMem s (execQwDataRead fn q i s) := by
  simp [execQwDataRead]

@[simp] theorem State.spdm_mem (s : State) (tr : Fin 9) (i : Instr) {f : State → State} (hf : ∀ u : State, (f u).mem = u.mem) :
    (s.spdm tr i f).mem = s.mem := by
  unfold State.spdm
  split <;> split_ifs <;> simp [hf]

@[simp] theorem State.answer_mem (s : State) (tr : Fin 9) (r : SpdmResp) : (s.answer tr r).mem = s.mem := rfl

@[simp] theorem State.modTr_mem (s : State) (tr : Fin 9) (f : Transport → Transport) : (s.modTr tr f).mem = s.mem := rfl

@[simp] theorem State.dropPending_mem (s : State) (tr : Fin 9) : (s.dropPending tr).mem = s.mem := rfl

@[simp] theorem State.doGetVersion_mem (s : State) (tr : Fin 9) : (s.doGetVersion tr).mem = s.mem := by
  simp [State.doGetVersion]

theorem execGetVersion_mem (tr : Fin 9) (s : State) : outMem s (execGetVersion tr s) := by
  simp [execGetVersion]

@[simp] theorem State.spdmError_mem (s : State) (tr : Fin 9) (code : BitVec 8) : (s.spdmError tr code).mem = s.mem := rfl

@[simp] theorem State.doGetCapabilities_mem (s : State) (tr : Fin 9) : (s.doGetCapabilities tr).mem = s.mem := by
  unfold State.doGetCapabilities
  repeat' split
  all_goals simp

theorem execGetCapabilities_mem (tr : Fin 9) (s : State) : outMem s (execGetCapabilities tr s) := by
  simp [execGetCapabilities]

@[simp] theorem State.doNegotiate_mem (s : State) (tr : Fin 9) (o : AlgOffer) : (s.doNegotiate tr o).mem = s.mem := by
  unfold State.doNegotiate
  repeat' split
  all_goals simp

theorem execNegotiateAlgorithms_mem (tr : Fin 9) (offer : AlgOffer) (s : State) : outMem s (execNegotiateAlgorithms tr offer s) := by
  simp [execNegotiateAlgorithms]

@[simp] theorem State.negotiated_mem (s : State) (tr : Fin 9) {k : State → State} (hk : ∀ u : State, (k u).mem = u.mem) :
    (s.negotiated tr k).mem = s.mem := by
  unfold State.negotiated
  split_ifs <;> simp [hk]

@[simp] theorem State.doGetCertificate_mem (s : State) (tr : Fin 9) (slot : BitVec 4) (off : Nat) (len : Nat) :
    (s.doGetCertificate tr slot off len).mem = s.mem := by
  unfold State.doGetCertificate
  repeat' split
  all_goals simp

theorem execGetCertificate_mem (tr : Fin 9) (slot : BitVec 4) (off : Nat) (len : Nat) (s : State) :
    outMem s (execGetCertificate tr slot off len s) := by
  simp [execGetCertificate]

@[simp] theorem draws_mem (k : Nat) (s : State) : (draws k s).2.mem = s.mem := by
  induction k generalizing s with
  | zero => rfl
  | succ k ih => exact ih _

@[simp] theorem State.signedAnswer_mem (s : State) (tr : Fin 9) (r : SpdmResp) : (s.signedAnswer tr r).mem = s.mem := by
  unfold State.signedAnswer
  dsimp only
  repeat' split
  all_goals simp

@[simp] theorem State.doChallenge_mem (s : State) (tr : Fin 9) (slot : BitVec 4) : (s.doChallenge tr slot).mem = s.mem := by
  unfold State.doChallenge
  repeat' split
  all_goals simp

theorem execChallenge_mem (tr : Fin 9) (slot : BitVec 4) (nonce : BitVec 256) (s : State) : outMem s (execChallenge tr slot nonce s) := by
  simp [execChallenge]

@[simp] theorem State.doMeasure_mem (s : State) (tr : Fin 9) (slot : BitVec 4) (index : BitVec 8) (sig : Bool) :
    (s.doMeasure tr slot index sig).mem = s.mem := by
  unfold State.doMeasure
  repeat' split
  all_goals simp

theorem execGetMeasurements_mem (tr : Fin 9) (slot : BitVec 4) (index : BitVec 8) (sig : Bool) (nonce : BitVec 256) (s : State) :
    outMem s (execGetMeasurements tr slot index sig nonce s) := by
  simp [execGetMeasurements]

@[simp] theorem State.doKeyExchange_mem (s : State) (tr : Fin 9) (slot : BitVec 4) (heartbeat : Nat) :
    (s.doKeyExchange tr slot heartbeat).mem = s.mem := by
  unfold State.doKeyExchange
  repeat' split
  all_goals simp

theorem execKeyExchange_mem (tr : Fin 9) (slot : BitVec 4) (heartbeat : Nat) (s : State) : outMem s (execKeyExchange tr slot heartbeat s) := by
  simp [execKeyExchange]

@[simp] theorem State.inSession_mem (s : State) (tr : Fin 9) (sid : Nat) (established : Bool) {k : State → State} (hk : ∀ u : State, (k u).mem = u.mem) :
    (s.inSession tr sid established k).mem = s.mem := by
  unfold State.inSession
  split_ifs <;> simp [hk]

@[simp] theorem State.modSession_mem (s : State) (sid : Nat) (f : Session → Session) : (s.modSession sid f).mem = s.mem := rfl

@[simp] theorem State.streamRequest_mem (s : State) (b : BoughId) (h : Fin 2) (slot : Nat) : (s.streamRequest b h slot).mem = s.mem := by
  unfold State.streamRequest
  extract_lets y x v
  cases x.slots[slot]? with
  | none => rfl
  | some sl =>
    dsimp only
    rcases (if x.st == .filling then v.slotNext sl else none) with _ | _ | ⟨i, a⟩
    · rfl
    · rfl
    · refine ite_mem rfl ?_
      rcases (if sl.desc.inMem then placeOf a else Place.hole) with r | _ | _ | _ | _ | _
      · exact ite_mem ((State.issueStream_mem ..).trans (State.touchOwn_mem ..)) ((State.modBough_mem ..).trans (State.lookUp_mem ..))
      all_goals exact State.issueStream_mem ..

theorem execStreamRequest_mem (b : BoughId) (h : Fin 2) (slot : Nat) (s : State) : outMem s (execStreamRequest b h slot s) := by
  simp [execStreamRequest]

theorem execOwnershipLookupReturn_mem (b : BoughId) (s : State) : outMem s (execOwnershipLookupReturn b s) := by
  unfold execOwnershipLookupReturn
  dsimp only
  split
  · rfl
  · exact (foldl_mem (fun s (q : Fin 2 × Nat) => State.streamRequest_mem s b q.1 q.2) _ _).trans ((State.modBough_mem ..).trans (State.learnOwn_mem ..))

@[simp] theorem State.applyQueues_mem (s : State) (b : BoughId) (r : RunResult) : (s.applyQueues b r).mem = s.mem := by
  unfold State.applyQueues
  dsimp only
  rw [foldl_mem fun s x => State.modQueue_mem .., foldl_mem fun s x => State.modQueue_mem .., foldl_mem fun s x => State.countQueue_mem ..]

theorem execCommitInstant_wf {s : State} (b : BoughId) (hs : s.mem.wf = true) : outWf (execCommitInstant b s) := by
  unfold execCommitInstant
  split
  · exact hs
  next h _ =>
    dsimp only
    split
    · exact hs
    next r _ =>
      split
      · exact hs
      · rw [outWf_next, State.tryFree_mem, State.commitSends_mem, State.applyQueues_mem, State.modBough_mem, State.modBough_mem]
        refine (congrArg (fun m : Memory => m.wf) (foldl_mem (fun s g => ?_) _ _)).trans (foldl_mem_wf (fun s hs w => State.storeBytes_wf _ hs) _ hs)
        split <;> simp

@[simp] theorem State.restartRun_mem (s : State) (i : Nat) (b : BoughId) (h : Fin 2) (ep : BitVec 16) : (s.restartRun i b h ep).mem = s.mem := by
  unfold State.restartRun
  dsimp only
  split_ifs
  · refine (foldl_mem (fun s i => ?_) _ _).trans ((State.modBough_mem ..).trans (State.discardFrom_mem ..))
    split
    · exact State.replayLink_mem ..
    · rfl
  · rfl

@[simp] theorem State.arriveAbort_mem (s : State) (i : Nat) (ep : BitVec 16) : (s.arriveAbort i ep).mem = s.mem := by
  unfold State.arriveAbort
  split
  · rfl
  · dsimp only
    split_ifs <;> simp

theorem execChainAbort_mem (l : Nat) (ep : BitVec 8) (s : State) : outMem s (execChainAbort l ep s) := by
  unfold execChainAbort
  split
  next h => simpa using State.arrival_mem h
  · rfl

theorem State.backToken_mem {s t : State} {i : Nat} {ep : BitVec 8} {replay : Bool} {e : BitVec 16} (h : s.backToken i ep replay = some (e, t)) :
    t.mem = s.mem := by
  unfold State.backToken at h
  split at h
  · cases h
  · split at h
    · cases h
    · split at h
      · cases h
        simp
      · cases replay <;> split at h <;> cases h <;> rfl

theorem execChainTaken_mem (l : Nat) (ep : BitVec 8) (s : State) : outMem s (execChainTaken l ep s) := by
  unfold execChainTaken
  split
  · rfl
  next h =>
    have hmem := State.backToken_mem h
    split
    · exact hmem
    · dsimp only
      split_ifs <;> simp [hmem]

theorem execChainReplay_mem (l : Nat) (ep : BitVec 8) (s : State) : outMem s (execChainReplay l ep s) := by
  unfold execChainReplay
  split
  · rfl
  next h =>
    have hmem := State.backToken_mem h
    dsimp only
    split
    · exact hmem
    · refine (foldl_mem (fun s t => ?_) _ _).trans ((State.modLink_mem ..).trans hmem)
      split_ifs <;> simp

@[simp] theorem State.winReads_mem (s : State) (fn : HostFn) (q : QueueId) (o k : Nat) : (s.winReads fn q o k).1.mem = s.mem := by
  induction k generalizing s o with
  | zero => rfl
  | succ k ih => exact (ih _ _).trans (State.winRead_mem ..)

@[simp] theorem State.hostReadReg_mem (s : State) (fn : HostFn) (o : Nat) (len : Nat) : (s.hostReadReg fn o len).1.mem = s.mem := by
  unfold State.hostReadReg
  repeat' split
  all_goals simp

@[simp] theorem State.hostRead_mem (s : State) (n : PortId) (tag : Nat) (fn : HostFn) (bar2 : Bool) (off : Nat) (len : Nat) :
    (s.hostRead n tag fn bar2 off len).mem = s.mem := by
  unfold State.hostRead
  dsimp only
  repeat' split
  all_goals simp

@[simp] theorem State.takeRead_mem (s : State) (ord : Nat) (n : PortId) (tag : Nat) (fn : HostFn) (bar2 : Bool) (off : Nat) (len : Nat) :
    (s.takeRead ord n tag fn bar2 off len).mem = s.mem := by
  unfold State.takeRead
  dsimp only
  repeat' split
  all_goals simp

theorem execRegisterWrite_wf {s : State} (who : RegWho) (off : Nat) (wide : Bool) (v : Word) (h : s.mem.wf = true) :
    outWf (execRegisterWrite who off wide v s) := by
  unfold execRegisterWrite
  cases who with
  | crown c =>
    dsimp only
    split
    · generalize hlen : (if wide = true then 8 else 4) = len
      rcases hw : s.writeReg true off len v with _ | t
      · exact h
      · exact State.writeReg_wf h hw
    · exact h
  | pf n =>
    dsimp only
    split
    · exact State.hostWriteReg_wf _ _ _ _ h
    · exact h
  | vf x =>
    dsimp only
    split
    · exact State.hostWriteReg_wf _ _ _ _ h
    · exact h

@[simp] theorem State.configWrite_mem (s : State) (n : PortId) (fn : HostFn) (op : CfgOp) : (s.configWrite n fn op).mem = s.mem := by
  cases op with
  | other => rfl
  | vfEnable on =>
    cases fn with
    | pf _ => exact foldl_mem (f := fun (s : State) v => s.modVf v fun f => { f with enabled := on }) (fun s v => rfl) (s.portVfs n) s
    | vf _ => rfl
  | msixEnable on => simp only [State.configWrite]; split <;> simp
  | functionMask on => simp only [State.configWrite]; split <;> simp
  | resizeBar2 k => cases fn <;> simp only [State.configWrite] <;> split <;> simp
  | aspmL1 on => rfl

@[simp] theorem State.configServe_mem (s : State) (n : PortId) (fn : HostFn) (op : CfgOp) : (s.configServe n fn op).mem = s.mem := by
  unfold State.configServe
  repeat' split
  all_goals simp

theorem execConfigRequest_mem (n : PortId) (fn : HostFn) (op : CfgOp) (s : State) : outMem s (execConfigRequest n fn op s) := by
  unfold execConfigRequest
  repeat' split
  all_goals simp

theorem execGetDigests_mem (tr : Fin 9) (s : State) : outMem s (execGetDigests tr s) :=
  State.spdm_mem s tr _ fun u => State.negotiated_mem u tr fun _ => State.answer_mem ..

theorem execFinish_mem (tr : Fin 9) (sid : Nat) (s : State) : outMem s (execFinish tr sid s) :=
  State.spdm_mem s tr _ fun u => State.inSession_mem u tr sid false fun _ => (State.answer_mem ..).trans (State.modSession_mem ..)

@[simp] theorem State.endSession_mem (s : State) (sid : Nat) : (s.endSession sid).mem = s.mem := rfl

@[simp] theorem State.doRespond_mem (s : State) (tr : Fin 9) : (s.doRespond tr).mem = s.mem := by
  unfold State.doRespond
  dsimp only
  repeat' split
  all_goals simp

theorem execRespondIfReady_mem (tr : Fin 9) (s : State) : outMem s (execRespondIfReady tr s) := by
  simp [execRespondIfReady]

@[simp] theorem State.modIde_mem (s : State) (n : PortId) (f : Ide → Ide) : (s.modIde n f).mem = s.mem := rfl

@[simp] theorem State.ideMsg_mem (s : State) (tr : Fin 9) (sid : Nat) (n : PortId) (f : Ide → Ide) : (s.ideMsg tr sid n f).mem = s.mem := by
  unfold State.ideMsg
  dsimp only
  repeat' split
  all_goals simp

theorem execKeyProg_mem (tr : Fin 9) (sid : Nat) (n : PortId) (kset : Fin 2) (sub : Fin 3) (key : BitVec 256) (s : State) :
    outMem s (execKeyProg tr sid n kset sub key s) := by
  simp [execKeyProg]

theorem execKSetGo_mem (tr : Fin 9) (sid : Nat) (n : PortId) (kset : Fin 2) (sub : Fin 3) (s : State) :
    outMem s (execKSetGo tr sid n kset sub s) := by
  simp [execKSetGo]

theorem execKSetStop_mem (tr : Fin 9) (sid : Nat) (n : PortId) (kset : Fin 2) (sub : Fin 3) (s : State) :
    outMem s (execKSetStop tr sid n kset sub s) := by
  simp [execKSetStop]

theorem execQuery_mem (tr : Fin 9) (sid : Nat) (n : PortId) (s : State) : outMem s (execQuery tr sid n s) := by
  simp [execQuery]

@[simp] theorem State.leaveAbsorb_mem (s : State) (x : Master) : (s.leaveAbsorb x).mem = s.mem := by
  unfold State.leaveAbsorb
  repeat' split
  all_goals simp

@[simp] theorem State.portCleanAt_mem (s : State) (m : Master) : (s.portCleanAt m).mem = s.mem := by
  unfold State.portCleanAt
  repeat' split
  all_goals simp

theorem execProgramStoreFill_mem (t : TwigId) (line : Nat) (s : State) : outMem s (execProgramStoreFill t line s) := by
  unfold execProgramStoreFill
  repeat' split
  all_goals simp

theorem execSliceAcceptRequest_mem (k : SliceId) (s : State) : outMem s (execSliceAcceptRequest k s) := by
  unfold execSliceAcceptRequest
  repeat' split
  all_goals simp

@[simp] theorem State.freshAll_mem (s : State) (ws : List Nat) : (s.freshAll ws).mem = s.mem := by
  unfold State.freshAll
  refine foldl_mem (fun s x => ?_) _ _
  all_goals simp

theorem execTargetAccessComplete_wf (k : SliceId) (e : AccessEnd) {s : State} (h : s.mem.wf = true) : outWf (execTargetAccessComplete k e s) := by
  unfold execTargetAccessComplete
  dsimp only
  split
  · split
    · simp [h]
    · rw [outWf_next]
      split_ifs <;> simp [h]
  · rw [outWf_next, State.modSlice_mem]
    split
    · split
      · simp only [State.freshAll_mem, State.modMem_mem]
        exact Memory.foldl_wf _ (fun m w hm => Memory.setMark_wf hm _ _) _ h
      · exact h
    · exact h

@[simp] theorem State.storeVisible_mem (s : State) (who : Writer) : (s.storeVisible who).mem = s.mem := by
  unfold State.storeVisible
  repeat' split
  all_goals simp

@[simp] theorem State.commitBurst_wf {s : State} (younger : List Nat) (b : Burst) (h : s.mem.wf = true) :
    (s.commitBurst younger b).mem.wf = true := by
  unfold State.commitBurst
  simp only [State.meterWrite_mem, State.modSlice_mem]
  exact foldl_mem_wf (fun s h w => by simp [h, Memory.setMark_wf]) _ (by simp [h])

@[simp] theorem State.stageBurst_wf {s : State} (b : Burst) (h : s.mem.wf = true) : (s.stageBurst b).mem.wf = true := by
  unfold State.stageBurst
  repeat' split
  all_goals simp [h]

theorem execWriteBurstStage_wf (c : StageCheck) {s : State} (h : s.mem.wf = true) : outWf (execWriteBurstStage c s) := by
  unfold execWriteBurstStage
  dsimp only
  repeat' split
  all_goals simp [h]

theorem execPerBankRefresh_mem (k : SliceId) (p : Fin 4) (bank : Fin 16) (waited : Nat) (s : State) :
    outMem s (execPerBankRefresh k p bank waited s) := by
  unfold execPerBankRefresh
  repeat' split
  all_goals simp

theorem execStackTempRead_mem (i : StackId) (temp : BitVec 8) (s : State) : outMem s (execStackTempRead i temp s) := by
  unfold execStackTempRead
  dsimp only
  repeat' split
  all_goals simp

theorem execLinearMapSwitch_wf {s : State} (h : s.mem.wf = true) : outWf (execLinearMapSwitch s) := by
  unfold execLinearMapSwitch
  repeat' split
  all_goals simp [h]

@[simp] theorem State.injectArm_mem (s : State) (i : StackId) (kind : BitVec 2) (word : BitVec 34) : (s.injectArm i kind word).mem = s.mem := rfl

theorem execInjectArm_mem (i : StackId) (kind : BitVec 2) (word : BitVec 34) (s : State) : outMem s (execInjectArm i kind word s) := rfl

@[simp] theorem State.storeFails_mem (s : State) (t : TwigId) (id : Nat) (x : WTxn) : (s.storeFails t id x).mem = s.mem := by
  simp [State.storeFails]

theorem execStaged_mem (id : Nat) (k : SliceId) (s : State) : outMem s (execStaged id k s) := by
  unfold execStaged
  dsimp only
  repeat' split
  all_goals simp

@[simp] theorem State.dropBursts_mem (s : State) (id : Nat) (k : SliceId) : (s.dropBursts id k).mem = s.mem := rfl

@[simp] theorem State.discardAt_mem (s : State) (id : Nat) (k : SliceId) : (s.discardAt id k).mem = s.mem := by
  unfold State.discardAt
  repeat' split
  all_goals simp

theorem execHeartbeat_mem (tr : Fin 9) (sid : Nat) (s : State) : outMem s (execHeartbeat tr sid s) :=
  State.spdm_mem s tr _ fun u => State.inSession_mem u tr sid true fun _ => State.answer_mem ..

theorem execKeyUpdate_mem (tr : Fin 9) (sid : Nat) (s : State) : outMem s (execKeyUpdate tr sid s) :=
  State.spdm_mem s tr _ fun u => State.inSession_mem u tr sid true fun _ => (State.answer_mem ..).trans (State.modSession_mem ..)

theorem execEndSession_mem (tr : Fin 9) (sid : Nat) (s : State) : outMem s (execEndSession tr sid s) :=
  State.spdm_mem s tr _ fun u => State.inSession_mem u tr sid true fun _ => (State.answer_mem ..).trans (State.endSession_mem ..)

theorem execSpdmUnsupportedRequest_mem (tr : Fin 9) (code : BitVec 8) (s : State) : outMem s (execSpdmUnsupportedRequest tr code s) :=
  State.spdm_mem s tr _ fun _ => (State.answer_mem ..).trans (State.dropPending_mem ..)

@[simp] theorem State.serveTlp_wf {s : State} (ord : Nat) (i : Instr) (h : s.mem.wf = true) : (s.serveTlp ord i).mem.wf = true := by
  have hnext : ∀ o : Out, outWf o → (match o with | .next t => t | _ => s).mem.wf = true := fun o ho => by
    cases o with
    | next t => exact ho
    | _ => exact h
  unfold State.serveTlp
  refine hnext _ ?_
  split
  · exact execHostWriteTlp_wf _ _ h
  · exact (congrArg Memory.wf (State.takeRead_mem ..)).trans h
  · exact execRegisterWrite_wf _ _ _ _ h
  · exact outWf_of_mem (execConfigRequest_mem ..) h
  · exact outWf_of_mem (execQwOpen_mem ..) h
  · exact outWf_of_mem (execQwClose_mem ..) h
  · exact outWf_of_mem (execQwTake_mem ..) h
  · exact outWf_of_mem (execQwDone_mem ..) h
  · exact outWf_of_mem (execQwDataWrite_mem ..) h
  · exact outWf_of_mem (execQwDataRead_mem ..) h
  · exact outWf_of_mem (execGetVersion_mem ..) h
  · exact outWf_of_mem (execGetCapabilities_mem ..) h
  · exact outWf_of_mem (execNegotiateAlgorithms_mem ..) h
  · exact outWf_of_mem (execGetDigests_mem ..) h
  · exact outWf_of_mem (execGetCertificate_mem ..) h
  · exact outWf_of_mem (execChallenge_mem ..) h
  · exact outWf_of_mem (execGetMeasurements_mem ..) h
  · exact outWf_of_mem (execKeyExchange_mem ..) h
  · exact outWf_of_mem (execFinish_mem ..) h
  · exact outWf_of_mem (execHeartbeat_mem ..) h
  · exact outWf_of_mem (execKeyUpdate_mem ..) h
  · exact outWf_of_mem (execEndSession_mem ..) h
  · exact outWf_of_mem (execRespondIfReady_mem ..) h
  · exact outWf_of_mem (execSpdmUnsupportedRequest_mem ..) h
  · exact outWf_of_mem (execKeyProg_mem ..) h
  · exact outWf_of_mem (execKSetGo_mem ..) h
  · exact outWf_of_mem (execKSetStop_mem ..) h
  · exact outWf_of_mem (execQuery_mem ..) h
  · exact h

@[simp] theorem State.serveSome_wf {s : State} (n : PortId) (past : Bool) (es : List HeldTlp) (h : s.mem.wf = true) :
    (s.serveSome n past es).mem.wf = true := by
  induction es generalizing s past with
  | nil => exact h
  | cons e es ih => exact ih _ (State.serveTlp_wf _ _ h)

@[simp] theorem State.serveHeld_wf {s : State} (n : PortId) (h : s.mem.wf = true) : (s.serveHeld n).mem.wf = true := by
  unfold State.serveHeld
  repeat' split
  all_goals simp [h]

@[simp] theorem State.serveAll_wf {s : State} (h : s.mem.wf = true) : s.serveAll.mem.wf = true := by
  unfold State.serveAll
  refine foldl_mem_wf (fun s h x => ?_) _ h
  simp [h]

theorem execPortClean_wf (m : Master) {s : State} (h : s.mem.wf = true) : outWf (execPortClean m s) := by
  simp [execPortClean, h]

theorem execDiscard_wf (id : Nat) (k : SliceId) {s : State} (h : s.mem.wf = true) : outWf (execDiscard id k s) := by
  simp [execDiscard, h]

@[simp] theorem State.committedAt_mem (s : State) (id : Nat) (k : SliceId) : (s.committedAt id k).mem = s.mem := by
  unfold State.committedAt
  dsimp only
  repeat' split
  all_goals simp

theorem execCommitted_wf (id : Nat) (k : SliceId) {s : State} (h : s.mem.wf = true) : outWf (execCommitted id k s) := by
  simp [execCommitted, h]

@[simp] theorem State.scratchWritten_mem (s : State) (t : WTxn) (b : BoughId) : (s.scratchWritten t b).mem = s.mem := by
  unfold State.scratchWritten
  dsimp only
  repeat' split
  all_goals simp

theorem execHostScratchpadWrite_wf (id : Nat) {s : State} (h : s.mem.wf = true) : outWf (execHostScratchpadWrite id s) := by
  unfold execHostScratchpadWrite
  repeat' split
  all_goals simp [h]

theorem execHostReadRequest_mem (n : PortId) (tag : Nat) (fn : HostFn) (bar2 : Bool) (off : Nat) (len : Nat) (s : State) :
    outMem s (execHostReadRequest n tag fn bar2 off len s) := by
  simp [execHostReadRequest]

@[simp] theorem State.scratchPart_mem (s : State) (n : PortId) (tag : Nat) (p : HPart) : (s.scratchPart n tag p).mem = s.mem := by
  unfold State.scratchPart
  dsimp only
  repeat' split
  all_goals simp

@[simp] theorem State.dropRead_mem (s : State) (n : PortId) (tag : Nat) : (s.dropRead n tag).mem = s.mem := rfl

@[simp] theorem State.readIsolation_mem (s : State) (n : PortId) (fn : HostFn) (a : Nat) : (s.readIsolation n fn a).mem = s.mem := by
  unfold State.readIsolation
  dsimp only
  repeat' split
  all_goals simp

@[simp] theorem State.readAnswer_mem (s : State) (n : PortId) (r : HRead) : (s.readAnswer n r).1.mem = s.mem := by
  unfold State.readAnswer
  dsimp only
  repeat' split
  all_goals simp

@[simp] theorem State.finishRead_mem (s : State) (n : PortId) (r : HRead) : (s.finishRead n r).mem = s.mem := by
  unfold State.finishRead
  repeat' split
  all_goals simp

@[simp] theorem State.completeRead_mem (s : State) (n : PortId) (tag : Nat) : (s.completeRead n tag).mem = s.mem := by
  unfold State.completeRead
  dsimp only
  repeat' split
  all_goals simp [foldl_mem]

theorem execHostReadCompletion_wf (n : PortId) (tag : Nat) {s : State} (h : s.mem.wf = true) : outWf (execHostReadCompletion n tag s) := by
  simp [execHostReadCompletion, h]

@[simp] theorem State.saveGranule_wf {s : State} (b : BoughId) (q : Nat) (h : s.mem.wf = true) : (s.saveGranule b q).mem.wf = true := by
  unfold State.saveGranule
  dsimp only
  rw [State.modMem_mem, State.observe_mem]
  split
  · exact Memory.foldl_wf _ (fun m i hm => Memory.setMark_wf hm _ _) _ (Memory.revive_wf h _)
  · exact Memory.foldl_wf _ (fun m i hm => Memory.scrubWord_wf hm _) _ h

@[simp] theorem State.note_mem (s : State) (kind : Nat) (d0 : Word) (d1 : Word) : (s.note kind d0 d1).mem = s.mem := by
  simp [State.note]

@[simp] theorem State.recordRepair_mem (s : State) (b : Nat) (bank : Nat) (row : Nat) (spare : Nat) :
    (s.recordRepair b bank row spare).mem = s.mem := by
  simp [State.recordRepair]

@[simp] theorem State.scrFlag_mem (s : State) (b : BoughId) (bit : Nat) : (s.scrFlag b bit).mem = s.mem := by
  simp [State.scrFlag]

@[simp] theorem State.bankPoison_mem (s : State) (b : BoughId) (bank : Nat) : (s.bankPoison b bank).mem = s.mem := by
  unfold State.bankPoison
  repeat' split
  all_goals simp

@[simp] theorem State.giveRowUp_mem (s : State) (b : BoughId) (bank : Nat) (row : Nat) : (s.giveRowUp b bank row).mem = s.mem := by
  unfold State.giveRowUp
  dsimp only
  repeat' split
  all_goals simp

@[simp] theorem State.logRow_mem (s : State) (b : BoughId) (q : Nat) : (s.logRow b q).mem = s.mem := rfl

@[simp] theorem State.rowFailed_mem (s : State) (b : BoughId) (q : Nat) : (s.rowFailed b q).mem = s.mem := by
  unfold State.rowFailed
  dsimp only
  repeat' split
  all_goals simp

theorem execFlush_mem (q : QueueId) (s : State) : outMem s (execFlush q s) := rfl

@[simp] theorem State.sendQueueCtrl_mem (s : State) (n : PortId) (tag : BitVec 32) (op : Nat) (pseq : BitVec 16) :
    (s.sendQueueCtrl n tag op pseq).mem = s.mem := rfl

@[simp] theorem State.unpost_mem (s : State) (q : QueueId) : (s.unpost q).mem = s.mem := by
  unfold State.unpost
  repeat' split
  all_goals simp

@[simp] theorem State.flushNow_mem (s : State) (q : QueueId) : (s.flushNow q).mem = s.mem := by
  unfold State.flushNow
  dsimp only
  repeat' split
  all_goals simp

theorem execQueueFlush_mem (q : QueueId) (s : State) : outMem s (execQueueFlush q s) := by
  unfold execQueueFlush
  dsimp only
  repeat' split
  all_goals simp [foldl_mem, apply_ite State.mem]

theorem execMsixUnmask_mem (fn : HostFn) (entry : Nat) (s : State) : outMem s (execMsixUnmask fn entry s) := by
  simp [execMsixUnmask]

theorem execPlotReset_mem (p : PlotId) (s : State) : outMem s (execPlotReset p s) := by
  simp [execPlotReset]

@[simp] theorem State.postHeldEvents_mem (s : State) (p : PlotId) : (s.postHeldEvents p).mem = s.mem := by
  unfold State.postHeldEvents
  refine foldl_mem (fun s x => ?_) _ _
  all_goals simp

@[simp] theorem State.endFlr_mem (s : State) (m : PlotMap) : (s.endFlr m).mem = s.mem := by
  unfold State.endFlr
  repeat' split
  all_goals simp

theorem execPark_mem (p : PlotId) (on : Bool) (s : State) : outMem s (execPark p on s) := by
  simp [execPark]

theorem execParkHold_mem (p : PlotId) (s : State) : outMem s (execParkHold p s) := by
  unfold execParkHold
  repeat' split
  all_goals simp

theorem execPreempt_mem (p : PlotId) (s : State) : outMem s (execPreempt p s) := by
  simp [execPreempt]

theorem execPreemptGraceExpiry_mem (p : PlotId) (s : State) : outMem s (execPreemptGraceExpiry p s) := by
  unfold execPreemptGraceExpiry
  dsimp only
  repeat' split
  all_goals simp

theorem execPlotBoughReset_mem (p : PlotId) (b : BoughId) (s : State) : outMem s (execPlotBoughReset p b s) := by
  simp [execPlotBoughReset]

@[simp] theorem State.evalCap_mem (s : State) (p : PlotId) : (s.evalCap p).mem = s.mem := by
  unfold State.evalCap
  dsimp only
  repeat' split
  all_goals simp

theorem execCapEvaluation_mem (s : State) : outMem s (execCapEvaluation s) := by
  unfold execCapEvaluation
  repeat' split
  all_goals simp [foldl_mem]

theorem execCrownMessageSend_mem (b : BoughId) (s : State) : outMem s (execCrownMessageSend b s) := by
  unfold execCrownMessageSend
  repeat' split
  all_goals simp

@[simp] theorem State.drawBool_mem (s : State) : s.drawBool.2.mem = s.mem := rfl

@[simp] theorem State.rejected_mem (s : State) (code : Nat) (off : Nat) : (s.rejected code off).mem = s.mem := by
  simp [State.rejected]

@[simp] theorem State.requestLoad_mem (s : State) (r : ActReq) : (s.requestLoad r).mem = s.mem := by
  unfold State.requestLoad
  repeat' split
  all_goals simp

@[simp] theorem State.endLoad_mem (s : State) : s.endLoad.mem = s.mem := by
  unfold State.endLoad
  dsimp only
  repeat' split
  all_goals simp

@[simp] theorem State.finishChan_mem (s : State) (ch : Fin 5) (code : Nat) (detail : Nat) (words : Nat) :
    (s.finishChan ch code detail words).mem = s.mem := rfl

@[simp] theorem State.finishOpt_mem (s : State) (ch : Option (Fin 5)) (code : Nat) (detail : Nat) : (s.finishOpt ch code detail).mem = s.mem := by
  unfold State.finishOpt
  repeat' split
  all_goals simp

theorem execPatrolScrub_wf {s : State} (k : SliceId) (granule : Nat) (h : s.mem.wf = true) : outWf (execPatrolScrub k granule s) := by
  have hscrub : (((s.observe (64 * granule) 64 true).modMem fun m => (List.range 8).foldl (fun m i => m.scrubWord (8 * granule + i)) m).mem.wf) = true := by
    rw [State.modMem_mem, State.observe_mem]
    exact Memory.foldl_wf _ (fun m i hm => Memory.scrubWord_wf hm _) _ h
  unfold execPatrolScrub
  dsimp only
  generalize hu : State.modMem _ _ = u at hscrub ⊢
  split
  · have hs1 : (if s.scrubSkips k granule = true then s else u).mem.wf = true := by
      split
      · exact h
      · exact hscrub
    rw [outWf_next]
    split
    · rw [State.modStack_mem]
      exact hs1
    · exact hs1
  · exact h

theorem execCommit_wf {s : State} (id : Nat) (k : SliceId) (h : s.mem.wf = true) : outWf (execCommit id k s) := by
  unfold execCommit
  split
  · exact h
  next t _ =>
    generalize (if t.decision.isNone then t.slices else t.ctl) = ctl
    dsimp only
    split
    · exact h
    · generalize (youngerOwners (FOwner.txn id) _).flatMap _ = younger
      generalize hbursts : List.foldl (fun (s : State) b => s.commitBurst younger b) _ _ = u
      have hu : u.mem.wf = true := hbursts ▸ foldl_mem_wf (fun s hs b => State.commitBurst_wf _ _ hs) _ h
      rw [outWf_next]
      split
      · rw [State.storeVisible_mem]
        split <;> simp [hu]
      · simp [hu]

theorem execSweepRegionStart_wf {s : State} (b : BoughId) (h : s.mem.wf = true) : outWf (execSweepRegionStart b s) := by
  unfold execSweepRegionStart
  dsimp only
  generalize (s.scr[b].sweepPos).toNat = n
  split
  · rw [outWf_next, State.modScr_mem]
    exact foldl_mem_wf (fun s hs i => State.saveGranule_wf _ _ hs) _ h
  · exact h

@[simp] theorem State.afterReject_wf {s : State} (r : ActReq) (code : Nat) (off : Nat) (h : s.mem.wf = true) :
    (s.afterReject r code off).mem.wf = true := by
  unfold State.afterReject
  dsimp only
  repeat' split
  all_goals simp [h]

@[simp] theorem State.stageResult_wf {s : State} (r : ActReq) (x : Chk (Grain × Bool)) (h : s.mem.wf = true) : (s.stageResult r x).mem.wf = true := by
  unfold State.stageResult
  repeat' split
  all_goals simp [h]

theorem execGrainStaged_wf {s : State} (h : s.mem.wf = true) : outWf (execGrainStaged s) := by
  unfold execGrainStaged
  dsimp only
  repeat' split
  all_goals simp [h]

theorem execActivationDrain_wf {s : State} (h : s.mem.wf = true) : outWf (execActivationDrain s) := by
  unfold execActivationDrain
  repeat' split
  all_goals simp [h]

@[simp] theorem State.writeProgram_wf {s : State} (g : Grain) (m : PlotMap) (h : s.mem.wf = true) : (s.writeProgram g m).mem.wf = true :=
  foldl_mem_wf (fun _ hs _ => Memory.writeRegion_wf hs _ _ _ _) (grovesOf m.boughs) h

@[simp] theorem State.resetNow_mem (s : State) (b : BoughId) : (s.resetNow b).mem = s.mem := by
  unfold State.resetNow
  dsimp only
  repeat' split
  all_goals simp

@[simp] theorem State.closeRecord_mem (s : State) (p : PlotId) (fin : Word) (flags : Word) : (s.closeRecord p fin flags).mem = s.mem := by
  simp [State.closeRecord]

@[simp] theorem State.closeAt_mem (s : State) (p : PlotId) (flags : Word) : (s.closeAt p flags).mem = s.mem := by
  unfold State.closeAt
  repeat' split
  all_goals simp

@[simp] theorem State.closeForSwitch_mem (s : State) (old : Option Grain) (g : Grain) : (s.closeForSwitch old g).mem = s.mem := by
  unfold State.closeForSwitch
  dsimp only
  repeat' split
  all_goals simp [foldl_mem, apply_ite State.mem]

@[simp] theorem State.graftsBefore_mem (s : State) (g : Grain) : (s.graftsBefore g).mem = s.mem := by
  unfold State.graftsBefore
  simp [foldl_mem, apply_ite State.mem]

@[simp] theorem State.switchQueues_mem (s : State) (old : Option Grain) (g : Option Grain) (qs : List QueueId) :
    (s.switchQueues old g qs).mem = s.mem := by
  unfold State.switchQueues
  refine foldl_mem (fun s x => ?_) _ _
  repeat' split
  all_goals simp

@[simp] theorem State.breakUnadmitted_mem (s : State) : s.breakUnadmitted.mem = s.mem := by
  simp [State.breakUnadmitted]

@[simp] theorem State.graftsAfter_mem (s : State) (g : Grain) : (s.graftsAfter g).mem = s.mem := by
  unfold State.graftsAfter
  refine foldl_mem (fun s x => ?_) _ _
  repeat' split
  all_goals simp

@[simp] theorem State.openForSwitch_mem (s : State) (p : PlotId) : (s.openForSwitch p).mem = s.mem := rfl

@[simp] theorem State.openAll_mem (s : State) (old : Option Grain) (g : Grain) : (s.openAll old g).mem = s.mem := by
  unfold State.openAll
  refine foldl_mem (fun s x => ?_) _ _
  repeat' split
  all_goals simp

@[simp] theorem State.postOwed_mem (s : State) : s.postOwed.mem = s.mem := by
  unfold State.postOwed
  simp [foldl_mem, apply_ite State.mem]

@[simp] theorem State.fwReachesRun_mem (s : State) : s.fwReachesRun.mem = s.mem := by
  unfold State.fwReachesRun
  repeat' split
  all_goals simp

@[simp] theorem State.recordImage_mem (s : State) (g : Grain) : (s.recordImage g).mem = s.mem := rfl

theorem execPlotStart_wf {s : State} (h : s.mem.wf = true) : outWf (execPlotStart s) := by
  unfold execPlotStart
  dsimp only
  repeat' split
  all_goals simp [foldl_mem, h]

@[simp] theorem State.breakPlotLinks_mem (s : State) (p : Nat) : (s.breakPlotLinks p).mem = s.mem := by
  simp [State.breakPlotLinks]

@[simp] theorem State.admitChanged_mem (s : State) (old : Grain) (g : Grain) (p : PlotId) : (s.admitChanged old g p).mem = s.mem := by
  unfold State.admitChanged
  simp [foldl_mem, apply_ite State.mem]

@[simp] theorem State.regrainTables_mem (s : State) (old : Grain) (g : Grain) (p : PlotId) (slot : Fin 2) :
    (s.regrainTables old g p slot).mem = s.mem := by
  simp [State.regrainTables]

@[simp] theorem State.regrainStart_mem (s : State) (g : Grain) (p : PlotId) : (s.regrainStart g p).mem = s.mem := rfl

@[simp] theorem State.wdogTick_mem (s : State) : s.wdogTick.mem = s.mem := by
  unfold State.wdogTick
  repeat' split
  all_goals simp

@[simp] theorem State.meterSecond_mem (s : State) : s.meterSecond.mem = s.mem := by
  unfold State.meterSecond
  dsimp only
  repeat' split
  all_goals simp

@[simp] theorem State.meterTick_mem (s : State) : s.meterTick.mem = s.mem := by
  unfold State.meterTick
  refine foldl_mem (fun s x => ?_) _ _
  repeat' split
  all_goals simp

@[simp] theorem State.meterEnergy_mem (s : State) (nj : Nat) : (s.meterEnergy nj).mem = s.mem := rfl

theorem execRingTick_mem (energyNJ : Nat) (s : State) : outMem s (execRingTick energyNJ s) := by
  unfold execRingTick
  repeat' split
  all_goals simp

@[simp] theorem State.saveHeader_mem (s : State) : s.saveHeader.mem = s.mem := rfl

theorem execMinuteBoundary_mem (s : State) : outMem s (execMinuteBoundary s) := by
  unfold execMinuteBoundary
  dsimp only
  repeat' split
  all_goals simp [foldl_mem]

theorem execHourlySeal_mem (s : State) : outMem s (execHourlySeal s) := by
  unfold execHourlySeal
  repeat' split
  all_goals simp

@[simp] theorem State.pwrEvent_mem (s : State) (bit : Nat) : (s.pwrEvent bit).mem = s.mem := by
  simp [State.pwrEvent]

@[simp] theorem State.notePower_mem (s : State) (e : Nat) : (s.notePower e).mem = s.mem := by
  unfold State.notePower
  dsimp only
  repeat' split
  all_goals simp

theorem execRingCalSync_mem (v : Word) (s : State) : outMem s (execRingCalSync v s) := by
  unfold execRingCalSync
  repeat' split
  all_goals simp

@[simp] theorem State.usedChanged_mem (s : State) (was : Nat) : (s.usedChanged was).mem = s.mem := by
  unfold State.usedChanged
  dsimp only
  repeat' split
  all_goals simp

@[simp] theorem State.chainHeads_mem (s : State) (i : Item) : (s.chainHeads i).mem = s.mem := by
  unfold State.chainHeads
  repeat' split
  all_goals simp

theorem execJournalSlotCommit_mem (s : State) : outMem s (execJournalSlotCommit s) := by
  unfold execJournalSlotCommit
  repeat' split
  all_goals simp

theorem execThermalCycleSample_mem (s : State) : outMem s (execThermalCycleSample s) := by
  unfold execThermalCycleSample
  dsimp only
  repeat' split
  all_goals simp

@[simp] theorem State.abandonSig_mem (s : State) : s.abandonSig.mem = s.mem := by
  unfold State.abandonSig
  repeat' split
  all_goals simp

@[simp] theorem State.writeFlushHeader_mem (s : State) : s.writeFlushHeader.mem = s.mem := by
  unfold State.writeFlushHeader
  repeat' split
  all_goals simp

@[simp] theorem State.carryKept_mem (s : State) : s.carryKept.mem = s.mem := by
  unfold State.carryKept
  repeat' split
  all_goals simp

@[simp] theorem State.unfreezeAll_mem (s : State) : s.unfreezeAll.mem = s.mem := rfl

@[simp] theorem State.backToRun_wf {s : State} (h : s.mem.wf = true) : s.backToRun.mem.wf = true := by
  simp [State.backToRun, h]

@[simp] theorem State.abandonEntry_wf {s : State} (h : s.mem.wf = true) : s.abandonEntry.mem.wf = true := by
  simp [State.abandonEntry, h]

@[simp] theorem State.discardStaged_wf {s : State} (h : s.mem.wf = true) : s.discardStaged.mem.wf = true := by
  unfold State.discardStaged
  repeat' split
  all_goals simp [h]

@[simp] theorem State.writeFlush_mem (s : State) : s.writeFlush.mem = s.mem := by
  unfold State.writeFlush
  repeat' split
  all_goals simp

theorem execPwrFailAssert_wf {s : State} (h : s.mem.wf = true) : outWf (execPwrFailAssert s) := by
  unfold execPwrFailAssert
  dsimp only
  repeat' split
  all_goals simp [h]

@[simp] theorem State.startSig_mem (s : State) : s.startSig.mem = s.mem := by
  unfold State.startSig
  repeat' split
  all_goals simp

theorem execPwrFailDeassert_mem (s : State) : outMem s (execPwrFailDeassert s) := by
  unfold execPwrFailDeassert
  repeat' split
  all_goals simp

@[simp] theorem State.signItem_mem (s : State) : s.signItem.mem = s.mem := by
  unfold State.signItem
  repeat' split
  all_goals simp

@[simp] theorem State.refuseItem_mem (s : State) (n : PortId) (i : GraftItem) : (s.refuseItem n i).mem = s.mem := by
  unfold State.refuseItem
  repeat' split
  all_goals simp

@[simp] theorem State.rearmAdmitted_mem (s : State) (n : PortId) : (s.rearmAdmitted n).mem = s.mem := by
  unfold State.rearmAdmitted
  refine foldl_mem (fun s x => ?_) _ _
  repeat' split
  all_goals simp

@[simp] theorem State.spdmSigned_mem (s : State) (tr : Fin 9) : (s.spdmSigned tr).mem = s.mem := by
  unfold State.spdmSigned
  dsimp only
  repeat' split
  all_goals simp

theorem execSessionHeartbeatTimeout_mem (sid : Nat) (s : State) : outMem s (execSessionHeartbeatTimeout sid s) := by
  unfold execSessionHeartbeatTimeout
  repeat' split
  all_goals simp

@[simp] theorem State.eraseIde_mem (s : State) (n : PortId) : (s.eraseIde n).mem = s.mem := rfl

@[simp] theorem State.dropProd_mem (s : State) (q : QueueId) : (s.dropProd q).mem = s.mem := rfl

@[simp] theorem State.resetFn_mem (s : State) (fn : HostFn) : (s.resetFn fn).mem = s.mem := by
  simp [State.resetFn]

theorem execPerstDeassert_mem (n : PortId) (s : State) : outMem s (execPerstDeassert n s) := rfl

@[simp] theorem State.linkTo_mem (s : State) (n : PortId) (speed : BitVec 4) (width : BitVec 5) (flit : Bool) :
    (s.linkTo n speed width flit).mem = s.mem := rfl

theorem execHostLinkRetrain_mem (n : PortId) (speed : BitVec 4) (width : BitVec 5) (flit : Bool) (s : State) :
    outMem s (execHostLinkRetrain n speed width flit s) := by
  unfold execHostLinkRetrain
  repeat' split
  all_goals simp

theorem execVfFlr_mem (v : VfId) (s : State) : outMem s (execVfFlr v s) := by
  unfold execVfFlr
  dsimp only
  repeat' split
  all_goals simp

theorem execGraftBeaconTx_mem (n : PortId) (s : State) : outMem s (execGraftBeaconTx n s) := by
  unfold execGraftBeaconTx
  dsimp only
  repeat' split
  all_goals simp

@[simp] theorem State.latch_mem (s : State) (code : BitVec 4) : (s.latch code).mem = s.mem := rfl

@[simp] theorem State.startWake_mem (s : State) (code : BitVec 4) : (s.startWake code).mem = s.mem := rfl

@[simp] theorem State.wakeSeen_wf {s : State} (code : BitVec 4) (h : s.mem.wf = true) : (s.wakeSeen code).mem.wf = true := by
  unfold State.wakeSeen
  repeat' split
  all_goals simp [h]

theorem execGraftBeaconRx_wf (n : PortId) {s : State} (h : s.mem.wf = true) : outWf (execGraftBeaconRx n s) := by
  unfold execGraftBeaconRx
  dsimp only
  repeat' split
  all_goals simp [h]

theorem execGraftTrainLock_mem (n : PortId) (s : State) : outMem s (execGraftTrainLock n s) := by
  unfold execGraftTrainLock
  repeat' split
  all_goals simp

theorem execGraftTrainTimeout_mem (n : PortId) (s : State) : outMem s (execGraftTrainTimeout n s) := by
  unfold execGraftTrainTimeout
  repeat' split
  all_goals simp

theorem execGraftHelloTx_mem (n : PortId) (s : State) : outMem s (execGraftHelloTx n s) := by
  unfold execGraftHelloTx
  repeat' split
  all_goals simp

@[simp] theorem State.sendIdle_mem (s : State) (n : PortId) : (s.sendIdle n).mem = s.mem := rfl

theorem execGraftHelloTimeout_mem (n : PortId) (s : State) : outMem s (execGraftHelloTimeout n s) := by
  unfold execGraftHelloTimeout
  repeat' split
  all_goals simp

@[simp] theorem State.refuse_mem (s : State) (n : PortId) (reason : Nat) : (s.refuse n reason).mem = s.mem := by
  simp [State.refuse]

@[simp] theorem State.checkPeer_mem (s : State) (n : PortId) : (s.checkPeer n).mem = s.mem := by
  unfold State.checkPeer
  dsimp only
  repeat' split
  all_goals simp

theorem execGraftAuthTimeout_mem (n : PortId) (s : State) : outMem s (execGraftAuthTimeout n s) := by
  unfold execGraftAuthTimeout
  repeat' split
  all_goals simp

theorem execGraftRefusedTimeout_mem (n : PortId) (s : State) : outMem s (execGraftRefusedTimeout n s) := by
  unfold execGraftRefusedTimeout
  repeat' split
  all_goals simp

@[simp] theorem State.loseIfUp_mem (s : State) (n : PortId) : (s.loseIfUp n).mem = s.mem := by
  unfold State.loseIfUp
  repeat' split
  all_goals simp

theorem execLeave_mem (n : PortId) (s : State) : outMem s (execLeave n s) := by
  simp [execLeave]

@[simp] theorem State.graftIso_mem (s : State) (n : PortId) : (s.graftIso n).mem = s.mem := by
  unfold State.graftIso
  repeat' split
  all_goals simp

@[simp] theorem State.finishRx_mem (s : State) (n : PortId) (tag : BitVec 32) (q : QueueId) (pseq : BitVec 16) :
    (s.finishRx n tag q pseq).mem = s.mem := by
  unfold State.finishRx
  repeat' split
  all_goals simp

theorem execQueueData_mem (n : PortId) (tag : BitVec 32) (pseq : BitVec 16) (off : Nat) (ws : List (Word × Bool)) (s : State) :
    outMem s (execQueueData n tag pseq off ws s) := by
  unfold execQueueData
  dsimp only
  repeat' split
  all_goals simp

theorem execClosed_mem (n : PortId) (tag : BitVec 32) (pseq : BitVec 16) (s : State) : outMem s (execClosed n tag pseq s) := by
  unfold execClosed
  dsimp only
  repeat' split
  all_goals simp

theorem execQueueAbort_mem (n : PortId) (tag : BitVec 32) (pseq : BitVec 16) (s : State) : outMem s (execQueueAbort n tag pseq s) := by
  unfold execQueueAbort
  dsimp only
  repeat' split
  all_goals simp

theorem execCredit_mem (n : PortId) (tag : BitVec 32) (isQueue : Bool) (words : BitVec 17) (s : State) :
    outMem s (execCredit n tag isQueue words s) := by
  unfold execCredit
  dsimp only
  repeat' split
  all_goals simp

theorem execGraftBadFlit_mem (n : PortId) (s : State) : outMem s (execGraftBadFlit n s) := by
  unfold execGraftBadFlit
  repeat' split
  all_goals simp

theorem execGraftLaneLockLoss_mem (n : PortId) (lane : Fin 8) (s : State) : outMem s (execGraftLaneLockLoss n lane s) := by
  simp [execGraftLaneLockLoss]

theorem execGraftAckTimeout_mem (n : PortId) (s : State) : outMem s (execGraftAckTimeout n s) := by
  unfold execGraftAckTimeout
  repeat' split
  all_goals simp

theorem execGraftKeepaliveMiss_mem (n : PortId) (s : State) : outMem s (execGraftKeepaliveMiss n s) := by
  simp [execGraftKeepaliveMiss]

theorem execHold_mem (n : PortId) (on : Bool) (s : State) : outMem s (execHold n on s) := by
  simp [execHold]

theorem execPwrPlReq_mem (level : Fin 4) (s : State) : outMem s (execPwrPlReq level s) := by
  simp [execPwrPlReq]

theorem execVoltageSettled_mem (mv : Nat) (s : State) : outMem s (execVoltageSettled mv s) := by
  unfold execVoltageSettled
  repeat' split
  all_goals simp

theorem execVoltageTimeout_mem (s : State) : outMem s (execVoltageTimeout s) := by
  unfold execVoltageTimeout
  repeat' split
  all_goals simp

@[simp] theorem State.switchLevel_mem (s : State) (o : Fin 4) (n : Fin 4) : (s.switchLevel o n).mem = s.mem := by
  unfold State.switchLevel
  repeat' split
  all_goals simp

theorem execFrameEdgeSwitch_mem (s : State) : outMem s (execFrameEdgeSwitch s) := by
  unfold execFrameEdgeSwitch
  repeat' split
  all_goals simp

@[simp] theorem State.forceSlow_mem (s : State) : s.forceSlow.mem = s.mem := by
  unfold State.forceSlow
  repeat' split
  all_goals simp

theorem execDroop_mem (s : State) : outMem s (execDroop s) := by
  simp [execDroop]

theorem execHwThrottle_mem (s : State) : outMem s (execHwThrottle s) := by
  unfold execHwThrottle
  repeat' split
  all_goals simp

theorem execHwThrottleRelease_mem (s : State) : outMem s (execHwThrottleRelease s) := rfl

@[simp] theorem State.coreReset_wf {s : State} (lost : Bool) (h : s.mem.wf = true) : (s.coreReset lost).mem.wf = true :=
  Memory.noDead_wf (Memory.lose_wf h _)

theorem execThermalTrip_wf {s : State} (h : s.mem.wf = true) : outWf (execThermalTrip s) := by
  unfold execThermalTrip
  repeat' split
  all_goals simp [h]

theorem execSensorSample_mem (temps : List Nat) (s : State) : outMem s (execSensorSample temps s) := by
  unfold execSensorSample
  dsimp only
  repeat' split
  all_goals simp

theorem execLevelEvaluation_mem (s : State) : outMem s (execLevelEvaluation s) := by
  unfold execLevelEvaluation
  dsimp only
  repeat' split
  all_goals simp

@[simp] theorem State.resetCause_mem (s : State) (kind : Nat) (ch : Nat) (inside : Bool) : (s.resetCause kind ch inside).mem = s.mem := rfl

@[simp] theorem State.countReset_mem (s : State) : s.countReset.mem = s.mem := by
  unfold State.countReset
  refine foldl_mem (fun s x => ?_) _ _
  all_goals simp

@[simp] theorem State.refclkReset_wf {s : State} (h : s.mem.wf = true) : s.refclkReset.mem.wf = true := by
  simp [State.refclkReset, h]

theorem execRefclkLoss_wf {s : State} (h : s.mem.wf = true) : outWf (execRefclkLoss s) := by
  unfold execRefclkLoss
  repeat' split
  all_goals simp [h]

@[simp] theorem State.enterBoot_wf {s : State} (h : s.mem.wf = true) : s.enterBoot.mem.wf = true := by
  simp [State.enterBoot, h]

@[simp] theorem State.tryBoot_wf {s : State} (h : s.mem.wf = true) : s.tryBoot.mem.wf = true := by
  unfold State.tryBoot
  repeat' split
  all_goals simp [h]

theorem execRefclkRestore_wf {s : State} (h : s.mem.wf = true) : outWf (execRefclkRestore s) := by
  unfold execRefclkRestore
  repeat' split
  all_goals simp [h]

theorem execPwrAlarm_mem (v : Word) (s : State) : outMem s (execPwrAlarm v s) := rfl

theorem execAlarmReached_mem (s : State) : outMem s (execAlarmReached s) := by
  unfold execAlarmReached
  repeat' split
  all_goals simp

theorem execDormantEnter_wf {s : State} (h : s.mem.wf = true) : outWf (execDormantEnter s) := by
  simp [execDormantEnter, h]

@[simp] theorem State.toStep_mem (s : State) (k : Nat) : (s.toStep k).mem = s.mem := rfl

@[simp] theorem State.settleSlices_wf {s : State} (h : s.mem.wf = true) : s.settleSlices.mem.wf = true := by
  unfold State.settleSlices
  refine foldl_mem_wf (fun s h x => ?_) _ h
  simp [h]

@[simp] theorem State.finishReads_mem (s : State) : s.finishReads.mem = s.mem := by
  unfold State.finishReads
  refine foldl_mem (fun s x => ?_) _ _
  all_goals simp

@[simp] theorem State.selfRefresh_wf {s : State} (h : s.mem.wf = true) : s.selfRefresh.mem.wf = true := by
  simp [State.selfRefresh, h]

@[simp] theorem State.applyDead_wf {s : State} (b : BoughId) (h : s.mem.wf = true) : (s.applyDead b).mem.wf = true := by
  unfold State.applyDead
  generalize s.scr[b] = x
  rw [State.modMem_mem]
  refine Memory.foldl_wf _ (fun m q hm => ?_) _ h
  split
  · exact Memory.kill_wf hm _
  · exact hm

@[simp] theorem State.zeroScratch_wf {s : State} (b : BoughId) (h : s.mem.wf = true) : (s.zeroScratch b).mem.wf = true := by
  unfold State.zeroScratch
  exact State.applyDead_wf b (by simpa using Memory.zeroZone_wf h _)

@[simp] theorem State.restartPlot_wf {s : State} (p : PlotId) (m : PlotMap) (h : s.mem.wf = true) : (s.restartPlot p m).mem.wf = true := by
  unfold State.restartPlot
  dsimp only
  rw [State.modPlot_mem, foldl_mem fun s b => State.modBough_mem .., foldl_mem fun s b => State.rearmAfterReset_mem s b]
  exact foldl_mem_wf (fun s hs b => State.zeroScratch_wf b hs) _ h

theorem execPlotResetComplete_wf (p : PlotId) {s : State} (h : s.mem.wf = true) : outWf (execPlotResetComplete p s) := by
  unfold execPlotResetComplete
  repeat' split
  all_goals simp [h]

@[simp] theorem State.zeroRegions_wf {s : State} (g : Grain) (h : s.mem.wf = true) : (s.zeroRegions g).mem.wf = true := by
  unfold State.zeroRegions
  generalize s.regionsToZero g = rs
  rw [State.modGrn_mem]
  exact foldl_mem_wf (fun _ hs r => Memory.zeroZone_wf hs r) rs h

theorem execActivationWrite_wf {s : State} (h : s.mem.wf = true) : outWf (execActivationWrite s) := by
  unfold execActivationWrite
  split
  · exact h
  next g _ =>
    split
    · dsimp only
      rw [outWf_next, State.modGrn_mem]
      refine State.zeroRegions_wf g ?_
      rw [foldl_mem fun s q => State.flushNow_mem s q]
      refine foldl_mem_wf (fun s hs b => State.zeroScratch_wf b hs) _ ?_
      rw [foldl_mem fun s b => State.resetNow_mem s b]
      exact foldl_mem_wf (fun s hs m => State.writeProgram_wf g m hs) _ h
    · exact h

theorem execSwitchTick_mem (s : State) : outMem s (execSwitchTick s) := by
  unfold execSwitchTick
  split
  next g r _ _ =>
    split
    · dsimp only
      rw [outMem_next, State.finishOpt_mem, State.note_mem, State.openAll_mem]
      refine (foldl_mem (fun s i => ?_) _ _).trans ?_
      · split
        · exact ite_mem rfl (State.giveCredit_mem ..)
        · rfl
      · simp
    · rfl
  · rfl

theorem execRegrain_wf {s : State} (h : s.mem.wf = true) : outWf (execRegrain s) := by
  unfold execRegrain
  split
  next g p _ _ =>
    split
    · dsimp only
      rw [outWf_next]
      refine State.zeroRegions_wf g ?_
      have hflushed : ∀ (u : State) (qs : List QueueId), u.mem.wf = true →
          (qs.foldl (fun (s : State) q => if (s.queueRec q.val).isSome then s.requestFlush q else s) u).mem.wf = true := fun u qs hu => by
        rw [foldl_mem fun s q => ite_mem (State.requestFlush_mem s q) rfl]
        exact hu
      have hwritten : ∀ u : State, u.mem.wf = true → (match g.map? p.val with | some m => u.writeProgram g m | none => u).mem.wf = true := fun u hu => by
        split
        · exact State.writeProgram_wf g _ hu
        · exact hu
      refine hwritten _ (hflushed _ _ ?_)
      split
      · simp [h]
      · rw [foldl_mem fun s q => State.requestFlush_mem s q, foldl_mem fun s b => ite_mem rfl (State.beginBoughReset_mem s b)]
        split <;> simp [h]
    · exact h
  · exact h

@[simp] theorem State.armPlotLinks_mem (s : State) (p : PlotId) : (s.armPlotLinks p).mem = s.mem := by
  unfold State.armPlotLinks
  refine (foldl_mem (fun s i => ?_) _ _).trans (State.breakLinks_mem ..)
  split
  · exact ite_mem (State.giveCredit_mem ..) rfl
  · rfl

theorem execRegrainSwitchTick_wf {s : State} (h : s.mem.wf = true) : outWf (execRegrainSwitchTick s) := by
  unfold execRegrainSwitchTick
  split
  next g old r _ _ _ =>
    split
    · exact h
    · split
      · dsimp only
        generalize hs1 : List.foldl (fun (s : State) b => s.zeroScratch b) _ _ = s1
        have h1 : s1.mem.wf = true := hs1 ▸ foldl_mem_wf (fun s hs b => State.zeroScratch_wf b hs) _ (by simp [h])
        rw [outWf_next]
        split <;> simp [h1]
      · exact h
  · exact h

theorem execEnergyApportion_mem (s : State) : outMem s (execEnergyApportion s) := by
  unfold execEnergyApportion
  split
  · dsimp only
    rw [outMem_next, State.notePower_mem, State.modRing_mem]
    exact foldl_mem (fun s x => State.modPlot_mem ..) _ _
  · rfl

theorem execLedgerItemPost_mem {s t : State} (ht : execLedgerItemPost s = .next t) : t.mem = s.mem := by
  unfold execLedgerItemPost at ht
  split at ht
  · split at ht
    · cases ht; rfl
    · split at ht
      · split at ht
        next u hu => cases ht; exact (State.modRing_mem ..).trans (State.postPacket_mem hu)
        · cases ht; rfl
      · cases ht; rfl
  · cases ht; rfl

@[simp] theorem State.freshPseq_mem (s : State) (n : PortId) : (s.freshPseq n).mem = s.mem := by
  obtain ⟨boots, queues, hfresh⟩ := s.freshPseq_port n
  rw [hfresh]
  rfl

@[simp] theorem State.grantQueue_mem (s : State) (n : PortId) (i : GraftItem) : (s.grantQueue n i).mem = s.mem := by
  unfold State.grantQueue
  refine ite_mem (foldl_mem (fun s q => ?_) _ _) rfl
  split
  · exact ite_mem (State.sendCredit_mem ..) rfl
  · rfl

@[simp] theorem State.admitItems_mem (s : State) (n : PortId) (is : List GraftItem) : (s.admitItems n is).mem = s.mem := by
  unfold State.admitItems
  dsimp only
  rw [foldl_mem fun s i => State.grantQueue_mem s n i, State.rearmAdmitted_mem, foldl_mem fun s i => State.refuseItem_mem s n i, State.modGraft_mem]

@[simp] theorem State.tryUp_mem (s : State) (n : PortId) : (s.tryUp n).mem = s.mem := by
  unfold State.tryUp
  dsimp only
  repeat' split
  all_goals simp

@[simp] theorem State.sendAdmit_mem (s : State) (n : PortId) (fuel : Nat) (is : List GraftItem) : (s.sendAdmit n fuel is).mem = s.mem :=
  (FlitsOut.sendAdmit n fuel is s).work.mem

@[simp] theorem State.tryAdmit_mem (s : State) (n : PortId) : (s.tryAdmit n).mem = s.mem := by
  unfold State.tryAdmit
  dsimp only
  repeat' split
  all_goals simp

@[simp] theorem State.sendAuth_mem (s : State) (n : PortId) (part fuel off : Nat) (bs : List Byte) : (s.sendAuth n part fuel off bs).mem = s.mem :=
  (FlitsOut.sendAuth n part fuel off bs s).work.mem

@[simp] theorem State.graftSigned_mem (s : State) (n : PortId) : (s.graftSigned n).mem = s.mem := by
  unfold State.graftSigned
  repeat' split
  all_goals simp

theorem execSignatureComplete_mem (s : State) : outMem s (execSignatureComplete s) := by
  unfold execSignatureComplete
  repeat' split
  all_goals simp

@[simp] theorem State.loseHost_mem (s : State) (n : PortId) (surprise : Bool) : (s.loseHost n surprise).mem = s.mem := by
  unfold State.loseHost
  extract_lets fns s1 c s2 s3 s4 s5 s6 s7 s8
  have h1 : s1.mem = s.mem := State.discardWrites_mem ..
  have h3 : s3.mem = s1.mem := State.eraseIde_mem ..
  clear_value s3
  have h4 : s4.mem = s3.mem := by
    unfold s4
    refine foldl_mem (fun s q => ?_) _ _
    split
    · exact ite_mem (State.dropProd_mem ..) rfl
    · rfl
  clear_value s4
  have h5 : s5.mem = s4.mem := by
    unfold s5
    refine foldl_mem (fun s v => ?_) _ _
    split
    · exact State.plotEvent_mem ..
    · rfl
  clear_value s5
  have h6 : s6.mem = s5.mem := foldl_mem (fun s f => State.resetFn_mem s f) _ _
  clear_value s6
  have h8 : s8.mem = s6.mem := State.hostEvent_mem ..
  clear_value s8
  have h : s8.mem = s.mem := h8.trans (h6.trans (h5.trans (h4.trans (h3.trans h1))))
  exact ite_mem ((State.hostEvent_mem ..).trans h) h

theorem execPerstAssert_mem (n : PortId) (hot : Bool) (s : State) : outMem s (execPerstAssert n hot s) := by
  unfold execPerstAssert
  split
  · dsimp only
    rw [outMem_next, State.setReq_mem, State.modPort_mem, foldl_mem fun s f => State.resetFn_mem s f]
    have hport : (if hot = true then s else s.modPort n fun p => { p with perst := true }).mem = s.mem := ite_mem rfl rfl
    exact (ite_mem ((State.loseHost_mem ..).trans hport) ((State.eraseIde_mem ..).trans hport))
  · exact ite_mem (c := hot = true) rfl rfl

theorem execHostLinkDown_mem (n : PortId) (s : State) : outMem s (execHostLinkDown n s) := by
  unfold execHostLinkDown
  repeat' split
  all_goals simp

theorem execPfFlr_mem (n : PortId) (s : State) : outMem s (execPfFlr n s) := by
  unfold execPfFlr
  split
  · dsimp only
    rw [outMem_next, State.modPort_mem, State.resetFn_mem, foldl_mem fun s q => State.requestFlush_mem s q, State.absorbFn_mem]
  · rfl

@[simp] theorem State.enterAuth_mem (s : State) (n : PortId) : (s.enterAuth n).mem = s.mem := (s.enterAuth_work n).mem

@[simp] theorem State.tryAuth_mem (s : State) (n : PortId) : (s.tryAuth n).mem = s.mem := by
  unfold State.tryAuth
  dsimp only
  repeat' split
  all_goals simp

theorem execHello_mem (n : PortId) (protocol : BitVec 16) (peerPort : BitVec 2) (rank : BitVec 2) (serial : Word) (image : Word) (bootId : Word) (s : State) :
    outMem s (execHello n protocol peerPort rank serial image bootId s) := by
  unfold execHello
  dsimp only
  repeat' split
  all_goals simp

theorem execAuth_mem (n : PortId) (part : BitVec 4) (off : BitVec 16) (bytes : List Byte) (s : State) : outMem s (execAuth n part off bytes s) := by
  unfold execAuth
  dsimp only
  repeat' split
  all_goals simp

@[simp] theorem State.admitAgain_mem (s : State) (n : PortId) : (s.admitAgain n).mem = s.mem := by
  unfold State.admitAgain
  dsimp only
  repeat' split
  all_goals simp

theorem execAdmit_mem (n : PortId) (last : Bool) (es : List AdmitEntry) (s : State) : outMem s (execAdmit n last es s) := by
  unfold execAdmit
  dsimp only
  repeat' split
  all_goals simp

@[simp] theorem State.afterAck_mem (s : State) (n : PortId) : (s.afterAck n).mem = s.mem := by
  simp [State.afterAck]

theorem execGraftIdle_mem (n : PortId) (ack : BitVec 10) (s : State) : outMem s (execGraftIdle n ack s) := by
  unfold execGraftIdle
  repeat' split
  all_goals simp

@[simp] theorem State.linksDown_mem (s : State) : s.linksDown.mem = s.mem := by
  unfold State.linksDown
  simp [foldl_mem, apply_ite State.mem]

@[simp] theorem State.bankCrcs_mem (s : State) (b : BoughId) : (s.bankCrcs b).mem = s.mem := rfl

@[simp] theorem State.armDetector_wf {s : State} (h : s.mem.wf = true) : s.armDetector.mem.wf = true := by
  unfold State.armDetector
  dsimp only
  repeat' split
  all_goals simp [h]

@[simp] theorem State.restoreRegion_wf {s : State} (b : BoughId) (failed : BitVec 4) (h : s.mem.wf = true) :
    (s.restoreRegion b failed).mem.wf = true := by
  unfold State.restoreRegion
  extract_lets x n t
  have ht : t.mem = s.mem := foldl_mem (fun s _ => ite_mem (State.rowFailed_mem s b _) rfl) _ s
  clear_value t
  refine State.applyDead_wf _ ?_
  rw [State.modScr_mem, ht]
  exact h

theorem execSweepRestore_wf (b : BoughId) (failed : BitVec 4) {s : State} (h : s.mem.wf = true) : outWf (execSweepRestore b failed s) := by
  unfold execSweepRestore
  split
  · exact State.restoreRegion_wf b failed h
  · exact h

theorem execGraftNak_mem (n : PortId) (ack : BitVec 10) (s : State) : outMem s (execGraftNak n ack s) := by
  unfold execGraftNak
  extract_lets t
  have ht : t.mem = s.mem := State.modGraft_mem ..
  split
  · rfl
  split
  · exact (State.afterAck_mem _ _).trans ht
  extract_lets u
  have hu : u.mem = s.mem := (State.modGraft_mem ..).trans ht
  split
  · exact ((State.partnerLost_mem ..).trans (State.graftEvent_mem ..)).trans hu
  · exact (foldl_mem (fun s g => State.emit_mem ..) _ u).trans hu

@[simp] theorem State.domainSigs_mem (s : State) (x : Nat) : (s.domainSigs x).2.mem = s.mem := by
  induction x generalizing s with
  | zero => rfl
  | succ k ih => exact (ih s.draw.2).trans (State.draw_mem s)

@[simp] theorem State.capture_mem (s : State) : s.capture.mem = s.mem := by
  unfold State.capture
  extract_lets t d
  have ht : t.mem = s.mem := foldl_mem (fun _ _ => State.modScr_mem ..) _ s
  clear_value t
  have hd : d.2.mem = t.mem := State.domainSigs_mem t 18
  clear_value d
  exact (State.modPwr_mem _ _).trans (hd.trans ht)

@[simp] theorem State.entryStep_wf {s : State} (h : s.mem.wf = true) : s.entryStep.mem.wf = true := by
  unfold State.entryStep
  have h2 : ((s.selfRefresh.writeFlush).toStep 3).mem.wf = true := by
    rw [State.toStep_mem, State.writeFlush_mem]
    exact State.selfRefresh_wf h
  split
  · split
    · exact h
    · exact h
  · split
    · exact h2
    · exact h
  · rw [State.toStep_mem, State.linksDown_mem]
    exact h
  · rw [State.toStep_mem, State.capture_mem]
    exact h
  · exact h
  · exact h
  · exact State.armDetector_wf h

theorem execDormantStepComplete_wf {s : State} (h : s.mem.wf = true) : outWf (execDormantStepComplete s) := by
  unfold execDormantStepComplete
  repeat' split
  all_goals simp [h]

theorem execWakeSource_wf (code : BitVec 4) {s : State} (h : s.mem.wf = true) : outWf (execWakeSource code s) := by
  simp [execWakeSource, h]

@[simp] theorem State.trainStack_mem (s : State) (full : Bool) (k : StackId) : (s.trainStack full k).mem = s.mem := rfl

theorem State.observeAll_mem (f : Nat → Nat) (rows : List Nat) (s : State) : (rows.foldl (fun s row => s.observe (f row) 64 false) s).mem = s.mem :=
  foldl_mem (fun s _ => State.observe_mem s _ _ _) rows s

@[simp] theorem State.readBank_mem (s : State) (b : BoughId) (bank : Nat) : (s.readBank b bank).mem = s.mem :=
  State.observeAll_mem _ (List.range 256) s

@[simp] theorem State.checkBanks_mem (s : State) (b : BoughId) (ns : List Nat) : (s.checkBanks b ns).1.mem = s.mem := by
  induction ns generalizing s with
  | nil => rfl
  | cons n ns ih => exact (ih _).trans ((State.drawBool_mem _).trans (State.readBank_mem s b n))

theorem Memory.setMarks_wf (k : Option Mark) (f : Nat → Nat) (l : List Nat) {m : Memory} (h : m.wf = true) :
    (l.foldl (fun m i => m.setMark (f i) k) m).wf = true :=
  Memory.foldl_wf _ (fun _ _ hm => Memory.setMark_wf hm _ _) l h

theorem Memory.foldl_setMarks_wf (k : Option Mark) (f : Nat → Nat) (l rows : List Nat) {m : Memory} (h : m.wf = true) :
    (rows.foldl (fun m row => let g := f row; l.foldl (fun m i => m.setMark (8 * g + i) k) m) m).wf = true :=
  Memory.foldl_wf _ (fun _ _ hm => Memory.setMarks_wf k (fun i => 8 * _ + i) l hm) rows h

theorem State.modMem_wf {s : State} {f : Memory → Memory} (h : (f s.mem).wf = true) : (s.modMem f).mem.wf = true := h

@[simp] theorem State.bankLost_wf {s : State} (b : BoughId) (bank : Nat) (h : s.mem.wf = true) : (s.bankLost b bank).mem.wf = true := by
  unfold State.bankLost
  extract_lets t
  have ht : t.mem.wf = true :=
    State.modMem_wf (Memory.foldl_setMarks_wf _ (fun row => scrDpaGranule b (scrGranule bank row)) (List.range 8) (List.range 256) h)
  clear_value t
  rw [State.scrFlag_mem, State.modScr_mem]
  exact ht

@[simp] theorem State.retentionCheck_wf {s : State} (b : BoughId) (h : s.mem.wf = true) : (s.retentionCheck b).mem.wf = true := by
  unfold State.retentionCheck
  extract_lets r mask t u
  have hr : r.1.mem = s.mem := State.checkBanks_mem s b _
  clear_value r mask
  have ht : t.mem.wf = true := by
    unfold t
    rw [State.modScr_mem, hr]
    exact h
  clear_value t
  have hu : u.mem.wf = true := foldl_mem_wf (fun _ h n => State.bankLost_wf b n h) r.2 ht
  clear_value u
  split
  · exact hu
  · rw [State.note_mem, State.ringAdd_mem]
    exact hu

@[simp] theorem State.wakeEffect_wf {s : State} (k : Nat) (h : s.mem.wf = true) : (s.wakeEffect k).mem.wf = true := by
  unfold State.wakeEffect
  split
  · exact h
  · extract_lets t
    have ht : t.mem = s.mem := foldl_mem (fun s i => ite_mem (State.trainStack_mem s _ _) rfl) _ s
    clear_value t
    exact foldl_mem_wf (fun s hs b => State.retentionCheck_wf b hs) _ ((congrArg Memory.wf ht).trans h)
  · exact h

@[simp] theorem State.openGap_mem (s : State) (gap : Word) : (s.openGap gap).mem = s.mem := by
  unfold State.openGap
  extract_lets t
  have ht : t.mem = s.mem := State.ringAdd_mem ..
  clear_value t
  split
  · exact (foldl_mem (fun s m => State.plotEvent_mem s _ _ _ _ _) _ t).trans ht
  · exact ht

@[simp] theorem State.tellLost_mem (s : State) (b : BoughId) : (s.tellLost b).mem = s.mem := by
  unfold State.tellLost
  extract_lets ns t
  have ht : t.mem = s.mem := State.modScr_mem ..
  clear_value t ns
  split
  · exact (foldl_mem (fun s n => State.plotEvent_mem s _ _ _ _ _) _ _).trans ((State.recFlag_mem ..).trans ht)
  · exact ht

@[simp] theorem State.postWakeLate_mem (s : State) (later : Bool) : (s.postWakeLate later).mem = s.mem := by
  unfold State.postWakeLate
  dsimp only
  split
  · rfl
  split
  · rfl
  · exact foldl_mem (fun s m => State.plotEvent_mem s _ _ _ _ _) _ s

@[simp] theorem State.domainNoted_mem (s : State) (d : Nat) : (s.domainNoted d).mem = s.mem := by
  unfold State.domainNoted
  rw [State.note_mem, State.ringAdd_mem, State.modPwr_mem]

@[simp] theorem State.rewriteGrove_wf {s : State} (k : GroveId) (h : s.mem.wf = true) : (s.rewriteGrove k).mem.wf = true := by
  unfold State.rewriteGrove
  split
  · exact h
  · refine foldl_mem_wf (fun s hs m => ?_) _ h
    split
    · exact Memory.writeRegion_wf hs _ _ _ _
    · exact hs

@[simp] theorem State.groveLost_wf {s : State} (g : GroveId) (h : s.mem.wf = true) : (s.groveLost g).mem.wf = true := by
  unfold State.groveLost
  extract_lets t u v w
  have ht : t.mem = s.mem := State.domainNoted_mem s g.val
  clear_value t
  have hu : u.mem = t.mem := foldl_mem (fun s b => ite_mem (State.resetNow_mem s b) rfl) _ t
  clear_value u
  have hv : v.mem = u.mem := foldl_mem (fun s q => ite_mem (State.flushNow_mem s q) rfl) _ u
  clear_value v
  have hw : w.mem.wf = true := State.rewriteGrove_wf g ((congrArg Memory.wf (hv.trans (hu.trans ht))).trans h)
  clear_value w
  refine foldl_mem_wf (fun s hs m => ?_) _ hw
  split
  · rw [State.plotEvent_mem, State.recFlag_mem]
    exact hs
  · exact hs

@[simp] theorem State.dropCaches_mem (s : State) : s.dropCaches.mem = s.mem := rfl

@[simp] theorem State.closeRegions_wf {s : State} (h : s.mem.wf = true) : s.closeRegions.mem.wf = true := by
  unfold State.closeRegions
  refine foldl_mem_wf (fun s hs b => ?_) _ h
  split
  · exact State.restoreRegion_wf b _ ((congrArg Memory.wf (State.draw_mem s)).trans hs)
  · exact hs

@[simp] theorem State.deviceReset_wf {s : State} (kind ch : Nat) (inside : Bool) (h : s.mem.wf = true) :
    (s.deviceReset kind ch inside).mem.wf = true := by
  unfold State.deviceReset
  extract_lets t u v w
  have ht : t.mem.wf = true := State.setMap_wf false h
  clear_value t
  have hu : u.mem.wf = true := by
    unfold u
    rw [State.writeFlush_mem, State.countReset_mem]
    exact State.closeRegions_wf (State.settleSlices_wf ht)
  clear_value u
  have hv : v.mem = u.mem := foldl_mem (fun s n => ite_mem (State.partnerLost_mem s n true) rfl) _ u
  clear_value v
  have hw : w.mem = v.mem := foldl_mem (fun s n => ite_mem (State.loseHost_mem s n true) rfl) _ v
  clear_value w
  rw [State.raise_mem, State.resetCause_mem]
  exact State.coreReset_wf false ((congrArg Memory.wf (hw.trans hv)).trans hu)

@[simp] theorem State.endWake_wf {s : State} (h : s.mem.wf = true) : s.endWake.mem.wf = true := by
  unfold State.endWake
  extract_lets t u d lost dead v w x
  have ht : t.mem = s.mem := State.modPwr_mem ..
  clear_value t
  have hu : u.mem = t.mem := by
    unfold u
    split
    · rw [State.modPwr_mem, State.openGap_mem]
    · rfl
  clear_value u
  have hd : d.2.mem = u.mem := State.domainSigs_mem u 18
  clear_value d
  clear_value dead
  have hv : v.mem = d.2.mem := (foldl_mem (fun s b => State.tellLost_mem s b) _ _).trans (State.postWakeLate_mem ..)
  clear_value v
  have hw : w.mem.wf = true := by
    refine foldl_mem_wf (fun s hs g => ?_) _ ((congrArg Memory.wf (hv.trans (hd.trans (hu.trans ht)))).trans h)
    split
    · exact State.groveLost_wf g hs
    · exact hs
  clear_value w
  have hx : x.mem.wf = true := (congrArg Memory.wf (foldl_mem (fun s k => State.domainNoted_mem s k) dead w)).trans hw
  clear_value x
  split
  · exact State.backToRun_wf ((congrArg Memory.wf (State.dropCaches_mem x)).trans hx)
  · exact State.deviceReset_wf _ _ _ hx

@[simp] theorem State.wakeStepDone_wf {s : State} (us : Nat) (h : s.mem.wf = true) : (s.wakeStepDone us).mem.wf = true := by
  unfold State.wakeStepDone
  extract_lets k t u
  have hu : u.mem.wf = true := State.wakeEffect_wf k h
  clear_value u
  split
  · exact State.endWake_wf hu
  · exact hu

@[simp] theorem State.wakeLate_mem (s : State) : s.wakeLate.mem = s.mem := by
  simp [State.wakeLate]

theorem execWakeStepDelayEnd_wf (ready : Bool) {s : State} (h : s.mem.wf = true) : outWf (execWakeStepDelayEnd ready s) := by
  unfold execWakeStepDelayEnd
  repeat' split
  all_goals simp [h]

theorem execWakeStepReady_wf (us : Nat) {s : State} (h : s.mem.wf = true) : outWf (execWakeStepReady us s) := by
  unfold execWakeStepReady
  repeat' split
  all_goals simp [h]

@[simp] theorem State.powerLost_wf {s : State} (h : s.mem.wf = true) : s.powerLost.mem.wf = true :=
  Memory.noDead_wf (Memory.lose_wf h _)

theorem execPowerOn_wf {s : State} (h : s.mem.wf = true) : outWf (execPowerOn s) := by
  simp [execPowerOn, h]

theorem execResetNAssert_wf {s : State} (h : s.mem.wf = true) : outWf (execResetNAssert s) := by
  unfold execResetNAssert
  repeat' split
  all_goals simp [h]

theorem execResetNDeassert_wf {s : State} (h : s.mem.wf = true) : outWf (execResetNDeassert s) := by
  simp [execResetNDeassert, h]

@[simp] theorem State.endBoot_mem (s : State) : s.endBoot.mem = s.mem := rfl

@[simp] theorem State.coreUp_mem (s : State) : s.coreUp.mem = s.mem := rfl

@[simp] theorem State.deriveKey_mem (s : State) (chain : Bool) : (s.deriveKey chain).mem = s.mem := rfl

@[simp] theorem State.startCrown_wf {s : State} (k : Fin 2) (h : s.mem.wf = true) : (s.startCrown k).mem.wf = true := by
  unfold State.startCrown
  extract_lets t u
  have ht : t.mem.wf = true := State.modMem_wf (Memory.putAll_wf _ h)
  clear_value t
  exact ht

@[simp] theorem State.zeroAllScratch_wf {s : State} (h : s.mem.wf = true) : s.zeroAllScratch.mem.wf = true :=
  foldl_mem_wf (fun _ hs b => State.zeroScratch_wf b hs) _ h

@[simp] theorem State.trainStacks_mem (s : State) : s.trainStacks.mem = s.mem :=
  foldl_mem (fun s k => State.trainStack_mem s _ k) _ s

@[simp] theorem State.loadSpares_mem (s : State) : s.loadSpares.mem = s.mem := rfl

@[simp] theorem State.undefine_mem (s : State) : s.undefine.mem = s.mem := by
  unfold State.undefine
  extract_lets t u v
  have ht : t.mem = s.mem := foldl_mem (fun s n => ite_mem (State.partnerLost_mem s n true) rfl) _ s
  clear_value t
  have hu : u.mem = t.mem := foldl_mem (fun s n => State.setGraft_mem s n .off) _ t
  clear_value u
  have hv : v.mem = u.mem := foldl_mem (f := fun s (m : PlotMap) => s.closeAt (plotId m.plot) 0) (fun s m => State.closeAt_mem s _ _) _ u
  clear_value v
  exact hv.trans (hu.trans ht)

@[simp] theorem State.selfTest_wf {s : State} (h : s.mem.wf = true) : s.selfTest.mem.wf = true := by
  unfold State.selfTest
  rw [State.modSys_mem]
  refine State.zeroAllScratch_wf ?_
  rw [State.trainStacks_mem, State.loadSpares_mem]
  exact h

@[simp] theorem State.askSigs_mem (s : State) : s.askSigs.mem = s.mem := foldl_mem (fun s _ => State.requestSig_mem s _) _ s

@[simp] theorem State.closeFlushed_mem (s : State) (f : FlushArea) (r : FlushRec) : (s.closeFlushed f r).mem = s.mem := by
  simp [State.closeFlushed]

@[simp] theorem State.restoreFlush_mem (s : State) (f : FlushArea) (ramKept : Bool) : (s.restoreFlush f ramKept).mem = s.mem := by
  unfold State.restoreFlush
  extract_lets t
  have ht : t.mem = s.mem := ite_mem rfl (foldl_mem (fun s i => State.emitItem_mem s _ _ _) f.closing s)
  clear_value t
  exact (foldl_mem (fun s r => State.closeFlushed_mem s f r) f.recs t).trans ht

theorem State.noteAll_mem (f : Nat → Bool) (w : Nat → Word) (k : Word) (l : List Nat) (s : State) :
    (l.foldl (fun s c => if f c then s.note 8 k (w c) else s) s).mem = s.mem :=
  foldl_mem (fun s c => ite_mem (State.note_mem s _ _ _) rfl) l s

@[simp] theorem State.lateNotes_mem (s : State) : s.lateNotes.mem = s.mem := by
  unfold State.lateNotes
  extract_lets t
  have ht : t.mem = s.mem := (State.modSys_mem ..).trans (foldl_mem (fun s c => State.note_mem s _ _ _) _ s)
  clear_value t
  exact (foldl_mem (fun s k => (State.ringAdd_mem _ _ _).trans (State.noteAll_mem _ _ _ _ s)) _ t).trans ht

@[simp] theorem State.bootLoad_wf {s : State} (h : s.mem.wf = true) : s.bootLoad.mem.wf = true := by
  unfold State.bootLoad
  rw [State.requestLoad_mem]
  exact State.setMode_wf _ h

@[simp] theorem State.leaveBoot_wf {s : State} (h : s.mem.wf = true) : s.leaveBoot.mem.wf = true := by
  unfold State.leaveBoot
  dsimp only
  repeat' split
  all_goals simp [h]

@[simp] theorem State.bringUpHosts_mem (s : State) : s.bringUpHosts.mem = s.mem := rfl

@[simp] theorem State.finishOps_mem (s : State) (op : Nat) (code : Nat) : (s.finishOps op code).mem = s.mem :=
  foldl_mem (fun s c => ite_mem (State.finishChan_mem s c _ _ _) rfl) _ s

@[simp] theorem State.toServiceMode_wf {s : State} (h : s.mem.wf = true) : s.toServiceMode.mem.wf = true := by
  unfold State.toServiceMode
  rw [State.finishOps_mem]
  refine State.setMode_wf _ ?_
  rw [State.modSys_mem, State.undefine_mem, State.finishOps_mem]
  exact h

theorem execModeDrainComplete_wf {s : State} (h : s.mem.wf = true) : outWf (execModeDrainComplete s) := by
  unfold execModeDrainComplete
  repeat' split
  all_goals simp [h]

theorem execKick_mem (s : State) : outMem s (execKick s) := by
  unfold execKick
  repeat' split
  all_goals simp

theorem execWatchdogExpiry_wf {s : State} (h : s.mem.wf = true) : outWf (execWatchdogExpiry s) := by
  unfold execWatchdogExpiry
  repeat' split
  all_goals simp [h]

theorem execRestart_mem (k : CoreId) (s : State) : outMem s (execRestart k s) := by
  unfold execRestart
  repeat' split
  all_goals simp

@[simp] theorem State.finishData_mem (s : State) (ch : Fin 5) (ws : List Word) : (s.finishData ch ws).mem = s.mem := rfl

@[simp] theorem State.begin_mem (s : State) (ch : Fin 5) : (s.begin ch).mem = s.mem := rfl

@[simp] theorem State.activated_wf {s : State} (ch : Fin 5) (c : Chan) (h : s.mem.wf = true) : (s.activated ch c).mem.wf = true := by
  unfold State.activated
  dsimp only
  repeat' split
  all_goals simp [h]

@[simp] theorem State.enrolled_mem (s : State) (ch : Fin 5) (c : Chan) : (s.enrolled ch c).mem = s.mem := by
  unfold State.enrolled
  dsimp only
  repeat' split
  all_goals simp

@[simp] theorem State.transferred_mem (s : State) (ch : Fin 5) (c : Chan) : (s.transferred ch c).mem = s.mem := by
  unfold State.transferred
  dsimp only
  repeat' split
  all_goals simp

@[simp] theorem State.ledgerRead_wf {s : State} (ch : Fin 5) (c : Chan) (h : s.mem.wf = true) : (s.ledgerRead ch c).mem.wf = true := by
  unfold State.ledgerRead
  repeat' split
  all_goals simp [h]

theorem execCoreResetComplete_wf {s : State} (h : s.mem.wf = true) : outWf (execCoreResetComplete s) := by
  unfold execCoreResetComplete
  repeat' split
  all_goals simp [h]

theorem execRefclkStopInDormant_mem (lostUs : Nat) (s : State) : outMem s (execRefclkStopInDormant lostUs s) := by
  unfold execRefclkStopInDormant
  repeat' split
  all_goals simp

theorem execRailOutOfTolerance_wf (_rail : Nat) {s : State} (h : s.mem.wf = true) : outWf (execRailOutOfTolerance _rail s) := by
  simp [execRailOutOfTolerance, h]

theorem execHostLinkTrained_mem (n : PortId) (speed : BitVec 4) (width : BitVec 5) (flit : Bool) (s : State) :
    outMem s (execHostLinkTrained n speed width flit s) := by
  unfold execHostLinkTrained
  repeat' split
  all_goals simp

@[simp] theorem State.quarantine_wf {s : State} (cause : Nat) (h : s.mem.wf = true) : (s.quarantine cause).mem.wf = true := by
  unfold State.quarantine
  have ht : (s.undefine.setMode .quarantine).mem.wf = true := State.setMode_wf _ ((congrArg Memory.wf (State.undefine_mem s)).trans h)
  generalize s.undefine.setMode .quarantine = t at ht ⊢
  extract_lets _ _ u v
  have hv : v.mem.wf = true := (congrArg Memory.wf (State.ringAdd_mem u 24 1)).trans ht
  split
  · rw [State.note_mem]
    exact hv
  · exact hv

theorem State.restoreFound_mem (s : State) (f : Option FlushArea) (ramKept : Bool) :
    (match f with
      | some f => s.restoreFlush f ramKept
      | none => s).mem = s.mem := by
  cases f with
  | none => rfl
  | some f => exact State.restoreFlush_mem s f ramKept

@[simp] theorem State.restoreCold_mem (s : State) (off : Bool) : (s.restoreCold off).mem = s.mem := by
  unfold State.restoreCold
  extract_lets f d e t u v w
  have ht : t.mem = s.mem := ite_mem (State.drawBool_mem s) ((State.draw_mem d.2).trans (State.drawBool_mem s))
  clear_value t
  have hu : u.mem = t.mem := State.modRing_mem ..
  clear_value u
  have hv : v.mem = u.mem := State.openGap_mem ..
  clear_value v
  have hw : w.mem = v.mem := State.restoreFound_mem v f _
  clear_value w
  exact (State.note_mem ..).trans (hw.trans (hv.trans (hu.trans ht)))

theorem State.replayRepair_cases_wf {s : State} (b : BoughId) (bank : Fin 32) (row : Nat) (j : Option (Fin 8)) (h : s.mem.wf = true) :
    (match j with
      | some j => s.modScr b fun x => x.takeSpare bank row j
      | none => (s.giveRowUp b bank.val row).applyDead b).mem.wf = true := by
  cases j with
  | some j => exact h
  | none => exact State.applyDead_wf _ ((congrArg Memory.wf (State.giveRowUp_mem ..)).trans h)

@[simp] theorem State.replayRepair_wf {s : State} (d : Word) (h : s.mem.wf = true) : (s.replayRepair d).mem.wf = true :=
  State.replayRepair_cases_wf _ _ _ _ h

@[simp] theorem State.replayRepairs_wf {s : State} (h : s.mem.wf = true) : s.replayRepairs.mem.wf = true :=
  foldl_mem_wf (fun _ hs d => State.replayRepair_wf d hs) _ h

@[simp] theorem State.restoreLedger_wf {s : State} (h : s.mem.wf = true) : s.restoreLedger.mem.wf = true := by
  unfold State.restoreLedger
  extract_lets t u
  have ht : t.mem = s.mem := (State.askSigs_mem _).trans (State.modSys_mem ..)
  clear_value t
  have hu : u.mem = t.mem := by
    unfold u
    split
    · exact (State.restoreCold_mem _ _).trans (State.modSys_mem ..)
    · exact State.modRing_mem ..
  clear_value u
  rw [State.saveHeader_mem, State.lateNotes_mem]
  exact State.replayRepairs_wf ((congrArg Memory.wf (hu.trans ht)).trans h)

@[simp] theorem State.stackFails_mem (s : State) : s.stackFails.mem = s.mem := by
  unfold State.stackFails
  rw [State.modStack_mem, State.draw_mem, State.trainStacks_mem]

theorem execWakeStepTimeout_wf {s : State} (h : s.mem.wf = true) : outWf (execWakeStepTimeout s) := by
  unfold execWakeStepTimeout
  split
  · exact State.serveAll_wf (State.quarantine_wf 7 h)
  · exact h

@[simp] theorem State.bootRom_wf {s : State} (h : s.mem.wf = true) : s.bootRom.mem.wf = true := by
  unfold State.bootRom
  extract_lets t
  have ht : t.mem.wf = true := h
  clear_value t
  split
  · exact State.startCrown_wf _ ht
  · exact State.quarantine_wf 1 ht

@[simp] theorem State.passStep_wf {s : State} (h : s.mem.wf = true) : s.passStep.mem.wf = true := by
  unfold State.passStep
  split
  · exact h
  · exact State.bootRom_wf h
  · exact State.selfTest_wf h
  · exact State.restoreLedger_wf h
  · exact State.leaveBoot_wf ((congrArg Memory.wf (State.bringUpHosts_mem s)).trans h)

@[simp] theorem State.failStep_mem (s : State) (cause : Nat) : (s.failStep cause).mem = s.mem := by
  unfold State.failStep
  split
  · rfl
  · rfl
  · exact State.stackFails_mem s
  · rfl

theorem execBootStepPass_wf (cause : BitVec 8) (us : Nat) {s : State} (h : s.mem.wf = true) : outWf (execBootStepPass cause us s) := by
  unfold execBootStepPass
  extract_lets n t
  have ht : t.mem.wf = true := h
  clear_value t
  repeat' split
  · exact State.quarantine_wf 8 ht
  · exact State.passStep_wf ht
  · exact State.quarantine_wf _ ((congrArg Memory.wf (State.failStep_mem t cause.toNat)).trans ht)
  · exact h
  · exact h

theorem execBootStepTimeout_wf {s : State} (h : s.mem.wf = true) : outWf (execBootStepTimeout s) := by
  unfold execBootStepTimeout
  split
  · exact State.quarantine_wf 8 h
  · exact h

theorem State.mbox_wf {s : State} (ch : Fin 5) (op : Nat) (accept : Mode → Bool) {f : Chan → State} (h : s.mem.wf = true)
    (hf : ∀ c, (f c).mem.wf = true) : outWf (s.mbox ch op accept f) := by
  unfold State.mbox
  repeat' split
  · exact hf _
  · exact h
  · exact h

theorem execGetInfo_wf (ch : Fin 5) {s : State} (h : s.mem.wf = true) : outWf (execGetInfo ch s) := State.mbox_wf _ _ _ h fun _ => h

theorem execReset_wf (ch : Fin 5) {s : State} (h : s.mem.wf = true) : outWf (execReset ch s) := by
  refine State.mbox_wf _ _ _ h fun c => ?_
  extract_lets t
  have ht : t.mem.wf = true := h
  clear_value t
  split
  · exact State.beginDrain_wf _ ht
  · exact State.deviceReset_wf _ _ _ ht

theorem execEnterService_wf (ch : Fin 5) {s : State} (h : s.mem.wf = true) : outWf (execEnterService ch s) := by
  refine State.mbox_wf _ _ _ h fun _ => ?_
  extract_lets t
  have ht : t.mem.wf = true := h
  clear_value t
  split
  · exact State.beginDrain_wf _ ht
  · exact State.toServiceMode_wf ht

@[simp] theorem State.flashWrite_mem (s : State) (ws : List Word) : (s.flashWrite ws).2.2.mem = s.mem := by
  unfold State.flashWrite
  dsimp only
  split <;> rfl

theorem State.fwWritten_mem (s : State) (ch : Fin 5) (c : Chan) : (s.fwWritten ch c).mem = s.mem := by
  unfold State.fwWritten
  extract_lets k r n t
  have ht : t.mem = s.mem := State.flashWrite_mem ..
  clear_value t
  repeat' split
  all_goals exact ht

theorem execFwWrite_wf (ch : Fin 5) {s : State} (h : s.mem.wf = true) : outWf (execFwWrite ch s) := by
  refine State.mbox_wf _ _ _ h fun c => ?_
  split
  · exact (congrArg Memory.wf (State.fwWritten_mem s ch c)).trans h
  · exact h

theorem State.slotWritten_mem (s : State) (ch : Fin 5) (c : Chan) : (s.slotWritten ch c).mem = s.mem := by
  unfold State.slotWritten
  extract_lets r t
  have ht : t.mem = s.mem := State.flashWrite_mem ..
  clear_value t
  split
  all_goals exact ht

theorem execSlotWrite_wf (ch : Fin 5) {s : State} (h : s.mem.wf = true) : outWf (execSlotWrite ch s) := by
  refine State.mbox_wf _ _ _ h fun c => ?_
  repeat' split
  · exact h
  · exact h
  · exact (congrArg Memory.wf (State.slotWritten_mem s ch c)).trans h

theorem execActivate_wf (ch : Fin 5) {s : State} (h : s.mem.wf = true) : outWf (execActivate ch s) :=
  State.mbox_wf _ _ _ h fun c => State.activated_wf ch c h

theorem execEnrollOwner_wf (ch : Fin 5) {s : State} (h : s.mem.wf = true) : outWf (execEnrollOwner ch s) :=
  State.mbox_wf _ _ _ h fun c => (congrArg Memory.wf (State.enrolled_mem s ch c)).trans h

theorem execTransferOwner_wf (ch : Fin 5) {s : State} (h : s.mem.wf = true) : outWf (execTransferOwner ch s) :=
  State.mbox_wf _ _ _ h fun c => (congrArg Memory.wf (State.transferred_mem s ch c)).trans h

theorem execCalSync_wf (ch : Fin 5) {s : State} (h : s.mem.wf = true) : outWf (execCalSync ch s) :=
  State.mbox_wf _ _ _ h fun c => (congrArg Memory.wf (State.calSync_mem s c.args[0])).trans h

theorem execLedgerRead_wf (ch : Fin 5) {s : State} (h : s.mem.wf = true) : outWf (execLedgerRead ch s) :=
  State.mbox_wf _ _ _ h fun c => State.ledgerRead_wf ch c h

theorem execLedgerFree_wf (ch : Fin 5) {s : State} (h : s.mem.wf = true) : outWf (execLedgerFree ch s) := State.mbox_wf _ _ _ h fun _ => h

theorem execUnknownOp_wf (ch : Fin 5) {s : State} (h : s.mem.wf = true) : outWf (execUnknownOp ch s) := by
  unfold execUnknownOp
  extract_lets op
  split
  · exact h
  · exact State.mbox_wf _ _ _ h fun _ => h

/-- Whatever command runs, memory in canonical form stays so: the arms of `exec`, one by one. -/
theorem exec_wf (i : Instr) {s u : State} (h : s.mem.wf = true) (hu : exec i s = .next u) : u.mem.wf = true := by
  cases i
  case nop t gu => exact mem_wf_of_outWf (execNop_wf t gu h) hu
  case isync t gu => exact mem_wf_of_outWf (execIsync_wf t gu h) hu
  case ret t gu => exact mem_wf_of_outWf (execRet_wf t gu h) hu
  case resume t gu => exact mem_wf_of_outWf (execResume_wf t gu h) hu
  case wfi t gu => exact mem_wf_of_outWf (execWfi_wf t gu h) hu
  case halt t gu => exact mem_wf_of_outWf (execHalt_wf t gu h) hu
  case neg t gu gd => exact mem_wf_of_outWf (execNeg_wf t gu gd h) hu
  case not t gu gd => exact mem_wf_of_outWf (execNot_wf t gu gd h) hu
  case abs t gu gd => exact mem_wf_of_outWf (execAbs_wf t gu gd h) hu
  case jmpr t gu gs => exact mem_wf_of_outWf (execJmpr_wf t gu gs h) hu
  case callr t gu gs => exact mem_wf_of_outWf (execCallr_wf t gu gs h) hu
  case sdadv t gu n => exact mem_wf_of_outWf (execSdadv_wf t gu n h) hu
  case pnot t gu pd ps => exact mem_wf_of_outWf (execPnot_wf t gu pd ps h) hu
  case pmov t gu pd ps => exact mem_wf_of_outWf (execPmov_wf t gu pd ps h) hu
  case mov t gu gd gs => exact mem_wf_of_outWf (execMov_wf t gu gd gs h) hu
  case add t gu gd gs => exact mem_wf_of_outWf (execAdd_wf t gu gd gs h) hu
  case sub t gu gd gs => exact mem_wf_of_outWf (execSub_wf t gu gd gs h) hu
  case movi t gu gd imm => exact mem_wf_of_outWf (execMovi_wf t gu gd imm h) hu
  case addi t gu gd imm => exact mem_wf_of_outWf (execAddi_wf t gu gd imm h) hu
  case pfx t payload => exact mem_wf_of_outWf (execPfx_wf t payload h) hu
  case and t gu gd gs z gt => exact mem_wf_of_outWf (execAnd_wf t gu gd gs z gt h) hu
  case or t gu gd gs z gt => exact mem_wf_of_outWf (execOr_wf t gu gd gs z gt h) hu
  case xor t gu gd gs z gt => exact mem_wf_of_outWf (execXor_wf t gu gd gs z gt h) hu
  case andn t gu gd gs z gt => exact mem_wf_of_outWf (execAndn_wf t gu gd gs z gt h) hu
  case add3 t gu gd gs z gt => exact mem_wf_of_outWf (execAdd3_wf t gu gd gs z gt h) hu
  case sub3 t gu gd gs z gt => exact mem_wf_of_outWf (execSub3_wf t gu gd gs z gt h) hu
  case shl t gu gd gs z gt => exact mem_wf_of_outWf (execShl_wf t gu gd gs z gt h) hu
  case shr t gu gd gs z gt => exact mem_wf_of_outWf (execShr_wf t gu gd gs z gt h) hu
  case sra t gu gd gs z gt => exact mem_wf_of_outWf (execSra_wf t gu gd gs z gt h) hu
  case rot t gu gd gs z gt => exact mem_wf_of_outWf (execRot_wf t gu gd gs z gt h) hu
  case shli t gu gd gs z amt => exact mem_wf_of_outWf (execShli_wf t gu gd gs z amt h) hu
  case shri t gu gd gs z amt => exact mem_wf_of_outWf (execShri_wf t gu gd gs z amt h) hu
  case srai t gu gd gs z amt => exact mem_wf_of_outWf (execSrai_wf t gu gd gs z amt h) hu
  case roti t gu gd gs z amt => exact mem_wf_of_outWf (execRoti_wf t gu gd gs z amt h) hu
  case andi t gu gd gs imm => exact mem_wf_of_outWf (execAndi_wf t gu gd gs imm h) hu
  case ori t gu gd gs imm => exact mem_wf_of_outWf (execOri_wf t gu gd gs imm h) hu
  case xori t gu gd gs imm => exact mem_wf_of_outWf (execXori_wf t gu gd gs imm h) hu
  case popc t gu gd gs z => exact mem_wf_of_outWf (execPopc_wf t gu gd gs z h) hu
  case clz t gu gd gs z => exact mem_wf_of_outWf (execClz_wf t gu gd gs z h) hu
  case mfc t gu gd zh z n => exact mem_wf_of_outWf (execMfc_wf t gu gd zh z n h) hu
  case mtc t gu zh gs z n => exact mem_wf_of_outWf (execMtc_wf t gu zh gs z n h) hu
  case pmr t gu gd gs z => exact mem_wf_of_outWf (execPmr_wf t gu gd gs z h) hu
  case pmw t gu zh gs z gt => exact mem_wf_of_outWf (execPmw_wf t gu zh gs z gt h) hu
  case qopen t gu gd gs z gt => exact mem_wf_of_outWf (execQopen_wf t gu gd gs z gt h) hu
  case qput t gu gd gs z gt => exact mem_wf_of_outWf (execQput_wf t gu gd gs z gt h) hu
  case qclose t gu gd gs z gt => exact mem_wf_of_outWf (execQclose_wf t gu gd gs z gt h) hu
  case qtake t gu gd gs z gt => exact mem_wf_of_outWf (execQtake_wf t gu gd gs z gt h) hu
  case qget t gu gd gs z gt => exact mem_wf_of_outWf (execQget_wf t gu gd gs z gt h) hu
  case qdone t gu gd gs z gt => exact mem_wf_of_outWf (execQdone_wf t gu gd gs z gt h) hu
  case qstat t gu gd gs z gt => exact mem_wf_of_outWf (execQstat_wf t gu gd gs z gt h) hu
  case cmp t gu gs gt cc pd md im imm => exact mem_wf_of_outWf (execCmp_wf t gu gs gt cc pd md im imm h) hu
  case ld t gu gd gb => exact mem_wf_of_outWf (execLd_wf t gu gd gb h) hu
  case st t gu gs gb => exact mem_wf_of_outWf (execSt_wf t gu gs gb h) hu
  case ld8u t gu gd gb off => exact mem_wf_of_outWf (execLd8u_wf t gu gd gb off h) hu
  case ld8s t gu gd gb off => exact mem_wf_of_outWf (execLd8s_wf t gu gd gb off h) hu
  case ld16u t gu gd gb off => exact mem_wf_of_outWf (execLd16u_wf t gu gd gb off h) hu
  case ld16s t gu gd gb off => exact mem_wf_of_outWf (execLd16s_wf t gu gd gb off h) hu
  case ld32u t gu gd gb off => exact mem_wf_of_outWf (execLd32u_wf t gu gd gb off h) hu
  case ld32s t gu gd gb off => exact mem_wf_of_outWf (execLd32s_wf t gu gd gb off h) hu
  case ld64 t gu gd gb off => exact mem_wf_of_outWf (execLd64_wf t gu gd gb off h) hu
  case st8 t gu gs gb off => exact mem_wf_of_outWf (execSt8_wf t gu gs gb off h) hu
  case st16 t gu gs gb off => exact mem_wf_of_outWf (execSt16_wf t gu gs gb off h) hu
  case st32 t gu gs gb off => exact mem_wf_of_outWf (execSt32_wf t gu gs gb off h) hu
  case st64 t gu gs gb off => exact mem_wf_of_outWf (execSt64_wf t gu gs gb off h) hu
  case sdld t gu n gb off => exact mem_wf_of_outWf (execSdld_wf t gu n gb off h) hu
  case sdst t gu n gb off => exact mem_wf_of_outWf (execSdst_wf t gu n gb off h) hu
  case sdbase t gu n gb off => exact mem_wf_of_outWf (execSdbase_wf t gu n gb off h) hu
  case br t gu off => exact mem_wf_of_outWf (execBr_wf t gu off h) hu
  case call t gu off => exact mem_wf_of_outWf (execCall_wf t gu off h) hu
  case loop t gu z n gc fin => exact mem_wf_of_outWf (execLoop_wf t gu z n gc fin h) hu
  case loopi t gu z n count fin => exact mem_wf_of_outWf (execLoopi_wf t gu z n count fin h) hu
  case rep t gu z gc => exact mem_wf_of_outWf (execRep_wf t gu z gc h) hu
  case repi t gu z count => exact mem_wf_of_outWf (execRepi_wf t gu z count h) hu
  case twigLoadReturn t => exact mem_wf_of_outWf (execTwigLoadReturn_wf t h) hu
  case storePerformed t => exact mem_wf_of_outWf (execStorePerformed_wf t h) hu
  case twigWaitRelease t => exact mem_wf_of_outWf (execTwigWaitRelease_wf t h) hu
  case issueStallRelease t => exact mem_wf_of_outWf (execIssueStallRelease_wf t h) hu
  case qopenCreditsReady t => exact mem_wf_of_outWf (execQopenCreditsReady_wf t h) hu
  case qtakePacketReady t => exact mem_wf_of_outWf (execQtakePacketReady_wf t h) hu
  case vadd t gu f => exact mem_wf_of_outWf (execVadd_wf t gu f h) hu
  case vsub t gu f => exact mem_wf_of_outWf (execVsub_wf t gu f h) hu
  case vmin t gu f => exact mem_wf_of_outWf (execVmin_wf t gu f h) hu
  case vmax t gu f => exact mem_wf_of_outWf (execVmax_wf t gu f h) hu
  case vabs t gu f => exact mem_wf_of_outWf (execVabs_wf t gu f h) hu
  case vneg t gu f => exact mem_wf_of_outWf (execVneg_wf t gu f h) hu
  case vcmpEq t gu f => exact mem_wf_of_outWf (execVcmpEq_wf t gu f h) hu
  case vcmpNe t gu f => exact mem_wf_of_outWf (execVcmpNe_wf t gu f h) hu
  case vcmpLt t gu f => exact mem_wf_of_outWf (execVcmpLt_wf t gu f h) hu
  case vcmpLe t gu f => exact mem_wf_of_outWf (execVcmpLe_wf t gu f h) hu
  case vcmpGt t gu f => exact mem_wf_of_outWf (execVcmpGt_wf t gu f h) hu
  case vcmpGe t gu f => exact mem_wf_of_outWf (execVcmpGe_wf t gu f h) hu
  case vcmpUn t gu f => exact mem_wf_of_outWf (execVcmpUn_wf t gu f h) hu
  case vmul t gu f => exact mem_wf_of_outWf (execVmul_wf t gu f h) hu
  case vfma t gu f => exact mem_wf_of_outWf (execVfma_wf t gu f h) hu
  case vfms t gu f => exact mem_wf_of_outWf (execVfms_wf t gu f h) hu
  case vdot4 t gu f => exact mem_wf_of_outWf (execVdot4_wf t gu f h) hu
  case vcvt t gu src f => exact mem_wf_of_outWf (execVcvt_wf t gu src f h) hu
  case vand t gu f => exact mem_wf_of_outWf (execVand_wf t gu f h) hu
  case vor t gu f => exact mem_wf_of_outWf (execVor_wf t gu f h) hu
  case vxor t gu f => exact mem_wf_of_outWf (execVxor_wf t gu f h) hu
  case vnot t gu f => exact mem_wf_of_outWf (execVnot_wf t gu f h) hu
  case vshl t gu f => exact mem_wf_of_outWf (execVshl_wf t gu f h) hu
  case vshr t gu f => exact mem_wf_of_outWf (execVshr_wf t gu f h) hu
  case vsra t gu f => exact mem_wf_of_outWf (execVsra_wf t gu f h) hu
  case vrot t gu f => exact mem_wf_of_outWf (execVrot_wf t gu f h) hu
  case vpopc t gu f => exact mem_wf_of_outWf (execVpopc_wf t gu f h) hu
  case vclz t gu f => exact mem_wf_of_outWf (execVclz_wf t gu f h) hu
  case vsel t gu f => exact mem_wf_of_outWf (execVsel_wf t gu f h) hu
  case vcopy t gu f => exact mem_wf_of_outWf (execVcopy_wf t gu f h) hu
  case vfill t gu f => exact mem_wf_of_outWf (execVfill_wf t gu f h) hu
  case vgatherf t gu f => exact mem_wf_of_outWf (execVgatherf_wf t gu f h) hu
  case vdiv t gu f => exact mem_wf_of_outWf (execVdiv_wf t gu f h) hu
  case vrem t gu f => exact mem_wf_of_outWf (execVrem_wf t gu f h) hu
  case vsqrt t gu f => exact mem_wf_of_outWf (execVsqrt_wf t gu f h) hu
  case vsum t gu f => exact mem_wf_of_outWf (execVsum_wf t gu f h) hu
  case vminr t gu f => exact mem_wf_of_outWf (execVminr_wf t gu f h) hu
  case vmaxr t gu f => exact mem_wf_of_outWf (execVmaxr_wf t gu f h) hu
  case vscan t gu f => exact mem_wf_of_outWf (execVscan_wf t gu f h) hu
  case vsegsum t gu f => exact mem_wf_of_outWf (execVsegsum_wf t gu f h) hu
  case vcompress t gu f => exact mem_wf_of_outWf (execVcompress_wf t gu f h) hu
  case vexpand t gu f => exact mem_wf_of_outWf (execVexpand_wf t gu f h) hu
  case vmerge t gu f => exact mem_wf_of_outWf (execVmerge_wf t gu f h) hu
  case vhashCrc t gu f => exact mem_wf_of_outWf (execVhashCrc_wf t gu f h) hu
  case vhashMix t gu f => exact mem_wf_of_outWf (execVhashMix_wf t gu f h) hu
  case vbucket t gu f => exact mem_wf_of_outWf (execVbucket_wf t gu f h) hu
  case chain t gu n => exact mem_wf_of_outWf (execChain_wf t gu n h) hu
  case fence t gu => exact mem_wf_of_outWf (execFence_wf t gu h) hu
  case vwait t gu => exact mem_wf_of_outWf (execVwait_wf t gu h) hu
  case setvl t gu z gd gs ty => exact mem_wf_of_outWf (execSetvl_wf t gu z gd gs ty h) hu
  case vectorDispatch b => exact mem_wf_of_outMem (execVectorDispatch_mem b s) h hu
  case streamRequest b h' slot => exact mem_wf_of_outMem (execStreamRequest_mem b h' slot s) h hu
  case ownershipLookupReturn b => exact mem_wf_of_outMem (execOwnershipLookupReturn_mem b s) h hu
  case readResponseArrival b tag => exact mem_wf_of_outMem (execReadResponseArrival_mem b tag s) h hu
  case commitPoint b h' => exact mem_wf_of_outMem (execCommitPoint_mem b h' s) h hu
  case vectorFaultTaken b h' => exact mem_wf_of_outMem (execVectorFaultTaken_mem b h' s) h hu
  case armRequestAccept n => exact mem_wf_of_outMem (execArmRequestAccept_mem n s) h hu
  case filterInstall tgt => exact mem_wf_of_outWf (execFilterInstall_wf tgt h) hu
  case commitInstant b => exact mem_wf_of_outWf (execCommitInstant_wf b h) hu
  case filterHitDemand tgt n => exact mem_wf_of_outMem (execFilterHitDemand_mem tgt n s) h hu
  case demandAnswer tgt n => exact mem_wf_of_outMem (execDemandAnswer_mem tgt n s) h hu
  case drainWriteAccept b h' => exact mem_wf_of_outMem (execDrainWriteAccept_mem b h' s) h hu
  case entryRelease tgt n => exact mem_wf_of_outMem (execEntryRelease_mem tgt n s) h hu
  case chainTransferSend l => exact mem_wf_of_outMem (execChainTransferSend_mem l s) h hu
  case chainTransferArrive l ep off ws => exact mem_wf_of_outMem (execChainTransferArrive_mem l ep off ws s) h hu
  case chainEnd l ep len => exact mem_wf_of_outMem (execChainEnd_mem l ep len s) h hu
  case chainCommit l ep => exact mem_wf_of_outMem (execChainCommit_mem l ep s) h hu
  case chainAbort l ep => exact mem_wf_of_outMem (execChainAbort_mem l ep s) h hu
  case chainTaken l ep => exact mem_wf_of_outMem (execChainTaken_mem l ep s) h hu
  case chainReplay l ep => exact mem_wf_of_outMem (execChainReplay_mem l ep s) h hu
  case chainCreditReturn l n => exact mem_wf_of_outMem (execChainCreditReturn_mem l n s) h hu
  case linkBreak l code => exact mem_wf_of_outMem (execLinkBreak_mem l code s) h hu
  case rearm g bits => exact mem_wf_of_outMem (execRearm_mem g bits s) h hu
  case trapEntry t => exact mem_wf_of_outWf (execTrapEntry_wf t h) hu
  case timerLatch => exact mem_wf_of_outMem (execTimerLatch_mem s) h hu
  case boughReset b => exact mem_wf_of_outMem (execBoughReset_mem b s) h hu
  case boughResetComplete b => exact mem_wf_of_outMem (execBoughResetComplete_mem b s) h hu
  case freeze b on => exact mem_wf_of_outMem (execFreeze_mem b on s) h hu
  case portClean m => exact mem_wf_of_outWf (execPortClean_wf m h) hu
  case programStoreFill t line => exact mem_wf_of_outMem (execProgramStoreFill_mem t line s) h hu
  case sliceAcceptRequest k => exact mem_wf_of_outMem (execSliceAcceptRequest_mem k s) h hu
  case targetAccessComplete k e => exact mem_wf_of_outWf (execTargetAccessComplete_wf k e h) hu
  case writeBurstStage b => exact mem_wf_of_outWf (execWriteBurstStage_wf b h) hu
  case perBankRefresh k p bank waited => exact mem_wf_of_outMem (execPerBankRefresh_mem k p bank waited s) h hu
  case patrolScrub k granule => exact mem_wf_of_outWf (execPatrolScrub_wf k granule h) hu
  case stackTempRead k0 temp => exact mem_wf_of_outMem (execStackTempRead_mem k0 temp s) h hu
  case linearMapSwitch => exact mem_wf_of_outWf (execLinearMapSwitch_wf h) hu
  case injectArm k0 kind word => exact mem_wf_of_outMem (execInjectArm_mem k0 kind word s) h hu
  case hostWriteTlp n p => exact mem_wf_of_outWf (execHostWriteTlp_wf n p h) hu
  case staged id k => exact mem_wf_of_outMem (execStaged_mem id k s) h hu
  case commit id k => exact mem_wf_of_outWf (execCommit_wf id k h) hu
  case discard id k => exact mem_wf_of_outWf (execDiscard_wf id k h) hu
  case committed id k => exact mem_wf_of_outWf (execCommitted_wf id k h) hu
  case hostScratchpadWrite id => exact mem_wf_of_outWf (execHostScratchpadWrite_wf id h) hu
  case hostReadRequest n tag fn bar2 off len => exact mem_wf_of_outMem (execHostReadRequest_mem n tag fn bar2 off len s) h hu
  case hostReadCompletion n tag => exact mem_wf_of_outWf (execHostReadCompletion_wf n tag h) hu
  case registerWrite who off wide v => exact mem_wf_of_outWf (execRegisterWrite_wf who off wide v h) hu
  case sweepRegionStart b => exact mem_wf_of_outWf (execSweepRegionStart_wf b h) hu
  case sweepRestore b failed => exact mem_wf_of_outWf (execSweepRestore_wf b failed h) hu
  case flush q => exact mem_wf_of_outMem (execFlush_mem q s) h hu
  case queueFlush q => exact mem_wf_of_outMem (execQueueFlush_mem q s) h hu
  case qwOpen fn q v => exact mem_wf_of_outMem (execQwOpen_mem fn q v s) h hu
  case qwClose fn q v => exact mem_wf_of_outMem (execQwClose_mem fn q v s) h hu
  case qwTake fn q v => exact mem_wf_of_outMem (execQwTake_mem fn q v s) h hu
  case qwDone fn q v => exact mem_wf_of_outMem (execQwDone_mem fn q v s) h hu
  case qwDataWrite fn q k v => exact mem_wf_of_outMem (execQwDataWrite_mem fn q k v s) h hu
  case qwDataRead fn q k => exact mem_wf_of_outMem (execQwDataRead_mem fn q k s) h hu
  case msixUnmask fn entry => exact mem_wf_of_outMem (execMsixUnmask_mem fn entry s) h hu
  case plotReset p => exact mem_wf_of_outMem (execPlotReset_mem p s) h hu
  case plotResetComplete p => exact mem_wf_of_outWf (execPlotResetComplete_wf p h) hu
  case park p on => exact mem_wf_of_outMem (execPark_mem p on s) h hu
  case parkHold p => exact mem_wf_of_outMem (execParkHold_mem p s) h hu
  case preempt p => exact mem_wf_of_outMem (execPreempt_mem p s) h hu
  case preemptGraceExpiry p => exact mem_wf_of_outMem (execPreemptGraceExpiry_mem p s) h hu
  case plotBoughReset p b => exact mem_wf_of_outMem (execPlotBoughReset_mem p b s) h hu
  case capEvaluation => exact mem_wf_of_outMem (execCapEvaluation_mem s) h hu
  case crownMessageSend b => exact mem_wf_of_outMem (execCrownMessageSend_mem b s) h hu
  case grainStaged => exact mem_wf_of_outWf (execGrainStaged_wf h) hu
  case activationDrain => exact mem_wf_of_outWf (execActivationDrain_wf h) hu
  case activationWrite => exact mem_wf_of_outWf (execActivationWrite_wf h) hu
  case switchTick => exact mem_wf_of_outMem (execSwitchTick_mem s) h hu
  case plotStart => exact mem_wf_of_outWf (execPlotStart_wf h) hu
  case regrain => exact mem_wf_of_outWf (execRegrain_wf h) hu
  case regrainSwitchTick => exact mem_wf_of_outWf (execRegrainSwitchTick_wf h) hu
  case ringTick energyNJ => exact mem_wf_of_outMem (execRingTick_mem energyNJ s) h hu
  case minuteBoundary => exact mem_wf_of_outMem (execMinuteBoundary_mem s) h hu
  case hourlySeal => exact mem_wf_of_outMem (execHourlySeal_mem s) h hu
  case energyApportion => exact mem_wf_of_outMem (execEnergyApportion_mem s) h hu
  case ringCalSync v => exact mem_wf_of_outMem (execRingCalSync_mem v s) h hu
  case ledgerItemPost =>
    rw [execLedgerItemPost_mem (s := s) (t := u) hu]
    exact h
  case journalSlotCommit => exact mem_wf_of_outMem (execJournalSlotCommit_mem s) h hu
  case thermalCycleSample => exact mem_wf_of_outMem (execThermalCycleSample_mem s) h hu
  case pwrFailAssert => exact mem_wf_of_outWf (execPwrFailAssert_wf h) hu
  case pwrFailDeassert => exact mem_wf_of_outMem (execPwrFailDeassert_mem s) h hu
  case signatureComplete => exact mem_wf_of_outMem (execSignatureComplete_mem s) h hu
  case getVersion tr => exact mem_wf_of_outMem (execGetVersion_mem tr s) h hu
  case getCapabilities tr => exact mem_wf_of_outMem (execGetCapabilities_mem tr s) h hu
  case negotiateAlgorithms tr offer => exact mem_wf_of_outMem (execNegotiateAlgorithms_mem tr offer s) h hu
  case getDigests tr => exact mem_wf_of_outMem (execGetDigests_mem tr s) h hu
  case getCertificate tr slot off len => exact mem_wf_of_outMem (execGetCertificate_mem tr slot off len s) h hu
  case challenge tr slot nonce => exact mem_wf_of_outMem (execChallenge_mem tr slot nonce s) h hu
  case getMeasurements tr slot index sig nonce => exact mem_wf_of_outMem (execGetMeasurements_mem tr slot index sig nonce s) h hu
  case keyExchange tr slot heartbeat => exact mem_wf_of_outMem (execKeyExchange_mem tr slot heartbeat s) h hu
  case finish tr sid => exact mem_wf_of_outMem (execFinish_mem tr sid s) h hu
  case heartbeat tr sid => exact mem_wf_of_outMem (execHeartbeat_mem tr sid s) h hu
  case keyUpdate tr sid => exact mem_wf_of_outMem (execKeyUpdate_mem tr sid s) h hu
  case endSession tr sid => exact mem_wf_of_outMem (execEndSession_mem tr sid s) h hu
  case respondIfReady tr => exact mem_wf_of_outMem (execRespondIfReady_mem tr s) h hu
  case spdmUnsupportedRequest tr code => exact mem_wf_of_outMem (execSpdmUnsupportedRequest_mem tr code s) h hu
  case sessionHeartbeatTimeout sid => exact mem_wf_of_outMem (execSessionHeartbeatTimeout_mem sid s) h hu
  case keyProg tr sid n kset sub key => exact mem_wf_of_outMem (execKeyProg_mem tr sid n kset sub key s) h hu
  case kSetGo tr sid n kset sub => exact mem_wf_of_outMem (execKSetGo_mem tr sid n kset sub s) h hu
  case kSetStop tr sid n kset sub => exact mem_wf_of_outMem (execKSetStop_mem tr sid n kset sub s) h hu
  case query tr sid n => exact mem_wf_of_outMem (execQuery_mem tr sid n s) h hu
  case perstAssert n hot => exact mem_wf_of_outMem (execPerstAssert_mem n hot s) h hu
  case perstDeassert n => exact mem_wf_of_outMem (execPerstDeassert_mem n s) h hu
  case hostLinkDown n => exact mem_wf_of_outMem (execHostLinkDown_mem n s) h hu
  case hostLinkRetrain n speed width flit => exact mem_wf_of_outMem (execHostLinkRetrain_mem n speed width flit s) h hu
  case vfFlr v => exact mem_wf_of_outMem (execVfFlr_mem v s) h hu
  case pfFlr n => exact mem_wf_of_outMem (execPfFlr_mem n s) h hu
  case configRequest n fn op => exact mem_wf_of_outMem (execConfigRequest_mem n fn op s) h hu
  case graftBeaconTx n => exact mem_wf_of_outMem (execGraftBeaconTx_mem n s) h hu
  case graftBeaconRx n => exact mem_wf_of_outWf (execGraftBeaconRx_wf n h) hu
  case graftTrainLock n => exact mem_wf_of_outMem (execGraftTrainLock_mem n s) h hu
  case graftTrainTimeout n => exact mem_wf_of_outMem (execGraftTrainTimeout_mem n s) h hu
  case graftHelloTx n => exact mem_wf_of_outMem (execGraftHelloTx_mem n s) h hu
  case hello n protocol peerPort rank serial image bootId => exact mem_wf_of_outMem (execHello_mem n protocol peerPort rank serial image bootId s) h hu
  case graftHelloTimeout n => exact mem_wf_of_outMem (execGraftHelloTimeout_mem n s) h hu
  case auth n part off bytes => exact mem_wf_of_outMem (execAuth_mem n part off bytes s) h hu
  case graftAuthTimeout n => exact mem_wf_of_outMem (execGraftAuthTimeout_mem n s) h hu
  case admitList n last es => exact mem_wf_of_outMem (execAdmit_mem n last es s) h hu
  case graftRefusedTimeout n => exact mem_wf_of_outMem (execGraftRefusedTimeout_mem n s) h hu
  case leave n => exact mem_wf_of_outMem (execLeave_mem n s) h hu
  case queueData n tag pseq off ws => exact mem_wf_of_outMem (execQueueData_mem n tag pseq off ws s) h hu
  case closed n tag pseq => exact mem_wf_of_outMem (execClosed_mem n tag pseq s) h hu
  case queueAbort n tag pseq => exact mem_wf_of_outMem (execQueueAbort_mem n tag pseq s) h hu
  case credit n tag isQueue words => exact mem_wf_of_outMem (execCredit_mem n tag isQueue words s) h hu
  case graftBadFlit n => exact mem_wf_of_outMem (execGraftBadFlit_mem n s) h hu
  case graftNak n ack => exact mem_wf_of_outMem (execGraftNak_mem n ack s) h hu
  case graftIdle n ack => exact mem_wf_of_outMem (execGraftIdle_mem n ack s) h hu
  case graftLaneLockLoss n lane => exact mem_wf_of_outMem (execGraftLaneLockLoss_mem n lane s) h hu
  case graftAckTimeout n => exact mem_wf_of_outMem (execGraftAckTimeout_mem n s) h hu
  case graftKeepaliveMiss n => exact mem_wf_of_outMem (execGraftKeepaliveMiss_mem n s) h hu
  case hold n on => exact mem_wf_of_outMem (execHold_mem n on s) h hu
  case pwrPlReq level => exact mem_wf_of_outMem (execPwrPlReq_mem level s) h hu
  case voltageSettled mv => exact mem_wf_of_outMem (execVoltageSettled_mem mv s) h hu
  case voltageTimeout => exact mem_wf_of_outMem (execVoltageTimeout_mem s) h hu
  case frameEdgeSwitch => exact mem_wf_of_outMem (execFrameEdgeSwitch_mem s) h hu
  case droop => exact mem_wf_of_outMem (execDroop_mem s) h hu
  case hwThrottle => exact mem_wf_of_outMem (execHwThrottle_mem s) h hu
  case hwThrottleRelease => exact mem_wf_of_outMem (execHwThrottleRelease_mem s) h hu
  case thermalTrip => exact mem_wf_of_outWf (execThermalTrip_wf h) hu
  case sensorSample temps => exact mem_wf_of_outMem (execSensorSample_mem temps s) h hu
  case levelEvaluation => exact mem_wf_of_outMem (execLevelEvaluation_mem s) h hu
  case refclkLoss => exact mem_wf_of_outWf (execRefclkLoss_wf h) hu
  case refclkRestore => exact mem_wf_of_outWf (execRefclkRestore_wf h) hu
  case pwrAlarm v => exact mem_wf_of_outMem (execPwrAlarm_mem v s) h hu
  case alarmReached => exact mem_wf_of_outMem (execAlarmReached_mem s) h hu
  case dormantEnter => exact mem_wf_of_outWf (execDormantEnter_wf h) hu
  case dormantStepComplete => exact mem_wf_of_outWf (execDormantStepComplete_wf h) hu
  case wakeSource code => exact mem_wf_of_outWf (execWakeSource_wf code h) hu
  case wakeStepDelayEnd ready => exact mem_wf_of_outWf (execWakeStepDelayEnd_wf ready h) hu
  case wakeStepReady us => exact mem_wf_of_outWf (execWakeStepReady_wf us h) hu
  case wakeStepTimeout => exact mem_wf_of_outWf (execWakeStepTimeout_wf h) hu
  case powerOn => exact mem_wf_of_outWf (execPowerOn_wf h) hu
  case resetNAssert => exact mem_wf_of_outWf (execResetNAssert_wf h) hu
  case resetNDeassert => exact mem_wf_of_outWf (execResetNDeassert_wf h) hu
  case bootStepPass cause us => exact mem_wf_of_outWf (execBootStepPass_wf cause us h) hu
  case bootStepTimeout => exact mem_wf_of_outWf (execBootStepTimeout_wf h) hu
  case modeDrainComplete => exact mem_wf_of_outWf (execModeDrainComplete_wf h) hu
  case kick => exact mem_wf_of_outMem (execKick_mem s) h hu
  case watchdogExpiry => exact mem_wf_of_outWf (execWatchdogExpiry_wf h) hu
  case restart k => exact mem_wf_of_outMem (execRestart_mem k s) h hu
  case getInfo ch => exact mem_wf_of_outWf (execGetInfo_wf ch h) hu
  case reset ch => exact mem_wf_of_outWf (execReset_wf ch h) hu
  case enterService ch => exact mem_wf_of_outWf (execEnterService_wf ch h) hu
  case fwWrite ch => exact mem_wf_of_outWf (execFwWrite_wf ch h) hu
  case slotWrite ch => exact mem_wf_of_outWf (execSlotWrite_wf ch h) hu
  case activate ch => exact mem_wf_of_outWf (execActivate_wf ch h) hu
  case enrollOwner ch => exact mem_wf_of_outWf (execEnrollOwner_wf ch h) hu
  case transferOwner ch => exact mem_wf_of_outWf (execTransferOwner_wf ch h) hu
  case calSync ch => exact mem_wf_of_outWf (execCalSync_wf ch h) hu
  case ledgerRead ch => exact mem_wf_of_outWf (execLedgerRead_wf ch h) hu
  case ledgerFree ch => exact mem_wf_of_outWf (execLedgerFree_wf ch h) hu
  case unknownOp ch => exact mem_wf_of_outWf (execUnknownOp_wf ch h) hu
  case coreResetComplete => exact mem_wf_of_outWf (execCoreResetComplete_wf h) hu
  case refclkStopInDormant lostUs => exact mem_wf_of_outMem (execRefclkStopInDormant_mem lostUs s) h hu
  case railOutOfTolerance rail => exact mem_wf_of_outWf (execRailOutOfTolerance_wf rail h) hu
  case hostLinkTrained n speed width flit => exact mem_wf_of_outMem (execHostLinkTrained_mem n speed width flit s) h hu

/-- A step runs the command at the front, or a twig in its turn; memory in canonical form stays so. -/
theorem step_wf {s u : State} (h : s.mem.wf = true) (hu : step s = .next u) : u.mem.wf = true := by
  unfold step at hu
  split at hu
  next => exact mem_wf_of_outWf (State.fetchTurn_wf h) hu
  next c cs _ => exact exec_wf c (s := { s with pending := cs }) h hu
end Sys2Proof.Machine
open Sys2Proof Sys2Proof.Machine Sys2Proof.Safety

/-- Settles O60: every state operation keeps the memory's canonical form, so every instruction does, and with them every step. -/
theorem memoryStaysCanonical : Obligations.MemoryStaysCanonical := by
  unfold Obligations.MemoryStaysCanonical
  intro s s' h hs
  exact step_wf h hs
end

section
/-! SUPPORT. What a plot reset leaves of a bough whose reset has begun, and what the restart of a plot does; and the settling of O36. -/
namespace Sys2Proof.Machine
open Sys2Proof.Safety

/-! ### A bough at rest (R41, R383) -/

/-- Nothing is queued or saved in a bough, none of its halves fills, and under a reset it absorbs. -/
structure Bough.Rests (reset : Bool) (y : Bough) : Prop where
  iq : y.iq = []
  saved : y.saved = none
  absorbing : reset = true → y.absorbing = true
  halves : ∀ h : Fin 2, y.halves[h].st ≠ .filling

/-- From s to t bough b stays at rest if it was. -/
structure KeepsRest (b : BoughId) (s t : State) : Prop where
  rests : ∀ {reset : Bool}, (s.bough b).Rests reset → (t.bough b).Rests reset

namespace KeepsRest

variable {b : BoughId} {s t u : State}

theorem refl (s : State) : KeepsRest b s s := ⟨id⟩

theorem trans (h : KeepsRest b s t) (k : KeepsRest b t u) : KeepsRest b s u := ⟨fun hb => k.rests (h.rests hb)⟩

theorem foldl {α : Type} {f : State → α → State} (h : ∀ s a, KeepsRest b s (f s a)) (l : List α) (s : State) : KeepsRest b s (l.foldl f s) :=
  foldl_rel refl (fun _ _ _ => trans) h l s

theorem of_bough (h : t.bough b = s.bough b) : KeepsRest b s t := ⟨fun hb => h ▸ hb⟩

theorem of_boughs (h : t.boughs = s.boughs) : KeepsRest b s t := of_bough (congrArg (fun v : Vector Bough 256 => v[b]) h)

end KeepsRest

/-- Halves whose state stays. -/
theorem KeepsRest.modHalves {b c : BoughId} {s : State} {f : Bough → Bough}
    (h : ∀ y : Bough, (f y).iq = y.iq ∧ (f y).saved = y.saved ∧ (f y).absorbing = y.absorbing ∧ ∀ k : Fin 2, y.halves[k].st ≠ .filling → (f y).halves[k].st ≠ .filling) :
    KeepsRest b s (s.modBough c f) := by
  by_cases hc : b = c
  · subst hc
    refine ⟨fun ⟨hiq, hsaved, habs, hst⟩ => ?_⟩
    obtain ⟨fiq, fsaved, fabs, fst⟩ := h (s.bough b)
    rw [State.bough_modBough]
    exact ⟨fiq.trans hiq, fsaved.trans hsaved, fun hreset => fabs.trans (habs hreset), fun k => fst k (hst k)⟩
  · exact .of_bough (s.bough_modBough_ne _ hc)

theorem State.discardHalf_rest {b : BoughId} (s : State) (c : BoughId) (h : Fin 2) : KeepsRest b s (s.discardHalf c h) := by
  unfold State.discardHalf
  by_cases hst : (s.half c h).st = .filling
  · obtain ⟨links, grafts, plots, haborts⟩ := abortSends_eq (s.half c h).sends s
    simp only [hst, beq_self_eq_true, if_true, haborts]
    by_cases hc : b = c
    · subst hc
      exact ⟨fun hb => absurd hst (hb.halves h)⟩
    · exact .of_bough (State.bough_modBough_ne { s with links := links, grafts := grafts, plots := plots } _ hc)
  · have : s.discardHalf c h = s := by simp [State.discardHalf, hst]
    simp only [beq_eq_false_iff_ne.mpr hst]
    exact .refl s

theorem State.leaveBuffer_boughs (s : State) (i k : Nat) : (s.leaveBuffer i k).boughs = s.boughs := by
  unfold State.leaveBuffer
  split
  · rfl
  · split_ifs
    · rfl
    · obtain ⟨links, grafts, hcredit⟩ := s.giveCredit_eq i k
      rw [hcredit]

theorem State.sinkLinks_rest {b : BoughId} (s : State) (is : List Nat) : KeepsRest b s (s.sinkLinks is) := by
  refine .foldl (fun s i => .of_boughs ?_) is s
  unfold State.sinkDrop
  split
  · rfl
  · split_ifs
    · exact State.leaveBuffer_boughs ..
    · rfl

/-- A vector fault discards runs of its own bough, which fills. -/
theorem State.takeVFault_rest {b : BoughId} (s : State) (c : BoughId) (h : Fin 2) (cause : Cause) (elem : Nat) (addr : Word)
    (hst : (s.half c h).st = .filling) : KeepsRest b s (s.takeVFault c h cause elem addr) := by
  by_cases hc : b = c
  · subst hc
    exact ⟨fun hb => absurd hst (hb.halves h)⟩
  · have hone : ∀ (s : State) (ord : Nat) (k : Fin 2),
        KeepsRest b s (if (s.half c k).st == .filling && decide (ord ≤ (s.half c k).ord) then s.discardHalf c k else s) := by
      intro s ord k
      split_ifs
      · exact s.discardHalf_rest c k
      · exact .refl s
    have hdiscard : ∀ ord, KeepsRest b s (s.discardFrom c ord) := fun ord => (hone s ord 0).trans (hone _ ord 1)
    unfold State.takeVFault
    exact ((hdiscard _).trans (State.sinkLinks_rest ..)).trans (.of_bough (State.bough_modBough_ne _ _ hc))

theorem Half.st_ne_of_vset {hs : Vector Half 2} {h k : Fin 2} {x : Half} (hx : hs[h].st ≠ .filling → x.st ≠ .filling) (hk : hs[k].st ≠ .filling) :
    (vset hs h x)[k].st ≠ .filling := by
  rw [vset_get]
  split_ifs with he
  · subst he
    exact hx hk
  · exact hk

theorem State.breakHalf_rest {b : BoughId} (s : State) (i : Nat) (l : Link) (code : BitVec 4) (c : BoughId) (h : Fin 2) :
    KeepsRest b s (s.breakHalf i l code c h) := by
  have hsignal : ∀ (elem : Nat) (addr : Word), (s.half c h).st = .filling → KeepsRest b s (s.signalBreak c h elem addr) := by
    intro elem addr hst
    unfold State.signalBreak
    split_ifs
    · exact s.takeVFault_rest c h _ _ _ hst
    · by_cases hc : b = c
      · subst hc
        exact ⟨fun hb => absurd hst (hb.halves h)⟩
      · exact .of_bough (s.bough_modHalf_ne h _ hc)
  unfold State.breakHalf
  dsimp only
  split_ifs with hst
  · have hst : (s.half c h).st = .filling := by simp at hst; exact hst.1
    split
    · exact hsignal _ _ hst
    · split_ifs
      · exact .refl s
      · exact hsignal _ _ hst
    · exact .refl s
  · exact .refl s

theorem State.breakBough_rest {b : BoughId} (s : State) (i : Nat) (l : Link) (code : BitVec 4) (c : BoughId) : KeepsRest b s (s.breakBough i l code c) := by
  unfold State.breakBough
  split_ifs
  · exact (s.breakHalf_rest i l code c 0).trans (State.breakHalf_rest ..)
  · exact (s.breakHalf_rest i l code c 1).trans (State.breakHalf_rest ..)

theorem State.modRecvs_rest {b : BoughId} (s : State) (i : Nat) (f : RecvSt → RecvSt) : KeepsRest b s (s.modRecvs i f) := by
  unfold State.modRecvs
  split
  · exact .refl s
  · split_ifs
    · exact .refl s
    · refine .modHalves fun y => ⟨rfl, rfl, rfl, fun k hk => ?_⟩
      refine Half.st_ne_of_vset ?_ (Half.st_ne_of_vset ?_ hk) <;>
      · intro hx
        dsimp only
        split_ifs <;> exact hx

theorem State.keepWhole_rest {b : BoughId} (s : State) (i : Nat) : KeepsRest b s (s.keepWhole i) := by
  unfold State.keepWhole
  split
  · exact .refl s
  · refine (KeepsRest.foldl (fun s e => ?_) _ s).trans (State.modRecvs_rest ..)
    split
    · dsimp only
      split_ifs
      · exact (s.modRecvs_rest i _).trans (.of_boughs rfl)
      · exact .refl s
    · exact .refl s

theorem State.recordBreak_rest {b : BoughId} (s : State) (i : Nat) (code : BitVec 4) : KeepsRest b s (s.recordBreak i code) := by
  refine .of_boughs ?_
  unfold State.recordBreak
  dsimp only
  split
  · rfl
  · split
    · rfl
    · split_ifs <;> rfl

theorem State.custody_rest {b : BoughId} (s : State) (c : BoughId) (i : Nat) (p : SendSt → Bool) : KeepsRest b s (s.custody c i p) := by
  by_cases hc : b = c
  · subst hc
    have hlasts : ((s.custody b i p).bough b).iq = (s.bough b).iq ∧ ((s.custody b i p).bough b).saved = (s.bough b).saved ∧
        ((s.custody b i p).bough b).absorbing = (s.bough b).absorbing := by
      rw [State.bough, s.boughs_custody b i p]
      change (State.bough _ b).iq = _ ∧ (State.bough _ b).saved = _ ∧ (State.bough _ b).absorbing = _
      rw [State.bough_modHalf, State.bough_modHalf]
      exact ⟨rfl, rfl, rfl⟩
    obtain ⟨hiq, hsaved, habs⟩ := hlasts
    exact ⟨fun hb => ⟨hiq.trans hb.iq, hsaved.trans hb.saved, fun hreset => habs.trans (hb.absorbing hreset), fun h => State.custody_not_filling (hb.halves h) b i p⟩⟩
  · exact .of_bough (s.bough_custody_ne i p hc)

theorem State.breakLink_rest {b : BoughId} (s : State) (i : Nat) (code : BitVec 4) : KeepsRest b s (s.breakLink i code) := by
  unfold State.breakLink
  split
  · exact .refl s
  next l _ =>
    split_ifs
    · exact s.recordBreak_rest i code
    all_goals
      have hrecorded : KeepsRest b s (((s.keepWhole i).recordBreak i code).modLink i fun l =>
          { l with eps := [], relay := [], wire := [], back := [], tx := [], owed := 0, sink := false }) :=
        ((s.keepWhole_rest i).trans (State.recordBreak_rest ..)).trans (.of_boughs rfl)
    · exact hrecorded
    · exact hrecorded.trans (State.breakBough_rest ..)
    · exact (hrecorded.trans (State.breakBough_rest ..)).trans (State.custody_rest ..)
    · exact ((hrecorded.trans (State.breakBough_rest ..)).trans (State.custody_rest ..)).trans (State.breakBough_rest ..)

theorem State.breakLinks_rest {b : BoughId} (s : State) (p : Link → Bool) (code : BitVec 4) : KeepsRest b s (s.breakLinks p code) := by
  refine .foldl (fun s i => ?_) _ s
  split
  · split_ifs
    · exact s.breakLink_rest i code
    · exact .refl s
  · exact .refl s

theorem Bough.rests_beginsReset {y : Bough} (reset : Bool) (h : ∀ k : Fin 2, y.halves[k].st ≠ .filling) : y.beginsReset.Rests reset :=
  ⟨rfl, rfl, fun _ => rfl, h⟩

theorem State.discardBoth_breaks (s : State) (b : BoughId) : Breaks s (s.discardBoth b) :=
  (s.discardHalf_breaks b 0).trans (State.discardHalf_breaks _ b 1)

theorem State.discardBoth_rest {b : BoughId} (s : State) (c : BoughId) : KeepsRest b s (s.discardBoth c) :=
  (s.discardHalf_rest c 0).trans (State.discardHalf_rest _ c 1)

/-- A bough whose reset begins comes to rest. -/
theorem State.rests_beginBoughReset (s : State) (b : BoughId) (reset : Bool) : ((s.beginBoughReset b).bough b).Rests reset := by
  rw [State.beginBoughReset_eq, State.bough_modBough]
  exact Bough.rests_beginsReset reset (State.half_discardBoth_not_filling (s.breakOwnLinks b) b)

theorem State.beginBoughReset_rest {b : BoughId} (s : State) (c : BoughId) : KeepsRest b s (s.beginBoughReset c) := by
  by_cases hc : b = c
  · subst hc
    exact ⟨fun _ => s.rests_beginBoughReset b _⟩
  · rw [State.beginBoughReset_eq]
    have hbroken : KeepsRest b s (s.breakOwnLinks c) := (s.breakLinks_rest _ 1).trans (State.breakLinks_rest _ _ 2)
    exact (hbroken.trans (State.discardBoth_rest _ c)).trans (.of_bough (State.bough_modBough_ne _ _ hc))

theorem Breaks.resetting {s t : State} (h : Breaks s t) (b : BoughId) : (t.bough b).resetting = (s.bough b).resetting :=
  (congrArg (fun x => x.2.2.2) (h.bough b) :)

/-- The reset of another bough starts no reset here. -/
theorem State.resetting_beginBoughReset_ne (s : State) {b c : BoughId} (hc : b ≠ c) : ((s.beginBoughReset c).bough b).resetting = (s.bough b).resetting := by
  have hdiscarded := (s.breakOwnLinks_breaks c).trans (State.discardBoth_breaks _ c)
  rw [State.beginBoughReset_eq, State.bough_modBough_ne _ _ hc]
  exact hdiscarded.resetting b

/-- A bough of the map comes to rest, unless its reset had begun before. -/
theorem State.rests_resetMap (s : State) {m : PlotMap} {b : BoughId} (hb : m.boughs.getLsbD b.val = true) (hfresh : (s.bough b).resetting = false) :
    ((s.resetMap m).bough b).Rests true := by
  have hmem : b ∈ m.boughList := (m.mem_boughList b).mpr hb
  unfold State.resetMap
  have hfold : ∀ (bs : List BoughId) (t : State), (t.bough b).resetting = false ∧ b ∈ bs ∨ (t.bough b).Rests true →
      ((bs.foldl (fun (s : State) c => if (s.bough c).resetting then s else s.beginBoughReset c) t).bough b).Rests true := by
    intro bs
    induction bs with
    | nil =>
      rintro t (⟨-, hnil⟩ | hrests)
      · exact absurd hnil List.not_mem_nil
      · exact hrests
    | cons c bs ih =>
      rintro t (⟨hoff, hin⟩ | hrests)
      · by_cases hc : b = c
        · subst hc
          refine ih _ (.inr ?_)
          dsimp only
          rw [hoff]
          exact t.rests_beginBoughReset b true
        · refine ih _ (.inl ⟨?_, (List.mem_cons.mp hin).resolve_left hc⟩)
          dsimp only
          split_ifs
          · exact hoff
          · rw [t.resetting_beginBoughReset_ne hc]
            exact hoff
      · refine ih _ (.inr ?_)
        dsimp only
        split_ifs
        · exact hrests
        · exact (t.beginBoughReset_rest c).rests hrests
  exact hfold _ s (.inl ⟨hfresh, hmem⟩)

/-! ### PLOT_RESET (R383) -/

/-- A plot at the start of its reset. -/
def Plot.begunReset (x : Plot) : Plot :=
  { x with st := .resetting, resetBusy := true, resetWaits := false, preempt := false, graceOn := false, cnt := { x.cnt with resets := x.cnt.resets + 1 } }

theorem exec_plotReset_of_free {s : State} {p : PlotId} {m : PlotMap} (hm : s.plotMap p.val = some m) (hbusy : s.plots[p].resetBusy = false)
    (hst : s.plots[p].st ≠ .regraining) : exec (.plotReset p) s = .next (((s.modPlot p Plot.begunReset).recFlag p 12).quietMap m) := by
  rw [show exec (.plotReset p) s = execPlotReset p s from rfl, execPlotReset, State.beginPlotReset, hm]
  dsimp only
  rw [hbusy, if_neg Bool.false_ne_true, if_neg hst]
  rfl

theorem State.cnp_beginBoughReset (s : State) (b : BoughId) : (s.beginBoughReset b).cnp = s.cnp := by
  have hbroken := (s.breakOwnLinks_breaks b).trans (State.discardBoth_breaks _ b)
  rw [State.beginBoughReset_eq]
  exact (congrArg State.cnp hbroken.frame :)

theorem State.cnp_resetMap (s : State) (m : PlotMap) : (s.resetMap m).cnp = s.cnp := by
  refine foldl_rel (R := fun s t : State => t.cnp = s.cnp) (fun _ => rfl) (fun _ _ _ h k => k.trans h) (fun s b => ?_) _ s
  split_ifs
  · rfl
  · exact s.cnp_beginBoughReset b

theorem State.foldl_requestFlush_eq (qs : List QueueId) (s : State) :
    ∃ queues, qs.foldl (fun (s : State) q => s.requestFlush q) s = { s with queues := queues } := by
  induction qs generalizing s with
  | nil => exact ⟨s.queues, rfl⟩
  | cons q qs ih =>
    obtain ⟨queues, h⟩ := ih (s.requestFlush q)
    exact ⟨queues, h⟩

theorem finOf?_val {n : Nat} (v : Fin n) : finOf? n v.val = some v := dif_pos v.isLt

/-- From s to t, transactions of the host, its ports and what tells of them have changed alone. -/
structure DropsWork (s t : State) : Prop where
  frame : { t with txns := s.txns, filters := s.filters, seqQ := s.seqQ, ports := s.ports, cnp := s.cnp, outbox := s.outbox, crownEvts := s.crownEvts } = s

namespace DropsWork

theorem refl (s : State) : DropsWork s s := ⟨rfl⟩

theorem trans {s t u : State} (h : DropsWork s t) (k : DropsWork t u) : DropsWork s u := by
  have hback := congrArg (fun x : State => { x with txns := s.txns, filters := s.filters, seqQ := s.seqQ, ports := s.ports, cnp := s.cnp, outbox := s.outbox, crownEvts := s.crownEvts }) k.frame
  exact ⟨(hback :).trans h.frame⟩

theorem foldl {α : Type} {f : State → α → State} (h : ∀ s a, DropsWork s (f s a)) (l : List α) (s : State) : DropsWork s (l.foldl f s) :=
  foldl_rel refl (fun _ _ _ => trans) h l s

end DropsWork

theorem State.hostEvent_drops (s : State) (n : PortId) (bit : Nat) : DropsWork s (s.hostEvent n bit) := by
  unfold State.hostEvent State.notice
  dsimp only
  split_ifs <;> exact ⟨rfl⟩

theorem State.aer_drops (s : State) (n : PortId) : DropsWork s (s.aer n) :=
  DropsWork.trans (t := s.emit (.aer n true)) ⟨rfl⟩ (State.hostEvent_drops ..)

theorem State.discardWrites_drops (s : State) (p : WTxn → Bool) : DropsWork s (s.discardWrites p) := by
  have hlogged : ∀ (s : State) (t : WTxn), DropsWork s (s.discardLogged t) := by
    intro s t
    unfold State.discardLogged
    split
    · exact (State.aer_drops ..).trans (State.hostEvent_drops ..)
    · exact .refl s
  have hdrop : ∀ (s : State) (id : Nat), DropsWork s (s.dropTxn id) := fun _ _ => ⟨rfl⟩
  have hmark : ∀ (s : State) (id : Nat) (f : WTxn → WTxn), DropsWork s (s.modTxn id f) := fun _ _ _ => ⟨rfl⟩
  refine .foldl (fun s t => ?_) _ s
  split_ifs
  · exact .refl s
  · exact (hdrop ..).trans (hlogged ..)
  · exact (hmark ..).trans (hlogged ..)

theorem State.absorbFn_drops (s : State) (fn : HostFn) : DropsWork s (s.absorbFn fn) := by
  have hport : ∀ (s : State) (n : PortId) (f : HostPort → HostPort), DropsWork s (s.modPort n f) := fun _ _ _ => ⟨rfl⟩
  have hcnp : ∀ (s : State) cnp, DropsWork s { s with cnp := cnp } := fun _ _ => ⟨rfl⟩
  cases fn <;> exact ((s.discardWrites_drops _).trans (hport ..)).trans (hcnp ..)

/-- The share of the plot's function absorbs from the start of the reset (R305). -/
theorem State.vfAbsorb_quietMap (s : State) {m : PlotMap} {v : VfId} (hv : m.vf = some v.val) : (s.quietMap m).cnp.vfAbsorb.getLsbD v.val = true := by
  unfold State.quietMap
  extract_lets t u
  obtain ⟨queues, hflush⟩ := State.foldl_requestFlush_eq (u.plotQueues m) u
  have ht : t = s.absorbFn (.vf v) := by
    unfold t
    rw [hv, Option.bind_some, finOf?_val]
  have hu : u.cnp = t.cnp := t.cnp_resetMap m
  rw [hflush]
  show u.cnp.vfAbsorb.getLsbD v.val = true
  rw [hu, ht]
  exact getLsbD_withBit_self _ v.isLt

/-- A bough of the plot whose reset begins with the plot's comes to rest. -/
theorem State.rests_quietMap (s : State) {m : PlotMap} {b : BoughId} (hb : m.boughs.getLsbD b.val = true) (hfresh : (s.bough b).resetting = false) :
    ((s.quietMap m).bough b).Rests true := by
  unfold State.quietMap
  extract_lets t u
  have ht : t.boughs = s.boughs := by
    unfold t
    split
    next v _ => exact (congrArg State.boughs (s.absorbFn_drops (.vf v)).frame :)
    · rfl
  have hu : (u.bough b).Rests true := t.rests_resetMap hb (by rw [State.bough, ht]; exact hfresh)
  obtain ⟨queues, hflush⟩ := State.foldl_requestFlush_eq (u.plotQueues m) u
  rw [hflush]
  exact hu

/-! ### The restart of a plot (R383) -/

/-- A bough of a plot that starts again. -/
def Bough.restarted (park : Bool) (y : Bough) : Bough := { y with freeze := park, twig := { y.twig with run := if park then .held else .running } }

/-- A plot that starts again. -/
def Plot.restarted (park : Bool) (tick : Word) (x : Plot) : Plot :=
  { x with duty := 64, st := if park then .parked else .running, resetBusy := false, parkedAt := if park then tick else x.parkedAt }

theorem State.foldl_rearmAfterReset_eq (bs : List BoughId) (s : State) :
    ∃ links grafts, bs.foldl (fun (s : State) b => s.rearmAfterReset b) s = { s with links := links, grafts := grafts } := by
  induction bs generalizing s with
  | nil => exact ⟨s.links, s.grafts, rfl⟩
  | cons b bs ih =>
    obtain ⟨links, grafts, hb⟩ := s.rearmAfterReset_eq b
    obtain ⟨links', grafts', hbs⟩ := ih (s.rearmAfterReset b)
    exact ⟨links', grafts', by rw [List.foldl_cons, hbs, hb]⟩

/-- A restart makes the scratchpads of the plot 0, rearms links and lets its boughs and the plot go on. -/
theorem State.restartPlot_eq (s : State) (p : PlotId) (m : PlotMap) : ∃ mem scr links grafts,
    s.restartPlot p m = (({ s with mem := mem, scr := scr, links := links, grafts := grafts } : State).changeBoughs m (Bough.restarted s.plots[p].park)).modPlot p
      (Plot.restarted s.plots[p].park s.ring.tick) ∧
      ∀ x, mem.read x = if ∃ b ∈ m.boughList, zoneOf x = scratchZone b.val then 0 else s.mem.read x := by
  obtain ⟨mem, scr, hzero, hread⟩ := State.foldl_zeroScratch_eq m.boughList s
  obtain ⟨links, grafts, hlinks⟩ := State.foldl_rearmAfterReset_eq m.boughList (m.boughList.foldl (fun (s : State) b => s.zeroScratch b) s)
  refine ⟨mem, scr, links, grafts, ?_, hread⟩
  unfold State.restartPlot
  generalize s.plots[p].park = park
  dsimp only
  rw [hlinks, hzero]
  show (let t := m.boughList.foldl (fun (s : State) b => s.modBough b (Bough.restarted park)) _
    t.modPlot p (Plot.restarted park t.ring.tick)) = _
  rw [State.foldl_boughList_eq]
  rfl

/-- PLOT_RESET_COMPLETE restarts a plot that is clean. -/
theorem exec_plotResetComplete_of_clean {s : State} {p : PlotId} {m : PlotMap} (hm : s.plotMap p.val = some m) (hbusy : s.plots[p].resetBusy = true)
    (hclean : s.plotClean m = true) : exec (.plotResetComplete p) s = .next (((s.restartPlot p m).endFlr m).postHeldEvents p) := by
  rw [show exec (.plotResetComplete p) s = execPlotResetComplete p s from rfl, execPlotResetComplete, hm]
  dsimp only
  rw [hbusy, hclean]
  rfl

theorem State.endFlr_eq (s : State) (m : PlotMap) : ∃ vfs, s.endFlr m = { s with vfs := vfs } := by
  unfold State.endFlr
  split
  · exact ⟨_, rfl⟩
  · exact ⟨s.vfs, rfl⟩

theorem scratchZone_inj {b c : BoughId} (h : scratchZone b.val = scratchZone c.val) : b = c := by
  unfold scratchZone at h
  exact Fin.ext (by omega)

end Sys2Proof.Machine
open Sys2Proof Sys2Proof.Machine Sys2Proof.Safety

/-- Settles O36: a reset quiets the plot's map, its completion is a restart, and a bough of another plot is out of reach of either. -/
theorem plotReset : Obligations.PlotReset := by
  unfold Obligations.PlotReset
  intro s p m hm
  refine ⟨fun hbusy hst => ?begins, fun hst hbusy => ?waits, fun hbusy hclean hheld => ?completes, fun hclean => ?unclean, fun b hb hfresh => ?bough,
    fun b hb => ?other⟩
  case begins =>
    obtain ⟨⟨hmem, hgrn, hplots, -, -⟩, hresetting, hflushing⟩ := (((s.modPlot p Plot.begunReset).recFlag p 12).quietMap_spec m)
    have hplot : (((s.modPlot p Plot.begunReset).recFlag p 12).quietMap m).plots[p] = ((s.modPlot p Plot.begunReset).recFlag p 12).plots[p] := by
      rw [hplots]
    have hself : ((s.modPlot p Plot.begunReset).recFlag p 12).plots[p] =
        { s.plots[p].begunReset with cnt := { s.plots[p].begunReset.cnt with flags := withBit s.plots[p].begunReset.cnt.flags 12 } } := by
      rw [State.recFlag, State.plot_modPlot_self, State.plot_modPlot_self]
    rw [hself] at hplot
    refine ⟨_, exec_plotReset_of_free hm hbusy hst, ?_⟩
    simp only [hplot]
    refine ⟨rfl, rfl, rfl, rfl, rfl, rfl, rfl, rfl, hresetting, fun b hb hfresh => ?_, hflushing, fun v hv => State.vfAbsorb_quietMap _ hv, hmem⟩
    have hrests := State.rests_quietMap ((s.modPlot p Plot.begunReset).recFlag p 12) hb hfresh
    exact ⟨hrests.iq, hrests.saved, hrests.absorbing rfl⟩
  case waits =>
    refine ⟨s.modPlot p fun x => { x with resetWaits := true }, ?_, State.plot_modPlot_self .., fun r hr => State.plot_modPlot_ne _ _ hr, rfl⟩
    rw [show exec (.plotReset p) s = execPlotReset p s from rfl, execPlotReset, State.beginPlotReset, hm]
    dsimp only
    rw [hbusy, if_neg Bool.false_ne_true, if_pos hst]
  case completes =>
    obtain ⟨mem, scr, links, grafts, hrestart, hread⟩ := s.restartPlot_eq p m
    obtain ⟨vfs, hflr⟩ := (s.restartPlot p m).endFlr_eq m
    have hplots : ((s.restartPlot p m).endFlr m).plots[p] = s.plots[p].restarted s.plots[p].park s.ring.tick := by
      rw [hflr, hrestart]
      exact State.plot_modPlot_self ..
    have hexec := exec_plotResetComplete_of_clean hm hbusy hclean
    rw [State.postHeldEvents_of_none (by rw [hplots]; exact hheld)] at hexec
    refine ⟨_, hexec, ?_⟩
    simp only [State.plot_modPlot_self, hplots]
    rw [hflr, hrestart]
    refine ⟨rfl, rfl, rfl, rfl, rfl, rfl, fun b hb => ?_, fun b hb => ?_, fun a ha => ?_, rfl⟩
    · have hbough := State.bough_changeBoughs { s with mem := mem, scr := scr, links := links, grafts := grafts } m (Bough.restarted s.plots[p].park) b
      rw [if_pos hb] at hbough
      refine ⟨(congrArg Bough.freeze hbough :), (congrArg (fun y => y.twig.run) hbough :), fun i hi => (hread _).trans (if_pos ?_)⟩
      exact ⟨b, (m.mem_boughList b).mpr hb, zoneOf_scratch b hi⟩
    · have hbough := State.bough_changeBoughs { s with mem := mem, scr := scr, links := links, grafts := grafts } m (Bough.restarted s.plots[p].park) b
      rw [hb, if_neg Bool.false_ne_true] at hbough
      refine ⟨hbough, fun i hi => (hread _).trans (if_neg ?_)⟩
      rintro ⟨c, hc, hzone⟩
      rw [zoneOf_scratch b hi] at hzone
      rw [m.mem_boughList, ← scratchZone_inj hzone, hb] at hc
      exact Bool.false_ne_true hc
    · refine (hread _).trans (if_neg ?_)
      rintro ⟨c, -, hzone⟩
      have hlow := zoneOf_lt_of_lt_rootSize ha
      unfold scratchZone at hzone
      omega
  case unclean =>
    refine ⟨s, ?_, rfl⟩
    rw [show exec (.plotResetComplete p) s = execPlotResetComplete p s from rfl, execPlotResetComplete, hm]
    dsimp only
    rw [hclean, Bool.and_false]
    rfl
  case bough =>
    have hquiet := s.beginBoughReset_quiesces b
    refine ⟨s.beginBoughReset b, ?_, s.resetting_beginBoughReset b, (s.rests_beginBoughReset b true).iq, hquiet.mem, by rw [hquiet.plots]⟩
    rw [show exec (.plotBoughReset p b) s = execPlotBoughReset p b s from rfl, execPlotBoughReset, State.plotBoughReset, hm]
    dsimp only
    rw [hb, hfresh]
    rfl
  case other =>
    refine ⟨s, ?_, rfl⟩
    rw [show exec (.plotBoughReset p b) s = execPlotBoughReset p b s from rfl, execPlotBoughReset, State.plotBoughReset, hm]
    dsimp only
    rw [hb]
    rfl
end

section
/-! SUPPORT. What a request for a performance level, the voltage monitor and a frame edge do (R491-R495); and the settling of O45. -/
namespace Sys2Proof.Machine
open Sys2Proof.Safety

theorem State.avs_eq (s : State) (mv : Nat) : s.avs mv = { s with pwr := { s.pwr with targetMv := mv }, outbox := s.outbox ++ [.avs mv] } := rfl

/-- The voltage of a level, as a chain of cases. -/
theorem lvlMv_eq (l : Fin 4) : lvlMv l.val = if l = 0 then 800 else if l = 1 then 720 else if l = 2 then 660 else 600 := by
  fin_cases l <;> rfl

/-! ### A request (R492-R495) -/

theorem State.wanted_of_free {s : State} (h : s.pwr.hwLive = false) (l : Fin 4) : s.wanted l = lvlOf (max l.val s.maxLevel) := by
  rw [State.wanted, h, if_neg Bool.false_ne_true]

section
variable {s : State} {l : Fin 4}

/-- What a request of the crown leaves in the sequencer before it acts on it. -/
def Pwr.requested (l : Fin 4) (p : Pwr) : Pwr := { p with req := l, droopHold := false }

theorem State.setReq_eq (s : State) (l : Fin 4) : s.setReq l true = (s.modPwr (Pwr.requested l)).changeLevel l := by
  simp only [State.setReq, Bool.not_true, Bool.and_false]
  rfl

theorem exec_pwrPlReq (s : State) (l : Fin 4) : exec (.pwrPlReq l) s = .next ((s.modPwr (Pwr.requested l)).changeLevel l) :=
  congrArg Host.Outcome.next (s.setReq_eq l)

theorem State.changeLevel_of_busy (hbusy : s.pwr.lvl ≠ .idle) : s.changeLevel l = s.modPwr fun p => { p with keptReq := some l } := by
  unfold State.changeLevel State.lvlBusy
  simp [hbusy]

section
variable (hidle : s.pwr.lvl = .idle) (hwaits : s.lvlWaits = false) (hdroop : s.pwr.droopHold = false)
include hidle hwaits hdroop

theorem State.changeLevel_of_faster (h : s.wanted l < s.pwr.level) :
    s.changeLevel l = (s.modPwr fun p => { p with lvl := .settling p.level (s.wanted l) }).avs (lvlMv (s.wanted l).val) := by
  have hlt : (s.wanted l).val < s.pwr.level.val := h
  simp only [State.changeLevel, State.lvlBusy, hidle, hwaits, hdroop, bne_self_eq_false, Bool.or_self, Bool.false_and, Bool.false_eq_true, if_false, hlt, if_true]

theorem State.changeLevel_of_slower (h : s.pwr.level < s.wanted l) :
    s.changeLevel l = s.modPwr fun p => { p with lvl := .edge1 p.level (s.wanted l) } := by
  have hlt : s.pwr.level.val < (s.wanted l).val := h
  have hnot : ¬ (s.wanted l).val < s.pwr.level.val := by omega
  simp only [State.changeLevel, State.lvlBusy, hidle, hwaits, hdroop, bne_self_eq_false, Bool.or_self, Bool.false_and, Bool.false_eq_true, if_false, hnot, hlt,
    if_true]

theorem State.changeLevel_of_level (h : s.wanted l = s.pwr.level) : s.changeLevel l = s := by
  simp only [State.changeLevel, State.lvlBusy, hidle, hwaits, hdroop, h, bne_self_eq_false, Bool.or_self, Bool.false_and, Bool.false_eq_true, if_false,
    lt_self_iff_false]

end
end

section
variable {s : State} {l : Fin 4} (hidle : s.pwr.lvl = .idle) (hwaits : s.lvlWaits = false) (hdroop : s.pwr.droopHold = false)

/-- Where no droop holds the level, the request is the one change before the sequencer acts on it. -/
theorem State.requested_of_free (hdroop : s.pwr.droopHold = false) (l : Fin 4) : s.modPwr (Pwr.requested l) = s.modPwr fun p => { p with req := l } :=
  congrArg (fun d => ({ s with pwr := { s.pwr with req := l, droopHold := d } } : State)) hdroop.symm

include hidle hwaits hdroop

theorem exec_pwrPlReq_of_faster (h : s.wanted l < s.pwr.level) : exec (.pwrPlReq l) s =
    .next ((s.modPwr fun p => { p with req := l, lvl := .settling p.level (s.wanted l) }).avs (lvlMv (s.wanted l).val)) := by
  rw [exec_pwrPlReq, State.requested_of_free hdroop, State.changeLevel_of_faster (s := s.modPwr fun p => { p with req := l }) hidle hwaits hdroop h]
  rfl

theorem exec_pwrPlReq_of_slower (h : s.pwr.level < s.wanted l) : exec (.pwrPlReq l) s =
    .next (s.modPwr fun p => { p with req := l, lvl := .edge1 p.level (s.wanted l) }) := by
  rw [exec_pwrPlReq, State.requested_of_free hdroop, State.changeLevel_of_slower (s := s.modPwr fun p => { p with req := l }) hidle hwaits hdroop h]
  rfl

theorem exec_pwrPlReq_of_level (h : s.wanted l = s.pwr.level) : exec (.pwrPlReq l) s = .next (s.modPwr fun p => { p with req := l }) := by
  rw [exec_pwrPlReq, State.requested_of_free hdroop, State.changeLevel_of_level (s := s.modPwr fun p => { p with req := l }) hidle hwaits hdroop h]

/-- A faster level waits for the voltage. -/
theorem runsTo_pwrPlReq_faster (h : s.wanted l < s.pwr.level) : RunsTo (.pwrPlReq l) s fun s' =>
    s'.pwr = { s.pwr with req := l, lvl := .settling s.pwr.level (s.wanted l), targetMv := lvlMv (s.wanted l).val } ∧
      s'.outbox = s.outbox ++ [.avs (lvlMv (s.wanted l).val)] ∧ { s' with pwr := s.pwr, outbox := s.outbox } = s :=
  ⟨_, (exec_pwrPlReq_of_faster hidle hwaits hdroop h).trans (congrArg Host.Outcome.next (State.avs_eq ..)), rfl, rfl, rfl⟩

/-- A slower level switches first. -/
theorem runsTo_pwrPlReq_slower (h : s.pwr.level < s.wanted l) : RunsTo (.pwrPlReq l) s fun s' =>
    s'.pwr = { s.pwr with req := l, lvl := .edge1 s.pwr.level (s.wanted l) } ∧ s'.outbox = s.outbox ∧ { s' with pwr := s.pwr, outbox := s.outbox } = s :=
  ⟨_, exec_pwrPlReq_of_slower hidle hwaits hdroop h, rfl, rfl, rfl⟩

theorem runsTo_pwrPlReq_level (h : s.wanted l = s.pwr.level) : RunsTo (.pwrPlReq l) s fun s' =>
    s'.pwr = { s.pwr with req := l } ∧ s'.outbox = s.outbox ∧ { s' with pwr := s.pwr, outbox := s.outbox } = s :=
  ⟨_, exec_pwrPlReq_of_level hidle hwaits hdroop h, rfl, rfl, rfl⟩

end

theorem State.carryKept_of_none {s : State} (h : s.pwr.keptReq = none) : s.carryKept = s := by
  rw [State.carryKept, h]

/-! ### Events, and flags of every plot (R494, R514) -/

theorem State.pwrEvent_eq (s : State) (bit : Nat) :
    ∃ evts, s.pwrEvent bit = { s with pwr := { s.pwr with event := withBit s.pwr.event bit }, crownEvts := evts } := by
  unfold State.pwrEvent State.notice
  dsimp only
  split_ifs
  · exact ⟨s.crownEvts, rfl⟩
  · exact ⟨_, rfl⟩

theorem State.carryKept_pwrEvent {s : State} (hkept : s.pwr.keptReq = none) (bit : Nat) :
    ∃ evts, (s.pwrEvent bit).carryKept = { s with pwr := { s.pwr with event := withBit s.pwr.event bit }, crownEvts := evts } := by
  obtain ⟨evts, hevent⟩ := s.pwrEvent_eq bit
  have hnone : (s.pwrEvent bit).pwr.keptReq = none := by rw [hevent]; exact hkept
  exact ⟨evts, (State.carryKept_of_none hnone).trans hevent⟩

theorem exec_voltageTimeout_of_settling {s : State} {o n : Fin 4} (hlvl : s.pwr.lvl = .settling o n) (hkept : s.pwr.keptReq = none) :
    ∃ evts, exec .voltageTimeout s = .next { s with
      pwr := { s.pwr with lvl := .idle, targetMv := lvlMv o.val, event := withBit s.pwr.event 3 }, outbox := s.outbox ++ [.avs (lvlMv o.val)], crownEvts := evts } := by
  obtain ⟨evts, hevent⟩ := State.carryKept_pwrEvent (s := (s.modPwr fun p => { p with lvl := .idle }).avs (lvlMv o.val)) hkept 3
  refine ⟨evts, ?_⟩
  rw [show exec .voltageTimeout s = execVoltageTimeout s from rfl, execVoltageTimeout, hlvl]
  rw [State.avs_eq] at hevent
  exact congrArg Host.Outcome.next hevent

/-- A flag for every plot reaches their counters alone. -/
theorem State.recFlagAll_eq (s : State) (bit : Nat) :
    ∃ plots, s.recFlagAll bit = { s with plots := plots } ∧ ∀ q : PlotId, { plots[q] with cnt := s.plots[q].cnt } = s.plots[q] := by
  have hfold : ∀ (ms : List PlotMap) (t : State), ∃ plots, ms.foldl (fun (s : State) m => s.recFlag (plotId m.plot) bit) t = { t with plots := plots } ∧
      ∀ q : PlotId, { plots[q] with cnt := t.plots[q].cnt } = t.plots[q] := by
    intro ms
    induction ms with
    | nil => exact fun t => ⟨t.plots, rfl, fun _ => rfl⟩
    | cons m ms ih =>
      intro t
      obtain ⟨plots, hms, hcnt⟩ := ih (t.recFlag (plotId m.plot) bit)
      refine ⟨plots, hms, fun q => ?_⟩
      have hq := hcnt q
      by_cases hplot : q = plotId m.plot
      · subst hplot
        rw [State.recFlag, State.plot_modPlot_self] at hq
        exact (congrArg (fun x : Plot => { x with cnt := t.plots[plotId m.plot].cnt }) hq :)
      · rwa [State.recFlag, State.plot_modPlot_ne _ _ hplot] at hq
  exact hfold s.plotMaps s

/-! ### The switch (R491, R493, R494) -/

/-- The sequencer once the dividers have switched. -/
def Pwr.switched (o n : Fin 4) (p : Pwr) : Pwr :=
  { p with lvl := .idle, frozen := false, level := n, switches := p.switches + 1, sinceSlow := if o.val < n.val then 0 else p.sinceSlow }

theorem State.switchLevel_of_none {s : State} (hkept : s.pwr.keptReq = none) (o n : Fin 4) :
    ∃ plots, (∀ q : PlotId, { plots[q] with cnt := s.plots[q].cnt } = s.plots[q]) ∧
      s.switchLevel o n = if o.val < n.val then ({ s with pwr := s.pwr.switched o n, plots := plots } : State).avs (lvlMv n.val)
        else { s with pwr := s.pwr.switched o n, plots := plots } := by
  obtain ⟨plots, hflag, hcnt⟩ := (s.modPwr (Pwr.switched o n)).recFlagAll_eq (16 + n.val)
  refine ⟨plots, hcnt, ?_⟩
  have hswitch : s.switchLevel o n = (if o.val < n.val then ((s.modPwr (Pwr.switched o n)).recFlagAll (16 + n.val)).avs (lvlMv n.val)
      else (s.modPwr (Pwr.switched o n)).recFlagAll (16 + n.val)).carryKept := rfl
  rw [hswitch, hflag]
  split_ifs
  · exact State.carryKept_of_none hkept
  · exact State.carryKept_of_none hkept

end Sys2Proof.Machine
open Sys2Proof Sys2Proof.Machine Sys2Proof.Safety

/-- Settles O45: a request by the order of the levels, the monitor and the timeout by what settles, and the two frame edges. -/
theorem levelChanges : Obligations.LevelChanges := by
  unfold Obligations.LevelChanges
  intro s p only mv
  have hmv : ∀ l : Fin 4, mv l = lvlMv l.val := fun l => (lvlMv_eq l).symm
  refine ⟨fun l hwaits hidle hhw hdroop => ?request, fun l hbusy => ?busy, fun x o n hlvl hlow hhigh => ?settled, fun o n hlvl hkept => ?timeout,
    fun o n hlvl => ?first, fun o n hlvl hkept hready => ?second, fun o n hlvl hlow hle => ?waits⟩
  case request =>
    intro t
    refine ⟨congrArg Fin.val (State.wanted_of_free hhw l), fun ht => ?faster, runsTo_pwrPlReq_slower hidle hwaits hdroop, runsTo_pwrPlReq_level hidle hwaits hdroop⟩
    case faster =>
      rw [hmv]
      exact runsTo_pwrPlReq_faster hidle hwaits hdroop ht
  case busy => exact ⟨_, (exec_pwrPlReq s l).trans (congrArg _ (State.changeLevel_of_busy hbusy)), rfl, rfl⟩
  case settled =>
    have hset : s.settled x = true := by
      unfold State.settled
      rw [decide_eq_true hlow, decide_eq_true hhigh, Bool.and_self]
    have hexec : exec (.voltageSettled x) s = .next (s.modPwr fun p =>
        { p with voltMv := BitVec.ofNat 12 x, lvl := match p.lvl with | .settling o n => .edge1 o n | x => x }) := if_pos hset
    refine ⟨_, hexec, ?_, rfl, rfl⟩
    show ({ s.pwr with voltMv := _, lvl := match s.pwr.lvl with | .settling o n => .edge1 o n | x => x } : Pwr) = _
    rw [show s.pwr.lvl = _ from hlvl]
  case timeout =>
    obtain ⟨evts, hexec⟩ := exec_voltageTimeout_of_settling hlvl hkept
    exact ⟨_, hexec, by rw [hmv]; rfl, by rw [hmv], rfl⟩
  case first =>
    refine ⟨s.modPwr fun p => { p with lvl := .edge2 o n, frozen := true }, ?_, rfl, rfl, rfl⟩
    rw [show exec .frameEdgeSwitch s = execFrameEdgeSwitch s from rfl, execFrameEdgeSwitch, show s.pwr.lvl = _ from hlvl]
  case second =>
    obtain ⟨plots, hcnt, hswitch⟩ := State.switchLevel_of_none hkept o n
    have hready : (decide (lvlMv n.val ≤ s.pwr.voltMv.toNat + 15) || decide (o.val < n.val)) = true := by
      rw [Bool.or_eq_true, decide_eq_true_eq, decide_eq_true_eq, ← hmv]
      exact hready
    have hexec : exec .frameEdgeSwitch s = .next (s.switchLevel o n) := by
      rw [show exec .frameEdgeSwitch s = execFrameEdgeSwitch s from rfl, execFrameEdgeSwitch, show s.pwr.lvl = _ from hlvl]
      exact if_pos hready
    rw [hswitch] at hexec
    by_cases hlt : o < n
    · rw [if_pos (show o.val < n.val from hlt)] at hexec
      exact ⟨_, hexec, rfl, rfl, rfl, rfl, by rw [if_pos hlt, hmv]; rfl, hcnt, rfl⟩
    · rw [if_neg (show ¬ o.val < n.val from hlt)] at hexec
      exact ⟨_, hexec, rfl, rfl, rfl, rfl, by rw [if_neg hlt], hcnt, rfl⟩
  case waits =>
    refine ⟨s, ?_, rfl⟩
    rw [show exec .frameEdgeSwitch s = execFrameEdgeSwitch s from rfl, execFrameEdgeSwitch, show s.pwr.lvl = _ from hlvl]
    refine if_neg ?_
    rw [Bool.or_eq_true, decide_eq_true_eq, decide_eq_true_eq, ← hmv]
    rintro (hvolt | hlt)
    · exact absurd hvolt (Nat.not_le.mpr hlow)
    · exact absurd hle (Fin.not_le.mpr hlt)
end

section
/-! SUPPORT. What droop, the throttle, the sensors and the level evaluation do (R496-R501, R506); and the settling of O46. -/
namespace Sys2Proof.Machine
open Sys2Proof.Safety

/-! ### PL3 at the next frame edge (R496, R500) -/

theorem State.forceSlow_of_level {s : State} (h : s.pwr.level ≠ 3) :
    s.forceSlow = s.modPwr fun p => { p with keptReq := none, frozen := true, lvl := .edge2 p.level 3 } :=
  if_neg fun hboth => h hboth.1

theorem exec_droop_of_level {s : State} (h : s.pwr.level ≠ 3) : ∃ evts, exec .droop s = .next { s with
    pwr := { s.pwr with droopHold := true, event := withBit s.pwr.event 2, keptReq := none, frozen := true, lvl := .edge2 s.pwr.level 3 }, crownEvts := evts } := by
  obtain ⟨evts, hevent⟩ := (s.modPwr fun p => { p with droopHold := true }).pwrEvent_eq 2
  refine ⟨evts, ?_⟩
  rw [show exec .droop s = .next ((s.modPwr fun p => { p with droopHold := true }).pwrEvent 2).forceSlow from rfl, State.forceSlow_of_level, hevent]
  · rfl
  · rw [hevent]
    exact h

theorem exec_hwThrottle_of_level {s : State} (h : s.pwr.level ≠ 3) (hlive : s.pwr.hwLive = false) : ∃ evts, exec .hwThrottle s = .next { s with
    pwr := { s.pwr with hwLive := true, event := withBit s.pwr.event 4, keptReq := none, frozen := true, lvl := .edge2 s.pwr.level 3 }, crownEvts := evts } := by
  obtain ⟨evts, hevent⟩ := (s.modPwr fun p => { p with hwLive := true }).pwrEvent_eq 4
  refine ⟨evts, ?_⟩
  rw [show exec .hwThrottle s = execHwThrottle s from rfl, execHwThrottle, hlive, if_neg Bool.false_ne_true, State.forceSlow_of_level, hevent]
  · rfl
  · rw [hevent]
    exact h

/-! ### The hottest sensor (R498) -/

/-- One sensor is looked at. -/
def hotterOf (temps : List Nat) (m : Nat × Nat) (i : Nat) : Nat × Nat := if m.1 < (temps[i]?).getD 0 then ((temps[i]?).getD 0, i) else m

theorem hottest_eq (temps : List Nat) : hottest temps = (List.range temps.length).foldl (hotterOf temps) (0, 0) := rfl

/-- Of the first n sensors none reads more than the hottest, which is one of them, or all read 0. -/
theorem foldl_hotterOf (temps : List Nat) (n : Nat) :
    let m := (List.range n).foldl (hotterOf temps) (0, 0)
    (∀ i < n, (temps[i]?).getD 0 ≤ m.1) ∧ (m.1 = 0 ∨ m.2 < n ∧ (temps[m.2]?).getD 0 = m.1) := by
  induction n with
  | zero => exact ⟨fun i hi => absurd hi (Nat.not_lt_zero i), .inl rfl⟩
  | succ n ih =>
    obtain ⟨hmost, hone⟩ := ih
    rw [List.range_succ, List.foldl_append]
    generalize (List.range n).foldl (hotterOf temps) (0, 0) = m at hmost hone ⊢
    rw [List.foldl_cons, List.foldl_nil, hotterOf]
    split_ifs with hlt
    · refine ⟨fun i hi => ?_, .inr ⟨Nat.lt_succ_self n, rfl⟩⟩
      rcases Nat.lt_succ_iff_lt_or_eq.mp hi with hlow | rfl
      · exact (hmost i hlow).trans hlt.le
      · exact le_rfl
    · refine ⟨fun i hi => ?_, hone.imp_right fun ⟨hi, hread⟩ => ⟨by omega, hread⟩⟩
      rcases Nat.lt_succ_iff_lt_or_eq.mp hi with hlow | rfl
      · exact hmost i hlow
      · exact Nat.not_lt.mp hlt

theorem le_hottest {temps : List Nat} {x : Nat} (hx : x ∈ temps) : x ≤ (hottest temps).1 := by
  obtain ⟨i, hi, rfl⟩ := List.mem_iff_getElem.mp hx
  have hmost := (foldl_hotterOf temps temps.length).1 i hi
  rwa [List.getElem?_eq_getElem hi] at hmost

/-- The hottest reading is a sensor's, unless all read 0. -/
theorem hottest_reads (temps : List Nat) :
    (hottest temps).1 = 0 ∨ (hottest temps).2 < temps.length ∧ temps[(hottest temps).2]? = some (hottest temps).1 := by
  refine (foldl_hotterOf temps temps.length).2.imp_right fun ⟨hi, hread⟩ => ?_
  rw [← hottest_eq] at hi hread
  refine ⟨hi, ?_⟩
  rw [List.getElem?_eq_getElem hi] at hread
  rw [List.getElem?_eq_getElem hi]
  exact congrArg some hread

/-! ### A sample (R498, R499, R501) -/

/-- The power state after a sample whose hottest reading is m. -/
def Pwr.sampled (m : Nat × Nat) (p : Pwr) : Pwr :=
  { p with jmax := BitVec.ofNat 8 m.1, sensor := BitVec.ofNat 5 m.2, jpeak := if p.jpeak.toNat < m.1 then BitVec.ofNat 8 m.1 else p.jpeak,
           jms := max p.jms m.1, thermLive := decide (p.hotC.toNat ≤ m.1) }

theorem exec_sensorSample {s : State} {temps : List Nat} (h : temps.length = 20) :
    ∃ evts, exec (.sensorSample temps) s = .next { s with
      pwr := { s.pwr.sampled (hottest temps) with
        event := if s.pwr.hotC.toNat ≤ (hottest temps).1 ∧ s.pwr.thermLive = false then s.pwr.event ||| 1 else s.pwr.event }, crownEvts := evts } := by
  obtain ⟨evts, hevent⟩ := (s.modPwr (Pwr.sampled (hottest temps))).pwrEvent_eq 0
  have hexec : exec (.sensorSample temps) s = .next (if decide (s.pwr.hotC.toNat ≤ (hottest temps).1) && !s.pwr.thermLive
      then (s.modPwr (Pwr.sampled (hottest temps))).pwrEvent 0 else s.modPwr (Pwr.sampled (hottest temps))) := if_neg (not_not.mpr h)
  rw [hexec]
  by_cases hrise : s.pwr.hotC.toNat ≤ (hottest temps).1 ∧ s.pwr.thermLive = false
  · refine ⟨evts, ?_⟩
    rw [if_pos (by simpa using hrise), if_pos hrise, hevent]
    rfl
  · refine ⟨s.crownEvts, ?_⟩
    rw [if_neg (by simpa using hrise), if_neg hrise]
    rfl

/-! ### The level evaluation (R499) -/

/-- The power state once the maximum since the last evaluation is read. -/
def Pwr.evaluated (p : Pwr) : Pwr := { p with jms := p.jmax.toNat, sinceSlow := p.sinceSlow + 1 }

theorem exec_levelEvaluation {s : State} (htick : s.ring.tick.toNat % 1000 = 0) (hmode : s.sys.mode = .run) :
    exec .levelEvaluation s = match s.evalLevel with
      | some l => .next ((s.modPwr Pwr.evaluated).setReq l true)
      | none => .next (s.modPwr Pwr.evaluated) := if_pos ⟨htick, hmode⟩

theorem any_hot_iff (s : State) : s.hbm.toList.any (·.hot) = true ↔ ∃ k : StackId, s.hbm[k].hot = true := by
  simp only [List.any_eq_true, Vector.mem_toList_iff, Vector.mem_iff_getElem]
  exact ⟨fun ⟨_, ⟨i, hi, rfl⟩, hx⟩ => ⟨⟨i, hi⟩, hx⟩, fun ⟨k, hk⟩ => ⟨_, ⟨k.val, k.isLt, rfl⟩, hk⟩⟩

theorem State.changeLevel_eq (s : State) (l : Fin 4) :
    ∃ pwr outbox, s.changeLevel l = { s with pwr := pwr, outbox := outbox } ∧ pwr.req = s.pwr.req := by
  unfold State.changeLevel
  dsimp only
  split_ifs
  · exact ⟨_, s.outbox, rfl, rfl⟩
  · exact ⟨s.pwr, s.outbox, rfl, rfl⟩
  · exact ⟨_, _, rfl, rfl⟩
  · exact ⟨_, s.outbox, rfl, rfl⟩
  · exact ⟨s.pwr, s.outbox, rfl, rfl⟩

end Sys2Proof.Machine
open Sys2Proof Sys2Proof.Machine Sys2Proof.Safety

/-- Settles O46: each event changes the power state as its lemma says, and the hottest sensor is the maximum of a fold. -/
theorem throttleAndSensors : Obligations.ThrottleAndSensors := by
  unfold Obligations.ThrottleAndSensors
  intro s p
  refine ⟨fun hlevel => ⟨?droop, fun hlive => ?throttle⟩, ⟨_, rfl, rfl, rfl⟩, fun htrip => ?trip, fun temps hlen hsmall => ?sample,
    fun htick hmode => ⟨fun hhot => ?slower, fun hcool hstays => ?stays⟩, fun v => ⟨_, rfl, rfl, ?alarm, rfl⟩, fun hset hpast => ⟨_, if_pos ⟨hset, hpast⟩, rfl, rfl⟩,
    fun hfuture => ⟨s, if_neg fun ⟨_, hpast⟩ => absurd hpast (Nat.not_le.mpr hfuture), rfl⟩⟩
  case droop =>
    obtain ⟨evts, hexec⟩ := exec_droop_of_level hlevel
    exact ⟨_, hexec, rfl, rfl⟩
  case throttle =>
    obtain ⟨evts, hexec⟩ := exec_hwThrottle_of_level hlevel hlive
    exact ⟨_, hexec, rfl, rfl⟩
  case trip =>
    refine ⟨_, (if_neg (by rw [htrip]; exact Bool.false_ne_true) : execThermalTrip s = _), rfl, rfl, rfl, ?_, rfl⟩
    exact List.getLast?_concat ..
  case sample =>
    obtain ⟨evts, hexec⟩ := exec_sensorSample (s := s) hlen
    have hmax : (BitVec.ofNat 8 (hottest temps).1).toNat = (hottest temps).1 := by
      rw [BitVec.toNat_ofNat]
      refine Nat.mod_eq_of_lt ?_
      rcases hottest_reads temps with hzero | ⟨-, hread⟩
      · omega
      · exact hsmall _ (List.mem_of_getElem? hread)
    refine ⟨_, hexec, fun x hx => ?_, ?_, ?_, ?_, ?_, rfl⟩
    · exact (le_hottest hx).trans_eq hmax.symm
    · rcases hottest_reads temps with hzero | ⟨hi, hread⟩
      · exact .inl fun x hx => Nat.le_zero.mp (hzero ▸ le_hottest hx)
      · refine .inr ?_
        have hsensor : (BitVec.ofNat 5 (hottest temps).2).toNat = (hottest temps).2 := by
          rw [BitVec.toNat_ofNat]
          exact Nat.mod_eq_of_lt (by omega)
        show temps[(BitVec.ofNat 5 (hottest temps).2).toNat]? = some (BitVec.ofNat 8 (hottest temps).1).toNat
        rw [hsensor, hmax, hread]
    · show (if s.pwr.jpeak.toNat < (hottest temps).1 then BitVec.ofNat 8 (hottest temps).1 else s.pwr.jpeak).toNat =
        max s.pwr.jpeak.toNat (BitVec.ofNat 8 (hottest temps).1).toNat
      rw [apply_ite BitVec.toNat, hmax]
      split_ifs <;> omega
    · show decide (s.pwr.hotC.toNat ≤ (hottest temps).1) = decide (s.pwr.hotC.toNat ≤ (BitVec.ofNat 8 (hottest temps).1).toNat)
      rw [hmax]
    · exact if_congr (by rw [show (_ : Pwr).jmax.toNat = (hottest temps).1 from hmax]) rfl rfl
  case slower =>
    have heval : s.evalLevel = some (lvlOf (s.pwr.level.val + 1)) := by
      refine if_pos ?_
      rw [Bool.or_eq_true, Bool.or_eq_true, decide_eq_true_eq, decide_eq_true_eq, any_hot_iff, or_assoc]
      exact hhot
    obtain ⟨pwr, outbox, hlevel, hreq⟩ := ((s.modPwr Pwr.evaluated).modPwr (Pwr.requested (lvlOf (s.pwr.level.val + 1)))).changeLevel_eq (lvlOf (s.pwr.level.val + 1))
    have hexec := exec_levelEvaluation htick hmode
    rw [heval] at hexec
    dsimp only at hexec
    rw [State.setReq_eq, hlevel] at hexec
    exact ⟨_, hexec, congrArg Fin.val hreq, rfl⟩
  case stays =>
    have heval : s.evalLevel = none := by
      have hslow : ¬ (s.deviceMw < s.pwr.lastMw.toNat || s.pwr.hotC.toNat ≤ s.pwr.jms || s.hbm.toList.any (·.hot)) = true := by
        rw [Bool.or_eq_true, Bool.or_eq_true, decide_eq_true_eq, decide_eq_true_eq, any_hot_iff, or_assoc]
        exact hcool
      refine (if_neg hslow).trans (if_neg ?_)
      simp only [Bool.and_eq_true, decide_eq_true_eq]
      rintro ⟨⟨⟨⟨hlevel, hjms⟩, -⟩, hlong⟩, -⟩
      rcases hstays with h | h | h
      · exact absurd hjms (Nat.not_le.mpr h)
      · exact absurd hlevel (Nat.not_lt.mpr h)
      · exact absurd hlong (Nat.not_le.mpr h)
    have hexec := exec_levelEvaluation htick hmode
    rw [heval] at hexec
    exact ⟨_, hexec, rfl, rfl, rfl⟩
  case alarm =>
    exact congrArg (· && decide (v.toNat ≤ s.ring.tick.toNat)) (by rw [Bool.eq_iff_iff, bne_iff_ne, decide_eq_true_eq])
end

section
/-! SUPPORT. A ring counter that counts one; and the settling of O47. -/
namespace Sys2Proof.Machine
open Sys2Proof.Safety

theorem State.ringAdd_val (s : State) (i : Fin 32) (k : Nat) :
    s.ringAdd i.val k = { s with ring := { s.ring with rings := vmod s.ring.rings i fun x => satAdd 64 x k } } := by
  rw [State.ringAdd, finOf?_val]

/-- A ring counter counts, and stays at its largest value (R444). -/
theorem State.rings_ringAdd_one (s : State) (i j : Fin 32) :
    (s.ringAdd i.val 1).ring.rings[j] = if j = i ∧ s.ring.rings[j] ≠ BitVec.allOnes 64 then s.ring.rings[j] + 1 else s.ring.rings[j] := by
  rw [State.ringAdd_val]
  show (vmod s.ring.rings i fun x => satAdd 64 x 1)[j] = _
  rw [vmod_get]
  by_cases hj : j = i
  · subst hj
    rw [if_pos rfl, satAdd_one]
    by_cases hfull : s.ring.rings[j] = BitVec.allOnes 64
    · rw [if_pos hfull, if_neg fun h => h.2 hfull, hfull]
    · rw [if_neg hfull, if_pos ⟨rfl, hfull⟩]
  · rw [if_neg hj, if_neg fun h => hj h.1]

theorem Memory.cells_lose_all (m : Memory) : (m.lose fun _ => true).cells = [] := by
  simp [Memory.lose]

theorem Memory.zeroed_lose_all (m : Memory) : (m.lose fun _ => true).zeroed = [] := by
  simp [Memory.lose]

end Sys2Proof.Machine
open Sys2Proof Sys2Proof.Machine Sys2Proof.Safety

/-- Settles O47: the loss of power leaves the Reset values and what MRAM and flash hold, and power-on counts in ring 3. -/
theorem powerOnReset : Obligations.PowerOnReset := by
  unfold Obligations.PowerOnReset
  intro s cleared
  have hon : exec .powerOn s = .next (((s.powerLost.modSys fun x => { x with aonGood := true }).ringAdd (3 : Fin 32).val 1).raise (.modeChange .reset)) := rfl
  rw [State.ringAdd_val] at hon
  refine ⟨⟨_, hon, ?on, rfl, rfl, fun i => ?rings⟩, fun rail => ⟨_, rfl, ?off, rfl, rfl⟩⟩
  case on => exact ⟨rfl, rfl, rfl, rfl, rfl, rfl, rfl, rfl, rfl, rfl, rfl, s.mem.cells_lose_all, s.mem.zeroed_lose_all, rfl, rfl, rfl, rfl, rfl, rfl⟩
  case off => exact ⟨rfl, rfl, rfl, rfl, rfl, rfl, rfl, rfl, rfl, rfl, rfl, s.mem.cells_lose_all, s.mem.zeroed_lose_all, rfl, rfl, rfl, rfl, rfl, rfl⟩
  case rings =>
    have hring := State.rings_ringAdd_one (s.powerLost.modSys fun x => { x with aonGood := true }) 3 i
    rw [State.ringAdd_val] at hring
    exact hring
end

section
/-! SUPPORT. What a tick meters, what the energy of a millisecond is apportioned to, and the item of a calendar sync (R421, R422, R433, R487);
and the settling of O40. -/
namespace Sys2Proof.Machine
open Sys2Proof.Safety

/-! ### A tick (R421, R487) -/

theorem State.crownQueue_congr {s t : State} (hgrn : t.grn = s.grn) (b : Nat) : t.crownQueue b = s.crownQueue b := by
  have hrec : t.queueRec = s.queueRec := funext (State.queueRec_congr hgrn)
  unfold State.crownQueue
  rw [hrec]

theorem State.crownLevel_congr {s t : State} (hgrn : t.grn = s.grn) (hqueues : t.queues = s.queues) (b : BoughId) : t.crownLevel b = s.crownLevel b := by
  unfold State.crownLevel
  rw [State.crownQueue_congr hgrn b, hqueues]

/-- Whether a bough is busy says nothing of the plots, the rings or the power state. -/
theorem State.boughBusy_congr {s t : State} (hboughs : t.boughs = s.boughs) (hqueues : t.queues = s.queues) (hgrn : t.grn = s.grn) (b : BoughId) :
    t.boughBusy b = s.boughBusy b := by
  have hbough : t.bough b = s.bough b := congrArg (fun v : Vector Bough 256 => v[b]) hboughs
  have hcrown := State.crownLevel_congr hgrn hqueues b
  have hqueue : t.queueLevel b = s.queueLevel b := by
    simp only [State.queueLevel, hgrn, hqueues]
  have hsources : t.sources (.bough b) = s.sources (.bough b) := by
    simp only [State.sources, hbough, hcrown, hqueue]
  simp only [State.boughBusy, State.boughIdle, hbough, hsources]

theorem vmod_congr_self {α : Type} {k : Nat} {v : Vector α k} {i : Fin k} {f g : α → α} (h : f v[i] = g v[i]) : vmod v i f = vmod v i g :=
  congrArg (vset v i) h

/-- A plot whose busy boughs of a tick are counted. -/
def Plot.metered (k : Nat) (x : Plot) : Plot := { x with cnt := { x.cnt with boughUs := x.cnt.boughUs + if x.st = .parked then 0 else k } }

theorem State.meterTick_plots {s : State} (hnodup : (s.plotMaps.map fun m => m.plot).Nodup) (hlt : ∀ m ∈ s.plotMaps, m.plot < 64) :
    { s.meterTick with plots := s.plots } = s ∧
      (∀ (p : PlotId) (m : PlotMap), s.plotMap p.val = some m → s.meterTick.plots[p] = s.plots[p].metered (m.boughList.filter fun b => s.boughBusy b).length) ∧
      ∀ p : PlotId, s.plotMap p.val = none → s.meterTick.plots[p] = s.plots[p] := by
  unfold State.meterTick
  refine State.plots_foldl_plotMaps (I := fun t => { t with plots := s.plots } = s) (g := fun m x => x.metered (m.boughList.filter fun b => s.boughBusy b).length)
    (fun t m ht => ?_) rfl hnodup hlt
  have hboughs : t.boughs = s.boughs := (congrArg State.boughs ht :)
  have hqueues : t.queues = s.queues := (congrArg State.queues ht :)
  have hgrn : t.grn = s.grn := (congrArg State.grn ht :)
  have hbusy : (fun b => t.boughBusy b) = fun b => s.boughBusy b := funext (State.boughBusy_congr hboughs hqueues hgrn)
  by_cases hparked : t.plots[plotId m.plot].st = .parked
  · rw [if_pos hparked]
    refine ⟨ht, (vmod_same t.plots _ _ ?_).symm⟩
    rw [Plot.metered, if_pos hparked, Nat.add_zero]
  · rw [if_neg hparked, hbusy]
    refine ⟨ht, ?_⟩
    dsimp only [State.modPlot]
    refine vmod_congr_self ?_
    simp only [Plot.metered, if_neg hparked]

theorem State.meterEnergy_eq (s : State) (nj : Nat) : ∃ joules rings, s.meterEnergy nj = { s with
    pwr := { s.pwr with uj := s.pwr.uj + BitVec.ofNat 64 ((s.pwr.ujRem + nj) / 1000), ujRem := (s.pwr.ujRem + nj) % 1000 }
    ring := { s.ring with msNJ := s.ring.msNJ + nj, jouleNJ := joules, rings := rings } } :=
  ⟨_, _, State.ringAdd_val _ 17 _⟩

theorem State.meterSecond_eq (s : State) : ∃ sub rings, s.meterSecond = { s with ring := { s.ring with subSec := sub, rings := rings } } := by
  have hadd : ∀ (t : State) (i : Fin 32), ∃ rings, t.ringAdd i.val 1 = { t with ring := { t.ring with rings := rings } } := fun t i => ⟨_, t.ringAdd_val i 1⟩
  unfold State.meterSecond
  dsimp only
  split_ifs
  · exact ⟨_, s.ring.rings, rfl⟩
  · obtain ⟨rings, hup⟩ := hadd (s.modRing fun r => { r with subSec := 0 }) 0
    have hup : (s.modRing fun r => { r with subSec := 0 }).ringAdd 0 1 = _ := hup
    rw [hup]
    split
    · exact ⟨_, _, State.ringAdd_val _ 1 1⟩
    · exact ⟨_, _, State.ringAdd_val _ 2 1⟩
    · exact ⟨_, _, rfl⟩

theorem State.wdogTick_eq (s : State) : ∃ crn, s.wdogTick = { s with crn := crn } ∧
    (s.crn.armed = true → s.crn.subMs = 999 → s.sys.mode ≠ .dormant → crn.remain = s.crn.remain - (if s.crn.remain = 0 then 0 else 1)) := by
  unfold State.wdogTick
  by_cases hoff : (!s.crn.armed || s.sys.mode == .dormant) = true
  · rw [if_pos hoff]
    refine ⟨s.crn, rfl, fun harmed _ hmode => ?_⟩
    simp [harmed, hmode] at hoff
  rw [if_neg hoff]
  by_cases hsub : s.crn.subMs + 1 < 1000
  · rw [if_pos hsub]
    exact ⟨_, rfl, fun _ hms _ => absurd hsub (by rw [hms]; exact Nat.lt_irrefl 1000)⟩
  · rw [if_neg hsub]
    exact ⟨_, rfl, fun _ _ _ => rfl⟩

/-! ### The energy of a millisecond (R422, R433) -/

/-- The share of a plot in e nanojoules. -/
def State.share (s : State) (e : Nat) (m : PlotMap) : Nat :=
  let act (m : PlotMap) : Nat := s.plots[plotId m.plot].activity / 10 ^ 8
  let sum := (s.plotMaps.map act).sum
  if e < sum then act m * e / sum else act m + (e - sum) * m.boughList.length / 256

theorem State.shares_eq (s : State) (e : Nat) : s.shares e = s.plotMaps.map fun m => (plotId m.plot, s.share e m) := by
  simp only [State.shares, State.share, unitsPerNJ, List.map_map, Function.comp_def, apply_ite (Prod.mk _)]
  rfl

/-- A plot that gets a share of the energy. -/
def Plot.apportioned (k : Nat) (x : Plot) : Plot :=
  { x with shareNJ := k, activity := 0, cnt := { x.cnt with energyNJ := x.cnt.energyNJ + k, parkedMs := x.cnt.parkedMs + b2n (x.st == .parked) } }

theorem State.notePower_eq (s : State) (e : Nat) : ∃ pwr evts, s.notePower e = { s with pwr := pwr, crownEvts := evts } ∧ pwr.lastMw.toNat = min (e / 1000) 0xfffff := by
  have hmw : (BitVec.ofNat 20 (min (e / 1000) 0xfffff)).toNat = min (e / 1000) 0xfffff := by
    rw [BitVec.toNat_ofNat]
    exact Nat.mod_eq_of_lt (by omega)
  unfold State.notePower
  extract_lets mw live rise t
  obtain ⟨evts, hevent⟩ := t.pwrEvent_eq 1
  split_ifs
  · exact ⟨_, evts, hevent, hmw⟩
  · exact ⟨_, s.crownEvts, rfl, hmw⟩

/-! ### A signed item (R423, R429) -/

/-- An item joins those that wait for a signature, where the ledger has room. -/
theorem State.emitItem_of_room {s : State} {typ : BitVec 8} (hmode : s.sys.mode ≠ .quarantine) (hroom : typ = tyMinute ∨ s.ring.journal.length < 7680)
    (covered : List Word) (plot : Option PlotId) : ∃ hwd, s.emitItem typ covered plot = { s with
      ring := { s.ring with unsigned := s.ring.unsigned ++ [{ typ := typ, seq := 0, covered := covered, sig := [], plot := plot }] }, hwd := hwd } := by
  have hfull : ¬ (typ != tyMinute && decide (7680 ≤ s.ring.journal.length) && decide (16 ≤ s.ring.others)) = true := by
    rcases hroom with htyp | hroom
    · simp [htyp]
    · simp [hroom]
  unfold State.emitItem State.requestSig
  rw [if_neg (by simp [hmode]), if_neg hfull]
  dsimp only
  split_ifs
  · exact ⟨s.hwd, rfl⟩
  · exact ⟨_, rfl⟩
  · exact ⟨_, rfl⟩

/-- What a tick leaves: the tick and the energy counted, the plots metered, and counters beside. -/
theorem exec_ringTick_of_ticking {s : State} (nj : Nat) (h : s.ticking = true) (hnodup : (s.plotMaps.map fun m => m.plot).Nodup)
    (hlt : ∀ m ∈ s.plotMaps, m.plot < 64) : ∃ joules sub rings plots crn,
    exec (.ringTick nj) s = .next { s with
      pwr := { s.pwr with uj := s.pwr.uj + BitVec.ofNat 64 ((s.pwr.ujRem + nj) / 1000), ujRem := (s.pwr.ujRem + nj) % 1000 }
      ring := { s.ring with tick := s.ring.tick + 1, msNJ := s.ring.msNJ + nj, jouleNJ := joules, subSec := sub, rings := rings }, plots := plots, crn := crn } ∧
    (∀ (p : PlotId) (m : PlotMap), s.plotMap p.val = some m → plots[p] = s.plots[p].metered (m.boughList.filter fun b => s.boughBusy b).length) ∧
    (∀ p : PlotId, s.plotMap p.val = none → plots[p] = s.plots[p]) ∧
    (s.crn.armed = true → s.crn.subMs = 999 → s.sys.mode ≠ .dormant → crn.remain = s.crn.remain - (if s.crn.remain = 0 then 0 else 1)) := by
  have hexec : exec (.ringTick nj) s =
      .next (((((s.modRing fun r => { r with tick := r.tick + 1 }).meterEnergy nj).meterTick).meterSecond).wdogTick) := if_pos h
  obtain ⟨joules, rings, henergy⟩ := (s.modRing fun r => { r with tick := r.tick + 1 }).meterEnergy_eq nj
  rw [henergy] at hexec
  dsimp only [State.modRing] at hexec
  generalize ht : ({ s with pwr := _, ring := _ } : State) = t at hexec
  have hboughs : t.boughs = s.boughs := by rw [← ht]
  have hqueues : t.queues = s.queues := by rw [← ht]
  have hgrn : t.grn = s.grn := by rw [← ht]
  have hplots : t.plots = s.plots := by rw [← ht]
  have hmaps : t.plotMaps = s.plotMaps := by simp only [State.plotMaps, hgrn]
  obtain ⟨hframe, hown, hother⟩ := t.meterTick_plots (hmaps ▸ hnodup) (hmaps ▸ hlt)
  have hmeter : t.meterTick = { t with plots := t.meterTick.plots } := (congrArg (fun x : State => { x with plots := t.meterTick.plots }) hframe :)
  have hbusy : (fun b => t.boughBusy b) = fun b => s.boughBusy b := funext (State.boughBusy_congr hboughs hqueues hgrn)
  have hmap : t.plotMap = s.plotMap := by
    funext p
    simp only [State.plotMap, hmaps]
  rw [hbusy, hmap, hplots] at hown
  rw [hmap, hplots] at hother
  generalize t.meterTick.plots = plots at hmeter hown hother
  obtain ⟨sub, rings', hsecond⟩ := ({ t with plots := plots } : State).meterSecond_eq
  rw [hmeter, hsecond] at hexec
  obtain ⟨crn, hwdog, hremain⟩ := ({ t with plots := plots, ring := { t.ring with subSec := sub, rings := rings' } } : State).wdogTick_eq
  rw [hwdog] at hexec
  subst ht
  exact ⟨joules, sub, rings', plots, crn, hexec, hown, hother, hremain⟩

theorem exec_energyApportion_of_due {s : State} (hdue : s.ring.tick.toNat % 1000 = 0) (hticking : s.ticking = true) (hmode : s.sys.mode = .run)
    (hnodup : (s.plotMaps.map fun m => m.plot).Nodup) (hlt : ∀ m ∈ s.plotMaps, m.plot < 64) : ∃ plots dev pwr evts,
    exec .energyApportion s = .next { s with plots := plots, ring := { s.ring with msNJ := 0, devNJ := dev }, pwr := pwr, crownEvts := evts } ∧
    (∀ (p : PlotId) (m : PlotMap), s.plotMap p.val = some m → plots[p] = s.plots[p].apportioned (s.share s.ring.msNJ m)) ∧
    (∀ p : PlotId, s.plotMap p.val = none → plots[p] = s.plots[p]) ∧ pwr.lastMw.toNat = min (s.ring.msNJ / 1000) 0xfffff := by
  have haccrues : s.nothingAccrues = false := by rw [State.nothingAccrues, hmode]
  obtain ⟨hframe, hown, hother⟩ := State.plots_foldl_plotMaps (I := fun t => { t with plots := s.plots } = s) (s := s)
    (f := fun t m => t.modPlot (plotId m.plot) (Plot.apportioned (s.share s.ring.msNJ m))) (g := fun m => Plot.apportioned (s.share s.ring.msNJ m))
    (fun t m ht => ⟨ht, rfl⟩) rfl hnodup hlt
  have hfold : (s.shares s.ring.msNJ).foldl (fun (s : State) x => s.modPlot x.1 (Plot.apportioned x.2)) s =
      s.plotMaps.foldl (fun t m => t.modPlot (plotId m.plot) (Plot.apportioned (s.share s.ring.msNJ m))) s := by
    rw [State.shares_eq, List.foldl_map]
  rw [← hfold] at hframe hown hother
  generalize hu : (s.shares s.ring.msNJ).foldl (fun (s : State) x => s.modPlot x.1 (Plot.apportioned x.2)) s = u at hframe hown hother
  have hplots : u = { s with plots := u.plots } := (congrArg (fun x : State => { x with plots := u.plots }) hframe :)
  have hexec : exec .energyApportion s =
      .next ((u.modRing fun r => { r with msNJ := 0, devNJ := r.devNJ + (s.ring.msNJ - ((s.shares s.ring.msNJ).map (·.2)).sum) }).notePower s.ring.msNJ) := by
    rw [← hu]
    refine (if_pos ⟨hdue, hticking⟩ : execEnergyApportion s = _).trans ?_
    rw [haccrues]
    rfl
  obtain ⟨pwr, evts, hpower, hmw⟩ := (u.modRing fun r =>
    { r with msNJ := 0, devNJ := r.devNJ + (s.ring.msNJ - ((s.shares s.ring.msNJ).map (·.2)).sum) }).notePower_eq s.ring.msNJ
  rw [hpower] at hexec
  generalize u.plots = plots at hplots hown hother
  subst hplots
  exact ⟨plots, _, pwr, evts, hexec, hown, hother, hmw⟩

/-- A calendar sync sets the offset and emits its item. -/
theorem exec_ringCalSync_of_takes {s : State} (h : LedgerTakes s) (v : Word) : ∃ plots hwd, exec (.ringCalSync v) s = .next { s with
    plots := plots
    ring := { s.ring with
      offset := v - s.ring.tick, gapOpen := false, uncertain := false, gap := if s.ring.gapOpen then (if s.ring.gapOpen then v - s.ring.tick - s.ring.offset else 0) else s.ring.gap
      unsigned := s.ring.unsigned ++ [{ typ := tySync, seq := 0, plot := none, sig := [], covered :=
        [BitVec.ofNat 64 (b2n s.ring.gapOpen), 0, s.ring.tick, s.ring.offset, v - s.ring.tick,
          if s.ring.gapOpen then v - s.ring.tick - s.ring.offset else 0] }] }, hwd := hwd } := by
  obtain ⟨hmode, hroom⟩ := h
  have hawake : s.awake = true := by rw [State.awake, hmode]
  obtain ⟨plots, hflags⟩ : ∃ plots, (if s.ring.gapOpen then s.recFlagAll 8 else s) = { s with plots := plots } := by
    split_ifs
    · obtain ⟨plots, hflag, -⟩ := s.recFlagAll_eq 8
      exact ⟨plots, hflag⟩
    · exact ⟨s.plots, rfl⟩
  refine ⟨plots, ?_⟩
  have hexec : exec (.ringCalSync v) s = .next (s.calSync v) := congrArg Host.Outcome.next (if_pos hawake)
  have hcal : s.calSync v = (((if s.ring.gapOpen then s.recFlagAll 8 else s).modRing fun r => { r with
      offset := v - s.ring.tick, gapOpen := false, uncertain := false, gap := if s.ring.gapOpen then (if s.ring.gapOpen then v - s.ring.tick - s.ring.offset else 0) else r.gap })).emitItem tySync
      [BitVec.ofNat 64 (b2n s.ring.gapOpen), 0, (if s.ring.gapOpen then s.recFlagAll 8 else s).ring.tick, s.ring.offset, v - s.ring.tick,
        if s.ring.gapOpen then v - s.ring.tick - s.ring.offset else 0] none := rfl
  rw [hexec, hcal, hflags]
  obtain ⟨hwd, hemit⟩ := State.emitItem_of_room (s := ({ s with plots := plots } : State).modRing fun r => { r with
      offset := v - s.ring.tick, gapOpen := false, uncertain := false, gap := if s.ring.gapOpen then (if s.ring.gapOpen then v - s.ring.tick - s.ring.offset else 0) else r.gap })
    (typ := tySync) (fun h => Mode.noConfusion (hmode.symm.trans h)) (.inr hroom) _ none
  exact ⟨hwd, congrArg _ hemit⟩

end Sys2Proof.Machine
open Sys2Proof Sys2Proof.Machine Sys2Proof.Safety

/-- Settles O40: a tick and a millisecond go over the plots once, and a calendar sync is an offset and an item. -/
theorem timeAndEnergy : Obligations.TimeAndEnergy := by
  unfold Obligations.TimeAndEnergy
  refine ⟨fun s nj hticking hnodup hlt => ?tick, fun s nj hoff => ?stopped, fun s hdue hticking hmode hnodup hlt => ?energy, fun s v htakes => ?sync⟩
  case tick =>
    obtain ⟨joules, sub, rings, plots, crn, hexec, hown, hother, hremain⟩ := exec_ringTick_of_ticking nj hticking hnodup hlt
    exact ⟨_, hexec, rfl, rfl, rfl, rfl, rfl, hown, hother, hremain, rfl⟩
  case stopped => exact ⟨s, if_neg (by simp [State.ticking, hoff]), rfl⟩
  case energy =>
    obtain ⟨plots, dev, pwr, evts, hexec, hown, hother, hmw⟩ := exec_energyApportion_of_due hdue hticking hmode hnodup hlt
    refine ⟨_, hexec, fun p m hm => ?_, hother, rfl, hmw, rfl⟩
    have hp := hown p m hm
    exact ⟨(congrArg Plot.shareNJ hp :), (congrArg Plot.activity hp :), (congrArg (fun y => y.cnt.energyNJ) hp :), (congrArg Plot.st hp :)⟩
  case sync =>
    obtain ⟨plots, hwd, hexec⟩ := exec_ringCalSync_of_takes htakes v
    exact ⟨_, hexec, rfl, rfl, rfl, rfl, fun hgap => (if_pos hgap).trans (if_pos hgap), ⟨_, rfl, rfl, rfl, rfl, rfl, rfl⟩, rfl⟩
end

section
/-! SUPPORT. What the teardown of links, ports and memory traffic leaves alone: the commands that wait, the time, the flush area, the count of
watchdog resets, and the power, image, mode and crown states. -/
namespace Sys2Proof.Machine
open Sys2Proof.Safety

/-- The parts of the state that a teardown leaves alone. -/
structure Standing where
  pending : List Instr
  tick : Word
  offset : Word
  flush : Option FlushArea
  resets : Word
  pwr : Pwr
  grn : Grn
  sys : Sys
  crn : Crn

def State.standing (s : State) : Standing :=
  ⟨s.pending, s.ring.tick, s.ring.offset, s.ring.flush, s.ring.rings[(23 : Fin 32)], s.pwr, s.grn, s.sys, s.crn⟩

theorem foldl_standing {α : Type} {f : State → α → State} (h : ∀ s a, (f s a).standing = s.standing) (l : List α) (s : State) :
    (l.foldl f s).standing = s.standing := by
  induction l generalizing s with
  | nil => rfl
  | cons a l ih => exact (ih (f s a)).trans (h s a)

theorem ite_standing {c : Prop} [Decidable c] {s t u : State} (ht : t.standing = s.standing) (hu : u.standing = s.standing) :
    (if c then t else u).standing = s.standing := by
  split <;> assumption


@[simp] theorem State.modMem_standing (s : State) (f : Memory → Memory) : (s.modMem f).standing = s.standing := rfl

@[simp] theorem State.setMap_standing (s : State) (lin : Bool) : (s.setMap lin).standing = s.standing := by
  unfold State.setMap
  split <;> rfl

@[simp] theorem State.modPlot_standing (s : State) (p : PlotId) (f : Plot → Plot) : (s.modPlot p f).standing = s.standing := rfl

@[simp] theorem State.recFlag_standing (s : State) (p : PlotId) (bit : Nat) : (s.recFlag p bit).standing = s.standing := rfl

@[simp] theorem State.draw_standing (s : State) : s.draw.2.standing = s.standing := rfl

@[simp] theorem State.requestSig_standing (s : State) (r : SigReq) : (s.requestSig r).standing = s.standing := by
  unfold State.requestSig
  split_ifs <;> rfl

@[simp] theorem State.emitItem_standing (s : State) (typ : BitVec 8) (covered : List Word) (plot : Option PlotId) :
    (s.emitItem typ covered plot).standing = s.standing := by
  unfold State.emitItem
  split_ifs
  · rfl
  · rfl
  · exact State.requestSig_standing ..

@[simp] theorem State.note_standing (s : State) (kind : Nat) (d0 : Word) (d1 : Word) : (s.note kind d0 d1).standing = s.standing := by
  simp [State.note]

@[simp] theorem State.ringAdd_standing (s : State) {i : Nat} (k : Nat) (hi : i ≠ 23) : (s.ringAdd i k).standing = s.standing := by
  unfold State.ringAdd
  split
  next j hj =>
    have hval : j.val = i := by
      unfold finOf? at hj
      split at hj
      · exact (congrArg Fin.val (Option.some.inj hj)).symm
      · exact absurd hj (by simp)
    have hne : (23 : Fin 32) ≠ j := fun h => hi (hval.symm.trans (congrArg Fin.val h).symm)
    exact congrArg (fun w => { s.standing with resets := w }) (vmod_get_ne s.ring.rings (fun x => satAdd 64 x k) hne)
  · rfl

@[simp] theorem State.recordRepair_standing (s : State) (b bank row spare : Nat) : (s.recordRepair b bank row spare).standing = s.standing := by
  simp only [State.recordRepair]
  rw [State.note_standing, State.ringAdd_standing _ _ (by decide)]
  rfl

@[simp] theorem State.raise_standing (s : State) (e : CrownEvt) : (s.raise e).standing = s.standing := rfl

@[simp] theorem State.notice_standing (s : State) (was : Bool) (reg : String) : (s.notice was reg).standing = s.standing := by
  unfold State.notice
  split <;> rfl

@[simp] theorem State.modScr_standing (s : State) (b : BoughId) (f : Scratch → Scratch) : (s.modScr b f).standing = s.standing := rfl

@[simp] theorem State.scrFlag_standing (s : State) (b : BoughId) (bit : Nat) : (s.scrFlag b bit).standing = s.standing := by
  simp [State.scrFlag]

@[simp] theorem State.modQueue_standing (s : State) (q : QueueId) (f : Queue → Queue) : (s.modQueue q f).standing = s.standing := rfl

@[simp] theorem State.qOpen_standing (s : State) (q : QueueId) (c : Nat) : (s.qOpen q c).standing = s.standing := rfl

@[simp] theorem State.emit_standing (s : State) (o : Output) : (s.emit o).standing = s.standing := rfl

@[simp] theorem State.sendMsix_standing (s : State) (fn : HostFn) (entry : Nat) : (s.sendMsix fn entry).standing = s.standing := by
  unfold State.sendMsix
  dsimp only
  repeat' split
  all_goals simp

@[simp] theorem State.modGraft_standing (s : State) (n : PortId) (f : GraftPort → GraftPort) : (s.modGraft n f).standing = s.standing := rfl

@[simp] theorem State.waitFlit_standing (s : State) (n : PortId) (cls : Nat) (flow : Nat) (kind : Nat) (ws : List Word) :
    (s.waitFlit n cls flow kind ws).standing = s.standing := rfl

@[simp] theorem State.sendQueueWords_standing (s : State) (n : PortId) (tag : BitVec 32) (pseq : BitVec 16) (fuel off : Nat) (ws : List (Word × Bool)) :
    (s.sendQueueWords n tag pseq fuel off ws).standing = s.standing := (congrArg State.standing (s.sendQueueWords_notices 0 n tag pseq fuel off ws).frame :)

@[simp] theorem State.meter_standing (s : State) (p : Option Nat) (f : Counters → Counters) : (s.meter p f).standing = s.standing := by
  cases p <;> rfl

@[simp] theorem State.graftTrySend_standing (s : State) (q : QueueId) :
    (s.graftTrySend q).standing = s.standing := (congrArg State.standing (s.graftTrySend_notices q).frame :)

@[simp] theorem State.queueNotice_standing (s : State) (q : QueueId) :
    (s.queueNotice q).standing = s.standing := (congrArg State.standing (s.queueNotice_notices q).frame :)

@[simp] theorem State.qClose_standing (s : State) (q : QueueId) (typ : BitVec 8) (tag : BitVec 32) (lenBad : Bool) :
    (s.qClose q typ tag lenBad).standing = s.standing := by
  unfold State.qClose
  split <;> simp

theorem State.postPacket_standing {s t : State} {q : QueueId} {typ : Nat} {ws : List Word} (h : s.postPacket q typ ws = some t) : t.standing = s.standing := by
  unfold State.postPacket at h
  dsimp only at h
  split_ifs at h
  cases h
  simp [State.qOpen]

@[simp] theorem State.sendEvent_standing (s : State) (p : PlotId) (e : PEvent) : (s.sendEvent p e).standing = s.standing := by
  unfold State.sendEvent
  split
  · rfl
  · split
    · rfl
    · split
      next hpost => exact State.postPacket_standing hpost
      · rfl

@[simp] theorem State.plotEvent_standing (s : State) (p : PlotId) (code : Nat) (bough : Nat) (unit : Nat) (detail : Word) :
    (s.plotEvent p code bough unit detail).standing = s.standing := by
  unfold State.plotEvent
  dsimp only
  repeat' split
  all_goals simp

@[simp] theorem State.bankPoison_standing (s : State) (b : BoughId) (bank : Nat) : (s.bankPoison b bank).standing = s.standing := by
  unfold State.bankPoison
  repeat' split
  all_goals simp

@[simp] theorem State.giveRowUp_standing (s : State) (b : BoughId) (bank : Nat) (row : Nat) : (s.giveRowUp b bank row).standing = s.standing := by
  unfold State.giveRowUp
  dsimp only
  repeat' split
  all_goals simp

@[simp] theorem State.logRow_standing (s : State) (b : BoughId) (q : Nat) : (s.logRow b q).standing = s.standing := rfl

@[simp] theorem State.rowFailed_standing (s : State) (b : BoughId) (q : Nat) : (s.rowFailed b q).standing = s.standing := by
  unfold State.rowFailed
  dsimp only
  repeat' split
  all_goals simp

@[simp] theorem State.applyDead_standing (s : State) (b : BoughId) : (s.applyDead b).standing = s.standing := by
  unfold State.applyDead
  exact State.modMem_standing ..

@[simp] theorem State.restoreRegion_standing (s : State) (b : BoughId) (failed : BitVec 4) : (s.restoreRegion b failed).standing = s.standing := by
  unfold State.restoreRegion
  extract_lets x n t
  have ht : t.standing = s.standing := foldl_standing (fun s _ => ite_standing (State.rowFailed_standing s b _) rfl) _ s
  clear_value t
  rw [State.applyDead_standing, State.modScr_standing, ht]

@[simp] theorem State.closeRegions_standing (s : State) : s.closeRegions.standing = s.standing := by
  unfold State.closeRegions
  refine foldl_standing (fun s b => ite_standing ?_ rfl) _ s
  exact (State.restoreRegion_standing ..).trans (State.draw_standing s)

@[simp] theorem State.modStack_standing (s : State) (k : StackId) (f : Stack → Stack) : (s.modStack k f).standing = s.standing := rfl

@[simp] theorem State.eccRoot_standing (s : State) (w : Nat) (k : Mark) (scrub : Bool) (count : Bool) : (s.eccRoot w k scrub count).standing = s.standing := by
  simp [State.eccRoot]

@[simp] theorem State.eccScratch_standing (s : State) (b : BoughId) (w : Nat) (k : Mark) (sweep : Bool) : (s.eccScratch b w k sweep).standing = s.standing := by
  simp [State.eccScratch]

@[simp] theorem State.observe_standing (s : State) (a : Nat) (n : Nat) (bg : Bool) : (s.observe a n bg).standing = s.standing := by
  unfold State.observe
  refine foldl_standing (fun s x => ?_) _ _
  repeat' split
  all_goals simp

@[simp] theorem State.flipTwo_standing (s : State) (w : Nat) : (s.flipTwo w).standing = s.standing := by
  simp [State.flipTwo]

@[simp] theorem State.injectInto_standing (s : State) (bs : List (Nat × Byte)) : (s.injectInto bs).standing = s.standing := by
  unfold State.injectInto
  split
  · rfl
  · refine foldl_standing (fun s i => ?_) _ s
    dsimp only
    split
    · rw [State.modStack_standing, State.modMem_standing]
      split <;> simp
    · rfl

@[simp] theorem State.storeBytes_standing (s : State) (bs : List (Nat × Byte)) : (s.storeBytes bs).standing = s.standing := by
  simp [State.storeBytes, foldl_standing]

@[simp] theorem State.spend_standing (s : State) (p : Option Nat) (units : Nat) : (s.spend p units).standing = s.standing := by
  unfold State.spend
  repeat' split
  all_goals simp

@[simp] theorem State.meterWrite_standing (s : State) (p : Option Nat) (k : Nat) : (s.meterWrite p k).standing = s.standing := by
  simp [State.meterWrite]

@[simp] theorem State.modSlice_standing (s : State) (k : SliceId) (f : Slice → Slice) : (s.modSlice k f).standing = s.standing := rfl

@[simp] theorem State.commitBurst_standing (s : State) (younger : List Nat) (b : Burst) : (s.commitBurst younger b).standing = s.standing := by
  unfold State.commitBurst
  simp only [State.meterWrite_standing, State.modSlice_standing]
  exact (foldl_standing (fun s w => by simp) _ _).trans (by simp)

@[simp] theorem State.settleSlices_standing (s : State) : s.settleSlices.standing = s.standing := by
  unfold State.settleSlices
  extract_lets marked decided staged t
  have ht : t.standing = s.standing := rfl
  exact (foldl_standing (fun s b => State.commitBurst_standing s [] b) (staged ++ marked) t).trans ht

@[simp] theorem State.sendFlit_standing (s : State) (n : PortId) (kind : Nat) (ws : List Word) : (s.sendFlit n kind ws).standing = s.standing := rfl

@[simp] theorem State.portTurn_standing (s : State) (n : PortId) : (s.portTurn n).standing = s.standing := by
  unfold State.portTurn
  repeat' split
  all_goals simp

@[simp] theorem State.portsDrain_standing (s : State) (n : PortId) : (s.portsDrain n).standing = s.standing := by
  unfold State.portsDrain
  refine foldl_standing (fun s x => ?_) _ _
  all_goals simp

@[simp] theorem State.modLink_standing (s : State) (i : Nat) (f : Link → Link) : (s.modLink i f).standing = s.standing := rfl

@[simp] theorem State.modGrove_standing (s : State) (g : GroveId) (f : Grove → Grove) : (s.modGrove g f).standing = s.standing := rfl

@[simp] theorem State.recordBreak_standing (s : State) (i : Nat) (code : BitVec 4) : (s.recordBreak i code).standing = s.standing := by
  unfold State.recordBreak
  dsimp only
  repeat' split
  all_goals simp

@[simp] theorem State.setBough_standing (s : State) (b : BoughId) (y : Bough) : (s.setBough b y).standing = s.standing := rfl

@[simp] theorem State.modBough_standing (s : State) (b : BoughId) (f : Bough → Bough) : (s.modBough b f).standing = s.standing := rfl

@[simp] theorem State.modRecvs_standing (s : State) (i : Nat) (f : RecvSt → RecvSt) : (s.modRecvs i f).standing = s.standing := by
  unfold State.modRecvs
  repeat' split
  all_goals simp

@[simp] theorem State.keepWhole_standing (s : State) (i : Nat) : (s.keepWhole i).standing = s.standing := by
  unfold State.keepWhole
  split
  · rfl
  · rw [State.modRecvs_standing]
    refine foldl_standing (fun s e => ?_) _ _
    split
    · dsimp only
      split_ifs <;> simp
    · rfl

@[simp] theorem State.setHalf_standing (s : State) (b : BoughId) (h : Fin 2) (x : Half) : (s.setHalf b h x).standing = s.standing := rfl

@[simp] theorem State.tryFree_standing (s : State) (b : BoughId) (h : Fin 2) : (s.tryFree b h).standing = s.standing := by
  unfold State.tryFree
  dsimp only
  split_ifs <;> rfl

@[simp] theorem State.modHalf_standing (s : State) (b : BoughId) (h : Fin 2) (f : Half → Half) : (s.modHalf b h f).standing = s.standing := rfl

@[simp] theorem State.custody_standing (s : State) (b : BoughId) (i : Nat) (p : SendSt → Bool) : (s.custody b i p).standing = s.standing := by
  simp [State.custody]

@[simp] theorem State.sendCredit_standing (s : State) (n : PortId) (tag : BitVec 32) (isQueue : Bool) (words : Nat) :
    (s.sendCredit n tag isQueue words).standing = s.standing := rfl

@[simp] theorem State.giveCredit_standing (s : State) (i : Nat) (k : Nat) : (s.giveCredit i k).standing = s.standing := by
  unfold State.giveCredit
  repeat' split
  all_goals simp

@[simp] theorem State.leaveBuffer_standing (s : State) (i : Nat) (k : Nat) : (s.leaveBuffer i k).standing = s.standing := by
  unfold State.leaveBuffer
  repeat' split
  all_goals simp

@[simp] theorem State.sinkDrop_standing (s : State) (i : Nat) : (s.sinkDrop i).standing = s.standing := by
  unfold State.sinkDrop
  repeat' split
  all_goals simp

@[simp] theorem State.sinkLinks_standing (s : State) (ls : List Nat) : (s.sinkLinks ls).standing = s.standing := by
  unfold State.sinkLinks
  refine foldl_standing (fun s x => ?_) _ _
  all_goals simp

@[simp] theorem State.sendChainData_standing (s : State) (n : PortId) (tag : BitVec 32) (ep : BitVec 16) (off : Nat) (ws : List (Word × Bool)) :
    (s.sendChainData n tag ep off ws).standing = s.standing := rfl

@[simp] theorem State.sendChainToken_standing (s : State) (n : PortId) (tag : BitVec 32) (ep : BitVec 16) (token : Nat) (len : Nat) :
    (s.sendChainToken n tag ep token len).standing = s.standing := rfl

@[simp] theorem State.sendDown_standing (s : State) (i : Nat) (m : ChainMsg) : (s.sendDown i m).standing = s.standing := by
  unfold State.sendDown
  repeat' split
  all_goals simp

@[simp] theorem abortSends_standing (xs : List SendSt) (s : State) : (abortSends xs s).standing = s.standing := by
  induction xs generalizing s with
  | nil => rfl
  | cons x xs ih =>
    rw [abortSends, ih]
    split
    · rfl
    · split_ifs <;> simp

@[simp] theorem State.discardHalf_standing (s : State) (b : BoughId) (h : Fin 2) : (s.discardHalf b h).standing = s.standing := by
  unfold State.discardHalf
  dsimp only
  repeat' split
  all_goals simp

@[simp] theorem State.discardFrom_standing (s : State) (b : BoughId) (ord : Nat) : (s.discardFrom b ord).standing = s.standing := by
  unfold State.discardFrom
  dsimp only
  repeat' split
  all_goals simp

@[simp] theorem State.takeVFault_standing (s : State) (b : BoughId) (h : Fin 2) (cause : Cause) (elem : Nat) (addr : Word) :
    (s.takeVFault b h cause elem addr).standing = s.standing := by
  simp [State.takeVFault]

@[simp] theorem State.signalBreak_standing (s : State) (b : BoughId) (h : Fin 2) (elem : Nat) (addr : Word) :
    (s.signalBreak b h elem addr).standing = s.standing := by
  unfold State.signalBreak
  repeat' split
  all_goals simp

@[simp] theorem State.breakHalf_standing (s : State) (i : Nat) (l : Link) (code : BitVec 4) (b : BoughId) (h : Fin 2) :
    (s.breakHalf i l code b h).standing = s.standing := by
  unfold State.breakHalf
  dsimp only
  repeat' split
  all_goals simp

@[simp] theorem State.breakBough_standing (s : State) (i : Nat) (l : Link) (code : BitVec 4) (b : BoughId) : (s.breakBough i l code b).standing = s.standing := by
  unfold State.breakBough
  repeat' split
  all_goals simp

@[simp] theorem State.breakLink_standing (s : State) (i : Nat) (code : BitVec 4) : (s.breakLink i code).standing = s.standing := by
  unfold State.breakLink
  repeat' split
  all_goals simp

@[simp] theorem State.breakLinks_standing (s : State) (p : Link → Bool) (code : BitVec 4) : (s.breakLinks p code).standing = s.standing := by
  unfold State.breakLinks
  refine foldl_standing (fun s x => ?_) _ _
  repeat' split
  all_goals simp

@[simp] theorem State.graftLost_standing (s : State) (n : PortId) : (s.graftLost n).standing = s.standing := by
  unfold State.graftLost
  refine foldl_standing (fun s x => ?_) _ _
  repeat' split
  all_goals simp

@[simp] theorem State.graftQueuesDown_standing (s : State) (n : PortId) : (s.graftQueuesDown n).standing = s.standing := by
  unfold State.graftQueuesDown
  refine foldl_standing (fun s x => ?_) _ _
  repeat' split
  all_goals simp

@[simp] theorem State.graftEvent_standing (s : State) (n : PortId) (bit : Nat) : (s.graftEvent n bit).standing = s.standing := by
  unfold State.graftEvent
  repeat' split
  all_goals simp

@[simp] theorem State.setGraft_standing (s : State) (n : PortId) (st : GraftSt) : (s.setGraft n st).standing = s.standing := rfl

theorem standing_with_hwd (s : State) (h : Hwd) : ({ s with hwd := h } : State).standing = s.standing := rfl

theorem State.leaves_standing (s : State) (n : PortId) (leave : Bool) :
    (if leave then (s.portsDrain n).sendFlit n fkLeave [] else s).standing = s.standing := by
  split_ifs
  · exact (State.sendFlit_standing ..).trans (State.portsDrain_standing ..)
  · rfl

@[simp] theorem State.partnerLost_standing (s : State) (n : PortId) (leave : Bool) : (s.partnerLost n leave).standing = s.standing := by
  unfold State.partnerLost
  extract_lets s0 c s2 s3 s4
  have h0 : s0.standing = s.standing := s.leaves_standing n leave
  have h2 : s2.standing = s0.standing := rfl
  have h3 : s3.standing = s2.standing := by
    unfold s3
    rw [State.breakLinks_standing]
  clear_value s3 s2 s0
  have h4 : s4.standing = s3.standing := by
    unfold s4
    rw [State.graftLost_standing, State.graftQueuesDown_standing]
  clear_value s4
  have h5 : (s4.graftEvent n 0).standing = s.standing := by
    rw [State.graftEvent_standing, h4, h3, h2, h0]
  rw [State.setGraft_standing]
  exact (standing_with_hwd _ _).trans h5

@[simp] theorem State.modPort_standing (s : State) (n : PortId) (f : HostPort → HostPort) : (s.modPort n f).standing = s.standing := rfl

@[simp] theorem State.hostEvent_standing (s : State) (n : PortId) (bit : Nat) : (s.hostEvent n bit).standing = s.standing := by
  simp [State.hostEvent]

@[simp] theorem State.aer_standing (s : State) (n : PortId) : (s.aer n).standing = s.standing := by
  simp [State.aer]

@[simp] theorem State.discardLogged_standing (s : State) (t : WTxn) : (s.discardLogged t).standing = s.standing := by
  unfold State.discardLogged
  repeat' split
  all_goals simp

@[simp] theorem State.dropTxn_standing (s : State) (id : Nat) : (s.dropTxn id).standing = s.standing := rfl

@[simp] theorem State.modTxn_standing (s : State) (i : Nat) (f : WTxn → WTxn) : (s.modTxn i f).standing = s.standing := rfl

@[simp] theorem State.discardWrites_standing (s : State) (p : WTxn → Bool) : (s.discardWrites p).standing = s.standing := by
  unfold State.discardWrites
  refine foldl_standing (fun s x => ?_) _ _
  repeat' split
  all_goals simp

@[simp] theorem State.eraseIde_standing (s : State) (n : PortId) : (s.eraseIde n).standing = s.standing := rfl

@[simp] theorem State.dropProd_standing (s : State) (q : QueueId) : (s.dropProd q).standing = s.standing := rfl

@[simp] theorem State.modVf_standing (s : State) (v : VfId) (f : Func → Func) : (s.modVf v f).standing = s.standing := rfl

@[simp] theorem State.modFunc_standing (s : State) (fn : HostFn) (f : Func → Func) : (s.modFunc fn f).standing = s.standing := by
  cases fn <;> rfl

@[simp] theorem State.resetFn_standing (s : State) (fn : HostFn) : (s.resetFn fn).standing = s.standing := by
  simp [State.resetFn]

@[simp] theorem State.loseHost_standing (s : State) (n : PortId) (surprise : Bool) : (s.loseHost n surprise).standing = s.standing := by
  unfold State.loseHost
  extract_lets fns s1 c s2 s3 s4 s5 s6 s7 s8
  have h1 : s1.standing = s.standing := State.discardWrites_standing ..
  have h3 : s3.standing = s1.standing := State.eraseIde_standing ..
  clear_value s3
  have h4 : s4.standing = s3.standing := by
    unfold s4
    refine foldl_standing (fun s q => ?_) _ _
    split
    · exact ite_standing (State.dropProd_standing ..) rfl
    · rfl
  clear_value s4
  have h5 : s5.standing = s4.standing := by
    unfold s5
    refine foldl_standing (fun s v => ?_) _ _
    split
    · exact State.plotEvent_standing ..
    · rfl
  clear_value s5
  have h6 : s6.standing = s5.standing := foldl_standing (fun s f => State.resetFn_standing s f) _ _
  clear_value s6
  have h8 : s8.standing = s6.standing := State.hostEvent_standing ..
  clear_value s8
  have h : s8.standing = s.standing := h8.trans (h6.trans (h5.trans (h4.trans (h3.trans h1))))
  exact ite_standing ((State.hostEvent_standing ..).trans h) h

end Sys2Proof.Machine
end

section
/-! SUPPORT. What a device reset does: the teardown before the core is cleared, and the state that the core clearing leaves. -/
namespace Sys2Proof.Machine
open Sys2Proof.Safety

/-- The writes that are on their way settled, the open regions closed and the reset counted. -/
def State.memSettled (s : State) : State := (s.setMap false).settleSlices.closeRegions.countReset

/-- Every graft partner and every host port lost. -/
def State.loseAll (s : State) : State :=
  let s := (List.finRange 4).foldl (fun s n => if s.grafts[n].st == .up then s.partnerLost n true else s) s
  (List.finRange 4).foldl (fun s n => if s.ports[n].linkUp then s.loseHost n true else s) s

/-- The state in which a device reset clears the core. -/
def State.tornDown (s : State) : State := s.memSettled.writeFlush.loseAll

theorem State.deviceReset_eq (s : State) (kind ch : Nat) (inside : Bool) :
    s.deviceReset kind ch inside = ((s.tornDown.coreReset false).resetCause kind ch inside).raise (.modeChange .reset) := by
  unfold State.deviceReset State.tornDown State.memSettled State.loseAll
  rfl

@[simp] theorem State.countReset_standing (s : State) : s.countReset.standing = s.standing := by
  unfold State.countReset
  refine foldl_standing (fun s m => ?_) _ s
  rw [State.modPlot_standing, State.recFlag_standing]

theorem State.memSettled_standing (s : State) : s.memSettled.standing = s.standing := by
  simp [State.memSettled]

theorem State.writeFlush_standing (s : State) : s.writeFlush.standing = { s.standing with flush := s.writeFlush.ring.flush } := by
  unfold State.writeFlush
  split <;> rfl

theorem State.loseAll_standing (s : State) : s.loseAll.standing = s.standing :=
  (foldl_standing (fun s n => ite_standing (State.loseHost_standing s n true) rfl) _ _).trans
    (foldl_standing (fun s n => ite_standing (State.partnerLost_standing s n true) rfl) _ _)

theorem State.flush_of_standing {s t : State} (h : s.standing = t.standing) : s.ring.flush = t.ring.flush := congrArg Standing.flush h

theorem State.restoreDue_of_standing {s t : State} (h : s.standing = t.standing) : s.sys.restoreDue = t.sys.restoreDue :=
  congrArg (fun x : Standing => x.sys.restoreDue) h

theorem State.tick_of_standing {s t : State} (h : s.standing = t.standing) : s.ring.tick = t.ring.tick := congrArg Standing.tick h

theorem State.tornDown_flush_eq (s : State) : s.tornDown.ring.flush = s.memSettled.writeFlush.ring.flush :=
  State.flush_of_standing s.memSettled.writeFlush.loseAll_standing

theorem State.tornDown_standing (s : State) : s.tornDown.standing = { s.standing with flush := s.tornDown.ring.flush } := by
  rw [State.tornDown_flush_eq, State.tornDown, State.loseAll_standing, State.writeFlush_standing, State.memSettled_standing]

theorem State.writeFlush_flush {s : State} (h : s.sys.restoreDue = none) : s.writeFlush.ring.flush.map (·.tick) = some s.ring.tick := by
  unfold State.writeFlush
  rw [h]
  rfl

theorem State.tornDown_flush {s : State} (h : s.sys.restoreDue = none) : s.tornDown.ring.flush.map (·.tick) = some s.ring.tick := by
  have hsettled := s.memSettled_standing
  rw [State.tornDown_flush_eq, State.writeFlush_flush ((State.restoreDue_of_standing hsettled).trans h), State.tick_of_standing hsettled]

theorem State.read_applyDead (s : State) (b : BoughId) (a : Nat) : (s.applyDead b).mem.read a = s.mem.read a := by
  unfold State.applyDead
  generalize s.scr[b] = x
  rw [State.modMem_mem]
  refine Memory.read_foldl _ (fun m q a => ?_) _ s.mem a
  split <;> rfl

theorem State.read_restoreRegion (s : State) (b : BoughId) (failed : BitVec 4) (a : Nat) : (s.restoreRegion b failed).mem.read a = s.mem.read a := by
  unfold State.restoreRegion
  extract_lets x n t
  have ht : t.mem = s.mem := foldl_mem (fun s _ => ite_mem (State.rowFailed_mem s b _) rfl) _ s
  clear_value t
  rw [State.read_applyDead, State.modScr_mem, ht]

theorem foldl_read {α : Type} {f : State → α → State} {x : Nat} (h : ∀ s a, (f s a).mem.read x = s.mem.read x) (l : List α) (s : State) :
    (l.foldl f s).mem.read x = s.mem.read x := by
  induction l generalizing s with
  | nil => rfl
  | cons a l ih => exact (ih (f s a)).trans (h s a)

theorem State.read_closeRegions (s : State) (a : Nat) : s.closeRegions.mem.read a = s.mem.read a := by
  unfold State.closeRegions
  refine foldl_read (fun s b => ?_) _ s
  split
  · exact State.read_restoreRegion ..
  · rfl

/-- With no write on its way to the slices, settling them writes nothing. -/
theorem State.settleSlices_mem_of_idle {s : State} (hheld : s.heldWrites = []) (hidle : ∀ k : SliceId, s.slices[k].inbox = [] ∧ s.slices[k].staging = []) :
    s.settleSlices.mem = s.mem := by
  have hslice : ∀ k ∈ s.slices.toList, k.inbox = [] ∧ k.staging = [] := by
    intro k hk
    obtain ⟨i, hi, rfl⟩ := List.mem_iff_getElem.mp hk
    rw [Vector.getElem_toList]
    exact hidle ⟨i, by simpa using hi⟩
  unfold State.settleSlices
  extract_lets marked decided staged t
  have hmarked : marked = [] := by
    unfold marked
    rw [hheld]
    exact List.flatMap_eq_nil_iff.mpr fun k hk => by rw [(hslice k hk).1]; rfl
  have hstaged : staged = [] := List.flatMap_eq_nil_iff.mpr fun k hk => by rw [(hslice k hk).2]; rfl
  rw [hmarked, hstaged]
  rfl

theorem Memory.read_lose (m : Memory) (p : Nat → Bool) {a : Nat} (hkept : p (zoneOf a) = false) (ha : a < rootSize) (hroot : (List.range 512).any p = false) :
    (m.lose p).read a = m.read a := by
  have hlisted : (m.lose p).listed a = m.listed a := by
    have hfind : (m.cells.filter fun c => !p (zoneOf c.1)).find? (fun c => c.1 = a) = m.cells.find? (fun c => c.1 = a) := by
      rw [List.find?_filter]
      refine List.find?_congr fun c _ => ?_
      by_cases hc : c.1 = a
      · rw [hc, hkept]; simp
      · simp [hc]
    exact congrArg (fun c => c.map (·.2)) hfind
  have hzero : (m.lose p).isZeroed (zoneOf a) = m.isZeroed (zoneOf a) := by
    rw [Bool.eq_iff_iff]
    simp [Memory.isZeroed, Memory.lose, hkept]
  have hunlisted : (m.lose p).unlisted a = m.unlisted a := by
    unfold Memory.unlisted
    rw [hzero, if_pos ha, if_pos ha]
    unfold Memory.lose
    rw [hroot]
    rfl
  rw [Memory.read, Memory.read, hlisted, hunlisted]

theorem State.coreReset_mem (s : State) (lost : Bool) :
    (s.coreReset lost).mem = { s.mem.lose (fun z => lost || decide (512 ≤ z)) with dead := [] } := rfl

theorem Memory.read_none_dead (m : Memory) (a : Nat) : ({ m with dead := [] } : Memory).read a = m.read a := rfl

theorem State.coreReset_read (s : State) {a : Nat} (ha : a < rootSize) : (s.coreReset false).mem.read a = s.mem.read a := by
  have hzone := zoneOf_lt_of_lt_rootSize ha
  rw [State.coreReset_mem, Memory.read_none_dead, Memory.read_lose s.mem _ (by simpa using hzone) ha (by simp)]

theorem State.tornDown_read {s : State} (hlin : s.linearInForce = false) (hheld : s.heldWrites = [])
    (hidle : ∀ k : SliceId, s.slices[k].inbox = [] ∧ s.slices[k].staging = []) (a : Nat) : s.tornDown.mem.read a = s.mem.read a := by
  have hlost : s.tornDown.mem = s.memSettled.writeFlush.mem :=
    (foldl_mem (fun s n => ite_mem (State.loseHost_mem s n true) rfl) _ _).trans (foldl_mem (fun s n => ite_mem (State.partnerLost_mem s n true) rfl) _ _)
  rw [hlost, State.writeFlush_mem, State.memSettled, State.countReset_mem, State.read_closeRegions, State.setMap_of_eq hlin.symm, State.settleSlices_mem_of_idle hheld hidle]

/-- What a core clearing leaves in a state, whatever the reset was. -/
structure CoreCleared (s t : State) : Prop where
  mode : t.sys.mode = .reset
  boughs : t.boughs = State.reset.boughs
  queues : t.queues = State.reset.queues
  links : t.links = []
  active : t.grn.active = none
  vfs : t.vfs = State.reset.vfs
  crn : t.crn = State.reset.crn
  level : t.pwr.level = 3
  locked : t.pwr.locked = false
  tick : t.ring.tick = s.ring.tick
  offset : t.ring.offset = s.ring.offset
  alarm : t.pwr.alarm = s.pwr.alarm
  slots : t.grn.slots = s.grn.slots
  owner : t.grn.owner = s.grn.owner
  floor : t.grn.floor = s.grn.floor
  pending : t.pending = s.pending
  count : t.sys.count = satAdd 16 s.sys.count 1

theorem State.coreReset_cleared (s : State) (lost : Bool) (kind ch : Nat) (inside : Bool) : CoreCleared s ((s.coreReset lost).resetCause kind ch inside) :=
  ⟨rfl, rfl, rfl, rfl, rfl, rfl, rfl, rfl, rfl, rfl, rfl, rfl, rfl, rfl, rfl, rfl, rfl⟩

theorem CoreCleared.of_standing {s s' t : State} {f : Option FlushArea} (h : CoreCleared s' t) (hst : s'.standing = { s.standing with flush := f }) : CoreCleared s t :=
  { h with
    tick := h.tick.trans (congrArg Standing.tick hst)
    offset := h.offset.trans (congrArg Standing.offset hst)
    alarm := h.alarm.trans (congrArg (fun x : Standing => x.pwr.alarm) hst)
    slots := h.slots.trans (congrArg (fun x : Standing => x.grn.slots) hst)
    owner := h.owner.trans (congrArg (fun x : Standing => x.grn.owner) hst)
    floor := h.floor.trans (congrArg (fun x : Standing => x.grn.floor) hst)
    pending := h.pending.trans (congrArg Standing.pending hst)
    count := h.count.trans (congrArg (fun x : Standing => satAdd 16 x.sys.count 1) hst) }

/-- What a device reset that keeps root memory leaves. -/
structure DeviceReset (s : State) (kind ch : Nat) (inside : Bool) (t : State) : Prop where
  core : CoreCleared s t
  kind : t.sys.kind = BitVec.ofNat 3 kind
  channel : t.sys.channel = BitVec.ofNat 3 ch
  inside : t.sys.internalReset = inside
  resetN : t.sys.resetN = s.sys.resetN
  resets : t.ring.rings[(23 : Fin 32)] = s.ring.rings[(23 : Fin 32)]
  flushed : s.sys.restoreDue = none → t.ring.flush.map (fun f => f.tick) = some s.ring.tick
  rootKept : s.linearInForce = false → s.heldWrites = [] → (∀ k : SliceId, s.slices[k].inbox = [] ∧ s.slices[k].staging = []) →
    ∀ a, a < rootSize → t.mem.read a = s.mem.read a

theorem State.deviceReset_spec (s : State) (kind ch : Nat) (inside : Bool) : DeviceReset s kind ch inside (s.deviceReset kind ch inside) := by
  have hst := s.tornDown_standing
  have hflush := State.tornDown_flush (s := s)
  have hread := State.tornDown_read (s := s)
  rw [State.deviceReset_eq]
  generalize s.tornDown = t at hst hflush hread
  refine ⟨?core, rfl, rfl, rfl, (congrArg (fun x : Standing => x.sys.resetN) hst :), (congrArg Standing.resets hst :), hflush, fun hlin hheld hidle a ha => ?root⟩
  case core =>
    obtain ⟨⟩ := (t.coreReset_cleared false kind ch inside).of_standing hst
    constructor <;> assumption
  case root => exact (t.coreReset_read ha).trans (hread hlin hheld hidle a)

end Sys2Proof.Machine
end

section
/-! SUPPORT. The commands that start a device reset, end it and begin BOOT; and the settling of O48. -/
namespace Sys2Proof.Machine
open Sys2Proof.Safety

theorem satAdd_sixteen_one (x : BitVec 16) : satAdd 16 x 1 = if x.toNat < 65535 then x + 1 else x := by
  rw [satAdd_one]
  by_cases hx : x = BitVec.allOnes 16
  · subst hx; rfl
  · have hlt : x.toNat < 65535 := by
      have hne : x.toNat ≠ 65535 := fun h => hx (BitVec.eq_of_toNat_eq h)
      have := x.isLt
      omega
    rw [if_neg hx, if_pos hlt]

theorem State.bootAllowed_iff (s : State) : s.bootAllowed = true ↔
    s.sys.mode = .reset ∧ s.sys.resetN = false ∧ s.pwr.refclkOk = true ∧ s.sys.aonGood = true ∧ s.sys.trip = false := by
  simp [State.bootAllowed, and_assoc]

theorem State.tryBoot_of_allowed {s : State} (hallowed : s.bootAllowed = true) (hinside : s.sys.internalReset = false) : s.tryBoot = s.enterBoot := by
  simp [State.tryBoot, hallowed, hinside]

theorem State.tryBoot_of_not_allowed {s : State} (hallowed : s.bootAllowed = false) : s.tryBoot = s := by
  simp [State.tryBoot, hallowed]

/-- What the beginning of BOOT leaves of the state s. -/
structure Booted (s t : State) : Prop where
  mode : t.sys.mode = .boot
  bootStep : t.sys.bootStep = 0
  inside : t.sys.internalReset = false
  resetN : t.sys.resetN = s.sys.resetN
  level : t.pwr.level = 3
  refclk : t.pwr.refclkOk = s.pwr.refclkOk
  mem : t.mem = s.mem
  boughs : t.boughs = s.boughs

theorem State.enterBoot_booted {s : State} (hlin : s.linearInForce = false) : Booted s s.enterBoot := by
  unfold State.enterBoot
  rw [State.setMode_of_mapped (s := { s with
    sys := { s.sys with bootStep := 0, bootStart := 0, fwFallback := false, internalReset := false }
    ports := s.ports.map fun (p : HostPort) => { p with trainLate := !p.perst }
    pwr := { s.pwr with req := 3, level := 3, lvl := .idle } }) hlin]
  exact ⟨rfl, rfl, rfl, rfl, rfl, rfl, rfl, rfl⟩

theorem State.tryBoot_booted {s : State} (hallowed : s.bootAllowed = true) (hinside : s.sys.internalReset = false) (hlin : s.linearInForce = false) :
    Booted s s.tryBoot := by
  rw [State.tryBoot_of_allowed hallowed hinside]
  exact State.enterBoot_booted hlin

/-- A REFCLK loss clears the core and every memory, and writes the flush when no restoration is due. -/
structure RefclkReset (s t : State) : Prop where
  core : CoreCleared s t
  kind : t.sys.kind = 4
  refclk : t.pwr.refclkOk = s.pwr.refclkOk
  flushed : s.sys.restoreDue = none → t.ring.flush.map (fun f => f.tick) = some s.ring.tick
  cells : t.mem.cells = []
  zeroed : t.mem.zeroed = []

theorem State.refclkReset_spec (s : State) : RefclkReset s s.refclkReset := by
  have hsettled : (s.setMap false).countReset.standing = s.standing := by simp
  have hst : (s.setMap false).countReset.writeFlush.standing = { s.standing with flush := (s.setMap false).countReset.writeFlush.ring.flush } := by
    rw [State.writeFlush_standing, hsettled]
  have hflush : s.sys.restoreDue = none → (s.setMap false).countReset.writeFlush.ring.flush.map (·.tick) = some s.ring.tick := fun h => by
    rw [State.writeFlush_flush ((State.restoreDue_of_standing hsettled).trans h), State.tick_of_standing hsettled]
  unfold State.refclkReset
  generalize (s.setMap false).countReset.writeFlush = t at hst hflush
  refine ⟨?core, rfl, (congrArg (fun x : Standing => x.pwr.refclkOk) hst :), hflush, ?cells, ?zeroed⟩
  case core =>
    obtain ⟨⟩ := (t.coreReset_cleared true 4 0 false).of_standing hst
    constructor <;> assumption
  case cells =>
    show (t.coreReset true).mem.cells = []
    rw [State.coreReset_mem]
    exact Memory.cells_lose_all t.mem
  case zeroed =>
    show (t.coreReset true).mem.zeroed = []
    rw [State.coreReset_mem]
    exact Memory.zeroed_lose_all t.mem

theorem State.wdogDue_iff (s : State) : s.wdogDue = true ↔ s.sys.mode ≠ .reset ∧
    ((s.crn.armed = true ∧ s.crn.remain = 0) ∨ (∃ k : CoreId, s.crn.cores[k].run = .halted ∧ s.crn.haltBits.getLsbD k.val = false) ∨
      ∀ k : CoreId, s.crn.cores[k].run = .halted) := by
  simp [State.wdogDue, State.coreFaulted, or_assoc]

theorem State.wdogDue_of_running {s : State} (hcount : s.crn.armed = false ∨ s.crn.remain ≠ 0) (hrun : ∀ k : CoreId, s.crn.cores[k].run ≠ .halted) :
    s.wdogDue = false := by
  rw [Bool.eq_false_iff, Ne, State.wdogDue_iff]
  rintro ⟨-, ⟨harmed, hremain⟩ | ⟨k, hk, -⟩ | hall⟩
  · exact hcount.elim (fun h => absurd (harmed.symm.trans h) (by decide)) (fun h => h hremain)
  · exact hrun k hk
  · exact hrun 0 (hall 0)

theorem State.awake_iff (s : State) : s.awake = true ↔ s.sys.mode ≠ .reset ∧ s.sys.mode ≠ .dormant := by
  unfold State.awake
  cases s.sys.mode <;> simp

/-- A count in ring 23 leaves what a core clearing left. -/
theorem CoreCleared.of_ringAdd {s t : State} (h : CoreCleared s t) : CoreCleared s (t.ringAdd 23 1) := by
  rw [show t.ringAdd 23 1 = _ from t.ringAdd_val (23 : Fin 32) 1]
  obtain ⟨⟩ := h
  constructor <;> assumption

theorem State.pwrEvent_bit (s : State) {bit : Nat} (h : bit < 7) : (s.pwrEvent bit).pwr.event.getLsbD bit = true := by
  obtain ⟨evts, heq⟩ := s.pwrEvent_eq bit
  rw [heq]
  exact getLsbD_withBit_self _ h

/-- A DeviceReset that a count in ring 23 follows. -/
theorem DeviceReset.of_ringAdd {s t : State} {kind ch : Nat} {inside : Bool} (h : DeviceReset s kind ch inside t) :
    CoreCleared s (t.ringAdd 23 1) ∧ (t.ringAdd 23 1).sys = t.sys ∧ (t.ringAdd 23 1).ring.flush = t.ring.flush ∧ (t.ringAdd 23 1).mem = t.mem ∧
      (t.ringAdd 23 1).ring.rings[(23 : Fin 32)] =
        if s.ring.rings[(23 : Fin 32)] = BitVec.allOnes 64 then BitVec.allOnes 64 else s.ring.rings[(23 : Fin 32)] + 1 := by
  have heq : t.ringAdd 23 1 = _ := t.ringAdd_val (23 : Fin 32) 1
  refine ⟨h.core.of_ringAdd, by rw [heq], by rw [heq], by rw [heq], (t.rings_ringAdd_one 23 23).trans ?_⟩
  rw [h.resets]
  by_cases hfull : s.ring.rings[(23 : Fin 32)] = BitVec.allOnes 64
  · rw [if_pos hfull, if_neg (fun hne => hne.2 hfull), hfull]
  · rw [if_neg hfull, if_pos ⟨rfl, hfull⟩]

/-- What the statement asks of every device reset, from the state s. -/
theorem CoreCleared.stated {s t : State} (h : CoreCleared s t) :
    t.sys.mode = .reset ∧ t.boughs = State.reset.boughs ∧ t.queues = State.reset.queues ∧ t.links = [] ∧ t.grn.active = none ∧ t.vfs = State.reset.vfs ∧
      t.crn = State.reset.crn ∧ t.pwr.level = 3 ∧ t.pwr.locked = false ∧ t.ring.tick = s.ring.tick ∧ t.ring.offset = s.ring.offset ∧ t.pwr.alarm = s.pwr.alarm ∧
      t.grn.slots = s.grn.slots ∧ t.grn.owner = s.grn.owner ∧ t.grn.floor = s.grn.floor ∧ t.pending = s.pending ∧
      t.sys.count = (if s.sys.count.toNat < 65535 then s.sys.count + 1 else s.sys.count) :=
  ⟨h.mode, h.boughs, h.queues, h.links, h.active, h.vfs, h.crn, h.level, h.locked, h.tick, h.offset, h.alarm, h.slots, h.owner, h.floor, h.pending,
    h.count.trans (satAdd_sixteen_one _)⟩

/-- A change of the power or mode state before the reset that keeps what the core clearing keeps. -/
theorem CoreCleared.of_start {s u t : State} (h : CoreCleared u t) (htick : u.ring = s.ring) (hgrn : u.grn = s.grn) (hpending : u.pending = s.pending)
    (halarm : u.pwr.alarm = s.pwr.alarm) (hcount : u.sys.count = s.sys.count) : CoreCleared s t :=
  { h with
    tick := h.tick.trans (by rw [htick])
    offset := h.offset.trans (by rw [htick])
    alarm := h.alarm.trans halarm
    slots := h.slots.trans (by rw [hgrn])
    owner := h.owner.trans (by rw [hgrn])
    floor := h.floor.trans (by rw [hgrn])
    pending := h.pending.trans hpending
    count := h.count.trans (by rw [hcount]) }

theorem CoreCleared.of_pwrEvent {s t : State} (h : CoreCleared s t) (bit : Nat) : CoreCleared s (t.pwrEvent bit) := by
  obtain ⟨evts, heq⟩ := t.pwrEvent_eq bit
  rw [heq]
  obtain ⟨⟩ := h
  constructor <;> assumption

end Sys2Proof.Machine
open Sys2Proof Sys2Proof.Machine Sys2Proof.Safety

/-- Settles O48: a device reset clears the core after a teardown that keeps what stands, and BOOT begins when the reset's causes are gone. -/
theorem deviceResets : Obligations.DeviceResets := by
  unfold Obligations.DeviceResets
  intro s
  dsimp only
  refine ⟨fun hmode => ?assert, fun hmode => ?prolong, fun ⟨hmode, hrefclk, haon, htrip⟩ hinside hlin => ?release, fun hmode => ?running,
    fun ⟨hmode, hrefclk, haon, htrip⟩ hinside hresetN hlin => ?complete, fun ⟨hmode, hrefclk, haon, htrip⟩ hinside hresetN => ?held, fun hrefclk hmode => ?refclk,
    fun haon hmode htrip hresetN hinside hlin => ?restore, fun hmode hdue => ?watchdog, fun hcount hrun => ?quiet, fun hreset hdormant => ?kick⟩
  case assert =>
    have h := (s.modSys fun x => { x with resetN := true }).deviceReset_spec 1 0 false
    refine ⟨_, (if_neg hmode : execResetNAssert s = _), ?_⟩
    exact ⟨(h.core.of_start (s := s) rfl rfl rfl rfl rfl).stated, h.rootKept, h.flushed, h.kind, h.resetN⟩
  case prolong => exact ⟨_, (if_pos hmode : execResetNAssert s = _), rfl⟩
  case release =>
    have h : Booted (s.modSys fun x => { x with resetN := false }) _ :=
      State.tryBoot_booted ((State.bootAllowed_iff _).mpr ⟨hmode, rfl, hrefclk, haon, htrip⟩) hinside hlin
    exact ⟨_, rfl, ⟨h.mode, h.bootStep, h.level, h.mem, h.boughs⟩, h.resetN⟩
  case running =>
    refine ⟨_, rfl, State.tryBoot_of_not_allowed ?_⟩
    exact Bool.eq_false_iff.mpr fun h => hmode ((State.bootAllowed_iff _).mp h).1
  case complete =>
    have h : Booted (s.modSys fun x => { x with internalReset := false }) _ :=
      State.tryBoot_booted ((State.bootAllowed_iff _).mpr ⟨hmode, hresetN, hrefclk, haon, htrip⟩) rfl hlin
    exact ⟨_, (if_pos ⟨hmode, hinside⟩ : execCoreResetComplete s = _), ⟨h.mode, h.bootStep, h.level, h.mem, h.boughs⟩, h.inside⟩
  case held =>
    refine ⟨_, (if_pos ⟨hmode, hinside⟩ : execCoreResetComplete s = _), State.tryBoot_of_not_allowed ?_⟩
    exact Bool.eq_false_iff.mpr fun h => absurd (hresetN.symm.trans ((State.bootAllowed_iff _).mp h).2.1) (by decide)
  case refclk =>
    have h := (s.modPwr fun p => { p with refclkOk := false, locked := false }).refclkReset_spec
    refine ⟨_, (if_pos ⟨hrefclk, hmode⟩ : execRefclkLoss s = _), ((h.core.of_start (s := s) rfl rfl rfl rfl rfl).of_pwrEvent 6).stated, ?rest⟩
    have hbit := State.pwrEvent_bit (s.modPwr fun p => { p with refclkOk := false, locked := false }).refclkReset (bit := 6) (by decide)
    obtain ⟨evts, heq⟩ := (s.modPwr fun p => { p with refclkOk := false, locked := false }).refclkReset.pwrEvent_eq 6
    rw [heq] at hbit ⊢
    exact ⟨h.flushed, h.kind, h.refclk, h.cells, h.zeroed, hbit⟩
  case restore =>
    have h : Booted (s.modPwr fun p => { p with refclkOk := true }) _ :=
      State.tryBoot_booted ((State.bootAllowed_iff _).mpr ⟨hmode, hresetN, rfl, haon, htrip⟩) hinside hlin
    exact ⟨_, (if_pos haon : execRefclkRestore s = _), ⟨h.mode, h.bootStep, h.level, h.mem, h.boughs⟩, h.refclk⟩
  case watchdog =>
    have h := s.deviceReset_spec 2 0 true
    obtain ⟨hcore, hsys, hflush, hmem, hring⟩ := h.of_ringAdd
    refine ⟨_, (if_pos (s.wdogDue_iff.mpr ⟨hmode, hdue⟩) : execWatchdogExpiry s = _), hcore.stated, ?_⟩
    rw [hsys, hflush, hmem]
    exact ⟨h.rootKept, h.flushed, h.kind, h.inside, hring⟩
  case quiet =>
    exact ⟨s, if_neg (Bool.eq_false_iff.mp (State.wdogDue_of_running hcount hrun)), rfl⟩
  case kick => exact ⟨_, (if_pos (s.awake_iff.mpr ⟨hreset, hdormant⟩) : execKick s = _), rfl⟩
end

section
/-! SUPPORT. How a drain ends in SERVICE, and how a halted core restarts; and the settling of O50. -/
namespace Sys2Proof.Machine
open Sys2Proof.Safety

/-- From s to t only mailbox channels have changed. -/
structure ServesChans (s t : State) : Prop where
  frame : { t with crn := { t.crn with chans := s.crn.chans } } = s

theorem ServesChans.refl (s : State) : ServesChans s s := ⟨rfl⟩

theorem State.finishChan_serves (s : State) (ch : Fin 5) (code detail words : Nat) : ServesChans s (s.finishChan ch code detail words) := ⟨rfl⟩

theorem ServesChans.trans {s t u : State} (h : ServesChans s t) (h' : ServesChans t u) : ServesChans s u :=
  ⟨(congrArg (fun x : State => { x with crn := { x.crn with chans := s.crn.chans } }) h'.frame :).trans h.frame⟩

theorem foldl_finish_serves (op : Nat) (code : Nat) (l : List (Fin 5)) (s : State) :
    ServesChans s (l.foldl (fun (s : State) c => if s.crn.chans[c].busy && s.crn.chans[c].op.toNat == op then s.finishChan c code 0 0 else s) s) := by
  induction l generalizing s with
  | nil => exact .refl s
  | cons c l ih =>
    refine ServesChans.trans ?_ (ih _)
    dsimp only
    split
    · exact s.finishChan_serves ..
    · exact .refl s

theorem State.finishOps_serves (s : State) (op code : Nat) : ServesChans s (s.finishOps op code) := foldl_finish_serves op code _ s

/-- The channel after its operation has finished. -/
def Chan.finished (c : Chan) (code : Nat) : Chan := { c with go := false, busy := false, code := BitVec.ofNat 8 code, detail := 0, words := 0 }

theorem foldl_finish_chan (op : Nat) (code : Nat) {l : List (Fin 5)} (hl : l.Nodup) (s : State) (c : Fin 5) :
    (l.foldl (fun (s : State) c => if s.crn.chans[c].busy && s.crn.chans[c].op.toNat == op then s.finishChan c code 0 0 else s) s).crn.chans[c] =
      if c ∈ l ∧ s.crn.chans[c].busy = true ∧ s.crn.chans[c].op.toNat = op then s.crn.chans[c].finished code else s.crn.chans[c] := by
  induction l generalizing s with
  | nil => simp
  | cons d l ih =>
    have hnot : d ∉ l := (List.nodup_cons.mp hl).1
    rw [List.foldl_cons, ih (List.nodup_cons.mp hl).2]
    by_cases hd : (s.crn.chans[d].busy && s.crn.chans[d].op.toNat == op) = true
    · rw [if_pos hd]
      obtain rfl | hne := eq_or_ne c d
      · have hself : (s.finishChan c code 0 0).crn.chans[c] = s.crn.chans[c].finished code := vmod_get_self _ _ _
        rw [if_neg (fun h => hnot h.1), if_pos ⟨List.mem_cons_self, by simpa using hd⟩, hself]
      · have hother : (s.finishChan d code 0 0).crn.chans[c] = s.crn.chans[c] := vmod_get_ne _ _ hne
        rw [hother]
        simp only [List.mem_cons, hne, false_or]
    · rw [if_neg hd]
      obtain rfl | hne := eq_or_ne c d
      · have hd' : ¬ (s.crn.chans[c].busy = true ∧ s.crn.chans[c].op.toNat = op) := by simpa using hd
        rw [if_neg (fun h => hd' h.2), if_neg (fun h => hd' h.2)]
      · simp only [List.mem_cons, hne, false_or]

theorem State.finishOps_chan (s : State) (op code : Nat) (c : Fin 5) :
    (s.finishOps op code).crn.chans[c] =
      if s.crn.chans[c].busy = true ∧ s.crn.chans[c].op.toNat = op then s.crn.chans[c].finished code else s.crn.chans[c] := by
  refine (foldl_finish_chan op code (List.nodup_finRange 5) s c).trans ?_
  simp only [List.mem_finRange, true_and]

theorem State.sys_of_standing {s t : State} (h : s.standing = t.standing) : s.sys = t.sys := congrArg Standing.sys h

theorem State.crn_of_standing {s t : State} (h : s.standing = t.standing) : s.crn = t.crn := congrArg Standing.crn h

@[simp] theorem State.closeAt_standing (s : State) (p : PlotId) (flags : Word) : (s.closeAt p flags).standing = s.standing := by
  unfold State.closeAt State.closeRecord
  split
  · rfl
  · exact State.emitItem_standing ..

/-- What the image's end leaves, whatever the state was: no image, no link, no plot; the mode and the crown are as they were. -/
structure Undefined (s t : State) : Prop where
  active : t.grn.active = none
  links : t.links = []
  plots : ∀ p : PlotId, t.plots[p].st = .undefined
  sys : t.sys = s.sys
  crn : t.crn = s.crn

theorem State.undefine_undefined (s : State) : Undefined s s.undefine := by
  unfold State.undefine
  extract_lets s1 s2 s3
  have h1 : s1.standing = s.standing := foldl_standing (fun s n => ite_standing (State.partnerLost_standing s n true) rfl) _ _
  clear_value s1
  have h2 : s2.standing = s1.standing := foldl_standing (fun s n => State.setGraft_standing s n .off) _ _
  clear_value s2
  have h3 : s3.standing = s2.standing := by
    unfold s3
    refine foldl_standing (fun s m => ?_) _ _
    exact State.closeAt_standing ..
  clear_value s3
  have h : s3.standing = s.standing := h3.trans (h2.trans h1)
  have hsys : s3.sys = s.sys := State.sys_of_standing h
  have hcrn : s3.crn = s.crn := State.crn_of_standing h
  clear h h1 h2 h3
  refine ⟨rfl, rfl, fun p => ?_, hsys, hcrn⟩
  simp

/-- The entry of SERVICE: the ACTIVATE that waited is answered, the image is undefined, and the ENTER_SERVICE is answered. -/
structure InService (s t : State) : Prop where
  mode : t.sys.mode = .service
  drainFor : t.sys.drainFor = none
  active : t.grn.active = none
  links : t.links = []
  mem : t.mem = s.mem
  plots : ∀ p : PlotId, t.plots[p].st = .undefined
  answered : ∀ c : Fin 5, s.crn.chans[c].busy = true → s.crn.chans[c].op = 3 → t.crn.chans[c].go = false ∧ t.crn.chans[c].code = 0

theorem State.toServiceMode_spec (s : State) : InService s s.toServiceMode := by
  have hun := (s.finishOps 6 8).undefine_undefined
  have hmem : (s.finishOps 6 8).undefine.mem = s.mem := by rw [State.undefine_mem, State.finishOps_mem]
  have hchan := s.finishOps_chan 6 8
  unfold State.toServiceMode
  generalize s.finishOps 6 8 = u at hun hmem hchan
  generalize u.undefine = v at hun hmem
  have hserves := ((v.modSys fun x => { x with drainFor := none }).setMode .service).finishOps_serves 3 0
  have hset : (v.modSys fun x => { x with drainFor := none }).setMode .service =
      { v with sys := { v.sys with drainFor := none, mode := .service } }.raise (.modeChange .service) := rfl
  rw [hset] at hserves ⊢
  have hfin := State.finishOps_chan ({ v with sys := { v.sys with drainFor := none, mode := .service } }.raise (.modeChange .service)) 3 0
  generalize hw : State.finishOps _ 3 0 = w at hserves hfin
  have hframe := hserves.frame
  refine ⟨(congrArg (fun x => x.sys.mode) hframe :), (congrArg (fun x => x.sys.drainFor) hframe :), (congrArg (fun x => x.grn.active) hframe :).trans hun.active,
    (congrArg State.links hframe :).trans hun.links, (congrArg State.mem hframe :).trans hmem,
    fun p => (congrArg (fun x => x.plots[p].st) hframe :).trans (hun.plots p), fun c hbusy hop => ?_⟩
  have hsame : v.crn.chans[c] = s.crn.chans[c] := by
    rw [hun.crn, hchan c, if_neg]
    rintro ⟨-, h⟩
    rw [hop] at h
    exact absurd h (by decide)
  have hdone : w.crn.chans[c] = s.crn.chans[c].finished 0 := by
    refine (hfin c).trans ?_
    show (if v.crn.chans[c].busy = true ∧ v.crn.chans[c].op.toNat = 3 then v.crn.chans[c].finished 0 else v.crn.chans[c]) = _
    rw [hsame, if_pos ⟨hbusy, by rw [hop]; rfl⟩]
  rw [hdone]
  exact ⟨rfl, rfl⟩

/-- The port of a core and its restart request, set before the core may start. -/
def State.restartAsked (s : State) (k : CoreId) : State :=
  { s with cnp := { s.cnp with crownAbsorb := withBit s.cnp.crownAbsorb k.val }, crn := { s.crn with restartBits := withBit s.crn.restartBits k.val } }

theorem State.restartCore_of_running {s : State} {k : CoreId} (h : s.crn.haltBits.getLsbD k.val = false) : s.restartCore k = s :=
  if_neg (Bool.eq_false_iff.mp h)

theorem State.restartCore_of_clean {s : State} {k : CoreId} (h : s.crn.haltBits.getLsbD k.val = true) (hclean : s.masterClean (.crown k) = true) :
    s.restartCore k = (s.restartAsked k).startCore k :=
  (if_pos h).trans (if_pos (show (s.restartAsked k).masterClean (.crown k) = true from hclean))

theorem State.restartCore_of_unclean {s : State} {k : CoreId} (h : s.crn.haltBits.getLsbD k.val = true) (hclean : s.masterClean (.crown k) = false) :
    s.restartCore k = s.restartAsked k :=
  (if_pos h).trans (if_neg (Bool.eq_false_iff.mp (show (s.restartAsked k).masterClean (.crown k) = false from hclean)))

/-- The registers of a twig that starts are zero. -/
theorem Twig.reg_start (r : GReg) : (Twig.start .running).reg r = 0 := by
  revert r
  decide

end Sys2Proof.Machine
open Sys2Proof Sys2Proof.Machine Sys2Proof.Safety

/-- Settles O50: the end of each drain, and the restart of a halted core, by the clean test of its port. -/
theorem drainsAndRestart : Obligations.DrainsAndRestart := by
  unfold Obligations.DrainsAndRestart
  intro s
  refine ⟨fun hmode hlin => ⟨fun hbusy => ?busy, fun hdrained => ⟨fun hfor => ?activation, fun hfor => ?service, fun ch hfor => ?reset⟩⟩,
    fun hmode => ⟨s, if_neg (fun h => hmode h.1), rfl⟩,
    fun k hreset hdormant => ⟨fun hhalt => ?running, fun hhalt => ⟨fun hclean => ?clean, fun hclean => ?unclean⟩⟩⟩
  case busy => exact ⟨s, if_neg (fun h => Bool.eq_false_iff.mp hbusy h.2), rfl⟩
  case activation =>
    have hexec : exec .modeDrainComplete s = .next ((s.modSys fun x => { x with drainFor := none, bootStart := s.ring.tick }).setMode .load) := by
      rw [show exec .modeDrainComplete s = execModeDrainComplete s from rfl, execModeDrainComplete, if_pos ⟨hmode, hdrained⟩, hfor]
    refine ⟨_, hexec, ?_⟩
    rw [State.setMode_of_mapped (s := s.modSys fun x => { x with drainFor := none, bootStart := s.ring.tick }) hlin]
    exact ⟨rfl, rfl, rfl, rfl, rfl, rfl⟩
  case service =>
    have hexec : exec .modeDrainComplete s = .next s.toServiceMode := by
      rw [show exec .modeDrainComplete s = execModeDrainComplete s from rfl, execModeDrainComplete, if_pos ⟨hmode, hdrained⟩, hfor]
    obtain ⟨hm, hd, ha, hl, hmem, hp, hans⟩ := s.toServiceMode_spec
    exact ⟨_, hexec, hm, hd, ha, hl, hmem, hp, hans⟩
  case reset =>
    have hexec : exec .modeDrainComplete s = .next ((s.finishChan ch 0 0 0).deviceReset 3 ch.val true) := by
      rw [show exec .modeDrainComplete s = execModeDrainComplete s from rfl, execModeDrainComplete, if_pos ⟨hmode, hdrained⟩, hfor]
    have h := (s.finishChan ch 0 0 0).deviceReset_spec 3 ch.val true
    refine ⟨_, hexec, h.core.mode, h.kind, ?_, h.inside, h.core.active, h.core.tick⟩
    rw [h.channel, BitVec.toNat_ofNat]
    exact Nat.mod_eq_of_lt (by omega)
  case running => exact ⟨_, (if_pos (s.awake_iff.mpr ⟨hreset, hdormant⟩) : execRestart k s = _), State.restartCore_of_running hhalt⟩
  case clean =>
    refine ⟨_, (if_pos (s.awake_iff.mpr ⟨hreset, hdormant⟩) : execRestart k s = _), ?_⟩
    rw [State.restartCore_of_clean hhalt hclean]
    have hcore : ((s.restartAsked k).startCore k).crn.cores[k] = Twig.start .running := vset_get_self _ _ _
    refine ⟨getLsbD_dropBit_self _ k.isLt, getLsbD_dropBit_self _ k.isLt, ?_, fun j hj => vset_get_ne _ _ hj, rfl⟩
    rw [hcore]
    exact ⟨rfl, rfl, rfl, rfl, rfl, rfl, Twig.reg_start, rfl, rfl, rfl, rfl, rfl, rfl⟩
  case unclean =>
    refine ⟨_, (if_pos (s.awake_iff.mpr ⟨hreset, hdormant⟩) : execRestart k s = _), ?_⟩
    rw [State.restartCore_of_unclean hhalt hclean]
    exact ⟨getLsbD_withBit_self _ k.isLt, getLsbD_withBit_self _ k.isLt, rfl, rfl⟩
end

section
/-! SUPPORT. What the loss of a host port changes, stage by stage; and the settling of O43. -/
namespace Sys2Proof.Machine
open Sys2Proof.Safety

theorem onlyPort_of_others {n : PortId} {s t : State} (h : ∀ m, m ≠ n → t.ports[m] = s.ports[m]) : OnlyPort n s t := by
  refine Vector.ext fun i hi => ?_
  rw [Vector.getElem_set]
  split_ifs with hn
  · subst hn; rfl
  · exact h ⟨i, hi⟩ fun e => hn (congrArg Fin.val e).symm

theorem State.onlyPort_modPort (s : State) (n : PortId) (f : HostPort → HostPort) : OnlyPort n s (s.modPort n f) := vmod_undo s.ports n f

/-- What an update keeps of an entry it keeps of every entry. -/
theorem vmod_get_of_kept {α β : Type} {k : Nat} (g : α → β) {v : Vector α k} {i : Fin k} {f : α → α} (h : g (f v[i]) = g v[i]) (j : Fin k) :
    g (vmod v i f)[j] = g v[j] := by
  rw [vmod_get]
  split_ifs with hj
  · rw [h, hj]
  · rfl

/-! ### Events of a plot -/

theorem State.events_sendEvent (s : State) (p : PlotId) (e : PEvent) (r : PlotId) : (s.sendEvent p e).plots[r].events = s.plots[r].events := by
  unfold State.sendEvent
  split
  · rfl
  · split
    · rfl
    · split
      next t ht =>
        exact (congrArg Plot.events ((State.postPacket_messages ht p).plot r) :)
      · exact vmod_get_of_kept Plot.events rfl r

theorem State.events_plotEvent (s : State) (p : PlotId) (code bough unit : Nat) (detail : Word) (r : PlotId) :
    (s.plotEvent p code bough unit detail).plots[r].events =
      if (s.plotMap p.val).isSome ∧ r = p then s.plots[r].events ||| BitVec.ofNat 8 (2 ^ (code - 1)) else s.plots[r].events := by
  unfold State.plotEvent
  by_cases hnone : (s.plotMap p.val).isNone = true
  · have hsome : ¬ (s.plotMap p.val).isSome = true := by rw [Option.isNone_iff_eq_none.mp hnone]; exact Bool.false_ne_true
    rw [if_pos hnone, if_neg fun h => hsome h.1]
  · have hsome : (s.plotMap p.val).isSome = true := by
      cases hmap : s.plotMap p.val with
      | none => exact absurd (by rw [hmap]; rfl) hnone
      | some m => rfl
    rw [if_neg hnone]
    dsimp only
    have hset : (s.modPlot p fun x => { x with events := x.events ||| BitVec.ofNat 8 (2 ^ (code - 1)) }).plots[r].events =
        if (s.plotMap p.val).isSome ∧ r = p then s.plots[r].events ||| BitVec.ofNat 8 (2 ^ (code - 1)) else s.plots[r].events := by
      refine (congrArg Plot.events (vmod_get s.plots p r _)).trans ?_
      by_cases hr : r = p
      · rw [if_pos hr, if_pos ⟨hsome, hr⟩, hr]
      · rw [if_neg hr, if_neg fun h => hr h.2]
    generalize s.modPlot p _ = t at hset ⊢
    rw [← hset]
    split_ifs
    · exact vmod_get_of_kept Plot.events rfl r
    · exact State.events_sendEvent ..

/-- An event of a plot leaves every event bit that is set. -/
theorem State.event_plotEvent_of_set {s : State} {r : PlotId} {i : Nat} (h : s.plots[r].events.getLsbD i = true) (p : PlotId) (code bough unit : Nat)
    (detail : Word) : (s.plotEvent p code bough unit detail).plots[r].events.getLsbD i = true := by
  rw [State.events_plotEvent]
  split_ifs
  · rw [BitVec.getLsbD_or, h, Bool.true_or]
  · exact h

theorem State.plotMap_isSome_of_vfPlot {s : State} {v : Nat} {m : PlotMap} (h : s.vfPlot v = some m) (hm : m.plot < 64) :
    (s.plotMap (plotId m.plot).val).isSome = true := by
  rw [val_plotId hm, State.plotMap, List.find?_isSome]
  exact ⟨m, List.mem_of_find?_eq_some h, by simp⟩

/-- HOST_LOST for the plots of the VFs vs (R464). -/
def State.hostLost (n : PortId) (s : State) (v : VfId) : State :=
  match s.vfPlot v.val with
  | some m => s.plotEvent (plotId m.plot) 3 0xff n.val 0
  | none => s

theorem State.hostLost_posts (n : PortId) (s : State) (v : VfId) : Posts s (s.hostLost n v) := by
  unfold State.hostLost
  split
  · exact s.plotEvent_posts ..
  · exact .refl s

theorem State.hostLost_tells (n : PortId) (s : State) (v : VfId) : Tells s (s.hostLost n v) := by
  unfold State.hostLost
  split
  · exact s.plotEvent_tells ..
  · exact .refl s

theorem State.vfPlot_congr {s t : State} (h : t.grn = s.grn) (v : Nat) : t.vfPlot v = s.vfPlot v := by
  unfold State.vfPlot State.plotMaps
  rw [h]

theorem foldl_hostLost_none {n : PortId} {vs : List VfId} {s : State} (h : ∀ v ∈ vs, s.vfPlot v.val = none) : vs.foldl (State.hostLost n) s = s := by
  induction vs with
  | nil => rfl
  | cons v vs ih =>
    have hv : s.hostLost n v = s := by
      rw [State.hostLost, h v List.mem_cons_self]
    rw [List.foldl_cons, hv]
    exact ih fun w hw => h w (List.mem_cons_of_mem v hw)

theorem foldl_hostLost_event {n : PortId} {vs : List VfId} {s : State} {v : VfId} (hv : v ∈ vs) {m : PlotMap} (hm : s.vfPlot v.val = some m) (hlt : m.plot < 64) :
    (vs.foldl (State.hostLost n) s).plots[plotId m.plot].events.getLsbD 2 = true := by
  have hgrn : ∀ (t : State) (w : VfId), (t.hostLost n w).grn = t.grn := fun t w => (congrArg State.grn (t.hostLost_posts n w).frame :)
  have hkeep : ∀ (t : State) (w : VfId), (t.grn = s.grn → t.plots[plotId m.plot].events.getLsbD 2 = true) →
      (t.hostLost n w).grn = s.grn → (t.hostLost n w).plots[plotId m.plot].events.getLsbD 2 = true := by
    intro t w ht hg
    have hset := ht ((hgrn t w).symm.trans hg)
    unfold State.hostLost
    split
    · exact State.event_plotEvent_of_set hset ..
    · exact hset
  have hdo : ∀ t : State, (t.hostLost n v).grn = s.grn → (t.hostLost n v).plots[plotId m.plot].events.getLsbD 2 = true := by
    intro t hg
    have hmt : t.vfPlot v.val = some m := (State.vfPlot_congr ((hgrn t v).symm.trans hg) v.val).trans hm
    rw [State.hostLost, hmt]
    dsimp only
    rw [State.events_plotEvent, if_pos ⟨State.plotMap_isSome_of_vfPlot hmt hlt, rfl⟩, BitVec.getLsbD_or]
    simp
  exact foldl_of_mem (P := fun t => t.grn = s.grn → t.plots[plotId m.plot].events.getLsbD 2 = true) hkeep hdo hv s
    (congrArg State.grn (foldl_rel Posts.refl (fun _ _ _ => Posts.trans) (fun t w => t.hostLost_posts n w) vs s).frame :)

/-! ### Queues, functions and the log of the port -/

/-- A queue whose open produced packet is voided with its credits back. -/
def Queue.dropped (x : Queue) : Queue :=
  match x.prod with
  | some o => { x with prod := none, prodVoid := true, credits := x.credits + o.cap + 1 }
  | none => x

theorem Queue.dropped_of_some {x : Queue} {o : OpenProd} (h : x.prod = some o) :
    x.dropped = { x with prod := none, prodVoid := true, credits := x.credits + o.cap + 1 } := by
  unfold Queue.dropped
  rw [h]

theorem Queue.dropped_pending (x : Queue) : x.dropped.pending = x.pending := by
  unfold Queue.dropped
  split <;> rfl

/-- Voids the open packet of queue q when a function of the list produces into it. -/
def State.dropHost (fns : List HostFn) (s : State) (q : QueueId) : State :=
  match s.prodOf q.val with
  | some (.host id) => if fns.any fun f => hostFnId f == id then s.dropProd q else s
  | _ => s

theorem State.dropHost_eq (fns : List HostFn) (s : State) (q : QueueId) :
    s.dropHost fns q = if fns.any fun fn => s.hostProd fn q then s.modQueue q Queue.dropped else s := by
  have hone : ∀ fn, s.hostProd fn q = true ↔ s.prodOf q.val = some (.host (hostFnId fn)) := fun fn => by simp [State.hostProd]
  unfold State.dropHost
  split
  next id hid =>
    have hany : (fns.any fun f => hostFnId f == id) = fns.any fun fn => s.hostProd fn q := by
      congr 1
      funext fn
      rw [Bool.eq_iff_iff, hone, hid, beq_iff_eq, Option.some.injEq, QRole.host.injEq, eq_comm]
    rw [hany]
    rfl
  next hno =>
    rw [if_neg]
    intro h
    obtain ⟨fn, -, hfn⟩ := List.any_eq_true.mp h
    exact hno _ ((hone fn).mp hfn)

theorem foldl_dropHost {fns : List HostFn} {l : List QueueId} (hl : l.Nodup) (s : State) :
    ∃ queues, l.foldl (State.dropHost fns) s = { s with queues := queues } ∧
      ∀ q : QueueId, queues[q] = if q ∈ l ∧ (fns.any fun fn => s.hostProd fn q) = true then s.queues[q].dropped else s.queues[q] := by
  induction l generalizing s with
  | nil => exact ⟨s.queues, rfl, fun q => (if_neg fun h => List.not_mem_nil h.1).symm⟩
  | cons p l ih =>
    have hp : p ∉ l := (List.nodup_cons.mp hl).1
    have hstep : ∃ q1, s.dropHost fns p = { s with queues := q1 } ∧
        ∀ q : QueueId, q1[q] = if q = p ∧ (fns.any fun fn => s.hostProd fn q) = true then s.queues[q].dropped else s.queues[q] := by
      rw [State.dropHost_eq]
      split_ifs with hany
      · refine ⟨_, rfl, fun q => (vmod_get s.queues p q _).trans ?_⟩
        by_cases hq : q = p
        · subst hq; rw [if_pos rfl, if_pos ⟨rfl, hany⟩]
        · rw [if_neg hq, if_neg fun h => hq h.1]
      · refine ⟨s.queues, rfl, fun q => (if_neg ?_).symm⟩
        rintro ⟨rfl, h⟩
        exact hany h
    obtain ⟨q1, h1, hq1⟩ := hstep
    obtain ⟨q2, h2, hq2⟩ := ih (List.nodup_cons.mp hl).2 { s with queues := q1 }
    refine ⟨q2, by rw [List.foldl_cons, h1, h2], fun q => (hq2 q).trans ?_⟩
    show (if q ∈ l ∧ (fns.any fun fn => s.hostProd fn q) = true then q1[q].dropped else q1[q]) = _
    rw [hq1]
    by_cases hq : q = p
    · subst hq
      rw [if_neg fun h => hp h.1]
      simp only [List.mem_cons_self, true_and]
    · rw [if_neg (c := q = p ∧ _) fun h => hq h.1]
      simp only [List.mem_cons, hq, false_or]

theorem foldl_resetVfs (vs : List VfId) (s : State) :
    ∃ vfs, (vs.map HostFn.vf).foldl State.resetFn s = { s with vfs := vfs } ∧ ∀ v : VfId, vfs[v] = if v ∈ vs then Func.start else s.vfs[v] := by
  induction vs generalizing s with
  | nil => exact ⟨s.vfs, rfl, fun v => (if_neg List.not_mem_nil).symm⟩
  | cons w vs ih =>
    obtain ⟨vfs, heq, hvfs⟩ := ih (s.resetFn (.vf w))
    refine ⟨vfs, heq, fun v => (hvfs v).trans ?_⟩
    have hw : (s.resetFn (.vf w)).vfs[v] = if v = w then Func.start else s.vfs[v] := vmod_get s.vfs w v _
    rw [hw]
    by_cases hv : v ∈ vs
    · rw [if_pos hv, if_pos (List.mem_cons_of_mem w hv)]
    · rw [if_neg hv]
      simp only [List.mem_cons, hv, or_false]

/-- The reset of every function of port n (R464). -/
theorem State.resetFns_eq (s : State) (n : PortId) :
    ∃ vfs, (s.portFns n).foldl State.resetFn s = { s.modPort n fun p => { p with pf := Func.start } with vfs := vfs } ∧
      ∀ v : VfId, vfs[v] = if v ∈ s.portVfs n then Func.start else s.vfs[v] :=
  foldl_resetVfs (s.portVfs n) (s.resetFn (.pf n))

theorem State.hostEvent_eq (s : State) (n : PortId) (bit : Nat) :
    ∃ evts, s.hostEvent n bit = { s.modPort n fun p => { p with event := p.event ||| BitVec.ofNat 5 (2 ^ bit) } with crownEvts := evts } := by
  unfold State.hostEvent State.notice
  dsimp only
  split_ifs <;> exact ⟨_, rfl⟩

/-- From s to t the only change at the ports is that port n may have logged a discarded write, in bits 2 and 4 of HOST_EVENT. -/
structure LogsWrites (n : PortId) (s t : State) : Prop where
  work : DropsWork s t
  other : ∀ m, m ≠ n → t.ports[m] = s.ports[m]
  own : { t.ports[n] with event := s.ports[n].event } = s.ports[n]
  bits : ∀ i, i < 5 → i ≠ 2 → i ≠ 4 → t.ports[n].event.getLsbD i = s.ports[n].event.getLsbD i

namespace LogsWrites

variable {n : PortId} {s t u : State}

theorem of_ports (h : DropsWork s t) (hports : t.ports = s.ports) : LogsWrites n s t :=
  ⟨h, fun m _ => by rw [hports], by rw [hports], fun i _ _ _ => by rw [hports]⟩

theorem refl (n : PortId) (s : State) : LogsWrites n s s := .of_ports (.refl s) rfl

theorem trans (h : LogsWrites n s t) (k : LogsWrites n t u) : LogsWrites n s u where
  work := h.work.trans k.work
  other m hm := (k.other m hm).trans (h.other m hm)
  own := (congrArg (fun p : HostPort => { p with event := s.ports[n].event }) k.own :).trans h.own
  bits i hi h2 h4 := (k.bits i hi h2 h4).trans (h.bits i hi h2 h4)

theorem hostEvent (n : PortId) (s : State) {bit : Nat} (hbit : bit = 2 ∨ bit = 4) : LogsWrites n s (s.hostEvent n bit) := by
  have hdrops := s.hostEvent_drops n bit
  obtain ⟨evts, heq⟩ := s.hostEvent_eq n bit
  have hport : (s.hostEvent n bit).ports = vmod s.ports n fun p => { p with event := p.event ||| BitVec.ofNat 5 (2 ^ bit) } := by rw [heq]; rfl
  have hself : (s.hostEvent n bit).ports[n] = { s.ports[n] with event := s.ports[n].event ||| BitVec.ofNat 5 (2 ^ bit) } := by
    rw [hport]
    exact vmod_get_self ..
  refine ⟨hdrops, fun m hm => ?_, by rw [hself], fun i hi h2 h4 => ?_⟩
  · rw [hport]
    exact vmod_get_ne _ _ hm
  · rw [hself]
    show (s.ports[n].event ||| BitVec.ofNat 5 (2 ^ bit)).getLsbD i = _
    rw [BitVec.getLsbD_or, getLsbD_ofNat_two_pow hi, decide_eq_false (by omega), Bool.or_false]

theorem discardLogged {n : PortId} {x : WTxn} (hwho : x.who = .host n) (s : State) : LogsWrites n s (s.discardLogged x) := by
  unfold State.discardLogged
  split
  next m _ hm =>
    obtain rfl : n = m := Writer.host.inj (hwho.symm.trans hm)
    have hemit : LogsWrites n s (s.emit (.aer n true)) := .of_ports ⟨rfl⟩ rfl
    exact (hemit.trans (.hostEvent n _ (.inl rfl))).trans (.hostEvent n _ (.inr rfl))
  · exact .refl n s

end LogsWrites

/-- Discarded writes of the host at port n are logged at that port. -/
theorem State.discardWrites_logs_of {s : State} {n : PortId} {p : WTxn → Bool} (h : ∀ x ∈ s.txns, p x = true → x.who = .host n) :
    LogsWrites n s (s.discardWrites p) := by
  unfold State.discardWrites
  have hwho : ∀ x ∈ s.txns.filter (fun t => p t && t.decision.isNone), x.who = .host n := fun x hx => by
    obtain ⟨hmem, hx⟩ := List.mem_filter.mp hx
    exact h x hmem ((Bool.and_eq_true _ _).mp hx).1
  revert hwho
  generalize s.txns.filter (fun t => p t && t.decision.isNone) = l
  clear h
  intro hwho
  induction l generalizing s with
  | nil => exact .refl n s
  | cons x l ih =>
    have hx := hwho x List.mem_cons_self
    refine LogsWrites.trans ?_ (ih fun y hy => hwho y (List.mem_cons_of_mem x hy))
    have hdrop : LogsWrites n s (s.dropTxn x.id) := .of_ports ⟨rfl⟩ rfl
    have hmark : ∀ f, LogsWrites n s (s.modTxn x.id f) := fun f => .of_ports ⟨rfl⟩ rfl
    dsimp only
    split_ifs
    · exact .refl n s
    · exact hdrop.trans (.discardLogged hx _)
    · exact (hmark _).trans (.discardLogged hx _)

theorem State.discardWrites_logs (s : State) (n : PortId) : LogsWrites n s (s.discardWrites fun t => t.who == .host n) :=
  State.discardWrites_logs_of fun _ _ h => beq_iff_eq.mp h

/-! ### The loss itself (R464) -/

/-- What the loss of host port n changes and leaves. -/
structure HostLost (n : PortId) (surprise perst : Bool) (s t : State) : Prop where
  linkUp : t.ports[n].linkUp = false
  held : t.ports[n].held = []
  event0 : t.ports[n].event.getLsbD 0 = true
  event1 : t.ports[n].event.getLsbD 1 = (surprise || s.ports[n].event.getLsbD 1)
  downs : t.ports[n].downs = satAdd 16 s.ports[n].downs 1
  retrains : t.ports[n].retrains = s.ports[n].retrains
  perst : t.ports[n].perst = perst
  pf : t.ports[n].pf = Func.start
  other : ∀ m, m ≠ n → t.ports[m] = s.ports[m]
  vfs : ∀ v, t.vfs[v] = if v ∈ s.portVfs n then Func.start else s.vfs[v]
  absorb : t.cnp.hostAbsorb.getLsbD n.val = true
  ide : t.hwd.ide[n] = { keys := [], going := [], secure := false }
  sessions : t.hwd.sessions = s.hwd.sessions.filter fun x => x.tr.val ≠ n.val
  plots : ∀ v ∈ s.portVfs n, ∀ m, s.vfPlot v.val = some m → m.plot < 64 → t.plots[plotId m.plot].events.getLsbD 2 = true
  pending : ∀ q : QueueId, s.queues[q].pending <+: t.queues[q].pending
  voided : (∀ v ∈ s.portVfs n, s.vfPlot v.val = none) → ∀ q : QueueId, ∀ fn ∈ s.portFns n, s.hostProd fn q = true → t.queues[q] = s.queues[q].dropped
  mem : t.mem = s.mem
  boughs : t.boughs = s.boughs
  grn : t.grn = s.grn

/-- The port as its loss leaves it, but for the events. -/
def HostPort.down (p : HostPort) : HostPort :=
  { p with linkUp := false, speed := 0, width := 0, flit := false, l1 := false, aspm := false, held := [], downs := satAdd 16 p.downs 1,
           reads := p.reads.map fun r => { r with absorb := true } }

/-- The loss, stage by stage: the writes discarded, the port absorbing and its keys erased, the packets voided, HOST_LOST, the functions reset. -/
theorem State.loseHost_eq (s : State) (n : PortId) (surprise : Bool) :
    let t := s.discardWrites fun t => t.who == .host n
    let t := (List.finRange 1024).foldl (State.dropHost (s.portFns n)) ({ t with cnp := { t.cnp with hostAbsorb := withBit t.cnp.hostAbsorb n.val } }.eraseIde n)
    let t := (t.portVfs n).foldl (State.hostLost n) t
    let t := (((s.portFns n).foldl State.resetFn t).modPort n HostPort.down).hostEvent n 0
    s.loseHost n surprise = if surprise then t.hostEvent n 1 else t := by
  unfold State.loseHost
  rfl

/-- The stages up to HOST_LOST leave all that they do not name. -/
structure HostStopped (n : PortId) (s t : State) : Prop where
  logs : ∃ u, LogsWrites n s u ∧ t.ports = u.ports ∧ t.vfs = s.vfs
  absorb : t.cnp.hostAbsorb.getLsbD n.val = true
  ide : t.hwd.ide[n] = { keys := [], going := [], secure := false }
  sessions : t.hwd.sessions = s.hwd.sessions.filter fun x => x.tr.val ≠ n.val
  plots : ∀ v ∈ s.portVfs n, ∀ m, s.vfPlot v.val = some m → m.plot < 64 → t.plots[plotId m.plot].events.getLsbD 2 = true
  pending : ∀ q : QueueId, s.queues[q].pending <+: t.queues[q].pending
  voided : (∀ v ∈ s.portVfs n, s.vfPlot v.val = none) → ∀ q : QueueId, ∀ fn ∈ s.portFns n, s.hostProd fn q = true → t.queues[q] = s.queues[q].dropped
  mem : t.mem = s.mem
  boughs : t.boughs = s.boughs
  pwr : t.pwr = s.pwr
  grn : t.grn = s.grn

theorem portVfs_congr {s t : State} (h : t.grn = s.grn) (n : PortId) : t.portVfs n = s.portVfs n := by
  unfold State.portVfs
  rw [h]

theorem hostProd_congr {s t : State} (h : t.grn = s.grn) (fn : HostFn) (q : QueueId) : t.hostProd fn q = s.hostProd fn q := by
  unfold State.hostProd State.prodOf
  rw [State.queueRec_congr h]

theorem hostStopped_of {n : PortId} {s u w : State} (hlogs : LogsWrites n s u)
    (hu : w = { u with cnp := { u.cnp with hostAbsorb := withBit u.cnp.hostAbsorb n.val } }.eraseIde n) :
    HostStopped n s ((((List.finRange 1024).foldl (State.dropHost (s.portFns n)) w).portVfs n).foldl (State.hostLost n)
      ((List.finRange 1024).foldl (State.dropHost (s.portFns n)) w)) := by
  have hwork := hlogs.work.frame
  have hgrn : u.grn = s.grn := (congrArg State.grn hwork :)
  have hqueues : u.queues = s.queues := (congrArg State.queues hwork :)
  obtain ⟨queues, hdrop, hq⟩ := foldl_dropHost (fns := s.portFns n) (List.nodup_finRange 1024) w
  rw [hdrop]
  have hprodw : ∀ fn q, w.hostProd fn q = s.hostProd fn q := fun fn q => hostProd_congr (by rw [hu]; exact hgrn) fn q
  have hqueuesw : w.queues = s.queues := by rw [hu]; exact hqueues
  have hown : ∀ q : QueueId, queues[q] = if ((s.portFns n).any fun fn => s.hostProd fn q) = true then s.queues[q].dropped else s.queues[q] := fun q => by
    rw [hq q, hqueuesw]
    simp only [hprodw, List.mem_finRange, true_and]
  generalize hv : ({ w with queues := queues } : State) = v
  have hvgrn : v.grn = s.grn := by rw [← hv, hu]; exact hgrn
  rw [portVfs_congr hvgrn]
  have hvqueues : ∀ q : QueueId, v.queues[q] = queues[q] := fun q => by rw [← hv]
  have hposts : Posts v ((s.portVfs n).foldl (State.hostLost n) v) :=
    foldl_rel Posts.refl (fun _ _ _ => Posts.trans) (fun t w => t.hostLost_posts n w) _ v
  have htells : Tells v ((s.portVfs n).foldl (State.hostLost n) v) := .foldl (fun t w => t.hostLost_tells n w) _ v
  have hevent := fun x (hx : x ∈ s.portVfs n) m (hm : v.vfPlot x.val = some m) hlt => foldl_hostLost_event (n := n) (s := v) hx hm hlt
  have hnone := foldl_hostLost_none (n := n) (vs := s.portVfs n) (s := v)
  generalize (s.portVfs n).foldl (State.hostLost n) v = t at hposts htells hevent hnone
  have hframe := hposts.frame
  have hports : t.ports = u.ports := (congrArg State.ports hframe :).trans (by rw [← hv, hu]; rfl)
  have hvfs : t.vfs = s.vfs := (congrArg State.vfs hframe :).trans (Eq.trans (by rw [← hv, hu]; rfl) (congrArg State.vfs hwork :))
  refine ⟨⟨u, hlogs, hports, hvfs⟩, ?absorb, ?ide, ?sessions, ?plots, ?pending, ?voided, ?mem, ?boughs, ?pwr, (congrArg State.grn hframe :).trans hvgrn⟩
  case absorb =>
    refine (congrArg (fun x : State => x.cnp.hostAbsorb.getLsbD n.val) hframe :).trans ?_
    rw [← hv, hu]
    exact getLsbD_withBit_self _ n.isLt
  case ide =>
    refine (congrArg (fun x : State => x.hwd.ide[n]) hframe :).trans ?_
    rw [← hv, hu]
    exact vset_get_self ..
  case sessions =>
    have hsessions : u.hwd.sessions = s.hwd.sessions := (congrArg (fun x : State => x.hwd.sessions) hwork :)
    refine (congrArg (fun x : State => x.hwd.sessions) hframe :).trans ?_
    rw [← hv, hu, ← hsessions]
    refine List.filter_congr fun x _ => ?_
    rw [decide_eq_decide, not_iff_not]
    exact Fin.ext_iff
  case plots => exact fun x hx m hm hlt => hevent x hx m ((State.vfPlot_congr hvgrn x.val).trans hm) hlt
  case pending =>
    intro q
    have hq := htells.pending q
    rw [hvqueues, hown] at hq
    split_ifs at hq
    · rwa [Queue.dropped_pending] at hq
    · exact hq
  case voided =>
    intro hno q fn hfn hprod
    rw [hnone fun x hx => (State.vfPlot_congr hvgrn x.val).trans (hno x hx), hvqueues, hown, if_pos (List.any_eq_true.mpr ⟨fn, hfn, hprod⟩)]
  case mem => exact (congrArg State.mem hframe :).trans (Eq.trans (by rw [← hv, hu]; rfl) (congrArg State.mem hwork :))
  case boughs => exact (congrArg State.boughs hframe :).trans (Eq.trans (by rw [← hv, hu]; rfl) (congrArg State.boughs hwork :))
  case pwr => exact (congrArg State.pwr hframe :).trans (Eq.trans (by rw [← hv, hu]; rfl) (congrArg State.pwr hwork :))

/-- An event of port n after updates of that port alone. -/
theorem State.hostEvent_modPort (s : State) (n : PortId) (f : HostPort → HostPort) (vfs : Vector Func 64) (evts : List CrownEvt) (bit : Nat) :
    ∃ evts', ({ s.modPort n f with vfs := vfs, crownEvts := evts } : State).hostEvent n bit =
      { s.modPort n ((fun p => { p with event := p.event ||| BitVec.ofNat 5 (2 ^ bit) }) ∘ f) with vfs := vfs, crownEvts := evts' } := by
  obtain ⟨evts', heq⟩ := ({ s.modPort n f with vfs := vfs, crownEvts := evts } : State).hostEvent_eq n bit
  have htwice := s.modPort_modPort n f fun p => { p with event := p.event ||| BitVec.ofNat 5 (2 ^ bit) }
  exact ⟨evts', heq.trans (congrArg (fun x : State => { x with vfs := vfs, crownEvts := evts' }) htwice)⟩

/-- The functions reset, the port down and its events logged. -/
theorem hostLost_of {n : PortId} {s t : State} (h : HostStopped n s t) (surprise : Bool) :
    HostLost n surprise s.ports[n].perst s (if surprise then ((((s.portFns n).foldl State.resetFn t).modPort n HostPort.down).hostEvent n 0).hostEvent n 1
      else (((s.portFns n).foldl State.resetFn t).modPort n HostPort.down).hostEvent n 0) := by
  have hfns : s.portFns n = t.portFns n := by unfold State.portFns; rw [portVfs_congr h.grn]
  obtain ⟨u, hlogs, hports, hvfs⟩ := h.logs
  obtain ⟨vfs, hreset, hv⟩ := t.resetFns_eq n
  rw [hfns, hreset]
  have hown := hlogs.own
  rw [← hports] at hown
  have hbit : t.ports[n].event.getLsbD 1 = s.ports[n].event.getLsbD 1 := by
    rw [hports]
    exact hlogs.bits 1 (by decide) (by decide) (by decide)
  have hport : ∀ (f : HostPort → HostPort) evts, (f t.ports[n]).linkUp = false → (f t.ports[n]).held = [] → (f t.ports[n]).event.getLsbD 0 = true →
      (f t.ports[n]).event.getLsbD 1 = (surprise || s.ports[n].event.getLsbD 1) → (f t.ports[n]).downs = satAdd 16 s.ports[n].downs 1 →
      (f t.ports[n]).retrains = s.ports[n].retrains → (f t.ports[n]).perst = s.ports[n].perst → (f t.ports[n]).pf = Func.start →
      HostLost n surprise s.ports[n].perst s { t.modPort n f with vfs := vfs, crownEvts := evts } := by
    intro f evts hlink hheld h0 h1 hdowns hretrains hperst hpf
    have hself : (t.modPort n f).ports[n] = f t.ports[n] := t.modPort_port_self n f
    have hother : ∀ m, m ≠ n → (t.modPort n f).ports[m] = s.ports[m] := fun m hm => by
      rw [show (t.modPort n f).ports[m] = t.ports[m] from vmod_get_ne _ _ hm, hports]
      exact hlogs.other m hm
    have hvf : ∀ v : VfId, vfs[v] = if v ∈ s.portVfs n then Func.start else s.vfs[v] := fun v => by rw [hv v, portVfs_congr h.grn, hvfs]
    refine ⟨?_, ?_, ?_, ?_, ?_, ?_, ?_, ?_, hother, hvf, h.absorb, h.ide, h.sessions, h.plots, h.pending, h.voided, h.mem, h.boughs, h.grn⟩
    all_goals dsimp only; rw [hself]
    all_goals assumption
  have hdowns : satAdd 16 t.ports[n].downs 1 = satAdd 16 s.ports[n].downs 1 := (congrArg (fun p : HostPort => satAdd 16 p.downs 1) hown :)
  have hretrains : t.ports[n].retrains = s.ports[n].retrains := (congrArg HostPort.retrains hown :)
  have hperst : t.ports[n].perst = s.ports[n].perst := (congrArg HostPort.perst hown :)
  have hdown := congrArg (fun x : State => { x with vfs := vfs }) (t.modPort_modPort n (fun p => { p with pf := Func.start }) HostPort.down)
  have hdown' : ({ t.modPort n fun p => { p with pf := Func.start } with vfs := vfs } : State).modPort n HostPort.down =
      { t.modPort n (HostPort.down ∘ fun p => { p with pf := Func.start }) with vfs := vfs, crownEvts := t.crownEvts } := hdown
  rw [hdown']
  obtain ⟨evts, hfirst⟩ := t.hostEvent_modPort n (HostPort.down ∘ fun p => { p with pf := Func.start }) vfs t.crownEvts 0
  obtain ⟨evts', hsecond⟩ := t.hostEvent_modPort n
    ((fun p => { p with event := p.event ||| BitVec.ofNat 5 (2 ^ 0) }) ∘ HostPort.down ∘ fun p => { p with pf := Func.start }) vfs evts 1
  rw [hfirst]
  cases surprise with
  | false =>
    refine hport _ evts rfl rfl ?_ ?_ hdowns hretrains hperst rfl
    · simp
    · simpa [HostPort.down] using hbit
  | true =>
    rw [if_pos rfl, hsecond]
    refine hport _ evts' rfl rfl ?_ ?_ hdowns hretrains hperst rfl
    · simp
    · simp

theorem State.loseHost_spec (s : State) (n : PortId) (surprise : Bool) : HostLost n surprise s.ports[n].perst s (s.loseHost n surprise) := by
  rw [State.loseHost_eq]
  exact hostLost_of (hostStopped_of (s.discardWrites_logs n) rfl) surprise

theorem State.loseHost_pwr (s : State) (n : PortId) (surprise : Bool) : (s.loseHost n surprise).pwr = s.pwr :=
  congrArg Standing.pwr (s.loseHost_standing n surprise)

theorem HostPort.perstReset_kept (p : HostPort) :
    p.perstReset.event = p.event ∧ p.perstReset.downs = p.downs ∧ p.perstReset.retrains = p.retrains ∧ p.perstReset.perst = p.perst :=
  ⟨rfl, rfl, rfl, rfl⟩

/-- The port's registers at their Reset values and PL3 requested (R468). -/
def State.perstDone (s : State) (n : PortId) : State :=
  (((s.portFns n).foldl State.resetFn s).modPort n HostPort.perstReset).setReq 3 false

theorem State.perstDone_eq (s : State) (n : PortId) : ∃ vfs pwr outbox, s.perstDone n =
      { s.modPort n (HostPort.perstReset ∘ fun p => { p with pf := Func.start }) with vfs := vfs, pwr := pwr, outbox := outbox } ∧ pwr.req = 3 ∧
      ∀ v : VfId, vfs[v] = if v ∈ s.portVfs n then Func.start else s.vfs[v] := by
  obtain ⟨vfs, hreset, hv⟩ := s.resetFns_eq n
  have htwice := congrArg (fun x : State => { x with vfs := vfs }) (s.modPort_modPort n (fun p => { p with pf := Func.start }) HostPort.perstReset)
  have htwice' : ({ s.modPort n fun p => { p with pf := Func.start } with vfs := vfs } : State).modPort n HostPort.perstReset =
      { s.modPort n (HostPort.perstReset ∘ fun p => { p with pf := Func.start }) with vfs := vfs } := htwice
  unfold State.perstDone State.setReq
  rw [hreset, htwice']
  generalize s.modPort n (HostPort.perstReset ∘ fun p => { p with pf := Func.start }) = u
  obtain ⟨pwr, outbox, hlevel, hreq⟩ :=
    (({ u with vfs := vfs } : State).modPwr fun p => { p with req := 3, droopHold := p.droopHold && !false }).changeLevel_eq 3
  exact ⟨vfs, pwr, outbox, hlevel, hreq, hv⟩

/-- What PERST does to a port beyond its loss (R468). -/
structure PerstSet (n : PortId) (s t : State) : Prop where
  winEn : t.ports[n].winEn = true
  winBase : t.ports[n].winBase = 0
  sizeLog2 : t.ports[n].sizeLog2 = 30
  rx : t.ports[n].rx = 0
  req : t.pwr.req = 3

theorem HostLost.perstDone {n : PortId} {surprise perst : Bool} {s t : State} (h : HostLost n surprise perst s t) :
    HostLost n surprise perst s (t.perstDone n) ∧ PerstSet n s (t.perstDone n) := by
  obtain ⟨vfs, pwr, outbox, heq, hreq, hv⟩ := t.perstDone_eq n
  rw [heq]
  have hself : (t.modPort n (HostPort.perstReset ∘ fun p => { p with pf := Func.start })).ports[n] = { t.ports[n] with pf := Func.start }.perstReset :=
    t.modPort_port_self n _
  have hother : ∀ m, m ≠ n → (t.modPort n (HostPort.perstReset ∘ fun p => { p with pf := Func.start })).ports[m] = s.ports[m] := fun m hm =>
    (vmod_get_ne t.ports _ hm).trans (h.other m hm)
  have hvf : ∀ v : VfId, vfs[v] = if v ∈ s.portVfs n then Func.start else s.vfs[v] := fun v => by
    rw [hv v, portVfs_congr h.grn, h.vfs v]
    split_ifs <;> rfl
  refine ⟨⟨?_, ?_, ?_, ?_, ?_, ?_, ?_, ?_, hother, hvf, h.absorb, h.ide, h.sessions, h.plots, h.pending, h.voided, h.mem, h.boughs, h.grn⟩, ?_, ?_, ?_, ?_, hreq⟩
  all_goals dsimp only; rw [hself]
  · rfl
  · rfl
  · exact h.event0
  · exact h.event1
  · exact h.downs
  · exact h.retrains
  · exact h.perst
  all_goals rfl

/-- A port whose PERST was set before its loss. -/
theorem HostLost.of_perst {n : PortId} {surprise perst : Bool} {s t : State} (h : HostLost n surprise perst (s.modPort n fun p => { p with perst := true }) t) :
    HostLost n surprise perst s t := by
  have hself : (s.modPort n fun p => { p with perst := true }).ports[n] = { s.ports[n] with perst := true } := s.modPort_port_self n _
  have hevent := h.event1
  have hdowns := h.downs
  have hretrains := h.retrains
  rw [hself] at hevent hdowns hretrains
  exact ⟨h.linkUp, h.held, h.event0, hevent, hdowns, hretrains, h.perst, h.pf, fun m hm => (h.other m hm).trans (vmod_get_ne s.ports _ hm), h.vfs, h.absorb, h.ide,
    h.sessions, h.plots, h.pending, h.voided, h.mem, h.boughs, h.grn⟩

/-- What the statement asks of a lost port. -/
theorem HostLost.stated {n : PortId} {surprise perst : Bool} {s t : State} (h : HostLost n surprise perst s t) :
    t.ports[n].linkUp = false ∧ t.ports[n].held = [] ∧ t.cnp.hostAbsorb.getLsbD n.val = true ∧ t.ports[n].event.getLsbD 0 = true ∧
      t.hwd.ide[n] = { keys := [], going := [], secure := false } ∧ t.hwd.sessions = s.hwd.sessions.filter (fun x => x.tr.val ≠ n.val) ∧
      t.ports[n].downs = (if s.ports[n].downs.toNat < 65535 then s.ports[n].downs + 1 else s.ports[n].downs) ∧ t.ports[n].pf = Func.start ∧
      (∀ v ∈ s.portVfs n, t.vfs[v] = Func.start) ∧ (∀ v, v ∉ s.portVfs n → t.vfs[v] = s.vfs[v]) ∧ OnlyPort n s t ∧
      (∀ v ∈ s.portVfs n, ∀ m, s.vfPlot v.val = some m → m.plot < 64 → t.plots[plotId m.plot].events.getLsbD 2 = true) ∧
      (∀ q : QueueId, s.queues[q].pending <+: t.queues[q].pending) ∧
      ((∀ v ∈ s.portVfs n, s.vfPlot v.val = none) → ∀ q : QueueId, ∀ fn ∈ s.portFns n, s.hostProd fn q = true → ∀ o, s.queues[q].prod = some o →
        t.queues[q] = { s.queues[q] with prod := none, prodVoid := true, credits := s.queues[q].credits + o.cap + 1 }) ∧
      t.mem = s.mem ∧ t.boughs = s.boughs :=
  ⟨h.linkUp, h.held, h.absorb, h.event0, h.ide, h.sessions, h.downs.trans (satAdd_sixteen_one _), h.pf, fun v hv => (h.vfs v).trans (if_pos hv),
    fun v hv => (h.vfs v).trans (if_neg hv), onlyPort_of_others h.other, h.plots, h.pending,
    fun hnone q fn hfn hprod _ ho => (h.voided hnone q fn hfn hprod).trans (Queue.dropped_of_some ho), h.mem, h.boughs⟩

theorem exec_perstAssert_of_up {s : State} {n : PortId} (hup : s.ports[n].linkUp = true) (hpresent : s.portPresent n = true) (hot : Bool) :
    exec (.perstAssert n hot) s = .next (((if hot then s else s.modPort n fun p => { p with perst := true }).loseHost n false).perstDone n) := by
  have hup' : (if hot then s else s.modPort n fun p => { p with perst := true }).ports[n].linkUp = true := by
    cases hot with
    | true => exact hup
    | false => exact (congrArg HostPort.linkUp (s.modPort_port_self n fun p => { p with perst := true }) :).trans hup
  rw [show exec (.perstAssert n hot) s = execPerstAssert n hot s from rfl, execPerstAssert, if_pos hpresent]
  dsimp only
  rw [if_pos hup']
  rfl

theorem State.linkTo_port (s : State) (n : PortId) (speed : BitVec 4) (width : BitVec 5) (flit : Bool) :
    (s.linkTo n speed width flit).ports[n] = { s.ports[n] with linkUp := true, speed := speed, width := width, flit := flit, l1 := false } :=
  s.modPort_port_self n _

theorem State.linkTo_onlyPort (s : State) (n : PortId) (speed : BitVec 4) (width : BitVec 5) (flit : Bool) : OnlyPort n s (s.linkTo n speed width flit) :=
  s.onlyPort_modPort n _

end Sys2Proof.Machine
open Sys2Proof Sys2Proof.Machine Sys2Proof.Safety

/-- Settles O43: a port is lost by the stages of `State.loseHost_eq`; PERST resets its registers besides. -/
theorem hostPortLoss : Obligations.HostPortLoss := by
  unfold Obligations.HostPortLoss
  refine ⟨fun s n hup => ⟨?down, fun hpresent => ?perst, fun hpresent => ?hot⟩, fun s n hdown => ?idle, fun s n => ?release, fun s n sp w fl => ⟨?trained, ?retrain, ?held⟩⟩
  case down =>
    have h := s.loseHost_spec n true
    exact ⟨_, congrArg Host.Outcome.next (if_pos hup), h.stated, h.event1, s.loseHost_pwr n true⟩
  case perst =>
    have h := ((s.modPort n fun p => { p with perst := true }).loseHost_spec n false).of_perst
    obtain ⟨hlost, hset⟩ := h.perstDone
    exact ⟨_, exec_perstAssert_of_up hup hpresent false, hlost.stated, hlost.perst.trans (congrArg HostPort.perst (s.modPort_port_self n _)), hset.winEn, hset.winBase,
      hset.sizeLog2, hset.rx, hlost.retrains, hlost.event1, hset.req⟩
  case hot =>
    obtain ⟨hlost, -⟩ := (s.loseHost_spec n false).perstDone
    exact ⟨_, exec_perstAssert_of_up hup hpresent true, hlost.stated, hlost.perst⟩
  case idle => exact ⟨s, congrArg Host.Outcome.next (if_neg (Bool.eq_false_iff.mp hdown)), rfl⟩
  case release => exact ⟨_, rfl, s.modPort_port_self n _, s.onlyPort_modPort n _, rfl⟩
  case trained =>
    intro htrain hdown
    have hexec : exec (.hostLinkTrained n sp w fl) s = .next (s.linkTo n sp w fl) := if_pos (by rw [htrain, hdown]; rfl)
    exact ⟨_, hexec, s.linkTo_port n sp w fl, s.linkTo_onlyPort n sp w fl, rfl⟩
  case retrain =>
    intro htrain hup
    have hexec : exec (.hostLinkRetrain n sp w fl) s = .next (s.modPort n fun p =>
        { p with linkUp := true, speed := sp, width := w, flit := fl, l1 := false, retrains := satAdd 16 p.retrains 1 }) := by
      rw [show exec (.hostLinkRetrain n sp w fl) s = execHostLinkRetrain n sp w fl s from rfl, execHostLinkRetrain, if_pos htrain, hup]
      exact congrArg Host.Outcome.next (s.modPort_modPort n _ _)
    have hself : (s.modPort n fun p => { p with linkUp := true, speed := sp, width := w, flit := fl, l1 := false, retrains := satAdd 16 p.retrains 1 }).ports[n] = _ :=
      s.modPort_port_self n _
    refine ⟨_, hexec, ?_, ?_, s.onlyPort_modPort n _, rfl⟩
    · rw [hself]
      dsimp only
      rw [hup]
    · rw [hself]
      exact satAdd_sixteen_one _
  case held =>
    intro hperst
    have htrain : s.canTrain n sp w = false := by
      unfold State.canTrain
      rw [hperst]
      simp
    exact ⟨s, if_neg (by rw [htrain]; exact Bool.false_ne_true), rfl⟩
end

section
/-! SUPPORT. What a function level reset and a configuration write do; and the settling of O44. -/
namespace Sys2Proof.Machine
open Sys2Proof.Safety

/-! ### The plot of a function that is reset (R464) -/

theorem State.vfs_beginBoughReset (s : State) (b : BoughId) : (s.beginBoughReset b).vfs = s.vfs := by
  have hbroken := (s.breakOwnLinks_breaks b).trans (State.discardBoth_breaks _ b)
  rw [State.beginBoughReset_eq]
  exact (congrArg State.vfs hbroken.frame :)

theorem State.vfs_resetMap (s : State) (m : PlotMap) : (s.resetMap m).vfs = s.vfs := by
  refine foldl_rel (R := fun s t : State => t.vfs = s.vfs) (fun _ => rfl) (fun _ _ _ h k => k.trans h) (fun s b => ?_) _ s
  split_ifs
  · rfl
  · exact s.vfs_beginBoughReset b

/-- The reset of a plot leaves the functions as they are. -/
theorem State.vfs_quietMap (s : State) (m : PlotMap) : (s.quietMap m).vfs = s.vfs := by
  unfold State.quietMap
  extract_lets t u
  obtain ⟨queues, hflush⟩ := State.foldl_requestFlush_eq (u.plotQueues m) u
  have ht : t.vfs = s.vfs := by
    unfold t
    split
    next v _ => exact (congrArg State.vfs (s.absorbFn_drops (.vf v)).frame :)
    · rfl
  rw [hflush]
  exact (t.vfs_resetMap m).trans ht

/-- A VF that is reset with its plot. -/
def State.flrBegun (s : State) (v : VfId) : State := (s.resetFn (.vf v)).modVf v fun f => { f with flrBusy := true }

theorem State.flrBegun_eq (s : State) (v : VfId) : s.flrBegun v = { s with vfs := vset s.vfs v { Func.start with flrBusy := true } } := by
  have hvfs : vmod (vmod s.vfs v fun _ => Func.start) v (fun f => { f with flrBusy := true }) = vset s.vfs v { Func.start with flrBusy := true } := by
    rw [show vmod (vmod s.vfs v fun _ => Func.start) v (fun f => { f with flrBusy := true }) = vset (vset s.vfs v Func.start) v _ from rfl, vset_vset, vmod_get_self]
  exact congrArg (fun vfs => ({ s with vfs := vfs } : State)) hvfs

theorem exec_vfFlr_of_plot {s : State} {v : VfId} {m : PlotMap} (hpresent : s.portPresent (vfPort s.grn.split v) = true)
    (hup : s.ports[vfPort s.grn.split v].linkUp = true) (hv : s.vfPlot v.val = some m) (hm : s.plotMap (plotId m.plot).val = some m)
    (hbusy : s.plots[plotId m.plot].resetBusy = false) (hst : s.plots[plotId m.plot].st ≠ .regraining) :
    exec (.vfFlr v) s = .next ((((s.flrBegun v).modPlot (plotId m.plot) Plot.begunReset).recFlag (plotId m.plot) 12).quietMap m) := by
  have hvf : (s.resetFn (.vf v)).vfPlot v.val = some m := hv
  rw [show exec (.vfFlr v) s = execVfFlr v s from rfl, execVfFlr]
  dsimp only
  rw [hpresent, hup, Bool.and_self, if_pos rfl, hvf]
  exact exec_plotReset_of_free (s := s.flrBegun v) hm hbusy hst

theorem State.flrReset_spec (s : State) (v : VfId) (p : PlotId) (m : PlotMap) :
    let t := (((s.flrBegun v).modPlot p Plot.begunReset).recFlag p 12).quietMap m
    t.vfs[v].flrBusy = true ∧ t.vfs[v].enabled = false ∧ t.vfs[v].msixTab = [] ∧ t.plots[p].resetBusy = true ∧ t.plots[p].st = .resetting ∧
      (∀ b : BoughId, m.boughs.getLsbD b.val = true → (t.bough b).resetting = true) ∧ t.mem = s.mem := by
  obtain ⟨⟨hmem, -, hplots, -, -⟩, hresetting, -⟩ := (((s.flrBegun v).modPlot p Plot.begunReset).recFlag p 12).quietMap_spec m
  have hvfs := (((s.flrBegun v).modPlot p Plot.begunReset).recFlag p 12).vfs_quietMap m
  have hself : (((s.flrBegun v).modPlot p Plot.begunReset).recFlag p 12).vfs[v] = { Func.start with flrBusy := true } := by
    rw [State.flrBegun_eq]
    exact vset_get_self ..
  have hp : (((s.flrBegun v).modPlot p Plot.begunReset).recFlag p 12).plots[p] =
      { s.plots[p].begunReset with cnt := { s.plots[p].begunReset.cnt with flags := withBit s.plots[p].begunReset.cnt.flags 12 } } := by
    rw [State.recFlag, State.plot_modPlot_self, State.plot_modPlot_self]
    rfl
  dsimp only
  rw [hvfs, hself, hplots, hp]
  exact ⟨rfl, rfl, rfl, rfl, rfl, hresetting, hmem⟩

/-! ### A physical function that is reset -/

theorem foldl_requestFlush_queues {l : List QueueId} (s : State) :
    ∃ queues, l.foldl (fun (s : State) q => s.requestFlush q) s = { s with queues := queues } ∧ (∀ q ∈ l, queues[q].flushing = true) ∧
      ∀ q, q ∉ l → queues[q] = s.queues[q] := by
  induction l generalizing s with
  | nil => exact ⟨s.queues, rfl, fun _ h => absurd h List.not_mem_nil, fun _ _ => rfl⟩
  | cons p l ih =>
    obtain ⟨queues, heq, hin, hout⟩ := ih (s.requestFlush p)
    refine ⟨queues, heq, fun q hq => ?_, fun q hq => ?_⟩
    · by_cases hl : q ∈ l
      · exact hin q hl
      · obtain rfl := (List.mem_cons.mp hq).resolve_right hl
        rw [hout q hl]
        exact s.flushing_requestFlush q
    · rw [List.mem_cons, not_or] at hq
      exact (hout q hq.2).trans (vmod_get_ne s.queues _ hq.1)

/-- The reads of physical function n absorbed and its absorption set (R305). -/
theorem State.absorbFn_pf (s : State) (n : PortId) : s.absorbFn (.pf n) =
    let t := s.discardWrites fun t => t.fn == some (.pf n)
    { t.modPort n fun p => { p with reads := p.reads.map fun r => if r.fn = .pf n then { r with absorb := true } else r } with
      cnp := { t.cnp with pfAbsorb := withBit t.cnp.pfAbsorb n.val } } := rfl

/-- What the function level reset of a physical function leaves. -/
structure PfReset (n : PortId) (s t : State) : Prop where
  absorb : t.cnp.pfAbsorb.getLsbD n.val = true
  pf : t.ports[n].pf = Func.start
  flushing : ∀ q ∈ s.fnQueues (.pf n), t.queues[q].flushing = true
  others : ∀ q, q ∉ s.fnQueues (.pf n) → t.queues[q] = s.queues[q]
  vfs : t.vfs = s.vfs
  boughs : t.boughs = s.boughs
  mem : t.mem = s.mem
  port : OnlyPort n s t

theorem fnQueues_congr {s t : State} (h : t.grn = s.grn) (fn : HostFn) : t.fnQueues fn = s.fnQueues fn := by
  unfold State.fnQueues State.hostProd State.hostCons State.prodOf State.consOf
  simp only [State.queueRec_congr h]

/-- The functions' registers as the reset of a physical function leaves them. -/
def HostPort.pfReset (p : HostPort) : HostPort := { p with sizeLog2 := 30, vfBar2 := 29, aspm := false, pf := Func.start }

theorem pfReset_of {s : State} {n : PortId} (h : ∀ t ∈ s.txns, t.fn = some (.pf n) → t.who = .host n) :
    PfReset n s (((s.fnQueues (.pf n)).foldl (fun (s : State) q => s.requestFlush q) (s.absorbFn (.pf n))).modPort n HostPort.pfReset) := by
  have hlogs : LogsWrites n s (s.discardWrites fun t => t.fn == some (.pf n)) := State.discardWrites_logs_of fun t ht hfn => h t ht (beq_iff_eq.mp hfn)
  obtain ⟨queues, hflush, hin, hout⟩ := foldl_requestFlush_queues (l := s.fnQueues (.pf n)) (s.absorbFn (.pf n))
  rw [hflush]
  have hframe := hlogs.work.frame
  rw [State.absorbFn_pf] at hout ⊢
  generalize s.discardWrites (fun t => t.fn == some (.pf n)) = u at hlogs hframe hout ⊢
  have hqueues : u.queues = s.queues := (congrArg State.queues hframe :)
  refine ⟨getLsbD_withBit_self _ n.isLt, congrArg HostPort.pf (vmod_get_self _ n _), hin, fun q hq => (hout q hq).trans (by rw [← hqueues]; rfl),
    (congrArg State.vfs hframe :), (congrArg State.boughs hframe :), (congrArg State.mem hframe :), onlyPort_of_others fun m hm => ?_⟩
  exact ((vmod_get_ne _ _ hm).trans (vmod_get_ne _ _ hm)).trans (hlogs.other m hm)

theorem exec_pfFlr_of_up {s : State} {n : PortId} (hpresent : s.portPresent n = true) (hup : s.ports[n].linkUp = true) :
    exec (.pfFlr n) s =
      .next (((s.fnQueues (.pf n)).foldl (fun (s : State) q => s.requestFlush q) (s.absorbFn (.pf n))).modPort n HostPort.pfReset) := by
  have hgrn : (s.absorbFn (.pf n)).grn = s.grn := (congrArg State.grn (s.absorbFn_drops (.pf n)).frame :)
  rw [show exec (.pfFlr n) s = execPfFlr n s from rfl, execPfFlr, hpresent, hup, Bool.and_self, if_pos rfl]
  dsimp only
  rw [fnQueues_congr hgrn]
  exact congrArg Host.Outcome.next (State.modPort_modPort _ n _ _)

/-! ### Configuration requests (R467) -/

theorem exec_configRequest_of_down {s : State} {n : PortId} {fn : HostFn} {op : CfgOp} (hup : s.ports[n].linkUp = true)
    (hwaits : s.portWaits n (.configRequest n fn op) = false) (hbrought : s.ports[n].broughtUp = false) :
    exec (.configRequest n fn op) s = .next (s.emit (.cfgCompletion n true)) := by
  rw [show exec (.configRequest n fn op) s = execConfigRequest n fn op s from rfl, execConfigRequest, hup, hwaits, State.configServe, hbrought]
  rfl

theorem exec_configRequest_of_pf {s : State} {n : PortId} {op : CfgOp} (hup : s.ports[n].linkUp = true)
    (hwaits : s.portWaits n (.configRequest n (.pf n) op) = false) (hbrought : s.ports[n].broughtUp = true) (hpresent : s.portPresent n = true) :
    exec (.configRequest n (.pf n) op) s = .next ((s.configWrite n (.pf n) op).emit (.cfgCompletion n false)) := by
  have hfn : s.fnOnPort n (.pf n) = true := by
    rw [State.fnOnPort, hpresent]
    exact beq_self_eq_true n
  rw [show exec (.configRequest n (.pf n) op) s = execConfigRequest n (.pf n) op s from rfl, execConfigRequest, hup, hwaits, State.configServe, hbrought, hfn]
  rfl

theorem State.sendEntries_of_none {s : State} {fn : HostFn} (h : ∀ e, s.entryPending fn e = false) : s.sendEntries fn = s := by
  unfold State.sendEntries
  generalize List.range (s.msixCount fn) = l
  induction l with
  | nil => rfl
  | cons e l ih =>
    have he : s.sendEntry fn e = s := if_neg (Bool.eq_false_iff.mp (h e))
    rw [List.foldl_cons, he]
    exact ih

theorem State.configWrite_msixEnable {s : State} {n : PortId} (h : ∀ e, s.entryPending (.pf n) e = false) (on : Bool) :
    s.configWrite n (.pf n) (.msixEnable on) = s.modPort n fun p => { p with pf := { p.pf with msixEn := on } } := by
  unfold State.configWrite
  dsimp only
  split_ifs
  · exact State.sendEntries_of_none h
  · rfl

theorem foldl_enable {vs : List VfId} (s : State) (on : Bool) :
    ∃ vfs, vs.foldl (fun (s : State) v => s.modVf v fun f => { f with enabled := on }) s = { s with vfs := vfs } ∧
      ∀ v : VfId, vfs[v] = if v ∈ vs then { s.vfs[v] with enabled := on } else s.vfs[v] := by
  induction vs generalizing s with
  | nil => exact ⟨s.vfs, rfl, fun v => (if_neg List.not_mem_nil).symm⟩
  | cons w vs ih =>
    obtain ⟨vfs, heq, hvfs⟩ := ih (s.modVf w fun f => { f with enabled := on })
    refine ⟨vfs, heq, fun v => (hvfs v).trans ?_⟩
    have hw : (s.modVf w fun f => { f with enabled := on }).vfs[v] = if v = w then { s.vfs[w] with enabled := on } else s.vfs[v] := vmod_get s.vfs w v _
    rw [hw]
    by_cases hvw : v = w
    · subst hvw
      rw [if_pos rfl, if_pos List.mem_cons_self]
      split_ifs <;> rfl
    · rw [if_neg hvw]
      simp only [List.mem_cons, hvw, false_or]

end Sys2Proof.Machine
open Sys2Proof Sys2Proof.Machine Sys2Proof.Safety

/-- Settles O44: a VF resets with its plot, a PF by its share, and a configuration write changes what it names. -/
theorem functionsAndConfig : Obligations.FunctionsAndConfig := by
  unfold Obligations.FunctionsAndConfig
  refine ⟨fun s v => ?vf, fun s n hpresent hup htxns => ?pf, fun s n hup => ?config⟩
  case vf =>
    intro n hpresent hup
    refine ⟨fun hnone => ?_, fun m hv hlt hm => ?_⟩
    · have hexec : exec (.vfFlr v) s = .next (s.resetFn (.vf v)) := by
        have hvf : (s.resetFn (.vf v)).vfPlot v.val = none := hnone
        rw [show exec (.vfFlr v) s = execVfFlr v s from rfl, execVfFlr]
        dsimp only
        rw [hpresent, hup, Bool.and_self, if_pos rfl, hvf]
      exact ⟨_, hexec, vmod_get_self .., fun u hu => vmod_get_ne s.vfs _ hu, rfl⟩
    · intro p hbusy hst
      have hplot : s.plotMap (plotId m.plot).val = some m := by rw [val_plotId hlt]; exact hm
      exact ⟨_, exec_vfFlr_of_plot hpresent hup hv hplot hbusy hst, s.flrReset_spec v p m⟩
  case pf =>
    obtain ⟨h1, h2, h3, h4, h5, h6, h7, h8⟩ := pfReset_of htxns
    exact ⟨_, exec_pfFlr_of_up hpresent hup, h1, h2, h3, h4, h5, h6, h7, h8⟩
  case config =>
    intro go
    refine ⟨fun fn op hbrought hwaits => ⟨_, exec_configRequest_of_down hup hwaits hbrought, rfl, rfl⟩, fun hbrought hpresent =>
      ⟨fun on hwaits => ?aspm, fun k hlow hhigh hwaits => ?bar, fun on hnone hwaits => ?msix, fun on hwaits => ?enable⟩⟩
    case aspm =>
      exact ⟨_, exec_configRequest_of_pf hup hwaits hbrought hpresent, s.modPort_port_self n _, rfl, s.onlyPort_modPort n _, rfl⟩
    case bar =>
      have hexec := exec_configRequest_of_pf hup hwaits hbrought hpresent
      rw [show s.configWrite n (.pf n) (.resizeBar2 k) = _ from if_pos ⟨hlow, hhigh⟩] at hexec
      exact ⟨_, hexec, s.modPort_port_self n _, s.onlyPort_modPort n _, rfl⟩
    case msix =>
      have hexec := exec_configRequest_of_pf hup hwaits hbrought hpresent
      rw [State.configWrite_msixEnable hnone] at hexec
      exact ⟨_, hexec, congrArg HostPort.pf (s.modPort_port_self n _), rfl, s.onlyPort_modPort n _, rfl⟩
    case enable =>
      have hexec := exec_configRequest_of_pf hup hwaits hbrought hpresent
      obtain ⟨vfs, hfold, hvfs⟩ := foldl_enable (vs := s.portVfs n) s on
      rw [show s.configWrite n (.pf n) (.vfEnable on) = _ from hfold] at hexec
      exact ⟨_, hexec, fun v hv => (hvfs v).trans (if_pos hv), fun v hv => (hvfs v).trans (if_neg hv), rfl⟩
end

section
/-! SUPPORT. What the steps of Dormant entry do, and how a wake source abandons it; and the settling of O51. -/
namespace Sys2Proof.Machine
open Sys2Proof.Safety

theorem State.entering_iff (s : State) : s.entering = true ↔ s.sys.mode = .drain ∧ s.sys.drainFor = some .dormant := by
  simp [State.entering]

theorem exec_dormantStepComplete_of_entering {s : State} (h : s.sys.mode = .drain ∧ s.sys.drainFor = some .dormant) :
    exec .dormantStepComplete s = .next s.entryStep := if_pos (s.entering_iff.mpr h)

theorem vmap_get {α β : Type} {k : Nat} (v : Vector α k) (f : α → β) (i : Fin k) : (v.map f)[i] = f v[i] := Vector.getElem_map _ i.isLt

/-! ### The stacks while the slices settle (R280) -/

/-- From s to t every stack keeps its state. -/
structure StacksKept (s t : State) : Prop where
  state : ∀ k : StackId, t.hbm[k].state = s.hbm[k].state

namespace StacksKept

variable {s t u : State}

theorem of_hbm (h : t.hbm = s.hbm) : StacksKept s t := ⟨fun k => by rw [h]⟩

theorem refl (s : State) : StacksKept s s := ⟨fun _ => rfl⟩

theorem trans (h : StacksKept s t) (k : StacksKept t u) : StacksKept s u := ⟨fun i => (k.state i).trans (h.state i)⟩

theorem foldl {α : Type} {f : State → α → State} (h : ∀ s a, StacksKept s (f s a)) (l : List α) (s : State) : StacksKept s (l.foldl f s) :=
  foldl_rel refl (fun _ _ _ => trans) h l s

theorem modStack (s : State) (i : StackId) {f : Stack → Stack} (h : (f s.hbm[i]).state = s.hbm[i].state) : StacksKept s (s.modStack i f) :=
  ⟨vmod_get_of_kept Stack.state h⟩

theorem modMem (s : State) (f : Memory → Memory) : StacksKept s (s.modMem f) := .of_hbm rfl

theorem ite {c : Prop} [Decidable c] (ht : StacksKept s t) (hu : StacksKept s u) : StacksKept s (if c then t else u) := by
  split <;> assumption

end StacksKept

theorem State.hbm_ringAdd (s : State) (i k : Nat) : (s.ringAdd i k).hbm = s.hbm := by
  unfold State.ringAdd
  split <;> rfl

theorem State.hbm_notice (s : State) (was : Bool) (reg : String) : (s.notice was reg).hbm = s.hbm := by
  unfold State.notice
  split <;> rfl

theorem State.eccRoot_stacks (s : State) (w : Nat) (k : Mark) (scrub count : Bool) : StacksKept s (s.eccRoot w k scrub count) := by
  unfold State.eccRoot
  extract_lets d syn t i x ue log y
  have ht : StacksKept s t := .of_hbm rfl
  have hmod : StacksKept t (t.modStack i fun _ => y) := .modStack t i rfl
  exact (ht.trans hmod).trans (.of_hbm ((State.hbm_notice ..).trans (State.hbm_ringAdd ..)))

theorem State.eccScratch_stacks (s : State) (b : BoughId) (w : Nat) (k : Mark) (sweep : Bool) : StacksKept s (s.eccScratch b w k sweep) :=
  .of_hbm ((State.hbm_notice ..).trans (State.hbm_ringAdd ..))

theorem State.observe_stacks (s : State) (a n : Nat) (bg : Bool) : StacksKept s (s.observe a n bg) := by
  unfold State.observe
  refine .foldl (fun s w => ?_) _ s
  split
  · exact .refl s
  · split
    · exact s.eccRoot_stacks ..
    · exact s.eccScratch_stacks ..
    · exact .refl s

theorem State.injectInto_stacks (s : State) (bs : List (Nat × Byte)) : StacksKept s (s.injectInto bs) := by
  unfold State.injectInto
  refine .ite (.refl s) (.foldl (fun s i => ?_) _ s)
  refine .ite ?_ (.refl s)
  refine StacksKept.trans (.of_hbm ?_) (.modStack _ i rfl)
  show (if _ then s.flipTwo _ else s).hbm = s.hbm
  split <;> rfl

theorem State.storeBytes_stacks (s : State) (bs : List (Nat × Byte)) : StacksKept s (s.storeBytes bs) := by
  unfold State.storeBytes
  have hobserve : StacksKept s ((mergeWords bs).foldl (fun s w => s.observe (8 * w) 8 false) s) := .foldl (fun s w => s.observe_stacks ..) _ s
  exact (hobserve.trans (.modMem _ fun m => m.write bs)).trans (State.injectInto_stacks ..)

theorem State.hbm_meterWrite (s : State) (p : Option Nat) (k : Nat) : (s.meterWrite p k).hbm = s.hbm := by
  unfold State.meterWrite State.spend
  cases p <;> rfl

theorem State.commitBurst_stacks (s : State) (younger : List Nat) (b : Burst) : StacksKept s (s.commitBurst younger b) := by
  unfold State.commitBurst
  refine ((State.storeBytes_stacks ..).trans (.foldl (fun s w => ?_) _ _)).trans (.of_hbm (State.hbm_meterWrite ..))
  exact StacksKept.trans (.modMem s _) (State.eccRoot_stacks _ w .fresh false false)

theorem State.settleSlices_stacks (s : State) : StacksKept s s.settleSlices := by
  unfold State.settleSlices
  extract_lets marked decided staged t
  have ht : StacksKept s t := .of_hbm rfl
  exact ht.trans (.foldl (fun s b => s.commitBurst_stacks [] b) _ t)

/-! ### The reads that the slices still answer -/

/-- From s to t the answers of reads have reached who waits for them. -/
structure Answered (s t : State) : Prop where
  frame : { t with boughs := s.boughs, ports := s.ports, crn := s.crn } = s

namespace Answered

theorem refl (s : State) : Answered s s := ⟨rfl⟩

theorem trans {s t u : State} (h : Answered s t) (k : Answered t u) : Answered s u :=
  ⟨(congrArg (fun x : State => { x with boughs := s.boughs, ports := s.ports, crn := s.crn }) k.frame :).trans h.frame⟩

end Answered

theorem State.respond_answered (s : State) (r : ReadReq) (c : Chunk) : Answered s (s.respond r c) := by
  have htwig : ∀ (t : TwigId) (f : Twig → Twig), Answered s (s.modTwig t f) := fun t f => by cases t <;> exact ⟨rfl⟩
  have hbough : ∀ (s : State) (b : BoughId) (f : Bough → Bough), Answered s (s.modBough b f) := fun _ _ _ => ⟨rfl⟩
  unfold State.respond
  split
  · exact ⟨rfl⟩
  · dsimp only
    split
    · exact (htwig _ _).trans (hbough _ _ _)
    · exact htwig _ _
  · exact ⟨rfl⟩

/-- Answered reads leave a state as it is but for the reads queued at the slices. -/
theorem State.finishReads_answered (s : State) : Answered { s with slices := s.slices.map fun k => { k with queue := [] } } s.finishReads := by
  unfold State.finishReads
  exact foldl_rel Answered.refl (fun _ _ _ => Answered.trans) (fun s q => s.respond_answered ..) _ _

/-- What the second step of entry leaves. -/
structure SelfRefreshed (s t : State) : Prop where
  sys : t.sys = s.sys
  tick : t.ring.tick = s.ring.tick
  slices : ∀ k : SliceId, t.slices[k].writing = [] ∧ t.slices[k].staging = []
  refreshing : ∀ k : StackId, s.hbm[k].state = 2 → t.hbm[k].state = 3

theorem State.selfRefresh_spec (s : State) : SelfRefreshed s s.selfRefresh := by
  have hreads := s.finishReads_answered.frame
  have hsettle := s.finishReads.settleSlices_standing
  have hstacks := s.finishReads.settleSlices_stacks
  unfold State.selfRefresh
  generalize s.finishReads = u at hreads hsettle hstacks
  generalize u.settleSlices = v at hsettle hstacks
  have hsys : u.sys = s.sys := (congrArg State.sys hreads :)
  have htick : u.ring.tick = s.ring.tick := (congrArg (fun x : State => x.ring.tick) hreads :)
  have hhbm : u.hbm = s.hbm := (congrArg State.hbm hreads :)
  refine ⟨(State.sys_of_standing hsettle).trans hsys, (State.tick_of_standing hsettle).trans htick, fun k => ?_, fun k hk => ?_⟩
  · simp
  · have hv : v.hbm[k].state = 2 := by rw [hstacks.state k, hhbm, hk]
    exact (congrArg Stack.state (vmap_get v.hbm _ k)).trans (congrArg Stack.state (if_pos hv))

theorem State.writeFlush_rest (s : State) : s.writeFlush.sys = s.sys ∧ s.writeFlush.slices = s.slices ∧ s.writeFlush.hbm = s.hbm := by
  unfold State.writeFlush
  split <;> exact ⟨rfl, rfl, rfl⟩

/-- The slices empty, the stacks in self-refresh, and the flush area written: the third step of entry begins. -/
theorem State.selfRefresh_flushed (s : State) : (s.selfRefresh.writeFlush.toStep 3).pwr.dormStep = 3 ∧ (s.selfRefresh.writeFlush.toStep 3).sys = s.sys ∧
    (∀ k : SliceId, (s.selfRefresh.writeFlush.toStep 3).slices[k].writing = [] ∧ (s.selfRefresh.writeFlush.toStep 3).slices[k].staging = []) ∧
    (∀ k : StackId, s.hbm[k].state = 2 → (s.selfRefresh.writeFlush.toStep 3).hbm[k].state = 3) ∧
    (s.sys.restoreDue = none → (s.selfRefresh.writeFlush.toStep 3).ring.flush.map (fun f => f.tick) = some s.ring.tick) := by
  have h := s.selfRefresh_spec
  generalize s.selfRefresh = t at h
  obtain ⟨hsys, hslices, hhbm⟩ := t.writeFlush_rest
  have hflush := State.writeFlush_flush (s := t)
  generalize t.writeFlush = u at hsys hslices hhbm hflush
  refine ⟨rfl, hsys.trans h.sys, fun k => ?_, fun k hk => ?_, fun hdue => ?_⟩
  · have hk := h.slices k
    rw [← hslices] at hk
    exact hk
  · have hrefreshing := h.refreshing k hk
    rw [← hhbm] at hrefreshing
    exact hrefreshing
  · exact (hflush (by rw [h.sys]; exact hdue)).trans (congrArg some h.tick)

/-! ### The links (R503) -/

/-- A port's loss of its partner leaves the other ports but for flits that wait. -/
theorem State.partnerLost_others (s : State) (n : PortId) (leave : Bool) {m : PortId} (hm : m ≠ n) :
    (s.partnerLost n leave).grafts[m].still = s.grafts[m].still := by
  obtain ⟨u, cnp, t, hu, -, hsevered, hlost⟩ := s.partnerLost_stages n leave
  have hleaving := s.leaving_flitsOut n leave
  rw [← hu] at hleaving
  obtain ⟨evts, hback⟩ := t.setBack_eq n
  have hstill : t.grafts[m].still = u.grafts[m].still := hsevered.ports m
  rw [hleaving.work.1 m hm] at hstill
  rw [hlost, hback]
  exact (congrArg GraftPort.still (t.graft_modGraft_ne _ hm)).trans hstill

/-- What the end of a graft link leaves: the port at rest, the others but for flits that wait, and what stands. -/
structure GraftEnded (n : PortId) (s t : State) : Prop where
  st : t.grafts[n].st = s.graftRest n
  others : ∀ m, m ≠ n → t.grafts[m].still = s.grafts[m].still
  standing : t.standing = s.standing
  mem : t.mem = s.mem

theorem State.graftDown_ended (s : State) (n : PortId) : GraftEnded n s (s.graftDown n) := by
  unfold State.graftDown
  split
  · exact ⟨(s.partnerLost_gone n true).1.st, fun m hm => s.partnerLost_others n true hm, State.partnerLost_standing .., State.partnerLost_mem ..⟩
  · exact ⟨congrArg GraftPort.st (State.graft_modGraft_self ..), fun m hm => congrArg GraftPort.still (State.graft_modGraft_ne _ _ hm), rfl, rfl⟩

theorem Posts.ports {s t : State} (h : Posts s t) : t.ports = s.ports := (congrArg State.ports h.frame :)

theorem Voids.ports {s t : State} (h : Voids s t) : t.ports = s.ports := (congrArg State.ports h.frame :)

theorem Breaks.ports {s t : State} (h : Breaks s t) : t.ports = s.ports := (congrArg State.ports h.frame :)

/-- From s to t the host ports are as they were. -/
structure PortsKept (s t : State) : Prop where
  ports : t.ports = s.ports

theorem State.severed_ports (s : State) (n : PortId) : PortsKept s (((s.breakLinks (fun l => l.crosses n) 3).graftQueuesDown n).graftLost n) :=
  ⟨((State.graftLost_tells _ n).2.ports.trans (State.graftQueuesDown_voids _ n).ports).trans (s.breakLinks_breaks _ 3).ports⟩

theorem State.ports_setBack (s : State) (n : PortId) : (s.setBack n).ports = s.ports := by
  obtain ⟨evts, h⟩ := s.setBack_eq n
  rw [h]
  rfl

theorem State.ports_leaving (s : State) (n : PortId) (leave : Bool) : (s.leaving n leave).ports = s.ports :=
  (congrArg State.ports (s.leaving_flitsOut n leave).work.2 :)

/-- The stages of a loss, by the state that is severed. -/
theorem State.partnerLost_severed (s : State) (n : PortId) (leave : Bool) : ∃ t : State, PortsKept (s.leaving n leave) t ∧
    s.partnerLost n leave = t.setBack n := by
  unfold State.partnerLost
  extract_lets u cnp s2 s3 s4
  have h4 : PortsKept s2 s4 := s2.severed_ports n
  clear_value s4
  exact ⟨s4, ⟨h4.ports⟩, rfl⟩

theorem State.ports_partnerLost (s : State) (n : PortId) (leave : Bool) : (s.partnerLost n leave).ports = s.ports := by
  obtain ⟨t, ht, heq⟩ := s.partnerLost_severed n leave
  rw [heq, State.ports_setBack, ht.ports]
  exact s.ports_leaving n leave

theorem State.ports_graftDown (s : State) (n : PortId) : (s.graftDown n).ports = s.ports := by
  unfold State.graftDown
  split
  · exact s.ports_partnerLost n true
  · rfl

/-- The graft ports of a list that go down. -/
def State.graftsDown (s : State) (l : List PortId) : State := l.foldl (fun (s : State) n => if s.grafts[n].st == .off then s else s.graftDown n) s

/-- The ports of a list at rest after a round, the others but for flits that wait; what stands, memory and host ports. -/
structure GraftsEnded (l : List PortId) (s t : State) : Prop where
  st : ∀ n ∈ l, t.grafts[n].st = if s.grafts[n].st = .off then .off else s.graftRest n
  others : ∀ m, m ∉ l → t.grafts[m].still = s.grafts[m].still
  standing : t.standing = s.standing
  mem : t.mem = s.mem
  ports : t.ports = s.ports

theorem State.graftDown_step (s : State) (n : PortId) : GraftsEnded [n] s (if s.grafts[n].st == .off then s else s.graftDown n) := by
  split
  next hoff =>
    refine ⟨fun m hm => ?_, fun _ _ => rfl, rfl, rfl, rfl⟩
    rw [List.mem_singleton.mp hm, if_pos (beq_iff_eq.mp hoff)]
    exact beq_iff_eq.mp hoff
  next hon =>
    have h := s.graftDown_ended n
    refine ⟨fun m hm => ?_, fun m hm => h.others m fun e => hm (List.mem_singleton.mpr e), h.standing, h.mem, s.ports_graftDown n⟩
    rw [List.mem_singleton.mp hm, if_neg fun e => hon (beq_iff_eq.mpr e)]
    exact h.st

theorem State.graftsDown_spec {l : List PortId} (hl : l.Nodup) (s : State) : GraftsEnded l s (s.graftsDown l) := by
  induction l generalizing s with
  | nil => exact ⟨fun _ h => absurd h List.not_mem_nil, fun _ _ => rfl, rfl, rfl, rfl⟩
  | cons n l ih =>
    have hn : n ∉ l := (List.nodup_cons.mp hl).1
    have hstep := s.graftDown_step n
    have hrest := ih (List.nodup_cons.mp hl).2 (if s.grafts[n].st == .off then s else s.graftDown n)
    show GraftsEnded (n :: l) s (State.graftsDown (if s.grafts[n].st == .off then s else s.graftDown n) l)
    generalize (if s.grafts[n].st == .off then s else s.graftDown n) = t at hstep hrest
    refine ⟨fun m hm => ?_, fun m hm => ?_, hrest.standing.trans hstep.standing, hrest.mem.trans hstep.mem, hrest.ports.trans hstep.ports⟩
    · by_cases hmn : m = n
      · subst hmn
        exact (congrArg GraftPort.st (hrest.others m hn) :).trans (hstep.st m (List.mem_singleton.mpr rfl))
      · have hkept := hstep.others m fun h => hmn (List.mem_singleton.mp h)
        have hgraft : t.graftRest m = s.graftRest m := State.graftRest_congr (congrArg GraftPort.hold hkept :) (congrArg Standing.grn hstep.standing)
        have hst : t.grafts[m].st = s.grafts[m].st := (congrArg GraftPort.st hkept :)
        rw [hrest.st m ((List.mem_cons.mp hm).resolve_left hmn), hst, hgraft]
    · rw [List.mem_cons, not_or] at hm
      exact (hrest.others m hm.2).trans (hstep.others m fun h => hm.1 (List.mem_singleton.mp h))

/-! ### The capture (R329, R508) -/

theorem foldl_bankCrcs (l : List BoughId) (s : State) :
    ∃ scr, l.foldl (fun s b => s.bankCrcs b) s = { s with scr := scr } ∧ ∀ b ∈ l, scr[b].crcs.length = 32 := by
  induction l generalizing s with
  | nil => exact ⟨s.scr, rfl, fun _ h => absurd h List.not_mem_nil⟩
  | cons c l ih =>
    have hone : (s.bankCrcs c).scr[c].crcs.length = 32 := by
      have hself : (s.bankCrcs c).scr[c] = _ := vmod_get_self s.scr c _
      rw [hself, List.length_map, List.length_range]
    have hkept : ∀ (l : List BoughId) (t : State), t.scr[c].crcs.length = 32 → (l.foldl (fun s b => s.bankCrcs b) t).scr[c].crcs.length = 32 := by
      intro l
      induction l with
      | nil => exact fun _ h => h
      | cons d l ih =>
        refine fun t h => ih (t.bankCrcs d) ?_
        by_cases hd : c = d
        · subst hd
          have hself : (t.bankCrcs c).scr[c] = _ := vmod_get_self t.scr c _
          rw [hself, List.length_map, List.length_range]
        · exact (congrArg (fun x : Scratch => x.crcs.length) (vmod_get_ne t.scr _ hd)).trans h
    have hlast := hkept l _ hone
    obtain ⟨scr, heq, hscr⟩ := ih (s.bankCrcs c)
    rw [heq] at hlast
    refine ⟨scr, heq, fun b hb => ?_⟩
    rcases List.mem_cons.mp hb with rfl | hb
    · exact hlast
    · exact hscr b hb

theorem State.domainSigs_spec (s : State) (k : Nat) : (s.domainSigs k).1.length = k ∧ ∃ fresh, (s.domainSigs k).2 = { s with fresh := fresh } := by
  induction k generalizing s with
  | zero => exact ⟨rfl, s.fresh, rfl⟩
  | succ k ih =>
    obtain ⟨hlen, fresh, heq⟩ := ih s.draw.2
    exact ⟨congrArg Nat.succ hlen, fresh, heq⟩

theorem State.capture_spec (s : State) : ∃ scr fresh sigs, s.capture = { s with scr := scr, fresh := fresh, pwr := { s.pwr with sigs := sigs } } ∧ sigs.length = 18 ∧
    ∀ b : BoughId, scr[b].crcs.length = 32 := by
  obtain ⟨scr, hfold, hcrcs⟩ := foldl_bankCrcs (List.finRange 256) s
  obtain ⟨hlen, fresh, hsigs⟩ := ({ s with scr := scr } : State).domainSigs_spec 18
  unfold State.capture
  rw [hfold]
  dsimp only
  rw [hsigs]
  exact ⟨scr, fresh, _, rfl, hlen, fun b => hcrcs b (List.mem_finRange b)⟩

/-! ### DORMANT itself, and the way back (R503, R504) -/

/-- A level request changes what the sequencer does next, and tells the supply. -/
theorem State.changeLevel_fields (s : State) (l : Fin 4) : ∃ kept lvl mv outbox,
    s.changeLevel l = { s with pwr := { s.pwr with keptReq := kept, lvl := lvl, targetMv := mv }, outbox := outbox } := by
  unfold State.changeLevel
  dsimp only
  split_ifs
  all_goals exact ⟨_, _, _, _, rfl⟩

theorem State.carryKept_fields (s : State) : ∃ kept lvl mv outbox,
    s.carryKept = { s with pwr := { s.pwr with keptReq := kept, lvl := lvl, targetMv := mv }, outbox := outbox } := by
  unfold State.carryKept
  split
  · exact (s.modPwr fun p => { p with keptReq := none }).changeLevel_fields _
  · exact ⟨_, _, _, _, rfl⟩

/-- The sequencer once Dormant entry or the wake is over. -/
def Pwr.returned (p : Pwr) : Pwr := { p with dormEnter := false, dormStep := 0, latched := none }

theorem State.setMode_fields {s : State} (hlin : s.linearInForce = false) (m : Mode) :
    s.setMode m = { s with sys := { s.sys with mode := m }, crownEvts := s.crownEvts ++ [.modeChange m] } := State.setMode_of_mapped hlin m

/-- The last steps back to RUN: the mode, a kept request, the host links, and what waited at the ports. -/
theorem State.runAgain_eq {s : State} (hlin : s.linearInForce = false) (hheld : ∀ n : PortId, s.ports[n].held = []) :
    ∃ kept lvl mv outbox evts, State.serveAll { (s.setMode .run).carryKept with
        ports := (s.setMode .run).carryKept.ports.map fun (p : HostPort) => { p with l1 := false } } =
      { s with sys := { s.sys with mode := .run }, pwr := { s.pwr with keptReq := kept, lvl := lvl, targetMv := mv },
               ports := s.ports.map fun (p : HostPort) => { p with l1 := false }, outbox := outbox, crownEvts := evts } := by
  rw [State.setMode_fields hlin]
  obtain ⟨kept, lvl, mv, outbox, hcarry⟩ := ({ s with sys := { s.sys with mode := .run }, crownEvts := s.crownEvts ++ [.modeChange .run] } : State).carryKept_fields
  refine ⟨kept, lvl, mv, outbox, s.crownEvts ++ [.modeChange .run], ?_⟩
  rw [hcarry]
  exact State.serveAll_of_held_nil _ fun n => (congrArg HostPort.held (vmap_get s.ports _ n)).trans (hheld n)

/-- The state in which FREEZE has cleared and entry is over. -/
def State.thawed (s : State) : State := ((s.modSys fun x => { x with drainFor := none }).modPwr Pwr.returned).unfreezeAll

theorem State.backToRun_eq {s : State} (hlin : s.linearInForce = false) (hheld : ∀ n : PortId, s.ports[n].held = []) :
    ∃ kept lvl mv outbox evts, s.backToRun = { s.thawed with
      sys := { s.thawed.sys with mode := .run }, pwr := { s.thawed.pwr with keptReq := kept, lvl := lvl, targetMv := mv },
      ports := s.thawed.ports.map fun (p : HostPort) => { p with l1 := false }, outbox := outbox, crownEvts := evts } :=
  State.runAgain_eq (s := s.thawed) hlin hheld

/-- A bough of no plot after FREEZE clears. -/
theorem State.unfreezeAll_bough {s : State} {b : BoughId} (h : s.boughPlot b.val = none) : s.unfreezeAll.bough b = { s.bough b with freeze := false } := by
  unfold State.unfreezeAll State.bough
  simp [h]

theorem State.recFlagAll_plots (s : State) (bit : Nat) : ∃ plots, s.recFlagAll bit = { s with plots := plots } :=
  (s.recFlagAll_eq bit).imp fun _ h => h.1

/-- The count of Dormant entries, and its flag in every plot's record. -/
theorem State.entryCounted_eq (s : State) : ∃ plots rings, (s.ringAdd 29 1).recFlagAll 9 = { s with plots := plots, ring := { s.ring with rings := rings } } := by
  rw [show s.ringAdd 29 1 = _ from s.ringAdd_val (29 : Fin 32) 1]
  obtain ⟨plots, hplots⟩ := ({ s with ring := { s.ring with rings := vmod s.ring.rings 29 fun x => satAdd 64 x 1 } } : State).recFlagAll_plots 9
  exact ⟨plots, _, hplots⟩

theorem State.dormantNoted_eq {s : State} (hlin : s.linearInForce = false) : ∃ plots rings evts, ((s.setMode .dormant).ringAdd 29 1).recFlagAll 9 =
    { s with sys := { s.sys with mode := .dormant }, plots := plots, ring := { s.ring with rings := rings }, crownEvts := evts } := by
  rw [State.setMode_fields hlin]
  obtain ⟨plots, rings, h⟩ :=
    ({ s with sys := { s.sys with mode := .dormant }, crownEvts := s.crownEvts ++ [.modeChange .dormant] } : State).entryCounted_eq
  exact ⟨plots, rings, _, h⟩

/-- The state in which the detector is armed. -/
def State.armed (s : State) : State :=
  { s with pwr := { s.pwr.returned with targetMv := 0 }, outbox := s.outbox ++ [.avs 0], sys := { s.sys with drainFor := none } }

theorem State.armed_eq (s : State) : ((s.avs 0).modPwr fun p => { p with dormEnter := false, dormStep := 0, latched := none }).modSys (fun x => { x with drainFor := none }) =
    s.armed := by
  rw [State.avs_eq]
  rfl

/-- The device in DORMANT; a latched source starts the wake. -/
theorem State.armDetector_eq {s : State} (hlin : s.linearInForce = false) : ∃ plots rings evts,
    (s.pwr.latched = none → s.armDetector =
      { s.armed with sys := { s.armed.sys with mode := .dormant }, plots := plots, ring := { s.armed.ring with rings := rings }, crownEvts := evts }) ∧
    ∀ c, s.pwr.latched = some c → s.armDetector = State.startWake
      { s.armed with sys := { s.armed.sys with mode := .dormant }, plots := plots, ring := { s.armed.ring with rings := rings }, crownEvts := evts } c := by
  have harmed : s.armed.linearInForce = false := by
    unfold State.armed
    exact hlin
  obtain ⟨plots, rings, evts, hnoted⟩ := State.dormantNoted_eq harmed
  refine ⟨plots, rings, evts, fun hnone => ?_, fun c hc => ?_⟩
  · rw [← hnoted, State.armDetector, hnone, ← State.armed_eq]
  · rw [← hnoted, State.armDetector, hc, ← State.armed_eq]

/-- What DORMANT leaves, and what a latched source adds. -/
theorem State.armDetector_spec {s : State} (hlin : s.linearInForce = false) :
    s.armDetector.sys.mode = .dormant ∧ s.armDetector.pwr.dormEnter = false ∧ s.armDetector.pwr.dormStep = 0 ∧ s.armDetector.boughs = s.boughs ∧
      s.armDetector.queues = s.queues ∧ s.armDetector.mem = s.mem ∧
      (s.pwr.latched = none → s.armDetector.pwr.targetMv = 0 ∧ s.armDetector.pwr.wakeStep = s.pwr.wakeStep) ∧
      ∀ c, s.pwr.latched = some c → s.armDetector.pwr.wakeStep = 1 ∧ s.armDetector.pwr.wakeCause = c := by
  obtain ⟨plots, rings, evts, hnone, hsome⟩ := State.armDetector_eq hlin
  cases hc : s.pwr.latched with
  | none =>
    rw [hnone hc]
    exact ⟨rfl, rfl, rfl, rfl, rfl, rfl, fun _ => ⟨rfl, rfl⟩, fun _ h => absurd h (by simp)⟩
  | some c =>
    rw [hsome c hc, State.startWake, State.avs_eq]
    exact ⟨rfl, rfl, rfl, rfl, rfl, rfl, fun h => absurd h (by simp), fun d h => ⟨rfl, Option.some.inj h⟩⟩

theorem State.beginDrain_eq {s : State} (hlin : s.linearInForce = false) (d : DrainFor) : s.beginDrain d = { s with
    sys := { s.sys with drainFor := some d, mode := .drain }, boughs := s.boughs.map fun y => { y with freeze := true },
    crownEvts := s.crownEvts ++ [.modeChange .drain] } :=
  State.setMode_fields (s := { s with sys := { s.sys with drainFor := some d }, boughs := s.boughs.map fun y => { y with freeze := true } }) hlin .drain

/-- Entry begins: every bough frozen, and DRAIN. -/
theorem State.startDormant_eq {s : State} {g : Grain} (hlin : s.linearInForce = false) (hmode : s.sys.mode = .run) (hg : s.grn.active = some g)
    (hen : g.dormantEn = true) (hreq : s.grn.req = none) (hbusy : s.lvlBusy = false) (henter : s.pwr.dormEnter = false)
    (hidle : ∀ m ∈ s.plotMaps, s.plots[plotId m.plot].st = .parked ∨ s.plotIdle m = true) :
    s.startDormant = { s with pwr := { s.pwr with dormEnter := true, dormStep := 1, latched := none }, boughs := s.boughs.map fun y => { y with freeze := true },
                              sys := { s.sys with drainFor := some .dormant, mode := .drain }, crownEvts := s.crownEvts ++ [.modeChange .drain] } := by
  have hall : (s.plotMaps.all fun m => s.plots[plotId m.plot].st == .parked || s.plotIdle m) = true :=
    List.all_eq_true.mpr fun m hm => by simpa using hidle m hm
  have hok : (s.sys.mode == .run && (s.grn.active.map (·.dormantEn)).getD false && s.grn.req.isNone && !s.lvlBusy && !s.pwr.dormEnter &&
      s.plotMaps.all fun m => s.plots[plotId m.plot].st == .parked || s.plotIdle m) = true := by
    rw [hmode, hg, hreq, hbusy, henter, hall]
    simp [hen]
  exact (if_pos hok).trans (State.beginDrain_eq (s := s.modPwr fun p => { p with dormEnter := true, dormStep := 1, latched := none }) hlin _)

theorem State.startDormant_of_not {s : State} (h : s.sys.mode ≠ .run ∨ s.grn.req ≠ none ∨ s.lvlBusy = true) : s.startDormant = s := by
  refine if_neg fun hok => ?_
  simp only [Bool.and_eq_true, beq_iff_eq, Bool.not_eq_true', Option.isNone_iff_eq_none] at hok
  obtain ⟨⟨⟨⟨⟨hmode, -⟩, hreq⟩, hbusy⟩, -⟩, -⟩ := hok
  rcases h with h | h | h
  · exact h hmode
  · exact h hreq
  · exact Bool.false_ne_true (hbusy.symm.trans h)

/-- What the way back to RUN leaves of the state. -/
structure BackInRun (s t : State) : Prop where
  mode : t.sys.mode = .run
  drainFor : t.sys.drainFor = none
  abandoned : t.pwr.abandoned = s.pwr.abandoned
  dormEnter : t.pwr.dormEnter = false
  dormStep : t.pwr.dormStep = 0
  wakeStep : t.pwr.wakeStep = s.pwr.wakeStep
  stepUs : t.pwr.stepUs = s.pwr.stepUs
  mem : t.mem = s.mem
  links : t.links = s.links
  boughs : t.boughs = s.unfreezeAll.boughs

theorem State.backToRun_spec {s : State} (hlin : s.linearInForce = false) (hheld : ∀ n : PortId, s.ports[n].held = []) : BackInRun s s.backToRun := by
  obtain ⟨kept, lvl, mv, outbox, evts, heq⟩ := State.backToRun_eq hlin hheld
  rw [heq]
  exact ⟨rfl, rfl, rfl, rfl, rfl, rfl, rfl, rfl, rfl, rfl⟩

theorem State.unfreezeAll_modPwr (s : State) (f : Pwr → Pwr) : (s.modPwr f).unfreezeAll.boughs = s.unfreezeAll.boughs := rfl

/-- Entry is abandoned: the device is in RUN again. -/
theorem State.abandonEntry_spec {s : State} (hlin : s.linearInForce = false) (hheld : ∀ n : PortId, s.ports[n].held = []) :
    s.abandonEntry.sys.mode = .run ∧ s.abandonEntry.sys.drainFor = none ∧ s.abandonEntry.pwr.abandoned = true ∧ s.abandonEntry.pwr.dormEnter = false ∧
      s.abandonEntry.pwr.dormStep = 0 ∧ s.abandonEntry.mem = s.mem ∧
      ∀ b : BoughId, s.boughPlot b.val = none → s.abandonEntry.bough b = { s.bough b with freeze := false } := by
  have h := State.backToRun_spec (s := s.modPwr fun p => { p with abandoned := true }) hlin hheld
  refine ⟨h.mode, h.drainFor, h.abandoned, h.dormEnter, h.dormStep, h.mem, fun b hb => ?_⟩
  have hboughs : s.abandonEntry.boughs = s.unfreezeAll.boughs := h.boughs.trans (State.unfreezeAll_modPwr ..)
  exact (congrArg (fun v : Vector Bough 256 => v[b]) hboughs).trans (State.unfreezeAll_bough hb)

/-! ### The steps of entry -/

section

variable {s : State} (hent : s.sys.mode = .drain ∧ s.sys.drainFor = some .dormant)
include hent

theorem exec_step_of {t : State} (ht : s.entryStep = t) : exec .dormantStepComplete s = .next t :=
  (exec_dormantStepComplete_of_entering hent).trans (congrArg Host.Outcome.next ht)

theorem exec_step_one (hk : s.pwr.dormStep = 1) :
    exec .dormantStepComplete s = .next (if s.drained && s.boughs.toList.all (fun y => y.twig.canHold) then s.toStep 2 else s) :=
  exec_step_of hent (by simp only [State.entryStep, hk])

theorem exec_step_two (hk : s.pwr.dormStep = 2) :
    exec .dormantStepComplete s = .next (if s.scr.toList.all fun x => !x.sweepOpen then s.selfRefresh.writeFlush.toStep 3 else s) :=
  exec_step_of hent (by simp only [State.entryStep, hk])

theorem exec_step_three (hk : s.pwr.dormStep = 3) : exec .dormantStepComplete s = .next (s.linksDown.toStep 4) :=
  exec_step_of hent (by simp only [State.entryStep, hk])

theorem exec_step_four (hk : s.pwr.dormStep = 4) : exec .dormantStepComplete s = .next (s.capture.toStep 5) :=
  exec_step_of hent (by simp only [State.entryStep, hk])

theorem exec_step_five (hk : s.pwr.dormStep = 5) : exec .dormantStepComplete s = .next ((s.modPwr fun p => { p with locked := false }).toStep 6) :=
  exec_step_of hent (by simp only [State.entryStep, hk])

theorem exec_step_six (hk : s.pwr.dormStep = 6) : exec .dormantStepComplete s = .next (s.toStep 7) :=
  exec_step_of hent (by simp only [State.entryStep, hk])

theorem exec_step_seven (hk : s.pwr.dormStep = 7) : exec .dormantStepComplete s = .next s.armDetector :=
  exec_step_of hent (by simp only [State.entryStep, hk])

end

theorem vec_all_iff {α : Type} {k : Nat} (v : Vector α k) (p : α → Bool) : v.toList.all p = true ↔ ∀ i : Fin k, p v[i] = true := by
  rw [List.all_eq_true]
  refine ⟨fun h i => h _ (by simp), fun h x hx => ?_⟩
  obtain ⟨i, hi, rfl⟩ := List.mem_iff_getElem.mp hx
  rw [Vector.getElem_toList]
  exact h ⟨i, by simpa using hi⟩

/-- What a wake source does while entry or DORMANT holds. -/
theorem State.wakeSeen_of_there {s : State} {code : BitVec 4} (h : s.sourceThere code = true) : s.wakeSeen code =
    if s.entering then (if s.pwr.dormStep ≤ 2 then s.abandonEntry else if s.pwr.dormStep = 6 ∧ 5 ≤ code.toNat then s else s.latch code)
    else if s.sys.mode == .dormant && s.pwr.wakeStep == 0 then s.startWake code else s := by
  rw [State.wakeSeen, h]
  rfl

theorem State.startWake_eq (s : State) (code : BitVec 4) : s.startWake code = { s with
    pwr := { s.pwr with wakeCause := code, wakeStep := 1, chained := false, late := false, lateStep := 0, totalUs := 0, stepUs := Vector.replicate 4 0, latched := none,
                        targetMv := lvlMv s.pwr.level.val }, outbox := s.outbox ++ [.avs (lvlMv s.pwr.level.val)] } := State.avs_eq ..

/-- The links are down, the host links in L1 where ASPM allows it. -/
theorem State.linksDown_spec (s : State) : (s.linksDown.toStep 4).pwr.dormStep = 4 ∧ (s.linksDown.toStep 4).sys = s.sys ∧
    (∀ n : PortId, (s.linksDown.toStep 4).grafts[n].st = if s.grafts[n].st = .off then .off else s.graftRest n) ∧
    (∀ n : PortId, s.ports[n].linkUp = true → s.ports[n].aspm = true → (s.linksDown.toStep 4).ports[n].l1 = true) ∧ (s.linksDown.toStep 4).mem = s.mem := by
  have h := State.graftsDown_spec (List.nodup_finRange 4) s
  have heq : s.linksDown = { s.graftsDown (List.finRange 4) with
      ports := (s.graftsDown (List.finRange 4)).ports.map fun (p : HostPort) => { p with l1 := p.l1 || (p.linkUp && p.aspm) } } := rfl
  rw [heq]
  generalize s.graftsDown (List.finRange 4) = t at h
  refine ⟨rfl, congrArg Standing.sys h.standing, fun n => h.st n (List.mem_finRange n), fun n hup haspm => ?_, h.mem⟩
  refine (congrArg HostPort.l1 (vmap_get t.ports _ n)).trans ?_
  rw [h.ports, hup, haspm]
  simp

end Sys2Proof.Machine
open Sys2Proof Sys2Proof.Machine Sys2Proof.Safety

/-- Settles O51: entry by its steps, and a wake source by the step that it meets. -/
theorem dormantEntry : Obligations.DormantEntry := by
  unfold Obligations.DormantEntry
  intro s hlin entering step
  refine ⟨fun g hmode hg hen hreq hbusy henter hidle => ?enter, fun h => ⟨s, congrArg Host.Outcome.next (State.startDormant_of_not h), rfl⟩, fun hnot => ?idle,
    fun hent => ⟨fun hk => ⟨fun hdrained hhold => ?one, fun hbusy => ?busy⟩, fun hk => ⟨fun hclosed => ?two, fun hopen => ?swept⟩, fun hk => ?three, fun hk => ?four,
      fun hk => ⟨_, exec_step_five hent hk, rfl⟩, fun hk => ⟨_, exec_step_six hent hk, rfl⟩,
      fun hk => ⟨_, exec_step_seven hent hk, State.armDetector_spec hlin⟩⟩,
    fun code hthere => ⟨fun hent hk hheld => ?abandon, fun hent hk hlatch hnone => ?latch, fun hent hk hcode => ?lost, fun hmode hwake => ?wake⟩⟩
  case enter =>
    have hexec : exec .dormantEnter s = _ := congrArg Host.Outcome.next (State.startDormant_eq hlin hmode hg hen hreq hbusy henter hidle)
    exact ⟨_, hexec, ⟨rfl, rfl, rfl⟩, rfl, fun b => vmap_get s.boughs _ b, rfl⟩
  case idle => exact ⟨s, if_neg fun h => hnot (s.entering_iff.mp h), rfl⟩
  case one =>
    refine ⟨_, exec_step_one hent hk, if_pos ?_⟩
    rw [hdrained, Bool.true_and, vec_all_iff]
    exact hhold
  case busy =>
    refine ⟨_, exec_step_one hent hk, if_neg ?_⟩
    rw [hbusy]
    exact Bool.false_ne_true
  case two =>
    have hall : (s.scr.toList.all fun x => !x.sweepOpen) = true := (vec_all_iff ..).mpr fun b => by rw [hclosed b]; rfl
    have hexec := exec_step_two hent hk
    rw [if_pos hall] at hexec
    obtain ⟨hstep, hsys, hslices, hstacks, hflush⟩ := s.selfRefresh_flushed
    exact ⟨_, hexec, ⟨hstep, (congrArg Sys.mode hsys).trans hent.1, (congrArg Sys.drainFor hsys).trans hent.2⟩, hslices, hstacks, hflush⟩
  case swept =>
    refine ⟨_, exec_step_two hent hk, if_neg ?_⟩
    rw [vec_all_iff]
    intro hall
    obtain ⟨b, hb⟩ := hopen
    have := hall b
    rw [hb] at this
    exact Bool.false_ne_true this
  case three =>
    obtain ⟨hstep, hsys, hgrafts, hports, hmem⟩ := s.linksDown_spec
    exact ⟨_, exec_step_three hent hk, ⟨hstep, (congrArg Sys.mode hsys).trans hent.1, (congrArg Sys.drainFor hsys).trans hent.2⟩, hgrafts, hports, hmem⟩
  case four =>
    obtain ⟨scr, fresh, sigs, heq, hsigs, hcrcs⟩ := s.capture_spec
    have hexec := exec_step_four hent hk
    rw [heq] at hexec
    exact ⟨_, hexec, ⟨rfl, hent.1, hent.2⟩, hsigs, hcrcs, rfl⟩
  case abandon =>
    have hexec : exec (.wakeSource code) s = .next s.abandonEntry := by
      rw [show exec (.wakeSource code) s = .next (s.wakeSeen code) from rfl, State.wakeSeen_of_there hthere, if_pos (s.entering_iff.mpr hent), if_pos hk]
    exact ⟨_, hexec, State.abandonEntry_spec hlin hheld⟩
  case latch =>
    have hexec : exec (.wakeSource code) s = .next (s.latch code) := by
      rw [show exec (.wakeSource code) s = .next (s.wakeSeen code) from rfl, State.wakeSeen_of_there hthere, if_pos (s.entering_iff.mpr hent), if_neg (by omega), if_neg (by omega)]
    refine ⟨_, hexec, ?_⟩
    rw [State.latch, State.modPwr, hnone]
    rfl
  case lost =>
    refine ⟨s, ?_, rfl⟩
    rw [show exec (.wakeSource code) s = .next (s.wakeSeen code) from rfl, State.wakeSeen_of_there hthere, if_pos (s.entering_iff.mpr hent), if_neg (by omega),
      if_pos ⟨hk, hcode⟩]
  case wake =>
    have hexec : exec (.wakeSource code) s = .next (s.startWake code) := by
      rw [show exec (.wakeSource code) s = .next (s.wakeSeen code) from rfl, State.wakeSeen_of_there hthere, if_neg, if_pos]
      · rw [hmode, hwake]; rfl
      · rw [s.entering_iff, hmode]
        exact fun h => nomatch h.1
    rw [State.startWake_eq] at hexec
    exact ⟨_, hexec, rfl, rfl, rfl, rfl, lvlMv_eq s.pwr.level, rfl⟩
end

section
/-! SUPPORT. What the steps of a wake do: the stacks trained again, the scratchpads checked, and RUN or QUARANTINE; and the settling of O52. -/
namespace Sys2Proof.Machine
open Sys2Proof.Safety

/-! ### The check of a scratchpad (R330) -/

/-- What training has left of a stack. -/
def Stack.training (x : Stack) : BitVec 3 × BitVec 2 × BitVec 8 := (x.state, x.trainKind, x.repLanes)

/-- From s to t memory has been looked at: what is counted, logged and noted may change, no byte and no training. -/
structure Inspects (s t : State) : Prop where
  frame : { t with mem := s.mem, scr := s.scr, hbm := s.hbm, ring := s.ring, hwd := s.hwd, plots := s.plots, fresh := s.fresh, crownEvts := s.crownEvts } = s
  bytes : ∀ a, t.mem.read a = s.mem.read a
  stack : ∀ k : StackId, t.hbm[k].training = s.hbm[k].training
  checks : ∀ b : BoughId, t.scr[b].checks = s.scr[b].checks

namespace Inspects

variable {s t u : State}

theorem of_eq (hframe : { t with mem := s.mem, scr := s.scr, hbm := s.hbm, ring := s.ring, hwd := s.hwd, plots := s.plots, fresh := s.fresh, crownEvts := s.crownEvts } = s)
    (hmem : t.mem = s.mem) (hhbm : t.hbm = s.hbm) (hscr : t.scr = s.scr) : Inspects s t :=
  ⟨hframe, fun a => by rw [hmem], fun k => by rw [hhbm], fun b => by rw [hscr]⟩

theorem refl (s : State) : Inspects s s := .of_eq rfl rfl rfl rfl

theorem trans (h : Inspects s t) (k : Inspects t u) : Inspects s u where
  frame := (congrArg (fun x : State => { x with mem := s.mem, scr := s.scr, hbm := s.hbm, ring := s.ring, hwd := s.hwd, plots := s.plots, fresh := s.fresh, crownEvts := s.crownEvts })
    k.frame :).trans h.frame
  bytes a := (k.bytes a).trans (h.bytes a)
  stack i := (k.stack i).trans (h.stack i)
  checks b := (k.checks b).trans (h.checks b)

theorem foldl {α : Type} {f : State → α → State} (h : ∀ s a, Inspects s (f s a)) (l : List α) (s : State) : Inspects s (l.foldl f s) :=
  foldl_rel refl (fun _ _ _ => trans) h l s

theorem ite {c : Prop} [Decidable c] (ht : Inspects s t) (hu : Inspects s u) : Inspects s (if c then t else u) := by
  split <;> assumption

theorem modStack (s : State) (i : StackId) {f : Stack → Stack} (h : (f s.hbm[i]).training = s.hbm[i].training) : Inspects s (s.modStack i f) :=
  ⟨rfl, fun _ => rfl, vmod_get_of_kept Stack.training h, fun _ => rfl⟩

theorem modScr (s : State) (b : BoughId) {f : Scratch → Scratch} (h : (f s.scr[b]).checks = s.scr[b].checks) : Inspects s (s.modScr b f) :=
  ⟨rfl, fun _ => rfl, fun _ => rfl, vmod_get_of_kept Scratch.checks h⟩

theorem modMem (s : State) {f : Memory → Memory} (h : ∀ a, (f s.mem).read a = s.mem.read a) : Inspects s (s.modMem f) :=
  ⟨rfl, h, fun _ => rfl, fun _ => rfl⟩

theorem draw (s : State) : Inspects s s.draw.2 := .of_eq rfl rfl rfl rfl

theorem drawBool (s : State) : Inspects s s.drawBool.2 := .of_eq rfl rfl rfl rfl

theorem ringAdd (s : State) (i k : Nat) : Inspects s (s.ringAdd i k) := by
  unfold State.ringAdd
  split
  · exact .of_eq rfl rfl rfl rfl
  · exact .refl s

theorem notice (s : State) (was : Bool) (reg : String) : Inspects s (s.notice was reg) := by
  unfold State.notice
  split
  · exact .refl s
  · exact .of_eq rfl rfl rfl rfl

theorem of_books (h : Books s t) : Inspects s t :=
  .of_eq (congrArg (fun x : State => { x with mem := s.mem, scr := s.scr, hbm := s.hbm, fresh := s.fresh, crownEvts := s.crownEvts }) h.frame :)
    (congrArg State.mem h.frame :) (congrArg State.hbm h.frame :) (congrArg State.scr h.frame :)

end Inspects

theorem State.eccRoot_inspects (s : State) (w : Nat) (k : Mark) (scrub count : Bool) : Inspects s (s.eccRoot w k scrub count) := by
  unfold State.eccRoot
  extract_lets d syn t i x ue log y
  exact (((Inspects.draw s).trans (.modStack t i rfl)).trans (.ringAdd ..)).trans (.notice ..)

theorem State.eccScratch_inspects (s : State) (b : BoughId) (w : Nat) (k : Mark) (sweep : Bool) : Inspects s (s.eccScratch b w k sweep) := by
  unfold State.eccScratch
  extract_lets d syn t x ue log y
  exact (((Inspects.draw s).trans (.modScr t b rfl)).trans (.ringAdd ..)).trans (.notice ..)

theorem State.observe_inspects (s : State) (a n : Nat) (bg : Bool) : Inspects s (s.observe a n bg) := by
  unfold State.observe
  refine .foldl (fun s w => ?_) _ s
  split
  · exact .refl s
  · split
    · exact s.eccRoot_inspects ..
    · exact s.eccScratch_inspects ..
    · exact .refl s

theorem State.readBank_inspects (s : State) (b : BoughId) (bank : Nat) : Inspects s (s.readBank b bank) := by
  unfold State.readBank
  exact .foldl (fun s row => s.observe_inspects ..) _ s

theorem State.checkBanks_inspects (s : State) (b : BoughId) (ns : List Nat) : Inspects s (s.checkBanks b ns).1 := by
  induction ns generalizing s with
  | nil => exact .refl s
  | cons n ns ih => exact ((s.readBank_inspects b n).trans (.drawBool _)).trans (ih _)

theorem Memory.foldl_setMarks_read (k : Option Mark) (f : Nat → Nat) (l rows : List Nat) (m : Memory) (a : Nat) :
    (rows.foldl (fun m row => let g := f row; l.foldl (fun m i => m.setMark (8 * g + i) k) m) m).read a = m.read a :=
  Memory.read_foldl _ (fun m _ a => Memory.read_foldl _ (fun m _ a => m.read_setMark _ _ a) l m a) rows m a

theorem State.bankLost_inspects (s : State) (b : BoughId) (bank : Nat) : Inspects s (s.bankLost b bank) := by
  unfold State.bankLost
  extract_lets t
  have ht : Inspects s t :=
    .modMem s fun a => Memory.foldl_setMarks_read _ (fun row => scrDpaGranule b (scrGranule bank row)) (List.range 8) (List.range 256) s.mem a
  clear_value t
  exact ((ht.trans (.modScr t b rfl)).trans (.modScr _ b rfl)).trans (.notice ..)

theorem vmod_vmod {α : Type} {k : Nat} (v : Vector α k) (i : Fin k) (f g : α → α) : vmod (vmod v i f) i g = vmod v i fun x => g (f x) := by
  refine (vset_vset v i (f v[i]) (g (vmod v i f)[i])).trans ?_
  rw [vmod_get_self]
  rfl

/-- A check of a scratchpad that is counted, with what it found lost. -/
theorem State.modScr_checked (s : State) (b : BoughId) (mask : BitVec 32) :
    s.modScr b (fun x => { x with checks := x.checks + 1, lostNow := mask }) =
      (s.modScr b fun x => { x with checks := x.checks + 1 }).modScr b fun x => { x with lostNow := mask } :=
  (congrArg (fun v : Vector Scratch 256 => ({ s with scr := v } : State))
    (vmod_vmod s.scr b (fun x => { x with checks := x.checks + 1 }) fun x => { x with lostNow := mask })).symm

/-- The end of a check of scratchpad b that has read the banks and found those of r.2 lost. -/
def State.checkNoted (r : State × List Nat) (b : BoughId) : State :=
  let mask := BitVec.ofNat 32 (r.2.map fun n => 2 ^ n).sum
  let s := r.2.foldl (fun s n => s.bankLost b n) (r.1.modScr b fun x => { x with checks := x.checks + 1, lostNow := mask })
  if mask = 0 then s else (s.ringAdd 26 r.2.length).note 2 (BitVec.ofNat 64 b.val) (mask.setWidth 64)

theorem State.checkNoted_inspects (r : State × List Nat) (b : BoughId) : Inspects (r.1.modScr b fun x => { x with checks := x.checks + 1 }) (State.checkNoted r b) := by
  unfold State.checkNoted
  extract_lets mask t
  clear_value mask
  have hlost : Inspects (r.1.modScr b fun x => { x with checks := x.checks + 1, lostNow := mask }) t := .foldl (fun s n => s.bankLost_inspects b n) _ _
  rw [State.modScr_checked] at hlost
  clear_value t
  have hmask : Inspects (r.1.modScr b fun x => { x with checks := x.checks + 1 })
      ((r.1.modScr b fun x => { x with checks := x.checks + 1 }).modScr b fun x => { x with lostNow := mask }) := .modScr _ b rfl
  refine (hmask.trans hlost).trans (.ite (.refl t) ?_)
  exact (Inspects.ringAdd t 26 _).trans (.of_books (State.note_books ..))

theorem State.retentionCheck_eq (s : State) (b : BoughId) : s.retentionCheck b = State.checkNoted (s.checkBanks b (List.range 32)) b := rfl

/-- The check of a scratchpad is counted once, whatever it finds. -/
theorem State.retentionCheck_spec (s : State) (b : BoughId) : ∃ t, Inspects s t ∧ Inspects (t.modScr b fun x => { x with checks := x.checks + 1 }) (s.retentionCheck b) := by
  rw [State.retentionCheck_eq]
  exact ⟨_, s.checkBanks_inspects b _, State.checkNoted_inspects _ b⟩

/-- From s to t the scratchpads of the list l have been checked. -/
structure Checked (l : List BoughId) (s t : State) : Prop where
  frame : { t with mem := s.mem, scr := s.scr, hbm := s.hbm, ring := s.ring, hwd := s.hwd, plots := s.plots, fresh := s.fresh, crownEvts := s.crownEvts } = s
  bytes : ∀ a, t.mem.read a = s.mem.read a
  stack : ∀ k : StackId, t.hbm[k].training = s.hbm[k].training
  checks : ∀ b : BoughId, t.scr[b].checks = if b ∈ l then s.scr[b].checks + 1 else s.scr[b].checks

theorem State.retentionCheck_checked (s : State) (b : BoughId) : Checked [b] s (s.retentionCheck b) := by
  obtain ⟨t, hbefore, hafter⟩ := s.retentionCheck_spec b
  generalize s.retentionCheck b = u at hafter
  refine ⟨?_, fun a => (hafter.bytes a).trans (hbefore.bytes a), fun k => (hafter.stack k).trans (hbefore.stack k), fun c => (hafter.checks c).trans ?_⟩
  · exact (congrArg (fun x : State =>
      { x with mem := s.mem, scr := s.scr, hbm := s.hbm, ring := s.ring, hwd := s.hwd, plots := s.plots, fresh := s.fresh, crownEvts := s.crownEvts }) hafter.frame :).trans hbefore.frame
  · have hcount : (t.modScr b fun x => { x with checks := x.checks + 1 }).scr[c].checks = if c = b then t.scr[c].checks + 1 else t.scr[c].checks := by
      refine (congrArg Scratch.checks (vmod_get t.scr b c _)).trans ?_
      split_ifs with hc
      · rw [hc]
      · rfl
    rw [hcount, hbefore.checks c]
    simp only [List.mem_singleton]

theorem foldl_retentionCheck {l : List BoughId} (hl : l.Nodup) (s : State) : Checked l s (l.foldl (fun s b => s.retentionCheck b) s) := by
  induction l generalizing s with
  | nil => exact ⟨rfl, fun _ => rfl, fun _ => rfl, fun _ => (if_neg List.not_mem_nil).symm⟩
  | cons b l ih =>
    have hb : b ∉ l := (List.nodup_cons.mp hl).1
    have hfirst := s.retentionCheck_checked b
    have hrest := ih (List.nodup_cons.mp hl).2 (s.retentionCheck b)
    rw [List.foldl_cons]
    generalize s.retentionCheck b = t at hfirst hrest
    generalize l.foldl (fun s b => s.retentionCheck b) t = u at hrest
    refine ⟨?_, fun a => (hrest.bytes a).trans (hfirst.bytes a), fun k => (hrest.stack k).trans (hfirst.stack k), fun c => (hrest.checks c).trans ?_⟩
    · exact (congrArg (fun x : State =>
        { x with mem := s.mem, scr := s.scr, hbm := s.hbm, ring := s.ring, hwd := s.hwd, plots := s.plots, fresh := s.fresh, crownEvts := s.crownEvts }) hrest.frame :).trans hfirst.frame
    · rw [hfirst.checks c]
      by_cases hc : c = b
      · subst hc
        rw [if_neg hb]
        simp
      · simp only [List.mem_cons, List.not_mem_nil, hc, false_or, if_false]

/-! ### The training of the stacks again (R510) -/

/-- A stack that trains again, with its repairs kept. -/
def Retrained (x y : Stack) : Prop := y.state = 2 ∧ y.trainKind = 2 ∧ y.repLanes = x.repLanes

theorem State.trainStack_again (s : State) (k : StackId) : ∃ hbm fresh, s.trainStack false k = { s with hbm := hbm, fresh := fresh } ∧ Retrained s.hbm[k] hbm[k] ∧
    ∀ i, i ≠ k → hbm[i] = s.hbm[i] := by
  unfold State.trainStack
  extract_lets a b ch used
  refine ⟨_, _, rfl, ?_, fun i hi => vmod_get_ne s.hbm _ hi⟩
  rw [show b.2.hbm = s.hbm from rfl, vmod_get_self]
  exact ⟨rfl, rfl, rfl⟩

theorem foldl_trainAgain {l : List StackId} (hl : l.Nodup) (s : State) :
    ∃ hbm fresh, l.foldl (fun (s : State) i => if s.hbm[i].state == 3 then s.trainStack false i else s) s = { s with hbm := hbm, fresh := fresh } ∧
      ∀ i : StackId, (i ∈ l → s.hbm[i].state = 3 → Retrained s.hbm[i] hbm[i]) ∧ (i ∉ l → hbm[i] = s.hbm[i]) := by
  induction l generalizing s with
  | nil => exact ⟨s.hbm, s.fresh, rfl, fun i => ⟨fun h => absurd h List.not_mem_nil, fun _ => rfl⟩⟩
  | cons k l ih =>
    have hk : k ∉ l := (List.nodup_cons.mp hl).1
    have hstep : ∃ hbm fresh, (if s.hbm[k].state == 3 then s.trainStack false k else s) = { s with hbm := hbm, fresh := fresh } ∧
        (s.hbm[k].state = 3 → Retrained s.hbm[k] hbm[k]) ∧ ∀ i, i ≠ k → hbm[i] = s.hbm[i] := by
      obtain ⟨hbm, fresh, heq, htrained, hother⟩ := s.trainStack_again k
      split
      · exact ⟨hbm, fresh, heq, fun _ => htrained, hother⟩
      next hno => exact ⟨s.hbm, s.fresh, rfl, fun h => absurd (beq_iff_eq.mpr h) hno, fun _ _ => rfl⟩
    obtain ⟨hbm, fresh, heq, htrained, hother⟩ := hstep
    obtain ⟨hbm', fresh', heq', hrest⟩ := ih (List.nodup_cons.mp hl).2 { s with hbm := hbm, fresh := fresh }
    refine ⟨hbm', fresh', by rw [List.foldl_cons, heq, heq'], fun i => ⟨fun hi h3 => ?_, fun hi => ?_⟩⟩
    · by_cases hik : i = k
      · subst hik
        rw [(hrest i).2 hk]
        exact htrained h3
      · have hi := (hrest i).1 ((List.mem_cons.mp hi).resolve_left hik)
        have hsame : hbm[i] = s.hbm[i] := hother i hik
        dsimp only at hi
        rw [hsame] at hi
        exact hi h3
    · rw [List.mem_cons, not_or] at hi
      exact ((hrest i).2 hi.2).trans (hother i hi.1)

/-- What the third step of a wake does. -/
structure Recovered (s t : State) : Prop where
  pwr : t.pwr = s.pwr
  sys : t.sys = s.sys
  boughs : t.boughs = s.boughs
  bytes : SameBytes s.mem t.mem
  stack : ∀ i : StackId, s.hbm[i].state = 3 → Retrained s.hbm[i] t.hbm[i]
  checks : ∀ b : BoughId, t.scr[b].checks = s.scr[b].checks + 1

theorem recovered_of {s u t : State} {hbm : Vector Stack 8} {fresh : Nat} {l : List StackId} {bs : List BoughId} (hu : u = { s with hbm := hbm, fresh := fresh })
    (hstacks : ∀ i : StackId, (i ∈ l → s.hbm[i].state = 3 → Retrained s.hbm[i] hbm[i]) ∧ (i ∉ l → hbm[i] = s.hbm[i])) (hcheck : Checked bs u t)
    (hl : ∀ i, i ∈ l) (hbs : ∀ b, b ∈ bs) : Recovered s t := by
  subst hu
  have hframe := hcheck.frame
  refine ⟨(congrArg State.pwr hframe :), (congrArg State.sys hframe :), (congrArg State.boughs hframe :), hcheck.bytes, fun i hi => ?_, fun b => ?_⟩
  · obtain ⟨hstate, hkind, hlanes⟩ := (hstacks i).1 (hl i) hi
    have htraining := hcheck.stack i
    exact ⟨(congrArg Prod.fst htraining :).trans hstate, (congrArg (fun x => x.2.1) htraining :).trans hkind, (congrArg (fun x => x.2.2) htraining :).trans hlanes⟩
  · exact (hcheck.checks b).trans (if_pos (hbs b))

/-- The stacks trained again, then the scratchpads checked. -/
def State.recovered (s : State) (l : List StackId) (bs : List BoughId) : State :=
  bs.foldl (fun s b => s.retentionCheck b) (l.foldl (fun (s : State) i => if s.hbm[i].state == 3 then s.trainStack false i else s) s)

theorem State.recovered_spec (s : State) {l : List StackId} {bs : List BoughId} (hl : l.Nodup) (hbs : bs.Nodup) (hlall : ∀ i, i ∈ l) (hbsall : ∀ b, b ∈ bs) :
    Recovered s (s.recovered l bs) := by
  obtain ⟨hbm, fresh, htrain, hstacks⟩ := foldl_trainAgain hl s
  exact recovered_of htrain hstacks (foldl_retentionCheck hbs _) hlall hbsall

theorem State.wakeEffect_three (s : State) : Recovered s (s.wakeEffect 3) :=
  s.recovered_spec (List.nodup_finRange 8) (List.nodup_finRange 256) List.mem_finRange List.mem_finRange

/-! ### The steps of a wake (R510) -/

/-- The sequencer once wake step k has ended. -/
def Pwr.stepped (k us : Nat) (p : Pwr) : Pwr :=
  { p with wakeStep := k + 1, stepUs := p.stepUs.mapFinIdx fun i x _ => if i + 1 = k then BitVec.ofNat 16 (sat16 us) else x }

theorem Pwr.stepped_stepUs (k : Nat) {us : Nat} (hus : us ≤ 10000) (p : Pwr) (i : Fin 4) :
    (p.stepped k us).stepUs[i] = if i.val + 1 = k then BitVec.ofNat 16 us else p.stepUs[i] := by
  have hsat : sat16 us = us := Nat.min_eq_left (by omega)
  unfold Pwr.stepped
  simp [hsat]

theorem State.wakeStepDone_of_early {s : State} {k : Nat} (hk : s.pwr.wakeStep = k) (h3 : k ≤ 3) (us : Nat) :
    s.wakeStepDone us = (s.modPwr (Pwr.stepped k us)).wakeEffect k := by
  subst hk
  exact if_neg (by omega)

theorem State.wakeStepDone_of_last {s : State} (hk : s.pwr.wakeStep = 4) (us : Nat) : s.wakeStepDone us = (s.modPwr (Pwr.stepped 4 us)).endWake := by
  unfold State.wakeStepDone
  rw [hk]
  rfl

/-- What a wake step before the last leaves. -/
structure WakeStepped (k us : Nat) (s t : State) : Prop where
  wakeStep : t.pwr.wakeStep = k + 1
  mode : t.sys.mode = s.sys.mode
  stepUs : ∀ i : Fin 4, t.pwr.stepUs[i] = if i.val + 1 = k then BitVec.ofNat 16 us else s.pwr.stepUs[i]
  locked : k = 2 → t.pwr.locked = true
  stack : k = 3 → ∀ i : StackId, s.hbm[i].state = 3 → Retrained s.hbm[i] t.hbm[i]
  checks : k = 3 → ∀ b : BoughId, t.scr[b].checks = s.scr[b].checks + 1
  mem : k ≠ 3 → t.mem = s.mem
  bytes : SameBytes s.mem t.mem
  boughs : t.boughs = s.boughs

theorem State.wakeStepDone_stepped {s : State} {k us : Nat} (hk : s.pwr.wakeStep = k) (h1 : 1 ≤ k) (h3 : k ≤ 3) (hus : us ≤ 10000) :
    WakeStepped k us s (s.wakeStepDone us) := by
  rw [State.wakeStepDone_of_early hk h3]
  have hstep := Pwr.stepped_stepUs k hus s.pwr
  obtain rfl | rfl | rfl : k = 1 ∨ k = 2 ∨ k = 3 := by omega
  · exact ⟨rfl, rfl, hstep, fun h => absurd h (by decide), fun h => absurd h (by decide), fun h => absurd h (by decide), fun _ => rfl, fun _ => rfl, rfl⟩
  · exact ⟨rfl, rfl, hstep, fun _ => rfl, fun h => absurd h (by decide), fun h => absurd h (by decide), fun _ => rfl, fun _ => rfl, rfl⟩
  · have h := (s.modPwr (Pwr.stepped 3 us)).wakeEffect_three
    generalize (s.modPwr (Pwr.stepped 3 us)).wakeEffect 3 = t at h
    refine ⟨congrArg Pwr.wakeStep h.pwr, congrArg Sys.mode h.sys, fun i => ?_, fun h => absurd h (by decide), fun _ => h.stack, fun _ => h.checks, fun h => absurd rfl h,
      h.bytes, h.boughs⟩
    rw [h.pwr]
    exact hstep i

theorem State.waking_iff (s : State) : s.waking = true ↔ s.sys.mode = .dormant ∧ s.pwr.wakeStep ≠ 0 := by
  simp [State.waking]

theorem exec_wakeStepDelayEnd_of_waking {s : State} (hwaking : s.waking = true) (hchained : s.pwr.chained = false) (ready : Bool) :
    exec (.wakeStepDelayEnd ready) s = .next (if ready && s.pwr.refclkOk then s.wakeStepDone (wakeDelay s.pwr.wakeStep) else s.wakeLate) :=
  if_pos (by rw [hwaking, hchained]; rfl)

theorem State.wakeLate_eq (s : State) : ∃ rings evts, s.wakeLate = { s with
    pwr := { s.pwr with chained := true, late := true, lateStep := BitVec.ofNat 3 s.pwr.wakeStep, event := withBit s.pwr.event 5 },
    ring := { s.ring with rings := rings }, crownEvts := evts } := by
  obtain ⟨evts, hevent⟩ := (s.modPwr fun p => { p with chained := true, late := true, lateStep := BitVec.ofNat 3 p.wakeStep }).pwrEvent_eq 5
  unfold State.wakeLate
  rw [hevent, show State.ringAdd _ 25 1 = _ from State.ringAdd_val _ (25 : Fin 32) 1]
  exact ⟨_, evts, rfl⟩

/-! ### QUARANTINE (R515, R525) -/

theorem PortsKept.refl (s : State) : PortsKept s s := ⟨rfl⟩

theorem PortsKept.trans {s t u : State} (h : PortsKept s t) (k : PortsKept t u) : PortsKept s u := ⟨k.ports.trans h.ports⟩

theorem PortsKept.foldl {α : Type} {f : State → α → State} (h : ∀ s a, PortsKept s (f s a)) (l : List α) (s : State) : PortsKept s (l.foldl f s) :=
  foldl_rel PortsKept.refl (fun _ _ _ => PortsKept.trans) h l s

theorem Books.ports {s t : State} (h : Books s t) : PortsKept s t := ⟨(congrArg State.ports h.frame :)⟩

theorem State.undefine_ports (s : State) : PortsKept s s.undefine := by
  have hlost : ∀ (s : State) (n : PortId), PortsKept s (if s.grafts[n].st == .up then s.partnerLost n true else s) := fun s n => by
    split
    · exact ⟨s.ports_partnerLost n true⟩
    · exact ⟨rfl⟩
  have hset : ∀ (s : State) (n : PortId), PortsKept s (s.setGraft n .off) := fun _ _ => ⟨rfl⟩
  unfold State.undefine
  extract_lets s1 s2 s3
  have h1 : PortsKept s s1 := .foldl hlost _ s
  clear_value s1
  have h2 : PortsKept s1 s2 := .foldl hset _ s1
  clear_value s2
  have h3 : PortsKept s2 s3 := .foldl (fun s (m : PlotMap) => (s.closeAt_books (plotId m.plot) 0).ports) _ s2
  clear_value s3
  exact ⟨((h1.trans h2).trans h3).ports⟩

/-- What QUARANTINE leaves of a state. -/
structure Quarantined (cause : Nat) (s t : State) : Prop where
  mode : t.sys.mode = .quarantine
  qcause : t.sys.qcause = BitVec.ofNat 8 cause
  active : t.grn.active = none
  held : (∀ n : PortId, s.ports[n].held = []) → ∀ n : PortId, t.ports[n].held = []

/-- The mode, the cause and the ports brought up, before the ring counts and the note. -/
def State.confined (s : State) (cause : Nat) : State :=
  let s := s.undefine.setMode .quarantine
  { s with sys := { s.sys with qcause := BitVec.ofNat 8 cause, toService := false, drainFor := none },
           ports := s.ports.mapFinIdx fun i p _ => p.bringUp (decide (i < portsPresent s.grn.split)) }

theorem State.setMode_kept (s : State) (m : Mode) : (s.setMode m).ports = s.ports ∧ (s.setMode m).grn = s.grn ∧ (s.setMode m).sys.mode = m := by
  unfold State.setMode State.setMap
  dsimp only
  split_ifs <;> exact ⟨rfl, rfl, rfl⟩

theorem State.confined_quarantined (s : State) (cause : Nat) : Quarantined cause s (s.confined cause) := by
  have hactive := s.undefine_undefined.active
  have hports := s.undefine_ports.ports
  unfold State.confined
  generalize s.undefine = u at hactive hports
  obtain ⟨hpsame, hgsame, hmode⟩ := u.setMode_kept .quarantine
  generalize u.setMode .quarantine = v at hpsame hgsame hmode
  refine ⟨hmode, rfl, (congrArg Grn.active hgsame).trans hactive, fun hheld n => ?_⟩
  have hp : v.ports[n].held = [] := by rw [hpsame, hports, hheld n]
  have hmap : (v.ports.mapFinIdx fun i p _ => p.bringUp (decide (i < portsPresent v.grn.split)))[n] = v.ports[n].bringUp (decide (n.val < portsPresent v.grn.split)) := by
    simp
  exact (congrArg HostPort.held hmap).trans hp

theorem Quarantined.of_standing {cause : Nat} {s t u : State} (h : Quarantined cause s t) (hstanding : u.standing = t.standing) (hports : u.ports = t.ports) :
    Quarantined cause s u where
  mode := (congrArg (fun x : Standing => x.sys.mode) hstanding).trans h.mode
  qcause := (congrArg (fun x : Standing => x.sys.qcause) hstanding).trans h.qcause
  active := (congrArg (fun x : Standing => x.grn.active) hstanding).trans h.active
  held hheld n := by
    rw [hports]
    exact h.held hheld n

theorem State.quarantine_spec (s : State) (cause : Nat) : Quarantined cause s (s.quarantine cause) := by
  have hconfined := s.confined_quarantined cause
  have heq : s.quarantine cause = let s := (s.confined cause).ringAdd 24 1
      if 4 ≤ s.sys.bootStep then s.note 7 (BitVec.ofNat 64 cause) 0
      else { s with sys := { s.sys with qnotes := s.sys.qnotes ++ [BitVec.ofNat 8 cause] } } := rfl
  rw [heq]
  generalize s.confined cause = t at hconfined
  have hring : Quarantined cause s (t.ringAdd 24 1) :=
    hconfined.of_standing (State.ringAdd_standing t 1 (by decide)) (by rw [show t.ringAdd 24 1 = _ from t.ringAdd_val (24 : Fin 32) 1])
  generalize t.ringAdd 24 1 = u at hring
  dsimp only
  split_ifs
  · exact hring.of_standing (State.note_standing ..) (State.note_books ..).ports.ports
  · exact ⟨hring.mode, hring.qcause, hring.active, hring.held⟩

/-! ### The end of the wake (R512) -/

/-- From s to t plots have been told of lost banks. -/
structure TellsLost (s t : State) : Prop where
  frame : { t with scr := s.scr, queues := s.queues, plots := s.plots, grafts := s.grafts, crownEvts := s.crownEvts, outbox := s.outbox } = s

namespace TellsLost

theorem refl (s : State) : TellsLost s s := ⟨rfl⟩

theorem trans {s t u : State} (h : TellsLost s t) (k : TellsLost t u) : TellsLost s u :=
  ⟨(congrArg (fun x : State => { x with scr := s.scr, queues := s.queues, plots := s.plots, grafts := s.grafts, crownEvts := s.crownEvts, outbox := s.outbox }) k.frame :).trans h.frame⟩

theorem of_posts {s t : State} (h : Posts s t) : TellsLost s t := ⟨(congrArg (fun x : State => { x with scr := s.scr }) h.frame :)⟩

end TellsLost

theorem State.tellLost_tells (s : State) (b : BoughId) : TellsLost s (s.tellLost b) := by
  unfold State.tellLost
  extract_lets ns t
  have ht : TellsLost s t := ⟨rfl⟩
  clear_value t
  split
  next m _ _ =>
    have hflag : TellsLost t (t.recFlag (plotId m.plot) 14) := ⟨rfl⟩
    exact ((ht.trans hflag).trans (foldl_rel TellsLost.refl (fun _ _ _ => TellsLost.trans) (fun s n => .of_posts (s.plotEvent_posts ..)) _ _))
  · exact ht

theorem State.domainSigs_get (s : State) (k : Nat) {i : Nat} (hi : i < k) : (s.domainSigs k).1[i]? = some ((Config.freeWord (s.fresh + i)).truncate 32) := by
  induction k generalizing s i with
  | zero => exact absurd hi (Nat.not_lt_zero i)
  | succ k ih =>
    cases i with
    | zero => rfl
    | succ i =>
      refine (ih s.draw.2 (by omega)).trans ?_
      show some ((Config.freeWord (s.fresh + 1 + i)).truncate 32) = _
      rw [Nat.add_right_comm, Nat.add_assoc]

/-- Every signature as it was: no domain is lost. -/
theorem lostDomains_of_same {old new : List (BitVec 32)} (h : ∀ i, i < 18 → old[i]? = new[i]?) : lostDomains old new = [] := by
  refine List.filter_eq_nil_iff.mpr fun d hd => ?_
  rw [h d (List.mem_range.mp hd)]
  simp

theorem foldl_same {α σ : Type} {f : σ → α → σ} {l : List α} {s : σ} (h : ∀ a ∈ l, f s a = s) : l.foldl f s = s := by
  induction l with
  | nil => rfl
  | cons a l ih =>
    rw [List.foldl_cons, h a List.mem_cons_self]
    exact ih fun b hb => h b (List.mem_cons_of_mem a hb)

/-- The sequencer once the last step of a wake has ended. -/
def Pwr.woken (p : Pwr) : Pwr := { p with wakeStep := 0, totalUs := BitVec.ofNat 16 (sat16 ((p.stepUs.toList.map fun x => x.toNat).sum)) }

theorem State.endWake_of_kept {s : State} (hstopped : s.pwr.stoppedUs = none) (hlate : s.pwr.late = false)
    (hsigs : ∀ i, i < 18 → s.pwr.sigs[i]? = some ((Config.freeWord (s.fresh + i)).truncate 32)) :
    ∃ t u fresh, t = { s with pwr := s.pwr.woken, fresh := fresh } ∧ TellsLost t u ∧ s.endWake = u.dropCaches.backToRun := by
  have hstop : (s.modPwr Pwr.woken).pwr.stoppedUs = none := hstopped
  obtain ⟨-, fresh, hfresh⟩ := (s.modPwr Pwr.woken).domainSigs_spec 18
  have hget := fun i (hi : i < 18) => (s.modPwr Pwr.woken).domainSigs_get 18 hi
  unfold State.endWake
  extract_lets s1 s2 d lost dead s3 s4 s5
  have h2 : s2 = s.modPwr Pwr.woken := by
    unfold s2
    rw [show s1.pwr.stoppedUs = none from hstop]
    rfl
  have hd : d = (s.modPwr Pwr.woken).domainSigs 18 := congrArg (fun x : State => x.domainSigs 18) h2
  have hlost : lost = [] := lostDomains_of_same fun i hi => by
    rw [hd, hfresh, hget i hi]
    exact hsigs i hi
  have hdead : dead = [] := congrArg (List.filter fun k => decide (16 ≤ k)) hlost
  have hpost : d.2.postWakeLate (!dead.isEmpty) = d.2 := by
    have hl : d.2.pwr.late = false := by rw [hd, hfresh]; exact hlate
    unfold State.postWakeLate
    rw [hl]
    rfl
  have h3 : TellsLost d.2 s3 := by
    unfold s3
    rw [hpost]
    exact foldl_rel TellsLost.refl (fun _ _ _ => TellsLost.trans) (fun s b => s.tellLost_tells b) _ _
  have h4 : s4 = s3 := foldl_same fun g _ => by rw [hlost]; rfl
  have h5 : s5 = s3 := (congrArg (List.foldl (fun s k => s.domainNoted k) s4) hdead).trans h4
  refine ⟨d.2, s3, fresh, by rw [hd, hfresh]; rfl, h3, ?_⟩
  rw [hdead, h5]
  rfl

/-- What the end of a wake leaves when every domain was kept. -/
structure Woken (s t : State) : Prop where
  mode : t.sys.mode = .run
  wakeStep : t.pwr.wakeStep = 0
  stepUs : t.pwr.stepUs = s.pwr.stepUs
  links : t.links = s.links
  bough : ∀ b : BoughId, ∃ freeze, t.bough b = { s.bough b with ocache := [], twig := (s.bough b).twig.cold, freeze := freeze }

theorem State.unfreezeAll_get (s : State) (b : BoughId) : ∃ freeze, s.unfreezeAll.bough b = { s.bough b with freeze := freeze } := by
  unfold State.unfreezeAll State.bough
  exact ⟨_, (Vector.getElem_mapFinIdx ..).trans rfl⟩

theorem woken_of {s t u : State} {fresh : Nat} (ht : t = { s with pwr := s.pwr.woken, fresh := fresh }) (htells : TellsLost t u) (hlin : s.linearInForce = false)
    (hheld : ∀ n : PortId, s.ports[n].held = []) : Woken s u.dropCaches.backToRun := by
  have hframe := htells.frame
  subst ht
  have hlinu : u.dropCaches.linearInForce = false := (congrArg State.linearInForce hframe :).trans hlin
  have hports : u.dropCaches.ports = s.ports := (congrArg State.ports hframe :)
  have hpwr : u.dropCaches.pwr = s.pwr.woken := (congrArg State.pwr hframe :)
  have hlinks : u.dropCaches.links = s.links := (congrArg State.links hframe :)
  have hboughs : u.boughs = s.boughs := (congrArg State.boughs hframe :)
  have hback := State.backToRun_spec hlinu fun n => by rw [hports]; exact hheld n
  refine ⟨hback.mode, hback.wakeStep.trans (by rw [hpwr]; rfl), hback.stepUs.trans (by rw [hpwr]; rfl), hback.links.trans hlinks, fun b => ?_⟩
  obtain ⟨freeze, hfreeze⟩ := u.dropCaches.unfreezeAll_get b
  have hcold : u.dropCaches.bough b = { u.bough b with ocache := [], twig := (u.bough b).twig.cold } := vmap_get u.boughs _ b
  have hsame : u.bough b = s.bough b := congrArg (fun v : Vector Bough 256 => v[b]) hboughs
  refine ⟨freeze, (congrArg (fun v : Vector Bough 256 => v[b]) hback.boughs).trans (hfreeze.trans ?_)⟩
  rw [hcold, hsame]

end Sys2Proof.Machine
open Sys2Proof Sys2Proof.Machine Sys2Proof.Safety

/-- Settles O52: each wake step by what it leaves, the last by the signatures that were kept, and a step without ready by QUARANTINE. -/
theorem wakeSequence : Obligations.WakeSequence := by
  unfold Obligations.WakeSequence
  intro s hlin delay waking next
  have hwaking : ∀ k, 1 ≤ k → waking k → s.waking = true := fun k hk h => s.waking_iff.mpr ⟨h.1, by rw [h.2]; omega⟩
  have hdelay : ∀ k, 1 ≤ k → k ≤ 3 → wakeDelay k = delay k ∧ delay k ≤ 10000 := fun k h1 h3 => by
    obtain rfl | rfl | rfl : k = 1 ∨ k = 2 ∨ k = 3 := by omega
    all_goals exact ⟨rfl, by decide⟩
  have hnext : ∀ k us, 1 ≤ k → k ≤ 3 → waking k → us ≤ 10000 → next k us (s.wakeStepDone us) := fun k us h1 h3 hw hus => by
    have h := State.wakeStepDone_stepped hw.2 h1 h3 hus
    exact ⟨h.wakeStep, h.mode.trans hw.1, h.stepUs, h.locked, h.stack, h.checks, h.mem, h.bytes, h.boughs⟩
  refine ⟨fun k h1 h3 hw => ⟨fun hchained href => ?delayed, fun us hchained href hus hlate => ?ready⟩, fun k rdy h1 h4 hw hchained hnot => ?late,
    fun hw hchained href hlate hstopped hheld hsigs hlen => ?last, fun k h1 h4 hw hchained hheld => ?timeout, fun hchained => ?none, fun us hmode => ?stop, fun us hmode => ?awake⟩
  case delayed =>
    have hexec := exec_wakeStepDelayEnd_of_waking (hwaking k h1 hw) hchained true
    rw [href, Bool.and_self, if_pos rfl, hw.2, (hdelay k h1 h3).1] at hexec
    exact ⟨_, hexec, hnext k _ h1 h3 hw (hdelay k h1 h3).2⟩
  case ready =>
    have hready : (s.waking && s.pwr.chained && s.pwr.refclkOk && decide (us ≤ 10000) &&
        (s.pwr.lateStep.toNat != s.pwr.wakeStep || decide (wakeDelay s.pwr.wakeStep ≤ us))) = true := by
      rw [hwaking k h1 hw, hchained, href, decide_eq_true hus, hw.2, (hdelay k h1 h3).1]
      simpa using hlate
    exact ⟨_, (if_pos hready : execWakeStepReady us s = _), hnext k us h1 h3 hw hus⟩
  case late =>
    have hexec := exec_wakeStepDelayEnd_of_waking (hwaking k h1 hw) hchained rdy
    have hnotready : (rdy && s.pwr.refclkOk) = false := by rcases hnot with h | h <;> simp [h]
    obtain ⟨rings, evts, heq⟩ := s.wakeLate_eq
    rw [hnotready, if_neg Bool.false_ne_true, heq] at hexec
    exact ⟨_, hexec, rfl, rfl, congrArg (BitVec.ofNat 3) hw.2, getLsbD_withBit_self _ (by decide), hw.2, rfl⟩
  case last =>
    have hexec := exec_wakeStepDelayEnd_of_waking (hwaking 4 (by decide) hw) hchained true
    rw [href, Bool.and_self, if_pos rfl, State.wakeStepDone_of_last hw.2, hw.2] at hexec
    obtain ⟨t, u, fresh, ht, htells, hend⟩ := State.endWake_of_kept (s := s.modPwr (Pwr.stepped 4 70)) hstopped hlate hsigs
    have h := woken_of ht htells hlin hheld
    rw [show wakeDelay 4 = 70 from rfl, hend] at hexec
    have hstep := Pwr.stepped_stepUs 4 (us := 70) (by decide) s.pwr 3
    refine ⟨_, hexec, h.mode, h.wakeStep, (congrArg (fun v : Vector (BitVec 16) 4 => v[(3 : Fin 4)]) h.stepUs).trans hstep, h.links, fun b => ?_⟩
    obtain ⟨freeze, hb⟩ := h.bough b
    rw [hb]
    exact ⟨rfl, rfl, rfl, rfl, rfl, rfl, rfl, rfl⟩
  case timeout =>
    have hexec : exec .wakeStepTimeout s = .next (State.serveAll ((s.modPwr fun p => { p with wakeStep := 0 }).quarantine 7)) :=
      if_pos (by rw [hwaking k h1 hw, hchained]; rfl)
    have h := (s.modPwr fun p => { p with wakeStep := 0 }).quarantine_spec 7
    rw [State.serveAll_of_held_nil _ (h.held hheld)] at hexec
    exact ⟨_, hexec, h.mode, h.qcause, h.active⟩
  case none => exact ⟨s, if_neg (by rw [hchained, Bool.and_false]; exact Bool.false_ne_true), rfl⟩
  case stop =>
    obtain ⟨evts, hevent⟩ := (s.modPwr fun p => { p with refclkOk := false, stoppedUs := some (p.stoppedUs.getD 0 + us) }).pwrEvent_eq 6
    have hexec : exec (.refclkStopInDormant us) s = _ := if_pos (beq_iff_eq.mpr hmode)
    rw [hevent] at hexec
    exact ⟨_, hexec, rfl, rfl, rfl, rfl⟩
  case awake => exact ⟨s, if_neg fun h => hmode (beq_iff_eq.mp h), rfl⟩
end

section
/-! SUPPORT. What a sweep leaves of a scratchpad: a region saved, a region restored, and a row that takes a spare; and the settling of O32. -/
namespace Sys2Proof.Machine
open Sys2Proof.Safety

/-! ### A granule saved (R323, R324) -/

/-- From s to t granules of scratchpad b have been read and written back: what their words told is counted and logged, no byte and no sweep. -/
structure Saves (b : BoughId) (s t : State) : Prop where
  frame : { t with mem := s.mem, scr := s.scr, ring := s.ring, crownEvts := s.crownEvts, fresh := s.fresh } = s
  bytes : ∀ a, t.mem.read a = s.mem.read a
  tick : t.ring.tick = s.ring.tick
  sweep : t.scr[b].sweepOpen = s.scr[b].sweepOpen ∧ t.scr[b].sweepPos = s.scr[b].sweepPos
  others : ∀ c, c ≠ b → t.scr[c] = s.scr[c]

namespace Saves

variable {b : BoughId} {s t u : State}

theorem refl (s : State) : Saves b s s := ⟨rfl, fun _ => rfl, rfl, ⟨rfl, rfl⟩, fun _ _ => rfl⟩

theorem trans (h : Saves b s t) (k : Saves b t u) : Saves b s u where
  frame := (congrArg (fun x : State => { x with mem := s.mem, scr := s.scr, ring := s.ring, crownEvts := s.crownEvts, fresh := s.fresh }) k.frame :).trans h.frame
  bytes a := (k.bytes a).trans (h.bytes a)
  tick := k.tick.trans h.tick
  sweep := ⟨k.sweep.1.trans h.sweep.1, k.sweep.2.trans h.sweep.2⟩
  others c hc := (k.others c hc).trans (h.others c hc)

theorem draw (s : State) : Saves b s s.draw.2 := ⟨rfl, fun _ => rfl, rfl, ⟨rfl, rfl⟩, fun _ _ => rfl⟩

theorem modMem (s : State) {f : Memory → Memory} (h : ∀ a, (f s.mem).read a = s.mem.read a) : Saves b s (s.modMem f) :=
  ⟨rfl, h, rfl, ⟨rfl, rfl⟩, fun _ _ => rfl⟩

theorem modScr (s : State) {f : Scratch → Scratch} (h : (f s.scr[b]).sweepOpen = s.scr[b].sweepOpen ∧ (f s.scr[b]).sweepPos = s.scr[b].sweepPos) :
    Saves b s (s.modScr b f) :=
  ⟨rfl, fun _ => rfl, rfl, ⟨vmod_get_of_kept Scratch.sweepOpen h.1 b, vmod_get_of_kept Scratch.sweepPos h.2 b⟩, fun _ hc => vmod_get_ne s.scr f hc⟩

theorem ringAdd (s : State) {i : Nat} (k : Nat) (hi : i ≠ 23) : Saves b s (s.ringAdd i k) := by
  have htick := State.tick_of_standing (s.ringAdd_standing k hi)
  obtain ⟨ring, hring⟩ := s.ringAdd_eq i k
  rw [hring] at htick ⊢
  exact ⟨rfl, fun _ => rfl, htick, ⟨rfl, rfl⟩, fun _ _ => rfl⟩

theorem notice (s : State) (was : Bool) (reg : String) : Saves b s (s.notice was reg) := by
  obtain ⟨evts, hevts⟩ := s.notice_eq was reg
  rw [hevts]
  exact ⟨rfl, fun _ => rfl, rfl, ⟨rfl, rfl⟩, fun _ _ => rfl⟩

end Saves

theorem State.eccScratch_saves (s : State) (b : BoughId) (w : Nat) (k : Mark) (sweep : Bool) : Saves b s (s.eccScratch b w k sweep) := by
  unfold State.eccScratch
  extract_lets d syn t x ue log y
  exact (((Saves.draw s).trans (.modScr t ⟨rfl, rfl⟩)).trans (.ringAdd _ _ (by decide))).trans (.notice ..)

/-- What is observed within scratchpad b is logged by scratchpad b. -/
theorem State.observe_saves (s : State) {b : BoughId} {a n : Nat} (h : InScratch b a n) (ha : a % 8 = 0) (bg : Bool) : Saves b s (s.observe a n bg) := by
  have hspan : ∀ w ∈ wordSpan a n, placeOf (8 * w) = .scratch b.val (8 * w - scratchAddr b) := by
    intro w hw
    unfold wordSpan at hw
    split_ifs at hw with hn
    · exact absurd hw List.not_mem_nil
    · obtain ⟨i, hi, rfl⟩ := List.mem_map.mp hw
      have hi := List.mem_range.mp hi
      obtain ⟨hlo, hhi⟩ := h
      exact placeOf_of_inScratch (n := 1) ⟨by omega, by omega⟩ Nat.one_pos
  unfold State.observe
  generalize (wordSpan a n).find? _ = first
  generalize wordSpan a n = ws at hspan
  induction ws generalizing s with
  | nil => exact .refl s
  | cons w ws ih =>
    have ih := fun s => ih s fun v hv => hspan v (List.mem_cons_of_mem w hv)
    rw [List.foldl_cons]
    cases hcheck : s.mem.check w with
    | none => exact ih s
    | some k =>
      simp only [hspan w List.mem_cons_self, boughId_val]
      exact (s.eccScratch_saves b w k bg).trans (ih _)

theorem inScratch_granule (b : BoughId) {q : Nat} (hq : q < 8192) : InScratch b (64 * scrDpaGranule b q) 64 := by
  unfold InScratch scrDpaGranule scratchAddr scratchBase
  omega

/-- Memory m when granule g has been written back as it was read. -/
def Memory.saved (g : Nat) (m : Memory) : Memory :=
  if m.dead.contains g then (List.range 8).foldl (fun m i => m.setMark (8 * g + i) (some .stored)) (m.revive g)
  else (List.range 8).foldl (fun m i => m.scrubWord (8 * g + i)) m

theorem Memory.read_saved (g : Nat) (m : Memory) (a : Nat) : (m.saved g).read a = m.read a := by
  unfold Memory.saved
  split
  · exact Memory.read_foldl _ (fun m i a => m.read_setMark _ _ a) _ (m.revive g) a
  · exact Memory.read_foldl _ (fun m i a => m.read_scrubWord _ a) _ m a

theorem State.saveGranule_eq (s : State) (b : BoughId) (q : Nat) :
    s.saveGranule b q = (s.observe (64 * scrDpaGranule b q) 64 true).modMem (Memory.saved (scrDpaGranule b q)) := rfl

theorem State.saveGranule_saves (s : State) (b : BoughId) {q : Nat} (hq : q < 8192) : Saves b s (s.saveGranule b q) := by
  rw [State.saveGranule_eq]
  exact (s.observe_saves (inScratch_granule b hq) (by omega) true).trans (.modMem _ (Memory.read_saved _ _))

/-- A region, its four granules saved. -/
theorem State.saveRegion_saves (s : State) (b : BoughId) (pos : BitVec 11) :
    Saves b s ((List.range 4).foldl (fun s i => s.saveGranule b (4 * pos.toNat + i)) s) := by
  have hpos := pos.isLt
  have hrange : ∀ i ∈ List.range 4, i < 4 := fun i hi => List.mem_range.mp hi
  generalize List.range 4 = l at hrange
  induction l generalizing s with
  | nil => exact .refl s
  | cons i l ih =>
    have hi := hrange i List.mem_cons_self
    exact (s.saveGranule_saves b (by omega)).trans (ih _ fun j hj => hrange j (List.mem_cons_of_mem i hj))

/-- State s when scratchpad b has opened the region it has saved. -/
def State.regionOpened (s : State) (b : BoughId) : State :=
  s.modScr b fun x => { x with sweepOpen := true, sweepAt := some s.ring.tick, sweepPos := x.sweepPos + 1 }

theorem exec_sweepRegionStart_of_due {s : State} {b : BoughId} (hen : s.sweepEn = true) (hopen : s.scr[b].sweepOpen = false) (hpow : s.scrPowered = true)
    (hpace : s.paceDue b = true) : ∃ u, exec (.sweepRegionStart b) s = .next (u.regionOpened b) ∧ Saves b s u := by
  have hdue : (s.sweepEn && !s.scr[b].sweepOpen && s.scrPowered && s.paceDue b) = true := by
    rw [hen, hopen, hpow, hpace]
    rfl
  exact ⟨_, if_pos hdue, s.saveRegion_saves b s.scr[b].sweepPos⟩

/-! ### A region restored (R325, R326) -/

theorem State.applyDead_eq (s : State) (b : BoughId) : ∃ mem, s.applyDead b = { s with mem := mem } := ⟨_, rfl⟩

/-- Of four granules the mask 2 ^ i names the one of number i. -/
theorem foldl_one_of_four (f : State → Nat → State) (i : Fin 4) (s : State) :
    (List.range 4).foldl (fun s n => if (BitVec.ofNat 4 (2 ^ i.val)).getLsbD n then f s n else s) s = f s i := by
  match i with
  | 0 | 1 | 2 | 3 => rfl

theorem foldl_none_of_four (f : State → Nat → State) (s : State) :
    (List.range 4).foldl (fun s n => if (0 : BitVec 4).getLsbD n then f s n else s) s = s := rfl

/-! ### A row that takes a spare (R332, R337) -/

theorem lowestSpare_eq {m : BitVec 8} {j : Fin 8} (hfree : m.getLsbD j.val = false) (hlow : ∀ i : Fin 8, i < j → m.getLsbD i.val = true) :
    lowestSpare m = some j := by
  unfold lowestSpare
  rw [List.find?_eq_some_iff_getElem]
  refine ⟨by rw [hfree]; rfl, j.val, by simp, by simp, fun i hi => ?_⟩
  have hget := hlow ⟨i, hi.trans j.isLt⟩ hi
  simpa using hget

theorem State.recordRepair_eq (s : State) (b bank row spare : Nat) : ∃ ring hwd, s.recordRepair b bank row spare = { s with ring := ring, hwd := hwd } := by
  unfold State.recordRepair
  extract_lets d r t
  have ht : ∃ ring, t = ({ s with ring := ring } : State) := ⟨_, rfl⟩
  clear_value t
  obtain ⟨ring, ht⟩ := ht
  obtain ⟨ring', hadd⟩ := t.ringAdd_eq 18 1
  rw [hadd, ht]
  unfold State.note State.emitItem State.requestSig
  dsimp only
  split_ifs
  all_goals exact ⟨_, _, rfl⟩

/-- Scratchpad x whose row of bank k has taken spare j. -/
def Scratch.repaired (x : Scratch) (k : Fin 32) (row : Nat) (j : Fin 8) : Scratch :=
  { x.takeSpare k row j with status := withBit (x.takeSpare k row j).status 3 }

theorem State.modScr_modScr (s : State) (b : BoughId) (f g : Scratch → Scratch) : (s.modScr b f).modScr b g = s.modScr b fun x => g (f x) :=
  congrArg (fun v : Vector Scratch 256 => ({ s with scr := v } : State)) (vmod_vmod s.scr b f g)

theorem State.scrFlag_eq (s : State) (b : BoughId) (bit : Nat) :
    ∃ evts, s.scrFlag b bit = { s with scr := vmod s.scr b fun x => { x with status := withBit x.status bit }, crownEvts := evts } := by
  obtain ⟨evts, hnotice⟩ := (s.modScr b fun x => { x with status := withBit x.status bit }).notice_eq (s.scr[b].status.getLsbD bit) "SCR_STATUS"
  exact ⟨evts, hnotice⟩

theorem State.rowFailed_of_spare (s : State) (b : BoughId) {q : Nat} {k : Fin 32} {j : Fin 8} (hk : k.val = scrBank q) (halive : s.scr[b].failed.getLsbD k.val = false)
    (hen : s.repairEn = true) (hspare : lowestSpare s.scr[b].spares[k] = some j) :
    ∃ ring hwd evts, s.rowFailed b q = { s with scr := vmod s.scr b fun x => x.repaired k (scrRow q) j, ring := ring, hwd := hwd, crownEvts := evts } := by
  unfold State.rowFailed
  dsimp only
  rw [← hk, finOf?_val]
  dsimp only
  rw [halive, if_neg Bool.false_ne_true, if_pos hen, hspare]
  dsimp only
  obtain ⟨ring, hwd, hrec⟩ := ((s.modScr b fun x => x.takeSpare k (scrRow q) j).scrFlag b 3).recordRepair_eq b.val k.val (scrRow q) j.val
  obtain ⟨evts, hflag⟩ := (s.modScr b fun x => x.takeSpare k (scrRow q) j).scrFlag_eq b 3
  rw [hrec, hflag]
  exact ⟨ring, hwd, evts, congrArg (fun t : State => { t with ring := ring, hwd := hwd, crownEvts := evts }) (s.modScr_modScr b _ _)⟩

theorem Scratch.mem_rowMap_repaired (x : Scratch) (k : Fin 32) (row : Nat) (j : Fin 8) : (k.val, row, j.val) ∈ (x.repaired k row j).rowMap :=
  List.mem_append_right _ (List.mem_singleton_self _)

theorem Scratch.mem_rowMap_repaired_of_ne (x : Scratch) (k : Fin 32) {row : Nat} (j : Fin 8) {r : Nat × Nat × Nat} (hr : r.1 ≠ k.val ∨ r.2.1 ≠ row) :
    r ∈ (x.repaired k row j).rowMap ↔ r ∈ x.rowMap := by
  unfold Scratch.repaired Scratch.takeSpare
  dsimp only
  rw [List.mem_append, List.mem_filter, List.mem_singleton]
  constructor
  · rintro (⟨hmem, -⟩ | rfl)
    · exact hmem
    · simp at hr
  · exact fun hmem => .inl ⟨hmem, by rcases hr with hr | hr <;> simp [hr]⟩

theorem Scratch.mem_poisonRows_repaired (x : Scratch) (k : Fin 32) (row : Nat) (j : Fin 8) (r : Nat × Nat) :
    r ∈ (x.repaired k row j).poisonRows ↔ r ∈ x.poisonRows ∧ r ≠ (k.val, row) := by
  unfold Scratch.repaired Scratch.takeSpare
  dsimp only
  rw [List.mem_filter, bne_iff_ne]

/-- Scratchpad x when its open region has been closed. -/
def Scratch.closed (x : Scratch) : Scratch :=
  { x with sweepOpen := false, passes := if x.sweepPos = 0 then x.passes + 1 else x.passes }

theorem State.restoreRegion_of_sound (s : State) (b : BoughId) : ∃ mem, s.restoreRegion b 0 = { s with mem := mem, scr := vmod s.scr b Scratch.closed } := by
  unfold State.restoreRegion
  extract_lets x n t
  have ht : t = s := foldl_none_of_four (fun s i => s.rowFailed b (4 * n + i)) s
  clear_value t
  rw [ht]
  exact ⟨_, rfl⟩

theorem State.restoreRegion_of_spare (s : State) (b : BoughId) {i : Fin 4} {q : Nat} {k : Fin 32} {j : Fin 8} (hq : q = 4 * (s.scr[b].sweepPos - 1).toNat + i.val)
    (hk : k.val = scrBank q) (halive : s.scr[b].failed.getLsbD k.val = false) (hen : s.repairEn = true) (hspare : lowestSpare s.scr[b].spares[k] = some j) :
    ∃ mem ring hwd evts, s.restoreRegion b (BitVec.ofNat 4 (2 ^ i.val)) =
      { s with mem := mem, scr := vmod s.scr b fun x => (x.repaired k (scrRow q) j).closed, ring := ring, hwd := hwd, crownEvts := evts } := by
  obtain ⟨ring, hwd, evts, hrow⟩ := s.rowFailed_of_spare b hk halive hen hspare
  unfold State.restoreRegion
  extract_lets x n t
  have ht : t = s.rowFailed b q := (foldl_one_of_four (fun s a => s.rowFailed b (4 * n + a)) i s).trans (congrArg (s.rowFailed b) hq.symm)
  clear_value t
  obtain ⟨mem, hdead⟩ := (t.modScr b Scratch.closed).applyDead_eq b
  refine ⟨mem, ring, hwd, evts, hdead.trans ?_⟩
  rw [ht, hrow]
  exact congrArg (fun v : Vector Scratch 256 => ({ s with mem := mem, scr := v, ring := ring, hwd := hwd, crownEvts := evts } : State)) (vmod_vmod s.scr b _ _)

end Sys2Proof.Machine
open Sys2Proof Sys2Proof.Machine Sys2Proof.Safety

/-- Settles O32: a region is saved and written back granule by granule, and a row that failed has its spare. -/
theorem scratchpadSweep : Obligations.ScratchpadSweep := by
  unfold Obligations.ScratchpadSweep
  refine ⟨?start, ?restore, ?repair, fun s b failed hopen => ⟨s, if_neg (by rw [hopen]; exact Bool.false_ne_true), rfl⟩⟩
  case start =>
    intro s b hen hopen hpow hpace
    obtain ⟨u, hexec, hsaved⟩ := exec_sweepRegionStart_of_due hen hopen hpow hpace
    obtain ⟨-, hbytes, htick, ⟨-, hpos⟩, hothers⟩ := id hsaved
    refine ⟨u.regionOpened b, hexec, ?_⟩
    have hself : (u.regionOpened b).scr[b] = { u.scr[b] with sweepOpen := true, sweepAt := some u.ring.tick, sweepPos := u.scr[b].sweepPos + 1 } := vmod_get_self ..
    dsimp only
    rw [hself]
    exact ⟨rfl, congrArg (· + 1) hpos, congrArg some htick, hbytes, fun c hc => (vmod_get_ne u.scr _ hc).trans (hothers c hc), hsaved.frame⟩
  case restore =>
    intro s b hopen
    obtain ⟨mem, hrestore⟩ := s.restoreRegion_of_sound b
    refine ⟨s.restoreRegion b 0, if_pos hopen, ?_, s.read_restoreRegion b 0, ?_, ?_⟩
    all_goals rw [hrestore]
    · exact vmod_get_self ..
    · exact fun c hc => vmod_get_ne s.scr _ hc
  case repair =>
    intro s b i k j q hq hk hopen halive hen hfree hlow
    obtain ⟨mem, ring, hwd, evts, hrestore⟩ := s.restoreRegion_of_spare b hq hk halive hen (lowestSpare_eq hfree hlow)
    have hbytes := s.read_restoreRegion b (BitVec.ofNat 4 (2 ^ i.val))
    refine ⟨s.restoreRegion b (BitVec.ofNat 4 (2 ^ i.val)), if_pos hopen, ?_⟩
    rw [hrestore] at hbytes ⊢
    have hself : (vmod s.scr b fun x => (x.repaired k (scrRow q) j).closed)[b] = (s.scr[b].repaired k (scrRow q) j).closed := vmod_get_self ..
    dsimp only
    rw [hself]
    refine ⟨rfl, vmod_get_self .., fun c hc => vmod_get_ne _ _ hc, Scratch.mem_rowMap_repaired .., fun r hr => Scratch.mem_rowMap_repaired_of_ne _ _ _ hr,
      getLsbD_withBit_self _ (by decide), rfl, fun r => Scratch.mem_poisonRows_repaired s.scr[b] k (scrRow q) j r, hbytes, fun c hc => vmod_get_ne s.scr _ hc, rfl⟩
end

section
/-! SUPPORT. LEDGER_READ in SERVICE with an injection armed: the stack flips two bits of the words just written (R291, R533); and the refutation of O57. -/
namespace Sys2Proof.Machine
open Sys2Proof.Safety

theorem twoBits_ne_zero (free : Word) : twoBits free ≠ 0 := by
  intro h
  have hlt : free.toNat % 64 < 64 := Nat.mod_lt _ (by decide)
  have hbit : (twoBits free).getLsbD (free.toNat % 64) = true := by
    unfold twoBits
    dsimp only
    rw [BitVec.getLsbD_or, getLsbD_ofNat_two_pow hlt, decide_eq_true rfl, Bool.true_or]
  rw [h] at hbit
  exact absurd hbit (by simp)

/-- Memories that hold one list of bytes at a hold the same word there. -/
theorem Memory.readWord_congr {m m' : Memory} {a : Nat} (h : ∀ x, a ≤ x → x < a + 8 → m'.read x = m.read x) : m'.readWord a = m.readWord a := by
  unfold Memory.readWord Memory.readN
  refine congrArg (fun l => BitVec.ofNat 64 (bytesNat l)) (List.map_congr_left fun i hi => ?_)
  have hi := List.mem_range.mp hi
  exact h _ (by omega) (by omega)

/-- An injection with a fresh error changes the word. -/
theorem State.injectMark_readWord {s : State} (i : StackId) {w : Nat} (h : Alive s.mem (8 * w) 8) :
    (s.injectMark i w (some .fresh)).mem.readWord (8 * w) ≠ s.mem.readWord (8 * w) := by
  have hstored := stored_write (m := s.mem) (a := 8 * w) (bs := wordsBytes [s.mem.readWord (8 * w) ^^^ twoBits s.draw.1]) (by rw [length_wordsBytes]; exact h)
  have hflip := Memory.readWord_of_stored (i := 0) hstored rfl
  have hbytes : wordsBytes [s.mem.readWord (8 * w) ^^^ twoBits s.draw.1] = wordBytes 8 (s.mem.readWord (8 * w) ^^^ twoBits s.draw.1).toNat := List.append_nil _
  have hmem : (s.injectMark i w (some .fresh)).mem = (s.flipTwo w).mem.setMark w (some .fresh) := rfl
  have hwrite : (s.flipTwo w).mem = s.mem.write (atAddr (8 * w) (wordBytes 8 (s.mem.readWord (8 * w) ^^^ twoBits s.draw.1).toNat)) := rfl
  have hmark : (s.injectMark i w (some .fresh)).mem.readWord (8 * w) = s.mem.readWord (8 * w) ^^^ twoBits s.draw.1 := by
    rw [hmem, Memory.readWord_congr fun x _ _ => Memory.read_setMark _ w (some .fresh) x, hwrite, ← hbytes]
    exact hflip
  rw [hmark]
  intro h
  refine twoBits_ne_zero s.draw.1 ?_
  have hxor := congrArg (s.mem.readWord (8 * w) ^^^ ·) h
  simpa using hxor

theorem State.injectMark_unarmed (s : State) (i : StackId) (w : Nat) (k : Option Mark) :
    ∃ mem fresh, s.injectMark i w k = ({ s with mem := mem, fresh := fresh } : State).modStack i fun x => { x with injArm := false } := by
  have hflip : ∃ mem fresh, (if k = some .fresh then s.flipTwo w else s) = { s with mem := mem, fresh := fresh } := by
    split_ifs
    · exact ⟨_, _, rfl⟩
    · exact ⟨s.mem, s.fresh, rfl⟩
  obtain ⟨mem, fresh, hflip⟩ := hflip
  rw [State.injectMark, hflip]
  exact ⟨_, fresh, rfl⟩

theorem State.injArm_injectMark (s : State) (w : Nat) (k : Option Mark) {i j : StackId} (h : j ≠ i) : (s.injectMark i w k).hbm[j].injArm = s.hbm[j].injArm := by
  obtain ⟨mem, fresh, hmark⟩ := s.injectMark_unarmed i w k
  rw [hmark]
  exact congrArg Stack.injArm (vmod_get_ne s.hbm _ h)

/-- One step of an injection over the stacks. -/
def State.injectStack (bs : List (Nat × Byte)) (s : State) (i : StackId) : State :=
  if s.hbm[i].injArm && (wordsOf bs).contains s.hbm[i].injWord.toNat && !((mergeWords bs).contains s.hbm[i].injWord.toNat) &&
      decide (8 * s.hbm[i].injWord.toNat < rootSize) && (s.sliceOf (8 * s.hbm[i].injWord.toNat)).val / 8 == i.val then
    s.injectMark i s.hbm[i].injWord.toNat (match s.hbm[i].injKind.toNat with
      | 0 => some .single
      | 1 => some .fresh
      | 2 => some .stored
      | _ => none)
  else s

theorem State.injectInto_of_service {s : State} (hmode : s.sys.mode = .service) (bs : List (Nat × Byte)) :
    s.injectInto bs = (List.finRange 8).foldl (State.injectStack bs) s := by
  unfold State.injectInto
  rw [hmode]
  rfl

/-- With the injection of stack 0 armed alone, on a word of its own that is written in whole, the write flips bits of the word. -/
theorem State.injectInto_of_zero {s : State} {bs : List (Nat × Byte)} (hmode : s.sys.mode = .service) (harm : s.hbm[(0 : StackId)].injArm = true)
    (hrest : ∀ i : StackId, i ≠ 0 → s.hbm[i].injArm = false) (hword : s.hbm[(0 : StackId)].injWord = 0) (hkind : s.hbm[(0 : StackId)].injKind = 1)
    (hin : 0 ∈ wordsOf bs) (hwhole : mergeWords bs = []) (hslice : (s.sliceOf 0).val / 8 = 0) : (s.injectInto bs).mem = (s.injectMark 0 0 (some .fresh)).mem := by
  have hzero : State.injectStack bs s 0 = s.injectMark 0 0 (some .fresh) := by
    unfold State.injectStack
    rw [harm, hword, hkind, hwhole, if_pos]
    · rfl
    · have hcontains : (wordsOf bs).contains (0 : BitVec 34).toNat = true := List.contains_iff_mem.mpr hin
      have hbelow : 8 * (0 : BitVec 34).toNat < rootSize := by decide
      have hhere : ((s.sliceOf (8 * (0 : BitVec 34).toNat)).val / 8 == (0 : StackId).val) = true := beq_iff_eq.mpr hslice
      rw [hcontains, hhere, decide_eq_true hbelow]
      rfl
  have hidle : ∀ i ∈ (List.finRange 8).tail, State.injectStack bs (s.injectMark 0 0 (some .fresh)) i = s.injectMark 0 0 (some .fresh) := by
    intro i hi
    have hne : i ≠ 0 := by
      rintro rfl
      exact absurd hi (by decide)
    have hi' : (s.injectMark 0 0 (some .fresh)).hbm[i].injArm = false :=
      (s.injArm_injectMark _ _ hne).trans (hrest i hne)
    exact if_neg (by rw [hi']; exact Bool.false_ne_true)
  rw [State.injectInto_of_service hmode, show List.finRange 8 = 0 :: (List.finRange 8).tail from rfl, List.foldl_cons, hzero, foldl_same hidle]

theorem storeBytes_eq_injectInto {s : State} {a : Nat} {bs : List Byte} (ha : a % 8 = 0) (hlen : bs.length % 8 = 0) :
    s.storeBytes (atAddr a bs) = (s.modMem fun m => m.write (atAddr a bs)).injectInto (atAddr a bs) := by
  unfold State.storeBytes
  rw [mergeWords_of_whole ha hlen]
  rfl

theorem Memory.dead_write (m : Memory) (bs : List (Nat × Byte)) : (m.write bs).dead = m.dead := by
  unfold Memory.write
  generalize wordsOf bs = ws
  induction ws generalizing m with
  | nil => rfl
  | cons w ws ih =>
    rw [List.foldl_cons, ih]
    split_ifs
    · rfl
    · exact Memory.dead_writeWord ..

/-- An injection of stack 0 alone, armed on the first word of a write at address 0. -/
structure Injects (s : State) : Prop where
  mode : s.sys.mode = .service
  arm : s.hbm[(0 : StackId)].injArm = true
  rest : ∀ i : StackId, i ≠ 0 → s.hbm[i].injArm = false
  word : s.hbm[(0 : StackId)].injWord = 0
  kind : s.hbm[(0 : StackId)].injKind = 1
  slice : (s.sliceOf 0).val / 8 = 0

theorem Injects.modMem {s : State} (h : Injects s) (f : Memory → Memory) : Injects (s.modMem f) := ⟨h.mode, h.arm, h.rest, h.word, h.kind, h.slice⟩

/-- With an injection armed, memory does not hold what has been stored. -/
theorem not_stored_of_injects {s : State} (h : Injects s) {bs : List Byte} (hpos : 8 ≤ bs.length) (hlen : bs.length % 8 = 0) (halive : Alive s.mem 0 bs.length) :
    ¬ Stored s.mem (s.storeBytes (atAddr 0 bs)).mem 0 bs := by
  intro hstored
  have hwritten := stored_write halive
  have hdead := s.mem.dead_write (atAddr 0 bs)
  have hmem : ((s.modMem fun m => m.write (atAddr 0 bs)).injectMark 0 0 (some .fresh)).mem = (s.storeBytes (atAddr 0 bs)).mem := by
    have hin : 0 ∈ wordsOf (atAddr 0 bs) := by
      obtain ⟨c, hc, hc0⟩ := (exists_mem_atAddr_iff 0 bs 0).mpr ⟨Nat.le_refl 0, by omega⟩
      exact (mem_wordsOf_iff _ 0).mpr ⟨c, hc, by rw [hc0]⟩
    rw [storeBytes_eq_injectInto (Nat.zero_mod 8) hlen]
    obtain ⟨hmode, harm, hrest, hword, hkind, hslice⟩ := h.modMem fun m => m.write (atAddr 0 bs)
    exact (State.injectInto_of_zero hmode harm hrest hword hkind hin (mergeWords_of_whole (Nat.zero_mod 8) hlen) hslice).symm
  have hflip := State.injectMark_readWord (s := s.modMem fun m => m.write (atAddr 0 bs)) 0 (w := 0) fun i hi => by
    rw [State.modMem_mem, hdead]
    exact halive i (by omega)
  rw [hmem, State.modMem_mem] at hflip
  refine hflip (Memory.readWord_congr fun x _ _ => ?_)
  rw [hstored x, hwritten x]

/-- The one item of the journal of the witness. -/
def Item.blank : Item := { typ := 0, seq := 0, covered := [], sig := [], plot := none }

theorem Item.length_slotWords_blank : Item.blank.slotWords.length = 64 := by
  unfold Item.slotWords
  simp [Item.blank]

/-- A LEDGER_READ of one item into a buffer in root memory. -/
def Chan.bulkRead : Chan := { State.reset.crn.chans[(0 : Fin 5)] with op := 10, go := true, bulk := true, args := #v[0, 1, 0, 512] }

/-- SERVICE, one item in the journal, a LEDGER_READ pending on channel 0, and a fresh error armed for word 0. -/
def State.armedRead : State :=
  let s := State.reset
  { s with sys := { s.sys with mode := .service }, ring := { s.ring with journal := [{ item := Item.blank, posted := false }] },
           crn := { s.crn with chans := vset s.crn.chans 0 Chan.bulkRead },
           hbm := vmod s.hbm 0 fun x => { x with injArm := true, injKind := 1, injWord := 0 } }

theorem State.armedRead_injects : Injects State.armedRead where
  mode := rfl
  arm := congrArg Stack.injArm (vmod_get_self State.reset.hbm 0 _)
  rest i hi := (congrArg Stack.injArm (vmod_get_ne State.reset.hbm _ hi)).trans (congrArg Stack.injArm (Vector.getElem_replicate _))
  word := congrArg Stack.injWord (vmod_get_self State.reset.hbm 0 _)
  kind := congrArg Stack.injKind (vmod_get_self State.reset.hbm 0 _)
  slice := by decide

theorem State.armedRead_bufferOk : State.armedRead.bufferOk 0 Chan.bulkRead = true := by
  have hfree : ∀ r, State.armedRead.regionPlot r = none := fun r => rfl
  have hbulk : Chan.bulkRead.bulk = true := rfl
  unfold State.bufferOk
  rw [if_pos hbulk]
  refine Bool.and_eq_true_iff.mpr ⟨by decide, List.all_eq_true.mpr fun r _ => ?_⟩
  rw [hfree]
  exact Bool.or_true _

/-- A LEDGER_READ into a buffer stores the items it takes. -/
theorem exec_ledgerRead_mem {s t : State} {ch : Fin 5} (hserves : s.serves ch 10 = true) (hmode : s.sys.mode = .service) (hbulk : s.crn.chans[ch].bulk = true)
    (hok : s.bufferOk ch s.crn.chans[ch] = true) (hexec : exec (.ledgerRead ch) s = .next t) :
    t.mem = (s.storeBytes (atAddr s.crn.chans[ch].args[(2 : Fin 4)].toNat
      (wordsBytes ((s.ring.itemsFrom s.crn.chans[ch].args[(0 : Fin 4)].toNat (min s.crn.chans[ch].args[(1 : Fin 4)].toNat (s.crn.chans[ch].len / 512))).flatMap Item.slotWords)))).mem := by
  have hread : exec (.ledgerRead ch) s = .next (s.ledgerRead ch s.crn.chans[ch]) := by
    show s.mbox ch 10 anyMode _ = _
    unfold State.mbox
    rw [if_pos hserves, hmode]
    rfl
  obtain rfl : s.ledgerRead ch s.crn.chans[ch] = t := Host.Outcome.next.inj (hread.symm.trans hexec)
  unfold State.ledgerRead
  rw [hok, hbulk, if_neg (by decide), if_pos rfl]
  exact State.finishData_mem ..

end Sys2Proof.Machine
open Sys2Proof Sys2Proof.Machine Sys2Proof.Safety

/-- Refutes O57: in SERVICE an armed injection flips bits of the items that LEDGER_READ stores in its buffer. -/
theorem not_mailboxControl : ¬ Obligations.MailboxControl := by
  unfold Obligations.MailboxControl
  intro h
  obtain ⟨-, -, -, -, -, -, hread, -⟩ := h State.armedRead 0
  obtain ⟨-, -, hbulk⟩ := hread ⟨Mode.noConfusion, Mode.noConfusion, rfl, rfl, rfl⟩
  have halive : ∀ n, Alive State.armedRead.mem 0 n := fun n i _ => List.not_mem_nil
  obtain ⟨t, hexec, -, -, -, hstored, -⟩ := hbulk rfl State.armedRead_bufferOk (halive _)
  rw [exec_ledgerRead_mem rfl rfl rfl State.armedRead_bufferOk hexec] at hstored
  have hlen : (wordsBytes Item.blank.slotWords).length = 512 := by rw [length_wordsBytes, Item.length_slotWords_blank]
  exact not_stored_of_injects State.armedRead_injects (bs := wordsBytes Item.blank.slotWords) (by omega) (by omega) (halive _) hstored
end

section
/-! SUPPORT. The mailbox's channels, and what the flash takes of a buffer; and the settling of O58. -/
namespace Sys2Proof.Machine
open Sys2Proof.Safety

/-! ### A channel that is served (R530, R532) -/

theorem State.serves_iff (s : State) (ch : Fin 5) (op : Nat) : s.serves ch op = true ↔
    s.sys.mode ≠ .reset ∧ s.sys.mode ≠ .dormant ∧ s.crn.chans[ch].go = true ∧ s.crn.chans[ch].busy = false ∧ s.crn.chans[ch].op.toNat = op := by
  unfold State.serves
  simp only [Bool.and_eq_true, beq_iff_eq, Bool.not_eq_true', State.awake_iff, and_assoc]

theorem State.mbox_of_accepts {s : State} {ch : Fin 5} {op : Nat} {accept : Mode → Bool} (f : Chan → State) (hserves : s.serves ch op = true)
    (haccept : accept s.sys.mode = true) : s.mbox ch op accept f = .next (f s.crn.chans[ch]) := by
  unfold State.mbox
  rw [if_pos hserves, if_pos haccept]

theorem State.mbox_of_refuses {s : State} {ch : Fin 5} {op : Nat} {accept : Mode → Bool} (f : Chan → State) (hserves : s.serves ch op = true)
    (haccept : accept s.sys.mode = false) : s.mbox ch op accept f = .next (s.finishChan ch 1 0 0) := by
  unfold State.mbox
  rw [if_pos hserves, haccept, if_neg Bool.false_ne_true]

theorem State.finishChan_self (s : State) (ch : Fin 5) (code detail words : Nat) : (s.finishChan ch code detail words).crn.chans[ch] =
    { s.crn.chans[ch] with go := false, busy := false, code := BitVec.ofNat 8 code, detail := BitVec.ofNat 8 detail, words := BitVec.ofNat 6 words } :=
  vmod_get_self ..

/-- A command that only answers. -/
theorem State.finishChan_ended (s : State) (ch : Fin 5) (code : Nat) :
    (s.finishChan ch code 0 0).crn.chans[ch] = s.crn.chans[ch].finished code ∧ { s.finishChan ch code 0 0 with crn := s.crn } = s :=
  ⟨s.finishChan_self ch code 0 0, rfl⟩

/-! ### What the flash takes (R518, R533) -/

theorem wordBytes_bytesNat (l : List Byte) : wordBytes l.length (bytesNat l) = l := by
  induction l with
  | nil => rfl
  | cons b l ih =>
    have hlow : BitVec.ofNat 8 (b.toNat + 256 * bytesNat l) = b := by
      apply BitVec.eq_of_toNat_eq
      rw [BitVec.toNat_ofNat]
      have hb := b.isLt
      omega
    have hhigh : (b.toNat + 256 * bytesNat l) / 256 = bytesNat l := by
      have hb := b.isLt
      omega
    rw [List.length_cons, wordBytes_succ, bytesNat, hlow, hhigh, ih]

theorem bytesNat_lt (l : List Byte) : bytesNat l < 2 ^ (8 * l.length) := by
  have h := bytesNat_wordBytes l.length (bytesNat l)
  rw [wordBytes_bytesNat] at h
  rw [h]
  exact Nat.mod_lt _ (by positivity)

/-- Bytes in whole words are the bytes of their words. -/
theorem wordsBytes_bytesWords {n : Nat} {bs : List Byte} (h : bs.length = 8 * n) : wordsBytes (bytesWords bs) = bs := by
  induction n generalizing bs with
  | zero =>
    obtain rfl := List.length_eq_zero_iff.mp h
    rfl
  | succ n ih =>
    have hwords : bytesWords bs = BitVec.ofNat 64 (bytesNat (bs.take 8)) :: bytesWords (bs.drop 8) := by
      unfold bytesWords
      have hlen : (bs.length + 7) / 8 = n + 1 := by omega
      have hdrop : ((bs.drop 8).length + 7) / 8 = n := by
        rw [List.length_drop]
        omega
      rw [hlen, hdrop, List.range_succ_eq_map, List.map_cons, List.map_map]
      refine congrArg₂ List.cons (by simp) (List.map_congr_left fun i _ => ?_)
      simp only [Function.comp, List.drop_drop]
      congr 5
      omega
    have htake : (bs.take 8).length = 8 := by
      rw [List.length_take]
      omega
    have hword : wordBytes 8 (BitVec.ofNat 64 (bytesNat (bs.take 8))).toNat = bs.take 8 := by
      have hlt := bytesNat_lt (bs.take 8)
      have hback := wordBytes_bytesNat (bs.take 8)
      rw [htake] at hlt hback
      rw [BitVec.toNat_ofNat, Nat.mod_eq_of_lt hlt, hback]
    rw [hwords]
    show wordBytes 8 _ ++ wordsBytes (bytesWords (bs.drop 8)) = bs
    rw [hword, ih (by rw [List.length_drop]; omega), List.take_append_drop]

/-- Words ws hold the bytes bs, and 0xff beyond them. -/
def Holds (ws : List Word) (bs : List Byte) : Prop := (wordsBytes ws).take bs.length = bs ∧ ∀ x ∈ (wordsBytes ws).drop bs.length, x = 0xff

/-- What is put at offset 0 stands there alone. -/
theorem holds_flashPut (old : List Word) (bs : List Byte) : Holds (flashPut old 0 bs) bs := by
  have hput : flashPut old 0 bs = bytesWords (bs ++ List.replicate ((8 - bs.length % 8) % 8) 0xff) := by
    simp [flashPut]
  have hback : wordsBytes (flashPut old 0 bs) = bs ++ List.replicate ((8 - bs.length % 8) % 8) 0xff := by
    rw [hput]
    refine wordsBytes_bytesWords (n := (bs.length + 7) / 8) ?_
    rw [List.length_append, List.length_replicate]
    omega
  unfold Holds
  rw [hback, List.take_left, List.drop_left]
  exact ⟨rfl, fun x hx => List.eq_of_mem_replicate hx⟩

theorem Chan.offset_of_bulk {c : Chan} (h : c.bulk = true) : c.offset = 0 := if_pos h

/-- A flash write fails, or leaves what was put; a free value is drawn either way. -/
theorem State.flashWrite_cases (s : State) (ws : List Word) : ∃ got fresh,
    (∃ pages, s.flashWrite ws = (some pages, got, { s with fresh := fresh })) ∨ s.flashWrite ws = (none, ws, { s with fresh := fresh }) := by
  unfold State.flashWrite
  dsimp only
  split
  · exact ⟨_, _, .inl ⟨_, rfl⟩⟩
  · exact ⟨[], _, .inr rfl⟩

/-- The copy of the firmware that is not running. -/
def State.spareCopy (s : State) : Fin 2 := if s.sys.fwCopy then 0 else 1

/-- State s with words ws in its spare copy, and the running one preferred. -/
def State.fwCopied (s : State) (ws : List Word) (fresh : Nat) : State :=
  { s with fresh := fresh, sys := { s.sys with fw := vset s.sys.fw s.spareCopy ⟨Config.fwSerial ws, ws⟩, fwPref := 1 - s.spareCopy } }

/-- The verdict on what the flash took: whether it failed, what the copy holds now, and the state after the write. -/
def State.fwVerdict (ch : Fin 5) (k : Fin 2) (r : Option Nat × List Word × State) : State :=
  let n := Config.fwSerial r.2.1
  let s := r.2.2.modSys fun x => { x with fw := vset x.fw k ⟨n, r.2.1⟩, fwPref := 1 - k }
  match r.1 with
  | some pages => s.finishChan ch 5 pages 0
  | none =>
    if !Config.fwVerifies r.2.1 then s.finishChan ch 4 0 0
    else if n.toNat < s.sys.fwFloor.toNat then s.finishChan ch 10 0 0
    else (s.modSys fun x => { x with fwPref := k }).finishChan ch 0 0 0

theorem State.fwWritten_eq (s : State) (ch : Fin 5) (c : Chan) :
    s.fwWritten ch c = State.fwVerdict ch s.spareCopy (s.flashWrite (flashPut s.sys.fw[s.spareCopy].words c.offset (s.bufferBytes c))) := rfl

/-- FW_WRITE: the flash fails, the copy does not verify, its serial is below the floor, or it is preferred from now on (R518). -/
theorem State.fwWritten_cases (s : State) (ch : Fin 5) (c : Chan) : ∃ ws fresh,
    (∃ pages, s.fwWritten ch c = (s.fwCopied ws fresh).finishChan ch 5 pages 0) ∨
    ws = flashPut s.sys.fw[s.spareCopy].words c.offset (s.bufferBytes c) ∧
      ((Config.fwVerifies ws = false ∧ s.fwWritten ch c = (s.fwCopied ws fresh).finishChan ch 4 0 0) ∨
       (Config.fwVerifies ws = true ∧ (Config.fwSerial ws).toNat < s.sys.fwFloor.toNat ∧ s.fwWritten ch c = (s.fwCopied ws fresh).finishChan ch 10 0 0) ∨
       (Config.fwVerifies ws = true ∧ s.sys.fwFloor.toNat ≤ (Config.fwSerial ws).toNat ∧
         s.fwWritten ch c = ((s.fwCopied ws fresh).modSys fun x => { x with fwPref := s.spareCopy }).finishChan ch 0 0 0)) := by
  rw [State.fwWritten_eq]
  generalize flashPut s.sys.fw[s.spareCopy].words c.offset (s.bufferBytes c) = ws
  obtain ⟨got, fresh, ⟨pages, hflash⟩ | hflash⟩ := s.flashWrite_cases ws
  · exact ⟨got, fresh, .inl ⟨pages, by rw [hflash]; rfl⟩⟩
  · refine ⟨ws, fresh, .inr ⟨rfl, ?_⟩⟩
    rw [hflash]
    unfold State.fwVerdict
    dsimp only
    cases hverifies : Config.fwVerifies ws with
    | false => exact .inl ⟨rfl, rfl⟩
    | true =>
      by_cases hfloor : (Config.fwSerial ws).toNat < s.sys.fwFloor.toNat
      · exact .inr (.inl ⟨rfl, hfloor, if_pos hfloor⟩)
      · exact .inr (.inr ⟨rfl, Nat.le_of_not_lt hfloor, if_neg hfloor⟩)

/-- State s with words ws in slot k. -/
def State.slotCopied (s : State) (k : Fin 2) (ws : List Word) (fresh : Nat) : State :=
  { s with fresh := fresh, grn := { s.grn with slots := vset s.grn.slots k ws } }

/-- SLOT_WRITE: the flash fails, or the slot holds what was put (R404). -/
theorem State.slotWritten_cases (s : State) (ch : Fin 5) (c : Chan) : ∃ ws fresh,
    (∃ pages, s.slotWritten ch c = (s.slotCopied c.slot ws fresh).finishChan ch 5 pages 0) ∨
    ws = flashPut s.grn.slots[c.slot] c.offset (s.bufferBytes c) ∧ s.slotWritten ch c = (s.slotCopied c.slot ws fresh).finishChan ch 0 0 0 := by
  unfold State.slotWritten
  obtain ⟨got, fresh, ⟨pages, hflash⟩ | hflash⟩ := s.flashWrite_cases (flashPut s.grn.slots[c.slot] c.offset (s.bufferBytes c))
  · exact ⟨got, fresh, .inl ⟨pages, by rw [hflash]; rfl⟩⟩
  · exact ⟨_, fresh, .inr ⟨rfl, by rw [hflash]; rfl⟩⟩

theorem State.slotBusy_iff (s : State) (k : Fin 2) :
    s.slotBusy k = true ↔ (s.grn.active ≠ none ∧ s.grn.slot = k) ∨ ∃ r, s.grn.req = some r ∧ r.slot = k := by
  unfold State.slotBusy
  rw [Bool.or_eq_true, Bool.and_eq_true, Option.isSome_iff_ne_none, beq_iff_eq]
  cases s.grn.req <;> simp

/-! ### The clauses of O58 -/

/-- Outside SERVICE the commands on the firmware and the owner are refused. -/
theorem exec_ownerOp_of_mode {s : State} {ch : Fin 5} {i : Instr} {op : Nat} (hi : (i = .fwWrite ch ∧ op = 4) ∨ (i = .enrollOwner ch ∧ op = 7) ∨ (i = .transferOwner ch ∧ op = 8))
    (hserves : s.serves ch op = true) (hmode : s.sys.mode ≠ .service) : exec i s = .next (s.finishChan ch 1 0 0) := by
  have hrefuse : onlyService s.sys.mode = false := beq_eq_false_iff_ne.mpr hmode
  rcases hi with ⟨rfl, rfl⟩ | ⟨rfl, rfl⟩ | ⟨rfl, rfl⟩
  · exact (State.mbox_of_refuses _ hserves hrefuse : execFwWrite ch s = _)
  · exact (State.mbox_of_refuses _ hserves hrefuse : execEnrollOwner ch s = _)
  · exact (State.mbox_of_refuses _ hserves hrefuse : execTransferOwner ch s = _)

theorem one_sub_ne (k : Fin 2) : 1 - k ≠ k := by
  revert k
  decide

/-- What FW_WRITE leaves of a state. -/
theorem State.fwWritten_spec (s : State) (ch : Fin 5) :
    let t := s.fwWritten ch s.crn.chans[ch]
    let ws := t.sys.fw[s.spareCopy].words
    t.crn.chans[ch].go = false ∧ t.sys.fw[1 - s.spareCopy] = s.sys.fw[1 - s.spareCopy] ∧ t.sys.fwFloor = s.sys.fwFloor ∧ t.mem = s.mem ∧
      ((t.crn.chans[ch].code = 5 ∧ t.sys.fwPref = 1 - s.spareCopy) ∨
        ((s.crn.chans[ch].bulk = true → Holds ws (s.bufferBytes s.crn.chans[ch])) ∧
          ((t.crn.chans[ch] = s.crn.chans[ch].finished 4 ∧ t.sys.fwPref = 1 - s.spareCopy ∧ Config.fwVerifies ws = false) ∨
            (t.crn.chans[ch] = s.crn.chans[ch].finished 10 ∧ t.sys.fwPref = 1 - s.spareCopy ∧ Config.fwVerifies ws = true ∧
              (Config.fwSerial ws).toNat < s.sys.fwFloor.toNat) ∨
            (t.crn.chans[ch] = s.crn.chans[ch].finished 0 ∧ t.sys.fwPref = s.spareCopy ∧ Config.fwVerifies ws = true ∧
              s.sys.fwFloor.toNat ≤ (Config.fwSerial ws).toNat)))) := by
  obtain ⟨ws, fresh, hcases⟩ := s.fwWritten_cases ch s.crn.chans[ch]
  have hself : (s.fwCopied ws fresh).sys.fw[s.spareCopy].words = ws := congrArg FwCopy.words (vset_get_self ..)
  have hother : (s.fwCopied ws fresh).sys.fw[1 - s.spareCopy] = s.sys.fw[1 - s.spareCopy] := vset_get_ne _ _ (one_sub_ne _)
  have hpref : (s.fwCopied ws fresh).sys.fwPref = 1 - s.spareCopy := rfl
  have hfloor : (s.fwCopied ws fresh).sys.fwFloor = s.sys.fwFloor := rfl
  have hmem : (s.fwCopied ws fresh).mem = s.mem := rfl
  have hcrn : (s.fwCopied ws fresh).crn = s.crn := rfl
  generalize s.fwCopied ws fresh = u at hcases hself hother hpref hfloor hmem hcrn
  have hdone : ∀ (t : State) code, t.crn = s.crn → (t.finishChan ch code 0 0).crn.chans[ch] = s.crn.chans[ch].finished code := fun t code ht => by
    rw [State.finishChan_self, ht]
    rfl
  dsimp only
  rcases hcases with ⟨pages, hwritten⟩ | ⟨hput, hcases⟩
  · rw [hwritten]
    exact ⟨congrArg Chan.go (u.finishChan_self ..), hother, hfloor, hmem, .inl ⟨congrArg Chan.code (u.finishChan_self ..), hpref⟩⟩
  have hholds : s.crn.chans[ch].bulk = true → Holds ws (s.bufferBytes s.crn.chans[ch]) := fun hbulk => by
    rw [hput, Chan.offset_of_bulk hbulk]
    exact holds_flashPut ..
  have hgo : ∀ t : State, t.crn = s.crn → ∀ code, (t.finishChan ch code 0 0).crn.chans[ch].go = false := fun t ht code => by rw [hdone t code ht]; rfl
  rcases hcases with ⟨hbad, hwritten⟩ | ⟨hgood, hlow, hwritten⟩ | ⟨hgood, hhigh, hwritten⟩
  · rw [hwritten]
    have hws : (u.finishChan ch 4 0 0).sys.fw[s.spareCopy].words = ws := hself
    rw [hws]
    exact ⟨hgo u hcrn 4, hother, hfloor, hmem, .inr ⟨hholds, .inl ⟨hdone u 4 hcrn, hpref, hbad⟩⟩⟩
  · rw [hwritten]
    have hws : (u.finishChan ch 10 0 0).sys.fw[s.spareCopy].words = ws := hself
    rw [hws]
    exact ⟨hgo u hcrn 10, hother, hfloor, hmem, .inr ⟨hholds, .inr (.inl ⟨hdone u 10 hcrn, hpref, hgood, hlow⟩)⟩⟩
  · rw [hwritten]
    have hws : ((u.modSys fun x => { x with fwPref := s.spareCopy }).finishChan ch 0 0 0).sys.fw[s.spareCopy].words = ws := hself
    rw [hws]
    exact ⟨hgo _ hcrn 0, hother, hfloor, hmem, .inr ⟨hholds, .inr (.inr ⟨hdone _ 0 hcrn, rfl, hgood, hhigh⟩)⟩⟩

/-- What SLOT_WRITE leaves of a state whose slot is free. -/
theorem State.slotWritten_spec (s : State) {ch : Fin 5} {c : Chan} (hc : s.crn.chans[ch] = c) :
    (s.slotWritten ch c).grn.slots[1 - c.slot] = s.grn.slots[1 - c.slot] ∧ (s.slotWritten ch c).grn = { s.grn with slots := (s.slotWritten ch c).grn.slots } ∧
      (s.slotWritten ch c).mem = s.mem ∧
      ((s.slotWritten ch c).crn.chans[ch].code = 5 ∨
        ((s.slotWritten ch c).crn.chans[ch] = c.finished 0 ∧ (c.bulk = true → Holds (s.slotWritten ch c).grn.slots[c.slot] (s.bufferBytes c)))) := by
  obtain ⟨ws, fresh, hcases⟩ := s.slotWritten_cases ch c
  have hother : (s.slotCopied c.slot ws fresh).grn.slots[1 - c.slot] = s.grn.slots[1 - c.slot] := vset_get_ne _ _ (one_sub_ne _)
  have hself : (s.slotCopied c.slot ws fresh).grn.slots[c.slot] = ws := vset_get_self ..
  rcases hcases with ⟨pages, hwritten⟩ | ⟨hput, hwritten⟩
  · rw [hwritten]
    exact ⟨hother, rfl, rfl, .inl (congrArg Chan.code (State.finishChan_self ..))⟩
  · have hholds : c.bulk = true → Holds ws (s.bufferBytes c) := fun hbulk => by
      rw [hput, Chan.offset_of_bulk hbulk]
      exact holds_flashPut ..
    rw [← hself] at hholds
    rw [hwritten]
    exact ⟨hother, rfl, rfl, .inr ⟨(State.finishChan_self ..).trans (congrArg (Chan.finished · 0) hc), hholds⟩⟩

theorem State.enrolled_of_owned {s : State} {ch : Fin 5} {c : Chan} (howner : s.grn.owner ≠ none) : s.enrolled ch c = s.finishChan ch 6 0 0 :=
  if_pos (Option.isSome_iff_ne_none.mpr howner)

theorem State.enrolled_of_unfit {s : State} {ch : Fin 5} {c : Chan} (howner : s.grn.owner = none) (hbad : s.bufferOk ch c = false ∨ c.len ≠ 96) :
    s.enrolled ch c = s.finishChan ch 2 0 0 := by
  have hunfit : (s.bufferOk ch c && decide (c.len = 96)) = false := by
    rcases hbad with hbad | hbad
    · rw [hbad, Bool.false_and]
    · rw [decide_eq_false hbad, Bool.and_false]
  unfold State.enrolled
  dsimp only
  rw [howner, hunfit]
  rfl

theorem State.enrolled_of_invalid {s : State} {ch : Fin 5} {c : Chan} (howner : s.grn.owner = none) (hok : s.bufferOk ch c = true) (hlen : c.len = 96)
    (hvalid : Config.keyValid (s.bufferBytes c) = false) : s.enrolled ch c = s.finishChan ch 4 0 0 := by
  unfold State.enrolled
  dsimp only
  rw [howner, hok, hlen, hvalid]
  rfl

/-- An owner is enrolled: the key is kept and an item tells of it. -/
theorem State.enrolled_of_valid {s : State} {ch : Fin 5} {c : Chan} (howner : s.grn.owner = none) (hok : s.bufferOk ch c = true) (hlen : c.len = 96)
    (hvalid : Config.keyValid (s.bufferBytes c) = true) :
    s.enrolled ch c = ((s.modGrn fun g => { g with owner := some (s.bufferBytes c) }).note 3 (keyDigest0 (s.bufferBytes c)) 0).finishChan ch 0 0 0 := by
  unfold State.enrolled
  dsimp only
  rw [howner, hok, hlen, hvalid]
  rfl

theorem State.note_frame (s : State) (kind : Nat) (d0 d1 : Word) : ∃ ring hwd, s.note kind d0 d1 = { s with ring := ring, hwd := hwd } := by
  unfold State.note State.emitItem State.requestSig
  dsimp only
  split_ifs
  all_goals exact ⟨_, _, rfl⟩

theorem State.transferred_of_unowned {s : State} {ch : Fin 5} {c : Chan} (hok : s.bufferOk ch c = true) (howner : s.grn.owner = none) :
    s.transferred ch c = s.finishChan ch 4 0 0 := by
  unfold State.transferred
  rw [hok, howner]
  rfl

theorem State.transferred_of_unverified {s : State} {ch : Fin 5} {c : Chan} {old : List Byte} (hok : s.bufferOk ch c = true) (howner : s.grn.owner = some old)
    (hbad : Config.transferVerifies old (s.bufferBytes c) = false) : s.transferred ch c = s.finishChan ch 4 0 0 := by
  unfold State.transferred
  rw [hok, howner]
  dsimp only
  rw [hbad]
  rfl

/-- A change of what the Grain keeps, an item that tells of it, and the answer. -/
theorem State.note_finished {s t : State} (kind : Nat) (ch : Fin 5) (d0 d1 : Word) (ht : { t with grn := s.grn } = s) :
    let u := (t.note kind d0 d1).finishChan ch 0 0 0
    u.crn.chans[ch] = s.crn.chans[ch].finished 0 ∧ u.grn = t.grn ∧ { u with crn := s.crn, grn := s.grn, ring := s.ring, hwd := s.hwd } = s := by
  obtain ⟨ring, hwd, hnote⟩ := t.note_frame kind d0 d1
  have hcrn : t.crn = s.crn := (congrArg State.crn ht :)
  dsimp only
  rw [hnote]
  refine ⟨(State.finishChan_self ..).trans (congrArg (fun x : Crn => x.chans[ch].finished 0) hcrn), rfl, ?_⟩
  exact (congrArg (fun x : State => { x with crn := s.crn, ring := s.ring, hwd := s.hwd }) ht :)

/-- An enrolment stands in the ledger where the journal has room. -/
theorem State.note_tells {s : State} {g : Grn → Grn} {d0 : Word} (ch : Fin 5) (hmode : s.sys.mode ≠ .quarantine) (hroom : s.ring.journal.length < 7680) :
    ∃ i, (((s.modGrn g).note 3 d0 0).finishChan ch 0 0 0).ring.unsigned = s.ring.unsigned ++ [i] ∧ i.typ = 0xa3 ∧ i.covered = [3, 0, s.ring.tick, d0, 0] := by
  obtain ⟨hwd, hemit⟩ := State.emitItem_of_room (s := s.modGrn g) (typ := tyNote) hmode (.inr hroom) [3, 0, s.ring.tick, d0, 0] none
  have hnote : (s.modGrn g).note 3 d0 0 = _ := hemit
  rw [hnote]
  exact ⟨_, rfl, rfl, rfl⟩

theorem State.slotEmpty_of_cleared {s : State} (h : s.grn.slots = Vector.replicate 2 []) (k : Fin 2) : s.slotEmpty k = true := by
  have hk : s.grn.slots[k] = [] := by
    rw [h]
    exact Vector.getElem_replicate k.isLt
  unfold State.slotEmpty
  rw [hk]
  rfl

/-- An owner is replaced: both slots are empty from now on. -/
theorem State.transferred_of_verified {s : State} {ch : Fin 5} {c : Chan} {old : List Byte} (hok : s.bufferOk ch c = true) (howner : s.grn.owner = some old)
    (hverifies : Config.transferVerifies old (s.bufferBytes c) = true) : s.transferred ch c =
      ((s.modGrn fun g => { g with owner := some (Config.transferKey (s.bufferBytes c)), slots := Vector.replicate 2 [] }).note 4
        (keyDigest0 (Config.transferKey (s.bufferBytes c))) (keyDigest0 old)).finishChan ch 0 0 0 := by
  unfold State.transferred
  rw [hok, howner]
  dsimp only
  rw [hverifies]
  rfl

end Sys2Proof.Machine
open Sys2Proof Sys2Proof.Machine Sys2Proof.Safety

/-- Settles O58: what the flash took decides on the copy, and every refusal answers its channel alone. -/
theorem mailboxFlash : Obligations.MailboxFlash := by
  unfold Obligations.MailboxFlash
  intro s ch
  refine ⟨?mode, ?fw, ?slot, ?enroll, ?transfer⟩
  case mode =>
    intro i op hi hs hmode
    exact ⟨_, exec_ownerOp_of_mode hi ((s.serves_iff ch op).mpr hs) hmode, s.finishChan_ended ch 1⟩
  case fw =>
    intro hs hmode
    have hexec := (State.mbox_of_accepts _ ((s.serves_iff ch 4).mpr hs) (beq_iff_eq.mpr hmode) : execFwWrite ch s = _)
    refine ⟨fun hok => ⟨_, hexec, ?_⟩, fun hok => ⟨_, hexec, ?_⟩⟩
    · dsimp only
      rw [hok, if_neg Bool.false_ne_true]
      exact s.finishChan_ended ch 2
    · dsimp only
      rw [hok, if_pos rfl]
      exact s.fwWritten_spec ch
  case slot =>
    intro hs
    have hs := (s.serves_iff ch 5).mpr hs
    refine ⟨fun hnot hrun => ?_, fun hmode => ?_⟩
    · have hrefuse : (s.sys.mode == .service || s.sys.mode == .run) = false := by simp [hnot, hrun]
      exact ⟨_, (State.mbox_of_refuses _ hs hrefuse : execSlotWrite ch s = _), s.finishChan_ended ch 1⟩
    · have haccept : (s.sys.mode == .service || s.sys.mode == .run) = true := by simpa using hmode
      have hexec := (State.mbox_of_accepts _ hs haccept : execSlotWrite ch s = _)
      refine ⟨fun hbad => ⟨_, hexec, ?_⟩, fun hok hfit hbusy => ⟨_, hexec, ?_⟩, fun hok hfit hfree => ⟨_, hexec, ?_⟩⟩
      · have hunfit : (s.bufferOk ch s.crn.chans[ch] && decide (s.crn.chans[ch].offset + s.crn.chans[ch].len ≤ slotSize)) = false := by
          rcases hbad with hbad | hbad
          · rw [hbad, Bool.false_and]
          · rw [(decide_eq_false (Nat.not_le_of_lt hbad) : decide (s.crn.chans[ch].offset + s.crn.chans[ch].len ≤ slotSize) = false), Bool.and_false]
        dsimp only
        rw [hunfit]
        exact s.finishChan_ended ch 2
      · have hfit : (s.bufferOk ch s.crn.chans[ch] && decide (s.crn.chans[ch].offset + s.crn.chans[ch].len ≤ slotSize)) = true := by
          rw [hok, Bool.true_and]
          exact decide_eq_true hfit
        dsimp only
        rw [hfit, (s.slotBusy_iff s.crn.chans[ch].slot).mpr hbusy]
        exact s.finishChan_ended ch 7
      · have hfit : (s.bufferOk ch s.crn.chans[ch] && decide (s.crn.chans[ch].offset + s.crn.chans[ch].len ≤ slotSize)) = true := by
          rw [hok, Bool.true_and]
          exact decide_eq_true hfit
        have hidle : s.slotBusy s.crn.chans[ch].slot = false := Bool.eq_false_iff.mpr fun h => hfree ((s.slotBusy_iff s.crn.chans[ch].slot).mp h)
        dsimp only
        rw [hfit, hidle]
        exact s.slotWritten_spec rfl
  case enroll =>
    intro hs hmode
    have hexec := (State.mbox_of_accepts _ ((s.serves_iff ch 7).mpr hs) (beq_iff_eq.mpr hmode) : execEnrollOwner ch s = _)
    refine ⟨fun howner => ⟨_, hexec, ?_⟩, fun howner => ⟨fun hbad => ⟨_, hexec, ?_⟩, fun hok hlen hkey => ⟨_, hexec, ?_⟩, fun hok hlen hkey => ⟨_, hexec, ?_⟩⟩⟩
    · rw [State.enrolled_of_owned howner]
      exact s.finishChan_ended ch 6
    · rw [State.enrolled_of_unfit howner hbad]
      exact s.finishChan_ended ch 2
    · rw [State.enrolled_of_invalid howner hok hlen hkey]
      exact s.finishChan_ended ch 4
    · rw [State.enrolled_of_valid howner hok hlen hkey]
      have hfinal := State.note_finished (t := s.modGrn fun g => { g with owner := some (s.bufferBytes s.crn.chans[ch]) }) (s := s) 3 ch
        (keyDigest0 (s.bufferBytes s.crn.chans[ch])) 0 rfl
      obtain ⟨hended, hgrn, hframe⟩ := hfinal
      exact ⟨hended, hgrn, fun hroom => s.note_tells ch (fun h => Mode.noConfusion (hmode.symm.trans h)) hroom, hframe⟩
  case transfer =>
    intro hs hmode hok
    have hexec := (State.mbox_of_accepts _ ((s.serves_iff ch 8).mpr hs) (beq_iff_eq.mpr hmode) : execTransferOwner ch s = _)
    refine ⟨fun howner => ⟨_, hexec, ?_⟩, fun old howner => ⟨fun hbad => ⟨_, hexec, ?_⟩, fun hgood => ⟨_, hexec, ?_⟩⟩⟩
    · rw [State.transferred_of_unowned hok howner]
      exact s.finishChan_ended ch 4
    · rw [State.transferred_of_unverified hok howner hbad]
      exact s.finishChan_ended ch 4
    · rw [State.transferred_of_verified hok howner hgood]
      obtain ⟨hended, hgrn, hframe⟩ := State.note_finished
        (t := s.modGrn fun g => { g with owner := some (Config.transferKey (s.bufferBytes s.crn.chans[ch])), slots := Vector.replicate 2 [] }) (s := s) 4 ch
        (keyDigest0 (Config.transferKey (s.bufferBytes s.crn.chans[ch]))) (keyDigest0 old) rfl
      exact ⟨hended, (congrArg Grn.owner hgrn :), fun k => State.slotEmpty_of_cleared (congrArg Grn.slots hgrn :) k, hframe⟩
end

section
/-! SUPPORT. What an SPDM request leaves of the heartwood; and the settling of O42. -/
namespace Sys2Proof.Machine
open Sys2Proof.Safety

/-! ### A request that is heard (R445, R448) -/

/-- From s to t the responder has worked on transport tr: nothing has been sent, and the other transports and the IDE keys are as they were. -/
structure Prepares (tr : Fin 9) (s t : State) : Prop where
  outbox : t.outbox = s.outbox
  others : ∀ k, k ≠ tr → t.hwd.transports[k] = s.hwd.transports[k]
  ide : t.hwd.ide = s.hwd.ide
  frame : { t with hwd := s.hwd, fresh := s.fresh } = s

namespace Prepares

variable {tr : Fin 9} {s t u : State}

theorem refl (s : State) : Prepares tr s s := ⟨rfl, fun _ _ => rfl, rfl, rfl⟩

theorem trans (h : Prepares tr s t) (k : Prepares tr t u) : Prepares tr s u where
  outbox := k.outbox.trans h.outbox
  others i hi := (k.others i hi).trans (h.others i hi)
  ide := k.ide.trans h.ide
  frame := (congrArg (fun x : State => { x with hwd := s.hwd, fresh := s.fresh }) k.frame :).trans h.frame

theorem modTr (s : State) (f : Transport → Transport) : Prepares tr s (s.modTr tr f) :=
  ⟨rfl, fun _ hk => vmod_get_ne s.hwd.transports f hk, rfl, rfl⟩

/-- A change of the heartwood that leaves its transports and its IDE keys. -/
theorem modHwd (s : State) {f : Hwd → Hwd} (htr : (f s.hwd).transports = s.hwd.transports) (hide : (f s.hwd).ide = s.hwd.ide) : Prepares tr s (s.modHwd f) :=
  ⟨rfl, fun k _ => congrArg (fun v : Vector Transport 9 => v[k]) htr, hide, rfl⟩

theorem dropPending (s : State) : Prepares tr s (s.dropPending tr) := by
  unfold State.dropPending
  exact (modTr s _).trans (modHwd _ rfl rfl)

theorem draws (k : Nat) (s : State) : Prepares tr s (Sys2Proof.Machine.draws k s).2 := by
  induction k generalizing s with
  | zero => exact .refl s
  | succ k ih => exact (⟨rfl, fun _ _ => rfl, rfl, rfl⟩ : Prepares tr s s.draw.2).trans (ih s.draw.2)

theorem requestSig (s : State) (r : SigReq) : Prepares tr s (s.requestSig r) := by
  unfold State.requestSig
  split_ifs
  · exact .refl s
  · exact ⟨rfl, fun _ _ => rfl, rfl, rfl⟩
  · exact ⟨rfl, fun _ _ => rfl, rfl, rfl⟩

theorem answers (h : Prepares tr s t) (r : SpdmResp) : Answers tr r s (t.answer tr r) :=
  ⟨congrArg (· ++ [Output.spdm tr r]) h.outbox, h.others, h.ide, (congrArg (fun x : State => { x with outbox := s.outbox }) h.frame :)⟩

end Prepares

theorem State.spdm_of_heard {s : State} {tr : Fin 9} {i : Instr} (h : Heard s tr i) (f : State → State) : s.spdm tr i f = f s := by
  obtain ⟨hup, htr, hfree⟩ := h
  unfold State.spdm
  split
  next n hn => rw [hfree n hn, Bool.and_false, if_neg Bool.false_ne_true, hup, htr, Bool.and_self, if_pos rfl]
  next => rw [if_pos hup]

/-- Transport t when a new request has replaced its pending answer; busy tells that the engine signs for it. -/
def Transport.dropped (t : Transport) (busy : Bool) : Transport := { t with pending := none, ready := false, direct := false, stale := t.stale || busy }

theorem State.dropPending_eq (s : State) (tr : Fin 9) : s.dropPending tr = { s with hwd := { s.hwd with
    transports := vmod s.hwd.transports tr fun t => t.dropped (s.hwd.engine == some (.spdm tr)), sigQueue := s.hwd.sigQueue.filter fun r => r != SigReq.spdm tr } } := rfl

theorem State.dropPending_self (s : State) (tr : Fin 9) :
    (s.dropPending tr).hwd.transports[tr] = s.hwd.transports[tr].dropped (s.hwd.engine == some (.spdm tr)) := vmod_get_self ..

theorem State.algs_dropPending (s : State) (tr : Fin 9) : (s.dropPending tr).hwd.transports[tr].algs = s.hwd.transports[tr].algs := by
  rw [State.dropPending_self]
  rfl

theorem State.negotiated_of_algs {s : State} {tr : Fin 9} (h : s.hwd.transports[tr].algs = true) (k : State → State) : s.negotiated tr k = k (s.dropPending tr) :=
  if_pos h

theorem State.modTr_self (s : State) (tr : Fin 9) (f : Transport → Transport) : (s.modTr tr f).hwd.transports[tr] = f s.hwd.transports[tr] := vmod_get_self ..

/-! ### An answer that wants a signature (R448) -/

/-- The transport whose answer r waits for its signature. -/
def Transport.awaits (t : Transport) (r : SpdmResp) (direct : Bool) : Transport := { t with pending := some r, ready := false, direct := direct }

/-- With the engine free, the engine takes the request. -/
theorem State.signedAnswer_of_free {s : State} (hengine : s.hwd.engine = none) (hpwr : s.sys.pwrFail = false) (tr : Fin 9) (r : SpdmResp) :
    s.signedAnswer tr r = { s with hwd := { s.hwd with transports := vmod s.hwd.transports tr fun t => t.awaits r true, engine := some (.spdm tr) } } := by
  unfold State.signedAnswer State.requestSig State.modTr State.modHwd
  dsimp only
  rw [hengine, hpwr]
  rfl

/-- With the engine at work, the request waits and the requester is told to come back. -/
theorem State.signedAnswer_of_busy {s : State} {q : SigReq} (hengine : s.hwd.engine = some q) (hpwr : s.sys.pwrFail = false) (tr : Fin 9) (r : SpdmResp) :
    s.signedAnswer tr r =
      ((s.modTr tr fun t => t.awaits r false).modHwd fun x => { x with sigQueue := x.sigQueue ++ [.spdm tr] }).answer tr (.notReady 13 8) := by
  unfold State.signedAnswer State.requestSig State.modTr State.modHwd
  dsimp only
  rw [hengine, hpwr]
  rfl

/-! ### Measurements (R449, R450) -/

theorem State.blocks_of_outside (s : State) {index : BitVec 8} (h : index.toNat = 0 ∨ (4 < index.toNat ∧ index ≠ 0xff)) : s.blocks index.toNat = none := by
  have hall : index.toNat ≠ 0xff := by
    rcases h with h | ⟨-, h⟩
    · omega
    · exact fun heq => h (BitVec.eq_of_toNat_eq heq)
  unfold State.blocks
  rw [if_neg hall, if_neg (by omega)]

theorem State.blocks_all (s : State) : s.blocks 0xff = some [(1, s.measurement 1), (2, s.measurement 2), (3, s.measurement 3), (4, s.measurement 4)] := rfl

theorem State.measurement_dropPending (s : State) (tr : Fin 9) (i : Nat) : (s.dropPending tr).measurement i = s.measurement i := rfl

theorem State.measurement_three_of_none {s : State} (h : s.grn.active = none) : s.measurement 3 = List.replicate 6 0 := by
  show (match s.grn.active with
    | some g => six (Config.sha384 (wordsBytes g.raw))
    | none => List.replicate 6 0) = _
  rw [h]

/-! ### Sessions (R447, R448) -/

/-- Session sid is open on transport tr, established as e says. -/
def State.opened (s : State) (tr : Fin 9) (sid : Nat) (e : Bool) : Prop := ∃ x ∈ s.hwd.sessions, x.sid = sid ∧ x.tr = tr ∧ x.established = e

theorem State.opened_iff (s : State) (tr : Fin 9) (sid : Nat) (e : Bool) :
    (s.hwd.sessions.any fun x => x.sid = sid && x.tr == tr && x.established == e) = true ↔ s.opened tr sid e := by
  unfold State.opened
  simp only [List.any_eq_true, Bool.and_eq_true, decide_eq_true_eq, beq_iff_eq, and_assoc]

theorem State.inSession_of_opened {s : State} {tr : Fin 9} {sid : Nat} {e : Bool} (h : s.opened tr sid e) (k : State → State) :
    s.inSession tr sid e k = k (s.dropPending tr) := if_pos ((s.opened_iff tr sid e).mpr h)

theorem State.inSession_of_not_opened {s : State} {tr : Fin 9} {sid : Nat} {e : Bool} (h : ¬ s.opened tr sid e) (k : State → State) :
    s.inSession tr sid e k = s.spdmError tr errSession := if_neg fun hany => h ((s.opened_iff tr sid e).mp hany)

theorem State.ideSession_iff (s : State) (tr : Fin 9) (sid : Nat) (n : PortId) : s.ideSession tr sid n = true ↔ tr.val = n.val ∧ s.opened tr sid true := by
  have hdoe : (tr == doeOf n) = true ↔ tr.val = n.val := by
    rw [beq_iff_eq, Fin.ext_iff]
    rfl
  unfold State.ideSession
  rw [Bool.and_eq_true, hdoe, ← State.opened_iff]
  simp only [beq_true]

/-! ### The clauses of O42 -/

section Clauses

variable {s : State} {tr : Fin 9}

/-- A request that is heard runs. -/
theorem runsTo_of_heard {i : Instr} {f : State → State} (hexec : exec i s = .next (s.spdm tr i f)) (h : Heard s tr i) {Q : State → Prop} (hQ : Q (f s)) :
    RunsTo i s Q := ⟨f s, hexec.trans (congrArg Host.Outcome.next (State.spdm_of_heard h f)), hQ⟩

/-- A request of a negotiated transport runs once the pending answer is dropped. -/
theorem runsTo_of_negotiated {i : Instr} {f : State → State} (hexec : exec i s = .next (s.spdm tr i fun s => s.negotiated tr f)) (h : Heard s tr i)
    (halgs : s.hwd.transports[tr].algs = true) {Q : State → Prop} (hQ : Q (f (s.dropPending tr))) : RunsTo i s Q :=
  runsTo_of_heard hexec h (by rw [State.negotiated_of_algs halgs]; exact hQ)

theorem getVersion_spec (h : Heard s tr (.getVersion tr)) : RunsTo (.getVersion tr) s fun s' =>
    Answers tr (.version 1 2) s s' ∧ s'.hwd.transports[tr].version = true ∧ s'.hwd.transports[tr].algs = false := by
  refine runsTo_of_heard rfl h ⟨((Prepares.dropPending s).trans (.modTr _ _)).answers _, ?_, ?_⟩
  · exact congrArg Transport.version (State.modTr_self ..)
  · exact congrArg Transport.algs (State.modTr_self ..)

theorem getCapabilities_spec (h : Heard s tr (.getCapabilities tr)) (hversion : s.hwd.transports[tr].version = true) : RunsTo (.getCapabilities tr) s fun s' =>
    Answers tr (.capabilities 16 spdmCaps) s s' ∧ s'.hwd.transports[tr].caps = true ∧ s'.hwd.transports[tr].algs = s.hwd.transports[tr].algs := by
  refine runsTo_of_heard rfl h ?_
  unfold State.doGetCapabilities
  rw [if_pos hversion]
  refine ⟨((Prepares.dropPending s).trans (.modTr _ _)).answers _, ?_, ?_⟩
  · exact congrArg Transport.caps (State.modTr_self ..)
  · exact (congrArg Transport.algs (State.modTr_self ..)).trans (s.algs_dropPending tr)

theorem negotiate_spec_of_offered {o : AlgOffer} (h : Heard s tr (.negotiateAlgorithms tr o)) (hcaps : s.hwd.transports[tr].caps = true)
    (hoffer : (o.asym && o.hash && o.measSpec && o.dhe && o.aead && o.keySchedule) = true) : RunsTo (.negotiateAlgorithms tr o) s fun s' =>
      Answers tr (.algorithms spdmAlgs) s s' ∧ s'.hwd.transports[tr].algs = true := by
  refine runsTo_of_heard rfl h ?_
  unfold State.doNegotiate
  rw [if_pos hcaps, hoffer]
  exact ⟨((Prepares.dropPending s).trans (.modTr _ _)).answers _, congrArg Transport.algs (State.modTr_self ..)⟩

theorem negotiate_spec_of_missing {o : AlgOffer} (h : Heard s tr (.negotiateAlgorithms tr o)) (hcaps : s.hwd.transports[tr].caps = true)
    (hoffer : (o.asym && o.hash && o.measSpec && o.dhe && o.aead && o.keySchedule) = false) : RunsTo (.negotiateAlgorithms tr o) s fun s' =>
      Answers tr (.error errUnsupported 0) s s' ∧ s'.hwd.transports[tr].algs = s.hwd.transports[tr].algs := by
  refine runsTo_of_heard rfl h ?_
  unfold State.doNegotiate
  rw [if_pos hcaps, hoffer]
  exact ⟨(Prepares.dropPending s).answers _, s.algs_dropPending tr⟩

theorem getCertificate_spec {off len : Nat} (h : Heard s tr (.getCertificate tr 0 off len)) (halgs : s.hwd.transports[tr].algs = true)
    (hoff : off < Config.certChain.length) : RunsTo (.getCertificate tr 0 off len) s fun s' =>
      Answers tr (.certificate ((Config.certChain.drop off).take len) (Config.certChain.length - off - min len (Config.certChain.length - off))) s s' := by
  refine runsTo_of_negotiated rfl h halgs ?_
  have hin : ¬ ((0 : BitVec 4) ≠ 0 ∨ Config.certChain.length ≤ off) := by
    rintro (h | h)
    · exact h rfl
    · omega
  have hlen : ((Config.certChain.drop off).take len).length = min len (Config.certChain.length - off) := by rw [List.length_take, List.length_drop]
  unfold State.doGetCertificate
  rw [if_neg hin]
  dsimp only
  rw [hlen]
  exact (Prepares.dropPending s).answers _

theorem getCertificate_spec_of_slot {slot : BitVec 4} {off len : Nat} (h : Heard s tr (.getCertificate tr slot off len)) (halgs : s.hwd.transports[tr].algs = true)
    (hslot : slot ≠ 0) : RunsTo (.getCertificate tr slot off len) s fun s' => Answers tr (.error errInvalid 0) s s' := by
  refine runsTo_of_negotiated rfl h halgs ?_
  unfold State.doGetCertificate
  rw [if_pos (.inl hslot)]
  exact (Prepares.dropPending s).answers _

theorem challenge_spec_of_slot {slot : BitVec 4} {nonce : BitVec 256} (h : Heard s tr (.challenge tr slot nonce)) (halgs : s.hwd.transports[tr].algs = true)
    (hslot : slot ≠ 0) : RunsTo (.challenge tr slot nonce) s fun s' => Answers tr (.error errInvalid 0) s s' := by
  refine runsTo_of_negotiated rfl h halgs ?_
  unfold State.doChallenge
  rw [if_pos hslot]
  exact (Prepares.dropPending s).answers _

/-- The challenge of slot 0 is answered with a signature, over a nonce that is drawn. -/
theorem runsTo_challenge {nonce : BitVec 256} (h : Heard s tr (.challenge tr 0 nonce)) (halgs : s.hwd.transports[tr].algs = true) {Q : State → Prop}
    (hQ : ∀ t n, t.hwd = (s.dropPending tr).hwd → t.sys = s.sys → Prepares tr s t → Q (t.signedAnswer tr (.challengeAuth chainDigest n []))) :
    RunsTo (.challenge tr 0 nonce) s Q := by
  refine runsTo_of_negotiated rfl h halgs ?_
  unfold State.doChallenge
  rw [if_neg (fun h => h rfl)]
  dsimp only
  have hdraws := (Prepares.dropPending s).trans (Prepares.draws (tr := tr) 4 (s.dropPending tr))
  have hdraw := draws_eq 4 (s.dropPending tr)
  generalize (draws 4 (s.dropPending tr)).1 = n
  generalize (draws 4 (s.dropPending tr)).2 = t at hdraws hdraw
  subst hdraw
  exact hQ _ n rfl rfl hdraws

theorem challenge_spec_of_free {nonce : BitVec 256} (h : Heard s tr (.challenge tr 0 nonce)) (halgs : s.hwd.transports[tr].algs = true)
    (hengine : s.hwd.engine = none) (hpwr : s.sys.pwrFail = false) : RunsTo (.challenge tr 0 nonce) s fun s' =>
      s'.hwd.engine = some (.spdm tr) ∧ s'.outbox = s.outbox ∧ (∃ n, s'.hwd.transports[tr].pending = some (.challengeAuth chainDigest n [])) ∧
        s'.hwd.transports[tr].direct = true ∧ { s' with hwd := s.hwd, fresh := s.fresh } = s := by
  refine runsTo_challenge h halgs fun t n hhwd hsys hprep => ?_
  rw [State.signedAnswer_of_free (by rw [hhwd]; exact hengine) (by rw [hsys]; exact hpwr)]
  have hself : (vmod t.hwd.transports tr fun x => x.awaits (.challengeAuth chainDigest n []) true)[tr] = _ := vmod_get_self ..
  dsimp only
  rw [hself]
  exact ⟨rfl, hprep.outbox, ⟨n, rfl⟩, rfl, hprep.frame⟩

theorem challenge_spec_of_busy {nonce : BitVec 256} {r : SigReq} (h : Heard s tr (.challenge tr 0 nonce)) (halgs : s.hwd.transports[tr].algs = true)
    (hengine : s.hwd.engine = some r) (hpwr : s.sys.pwrFail = false) : RunsTo (.challenge tr 0 nonce) s fun s' =>
      Answers tr (.notReady 13 8) s s' ∧ s'.hwd.engine = some r ∧ SigReq.spdm tr ∈ s'.hwd.sigQueue ∧ s'.hwd.transports[tr].pending.isSome = true := by
  refine runsTo_challenge h halgs fun t n hhwd hsys hprep => ?_
  have hengine' : t.hwd.engine = some r := by
    rw [hhwd]
    exact hengine
  rw [State.signedAnswer_of_busy hengine' (by rw [hsys]; exact hpwr)]
  refine ⟨((hprep.trans (.modTr t _)).trans (.modHwd _ rfl rfl)).answers _, hengine', List.mem_append_right _ (List.mem_singleton_self _), ?_⟩
  exact congrArg (fun x : Transport => x.pending.isSome) (vmod_get_self t.hwd.transports tr _)

theorem getMeasurements_spec_of_outside {index : BitVec 8} {nonce : BitVec 256} (h : Heard s tr (.getMeasurements tr 0 index false nonce))
    (halgs : s.hwd.transports[tr].algs = true) (hout : index.toNat = 0 ∨ (4 < index.toNat ∧ index ≠ 0xff)) :
    RunsTo (.getMeasurements tr 0 index false nonce) s fun s' => Answers tr (.error errInvalid 0) s s' := by
  refine runsTo_of_negotiated rfl h halgs ?_
  unfold State.doMeasure
  rw [State.blocks_of_outside _ hout]
  exact (Prepares.dropPending s).answers _

theorem getMeasurements_spec_of_all {nonce : BitVec 256} (h : Heard s tr (.getMeasurements tr 0 0xff false nonce)) (halgs : s.hwd.transports[tr].algs = true) :
    RunsTo (.getMeasurements tr 0 0xff false nonce) s fun s' =>
      ∃ n, Answers tr (.measurements [(1, s.measurement 1), (2, s.measurement 2), (3, s.measurement 3), (4, s.measurement 4)] n []) s s' := by
  refine runsTo_of_negotiated rfl h halgs ?_
  have hall : (s.dropPending tr).blocks (0xff : BitVec 8).toNat = _ := State.blocks_all _
  unfold State.doMeasure
  rw [hall]
  dsimp only
  rw [if_neg (fun h => h rfl), if_neg Bool.false_ne_true]
  simp only [State.measurement_dropPending]
  exact ⟨_, ((Prepares.dropPending s).trans (.draws 4 _)).answers _⟩

theorem respondIfReady_spec {r : SpdmResp} (h : Heard s tr (.respondIfReady tr)) (hpending : s.hwd.transports[tr].pending = some r)
    (hready : s.hwd.transports[tr].ready = true) : RunsTo (.respondIfReady tr) s fun s' => Answers tr r s s' ∧ s'.hwd.transports[tr].pending = none := by
  refine runsTo_of_heard rfl h ?_
  unfold State.doRespond
  dsimp only
  rw [hpending]
  dsimp only
  rw [if_pos hready]
  exact ⟨(Prepares.modTr s _).answers _, congrArg Transport.pending (s.modTr_self ..)⟩

theorem keyExchange_spec_of_full {hb : Nat} (h : Heard s tr (.keyExchange tr 0 hb)) (halgs : s.hwd.transports[tr].algs = true)
    (hfull : 8 ≤ s.hwd.sessions.length) : RunsTo (.keyExchange tr 0 hb) s fun s' => Answers tr (.error errLimit 0) s s' ∧ s'.hwd.sessions = s.hwd.sessions := by
  refine runsTo_of_negotiated rfl h halgs ?_
  have hfull' : 8 ≤ (s.dropPending tr).hwd.sessions.length := hfull
  unfold State.doKeyExchange
  rw [if_neg (fun h => h rfl), if_pos hfull']
  exact ⟨(Prepares.dropPending s).answers _, rfl⟩

theorem keyExchange_spec_of_room {hb : Nat} (h : Heard s tr (.keyExchange tr 0 hb)) (halgs : s.hwd.transports[tr].algs = true)
    (hroom : s.hwd.sessions.length < 8) (hengine : s.hwd.engine = none) (hpwr : s.sys.pwrFail = false) : RunsTo (.keyExchange tr 0 hb) s fun s' =>
      (∃ x, s'.hwd.sessions = s.hwd.sessions ++ [x] ∧ x.tr = tr ∧ x.heartbeat = hb ∧ x.established = false) ∧ s'.hwd.engine = some (.spdm tr) ∧
        s'.outbox = s.outbox ∧ { s' with hwd := s.hwd, fresh := s.fresh } = s := by
  refine runsTo_of_negotiated rfl h halgs ?_
  have hroom' : ¬ 8 ≤ (s.dropPending tr).hwd.sessions.length := Nat.not_le_of_lt hroom
  unfold State.doKeyExchange
  rw [if_neg (fun h => h rfl), if_neg hroom']
  dsimp only
  rw [State.dropPending_eq, State.signedAnswer_of_free]
  · exact ⟨⟨_, rfl, rfl, rfl, rfl⟩, rfl, rfl, rfl⟩
  · exact hengine
  · exact hpwr

/-- A message of a session that is open runs once the pending answer is dropped. -/
theorem runsTo_of_opened {i : Instr} {sid : Nat} {e : Bool} {f : State → State} (hexec : exec i s = .next (s.spdm tr i fun s => s.inSession tr sid e f))
    (h : Heard s tr i) (hopen : s.opened tr sid e) {Q : State → Prop} (hQ : Q (f (s.dropPending tr))) : RunsTo i s Q :=
  runsTo_of_heard hexec h (by rw [State.inSession_of_opened hopen]; exact hQ)

theorem finish_spec {sid : Nat} (h : Heard s tr (.finish tr sid)) (hopen : s.opened tr sid false) : RunsTo (.finish tr sid) s fun s' =>
    Answers tr .finishRsp s s' ∧ s'.hwd.sessions = s.hwd.sessions.map fun x => if x.sid = sid then { x with established := true } else x :=
  runsTo_of_opened rfl h hopen ⟨((Prepares.dropPending s).trans (.modHwd _ rfl rfl)).answers _, rfl⟩

theorem heartbeat_spec {sid : Nat} (h : Heard s tr (.heartbeat tr sid)) (hopen : s.opened tr sid true) : RunsTo (.heartbeat tr sid) s fun s' =>
    Answers tr .heartbeatAck s s' ∧ s'.hwd.sessions = s.hwd.sessions :=
  runsTo_of_opened rfl h hopen ⟨(Prepares.dropPending s).answers _, rfl⟩

theorem keyUpdate_spec {sid : Nat} (h : Heard s tr (.keyUpdate tr sid)) (hopen : s.opened tr sid true) : RunsTo (.keyUpdate tr sid) s fun s' =>
    Answers tr .keyUpdateAck s s' ∧ s'.hwd.sessions = s.hwd.sessions.map fun x => if x.sid = sid then { x with keyGen := x.keyGen + 1 } else x :=
  runsTo_of_opened rfl h hopen ⟨((Prepares.dropPending s).trans (.modHwd _ rfl rfl)).answers _, rfl⟩

theorem endSession_spec {sid : Nat} (h : Heard s tr (.endSession tr sid)) (hopen : s.opened tr sid true) : RunsTo (.endSession tr sid) s fun s' =>
    Answers tr .endSessionAck s s' ∧ s'.hwd.sessions = s.hwd.sessions.filter fun x => x.sid ≠ sid :=
  runsTo_of_opened rfl h hopen ⟨((Prepares.dropPending s).trans (.modHwd _ rfl rfl)).answers _, rfl⟩

theorem heartbeat_spec_of_not_opened {sid : Nat} (h : Heard s tr (.heartbeat tr sid)) (hopen : ¬ s.opened tr sid true) : RunsTo (.heartbeat tr sid) s fun s' =>
    Answers tr (.error errSession 0) s s' ∧ s'.hwd.sessions = s.hwd.sessions := by
  refine runsTo_of_heard rfl h ?_
  rw [State.inSession_of_not_opened hopen]
  exact ⟨(Prepares.refl s).answers _, rfl⟩

/-- What a key-management message that is accepted changes: the stream of its port alone. -/
structure Keyed (tr : Fin 9) (n : PortId) (s t : State) : Prop where
  outbox : t.outbox = s.outbox ++ [.spdm tr (.keyMgmt 0)]
  others : ∀ m, m ≠ n → t.hwd.ide[m] = s.hwd.ide[m]
  sessions : t.hwd.sessions = s.hwd.sessions
  frame : { t with hwd := s.hwd, outbox := s.outbox } = s

/-- A key-management message of the port's own session changes its stream. -/
theorem runsTo_of_keyed {i : Instr} {sid : Nat} {n : PortId} {f : Ide → Ide} (hexec : exec i s = .next (s.spdm tr i fun s => s.ideMsg tr sid n f))
    (h : Heard s tr i) (hin : tr.val = n.val ∧ s.opened tr sid true) {Q : State → Prop}
    (hQ : ∀ t, Keyed tr n s t → t.hwd.ide[n] = (f s.hwd.ide[n]).refresh → Q t) : RunsTo i s Q := by
  have hide : (s.dropPending tr).ideSession tr sid n = true := ((s.dropPending tr).ideSession_iff tr sid n).mpr hin
  refine runsTo_of_heard hexec h ?_
  unfold State.ideMsg
  dsimp only
  rw [if_pos hide, State.dropPending_eq]
  exact hQ _ ⟨rfl, fun m hm => vmod_get_ne s.hwd.ide _ hm, rfl, rfl⟩ (vmod_get_self ..)

theorem keyProg_spec_of_refused {sid : Nat} {n : PortId} {k : Fin 2} {j : Fin 3} {key : BitVec 256} (h : Heard s tr (.keyProg tr sid n k j key))
    (hout : ¬ (tr.val = n.val ∧ s.opened tr sid true)) : RunsTo (.keyProg tr sid n k j key) s fun s' => Answers tr (.keyMgmt 1) s s' := by
  have hide : (s.dropPending tr).ideSession tr sid n ≠ true := fun hin => hout (((s.dropPending tr).ideSession_iff tr sid n).mp hin)
  refine runsTo_of_heard rfl h ?_
  unfold State.ideMsg
  dsimp only
  rw [if_neg hide]
  exact (Prepares.dropPending s).answers _

theorem sessionHeartbeatTimeout_spec {sid : Nat} {x : Session} (hx : x ∈ s.hwd.sessions) (hsid : x.sid = sid) (hhb : x.heartbeat ≠ 0) :
    RunsTo (.sessionHeartbeatTimeout sid) s fun s' =>
      s'.hwd = { s.hwd with sessions := s.hwd.sessions.filter fun x => x.sid ≠ sid } ∧ { s' with hwd := s.hwd } = s := by
  have hany : (s.hwd.sessions.any fun x => x.sid = sid && x.heartbeat != 0) = true :=
    List.any_eq_true.mpr ⟨x, hx, by rw [decide_eq_true hsid, Bool.true_and]; exact bne_iff_ne.mpr hhb⟩
  exact ⟨_, congrArg Host.Outcome.next (if_pos hany), rfl, rfl⟩

end Clauses

/-- Ide x with key key programmed for sub-stream j of key set k. -/
def Ide.programmed (x : Ide) (k : Fin 2) (j : Fin 3) (key : BitVec 256) : Ide :=
  { x with keys := (k, j, key) :: x.keys.filter fun y => !(y.1 == k && y.2.1 == j) }

theorem Ide.mem_keys_programmed {x : Ide} {k : Fin 2} {j : Fin 3} {key : BitVec 256} {y : Fin 2 × Fin 3 × BitVec 256} (hy : y ∈ (x.programmed k j key).keys) :
    y = (k, j, key) ∨ (y ∈ x.keys ∧ ¬ (y.1 = k ∧ y.2.1 = j)) := by
  rcases List.mem_cons.mp hy with rfl | hy
  · exact .inl rfl
  · obtain ⟨hmem, hother⟩ := List.mem_filter.mp hy
    refine .inr ⟨hmem, ?_⟩
    rintro ⟨rfl, rfl⟩
    simp at hother

/-- Ide x when key set k has been told to go for sub-stream j. -/
def Ide.started (x : Ide) (k : Fin 2) (j : Fin 3) : Ide :=
  if x.keys.any (fun y => y.1 == k && y.2.1 == j) && !x.going.contains (k, j) then { x with going := (k, j) :: x.going } else x

theorem Ide.started_of_programmed {x : Ide} {k : Fin 2} {j : Fin 3} (h : ∃ key, (k, j, key) ∈ x.keys) :
    (k, j) ∈ (x.started k j).going ∧ (x.started k j).keys = x.keys := by
  obtain ⟨key, hkey⟩ := h
  have hany : x.keys.any (fun y => y.1 == k && y.2.1 == j) = true := List.any_eq_true.mpr ⟨_, hkey, by simp⟩
  unfold Ide.started
  rw [hany, Bool.true_and]
  cases hgoing : x.going.contains (k, j) with
  | true => exact ⟨List.contains_iff_mem.mp hgoing, rfl⟩
  | false => exact ⟨List.mem_cons_self, rfl⟩

end Sys2Proof.Machine
open Sys2Proof Sys2Proof.Machine Sys2Proof.Safety

/-- Settles O42: a request that is heard drops the pending answer, does its part, and answers or waits for the engine. -/
theorem spdmAndSessions : Obligations.SpdmAndSessions := by
  unfold Obligations.SpdmAndSessions
  refine ⟨fun s tr => ⟨getVersion_spec, ?caps, ?algs, ?unsupported, ?negotiated, ?respond, State.measurement_three_of_none⟩,
    fun s tr => ⟨?full, ?room, ?finish, ?session, ?closed, ?timeout, ?ide⟩⟩
  case caps => exact fun hversion h => getCapabilities_spec h hversion
  case algs =>
    refine fun o hcaps => ⟨fun hoffer h => negotiate_spec_of_offered h hcaps (by simp [hoffer]), fun hoffer h => negotiate_spec_of_missing h hcaps ?_⟩
    rcases hoffer with hoffer | hoffer | hoffer | hoffer | hoffer | hoffer <;> simp [hoffer]
  case unsupported => exact fun code h => runsTo_of_heard rfl h ⟨(Prepares.dropPending s).answers _, rfl⟩
  case negotiated =>
    intro halgs
    exact ⟨fun h => runsTo_of_negotiated rfl h halgs ((Prepares.dropPending s).answers _), fun off len hoff h => getCertificate_spec h halgs hoff,
      fun slot off len hslot h => getCertificate_spec_of_slot h halgs hslot, fun slot nonce hslot h => challenge_spec_of_slot h halgs hslot,
      fun nonce hengine hpwr h => challenge_spec_of_free h halgs hengine hpwr, fun nonce r hengine _ hpwr h => challenge_spec_of_busy h halgs hengine hpwr,
      fun nonce index hout h => getMeasurements_spec_of_outside h halgs hout, fun nonce h => getMeasurements_spec_of_all h halgs⟩
  case respond => exact fun r hpending hready h => respondIfReady_spec h hpending hready
  case full => exact fun hb halgs hfull h => keyExchange_spec_of_full h halgs hfull
  case room => exact fun hb halgs hroom hengine hpwr h => keyExchange_spec_of_room h halgs hroom hengine hpwr
  case finish => exact fun sid hopen h => finish_spec h hopen
  case session => exact fun sid hopen => ⟨fun h => heartbeat_spec h hopen, fun h => keyUpdate_spec h hopen, fun h => endSession_spec h hopen⟩
  case closed => exact fun sid hopen h => heartbeat_spec_of_not_opened h hopen
  case timeout => exact fun sid x hx hsid hhb => sessionHeartbeatTimeout_spec hx hsid hhb
  case ide =>
    refine fun sid n k j key => ⟨fun hin => ⟨fun h => ?prog, fun hkey h => ?go, fun h => ?stop, fun h => ?query⟩, fun hout h => keyProg_spec_of_refused h hout⟩
    case prog =>
      refine runsTo_of_keyed (f := fun x => x.programmed k j key) rfl h hin fun t ⟨hout, hothers, hsessions, hframe⟩ hself => ?_
      rw [hself]
      exact ⟨⟨hout, hothers, hsessions, hframe⟩, List.mem_cons_self, fun y hy => Ide.mem_keys_programmed hy, rfl⟩
    case go =>
      refine runsTo_of_keyed (f := fun x => x.started k j) rfl h hin fun t ⟨hout, hothers, hsessions, hframe⟩ hself => ?_
      rw [hself]
      exact ⟨⟨hout, hothers, hsessions, hframe⟩, Ide.started_of_programmed hkey⟩
    case stop =>
      refine runsTo_of_keyed rfl h hin fun t ⟨hout, hothers, hsessions, hframe⟩ hself => ?_
      rw [hself]
      exact ⟨⟨hout, hothers, hsessions, hframe⟩, fun hmem => by simpa using (List.mem_filter.mp hmem).2, rfl⟩
    case query =>
      refine runsTo_of_keyed rfl h hin fun t ⟨hout, hothers, hsessions, hframe⟩ hself => ?_
      rw [hself]
      exact ⟨⟨hout, hothers, hsessions, hframe⟩, rfl, rfl⟩
end

section
/-! SUPPORT. What a register write covers, and what it changes; and the settling of O31. -/
namespace Sys2Proof.Machine
open Sys2Proof.Safety

/-! ### The bits of a word (R10, R546) -/

theorem ofNat_fieldAt (w : Word) (lo n : Nat) : BitVec.ofNat n (fieldAt w lo n) = w.extractLsb' lo n := by
  apply BitVec.eq_of_toNat_eq
  rw [BitVec.toNat_ofNat, BitVec.extractLsb'_toNat, Nat.shiftRight_eq_div_pow, fieldAt, Nat.mod_mod]

theorem blend_all (w v : Word) : blend w v (BitVec.allOnes 64) = v := by
  rw [blend, BitVec.not_allOnes, BitVec.and_zero, BitVec.zero_or, BitVec.and_allOnes]

theorem getLsbD_maskAt_high (i : Nat) (hi : i < 64) : (maskAt 32 32).getLsbD i = decide (32 ≤ i) := by
  have hmask : ∀ j : Fin 64, (maskAt 32 32).getLsbD j.val = decide (32 ≤ j.val) := by decide
  exact hmask ⟨i, hi⟩

theorem getLsbD_blend (w v mask : Word) (i : Nat) (hi : i < 64) :
    (blend w v mask).getLsbD i = if mask.getLsbD i = true then v.getLsbD i else w.getLsbD i := by
  unfold blend
  rw [BitVec.getLsbD_or, BitVec.getLsbD_and, BitVec.getLsbD_and, BitVec.getLsbD_not, decide_eq_true hi, Bool.true_and]
  cases mask.getLsbD i <;> simp

/-- The second field of a word of two. -/
theorem getLsbD_packWord_second {m n : Nat} (a : Nat) (b : BitVec n) {i : Nat} (hfit : m + i < 64) :
    (packWord [(0, m, a), (m, n, b.toNat)]).getLsbD (m + i) = b.getLsbD i := by
  have hword : packWord [(0, m, a), (m, n, b.toNat)] = BitVec.ofNat 64 (2 ^ m * b.toNat + a % 2 ^ m) := by
    have hb := b.isLt
    unfold packWord
    simp only [List.map_cons, List.map_nil, List.sum_cons, List.sum_nil, Nat.mod_eq_of_lt hb]
    congr 1
    ring
  rw [hword, BitVec.getLsbD_ofNat, decide_eq_true hfit, Bool.true_and, Nat.testBit_two_pow_mul_add b.toNat (Nat.mod_lt _ (by positivity)),
    if_neg (by omega), Nat.add_sub_cancel_left]
  rfl

/-- A 4-byte write of the high half of PWR's meter word reaches the high bits of its peak alone. -/
theorem peak_blend (last peak : BitVec 20) (v : Word) :
    (blend (packWord [(0, 20, last.toNat), (20, 20, peak.toNat)]) (v <<< 32) (maskAt 32 32)).extractLsb' 20 20 = v.setWidth 8 ++ peak.setWidth 12 := by
  apply BitVec.eq_of_getLsbD_eq
  intro i hi
  rw [BitVec.getLsbD_extractLsb', decide_eq_true hi, Bool.true_and, getLsbD_blend _ _ _ _ (by omega), getLsbD_maskAt_high _ (by omega),
    getLsbD_packWord_second last.toNat peak (by omega), BitVec.getLsbD_append, BitVec.getLsbD_setWidth, BitVec.getLsbD_setWidth, BitVec.getLsbD_shiftLeft]
  by_cases hlow : i < 12
  · simp [hlow, show ¬ 32 ≤ 20 + i by omega]
  · simp [hlow, show 32 ≤ 20 + i by omega, show 20 + i < 64 by omega, show ¬ 20 + i < 32 by omega, show 20 + i - 32 = i - 12 by omega, show i - 12 < 8 by omega]

/-! ### Where an access reaches (R546, R547) -/

theorem regAccess_wide {o : Nat} (h : o % 8 = 0) (v : Word) : regAccess o 8 v = some (v, BitVec.allOnes 64) := if_pos ⟨rfl, h⟩

/-- An access whose offset is not a multiple of its size reaches nothing. -/
theorem regAccess_of_misaligned {off : Nat} {wide : Bool} (h : off % (if wide = true then 8 else 4) ≠ 0) (v : Word) :
    regAccess off (if wide then 8 else 4) v = none := by
  cases wide with
  | true =>
    have h : off % 8 ≠ 0 := h
    simp [regAccess, h]
  | false =>
    have h : off % 4 ≠ 0 := h
    simp [regAccess, show off % 8 ≠ 0 by omega, show off % 8 ≠ 4 by omega]

/-- The write of a global register. -/
def RegWr.glob (s : State) (o : Nat) (crown : Bool) (a : Word × Word) : RegWr := { v := a.1, mask := a.2, new := blend (s.readGlobal o) a.1 a.2, crown := crown }

theorem State.writeReg_of_glob {s : State} {crown : Bool} {off len o : Nat} {v : Word} {a : Word × Word} (hreg : s.regOf (off / 8 * 8) = some (.glob o))
    (haccess : regAccess off len v = some a) : s.writeReg crown off len v = some (s.writeGlobal o (.glob s o crown a)) := by
  unfold State.writeReg
  rw [hreg, haccess]
  rfl

theorem State.writeReg_of_misaligned (s : State) (crown : Bool) {off len : Nat} {v : Word} (h : regAccess off len v = none) : s.writeReg crown off len v = none := by
  unfold State.writeReg
  rw [h]
  split
  · rename_i hnone
    exact absurd hnone (by simp)
  · rfl

theorem exec_crownWrite {s : State} (h : s.awake = true) (k : CoreId) (off : Nat) (wide : Bool) (v : Word) :
    exec (.registerWrite (.crown k) off wide v) s = .next ((s.writeReg true off (if wide then 8 else 4) v).getD s) :=
  (if_pos h : execRegisterWrite (.crown k) off wide v s = _)

/-- A crown core writes a global register. -/
theorem exec_crownWrite_of_glob {s : State} (h : s.awake = true) (k : CoreId) {off o : Nat} {wide : Bool} {v : Word} {a : Word × Word}
    (hreg : s.regOf (off / 8 * 8) = some (.glob o)) (haccess : regAccess off (if wide then 8 else 4) v = some a) :
    exec (.registerWrite (.crown k) off wide v) s = .next (s.writeGlobal o (.glob s o true a)) := by
  rw [exec_crownWrite h, State.writeReg_of_glob hreg haccess]
  rfl

theorem State.hostRegWrite_of_reg {s : State} {n : PortId} {fn : HostFn} {o len : Nat} {v : Word} {r : BarReg} {a : Word × Word}
    (hbar : s.barReg fn (o / 8 * 8) = some r) (haccess : regAccess o len v = some a) :
    s.hostRegWrite n fn o len v = (s.meterHost fn len).writeBar r a.1 a.2 := by
  unfold State.hostRegWrite
  rw [hbar, haccess]

theorem State.hostRegWrite_of_misaligned (s : State) (n : PortId) (fn : HostFn) {o len : Nat} {v : Word} (h : regAccess o len v = none) :
    s.hostRegWrite n fn o len v = s.aer n := by
  unfold State.hostRegWrite
  rw [h]
  split
  · rename_i hnone
    exact absurd hnone (by simp)
  · rfl

theorem exec_pfWrite_of_free {s : State} {n : PortId} {off : Nat} {wide : Bool} {v : Word} (htakes : s.takesTlp (.pf n) = true)
    (hfree : s.tlpWaits (.pf n) (.registerWrite (.pf n) off wide v) = false) : exec (.registerWrite (.pf n) off wide v) s =
      .next ((s.rxBytes n (if wide then 8 else 4)).hostRegWrite n (.pf n) off (if wide then 8 else 4) v) := by
  refine (if_pos htakes : execRegisterWrite (.pf n) off wide v s = _).trans (congrArg Host.Outcome.next ?_)
  exact if_neg (by rw [hfree]; exact Bool.false_ne_true)

theorem exec_vfWrite_of_free {s : State} {x : VfId} {off : Nat} {wide : Bool} {v : Word} (htakes : s.takesTlp (.vf x) = true)
    (hfree : s.tlpWaits (.vf x) (.registerWrite (.vf x) off wide v) = false) : exec (.registerWrite (.vf x) off wide v) s =
      .next ((s.rxBytes (fnPort s (.vf x)) (if wide then 8 else 4)).hostRegWrite (fnPort s (.vf x)) (.vf x) off (if wide then 8 else 4) v) := by
  refine (if_pos htakes : execRegisterWrite (.vf x) off wide v s = _).trans (congrArg Host.Outcome.next ?_)
  exact if_neg (by rw [hfree]; exact Bool.false_ne_true)

theorem exec_pfWrite_of_waits {s : State} {n : PortId} {off : Nat} {wide : Bool} {v : Word} (htakes : s.takesTlp (.pf n) = true)
    (hwaits : s.tlpWaits (.pf n) (.registerWrite (.pf n) off wide v) = true) : exec (.registerWrite (.pf n) off wide v) s =
      .next (s.holdTlp n (.registerWrite (.pf n) off wide v) s.nextId) := by
  refine (if_pos htakes : execRegisterWrite (.pf n) off wide v s = _).trans (congrArg Host.Outcome.next ?_)
  exact if_pos hwaits

/-- A physical function's write of a global register. -/
theorem exec_pfWrite_of_glob {s : State} {n : PortId} {off o : Nat} {v : Word} (htakes : s.takesTlp (.pf n) = true)
    (hfree : s.tlpWaits (.pf n) (.registerWrite (.pf n) off true v) = false) (hlow : off < 0x2000000) (halign : off % 8 = 0)
    (hreg : (s.rxBytes n 8).regOf off = some (.glob o)) :
    exec (.registerWrite (.pf n) off true v) s = .next ((s.rxBytes n 8).writeGlobal o (.glob (s.rxBytes n 8) o false (v, BitVec.allOnes 64))) := by
  have hword : off / 8 * 8 = off := by omega
  have hbar : (s.rxBytes n 8).barReg (.pf n) (off / 8 * 8) = some (.reg (.glob o)) := by
    rw [hword]
    unfold State.barReg
    dsimp only
    rw [if_neg (Nat.not_le_of_lt hlow), hreg]
  refine (exec_pfWrite_of_free htakes hfree).trans (congrArg Host.Outcome.next ?_)
  exact State.hostRegWrite_of_reg hbar (regAccess_wide halign v)

/-- A virtual function's write in its plot's window, but of its events and its bough resets, is metered alone (R386). -/
theorem State.hostRegWrite_of_window (s : State) (n : PortId) (x : VfId) {off : Nat} (wide : Bool) (v : Word) (hlow : off < 0x140) (halign : off % 8 = 0)
    (hevent : off ≠ 0x18) (hreset : off ≠ 0xc0) :
    ∃ p len, s.hostRegWrite n (.vf x) off (if wide then 8 else 4) v = s.meter p fun c => { c with host := c.host + len } := by
  have hword : off / 8 * 8 = off := by omega
  have hbar : s.barReg (.vf x) (off / 8 * 8) = some (.plotWin ((s.vfPlot x.val).map fun m => plotId m.plot) off) := by
    rw [hword]
    exact if_pos hlow
  obtain ⟨a, haccess⟩ : ∃ a, regAccess off (if wide then 8 else 4) v = some a := by
    cases wide with
    | true => exact ⟨_, if_pos ⟨rfl, halign⟩⟩
    | false => exact ⟨_, (if_neg (by rintro ⟨h, -⟩; exact absurd h (by decide))).trans (if_pos ⟨rfl, halign⟩)⟩
  refine ⟨(s.vfPlot x.val).map (·.plot), if wide then 8 else 4, ?_⟩
  rw [State.hostRegWrite_of_reg hbar haccess]
  generalize (s.vfPlot x.val).map (fun m => plotId m.plot) = w
  cases w with
  | none => rfl
  | some p => exact if_neg (by rintro (h | h) <;> contradiction)

theorem State.meter_plots (s : State) (p : Option Nat) (f : Counters → Counters) (k : PlotId) :
    { (s.meter p f).plots[k] with cnt := s.plots[k].cnt } = s.plots[k] := by
  cases p with
  | none => rfl
  | some p =>
    show { (vmod s.plots (plotId p) fun x => { x with cnt := f x.cnt })[k] with cnt := s.plots[k].cnt } = s.plots[k]
    rw [vmod_get]
    split_ifs with hk
    · rw [← hk]
    · rfl

/-- An error of size or place is logged, and nothing else (R547). -/
theorem State.aer_spec (s : State) (n : PortId) :
    (s.aer n).outbox = s.outbox ++ [.aer n true] ∧ (s.aer n).ports[n].event.getLsbD 2 = true ∧ (∃ f, (s.aer n).ports = vmod s.ports n f) ∧
      { s.aer n with ports := s.ports, outbox := s.outbox, crownEvts := s.crownEvts } = s := by
  obtain ⟨evts, hevent⟩ := (s.emit (.aer n true)).hostEvent_eq n 2
  unfold State.aer
  rw [hevent]
  refine ⟨rfl, ?_, ⟨fun p => { p with event := p.event ||| BitVec.ofNat 5 (2 ^ 2) }, rfl⟩, rfl⟩
  show ((vmod s.ports n fun p => { p with event := p.event ||| BitVec.ofNat 5 (2 ^ 2) })[n]).event.getLsbD 2 = true
  rw [vmod_get_self]
  exact getLsbD_withBit_self s.ports[n].event (by decide)

/-! ### The registers of O31 (R441, R457, R514) -/

theorem State.writeGlobal_limits (s : State) (w : RegWr) :
    s.writeGlobal 0x418 w = s.modPwr fun p => { p with hotC := BitVec.ofNat 8 (w.rw 0 8), powerW := BitVec.ofNat 10 (w.rw 8 10) } := rfl

theorem State.writeGlobal_event (s : State) (w : RegWr) : s.writeGlobal 0x410 w = s.modPwr fun p => { p with event := w.w1cBits 0 p.event } := rfl

theorem State.writeGlobal_peak (s : State) (w : RegWr) : s.writeGlobal 0x428 w = s.modPwr fun p => { p with peakMw := BitVec.ofNat 20 (w.rw 20 20) } := rfl

theorem State.writeGlobal_alarm {s : State} {w : RegWr} (hcrown : w.crown = true) (h : (w.covers 0 && w.covers 32) = true) :
    s.writeGlobal 0x438 w = s.setAlarm w.v := by
  have hall : (w.crown && w.covers 0 && w.covers 32) = true := by rw [hcrown, Bool.true_and, h]
  exact if_pos hall

theorem State.writeGlobal_alarm_of_not {s : State} {w : RegWr} (h : ¬ (w.crown && w.covers 0 && w.covers 32) = true) : s.writeGlobal 0x438 w = s := if_neg h

theorem State.writeGlobal_alarm_of_half {s : State} {w : RegWr} (h : (w.covers 0 && w.covers 32) = false) : s.writeGlobal 0x438 w = s :=
  State.writeGlobal_alarm_of_not (by rw [Bool.and_assoc, h, Bool.and_false]; exact Bool.false_ne_true)

theorem State.writeGlobal_calSync_of_half {s : State} {w : RegWr} (h : (w.covers 0 && w.covers 32) = false) : s.writeGlobal 0x1038 w = s := by
  have hnot : ¬ (w.covers 0 && w.covers 32) = true := by
    rw [h]
    exact Bool.false_ne_true
  exact if_neg hnot

theorem maskAt_all : ((BitVec.allOnes 64).getLsbD 0 && (BitVec.allOnes 64).getLsbD 32) = true := by decide

theorem maskAt_low_half : ((maskAt 0 32).getLsbD 0 && (maskAt 0 32).getLsbD 32) = false := by decide

theorem maskAt_high_half : ((maskAt 32 32).getLsbD 0 && (maskAt 32 32).getLsbD 32) = false := by decide

/-- What is the crown's alone takes no write of another. -/
theorem State.writeGlobal_of_crownOnly {s : State} {w : RegWr} {o : Nat} (h : w.crown = false) (ho : o = 0x408 ∨ o = 0x438 ∨ o = 0x440 ∨ o = 0x1428 ∨ o = 0x1430) :
    s.writeGlobal o w = s := by
  have hnot : ¬ w.crown = true := by
    rw [h]
    exact Bool.false_ne_true
  have hreq : ¬ (w.crown && w.covers 0) = true := by
    rw [h, Bool.false_and]
    exact Bool.false_ne_true
  rcases ho with rfl | rfl | rfl | rfl | rfl
  · exact if_neg hreq
  · exact State.writeGlobal_alarm_of_not (by rw [h, Bool.false_and, Bool.false_and]; exact Bool.false_ne_true)
  · exact if_neg hnot
  · exact if_neg hnot
  · exact if_neg hnot

/-! ### The clauses of O31 -/

section Crown

variable {s : State} (k : CoreId) (v : Word)

theorem crownWrite_limits (h : s.awake = true) : RunsTo (.registerWrite (.crown k) 0x418 true v) s fun s' =>
    s'.pwr.hotC = v.setWidth 8 ∧ s'.pwr.powerW = (v >>> 8).setWidth 10 ∧ { s' with pwr := { s'.pwr with hotC := s.pwr.hotC, powerW := s.pwr.powerW } } = s := by
  have hexec := exec_crownWrite_of_glob h k (off := 0x418) (o := 0x418) (wide := true) (if_pos (by decide)) (regAccess_wide rfl v)
  have hhot : BitVec.ofNat 8 (fieldAt v 0 8) = v.setWidth 8 := ofNat_fieldAt v 0 8
  have hpower : BitVec.ofNat 10 (fieldAt v 8 10) = (v >>> 8).setWidth 10 := ofNat_fieldAt v 8 10
  rw [State.writeGlobal_limits, RegWr.rw, RegWr.rw, RegWr.glob, blend_all, hhot, hpower] at hexec
  exact ⟨_, hexec, rfl, rfl, rfl⟩

theorem crownWrite_event (h : s.awake = true) : RunsTo (.registerWrite (.crown k) 0x410 true v) s fun s' =>
    s'.pwr.event = s.pwr.event &&& ~~~ v.setWidth 7 ∧ { s' with pwr := { s'.pwr with event := s.pwr.event } } = s := by
  have hexec := exec_crownWrite_of_glob h k (off := 0x410) (o := 0x410) (wide := true) (if_pos (by decide)) (regAccess_wide rfl v)
  have hones : BitVec.ofNat 7 (fieldAt (v &&& BitVec.allOnes 64) 0 7) = v.setWidth 7 := by
    rw [BitVec.and_allOnes]
    exact ofNat_fieldAt v 0 7
  rw [State.writeGlobal_event] at hexec
  exact ⟨_, hexec, congrArg (fun x => s.pwr.event &&& ~~~x) hones, rfl⟩

theorem crownWrite_peak (h : s.awake = true) : RunsTo (.registerWrite (.crown k) 0x42c false v) s fun s' =>
    s'.pwr.peakMw = v.setWidth 8 ++ s.pwr.peakMw.setWidth 12 ∧ { s' with pwr := { s'.pwr with peakMw := s.pwr.peakMw } } = s := by
  have hexec := exec_crownWrite_of_glob h k (off := 0x42c) (o := 0x428) (wide := false) (v := v) (a := (v <<< 32, maskAt 32 32)) (if_pos (by decide)) rfl
  have hread : s.readGlobal 0x428 = packWord [(0, 20, s.pwr.lastMw.toNat), (20, 20, s.pwr.peakMw.toNat)] := rfl
  rw [State.writeGlobal_peak, RegWr.rw, RegWr.glob, ofNat_fieldAt, hread, peak_blend] at hexec
  exact ⟨_, hexec, rfl, rfl⟩

theorem crownWrite_alarm (h : s.awake = true) : RunsTo (.registerWrite (.crown k) 0x438 true v) s fun s' =>
    s'.pwr.alarm = v ∧ { s' with pwr := { s'.pwr with alarm := s.pwr.alarm, alarmPend := s.pwr.alarmPend } } = s := by
  have hexec := exec_crownWrite_of_glob h k (off := 0x438) (o := 0x438) (wide := true) (if_pos (by decide)) (regAccess_wide rfl v)
  rw [State.writeGlobal_alarm (w := .glob s 0x438 true (v, BitVec.allOnes 64)) rfl maskAt_all] at hexec
  exact ⟨_, hexec, rfl, rfl⟩

/-- A write that leaves the state of its register leaves everything. -/
theorem crownWrite_of_same {o off : Nat} {a : Word × Word} (h : s.awake = true) (hsame : s.writeGlobal o (.glob s o true a) = s)
    (hreg : s.regOf (off / 8 * 8) = some (.glob o)) (haccess : regAccess off 4 v = some a) :
    RunsTo (.registerWrite (.crown k) off false v) s fun s' => s' = s :=
  ⟨_, exec_crownWrite_of_glob h k hreg haccess, hsame⟩

theorem crownWrite_half {off : Nat} (h : s.awake = true) (hoff : off = 0x438 ∨ off = 0x43c ∨ off = 0x1038 ∨ off = 0x103c) :
    RunsTo (.registerWrite (.crown k) off false v) s fun s' => s' = s := by
  rcases hoff with rfl | rfl | rfl | rfl
  · exact crownWrite_of_same k v h (State.writeGlobal_alarm_of_half (w := .glob s 0x438 true (v, maskAt 0 32)) maskAt_low_half) (if_pos (by decide)) rfl
  · exact crownWrite_of_same k v h (State.writeGlobal_alarm_of_half (w := .glob s 0x438 true (v <<< 32, maskAt 32 32)) maskAt_high_half) (if_pos (by decide)) rfl
  · exact crownWrite_of_same k v h (State.writeGlobal_calSync_of_half (w := .glob s 0x1038 true (v, maskAt 0 32)) maskAt_low_half) (if_pos (by decide)) rfl
  · exact crownWrite_of_same k v h (State.writeGlobal_calSync_of_half (w := .glob s 0x1038 true (v <<< 32, maskAt 32 32)) maskAt_high_half) (if_pos (by decide)) rfl

theorem crownWrite_of_misaligned {off : Nat} {wide : Bool} (h : s.awake = true) (hoff : off % (if wide = true then 8 else 4) ≠ 0) :
    RunsTo (.registerWrite (.crown k) off wide v) s fun s' => s' = s := by
  refine ⟨s, (exec_crownWrite h k off wide v).trans ?_, rfl⟩
  rw [s.writeReg_of_misaligned true (regAccess_of_misaligned hoff v)]
  rfl

end Crown

section Host

variable {s : State} {n : PortId} {v : Word}

theorem pfWrite_of_crownOnly {off : Nat} (htakes : s.takesTlp (.pf n) = true) (hfree : s.tlpWaits (.pf n) (.registerWrite (.pf n) off true v) = false)
    (hoff : off = 0x408 ∨ off = 0x438 ∨ off = 0x440 ∨ off = 0x1428 ∨ off = 0x1430) :
    RunsTo (.registerWrite (.pf n) off true v) s fun s' => OnlyPort n s s' ∧ { s' with ports := s.ports } = s := by
  have hlow : off < 0x2000000 ∧ off % 8 = 0 := by omega
  have hreg : (s.rxBytes n 8).regOf off = some (.glob off) := by rcases hoff with rfl | rfl | rfl | rfl | rfl <;> exact if_pos (by decide)
  refine ⟨_, exec_pfWrite_of_glob htakes hfree hlow.1 hlow.2 hreg, ?_⟩
  rw [State.writeGlobal_of_crownOnly rfl hoff]
  exact ⟨s.onlyPort_modPort n _, rfl⟩

theorem pfWrite_of_misaligned {off : Nat} {wide : Bool} (htakes : s.takesTlp (.pf n) = true)
    (hfree : s.tlpWaits (.pf n) (.registerWrite (.pf n) off wide v) = false) (hoff : off % (if wide = true then 8 else 4) ≠ 0) :
    RunsTo (.registerWrite (.pf n) off wide v) s fun s' =>
      s'.outbox = s.outbox ++ [.aer n true] ∧ s'.ports[n].event.getLsbD 2 = true ∧ OnlyPort n s s' ∧
        { s' with ports := s.ports, outbox := s.outbox, crownEvts := s.crownEvts } = s := by
  refine ⟨_, exec_pfWrite_of_free htakes hfree, ?_⟩
  rw [State.hostRegWrite_of_misaligned _ _ _ (regAccess_of_misaligned hoff v)]
  generalize (if wide = true then 8 else 4) = len
  obtain ⟨hout, hevent, ⟨f, hports⟩, hframe⟩ := (s.rxBytes n len).aer_spec n
  exact ⟨hout, hevent, onlyPort_of_ports_eq_vmod _ (hports.trans (vmod_vmod s.ports n _ f)), (congrArg (fun x : State => { x with ports := s.ports }) hframe :)⟩

theorem vfWrite_of_window {x : VfId} {off : Nat} {wide : Bool} (htakes : s.takesTlp (.vf x) = true)
    (hfree : s.tlpWaits (.vf x) (.registerWrite (.vf x) off wide v) = false) (hlow : off < 0x140) (halign : off % 8 = 0) (hevent : off ≠ 0x18) (hreset : off ≠ 0xc0) :
    RunsTo (.registerWrite (.vf x) off wide v) s fun s' =>
      (∀ p : PlotId, { s'.plots[p] with cnt := s.plots[p].cnt } = s.plots[p]) ∧ OnlyPort (fnPort s (.vf x)) s s' ∧
        { s' with ports := s.ports, plots := s.plots } = s := by
  generalize hport : fnPort s (.vf x) = m
  obtain ⟨p, len, hwrite⟩ := (s.rxBytes m (if wide then 8 else 4)).hostRegWrite_of_window m x wide v hlow halign hevent hreset
  have hexec := exec_vfWrite_of_free htakes hfree
  rw [hport, hwrite] at hexec
  refine ⟨_, hexec, State.meter_plots _ p _, ?_⟩
  obtain ⟨plots, hmeter⟩ := State.meter_eq (s.rxBytes m (if wide then 8 else 4)) p fun c => { c with host := c.host + len }
  rw [hmeter]
  exact ⟨s.onlyPort_modPort _ _, rfl⟩

end Host

end Sys2Proof.Machine
open Sys2Proof Sys2Proof.Machine Sys2Proof.Safety

/-- Settles O31: an access that reaches a register writes its fields, and every other access changes none. -/
theorem registerWrites : Obligations.RegisterWrites := by
  unfold Obligations.RegisterWrites
  refine ⟨fun s k v hawake => ⟨crownWrite_limits k v hawake, crownWrite_event k v hawake, crownWrite_peak k v hawake, crownWrite_alarm k v hawake,
      fun off hoff => crownWrite_half k v hawake hoff, fun off wide hoff => crownWrite_of_misaligned k v hawake hoff⟩,
    fun s n v htakes => ⟨fun off hfree hoff => pfWrite_of_crownOnly htakes hfree hoff, fun off wide hfree hoff => pfWrite_of_misaligned htakes hfree hoff⟩,
    fun s x off wide v htakes hfree hlow halign hevent hreset => vfWrite_of_window htakes hfree hlow halign hevent hreset, fun s n off wide v htakes hwaits => ?_⟩
  exact ⟨_, exec_pfWrite_of_waits htakes hwaits, congrArg HostPort.held (s.modPort_port_self n _), s.onlyPort_modPort n _, rfl⟩
end

section
/-! SUPPORT. A host's write on its way to memory: staged, committed or discarded at a slice, or installed in a scratchpad's filter; and the settling of O29. -/
namespace Sys2Proof.Machine
open Sys2Proof.Safety

/-! ### Transactions by their number -/

theorem State.txn?_modTxn {s : State} {id : Nat} {t : WTxn} (h : s.txn? id = some t) (f : WTxn → WTxn) (hid : (f t).id = id) :
    (s.modTxn id f).txn? id = some (f t) := by
  unfold State.txn? State.modTxn at *
  dsimp only
  generalize s.txns = l at h
  induction l with
  | nil => cases h
  | cons x l ih =>
    rw [List.map_cons]
    by_cases hx : x.id = id
    · rw [List.find?_cons_of_pos (by simpa using hx)] at h
      obtain rfl := Option.some.inj h
      rw [if_pos hx]
      exact List.find?_cons_of_pos (by simpa using hid)
    · rw [List.find?_cons_of_neg (by simpa using hx)] at h
      rw [if_neg hx, List.find?_cons_of_neg (by simpa using hx)]
      exact ih h

theorem State.txn?_dropTxn (s : State) (id : Nat) : (s.dropTxn id).txn? id = none := by
  unfold State.txn? State.dropTxn
  refine List.find?_eq_none.mpr fun t ht => ?_
  simpa using (List.mem_filter.mp ht).2

/-- Its entries of the filters are released, or gone. -/
theorem State.released_dropTxn (s : State) (id : Nat) : ∀ e ∈ (s.dropTxn id).filters, e.owner = .txn id → e.released = true := by
  intro e he howner
  obtain ⟨x, -, hx⟩ := List.mem_filterMap.mp he
  split_ifs at hx with hown hin
  · rw [← Option.some.inj hx]
  · rw [← Option.some.inj hx] at howner
    exact absurd howner hown

theorem State.dropTxn_frame (s : State) (id : Nat) : { s.dropTxn id with txns := s.txns, seqQ := s.seqQ, filters := s.filters } = s := rfl

/-! ### A write TLP of a physical function (R306, R309) -/

theorem State.stageRoot_spec (s : State) (n : PortId) (p : Tlp) (a : Nat) : ∃ t seqQ slices, t.id = s.nextId ∧ t.who = .host n ∧ t.fn = some p.fn ∧ t.addr = a ∧
    t.len = p.data.length ∧ t.decision = none ∧ t.slices = s.slicesOf (atAddr a p.data) ∧ t.relaxed = p.relaxed ∧
    s.stageRoot n p a = { s with txns := s.txns ++ [t], seqQ := seqQ, slices := slices, nextId := s.nextId + 1 } := by
  have hsend : ∀ (l : List Burst) (t : State), ∃ slices, l.foldl (fun s b => s.sendBurst b) t = { t with slices := slices } := by
    intro l
    induction l with
    | nil => exact fun t => ⟨t.slices, rfl⟩
    | cons b l ih =>
      intro t
      obtain ⟨slices, hl⟩ := ih (t.sendBurst b)
      exact ⟨slices, hl⟩
  unfold State.stageRoot
  extract_lets d t bs ks tx u
  obtain ⟨slices, hslices⟩ := hsend (u.burstsOf d.1 n (u.fnPlot p.fn) p.damaged bs) u
  exact ⟨tx, _, slices, rfl, rfl, rfl, rfl, rfl, rfl, rfl, rfl, hslices⟩

/-- The physical function's write that its port takes now. -/
structure TakesWrite (s : State) (n : PortId) (p : Tlp) (a : Nat) : Prop where
  fn : p.fn = .pf n
  takes : s.takesTlp (.pf n) = true
  free : s.tlpWaits (.pf n) (.hostWriteTlp n p) = false
  room : s.writeWaits n p = false
  wellFormed : p.wellFormed = true
  bar2 : p.bar2 = true
  window : s.ports[n].pfWindow p.off = .mem a

theorem HostPort.pfWindow_congr {x y : HostPort} (hen : y.winEn = x.winEn) (hsize : y.sizeLog2 = x.sizeLog2) (hbase : y.winBase = x.winBase) (o : Nat) :
    y.pfWindow o = x.pfWindow o := by
  unfold HostPort.pfWindow
  rw [hen, hsize, hbase]

theorem State.bar2_pf (s : State) (n : PortId) (o : Nat) : s.bar2 (.pf n) o = s.ports[n].pfWindow o := rfl

theorem State.bar2_rxBytes (s : State) (n : PortId) (k o : Nat) : (s.rxBytes n k).bar2 (.pf n) o = s.ports[n].pfWindow o := by
  have hport := s.modPort_port_self n fun x => { x with rx := x.rx + BitVec.ofNat 48 k }
  have hen : (s.rxBytes n k).ports[n].winEn = s.ports[n].winEn := (congrArg HostPort.winEn hport :)
  have hsize : (s.rxBytes n k).ports[n].sizeLog2 = s.ports[n].sizeLog2 := (congrArg HostPort.sizeLog2 hport :)
  have hbase : (s.rxBytes n k).ports[n].winBase = s.ports[n].winBase := (congrArg HostPort.winBase hport :)
  rw [State.bar2_pf, HostPort.pfWindow_congr hen hsize hbase]

theorem exec_hostWriteTlp_of_takes {s : State} {n : PortId} {p : Tlp} {a : Nat} (h : TakesWrite s n p a) :
    exec (.hostWriteTlp n p) s = .next ((s.rxBytes n p.data.length).bar2Write n p) := by
  obtain ⟨hfn, htakes, hfree, hroom, hwell, hbar2, -⟩ := h
  obtain ⟨hlen, hblock⟩ := Bool.and_eq_true_iff.mp hwell
  have hfits : tlpFits p.off p.data.length 512 = true := by
    obtain ⟨hpos, hsame⟩ := Bool.and_eq_true_iff.mp hblock
    unfold tlpFits
    rw [hpos, hlen, hsame]
    rfl
  have hport : (fnPort s (.pf n) == n) = true := beq_self_eq_true n
  refine congrArg Host.Outcome.next ?_
  unfold State.takeWrite
  rw [hfn, htakes, hport, hfree, hroom, Bool.and_self, if_pos rfl, Bool.or_self, if_neg Bool.false_ne_true]
  unfold State.hostWrite
  dsimp only
  rw [hfits, hbar2, if_neg (by decide), if_pos rfl]

theorem State.bar2Write_of_poisoned {s : State} {n : PortId} {p : Tlp} {a : Nat} (hbar : s.bar2 p.fn p.off = .mem a) (hpoison : p.poisoned = true) :
    s.bar2Write n p = s.hostFault n p.fn .poison a := by
  unfold State.bar2Write
  rw [hbar]
  exact if_pos hpoison

theorem State.bar2Write_of_root {s : State} {n : PortId} {p : Tlp} {a : Nat} (hbar : s.bar2 p.fn p.off = .mem a) (hpoison : p.poisoned = false) (ha : a < rootSize) :
    s.bar2Write n p = s.stageRoot n p a := by
  have hnot : ¬ p.poisoned = true := by
    rw [hpoison]
    exact Bool.false_ne_true
  unfold State.bar2Write
  rw [hbar]
  dsimp only
  rw [if_neg hnot, placeOf_of_lt_rootSize ha]

/-- A write that its port can stage becomes one transaction. -/
theorem hostWriteTlp_staged {s : State} {n : PortId} {p : Tlp} {a : Nat} (h : TakesWrite s n p a) (hfit : a + p.data.length ≤ rootSize) (hpoison : p.poisoned = false) :
    RunsTo (.hostWriteTlp n p) s fun s' =>
      (∃ t, s'.txns = s.txns ++ [t] ∧ t.id = s.nextId ∧ t.who = .host n ∧ t.fn = some (.pf n) ∧ t.addr = a ∧ t.len = p.data.length ∧ t.decision = none ∧
        t.slices = s.slicesOf (atAddr a p.data) ∧ t.relaxed = p.relaxed) ∧
        s'.mem = s.mem ∧ s'.ports[n].rx = s.ports[n].rx + BitVec.ofNat 48 p.data.length ∧ OnlyPort n s s' ∧
        { s' with txns := s.txns, seqQ := s.seqQ, slices := s.slices, nextId := s.nextId, ports := s.ports } = s := by
  have hpos : 0 < p.data.length := by
    obtain ⟨-, hblock⟩ := Bool.and_eq_true_iff.mp h.wellFormed
    exact of_decide_eq_true (Bool.and_eq_true_iff.mp hblock).1
  have hbar : (s.rxBytes n p.data.length).bar2 p.fn p.off = .mem a := by rw [h.fn, State.bar2_rxBytes, h.window]
  have hexec := exec_hostWriteTlp_of_takes h
  rw [State.bar2Write_of_root hbar hpoison (by omega)] at hexec
  refine ⟨_, hexec, ?_⟩
  obtain ⟨t, seqQ, slices, hid, hwho, hfn, haddr, hlen, hdecision, hslices, hrelaxed, hstage⟩ := (s.rxBytes n p.data.length).stageRoot_spec n p a
  rw [hstage]
  exact ⟨⟨t, rfl, hid, hwho, hfn.trans (congrArg some h.fn), haddr, hlen, hdecision, hslices, hrelaxed⟩, rfl, congrArg HostPort.rx (s.modPort_port_self n _),
    s.onlyPort_modPort n _, rfl⟩

theorem State.poisonFault_spec (s : State) (n : PortId) (len a : Nat) :
    let t := (s.rxBytes n len).hostFault n (.pf n) .poison a
    t.mem = s.mem ∧ t.txns = s.txns ∧ t.outbox = s.outbox ++ [.aer n true] ∧ t.ports[n].event.getLsbD 4 = true ∧ OnlyPort n s t ∧
      { t with ports := s.ports, outbox := s.outbox, crownEvts := s.crownEvts } = s := by
  obtain ⟨hout, -, ⟨f, hports⟩, hframe⟩ := (s.rxBytes n len).aer_spec n
  have hmem : ((s.rxBytes n len).aer n).mem = s.mem := (congrArg State.mem hframe :)
  have htxns : ((s.rxBytes n len).aer n).txns = s.txns := (congrArg State.txns hframe :)
  have hframe : { (s.rxBytes n len).aer n with ports := s.ports, outbox := s.outbox, crownEvts := s.crownEvts } = s :=
    (congrArg (fun x : State => { x with ports := s.ports }) hframe :)
  have hothers : ∀ m, m ≠ n → ((s.rxBytes n len).aer n).ports[m] = s.ports[m] := fun m hm =>
    (congrArg (fun v : Vector HostPort 4 => v[m]) hports).trans ((vmod_get_ne _ f hm).trans (vmod_get_ne s.ports _ hm))
  have hfault : (s.rxBytes n len).hostFault n (.pf n) .poison a = ((s.rxBytes n len).aer n).hostEvent n 4 := rfl
  rw [hfault]
  have hout : ((s.rxBytes n len).aer n).outbox = s.outbox ++ [.aer n true] := hout
  generalize (s.rxBytes n len).aer n = u at *
  obtain ⟨evts, hevent⟩ := u.hostEvent_eq n 4
  rw [hevent]
  refine ⟨hmem, htxns, hout, ?_, onlyPort_of_others fun m hm => (vmod_get_ne u.ports _ hm).trans (hothers m hm),
    (congrArg (fun x : State => { x with crownEvts := s.crownEvts }) hframe :)⟩
  exact (congrArg (fun x : HostPort => x.event.getLsbD 4) (vmod_get_self u.ports n _)).trans (getLsbD_withBit_self u.ports[n].event (by decide))

/-- A poisoned write is logged and dropped. -/
theorem hostWriteTlp_poisoned {s : State} {n : PortId} {p : Tlp} {a : Nat} (h : TakesWrite s n p a) (hpoison : p.poisoned = true) :
    RunsTo (.hostWriteTlp n p) s fun s' =>
      s'.mem = s.mem ∧ s'.txns = s.txns ∧ s'.outbox = s.outbox ++ [.aer n true] ∧ s'.ports[n].event.getLsbD 4 = true ∧ OnlyPort n s s' ∧
        { s' with ports := s.ports, outbox := s.outbox, crownEvts := s.crownEvts } = s := by
  have hbar : (s.rxBytes n p.data.length).bar2 p.fn p.off = .mem a := by rw [h.fn, State.bar2_rxBytes, h.window]
  have hexec := exec_hostWriteTlp_of_takes h
  rw [State.bar2Write_of_poisoned hbar hpoison, h.fn] at hexec
  refine ⟨_, hexec, ?_⟩
  exact State.poisonFault_spec s n p.data.length a

/-! ### STAGED, COMMIT and DISCARD at a slice (R272, R306, R307) -/

theorem staged_spec {s : State} {id : Nat} {k : SliceId} {t : WTxn} (ht : s.txn? id = some t) (hslices : t.slices = [k]) (hok : t.okFrom = []) (hfail : t.failFrom = [])
    (hdecision : t.decision = none) (hall : s.allStaged id k = true) (hid : t.id = id) (hsound : ∀ b ∈ s.slices[k].staging, b.txn = id → b.bad = []) :
    RunsTo (.staged id k) s fun s' => s'.txn? id = some { t with okFrom := [k] } ∧ s'.mem = s.mem ∧ { s' with txns := s.txns } = s := by
  have hbad : (s.slices[k].staging.any fun b => b.txn = id && !b.bad.isEmpty) = false := by
    refine List.any_eq_false.mpr fun b hb => ?_
    by_cases hown : b.txn = id
    · simp [hsound b hb hown]
    · simp [hown]
  have hready : (t.slices.contains k && !(t.okFrom ++ t.failFrom).contains k && t.decision.isNone && s.allStaged id k) = true := by
    rw [hslices, hok, hfail, hdecision, hall]
    simp
  have hexec : exec (.staged id k) s = .next (s.modTxn id fun _ => { t with okFrom := [k] }) := by
    show execStaged id k s = _
    unfold execStaged
    rw [ht]
    dsimp only
    rw [if_pos hready, hbad, hfail, hok]
    rfl
  exact ⟨_, hexec, State.txn?_modTxn ht (fun _ => { t with okFrom := [k] }) hid, rfl, rfl⟩

/-- A sound burst that no younger write covers is written, and waits for its targets. -/
theorem State.commitBurst_of_sound (s : State) {b : Burst} (hbad : b.bad = []) : ∃ mem hbm scr plots ring evts fresh,
    s.commitBurst [] b = { s.modSlice b.slice fun x => x.commits b with
      mem := mem, hbm := hbm, scr := scr, plots := plots, ring := ring, crownEvts := evts, fresh := fresh } ∧
      (s.sys.mode ≠ .service → mem = s.mem.write b.bytes) := by
  have hall : b.bytes.filter (fun c => !([] : List Nat).contains c.1) = b.bytes := List.filter_eq_self.mpr fun c _ => rfl
  obtain ⟨mem, hbm, scr, ring, evts, fresh, hstored, hmem⟩ := s.storeBytes_eq b.bytes
  obtain ⟨plots, hmetered⟩ := State.meterWrite_eq ((s.storeBytes b.bytes).modSlice b.slice fun x => x.commits b) b.plot (granulesOf b.bytes).length
  have hcommitted : s.commitBurst [] b = ((s.storeBytes b.bytes).modSlice b.slice fun x => x.commits b).meterWrite b.plot (granulesOf b.bytes).length := by
    rw [State.commitBurst, hall, hbad]
    rfl
  refine ⟨mem, hbm, scr, plots, ring, evts, fresh, ?_, hmem⟩
  rw [hcommitted, hmetered, hstored]
  rfl

/-- The commit of a transaction's last slice, and what it meters. -/
def State.committedOne (s : State) (id : Nat) (k : SliceId) (b : Burst) : State :=
  ((s.modSlice k fun x => { x with staging := x.staging.filter fun b => b.txn ≠ id }).commitBurst [] b).modTxn id fun t => { t with decision := some true, ctl := [] }

theorem exec_commit_of_one {s : State} {id : Nat} {k : SliceId} {t : WTxn} {b : Burst} (ht : s.txn? id = some t) (hslices : t.slices = [k]) (hdecision : t.decision = none)
    (hready : s.commitReady t = true) (hwho : ∀ w st, t.who ≠ .twig w st) (hyounger : youngerOwners (.txn id) s.filters = [])
    (hone : (s.slices[k].staging.filter fun b => b.txn = id) = [b]) :
    ∃ plots, exec (.commit id k) s = .next { s.committedOne id k b with plots := plots } := by
  have hvisible : ∀ u : State, u.storeVisible t.who = u := by
    intro u
    cases hw : t.who with
    | twig w st => exact absurd hw (hwho w st)
    | _ => rfl
  have hgo : ¬ (t.decision == some false || !(if t.decision.isNone then t.slices else t.ctl).contains k || (t.decision.isNone && !s.commitReady t)) = true := by
    rw [hdecision, hslices, hready]
    simp
  have hleft : (if t.decision.isNone then t.slices else t.ctl).filter (· ≠ k) = [] := by
    rw [hdecision, hslices]
    simp
  have hexec : exec (.commit id k) s = execCommit id k s := rfl
  rw [hexec]
  unfold execCommit
  rw [ht]
  dsimp only
  rw [if_neg hgo, hleft, hone, show (s.modSlice k fun x => { x with staging := x.staging.filter fun b => b.txn ≠ id }).filters = s.filters from rfl, hyounger,
    if_pos List.isEmpty_nil, hvisible]
  cases t.fn with
  | none => exact ⟨_, rfl⟩
  | some fn =>
    obtain ⟨plots, hmeter⟩ := (s.committedOne id k b).meterHost_eq fn t.len
    exact ⟨plots, congrArg Host.Outcome.next hmeter⟩

theorem commit_spec {s : State} {id : Nat} {k : SliceId} {t : WTxn} {b : Burst} (ht : s.txn? id = some t) (hid : t.id = id) (hslices : t.slices = [k])
    (hdecision : t.decision = none) (hready : s.commitReady t = true) (hwho : ∀ w st, t.who ≠ .twig w st) (hmode : s.sys.mode ≠ .service)
    (hyounger : youngerOwners (.txn id) s.filters = []) (hone : (s.slices[k].staging.filter fun b => b.txn = id) = [b]) (hbad : b.bad = []) (hslice : b.slice = k)
    (hnodup : (b.bytes.map fun c => c.1).Nodup) (halive : ∀ c ∈ b.bytes, c.1 / 64 ∉ s.mem.dead) :
    RunsTo (.commit id k) s fun s' =>
      (∀ c ∈ b.bytes, s'.mem.read c.1 = c.2) ∧ (∀ a, a ∉ b.bytes.map (fun c => c.1) → s'.mem.read a = s.mem.read a) ∧
        s'.slices[k].staging = s.slices[k].staging.filter (fun b => b.txn ≠ id) ∧ s'.slices[k].writing = s.slices[k].writing ++ [b] ∧
        (∃ u, s'.txn? id = some u ∧ u.decision = some true ∧ u.ctl = []) ∧ s'.boughs = s.boughs ∧ s'.queues = s.queues ∧ s'.filters = s.filters := by
  obtain ⟨plots, hexec⟩ := exec_commit_of_one ht hslices hdecision hready hwho hyounger hone
  subst hslice
  obtain ⟨mem, hbm, scr, plots', ring, evts, fresh, hcommit, hmem⟩ :=
    (s.modSlice b.slice fun x => { x with staging := x.staging.filter fun b => b.txn ≠ id }).commitBurst_of_sound hbad
  have hwritten : mem = s.mem.write b.bytes := hmem hmode
  rw [State.modSlice_modSlice] at hcommit
  unfold State.committedOne at hexec
  rw [hcommit] at hexec
  refine ⟨_, hexec, ?_⟩
  subst hwritten
  have hself := vmod_get_self s.slices b.slice ((fun x : Slice => x.commits b) ∘ fun x => { x with staging := x.staging.filter fun b => b.txn ≠ id })
  refine ⟨fun c hc => (Memory.read_write_of_alive _ _ halive c.1).trans (overlay_of_nodup hnodup hc _),
    fun a ha => Memory.read_write_of_not_written _ fun c hc heq => ha (List.mem_map.mpr ⟨c, hc, heq⟩), congrArg Slice.staging hself, congrArg Slice.writing hself,
    ⟨{ t with decision := some true, ctl := [] }, ?_, rfl, rfl⟩, rfl, rfl, rfl⟩
  exact State.txn?_modTxn (s := s) ht (fun t => { t with decision := some true, ctl := [] }) hid

theorem exec_commit_of_waits {s : State} {id : Nat} {k : SliceId} {t : WTxn} (ht : s.txn? id = some t) (hdecision : t.decision = none) (hready : s.commitReady t = false) :
    exec (.commit id k) s = .next s := by
  have hstop : (t.decision == some false || !(if t.decision.isNone then t.slices else t.ctl).contains k || (t.decision.isNone && !s.commitReady t)) = true := by
    rw [hdecision, hready]
    simp
  show execCommit id k s = _
  unfold execCommit
  rw [ht]
  exact if_pos hstop

theorem State.dropBursts_spec (s : State) (id : Nat) (k : SliceId) : ∃ slices heldWrites, s.dropBursts id k = { s with slices := slices, heldWrites := heldWrites } ∧
    slices[k].staging = s.slices[k].staging.filter (fun b => b.txn ≠ id) ∧ slices[k].writing = s.slices[k].writing :=
  ⟨_, _, rfl, (congrArg Slice.staging (vmod_get_self s.slices k _) :), (congrArg Slice.writing (vmod_get_self s.slices k _) :)⟩

theorem discard_spec {s : State} {id : Nat} {k : SliceId} {t : WTxn} (ht : s.txn? id = some t) (hdecision : t.decision = some false) (hctl : t.ctl = [k])
    (hheld : ∀ n : PortId, s.ports[n].held = []) : RunsTo (.discard id k) s fun s' =>
      s'.txn? id = none ∧ s'.mem = s.mem ∧ (∀ b ∈ s'.slices[k].staging, b.txn ≠ id) ∧ s'.slices[k].writing = s.slices[k].writing ∧
        { s' with txns := s.txns, seqQ := s.seqQ, filters := s.filters, slices := s.slices, heldWrites := s.heldWrites } = s := by
  have hgo : (t.decision == some false && t.ctl.contains k) = true := by
    rw [hdecision, hctl]
    simp
  have hleft : (t.ctl.filter (· ≠ k)).isEmpty = true := by
    rw [hctl]
    simp
  have hdiscard : s.discardAt id k = ((s.dropBursts id k).modTxn id fun t => { t with ctl := t.ctl.filter (· ≠ k) }).dropTxn id := by
    unfold State.discardAt
    rw [ht]
    dsimp only
    rw [if_pos hgo, if_pos hleft]
  have hserve : (s.discardAt id k).serveAll = s.discardAt id k := State.serveAll_of_held_nil _ fun n => by rw [hdiscard]; exact hheld n
  obtain ⟨slices, heldWrites, hdrop, hstaging, hwriting⟩ := s.dropBursts_spec id k
  rw [hdrop] at hdiscard
  refine ⟨_, congrArg Host.Outcome.next (hserve.trans hdiscard), State.txn?_dropTxn _ id, rfl, fun b hb => ?_, hwriting, rfl⟩
  have hb : b ∈ slices[k].staging := hb
  rw [hstaging] at hb
  simpa using (List.mem_filter.mp hb).2

theorem committed_spec {s : State} {id : Nat} {k : SliceId} {t : WTxn} (ht : s.txn? id = some t) (hdecision : t.decision = some true) (hslices : t.slices = [k])
    (hctl : t.ctl = []) (hcommitted : t.committed = []) (hheld : ∀ n : PortId, s.ports[n].held = []) : RunsTo (.committed id k) s fun s' =>
      s'.txn? id = none ∧ s'.mem = s.mem ∧ (∀ e ∈ s'.filters, e.owner = .txn id → e.released = true) ∧
        { s' with txns := s.txns, seqQ := s.seqQ, filters := s.filters } = s := by
  have hdone : s.committedAt id k = s.dropTxn id := by
    unfold State.committedAt
    rw [ht]
    dsimp only
    rw [hdecision, hslices, hctl, hcommitted]
    simp
  have hserve : (s.dropTxn id).serveAll = s.dropTxn id := State.serveAll_of_held_nil _ hheld
  exact ⟨_, congrArg Host.Outcome.next ((congrArg State.serveAll hdone).trans hserve), s.txn?_dropTxn id, rfl, s.released_dropTxn id, rfl⟩

/-! ### A write to a scratchpad (R150, R308) -/

theorem find_first_of_append {d : BoughId} {pre post : List FEntry} {e : FEntry} (hpre : ∀ x ∈ pre, ¬ (x.tgt = .scratch d ∧ x.installed = false))
    (htgt : e.tgt = .scratch d) (hin : e.installed = false) : (pre ++ e :: post).find? (fun e => e.tgt == .scratch d && !e.installed) = some e := by
  rw [List.find?_append, List.find?_eq_none.mpr, Option.none_or]
  · exact List.find?_cons_of_pos (by simp [htgt, hin])
  · intro x hx
    simpa using hpre x hx

theorem installFirst_of_append {d : BoughId} {pre post : List FEntry} {e : FEntry} (hpre : ∀ x ∈ pre, ¬ (x.tgt = .scratch d ∧ x.installed = false))
    (htgt : e.tgt = .scratch d) (hin : e.installed = false) : installFirst (.scratch d) (pre ++ e :: post) = pre ++ { e with installed := true } :: post := by
  induction pre with
  | nil => exact if_pos (by simp [htgt, hin])
  | cons x pre ih =>
    have hx : ¬ (x.tgt == .scratch d && !x.installed) = true := by
      have := hpre x List.mem_cons_self
      simpa using this
    exact (if_neg hx).trans (congrArg (x :: ·) (ih fun y hy => hpre y (List.mem_cons_of_mem x hy)))

theorem filterInstall_spec {s : State} {d : BoughId} {pre post : List FEntry} {e : FEntry} {id : Nat} {t : WTxn} (hfilters : s.filters = pre ++ e :: post)
    (hpre : ∀ x ∈ pre, ¬ (x.tgt = .scratch d ∧ x.installed = false)) (htgt : e.tgt = .scratch d) (hin : e.installed = false) (howner : e.owner = .txn id)
    (hroom : s.filterCount (.scratch d) < 16) (hmode : s.sys.mode ≠ .service) (ht : s.txns.find? (fun t => t.id = id && t.scratch.isSome) = some t)
    (hnodup : (t.bytes.map fun c => c.1).Nodup) (halive : ∀ c ∈ t.bytes, c.1 / 64 ∉ s.mem.dead) : RunsTo (.filterInstall (.scratch d)) s fun s' =>
      s'.filters = pre ++ { e with installed := true } :: post ∧ (∀ c ∈ t.bytes, s'.mem.read c.1 = c.2) ∧
        ∀ a, a ∉ t.bytes.map (fun c => c.1) → s'.mem.read a = s.mem.read a := by
  have hexec : exec (.filterInstall (.scratch d)) s = .next ({ s with filters := pre ++ { e with installed := true } :: post }.storeBytes t.bytes) := by
    have hfirst := installFirst_of_append (post := post) hpre htgt hin
    obtain ⟨e', he'⟩ : ∃ e' : FEntry, e' = { e with installed := true } := ⟨_, rfl⟩
    rw [← he'] at hfirst ⊢
    show execFilterInstall (.scratch d) s = _
    unfold execFilterInstall
    rw [hfilters, find_first_of_append hpre htgt hin]
    dsimp only
    rw [if_neg (by simpa using hroom), howner, hfirst]
    simp only [ht]
  obtain ⟨mem, hbm, scr, ring, evts, fresh, hstored, hmem⟩ := State.storeBytes_eq { s with filters := pre ++ { e with installed := true } :: post } t.bytes
  rw [hstored, hmem hmode] at hexec
  exact ⟨_, hexec, rfl, fun c hc => (Memory.read_write_of_alive _ _ halive c.1).trans (overlay_of_nodup hnodup hc _),
    fun a ha => Memory.read_write_of_not_written _ fun c hc heq => ha (List.mem_map.mpr ⟨c, hc, heq⟩)⟩

theorem hostScratchpadWrite_spec {s : State} {id : Nat} {t : WTxn} {d : BoughId} {n : PortId} (ht : s.txn? id = some t) (hid : t.id = id) (hscratch : t.scratch = some d)
    (hfn : t.fn = some (.pf n)) (hvisible : s.scratchVisible id = true) (hheld : ∀ n : PortId, s.ports[n].held = [])
    (hold : ∀ g ∈ granulesOf t.bytes, olderBlocks (.txn id) (.scratch d) g s.filters = false) : RunsTo (.hostScratchpadWrite id) s fun s' =>
      s'.txn? id = none ∧ s'.mem = s.mem ∧ (∀ e ∈ s'.filters, e.owner = .txn id → e.released = true) ∧
        { s' with txns := s.txns, seqQ := s.seqQ, filters := s.filters } = s := by
  have hready : (s.scratchVisible id && (granulesOf t.bytes).all fun g => !olderBlocks (.txn id) (.scratch d) g s.filters) = true := by
    rw [hvisible, Bool.true_and]
    exact List.all_eq_true.mpr fun g hg => by rw [hold g hg]; rfl
  have hwritten : s.scratchWritten t d = s.dropTxn id := by
    unfold State.scratchWritten
    rw [hfn, hid]
    rfl
  have hserve : (s.dropTxn id).serveAll = s.dropTxn id := State.serveAll_of_held_nil _ hheld
  have hexec : exec (.hostScratchpadWrite id) s = .next (s.dropTxn id) := by
    show execHostScratchpadWrite id s = _
    unfold execHostScratchpadWrite
    rw [ht]
    dsimp only
    rw [hscratch]
    dsimp only
    rw [if_pos hready, hwritten, hserve]
  exact ⟨_, hexec, s.txn?_dropTxn id, rfl, s.released_dropTxn id, rfl⟩

end Sys2Proof.Machine
open Sys2Proof Sys2Proof.Machine Sys2Proof.Safety

/-- Settles O29: a transaction is staged, its slice commits or discards it, and a scratchpad's filter makes it visible. -/
theorem hostWrites : Obligations.HostWrites := by
  unfold Obligations.HostWrites
  refine ⟨fun s n p a hfn htakes hfree hroom hwell hbar2 hwindow => ?tlp, ⟨fun s id k t => ?staged, fun s id k t b => ?commit, fun s id k t ht _ _ hdecision hready => ?waits,
    fun s id k t ht _ hdecision hctl hheld => ?discard, fun s id k t ht _ hdecision hslices hctl hcommitted hheld => ?committed⟩,
    fun s d pre e post id t => ?install, fun s id t d n => ?scratch⟩
  case tlp =>
    have h : TakesWrite s n p a := ⟨hfn, htakes, hfree, hroom, hwell, hbar2, hwindow⟩
    exact ⟨fun hfit hpoison => hostWriteTlp_staged h hfit hpoison, fun hpoison => hostWriteTlp_poisoned h hpoison⟩
  case staged => exact staged_spec
  case commit => exact commit_spec
  case waits => exact exec_commit_of_waits ht hdecision hready
  case discard => exact discard_spec ht hdecision hctl hheld
  case committed => exact committed_spec ht hdecision hslices hctl hcommitted hheld
  case install => exact filterInstall_spec
  case scratch => exact hostScratchpadWrite_spec
end

section
/-! SUPPORT. Records closed over the plots, the seal, the sample of the junction, and an item's way from its emission to its queue
(R419-R430, R437, R444); and the settling of O41. -/
namespace Sys2Proof.Machine
open Sys2Proof.Safety

/-! ### Records of the plots (R419, R424) -/

/-- The item of a minute record. -/
def State.record (s : State) (p : PlotId) (flags : Word) : Item :=
  { typ := tyMinute, seq := 0, sig := [], plot := some p
    covered := s.recordWords p s.plots[p].cnt s.ring.tick (flags ||| s.ring.uncertainFlag) s.ring.offset }

/-- A plot whose record is closed at tick t, and whose counters start again but for what has not made a microjoule. -/
def Plot.reopened (level : Fin 4) (t : Word) (x : Plot) : Plot :=
  if x.cnt.startTick = t then x
  else { x with cnt := { Counters.start t with energyNJ := x.cnt.energyNJ % 1000, flags := BitVec.ofNat 64 (2 ^ (16 + level.val)) } }

/-- From s to t, records have been closed: items are added, and the plots' counters and the engine of signatures have changed. -/
structure ClosesRecords (s t : State) : Prop where
  frame : { t with plots := s.plots, hwd := s.hwd, ring := s.ring } = s
  ring : { t.ring with unsigned := s.ring.unsigned } = s.ring
  kept : ∀ i ∈ s.ring.unsigned, i ∈ t.ring.unsigned

namespace ClosesRecords

variable {s t u : State}

theorem refl (s : State) : ClosesRecords s s := ⟨rfl, rfl, fun _ h => h⟩

theorem trans (h : ClosesRecords s t) (k : ClosesRecords t u) : ClosesRecords s u where
  frame := (congrArg (fun x : State => { x with plots := s.plots, hwd := s.hwd, ring := s.ring }) k.frame :).trans h.frame
  ring := (congrArg (fun x : Ring => { x with unsigned := s.ring.unsigned }) k.ring :).trans h.ring
  kept i hi := k.kept i (h.kept i hi)

theorem mode (h : ClosesRecords s t) : t.sys.mode = s.sys.mode := (congrArg (fun x : State => x.sys.mode) h.frame :)

theorem level (h : ClosesRecords s t) : t.pwr.level = s.pwr.level := (congrArg (fun x : State => x.pwr.level) h.frame :)

theorem tick (h : ClosesRecords s t) : t.ring.tick = s.ring.tick := (congrArg Ring.tick h.ring :)

end ClosesRecords

theorem State.closeAt_of_opened {s : State} {p : PlotId} (h : s.plots[p].cnt.startTick = s.ring.tick) (flags : Word) : s.closeAt p flags = s := if_pos h

theorem State.closeAt_of_older {s : State} {p : PlotId} (hmode : s.sys.mode ≠ .quarantine) (h : s.plots[p].cnt.startTick ≠ s.ring.tick) (flags : Word) :
    ∃ hwd, s.closeAt p flags = { s with
      ring := { s.ring with unsigned := s.ring.unsigned ++ [s.record p flags] }, hwd := hwd
      plots := vmod s.plots p (Plot.reopened s.pwr.level s.ring.tick) } := by
  obtain ⟨hwd, hemit⟩ := State.emitItem_of_room (s := s) hmode (.inl rfl)
    (s.recordWords p s.plots[p].cnt s.ring.tick (flags ||| s.ring.uncertainFlag) s.ring.offset) (some p)
  refine ⟨hwd, (if_neg h).trans ?_⟩
  unfold State.closeRecord
  dsimp only
  rw [hemit]
  refine congrArg (fun plots => ({ s with ring := { s.ring with unsigned := s.ring.unsigned ++ [s.record p flags] }, hwd := hwd, plots := plots } : State)) ?_
  refine vmod_congr_self ?_
  rw [Plot.reopened, if_neg h]
  rfl

theorem State.closeAt_closes {s : State} (hmode : s.sys.mode ≠ .quarantine) (p : PlotId) (flags : Word) :
    ClosesRecords s (s.closeAt p flags) ∧ (s.closeAt p flags).plots = vmod s.plots p (Plot.reopened s.pwr.level s.ring.tick) := by
  by_cases h : s.plots[p].cnt.startTick = s.ring.tick
  · rw [State.closeAt_of_opened h]
    exact ⟨.refl s, (vmod_same s.plots p (Plot.reopened s.pwr.level s.ring.tick) (if_pos h)).symm⟩
  · obtain ⟨hwd, heq⟩ := State.closeAt_of_older hmode h flags
    rw [heq]
    exact ⟨⟨rfl, rfl, fun i hi => List.mem_append_left _ hi⟩, rfl⟩

theorem State.foldl_closeAt_closes {s : State} (hmode : s.sys.mode ≠ .quarantine) (flags : Word) (ms : List PlotMap) :
    ClosesRecords s (ms.foldl (fun t m => t.closeAt (plotId m.plot) flags) s) :=
  List.foldlRecOn (motive := ClosesRecords s) _ _ (.refl s) fun _ ht _ _ => ht.trans (State.closeAt_closes (ht.mode ▸ hmode) _ _).1

/-- Every plot whose record was opened before now has an item of it. -/
theorem State.record_mem_foldl_closeAt {s : State} (hmode : s.sys.mode ≠ .quarantine) (flags : Word) {ms : List PlotMap}
    (hnodup : (ms.map fun m => m.plot).Nodup) (hlt : ∀ m ∈ ms, m.plot < 64) {m : PlotMap} (hm : m ∈ ms)
    (hold : s.plots[plotId m.plot].cnt.startTick ≠ s.ring.tick) :
    ∃ i ∈ (ms.foldl (fun t m => t.closeAt (plotId m.plot) flags) s).ring.unsigned, ∃ t : State,
      i = t.record (plotId m.plot) flags ∧ t.plots[plotId m.plot] = s.plots[plotId m.plot] ∧ t.ring.tick = s.ring.tick := by
  induction ms generalizing s with
  | nil => exact absurd hm List.not_mem_nil
  | cons a ms ih =>
    obtain ⟨ha, hnodup⟩ := List.nodup_cons.mp hnodup
    obtain ⟨hcloses, hplots⟩ := State.closeAt_closes hmode (plotId a.plot) flags
    rw [List.foldl_cons]
    rcases List.mem_cons.mp hm with rfl | hm
    · obtain ⟨hwd, heq⟩ := State.closeAt_of_older hmode hold flags
      have hmem : s.record (plotId m.plot) flags ∈ (s.closeAt (plotId m.plot) flags).ring.unsigned := by
        rw [heq]
        exact List.mem_append_right _ List.mem_cons_self
      exact ⟨_, (State.foldl_closeAt_closes (hcloses.mode ▸ hmode) flags ms).kept _ hmem, s, rfl, rfl, rfl⟩
    · have hne : plotId m.plot ≠ plotId a.plot := fun heq => ha (List.mem_map.mpr ⟨m, hm, by
        rw [← val_plotId (hlt m (List.mem_cons_of_mem a hm)), heq, val_plotId (hlt a List.mem_cons_self)]⟩)
      have hkept : (s.closeAt (plotId a.plot) flags).plots[plotId m.plot] = s.plots[plotId m.plot] := by
        rw [hplots]
        exact vmod_get_ne _ _ hne
      obtain ⟨i, hi, t, hrec, ht, htick⟩ := ih (hcloses.mode ▸ hmode) hnodup (fun x hx => hlt x (List.mem_cons_of_mem a hx)) hm
        (by rw [hkept, hcloses.tick]; exact hold)
      exact ⟨i, hi, t, hrec, ht.trans hkept, htick.trans hcloses.tick⟩

theorem State.record_covered {t : State} {p : PlotId} {c : Counters} {tick : Word} (hcnt : t.plots[p].cnt = c) (htick : t.ring.tick = tick) (flags : Word) :
    (t.record p flags).covered.length = 22 ∧ (t.record p flags).covered[2]? = some c.startTick ∧ (t.record p flags).covered[3]? = some tick ∧
      (t.record p flags).covered[5]? = some (BitVec.ofNat 64 c.boughUs) ∧ (t.record p flags).covered[12]? = some (BitVec.ofNat 64 (c.energyNJ / 1000)) := by
  subst hcnt htick
  exact ⟨rfl, rfl, rfl, rfl, rfl⟩

theorem not_idle_of_accrues {s : State} (h : s.nothingAccrues = false) (hmaps : s.plotMaps ≠ []) :
    ¬ (s.saveHeader.nothingAccrues || s.saveHeader.plotMaps.isEmpty) = true := by
  rw [show s.saveHeader.nothingAccrues = false from h, show s.saveHeader.plotMaps = s.plotMaps from rfl, Bool.false_or, List.isEmpty_iff]
  exact hmaps

section

variable {s : State} (hdue : s.ring.tick.toNat % 60000000 = 0) (hticking : s.ticking = true)
include hdue hticking

theorem exec_minuteBoundary_of_idle (h : s.nothingAccrues = true) : exec .minuteBoundary s = .next s.saveHeader := by
  refine (if_pos ⟨hdue, hticking⟩ : execMinuteBoundary s = _).trans (if_pos ?_)
  rw [show s.saveHeader.nothingAccrues = true from h, Bool.true_or]

theorem exec_minuteBoundary_of_full (h : s.nothingAccrues = false) (hmaps : s.plotMaps ≠ []) (hfull : 7680 ≤ s.ring.journal.length + 64) :
    exec .minuteBoundary s = .next (s.saveHeader.modRing fun r => { r with merging := true }) := by
  have hroomy : ¬ s.saveHeader.ring.roomy = true := by
    rw [Ring.roomy, decide_eq_true_eq]
    exact Nat.not_lt.mpr hfull
  exact ((if_pos ⟨hdue, hticking⟩ : execMinuteBoundary s = _).trans (if_neg (not_idle_of_accrues h hmaps))).trans (if_neg hroomy)

theorem exec_minuteBoundary_of_roomy (h : s.nothingAccrues = false) (hmaps : s.plotMaps ≠ []) (hroom : s.ring.journal.length + 64 < 7680) : ∃ flags,
    exec .minuteBoundary s =
      .next ((s.plotMaps.foldl (fun t m => t.closeAt (plotId m.plot) flags) s.saveHeader).modRing fun r => { r with merging := false }) :=
  ⟨_, ((if_pos ⟨hdue, hticking⟩ : execMinuteBoundary s = _).trans (if_neg (not_idle_of_accrues h hmaps))).trans
    (if_pos (decide_eq_true hroom))⟩

end

/-! ### Samples (R430) -/

theorem satAdd_one_of_lt {x : BitVec 64} (h : x.toNat < 2 ^ 64 - 1) : satAdd 64 x 1 = x + 1 := by
  rw [satAdd_one, if_neg fun e => ?_]
  rw [e, BitVec.toNat_allOnes] at h
  exact Nat.lt_irrefl _ h

/-- The counter of the junction's bin, of 10 degrees each. -/
def binCounter (t : Nat) : Fin 32 := ⟨5 + (if t < 100 then t / 10 else if t ≤ 105 then 10 else 11), by split_ifs <;> omega⟩

theorem binCounter_range (t : Nat) : 5 ≤ (binCounter t).val ∧ (binCounter t).val ≤ 16 := by
  show 5 ≤ 5 + _ ∧ 5 + _ ≤ 16
  split_ifs <;> omega

/-- The ring counters after a sample: its bin counts, and a cycle of 30 degrees counts at the end of its fall. -/
def Ring.sampled (r : Ring) (t : Nat) : Vector Word 32 :=
  let rings := vmod r.rings (binCounter t) fun x => satAdd 64 x 1
  if r.thermHigh ≠ 0 ∧ t + 30 ≤ max r.thermHigh t then vmod rings (4 : Fin 32) fun x => satAdd 64 x 1 else rings

/-- The highest junction since the last cycle, where a cycle has begun. -/
def Ring.cycleHigh (r : Ring) (t : Nat) : Nat := if min r.thermLow t + 30 ≤ t || r.thermHigh ≠ 0 then max r.thermHigh t else 0

theorem Ring.cycleHigh_ends_iff (r : Ring) (t : Nat) :
    (r.cycleHigh t ≠ 0 ∧ t + 30 ≤ r.cycleHigh t) ↔ r.thermHigh ≠ 0 ∧ t + 30 ≤ max r.thermHigh t := by
  unfold Ring.cycleHigh
  split
  next hrise =>
    by_cases hhigh : r.thermHigh = 0
    · rw [hhigh]
      omega
    · omega
  next hflat =>
    have hhigh : r.thermHigh = 0 := by
      by_contra hne
      exact hflat (by simp [hne])
    simp [hhigh]

theorem exec_thermalCycleSample_of_due {s : State} (hdue : s.ring.tick.toNat % 1000000 = 0) (hticking : s.ticking = true) : ∃ low high,
    exec .thermalCycleSample s = .next { s with ring := { s.ring with
      thermLow := low, thermHigh := high, rings := s.ring.sampled s.pwr.jmax.toNat } } := by
  have hgo : (s.ticking && s.ring.tick.toNat % 1000000 == 0) = true := by simp [hticking, hdue]
  have hbin := s.ringAdd_val (binCounter s.pwr.jmax.toNat) 1
  have hends := s.ring.cycleHigh_ends_iff s.pwr.jmax.toNat
  by_cases hcycle : s.ring.thermHigh ≠ 0 ∧ s.pwr.jmax.toNat + 30 ≤ max s.ring.thermHigh s.pwr.jmax.toNat
  · refine ⟨s.pwr.jmax.toNat, 0, (if_pos hgo : execThermalCycleSample s = _).trans ?_⟩
    dsimp only
    rw [show 5 + (if s.pwr.jmax.toNat < 100 then s.pwr.jmax.toNat / 10 else if s.pwr.jmax.toNat ≤ 105 then 10 else 11) = (binCounter s.pwr.jmax.toNat).val from rfl, hbin]
    refine (if_pos (hends.mpr hcycle)).trans (congrArg Host.Outcome.next ?_)
    refine (State.ringAdd_val _ 4 1).trans ?_
    rw [Ring.sampled, if_pos hcycle]
    rfl
  · refine ⟨min s.ring.thermLow s.pwr.jmax.toNat, s.ring.cycleHigh s.pwr.jmax.toNat, (if_pos hgo : execThermalCycleSample s = _).trans ?_⟩
    dsimp only
    rw [show 5 + (if s.pwr.jmax.toNat < 100 then s.pwr.jmax.toNat / 10 else if s.pwr.jmax.toNat ≤ 105 then 10 else 11) = (binCounter s.pwr.jmax.toNat).val from rfl, hbin]
    refine (if_neg (mt hends.mp hcycle)).trans (congrArg Host.Outcome.next ?_)
    rw [Ring.sampled, if_neg hcycle]
    rfl

/-! ### An item's way (R423, R428) -/

theorem length_setWords (ws new : List Word) (k : Nat) (h : k + new.length ≤ ws.length) : (setWords ws k new).length = ws.length := by
  simp only [setWords, List.length_append, List.length_take, List.length_drop]
  omega

theorem getElem?_setWords_of_lt {ws new : List Word} {j k : Nat} (hk : k ≤ ws.length) (h : j < k) : (setWords ws k new)[j]? = ws[j]? := by
  rw [setWords, List.append_assoc, List.getElem?_append_left (by rw [List.length_take]; omega), List.getElem?_take_of_lt h]

theorem length_six (h : List Word) : (six h).length = 6 := by simp [six]

/-- What an item's chaining leaves: its length, and its SEQ in word 1. -/
theorem State.chainItem_spec (s : State) {i : Item} (hlen : 2 ≤ i.covered.length) (hminute : i.typ = 0xa0 → i.covered.length = 22)
    (hseal : i.typ = 0xa1 → i.covered.length = 51) : (s.chainItem i).length = i.covered.length ∧ (s.chainItem i)[1]? = some s.ring.seq := by
  have hnumbered : (setWords i.covered 1 [s.ring.seq]).length = i.covered.length := length_setWords _ _ _ hlen
  have hseq : (setWords i.covered 1 [s.ring.seq])[1]? = some s.ring.seq := by
    rw [setWords, List.append_assoc, List.getElem?_append_right (by rw [List.length_take]; omega), List.length_take, Nat.min_eq_left (by omega)]
    rfl
  have hset : ∀ (k : Nat) (new : List Word), 1 < k → k + new.length ≤ i.covered.length →
      (setWords (setWords i.covered 1 [s.ring.seq]) k new).length = i.covered.length ∧
        (setWords (setWords i.covered 1 [s.ring.seq]) k new)[1]? = some s.ring.seq := fun k new hk hfits =>
    ⟨(length_setWords _ _ _ (by omega)).trans hnumbered, (getElem?_setWords_of_lt (by omega) hk).trans hseq⟩
  unfold State.chainItem
  dsimp only
  split
  next htyp =>
    have hminute := hminute (eq_of_beq htyp)
    split
    · exact hset 16 _ (by omega) (by rw [length_six]; omega)
    · exact ⟨hnumbered, hseq⟩
  next =>
    split
    next htyp =>
      have hseal := hseal (eq_of_beq htyp)
      refine hset 5 _ (by omega) ?_
      simp only [List.length_append, length_six, List.length_cons, List.length_nil]
      omega
    next => exact ⟨hnumbered, hseq⟩

theorem State.startSig_eq (s : State) : ∃ hwd, s.startSig = { s with hwd := hwd } ∧ (s.hwd.sigQueue = [] → hwd.engine = s.hwd.engine) := by
  unfold State.startSig
  split_ifs
  · exact ⟨s.hwd, rfl, fun _ => rfl⟩
  · split
    · exact ⟨s.hwd, rfl, fun _ => rfl⟩
    next r hr =>
      refine ⟨_, rfl, fun hnone => ?_⟩
      rw [hnone] at hr
      exact nomatch hr

/-- The 12 words of the device's signature of ws. -/
def signatureOf (ws : List Word) : List Word :=
  (List.range 12).map fun k => ((bytesWords ((Config.sign 0 (wordsBytes ws)).take 96))[k]?).getD 0

theorem length_signatureOf (ws : List Word) : (signatureOf ws).length = 12 := by rw [signatureOf, List.length_map, List.length_range]

theorem exec_signatureComplete_of_ledger {s : State} {i : Item} {is : List Item} (hengine : s.hwd.engine = some .ledger) (hfail : s.sys.pwrFail = false)
    (hmode : s.sys.mode = .run) (hitem : s.ring.unsigned = i :: is) : ∃ hwd, (s.hwd.sigQueue = [] → hwd.engine = none) ∧
    exec .signatureComplete s = .next { s with hwd := hwd, ring := { s.ring with
      unsigned := is, seq := s.ring.seq + 1
      signed := s.ring.signed ++ [{ i with seq := s.ring.seq, covered := s.chainItem i, sig := signatureOf (s.chainItem i) }] } } := by
  have hgo : ¬ (s.sys.pwrFail || !s.awake) = true := by simp [hfail, State.awake, hmode]
  obtain ⟨hwd, hstart, hidle⟩ := (s.modHwd fun h => { h with engine := none }).signItem.startSig_eq
  have hsign : (s.modHwd fun h => { h with engine := none }).signItem = { s with
      hwd := { s.hwd with engine := none }
      ring := { s.ring with
        unsigned := is, seq := s.ring.seq + 1
        signed := s.ring.signed ++ [{ i with seq := s.ring.seq, covered := s.chainItem i, sig := signatureOf (s.chainItem i) }] } } := by
    unfold State.signItem
    rw [show (s.modHwd fun h => { h with engine := none }).ring.unsigned = i :: is from hitem]
    rfl
  rw [hsign] at hstart hidle
  refine ⟨hwd, hidle, (if_neg hgo : execSignatureComplete s = _).trans ?_⟩
  rw [hengine]
  dsimp only
  rw [hsign, hstart]

theorem State.chainHeads_eq (s : State) (i : Item) : ∃ plots sealHash items,
    s.chainHeads i = { s with plots := plots, ring := { s.ring with sealHash := sealHash, sealItems := items } } := by
  have hring : ∀ t : State, ∃ sealHash items, (t.modRing fun r =>
      if i.typ == tySeal then { r with sealHash := i.hash, sealItems := [] } else { r with sealItems := r.sealItems ++ [(i.seq, i.hash)] }) =
      { t with ring := { t.ring with sealHash := sealHash, sealItems := items } } := by
    intro t
    unfold State.modRing
    split
    · exact ⟨_, _, rfl⟩
    · exact ⟨_, _, rfl⟩
  unfold State.chainHeads
  dsimp only
  split
  next p hp =>
    split
    · obtain ⟨sealHash, items, h⟩ := hring (s.modPlot p fun x => { x with prevHash := i.hash })
      exact ⟨_, sealHash, items, h⟩
    · exact ⟨s.plots, hring s⟩
  next => exact ⟨s.plots, hring s⟩

theorem State.usedChanged_eq (s : State) (was : Nat) : ∃ hit evts, s.usedChanged was = { s with crownEvts := evts, ring := { s.ring with
    peak := if s.ring.peak.toNat < s.ring.journal.length then BitVec.ofNat 13 s.ring.journal.length else s.ring.peak, backlogHit := hit } } := by
  unfold State.usedChanged
  dsimp only
  split
  · obtain ⟨evts, h⟩ := (s.modRing fun r => { r with
      peak := if r.peak.toNat < s.ring.journal.length then BitVec.ofNat 13 s.ring.journal.length else r.peak
      backlogHit := r.backlogHit || (decide (was < s.ring.backlogSlots.toNat) && decide (s.ring.backlogSlots.toNat ≤ s.ring.journal.length)) }).notice_eq
      s.ring.backlogHit "RING_STATUS"
    exact ⟨_, evts, h⟩
  · exact ⟨_, s.crownEvts, rfl⟩

theorem State.ledgerUp_of_run {s : State} (hmode : s.sys.mode = .run) (hfail : s.sys.pwrFail = false) : s.ledgerUp = true := by
  simp [State.ledgerUp, State.awake, hmode, hfail]

theorem exec_journalSlotCommit_of_room {s : State} {i : Item} {is : List Item} (hitem : s.ring.signed = i :: is) (hmode : s.sys.mode = .run)
    (hfail : s.sys.pwrFail = false) (hroom : s.ring.journal.length < 7680) : ∃ plots evts ring, exec .journalSlotCommit s =
      .next { s with plots := plots, crownEvts := evts, ring := ring } ∧ ring.signed = is ∧ ring.journal = s.ring.journal ++ [⟨i, false⟩] ∧
    ring.seq = s.ring.seq ∧ ring.peak.toNat = max s.ring.peak.toNat (s.ring.journal.length + 1) := by
  have hgo : (s.ledgerUp && decide (s.ring.journal.length < 7680)) = true := by rw [State.ledgerUp_of_run hmode hfail, decide_eq_true hroom]; rfl
  obtain ⟨plots, sealHash, items, hheads⟩ := (s.modRing fun r => { r with signed := is, journal := r.journal ++ [⟨i, false⟩] }).chainHeads_eq i
  obtain ⟨hit, evts, hused⟩ := ({ (s.modRing fun r => { r with signed := is, journal := r.journal ++ [⟨i, false⟩] }) with
    plots := plots, ring := { s.ring with signed := is, journal := s.ring.journal ++ [⟨i, false⟩], sealHash := sealHash, sealItems := items } } : State).usedChanged_eq
      s.ring.journal.length
  have hexec : exec .journalSlotCommit s =
      .next (((s.modRing fun r => { r with signed := is, journal := r.journal ++ [⟨i, false⟩] }).chainHeads i).usedChanged s.ring.journal.length) := by
    show execJournalSlotCommit s = _
    unfold execJournalSlotCommit
    rw [hitem]
    exact if_pos hgo
  rw [hheads] at hexec
  refine ⟨plots, evts, _, hexec.trans (congrArg Host.Outcome.next hused), rfl, rfl, rfl, ?_⟩
  dsimp only
  rw [List.length_append, List.length_singleton]
  split
  next h => rw [BitVec.toNat_ofNat, Nat.mod_eq_of_lt (by omega), Nat.max_eq_right (by omega)]
  next h => rw [Nat.max_eq_left (by omega)]

theorem exec_journalSlotCommit_of_full {s : State} (hfull : 7680 ≤ s.ring.journal.length) : exec .journalSlotCommit s = .next s := by
  have hstop : ¬ (s.ledgerUp && decide (s.ring.journal.length < 7680)) = true := by simp [Nat.not_lt.mpr hfull]
  show execJournalSlotCommit s = _
  unfold execJournalSlotCommit
  split
  · exact if_neg hstop
  · rfl

theorem findIdx?_committed {journal pre post : List JSlot} {x : JSlot} (h : journal = pre ++ x :: post) (hpre : ∀ y ∈ pre, y.posted = true)
    (hx : x.posted = false) : (journal.findIdx? fun x => !x.posted) = some pre.length := by
  rw [h, List.findIdx?_append, List.findIdx?_eq_none_iff.mpr fun y hy => by rw [hpre y hy]; rfl, List.findIdx?_cons, hx]
  simp

theorem getElem?_committed {journal pre post : List JSlot} {x : JSlot} (h : journal = pre ++ x :: post) : journal[pre.length]? = some x := by
  rw [h, List.getElem?_append_right (le_refl _), Nat.sub_self]
  rfl

theorem lmod_committed {journal pre post : List JSlot} {x : JSlot} (h : journal = pre ++ x :: post) (f : JSlot → JSlot) :
    lmod journal pre.length f = pre ++ f x :: post := by
  subst h
  induction pre with
  | nil => rfl
  | cons y pre ih => exact congrArg (y :: ·) ih

section

variable {s : State} {q : QueueId} {x : JSlot} {pre post : List JSlot} (hqueue : s.ledgerQueue = some q) (hjournal : s.ring.journal = pre ++ x :: post)
  (hpre : ∀ y ∈ pre, y.posted = true) (hx : x.posted = false) (hmode : s.sys.mode = .run) (hfail : s.sys.pwrFail = false)
include hqueue hjournal hpre hx hmode hfail

theorem exec_ledgerItemPost_of_posted {t : State} (hpost : s.postPacket q x.item.typ.toNat (x.item.covered ++ x.item.sig) = some t) :
    exec .ledgerItemPost s = .next (t.modRing fun r => { r with journal := lmod r.journal pre.length fun y => { y with posted := true } }) := by
  have hindex := findIdx?_committed hjournal hpre hx
  have hget := getElem?_committed hjournal
  show execLedgerItemPost s = _
  unfold execLedgerItemPost
  simp only [hqueue, hindex, hget, State.ledgerUp_of_run hmode hfail, if_true, hpost]

theorem exec_ledgerItemPost_of_short (hpost : s.postPacket q x.item.typ.toNat (x.item.covered ++ x.item.sig) = none) :
    exec .ledgerItemPost s = .next s := by
  have hindex := findIdx?_committed hjournal hpre hx
  have hget := getElem?_committed hjournal
  show execLedgerItemPost s = _
  unfold execLedgerItemPost
  simp only [hqueue, hindex, hget, State.ledgerUp_of_run hmode hfail, if_true, hpost]

end

/-! ### The flush at a power failure (R437) -/

theorem State.flushArea_recs {s : State} {g : Grain} (h : s.grn.active = some g) :
    s.flushArea.recs = s.plotMaps.map fun m => ⟨plotId m.plot, s.plots[plotId m.plot].cnt⟩ := by
  rw [State.flushArea, State.plotMaps, h]
  rfl

theorem State.abandonSig_eq (s : State) : ∃ hwd, s.abandonSig = { s with hwd := hwd } ∧ hwd.engine = none := by
  unfold State.abandonSig
  split
  next hnone => exact ⟨s.hwd, rfl, hnone⟩
  next r hr => cases r <;> exact ⟨_, rfl, rfl⟩

theorem exec_pwrFailAssert_of_run {s : State} (hfail : s.sys.pwrFail = false) (hgood : s.sys.aonGood = true) (hmode : s.sys.mode = .run)
    (hdue : s.sys.restoreDue = none) (hreq : s.grn.req = none) : ∃ hwd rings, hwd.engine = none ∧ exec .pwrFailAssert s = .next { s with
      sys := { s.sys with pwrFail := true }, hwd := hwd, ring := { s.ring with rings := rings, flush := some s.flushArea } } := by
  obtain ⟨hwd, habandon, hengine⟩ := (s.modSys fun x => { x with pwrFail := true }).abandonSig_eq
  have hcount := ((s.modSys fun x => { x with pwrFail := true }).abandonSig).ringAdd_val 28 1
  rw [habandon] at hcount
  generalize hrings : vmod _ _ _ = rings at hcount
  have hgo : ¬ (s.sys.pwrFail || !s.sys.aonGood) = true := by simp [hfail, hgood]
  refine ⟨hwd, rings, hengine, (if_neg hgo : execPwrFailAssert s = _).trans ?_⟩
  dsimp only
  have hcounted : ((s.modSys fun x => { x with pwrFail := true }).abandonSig).ringAdd 28 1 = { s with
      sys := { s.sys with pwrFail := true }, hwd := hwd, ring := { s.ring with rings := rings } } := by
    rw [habandon]
    exact hcount
  rw [hcounted]
  have hawake : ¬ (s.sys.mode == .dormant || s.sys.mode == .reset) = true := by simp [hmode]
  refine (if_neg hawake).trans (congrArg Host.Outcome.next ?_)
  have hsteady : ¬ (({ s with sys := { s.sys with pwrFail := true }, hwd := hwd, ring := { s.ring with rings := rings } } : State).entering &&
      decide (s.pwr.dormStep ≤ 2)) = true := by simp [State.entering, hmode]
  rw [if_neg hsteady, State.writeFlush, if_neg (by simp [hdue]), State.discardStaged, hreq]
  rfl

theorem exec_pwrFailDeassert_of_failed {s : State} (hfail : s.sys.pwrFail = true) : ∃ hwd,
    exec .pwrFailDeassert s = .next { s with sys := { s.sys with pwrFail := false }, hwd := hwd } ∧
      (s.hwd.engine = none → ∀ r, s.hwd.sigQueue = [r] → hwd.engine = some r ∧ hwd.sigQueue = []) := by
  have hexec : exec .pwrFailDeassert s = .next (s.modSys fun x => { x with pwrFail := false }).startSig := if_pos hfail
  by_cases hengine : s.hwd.engine = none
  · by_cases hone : ∃ r, s.hwd.sigQueue = [r]
    · obtain ⟨r, hqueue⟩ := hone
      have hnext : nextSig [r] = some r := by cases r <;> rfl
      refine ⟨_, hexec.trans (congrArg Host.Outcome.next (?_ : _ = { s with
        sys := { s.sys with pwrFail := false }, hwd := { s.hwd with engine := some r, sigQueue := [] } })), fun _ r' hr' => ?_⟩
      · unfold State.startSig
        rw [if_neg (by simp [State.modSys, hengine])]
        simp only [State.modSys, hqueue, hnext, List.erase_cons_head]
      · obtain rfl : r = r' := by simpa [hqueue] using hr'
        exact ⟨rfl, rfl⟩
    · obtain ⟨hwd, hstart, -⟩ := (s.modSys fun x => { x with pwrFail := false }).startSig_eq
      exact ⟨hwd, hexec.trans (congrArg Host.Outcome.next hstart), fun _ r hr => absurd ⟨r, hr⟩ hone⟩
  · obtain ⟨hwd, hstart, -⟩ := (s.modSys fun x => { x with pwrFail := false }).startSig_eq
    exact ⟨hwd, hexec.trans (congrArg Host.Outcome.next hstart), fun h => absurd h hengine⟩

/-! ### The clauses of boundaries and samples -/

theorem execMinuteBoundary_idle {s : State} (h : s.nothingAccrues = true) :
    RunsTo .minuteBoundary s fun s' => s'.plots = s.plots ∧ s'.ring.unsigned = s.ring.unsigned := by
  by_cases hdue : s.ring.tick.toNat % 60000000 = 0 ∧ s.ticking = true
  · exact ⟨_, exec_minuteBoundary_of_idle hdue.1 hdue.2 h, rfl, rfl⟩
  · exact ⟨s, if_neg hdue, rfl, rfl⟩

theorem Plot.reopened_cnt {x : Plot} {t : Word} (h : x.cnt.startTick ≠ t) (level : Fin 4) : (x.reopened level t).cnt =
    { Counters.start t with energyNJ := x.cnt.energyNJ % 1000, flags := BitVec.ofNat 64 (2 ^ (16 + level.val)) } := by
  rw [Plot.reopened, if_neg h]

/-- What a minute boundary leaves with room for its records. -/
theorem State.foldl_closeAt_plotMaps {s : State} (hmode : s.sys.mode ≠ .quarantine) (flags : Word) (hnodup : (s.plotMaps.map fun m => m.plot).Nodup)
    (hlt : ∀ m ∈ s.plotMaps, m.plot < 64) :
    (∀ (p : PlotId) (m : PlotMap), s.plotMap p.val = some m → (s.plotMaps.foldl (fun t m => t.closeAt (plotId m.plot) flags) s).plots[p] =
      s.plots[p].reopened s.pwr.level s.ring.tick) ∧
    ∀ p : PlotId, s.plotMap p.val = none → (s.plotMaps.foldl (fun t m => t.closeAt (plotId m.plot) flags) s).plots[p] = s.plots[p] := by
  refine (State.plots_foldl_plotMaps (I := ClosesRecords s) (g := fun _ => Plot.reopened s.pwr.level s.ring.tick) (fun t m ht => ?_) (.refl s) hnodup hlt).2
  obtain ⟨hcloses, hplots⟩ := State.closeAt_closes (ht.mode ▸ hmode) (plotId m.plot) flags
  rw [ht.level, ht.tick] at hplots
  exact ⟨ht.trans hcloses, hplots⟩

theorem execHourlySeal_spec {s : State} (hdue : s.ring.tick.toNat % 3600000000 = 0) (hold : s.ring.sealStart ≠ s.ring.tick) (hticking : s.ticking = true)
    (htakes : LedgerTakes s) : ∃ hwd, exec .hourlySeal s = .next { s with hwd := hwd, ring := { s.ring with
      unsigned := s.ring.unsigned ++ [{ typ := tySeal, seq := 0, covered := s.sealWords, sig := [], plot := none }], sealStart := s.ring.tick } } := by
  obtain ⟨hmode, hroom⟩ := htakes
  obtain ⟨hwd, hemit⟩ := State.emitItem_of_room (s := s) (typ := tySeal) (fun h => Mode.noConfusion (hmode.symm.trans h)) (.inr hroom) s.sealWords none
  refine ⟨hwd, (if_pos ⟨hdue, hticking, by rw [State.nothingAccrues, hmode], hold⟩ : execHourlySeal s = _).trans (congrArg Host.Outcome.next ?_)⟩
  rw [hemit]
  rfl

theorem sealWords_spec (s : State) : s.sealWords.length = 51 ∧ s.sealWords[2]? = some s.ring.sealStart ∧ s.sealWords[3]? = some s.ring.tick ∧
    s.sealWords[4]? = some s.ring.offset ∧ s.sealWords.drop 19 = s.ring.rings.toList := by
  refine ⟨?_, rfl, rfl, rfl, rfl⟩
  simp [State.sealWords]

theorem Ring.sampled_bin (r : Ring) {t : Nat} {k : Fin 32} (hk : k = binCounter t) (hlt : r.rings[k].toNat < 2 ^ 64 - 1) :
    (r.sampled t)[k] = r.rings[k] + 1 := by
  have hrange := binCounter_range t
  have hne : k ≠ (4 : Fin 32) := fun h => by
    rw [hk] at h
    have := congrArg Fin.val h
    omega
  have hbin : (vmod r.rings (binCounter t) fun x => satAdd 64 x 1)[k] = r.rings[k] + 1 := by
    rw [vmod_get, if_pos hk, ← hk]
    exact satAdd_one_of_lt hlt
  unfold Ring.sampled
  split
  · rw [vmod_get, if_neg hne, hbin]
  · exact hbin

theorem Ring.sampled_other (r : Ring) {t : Nat} {k : Fin 32} (hk : k.val < 4 ∨ 16 < k.val) : (r.sampled t)[k] = r.rings[k] := by
  have hrange := binCounter_range t
  have hbin : (vmod r.rings (binCounter t) fun x => satAdd 64 x 1)[k] = r.rings[k] := by
    rw [vmod_get, if_neg fun h => by rw [h] at hk; omega]
  have hne : k ≠ (4 : Fin 32) := fun h => by
    rw [h] at hk
    exact absurd hk (by decide)
  unfold Ring.sampled
  split
  · rw [vmod_get, if_neg hne, hbin]
  · exact hbin

theorem Ring.sampled_cycle (r : Ring) (t : Nat) (hlt : r.rings[(4 : Fin 32)].toNat < 2 ^ 64 - 1) :
    (r.sampled t)[(4 : Fin 32)] = r.rings[(4 : Fin 32)] + (if r.thermHigh ≠ 0 ∧ t + 30 ≤ max r.thermHigh t then 1 else 0) := by
  have hrange := binCounter_range t
  have hbin : (vmod r.rings (binCounter t) fun x => satAdd 64 x 1)[(4 : Fin 32)] = r.rings[(4 : Fin 32)] := by
    rw [vmod_get, if_neg fun h => ?_]
    rw [← h] at hrange
    exact absurd hrange (by decide)
  unfold Ring.sampled
  split
  · rw [vmod_get, if_pos rfl, hbin]
    exact satAdd_one_of_lt hlt
  · exact hbin.trans (BitVec.add_zero _).symm

end Sys2Proof.Machine
open Sys2Proof Sys2Proof.Machine Sys2Proof.Safety

/-- Settles O41: a boundary is `State.closeAt` of every plot, and each command of an item's way is a change of the ledger's lists. -/
theorem ledgerEmission : Obligations.LedgerEmission := by
  unfold Obligations.LedgerEmission
  refine ⟨⟨fun s hdue hticking hmode hnodup hlt hmaps => ?minute, fun s hmode => ?idle, fun s hdue hold hticking htakes => ?hour, fun s hdue hticking => ?sample⟩,
    fun s i is hengine hfail hmode hitem hlen hminute hseal => ?signed, fun s i is hitem hmode hfail => ?committed,
    fun s q x pre post hqueue hjournal hpre hx hmode hfail hprod => ?posted, fun s hfail hgood hmode hdue hstaged hreq hactive => ?failing, fun s hfail => ?back⟩
  case minute =>
    have haccrues : s.nothingAccrues = false := by rw [State.nothingAccrues, hmode]
    have hup : s.sys.mode ≠ .quarantine := fun h => Mode.noConfusion (hmode.symm.trans h)
    refine ⟨fun hroom => ?_, fun hfull => ⟨_, exec_minuteBoundary_of_full hdue hticking haccrues hmaps hfull, rfl, rfl, rfl, rfl⟩⟩
    obtain ⟨flags, hexec⟩ := exec_minuteBoundary_of_roomy hdue hticking haccrues hmaps hroom
    obtain ⟨hown, hother⟩ := State.foldl_closeAt_plotMaps (s := s.saveHeader) hup flags hnodup hlt
    have hcloses := State.foldl_closeAt_closes (s := s.saveHeader) hup flags s.plotMaps
    refine ⟨_, hexec, fun p m hm hold => ?_, rfl, hother, ?_⟩
    · obtain ⟨hmem, hplot⟩ := State.plotMap_spec hm
      obtain rfl : plotId m.plot = p := by rw [hplot, plotId_val]
      obtain ⟨i, hi, t, rfl, ht, htick⟩ := State.record_mem_foldl_closeAt (s := s.saveHeader) hup flags hnodup hlt hmem hold
      have hcnt := (congrArg Plot.cnt (hown (plotId m.plot) m hm)).trans (Plot.reopened_cnt hold _)
      refine ⟨(congrArg Counters.startTick hcnt :), (congrArg Counters.boughUs hcnt :), (congrArg Counters.rootRd hcnt :), (congrArg Counters.rootWr hcnt :),
        (congrArg Counters.traps hcnt :), (congrArg Counters.energyNJ hcnt :), _, hi, rfl, rfl, State.record_covered (congrArg Plot.cnt ht) htick flags⟩
    · exact (congrArg (fun x : State => { x with ring := s.ring }) hcloses.frame :)
  case idle =>
    refine execMinuteBoundary_idle ?_
    rcases hmode with h | h | h <;> rw [State.nothingAccrues, h]
  case hour =>
    obtain ⟨hwd, hexec⟩ := execHourlySeal_spec hdue hold hticking htakes
    obtain ⟨hlen, hstart, hend, hoffset, hrings⟩ := sealWords_spec s
    exact ⟨_, hexec, ⟨_, rfl, rfl, hlen, hstart, hend, hoffset, hrings⟩, rfl, rfl⟩
  case sample =>
    obtain ⟨low, high, hexec⟩ := exec_thermalCycleSample_of_due hdue hticking
    exact ⟨_, hexec, fun k hk hlt => s.ring.sampled_bin (Fin.ext hk) hlt, fun k hk => s.ring.sampled_other hk, fun hlt => s.ring.sampled_cycle _ hlt, rfl⟩
  case signed =>
    obtain ⟨hwd, hidle, hexec⟩ := exec_signatureComplete_of_ledger hengine hfail hmode hitem
    obtain ⟨hkept, hseq⟩ := s.chainItem_spec hlen hminute hseal
    exact ⟨_, hexec, ⟨_, rfl, rfl, rfl, rfl, length_signatureOf _, hkept, hseq⟩, rfl, rfl, hidle, rfl⟩
  case committed =>
    refine ⟨fun hroom => ?_, fun hfull => ⟨s, exec_journalSlotCommit_of_full hfull, rfl⟩⟩
    obtain ⟨plots, evts, ring, hexec, hsigned, hjournal, hseq, hpeak⟩ := exec_journalSlotCommit_of_room hitem hmode hfail hroom
    exact ⟨_, hexec, hsigned, hjournal, hpeak, hseq, rfl⟩
  case posted =>
    refine ⟨fun hroom => ?_, fun hshort => ⟨s, exec_ledgerItemPost_of_short hqueue hjournal hpre hx hmode hfail (State.postPacket_of_short hshort _), rfl⟩⟩
    obtain ⟨t, k, tail, hpost, htyp, htag, hwords, hnotices⟩ := State.postPacket_of_room hprod hroom x.item.typ.toNat
    have hexec := exec_ledgerItemPost_of_posted hqueue hjournal hpre hx hmode hfail hpost
    have hring : t.ring = s.ring := (congrArg State.ring hnotices.frame :)
    have hposted : (s.modQueue q fun x => x.posted k tail).queues[q] = s.queues[q].posted k tail := s.modQueue_queue_self q _
    have hlength : k.words.length = (x.item.covered ++ x.item.sig).length := by simpa using congrArg List.length hwords
    have hown := hnotices.own
    rw [hposted] at hown
    refine ⟨_, hexec, lmod_committed ((congrArg Ring.journal hring).trans hjournal) _, ⟨k, ?_, htag, hwords, (congrArg Queue.pending hown :)⟩, ?_,
      onlyQueue_of_forall_ne fun r hr => ?_, (congrArg (fun x : State => { x with queues := s.queues, ring := s.ring }) hnotices.frame :)⟩
    · rw [htyp, BitVec.ofNat_toNat, BitVec.setWidth_eq]
    · refine (congrArg Queue.credits hown :).trans ?_
      rw [Queue.posted, hlength]
    · exact (hnotices.queue r hr).trans (vmod_get_ne _ _ hr)
  case failing =>
    obtain ⟨hwd, rings, hengine, hexec⟩ := exec_pwrFailAssert_of_run hfail hgood hmode hdue hreq
    obtain ⟨g, hg⟩ := Option.ne_none_iff_exists'.mp hactive
    refine ⟨_, hexec, rfl, hengine, rfl, rfl, ⟨_, rfl, rfl, rfl, ?_, fun r hr => ?_⟩, rfl, rfl, rfl, rfl⟩
    · rw [State.flushArea_recs hg, List.map_map]
      rfl
    · rw [State.flushArea_recs hg] at hr
      obtain ⟨m, -, rfl⟩ := List.mem_map.mp hr
      rfl
  case back =>
    obtain ⟨hwd, hexec, hnext⟩ := exec_pwrFailDeassert_of_failed hfail
    exact ⟨_, hexec, rfl, hnext, rfl⟩
end

section
/-! SUPPORT. What each step of BOOT leaves, and what QUARANTINE keeps of it (R515, R517, R518, R525); and the settling of O49. -/
namespace Sys2Proof.Machine
open Sys2Proof.Safety

/-! ### QUARANTINE (R525) -/

/-- From s to t the place in BOOT, the Grain slots and the owner are as they were. -/
structure KeepsBoot (s t : State) : Prop where
  step : t.sys.bootStep = s.sys.bootStep
  slots : t.grn.slots = s.grn.slots
  owner : t.grn.owner = s.grn.owner

namespace KeepsBoot

variable {s t u : State}

theorem refl (s : State) : KeepsBoot s s := ⟨rfl, rfl, rfl⟩

theorem trans (h : KeepsBoot s t) (k : KeepsBoot t u) : KeepsBoot s u := ⟨k.step.trans h.step, k.slots.trans h.slots, k.owner.trans h.owner⟩

theorem of_standing (h : t.standing = s.standing) : KeepsBoot s t :=
  ⟨(congrArg (fun x : Standing => x.sys.bootStep) h :), (congrArg (fun x : Standing => x.grn.slots) h :), (congrArg (fun x : Standing => x.grn.owner) h :)⟩

end KeepsBoot

theorem State.undefine_keepsBoot (s : State) : KeepsBoot s s.undefine := by
  unfold State.undefine
  extract_lets s1 s2 s3
  have h1 : s1.standing = s.standing := foldl_standing (fun s n => ite_standing (State.partnerLost_standing s n true) rfl) _ _
  clear_value s1
  have h2 : s2.standing = s1.standing := foldl_standing (fun s n => State.setGraft_standing s n .off) _ _
  clear_value s2
  have h3 : s3.standing = s2.standing := by
    unfold s3
    refine foldl_standing (fun s m => ?_) _ _
    exact State.closeAt_standing ..
  clear_value s3
  exact (KeepsBoot.of_standing (h3.trans (h2.trans h1))).trans ⟨rfl, rfl, rfl⟩

theorem State.quarantine_keepsBoot (s : State) (cause : Nat) : KeepsBoot s (s.quarantine cause) := by
  have hundefine := s.undefine_keepsBoot
  have hconfined : KeepsBoot s (s.confined cause) := by
    unfold State.confined
    generalize s.undefine = u at hundefine
    have hmode : KeepsBoot u (u.setMode .quarantine) := by
      unfold State.setMode State.setMap
      dsimp only
      split_ifs <;> exact ⟨rfl, rfl, rfl⟩
    exact (hundefine.trans hmode).trans ⟨rfl, rfl, rfl⟩
  have heq : s.quarantine cause = let s := (s.confined cause).ringAdd 24 1
      if 4 ≤ s.sys.bootStep then s.note 7 (BitVec.ofNat 64 cause) 0
      else { s with sys := { s.sys with qnotes := s.sys.qnotes ++ [BitVec.ofNat 8 cause] } } := rfl
  rw [heq]
  generalize s.confined cause = t at hconfined
  have hring : KeepsBoot s (t.ringAdd 24 1) := hconfined.trans (.of_standing (State.ringAdd_standing t 1 (by decide)))
  generalize t.ringAdd 24 1 = u at hring
  dsimp only
  split_ifs
  · exact hring.trans (.of_standing (State.note_standing ..))
  · exact hring.trans ⟨rfl, rfl, rfl⟩

/-- What a BOOT that ends in QUARANTINE leaves. -/
theorem State.quarantine_of_boot {s t : State} (h : KeepsBoot s t) (cause : Nat) :
    (t.quarantine cause).sys.mode = .quarantine ∧ (t.quarantine cause).sys.qcause = BitVec.ofNat 8 cause ∧ (t.quarantine cause).grn.active = none ∧
      (t.quarantine cause).sys.bootStep = s.sys.bootStep ∧ (t.quarantine cause).grn.slots = s.grn.slots ∧ (t.quarantine cause).grn.owner = s.grn.owner := by
  have hspec := t.quarantine_spec cause
  have hkept := h.trans (t.quarantine_keepsBoot cause)
  exact ⟨hspec.mode, hspec.qcause, hspec.active, hkept.step, hkept.slots, hkept.owner⟩

/-! ### The steps one by one -/

/-- The state in which a step ends that has taken `us` µs. -/
def State.stepTimed (s : State) (us : Nat) : State := s.modSys fun x => { x with bootStart := x.bootStart + BitVec.ofNat 64 us }

theorem State.trainStacks_standing (s : State) : s.trainStacks.standing = s.standing := by
  unfold State.trainStacks
  generalize List.finRange 8 = l
  refine foldl_standing (fun t k => ?_) l s
  rfl

theorem State.stackFails_standing (s : State) : s.stackFails.standing = s.standing := by
  unfold State.stackFails
  extract_lets d k
  exact (State.modStack_standing ..).trans ((State.draw_standing _).trans s.trainStacks_standing)

theorem State.endBoot_keepsBoot (s : State) : KeepsBoot s s.endBoot := ⟨rfl, rfl, rfl⟩

theorem State.stepTimed_keepsBoot (s : State) (us : Nat) : KeepsBoot s (s.stepTimed us) := ⟨rfl, rfl, rfl⟩

theorem State.deriveKey_keepsBoot (s : State) (chain : Bool) : KeepsBoot s (s.deriveKey chain) := ⟨rfl, rfl, rfl⟩

theorem State.failStep_keepsBoot (s : State) (cause : Nat) : KeepsBoot s (s.failStep cause) := by
  unfold State.failStep
  split
  · exact s.deriveKey_keepsBoot true
  · exact s.deriveKey_keepsBoot false
  · exact .of_standing s.stackFails_standing
  · exact .refl s

section

variable {s : State} (hmode : s.sys.mode = .boot)
include hmode

theorem exec_bootStepTimeout_of_boot : exec .bootStepTimeout s = .next (s.endBoot.quarantine 8) := if_pos hmode

theorem exec_bootStepPass_of_late (c : BitVec 8) {us : Nat} (h : stepLimit s.sys.bootStep < us) :
    exec (.bootStepPass c us) s = .next ((s.stepTimed us).endBoot.quarantine 8) :=
  (if_pos hmode : execBootStepPass c us s = _).trans (if_pos h)

theorem exec_bootStepPass_of_passed {us : Nat} (h : us ≤ stepLimit s.sys.bootStep) :
    exec (.bootStepPass 0 us) s = .next (s.stepTimed us).passStep :=
  ((if_pos hmode : execBootStepPass 0 us s = _).trans (if_neg (Nat.not_lt.mpr h))).trans (if_pos rfl)

theorem exec_bootStepPass_of_failed {c : BitVec 8} {us : Nat} (h : us ≤ stepLimit s.sys.bootStep) (hc : c ≠ 0) (hcause : stepCause s.sys.bootStep c.toNat = true) :
    exec (.bootStepPass c us) s = .next (((s.stepTimed us).failStep c.toNat).endBoot.quarantine c.toNat) :=
  (((if_pos hmode : execBootStepPass c us s = _).trans (if_neg (Nat.not_lt.mpr h))).trans (if_neg hc)).trans (if_pos hcause)

theorem exec_bootStepPass_failed_spec {c : BitVec 8} {us : Nat} (h : us ≤ stepLimit s.sys.bootStep) (hc : c ≠ 0)
    (hcause : stepCause s.sys.bootStep c.toNat = true) : RunsTo (.bootStepPass c us) s fun s' =>
      s'.sys.mode = .quarantine ∧ s'.sys.qcause = BitVec.ofNat 8 c.toNat ∧ s'.grn.active = none ∧ s'.sys.bootStep = s.sys.bootStep ∧
        s'.grn.slots = s.grn.slots ∧ s'.grn.owner = s.grn.owner :=
  ⟨_, exec_bootStepPass_of_failed hmode h hc hcause, State.quarantine_of_boot
    (((s.stepTimed_keepsBoot us).trans (State.failStep_keepsBoot _ c.toNat)).trans (State.endBoot_keepsBoot _)) c.toNat⟩

end

/-! ### Step 1: the core (R517) -/

theorem State.coreUp_eq (s : State) : ∃ outbox, s.coreUp = { s with
    pwr := { s.pwr with locked := true, targetMv := 600 }, sys := { s.sys with bootStep := 1 }, outbox := outbox } := ⟨_, rfl⟩

/-! ### Step 2: the firmware (R518) -/

theorem State.bootRom_of_choice {s : State} {k : Fin 2} (h : s.fwChoice = some k) : s.bootRom = (s.deriveKey true).startCrown k := by
  unfold State.bootRom
  dsimp only
  rw [show (s.deriveKey true).fwChoice = some k from h]

theorem State.bootRom_of_none {s : State} (h : s.fwChoice = none) : s.bootRom = (s.deriveKey true).endBoot.quarantine 1 := by
  unfold State.bootRom
  dsimp only
  rw [show (s.deriveKey true).fwChoice = none from h]

/-- Crown firmware has started from copy k. -/
structure CrownStarted (k : Fin 2) (s t : State) : Prop where
  mode : t.sys.mode = s.sys.mode
  step : t.sys.bootStep = 2
  copy : t.sys.fwCopy = decide (k = 1)
  pref : t.sys.fwPref = k
  fallback : t.sys.fwFallback = decide (k ≠ s.sys.fwPref)
  key : t.hwd.keyOk = s.hwd.keyOk
  chain : t.hwd.chainOk = s.hwd.chainOk
  armed : t.crn.armed = true
  core : ∀ c : CoreId, t.crn.cores[c] = Twig.start .running

theorem State.startCrown_started (s : State) (k : Fin 2) : CrownStarted k s (s.startCrown k) where
  mode := rfl
  step := rfl
  copy := rfl
  pref := rfl
  fallback := by
    show (k != s.sys.fwPref) = _
    rw [bne, decide_not]
    rfl
  key := rfl
  chain := rfl
  armed := rfl
  core c := by
    show (Vector.replicate 4 (Twig.start .running))[c] = _
    simp

/-! ### Step 3: the self-test (R279, R330, R332) -/

theorem State.trainStack_eq (s : State) (full : Bool) (k : StackId) : ∃ hbm fresh, s.trainStack full k = { s with hbm := hbm, fresh := fresh } ∧
    hbm[k].state = 2 ∧ ∀ i, i ≠ k → hbm[i] = s.hbm[i] := by
  unfold State.trainStack
  extract_lets a b ch used
  refine ⟨_, _, rfl, ?_, fun i hi => vmod_get_ne s.hbm _ hi⟩
  rw [show b.2.hbm = s.hbm from rfl, vmod_get_self]

theorem foldl_trainStack (l : List StackId) (s : State) :
    ∃ hbm fresh, l.foldl (fun (s : State) k => s.trainStack (s.hbm[k].state == 0) k) s = { s with hbm := hbm, fresh := fresh } ∧
      ∀ i : StackId, i ∈ l ∨ s.hbm[i].state = 2 → hbm[i].state = 2 := by
  induction l generalizing s with
  | nil => exact ⟨s.hbm, s.fresh, rfl, fun i h => h.resolve_left List.not_mem_nil⟩
  | cons k l ih =>
    obtain ⟨hbm, fresh, heq, htrained, hother⟩ := s.trainStack_eq (s.hbm[k].state == 0) k
    obtain ⟨hbm', fresh', heq', hrest⟩ := ih { s with hbm := hbm, fresh := fresh }
    refine ⟨hbm', fresh', by rw [List.foldl_cons, heq, heq'], fun i hi => hrest i ?_⟩
    by_cases hik : i = k
    · exact .inr (hik ▸ htrained)
    · rcases hi with hi | hi
      · exact .inl ((List.mem_cons.mp hi).resolve_left hik)
      · exact .inr ((congrArg Stack.state (hother i hik)).trans hi)

theorem State.selfTest_spec (s : State) : ∃ mem scr hbm fresh, s.selfTest = { s with mem := mem, scr := scr, hbm := hbm, fresh := fresh, sys := { s.sys with bootStep := 3 } } ∧
    (∀ k : StackId, hbm[k].state = 2) ∧ (∀ x, mem.read x = if ∃ b : BoughId, zoneOf x = scratchZone b.val then 0 else s.mem.read x) := by
  obtain ⟨spares, hspares⟩ : ∃ scr, s.loadSpares = { s with scr := scr } := ⟨_, rfl⟩
  obtain ⟨hbm, fresh, htrain, htrained⟩ := foldl_trainStack (List.finRange 8) { s with scr := spares }
  obtain ⟨mem, scr, hzero, hread⟩ := State.foldl_zeroScratch_eq (List.finRange 256) { s with scr := spares, hbm := hbm, fresh := fresh }
  refine ⟨mem, scr, hbm, fresh, ?_, fun k => htrained k (.inl (List.mem_finRange k)), fun x => ?_⟩
  · unfold State.selfTest State.trainStacks State.zeroAllScratch
    rw [hspares, htrain, hzero]
    rfl
  · rw [hread]
    simp only [List.mem_finRange, true_and]

/-! ### Step 4: the ledger (R436, R439, R523, R531) -/

/-- From s to t the ledger's restore has gone on: the place in BOOT, the bytes and the marks are as they were. -/
structure Restores (s t : State) : Prop where
  mode : t.sys.mode = s.sys.mode
  step : t.sys.bootStep = s.sys.bootStep
  due : t.sys.restoreDue = s.sys.restoreDue
  bytes : SameBytes s.mem t.mem
  marks : t.mem.marks = s.mem.marks

namespace Restores

variable {s t u : State}

theorem refl (s : State) : Restores s s := ⟨rfl, rfl, rfl, fun _ => rfl, rfl⟩

theorem trans (h : Restores s t) (k : Restores t u) : Restores s u where
  mode := k.mode.trans h.mode
  step := k.step.trans h.step
  due := k.due.trans h.due
  bytes x := (k.bytes x).trans (h.bytes x)
  marks := k.marks.trans h.marks

theorem of_standing (h : t.standing = s.standing) (hmem : t.mem = s.mem) : Restores s t where
  mode := (congrArg (fun x : Standing => x.sys.mode) h :)
  step := (congrArg (fun x : Standing => x.sys.bootStep) h :)
  due := (congrArg (fun x : Standing => x.sys.restoreDue) h :)
  bytes x := by rw [hmem]
  marks := by rw [hmem]

theorem foldl {α : Type} {f : State → α → State} (h : ∀ s a, Restores s (f s a)) (l : List α) (s : State) : Restores s (l.foldl f s) :=
  foldl_rel refl (fun _ _ _ => trans) h l s

end Restores

theorem State.note_restores (s : State) (kind : Nat) (d0 d1 : Word) : Restores s (s.note kind d0 d1) := .of_standing (State.note_standing ..) (State.note_mem ..)

theorem State.emitItem_restores (s : State) (typ : BitVec 8) (covered : List Word) (plot : Option PlotId) : Restores s (s.emitItem typ covered plot) :=
  .of_standing (State.emitItem_standing ..) (State.emitItem_mem ..)

theorem State.ringAdd_restores (s : State) {i : Nat} (k : Nat) (hi : i ≠ 23) : Restores s (s.ringAdd i k) :=
  .of_standing (State.ringAdd_standing s k hi) (State.ringAdd_mem ..)

theorem State.applyDead_marks (s : State) (b : BoughId) : (s.applyDead b).mem.marks = s.mem.marks := by
  unfold State.applyDead
  rw [State.modMem_mem]
  exact foldl_rel (R := fun m k : Memory => k.marks = m.marks) (fun _ => rfl) (fun _ _ _ h k => k.trans h) (fun m q => by split <;> rfl) _ s.mem

theorem State.applyDead_restores (s : State) (b : BoughId) : Restores s (s.applyDead b) where
  mode := rfl
  step := rfl
  due := rfl
  bytes := s.read_applyDead b
  marks := s.applyDead_marks b

theorem State.replayRepair_restores (s : State) (d : Word) : Restores s (s.replayRepair d) := by
  unfold State.replayRepair
  extract_lets b bank row j m
  split
  · exact .of_standing (State.modScr_standing ..) rfl
  · exact (Restores.of_standing (State.giveRowUp_standing ..) (State.giveRowUp_mem ..)).trans (State.applyDead_restores _ b)

theorem State.lateNotes_restores (s : State) : Restores s s.lateNotes := by
  unfold State.lateNotes
  extract_lets t
  have ht : Restores s t := (Restores.foldl (fun s (c : BitVec 8) => s.note_restores 7 (c.zeroExtend 64) 0) s.sys.qnotes s).trans ⟨rfl, rfl, rfl, fun _ => rfl, rfl⟩
  clear_value t
  refine ht.trans (Restores.foldl (fun s k => ?_) _ t)
  refine (Restores.foldl (fun u c => ?_) _ s).trans (State.ringAdd_restores _ _ (by decide))
  split
  · exact u.note_restores ..
  · exact .refl u

theorem State.openGap_restores (s : State) (gap : Word) : Restores s (s.openGap gap) := by
  unfold State.openGap
  extract_lets t
  have hmarked : Restores s (s.modRing fun r => { r with uncertain := true, gapOpen := true, gap := gap }) := ⟨rfl, rfl, rfl, fun _ => rfl, rfl⟩
  have ht : Restores s t := hmarked.trans (State.ringAdd_restores _ 1 (by decide : 27 ≠ 23))
  clear_value t
  split
  · exact ht.trans (.foldl (fun s m => .of_standing (State.plotEvent_standing ..) (State.plotEvent_mem ..)) _ t)
  · exact ht.trans ⟨rfl, rfl, rfl, fun _ => rfl, rfl⟩

theorem State.restoreFlush_restores (s : State) (f : FlushArea) (ramKept : Bool) : Restores s (s.restoreFlush f ramKept) := by
  unfold State.restoreFlush
  extract_lets t
  have ht : Restores s t := by
    unfold t
    split
    · exact .refl s
    · exact .foldl (fun s i => s.emitItem_restores ..) _ s
  clear_value t
  exact ht.trans (.foldl (fun s r => s.emitItem_restores ..) _ t)

theorem State.restoreFound_restores (s : State) (f : Option FlushArea) (ramKept : Bool) : Restores s (match f with
    | some f => s.restoreFlush f ramKept
    | none => s) := by
  cases f with
  | none => exact .refl s
  | some f => exact s.restoreFlush_restores f ramKept

theorem State.restoreCold_restores (s : State) (off : Bool) : Restores s (s.restoreCold off) := by
  unfold State.restoreCold
  extract_lets f d e t u v w
  have ht : Restores s t := by
    unfold t
    split <;> exact ⟨rfl, rfl, rfl, fun _ => rfl, rfl⟩
  clear_value t
  have hu : Restores t u := ⟨rfl, rfl, rfl, fun _ => rfl, rfl⟩
  clear_value u
  have hv : Restores u v := u.openGap_restores _
  clear_value v
  have hw : Restores v w := v.restoreFound_restores f _
  clear_value w
  exact (((ht.trans hu).trans hv).trans hw).trans (w.note_restores ..)

/-- What the step of the ledger leaves: a restore is no longer due. -/
theorem State.restoreLedger_spec (s : State) : s.restoreLedger.sys.mode = s.sys.mode ∧ s.restoreLedger.sys.bootStep = 4 ∧
    s.restoreLedger.sys.restoreDue = none ∧ SameBytes s.mem s.restoreLedger.mem ∧ s.restoreLedger.mem.marks = s.mem.marks := by
  unfold State.restoreLedger
  extract_lets t u
  have ht : Restores (s.modSys fun x => { x with bootStep := 4 }) t :=
    .foldl (fun s _ => .of_standing (State.requestSig_standing ..) (State.requestSig_mem ..)) _ _
  clear_value t
  have hu : Restores (t.modSys fun x => { x with restoreDue := none }) u := by
    unfold u
    split
    · exact State.restoreCold_restores _ _
    next hnone => exact ⟨rfl, rfl, hnone, fun _ => rfl, rfl⟩
  clear_value u
  have hv : Restores u u.replayRepairs.lateNotes.saveHeader :=
    ((Restores.foldl (fun s d => s.replayRepair_restores d) _ u).trans (State.lateNotes_restores _)).trans ⟨rfl, rfl, rfl, fun _ => rfl, rfl⟩
  have hafter := hu.trans hv
  exact ⟨hafter.mode.trans ht.mode, hafter.step.trans ht.step, hafter.due, fun x => (hafter.bytes x).trans (ht.bytes x), hafter.marks.trans ht.marks⟩

/-! ### Step 5: the host ports, and the end of BOOT (R460, R464, R515) -/

theorem State.bringUpHosts_eq (s : State) : ∃ id ports fresh, s.bringUpHosts = { s with
    sys := { s.sys with bootStep := 5, bootId := id }, ports := ports, fresh := fresh, grn := { s.grn with split := s.grn.splitNext } } := ⟨_, _, _, rfl⟩

theorem State.leaveBoot_kept (s : State) : s.leaveBoot.sys.bootStep = s.sys.bootStep ∧ s.leaveBoot.grn.split = s.grn.split := by
  have hset : ∀ (t : State) (m : Mode), (t.setMode m).sys.bootStep = t.sys.bootStep ∧ (t.setMode m).grn.split = t.grn.split := fun t m => by
    unfold State.setMode State.setMap
    dsimp only
    split_ifs <;> exact ⟨rfl, rfl⟩
  have hrequest : ∀ (t : State) (r : ActReq), (t.requestLoad r).sys.bootStep = t.sys.bootStep ∧ (t.requestLoad r).grn.split = t.grn.split := fun t r => by
    unfold State.requestLoad
    split <;> exact ⟨rfl, rfl⟩
  unfold State.leaveBoot
  dsimp only
  split
  · unfold State.bootLoad
    exact ⟨(hrequest _ _).1.trans (hset _ _).1, (hrequest _ _).2.trans (hset _ _).2⟩
  · exact hset _ _

/-- BOOT ends in SERVICE without an owner, when it is asked for, and with no image in either slot. -/
theorem State.leaveBoot_of_service {s : State}
    (h : s.grn.owner = none ∨ s.sys.toService = true ∨ (slotWord s.grn.slots[(0 : Fin 2)] 0 = BitVec.allOnes 64 ∧ slotWord s.grn.slots[(1 : Fin 2)] 0 = BitVec.allOnes 64)) :
    s.leaveBoot.sys.mode = .service ∧ s.leaveBoot.grn.active = s.grn.active := by
  have hstay : ¬ (s.grn.owner.isSome && !s.sys.toService && !(s.slotEmpty 0 && s.slotEmpty 1)) = true := by
    rcases h with h | h | ⟨hzero, hone⟩
    · simp [h]
    · simp [h]
    · have hempty : (s.slotEmpty 0 && s.slotEmpty 1) = true := by
        rw [State.slotEmpty, State.slotEmpty, hzero, hone]
        rfl
      simp [hempty]
  unfold State.leaveBoot
  dsimp only
  rw [if_neg hstay]
  exact ⟨rfl, rfl⟩

theorem State.passStep_of_zero {s : State} (h : s.sys.bootStep = 0) : s.passStep = s.coreUp := by simp only [State.passStep, h]

theorem State.passStep_of_one {s : State} (h : s.sys.bootStep = 1) : s.passStep = s.bootRom := by simp only [State.passStep, h]

theorem State.passStep_of_two {s : State} (h : s.sys.bootStep = 2) : s.passStep = s.selfTest := by simp only [State.passStep, h]

theorem State.passStep_of_three {s : State} (h : s.sys.bootStep = 3) : s.passStep = s.restoreLedger := by simp only [State.passStep, h]

theorem State.passStep_of_four {s : State} (h : s.sys.bootStep = 4) : s.passStep = s.bringUpHosts.leaveBoot := by simp only [State.passStep, h]

end Sys2Proof.Machine
open Sys2Proof Sys2Proof.Machine Sys2Proof.Safety

/-- Settles O49: each step of BOOT is a function of its own, and a step that fails or is late ends in `State.quarantine`. -/
theorem bootSteps : Obligations.BootSteps := by
  unfold Obligations.BootSteps
  intro s hmode quarantined most good other started
  have hmost : most = stepLimit s.sys.bootStep := rfl
  refine ⟨⟨_, exec_bootStepTimeout_of_boot hmode, State.quarantine_of_boot s.endBoot_keepsBoot 8⟩, fun us => ⟨fun c hlate => ?late, fun hin => ?steps⟩⟩
  case late =>
    exact ⟨_, exec_bootStepPass_of_late hmode c (hmost ▸ hlate), State.quarantine_of_boot ((s.stepTimed_keepsBoot us).trans (State.endBoot_keepsBoot _)) 8⟩
  rw [hmost] at hin
  have hpass := exec_bootStepPass_of_passed hmode hin
  have hfail : ∀ c : BitVec 8, c ≠ 0 → stepCause s.sys.bootStep c.toNat = true → RunsTo (.bootStepPass c us) s (quarantined c.toNat) :=
    fun c hc hcause => exec_bootStepPass_failed_spec hmode hin hc hcause
  refine ⟨fun h => ?core, fun h => ?rom, fun h => ?test, fun h => ?ledger, fun h => ?hosts⟩
  case core =>
    rw [State.passStep_of_zero (s := s.stepTimed us) h] at hpass
    obtain ⟨outbox, hup⟩ := (s.stepTimed us).coreUp_eq
    rw [hup] at hpass
    exact ⟨_, hpass, hmode, rfl, rfl, rfl, rfl, rfl⟩
  case rom =>
    rw [State.passStep_of_one (s := s.stepTimed us) h] at hpass
    have hstarted : ∀ k, s.fwChoice = some k → RunsTo (.bootStepPass 0 us) s (started k) := fun k hk => by
      rw [State.bootRom_of_choice (s := s.stepTimed us) hk] at hpass
      have hcrown := State.startCrown_started ((s.stepTimed us).deriveKey true) k
      exact ⟨_, hpass, hcrown.mode.trans hmode, hcrown.step, hcrown.copy, hcrown.pref, hcrown.fallback, hcrown.key, hcrown.chain, hcrown.armed,
        fun c => ⟨congrArg Twig.run (hcrown.core c), congrArg Twig.pc (hcrown.core c)⟩⟩
    refine ⟨fun hgood => hstarted _ (if_pos hgood), fun hbad hgood => hstarted _ ?_, fun hbad hother => ?_, fun c hc => ?_⟩
    · exact (if_neg (by rw [show s.fwGood s.sys.fwPref = false from hbad]; exact Bool.false_ne_true)).trans (if_pos hgood)
    · have hnone : s.fwChoice = none :=
        (if_neg (by rw [show s.fwGood s.sys.fwPref = false from hbad]; exact Bool.false_ne_true)).trans
          (if_neg (by rw [show s.fwGood (1 - s.sys.fwPref) = false from hother]; exact Bool.false_ne_true))
      rw [State.bootRom_of_none (s := s.stepTimed us) hnone] at hpass
      exact ⟨_, hpass, State.quarantine_of_boot
        (((s.stepTimed_keepsBoot us).trans ((s.stepTimed us).deriveKey_keepsBoot true)).trans (State.endBoot_keepsBoot _)) 1⟩
    · rcases hc with rfl | rfl | rfl <;> exact hfail _ (by decide) (by rw [h]; rfl)
  case test =>
    rw [State.passStep_of_two (s := s.stepTimed us) h] at hpass
    obtain ⟨mem, scr, hbm, fresh, htest, hstacks, hread⟩ := (s.stepTimed us).selfTest_spec
    rw [htest] at hpass
    refine ⟨⟨_, hpass, hmode, rfl, fun b i hi => ?_, fun a ha => ?_, hstacks⟩, fun c hc => ?_⟩
    · exact (hread _).trans (if_pos ⟨b, zoneOf_scratch b hi⟩)
    · refine (hread a).trans (if_neg ?_)
      rintro ⟨b, hzone⟩
      have hlt := zoneOf_lt_of_lt_rootSize ha
      rw [hzone, scratchZone] at hlt
      omega
    · rcases hc with rfl | rfl <;> exact hfail _ (by decide) (by rw [h]; rfl)
  case ledger =>
    rw [State.passStep_of_three (s := s.stepTimed us) h] at hpass
    obtain ⟨hkept, hstep, hdue, hbytes, hmarks⟩ := (s.stepTimed us).restoreLedger_spec
    exact ⟨⟨_, hpass, hkept.trans hmode, hstep, hdue, hbytes, hmarks⟩, hfail 5 (by decide) (by rw [h]; rfl)⟩
  case hosts =>
    rw [State.passStep_of_four (s := s.stepTimed us) h] at hpass
    obtain ⟨id, ports, fresh, hup⟩ := (s.stepTimed us).bringUpHosts_eq
    rw [hup] at hpass
    generalize hu : ({ s.stepTimed us with sys := _, ports := _, fresh := _, grn := _ } : State) = u at hpass
    obtain ⟨hstep, hsplit⟩ := u.leaveBoot_kept
    refine ⟨_, hpass, hstep.trans (by rw [← hu]), hsplit.trans (by rw [← hu]; rfl), fun hservice => ?_⟩
    obtain ⟨hin, hactive⟩ := State.leaveBoot_of_service (s := u) (by rw [← hu]; exact hservice)
    exact ⟨hin, hactive.trans (by rw [← hu]; rfl)⟩
end

section
/-! SUPPORT. How a check of an image ends, and what the writing of an image leaves (R328, R402, R407, R410-R412); and the settling of O38. -/
namespace Sys2Proof.Machine
open Sys2Proof.Safety

/-! ### The end of a check (R407, R411) -/

/-- The loader after an image of an ACTIVATE is rejected, with no request behind it. -/
def Grn.refused (x : Grn) (code off : Nat) : Grn :=
  { x with rejected := true, reason := BitVec.ofNat 8 code, offset := BitVec.ofNat 32 off
           req := none, staged := none, st := .idle, triedOther := false, zeroing := 0 }

theorem State.finishChan_eq (s : State) (c : Fin 5) (code detail words : Nat) : ∃ crn, s.finishChan c code detail words = { s with crn := crn } ∧
    crn.chans[c].go = false ∧ crn.chans[c].code = BitVec.ofNat 8 code := by
  refine ⟨_, rfl, ?_⟩
  dsimp only
  rw [vmod_get_self]
  exact ⟨rfl, rfl⟩

theorem State.rejected_eq (s : State) (code off : Nat) : ∃ evts, s.rejected code off = { s with
    grn := { s.grn with rejected := true, reason := BitVec.ofNat 8 code, offset := BitVec.ofNat 32 off }, crownEvts := evts } :=
  State.notice_eq _ _ _

theorem State.endLoad_of_alone {s : State} (h : s.grn.waiting = []) :
    s.endLoad = { s with grn := { s.grn with req := none, staged := none, st := .idle, triedOther := false, zeroing := 0 } } := by
  unfold State.endLoad
  dsimp only
  rw [show (s.modGrn fun g => { g with req := none, staged := none, st := .idle, triedOther := false, zeroing := 0 }).grn.waiting = [] from h]
  rfl

/-- A rejected ACTIVATE ends: its channel is answered and the loader is free. -/
theorem State.afterReject_of_chan {s : State} {r : ActReq} {c : Fin 5} (hch : r.ch = some c) (hmode : s.sys.mode = .run) (hwaiting : s.grn.waiting = [])
    (code off : Nat) : ∃ crn evts, s.afterReject r code off = { s with grn := s.grn.refused code off, crn := crn, crownEvts := evts } ∧
      crn.chans[c].go = false ∧ crn.chans[c].code = 3 := by
  have hboot : r.atBoot = false := by rw [ActReq.atBoot, hch]; rfl
  obtain ⟨evts, hreject⟩ := s.rejected_eq code off
  have hafter : s.afterReject r code off = let u := ((s.rejected code off).finishChan c 3 code 0).endLoad
      if u.sys.mode == .load then u.setMode .service else u := by
    unfold State.afterReject State.finishOpt
    rw [hboot, hch]
    rfl
  rw [hafter]
  generalize s.rejected code off = v at hreject
  obtain ⟨crn, hfinish, hgo, hcode⟩ := v.finishChan_eq c 3 code 0
  have hend : ({ v with crn := crn } : State).endLoad = _ := State.endLoad_of_alone (by rw [hreject]; exact hwaiting)
  rw [hfinish, hend]
  refine ⟨crn, evts, ?_, hgo, hcode⟩
  have hrun : v.sys.mode = .run := by rw [hreject]; exact hmode
  dsimp only
  rw [hrun, if_neg (by decide), hreject]
  rfl

theorem State.stageResult_of_split (s : State) (r : ActReq) (g : Grain) : s.stageResult r (.ok (g, true)) =
    (s.modGrn fun x => { x with splitNext := g.split, splitPending := true }).afterReject r 10 (firstOff ((checkFraming g.raw).toOption.getD []) 6) := rfl

theorem State.stageResult_of_passed (s : State) (r : ActReq) (g : Grain) :
    s.stageResult r (.ok (g, false)) = s.modGrn fun x => { x with staged := some g, st := .staged } := rfl

/-- What GRAIN_STAGED can do to an ACTIVATE: a refused image, or one staged that every check passed. -/
structure Judged (c : Fin 5) (r : ActReq) (s t : State) : Prop where
  frame : { t with grn := s.grn, crn := s.crn, fresh := s.fresh, crownEvts := s.crownEvts } = s
  active : t.grn.active = s.grn.active
  result : (t.grn.staged = none ∧ t.grn.rejected = true ∧ t.grn.req = none ∧ t.grn.st = .idle ∧ t.crn.chans[c].go = false ∧ t.crn.chans[c].code = 3) ∨
    ∃ g n, { s with fresh := n }.checkImage r.slot r.plot = .ok (g, false) ∧ t.grn.staged = some g ∧ t.grn.st = .staged ∧ t.grn.req = s.grn.req

section

variable {s : State} {r : ActReq} {c : Fin 5} (hch : r.ch = some c) (hmode : s.sys.mode = .run) (hwaiting : s.grn.waiting = [])
include hch hmode hwaiting

theorem State.afterReject_judged (fresh : Nat) (grn : Grn) (hactive : grn.active = s.grn.active) (hgwaiting : grn.waiting = s.grn.waiting) (code off : Nat) :
    Judged c r s (({ s with fresh := fresh, grn := grn } : State).afterReject r code off) := by
  obtain ⟨crn, evts, heq, hgo, hcode⟩ := State.afterReject_of_chan (s := { s with fresh := fresh, grn := grn }) hch hmode (hgwaiting.trans hwaiting) code off
  rw [heq]
  exact ⟨rfl, hactive, .inl ⟨rfl, rfl, rfl, rfl, hgo, hcode⟩⟩

theorem State.stageResult_judged (fresh : Nat) : Judged c r s (({ s with fresh := fresh } : State).stageResult r (({ s with fresh := fresh } : State).checkImage r.slot r.plot)) := by
  generalize hcheck : ({ s with fresh := fresh } : State).checkImage r.slot r.plot = result
  cases result with
  | error e =>
    obtain ⟨code, off⟩ := e
    exact State.afterReject_judged hch hmode hwaiting fresh s.grn rfl rfl code off
  | ok image =>
    obtain ⟨g, split⟩ := image
    cases split with
    | true =>
      rw [State.stageResult_of_split]
      exact State.afterReject_judged hch hmode hwaiting fresh { s.grn with splitNext := g.split, splitPending := true } rfl rfl 10 _
    | false =>
      rw [State.stageResult_of_passed]
      exact ⟨rfl, rfl, .inr ⟨g, fresh, hcheck, rfl, rfl, rfl⟩⟩

theorem exec_grainStaged_of_checking (hreq : s.grn.req = some r) (hst : s.grn.st = .checking) : ∃ t, exec .grainStaged s = .next t ∧ Judged c r s t := by
  have hexec : exec .grainStaged s =
      if s.drawBool.1 then .next (s.drawBool.2.draw.2.afterReject r 14 (fieldAt s.drawBool.2.draw.1 0 22))
      else .next (s.drawBool.2.stageResult r (s.drawBool.2.checkImage r.slot r.plot)) := by
    show execGrainStaged s = _
    unfold execGrainStaged
    rw [hreq]
    exact if_pos hst
  rw [hexec]
  split
  · exact ⟨_, rfl, State.afterReject_judged hch hmode hwaiting (s.fresh + 1 + 1) s.grn rfl rfl 14 _⟩
  · exact ⟨_, rfl, State.stageResult_judged hch hmode hwaiting (s.fresh + 1)⟩

end

/-! ### The writing of an image (R410) -/

/-- From s to t, resets of boughs have changed boughs, links and what they carry alone. -/
structure ResetsBoughs (s t : State) : Prop where
  frame : { t with links := s.links, grafts := s.grafts, boughs := s.boughs, filters := s.filters, groves := s.groves, crownEvts := s.crownEvts } = s

namespace ResetsBoughs

theorem refl (s : State) : ResetsBoughs s s := ⟨rfl⟩

theorem trans {s t u : State} (h : ResetsBoughs s t) (k : ResetsBoughs t u) : ResetsBoughs s u := by
  have hback := congrArg (fun x : State =>
    { x with links := s.links, grafts := s.grafts, boughs := s.boughs, filters := s.filters, groves := s.groves, crownEvts := s.crownEvts }) k.frame
  exact ⟨(hback :).trans h.frame⟩

end ResetsBoughs

theorem State.beginBoughReset_resets (s : State) (b : BoughId) : ResetsBoughs s (s.beginBoughReset b) := by
  have hbreaks := (s.breakOwnLinks_breaks b).trans (State.discardBoth_breaks _ b)
  rw [State.beginBoughReset_eq]
  generalize (s.breakOwnLinks b).discardBoth b = t at hbreaks
  exact ResetsBoughs.trans ⟨hbreaks.frame⟩ ⟨rfl⟩

theorem State.endBoughReset_resets (s : State) (b : BoughId) : ResetsBoughs s (s.endBoughReset b) := by
  obtain ⟨links, grafts, heq⟩ := s.endBoughReset_eq b
  rw [heq]
  exact ⟨rfl⟩

theorem State.resetNow_resets (s : State) (b : BoughId) : ResetsBoughs s (s.resetNow b) := by
  unfold State.resetNow
  dsimp only
  split
  · exact (s.beginBoughReset_resets b).trans (State.endBoughReset_resets _ b)
  · exact s.beginBoughReset_resets b

theorem Bough.rests_cleared (y : Bough) (run : TwigRun) : (y.cleared run).Rests false := by
  refine ⟨rfl, rfl, nofun, fun h => ?_⟩
  show (Vector.replicate 2 Half.free)[h].st ≠ _
  simp [Half.free]

/-- The end of a reset leaves its bough and every other one at rest. -/
theorem State.endBoughReset_rests {s : State} {b : BoughId} (c : BoughId) (h : (s.bough b).Rests false) : ((s.endBoughReset c).bough b).Rests false := by
  obtain ⟨links, grafts, heq⟩ := s.endBoughReset_eq c
  rw [heq]
  show ((s.modBough c fun y => y.cleared (s.runAfterReset c)).bough b).Rests false
  by_cases hc : b = c
  · subst hc
    rw [State.bough_modBough]
    exact Bough.rests_cleared _ _
  · rw [State.bough_modBough_ne _ _ hc]
    exact h

theorem State.resetNow_rests {s : State} {b c : BoughId} (h : ((s.beginBoughReset c).bough b).Rests false) : ((s.resetNow c).bough b).Rests false := by
  unfold State.resetNow
  dsimp only
  split
  · exact State.endBoughReset_rests c h
  · exact h

/-- Every bough reset is at rest at the end. -/
theorem State.foldl_resetNow_rests {bs : List BoughId} {b : BoughId} (hb : b ∈ bs) (s : State) :
    ((bs.foldl (fun s b => s.resetNow b) s).bough b).Rests false :=
  foldl_of_mem (P := fun t : State => (t.bough b).Rests false) (fun t c ht => State.resetNow_rests ((t.beginBoughReset_rest c).rests ht))
    (fun t => State.resetNow_rests (t.rests_beginBoughReset b false)) hb s

/-- From s to t, the queues of the list l have been flushed. -/
structure Flushes (l : List QueueId) (s t : State) : Prop where
  frame : { t with queues := s.queues, ring := s.ring, grafts := s.grafts } = s
  empty : ∀ q ∈ l, t.queues[q].pending = [] ∧ t.queues[q].prod = none ∧ t.queues[q].cons = none
  kept : ∀ q ∉ l, t.queues[q] = s.queues[q]

theorem State.flushNow_eq (s : State) (q : QueueId) : ∃ grafts ring credits, s.flushNow q =
    ({ s with grafts := grafts, ring := ring } : State).modQueue q fun x => x.flushed credits := by
  unfold State.flushNow
  extract_lets x t
  obtain ⟨grafts, ht⟩ : ∃ grafts, t = { s with grafts := grafts } := by
    unfold t
    split
    · split
      · split
        · split_ifs
          · exact ⟨_, rfl⟩
          · exact ⟨s.grafts, rfl⟩
        · exact ⟨s.grafts, rfl⟩
      · exact ⟨s.grafts, rfl⟩
    · exact ⟨s.grafts, rfl⟩
  clear_value t
  obtain ⟨ring, hring⟩ := t.unpost_eq q
  rw [hring, ht]
  exact ⟨grafts, ring, _, rfl⟩

theorem State.foldl_flushNow_flushes (qs : List QueueId) (s : State) : Flushes qs s (qs.foldl (fun s q => s.flushNow q) s) := by
  induction qs generalizing s with
  | nil => exact ⟨rfl, fun q hq => absurd hq List.not_mem_nil, fun _ _ => rfl⟩
  | cons q qs ih =>
    obtain ⟨grafts, ring, credits, heq⟩ := s.flushNow_eq q
    obtain ⟨hframe, hempty, hkept⟩ := ih (s.flushNow q)
    rw [List.foldl_cons]
    generalize qs.foldl (fun s q => s.flushNow q) (s.flushNow q) = t at hframe hempty hkept
    rw [heq] at hframe hkept
    refine ⟨(congrArg (fun x : State => { x with queues := s.queues, ring := s.ring, grafts := s.grafts }) hframe :), fun r hr => ?_, fun r hr => ?_⟩
    · by_cases hin : r ∈ qs
      · exact hempty r hin
      · obtain rfl : r = q := (List.mem_cons.mp hr).resolve_right hin
        rw [hkept r hin, State.modQueue_queue_self]
        exact ⟨rfl, rfl, rfl⟩
    · rw [List.mem_cons, not_or] at hr
      exact (hkept r hr.2).trans (State.modQueue_queue_ne _ _ hr.1)

/-- A program written to its store changes no byte of root memory and of the scratchpads. -/
theorem Memory.read_writeRegion_below (m : Memory) (g base units : Nat) (ws : List (BitVec 16)) {a : Nat} (hzone : zoneOf a < 1024) (hlt : a < pstoreBase) :
    (m.writeRegion g base units ws).read a = m.read a := by
  have hzeroed : ∀ (is : List Nat) (m : Memory), (is.foldl (fun m i => m.zeroZone (pstoreZone g (base + i))) m).read a = m.read a := by
    intro is
    induction is with
    | nil => exact fun _ => rfl
    | cons i is ih =>
      intro m
      rw [List.foldl_cons, ih, m.read_zeroZone_other]
      unfold pstoreZone
      omega
  rw [Memory.writeRegion, Memory.read_putAll_eq, overlay_atAddr, if_neg fun hin => by
    have hstore := hin.1
    unfold pstoreAddr at hstore
    omega, hzeroed]

theorem State.foldl_writeProgram_eq (g : Grain) (ms : List PlotMap) (s : State) : ∃ mem : Memory, ms.foldl (fun s m => s.writeProgram g m) s = { s with mem := mem } ∧
    ∀ a, zoneOf a < 1024 → a < pstoreBase → mem.read a = s.mem.read a := by
  have hone : ∀ (s : State) (m : PlotMap), ∃ mem : Memory, s.writeProgram g m = { s with mem := mem } ∧
      ∀ a, zoneOf a < 1024 → a < pstoreBase → mem.read a = s.mem.read a := by
    intro s m
    refine ⟨_, State.foldl_modMem _ _ s, fun a hzone hlt => ?_⟩
    generalize grovesOf m.boughs = ks
    generalize s.mem = k
    induction ks generalizing k with
    | nil => rfl
    | cons j ks ih => rw [List.foldl_cons, ih, k.read_writeRegion_below _ _ _ _ hzone hlt]
  induction ms generalizing s with
  | nil => exact ⟨s.mem, rfl, fun _ _ _ => rfl⟩
  | cons m ms ih =>
    obtain ⟨mem, heq, hread⟩ := hone s m
    obtain ⟨mem', heq', hread'⟩ := ih { s with mem := mem }
    exact ⟨mem', by rw [List.foldl_cons, heq, heq'], fun a hzone hlt => (hread' a hzone hlt).trans (hread a hzone hlt)⟩

/-- Which regions, boughs and queues change hands rests on the loader alone. -/
theorem State.moves_congr {s t : State} (h : t.grn = s.grn) (g : Grain) :
    t.boughsMoved g = s.boughsMoved g ∧ t.queuesChanged g = s.queuesChanged g ∧ t.regionsToZero g = s.regionsToZero g := by
  refine ⟨?_, ?_, State.regionsToZero_congr (congrArg Grn.active h) (congrArg Grn.prevOwners h) g⟩
  · simp only [State.boughsMoved, State.boughPlot, State.plotMaps, h]
  · simp only [State.queuesChanged, State.queueRec_congr h]

theorem State.mem_regionsToZero {s : State} {g : Grain} {r : Nat} (hr : r < 512) : r ∈ s.regionsToZero g ↔
    s.prevOwner r ≠ (g.owner r).map (fun m => m.plot) ∧ (s.prevOwner r ≠ none ∨ ∃ m, g.owner r = some m ∧ m.keep.getLsbD r = false) := by
  unfold State.regionsToZero
  simp only [List.mem_filter, List.mem_range, hr, true_and, Bool.and_eq_true, bne_iff_ne, Bool.or_eq_true, Option.isSome_iff_ne_none]
  refine and_congr_right fun _ => or_congr_right ?_
  cases g.owner r with
  | none => simp
  | some m => simp

theorem State.foldl_resetNow_resets (bs : List BoughId) (s : State) : ResetsBoughs s (bs.foldl (fun s b => s.resetNow b) s) :=
  foldl_rel ResetsBoughs.refl (fun _ _ _ => ResetsBoughs.trans) State.resetNow_resets bs s

/-- From s to t the boughs have been reset, and the scratchpads and the queues that image g moves have been cleared. -/
structure Vacated (g : Grain) (s t : State) : Prop where
  sys : t.sys = s.sys
  grn : t.grn = s.grn
  rests : ∀ b, (t.bough b).Rests false
  empty : ∀ q ∈ s.queuesChanged g, t.queues[q].pending = [] ∧ t.queues[q].prod = none ∧ t.queues[q].cons = none
  kept : ∀ q ∉ s.queuesChanged g, t.queues[q] = s.queues[q]
  bytes : ∀ a, zoneOf a < 1024 → a < pstoreBase → t.mem.read a = if ∃ b ∈ s.boughsMoved g, zoneOf a = scratchZone b.val then 0 else s.mem.read a

/-- Every bough reset. -/
def State.resetAll (s : State) : State := (List.finRange 256).foldl (fun s b => s.resetNow b) s

theorem State.resetAll_resets (s : State) : ResetsBoughs s s.resetAll := by
  unfold State.resetAll
  exact State.foldl_resetNow_resets _ s

theorem State.resetAll_rests (s : State) (b : BoughId) : (s.resetAll.bough b).Rests false := by
  unfold State.resetAll
  exact State.foldl_resetNow_rests (List.mem_finRange b) s

/-- What image g moves is cleared: its programs are written, the boughs reset, the scratchpads zeroed and the queues flushed. -/
def State.vacate (s : State) (g : Grain) : State :=
  let t := (g.plots.foldl (fun s m => s.writeProgram g m) s).resetAll
  let u := ((g.plots.foldl (fun s m => s.writeProgram g m) s).boughsMoved g).foldl (fun s b => s.zeroScratch b) t
  (u.queuesChanged g).foldl (fun s q => s.flushNow q) u

theorem exec_activationWrite_of_staged {s : State} {g : Grain} (hstaged : s.grn.staged = some g) (hmode : s.sys.mode = .load)
    (hst : s.grn.st = .staged ∨ s.grn.st = .draining) :
    exec .activationWrite s = .next (((s.vacate g).zeroRegions g).modGrn fun x => { x with st := .writing }) := by
  show execActivationWrite s = _
  unfold execActivationWrite
  rw [hstaged]
  exact if_pos ⟨hmode, hst⟩

/-- A state vacated but for its queues. -/
theorem Vacated.of_reset {g : Grain} {s t : State} {mem1 : Memory} (hreset : ResetsBoughs ({ s with mem := mem1 } : State) t) (hrests : ∀ b, (t.bough b).Rests false)
    (hread1 : ∀ a, zoneOf a < 1024 → a < pstoreBase → mem1.read a = s.mem.read a) :
    let u := (s.boughsMoved g).foldl (fun s b => s.zeroScratch b) t
    Vacated g s ((u.queuesChanged g).foldl (fun s q => s.flushNow q) u) := by
  intro u
  obtain ⟨mem3, scr3, hzeroed, hread3⟩ := State.foldl_zeroScratch_eq (s.boughsMoved g) t
  have hu : u = { t with mem := mem3, scr := scr3 } := hzeroed
  clear_value u
  have hframe : { u with links := s.links, grafts := s.grafts, boughs := s.boughs, filters := s.filters, groves := s.groves, crownEvts := s.crownEvts
                         mem := s.mem, scr := s.scr } = s := by
    rw [hu]
    exact (congrArg (fun x : State => { x with mem := s.mem, scr := s.scr }) hreset.frame :)
  have hboughs : u.boughs = t.boughs := by rw [hu]
  have hmem : u.mem = mem3 := by rw [hu]
  have hmem2 : t.mem = mem1 := (congrArg State.mem hreset.frame :)
  have hgrn : u.grn = s.grn := (congrArg State.grn hframe :)
  have hqueues : u.queues = s.queues := (congrArg State.queues hframe :)
  rw [(State.moves_congr hgrn g).2.1]
  obtain ⟨hkept, hempty, hqueue⟩ := State.foldl_flushNow_flushes (s.queuesChanged g) u
  generalize (s.queuesChanged g).foldl (fun s q => s.flushNow q) u = v at hkept hempty hqueue
  have hvboughs : v.boughs = u.boughs := (congrArg State.boughs hkept :)
  have hvmem : v.mem = u.mem := (congrArg State.mem hkept :)
  refine ⟨(congrArg State.sys hkept :).trans (congrArg State.sys hframe :), (congrArg State.grn hkept :).trans hgrn, fun b => ?_, hempty, fun q hq => ?_, fun a hzone hlt => ?_⟩
  · have hbough : v.bough b = t.bough b := congrArg (fun w : Vector Bough 256 => w[b]) (hvboughs.trans hboughs)
    rw [hbough]
    exact hrests b
  · rw [hqueue q hq, hqueues]
  · rw [hvmem, hmem, hread3, hmem2, hread1 a hzone hlt]

theorem State.vacate_vacated (s : State) (g : Grain) : Vacated g s (s.vacate g) := by
  obtain ⟨mem1, hwritten, hread1⟩ := State.foldl_writeProgram_eq g g.plots s
  unfold State.vacate
  rw [hwritten, (State.moves_congr (t := { s with mem := mem1 }) (s := s) rfl g).1]
  exact Vacated.of_reset (State.resetAll_resets _) (State.resetAll_rests _) hread1

/-- The writing of image g has ended. -/
structure Written (g : Grain) (s t : State) : Prop where
  sys : t.sys = s.sys
  grn : t.grn.active = s.grn.active ∧ t.grn.staged = s.grn.staged ∧ t.grn.st = .writing
  rests : ∀ b, (t.bough b).Rests false
  empty : ∀ q ∈ s.queuesChanged g, t.queues[q].pending = [] ∧ t.queues[q].prod = none ∧ t.queues[q].cons = none
  kept : ∀ q ∉ s.queuesChanged g, t.queues[q] = s.queues[q]
  bytes : ∀ a, zoneOf a < 1024 → a < pstoreBase → t.mem.read a =
    if zoneOf a ∈ s.regionsToZero g ∨ ∃ b ∈ s.boughsMoved g, zoneOf a = scratchZone b.val then 0 else s.mem.read a

theorem Vacated.written {g : Grain} {s t : State} (h : Vacated g s t) : Written g s ((t.zeroRegions g).modGrn fun x => { x with st := .writing }) := by
  obtain ⟨mem, zeroing, heq, hread⟩ := t.zeroRegions_eq g
  rw [heq]
  refine ⟨h.sys, ⟨?_, ?_, rfl⟩, h.rests, h.empty, h.kept, fun a hzone hlt => ?_⟩
  · show t.grn.active = _
    rw [h.grn]
  · show t.grn.staged = _
    rw [h.grn]
  · show mem.read a = _
    rw [hread, (State.moves_congr h.grn g).2.2, h.bytes a hzone hlt]
    by_cases hregion : zoneOf a ∈ s.regionsToZero g
    · rw [if_pos hregion, if_pos (.inl hregion)]
    · simp only [hregion, if_false, false_or]

/-- Every region that is zeroed lies in root memory. -/
theorem State.lt_of_mem_regionsToZero {s : State} {g : Grain} {r : Nat} (h : r ∈ s.regionsToZero g) : r < 512 := by
  rw [State.regionsToZero, List.mem_filter] at h
  exact List.mem_range.mp h.1

/-- The bytes of root memory after the writing: those of the regions to zero are 0. -/
theorem Written.root {g : Grain} {s t : State} (h : Written g s t) {a : Nat} (ha : a < rootSize) :
    t.mem.read a = if a / 0x10000000 ∈ s.regionsToZero g then 0 else s.mem.read a := by
  have hzone := zoneOf_of_lt_rootSize ha
  have hlt := zoneOf_lt_of_lt_rootSize ha
  have hnone : ¬ ∃ b ∈ s.boughsMoved g, zoneOf a = scratchZone b.val := by
    rintro ⟨b, -, hb⟩
    unfold scratchZone at hb
    omega
  have hbelow : a < pstoreBase := Nat.lt_trans ha (by decide)
  rw [h.bytes a (by omega) hbelow, hzone] at *
  simp only [hnone, or_false]

/-- The bytes of a scratchpad after the writing: those of a bough that moves are 0. -/
theorem Written.scratch {g : Grain} {s t : State} (h : Written g s t) (b : BoughId) {i : Nat} (hi : i < 0x80000) :
    t.mem.read (scratchAddr b + i) = if b ∈ s.boughsMoved g then 0 else s.mem.read (scratchAddr b + i) := by
  have hzone := zoneOf_scratch b hi
  have hb := b.isLt
  have hbelow : scratchAddr b + i < pstoreBase := by
    unfold scratchAddr scratchBase pstoreBase
    omega
  have hregion : scratchZone b.val ∉ s.regionsToZero g := fun hin => by
    have hlt := State.lt_of_mem_regionsToZero hin
    unfold scratchZone at hlt
    omega
  have hmoved : (∃ c ∈ s.boughsMoved g, scratchZone b.val = scratchZone c.val) ↔ b ∈ s.boughsMoved g := by
    refine ⟨fun ⟨c, hc, heq⟩ => ?_, fun hin => ⟨b, hin, rfl⟩⟩
    obtain rfl : b = c := Fin.ext (by unfold scratchZone at heq; omega)
    exact hc
  rw [h.bytes _ (by rw [hzone]; unfold scratchZone; omega) hbelow, hzone]
  simp only [hregion, false_or, hmoved]

end Sys2Proof.Machine
open Sys2Proof Sys2Proof.Machine Sys2Proof.Safety

/-- Settles O38: a check ends in `State.afterReject` or with a staged image, and the writing is a chain of folds over what changes hands. -/
theorem imageLoading : Obligations.ImageLoading := by
  unfold Obligations.ImageLoading
  refine ⟨⟨fun s r c hreq hch hst hmode hwaiting => ?staged, fun s r hreq hst hplot hmode hlin => ⟨fun hdue => ?drain, fun hearly => ?early⟩⟩,
    fun s g hstaged hmode hst => ?write⟩
  case staged =>
    obtain ⟨t, hexec, hframe, hactive, hresult⟩ := exec_grainStaged_of_checking hch hmode hwaiting hreq hst
    refine ⟨t, hexec, fun g hg => ?_, fun ⟨hsome, _⟩ => ?_, fun hbad => ?_, hactive, hframe⟩
    · rcases hresult with ⟨hnone, -⟩ | ⟨g', n, hcheck, hstaged, -⟩
      · exact absurd (hnone.symm.trans hg) nofun
      · obtain rfl : g' = g := Option.some.inj (hstaged.symm.trans hg)
        exact ⟨n, hcheck⟩
    · rcases hresult with ⟨hnone, -⟩ | ⟨g', n, -, -, hstate, hkept⟩
      · rw [hnone] at hsome
        exact absurd hsome nofun
      · exact ⟨hstate, hkept.trans hreq⟩
    · rcases hresult with ⟨-, hrejected, hfree, hidle, hgo, hcode⟩ | ⟨g', n, hcheck, -⟩
      · exact ⟨hrejected, hfree, hidle, hgo, hcode⟩
      · exact absurd hcheck (hbad n g')
  case drain =>
    have hexec : exec .activationDrain s = .next ((s.modGrn fun g => { g with st := .draining }).beginDrain .activation) := by
      show execActivationDrain s = _
      unfold execActivationDrain
      rw [hreq]
      exact if_pos ⟨hst, hplot, hmode, hdue⟩
    rw [State.beginDrain_eq (s := s.modGrn fun g => { g with st := .draining }) hlin] at hexec
    exact ⟨_, hexec, rfl, rfl, rfl, rfl, rfl, rfl⟩
  case early =>
    refine ⟨s, ?_, rfl⟩
    show execActivationDrain s = _
    unfold execActivationDrain
    rw [hreq]
    exact if_neg fun h => absurd h.2.2.2 (Nat.not_le.mpr hearly)
  case write =>
    have hwritten := (s.vacate_vacated g).written
    have hexec := exec_activationWrite_of_staged hstaged hmode hst
    generalize ((s.vacate g).zeroRegions g).modGrn (fun x => { x with st := .writing }) = t at hwritten hexec
    obtain ⟨hactive, hkept, hwriting⟩ := hwritten.grn
    have hmoved : ∀ b : BoughId, b ∈ s.boughsMoved g ↔ (s.boughPlot b.val).map (fun m => m.plot) ≠ (g.plotOf b.val).map (fun m => m.plot) := fun b => by
      simp [State.boughsMoved]
    have hchanged : ∀ q : QueueId, q ∈ s.queuesChanged g ↔ s.queueRec q.val ≠ g.queueRec q.val := fun q => by simp [State.queuesChanged]
    refine ⟨t, hexec, hactive, hkept.trans hstaged, hwriting, hwritten.sys, fun a ha => ?_, fun b hb i hi => ?_, fun b hb i hi => ?_,
      fun b => ⟨(hwritten.rests b).iq, (hwritten.rests b).saved⟩,
      fun q hq => hwritten.empty q ((hchanged q).mpr hq), fun q hq => hwritten.kept q fun hin => (hchanged q).mp hin hq⟩
    · have hregion := State.mem_regionsToZero (s := s) (g := g) (r := a / 0x10000000) (by unfold rootSize at ha; omega)
      exact ⟨fun hzero => (hwritten.root ha).trans (if_pos (hregion.mpr hzero)), fun hkeep => (hwritten.root ha).trans (if_neg (mt hregion.mp hkeep))⟩
    · exact (hwritten.scratch b hi).trans (if_pos ((hmoved b).mpr hb))
    · exact (hwritten.scratch b hi).trans (if_neg fun hin => (hmoved b).mp hin hb)
end
